-- ==== Sys2Proof/Word.lean ====
section
/-! DEFINITION. The words of the engine: 32-bit register words (R6), bytes (R5), and their plainest arithmetic. -/

namespace Sys2Proof

/-- A register word (R6: 32 bits unless its map states otherwise). -/
abbrev Word := BitVec 32

/-- A byte; every memory of the engine is byte-addressed (R5). -/
abbrev Byte := BitVec 8

/-- A 16-bit number kept as bits: generations, keys, wafer identifiers. -/
abbrev Half := BitVec 16

end Sys2Proof
end

