-- ==== Sys2Proof/Syntax.lean ====
section
/-! DEFINITION. The commands of the engine: one constructor of Instr per row of the table of operations and events, with the operands the owning rule names. -/

namespace Sys2Proof

/-- A tile position, by global coordinates (R10). -/
structure TileId where
  x : Nat
  y : Nat
  deriving DecidableEq, Repr, Inhabited

/-- The operand fields of an Xkyoro instruction word (R40): register numbers and the three mod bits. -/
structure XArgs where
  rd : Nat
  rs1 : Nat
  rs2 : Nat
  mods : Nat
  deriving DecidableEq, Repr, Inhabited

/-- The operand fields of a base load or store: width in bytes, zero extension, registers, sign-extended immediate, and the instruction's own length in bytes. -/
structure LsArgs where
  size : Nat
  unsigned : Bool
  reg : Nat
  rs1 : Nat
  imm : Word
  ilen : Nat
  deriving DecidableEq, Repr, Inhabited

/-- The six Zicsr operations (R35). -/
inductive CsrOp where
  | rw | rs | rc | rwi | rsi | rci
  deriving DecidableEq, Repr, Inhabited

/-- An issue stream of a tile (chapter 2, Issue streams). -/
inductive Stream where
  | core
  | engine (e : Nat)
  | fire
  deriving DecidableEq, Repr, Inhabited

/-- An endpoint of the mesh: a packet's source or destination (R172, R179). A dock is named with one of its injection points (R20). -/
inductive Endp where
  | tile (t : TileId)
  | dock (p : Nat) (inj : Nat)
  | fc (f : Nat)
  | gate (k : Nat)
  | conductor
  deriving DecidableEq, Repr, Inhabited

/-- The wafer-to-wafer part of a packet that leaves or came through a dock (R276, R282, R285): originating and destination wafer, the endpoint at the destination, the hop list with its next entry, and whether it is an answer on its reverse path. -/
structure Far where
  srcWafer : Nat
  dstWafer : Nat
  endp : Endp
  hops : List Nat := []
  idx : Nat := 0
  answer : Bool := false
  deriving DecidableEq, Repr, Inhabited

/-- The header fields an endpoint reads (R172): source, destination, destination generation and request tag; far is set on a packet between wafers. srcGen is a source tile's generation, to which every answer is sent (R65): the payloads of R215, R240 and R283 carry it, and the model holds it here for every packet (log entry 77). -/
structure Hdr where
  src : Endp
  dst : Endp
  dstGen : Nat
  tag : Nat
  far : Option Far := none
  srcGen : Nat := 0
  deriving DecidableEq, Repr, Inhabited

/-- What the offset bits of a connection packet carry (R215). -/
structure ConnRef where
  queue : Nat
  qinc : Nat
  ctx : Nat
  deriving DecidableEq, Repr, Inhabited

/-- OPEN payload, op 0 (R215). -/
structure OpenBody where
  ctx : Nat
  queue : Nat
  credits : Nat
  gen : Nat
  deriving DecidableEq, Repr, Inhabited

/-- OPEN payload, op 1 probe (R215, R227). -/
structure ProbeBody where
  ctx : Nat
  queue : Nat
  gen : Nat
  qinc : Nat
  deriving DecidableEq, Repr, Inhabited

/-- CLOSE payload (R215); the row gives its op. -/
structure CloseBody where
  ref : ConnRef
  gen : Nat
  seq : Nat
  deriving DecidableEq, Repr, Inhabited

/-- GRANT payload (R215). -/
structure GrantBody where
  ref : ConnRef
  credits : Nat
  kind : Nat
  op : Nat
  maxSize : Nat
  gen : Nat
  deriving DecidableEq, Repr, Inhabited

/-- Connection CREDIT payload (R215). -/
structure CreditBody where
  ref : ConnRef
  count : Nat
  gen : Nat
  deriving DecidableEq, Repr, Inhabited

/-- MESSAGE payload (R215). -/
structure MsgBody where
  ref : ConnRef
  seq : Nat
  gen : Nat
  data : List Byte
  deriving DecidableEq, Repr, Inhabited

/-- The rank of a contribution (R93). -/
structure Rank where
  wafer : Nat
  y : Nat
  x : Nat
  ctx : Nat
  pos : Nat
  deriving DecidableEq, Repr, Inhabited

/-- One contribution of a COMBINE packet (R203), with its sender, tag and sender's generation, which a merged packet has twice. -/
structure Contribution where
  ref : ConnRef
  slot : Nat
  op : Nat
  value : Word
  rank : Rank
  src : Endp
  tag : Nat
  srcGen : Nat := 0
  deriving DecidableEq, Repr, Inhabited

/-- The home tile's mode and seed carried by a steal reply (R87). -/
structure HomeMode where
  round : Nat
  sat : Bool
  seed : Nat
  deriving DecidableEq, Repr, Inhabited

/-- A forage unit as it travels and as it is queued: its 32 descriptor bytes (R48), its identity, its home (R59), what it belongs to, and for a unit at a thief its steal-out entry and home mode. -/
structure FUnit where
  desc : List Byte
  unitId : Nat
  home : TileId
  homeGen : Nat
  firing : Option (Nat × Nat)
  conn : Option (TileId × Nat × Nat)
  stolen : Option (Nat × HomeMode)
  deriving DecidableEq, Repr, Inhabited

/-- A stolen unit's delivery (R58, R87). -/
structure StolenUnit where
  unit : FUnit
  mode : HomeMode
  entry : Nat
  deriving DecidableEq, Repr, Inhabited

/-- A thief's operand read (R59): at_ is where in the operand the bytes asked for begin. -/
structure OperandReq where
  entry : Nat
  engine : Nat
  homeGen : Nat
  which : Nat
  at_ : Nat := 0
  deriving DecidableEq, Repr, Inhabited

/-- One write of a stolen unit's result (R59, R88): bytes by their place in the result, contributions and flags; last marks the unit's last write. -/
structure ResultBody where
  entry : Nat
  homeGen : Nat
  unitId : Nat
  flags : Nat
  elems : List Word
  data : List (Nat × Byte)
  last : Bool := true
  deriving DecidableEq, Repr, Inhabited

/-- A SYNC request (R240). -/
structure SyncBody where
  index : Nat
  amount : Nat
  srcGen : Nat
  srcWafer : Nat
  deriving DecidableEq, Repr, Inhabited

/-- The remote extension of a window request: descriptor bytes 0 to 13 and src_gen (R283), with the source wafer the frame names. -/
structure RemoteBody where
  srcWafer : Nat
  wafer : Nat
  key : Nat
  target : TileId
  window : Nat
  offset : Nat
  length : Nat
  srcGen : Nat
  deriving DecidableEq, Repr, Inhabited

/-- A token (R144): header fields and payload; slot and emit name the sender's entry (kept in the packet tag). -/
structure TokenBody where
  iteration : Nat
  epoch : Nat
  void : Bool
  node : Nat
  port : Nat
  part : Nat
  len : Nat
  slot : Nat
  emit : Nat
  src : TileId
  srcGen : Nat
  payload : List Byte
  deriving DecidableEq, Repr, Inhabited

/-- What an answer answers (R175, R215: the tag of its request and the offset bits). An operand's answer names where its bytes begin, or with DATA_ERROR the tile-local offset of the bad word. -/
inductive Re where
  | conn (r : ConnRef)
  | opening (r : ConnRef)
  | probe (r : ConnRef)
  | token (t : TokenBody)
  | result (entry : Nat)
  | operand (engine which at_ : Nat)
  | steal (engine : Nat)
  | xput
  | xget
  | signal (cell : Nat) (posted : Bool)
  | wait (cell : Nat)
  | read (cell : Nat)
  | cancel (cell : Nat)
  | release (cell gen : Nat)
  | raw (id : Nat)
  | ctrl (id : Nat)
  | closing
  deriving DecidableEq, Repr, Inhabited

/-- The target of an array-wide switch (R163). -/
inductive SwitchTarget where
  | slot (s : Nat)
  | entry (e : Nat)
  deriving DecidableEq, Repr, Inhabited

/-- The rectangle of a MULTICAST packet (R204). -/
structure Rect where
  x0 : Nat
  y0 : Nat
  x1 : Nat
  y1 : Nat
  deriving DecidableEq, Repr, Inhabited

/-- Packet bodies, by kind (R174). -/
inductive Body where
  | ctrlWrite (off : Nat) (data : List Byte)
  | ctrlRead (off : Nat) (len : Nat)
  | ctrlAdmit
  | ctrlSwitch (tgt : SwitchTarget) (at_ : Nat)
  | ctrlDload (slot : Nat) (ref : Word) (purge : Bool)
  | ctrlSample (handle : Nat) (n : Nat) (at_ : Nat)
  | ctrlReply (re : Nat) (status : Nat) (data : List Byte)
  | rawWrite (off : Nat) (data : List Byte)
  | rawRead (off : Nat) (len : Nat)
  | openReq (b : OpenBody)
  | probe (b : ProbeBody)
  | close (op : Nat) (b : CloseBody)
  | steal (engine domain gen : Nat)
  | operandRead (b : OperandReq)
  | sync (op : Nat) (b : SyncBody)
  | remoteRead (b : RemoteBody)
  | reply (re : Re) (status : Nat) (data : List Byte)
  | status (re : Re) (code : Nat)
  | grant (b : GrantBody)
  | credit (b : CreditBody)
  | tokenCredit (slot : Nat) (emit : Nat)
  | stealReply (u : Option StolenUnit)
  | message (b : MsgBody)
  | token (b : TokenBody)
  | result (b : ResultBody)
  | failure (entry : Nat) (homeGen : Nat) (unitId : Nat)
  | combine (cs : List Contribution)
  | remoteWrite (b : RemoteBody) (data : List Byte)
  | multicast (r : Rect) (off : Nat) (data : List Byte)
  deriving DecidableEq, Repr, Inhabited

/-- A mesh packet (R172). -/
structure Pkt where
  h : Hdr
  body : Body
  deriving DecidableEq, Repr, Inhabited

/-- A DATA frame on the fibre (R276): its sequence number, the acknowledgement and credits it carries, its channel and its packet, whose header holds the wafers and hops; mark is set on the first frame over a new lane set (R279). -/
structure Frame where
  seq : Nat
  ack : Nat
  creditVc : Nat
  credits : Nat
  vc : Nat
  pkt : Pkt
  mark : Bool := false
  deriving DecidableEq, Repr, Inhabited

/-- One rate's entry of a capability block (R271). -/
structure RateCap where
  tx : Nat
  rx : Nat
  fec : Nat
  deriving DecidableEq, Repr, Inhabited

/-- A capability block (R271): txMap and rxMap give the fibre of each path, four bits each; sigOk and chainOk are the outcomes of the published verifications of R273. -/
structure CapBlock where
  versions : Nat
  rate3 : RateCap
  rate2 : RateCap
  rate1 : RateCap
  port : Nat
  wafer : Nat
  txMap : Nat := 0
  rxMap : Nat := 0
  nonce : Nat
  echo : Nat
  cert : Nat
  serial : Nat
  sigOk : Bool
  chainOk : Bool
  deriving DecidableEq, Repr, Inhabited

/-- A negotiated link mode (R272). -/
structure LinkMode where
  version : Nat
  rate : Nat
  paths : Nat
  fec : Nat
  deriving DecidableEq, Repr, Inhabited

/-- What training at one rate measured, on the fibres in force after any move (R265, R267, R270): the transmit paths that the partner reports dark and the receive paths found dark, bit p for path p, and the worst pre-FEC bit error ratio over the usable lanes, in units of 10⁻¹⁵. -/
structure RateTrain where
  txDark : Nat
  rxDark : Nat
  ber : Nat
  deriving DecidableEq, Repr, Inhabited

/-- What training measured (R265, R270): the paths dark in each direction before any move, and each rate. -/
structure TrainResult where
  txDark : Nat
  rxDark : Nat
  rate3 : RateTrain
  rate2 : RateTrain
  rate1 : RateTrain
  deriving DecidableEq, Repr, Inhabited

/-- A CERT frame (R270): a request for the partner's certificate chain, or part of the chain. -/
inductive CertFrame where
  | request
  | part (data : List Byte) (last : Bool)
  deriving DecidableEq, Repr, Inhabited

/-- A CERT frame at a port (R270). -/
structure CertAt where
  port : Nat
  frame : CertFrame
  deriving DecidableEq, Repr, Inhabited

/-- How many frames have passed between the ends of a port since their MODE frames (R270). -/
structure SwitchAt where
  port : Nat
  frames : Nat
  deriving DecidableEq, Repr, Inhabited

/-- A power note (R344). -/
structure PowerNote where
  hopsLeft : Nat
  origin : Nat
  group : Nat
  seq : Nat
  estimate : Nat
  capEff : Nat
  thatching : Nat
  time : Nat
  deriving DecidableEq, Repr, Inhabited

/-- A broker message's body (R407). -/
inductive BrokerBody where
  | connectRequest (farPos : TileId) (queue credits : Nat) (origin : TileId) (ctx : Nat)
  | connectReply (status proxyGen proxy qinc credits kind op maxSize gen : Nat)
  | close (proxyGen proxy : Nat)
  | lookupRequest (name : Nat)
  | lookupReply (status : Nat) (pos : TileId) (window key length : Nat)
  deriving DecidableEq, Repr, Inhabited

/-- A broker message (R407). -/
structure BrokerMsg where
  origin : Nat
  target : Nat
  request : Nat
  body : BrokerBody
  deriving DecidableEq, Repr, Inhabited

/-- Who writes a register: the parties the register maps name (R66, R208, R261, R356, R385). -/
inductive Writer where
  | core
  | fc
  | conductor
  | hedgerow
  | master
  | host (machine : Bool)
  deriving DecidableEq, Repr, Inhabited

/-- Where a register lies: a tile's block, a field controller's space, a host node's control block, an Ethernet port's block, a node's ACLINT (R419), a hart's stimecmp (R418), or the mailbox block as a spine port reaches it (R384). -/
inductive RegSpace where
  | tile (t : TileId)
  | fc (f : Nat)
  | hostCtl (k : Nat)
  | eth (k port : Nat)
  | aclint (k : Nat)
  | stimecmp (k hart : Nat)
  | mailbox (sp : Nat) (secure : Bool)
  deriving DecidableEq, Repr, Inhabited

/-- A debugger operation on a cell (R258). -/
inductive CellOp where
  | read
  | set (type value target : Nat)
  | force (waiter : Option (TileId × Nat))
  | list
  deriving DecidableEq, Repr, Inhabited

/-- The march a MARCH_DONE ends (R363). -/
inductive MarchKind where
  | scratchpad
  | tileMemory
  deriving DecidableEq, Repr, Inhabited

/-- What started a warm reset (R369). -/
inductive WarmCause where
  | gliast
  | silence
  | redfish
  | pin
  deriving DecidableEq, Repr, Inhabited

/-- The form of a hart's wafer-window access (R424). -/
inductive HartForm where
  | scalar
  | vector
  | amo
  deriving DecidableEq, Repr, Inhabited

/-- One sensor frame Hedgerow reads from a field (R455): the 12 thermal readings in steps of 0.25 degree, the four voltages in mV (core rail, memory rail, bus, port rail), and the lowest level of each of the 24 replica monitors. -/
structure SensorFrame where
  thermal : List Int
  volts : List Nat
  margin : List Nat
  deriving DecidableEq, Repr, Inhabited

/-- A configuration item and its new value (R452). -/
inductive ConfigItem where
  | network (image : Nat)
  | recoveryUrl (url : Option Nat)
  | silenceReset (on : Bool)
  | bootSource (nvme : Bool)
  | forwardMask (codes : List Nat)
  | rateLimit (code rate depth : Nat)
  deriving DecidableEq, Repr, Inhabited

/-- An image as it is pushed (R460, R461): header fields, a number that stands for its header digest, the outcomes of the published checks, and whether its last block has come with it (R463). -/
structure ImagePush where
  kind : Nat
  version : Nat
  svn : Nat
  length : Nat
  key : Nat
  digest : Nat
  headerOk : Bool
  exelornSigOk : Bool
  ownerSigOk : Bool
  tableOk : Bool
  badBlock : Option Nat
  last : Bool := true
  deriving DecidableEq, Repr, Inhabited

/-- Where a region is repaired from (R465). -/
inductive RepairSource where
  | staged
  | url (img : ImagePush)
  | push (img : ImagePush)
  deriving DecidableEq, Repr, Inhabited

/-- The answer to SLOT_GET (R454). -/
inductive SlotAnswer where
  | record (serial cert wafer installed : Nat)
  | noRecord
  | unsupported
  deriving DecidableEq, Repr, Inhabited

/-- A change to an account (R451). -/
inductive AccountChange where
  | create (name role password : Nat)
  | modify (name role password : Nat)
  | remove (name : Nat)
  deriving DecidableEq, Repr, Inhabited

/-- The resources a Redfish read may name (R448). -/
inductive RedfishUri where
  | root | chassis | sensors | powerLimit | powerSubsystem | thermalSubsystem | manager
  | network | scarab | updateService | tasks | accounts | sessions
  | other
  deriving DecidableEq, Repr, Inhabited


/-- What a patrol-scrub row read reports (R122): a tile, the word offset and whether the error is beyond correction. -/
structure ScrubErr where
  tile : TileId
  off : Nat
  uncorrectable : Bool
  deriving DecidableEq, Repr, Inhabited

/-- The coolant readings of one sample (R351): inlet and outlet in 0.1 degree, flow in 0.1 litre a minute, and whether a sensor has failed. -/
structure Coolant where
  inlet : Int
  outlet : Int
  flow : Nat
  failed : Bool
  deriving DecidableEq, Repr, Inhabited

/-- Why Hedgerow restarts (R444). -/
inductive HedgeCause where
  | reset | commit | watchdog
  deriving DecidableEq, Repr, Inhabited

/-- An SPDM request (R458, R459): its transport (0 TCP, 1 MCTP), the requester's address or endpoint, its version (1.3 is 0x13), the algorithms it offers (bit 0 P-521, bit 1 SHA-512), the slot and the block it names, an offset and length, and whether a signature is asked for. -/
structure SpdmReq where
  transport : Nat
  requester : Nat
  version : Nat
  algs : Nat
  slot : Nat
  block : Nat
  offset : Nat
  length : Nat
  signed : Bool
  deriving DecidableEq, Repr, Inhabited

/-- The commands: one constructor per row of the table of operations and events. Each docstring names the owning rule. -/
inductive Instr where
  /-- INPUT_POWER_APPLIED (R26). 60 V input enters its operating range; the standby converter starts Hedgerow and the cricket domain. -/
  | inputPowerApplied (mv : Nat) (bad : List Nat)
  /-- POWER_ENABLE (R497). STBY_GOOD and PWR_EN are both high, so Hedgerow enables the power board and releases cold reset at step 3 of R26. -/
  | powerEnable
  /-- PWR_EN_FALL (R497). PWR_EN falls; start-up is abandoned under R33, or the shutdown of R499 starts after bring-up. -/
  | pwrEnFall
  /-- SHUTDOWN_CONDUCTOR_TIMEOUT (R499). No conductor has answered by P + 10 ms, so Hedgerow disables the power board directly. -/
  | shutdownConductorTimeout
  /-- STBY_GOOD_FALL (R497). STBY_GOOD falls while PWR_EN is high; this acts as a PWR_EN fall. -/
  | stbyGoodFall
  /-- MOD_RESET_FALL (R497). MOD_RESET_N falls; this starts a warm reset, or restarts start-up under R33. -/
  | modResetFall
  /-- MOD_RESET_RELEASE (R33). Module reset is released during start-up, and the sequence restarts from step 3. -/
  | modResetRelease
  /-- IDENT_INPUT (R497). IDENT_N changes level, and the identify LED follows it. -/
  | identInput (low : Bool)
  /-- CONDUCTOR_SILENCE_CHECK (R24). Both conductor pairs have been silent for 1 s; Hedgerow writes CONDUCTORS_SILENT. -/
  | conductorSilenceCheck
  /-- CONDUCTOR_SILENCE_ACTION (R24). After a further 4 s Hedgerow performs a warm reset, or a cold restart if bring-up is incomplete. -/
  | conductorSilenceAction
  /-- COLD_RESTART_TIMER (R24). The 2 s power-board disable ends and the engine restarts from step 3 as a cold reset. -/
  | coldRestartTimer
  /-- RV_INSTRUCTION (R34). The control core executes a base RV32IMC instruction, with the costs of its class. -/
  | rvInstruction (t : TileId)
  /-- CORE_LOAD (R36). A control-core load from scratchpad, tile memory or the register block. -/
  | coreLoad (t : TileId) (a : LsArgs)
  /-- CORE_STORE (R36). A control-core store to scratchpad, tile memory or the register block. -/
  | coreStore (t : TileId) (a : LsArgs)
  /-- CSR_ACCESS (R35). A read-only CSR is read; a write or an unlisted CSR is illegal. -/
  | csrAccess (t : TileId) (csr : Nat) (op : CsrOp) (rd : Nat) (rs1 : Nat)
  /-- ECALL (R34). ecall halts the core with fault 0x0702. -/
  | ecall (t : TileId)
  /-- EBREAK (R34). ebreak halts the core with fault 0x0703. -/
  | ebreak (t : TileId)
  /-- STALL_CONDITION_MET (R37). A stalled operation's condition becomes true, and it proceeds at the head of its issue stream. -/
  | stallConditionMet (t : TileId) (st : Stream)
  /-- STALL_WATCHDOG_EXPIRY (R38). The stall watchdog expires; a core instruction completes STALL_TIMEOUT, or an ant-engine unit fails. -/
  | stallWatchdogExpiry (t : TileId) (st : Stream)
  /-- QOPEN (R217). qopen takes an IDLE context, sends OPEN and stalls for the answer. -/
  | qopen (t : TileId) (a : XArgs)
  /-- QCLOSE (R225). qclose closes a sender context or, with mod 0 set, a receive queue. -/
  | qclose (t : TileId) (a : XArgs)
  /-- QSEND (R220). qsend sends one message or contribution against a credit. -/
  | qsend (t : TileId) (a : XArgs)
  /-- QTRYSEND (R220). The non-stalling form of qsend. -/
  | qtrysend (t : TileId) (a : XArgs)
  /-- QRECV (R223). qrecv takes the next message or marker from a message queue. -/
  | qrecv (t : TileId) (a : XArgs)
  /-- QTRYRECV (R223). The non-stalling form of qrecv. -/
  | qtryrecv (t : TileId) (a : XArgs)
  /-- QSELECT (R229). qselect chooses a ready queue among those in a mask. -/
  | qselect (t : TileId) (a : XArgs)
  /-- QSTAT (R213). qstat returns QSTAT in rd without stalling. -/
  | qstat (t : TileId) (a : XArgs)
  /-- SWAIT (R244). swait waits on a local or global sync cell. -/
  | swait (t : TileId) (a : XArgs)
  /-- SSIGNAL (R44). ssignal signals a local, global or remote cell, posted or not. -/
  | ssignal (t : TileId) (a : XArgs)
  /-- SFENCE (R249). sfence waits until its scope holds no outstanding writes, and reports any that were lost. -/
  | sfence (t : TileId) (a : XArgs)
  /-- SREAD (R44). sread reads a cell's value. -/
  | sread (t : TileId) (a : XArgs)
  /-- FPUSH (R48). fpush checks a forage descriptor and pushes it onto a deque. -/
  | fpush (t : TileId) (a : XArgs)
  /-- FSTEAL (R46). fsteal asks a victim for a unit. -/
  | fsteal (t : TileId) (a : XArgs)
  /-- FWAIT (R46). fwait waits until the outstanding units fall to a threshold. -/
  | fwait (t : TileId) (a : XArgs)
  /-- HSET (R126). hset checks a handle image and writes a handle entry. -/
  | hset (t : TileId) (a : XArgs)
  /-- HCLR (R126). hclr invalidates a handle that is not in use. -/
  | hclr (t : TileId) (a : XArgs)
  /-- LDT (R130). ldt reads a word through a handle, honouring and possibly consuming tags. -/
  | ldt (t : TileId) (a : XArgs)
  /-- STT (R130). stt writes a word through a handle and may set the slot full. -/
  | stt (t : TileId) (a : XArgs)
  /-- TFILL (R129). tfill sets or clears the tags of slots. -/
  | tfill (t : TileId) (a : XArgs)
  /-- DLOAD (R158). dload checks a configuration image and loads it into a fold slot. -/
  | dload (t : TileId) (a : XArgs)
  /-- DSWITCH (R161). dswitch selects the active slot, or resumes the fold schedule. -/
  | dswitch (t : TileId) (a : XArgs)
  /-- DPURGE (R160). dpurge discards a slot's tokens and returns their credits. -/
  | dpurge (t : TileId) (a : XArgs)
  /-- DSAMPLE (R167). dsample starts or stops queue-depth sampling. -/
  | dsample (t : TileId) (a : XArgs)
  /-- WOPEN (R136). wopen checks a window image and opens the window. -/
  | wopen (t : TileId) (a : XArgs)
  /-- WCLOSE (R138). wclose moves an OPEN window to CLOSING with a drain deadline. -/
  | wclose (t : TileId) (a : XArgs)
  /-- XPUT (R283). xput sends a remote write through the ingress dock. -/
  | xput (t : TileId) (a : XArgs)
  /-- XGET (R283). xget sends a remote read and lands the reply. -/
  | xget (t : TileId) (a : XArgs)
  /-- UNIT_START (R51). An ant engine starts the ready unit at the head of its deque. -/
  | unitStart (t : TileId) (e : Nat)
  /-- UNIT_RETIRE (R51). A unit finishes accumulating, writes its destinations and sets their tags full in one cycle. -/
  | unitRetire (t : TileId) (e : Nat)
  /-- INTRA_TILE_STEAL (R55). An idle ant engine steals the tail unit of a sibling's deque. -/
  | intraTileSteal (t : TileId) (e : Nat)
  /-- STEAL_SEARCH (R57). A tile idle for idle_delay × 8 cycles sends steal requests to candidate victims. -/
  | stealSearch (t : TileId)
  /-- STEAL_BACKOFF_EXPIRY (R57). The wait of idle_delay × 32 cycles after every candidate answered NOT_FOUND ends, and the search starts again. -/
  | stealBackoffExpiry (t : TileId)
  /-- STEAL_RETURN_TIMEOUT (R60). A steal-out entry's return watchdog expires, and the unit is re-queued with pin_tile set. -/
  | stealReturnTimeout (t : TileId) (entry : Nat)
  /-- STEAL_FAILURE_NOTICE (R60). A thief's failure notice arrives, and the home tile counts the unit failed and frees the entry. -/
  | stealFailureNotice (h : Hdr) (entry : Nat) (homeGen : Nat) (unitId : Nat)
  /-- ENGINE_SLEEP (R329). After 256 idle cycles a tile's ant engines go to sleep. -/
  | engineSleep (t : TileId)
  /-- CTRL_WRITE (R115). A VC0 raw write from the field controller or conductor arrives at a tile. -/
  | ctrlWrite (h : Hdr) (off : Nat) (data : List Byte)
  /-- CTRL_READ (R115). A VC0 raw read from the field controller or conductor arrives at a tile. -/
  | ctrlRead (h : Hdr) (off : Nat) (len : Nat)
  /-- CTRL_ORDER_ADMIT (R62). An admission order makes a QUARANTINE tile ADMITTED and starts its core at START_PC. -/
  | ctrlOrderAdmit (h : Hdr)
  /-- CTRL_ORDER_SWITCH (R163). An array-wide switch order is armed at a tile for wafer time T. -/
  | ctrlOrderSwitch (h : Hdr) (tgt : SwitchTarget) (at_ : Nat)
  /-- CTRL_ORDER_DLOAD (R163). A field controller orders a dload at a tile, following R158. -/
  | ctrlOrderDload (h : Hdr) (slot : Nat) (ref : Word) (purge : Bool)
  /-- CTRL_ORDER_SAMPLE (R167). A field controller starts sampling at one wafer-time count. -/
  | ctrlOrderSample (h : Hdr) (handle : Nat) (n : Nat) (at_ : Nat)
  /-- CTRL_REPLY (R175). A VC0 reply arrives at its requester. -/
  | ctrlReply (h : Hdr) (re : Nat) (status : Nat) (data : List Byte)
  /-- TILE_RESET_ORDER (R62). A tile enters QUARANTINE with a new generation and is cleared by R64. -/
  | tileResetOrder (t : TileId)
  /-- RAW_WRITE (R115). A host raw write arrives at a tile. -/
  | rawWrite (h : Hdr) (off : Nat) (data : List Byte)
  /-- RAW_READ (R115). A host raw read arrives at a tile and is answered. -/
  | rawRead (h : Hdr) (off : Nat) (len : Nat)
  /-- OPEN (R218). An OPEN arrives at a receive queue and is granted or refused. -/
  | openArrives (h : Hdr) (b : OpenBody)
  /-- PROBE (R227). An OPEN of op 1 probe arrives and is answered OK, CLOSED or PEER_LOST. -/
  | probe (h : Hdr) (b : ProbeBody)
  /-- SENDER_CLOSE (R224). A CLOSE of op 0 arrives and ends the record once its messages have landed. -/
  | senderClose (h : Hdr) (b : CloseBody)
  /-- READER_NOTICE (R225). A CLOSE of op 1 arrives at a sender and makes its context CLOSED. -/
  | readerNotice (h : Hdr) (b : CloseBody)
  /-- CLOSE_AFTER_LOSS (R224). A CLOSE of op 2 ends the record with a marker. -/
  | closeAfterLoss (h : Hdr) (b : CloseBody)
  /-- RECORD_TIMEOUT (R224). Messages are still missing 250,000 ticks after a sender close, and the record ends with a marker. -/
  | recordTimeout (t : TileId) (r : Nat)
  /-- STEAL (R58). A steal request arrives at a victim and is served with a unit or NOT_FOUND. -/
  | steal (h : Hdr) (engine : Nat) (domain : Nat) (gen : Nat)
  /-- OPERAND_READ (R59). A thief's read of a home tile's operands arrives and is answered. -/
  | operandRead (h : Hdr) (b : OperandReq)
  /-- SYNC_WAIT (R242). A wait request arrives at the host field controller, and the waiter completes or is recorded. -/
  | syncWait (h : Hdr) (b : SyncBody)
  /-- SYNC_SIGNAL (R242). An unposted signal arrives, is applied, releases waiters and is acknowledged. -/
  | syncSignal (h : Hdr) (b : SyncBody)
  /-- SYNC_POSTED_SIGNAL (R242). A posted signal arrives and is applied without an answer. -/
  | syncPostedSignal (h : Hdr) (b : SyncBody)
  /-- SYNC_READ (R241). A read request arrives and is answered with the cell value. -/
  | syncRead (h : Hdr) (b : SyncBody)
  /-- SYNC_CANCEL (R252). A cancel arrives and is answered CANCELLED or OK. -/
  | syncCancel (h : Hdr) (b : SyncBody)
  /-- SYNC_WAIT_RESEND (R245). A wait refused with RETRY is sent again after 64 cycles. -/
  | syncWaitResend (t : TileId)
  /-- STALE_RELEASE_REFUSED (R247). A release refused with PEER_LOST restores the unit and releases the next waiter. -/
  | staleReleaseRefused (f : Nat) (cell : Nat) (waiter : TileId)
  /-- REMOTE_READ (R137). A remote read reaches a tile's window, is checked and is answered. -/
  | remoteRead (h : Hdr) (b : RemoteBody)
  /-- REMOTE_WRITE (R137). A remote write reaches a tile's window, is checked and lands. -/
  | remoteWrite (h : Hdr) (b : RemoteBody) (data : List Byte)
  /-- WINDOW_HELD_SERVE (R140). A request held on tags proceeds once its slots meet their condition. -/
  | windowHeldServe (t : TileId) (w : Nat)
  /-- WINDOW_HOLD_TIMEOUT (R141). A held window request waits out STALL_WDOG and is refused with STALL_TIMEOUT. -/
  | windowHoldTimeout (t : TileId) (w : Nat)
  /-- WINDOW_DEADLINE (R138). Wafer time reaches WIN_DEADLINE; held requests are refused and the window becomes CLOSED. -/
  | windowDeadline (t : TileId) (w : Nat)
  /-- REPLY (R175). A read reply with its status byte arrives at its requester. -/
  | reply (h : Hdr) (re : Re) (status : Nat) (data : List Byte)
  /-- STATUS (R248). An acknowledgement or negative acknowledgement arrives and settles its operation and fence counters. -/
  | status (h : Hdr) (re : Re) (code : Nat)
  /-- GRANT (R219). A GRANT arrives and makes the context OPEN, or is closed if it is late. -/
  | grant (h : Hdr) (b : GrantBody)
  /-- CONNECTION_CREDIT (R223). A connection CREDIT adds credits to a context. -/
  | connectionCredit (h : Hdr) (b : CreditBody)
  /-- TOKEN_CREDIT (R152). A token credit returns to an emit entry. -/
  | tokenCredit (h : Hdr) (slot : Nat) (emit : Nat)
  /-- STEAL_REPLY (R59). A STEAL_REPLY delivers a unit, with its home mode and seed, to the thief, or NOT_FOUND. -/
  | stealReply (h : Hdr) (u : Option StolenUnit)
  /-- MESSAGE (R222). A MESSAGE is checked and lands in the ring of a message queue. -/
  | message (h : Hdr) (b : MsgBody)
  /-- COMBINE (R232). A contribution is checked and applied or staged in a combining queue. -/
  | combine (h : Hdr) (cs : List Contribution)
  /-- COMBINE_FOLD_DONE (R233). An ordered fold finishes, and the slot's tag is set full. -/
  | combineFoldDone (t : TileId) (q : Nat) (slot : Nat)
  /-- TOKEN (R145). A token arrives, lands, matches or is refused with RETRY. -/
  | token (h : Hdr) (b : TokenBody)
  /-- RESULT (R59). A stolen unit's result lands at its home tile. -/
  | result (h : Hdr) (b : ResultBody)
  /-- MULTICAST (R204). A conductor multicast packet is delivered to the good tiles of its rectangle. -/
  | multicast (r : Rect) (off : Nat) (data : List Byte)
  /-- ROUTE_PACKET (R187). A router forwards a packet one hop by dimension order, detour or merge. -/
  | routePacket (n : Nat) (merge : Bool) (stall : Nat) (depth : Nat)
  /-- TOKEN_RETRY_RESEND (R153). A sender resends a refused token after 64 cycles. -/
  | tokenRetryResend (t : TileId) (i : Nat)
  /-- FIRING_ISSUE (R151). A firing at the ready-list head takes a context and runs its actions. -/
  | firingIssue (t : TileId)
  /-- TOKEN_EMIT (R151). A firing emits a token once its credit and source slot are ready. -/
  | tokenEmit (t : TileId) (ctx : Nat)
  /-- FIRING_COMPLETE (R151). A firing's emits are done; landing slots empty, credits return and signals take effect. -/
  | firingComplete (t : TileId) (ctx : Nat)
  /-- SOURCE_FIRE (R164). A source node fires for an armed iteration. -/
  | sourceFire (t : TileId) (slot : Nat) (node : Nat)
  /-- TOKEN_ORPHAN (R159). An unbound token waits longer than STALL_WDOG and is discarded. -/
  | tokenOrphan (t : TileId) (i : Nat)
  /-- FOLD_SCHEDULE_MOVE (R161). A schedule dwell ends and the active slot moves. -/
  | foldScheduleMove (t : TileId)
  /-- FOLD_SWITCH_AT_T (R163). A tile switches slot at its first cycle at or after T. -/
  | foldSwitchAtT (t : TileId)
  /-- PROFILE_SAMPLE (R167). A 32-byte profile record is written every 2^N cycles. -/
  | profileSample (t : TileId) (granted : Bool)
  /-- SLOT_ARM (R164). A write to SLOT_ARM adds to the armed count. -/
  | slotArm (t : TileId) (w : Writer) (slot : Nat) (n : Nat)
  /-- SYNC_CELL_WRITE (R260). A write to SYNC_CELLc or SYNC_TARGETc re-evaluates the local cell as a set. -/
  | syncCellWrite (t : TileId) (w : Writer) (c : Nat) (isTarget : Bool) (val : Word)
  /-- SYNC_DEBUG_CORE (R259). SYNC_DEBUG.core ends the control core's stall. -/
  | syncDebugCore (t : TileId)
  /-- SYNC_DEBUG_ALL (R259). SYNC_DEBUG.all ends every stalled stream of the tile. -/
  | syncDebugAll (t : TileId)
  /-- SYNC_REC_WRITE (R261). A write to SYNC_RECi sets a global cell, re-evaluates it and writes CELL_SET. -/
  | syncRecWrite (f : Nat) (i : Nat) (w0 : Option Word) (w1 : Option Word) (w : Writer)
  /-- HEDGEROW_SYNC_DEBUG (R258). With no conductor, Hedgerow reads, sets, force-releases or lists a global cell over the cricket ring. -/
  | hedgerowSyncDebug (cell : Nat) (op : CellOp)
  /-- RQ_ENABLE (R211). An RQ_CFG write with enable 1 checks the configuration, arms slots and opens the queue. -/
  | rqEnable (t : TileId) (w : Writer) (q : Nat) (val : Word)
  /-- RQ_DISABLE (R211). An RQ_CFG write with enable 0 makes the queue IDLE. -/
  | rqDisable (t : TileId) (w : Writer) (q : Nat) (val : Word)
  /-- CONN_PROBE (R227). After each probe interval of a credit stall the sender sends a probe. -/
  | connProbe (t : TileId) (st : Stream)
  /-- ROW_REFRESH (R121). A tile-memory row is refreshed at its group's interval. -/
  | rowRefresh (t : TileId) (row : Nat)
  /-- PATROL_SCRUB (R122). Patrol scrub reads, corrects and logs one row. -/
  | patrolScrub (f : Nat) (errs : List ScrubErr)
  /-- REFRESH_DERATE (R120). A base-wafer sensor rises above derate_c, and every group is refreshed at 64 ms. -/
  | refreshDerate (f : Nat) (temp : Int)
  /-- REFRESH_RESTORE (R120). Every sensor reads derate_c − 5 or below, and the profile intervals return. -/
  | refreshRestore (f : Nat) (temps : List Int)
  /-- MAP_PUBLISH (R193). The conductor writes a new furrow map with its effective step boundary. -/
  | mapPublish (at_ : Nat)
  /-- MAP_INJECTION_PAUSE (R193). At S every source stops injecting and packets drain. -/
  | mapInjectionPause
  /-- MAP_SWITCH (R193). At S + 256 held packets drop, the new map loads and injection resumes. -/
  | mapSwitch
  /-- FENCE_SETTLE_LOCAL (R250). At S + 512, unanswered old-epoch field and wafer writes are taken as lost. -/
  | fenceSettleLocal
  /-- FENCE_SETTLE_REMOTE (R250). At S + 512 + PORT_REMOTE_TIMEOUT, unanswered old-epoch remote writes are taken as lost. -/
  | fenceSettleRemote (f : Nat)
  /-- DIST_TABLE_PUBLISH (R207). The conductor publishes the distance table for a map in force. -/
  | distTablePublish
  /-- CELL_LOST_SWEEP (R253). After a field fails, the conductor completes every request on its cells with CELL_LOST. -/
  | cellLostSweep (f : Nat)
  /-- DOCK_INGRESS (R282). A tile's remote packet reaches the ingress dock for route lookup and a pending entry. -/
  | dockIngress (p : Nat) (pkt : Pkt)
  /-- DOCK_EGRESS (R286). A packet with dock set reaches an egress dock and is framed onto the fibre. -/
  | dockEgress (p : Nat) (pkt : Pkt)
  /-- PENDING_EXPIRY (R284). A pending remote entry expires and is answered PATH_LOST. -/
  | pendingExpiry (p : Nat) (i : Nat)
  /-- REMOTE_RETRY_RESEND (R284). A remote request refused RETRY by a full pending table is resent after 64 cycles. -/
  | remoteRetryResend (t : TileId)
  /-- DATA_FRAME (R286). A DATA frame arrives in sequence and is relayed or delivered at its destination. -/
  | dataFrame (p : Nat) (fr : Frame)
  /-- LINK_ACK (R277). A LINK ack frees acknowledged frames from the retry buffer. -/
  | linkAck (p : Nat) (seq : Nat)
  /-- LINK_NAK (R277). A LINK nak makes the sender resend from the named frame, or retrain after 8 in a row. -/
  | linkNak (p : Nat) (seq : Nat)
  /-- LINK_LANE_OFF (R279). A LINK lane off makes the transmitter stripe over the remaining lanes. -/
  | linkLaneOff (p : Nat) (lane : Nat)
  /-- LINK_LANE_ON (R279). A LINK lane on returns a retrained lane at a frame boundary. -/
  | linkLaneOn (p : Nat) (lane : Nat)
  /-- LINK_CLOSE (R269). A LINK close arrives from a partner port that is going down. -/
  | linkClose (p : Nat)
  /-- LINK_CREDITS (R278). A LINK credits-only frame returns receive-buffer credits. -/
  | linkCredits (p : Nat) (vc : Nat) (n : Nat)
  /-- LINK_IDLE_ACK (R277). After 256 ns with nothing to send, a receiver sends an ack in a LINK frame. -/
  | linkIdleAck (p : Nat)
  /-- FRAME_CRC_ERROR (R277). A frame that fails its CRC or arrives out of sequence is discarded and naked. -/
  | frameCrcError (p : Nat)
  /-- LANE_FAILURE (R279). A receiver sees one lane lose lock or exceed its corrected-symbol limit. -/
  | laneFailure (p : Nat) (lane : Nat)
  /-- LANE_RETRAIN_DONE (R279). A degraded lane finishes its 40 ms retrain. -/
  | laneRetrainDone (p : Nat) (lane : Nat) (ok : Bool)
  /-- EGRESS_HOLD_EXPIRY (R280). A frame held during RETRAINING passes the hold limit and is answered PATH_LOST. -/
  | egressHoldExpiry (p : Nat)
  /-- PORT_LIGHT_DETECTED (R269). Light and a partner's signal are present, and a DARK port starts training. -/
  | portLightDetected (p : Nat)
  /-- TRAINING_DONE (R270). Training ends with usable paths, and HELLO exchange begins. -/
  | trainingDone (p : Nat) (r : TrainResult)
  /-- TRAINING_FAILED (R269). Training finds no usable path, or 130 ms elapse, and the port waits 1 s. -/
  | trainingFailed (p : Nat)
  /-- TRAINING_BACKOFF_EXPIRY (R269). The 1 s wait after a failed training ends, and the port returns to DARK. -/
  | trainingBackoffExpiry (p : Nat)
  /-- HELLO (R270). A HELLO frame delivers versions and a nonce. -/
  | hello (p : Nat) (versions : Nat) (nonce : Nat)
  /-- CAP (R273). A signed capability block arrives and is verified. -/
  | cap (p : Nat) (b : CapBlock)
  /-- CERT (R270). A CERT frame delivers part of the partner's certificate chain. -/
  | cert (x : CertAt)
  /-- MODE (R272). A MODE frame names the partner's chosen mode and switch count. -/
  | mode (p : Nat) (m : LinkMode) (count : Nat)
  /-- MODE_SWITCH (R270). At the switch count the mode takes force and the port goes UP. -/
  | modeSwitch (x : SwitchAt)
  /-- NEGOTIATION_TIMEOUT (R269). Negotiation exceeds 200 ms, and the port returns to DARK. -/
  | negotiationTimeout (p : Nat)
  /-- REFUSED_TIMEOUT (R269). After 10 s a REFUSED port trains again. -/
  | refusedTimeout (p : Nat)
  /-- PORT_SIGNAL_LOSS (R269). Light or the partner's signal is lost; held frames are answered PATH_LOST. -/
  | portSignalLoss (p : Nat)
  /-- RETRAIN_DONE (R269). A retrain succeeds within 250 ms and the port resumes from its retry buffer. -/
  | retrainDone (p : Nat)
  /-- RETRAIN_TIMEOUT (R269). A retrain fails or runs out its 250 ms, and the port goes DARK. -/
  | retrainTimeout (p : Nat)
  /-- GLOW_LIGHT_LOSS (R266). A glow module's light falls and its seven ports go DARK. -/
  | glowLightLoss (g : Nat)
  /-- GLOW_LATCH_OPEN (R503). A bay latch opens and removes the bay's power. -/
  | glowLatchOpen (g : Nat)
  /-- GLOW_LATCH_CLOSE (R503). A bay latch closes on an inserted glow module. -/
  | glowLatchClose (g : Nat)
  /-- GLOW_LIT (R503). A new glow module reaches its light level. -/
  | glowLit (g : Nat)
  /-- POWER_NOTE_SEND (R344). Every 1,024 ticks a conductor sends power notes to its UP partners. -/
  | powerNoteSend
  /-- POWER_NOTE (R344). A power note arrives, is recorded, forwarded, and the group cap is recomputed. -/
  | powerNote (p : Nat) (n : PowerNote)
  /-- POWER_NOTE_EXPIRY (R344). An origin's record older than 4,096 ticks is discarded. -/
  | powerNoteExpiry
  /-- BROKER_CONNECT_REQUEST (R407). A far conductor receives a connect request, opens from a proxy and replies. -/
  | brokerConnectRequest (p : Nat) (m : BrokerMsg)
  /-- BROKER_CONNECT_REPLY (R407). A connect reply arrives and the local sender context is written. -/
  | brokerConnectReply (p : Nat) (m : BrokerMsg)
  /-- BROKER_CLOSE_MESSAGE (R407). A broker close arrives and the far conductor frees the proxy. -/
  | brokerCloseMessage (p : Nat) (m : BrokerMsg)
  /-- BROKER_LOOKUP_REQUEST (R407). A window lookup request arrives and is answered under policy. -/
  | brokerLookupRequest (p : Nat) (m : BrokerMsg)
  /-- BROKER_LOOKUP_REPLY (R407). A window lookup reply completes WINDOW_LOOKUP. -/
  | brokerLookupReply (p : Nat) (m : BrokerMsg)
  /-- REFERENCE_SWITCH (R295). The primary oscillator stops or drifts, and the spine switches to the secondary. -/
  | referenceSwitch (deltas : List Int)
  /-- REFERENCE_LOST (R295). Both oscillators fail and every field goes OFF. -/
  | referenceLost
  /-- WAFER_TIME_BROADCAST (R297). Every 65,536 ticks KF0 sends its count and controllers re-align. -/
  | waferTimeBroadcast
  /-- RAIL_DROOP (R301). A rail droop stretches cycles and adds debt. -/
  | railDroop (f : Nat) (n : Nat) (level : Nat)
  /-- MARGIN_STOP (R304). Margin level 0 lasts a whole tick and the field's clock stops. -/
  | marginStop (f : Nat) (monitor : Nat)
  /-- MARGIN_RESTART (R304). Every monitor reads level 2 or more for 4 ticks, and the clock restarts. -/
  | marginRestart (f : Nat)
  /-- CROSSING_CALIBRATE (R307). A calibration order starts markers across a boundary. -/
  | crossingCalibrate (f : Nat) (b : Nat)
  /-- CALIBRATION_DONE (R306). Calibration latches L, retries, or fails the crossing. -/
  | calibrationDone (f : Nat) (b : Nat) (spread : Nat)
  /-- HEARTBEAT_LOSS (R309). Three heartbeats are missed, the crossing parks and boundary tiles become holes. -/
  | heartbeatLoss (f : Nat) (b : Nat)
  /-- FIELD_WAKE (R299). A field ramps from RETAIN, starts its clock and calibrates its boundaries. -/
  | fieldWake (f : Nat)
  /-- FIELD_CLOCK_STOP (R300). Once a map holding the field is in force, its clock stops and its crossings park. -/
  | fieldClockStop (f : Nat)
  /-- RETENTION_REACHED (R347). The core rail reaches retention voltage and the field is in RETAIN. -/
  | retentionReached (f : Nat)
  /-- CLK_ORDER_OP_STEP (R311). A CLK_ORDER of kind 1 arms an operating-point step at S. -/
  | clkOrderOpStep (f : Nat) (op : Nat) (at_ : Nat)
  /-- CLK_ORDER_ENTER_MONITOR (R319). A CLK_ORDER of kind 2 arms entry to monitor-steered mode. -/
  | clkOrderEnterMonitor (f : Nat) (op : Nat) (at_ : Nat)
  /-- CLK_ORDER_LEAVE_MONITOR (R319). A CLK_ORDER of kind 3 arms leaving monitor-steered mode. -/
  | clkOrderLeaveMonitor (f : Nat) (op : Nat) (at_ : Nat)
  /-- OP_STEP (R313). At S every ACG holds its clock and relocks to the target N. -/
  | opStep (f : Nat)
  /-- RELOCK_DONE (R313). At S + 50 the clocks restart together at the new point. -/
  | relockDone (f : Nat)
  /-- MONITOR_MODE_SWITCH (R319). At S the engine enters or leaves monitor-steered mode. -/
  | monitorModeSwitch
  /-- MONITOR_STEER_EPOCH (R318). At an epoch boundary in monitor-steered mode a field steps one point slower or faster. -/
  | monitorSteerEpoch (f : Nat) (low : Nat)
  /-- MARGIN_LOW_WRITE (R321). Any write to MARGIN_LOW sets its low field to 7. -/
  | marginLowWrite (f : Nat)
  /-- WT_LO_READ (R321). A read of WT_LO latches WT_HI. -/
  | wtLoRead (f : Nat)
  /-- EPOCH_END (R330). At an epoch end the activity counts are latched and each field forms p_f. -/
  | epochEnd (f : Nat) (low : Nat) (mon : Nat)
  /-- POWER_MASTER_DECISION (R333). The power master totals estimates and sets gate levels or arms a cap step. -/
  | powerMasterDecision
  /-- MASTER_TAKEOVER (R332). Two epochs pass without a decision and the standby master takes over. -/
  | masterTakeover
  /-- PWR_STEP_CAP (R336). A PWR_STEP of kind cap arms a step to the cap point. -/
  | pwrStepCap (f : Nat) (op : Nat) (at_ : Nat)
  /-- PWR_STEP_THERMAL (R336). A PWR_STEP of kind thermal arms a step to the thermal point. -/
  | pwrStepThermal (f : Nat) (op : Nat) (at_ : Nat)
  /-- PWR_STEP_FORCED (R336). A PWR_STEP of kind forced arms a step to the forced point. -/
  | pwrStepForced (f : Nat) (op : Nat) (at_ : Nat)
  /-- HEDGEROW_POWER_SAMPLE (R335). Hedgerow measures input power each 1 ms and forces a step on excess. -/
  | hedgerowPowerSample (watts : Nat) (amps : Nat)
  /-- EST_SCALE_CALIBRATE (R335). Each second Hedgerow sets est_scale from measured and estimated power. -/
  | estScaleCalibrate (measured : Nat) (estimated : Nat)
  /-- INPUT_VOLTAGE_SAMPLE (R325). Hedgerow judges the input voltage against its ranges. -/
  | inputVoltageSample (mv : Nat)
  /-- BUS_STOP (R325). The board's comparators see the input out of range and stop the 6 V bus; every field goes OFF. -/
  | busStop
  /-- BUS_RESTART (R325). Input is in range for 1 s with power-enable, and the engine cold starts again. -/
  | busRestart
  /-- CURRENT_LIMIT (R326). The load exceeds 800 A and the board holds the current, so rails droop. -/
  | currentLimit
  /-- THATCH_ENGAGE (R340). Thatch engages after delay × 64 cycles of a qualifying swait. -/
  | thatchEngage (t : TileId)
  /-- THATCH_RAMP_DOWN_STEP (R341). The thatch level falls by 1. -/
  | thatchRampDownStep (t : TileId)
  /-- THATCH_RAMP_UP_STEP (R342). The issue ceiling rises by 1 toward 16. -/
  | thatchRampUpStep (t : TileId)
  /-- THERMAL_SAMPLE (R346). A field's hottest sensor is sampled and drives the thermal ladder. -/
  | thermalSample (f : Nat) (temp : Int) (sensor : Nat)
  /-- AUTO_RETURN (R348). Under auto_return, a parked field has read 85 °C or below for 100 ms and is ordered back. -/
  | autoReturn (f : Nat)
  /-- COOLANT_SAMPLE (R351). Hedgerow applies the coolant limits through PWR_HEDGE_CAP or orders fields OFF. -/
  | coolantSample (c : Coolant)
  /-- OVERCURRENT_LATCH (R352). A rail exceeds its limit for 1 µs and the field's regulators latch; it becomes FAILED. -/
  | overcurrentLatch (f : Nat) (core : Bool) (mem : Bool)
  /-- INSULATION_CHECK_DONE (R353). The 100 ms insulation check ends and OC_STATUS.insul records the result. -/
  | insulationCheckDone (f : Nat) (coreMa : Nat) (memMa : Nat)
  /-- TRIM_RAISE (R338). Each 24 hours Hedgerow raises a trim where margins were short. -/
  | trimRaise (f : Nat) (point : Nat) (day : Nat)
  /-- FIELD_THERM_CLEAR (R356). A write to FIELD_THERM sets max to 0. -/
  | fieldThermClear (f : Nat)
  /-- FIELD_POWER_WAVE (R360). A wave of four compute fields is powered, every 250 ms. -/
  | fieldPowerWave (w : Nat) (routers : List TileId)
  /-- FIELD_WAVE_TIMEOUT (R360). A field has not reached IDLE within its 250 ms and is left OUT. -/
  | fieldWaveTimeout (f : Nat)
  /-- KNOWN_ANSWER_DONE (R362). A tile reports the result of its known-answer run. -/
  | knownAnswerDone (t : TileId) (corePass : Bool) (enginePass : Bool)
  /-- KNOWN_ANSWER_TIMEOUT (R362). A tile that has not reported within 10 ms fails. -/
  | knownAnswerTimeout (t : TileId)
  /-- MARCH_DONE (R363). A scratchpad or tile-memory march ends and its failures are recorded. -/
  | marchDone (f : Nat) (k : MarchKind) (failed : List TileId) (routers : List TileId)
  /-- SOAK_DONE (R364). A field reaches 45 °C or the soak time limit, and profiling starts. -/
  | soakDone (f : Nat) (temp : Int)
  /-- PROFILING_PAUSE_END (R365). A retention pause ends and every row is read and checked. -/
  | profilingPauseEnd (f : Nat) (failed : List Nat)
  /-- BRINGUP_ADMISSION (R366). The final map takes force, profiles are written and good tiles are admitted. -/
  | bringupAdmission
  /-- WARM_RESET (R370). A warm reset is accepted and runs its sequence with wafer time kept. -/
  | warmReset (c : WarmCause) (cold : Nat)
  /-- WARM_RESET_INJECTION_STOP (R370). At S injection stops, and 256 ticks later the compute fields go to retention. -/
  | warmResetInjectionStop
  /-- RETEST_DONE (R374). A retest completes; failing tiles go to HOLE and the field becomes READY. -/
  | retestDone (f : Nat)
  /-- HALT_SCAN (R481). At E + 20 the field controller compares HALT_VEC and reads newly halted tiles. -/
  | haltScan (f : Nat)
  /-- FAULT_LOG_POLL (R483). The conductor reads FLT_STATUS and the new entries of every field controller. -/
  | faultLogPoll
  /-- FLT_READ (R484). A write to FLT_READ frees log entries up to the new tail. -/
  | fltRead (f : Nat) (tail : Nat)
  /-- MB_MSG_WRITE (R388). A write to MB_MSG while FULL stands and sets COLLISION. -/
  | mbMsgWrite (sp : Nat) (secure : Bool) (c : Nat) (w : Nat) (val : Word)
  /-- MB_DOORBELL (R387). A non-zero doorbell write sets FULL and holds the sequence number. -/
  | mbDoorbell (sp : Nat) (secure : Bool) (c : Nat) (val : Word)
  /-- MAILBOX_POLL (R389). The conductor reads MB_PENDING and takes FULL channels. -/
  | mailboxPoll
  /-- COMMAND_COMPLETE (R390). A long command ends and its completion record is written. -/
  | commandComplete (c : Nat) (seq : Nat)
  /-- COMMAND_TIMEOUT (R394). A long command passes its time limit and posts TIMEOUT. -/
  | commandTimeout (c : Nat) (seq : Nat)
  /-- DEFERRED_ENABLE_START (R395). A shutdown finishes and the pending enable runs. -/
  | deferredEnableStart (c : Nat) (seq : Nat)
  /-- CONDUCTOR_BEAT (R397). The active pair rewrites CONDUCTOR_BEAT every 250 ticks. -/
  | conductorBeat
  /-- CONDUCTOR_TAKEOVER (R398). The standby claims the role, redirects field controllers and settles journals. -/
  | conductorTakeover
  /-- STANDBY_REBUILD_DONE (R400). A restarted pair finishes rebuilding its copy and sets standby_ready. -/
  | standbyRebuildDone
  /-- SYS_IDENTIFY (R402). Returns the serial, part, versions, admitted tiles, fields and identifier. -/
  | sysIdentify (c : Nat)
  /-- SYS_STATUS (R402). Returns bring-up, role, map, clock and power status. -/
  | sysStatus (c : Nat)
  /-- SYS_WARM_RESET (R402). Starts a warm reset. -/
  | sysWarmReset (c : Nat)
  /-- SYS_SET_WAFER_ID (R275). Sets the fabric wafer identifier, re-signs ports and stores it. -/
  | sysSetWaferId (c : Nat)
  /-- SYS_HANDOVER (R402). Hands the conductor role to the standby. -/
  | sysHandover (c : Nat)
  /-- SYS_BOUND_VOID (R402). Reports, and may clear, the bound-void flags of the fields named. -/
  | sysBoundVoid (c : Nat)
  /-- SYS_PING (R402). Returns wafer time at the take. -/
  | sysPing (c : Nat)
  /-- FIELD_ADMIT (R373). Admits a READY field's good tiles. -/
  | fieldAdmit (c : Nat)
  /-- FIELD_DRAIN (R373). Drains a field: cells saved and the field made a furrow. -/
  | fieldDrain (c : Nat)
  /-- FIELD_PARK (R347). Parks a field into RETAIN, parked. -/
  | fieldPark (c : Nat)
  /-- FIELD_RETURN (R348). Returns a parked field by wake and retest at level 0. -/
  | fieldReturn (c : Nat)
  /-- FIELD_RESET (R373). Resets a DRAINED field's tiles into QUARANTINE. -/
  | fieldReset (c : Nat)
  /-- FIELD_RETEST (R374). Retests a field at level 0, 1 or 2. -/
  | fieldRetest (c : Nat)
  /-- FIELD_FAIL (R373). Fails a field by order: rails off and cells lost. -/
  | fieldFail (c : Nat)
  /-- FIELD_CLEAR (R353). Moves a FAILED field to OFF when permitted. -/
  | fieldClear (c : Nat)
  /-- FIELD_INSULATE (R353). Orders Hedgerow's insulation check of a FAILED field. -/
  | fieldInsulate (c : Nat)
  /-- FIELD_POWER (R328). Retains, wakes or turns off a compute field. -/
  | fieldPower (c : Nat)
  /-- FIELD_QUERY (R403). Returns a field's service, power, count, profile and thermal registers. -/
  | fieldQuery (c : Nat)
  /-- TILE_RESET (R403). Resets one tile to QUARANTINE with a new generation. -/
  | tileReset (c : Nat)
  /-- JOB_DECLARE (R404). Declares a job with its field mask. -/
  | jobDeclare (c : Nat)
  /-- JOB_LOAD (R405). Checks a job image segment and writes its records to tiles. -/
  | jobLoad (c : Nat)
  /-- JOB_START (R406). Rewrites dst_gen, sets START_PC and admits the job's tiles. -/
  | jobStart (c : Nat)
  /-- JOB_STOP (R404). Resets every tile of a job into QUARANTINE. -/
  | jobStop (c : Nat)
  /-- JOB_RELEASE (R404). Returns a job to FREE. -/
  | jobRelease (c : Nat)
  /-- JOB_QUERY (R404). Returns a job's state and halted tiles. -/
  | jobQuery (c : Nat)
  /-- FOLD_LOAD (R404). Orders a dload of a slot in every tile of the job. -/
  | foldLoad (c : Nat)
  /-- FOLD_SWITCH (R163). Orders an array-wide switch at time T. -/
  | foldSwitch (c : Nat)
  /-- FOLD_SCHEDULE (R404). Writes fold schedule entries in the job's tiles. -/
  | foldSchedule (c : Nat)
  /-- BROKER_CONNECT (R407). Brokers a remote connection through a far proxy. -/
  | brokerConnect (c : Nat)
  /-- BROKER_CLOSE (R407). Closes a brokered remote connection. -/
  | brokerClose (c : Nat)
  /-- BROKER_POLICY (R407). Sets the source policy and proxy limit for brokering. -/
  | brokerPolicy (c : Nat)
  /-- WINDOW_PUBLISH (R407). Publishes a named window in the directory. -/
  | windowPublish (c : Nat)
  /-- WINDOW_WITHDRAW (R407). Removes a named window from the directory. -/
  | windowWithdraw (c : Nat)
  /-- WINDOW_LOOKUP (R407). Looks up a named window on a far wafer. -/
  | windowLookup (c : Nat)
  /-- CELL_READ (R408). Reads a cell's type, value, target and waiters. -/
  | cellRead (c : Nat)
  /-- CELL_SET (R258). Sets a cell and evaluates it. -/
  | cellSet (c : Nat)
  /-- CELL_FORCE (R258). Force-releases a cell's waiters with FORCED. -/
  | cellForce (c : Nat)
  /-- CELL_WAITERS (R408). Lists a cell's recorded waiters. -/
  | cellWaiters (c : Nat)
  /-- TILE_RELEASE (R259). Releases a tile's stall through SYNC_DEBUG. -/
  | tileRelease (c : Nat)
  /-- PWR_SET_CAP (R409). Sets PWR_CAP. -/
  | pwrSetCap (c : Nat)
  /-- PWR_SET_POLICY (R409). Sets max_gate, step_after and auto_return. -/
  | pwrSetPolicy (c : Nat)
  /-- PWR_SET_GROUP (R345). Sets the power group and group cap. -/
  | pwrSetGroup (c : Nat)
  /-- PWR_QUERY (R409). Returns the power totals, caps and counters. -/
  | pwrQuery (c : Nat)
  /-- THATCH_SET (R409). Writes a THATCH_CTRL image into the admitted tiles of the fields named. -/
  | thatchSet (c : Nat)
  /-- THERM_SET_LIMITS (R409). Writes THERM_LIMITS into the fields named. -/
  | thermSetLimits (c : Nat)
  /-- CLK_SET_OP (R410). Sets the requested operating point at a step boundary. -/
  | clkSetOp (c : Nat)
  /-- CLK_SET_MODE (R319). Enters or leaves monitor-steered mode at S. -/
  | clkSetMode (c : Nat)
  /-- CLK_QUERY (R410). Returns the clock mode, point, ceiling and void fields. -/
  | clkQuery (c : Nat)
  /-- PORT_UP (R411). Sets PORT_CTRL.enable. -/
  | portUp (c : Nat)
  /-- PORT_DOWN (R269). Clears enable and takes the port DISABLED. -/
  | portDown (c : Nat)
  /-- PORT_RETRAIN (R269). Retrains an UP port. -/
  | portRetrain (c : Nat)
  /-- PORT_RELAY (R411). Turns transit relay on or off for a port. -/
  | portRelay (c : Nat)
  /-- PORT_LANE_MAP (R265). Fixes or frees a port's lane map. -/
  | portLaneMap (c : Nat)
  /-- PORT_CONFIG (R411). Writes PORT_CTRL and PORT_REMOTE_TIMEOUT. -/
  | portConfig (c : Nat)
  /-- ROUTE_SET (R281). Writes a route entry into every dock. -/
  | routeSet (c : Nat)
  /-- ROUTE_CLEAR (R411). Clears a route entry. -/
  | routeClear (c : Nat)
  /-- PORT_QUERY (R411). Returns a port's state and counters. -/
  | portQuery (c : Nat)
  /-- PORT_FORGET (R411). Deletes a port's stored partner record. -/
  | portForget (c : Nat)
  /-- FW_QUERY (R412). Returns running and staged image versions. -/
  | fwQuery (c : Nat)
  /-- FW_APPLY (R412). Commits and applies a staged field controller, tile or conductor image. -/
  | fwApply (c : Nat)
  /-- MAP_GET (R413). Writes the furrow map to host memory. -/
  | mapGet (c : Nat)
  /-- DIST_GET (R413). Writes distance-table records to host memory. -/
  | distGet (c : Nat)
  /-- MAP_WAIT (R413). Completes once the named map, and optionally its table, is in force. -/
  | mapWait (c : Nat)
  /-- WAFER_WINDOW_LOAD (R423). A hart load through the wafer window becomes a raw read. -/
  | waferWindowLoad (k : Nat) (hart : Nat) (addr : Nat) (size : Nat) (form : HartForm)
  /-- WAFER_WINDOW_STORE (R424). A hart store or aligned 64-byte vector store becomes a raw write. -/
  | waferWindowStore (k : Nat) (hart : Nat) (addr : Nat) (data : List Byte) (form : HartForm)
  /-- WAFER_WINDOW_TIMEOUT (R428). A wafer-window access goes unanswered beyond HOST_WIN_CTRL.timeout. -/
  | waferWindowTimeout (k : Nat) (id : Nat)
  /-- WAFER_WINDOW_ANSWER (R428). The answer to a raw access arrives at the node and completes or records an error. -/
  | waferWindowAnswer (k : Nat) (id : Nat) (status : Nat) (data : List Byte)
  /-- HART_FENCE_IO (R426). A fence holds later accesses until earlier wafer-window writes are answered. -/
  | hartFenceIo (k : Nat) (hart : Nat)
  /-- TIMER_INTERRUPT (R418). The ACLINT timer raises a machine or supervisor timer interrupt. -/
  | timerInterrupt (k : Nat) (hart : Nat) (machine : Bool)
  /-- SOFTWARE_INTERRUPT_WRITE (R418). A write to MSWI or SSWI raises a software interrupt on a hart. -/
  | softwareInterruptWrite (k : Nat) (machine : Bool) (hart : Nat) (val : Bool)
  /-- HOST_CLK_WRITE (R417). A HOST_CLK write changes the node frequency and stalls the harts for 20 µs. -/
  | hostClkWrite (k : Nat) (machineMode : Bool) (val : Word)
  /-- SBI_SECURE_FORWARD (R430). The loader forwards a permitted command on the node's secure channel. -/
  | sbiSecureForward (k : Nat) (idx : Nat) (msg : List Word)
  /-- SBI_SYSTEM_RESET (R438). An SRST call reboots one node. -/
  | sbiSystemReset (k : Nat)
  /-- NODE_BOOT (R435). Hedgerow loads the node images and the ROM verifies and starts the loader. -/
  | nodeBoot (k : Nat) (digestOk : Bool)
  /-- HOST_BOOT_TIMEOUT (R436). The loader has not reached stage 4 within 2 s, and boot is retried once. -/
  | hostBootTimeout (k : Nat)
  /-- ETH_RING_TAIL_WRITE (R432). A RING_TAIL write hands descriptors to the controller. -/
  | ethRingTailWrite (k : Nat) (port : Nat) (tx : Bool) (ring : Nat) (val : Nat)
  /-- ETH_DESCRIPTOR_DONE (R432). The controller finishes a descriptor, writes it back with done and advances RING_HEAD. -/
  | ethDescriptorDone (k : Nat) (port : Nat) (ring : Nat)
  /-- ETH_FRAME_RECEIVE (R432). A frame arrives and fills receive descriptors, or is dropped. -/
  | ethFrameReceive (k : Nat) (port : Nat) (bytes : List Byte) (prio : Nat) (hash : Nat)
  /-- PCIE_DEVICE_WRITE (R434). A device memory write or MSI reaches local host memory. -/
  | pcieDeviceWrite (k : Nat) (addr : Nat) (data : List Byte)
  /-- HEDGEROW_RESTART (R444). Hedgerow restarts on reset, commit or watchdog, without touching the wafer. -/
  | hedgerowRestart (c : HedgeCause) (bad : List Nat)
  /-- SIDEBAND_MODE_TRY (R446). Hedgerow moves to the next side-band mode after 3 s without link. -/
  | sidebandModeTry
  /-- HEDGEROW_FIELD_POLL (R456). Hedgerow polls each field controller for sensors and records. -/
  | hedgerowFieldPoll (f : Nat) (fr : SensorFrame)
  /-- SCARAB_FLUSH (R472). Hedgerow writes the RAM buffer to flash. -/
  | scarabFlush
  /-- SCARAB_HOLDING_DRAIN (R469). Hedgerow has not polled for 10 ms, and the conductor drains queues to its holding area. -/
  | scarabHoldingDrain
  /-- TIME_ANCHOR (R471). Hedgerow writes a time anchor at the load pulse and every hour. -/
  | timeAnchor (utc : Nat)
  /-- I3C_ENTDAA (R453). The chassis controller assigns Hedgerow a dynamic address. -/
  | i3cEntdaa (addr : Nat)
  /-- I3C_PRIVATE_READ (R453). A private read returns the next MCTP packet, or is refused. -/
  | i3cPrivateRead
  /-- SET_ENDPOINT_ID (R453). The MCTP control command Set Endpoint ID. -/
  | setEndpointId (eid : Nat)
  /-- GET_ENDPOINT_ID (R453). The MCTP control command Get Endpoint ID. -/
  | getEndpointId
  /-- GET_MCTP_VERSION_SUPPORT (R453). The MCTP control command Get MCTP Version Support. -/
  | getMctpVersionSupport
  /-- GET_MESSAGE_TYPE_SUPPORT (R453). The MCTP control command Get Message Type Support. -/
  | getMessageTypeSupport
  /-- GET_VENDOR_DEFINED_MSG_SUPPORT (R453). The MCTP control command Get Vendor Defined Message Support. -/
  | getVendorDefinedMsgSupport
  /-- HEALTH (R453). The vendor HEALTH request returns health, power, coolant and identity. -/
  | health
  /-- SLOT_GET_ANSWER (R454). The answer to SLOT_GET settles the slot check and MODULE_INSTALLED. -/
  | slotGetAnswer (a : SlotAnswer)
  /-- SLOT_SET_ANSWER (R453). The controller confirms that a slot record is stored. -/
  | slotSetAnswer
  /-- SLOT_CHECK_TIMEOUT (R454). No answer within 1 s, or no address within 10 s, is recorded as a result. -/
  | slotCheckTimeout
  /-- GET_VERSION (R458). SPDM GET_VERSION. -/
  | getVersion (q : SpdmReq)
  /-- GET_CAPABILITIES (R458). SPDM GET_CAPABILITIES. -/
  | getCapabilities (q : SpdmReq)
  /-- NEGOTIATE_ALGORITHMS (R458). SPDM NEGOTIATE_ALGORITHMS. -/
  | negotiateAlgorithms (q : SpdmReq)
  /-- GET_DIGESTS (R458). SPDM GET_DIGESTS. -/
  | getDigests (q : SpdmReq)
  /-- GET_CERTIFICATE (R458). SPDM GET_CERTIFICATE of slot 0. -/
  | getCertificate (q : SpdmReq)
  /-- CHALLENGE (R458). SPDM CHALLENGE, signed by the identity key. -/
  | challenge (q : SpdmReq)
  /-- GET_MEASUREMENTS (R459). SPDM GET_MEASUREMENTS of the blocks of R459. -/
  | getMeasurements (q : SpdmReq)
  /-- CHASSIS_FORCE_RESTART (R449). Redfish ForceRestart performs a warm reset. -/
  | chassisForceRestart (session : Nat)
  /-- CHASSIS_POWER_CYCLE (R449). Redfish PowerCycle disables the board for 2 s and cold starts. -/
  | chassisPowerCycle (session : Nat)
  /-- CHASSIS_FORCE_OFF (R449). Redfish ForceOff disables the power board. -/
  | chassisForceOff (session : Nat)
  /-- CHASSIS_ON (R449). Redfish On starts at step 3 of R26. -/
  | chassisOn (session : Nat)
  /-- POWER_LIMIT_SET (R448). Writing the PowerLimit SetPoint sets the cap. -/
  | powerLimitSet (session : Nat) (watts : Nat)
  /-- INDICATOR_LED_SET (R448). Redfish sets the IndicatorLED. -/
  | indicatorLedSet (session : Nat) (on : Bool)
  /-- DATETIME_SET (R471). An Administrator writes DateTime. -/
  | datetimeSet (session : Nat) (utc : Nat)
  /-- MANAGER_RESET (R444). Redfish Manager reset restarts Hedgerow. -/
  | managerReset (session : Nat)
  /-- RESET_TO_DEFAULTS (R452). Restores configuration defaults and empties staging and snapshots. -/
  | resetToDefaults (session : Nat)
  /-- REDFISH_GET (R448). A Redfish read of a listed resource. -/
  | redfishGet (session : Nat) (uri : RedfishUri)
  /-- SESSION_LOGIN (R451). A login creates a session, or counts a failure and may lock the account. -/
  | sessionLogin (name : Nat) (password : Nat)
  /-- SESSION_IDLE_EXPIRY (R451). A session idle for 600 s ends. -/
  | sessionIdleExpiry (session : Nat)
  /-- ACCOUNT_CHANGE (R451). An Administrator creates, changes or removes an account. -/
  | accountChange (session : Nat) (ch : AccountChange)
  /-- CONFIG_SET (R452). An Administrator writes a configuration item. -/
  | configSet (session : Nat) (item : ConfigItem)
  /-- OWNER_KEY_INSTALL (R457). An owner root certificate or image key is installed or removed. -/
  | ownerKeyInstall (session : Nat) (image : Bool) (key : Option Nat) (signed : Bool)
  /-- CLEAR_LOG (R473). ClearLog, with the matching expected count, erases the Scarab region. -/
  | clearLog (session : Nat) (expected : Nat)
  /-- SCARAB_EXPORT (R474). CollectDiagnosticData ScarabExport produces a signed export. -/
  | scarabExport (session : Nat)
  /-- FIELD_SNAPSHOT (R475). CollectDiagnosticData FieldSnapshot collects a signed field snapshot. -/
  | fieldSnapshot (session : Nat) (f : Nat)
  /-- FIRMWARE_PUSH (R461). A multipart push is checked and staged, block by block. -/
  | firmwarePush (session : Nat) (img : ImagePush)
  /-- UPDATE_APPLY (R462). An Administrator apply commits a staged Hedgerow or host image. -/
  | updateApply (session : Nat) (kind : Nat)
  /-- REGION_REPAIR (R465). A failed image region is repaired from staging, the URL or a push. -/
  | regionRepair (session : Nat) (kind : Nat) (src : RepairSource)
  /-- RECOVERY_LOADER (R466). The boot ROM's recovery loader fetches and commits a Hedgerow image. -/
  | recoveryLoader (img : Option ImagePush)
  /-- RECOVERY_RETRY (R466). After a failed recovery step the loader retries after 60 s. -/
  | recoveryRetry
  /-- REGISTER_WRITE (R6). A write to a register with no row of its own sets its RW fields and clears its W1C bits. -/
  | registerWrite (sp : RegSpace) (w : Writer) (off : Nat) (val : Word)
  /-- CONDUCTOR_BOOT (R389). A conductor pair finishes booting, takes the role, advances CONDUCTOR_ROLE.epoch, resets its take pointers and publishes the bring-up map. -/
  | conductorBoot (kf : Nat)
  /-- STANDBY_INPUT_LOSS (R443). Input falls below 40 V; the standby converter holds Hedgerow up for 50 ms while it writes pending Scarab records, then Hedgerow goes down. -/
  | standbyInputLoss
  /-- ETH_LINK_CHANGE (R431). An Ethernet port's link comes up after negotiation and training, or drops, and ETH_STATUS.link and mode change. -/
  | ethLinkChange (k : Nat) (port : Nat) (up : Bool) (mode : Nat)
  /-- SIDEBAND_LINK (R446). The side-band link comes up, stopping the mode sequence, or drops, restarting it, and event 0x0F8E is written. -/
  | sidebandLink (mode : Nat) (up : Bool)
  /-- DEBT_REPAID (R302). A field's cycle debt reaches 0 while the ACG runs 2 % fast, and the ACG returns to nominal frequency. -/
  | debtRepaid (f : Nat)
  /-- ACCOUNT_LOCK_EXPIRY (R451). The 300 s lock on an account after five failed logins runs out and the account is unlocked. -/
  | accountLockExpiry (name : Nat)
  /-- PROFILE_AGE_UPDATE (R379). Hedgerow advances PROFILE_AGE with each hour of service since a field's profile was taken. -/
  | profileAgeUpdate (f : Nat)
  /-- PCIE_DEVICE_READ (R421). A PCIe device's DMA read reaches the node; local host memory is returned, an uncorrectable word gives a poisoned completion and event 0x0C83, and any other address gets Unsupported Request. -/
  | pcieDeviceRead (k : Nat) (addr : Nat) (len : Nat)
  /-- HELD_ORDER_WRITE (R312). A CLK_SET_OP or CLK_SET_MODE held by the conductor because its S lay beyond 2^31 − 256 ticks is written to the field controllers once S comes within range. -/
  | heldOrderWrite
  deriving DecidableEq, Repr, Inhabited

end Sys2Proof
end

