-- ==== Sys2Proof/Decode.lean ====
section
/-! DEFINITION. The table's words: no row of the table of operations and events has bits, so no word spells a command. -/

namespace Sys2Proof

/-- The command that a word of the table spells: none, since every row is an event or a message without a word of its own. -/
def decodeTableWord (_nbits _w : Nat) : Option Instr := none

end Sys2Proof
end

