-- ==== Sys2Proof/Config.lean ====
section
/-! DEFINITION. What one module fixes (fused values, identity) and the free values: constants without a body, so nothing can rest on their value. -/

namespace Sys2Proof

/-- A free value (log entry 2): the value the spec leaves undefined, applied to the step's own counter. -/
opaque Config.freeWord : Nat → Word

/-- A free byte (log entry 2). -/
opaque Config.freeByte : Nat → Byte

/-- The module's serial number (R402), fixed at manufacture. -/
opaque Config.serial : Nat

/-- The part: 0 for EXK-W1-A60, 1 for EXK-W1-B60 (R1). -/
opaque Config.part : Nat

/-- Factory defects, by position t = y × 800 + x (R366), fixed at test. -/
opaque Config.factoryHole : Nat → Bool

/-- The fused voltage of a field's operating point, mV (R338, R356). -/
opaque Config.fusedMv : Nat → Nat → Nat

/-- A field's fused activity weights (R330, R356): issue, scratchpad, tile memory, flit, port, thatch, by index 0 to 5, in fJ. -/
opaque Config.weight : Nat → Nat → Nat

/-- A field's fused input conversion efficiency, in 1/1,024 (R356). -/
opaque Config.eff : Nat → Nat

/-- A field's fused static figure at an operating point, in 0.125 W (R356). -/
opaque Config.static_ : Nat → Nat → Nat

/-- The fused figure of a lit glow module, in 0.125 W (R330). -/
opaque Config.glowFigure : Nat → Nat

/-- The entry of the tile firmware's resident loop (R366). -/
opaque Config.residentLoop : Word

/-- The body of an image, by the model's stand-in for its header digest (R460). -/
opaque Config.imageBody : Nat → List Byte

/-- The SHA-512 of an image's body, 64 bytes (R435). -/
opaque Config.imageDigest : Nat → List Byte

/-- The devicetree that Hedgerow writes for a keep field, by its number and the wafer identifier (R437). -/
opaque Config.devicetree : Nat → Nat → List Byte

/-- SHA-512 (R458). -/
opaque Config.sha512 : List Byte → List Byte

/-- A 132-byte signature by the identity key (R457). -/
opaque Config.sign : List Byte → List Byte

/-- The identity certificate chain of slot 0, DER (R457). -/
opaque Config.certChain : List Byte

/-- The SHA-512 of an image's header, by the model's stand-in for it (R459). -/
opaque Config.headerDigest : Nat → List Byte

/-- Exelorn's IANA enterprise number (R453). -/
opaque Config.iana : Nat

/-- The MCTP base version entries that Hedgerow reports, which the spec does not give (R453). -/
opaque Config.mctpVersions : List Byte

/-- The vendor command set version that Hedgerow reports, which the spec does not give (R453). -/
opaque Config.vendorSet : Nat

/-- The fuse of an Exelorn image key is intact (R442, R461). -/
opaque Config.keyIntact : Nat → Bool

end Sys2Proof
end

