-- ==== Sys2Proof/Machine/Bits.lean ====
section
/-! DEFINITION. Bit fields of register words and descriptors, little-endian byte order (R5), and small list helpers. -/

namespace Sys2Proof.Machine

/-- Bits hi to lo of a natural number (bit ranges are high:low, bit 0 least significant). -/
def nbits (n hi lo : Nat) : Nat := n / 2 ^ lo % 2 ^ (hi + 1 - lo)

/-- Bit i of a natural number. -/
def nbit (n i : Nat) : Bool := n / 2 ^ i % 2 == 1

/-- Bits hi to lo of a register word. -/
def bits (w : Word) (hi lo : Nat) : Nat := nbits w.toNat hi lo

/-- Bit i of a register word. -/
def bit (w : Word) (i : Nat) : Bool := nbit w.toNat i

/-- One bit as a number. -/
def b2n (b : Bool) : Nat := if b then 1 else 0

/-- A register word put together from (value, low bit) fields that do not overlap. -/
def word (fs : List (Nat × Nat)) : Word := BitVec.ofNat 32 (fs.foldl (fun a f => a + f.1 * 2 ^ f.2) 0)

/-- The bits of w under a mask; used for registers whose reserved bits read 0 (R7). -/
def masked (w : Word) (m : Nat) : Word := w &&& BitVec.ofNat 32 m

/-- The register after a write that reaches only the bits of a mask (RW fields; R7 ignores the rest). -/
def writeMask (old val : Word) (m : Nat) : Word :=
  (old &&& ~~~(BitVec.ofNat 32 m)) ||| (val &&& BitVec.ofNat 32 m)

/-- The register after a W1C write to the bits of a mask. -/
def w1c (old val : Word) (m : Nat) : Word := old &&& ~~~(val &&& BitVec.ofNat 32 m)

/-- A count kept in w bits that wraps. -/
def wrapAdd (w n k : Nat) : Nat := (n + k) % 2 ^ w

/-- A count that stops at a limit. -/
def satAdd (lim n k : Nat) : Nat := if n + k ≤ lim then n + k else lim

/-- A value held between two limits. -/
def clampN (lo hi n : Nat) : Nat := if n < lo then lo else if hi < n then hi else n

/-- The number that little-endian bytes spell (R5). -/
def leNat : List Byte → Nat
  | [] => 0
  | b :: bs => b.toNat + 256 * leNat bs

/-- The low n bytes of a number, least significant first (R5). -/
def natLe : Nat → Nat → List Byte
  | 0, _ => []
  | n + 1, v => BitVec.ofNat 8 v :: natLe n (v / 256)

/-- The four bytes of a word. -/
def wordLe (w : Word) : List Byte := natLe 4 w.toNat

/-- The word that four little-endian bytes spell. -/
def leWord (bs : List Byte) : Word := BitVec.ofNat 32 (leNat bs)

/-- n bytes from offset o of a byte string; bytes beyond its end read 0. -/
def bytesAt (bs : List Byte) (o n : Nat) : List Byte :=
  let s := (bs.drop o).take n
  s ++ List.replicate (n - s.length) 0

/-- The number in n bytes at offset o. -/
def fieldAt (bs : List Byte) (o n : Nat) : Nat := leNat (bytesAt bs o n)

/-- Cut a byte string into words. -/
def wordsOf : Nat → List Byte → List Word
  | 0, _ => []
  | n + 1, bs => leWord (bytesAt bs 0 4) :: wordsOf n (bs.drop 4)

/-- The bytes of a list of words. -/
def bytesOf (ws : List Word) : List Byte := ws.flatMap wordLe

/-- Whether a number lies in a range. -/
def within (lo hi n : Nat) : Bool := decide (lo ≤ n) && decide (n ≤ hi)

/-- Ceiling of a quotient. -/
def cdiv (a b : Nat) : Nat := (a + b - 1) / b

/-- The numbers 0 to n − 1. -/
def upto (n : Nat) : List Nat := List.range n

/-- The first number below n that p takes. -/
def firstBelow (n : Nat) (p : Nat → Bool) : Option Nat := (List.range n).find? p

/-- Replace element i of a list. -/
def setAt {α : Type} (l : List α) (i : Nat) (a : α) : List α := l.set i a

/-- Element i of a list, or a default. -/
def nth {α : Type} (l : List α) (i : Nat) (d : α) : α := l.getD i d

/-- Sum of a list of numbers. -/
def total (l : List Nat) : Nat := l.foldl (· + ·) 0

/-- Distance of two numbers. -/
def dist (a b : Nat) : Nat := if a ≤ b then b - a else a - b

/-- Insert a number in a rising list without repeats. -/
def insertNat : List Nat → Nat → List Nat
  | [], a => [a]
  | b :: bs, a => if a == b then b :: bs else if a < b then a :: b :: bs else b :: insertNat bs a

/-- Insert an element before the first that it does not follow. -/
def insertBy {α : Type} (le : α → α → Bool) (a : α) : List α → List α
  | [] => [a]
  | b :: bs => if le a b then a :: b :: bs else b :: insertBy le a bs

/-- A list in the order of le; equals keep their order. -/
def sortBy {α : Type} (le : α → α → Bool) (l : List α) : List α := l.foldr (insertBy le) []

/-- CRC-32C (Castagnoli) of one bit step. -/
def crcBit (c : Nat) : Nat := if c % 2 == 1 then (c / 2) ^^^ 0x82F63B78 else c / 2

/-- CRC-32C of one byte. -/
def crcByte (c : Nat) (b : Byte) : Nat :=
  crcBit (crcBit (crcBit (crcBit (crcBit (crcBit (crcBit (crcBit (c ^^^ b.toNat))))))))

/-- CRC-32C over a byte string (R157, R185, R206). -/
def crc32c (bs : List Byte) : Nat := (bs.foldl crcByte 0xFFFFFFFF) ^^^ 0xFFFFFFFF

end Sys2Proof.Machine
end

