-- ==== Sys2Proof/Machine/Memory.lean ====
section
/-! DEFINITION. An addressed memory as (address, byte) pairs in one canonical form: addresses rising, no entry 0. -/

namespace Sys2Proof.Machine

/-- A memory: the listed bytes; every other address reads as 0 (R363 after a march; DESIGN CHOICE elsewhere, log entry 3). -/
abbrev Memory := List Host.Cell

/-- What one address reads as. -/
def Memory.read : Memory → Nat → Byte
  | [], _ => 0
  | (a, b) :: m, i => if a = i then b else Memory.read m i

/-- The memory without an address listed. -/
def Memory.drop1 (m : Memory) (i : Nat) : Memory := m.filter (fun c => !(c.1 == i))

/-- List an address with a byte that is not 0. -/
def Memory.ins : Memory → Nat → Byte → Memory
  | [], i, b => [(i, b)]
  | (a, v) :: m, i, b =>
    if a = i then (i, b) :: m
    else if i < a then (i, b) :: (a, v) :: m
    else (a, v) :: Memory.ins m i b

/-- Write one byte, keeping the canonical form. -/
def Memory.write (m : Memory) (i : Nat) (b : Byte) : Memory :=
  if b = 0 then Memory.drop1 m i else Memory.ins m i b

/-- Read n bytes from an address up. -/
def Memory.readN (m : Memory) : Nat → Nat → List Byte
  | 0, _ => []
  | n + 1, a => Memory.read m a :: Memory.readN m n (a + 1)

/-- Write bytes from an address up. -/
def Memory.writeN (m : Memory) : List Byte → Nat → Memory
  | [], _ => m
  | b :: bs, a => Memory.writeN (Memory.write m a b) bs (a + 1)

/-- Every listed address is at least lo, addresses rise, and no listed byte is 0. -/
def Memory.wfFrom : Nat → Memory → Bool
  | _, [] => true
  | lo, (a, b) :: m => decide (lo ≤ a) && !(b == 0) && Memory.wfFrom (a + 1) m

/-- The canonical form. -/
def Memory.wf (m : Memory) : Bool := Memory.wfFrom 0 m

/-- A memory with every byte of a range read as 0. -/
def Memory.clear (m : Memory) (lo hi : Nat) : Memory := m.filter (fun c => decide (c.1 < lo) || decide (hi ≤ c.1))

end Sys2Proof.Machine
end

