-- ==== Sys2Proof/Machine/Tab.lean ====
section
/-! DEFINITION. Sparse tables keyed by number: an unlisted key reads as the table's default. Plain data. -/

namespace Sys2Proof.Machine

/-- A sparse table: (key, entry) pairs, keys rising. -/
abbrev Tab (α : Type) := List (Nat × α)

/-- The entry at a key, if it is listed. -/
def Tab.find {α : Type} : Tab α → Nat → Option α
  | [], _ => none
  | (k, v) :: t, i => if k = i then some v else Tab.find t i

/-- The entry at a key, or the default. -/
def Tab.getD {α : Type} (t : Tab α) (i : Nat) (d : α) : α := (Tab.find t i).getD d

/-- Write an entry, keeping the keys in order. -/
def Tab.put {α : Type} : Tab α → Nat → α → Tab α
  | [], i, a => [(i, a)]
  | (k, v) :: t, i, a =>
    if k = i then (i, a) :: t
    else if i < k then (i, a) :: (k, v) :: t
    else (k, v) :: Tab.put t i a

/-- Remove an entry. -/
def Tab.erase {α : Type} (t : Tab α) (i : Nat) : Tab α := t.filter (fun e => !(e.1 == i))

/-- Change an entry, starting from the default where it is not listed. -/
def Tab.modify {α : Type} (t : Tab α) (i : Nat) (d : α) (f : α → α) : Tab α := t.put i (f (t.getD i d))

/-- Apply a function to every listed entry. -/
def Tab.mapVals {α : Type} (t : Tab α) (f : Nat → α → α) : Tab α := t.map (fun e => (e.1, f e.1 e.2))

theorem Tab.find_put_same {α : Type} (t : Tab α) (i : Nat) (a : α) : Tab.find (Tab.put t i a) i = some a := by
  induction t with
  | nil => simp [Tab.put, Tab.find]
  | cons e t ih =>
    obtain ⟨k, v⟩ := e
    simp only [Tab.put]
    split
    · simp [Tab.find]
    · split
      · simp [Tab.find]
      · next h _ => simp [Tab.find, h, ih]

theorem Tab.find_put_other {α : Type} (t : Tab α) (i j : Nat) (a : α) (h : i ≠ j) :
    Tab.find (Tab.put t i a) j = Tab.find t j := by
  induction t with
  | nil => simp [Tab.put, Tab.find, h]
  | cons e t ih =>
    obtain ⟨k, v⟩ := e
    simp only [Tab.put]
    split
    · next hk => subst hk; simp [Tab.find, h]
    · split
      · simp [Tab.find, h]
      · simp [Tab.find, ih]

@[simp] theorem Tab.getD_put_same {α : Type} (t : Tab α) (i : Nat) (a d : α) : (Tab.put t i a).getD i d = a := by
  simp [Tab.getD, Tab.find_put_same]

theorem Tab.getD_put_other {α : Type} (t : Tab α) (i j : Nat) (a d : α) (h : i ≠ j) :
    (Tab.put t i a).getD j d = t.getD j d := by
  simp [Tab.getD, Tab.find_put_other t i j a h]

end Sys2Proof.Machine
end

