-- ==== Sys2Proof/Machine/TileState.lean ====
section
/-! DEFINITION. The state of one tile: core, fault word, forage queue, arithmetic registers, memories, handles, windows, queues, contexts, sync cells, fire unit and activity registers. -/

namespace Sys2Proof.Machine

/-- The states of a tile position (R62). -/
inductive TileSt where
  | off | quarantine | admitted | halted | hole
  deriving DecidableEq, Repr, Inhabited

/-- The fault record of a tile: FAULT_WORD, FAULT_INFO0, FAULT_INFO1, FAULT_PC (R66); cyc is the cycle of the first fault, for R67. -/
structure FaultRec where
  valid : Bool := false
  overflow : Bool := false
  code : Nat := 0
  unit : Nat := 0
  info0 : Word := 0
  info1 : Word := 0
  pc : Word := 0
  cyc : Nat := 0
  deriving DecidableEq, Repr, Inhabited

/-- The Xkyoro instructions (R43 to R47). -/
inductive XOp where
  | qopen | qclose | qsend | qtrysend | qrecv | qtryrecv | qselect | qstat
  | swait | ssignal | sfence | sread
  | fpush | fsteal | fwait
  | hset | hclr | ldt | stt | tfill
  | dload | dswitch | dpurge | dsample
  | wopen | wclose | xput | xget
  deriving DecidableEq, Repr, Inhabited

/-- What a stalled core instruction waits for: its condition, an answer to a packet it sent, or room for an answer already in hand. -/
inductive StallWait where
  | cond
  | answer
  | data (status : Nat) (bytes : List Byte)
  | cancel (forced : Bool)
  deriving DecidableEq, Repr, Inhabited

/-- The core's current stall (R37, R38): the instruction, what it waits for, the object it waits on and the field's tick count when the stall began. -/
structure Stall where
  op : XOp
  a : XArgs
  wait : StallWait
  obj : Nat
  since : Nat
  deriving DecidableEq, Repr, Inhabited

/-- The control core (R34, R35): x0 to x31 (x0 is never written), the pc, the stall record, LAST_STATUS and the counters since QUARANTINE. -/
structure Core where
  regs : Tab Word := []
  pc : Word := 0
  startPc : Word := 0
  stall : Option Stall := none
  lastStatus : Nat := 0
  instret : Nat := 0
  cost : Nat := 0
  cycleBase : Nat := 0
  halted : Bool := true
  deriving DecidableEq, Repr, Inhabited

/-- A unit on an ant engine: the unit, the mode and seed captured at setup (R87), the operands read, the parts of them that a thief has fetched so far (R59), the retirement stall, contributions already sent, and destination slots another unit's result has taken (R54). -/
structure RunUnit where
  unit : FUnit
  mode : HomeMode := { round := 0, sat := true, seed := 0 }
  opA : Option (List Byte) := none
  opB : Option (List Byte) := none
  opC : Option (List Byte) := none
  part : Tab (List Byte) := []
  stallSince : Option Nat := none
  sent : Nat := 0
  lost : List Nat := []
  deriving DecidableEq, Repr, Inhabited

/-- One ant engine: its deque (head first), the unit running, the head stall, the pointers of R55 (sibling) and R56 (thief), the cycle of the last push on its deque (R56), the cycle it became idle, and the steal request in flight: the candidates left and its tag. -/
structure Engine where
  deque : List FUnit := []
  running : Option RunUnit := none
  headSince : Option Nat := none
  sibling : Nat := 0
  thief : Nat := 0
  pushedAt : Option Nat := none
  idleSince : Nat := 0
  search : Option (List TileId) := none
  asked : Nat := 0
  deriving DecidableEq, Repr, Inhabited

/-- A steal-out entry (R60): the unit, its thief, the tick its return watchdog or its stall began, the writes of its result so far, its whole result once the last has landed (R59), the contributions sent from it, and destination slots another unit's result has taken (R54). -/
structure StealOut where
  unit : FUnit
  since : Nat
  thief : TileId
  got : Option ResultBody := none
  waiting : Option ResultBody := none
  sent : Nat := 0
  lost : List Nat := []
  deriving DecidableEq, Repr, Inhabited

/-- The forage queue and its registers (R48 to R61, R66). -/
structure Forage where
  engines : Tab Engine := []
  out : Tab StealOut := []
  unitId : Nat := 0
  failedSince : Nat := 0
  domain : Nat := 0
  idleDelay : Nat := 8
  stealKeep : Nat := 2
  intra : Bool := true
  radius : Nat := 0
  stealIn : Word := 0
  stealOut : Word := 0
  stealLate : Word := 0
  unitFailed : Word := 0
  postedLost : Word := 0
  portPtr : Nat := 0
  backoffUntil : Option Nat := none
  searchRot : Nat := 0
  deriving DecidableEq, Repr, Inhabited

/-- The arithmetic registers (R89), with the cycle and the engine of the unit that ARITH_FIRST records. -/
structure Arith where
  flags : Nat := 0
  round : Nat := 0
  sat : Bool := true
  firstUnit : Nat := 0
  firstFlags : Nat := 0
  firstValid : Bool := false
  firstAt : Nat := 0
  firstEng : Nat := 0
  seeds : Tab Nat := []
  deriving DecidableEq, Repr, Inhabited

/-- A handle entry (R125). -/
structure Handle where
  valid : Bool := false
  inTm : Bool := false
  tagMode : Nat := 0
  slotSize : Nat := 0
  format : Nat := 0
  base : Nat := 0
  length : Nat := 0
  deriving DecidableEq, Repr, Inhabited

/-- A request held at a tagged window (R140, R141). -/
structure HeldReq where
  h : Hdr
  body : RemoteBody
  data : Option (List Byte)
  since : Nat
  deriving DecidableEq, Repr, Inhabited

/-- A window entry (R135): configuration words, state, counters, deadline in full wafer time, and the held requests in arrival order. -/
structure Window where
  w0 : Word := 0
  w1 : Word := 0
  w2 : Word := 0
  w3 : Word := 0
  state : Nat := 0
  denied : Nat := 0
  timeouts : Nat := 0
  done : Word := 0
  drop : Word := 0
  deadline : Nat := 0
  held : List HeldReq := []
  deriving DecidableEq, Repr, Inhabited

/-- The sending side of a connection as a receiver names it (R214): where answers go, the tile and context, and the sender's generation. -/
structure Sender where
  src : Endp
  tile : TileId
  ctx : Nat
  gen : Nat
  deriving DecidableEq, Repr, Inhabited

/-- An entry of a message queue in delivery order: a message in its ring slot, or a marker (R222 to R224). -/
inductive REntry where
  | msg (slot : Nat) (len : Nat) (from_ : Sender) (live : Bool)
  | marker (from_ : Sender)
  deriving DecidableEq, Repr, Inhabited

/-- A receive queue (R210, R213). -/
structure RQueue where
  cfg : Word := 0
  defaultCount : Nat := 1
  qinc : Nat := 0
  state : Nat := 0
  cfgErr : Bool := false
  entries : List REntry := []
  ringHead : Nat := 0
  doneSlots : List Nat := []
  free : List Nat := []
  last : Option Sender := none
  lost : Bool := false
  deriving DecidableEq, Repr, Inhabited

/-- A grant record (R214). closing holds the sender's next seq and the arrival tick of a CLOSE of op 0 (R224). -/
structure Grant where
  from_ : Sender
  queue : Nat
  credits : Nat
  seq : Nat
  closing : Option (Nat × Nat) := none
  deriving DecidableEq, Repr, Inhabited

/-- A sender context (R213). -/
structure Ctx where
  state : Nat := 0
  remote : Bool := false
  kind : Nat := 0
  op : Nat := 0
  reason : Bool := false
  closePending : Bool := false
  maxSize : Nat := 0
  credits : Nat := 0
  peer : TileId := ⟨0, 0⟩
  queue : Nat := 0
  qinc : Nat := 0
  peerGen : Nat := 0
  granted : Nat := 0
  seq : Nat := 0
  pos : Nat := 0
  wafer : Nat := 0
  proxy : Nat := 0
  probeAt : Option Nat := none
  deriving DecidableEq, Repr, Inhabited

/-- The queue unit of a tile (R210 to R229); port is where its next packet is taken from, in the rotation of R237 (0 north, 1 east, 2 south, 3 west, 4 the mesh port). -/
structure QUnit where
  queues : Tab RQueue := []
  ctxs : Tab Ctx := []
  grants : Tab Grant := []
  probe : Nat := 16
  drop : Word := 0
  connLost : Word := 0
  rot : Nat := 7
  port : Nat := 0
  folds : List (Nat × Nat) := []
  deriving DecidableEq, Repr, Inhabited

/-- A sync cell's own fields (R242). -/
structure Cell where
  type : Nat := 0
  value : Nat := 0
  target : Nat := 1
  reached : Bool := false
  overflow : Bool := false
  deriving DecidableEq, Repr, Inhabited

/-- What one cycle has brought to a local cell (R257): the cell before its signals, as the last register write of the cycle left it, the signals with the rank of their source, and the units its waiter took. -/
structure CellTurn where
  cyc : Nat
  base : Cell
  sigs : List (Nat × Nat) := []
  took : Nat := 0
  deriving DecidableEq, Repr, Inhabited

/-- An outstanding write on VC3 (R248, R250): its place in issue order, its tag with the epoch bit, what it was, its class (0 field, 1 wafer, 2 remote), whether its operation had already completed, and for a token the iteration of its firing (R165). -/
structure WriteRec where
  n : Nat
  tag : Nat
  re : Re
  cls : Nat
  old : Bool
  posted : Bool
  dst : Endp
  iter : Nat := 0
  deriving DecidableEq, Repr, Inhabited

/-- A remote request that has no final answer yet, kept for a resend; due is the cycle of that resend after a RETRY from a full pending table (R284). -/
structure HeldRemote where
  h : Hdr
  body : Body
  due : Option Nat
  deriving DecidableEq, Repr, Inhabited

/-- Local cells, fences and the pending global request (R260). -/
structure SyncUnit where
  cells : Tab Cell := []
  turns : Tab CellTurn := []
  writes : List WriteRec := []
  epoch : Bool := false
  failField : Bool := false
  failWafer : Bool := false
  failRemote : Bool := false
  pend : Option (Nat × Nat) := none
  resend : Option Nat := none
  nextTag : Nat := 0
  heldRemote : List HeldRemote := []
  deriving DecidableEq, Repr, Inhabited

/-- A node entry of an image (R157). -/
structure NodeE where
  kind : Nat
  inCount : Nat
  inFirst : Nat
  outCount : Nat
  outFirst : Nat
  window : Nat
  actFirst : Nat
  actCount : Nat
  start : Nat
  deriving DecidableEq, Repr, Inhabited

/-- An input port entry of an image (R157). -/
structure PortE where
  handle : Nat
  count : Nat
  base : Nat
  depth : Nat
  len : Nat
  deriving DecidableEq, Repr, Inhabited

/-- An emit entry of an image (R157). -/
structure EmitE where
  target : TileId
  node : Nat
  port : Nat
  epoch : Nat
  dstGen : Nat
  p : Nat
  c : Nat
  srcHandle : Nat
  len : Nat
  srcBase : Nat
  srcDepth : Nat
  credits : Nat
  deriving DecidableEq, Repr, Inhabited

/-- An action entry of an image (R157): FORAGE of a template, or SIGNAL of a local cell. -/
structure ActionE where
  signal : Bool
  arg : Nat
  deriving DecidableEq, Repr, Inhabited

/-- A forage template (R157). -/
structure TemplE where
  desc : List Byte
  aStep : Nat
  bStep : Nat
  cStep : Nat
  period : Nat
  deque : Nat
  deriving DecidableEq, Repr, Inhabited

/-- A checked configuration image (R157). -/
structure Image where
  epoch : Nat
  size : Nat
  nodes : List NodeE
  ports : List PortE
  emits : List EmitE
  actions : List ActionE
  templates : List TemplE
  deriving DecidableEq, Repr, Inhabited

/-- What a loaded slot keeps per node (R149): the oldest open iteration, the next iteration of a source, and the later iterations already completed. -/
structure NodeSt where
  oldest : Nat := 0
  next : Nat := 0
  done : List Nat := []
  deriving DecidableEq, Repr, Inhabited

/-- A fold slot (R157, R158, R168). -/
structure Slot where
  image : Option Image := none
  nodes : List NodeSt := []
  credits : List Nat := []
  armed : Nat := 0
  firings : Word := 0
  purged : Word := 0
  deriving DecidableEq, Repr, Inhabited

/-- A token in the store (R145, R153, R159). since is the tick it arrived; slot is none while unbound. -/
structure Tok where
  body : TokenBody
  slot : Option Nat
  since : Nat
  deriving DecidableEq, Repr, Inhabited

/-- The part of a firing a context is in (R151). -/
inductive FPhase where
  | issue
  | units
  | emit (entry : Nat) (j : Nat)
  | completing
  deriving DecidableEq, Repr, Inhabited

/-- A firing context (R151). -/
structure FCtx where
  slot : Nat
  node : Nat
  iter : Nat
  phase : FPhase
  outstanding : Nat := 0
  failed : Option Nat := none
  isVoid : Bool := false
  choose : Nat := 0
  since : Option Nat := none
  act : Nat := 0
  deriving DecidableEq, Repr, Inhabited

/-- A token refused with RETRY (R153): its header and body, the iteration of the firing that sent it, the tick its stall began, the cycle its next sending is due, and whether that sending is under way. -/
structure HeldTok where
  h : Hdr
  body : TokenBody
  iter : Nat := 0
  since : Nat
  due : Nat
  sent : Bool
  deriving DecidableEq, Repr, Inhabited

/-- The fire unit (R150 to R168); switchedAt is the cycle of the last switch of R163 (R162). -/
structure FoldUnit where
  slots : Tab Slot := []
  store : List Tok := []
  ready : List (Nat × Nat × Nat) := []
  readySince : Option Nat := none
  ctxs : Tab FCtx := []
  held : List HeldTok := []
  schedEn : Bool := false
  schedLen : Nat := 0
  schedPos : Nat := 0
  active : Nat := 0
  sched : Tab (Nat × Nat) := []
  dwellFrom : Nat := 0
  armed : Option (SwitchTarget × Nat) := none
  switchedAt : Option Nat := none
  refused : Word := 0
  retry : Word := 0
  orphan : Word := 0
  voids : Word := 0
  profOn : Bool := false
  profHandle : Nat := 0
  profLog : Nat := 0
  profNext : Nat := 0
  profDue : Nat := 0
  profWraps : Nat := 0
  profLost : Word := 0
  profLostBit : Bool := false
  sampleAt : Option (Nat × Nat × Nat) := none
  deriving DecidableEq, Repr, Inhabited

/-- The activity and thatch registers (R355). asleepAt is the cycle the present sleep began; engaged is set once thatch has engaged in the present swait (R342); ceiling is the ramp ceiling; stepAt and stepCyc are the tick and cycle of the last ramp step; lastIssue, lastFlit and lastThatch are the counts at the last epoch's end (R330). -/
structure Act where
  issue : Word := 0
  sp : Word := 0
  tm : Word := 0
  flit : Word := 0
  thatch : Word := 0
  asleepCount : Word := 0
  asleep : Bool := true
  asleepAt : Nat := 0
  running : Bool := false
  engaged : Bool := false
  ceiling : Nat := 16
  level : Nat := 0
  duty : Nat := 0
  enable : Bool := false
  local_ : Bool := false
  down : Nat := 25
  up : Nat := 25
  delay : Nat := 4
  stepAt : Nat := 0
  stepCyc : Nat := 0
  lastIssue : Word := 0
  lastFlit : Word := 0
  lastThatch : Word := 0
  deriving DecidableEq, Repr, Inhabited

/-- The two memories of a tile in its local window (R114), the full granules (R129), the words with an uncorrectable error (R118) and those with an error of one bit that no read has met or corrected yet (R117), the requester next in the rotation of R116 on the scratchpad's port and on tile memory's, and the granules whose tag changed since the last tick (R133). -/
structure TileMem where
  cells : Memory := []
  full : List Nat := []
  ue : List Nat := []
  ce : List Nat := []
  arb : Nat := 0
  arbTm : Nat := 0
  turned : List Nat := []
  deriving DecidableEq, Repr, Inhabited

/-- One tile position. -/
structure Tile where
  st : TileSt := .off
  shadow : Bool := false
  gen : Nat := 0
  core : Core := {}
  fault : FaultRec := {}
  wdogEn : Bool := true
  wdogLimit : Nat := 250000
  forage : Forage := {}
  arith : Arith := {}
  mem : TileMem := {}
  handles : Tab Handle := []
  windows : Tab Window := []
  q : QUnit := {}
  sync : SyncUnit := {}
  fold : FoldUnit := {}
  act : Act := {}
  deriving DecidableEq, Repr, Inhabited

end Sys2Proof.Machine
end

