-- ==== Sys2Proof/Machine/ConductorState.lean ====
section
/-! DEFINITION. The state of the mailbox block (R384), the conductor (R381, R382) and the start-up sequence (R359, R370). -/

namespace Sys2Proof.Machine

/-- A message as a take latches it (R387). -/
structure Taken where
  words : List Word
  seq : Nat
  collision : Bool
  at_ : Nat
  deriving DecidableEq, Repr, Inhabited

/-- A mailbox channel (R384), with the message the conductor has taken and not acknowledged. -/
structure Chan where
  msg : Tab Word := []
  seq : Nat := 0
  full : Bool := false
  collision : Bool := false
  taken : Bool := false
  ackSeq : Nat := 0
  ackCode : Nat := 0
  jState : Nat := 0
  jStep : Nat := 0
  jSeq : Nat := 0
  done : List Word := []
  buf : Option Taken := none
  deriving DecidableEq, Repr, Inhabited

/-- The mailbox block (R384); both copies hold the same (R383). spine is the grant pointer. -/
structure Mailbox where
  chans : Tab Chan := []
  epoch : Nat := 0
  standbyReady : Bool := false
  activeKf : Nat := 0
  running : Bool := false
  beat : Word := 0
  beatAt : Nat := 0
  violation : Word := 0
  collisions : Word := 0
  spine : Nat := 0
  deriving DecidableEq, Repr, Inhabited

/-- A command accepted and not complete (R389): its channel, message, the tick its limit runs from, whether it waits behind a shutdown (R395), the step reached, and the result words so far. -/
structure PendCmd where
  chan : Nat
  seq : Nat
  words : List Word
  since : Nat
  waiting : Bool := false
  step : Nat := 0
  results : List Word := []
  outcome : Option Nat := none
  deriving DecidableEq, Repr, Inhabited

/-- A job (R404): state 0 FREE to 4 STOPPED, its field mask, its tiles, their START_PC values, the image references by tile key and slot, and where each loaded image lies (R406). -/
structure Job where
  st : Nat := 0
  fmask : Nat := 0
  tiles : List TileId := []
  starts : Tab Word := []
  refs : Tab Word := []
  images : List (TileId × Nat × Nat) := []
  stopping : Bool := false
  deriving DecidableEq, Repr, Inhabited

/-- A published window (R407). -/
structure WinName where
  name : Nat
  pos : TileId
  window : Nat
  key : Nat
  length : Nat
  deriving DecidableEq, Repr, Inhabited

/-- A broker exchange under way at its origin (R407). -/
structure BrokerReq where
  id : Nat
  chan : Nat
  seq : Nat
  tile : TileId
  ctx : Nat
  wafer : Nat
  queue : Nat
  far : TileId
  since : Nat
  deriving DecidableEq, Repr, Inhabited

/-- A connect the far conductor serves: the proxy whose OPEN awaits its answer, and where the reply goes (R407). -/
structure BrokerServe where
  port : Nat
  proxy : Nat
  origin : Nat
  request : Nat
  deriving DecidableEq, Repr, Inhabited

/-- A held clock order (R312). -/
structure HeldOrder where
  kind : Nat
  op : Nat
  at_ : Nat
  deriving DecidableEq, Repr, Inhabited

/-- The conductor's own state (R382). up lists the keep fields (0 and 55) whose pair has booted, versions the image each runs (R412); order is the channels taken and not acknowledged, in take order (R393); ptrS and ptrN are where the next search of each pass begins (R389); notes holds each power note with the tick it was recorded (R344); halted is what it has read of the fault logs (R483); takeover is the tick H of a takeover under way and takeNote the detail of its event, handover set while a planned one is due (R397, R398); rebuilding is set while the standby rebuilds its copy (R400); cutKeeps lists the keep fields it has reported as cut off from the mesh (R19), sweeps the failed fields whose cells it still has to sweep (R253). -/
structure Conductor where
  up : List Nat := []
  versions : Tab Nat := []
  order : List Nat := []
  ptrS : Nat := 40
  ptrN : Nat := 0
  pend : List PendCmd := []
  gens : Tab Nat := []
  jobs : Tab Job := []
  polMask : Nat := 0xFFFF
  polSrc : Nat := 0
  polMax : Nat := 128
  dir : List WinName := []
  reqs : List BrokerReq := []
  serves : List BrokerServe := []
  nextReq : Nat := 0
  reqOp : Nat := 0
  highest : Nat := 0
  group : Nat := 0
  groupCap : Nat := 0
  notes : List (PowerNote × Nat) := []
  noteSeq : Nat := 0
  noteAt : Nat := 0
  pollAt : Nat := 0
  halted : List TileId := []
  heldOrders : List HeldOrder := []
  takeover : Option Nat := none
  takeNote : List Nat := []
  handover : Bool := false
  rebuilding : Bool := false
  silent : Option Nat := none
  silentSeen : Bool := false
  wantMap : Bool := false
  cutKeeps : List Nat := []
  sweeps : List Nat := []
  deriving DecidableEq, Repr, Inhabited

/-- Start-up (R359, R370): kind 0 none, 1 cold, 2 warm; the step; whether cold bring-up has completed; the wave of R360 due next; and the ticks steps began. -/
structure Boot where
  kind : Nat := 0
  step : Nat := 0
  complete : Bool := false
  wave : Nat := 0
  waveAt : Nat := 0
  since : Nat := 0
  stopAt : Nat := 0
  programmed : Bool := false
  deriving DecidableEq, Repr, Inhabited

end Sys2Proof.Machine
end

