-- ==== Sys2Proof/Machine/FieldState.lean ====
section
/-! DEFINITION. The state of one field: its controller's memory, mesh, sync, clock, power, service and fault blocks. -/

namespace Sys2Proof.Machine

/-- An event record as a unit writes it (R467): code, wafer time, source and detail. -/
structure Ev where
  code : Nat
  time : Nat
  src : Nat
  detail : List Nat
  deriving DecidableEq, Repr, Inhabited

/-- The memory control block (R124). Each log entry is its kind, offset, tile and time. -/
structure FieldMem where
  derateC : Nat := 85
  scrubStep : Nat := 63
  derated : Bool := false
  scrubRow : Nat := 0
  scrubAt : Nat := 0
  ceSp : Word := 0
  ceTm : Word := 0
  ue : Word := 0
  log : Tab (Nat × Nat × TileId × Nat) := []
  logHead : Nat := 0
  profiles : Tab Word := []
  refreshed : Tab Nat := []
  deriving DecidableEq, Repr, Inhabited

/-- The rotations of one router output (R177, R202, R205): the input at which each channel's next grant starts (absent: 0, north), the channel of VC1 to VC3 at which the next grant starts, the place in the near-ring round of three (0 and 1 are the near ring's), and the cycles in which VC0 flits were offered to it, oldest first (R198). -/
structure OutPort where
  inPtr : Tab Nat := []
  chPtr : Nat := 1
  near : Nat := 0
  vc0At : List Nat := []
  deriving DecidableEq, Repr, Inhabited

/-- A router's own counters (R208), the neighbours it holds as dead (R195), its outputs (0 east, 1 west, 2 north, 3 south, 4 local), and the cycle of the last VC0 flit each kind of source injected here (R198); its hole flags, rings and site follow from the map in force. -/
structure Router where
  flits : Word := 0
  escape : Word := 0
  lost : Nat := 0
  merges : Nat := 0
  deadN : Bool := false
  deadE : Bool := false
  deadS : Bool := false
  deadW : Bool := false
  outs : Tab OutPort := []
  vc0Sent : Tab Nat := []
  deriving DecidableEq, Repr, Inhabited

/-- The mesh block (R208). -/
structure FieldMesh where
  vc0Gap : Nat := 16
  nearEn : Bool := true
  mergeEn : Bool := true
  mcastEn : Bool := false
  bvPartition : Bool := false
  bvMap : Bool := false
  bvVc0 : Bool := false
  pathLost : Word := 0
  staleDrop : Word := 0
  vc0Over : Word := 0
  merged : Word := 0
  mcastDrop : Word := 0
  routers : Tab Router := []
  deriving DecidableEq, Repr, Inhabited

/-- A waiter record of a global cell (R243): cell index, tile, its generation, and the request's tag. -/
structure Waiter where
  cell : Nat
  tile : TileId
  gen : Nat
  tag : Nat
  deriving DecidableEq, Repr, Inhabited

/-- The global cell block (R261), and the records saved while the field is out (R253). -/
structure FieldSync where
  cells : Tab Cell := []
  waiters : List Waiter := []
  retry : Word := 0
  stale : Word := 0
  forced : Word := 0
  saved : Option (Tab Cell) := none
  deriving DecidableEq, Repr, Inhabited

/-- The states of FIELD_PWR.state (R356). -/
inductive PwrSt where
  | off | retain | idle | active | failed
  deriving DecidableEq, Repr, Inhabited

/-- The states of a crossing (R306). -/
inductive XSt where
  | parked | calibrating | running | failed
  deriving DecidableEq, Repr, Inhabited

/-- The inbound crossings of one boundary (R305, R321); retried is set after a first calibration that needed L above 7, and began is the tick its markers started (R307). -/
structure Xing where
  state : XSt := .parked
  async : Bool := false
  latency : Nat := 0
  stalls : Word := 0
  episodes : Nat := 0
  peak : Nat := 0
  calTime : Word := 0
  retried : Bool := false
  began : Nat := 0
  deriving DecidableEq, Repr, Inhabited

/-- An order armed for a step boundary: its kind, its point and S (R311, R336). -/
structure StepOrder where
  kind : Nat
  op : Nat
  at_ : Nat
  deriving DecidableEq, Repr, Inhabited

/-- A power transition under way (R328, R347, R348); back is the return from a park. -/
inductive Plan where
  | none | retain | park | off | wake | back
  deriving DecidableEq, Repr, Inhabited

/-- The clock block (R321). relock is the tick a relock ends, stopped the tick a margin stop began, owe the stretched cycles not yet taken off the count, acc the part of a cycle repaid, low16 the epochs in a row at level 6 or more (R318), skew the field's count less KF0's (R297), halted set once a stop order holds the clock low (R300), stopMon the monitor of a margin stop. -/
structure FieldClk where
  op : Nat := 0
  ceiling : Nat := 0
  monitor : Bool := false
  order : Option StepOrder := none
  orderAt : Nat := 0
  relock : Option Nat := none
  stopped : Option Nat := none
  clock : Nat := 0
  halted : Bool := false
  stopMon : Nat := 0
  debt : Nat := 0
  owe : Nat := 0
  acc : Nat := 0
  fast : Bool := false
  wtHi : Word := 0
  lowMon : Nat := 0
  low : Nat := 7
  epochLow : Nat := 7
  low16 : Nat := 0
  stretch : Word := 0
  stops : Word := 0
  bvAsync : Bool := false
  bvMargin : Bool := false
  bvOp : Bool := false
  bvStretch : Bool := false
  xing : Tab Xing := []
  skew : Int := 0
  fallback : Bool := false
  deriving DecidableEq, Repr, Inhabited

/-- The power block (R356), with the field controller's own counts: the tick a rung-3 condition began, the tick it began at rung 2, samples in a row at 115 degrees or more, the activity of the last epoch in fJ (core at the OP0 voltage; memory and port), the currents an insulation check found, the cycle count and epoch of the last epoch's end, the tick since which every sensor read 85 or below, whether the field went OFF by a thermal trip and is still above 80, the steps armed by kind (1 cap, 2 thermal, 3 forced), the tick an insulation check began, the transition under way, the tick the core rail reaches retention, the tick W of a wake, the epoch last latched, and the tick the rails were last lost. -/
structure FieldPwr where
  state : PwrSt := .off
  parked : Bool := false
  cause : Nat := 0
  capGate : Nat := 0
  tgate : Nat := 0
  est : Nat := 0
  actCore : Nat := 0
  actMem : Nat := 0
  temp : Int := 0
  sensor : Nat := 0
  maxTemp : Nat := 0
  limPark : Nat := 105
  limGate : Nat := 100
  limWarn : Nat := 95
  req : Nat := 0
  cap : Nat := 0
  therm : Nat := 0
  forced : Nat := 0
  steps : Tab StepOrder := []
  bvTherm : Bool := false
  bvCap : Bool := false
  bvThatch : Bool := false
  bvGate : Bool := false
  coreLatch : Bool := false
  memLatch : Bool := false
  insul : Nat := 0
  insulating : Option Nat := none
  plan : Plan := .none
  gateEpochs : Word := 0
  trims : Tab Nat := []
  shorts : Tab Nat := []
  hotSince : Option Nat := none
  warmSince : Option Nat := none
  trips : Nat := 0
  coolSince : Option Nat := none
  tripped : Bool := false
  insulCore : Nat := 0
  insulMem : Nat := 0
  epochCyc : Nat := 0
  tgateEpoch : Nat := 0
  retainAt : Option Nat := none
  waking : Option Nat := none
  epochNo : Nat := 0
  lostAt : Option Nat := none
  epochsAt : Tab (Nat × Nat) := []
  marginStops : List Nat := []
  deriving DecidableEq, Repr, Inhabited

/-- The states of SVC_STATE.state (R379). -/
inductive SvcSt where
  | out | testing | ready | inService | drained | parked | failed
  deriving DecidableEq, Repr, Inhabited

/-- What a tile record holds beyond the tile's own state (R379). -/
structure TRec where
  fails : Nat := 0
  result : Nat := 0
  gen : Nat := 0
  deriving DecidableEq, Repr, Inhabited

/-- The service block (R379), with the test in progress: tiles under test, tiles that have not reported their known answers, the pause within a pattern, the pauses each row group has failed in each pattern, as a mask by local tile x 16 + group (R365), the kind under which the conductor lists the field as a furrow (R183, R185), and whether a warm reset leaves it as it was, OUT or FAILED (R378). -/
structure FieldSvc where
  state : SvcSt := .out
  phase : Nat := 0
  level : Nat := 0
  resetDone : Bool := false
  failed : Nat := 0
  passed : Nat := 0
  firstFail : Option (Nat × TileId) := none
  cold : Bool := false
  log2k : Nat := 0
  temp : Nat := 0
  age : Word := 0
  recs : Tab TRec := []
  testing : List Nat := []
  awaiting : List Nat := []
  since : Nat := 0
  pause : Nat := 0
  codes0 : Tab Nat := []
  codes1 : Tab Nat := []
  furrow : Option Nat := some 5
  scrubUe : Nat := 0
  stays : Bool := false
  deriving DecidableEq, Repr, Inhabited

/-- An entry of the fault log (R484). -/
structure FltEntry where
  fault : Word
  tile : TileId
  gen : Nat
  info0 : Word
  info1 : Word
  pc : Word
  time : Nat
  deriving DecidableEq, Repr, Inhabited

/-- The fault block (R484): HALT_VEC as the local tiles whose bit is set, and the bits R481 has already taken. -/
structure FieldFlt where
  overflow : Bool := false
  switchLate : Bool := false
  next : Nat := 0
  tail : Nat := 0
  count : Nat := 0
  entries : Tab FltEntry := []
  haltVec : List Nat := []
  taken : List Nat := []
  epoch : Nat := 0
  deriving DecidableEq, Repr, Inhabited

/-- The power master block of KF0 and KF3 (R357), with the master's own counts (R332, R333) and its totals of the last 1,024 ticks (R344). -/
structure Master where
  cap : Nat := 40000
  groupCap : Nat := 0
  hedgeCap : Nat := 0
  total : Nat := 0
  totals : List (Nat × Nat) := []
  estScale : Nat := 1024
  maxGate : Nat := 12
  stepAfter : Nat := 1
  autoReturn : Bool := false
  active : Bool := false
  thermSteps : Nat := 0
  capSteps : Nat := 0
  overCount : Word := 0
  overs : Nat := 0
  under : Nat := 0
  lastEpoch : Nat := 0
  thermSince : Option Nat := none
  coolSince : Option Nat := none
  deriving DecidableEq, Repr, Inhabited

/-- One field. runTicks counts the ticks the field has been IDLE or ACTIVE (R38); cycles its cycles (R3). fcVersion and tileVersion are the versions of the images its controller and tiles run (R412), fcDigest and tileDigest what stands for those images' header digests (R459). -/
structure Field where
  mem : FieldMem := {}
  mesh : FieldMesh := {}
  sync : FieldSync := {}
  clk : FieldClk := {}
  pwr : FieldPwr := {}
  svc : FieldSvc := {}
  flt : FieldFlt := {}
  master : Master := {}
  runTicks : Nat := 0
  cycles : Nat := 0
  fcVersion : Nat := 0
  fcDigest : Nat := 0
  tileVersion : Nat := 0
  tileDigest : Nat := 0
  deriving DecidableEq, Repr, Inhabited

end Sys2Proof.Machine
end

