-- ==== Sys2Proof/Machine/HedgeState.lean ====
section
/-! DEFINITION. The state of Hedgerow (chapter 16) and of the chassis inputs and power board it drives (R24, R26, R325, R497). -/

namespace Sys2Proof.Machine

/-- Chassis inputs and the power board. input is set while Hedgerow has its supply (R443); board once the 6 V bus runs; busStopped after the board's comparators stopped it (R325); heldOff while the board stays disabled until On or a new power-enable (R24, R449); restartAt is the tick at which a 2 s disable ends; restarts counts cold restarts in a row (R24); shutdown is the tick P of a shutdown no conductor has answered (R499); resetHeld is set while start-up waits for MOD_RESET_N to be released (R33), and releasedAt is its last release. -/
structure Chassis where
  input : Bool := false
  stbyGood : Bool := false
  pwrEn : Bool := false
  modReset : Bool := false
  ident : Bool := false
  board : Bool := false
  busStopped : Bool := false
  heldOff : Bool := false
  restartAt : Option Nat := none
  shutdown : Option Nat := none
  resetHeld : Bool := false
  releasedAt : Option Nat := none
  mv : Nat := 60000
  lowMs : Nat := 0
  range : Nat := 0
  goodSince : Option Nat := none
  restarts : Nat := 0
  deriving DecidableEq, Repr, Inhabited

/-- Hedgerow's watch over power and coolant (R335, R351): milliseconds in a row over the cap, the tick of the last forced step, the coolant limit (0 none), the response in force, the tick the flow fell below 20 litres a minute, and the last power and coolant samples. -/
structure Watch where
  overs : Nat := 0
  forcedAt : Option Nat := none
  coolCap : Nat := 0
  response : Nat := 0
  lowFlow : Option Nat := none
  watts : Nat := 0
  coolant : Coolant := ⟨0, 0, 0, false⟩
  deriving DecidableEq, Repr, Inhabited

/-- An image as its region or its staging place holds it (R460, R462): version, security version, the model's stand-in for its header digest, and whether the region verifies. -/
structure Img where
  version : Nat := 0
  svn : Nat := 0
  digest : Nat := 0
  ok : Bool := true
  deriving DecidableEq, Repr, Inhabited

/-- What Hedgerow's flash and secure element hold of the engine: each field's profile words (R366, R371), the six image regions and the staged images by kind (R460 to R462), the security version counters, and the cold resets since manufacture (R471). -/
structure Flash where
  profiles : Tab (Tab Word) := []
  regions : Tab Img := []
  staged : Tab Img := []
  counters : Tab Nat := []
  coldResets : Nat := 0
  deriving DecidableEq, Repr, Inhabited

/-- A local account (R451): role 0 ReadOnly, 1 Operator, 2 Administrator; the password is a number that stands for it. -/
structure Account where
  name : Nat
  role : Nat
  password : Nat
  fails : Nat := 0
  locked : Option Nat := none
  mustChange : Bool := false
  deriving DecidableEq, Repr, Inhabited

/-- A Redfish session (R451): its number, account, and Hedgerow's count at its last use. -/
structure Session where
  id : Nat
  account : Nat
  at_ : Nat
  deriving DecidableEq, Repr, Inhabited

/-- Configuration items of R452 that are held nowhere else; forward none means every code. -/
structure HedgeCfg where
  network : Nat := 0
  recoveryUrl : Option Nat := none
  silenceReset : Bool := true
  bootNvme : Bool := false
  forward : Option (List Nat) := none
  deriving DecidableEq, Repr, Inhabited

/-- The slot check (R454): waiting for a dynamic address since a count, asked at a count, or settled. -/
inductive SlotSt where
  | waiting (since : Nat)
  | asked (at_ : Nat)
  | settled
  deriving DecidableEq, Repr, Inhabited

/-- Answers of the SPDM responder (R458, R459). -/
inductive SpdmAns where
  | error (code : Nat)
  | version
  | capabilities
  | algorithms (algs : Nat)
  | digests (d : List Byte)
  | certificate (part : List Byte) (rest : Nat)
  | challengeAuth (sig : List Byte)
  | measurements (blocks : List (Nat × List Byte)) (sig : List Byte)
  deriving DecidableEq, Repr, Inhabited

/-- A field snapshot (R475): register words by offset, sensor frames with their ticks, the records that name the field, eight words per clocked tile, and the signature. -/
structure Snapshot where
  field : Nat
  time : Nat
  regs : List Word
  frames : List (Nat × SensorFrame)
  recs : List (List Byte)
  tiles : List (List Word)
  sig : List Byte
  deriving DecidableEq, Repr, Inhabited

/-- A watched sensor (R455): failed, and, of a thermal sensor, since which count it has stood more than 20 K from its field's median. -/
structure Sensor where
  failed : Bool := false
  farSince : Option Nat := none
  deriving DecidableEq, Repr, Inhabited

/-- Hedgerow. base is its count at the last load pulse, so that its own count goes on across a cold reset, and before the wafer time that pulse ended (R471); up is clear while its input is gone or its recovery loader runs (R466), recovering while that loader runs, retryAt the count at which a loader that failed tries again; sideMode is the side-band mode tried (0 25 Gbit/s, 1 10 Gbit/s) since sideAt; i3c and eid are its bus addresses, mctp the packets that await private reads and i3cRead the last read's answer (none: refused); http, body and export are the last Redfish answer; syncReply is what its last sync read or list returned (R258); certCache holds the hashes of the partner certificates whose chains it has (R270); pushing gives, by kind, the session whose push of an image is under way (R463); profDue lists the fields whose profiles wait to be written to flash (R378); unread lists the controllers whose status a restarted Hedgerow has still to read before it orders anything (R444); utc is the clock at count utcAt; tasks gives each task's end (1 completed, 2 exception). -/
structure Hedge where
  up : Bool := false
  base : Nat := 0
  before : Nat := 0
  recovering : Bool := false
  retryAt : Option Nat := none
  pollAt : Nat := 0
  anchorAt : Nat := 0
  utc : Nat := 0
  utcAt : Nat := 0
  sideLink : Bool := false
  sideMode : Nat := 0
  sideAt : Nat := 0
  i3c : Option Nat := none
  eid : Nat := 0
  mctp : List (List Byte) := []
  i3cRead : Option (List Byte) := none
  slot : SlotSt := .settled
  slotStored : Bool := false
  spdm : Tab Nat := []
  spdmOut : Option SpdmAns := none
  accounts : List Account := [{ name := 0, role := 2, password := 0, mustChange := true }]
  sessions : List Session := []
  nextSession : Nat := 0
  cfg : HedgeCfg := {}
  ownerRoot : Option Nat := none
  ownerImage : Option Nat := none
  led : Bool := false
  sensors : Tab Sensor := []
  frames : Tab (List (Nat × SensorFrame)) := []
  snaps : List Snapshot := []
  tasks : List Nat := []
  http : Nat := 0
  body : List Nat := []
  export_ : List Byte := []
  syncReply : List Nat := []
  certCache : List Nat := []
  pushing : Tab Nat := []
  profDue : List Nat := []
  unread : List Nat := []
  deriving DecidableEq, Repr, Inhabited

end Sys2Proof.Machine
end

