-- ==== Sys2Proof/Machine/HostState.lean ====
section
/-! DEFINITION. The state of a host node: its memory and boot, its harts' interrupt and wafer-window state, its control block and its Ethernet ports (chapter 15). -/

namespace Sys2Proof.Machine

/-- A wafer-window access (R423 to R428): its number, hart, wafer address and size, the bytes of a store, the tick it was sent, and whether its gate has taken it. -/
structure WinAcc where
  id : Nat
  hart : Nat
  addr : Nat
  size : Nat
  data : Option (List Byte) := none
  since : Nat := 0
  deriving DecidableEq, Repr, Inhabited

/-- What a hart still has to do in order: an access, or a fence that waits for its earlier writes (R426). -/
inductive HartOp where
  | acc (a : WinAcc)
  | fence
  deriving DecidableEq, Repr, Inhabited

/-- A hart as the node's devices see it: interrupt pending bits, its timer compares, the last load's bytes, and the last exception an access raised (0 none, 1 access fault, 2 misaligned, 3 load access fault on a failed answer). -/
structure Hart where
  msip : Bool := false
  ssip : Bool := false
  mtip : Bool := false
  stip : Bool := false
  mtimecmp : Nat := 0
  stimecmp : Nat := 0
  load : List Byte := []
  trap : Nat := 0
  held : List HartOp := []
  deriving DecidableEq, Repr, Inhabited

/-- A descriptor ring (R432). -/
structure Ring where
  base : Nat := 0
  enable : Bool := false
  size : Nat := 6
  tail : Nat := 0
  head : Nat := 0
  deriving DecidableEq, Repr, Inhabited

/-- An Ethernet port (R431, R432): rings 0 to 7 transmit, 8 to 15 receive; present is the presence bit of its OSFP cage (R505); frag is the frame being gathered from its fragments, sent the frames put on the wire, pause the tick up to which a partner's pause holds a priority. -/
structure EthPort where
  enable : Bool := false
  pfc : Bool := false
  mtu : Nat := 1518
  link : Bool := false
  mode : Nat := 0
  present : Bool := false
  rxDrop : Word := 0
  rings : Tab Ring := []
  frag : List Byte := []
  sent : List (List Byte) := []
  pause : Tab Nat := []
  deriving DecidableEq, Repr, Inhabited

/-- The completion of a PCIe device's last read (R421, R434). -/
inductive DmaAns where
  | none
  | data (bs : List Byte)
  | poisoned
  | unsupported
  deriving DecidableEq, Repr, Inhabited

/-- A host node (R416, R429, R435). mem holds local host memory by byte, bad the 8-byte words beyond correction; bootAt is the tick C, attempts the boots that have failed since a reset, stallTo the tick a change of frequency ends; flight holds the raw accesses sent and not answered; sbi is the code the resident loader last returned for a forwarded command, sbiWait the channel and sequence number it polls for (R430), and aer the root port's uncorrectable error status (R434). -/
structure HostNode where
  mem : List Host.Cell := []
  bad : List Nat := []
  stage : Nat := 0
  code : Nat := 0
  bootAt : Nat := 0
  attempts : Nat := 0
  freq : Nat := 30
  stallTo : Nat := 0
  winFault : Bool := false
  winTimeout : Nat := 250000
  winErr : Word := 0
  winValid : Bool := false
  winHart : Nat := 0
  winWrite : Bool := false
  winStatus : Nat := 0
  winAddr : Nat := 0
  memCe : Nat := 0
  memUe : Nat := 0
  flight : List WinAcc := []
  nextId : Nat := 0
  harts : Tab Hart := []
  eth : Tab EthPort := []
  sbi : Option Nat := none
  sbiWait : Option (Nat × Nat) := none
  aer : Word := 0
  dma : DmaAns := .none
  deriving DecidableEq, Repr, Inhabited

end Sys2Proof.Machine
end

