-- ==== Sys2Proof/Machine/PortState.lean ====
section
/-! DEFINITION. The state of one firefly port, its link and its dock (chapter 10, R293). -/

namespace Sys2Proof.Machine

/-- A route entry as its dock reads it (R281, R293): egress port and the whole hop list, entry 0 first. -/
structure Route where
  valid : Bool
  egress : Nat
  wafer : Nat
  hops : List Nat
  deriving DecidableEq, Repr, Inhabited

/-- A pending remote request at its ingress dock (R284). -/
structure Pend where
  tile : TileId
  gen : Nat
  tag : Nat
  re : Re
  isRead : Bool
  since : Nat
  deriving DecidableEq, Repr, Inhabited

/-- A proxy (R289, R293), with the receiving tile it was brokered to and that tile's generation, which its packets are delivered under (log entry 15). -/
structure Proxy where
  valid : Bool := false
  wafer : Nat := 0
  tile : TileId := ⟨0, 0⟩
  ctx : Nat := 0
  gen : Nat := 0
  peer : TileId := ⟨0, 0⟩
  peerGen : Nat := 0
  deriving DecidableEq, Repr, Inhabited

/-- A packet that waits at the egress dock, and the tick it was taken (R280). -/
structure Waiting where
  vc : Nat
  pkt : Pkt
  since : Nat
  deriving DecidableEq, Repr, Inhabited

/-- What a port reports of its training (R271): each rate's entry, and the usable transmit paths at rates 1 to 3, bit p for path p. -/
structure Trained where
  rate3 : RateCap := ⟨0, 0, 0⟩
  rate2 : RateCap := ⟨0, 0, 0⟩
  rate1 : RateCap := ⟨0, 0, 0⟩
  usable : List Nat := []
  deriving DecidableEq, Repr, Inhabited

/-- A negotiation under way (R270 to R274): what training gave, the own nonce, the partner's versions and nonce, its block, the mode chosen with the own switch count, the partner's mode and count, and the bytes of its certificate chain received so far. -/
structure Negotiation where
  trained : Trained := {}
  nonce : Nat := 0
  hello : Option (Nat × Nat) := none
  cap : Option CapBlock := none
  chosen : Option LinkMode := none
  count : Nat := 0
  theirs : Option (LinkMode × Nat) := none
  certs : List Byte := []
  deriving DecidableEq, Repr, Inhabited

/-- A frame other than DATA that a port has put on the fibre (R270, R276): a NEG frame, or a LINK frame with its operation, what it names, its acknowledgement and the credits it returns. -/
inductive CtlFrame where
  | hello (versions nonce : Nat)
  | cap (block : List Byte)
  | cert (x : CertFrame)
  | mode (m : LinkMode) (count : Nat)
  | link (op arg ack creditVc credits : Nat)
  deriving DecidableEq, Repr, Inhabited

/-- The stored partner record of a port (R274): certificate, serial and wafer identifier. -/
structure Partner where
  cert : Nat
  serial : Nat
  wafer : Nat
  deriving DecidableEq, Repr, Inhabited

/-- The entry that four route words hold (R293): the hop list is entry 0, the egress port, and the first hop_count − 1 of the eleven bytes of words 1 to 3; a count above 12 acts as 12. -/
def routeOf (ws : List Word) : Route :=
  let w (i : Nat) : Word := ws.getD i 0
  let byte_ (i : Nat) : Nat := bits (w (1 + i / 4)) (8 * (i % 4) + 7) (8 * (i % 4))
  { valid := bit (w 0) 31, egress := bits (w 0) 29 24, wafer := bits (w 0) 15 0
    hops := bits (w 0) 29 24 :: (upto (min 12 (bits (w 0) 23 20) - 1)).map byte_ }

/-- A port and its dock (R293). routes holds the route words that are not all 0. ctrl is PORT_CTRL; laneMap is LANE_MAP; credit and owed count 64-byte units by channel; since is the tick of the last change of state; backoff is set in the 1 s wait after a failed training; nakSeq and nakCount are the last nak and how often in a row it came; markDue is set while the next frame is to mark a new lane set (R279); out holds the NEG and LINK frames sent since the port last began to train or left UP, oldest first. -/
structure Port where
  ctrl : Word := 0xEFF809C4
  state : Nat := 0
  since : Nat := 0
  relayOn : Bool := false
  changed : Bool := false
  mode : LinkMode := ⟨0, 0, 0, 0⟩
  refusal : Nat := 0
  partnerPort : Nat := 0
  partnerWafer : Nat := 0
  laneActive : Word := 0
  laneMap : Word := 0x76543210
  fixedMap : Option Word := none
  timeout : Nat := 25000
  crcErr : Word := 0
  retryCnt : Word := 0
  retrainCnt : Word := 0
  fecCorr : Word := 0
  relayFwd : Word := 0
  relayNack : Word := 0
  relayDrop : Word := 0
  pendingExpired : Word := 0
  lateAnswer : Word := 0
  pending : Tab Pend := []
  routes : Tab (List Word) := []
  proxies : Tab Proxy := []
  lit : Bool := false
  waiting : List Waiting := []
  unacked : List Frame := []
  txSeq : Nat := 0
  rxSeq : Nat := 0
  credit : List Nat := [128, 512, 1024, 2048]
  owed : List Nat := [0, 0, 0, 0]
  turn : Nat := 1
  nakSeq : Nat := 0
  nakCount : Nat := 0
  backoff : Bool := false
  ackDue : Bool := false
  retraining : List Nat := []
  markDue : Bool := false
  out : List CtlFrame := []
  neg : Negotiation := {}
  partner : Option Partner := none
  deriving DecidableEq, Repr, Inhabited

/-- PORT_REMOTE_TIMEOUT in force: below 2,500 acts as 2,500. -/
def Port.remoteTimeout (p : Port) : Nat := if p.timeout < 2500 then 2500 else p.timeout

end Sys2Proof.Machine
end

