-- ==== Sys2Proof/Machine/ScarabState.lean ====
section
/-! DEFINITION. The Scarab recorder's buffers and the rate limits every record passes (R467 to R474). -/

namespace Sys2Proof.Machine

/-- A record Hedgerow has accepted: the event, and the count suppressed since the last of its code (R468). -/
structure Rec where
  ev : Ev
  suppressed : Nat
  deriving DecidableEq, Repr, Inhabited

/-- The recorder (R469 to R473). A bucket holds its tokens in parts of a second in ticks, and Hedgerow's count when it was last filled. region is the flash, in write order; holding is the conductor's holding area; while the slot check is open, Hedgerow's own records wait in held (R454). -/
structure Scarab where
  rates : Tab (Nat × Nat) := []
  buckets : Tab (Nat × Nat) := []
  suppressed : Tab Nat := []
  dropped : Tab Nat := []
  ram : List Rec := []
  region : List Rec := []
  fullTime : Option Nat := none
  clears : Nat := 0
  flushAt : Nat := 0
  holding : List Ev := []
  opening : Bool := false
  held : List Ev := []
  deriving DecidableEq, Repr, Inhabited

/-- Ticks in a second. -/
def tickHz : Nat := 25000000

/-- Rate and depth of a code's bucket (R470). -/
def Scarab.rate (k : Scarab) (code : Nat) : Nat × Nat := k.rates.getD code (8, 32)

/-- A code's tokens at a tick, in parts of 1/25,000,000; a bucket starts full. -/
def Scarab.tokens (k : Scarab) (code now : Nat) : Nat :=
  let p := k.rate code
  match k.buckets.find code with
  | none => p.2 * tickHz
  | some (n, at_) => min (p.2 * tickHz) (n + (now - at_) * p.1)

/-- Codes that are never suppressed (R470). -/
def unlimited (code : Nat) : Bool := code == 0x0F82 || code == 0x0F83 || code == 0x0F8C

/-- The rate limit admits a record of a code now (R470). -/
def Scarab.admits (k : Scarab) (code now : Nat) : Bool := unlimited code || decide (tickHz ≤ k.tokens code now)

/-- Count a dropped record under its class, saturating (R469, R474). -/
def Scarab.drop (k : Scarab) (code : Nat) : Scarab :=
  { k with dropped := k.dropped.put (code / 256) (satAdd 0xFFFFFFFF (k.dropped.getD (code / 256) 0) 1) }

/-- A record arrives at Hedgerow: it takes a token or is suppressed (R470), and joins the RAM buffer or is dropped (R469). -/
def Scarab.accept (k : Scarab) (now : Nat) (e : Ev) : Scarab :=
  if k.admits e.code now then
    let n := k.suppressed.getD e.code 0
    let k := if unlimited e.code then k else { k with buckets := k.buckets.put e.code (k.tokens e.code now - tickHz, now) }
    if 16384 ≤ k.ram.length then k.drop e.code
    else { k with ram := k.ram ++ [{ ev := e, suppressed := n }], suppressed := k.suppressed.put e.code 0 }
  else { k with suppressed := k.suppressed.put e.code (satAdd 0xFFFFFFFF (k.suppressed.getD e.code 0) 1) }

/-- Queue a record at a controller that holds at most n; one that finds no room is dropped and counted (R469). -/
def queueEv (k : Scarab) (q : List Ev) (n : Nat) (e : Ev) : List Ev × Scarab :=
  if n ≤ q.length then (q, k.drop e.code) else (q ++ [e], k)

end Sys2Proof.Machine
end

