-- ==== Sys2Proof/Machine/State.lean ====
section
/-! DEFINITION. The state of the engine: the queue of waiting commands, wafer time, the mesh, the tiles and the fields. -/

namespace Sys2Proof.Machine

/-- Why a step stops with a fault. -/
inductive Fault where
  /-- An input beyond the absolute maximum of 72 V (R325). Nothing raises it: the model answers such an input as R325 answers one over 66 V (log entry 34), so no command of this model ends in a fault. Safe: a fault would stop the run. -/
  | absoluteMaximum
  deriving DecidableEq, Repr, Inhabited

/-- Why a step is refused. -/
inductive Refusal where
  /-- A command without a meaning. Only the dispatch could raise it, and every command has its meaning, so nothing does. Safe: no claim is made. -/
  | notModelled (mnemonic : String)
  deriving DecidableEq, Repr, Inhabited

/-- A furrow record (R185). -/
structure Furrow where
  x0 : Nat
  y0 : Nat
  x1 : Nat
  y1 : Nat
  kind : Nat
  field : Nat
  shadowed : Nat
  deriving DecidableEq, Repr, Inhabited

/-- A detour under way (R188, R189): the furrow met, and whether the packet goes round its high side (north or east). -/
structure Detour where
  furrow : Furrow
  high : Bool
  deriving DecidableEq, Repr, Inhabited

/-- A packet in the mesh (R172): the packet, where it is, where it is bound (the gate of a keep field fixed as it is injected, R179), its class, its detour while it travels on an escape lane, whether it is still to be injected, whether it has left the mesh at its endpoint, and the input port it came by (0 north, 1 east, 2 south, 3 west, 4 local). -/
structure Flight where
  pkt : Pkt
  at_ : TileId
  aim : TileId
  cls : Nat
  det : Option Detour := none
  fresh : Bool := true
  landed : Bool := false
  inp : Nat := 4
  deriving DecidableEq, Repr, Inhabited

/-- A furrow map (R185). -/
structure FMap where
  seq : Nat := 0
  effective : Nat := 0
  furrows : List Furrow := []
  shadowed : Nat := 0
  deriving DecidableEq, Repr, Inhabited

/-- The mesh as a whole: packets in flight, the map in force and the next one, what the published distance table was built from (its map, the positions that were holes, the fields that were furrows, and the crossing latencies), the step boundary of a settlement under way (R250), the tick up to which leaving monitor-steered mode holds injection (R319), and the fields that failed without warning and are in no map yet (R195). -/
structure Mesh where
  flight : List Flight := []
  map : FMap := {}
  next : Option FMap := none
  paused : Bool := false
  distMap : FMap := {}
  distHoles : List TileId := []
  distOut : List Nat := []
  distLat : Tab Nat := []
  distDue : Bool := false
  settleAt : Option Nat := none
  settledLocal : Bool := true
  holdUntil : Nat := 0
  dead : List Nat := []
  deriving DecidableEq, Repr, Inhabited

/-- The state of the engine. osc is the reference selected: 0 primary, 1 secondary, 2 none (R295). glow gives each glow bay: 0 absent or unpowered, 1 present and not lit (the default), 2 lit (R503, R506). -/
structure State where
  pending : List Instr := []
  time : Nat := 0
  free : Nat := 0
  osc : Nat := 0
  waferId : Nat := 0xFFFF
  mesh : Mesh := {}
  mb : Mailbox := {}
  cond : Conductor := {}
  boot : Boot := {}
  tiles : Tab Tile := []
  fields : Tab Field := []
  ports : Tab Port := []
  glow : Tab Nat := []
  hosts : Tab HostNode := []
  chassis : Chassis := {}
  watch : Watch := {}
  hedge : Hedge := {}
  flash : Flash := {}
  scarabQ : Tab (List Ev) := []
  scarab : Scarab := {}
  deriving DecidableEq, Repr, Inhabited

/-- The state right after reset. -/
def State.reset : State := {}

end Sys2Proof.Machine
end

