-- ==== Sys2Proof/Machine/Routes.lean ====
section
/-! DEFINITION. The routes packets take round furrows (R187 to R191). -/

namespace Sys2Proof.Machine

/-- A position lies in a furrow. -/
def Furrow.covers (f : Furrow) (t : TileId) : Bool :=
  decide (f.x0 ≤ t.x) && decide (t.x ≤ f.x1) && decide (f.y0 ≤ t.y) && decide (t.y ≤ f.y1)

/-- The class a packet takes (R187): 0 east, 1 west, 2 north, 3 south. -/
def travelClass (a b : TileId) : Nat :=
  if a.x < b.x then 0 else if b.x < a.x then 1 else if a.y ≤ b.y then 2 else 3

/-- Whether, and where, a packet moves next. -/
inductive Hop where
  | go (to_ : TileId) (cls : Nat) (det : Option Detour)
  | here
  | refuse
  deriving DecidableEq, Repr, Inhabited

/-- The position next in a direction: class 0 east, 1 west, 2 north, 3 south. -/
def stepTo (t : TileId) (d : Nat) : TileId :=
  if d = 0 then ⟨t.x + 1, t.y⟩ else if d = 1 then ⟨t.x - 1, t.y⟩ else if d = 2 then ⟨t.x, t.y + 1⟩ else ⟨t.x, t.y - 1⟩

/-- The class a packet has on its main lane: it changes once, when its x distance first becomes 0 (R187). -/
def mainClass (cls : Nat) (a b : TileId) : Nat :=
  if cls < 2 ∧ a.x = b.x then (if a.y ≤ b.y then 2 else 3) else cls

/-- The side a packet chooses at a furrow, true for north or east; none where both sides lie beyond the array (R188, R189). -/
def sideFor (f : Furrow) (cls : Nat) (a b : TileId) : Option Bool :=
  if cls < 2 then
    let up := decide (f.y1 < 839)
    let down := decide (0 < f.y0)
    if f.y1 < b.y then some true else if b.y < f.y0 then some false
    else if !up && !down then none
    else if !down then some true else if !up then some false
    else some (decide (f.y1 + 1 - a.y ≤ a.y + 1 - f.y0))
  else
    let right := decide (f.x1 < 799)
    let left := decide (0 < f.x0)
    if !right && !left then none
    else if !left then some true else if !right then some false
    else some (decide (f.x1 + 1 - a.x ≤ a.x + 1 - f.x0))

/-- The direction to move on a detour, or none where the packet returns to its main lane (R188, R189). -/
def detourDir (d : Detour) (cls : Nat) (a b : TileId) : Option Nat :=
  let f := d.furrow
  if cls < 2 then
    let r := if d.high then f.y1 + 1 else f.y0 - 1
    if !(a.y == r) then some (if a.y < r then 2 else 3)
    else if cls = 0 then (if a.x = f.x1 + 1 ∨ a.x = b.x then none else some 0)
    else (if a.x + 1 = f.x0 ∨ a.x = b.x then none else some 1)
  else
    let c := if d.high then f.x1 + 1 else f.x0 - 1
    let endRow := if cls = 2 then f.y1 + 1 else f.y0 - 1
    if a.y = endRow then (if a.x = b.x then none else some (if a.x < b.x then 0 else 1))
    else if a.x = c then some (if cls = 2 then 2 else 3)
    else some (if a.x < c then 0 else 1)

/-- The next hop of a packet at a under a list of furrows (R187 to R190). The fuel bounds furrows met at one tile. -/
def nextHop (fs : List Furrow) : Nat → Nat → Option Detour → TileId → TileId → Hop
  | 0, _, _, _, _ => .refuse
  | n + 1, cls, det, a, b =>
    if a = b then .here
    else
      match det with
      | some d =>
        match detourDir d cls a b with
        | some k => .go (stepTo a k) cls (some d)
        | none => nextHop fs n (mainClass cls a b) none a b
      | none =>
        let cls := mainClass cls a b
        let p := stepTo a cls
        match fs.find? (fun f => f.covers p) with
        | none => .go p cls none
        | some f =>
          if f.covers b then .refuse
          else
            match sideFor f cls a b with
            | none => .refuse
            | some high => nextHop fs n cls (some { furrow := f, high := high }) a b

/-- The positions of a route, its end included; none where it is refused. -/
def routePath (fs : List Furrow) : Nat → Nat → Option Detour → TileId → TileId → Option (List TileId)
  | 0, _, _, _, _ => none
  | n + 1, cls, det, a, b =>
    match nextHop fs 4 cls det a b with
    | .here => some []
    | .refuse => none
    | .go p c d => (routePath fs n c d p b).map (fun r => p :: r)

/-- The routed path from a to b under a list of furrows. -/
def pathOf (fs : List Furrow) (a b : TileId) : Option (List TileId) := routePath fs 4000 (travelClass a b) none a b

/-- The axis of a hop: true along x. -/
def alongX (a b : TileId) : Bool := !(a.x == b.x)

/-- Turns of a path that starts at a. -/
def turnsOf : TileId → List TileId → Nat
  | a, b :: c :: r => (if alongX a b == alongX b c then 0 else 1) + turnsOf b (c :: r)
  | _, _ => 0

end Sys2Proof.Machine
end

