-- ==== Sys2Proof/Machine/Ops.lean ====
section
/-! DEFINITION. The named operations over the state: places on the wafer, tiles and fields, faults, events, sending a packet and answering one. -/

namespace Sys2Proof.Machine

/-- The outcome of a command. -/
abbrev Out := Host.Outcome State Fault Refusal

/-! ## Places (R9 to R14) -/

/-- The field a position lies in (R10). -/
def fieldOf (t : TileId) : Nat := t.y / 120 * 8 + t.x / 100

/-- The position's place within its field, ly × 100 + lx (R124). -/
def localIdx (t : TileId) : Nat := t.y % 120 * 100 + t.x % 100

/-- The position in the order of the distance table (R206). -/
def tileKey (t : TileId) : Nat := t.y * 800 + t.x

/-- The position of a key. -/
def keyTile (k : Nat) : TileId := ⟨k % 800, k / 800⟩

/-- The keep fields (R9). -/
def isKeep (f : Nat) : Bool := f == 0 || f == 7 || f == 48 || f == 55

/-- The number of a keep field KFj, as its field number. -/
def keepField (j : Nat) : Nat := nth [0, 7, 48, 55] j 55

/-- The keep-field number j of a field number. -/
def keepIdx (f : Nat) : Nat := if f == 0 then 0 else if f == 7 then 1 else if f == 48 then 2 else 3

/-- A compute field. -/
def isCompute (f : Nat) : Bool := decide (f < 56) && !isKeep f

/-- The number k of a compute field in ascending order (R14). -/
def computeIdx (f : Nat) : Nat := if f < 7 then f - 1 else if f < 48 then f - 2 else f - 3

/-- The compute field of number k (R240). -/
def computeField (k : Nat) : Nat := if k < 6 then k + 1 else if k < 46 then k + 2 else k + 3

/-- A coordinate of the array that names a tile position (R10, R12). -/
def onArray (t : TileId) : Bool := decide (t.x < 800) && decide (t.y < 840) && !isKeep (fieldOf t)

/-- The field that hosts a global cell, and the cell's index there (R240). -/
def cellHost (n : Nat) : Nat × Nat :=
  if n < 53248 then (computeField (n / 1024), n % 1024)
  else (keepField ((n - 53248) / 3072), (n - 53248) % 3072)

/-- The global number of a cell index of a field (R14). -/
def cellNumber (f i : Nat) : Nat := if isKeep f then 53248 + 3072 * keepIdx f + i else 1024 * computeIdx f + i

/-- Cells a field controller hosts (R261). -/
def cellsOf (f : Nat) : Nat := if isKeep f then 3072 else 1024

/-- Waiter records of a field controller (R245). -/
def waiterCap (f : Nat) : Nat := if isKeep f then 8192 else 2048

/-- Hops between two positions on a mesh without holes. -/
def manhattan (a b : TileId) : Nat := dist a.x b.x + dist a.y b.y

/-- The four neighbours of a position, in the order north, east, south, west. -/
def neighbours (t : TileId) : List TileId :=
  [⟨t.x, t.y + 1⟩, ⟨t.x + 1, t.y⟩] ++ (if t.y = 0 then [] else [⟨t.x, t.y - 1⟩]) ++
    (if t.x = 0 then [] else [⟨t.x - 1, t.y⟩])

/-- Two positions joined by a neighbour link (R170). -/
def adjacent (a b : TileId) : Bool := manhattan a b == 1

/-! ## Reading and writing the state -/

/-- The tile at a position. -/
def State.tile (s : State) (t : TileId) : Tile := s.tiles.getD (tileKey t) {}

/-- Replace the tile at a position. -/
def State.setTile (s : State) (t : TileId) (tl : Tile) : State := { s with tiles := s.tiles.put (tileKey t) tl }

/-- Change the tile at a position. -/
def State.modTile (s : State) (t : TileId) (f : Tile → Tile) : State := s.setTile t (f (s.tile t))

/-- The field of a number. -/
def State.field (s : State) (f : Nat) : Field := s.fields.getD f {}

/-- Replace a field. -/
def State.setField (s : State) (f : Nat) (fd : Field) : State := { s with fields := s.fields.put f fd }

/-- Change a field. -/
def State.modField (s : State) (f : Nat) (g : Field → Field) : State := s.setField f (g (s.field f))

/-- A field whose clock runs: IDLE or ACTIVE (R38), with no stop order carried out (R300). -/
def Field.running (fd : Field) : Bool :=
  match fd.pwr.state with
  | .idle | .active => !fd.clk.halted
  | .off | .retain | .failed => false

/-- The tile memory of a field is up: its refresh and scrub run (R123). -/
def Field.memoryUp (fd : Field) : Bool :=
  match fd.pwr.state with
  | .retain | .idle | .active => true
  | .off | .failed => false

/-- A field's effective gate level: the higher of its cap and thermal levels (R346). -/
def Field.gate (fd : Field) : Nat := max fd.pwr.capGate fd.pwr.tgate

/-- The tick count a tile's watchdogs use (R38). -/
def State.run (s : State) (t : TileId) : Nat := (s.field (fieldOf t)).runTicks

/-- The arithmetic clock's cycle count of a tile's field (R3). -/
def State.cycles (s : State) (t : TileId) : Nat := (s.field (fieldOf t)).cycles

/-- The tile's clock runs. -/
def State.clocked (s : State) (t : TileId) : Bool := (s.field (fieldOf t)).running

/-- A tile that is neither OFF nor a hole. -/
def Tile.present (tl : Tile) : Bool :=
  match tl.st with
  | .off | .hole => false
  | .quarantine | .admitted | .halted => true

/-- A tile in service: ADMITTED or HALTED (R216). -/
def Tile.inService (tl : Tile) : Bool :=
  match tl.st with
  | .admitted | .halted => true
  | .off | .hole | .quarantine => false

/-- TILE_STATE.state (R66). -/
def TileSt.code : TileSt → Nat
  | .quarantine => 1 | .admitted => 2 | .halted => 3 | .off => 0 | .hole => 0

/-- The forage queue is frozen while the fault word is valid (R61). -/
def Tile.frozen (tl : Tile) : Bool := tl.fault.valid

/-- The queue was frozen before this cycle: a unit that starts in the cycle of the fault has still left its deque (R61, R108). -/
def Tile.frozenAt (tl : Tile) (now : Nat) : Bool := tl.fault.valid && !(tl.fault.cyc == now)

/-- A register of the control core; x0 reads 0. -/
def Tile.reg (tl : Tile) (r : Nat) : Word := if r = 0 then 0 else tl.core.regs.getD r 0

/-- Write a register; a write to x0 is discarded (R41). -/
def Tile.setReg (tl : Tile) (r : Nat) (v : Word) : Tile :=
  if r = 0 then tl else { tl with core := { tl.core with regs := tl.core.regs.put r v } }

/-- An ant engine of a tile; its pointers start at (own number + 1) mod 8 (R55, R56). -/
def Tile.engine (tl : Tile) (e : Nat) : Engine :=
  tl.forage.engines.getD e { sibling := (e + 1) % 8, thief := (e + 1) % 8 }

/-- Replace an ant engine. -/
def Tile.setEngine (tl : Tile) (e : Nat) (g : Engine) : Tile :=
  { tl with forage := { tl.forage with engines := tl.forage.engines.put e g } }

/-- A handle entry. -/
def Tile.handle (tl : Tile) (h : Nat) : Handle := tl.handles.getD h {}

/-- A window entry. -/
def Tile.window (tl : Tile) (w : Nat) : Window := tl.windows.getD w {}

/-- Replace a window entry. -/
def Tile.setWindow (tl : Tile) (w : Nat) (v : Window) : Tile := { tl with windows := tl.windows.put w v }

/-- A receive queue. -/
def Tile.queue (tl : Tile) (q : Nat) : RQueue := tl.q.queues.getD q {}

/-- Replace a receive queue. -/
def Tile.setQueue (tl : Tile) (q : Nat) (v : RQueue) : Tile := { tl with q := { tl.q with queues := tl.q.queues.put q v } }

/-- A sender context. -/
def Tile.ctx (tl : Tile) (c : Nat) : Ctx := tl.q.ctxs.getD c {}

/-- Replace a sender context. -/
def Tile.setCtx (tl : Tile) (c : Nat) (v : Ctx) : Tile := { tl with q := { tl.q with ctxs := tl.q.ctxs.put c v } }

/-- A fold slot. -/
def Tile.slot (tl : Tile) (i : Nat) : Slot := tl.fold.slots.getD i {}

/-- Replace a fold slot. -/
def Tile.setSlot (tl : Tile) (i : Nat) (v : Slot) : Tile := { tl with fold := { tl.fold with slots := tl.fold.slots.put i v } }

/-- A local sync cell. -/
def Tile.cell (tl : Tile) (c : Nat) : Cell := tl.sync.cells.getD c {}

/-- Replace a local sync cell. -/
def Tile.setCell (tl : Tile) (c : Nat) (v : Cell) : Tile := { tl with sync := { tl.sync with cells := tl.sync.cells.put c v } }

/-! ## Events -/

/-- The source number of the conductor in an event record. -/
def srcConductor : Nat := 56

/-- The source number of Hedgerow in an event record. -/
def srcHedgerow : Nat := 57

/-- The number a position has in an event's detail. -/
def tileDetail (t : TileId) : Nat := t.y * 1024 + t.x

/-- The source number of a tile in an event record (R482). -/
def srcTileNo (t : TileId) : Nat := 64 + tileKey t

/-- The source number of host node k. -/
def srcHost (k : Nat) : Nat := 58 + k

/-- The controller whose queue holds a source's records: a field's own, a tile's field's, and for the conductor and a host node their keep field's (R469). -/
def State.queueOf (s : State) (src : Nat) : Nat :=
  if src < 56 then src
  else if src = srcConductor then (if s.mb.activeKf = 0 then 0 else 55)
  else if src < 62 then keepField (src - 58)
  else fieldOf (keyTile (src - 64))

/-- Hedgerow's count since its own start (R471): it goes on across the load pulse. -/
def State.hedgeNow (s : State) : Nat := s.hedge.base + s.time

/-- Write an event: a controller queues it for Hedgerow, and Hedgerow's own enters the recorder directly, or waits while the slot check is open (R454, R469). -/
def State.event (s : State) (src code : Nat) (detail : List Nat) : State :=
  let e : Ev := { code := code, time := s.time, src := src, detail := detail }
  if src = srcHedgerow then
    { s with scarab := if s.scarab.opening then { s.scarab with held := s.scarab.held ++ [e] } else s.scarab.accept s.hedgeNow e }
  else
    let q := s.queueOf src
    let p := queueEv s.scarab (s.scarabQ.getD q []) 256 e
    { s with scarabQ := s.scarabQ.put q p.1, scarab := p.2 }

/-! ## Hedgerow's sensors and orders (R444, R455) -/

/-- Hedgerow may send an order: after a restart it first reads the status of every controller (R444). -/
def State.mayOrder (s : State) : Bool := s.hedge.up && s.hedge.unread.isEmpty

/-- The 40 sensors of field f lie at 40 f: 12 thermal, 4 voltages, 24 monitors; the module's own stand as those of a field 56. -/
def sensorKey (f i : Nat) : Nat := 40 * f + i

/-- Take one sensor's new state; one that newly fails writes event 0x0F8D. -/
def State.sensorNow (s : State) (f i : Nat) (x : Sensor) (reading : Nat) : State :=
  let old := s.hedge.sensors.getD (sensorKey f i) {}
  let s := { s with hedge := { s.hedge with sensors := s.hedge.sensors.put (sensorKey f i) x } }
  if x.failed && !old.failed then s.event srcHedgerow 0x0F8D [f, i, reading] else s

/-- A reading as a 32-bit detail word. -/
def intWord (t : Int) : Nat := (t % 2 ^ 32).toNat

/-- A reading of one of the module's own sensors: 0 input mV, 1 input A, 2 inlet and 3 outlet in 0.1 degree, 4 flow in 0.1 L/min; it is failed outside 0 to its range. -/
def State.moduleSensor (s : State) (i top : Nat) (x : Int) : State :=
  s.sensorNow 56 i { failed := decide (x < 0) || decide (Int.ofNat top < x) } (intWord x)

/-! ## Tile faults (R67) -/

/-- Record a fault at a tile in a cycle: the first record is kept and a later one sets overflow, but of two in one cycle the lower unit's stands; the core halts with the address of the instruction it would have issued; an ADMITTED tile becomes HALTED and a tile in QUARANTINE stays there (R62). -/
def Tile.raise (tl : Tile) (now unit code : Nat) (info0 info1 : Word) : Tile :=
  if tl.fault.valid then
    if tl.fault.cyc = now ∧ unit < tl.fault.unit then
      { tl with fault := { tl.fault with overflow := true, code := code, unit := unit, info0 := info0, info1 := info1 } }
    else { tl with fault := { tl.fault with overflow := true } }
  else
    { tl with
      fault := { valid := true, overflow := false, code := code, unit := unit, info0 := info0, info1 := info1, pc := tl.core.pc, cyc := now }
      core := { tl.core with stall := none, halted := true }
      st := match tl.st with
        | .admitted => .halted
        | .off => .off | .quarantine => .quarantine | .halted => .halted | .hole => .hole }

/-- A fault of a tile, in the state. -/
def State.raise (s : State) (t : TileId) (unit code : Nat) (info0 info1 : Word) : State :=
  s.modTile t (fun tl => tl.raise (s.cycles t) unit code info0 info1)

/-! ## Packets -/

/-- A good tile (R17): its position holds a tile that is neither OFF nor a hole. -/
def State.good (s : State) (t : TileId) : Bool := onArray t && (s.tile t).present

/-- A position that carries traffic: a good tile that the map in force does not cover (R19, R181). -/
def State.onMap (s : State) (t : TileId) : Bool := s.good t && !s.mesh.map.furrows.any (fun f => f.covers t)

/-- The attachment tile of a compute field's controller (R179): local (44, 60), else (55, 60), else the nearest good tile of row 60, west first. -/
def State.attach (s : State) (f : Nat) : TileId :=
  let p (lx : Nat) : TileId := ⟨f % 8 * 100 + lx, f / 8 * 120 + 60⟩
  if s.good (p 44) then p 44
  else if s.good (p 55) then p 55
  else
    match (upto 56).find? (fun d => (decide (d ≤ 44) && s.good (p (44 - d))) || (decide (44 + d < 100) && s.good (p (44 + d)))) with
    | some d => if d ≤ 44 && s.good (p (44 - d)) then p (44 - d) else p (44 + d)
    | none => p 44

/-- The attached tile of gate g of keep field j (R18). -/
def gateTile (j g : Nat) : TileId :=
  let q := 15 + 30 * (g % 4)
  let c := [12, 37, 62, 87].getD (g % 4) 12
  if g < 4 then ⟨if j % 2 = 0 then 100 else 699, (if j < 2 then 0 else 720) + q⟩
  else ⟨(if j % 2 = 0 then 0 else 700) + c, if j < 2 then 120 else 719⟩

/-- The eight injection points of a compute field's dock, in order of local x then y (R20). -/
def injectionPoints (f : Nat) : List TileId :=
  (upto 8).map (fun i => ⟨f % 8 * 100 + 48 + i / 2, f / 8 * 120 + 59 + i % 2⟩)

/-- The places where a port's dock meets the mesh: its injection points, or its keep field's gates (R20). -/
def dockPoints (p : Nat) : List TileId := if isKeep p then (upto 8).map (gateTile (keepIdx p)) else injectionPoints p

/-- A gate of keep field j is in service (R19). -/
def State.gateOn (s : State) (j g : Nat) : Bool := s.onMap (gateTile j g)

/-- A keep field that no gate joins to the mesh (R19). -/
def State.cutOffKeep (s : State) (j : Nat) : Bool := (firstBelow 8 (s.gateOn j)).isNone

/-- A keep field in service on the mesh: it runs, and a gate is left to it (R19, R180). -/
def State.keepUp (s : State) (f : Nat) : Bool := (s.field f).running && !s.cutOffKeep (keepIdx f)

/-- The first gate in service of a keep field's controller (R179). -/
def State.gateOf (s : State) (j : Nat) : TileId := gateTile j ((firstBelow 8 (s.gateOn j)).getD 0)

/-- A dock in service: its compute field runs and an injection point is left, or its keep field is in service (R19, R20, R282). -/
def State.dockOn (s : State) (p : Nat) : Bool :=
  if isKeep p then s.keepUp p else (s.field p).running && (injectionPoints p).any s.onMap

/-- The keep field of the active conductor. -/
def State.activeKeep (s : State) : Nat := if s.mb.activeKf = 0 then 0 else 55

/-- An endpoint that the mesh serves (R19, R20, R180): a keep field or its controller while it is in service, a dock while one of its places is left. -/
def State.reachable (s : State) : Endp → Bool
  | .tile _ => true
  | .fc f => !isKeep f || s.keepUp f
  | .gate k => s.keepUp (keepField k)
  | .conductor => s.keepUp s.activeKeep
  | .dock p _ => s.dockOn p

/-- Where a packet from or to an endpoint meets the mesh (R179); a dock's injection point that is a hole is replaced by the first that is left (R20). -/
def State.place (s : State) : Endp → TileId
  | .tile t => t
  | .fc f => if isKeep f then s.gateOf (keepIdx f) else s.attach f
  | .gate k => s.gateOf k
  | .dock p i =>
    let a := nth (dockPoints p) i ⟨0, 0⟩
    (([a] ++ dockPoints p).find? s.onMap).getD a
  | .conductor => s.gateOf (keepIdx s.activeKeep)

/-- The gate of keep field j in service with the fewest hops from a position in the map in force, ties to the lower number (R179, R207, R426); the first in service where none is reached. -/
def State.nearGate (s : State) (j : Nat) (a : TileId) : TileId :=
  let ok := (upto 8).filterMap (fun g => if s.gateOn j g then (pathOf s.mesh.map.furrows a (gateTile j g)).map (fun p => (p.length, g)) else none)
  match ok with
  | [] => s.gateOf j
  | e :: rest => gateTile j (rest.foldl (fun b x => if x.1 < b.1 then x else b) e).2

/-- Where a packet between two endpoints meets the mesh at the first: at a keep field, by the gate that lies nearest the other (R179). -/
def State.meets (s : State) (e other : Endp) : TileId :=
  match e with
  | .gate k => s.nearGate k (s.place other)
  | .conductor => s.nearGate (keepIdx s.activeKeep) (s.place other)
  | .tile _ | .fc _ | .dock _ _ => s.place e

/-- Where a packet starts and where it is bound. -/
def State.source (s : State) (h : Hdr) : TileId := s.meets h.src h.dst
def State.target (s : State) (h : Hdr) : TileId := s.meets h.dst h.src

/-- Put a packet into the mesh at a position, bound for its target (R180). -/
def State.sendFrom (s : State) (a : TileId) (p : Pkt) : State :=
  { s with mesh := { s.mesh with flight := s.mesh.flight ++
      [{ pkt := p, at_ := a, aim := s.target p.h, cls := travelClass a (s.target p.h) }] } }

/-- A header with its source tile's generation (R65). -/
def State.stamp (s : State) (h : Hdr) : Hdr :=
  match h.src with
  | .tile t => { h with srcGen := (s.tile t).gen }
  | .dock _ _ | .fc _ | .gate _ | .conductor => h

/-- Send a packet: it waits at its source's place to enter the mesh, or a neighbour link (R170). -/
def State.send (s : State) (p : Pkt) : State := s.sendFrom (s.source p.h) { p with h := s.stamp p.h }

/-- Take a packet out of the mesh as its endpoint takes it. -/
def State.arrive (s : State) (p : Pkt) : State :=
  { s with mesh := { s.mesh with flight := (let (a, b) := s.mesh.flight.span (fun x => !(x.pkt == p)); a ++ b.drop 1) } }

/-- The wafer-to-wafer part of a request to an endpoint of another wafer; the ingress dock fills the hop list (R282). -/
def State.farTo (s : State) (wafer : Nat) (e : Endp) : Far := { srcWafer := s.waferId, dstWafer := wafer, endp := e }

/-- The reverse of a wafer-to-wafer part as the arrival dock gave it (R285). -/
def farBack (f : Far) : Far := { srcWafer := f.dstWafer, dstWafer := f.srcWafer, endp := f.endp, hops := f.hops, idx := 0, answer := true }

/-- The header of an answer: back to the source, to a generation of it, with the request's tag (R172), on the reverse path where it came from another wafer (R285). -/
def hdrBack (h : Hdr) (gen : Nat) : Hdr := { src := h.dst, dst := h.src, dstGen := gen, tag := h.tag, far := h.far.map farBack }

/-- Answer a request with a STATUS packet. -/
def State.status (s : State) (h : Hdr) (gen : Nat) (re : Re) (code : Nat) : State :=
  s.send { h := hdrBack h gen, body := .status re code }

/-- Answer a request with a REPLY packet. -/
def State.reply (s : State) (h : Hdr) (gen : Nat) (re : Re) (code : Nat) (data : List Byte) : State :=
  s.send { h := hdrBack h gen, body := .reply re code data }

/-- A fresh free value (log entry 2): the counter is read and advanced. -/
def State.freeVal (s : State) : Word × State := (Config.freeWord s.free, { s with free := s.free + 1 })

/-! ## Status codes (R41, R175) -/

def stOk : Nat := 0x00
def stEmpty : Nat := 0x01
def stNoCredit : Nat := 0x02
def stFull : Nat := 0x03
def stBusy : Nat := 0x04
def stClosed : Nat := 0x05
def stPeerLost : Nat := 0x06
def stPathLost : Nat := 0x07
def stStallTimeout : Nat := 0x08
def stCellLost : Nat := 0x09
def stForced : Nat := 0x0A
def stRefused : Nat := 0x0B
def stNoContext : Nat := 0x0C
def stNotFound : Nat := 0x0D
def stUnitFailed : Nat := 0x0E
def stWindowClosed : Nat := 0x0F
def stDenied : Nat := 0x10
def stWaferUnassigned : Nat := 0x11
def stAddressError : Nat := 0x80
def stRetry : Nat := 0x81
def stCancelled : Nat := 0x82
def stDataError : Nat := 0x83

/-- The status a receiver acts on: a reserved code counts as PATH_LOST (R175). -/
def statusCode (c : Nat) : Nat :=
  if c ≤ 0x11 || (0x80 ≤ c && c ≤ 0x83) then c else stPathLost

/-! ## Fault codes -/

def fcMisaligned : Nat := 0x0301
def fcUnmapped : Nat := 0x0302
def fcBadHandle : Nat := 0x0303
def fcHandleImage : Nat := 0x0304
def fcWindowImage : Nat := 0x0401
def fcIllegal : Nat := 0x0701
def fcEcall : Nat := 0x0702
def fcEbreak : Nat := 0x0703
def fcBadArgument : Nat := 0x0704
def fcBadDescriptor : Nat := 0x0705

end Sys2Proof.Machine
end

