-- ==== Sys2Proof/Machine/Operands.lean ====
section
/-! DEFINITION. Every operand form: handle references and slots (R42, R125 to R127), the tile-local memories with their error protection (R114 to R119), and the full/empty tags (R129 to R133). -/

namespace Sys2Proof.Machine

/-! ## The tile-local memories (R114) -/

/-- End of the scratchpad. -/
def spEnd : Nat := 0xC000
/-- Start of tile memory. -/
def tmBase : Nat := 0x40000
/-- End of tile memory. -/
def tmEnd : Nat := 0x80000
/-- Start of the register block. -/
def regBase : Nat := 0xF0000

/-- n bytes from an offset lie in the scratchpad. -/
def inSp (o n : Nat) : Bool := decide (o + n ≤ spEnd)
/-- n bytes from an offset lie in tile memory. -/
def inTm (o n : Nat) : Bool := decide (tmBase ≤ o) && decide (o + n ≤ tmEnd)
/-- n bytes from an offset lie in one of the two memories. -/
def inMem (o n : Nat) : Bool := inSp o n || inTm o n
/-- n bytes from an offset lie in the register block. -/
def inRegs (o n : Nat) : Bool := decide (regBase ≤ o) && decide (o + n ≤ 0x100000)

/-- The code of an uncorrectable word by memory (R118). -/
def ueCode (o : Nat) : Nat := if o < spEnd then 0x0C01 else 0x0C02

/-- An aligned 64-bit word that n bytes from an offset touch. -/
def touches (o n w : Nat) : Bool := decide (w < o + n) && decide (o < w + 8)

/-- An aligned 64-bit word that n bytes from an offset cover whole. -/
def covers (o n w : Nat) : Bool := decide (o ≤ w) && decide (w + 8 ≤ o + n)

/-- The first uncorrectable word that n bytes from an offset touch. -/
def TileMem.hit (m : TileMem) (o n : Nat) : Option Nat :=
  m.ue.find? (touches o n)

/-- The first uncorrectable word that n bytes from an offset touch without covering it (R119). -/
def TileMem.partialHit (m : TileMem) (o n : Nat) : Option Nat :=
  m.ue.find? (fun w => touches o n w && !covers o n w)

/-- Read n bytes, ignoring tags and errors. -/
def TileMem.get (m : TileMem) (o n : Nat) : List Byte := m.cells.readN n o

/-- Write bytes, ignoring tags: a word covered whole loses its error, and every word written its single-bit one, which a partial write has corrected (R117, R119). -/
def TileMem.put (m : TileMem) (o : Nat) (bs : List Byte) : TileMem :=
  { m with
    cells := m.cells.writeN bs o
    ue := m.ue.filter (fun w => !covers o bs.length w)
    ce := m.ce.filter (fun w => !touches o bs.length w) }

/-- Read bytes of a tile. -/
def Tile.get (tl : Tile) (o n : Nat) : List Byte := tl.mem.get o n

/-- Write bytes of a tile. -/
def Tile.put (tl : Tile) (o : Nat) (bs : List Byte) : Tile := { tl with mem := tl.mem.put o bs }

/-- The ECC log entry and count every uncorrectable read makes at the tile that holds the word (R118, R124). -/
def State.logUe (s : State) (t : TileId) (o kind : Nat) : State :=
  s.modField (fieldOf t) (fun fd => { fd with mem := { fd.mem with
    ue := if fd.mem.ue = 0xFFFFFFFF then fd.mem.ue else fd.mem.ue + 1
    log := fd.mem.log.put fd.mem.logHead (kind, o, t, s.time)
    logHead := (fd.mem.logHead + 1) % 8 } })

/-- One corrected error of a word: counted for its memory, event 0x0C81, and logged where the rate limit admits that event (R117, R124). -/
def State.countCe (s : State) (t : TileId) (w : Nat) : State :=
  let f := fieldOf t
  let up (n : Word) : Word := if n = 0xFFFFFFFF then n else n + 1
  let log := s.scarab.admits 0x0C81 s.hedgeNow
  let s := s.modField f (fun fd =>
    let m := if w < spEnd then { fd.mem with ceSp := up fd.mem.ceSp } else { fd.mem with ceTm := up fd.mem.ceTm }
    { fd with mem := if log then { m with log := m.log.put m.logHead (1, w, t, s.time), logHead := (m.logHead + 1) % 8 } else m })
  s.event f 0x0C81 [tileDetail t, b2n (decide (spEnd ≤ w)), w]

/-- Correct single-bit errors of words: each is counted; one of tile memory is written back, one of the scratchpad stays (R117). -/
def State.correctWords (s : State) (t : TileId) (ws : List Nat) : State :=
  ws.foldl (fun s w =>
    (if w < spEnd then s else s.modTile t (fun tl => { tl with mem := { tl.mem with ce := tl.mem.ce.filter (fun x => !(x == w)) } })).countCe t w) s

/-- A read of n bytes corrects the single-bit errors it meets (R117). -/
def State.correct (s : State) (t : TileId) (o n : Nat) : State := s.correctWords t ((s.tile t).mem.ce.filter (touches o n))

/-- A write of n bytes reads the words it covers in part, and corrects what that meets (R117, R119). -/
def State.merge (s : State) (t : TileId) (o n : Nat) : State :=
  s.correctWords t ((s.tile t).mem.ce.filter (fun w => touches o n w && !covers o n w))

/-- An uncorrectable word met by a unit of the tile: logged, and recorded as that unit's fault (R118). -/
def State.ueFault (s : State) (t : TileId) (unit o unitId : Nat) : State :=
  (s.logUe t o 2).raise t unit (ueCode o) (BitVec.ofNat 32 o) (BitVec.ofNat 32 unitId)

/-- The requester of R116 that a unit of the tile is (R67): 0 the control core, 1 to 8 the engines, 9 the fire unit, and for the others the landing unit, 10. -/
def requesterOf (unit : Nat) : Nat := if unit ≤ 9 then unit else 10

/-- A port grants an access at an offset: its rotation moves past the requester (R116). -/
def TileMem.granted (m : TileMem) (req o : Nat) : TileMem :=
  if o < spEnd then { m with arb := (req + 1) % 12 } else { m with arbTm := (req + 1) % 12 }

/-- The port that an access of a requester goes to grants it. -/
def State.served (s : State) (t : TileId) (req o : Nat) : State := s.modTile t (fun tl => { tl with mem := tl.mem.granted req o })

/-- A unit of the tile reads n bytes: an uncorrectable word is its fault and ends the operation, single-bit errors are corrected, and k goes on with the bytes (R117, R118). -/
def State.reading (s : State) (t : TileId) (unit o n : Nat) (k : List Byte → State → State) : State :=
  match (s.tile t).mem.hit o n with
  | some u => s.ueFault t unit u 0
  | none => k ((s.tile t).get o n) ((s.correct t o n).served t (requesterOf unit) o)

/-- A unit of the tile writes n bytes: an uncorrectable word covered in part is its fault and ends the operation; else k goes on with the write (R119). -/
def State.writing (s : State) (t : TileId) (unit o n : Nat) (k : State → State) : State :=
  match (s.tile t).mem.partialHit o n with
  | some u => s.ueFault t unit u 0
  | none => k ((s.merge t o n).served t (requesterOf unit) o)

/-! ## Handles (R125 to R127) -/

/-- Bytes of a slot. -/
def Handle.slotBytes (h : Handle) : Nat := 32 * 2 ^ h.slotSize

/-- Tile-local offset of a slot (R127). -/
def Handle.slotAt (h : Handle) (sl : Nat) : Nat :=
  (if h.inTm then tmBase else 0) + 32 * h.base + sl * h.slotBytes

/-- Extent of a handle in bytes. -/
def Handle.extent (h : Handle) : Nat := h.length * h.slotBytes

/-- Tags are met through handles of tag mode 1 or 2 (R129). -/
def Handle.tagged (h : Handle) : Bool := h.tagMode == 1 || h.tagMode == 2

/-- Reads through the handle consume (R130). -/
def Handle.consume (h : Handle) : Bool := h.tagMode == 2

/-- Word 0 of a handle entry (R125). -/
def Handle.word0 (h : Handle) : Word :=
  word [(b2n h.valid, 31), (b2n h.inTm, 29), (h.tagMode, 27), (h.slotSize, 24), (h.format, 20), (h.base, 0)]

/-- The entry that words 0 and 1 of an image spell. -/
def handleOf (w0 w1 : Word) : Handle :=
  { valid := bit w0 31, inTm := bit w0 29, tagMode := bits w0 28 27, slotSize := bits w0 26 24,
    format := bits w0 23 20, base := bits w0 13 0, length := bits w1 15 0 }

/-- The handles a forage descriptor names: A, then B where the op has one, then C (R48). -/
def descHandles (d : List Byte) : List Nat :=
  let op := fieldAt d 0 1
  [nbits (fieldAt d 4 1) 5 0] ++ (if op = 5 ∨ op = 6 then [] else [nbits (fieldAt d 5 1) 5 0]) ++ [nbits (fieldAt d 6 1) 5 0]

/-- The units of a tile that name its own handles: queued, running and stolen out (R46). A unit the tile has stolen names its home's handles. -/
def Tile.ownUnits (tl : Tile) : List FUnit :=
  ((upto 8).flatMap (fun e => (tl.engine e).deque ++
    (match (tl.engine e).running with
     | some r => [r.unit]
     | none => []))).filter (fun u => u.stolen.isNone) ++ tl.forage.out.map (fun e => e.2.unit)

/-- Units that name a handle (R125, units). -/
def Tile.unitsOn (tl : Tile) (h : Nat) : Nat := (tl.ownUnits.filter (fun u => (descHandles u.desc).contains h)).length

/-- OPEN and CLOSING windows that name a handle (R125, windows). -/
def Tile.windowsOn (tl : Tile) (h : Nat) : Nat :=
  ((upto 8).filter (fun w => !((tl.window w).state == 0) && bits (tl.window w).w0 24 19 == h)).length

/-- Queue handles and staging handles of OPEN queues are in use (R212). -/
def Tile.queueOn (tl : Tile) (h : Nat) : Bool :=
  (upto 8).any (fun q => (tl.queue q).state == 1 &&
    (bits (tl.queue q).cfg 21 16 == h || (bits (tl.queue q).cfg 30 29 == 2 && bits (tl.queue q).cfg 13 8 == h)))

/-- A handle is in use (R46, R212). -/
def Tile.inUse (tl : Tile) (h : Nat) : Bool :=
  !(tl.unitsOn h == 0) || !(tl.windowsOn h == 0) || tl.queueOn h

/-- A handle reference in a register operand (R42). -/
structure HRef where
  handle : Nat
  slot : Nat
  idx : Nat
  deriving DecidableEq, Repr, Inhabited

/-- Unpack a handle reference (R42). -/
def hrefOf (w : Word) : HRef := { handle := bits w 5 0, slot := bits w 21 6, idx := bits w 31 22 }

/-- A reference without a word index that R42 accepts: the index bits 0, the handle valid and the slot within its length. -/
def Tile.refOk (tl : Tile) (r : HRef) : Bool :=
  r.idx == 0 && (tl.handle r.handle).valid && decide (r.slot < (tl.handle r.handle).length)

/-- A reference with a word index that R42 and R127 accept. -/
def Tile.refWordOk (tl : Tile) (r : HRef) : Bool :=
  (tl.handle r.handle).valid && decide (r.slot < (tl.handle r.handle).length) &&
    decide (4 * r.idx < (tl.handle r.handle).slotBytes)

/-- Offset of a referenced slot. -/
def Tile.refAt (tl : Tile) (r : HRef) : Nat := (tl.handle r.handle).slotAt r.slot

/-! ## Tags (R129) -/

/-- The tag of the granule at an offset. -/
def TileMem.isFull (m : TileMem) (o : Nat) : Bool := m.full.contains (o / 32)

/-- Granules of n bytes from an offset. -/
def granules (o n : Nat) : List Nat := (upto (cdiv n 32)).map (fun i => o / 32 + i)

/-- Set the granules of n bytes full. -/
def TileMem.setFull (m : TileMem) (o n : Nat) : TileMem :=
  { m with full := (granules o n).foldl insertNat m.full, turned := ((granules o n).filter (fun g => !m.full.contains g)).foldl insertNat m.turned }

/-- Set the granules of n bytes empty. -/
def TileMem.setEmpty (m : TileMem) (o n : Nat) : TileMem :=
  { m with
    full := m.full.filter (fun g => !(decide (o / 32 ≤ g) && decide (g < o / 32 + cdiv n 32)))
    turned := ((granules o n).filter (fun g => m.full.contains g)).foldl insertNat m.turned }

/-- Every slot from slot a of a handle, count of them, is full by its first granule. -/
def Tile.slotsFull (tl : Tile) (h : Handle) (a n : Nat) : Bool :=
  (upto n).all (fun i => tl.mem.isFull (h.slotAt (a + i)))

/-- Every slot from slot a of a handle, count of them, is empty. -/
def Tile.slotsEmpty (tl : Tile) (h : Handle) (a n : Nat) : Bool :=
  (upto n).all (fun i => !tl.mem.isFull (h.slotAt (a + i)))

/-! ## Combining slots (R230, R231): a slot is armed whenever its tag turns empty while its queue is OPEN -/

/-- Kind of a queue (R213). -/
def RQueue.kind (q : RQueue) : Nat := bits q.cfg 30 29
/-- Operator of a queue. -/
def RQueue.op (q : RQueue) : Nat := bits q.cfg 28 27
/-- Queue handle. -/
def RQueue.handle (q : RQueue) : Nat := bits q.cfg 21 16
/-- Staging handle. -/
def RQueue.staging (q : RQueue) : Nat := bits q.cfg 13 8
/-- The queue folds in rank order (R93): an ordered queue of op 0 or 1. -/
def RQueue.folds? (q : RQueue) : Bool := q.kind == 2 && decide (q.op < 2)

/-- A staging entry's link, bytes 24 and 25: the number of the next entry plus 1, 0 at the end (log entry 12). -/
def Tile.stageLink (tl : Tile) (st : Handle) (i : Nat) : Nat := leNat (tl.get (st.slotAt 0 + 32 * i + 24) 2)

/-- The staging entries of a slot's list from one entry on. -/
def Tile.stageList (tl : Tile) (st : Handle) : Nat → Nat → List Nat
  | 0, _ => []
  | fuel + 1, i => if i = 0 then [] else (i - 1) :: Tile.stageList tl st fuel (tl.stageLink st (i - 1))

/-- Reset one combining slot (R231): its staged contributions are freed, and everything but declared is cleared. The tag is the caller's. The first word, which holds declared too, keeps an uncorrectable error and takes no reset (R119). -/
def Tile.armSlot (tl : Tile) (qn sl : Nat) : Tile :=
  let q := tl.queue qn
  let o := (tl.handle q.handle).slotAt sl
  let st := tl.handle q.staging
  let freed := if q.folds? then tl.stageList st (st.extent / 32) (leNat (tl.get (o + 24) 2)) else []
  let result : Nat := if q.op = 3 then 0xFF800000 else 0
  let tl := { tl with mem := (if (tl.mem.partialHit o 4).isSome then tl.mem else tl.mem.put o (natLe 4 result)).put (o + 8) (List.replicate 24 0) }
  let tl := { tl with q := { tl.q with folds := tl.q.folds.filter (fun x => !(x == (qn, sl))) } }
  tl.setQueue qn { q with
    free := q.free ++ freed
    doneSlots := q.doneSlots.filter (fun x => !(x == sl)) }

/-- A combining slot's tag turns empty (R231, R234): an OPEN queue arms it; another keeps its memory, and counts it as consumed (R225). -/
def Tile.takeSlot (tl : Tile) (qn sl : Nat) : Tile :=
  let q := tl.queue qn
  if q.state = 1 then tl.armSlot qn sl else tl.setQueue qn { q with doneSlots := q.doneSlots.filter (fun x => !(x == sl)) }

/-- The combining slots whose granule lies among those given: of OPEN queues, and of others the completed ones (R231, R234). -/
def Tile.combSlots (tl : Tile) (gs : List Nat) : List (Nat × Nat) :=
  (upto 8).flatMap (fun qn =>
    let q := tl.queue qn
    let h := tl.handle q.handle
    if !(q.kind == 0) then
      gs.filterMap (fun g =>
        let g0 := h.slotAt 0 / 32
        if g0 ≤ g ∧ g < g0 + h.length ∧ (q.state = 1 ∨ q.doneSlots.contains (g - g0) = true) then some (qn, g - g0) else none)
    else [])

/-- Set n bytes from an offset empty; combining slots whose tags turn from full to empty are armed, or leave a queue that is not OPEN (R231, R234). -/
def Tile.emptyTags (tl : Tile) (o n : Nat) : Tile :=
  let turned := (granules o n).filter (fun g => tl.mem.full.contains g)
  let tl := { tl with mem := tl.mem.setEmpty o n }
  (tl.combSlots turned).foldl (fun x p => x.takeSlot p.1 p.2) tl

/-- Set n bytes from an offset full. -/
def Tile.fillTags (tl : Tile) (o n : Nat) : Tile := { tl with mem := tl.mem.setFull o n }

/-- Empty the slots a consuming read has taken (R130, R132). -/
def Tile.consumeSlots (tl : Tile) (h : Handle) (a n : Nat) : Tile :=
  if h.consume then tl.emptyTags (h.slotAt a) (n * h.slotBytes) else tl

end Sys2Proof.Machine
end

