-- ==== Sys2Proof/Machine/CoreOps.lean ====
section
/-! DEFINITION. The control core's shared operations: the Xkyoro word and its legality (R40), completing, stalling and halting an instruction (R37 to R42), and register access of the core. -/

namespace Sys2Proof.Machine

/-- The encoding of an Xkyoro instruction: opcode, funct3, sub-operation, the mod bits it defines, and whether rs1 and rs2 are used (R43 to R47). -/
structure XEnc where
  opcode : Nat
  funct3 : Nat
  sub : Nat
  mods : Nat
  rs1 : Bool
  rs2 : Bool
  deriving DecidableEq, Repr, Inhabited

/-- The catalogue's encodings (R43 to R47). -/
def XOp.enc : XOp → XEnc
  | .qopen => ⟨0x0B, 0, 0, 0, true, true⟩
  | .qclose => ⟨0x0B, 0, 1, 1, true, false⟩
  | .qsend => ⟨0x0B, 0, 2, 0, true, true⟩
  | .qtrysend => ⟨0x0B, 0, 3, 0, true, true⟩
  | .qrecv => ⟨0x0B, 0, 4, 0, true, true⟩
  | .qtryrecv => ⟨0x0B, 0, 5, 0, true, true⟩
  | .qselect => ⟨0x0B, 0, 6, 3, true, false⟩
  | .qstat => ⟨0x0B, 0, 7, 0, false, false⟩
  | .swait => ⟨0x0B, 1, 0, 0, true, false⟩
  | .ssignal => ⟨0x0B, 1, 1, 3, true, true⟩
  | .sfence => ⟨0x0B, 1, 2, 3, false, false⟩
  | .sread => ⟨0x0B, 1, 3, 0, true, false⟩
  | .fpush => ⟨0x2B, 0, 0, 1, true, true⟩
  | .fsteal => ⟨0x2B, 0, 1, 0, true, false⟩
  | .fwait => ⟨0x2B, 0, 2, 0, true, false⟩
  | .hset => ⟨0x2B, 1, 0, 0, true, true⟩
  | .hclr => ⟨0x2B, 1, 1, 0, true, false⟩
  | .ldt => ⟨0x2B, 1, 2, 1, true, false⟩
  | .stt => ⟨0x2B, 1, 3, 1, true, true⟩
  | .tfill => ⟨0x2B, 1, 4, 1, true, true⟩
  | .dload => ⟨0x5B, 0, 0, 1, true, true⟩
  | .dswitch => ⟨0x5B, 0, 1, 1, true, false⟩
  | .dpurge => ⟨0x5B, 0, 2, 0, true, false⟩
  | .dsample => ⟨0x5B, 0, 3, 0, true, true⟩
  | .wopen => ⟨0x7B, 0, 0, 0, true, true⟩
  | .wclose => ⟨0x7B, 0, 1, 0, true, false⟩
  | .xput => ⟨0x7B, 0, 2, 1, true, true⟩
  | .xget => ⟨0x7B, 0, 3, 0, true, true⟩

/-- All Xkyoro instructions. -/
def allXOps : List XOp :=
  [.qopen, .qclose, .qsend, .qtrysend, .qrecv, .qtryrecv, .qselect, .qstat, .swait, .ssignal, .sfence, .sread,
   .fpush, .fsteal, .fwait, .hset, .hclr, .ldt, .stt, .tfill, .dload, .dswitch, .dpurge, .dsample,
   .wopen, .wclose, .xput, .xget]

/-- The stall family of STALL_STATUS (R66). -/
def XOp.family : XOp → Nat
  | .qopen | .qclose | .qsend | .qtrysend | .qrecv | .qtryrecv | .qselect | .qstat => 1
  | .swait | .ssignal | .sfence | .sread => 2
  | .fpush | .fsteal | .fwait => 3
  | .hset | .hclr | .ldt | .stt | .tfill => 4
  | .dload | .dswitch | .dpurge | .dsample | .wopen | .wclose | .xput | .xget => 5

/-- The instruction word of an Xkyoro instruction (R40). -/
def xword (op : XOp) (a : XArgs) : Word :=
  let e := op.enc
  word [(e.sub, 28), (a.mods, 25), (a.rs2, 20), (a.rs1, 15), (e.funct3, 12), (a.rd, 7), (e.opcode, 0)]

/-- R40: no undefined mod bit, and x0 where an operand is unused. -/
def XOp.legal (op : XOp) (a : XArgs) : Bool :=
  let e := op.enc
  (a.mods &&& (7 - e.mods)) == 0 && (e.rs1 || a.rs1 == 0) && (e.rs2 || a.rs2 == 0)

/-- The Xkyoro instruction and operands a word spells, if R40 lets it name one. -/
def xdecode (w : Word) : Option (XOp × XArgs) :=
  if bit w 31 then none
  else
    match allXOps.find? (fun op => op.enc.opcode == bits w 6 0 && op.enc.funct3 == bits w 14 12 && op.enc.sub == bits w 30 28) with
    | none => none
    | some op =>
      let a : XArgs := { rd := bits w 11 7, rs1 := bits w 19 15, rs2 := bits w 24 20, mods := bits w 27 25 }
      if op.legal a then some (op, a) else none

/-- The core issues: it is not halted or stalled, its tile is present and its field's clock runs. -/
def State.coreReady (s : State) (t : TileId) : Bool :=
  let tl := s.tile t
  !tl.core.halted && tl.core.stall.isNone && tl.present && s.clocked t

/-- The core's instruction retires: pc past its len bytes, instret and the issue cycles advance (R35, R36). -/
def Tile.retire (tl : Tile) (len cost : Nat) : Tile :=
  { tl with core := { tl.core with
    pc := tl.core.pc + BitVec.ofNat 32 len, stall := none,
    instret := tl.core.instret + 1, cost := tl.core.cost + cost } }

/-- rd of a status-returning instruction (R41). -/
def statusWord (st v : Nat) : Word := word [(v % 2 ^ 24, 0), (st % 256, 24)]

/-- Thatch stops as the swait completes; once it has engaged, the issue ceiling starts at the level at release, at least 1, and the field's thatch flag is set (R342). -/
def State.endThatch (s : State) (t : TileId) : State :=
  let a := (s.tile t).act
  if a.engaged then
    (s.modTile t (fun tl => { tl with act := { a with running := false, engaged := false, ceiling := max 1 a.level, level := 0, stepAt := s.time } })).modField
      (fieldOf t) (fun fd => { fd with pwr := { fd.pwr with bvThatch := true } })
  else s

/-- The core is stalled in swait. -/
def Tile.inSwait (tl : Tile) : Bool :=
  match tl.core.stall with
  | some k => k.op == .swait
  | none => false

/-- Complete an Xkyoro instruction with a status and a value (R41). -/
def State.finish (s : State) (t : TileId) (a : XArgs) (st v cost : Nat) : State :=
  (if (s.tile t).inSwait then s.endThatch t else s).modTile t (fun tl => (tl.setReg a.rd (statusWord st v)).retire 4 cost)

/-- Complete ldt or qstat: a full word in rd, the status in LAST_STATUS (R41). -/
def State.finishRaw (s : State) (t : TileId) (a : XArgs) (st : Nat) (v : Word) (cost : Nat) : State :=
  s.modTile t (fun tl =>
    let tl := (tl.setReg a.rd v).retire 4 cost
    { tl with core := { tl.core with lastStatus := st } })

/-- Stall the core in an instruction; a stall already under way keeps its start (R37, R38). -/
def State.stallOn (s : State) (t : TileId) (op : XOp) (a : XArgs) (w : StallWait) (obj : Nat) : State :=
  let since := match (s.tile t).core.stall with
    | some st => st.since
    | none => s.run t
  s.modTile t (fun tl => { tl with core := { tl.core with
    stall := some { op := op, a := a, wait := w, obj := obj, since := since } } })

/-- Halt with BAD_ARGUMENT: the instruction word and the offending value (R42, R67). -/
def State.badArg (s : State) (t : TileId) (op : XOp) (a : XArgs) (v : Word) : State :=
  s.raise t 0 fcBadArgument (xword op a) v

/-- Issue an Xkyoro instruction: nothing where the core does not issue, an illegal-instruction halt under R40, else its body. -/
def issue (op : XOp) (body : TileId → XArgs → State → State) (t : TileId) (a : XArgs) (s : State) : State :=
  if s.coreReady t then
    if op.legal a then body t a s
    else s.raise t 0 fcIllegal (xword op a) 0
  else s

/-- The first operand register's value. -/
def State.rs1 (s : State) (t : TileId) (a : XArgs) : Word := (s.tile t).reg a.rs1

/-- The second operand register's value. -/
def State.rs2 (s : State) (t : TileId) (a : XArgs) : Word := (s.tile t).reg a.rs2

/-- An image address in a register that R42 accepts: aligned to the image's size and wholly in scratchpad. -/
def imageOk (o n : Nat) : Bool := o % n == 0 && inSp o n

/-- The core is stalled in this instruction, waiting for an answer about this object. -/
def Tile.awaiting (tl : Tile) (op : XOp) (obj : Nat) : Option Stall :=
  match tl.core.stall with
  | some st => if st.op = op ∧ st.obj = obj ∧ st.wait = .answer then some st else none
  | none => none

end Sys2Proof.Machine
end

