-- ==== Sys2Proof/Machine/SyncCells.lean ====
section
/-! DEFINITION. Sync cells: what a signal, a wait and a set do to a cell (R242, R258), local cells with the core as their one waiter (R243, R244), and global cells at their host field controller (R241 to R247). -/

namespace Sys2Proof.Machine

/-- The largest value of a saturating cell. -/
def cellMax : Nat := 2 ^ 24 - 1

/-- A target of 0 acts as 1 (R242). -/
def Cell.goal (c : Cell) : Nat := if c.target = 0 then 1 else c.target

/-- A signal of amount a at a cell with n waiters: the new cell, how many waiters go (oldest first), and whether the value saturated (R242). -/
def Cell.signal (c : Cell) (a n : Nat) : Cell × Nat × Bool :=
  if c.type = 1 then ({ c with value := (c.value + a) % 2 ^ 24 }, n, false)
  else if c.type = 2 then
    let v0 := if c.reached then 0 else c.value
    let overs := decide (cellMax < v0 + a)
    let v := if overs then cellMax else v0 + a
    let hit := decide (c.goal ≤ v)
    ({ c with value := v, reached := hit, overflow := c.overflow || overs }, if hit then n else 0, overs)
  else
    let overs := decide (cellMax < c.value + a)
    let v := if overs then cellMax else c.value + a
    let r := if v < n then v else n
    ({ c with value := v - r, overflow := c.overflow || overs }, r, overs)

/-- A wait at a cell with n waiters: the new cell where it completes at once, none where the waiter is recorded (R242). -/
def Cell.wait (c : Cell) (n : Nat) : Option Cell :=
  if c.type = 1 then none
  else if c.type = 2 then (if c.reached then some c else none)
  else if 0 < c.value ∧ n = 0 then some { c with value := c.value - 1 } else none

/-- Evaluate a cell as a set does, with no signal applied: the cell and how many waiters go (R258). -/
def Cell.evaluate (c : Cell) (n : Nat) : Cell × Nat :=
  if c.type = 1 then ({ c with reached := false }, 0)
  else if c.type = 2 then
    let hit := decide (c.goal ≤ c.value)
    ({ c with reached := hit }, if hit then n else 0)
  else
    let r := if c.value < n then c.value else n
    ({ c with reached := false, value := c.value - r }, r)

/-! ## Local cells -/

/-- The object number of a local cell in a stall record. -/
def localObj (c : Nat) : Nat := 0x10000 + c

/-- The core waits on local cell c. -/
def Tile.waitsLocal (tl : Tile) (c : Nat) : Bool := (tl.awaiting .swait (localObj c)).isSome

/-- Release the core from a swait with a status. -/
def State.endWait (s : State) (t : TileId) (st : Nat) : State :=
  match (s.tile t).core.stall with
  | some k => s.finish t k.a st 0 0
  | none => s

/-- A SEMAPHORE holds units to take; type 3 acts as 0 (R242, R260). -/
def Cell.takes (c : Cell) : Bool := c.type != 1 && c.type != 2

/-- The cycle's signals applied to the base in the order of their sources, and whether a step released a waiter: an EVENT at any signal, a COUNTER at one that reaches the target (R257). -/
def CellTurn.settle (k : CellTurn) : Cell × Bool :=
  let r := k.sigs.foldl (fun (p : Cell × Bool) x =>
    let c := (p.1.signal x.2 0).1
    (c, p.2 || c.type == 1 || (c.type == 2 && c.reached))) (k.base, false)
  (if r.1.takes then { r.1 with value := r.1.value - k.took } else r.1, r.2)

/-- What the running cycle has brought to cell c so far; before its first signal or write the cell itself. -/
def Tile.turnAt (tl : Tile) (c now : Nat) : CellTurn :=
  match tl.sync.turns.find c with
  | some k => if k.cyc = now then k else { cyc := now, base := tl.cell c }
  | none => { cyc := now, base := tl.cell c }

/-- Put a local cell to what its cycle has brought, and release the core where it waits and a step or the final state releases it: a SEMAPHORE with a value above 0 gives up one unit, a COUNTER has reached its target (R257). -/
def State.settleCell (s : State) (t : TileId) (c : Nat) (k : CellTurn) : State :=
  let tl := s.tile t
  let r := k.settle
  let cl := r.1
  let go := tl.waitsLocal c && (r.2 || (cl.type == 2 && cl.reached) || (cl.takes && decide (0 < cl.value)))
  let take := b2n (go && cl.takes)
  let tl := tl.setCell c { cl with value := cl.value - take }
  let s := s.setTile t { tl with sync := { tl.sync with turns := tl.sync.turns.put c { k with took := k.took + take } } }
  if go then s.endWait t stOk else s

/-- One more signal of the cycle, of a source's rank. -/
def CellTurn.add (k : CellTurn) (rank a : Nat) : CellTurn :=
  { k with sigs := k.sigs.filter (fun x => x.1 ≤ rank) ++ [(rank, a)] ++ k.sigs.filter (fun x => rank < x.1) }

/-- A signal at a local cell (R239, R242, R243). The signals of one cycle apply in the order control core (rank 0), engines 0 to 7 (1 to 8), a landing stolen result (9), windows (10 to 17), queues (18 to 25), fire unit (26), whatever the order of their commands (R257). -/
def State.signalLocal (s : State) (t : TileId) (rank c a : Nat) : State :=
  s.settleCell t c (((s.tile t).turnAt c (s.cycles t)).add rank a)

/-- A write to a local cell's register: the cell is evaluated as a set does (R258, R260), and stands before the signals of its cycle (R257). -/
def State.writeLocal (s : State) (t : TileId) (c : Nat) (cl : Cell) : State :=
  s.settleCell t c { (s.tile t).turnAt c (s.cycles t) with base := (cl.evaluate 0).1 }

/-! ## Global cells -/

/-- A global cell of a field. -/
def Field.cell (fd : Field) (i : Nat) : Cell := fd.sync.cells.getD i {}

/-- Waiters recorded on a cell, oldest first. -/
def Field.waitersOn (fd : Field) (i : Nat) : List Waiter := fd.sync.waiters.filter (fun w => w.cell == i)

/-- The answer that releases or refuses a recorded waiter (R241). -/
def State.answerWaiter (s : State) (f : Nat) (w : Waiter) (st : Nat) : State :=
  s.send { h := { src := .fc f, dst := .tile w.tile, dstGen := w.gen, tag := w.tag }
           body := .status (.wait (cellNumber f w.cell)) st }

/-- Answer a list of waiters with one status and free their records. -/
def State.releaseList (s : State) (f : Nat) (ws : List Waiter) (st : Nat) : State :=
  ws.foldl (fun s w => s.answerWaiter f w st)
    (s.modField f (fun fd => { fd with sync := { fd.sync with waiters := fd.sync.waiters.filter (fun w => !ws.contains w) } }))

/-- Write a global cell. -/
def State.setCellG (s : State) (f i : Nat) (c : Cell) : State :=
  s.modField f (fun fd => { fd with sync := { fd.sync with cells := fd.sync.cells.put i c } })

/-- Apply a signal to a global cell: the value, the releases, and event 0x0683 where it saturates (R242, R243). -/
def State.signalGlobal (s : State) (f i a : Nat) : State :=
  let fd := s.field f
  let ws := fd.waitersOn i
  let r := (fd.cell i).signal a ws.length
  let s := s.setCellG f i r.1
  let s := s.releaseList f (ws.take r.2.1) stOk
  if r.2.2 then s.event f 0x0683 [cellNumber f i, a] else s

/-- Evaluate a global cell as a set does (R258). -/
def State.evalGlobal (s : State) (f i : Nat) : State :=
  let fd := s.field f
  let ws := fd.waitersOn i
  let r := (fd.cell i).evaluate ws.length
  (s.setCellG f i r.1).releaseList f (ws.take r.2) stOk

/-- Set a global cell: written, evaluated, and event 0x0685 (R258). by_ is the channel, or 64 for Hedgerow. -/
def State.cellSet (s : State) (f i : Nat) (c : Cell) (by_ : Nat) : State :=
  let old := (s.field f).cell i
  ((s.setCellG f i c).evalGlobal f i).event f 0x0685 [cellNumber f i, old.type, c.type, old.value, c.value, by_]

/-- Force-release the waiters of a global cell, or the one named, with FORCED; SYNC_FORCED counts them and event 0x0684 is written (R258). -/
def State.cellForce (s : State) (f i : Nat) (who : Option (TileId × Nat)) (by_ : Nat) : State :=
  let ws := ((s.field f).waitersOn i).filter (fun w =>
    match who with
    | none => true
    | some (t, g) => w.tile == t && w.gen == g)
  let s := s.releaseList f ws stForced
  let s := s.modField f (fun fd => { fd with sync := { fd.sync with forced := fd.sync.forced + BitVec.ofNat 32 ws.length } })
  s.event f 0x0684 [cellNumber f i, ws.length, by_]

end Sys2Proof.Machine
end

