-- ==== Sys2Proof/Machine/BufferOps.lean ====
section
/-! DEFINITION. The buffer instructions: hset, hclr, ldt, stt, tfill (R46, R126 to R134). -/

namespace Sys2Proof.Machine

/-- R126: the image that hset accepts. -/
def handleImageOk (w0 w1 w2 w3 : Word) : Bool :=
  let h := handleOf w0 w1
  h.valid && !(h.tagMode == 3) && decide (h.format ≤ 0xC) && !(h.length == 0) &&
    !bit w0 30 && bits w0 19 14 == 0 && bits w1 31 16 == 0 && w2 == 0 && w3 == 0 &&
    decide (h.base * 32 + h.extent ≤ (if h.inTm then 262144 else 49152))

/-- Write a handle entry. -/
def Tile.setHandle (tl : Tile) (h : Nat) (v : Handle) : Tile := { tl with handles := tl.handles.put h v }

/-- Stop profile sampling (R167). -/
def Tile.stopProfile (tl : Tile) : Tile := { tl with fold := { tl.fold with profOn := false } }

/-- hset (R46, R126): BUSY in use, else the image is read and checked. -/
def xHset (t : TileId) (a : XArgs) (s : State) : State :=
  let v := s.rs1 t a
  let w := s.rs2 t a
  let tl := s.tile t
  let o := w.toNat
  let h := bits v 5 0
  if !(bits v 31 6 == 0) then s.badArg t .hset a v
  else if !imageOk o 16 then s.badArg t .hset a w
  else if tl.inUse h then s.finish t a stBusy 0 3
  else
    s.reading t 0 o 16 (fun bs s =>
      let w (i : Nat) : Word := leWord (bytesAt bs (4 * i) 4)
      if handleImageOk (w 0) (w 1) (w 2) (w 3) then
        (s.modTile t (fun tl => tl.setHandle h (handleOf (w 0) (w 1)))).finish t a stOk 0 3
      else s.raise t 0 fcHandleImage (BitVec.ofNat 32 h) (w 0))

/-- hclr (R42, R46, R126): a handle that is not valid is a bad argument; BUSY in use, else the entry becomes invalid; sampling into the handle stops (R167). -/
def xHclr (t : TileId) (a : XArgs) (s : State) : State :=
  let v := s.rs1 t a
  let tl := s.tile t
  let h := bits v 5 0
  if !(bits v 31 6 == 0) || !(tl.handle h).valid then s.badArg t .hclr a v
  else if tl.inUse h then s.finish t a stBusy 0 1
  else
    let tl := tl.setHandle h { tl.handle h with valid := false }
    let tl := if tl.fold.profOn && tl.fold.profHandle == h then tl.stopProfile else tl
    (s.setTile t tl).finish t a stOk 0 1

/-- ldt (R127, R130): waits for full through a tagged handle; reads the word; the slot goes empty under consume. -/
def xLdt (t : TileId) (a : XArgs) (s : State) : State :=
  let v := s.rs1 t a
  let tl := s.tile t
  let r := hrefOf v
  let h := tl.handle r.handle
  if !tl.refWordOk r then s.badArg t .ldt a v
  else if h.tagged && !tl.slotsFull h r.slot 1 then s.stallOn t .ldt a .cond 0
  else
    s.reading t 0 (tl.refAt r + 4 * r.idx) 4 (fun bs s =>
      (s.modTile t (fun tl =>
        if h.tagged && (nbit a.mods 0 || h.consume) then tl.emptyTags (h.slotAt r.slot) h.slotBytes else tl)).finishRaw t a stOk (leWord bs) 1)

/-- stt (R127, R130): waits for empty through a tagged handle; writes the word; the slot goes full with mod last. -/
def xStt (t : TileId) (a : XArgs) (s : State) : State :=
  let v := s.rs1 t a
  let tl := s.tile t
  let r := hrefOf v
  let h := tl.handle r.handle
  if !tl.refWordOk r then s.badArg t .stt a v
  else if h.tagged && !tl.slotsEmpty h r.slot 1 then s.stallOn t .stt a .cond 0
  else
    let o := tl.refAt r + 4 * r.idx
    s.writing t 0 o 4 (fun s =>
      (s.modTile t (fun tl =>
        let tl := tl.put o (wordLe (tl.reg a.rs2))
        if h.tagged && nbit a.mods 0 then tl.fillTags (h.slotAt r.slot) h.slotBytes else tl)).finish t a stOk 0 1)

/-- tfill (R46, R129): sets or clears the tags of slots through a handle of any tag mode; never waits. -/
def xTfill (t : TileId) (a : XArgs) (s : State) : State :=
  let v := s.rs1 t a
  let w := s.rs2 t a
  let tl := s.tile t
  let h := tl.handle (bits v 5 0)
  let first := bits w 15 0
  let n := if bits w 31 16 = 0 then h.length - first else bits w 31 16
  if !(bits v 31 6 == 0) || !h.valid then s.badArg t .tfill a v
  else if !(decide (first < h.length) && decide (first + n ≤ h.length)) then s.badArg t .tfill a w
  else
    let o := h.slotAt first
    let tl := if nbit a.mods 0 then tl.fillTags o (n * h.slotBytes) else tl.emptyTags o (n * h.slotBytes)
    (s.setTile t tl).finish t a stOk 0 (2 + cdiv n 64)

/-- HSET (R126). -/
def execHset (t : TileId) (a : XArgs) (s : State) : Out := .next (issue .hset xHset t a s)
/-- HCLR (R126). -/
def execHclr (t : TileId) (a : XArgs) (s : State) : Out := .next (issue .hclr xHclr t a s)
/-- LDT (R130). -/
def execLdt (t : TileId) (a : XArgs) (s : State) : Out := .next (issue .ldt xLdt t a s)
/-- STT (R130). -/
def execStt (t : TileId) (a : XArgs) (s : State) : Out := .next (issue .stt xStt t a s)
/-- TFILL (R129). -/
def execTfill (t : TileId) (a : XArgs) (s : State) : Out := .next (issue .tfill xTfill t a s)

end Sys2Proof.Machine
end

