-- ==== Sys2Proof/Machine/Float.lean ====
section
/-! DEFINITION. Exact numbers and the engine's one rounding: formats (R68, R69), rounding into a form (R77, R81, R85), and the arithmetic of combining queues (R92, R93). -/

namespace Sys2Proof.Machine

/-- An exact value: NaN, an infinity, or (−1)^neg × m × 2^e; m = 0 is a zero with its sign. -/
inductive Num where
  | nan
  | inf (neg : Bool)
  | fin (neg : Bool) (m : Nat) (e : Int)
  deriving DecidableEq, Repr, Inhabited

/-- A floating format (R69): exponent and mantissa bits, bias, and its special values: 0 infinity and NaN as IEEE 754, 1 NaN only at all ones (E4M3), 2 neither. -/
structure Fmt where
  eb : Nat
  mb : Nat
  bias : Nat
  special : Nat
  deriving DecidableEq, Repr, Inhabited

def fmtF32 : Fmt := ⟨8, 23, 127, 0⟩
def fmtBF16 : Fmt := ⟨8, 7, 127, 0⟩
def fmtF16 : Fmt := ⟨5, 10, 15, 0⟩
def fmtE4M3 : Fmt := ⟨4, 3, 7, 1⟩
def fmtE5M2 : Fmt := ⟨5, 2, 15, 0⟩
def fmtE3M2 : Fmt := ⟨3, 2, 3, 2⟩
def fmtE2M3 : Fmt := ⟨2, 3, 1, 2⟩
def fmtE2M1 : Fmt := ⟨2, 1, 1, 2⟩

/-- The element format of a format code that is floating point (R68). -/
def elemFmt (code : Nat) : Fmt :=
  nth [fmtF32, fmtBF16, fmtF16, fmtE4M3, fmtE5M2, fmtE4M3, fmtF32, fmtF32, fmtE4M3, fmtE5M2, fmtE3M2, fmtE2M3, fmtE2M1] code fmtF32

/-- The value of a bit pattern (R69). -/
def Fmt.decode (f : Fmt) (b : Nat) : Num :=
  let neg := nbit b (f.eb + f.mb)
  let e := nbits b (f.eb + f.mb - 1) f.mb
  let m := b % 2 ^ f.mb
  let top := 2 ^ f.eb - 1
  if f.special = 0 ∧ e = top then (if m = 0 then .inf neg else .nan)
  else if f.special = 1 ∧ e = top ∧ m = 2 ^ f.mb - 1 then .nan
  else if e = 0 then .fin neg m (1 - (f.bias : Int) - f.mb)
  else .fin neg (2 ^ f.mb + m) ((e : Int) - f.bias - f.mb)

/-- The value of a WIDE pattern (R69): explicit leading bit, e = 0 encodes only zero. A pattern with another exponent and bit 47 clear, which R69 says no value has, reads as its unnormalised value (DESIGN CHOICE, log entry 78). -/
def decodeWide (b : Nat) : Num :=
  let neg := nbit b 63
  let e := nbits b 62 48
  let m := b % 2 ^ 48
  if e = 0x7FFF then (if m = 0 then .inf neg else .nan)
  else if e = 0 then .fin neg 0 0
  else .fin neg m ((e : Int) - 16383 - 47)

/-- How a rounding chooses: nearest-even, toward zero, or by a 24-bit draw (R77, R85). -/
inductive Rnd where
  | even | zero | draw (u : Nat)
  deriving DecidableEq, Repr, Inhabited

/-- A target of rounding: precision, least quantum, and the largest finite value as m × 2^e. -/
structure Form where
  p : Nat
  qmin : Int
  maxM : Nat
  maxE : Int
  deriving DecidableEq, Repr, Inhabited

/-- The form of a format (R69). -/
def Fmt.form (f : Fmt) : Form :=
  let topE : Int := (2 ^ f.eb - 1 : Nat) - (f.bias : Int) - (if f.special = 0 then 1 else 0)
  { p := f.mb + 1, qmin := 1 - (f.bias : Int) - f.mb,
    maxM := if f.special = 1 then 2 ^ (f.mb + 1) - 2 else 2 ^ (f.mb + 1) - 1,
    maxE := topE - f.mb }

/-- m × 2^e at the quantum 2^q: the whole quanta, and whether the choice goes to the neighbour farther from zero, and whether it is inexact. -/
def quanta (m : Nat) (e q : Int) (r : Rnd) : Nat × Bool :=
  if q ≤ e then (m * 2 ^ (e - q).toNat, false)
  else
    let sh := (q - e).toNat
    let lo := m / 2 ^ sh
    let rem := m % 2 ^ sh
    let up : Bool := match r with
      | .even => decide (2 ^ sh < 2 * rem) || (decide (2 * rem = 2 ^ sh) && lo % 2 == 1)
      | .zero => false
      | .draw u => decide (2 ^ 24 ≤ rem * 2 ^ 24 / 2 ^ sh + u)
    (if up then lo + 1 else lo, !(rem == 0))

/-- a × 2^ea > b × 2^eb. -/
def dyGt (a : Nat) (ea : Int) (b : Nat) (eb : Int) : Bool :=
  let e := if ea ≤ eb then ea else eb
  decide (b * 2 ^ (eb - e).toNat < a * 2 ^ (ea - e).toNat)

/-- The flags of R89, as bits. -/
def flNv : Nat := 1
def flOf : Nat := 2
def flUf : Nat := 4
def flNx : Nat := 8
def flSat : Nat := 16
def flNan : Nat := 32
def flIov : Nat := 64

/-- The OR of two flag sets. -/
def flor (a b : Nat) : Nat := a ||| b

/-- A rounding's outcome: quanta and quantum, inexact, tiny, and beyond the largest finite value. -/
structure Rounded where
  m : Nat
  q : Int
  inexact : Bool
  tiny : Bool
  overs : Bool
  deriving DecidableEq, Repr, Inhabited

/-- Bit length. -/
def bitLen (m : Nat) : Nat := if m = 0 then 0 else Nat.log2 m + 1

/-- Round m × 2^e (m not 0) into a form; tininess is judged after rounding with no lower exponent limit (R77). -/
def roundForm (f : Form) (r : Rnd) (m : Nat) (e : Int) : Rounded :=
  let free : Int := e + bitLen m - f.p
  let q := if free < f.qmin then f.qmin else free
  let a := quanta m e q r
  let b := quanta m e free r
  { m := a.1, q := q, inexact := a.2,
    tiny := dyGt 1 (f.qmin + (f.p - 1 : Nat)) b.1 free,
    overs := dyGt a.1 q f.maxM f.maxE }

/-- Bits of a rounded finite magnitude in a format. -/
def Fmt.pack (f : Fmt) (neg : Bool) (m : Nat) (q : Int) : Nat :=
  let s := b2n neg * 2 ^ (f.eb + f.mb)
  if m < 2 ^ f.mb then s + m
  else
    let m' := if m = 2 ^ (f.mb + 1) then 2 ^ f.mb else m
    let q' : Int := if m = 2 ^ (f.mb + 1) then q + 1 else q
    s + ((q' - (1 - (f.bias : Int) - f.mb)).toNat + 1) * 2 ^ f.mb + (m' - 2 ^ f.mb)

/-- The canonical NaN of a format (R69, R70); a format without NaN has none and gives 0. -/
def Fmt.nanBits (f : Fmt) : Nat :=
  if f.special = 0 then (2 ^ f.eb - 1) * 2 ^ f.mb + 2 ^ (f.mb - 1)
  else if f.special = 1 then 2 ^ (f.eb + f.mb) - 1 else 0

/-- Bits of an infinity. -/
def Fmt.infBits (f : Fmt) (neg : Bool) : Nat := b2n neg * 2 ^ (f.eb + f.mb) + (2 ^ f.eb - 1) * 2 ^ f.mb

/-- Bits of the largest finite value. -/
def Fmt.maxBits (f : Fmt) (neg : Bool) : Nat := f.pack neg f.form.maxM f.form.maxE

/-- Underflow and inexact flags of a rounding. -/
def Rounded.flags (r : Rounded) : Nat := (if r.inexact then flNx else 0) + (if r.tiny && r.inexact then flUf else 0)

/-- Round an exact value into FP32 as the accumulator form (R77, R78): overflow gives infinity under nearest-even and the largest finite value toward zero. -/
def accF32 (r : Rnd) : Num → Num × Nat
  | .nan => (.nan, 0)
  | .inf n => (.inf n, 0)
  | .fin n m e =>
    if m = 0 then (.fin n 0 0, 0)
    else
      let x := roundForm fmtF32.form r m e
      if x.overs then
        ((match r with
          | .zero => .fin n fmtF32.form.maxM fmtF32.form.maxE
          | .even | .draw _ => .inf n), flOf + flNx)
      else (.fin n x.m x.q, x.flags)

/-- The WIDE form: 48 bits, normal values only (R69). -/
def wideForm : Form := { p := 48, qmin := -16382 - 47, maxM := 2 ^ 48 - 1, maxE := 16383 - 47 }

/-- Round an exact value into WIDE (R77, R78): below the smallest normal value it goes to zero or to that value. -/
def accWide (r : Rnd) : Num → Num × Nat
  | .nan => (.nan, 0)
  | .inf n => (.inf n, 0)
  | .fin n m e =>
    if m = 0 then (.fin n 0 0, 0)
    else if dyGt 1 (-16382) m e then
      let up : Bool := match r with
        | .even | .draw _ => dyGt m e 1 (-16383)
        | .zero => false
      (if up then .fin n 1 (-16382) else .fin n 0 0, flNx + flUf)
    else
      let x := roundForm wideForm r m e
      if x.overs then
        ((match r with
          | .zero => .fin n wideForm.maxM wideForm.maxE
          | .even | .draw _ => .inf n), flOf + flNx)
      else (.fin n x.m x.q, if x.inexact then flNx else 0)

/-- Bits of a value that WIDE holds (R69). -/
def packWide : Num → Nat
  | .nan => 0x7FFF800000000000
  | .inf n => b2n n * 2 ^ 63 + 0x7FFF * 2 ^ 48
  | .fin n m e =>
    if m = 0 then b2n n * 2 ^ 63
    else
      let len := bitLen m
      let e' : Int := e + len - 48
      let m' := if len ≤ 48 then m * 2 ^ (48 - len) else m / 2 ^ (len - 48)
      b2n n * 2 ^ 63 + (e' + 47 + 16383).toNat * 2 ^ 48 + m'

/-- Bits of a value that FP32 holds. -/
def packF32 : Num → Nat
  | .nan => fmtF32.nanBits
  | .inf n => fmtF32.infBits n
  | .fin n m e =>
    if m = 0 then fmtF32.pack n 0 0
    else
      let x := roundForm fmtF32.form .zero m e
      fmtF32.pack n x.m x.q

/-- The exact sum of two signed dyadics. -/
def dyAdd (a : Int) (ea : Int) (b : Int) (eb : Int) : Int × Int :=
  let e := if ea ≤ eb then ea else eb
  (a * 2 ^ (ea - e).toNat + b * 2 ^ (eb - e).toNat, e)

/-- A signed mantissa. -/
def signed (neg : Bool) (m : Nat) : Int := if neg then -(m : Int) else m

/-- A negative zero. -/
def Num.negZero : Num → Bool
  | .fin n m _ => n && m == 0
  | .nan | .inf _ => false

/-- The exact sum of terms (R78): NaN if any is, or (with nv) if infinities of both signs meet; a zero sum is +0 unless every term is −0. -/
def exactSum (ts : List Num) : Num × Nat :=
  if ts.any (fun t => t == .nan) then (.nan, 0)
  else
    let pos := ts.any (fun t => t == .inf false)
    let neg := ts.any (fun t => t == .inf true)
    if pos && neg then (.nan, flNv)
    else if pos then (.inf false, 0)
    else if neg then (.inf true, 0)
    else
      let s := ts.foldl (fun acc t => match t with
        | .fin n m e => dyAdd acc.1 acc.2 (signed n m) e
        | .nan | .inf _ => acc) ((0 : Int), (0 : Int))
      if s.1 = 0 then (.fin (!ts.isEmpty && ts.all Num.negZero) 0 0, 0)
      else (.fin (decide (s.1 < 0)) s.1.natAbs s.2, 0)

/-- The exact product of two elements (R78): an infinity times a zero is NaN and sets nv. -/
def exactMul : Num → Num → Num × Nat
  | .nan, _ => (.nan, 0)
  | .inf _, .nan => (.nan, 0)
  | .fin _ _ _, .nan => (.nan, 0)
  | .inf a, .inf b => (.inf (a != b), 0)
  | .inf a, .fin b m _ => if m = 0 then (.nan, flNv) else (.inf (a != b), 0)
  | .fin a m _, .inf b => if m = 0 then (.nan, flNv) else (.inf (a != b), 0)
  | .fin a m e, .fin b m' e' => (.fin (a != b) (m * m') (e + e'), 0)

/-! ## Combining (R92, R93) -/

/-- FP32 addition rounded to nearest-even (R92). -/
def addF32 (a b : Word) : Word :=
  BitVec.ofNat 32 (packF32 (accF32 .even (exactSum [fmtF32.decode a.toNat, fmtF32.decode b.toNat]).1).1)

/-- A BF16 value in bits 15:0 widened exactly to FP32 (R92). -/
def widenBf16 (v : Word) : Word :=
  match fmtBF16.decode (v.toNat % 65536) with
  | .nan => BitVec.ofNat 32 fmtF32.nanBits
  | .inf _ | .fin _ _ _ => BitVec.ofNat 32 (v.toNat % 65536 * 65536)

/-- The order of max: NaN above all, +0 above −0 (R92). -/
def maxF32 (a b : Word) : Word :=
  match fmtF32.decode a.toNat, fmtF32.decode b.toNat with
  | .nan, _ | _, .nan => BitVec.ofNat 32 fmtF32.nanBits
  | _, _ =>
    let key (w : Word) : Int := if nbit w.toNat 31 then -((w.toNat % 2 ^ 31 : Nat) : Int) - 1 else ((w.toNat % 2 ^ 31 : Nat) : Int)
    if key a < key b then b else a

/-- The left fold in WIDE of contributions in rank order, rounded once to FP32 (R93). -/
def foldWide (vs : List Word) : Word :=
  let acc := vs.foldl (fun acc v => (accWide .even (exactSum [acc, fmtF32.decode v.toNat]).1).1) (Num.fin false 0 0)
  BitVec.ofNat 32 (packF32 (accF32 .even acc).1)

/-- A two's-complement number in w bits. -/
def sext (w n : Nat) : Int := if n % 2 ^ w < 2 ^ (w - 1) then (n % 2 ^ w : Nat) else ((n % 2 ^ w : Nat) : Int) - 2 ^ w

/-- The w low bits of an integer. -/
def intBits (w : Nat) (i : Int) : Nat := (i % (2 ^ w : Int)).toNat

/-- Clamp to the INT32 range; the flag says that it clamped. -/
def clampI32 (i : Int) : Int × Bool :=
  if 2147483647 < i then (2147483647, true) else if i < -2147483648 then (-2147483648, true) else (i, false)

end Sys2Proof.Machine
end

