-- ==== Sys2Proof/Machine/Furrows.lean ====
section
/-! DEFINITION. Furrows and furrow maps: merging (R181), shadowing (R182), partition (R184), the map's bytes (R185), and the routes packets take round furrows (R187 to R191, R196). -/

namespace Sys2Proof.Machine

/-! ## Rectangles -/

/-- The positions strictly between two spans, 0 where they overlap or touch (R181). -/
def spanGap (a0 a1 b0 b1 : Nat) : Nat := if a1 < b0 then b0 - a1 - 1 else if b1 < a0 then a0 - b1 - 1 else 0

/-- Two spans overlap. -/
def spansMeet (a0 a1 b0 b1 : Nat) : Bool := decide (b0 ≤ a1) && decide (a0 ≤ b1)

/-- Two furrows merge (R181 step 2). -/
def Furrow.joins (a b : Furrow) : Bool :=
  let gx := spanGap a.x0 a.x1 b.x0 b.x1
  let gy := spanGap a.y0 a.y1 b.y0 b.y1
  (gx == 0 && gy == 0) || (spansMeet a.x0 a.x1 b.x0 b.x1 && gy == 1)

/-- The number a furrow record gives (R185): the field that the rectangle exactly is, for kinds 1 to 5. -/
def Furrow.numbered (f : Furrow) : Furrow :=
  let g := f.y0 / 120 * 8 + f.x0 / 100
  { f with field := if f.kind < 6 ∧ f.x0 % 100 = 0 ∧ f.y0 % 120 = 0 ∧ f.x1 = f.x0 + 99 ∧ f.y1 = f.y0 + 119 then g else 0xFF }

/-- The bounding rectangle, with the highest cause inside (R185). -/
def Furrow.join (a b : Furrow) : Furrow :=
  { x0 := min a.x0 b.x0, y0 := min a.y0 b.y0, x1 := max a.x1 b.x1, y1 := max a.y1 b.y1, kind := min a.kind b.kind,
    field := 0xFF, shadowed := 0 : Furrow }.numbered

/-- Add a furrow to a set in which no pair merges, merging until none does (R181 step 3). -/
def addFurrow : Nat → List Furrow → Furrow → List Furrow
  | 0, fs, f => fs ++ [f]
  | n + 1, fs, f =>
    match fs.find? (fun g => f.joins g) with
    | none => fs ++ [f]
    | some g => addFurrow n (fs.erase g) (f.join g)

/-- Merge a list of furrows (R181). -/
def mergeFurrows (fs : List Furrow) : List Furrow := fs.foldl (fun acc f => addFurrow (acc.length + 1) acc f) []

/-- The rectangle of a field (R10). -/
def fieldRect (f kind : Nat) : Furrow :=
  { x0 := f % 8 * 100, y0 := f / 8 * 120, x1 := f % 8 * 100 + 99, y1 := f / 8 * 120 + 119, kind := kind, field := f, shadowed := 0 }

/-- A hole as a furrow of its own. -/
def holeRect (t : TileId) : Furrow := { x0 := t.x, y0 := t.y, x1 := t.x, y1 := t.y, kind := 6, field := 0xFF, shadowed := 0 }

/-- Insert by ascending (y0, x0) (R185). -/
def insertFurrow : List Furrow → Furrow → List Furrow
  | [], f => [f]
  | g :: gs, f => if f.y0 < g.y0 ∨ (f.y0 = g.y0 ∧ f.x0 < g.x0) then f :: g :: gs else g :: insertFurrow gs f

/-! ## Building the map -/

/-- A position that failed a test its field has just ended, or a defect hole (R181, R366). -/
def State.isHole (s : State) (t : TileId) : Bool :=
  let tl := s.tile t
  let sv := (s.field (fieldOf t)).svc
  (match tl.st with
    | .hole => !tl.shadow
    | .off | .quarantine | .admitted | .halted => false) ||
  (sv.phase == 11 && sv.testing.contains (localIdx t) && !((sv.recs.getD (localIdx t) {}).result == 0))

/-- The kind a field is listed under, if it is a furrow (R183). A keep field always is one. -/
def State.furrowKind (s : State) (f : Nat) : Option Nat := if isKeep f then some 1 else (s.field f).svc.furrow

/-- The listed positions that are holes. -/
def State.holes (s : State) : List TileId :=
  (s.tiles.map (fun e => keyTile e.1)).filter (fun t => onArray t && s.isHole t)

/-- The positions of field g in a furrow that it shadows: those that are no hole (R182). -/
def State.shadowedOf (s : State) (f : Furrow) (g : Nat) : Nat :=
  let r := fieldRect g 0
  let x0 := max f.x0 r.x0
  let y0 := max f.y0 r.y0
  total ((upto (min f.y1 r.y1 + 1 - y0)).map (fun (dy : Nat) =>
    ((upto (min f.x1 r.x1 + 1 - x0)).filter (fun dx => !s.isHole ⟨x0 + dx, y0 + dy⟩)).length))

/-- Positions of a furrow that it shadows: good tiles of fields that are in service (R182). -/
def State.shadowedIn (s : State) (f : Furrow) : Nat :=
  total (((upto 56).filter (fun g => (s.furrowKind g).isNone)).map (s.shadowedOf f))

/-- The furrows of the next map (R181, R183, R185). -/
def State.buildFurrows (s : State) : List Furrow :=
  let fields := (upto 56).filterMap (fun f => (s.furrowKind f).map (fieldRect f))
  let fs := mergeFurrows (fields ++ s.holes.map holeRect)
  (fs.map (fun f => { f with shadowed := s.shadowedIn f })).foldl insertFurrow []

/-- The furrow that partitions the mesh, if one does (R184). -/
def partitioner (fs : List Furrow) : Option Furrow :=
  fs.find? (fun f => (f.x0 == 0 && f.x1 == 799 && decide (0 < f.y0) && decide (f.y1 < 839)) ||
    (f.y0 == 0 && f.y1 == 839 && decide (0 < f.x0) && decide (f.x1 < 799)))

/-- A field on the far side of a partitioning furrow from a keep field (R184). -/
def farSide (p : Furrow) (kf f : Nat) : Bool :=
  let r := fieldRect f 0
  if p.x0 = 0 ∧ p.x1 = 799 then (if kf < 8 then decide (p.y1 < r.y0) else decide (r.y1 < p.y0))
  else if kf % 8 = 0 then decide (p.x1 < r.x0) else decide (r.x1 < p.x0)

/-- A map holds a whole field as part of a furrow (R183). -/
def FMap.holds (m : FMap) (f : Nat) : Bool :=
  let r := fieldRect f 0
  m.furrows.any (fun q => q.covers ⟨r.x0, r.y0⟩ && q.covers ⟨r.x1, r.y1⟩)

/-- The next map sequence number: it wraps and skips 0 (R185). -/
def nextSeq (n : Nat) : Nat := if (n + 1) % 2 ^ 32 = 0 then 1 else (n + 1) % 2 ^ 32

/-- A furrow record (R185). -/
def Furrow.bytes (f : Furrow) : List Byte :=
  natLe 2 f.x0 ++ natLe 2 f.y0 ++ natLe 2 f.x1 ++ natLe 2 f.y1 ++ natLe 1 f.kind ++ natLe 1 f.field ++ natLe 2 f.shadowed ++ natLe 4 0

/-- The bytes of a furrow map (R185). -/
def FMap.bytes (m : FMap) : List Byte :=
  let head (crc : Nat) : List Byte :=
    natLe 2 0x4D46 ++ [1, 0] ++ natLe 4 m.seq ++ natLe 8 m.effective ++ natLe 4 m.furrows.length ++ natLe 4 m.shadowed ++ natLe 4 crc ++ natLe 4 0
  let recs := m.furrows.flatMap Furrow.bytes
  head (crc32c (head 0 ++ recs)) ++ recs

/-! ## Distances -/

/-- The boundary crossings of a path: each as the field entered and its boundary towards the field left, 0 north to 3 west. -/
def crossingsOf : TileId → List TileId → List (Nat × Nat)
  | a, b :: r =>
    let rest := crossingsOf b r
    if fieldOf a = fieldOf b then rest
    else (fieldOf b, if a.y < b.y then 2 else if b.y < a.y then 0 else if a.x < b.x then 3 else 1) :: rest
  | _, _ => []

/-- The crossing latency of a boundary: L of its calibration, or 12 in monitor-steered mode (R305, R317). -/
def State.crossLatency (s : State) (c : Nat × Nat) : Nat :=
  let k := (s.field c.1).clk
  if k.monitor then 12 else (k.xing.getD c.2 {}).latency

/-- Hops and unloaded head latency of a routed path (R196, R197). -/
def State.distance (s : State) (fs : List Furrow) (a b : TileId) : Option (Nat × Nat) :=
  (pathOf fs a b).map (fun p => (p.length, 2 + p.length + turnsOf a p + total ((crossingsOf a p).map s.crossLatency)))

end Sys2Proof.Machine
end

