-- ==== Sys2Proof/Machine/Header.lean ====
section
/-! DEFINITION. The bytes of a mesh packet: kinds and channels (R174), the 16-byte header (R172), the wafer address it names (R11), the payloads the spec lays out (R144, R175, R203, R204, R215, R240, R283), and a packet's flits (R173). -/

namespace Sys2Proof.Machine

/-- Packet kind (R174). -/
def Body.kind : Body → Nat
  | .ctrlWrite _ _ => 0x00 | .ctrlRead _ _ => 0x01
  | .ctrlAdmit | .ctrlSwitch _ _ | .ctrlDload _ _ _ | .ctrlSample _ _ _ => 0x02
  | .ctrlReply _ _ _ => 0x03
  | .rawWrite _ _ => 0x08 | .rawRead _ _ => 0x09 | .openReq _ | .probe _ => 0x0A | .close _ _ => 0x0B | .steal _ _ _ => 0x0C
  | .operandRead _ => 0x0D | .sync _ _ => 0x0E | .remoteRead _ => 0x0F
  | .reply _ _ _ => 0x10 | .status _ _ => 0x11 | .grant _ => 0x12 | .credit _ | .tokenCredit _ _ => 0x13 | .stealReply _ => 0x14
  | .message _ => 0x18 | .token _ => 0x19 | .result _ | .failure _ _ _ => 0x1A | .combine _ => 0x1B | .remoteWrite _ _ => 0x1C
  | .multicast _ _ _ => 0x1D

/-- Virtual channel of a kind (R174). -/
def kindVc (k : Nat) : Nat := if k < 0x08 then 0 else if k < 0x10 then 1 else if k < 0x18 then 2 else 3

/-- Virtual channel of a packet. -/
def Body.vc (b : Body) : Nat := kindVc (Sys2Proof.Machine.Body.kind b)

/-- Packets that are themselves answers (R180). -/
def Body.isAnswer : Body → Bool
  | .ctrlReply _ _ _ | .reply _ _ _ | .status _ _ | .grant _ | .credit _ | .tokenCredit _ _ | .stealReply _ => true
  | .ctrlWrite _ _ | .ctrlRead _ _ | .ctrlAdmit | .ctrlSwitch _ _ | .ctrlDload _ _ _ | .ctrlSample _ _ _
  | .rawWrite _ _ | .rawRead _ _ | .openReq _ | .probe _ | .close _ _ | .steal _ _ _ | .operandRead _ | .sync _ _ | .remoteRead _
  | .message _ | .token _ | .result _ | .failure _ _ _ | .combine _ | .remoteWrite _ _ | .multicast _ _ _ => false

/-! ## Payloads -/

/-- The offset bits of a connection packet (R215). -/
def connOffset (r : ConnRef) : Nat := r.queue % 8 + 8 * (r.qinc % 256) + 2048 * (r.ctx % 16)

/-- The bytes of a contribution (R203). -/
def contribBytes (k : Contribution) : List Byte :=
  natLe 2 k.slot ++ natLe 1 k.op ++ [0] ++ wordLe k.value ++ natLe 2 k.rank.wafer ++ natLe 2 k.rank.y ++
    natLe 2 k.rank.x ++ natLe 1 k.rank.ctx ++ [0] ++ natLe 8 k.rank.pos

/-- The 16-byte remote extension: bytes 0 to 13 of the descriptor, then src_gen (R283). -/
def remoteExt (b : RemoteBody) : List Byte :=
  natLe 2 b.wafer ++ natLe 2 b.key ++ wordLe (word [(b.target.x, 0), (b.target.y, 10), (b.window, 20)]) ++ natLe 4 b.offset ++
    natLe 2 b.length ++ natLe 2 b.srcGen

/-- The 16-byte token header (R144). -/
def tokenHead (b : TokenBody) (dstGen : Nat) : List Byte :=
  natLe 3 b.iteration ++ natLe 1 (b.epoch % 8 + 8 * b2n b.void) ++ natLe 1 (b.port % 8 + 8 * (b.node % 8)) ++ natLe 1 b.part ++ natLe 1 b.len ++
    natLe 1 b.emit ++ wordLe (word [(b.src.x, 0), (b.src.y, 10)]) ++ natLe 2 b.srcGen ++ natLe 2 dstGen

/-- The payload of a packet, where the spec lays it out; h is its header. -/
def Body.payload (h : Hdr) : Body → Option (List Byte)
  | .ctrlWrite _ d => some d
  | .ctrlReply _ st d => some (natLe 1 st ++ d)
  | .rawWrite _ d => some d
  | .openReq b => some ([0] ++ natLe 1 b.ctx ++ natLe 1 b.queue ++ natLe 1 b.credits ++ natLe 2 b.gen ++ [0, 0])
  | .probe b => some ([1] ++ natLe 1 b.ctx ++ natLe 1 b.queue ++ [0] ++ natLe 2 b.gen ++ natLe 1 b.qinc ++ [0])
  | .close op b => some (natLe 1 op ++ natLe 1 b.ref.ctx ++ natLe 1 b.ref.queue ++ natLe 1 b.ref.qinc ++ natLe 2 (if op = 0 then b.seq else 0))
  | .sync op b => some (natLe 1 op ++ [0] ++ natLe 2 b.amount ++ natLe 2 b.index ++ natLe 2 b.srcGen ++ natLe 2 b.srcWafer ++ List.replicate 6 0)
  | .remoteRead b => some (remoteExt b)
  | .reply _ st d => some (natLe 1 st ++ d)
  | .status _ st => some (natLe 1 st ++ List.replicate 7 0)
  | .grant b => some ([0] ++ natLe 1 b.credits ++ natLe 1 b.ref.qinc ++ natLe 1 (b.kind % 4 + 4 * (b.op % 4)) ++ natLe 1 b.maxSize ++ [0] ++ natLe 2 b.gen)
  | .credit b => some ([0, 0] ++ natLe 1 b.count ++ [0] ++ natLe 2 b.gen)
  | .stealReply none => some (natLe 1 stNotFound)
  | .message b => some (natLe 2 b.seq ++ natLe 2 b.data.length ++ natLe 2 b.gen ++ List.replicate 10 0 ++ b.data)
  | .token b => some (tokenHead b h.dstGen ++ b.payload)
  | .combine cs => some (cs.flatMap contribBytes)
  | .remoteWrite b d => some (remoteExt b ++ d)
  | .multicast _ off d => some (natLe 4 off ++ d)
  | .ctrlRead _ _ | .ctrlAdmit | .ctrlSwitch _ _ | .ctrlDload _ _ _ | .ctrlSample _ _ _ | .rawRead _ _ | .steal _ _ _ | .operandRead _
  | .tokenCredit _ _ | .stealReply (some _) | .result _ | .failure _ _ _ => none

/-- The greatest payload of a channel (R173): what 1, 2 or 65 flits hold. -/
def payloadMax (vc : Nat) : Nat := if vc = 0 then 48 else if vc = 1 then 112 else 4144

/-- Payload bytes of a packet, where the spec fixes their number (R173); a token credit has those of a connection credit, and a VC0 packet is one flit whatever its payload (log entry 62). -/
def Body.len (h : Hdr) (b : Body) : Option Nat :=
  match Sys2Proof.Machine.Body.payload h b with
  | some bs => some bs.length
  | none =>
    match b with
    | .tokenCredit _ _ => some 6
    | _ => if Sys2Proof.Machine.Body.vc b = 0 then some 48 else none

/-- Flits of a packet of known length (R173). -/
def flitsFor (n : Nat) : Nat := cdiv (16 + n) 64

/-- Flits a packet occupies (R173): a free value within its channel's limit where the spec gives no payload layout. -/
def State.flitsOf (s : State) (p : Pkt) : Nat × State :=
  match Sys2Proof.Machine.Body.len p.h p.body with
  | some n => (flitsFor n, s)
  | none => let r := s.freeVal; (r.1.toNat % flitsFor (payloadMax (Sys2Proof.Machine.Body.vc p.body)) + 1, r.2)

/-! ## The header (R172) -/

/-- A wafer address (R11). -/
def waferAddr (space : Nat) (t : TileId) (off : Nat) : Nat := space % 16 * 2 ^ 40 + t.y % 1024 * 2 ^ 30 + t.x % 1024 * 2 ^ 20 + off % 2 ^ 20

/-- The south-west corner of a field (R10). -/
def cornerOf (f : Nat) : TileId := ⟨f % 8 * 100, f / 8 * 120⟩

/-- The offset bits of a packet's dst: a raw or control offset, the connection of R215, or the cell index of R240. -/
def Body.offset : Body → Nat
  | .ctrlWrite off _ | .ctrlRead off _ | .rawWrite off _ | .rawRead off _ => off
  | .close _ b => connOffset b.ref
  | .grant b => connOffset b.ref
  | .credit b => connOffset b.ref
  | .message b => connOffset b.ref
  | .combine cs => match cs with
    | c :: _ => connOffset c.ref
    | [] => 0
  | .status (.conn r) _ | .status (.opening r) _ | .status (.probe r) _ => connOffset r
  | .sync _ b => b.index
  | .ctrlAdmit | .ctrlSwitch _ _ | .ctrlDload _ _ _ | .ctrlSample _ _ _ | .ctrlReply _ _ _ | .openReq _ | .probe _ | .steal _ _ _
  | .operandRead _ | .remoteRead _ | .reply _ _ _ | .status _ _ | .tokenCredit _ _ | .stealReply _ | .token _ | .result _ | .failure _ _ _
  | .remoteWrite _ _ | .multicast _ _ _ => 0

/-- The dst field of a packet (R11, R172, R179, R204); aim is the tile a dock is named by. -/
def dstField (x : Pkt) (aim : TileId) : Nat :=
  let o := Sys2Proof.Machine.Body.offset x.body
  match x.body with
  | .multicast r _ _ => r.y1 % 1024 * 2 ^ 30 + r.x1 % 1024 * 2 ^ 20 + r.y0 % 1024 * 2 ^ 10 + r.x0 % 1024
  | .sync _ _ =>
    match x.h.dst with
    | .fc f => waferAddr 1 (cornerOf f) o
    | .tile _ | .dock _ _ | .gate _ | .conductor => waferAddr 0 aim o
  | _ =>
    match x.h.dst with
    | .tile t => waferAddr 0 t o
    | .dock _ _ => waferAddr 0 aim o
    | .fc f => waferAddr 2 (cornerOf f) o
    | .gate k => waferAddr 3 (cornerOf (keepField k)) o
    | .conductor => waferAddr 4 (cornerOf (fieldOf aim)) o

/-- The src_kind of a source (R172); the conductor sends through its keep field's gates. -/
def srcKind : Endp → Nat
  | .tile _ => 0 | .gate _ => 1 | .conductor => 1 | .dock _ _ => 2 | .fc _ => 3

/-- The 16 bytes of a packet's header (R172): src is the tile its source is attached to, aim the tile it is bound for, cls and escape its travel class and lane, len its payload bytes. -/
def headerBytes (x : Pkt) (src aim : TileId) (cls : Nat) (escape : Bool) (len : Nat) : List Byte :=
  let merged : Bool := match x.body with
    | .combine cs => decide (1 < cs.length)
    | _ => false
  let mcast : Bool := match x.body with
    | .multicast _ _ _ => true
    | _ => false
  let dock : Bool := match x.h.dst with
    | .dock _ _ => true
    | .tile _ | .fc _ | .gate _ | .conductor => false
  natLe 6 (dstField x aim) ++ natLe 3 (src.x % 1024 + src.y % 1024 * 2 ^ 10 + srcKind x.h.src * 2 ^ 20) ++ natLe 2 x.h.dstGen ++ natLe 2 len ++
    natLe 1 (Sys2Proof.Machine.Body.kind x.body + 64 * Sys2Proof.Machine.Body.vc x.body) ++
    natLe 1 (cls % 4 + 4 * b2n escape + 8 * b2n mcast + 16 * b2n merged + 32 * b2n dock) ++ natLe 1 x.h.tag

/-- A packet as it travels: its header and its payload, where the spec lays the payload out (R172). -/
def Flight.bytes (s : State) (x : Flight) : Option (List Byte) :=
  (Sys2Proof.Machine.Body.payload x.pkt.h x.pkt.body).map (fun d =>
    headerBytes x.pkt (s.source x.pkt.h) x.aim x.cls x.det.isSome d.length ++ d)

end Sys2Proof.Machine
end

