-- ==== Sys2Proof/Machine/Writes.lean ====
section
/-! DEFINITION. Requests a tile sends: request tags, the VC3 writes it counts (R248), their settlement (R250), and the way to a remote wafer's dock (R282). -/

namespace Sys2Proof.Machine

/-- The tag of a tile's next request: seven bits of sequence, and the answer epoch in bit 7 (R250). -/
def SyncUnit.tag (u : SyncUnit) : Nat := u.nextTag % 128 + 128 * b2n u.epoch

/-- The class of a write by its destination (R248): 0 own field, 1 elsewhere on the wafer, 2 another wafer. -/
def writeClass (t : TileId) (h : Hdr) : Nat :=
  let own (e : Endp) : Nat := match e with
    | .tile d => if fieldOf d = fieldOf t then 0 else 1
    | .dock _ _ | .fc _ | .gate _ | .conductor => 1
  match h.far with
  | some f => if f.dstWafer = f.srcWafer then own f.endp else 2
  | none => own h.dst

/-- Writes of a class still unanswered, both epochs together (R250). -/
def SyncUnit.outstanding (u : SyncUnit) (cls : Nat) : Nat := (u.writes.filter (fun w => w.cls == cls)).length

/-- A write may issue: its counter stands below 65,535 (R248). -/
def State.mayWrite (s : State) (t : TileId) (h : Hdr) : Bool :=
  decide ((s.tile t).sync.outstanding (writeClass t h) < 65535)

/-- A remote packet that takes a pending entry at its ingress dock (R284): every request that draws an answer when it succeeds. -/
def pended : Body → Bool
  | .remoteWrite _ _ | .remoteRead _ | .message _ | .combine _ | .openReq _ | .probe _ => true
  | .sync op _ => op == 1
  | _ => false

/-- Send a request under the tile's next tag; a remote one is kept until its final answer (R284). -/
def State.sendTagged (s : State) (t : TileId) (h : Hdr) (body : Body) (f : SyncUnit → SyncUnit) : State :=
  let u := (s.tile t).sync
  let h := { h with tag := u.tag }
  let keep : List HeldRemote := if h.far.isSome && pended body then [{ h := h, body := body, due := none }] else []
  let s := s.modTile t (fun tl => { tl with sync := { f tl.sync with nextTag := u.nextTag + 1, heldRemote := u.heldRemote ++ keep } })
  s.send { h := h, body := body }

/-- Send a write on VC3 and count it until its answer (R248). posted says that its operation completes at issue; iter is the firing iteration of a token. -/
def State.sendWriteOf (s : State) (t : TileId) (h : Hdr) (body : Body) (re : Re) (posted : Bool) (iter : Nat) : State :=
  let u := (s.tile t).sync
  let r : WriteRec := { n := u.nextTag, tag := u.tag, re := re, cls := writeClass t h, old := false, posted := posted, dst := h.dst, iter := iter }
  s.sendTagged t h body (fun u => { u with writes := u.writes ++ [r] })

/-- Send a write that is no token. -/
def State.sendWrite (s : State) (t : TileId) (h : Hdr) (body : Body) (re : Re) (posted : Bool) : State := s.sendWriteOf t h body re posted 0

/-- Send a request that is no counted write, with the tile's next tag. -/
def State.sendRequest (s : State) (t : TileId) (h : Hdr) (body : Body) : State := s.sendTagged t h body (fun u => u)

/-- Set the failure bit of a counter (R249). -/
def SyncUnit.fail (u : SyncUnit) (cls : Nat) : SyncUnit :=
  if cls = 0 then { u with failField := true }
  else if cls = 1 then { u with failWafer := true } else { u with failRemote := true }

/-- Take a write off its counter by its answer; none where no such write is outstanding (a late answer is discarded, R250). -/
def Tile.takeWrite (tl : Tile) (tag : Nat) (re : Re) : Option (WriteRec × Tile) :=
  match tl.sync.writes.find? (fun w => w.tag == tag && w.re == re) with
  | none => none
  | some w =>
    let (a, b) := tl.sync.writes.span (fun x => !(x == w))
    some (w, { tl with sync := { tl.sync with writes := a ++ b.drop 1 } })

/-- Settle a write: the counter falls, and a write that did not land sets its counter's failure bit (R249). -/
def Tile.settle (tl : Tile) (tag : Nat) (re : Re) (landed : Bool) : Tile :=
  match tl.takeWrite tag re with
  | none => tl
  | some (w, tl') => if landed then tl' else { tl' with sync := tl'.sync.fail w.cls }

/-- POSTED_LOST increments (R45, R250). -/
def Tile.lostPosted (tl : Tile) : Tile :=
  { tl with forage := { tl.forage with postedLost := tl.forage.postedLost + 1 } }

/-- The route entry that serves a wafer identifier (R281). -/
def State.route (s : State) (p wafer : Nat) : Option Route :=
  match (s.ports.getD p {}).routes.find (wafer % 4096) with
  | some ws => if (routeOf ws).valid && (routeOf ws).wafer == wafer then some (routeOf ws) else none
  | none => none

/-- The injection point of a dock that lies nearest to a tile by the hops of its published distance-table record (R206, R282), ties to the lower local x, then y; none where none in service can be reached. -/
def State.nearest (s : State) (t : TileId) (p : Nat) : Option Nat :=
  let hops (a : TileId) : Option Nat := (pathOf s.mesh.distMap.furrows t a).map List.length
  let ok := (dockPoints p).zipIdx.filterMap (fun e => if s.onMap e.1 then (hops e.1).map (fun n => (n, e.2)) else none)
  match ok with
  | [] => none
  | e :: rest => some (rest.foldl (fun b x => if x.1 < b.1 then x else b) e).2

/-- The dock endpoint of a tile's remote packet (R282): its own field's dock while that is in service, else the dock of the route's egress port; none where no dock can be named. -/
def State.ingressEnd (s : State) (t : TileId) (wafer : Nat) : Option Endp :=
  let f := fieldOf t
  let via (p : Nat) : Option Endp := if s.dockOn p then (s.nearest t p).map (fun i => .dock p i) else none
  match via f with
  | some e => some e
  | none =>
    match s.route f wafer with
    | some r => via r.egress
    | none => none

end Sys2Proof.Machine
end

