-- ==== Sys2Proof/Machine/Packets.lean ====
section
/-! DEFINITION. The answer a refused packet draws (R180), and what a dropped answer's destination receives in its place (R194). -/

namespace Sys2Proof.Machine

/-- The cell a SYNC packet names at an endpoint. -/
def cellOf (e : Endp) (i : Nat) : Nat :=
  match e with
  | .fc f => cellNumber f i
  | .tile _ | .dock _ _ | .gate _ | .conductor => i

/-- The endpoint a packet is for, past the docks. -/
def lastEndp (h : Hdr) : Endp :=
  match h.far with
  | some f => f.endp
  | none => h.dst

/-- What an answer to a packet answers, and whether the packet was a read (R180). -/
def Body.asked (h : Hdr) : Body → Option (Re × Bool)
  | .ctrlWrite _ _ | .ctrlRead _ _ | .ctrlAdmit | .ctrlSwitch _ _ | .ctrlDload _ _ _ | .ctrlSample _ _ _ => some (.ctrl h.tag, false)
  | .rawWrite _ _ => some (.raw h.tag, false)
  | .rawRead _ _ => some (.raw h.tag, true)
  | .openReq b => some (.opening ⟨b.queue, 0, b.ctx⟩, false)
  | .probe b => some (.probe ⟨b.queue, b.qinc, b.ctx⟩, false)
  | .close _ _ => some (.closing, false)
  | .steal e _ _ => some (.steal e, false)
  | .operandRead b => some (.operand b.engine b.which b.at_, true)
  | .sync op b =>
    let c := cellOf (lastEndp h) b.index
    some (if op = 0 then (.wait c, false) else if op = 1 then (.signal c false, false) else if op = 2 then (.signal c true, false)
      else if op = 3 then (.read c, true) else (.cancel c, false))
  | .remoteRead _ => some (.xget, true)
  | .message b => some (.conn b.ref, false)
  | .token b => some (.token b, false)
  | .result b => some (.result b.entry, false)
  | .failure e _ _ => some (.result e, false)
  | .remoteWrite _ _ => some (.xput, false)
  | .combine _ | .multicast _ _ _ => none
  | .ctrlReply _ _ _ | .reply _ _ _ | .status _ _ | .grant _ | .credit _ | .tokenCredit _ _ | .stealReply _ => none

/-- The answers with a status that a refused request draws, each to its source's generation: one, or one for each contribution of a COMBINE (R65, R180, R203). -/
def refusals (p : Pkt) (st : Nat) : List Pkt :=
  match p.body with
  | .combine cs => cs.map (fun c => { h := { src := p.h.dst, dst := c.src, dstGen := c.srcGen, tag := c.tag, far := p.h.far.map farBack },
                                      body := .status (.conn c.ref) st })
  | b =>
    match Sys2Proof.Machine.Body.asked p.h b with
    | none => []
    | some (re, isRead) =>
      let h := hdrBack p.h p.h.srcGen
      match re with
      | .ctrl id => [{ h := h, body := .ctrlReply id st [] }]
      | re => [{ h := h, body := if isRead then .reply re st [] else .status re st }]

/-- A packet refused at a position: answered where it was a request (R180). -/
def State.refuseAt (s : State) (a : TileId) (p : Pkt) (st : Nat) : State := (refusals p st).foldl (fun s q => s.sendFrom a q) s

/-- What the destination of a dropped answer receives in its place (R194). -/
def answerLost : Body → Option Body
  | .ctrlReply id _ _ => some (.ctrlReply id stPathLost [])
  | .reply re _ _ => some (.reply re stPathLost [])
  | .status re _ => some (.status re stPathLost)
  | .grant b => some (.status (.opening b.ref) stPathLost)
  | .credit b => some (.status (.conn b.ref) stPathLost)
  | .tokenCredit _ _ => some (.status .closing stPathLost)
  | .stealReply _ => some (.status (.steal 0) stPathLost)
  | .ctrlWrite _ _ | .ctrlRead _ _ | .ctrlAdmit | .ctrlSwitch _ _ | .ctrlDload _ _ _ | .ctrlSample _ _ _
  | .rawWrite _ _ | .rawRead _ _ | .openReq _ | .probe _ | .close _ _ | .steal _ _ _ | .operandRead _ | .sync _ _ | .remoteRead _
  | .message _ | .token _ | .result _ | .failure _ _ _ | .combine _ | .remoteWrite _ _ | .multicast _ _ _ => none


end Sys2Proof.Machine
end

