-- ==== Sys2Proof/Machine/Mesh.lean ====
section
/-! DEFINITION. The routers: near rings (R201), lanes and their depths (R176), arbitration (R177, R202, R205), the VC0 load limit (R198), merging (R203), the hop (R187, R195, R308), ejection, and arrival in order (R192). -/

namespace Sys2Proof.Machine

/-! ## Near rings (R201) -/

/-- The tiles the near ring of a site is measured from: gates 0 to 31, docks 32 to 83. -/
def sitePoints (n : Nat) : List TileId :=
  if n < 32 then [gateTile (n / 8) (n % 8)] else injectionPoints (computeField (n - 32))

/-- Routed hops of a good tile to a site under a list of furrows, where they are 8 or fewer; ok says which positions carry traffic. -/
def siteHops (fs : List Furrow) (ok : TileId → Bool) (t : TileId) (n : Nat) : Option Nat :=
  let hs := (sitePoints n).filterMap (fun a => if manhattan t a ≤ 8 ∧ ok a then (pathOf fs t a).map List.length else none)
  match hs with
  | [] => none
  | h :: r => if ok t && decide (r.foldl min h ≤ 8) then some (r.foldl min h) else none

/-- The near ring a position lies in: site and hops; 0xFF and 0 where it lies in none (R201, R208). -/
def nearSite (fs : List Furrow) (ok : TileId → Bool) (t : TileId) : Nat × Nat :=
  ((upto 84).findSome? (fun n => (siteHops fs ok t n).map (fun h => (n, h)))).getD (0xFF, 0)

/-- The site a packet is bound for: the gate it was given, or its dock. -/
def siteOf (dst : Endp) (aim : TileId) : Option Nat :=
  let gate : Option Nat := firstBelow 32 (fun n => gateTile (n / 8) (n % 8) == aim)
  match dst with
  | .dock p _ => if isKeep p then gate else some (32 + computeIdx p)
  | .gate _ => gate
  | .conductor => gate
  | .fc f => if isKeep f then gate else none
  | .tile _ => none

/-! ## Routers -/

/-- A router of a position. -/
def State.router (s : State) (t : TileId) : Router := (s.field (fieldOf t)).mesh.routers.getD (localIdx t) {}

/-- Change a router. -/
def State.modRouter (s : State) (t : TileId) (g : Router → Router) : State :=
  s.modField (fieldOf t) (fun fd => { fd with mesh := { fd.mesh with routers := fd.mesh.routers.modify (localIdx t) {} g } })

/-- Count a PATH_LOST of a router, with event 0x0881 (R208, R209). -/
def State.countLost (s : State) (a aim : TileId) (p : Pkt) : State :=
  let s := s.modRouter a (fun r => { r with lost := satAdd 0xFFFF r.lost 1 })
  let s := s.modField (fieldOf a) (fun fd => { fd with mesh := { fd.mesh with pathLost := fd.mesh.pathLost + 1 } })
  s.event (fieldOf a) 0x0881 [tileDetail a, tileDetail aim, Body.kind p.body]

/-- Remove flight i. -/
def State.dropFlight (s : State) (i : Nat) : State :=
  { s with mesh := { s.mesh with flight := s.mesh.flight.eraseIdx i } }

/-- Replace flight i. -/
def State.setFlight (s : State) (i : Nat) (x : Flight) : State :=
  { s with mesh := { s.mesh with flight := s.mesh.flight.set i x } }

/-- The furrows routers use between two positions: the map in force, or inside a running furrow field its own holes alone (R186, R368). -/
def State.furrowsFor (s : State) (a b : TileId) : Option (List Furrow) :=
  if s.mesh.map.furrows.any (fun f => f.covers a) then
    if fieldOf a = fieldOf b then
      some (mergeFurrows ((s.holes.filter (fun t => fieldOf t == fieldOf a)).map holeRect))
    else none
  else some s.mesh.map.furrows

/-- A router holds its neighbour in a direction as dead (R195). -/
def Router.deadIn (r : Router) (d : Nat) : Bool := if d = 0 then r.deadE else if d = 1 then r.deadW else if d = 2 then r.deadN else r.deadS

/-- The direction from a position to its neighbour: 0 east, 1 west, 2 north, 3 south. -/
def dirTo (a b : TileId) : Nat := if a.x < b.x then 0 else if b.x < a.x then 1 else if a.y < b.y then 2 else 3

/-- The input port a hop arrives by, 0 north, 1 east, 2 south, 3 west: the side it comes from. -/
def arrivalPort (a b : TileId) : Nat := if a.y < b.y then 2 else if b.y < a.y then 0 else if a.x < b.x then 3 else 1

/-- The boundary of the field a hop enters that it crosses: 0 north to 3 west. -/
def boundaryInto (a b : TileId) : Nat := arrivalPort a b

/-- A destination that names no tile position (R12). -/
def badDst : Endp → Bool
  | .tile t => !onArray t
  | .dock p _ | .fc p => decide (56 ≤ p)
  | .gate k => decide (4 ≤ k)
  | .conductor => false

/-- A packet between adjacent good tiles takes their neighbour link (R170). -/
def State.byLink (s : State) (x : Flight) : Bool :=
  x.fresh && decide (0 < Body.vc x.pkt.body) &&
    (match x.pkt.h.src, x.pkt.h.dst with
     | .tile a, .tile b => adjacent a b && s.good a && s.good b && x.at_ == a
     | _, _ => false)

/-! ## Lanes (R176) -/

/-- The lane a packet of a class and detour takes: 0 VC0 request, 1 VC0 reply, 2 to 4 VC1 to VC3; and its escape lane's class, none for the main lane. -/
def laneOf (p : Pkt) (cls : Nat) (det : Option Detour) : Nat × Option Nat :=
  let v := Body.vc p.body
  (if v = 0 then (if Body.isAnswer p.body then 1 else 0) else v + 1, if det.isSome then some cls else none)

/-- A packet stands in a lane of an input port of a router. -/
def State.inLane (s : State) (a : TileId) (inp : Nat) (lane : Nat × Option Nat) (y : Flight) : Bool :=
  !y.landed && y.at_ == a && y.inp == inp && laneOf y.pkt y.cls y.det == lane && !s.byLink y

/-- Depth of a lane, in flits (R176). -/
def laneDepth (lane : Nat × Option Nat) : Nat :=
  if lane.1 < 2 then (if lane.2.isSome then 1 else 2) else if lane.2.isSome then 2 else 8

/-- The flits of a lane that a packet holds: a packet longer than the lane holds all of it (log entry 62). -/
def laneFlits (lane : Nat × Option Nat) (p : Pkt) : Nat :=
  match Body.len p.h p.body with
  | some n => min (laneDepth lane) (flitsFor n)
  | none => laneDepth lane

/-- A lane of an input port has room for a packet: a credit for each flit it would hold (R176). -/
def State.laneRoom (s : State) (a : TileId) (inp : Nat) (lane : Nat × Option Nat) (p : Pkt) : Bool :=
  decide (total ((s.mesh.flight.filter (fun y => !y.fresh && s.inLane a inp lane y)).map (fun y => laneFlits lane y.pkt)) + laneFlits lane p ≤
    laneDepth lane)

/-- Flight i is the first of its lane, or the first of its neighbour link. -/
def State.laneHead (s : State) (i : Nat) (x : Flight) : Bool :=
  let lane := laneOf x.pkt x.cls x.det
  !(s.mesh.flight.take i).any (fun y =>
    if s.byLink x then s.byLink y && y.pkt.h.src == x.pkt.h.src && y.pkt.h.dst == x.pkt.h.dst && Body.vc y.pkt.body == Body.vc x.pkt.body
    else s.inLane x.at_ x.inp lane y)

/-! ## What a packet would do next -/

/-- The next move of a packet at its router. -/
inductive Move where
  | wait
  | refuse
  | link
  | eject
  | hop (to_ : TileId) (cls : Nat) (det : Option Detour)
  deriving DecidableEq, Repr, Inhabited

/-- A hop into another field needs the crossing of that boundary to run (R306). -/
def State.crossingRuns (s : State) (a b : TileId) : Bool :=
  fieldOf a == fieldOf b || ((s.field (fieldOf b)).clk.xing.getD (boundaryInto a b) {}).state == .running

/-- A source may inject a VC0 flit: vc0_gap cycles after its last, 16 at least (R198, R208). -/
def State.paced (s : State) (x : Flight) : Bool :=
  let m := (s.field (fieldOf x.at_)).mesh
  match (s.router x.at_).vc0Sent.find (srcKind x.pkt.h.src) with
  | some c => !x.fresh || decide (0 < Body.vc x.pkt.body) || decide (c + max 16 m.vc0Gap ≤ s.cycles x.at_)
  | none => true

/-- What a packet at a router would do next: injection waits while it is paused (R193, R319), a destination or source the mesh does not serve is refused (R12, R19, R180), adjacent tiles use their link (R170), and the rest follows its route (R187 to R190). -/
def State.moveOf (s : State) (x : Flight) : Move :=
  if x.landed || (x.fresh && (s.mesh.paused || decide (s.time < s.mesh.holdUntil))) || !(s.field (fieldOf x.at_)).running || !s.paced x then .wait
  else if badDst x.pkt.h.dst || (x.fresh && !s.reachable x.pkt.h.src) then .refuse
  else if s.byLink x then
    if (s.router x.at_).deadIn (dirTo x.at_ x.aim) then .refuse else if s.crossingRuns x.at_ x.aim then .link else .wait
  else
    match s.furrowsFor x.at_ x.aim with
    | none => .refuse
    | some fs =>
      match nextHop fs 4 x.cls x.det x.at_ x.aim with
      | .here => if s.reachable x.pkt.h.dst then .eject else .refuse
      | .refuse => .refuse
      | .go p cls det =>
        if (s.router x.at_).deadIn (dirTo x.at_ p) || !onArray p then .refuse
        else if s.crossingRuns x.at_ p then .hop p cls det else .wait

/-- The output a packet asks for with its next move, where the lane beyond has room: 0 east, 1 west, 2 north, 3 south, 4 local (R176, R208). -/
def State.wants (s : State) (i : Nat) (x : Flight) : Option Nat :=
  if !s.laneHead i x then none
  else
    match s.moveOf x with
    | .eject => some 4
    | .hop p cls det => if s.laneRoom p (arrivalPort x.at_ p) (laneOf x.pkt cls det) x.pkt then some (dirTo x.at_ p) else none
    | .wait => none
    | .refuse => none
    | .link => none

/-! ## Arbitration (R177, R202, R205) -/

/-- Whether a flight at a router is weighted (R202): some true for a packet from the near ring of the site it is bound for, some false for one from elsewhere; none where the router lies in no near ring of that site, the weighting is off, or it is VC0. -/
def State.nearKind (s : State) (x : Flight) : Option Bool :=
  if (s.field (fieldOf x.at_)).mesh.nearEn && decide (0 < Body.vc x.pkt.body) then
    match siteOf x.pkt.h.dst x.aim with
    | none => none
    | some n =>
      let fs := s.mesh.map.furrows
      if (siteHops fs s.onMap x.at_ n).isSome then some (siteHops fs s.onMap (s.source x.pkt.h) n).isSome else none
  else none

/-- The first number below n, in rotation from start, that p takes. -/
def firstFrom (n start : Nat) (p : Nat → Bool) : Option Nat := ((upto n).map (fun k => (start + k) % n)).find? p

/-- The packets that ask for an output of a router. -/
def State.askers (s : State) (a : TileId) (d : Nat) : List (Nat × Flight) :=
  (s.mesh.flight.zipIdx.filter (fun e => e.1.at_ == a && s.wants e.2 e.1 == some d)).map (fun e => (e.2, e.1))

/-- The packets of one channel an output chooses among, and whether both kinds of R202 wait: then the kind whose turn it is not stands back. -/
def State.weighted (s : State) (o : OutPort) (ys : List (Nat × Flight)) : List (Nat × Flight) × Bool :=
  let near (k : Bool) (e : Nat × Flight) : Bool := s.nearKind e.2 == some k
  if ys.any (near true) && ys.any (near false) then (ys.filter (fun e => !near (decide (o.near = 2)) e), true) else (ys, false)

/-- The packet an output grants: VC0 ahead of all, else VC1 to VC3 in rotation, and within a channel its inputs in rotation (R177, R205); with its channel, and whether a near-ring round moves on. -/
def State.granted (s : State) (a : TileId) (d : Nat) : Option (Nat × Nat × Bool) :=
  let o := (s.router a).outs.getD d {}
  let ys := s.askers a d
  let of_ (v : Nat) : List (Nat × Flight) := ys.filter (fun e => Body.vc e.2.pkt.body == v)
  let pick (v : Nat) (zs : List (Nat × Flight)) (near : Bool) : Option (Nat × Nat × Bool) :=
    match firstFrom 5 (o.inPtr.getD v 0) (fun inp => zs.any (fun e => e.2.inp == inp)) with
    | some inp => (zs.find? (fun e => e.2.inp == inp)).map (fun e => (e.1, v, near))
    | none => none
  if !(of_ 0).isEmpty then pick 0 (of_ 0) false
  else
    match firstFrom 3 (o.chPtr - 1) (fun c => !(of_ (c + 1)).isEmpty) with
    | some c => let w := s.weighted o (of_ (c + 1)); pick (c + 1) w.1 w.2
    | none => none

/-- A grant moves an output's rotations past the input and the channel it served. -/
def OutPort.served (o : OutPort) (inp vc : Nat) (near : Bool) : OutPort :=
  { o with
    inPtr := o.inPtr.put vc ((inp + 1) % 5)
    chPtr := if vc = 0 then o.chPtr else vc % 3 + 1
    near := if near then (o.near + 1) % 3 else o.near }

/-- An output grants n flits of a packet. -/
def Router.grant (r : Router) (d inp vc n : Nat) (escape near : Bool) : Router :=
  { r with
    flits := r.flits + BitVec.ofNat 32 n
    escape := if escape then r.escape + BitVec.ofNat 32 n else r.escape
    outs := r.outs.modify d {} (fun o => o.served inp vc near) }

/-- A source injected a VC0 flit in a cycle (R198). -/
def Router.sent (r : Router) (kind cyc : Nat) : Router := { r with vc0Sent := r.vc0Sent.put kind cyc }

/-! ## The VC0 load limit (R198) -/

/-- The VC0 flits offered to an output within 16 cycles of a cycle, that one included. -/
def OutPort.window (o : OutPort) (cyc : Nat) : List Nat := o.vc0At.filter (fun c => decide (cyc < c + 16)) ++ [cyc]

/-- A VC0 flit is offered to an output: a fifth in a window of 16 cycles is counted in VC0_OVER, with the bound-void flag and event 0x0883 (R198, R200). -/
def State.offerVc0 (s : State) (a : TileId) (d : Nat) : State :=
  let w := ((s.router a).outs.getD d {}).window (s.cycles a)
  let over_ := decide (4 < w.length)
  let s := s.modRouter a (fun r => { r with outs := r.outs.modify d {} (fun o => { o with vc0At := if over_ then [] else w }) })
  if over_ then
    let s := s.modField (fieldOf a) (fun fd => { fd with mesh := { fd.mesh with vc0Over := fd.mesh.vc0Over + 1, bvVc0 := true } })
    s.event (fieldOf a) 0x0883 [tileDetail a, d]
  else s

/-! ## Merging (R203) -/

/-- Two single contributions that a router may put into one packet. -/
def mergePair (p q : Pkt) : Option Pkt :=
  match p.body, q.body with
  | .combine [a], .combine [b] =>
    if p.h.dst == q.h.dst && p.h.dstGen == q.h.dstGen && p.h.far == q.h.far && a.ref.queue == b.ref.queue && a.slot == b.slot then
      some { p with body := .combine [a, b] }
    else none
  | _, _ => none

/-- The packet next behind flight i in its lane. -/
def State.nextInLane (s : State) (i : Nat) (x : Flight) : Option (Nat × Flight) :=
  ((s.mesh.flight.zipIdx.drop (i + 1)).find? (fun e => s.inLane x.at_ x.inp (laneOf x.pkt x.cls x.det) e.1)).map (fun e => (e.2, e.1))

/-- Merge the packet behind flight i into it, where R203 allows it. -/
def State.mergeFlight (s : State) (i : Nat) (x : Flight) : Flight × State :=
  if !(s.field (fieldOf x.at_)).mesh.mergeEn then (x, s)
  else
    match s.nextInLane i x with
    | none => (x, s)
    | some (j, y) =>
      match mergePair x.pkt y.pkt with
      | none => (x, s)
      | some p =>
        let s := (s.dropFlight j).setFlight i { x with pkt := p }
        let s := s.modRouter x.at_ (fun r => { r with merges := satAdd 0xFFFF r.merges 1 })
        ({ x with pkt := p }, s.modField (fieldOf x.at_) (fun fd => { fd with mesh := { fd.mesh with merged := fd.mesh.merged + 1 } }))

/-! ## The hop -/

/-- The entries a crossing grants its sender credit for (R305, R317). -/
def Xing.room (x : Xing) : Nat := if x.async then 14 else x.latency + 8

/-- A packet passes from one position to the next; at a crossing the highest occupancy moves up to what it held meanwhile, within its credit (R305, R308, R321). -/
def State.passCrossing (s : State) (a b : TileId) (depth : Nat) : State :=
  if fieldOf a = fieldOf b then s
  else
    s.modField (fieldOf b) (fun fd =>
      { fd with clk := { fd.clk with xing := fd.clk.xing.modify (boundaryInto a b) {} (fun x => { x with peak := max x.peak (min depth x.room) }) } })

/-- Back-pressure at a crossing (R308): the sender's router holds the flit for a number of its cycles. -/
def State.backPressure (s : State) (g b n : Nat) : State :=
  let fd := s.field g
  let x := fd.clk.xing.getD b {}
  let first := !fd.clk.bvStretch
  let x := { x with stalls := x.stalls + BitVec.ofNat 32 n, episodes := satAdd 0xFFFF x.episodes 1, peak := max x.peak x.room }
  let s := s.setField g { fd with clk := { fd.clk with bvStretch := true, xing := fd.clk.xing.put b x } }
  if first then s.event g 0x0A82 [g, b, 0] else s

/-- Refuse flight i at its router with PATH_LOST; an answer is discarded and counted (R180). -/
def State.refuseFlight (s : State) (i : Nat) (x : Flight) : State :=
  ((s.dropFlight i).countLost x.at_ x.aim x.pkt).refuseAt x.at_ x.pkt stPathLost

/-- Count n flits a tile's router grants or its links carry (R355). -/
def State.countFlits (s : State) (a : TileId) (n : Nat) : State :=
  s.modTile a (fun tl => { tl with act := { tl.act with flit := tl.act.flit + BitVec.ofNat 32 n } })

/-- Output d grants flight i: the router's counts and rotations move, and the flight becomes next. -/
def State.crossTake (s : State) (i : Nat) (x : Flight) (d : Nat) (near : Bool) (next : Flight) : State :=
  let vc := Body.vc x.pkt.body
  let n := s.flitsOf x.pkt
  let s := if vc = 0 then n.2.offerVc0 x.at_ d else n.2
  let s := s.modRouter x.at_ (fun r =>
    (if x.fresh && vc == 0 then r.sent (srcKind x.pkt.h.src) (s.cycles x.at_) else r).grant d x.inp vc n.1 next.det.isSome near)
  (s.countFlits x.at_ n.1).setFlight i next

/-- A router forwards flight i (R187): the head of its lane moves where its output grants it and the lane beyond has room; merge lets it merge first (R203), stall gives the cycles a crossing's back-pressure holds it (R308), and depth the entries a crossing holds as it passes (R305). -/
def State.route1 (s : State) (i : Nat) (merge : Bool) (stall depth : Nat) : State :=
  match s.mesh.flight[i]? with
  | none => s
  | some x =>
    if !s.laneHead i x then s
    else
      let held (b : TileId) : Bool := !(fieldOf b == fieldOf x.at_) && decide (0 < stall)
      match s.moveOf x with
      | .wait => s
      | .refuse => s.refuseFlight i x
      | .link =>
        if held x.aim then s.backPressure (fieldOf x.aim) (boundaryInto x.at_ x.aim) stall
        else
          let n := (s.passCrossing x.at_ x.aim depth).flitsOf x.pkt
          (n.2.countFlits x.at_ n.1).setFlight i { x with at_ := x.aim, inp := arrivalPort x.at_ x.aim, landed := true }
      | .eject =>
        match s.granted x.at_ 4 with
        | none => s
        | some (j, _, near) => if j = i then s.crossTake i x 4 near { x with fresh := false, landed := true } else s
      | .hop p cls det =>
        match s.granted x.at_ (dirTo x.at_ p) with
        | none => s
        | some (j, _, near) =>
          if j ≠ i then s
          else if held p then s.backPressure (fieldOf p) (boundaryInto x.at_ p) stall
          else
            let y := if merge then s.mergeFlight i x else (x, s)
            (y.2.passCrossing x.at_ p depth).crossTake i y.1 (dirTo x.at_ p) near { y.1 with at_ := p, cls := cls, det := det, fresh := false, inp := arrivalPort x.at_ p }

/-- ROUTE_PACKET (R187). -/
def execRoutePacket (i : Nat) (merge : Bool) (stall depth : Nat) (s : State) : Out := .next (s.route1 i merge stall depth)

/-! ## Arrival (R192) -/

/-- Two packets go the same way: one channel, one source, one destination. -/
def sameWay (p q : Pkt) : Bool := p.h.src == q.h.src && p.h.dst == q.h.dst && Body.vc p.body == Body.vc q.body

/-- Packets for a tile's queue unit (R237). -/
def queueKind : Body → Bool
  | .openReq _ | .probe _ | .close _ _ | .grant _ | .credit _ | .message _ | .combine _ => true
  | .status re _ => match re with
    | .conn _ | .opening _ | .probe _ | .closing => true
    | .token _ | .result _ | .operand _ _ _ | .steal _ | .xput | .xget | .signal _ _ | .wait _ | .read _ | .cancel _ | .release _ _ | .raw _ | .ctrl _ => false
  | .ctrlWrite _ _ | .ctrlRead _ _ | .ctrlAdmit | .ctrlSwitch _ _ | .ctrlDload _ _ _ | .ctrlSample _ _ _ | .ctrlReply _ _ _
  | .rawWrite _ _ | .rawRead _ _ | .steal _ _ _ | .operandRead _ | .sync _ _ | .remoteRead _ | .reply _ _ _
  | .tokenCredit _ _ | .stealReply _ | .token _ | .result _ | .failure _ _ _ | .remoteWrite _ _ | .multicast _ _ _ => false

/-- A steal request. -/
def stealKind : Body → Bool
  | .steal _ _ _ => true
  | .ctrlWrite _ _ | .ctrlRead _ _ | .ctrlAdmit | .ctrlSwitch _ _ | .ctrlDload _ _ _ | .ctrlSample _ _ _ | .ctrlReply _ _ _
  | .rawWrite _ _ | .rawRead _ _ | .openReq _ | .probe _ | .close _ _ | .operandRead _ | .sync _ _ | .remoteRead _ | .reply _ _ _
  | .status _ _ | .grant _ | .credit _ | .tokenCredit _ _ | .stealReply _ | .message _ | .token _ | .result _ | .failure _ _ _
  | .combine _ | .remoteWrite _ _ | .multicast _ _ _ => false

/-- A unit of a tile that takes packets in rotation over ports: its tile, the kinds it takes, its pointer, the number of ports, and the port a packet came by. The queue unit has the four neighbour links and the mesh port (R237), the victim's forage unit the four router inputs (R58). -/
structure Taker where
  tile : TileId
  steal : Bool
  ptr : Nat
  ports : Nat
  deriving DecidableEq, Repr, Inhabited

/-- The unit that takes a packet in rotation, if one does. -/
def State.taker (s : State) (p : Pkt) : Option Taker :=
  match p.h.dst with
  | .tile t =>
    if stealKind p.body then some ⟨t, true, (s.tile t).forage.portPtr, 4⟩
    else if queueKind p.body then some ⟨t, false, (s.tile t).q.port, 5⟩ else none
  | .dock _ _ | .fc _ | .gate _ | .conductor => none

/-- The port a packet reached a taker by. -/
def Taker.portOf (k : Taker) (x : Flight) : Nat := if k.steal || x.fresh then x.inp else 4

/-- The packets that wait at a taker, in order of arrival. -/
def State.waitingAt (s : State) (k : Taker) : List Flight :=
  s.mesh.flight.filter (fun x => x.landed && x.pkt.h.dst == .tile k.tile && (if k.steal then stealKind x.pkt.body else queueKind x.pkt.body))

/-- The port a taker takes from next: the first from its pointer at which a packet waits. -/
def State.nextPort (s : State) (k : Taker) : Option Nat := firstFrom k.ports k.ptr (fun i => (s.waitingAt k).any (fun x => k.portOf x == i))

/-- It is a packet's turn at its taker. -/
def State.itsTurn (s : State) (p : Pkt) : Bool :=
  match s.taker p with
  | none => true
  | some k =>
    match s.nextPort k with
    | none => true
    | some i => match (s.waitingAt k).find? (fun x => k.portOf x == i) with
      | some x => x.pkt == p
      | none => true

/-- A taker's pointer moves past the port it took from. -/
def State.turned (s : State) (p : Pkt) : State :=
  match s.taker p with
  | none => s
  | some k =>
    match s.nextPort k with
    | none => s
    | some i => s.modTile k.tile (fun tl =>
        if k.steal then { tl with forage := { tl.forage with portPtr := (i + 1) % 4 } } else { tl with q := { tl.q with port := (i + 1) % 5 } })

/-- A packet may arrive: where the mesh holds it, it has left the mesh at its endpoint, no earlier packet of its way is still on the way (R192), and it is its turn (R58, R237). A packet the mesh does not hold came by no router of the model (log entry 62). -/
def State.mayArrive (s : State) (p : Pkt) : Bool :=
  !s.mesh.flight.any (fun x => x.pkt == p) ||
    (s.itsTurn p &&
      (match s.mesh.flight.find? (fun x => sameWay x.pkt p) with
       | some x => x.landed && x.pkt == p
       | none => false))

/-- The state once an endpoint has taken a packet. -/
def State.took (s : State) (p : Pkt) : State := (if s.mesh.flight.any (fun x => x.pkt == p) then s.turned p else s).arrive p

/-- An endpoint takes a packet that may arrive; one that may not changes nothing. -/
def State.landing (s : State) (p : Pkt) (k : State → State) : State := if s.mayArrive p then k (s.took p) else s

end Sys2Proof.Machine
end

