-- ==== Sys2Proof/Machine/QueueUnit.lean ====
section
/-! DEFINITION. The queue unit's shared operations: connections as sender and receiver see them (R213 to R228), messages and markers, and combining slots (R230 to R234). -/

namespace Sys2Proof.Machine

/-! ## Registers -/

/-- Messages in the ring. -/
def RQueue.msgs (q : RQueue) : Nat := (q.entries.filter (fun e => match e with | .msg _ _ _ _ => true | .marker _ => false)).length

/-- Markers waiting. -/
def RQueue.markers (q : RQueue) : Nat := (q.entries.filter (fun e => match e with | .msg _ _ _ _ => false | .marker _ => true)).length

/-- RQ_STATE.occupancy: messages in the ring, or completed slots not yet consumed (R213). -/
def RQueue.occupancy (q : RQueue) : Nat := if q.kind = 0 then q.msgs else q.doneSlots.length

/-- The queue's ready bit (R213). -/
def RQueue.ready (q : RQueue) : Bool := q.kind == 0 && q.state == 1 && !q.entries.isEmpty

/-- The queue's complete bit (R213). -/
def RQueue.complete (q : RQueue) : Bool := !(q.kind == 0) && !q.doneSlots.isEmpty

/-- A bit for each queue that p takes. -/
def Tile.queueBits (tl : Tile) (p : RQueue → Bool) : Nat := total ((upto 8).map (fun q => b2n (p (tl.queue q)) * 2 ^ q))

/-- QSTAT (R213). -/
def Tile.qstat (tl : Tile) : Word :=
  word [(tl.queueBits RQueue.complete, 24), (tl.queueBits (fun q => q.lost), 16),
    (tl.queueBits (fun q => q.state == 2), 8), (tl.queueBits RQueue.ready, 0)]

/-- Set a queue's lost bit. -/
def Tile.setLost (tl : Tile) (q : Nat) : Tile := tl.setQueue q { tl.queue q with lost := true }

/-- RQ_DROP increases by n. -/
def Tile.addDrop (tl : Tile) (n : Nat) : Tile := { tl with q := { tl.q with drop := tl.q.drop + BitVec.ofNat 32 n } }

/-! ## The sending side -/

/-- The reference a connection packet carries in its offset bits (R215). -/
def Ctx.ref (c : Ctx) (n : Nat) : ConnRef := { queue := c.queue, qinc := c.qinc, ctx := n }

/-- The header of a connection packet from a context: to the receiving tile, or through a dock for a brokered one (R235). -/
def State.connHdr (s : State) (t : TileId) (c : Ctx) (gen : Nat) : Hdr :=
  if c.remote then
    { src := .tile t, dst := (s.ingressEnd t c.wafer).getD (.dock (fieldOf t) 0), dstGen := gen, tag := 0,
      far := some (s.farTo c.wafer (.tile c.peer)) }
  else { src := .tile t, dst := .tile c.peer, dstGen := gen, tag := 0 }

/-- A LOST context's status (R213). -/
def Ctx.lostStatus (c : Ctx) : Nat := if c.reason then stPathLost else stPeerLost

/-- Complete a send of the core that stalls on context c. -/
def State.endSend (s : State) (t : TileId) (c st : Nat) : State :=
  match (s.tile t).core.stall with
  | some k => if k.op = .qsend ∧ k.obj = c then s.finish t k.a st 0 0 else s
  | none => s

/-- A sender context becomes CLOSED with no credits; a stalled qsend on it completes with CLOSED (R225). -/
def State.ctxClosed (s : State) (t : TileId) (c : Nat) : State :=
  let x := (s.tile t).ctx c
  (s.modTile t (fun tl => tl.setCtx c { x with state := 3, credits := 0 })).endSend t c stClosed

/-- A sender context becomes LOST with no credits: CONN_LOST, event 0x0581, and a stalled qsend completes with the status (R226). -/
def State.ctxLost (s : State) (t : TileId) (c : Nat) (path : Bool) : State :=
  let x := (s.tile t).ctx c
  let s := s.modTile t (fun tl =>
    let tl := tl.setCtx c { x with state := 4, credits := 0, reason := path }
    { tl with q := { tl.q with connLost := tl.q.connLost + 1 } })
  let s := s.event (fieldOf t) 0x0581 [tileDetail t, c, tileDetail x.peer, x.queue, b2n path]
  s.endSend t c (if path then stPathLost else stPeerLost)

/-- A packet comes from a context's receiving tile, or from a dock for a brokered one: an earlier connection of the context to another tile is not meant (R225). -/
def Ctx.hears (c : Ctx) : Endp → Bool
  | .tile p => !c.remote && p == c.peer
  | .dock _ _ => c.remote
  | .fc _ | .gate _ | .conductor => false

/-- The context is OPEN on the connection a packet from an endpoint names: its receiving tile, queue and qinc (R222, R226). -/
def Tile.onConn (tl : Tile) (src : Endp) (r : ConnRef) : Bool :=
  let c := tl.ctx r.ctx
  c.state == 2 && c.qinc == r.qinc && c.queue == r.queue && c.hears src

/-- A packet that ends the connection of a context has reached its tile (R237): a reader notice, or with probe set a probe's negative answer too. -/
def State.ending (s : State) (t : TileId) (c : Nat) (probe : Bool) : Bool :=
  s.mesh.flight.any (fun x => x.landed && x.pkt.h.dst == .tile t && (x.pkt.h.dstGen == (s.tile t).gen || x.pkt.h.far.isSome) &&
    (match x.pkt.body with
     | .close op b => op == 1 && b.ref.ctx == c && (s.tile t).onConn x.pkt.h.src b.ref
     | .status (.probe r) st => probe && !(st == stOk) && r.ctx == c && (s.tile t).onConn x.pkt.h.src r
     | _ => false))

/-- A negative answer to a packet of a connection, a probe included (R222, R226, R227). -/
def State.connAnswer (s : State) (t : TileId) (src : Endp) (r : ConnRef) (code : Nat) : State :=
  if !(s.tile t).onConn src r then s
  else if code = stClosed then s.ctxClosed t r.ctx
  else if code = stPeerLost then s.ctxLost t r.ctx false
  else if code = stPathLost then s.ctxLost t r.ctx true
  else s

/-- The rank of a tile's next contribution on a context (R93, R220). -/
def State.rank (s : State) (t : TileId) (c pos : Nat) : Rank := { wafer := s.waferId, y := t.y, x := t.x, ctx := c, pos := pos }

/-- Send one contribution on a context: one credit, the position advances (R220, R221). -/
def State.sendContribution (s : State) (t : TileId) (c slot : Nat) (v : Word) : State :=
  let tl := s.tile t
  let x := tl.ctx c
  let k : Contribution :=
    { ref := x.ref c, slot := slot, op := x.op, value := v, rank := s.rank t c x.pos, src := .tile t, tag := tl.sync.tag, srcGen := tl.gen }
  let s := s.setTile t (tl.setCtx c { x with credits := x.credits - 1, pos := (x.pos + 1) % 2 ^ 64 })
  s.sendWrite t (s.connHdr t x x.peerGen) (.combine [k]) (.conn (x.ref c)) true

/-! ## The receiving side -/

/-- The tile a packet's source counts as (R214, R289): a dock's proxy is the tile of its injection point. -/
def State.sourceTile (s : State) : Endp → TileId
  | .tile t => t
  | .dock p i => nth (dockPoints p) i ⟨0, 0⟩
  | .fc f => s.place (.fc f)
  | .gate k => s.place (.gate k)
  | .conductor => s.place .conductor

/-- The grant record of a sender (R214), by the tile and context, and the generation where the packet carries one. -/
def Tile.record (tl : Tile) (queue : Nat) (tile : TileId) (ctx : Nat) (gen : Option Nat) : Option (Nat × Grant) :=
  tl.q.grants.find? (fun e => e.2.queue == queue && e.2.from_.tile == tile && e.2.from_.ctx == ctx &&
    (match gen with | some g => e.2.from_.gen == g | none => true))

/-- Grant records of a queue. -/
def Tile.senders (tl : Tile) (q : Nat) : Nat := (tl.q.grants.filter (fun e => e.2.queue == q)).length

/-- Send a connection STATUS to a packet's source. -/
def State.connStatus (s : State) (h : Hdr) (gen : Nat) (r : ConnRef) (code : Nat) : State := s.status h gen (.conn r) code

/-- Send a CREDIT to a sender (R223, R232). -/
def State.sendCredit (s : State) (t : TileId) (dest : Sender) (r : ConnRef) (n : Nat) : State :=
  s.send { h := { src := .tile t, dst := dest.src, dstGen := dest.gen, tag := 0 }
           body := .credit { ref := r, count := n, gen := (s.tile t).gen } }

/-- Remove a grant record; its unread messages stay and return no credit (R224). -/
def Tile.dropRecord (tl : Tile) (i : Nat) (g : Grant) : Tile :=
  let q := tl.queue g.queue
  let tl := { tl with q := { tl.q with grants := tl.q.grants.erase i } }
  tl.setQueue g.queue { q with entries := q.entries.map (fun e => match e with
    | .msg sl len f live => if f = g.from_ then .msg sl len f false else .msg sl len f live
    | .marker f => .marker f) }

/-- End a record with a marker where its cause makes one (R224): a message queue takes the marker unless 8 wait; a combining queue takes none and sets its lost bit whatever the cause. -/
def Tile.endRecord (tl : Tile) (i : Nat) (g : Grant) (marker : Bool) : Tile :=
  let tl := tl.dropRecord i g
  let q := tl.queue g.queue
  if !(q.kind == 0) then tl.setLost g.queue
  else if !marker then tl
  else if q.markers < 8 then tl.setQueue g.queue { q with entries := q.entries ++ [.marker g.from_], lost := true }
  else tl.addDrop 1

/-- Free ring slots of a message queue (R218, order 4): what live records hold and what ended records left unread is taken. -/
def Tile.ringFree (tl : Tile) (q : Nat) : Nat :=
  let rq := tl.queue q
  let held := total ((tl.q.grants.filter (fun e => e.2.queue == q)).map (fun e => e.2.credits))
  let ended := (rq.entries.filter (fun e => match e with | .msg _ _ _ live => !live | .marker _ => false)).length
  (tl.handle rq.handle).length - held - ended

/-! ## Enabling a queue (R211) -/

/-- The handles an OPEN queue of this configuration names. -/
def cfgHandles (cfg : Word) : List Nat := [bits cfg 21 16] ++ (if bits cfg 30 29 = 2 then [bits cfg 13 8] else [])

/-- The requirements at enable (R211). -/
def Tile.enableOk (tl : Tile) (q : Nat) (cfg : Word) : Bool :=
  let h := tl.handle (bits cfg 21 16)
  let st := tl.handle (bits cfg 13 8)
  let kind := bits cfg 30 29
  let own := if kind = 0 then h.valid && !h.inTm && h.tagMode == 0 else h.valid && h.tagMode == 2 && h.slotSize == 0
  let staging := !(kind == 2) || (st.valid && st.tagMode == 0 && !(bits cfg 13 8 == bits cfg 21 16))
  let others := (upto 8).all (fun p => p == q || !((tl.queue p).state == 1) ||
    (cfgHandles cfg).all (fun n => !(cfgHandles (tl.queue p).cfg).contains n))
  !(kind == 3) && own && staging && others

/-- Arm every slot of a combining queue and empty its tags (R231). -/
def Tile.armAll (tl : Tile) (q : Nat) : Tile :=
  let h := tl.handle (tl.queue q).handle
  let tl := (upto h.length).foldl (fun x sl => x.armSlot q sl) tl
  { tl with mem := tl.mem.setEmpty (h.slotAt 0) h.extent }

/-- A write to RQ_CFG (R211). -/
def Tile.rqCfg (tl : Tile) (q : Nat) (val : Word) : Tile :=
  let rq := tl.queue q
  if rq.state = 1 then tl
  else
    let cfg := masked val 0xFFFF3FFF
    if !bit val 31 then tl.setQueue q { rq with cfg := cfg, state := 0 }
    else if !tl.enableOk q cfg then tl.setQueue q { rq with cfg := cfg, cfgErr := true }
    else
      let cap := if bits cfg 30 29 = 2 then (tl.handle (bits cfg 13 8)).extent / 32 else 0
      let tl := tl.setQueue q { rq with
        cfg := cfg, cfgErr := false, qinc := (rq.qinc + 1) % 256, state := 1,
        entries := [], ringHead := 0, doneSlots := [], free := [] }
      let tl := if bits cfg 30 29 = 0 then tl else tl.armAll q
      tl.setQueue q { tl.queue q with free := upto cap, doneSlots := [] }

/-! ## Combining (R230 to R233) -/

/-- A slot's count: declared, or default_count where that is 0 (R230). -/
def Tile.slotCount (tl : Tile) (q : Nat) (o : Nat) : Nat :=
  let d := leNat (tl.get (o + 4) 3)
  if d = 0 then (tl.queue q).defaultCount else d

/-- Set bits of a slot's flags byte. -/
def Tile.slotFlag (tl : Tile) (o m : Nat) : Tile := tl.put (o + 12) (natLe 1 (leNat (tl.get (o + 12) 1) ||| m))

/-- Completion of a slot: complete flag, tag full, occupancy (R233). -/
def Tile.slotDone (tl : Tile) (q sl o : Nat) : Tile :=
  let tl := (tl.slotFlag o 1).fillTags o 32
  let rq := tl.queue q
  tl.setQueue q { rq with doneSlots := rq.doneSlots ++ [sl] }

/-- The signal a queue makes per landed message or completed slot (R213). -/
def State.queueSignal (s : State) (t : TileId) (q : Nat) : State :=
  let cfg := ((s.tile t).queue q).cfg
  if bit cfg 26 then s.signalLocal t (18 + q) (bits cfg 25 22) 1 else s

/-- A contribution's value as it is added: widened for op 1 (R92). -/
def combValue (op : Nat) (v : Word) : Word := if op = 1 then widenBf16 v else v

/-- Apply a contribution to its slot at once (R92). -/
def Tile.combApply (tl : Tile) (op o : Nat) (v : Word) : Tile :=
  if op = 2 then
    let acc := sext 64 (leNat (tl.get (o + 16) 8)) + sext 32 v.toNat
    tl.put (o + 16) (natLe 8 (intBits 64 acc))
  else
    let r := leWord (tl.get o 4)
    tl.put o (wordLe (if op = 3 then maxF32 r v else addF32 r (combValue op v)))

/-- Stage a contribution at the tail of its slot's list (R232). -/
def Tile.combStage (tl : Tile) (q o i : Nat) (k : Contribution) : Tile :=
  let rq := tl.queue q
  let st := tl.handle rq.staging
  let e := st.slotAt 0 + 32 * i
  let tail := leNat (tl.get (o + 26) 2)
  let tl := tl.put e (contribBytes k ++ List.replicate 8 0)
  let tl := if tail = 0 then tl.put (o + 24) (natLe 2 (i + 1)) else tl.put (st.slotAt 0 + 32 * (tail - 1) + 24) (natLe 2 (i + 1))
  let tl := tl.put (o + 26) (natLe 2 (i + 1))
  tl.setQueue q { rq with free := rq.free.drop 1 }

/-- Order of ranks (R93): field by field, ascending. -/
def rankLe (a b : Nat × Word) : Bool := decide (a.1 ≤ b.1)

/-- A staged contribution's rank as one number in the order of R93, and its value. -/
def stagedEntry (bs : List Byte) : Nat × Word :=
  (((((fieldAt bs 8 2 * 2 ^ 16 + fieldAt bs 10 2) * 2 ^ 16 + fieldAt bs 12 2) * 2 ^ 8 + fieldAt bs 14 1) * 2 ^ 64 + fieldAt bs 16 8),
    leWord (bytesAt bs 4 4))

/-- The staging entries of the slot at an offset. -/
def Tile.staged (tl : Tile) (q o : Nat) : List Nat :=
  let st := tl.handle (tl.queue q).staging
  tl.stageList st (st.extent / 32) (leNat (tl.get (o + 24) 2))

/-- The first uncorrectable word that the fold of a slot meets (R118). -/
def Tile.foldUe (tl : Tile) (q o : Nat) : Option Nat :=
  let st := tl.handle (tl.queue q).staging
  match tl.mem.hit o 32 with
  | some u => some u
  | none => (tl.staged q o).findSome? (fun i => tl.mem.hit (st.slotAt 0 + 32 * i) 32)

/-- The fold of a slot (R93, R233): the staged values in rank order, rounded once; the entries are freed. -/
def Tile.combFold (tl : Tile) (q o : Nat) : Tile :=
  let rq := tl.queue q
  let st := tl.handle rq.staging
  let es := tl.staged q o
  let ranked := sortBy rankLe (es.map (fun i => stagedEntry (tl.get (st.slotAt 0 + 32 * i) 24)))
  let v := foldWide (ranked.map (fun e => combValue rq.op e.2))
  let tl := (tl.put o (wordLe v)).put (o + 24) [0, 0, 0, 0]
  tl.setQueue q { rq with free := rq.free ++ es }

/-- The slot's received count reaches its count (R233): op 2 clamps now, an ordered op 0 or 1 waits for the fold engine, any other slot is done. -/
def State.combCheck (s : State) (t : TileId) (q sl o : Nat) : State :=
  let tl := s.tile t
  let rq := tl.queue q
  if !(leNat (tl.get (o + 8) 4) == tl.slotCount q o) then s
  else if rq.folds? then s.setTile t { tl with q := { tl.q with folds := tl.q.folds ++ [(q, sl)] } }
  else
    let tl := if rq.op = 2 then
        let c := clampI32 (sext 64 (leNat (tl.get (o + 16) 8)))
        let tl := tl.put o (natLe 4 (intBits 32 c.1))
        if c.2 then { tl with arith := { tl.arith with flags := flor tl.arith.flags flSat } } else tl
      else tl
    (s.setTile t (tl.slotDone q sl o)).queueSignal t q

/-- Answer one contribution, to its sender's generation: STATUS, and the credit that returns (R65, R232). -/
def State.combAnswer (s : State) (t : TileId) (k : Contribution) (code : Nat) (credit : Bool) : State :=
  let s := s.send { h := { src := .tile t, dst := k.src, dstGen := k.srcGen, tag := k.tag }, body := .status (.conn k.ref) code }
  if credit then s.sendCredit t { src := k.src, tile := s.sourceTile k.src, ctx := k.ref.ctx, gen := k.srcGen } k.ref 1 else s

/-- A dropped contribution: lost bit and RQ_DROP (R232). -/
def Tile.combDrop (tl : Tile) (q : Nat) : Tile := (tl.setLost q).addDrop 1

/-- The first uncorrectable word that a contribution to the slot at an offset meets: in the slot, or in the staging entry it is linked behind (R118, R119). -/
def Tile.combUe (tl : Tile) (q o : Nat) : Option Nat :=
  match tl.mem.hit o 32 with
  | some u => some u
  | none =>
    let tail := leNat (tl.get (o + 26) 2)
    if (tl.queue q).folds? && !(tail == 0) then tl.mem.hit ((tl.handle (tl.queue q).staging).slotAt 0 + 32 * (tail - 1) + 24) 2 else none

/-- One arriving contribution, by the checks of R232 in order. One that meets an uncorrectable word is a fault of the memory, unit 12, and is dropped: refused, its credit returned (R118, R119; DEDUCED, log entry 78). -/
def State.contribution (s : State) (t : TileId) (k : Contribution) : State :=
  let tl := s.tile t
  let q := k.ref.queue
  let rq := tl.queue q
  let from_ := s.sourceTile k.src
  let rec? := tl.record q from_ k.ref.ctx none
  let hd := tl.handle rq.handle
  let o := hd.slotAt k.slot
  let drop (order code : Nat) (flag : Nat) (credit : Bool) (tl : Tile) : State :=
    let tl := if flag = 0 then tl else tl.slotFlag o flag
    let s := s.setTile t (tl.combDrop q)
    (s.event (fieldOf t) 0x0582 [tileDetail t, q, tileDetail from_, order]).combAnswer t k code credit
  if !(rq.state == 1 && rq.qinc == k.ref.qinc && !(rq.kind == 0) && rec?.isSome) then drop 1 stClosed 0 false tl
  else if !(decide (k.slot < hd.length) && k.op == rq.op) then
    drop 2 stRefused (if k.slot < hd.length then 4 else 0) true tl
  else if (tl.combUe q o).isSome then
    ((s.ueFault t 12 ((tl.combUe q o).getD 0) 0).modTile t (fun tl => tl.combDrop q)).combAnswer t k stRefused true
  else if !(decide (leNat (tl.get (o + 8) 4) < tl.slotCount q o)) then
    (drop 3 stRefused 2 true tl).event (fieldOf t) 0x0583 [tileDetail t, q, k.slot, tileDetail from_]
  else if rq.folds? && rq.free.isEmpty then
    (drop 4 stRefused 4 true tl).event (fieldOf t) 0x0584 [tileDetail t, q, k.slot]
  else
    let s := (s.correct t o 32).served t 10 o
    let tl := s.tile t
    let tl := if rq.folds? then tl.combStage q o (rq.free.headD 0) k else tl.combApply rq.op o k.value
    let tl := tl.put (o + 8) (natLe 4 (leNat (tl.get (o + 8) 4) + 1))
    let s := (s.setTile t tl).combCheck t q k.slot o
    s.combAnswer t k stOk true

end Sys2Proof.Machine
end

