-- ==== Sys2Proof/Machine/QueueOps.lean ====
section
/-! DEFINITION. The queue instructions: qopen, qclose, qsend, qtrysend, qrecv, qtryrecv, qselect, qstat (R43, R217 to R229). -/

namespace Sys2Proof.Machine

/-- qopen (R217): the lowest IDLE context, an OPEN on VC1, and a stall for its answer; NO_CONTEXT at once where none is IDLE. -/
def xQopen (t : TileId) (a : XArgs) (s : State) : State :=
  let v := s.rs1 t a
  let w := s.rs2 t a
  let tl := s.tile t
  if !(bits v 31 23 == 0) then s.badArg t .qopen a v
  else if !(decide (1 ≤ w.toNat) && decide (w.toNat ≤ 32)) then s.badArg t .qopen a w
  else
    match firstBelow 16 (fun c => (tl.ctx c).state == 0) with
    | none => s.finish t a stNoContext 0 4
    | some c =>
      let peer : TileId := ⟨bits v 9 0, bits v 19 10⟩
      let q := bits v 22 20
      let s := s.setTile t (tl.setCtx c { state := 1, peer := peer, queue := q })
      let s := s.sendRequest t { src := .tile t, dst := .tile peer, dstGen := 0, tag := 0 }
        (.openReq { ctx := c, queue := q, credits := w.toNat, gen := tl.gen })
      s.stallOn t .qopen a .answer c

/-- Send a CLOSE from a context (R225). -/
def State.sendClose (s : State) (t : TileId) (c op seq : Nat) : State :=
  let x := (s.tile t).ctx c
  s.sendRequest t (s.connHdr t x x.peerGen) (.close op { ref := x.ref c, gen := (s.tile t).gen, seq := seq })

/-- Close a receive queue (R225): what it holds is discarded and counted, every record's sender is told, every record freed. -/
def State.closeQueue (s : State) (t : TileId) (q : Nat) : State :=
  let tl := s.tile t
  let rq := tl.queue q
  let gs := (tl.q.grants.filter (fun e => e.2.queue == q)).map (fun e => e.2)
  let tl := { tl with q := { tl.q with grants := tl.q.grants.filter (fun e => !(e.2.queue == q)) } }
  let tl := (tl.addDrop rq.entries.length).setQueue q { rq with state := 2, entries := [], ringHead := 0, lost := rq.lost || (!(rq.kind == 0) && !gs.isEmpty) }
  gs.foldl (fun s g =>
    s.send { h := { src := .tile t, dst := g.from_.src, dstGen := g.from_.gen, tag := 0 }
             body := .close 1 { ref := { queue := q, qinc := rq.qinc, ctx := g.from_.ctx }, gen := tl.gen, seq := 0 } })
    (s.setTile t tl)

/-- qclose (R225): a sender context, or with mod 0 a receive queue. -/
def xQclose (t : TileId) (a : XArgs) (s : State) : State :=
  let v := s.rs1 t a
  let tl := s.tile t
  if nbit a.mods 0 then
    if !(bits v 31 3 == 0) then s.badArg t .qclose a v
    else if (tl.queue (bits v 2 0)).state = 1 then (s.closeQueue t (bits v 2 0)).finish t a stOk 0 2
    else s.finish t a stClosed 0 2
  else if !(bits v 31 4 == 0) then s.badArg t .qclose a v
  else
    let c := bits v 3 0
    let x := tl.ctx c
    let idle (s : State) : State := s.modTile t (fun tl => tl.setCtx c { x with state := 0, credits := 0, closePending := false })
    if x.state = 0 then s.finish t a stClosed 0 2
    else if x.state = 1 then
      (s.setTile t (tl.setCtx c { x with closePending := true })).finish t a stOk 0 2
    else if x.state = 2 then (idle (s.sendClose t c 0 x.seq)).finish t a stOk 0 2
    else if x.state = 3 then (idle s).finish t a stOk 0 2
    else (idle (s.sendClose t c 2 0)).finish t a stOk 0 2

/-- The send of qsend and qtrysend on an OPEN context (R220): credit first, then the source slot, then one message or contribution. -/
def State.qsendOpen (s : State) (t : TileId) (op : XOp) (a : XArgs) (c : Nat) (r : HRef) (try_ : Bool) : State :=
  let tl := s.tile t
  let x := tl.ctx c
  let h := tl.handle r.handle
  let len := if x.kind = 0 then h.slotBytes else 8
  if x.kind = 0 ∧ 32 * 2 ^ x.maxSize < h.slotBytes then s.badArg t op a (BitVec.ofNat 32 h.slotBytes)
  else if x.credits = 0 then
    if try_ then s.finish t a stNoCredit 0 2 else s.stallOn t op a .cond c
  else if h.tagged && !tl.slotsFull h r.slot 1 then
    if try_ then s.finish t a stEmpty 0 2 else s.stallOn t op a .cond c
  else if x.remote && (s.ingressEnd t x.wafer).isNone then s.finish t a stPathLost 0 2
  else if !s.mayWrite t (s.connHdr t x x.peerGen) then s.stallOn t op a .cond c
  else
    s.reading t 0 (tl.refAt r) len (fun bs s =>
      let s :=
        if x.kind = 0 then
          let s := s.modTile t (fun tl => tl.setCtx c { x with credits := x.credits - 1, seq := (x.seq + 1) % 65536 })
          s.sendWrite t (s.connHdr t x x.peerGen)
            (.message { ref := x.ref c, seq := x.seq, gen := tl.gen, data := bs }) (.conn (x.ref c)) true
        else s.sendContribution t c (fieldAt bs 0 2) (leWord (bytesAt bs 4 4))
      let s := s.modTile t (fun tl => tl.consumeSlots h r.slot 1)
      s.finish t a stOk 0 (2 + cdiv len 64))

/-- qsend and qtrysend (R42, R220): operand checks, then the context's state; a reader notice that has reached the tile comes first (R237). -/
def xSend (op : XOp) (try_ : Bool) (t : TileId) (a : XArgs) (s : State) : State :=
  let v := s.rs1 t a
  let w := s.rs2 t a
  let tl := s.tile t
  let r := hrefOf w
  let c := bits v 3 0
  let x := tl.ctx c
  if !(bits v 31 4 == 0) then s.badArg t op a v
  else if !tl.refOk r then s.badArg t op a w
  else if x.state = 3 ∨ s.ending t c false = true then s.finish t a stClosed 0 2
  else if x.state = 4 then s.finish t a x.lostStatus 0 2
  else if x.state = 2 then s.qsendOpen t op a c r try_
  else s.badArg t op a v

/-- qsend. -/
def xQsend (t : TileId) (a : XArgs) (s : State) : State := xSend .qsend false t a s
/-- qtrysend. -/
def xQtrysend (t : TileId) (a : XArgs) (s : State) : State := xSend .qtrysend true t a s

/-- Take a message into the destination slot (R223). -/
def State.takeMessage (s : State) (t : TileId) (op : XOp) (a : XArgs) (q : Nat) (r : HRef) (try_ : Bool)
    (slot len : Nat) (f : Sender) (live : Bool) (rest : List REntry) : State :=
  let tl := s.tile t
  let rq := tl.queue q
  let h := tl.handle r.handle
  let ring := tl.handle rq.handle
  let o := tl.refAt r
  let src := ring.slotAt slot
  if h.slotBytes < len then s.badArg t op a (BitVec.ofNat 32 len)
  else if h.tagged && !tl.slotsEmpty h r.slot 1 then
    if try_ then s.finish t a stEmpty 0 2 else s.stallOn t op a .cond q
  else
    s.reading t 0 src len (fun bs s => s.writing t 0 o len (fun s =>
      let s := s.modTile t (fun tl =>
        let tl := tl.put o bs
        let tl := if h.tagged then tl.fillTags (h.slotAt r.slot) h.slotBytes else tl
        tl.setQueue q { rq with entries := rest, ringHead := (rq.ringHead + 1) % ring.length, last := some f })
      let s := if live then s.sendCredit t f { queue := q, qinc := rq.qinc, ctx := f.ctx } 1 else s
      let extra := if h.inTm then cdiv len 64 - cdiv len 256 else 0
      s.finish t a stOk (len + f.ctx * 2 ^ 13) (2 + cdiv len 256 + extra)))

/-- qrecv and qtryrecv (R223). -/
def xReceive (op : XOp) (try_ : Bool) (t : TileId) (a : XArgs) (s : State) : State :=
  let v := s.rs1 t a
  let w := s.rs2 t a
  let tl := s.tile t
  let q := bits v 2 0
  let r := hrefOf w
  let rq := tl.queue q
  if !(bits v 31 3 == 0) then s.badArg t op a v
  else if !tl.refOk r then s.badArg t op a w
  else if !(rq.state == 1) then s.finish t a stClosed 0 2
  else if !(rq.kind == 0) then s.badArg t op a v
  else
    match rq.entries with
    | [] => if try_ then s.finish t a stEmpty 0 2 else s.stallOn t op a .cond q
    | .marker f :: rest =>
      (s.setTile t (tl.setQueue q { rq with entries := rest, last := some f })).finish t a stPeerLost (f.ctx * 2 ^ 13) 2
    | .msg slot len f live :: rest => s.takeMessage t op a q r try_ slot len f live rest

/-- qrecv. -/
def xQrecv (t : TileId) (a : XArgs) (s : State) : State := xReceive .qrecv false t a s
/-- qtryrecv. -/
def xQtryrecv (t : TileId) (a : XArgs) (s : State) : State := xReceive .qtryrecv true t a s

/-- A queue qselect may return (R229): its ready, closed or complete bit is set. -/
def RQueue.selectable (q : RQueue) : Bool := q.ready || q.state == 2 || q.complete

/-- qselect (R229): the lowest ready queue of the mask, or the first after the rotation pointer. -/
def xQselect (t : TileId) (a : XArgs) (s : State) : State :=
  let v := s.rs1 t a
  let tl := s.tile t
  let rotate := nbit a.mods 0
  if !(bits v 31 8 == 0) || v == 0 then s.badArg t .qselect a v
  else
    let start := if rotate then tl.q.rot + 1 else 0
    match (upto 8).find? (fun i => bit v ((start + i) % 8) && (tl.queue ((start + i) % 8)).selectable) with
    | some i =>
      let q := (start + i) % 8
      let tl := if rotate then { tl with q := { tl.q with rot := q } } else tl
      (s.setTile t tl).finish t a stOk q 1
    | none => if nbit a.mods 1 then s.finish t a stEmpty 0 1 else s.stallOn t .qselect a .cond 0

/-- qstat (R41, R43): QSTAT in rd, OK in LAST_STATUS. -/
def xQstat (t : TileId) (a : XArgs) (s : State) : State := s.finishRaw t a stOk (s.tile t).qstat 1

/-- QOPEN (R217). -/
def execQopen (t : TileId) (a : XArgs) (s : State) : Out := .next (issue .qopen xQopen t a s)
/-- QCLOSE (R225). -/
def execQclose (t : TileId) (a : XArgs) (s : State) : Out := .next (issue .qclose xQclose t a s)
/-- QSEND (R220). -/
def execQsend (t : TileId) (a : XArgs) (s : State) : Out := .next (issue .qsend xQsend t a s)
/-- QTRYSEND (R220). -/
def execQtrysend (t : TileId) (a : XArgs) (s : State) : Out := .next (issue .qtrysend xQtrysend t a s)
/-- QRECV (R223). -/
def execQrecv (t : TileId) (a : XArgs) (s : State) : Out := .next (issue .qrecv xQrecv t a s)
/-- QTRYRECV (R223). -/
def execQtryrecv (t : TileId) (a : XArgs) (s : State) : Out := .next (issue .qtryrecv xQtryrecv t a s)
/-- QSELECT (R229). -/
def execQselect (t : TileId) (a : XArgs) (s : State) : Out := .next (issue .qselect xQselect t a s)
/-- QSTAT (R43). -/
def execQstat (t : TileId) (a : XArgs) (s : State) : Out := .next (issue .qstat xQstat t a s)

end Sys2Proof.Machine
end

