-- ==== Sys2Proof/Machine/ConnArrivals.lean ====
section
/-! DEFINITION. Arrivals of the queue unit: OPEN, probe, CLOSE, GRANT, CREDIT, MESSAGE, COMBINE, the record timeout, the fold, the probe timer and writes to RQ_CFG (R211, R216 to R233). -/

namespace Sys2Proof.Machine

/-- The tile an endpoint names, if it is one. -/
def endpTile : Endp → Option TileId
  | .tile t => some t
  | .dock _ _ | .fc _ | .gate _ | .conductor => none

/-- A tile takes a request or data of this generation (R65, R216): in service, with the current generation, or the wildcard where allowed. -/
def Tile.takes (tl : Tile) (gen : Nat) (wild : Bool) : Bool :=
  tl.inService && (gen == tl.gen || (wild && gen == 0))

/-- A tile takes an answer (R65): present, and of the generation it was sent to; one that a dock delivered from a fibre with no pending entry carries generation 0 (R287, log entry 77). -/
def Tile.answerOk (tl : Tile) (h : Hdr) : Bool := tl.present && (h.dstGen == tl.gen || (h.dstGen == 0 && h.far.isSome))

/-- End the records that name a tile under another generation (R218, order 2). -/
def Tile.endStale (tl : Tile) (tile : TileId) (gen : Nat) : Tile :=
  (tl.q.grants.filter (fun e => e.2.from_.tile == tile && !(e.2.from_.gen == gen))).foldl
    (fun x e => x.endRecord e.1 e.2 true) tl

/-- OPEN at a receive queue (R216, R218). -/
def State.openAt (s : State) (t : TileId) (h : Hdr) (b : OpenBody) : State :=
  let tl := s.tile t
  let from_ := s.sourceTile h.src
  let rq := tl.queue b.queue
  let ans (s : State) (code : Nat) : State := s.status h b.gen (.opening ⟨b.queue, rq.qinc, b.ctx⟩) code
  if !tl.takes h.dstGen true then ans s stPeerLost
  else if !(rq.state == 1) then ans s stRefused
  else
    let tl := tl.endStale from_ b.gen
    let s := s.setTile t tl
    let limit := bits rq.cfg 7 0
    if decide (256 ≤ tl.q.grants.length) || (!(limit == 0) && decide (limit ≤ tl.senders b.queue)) then ans s stRefused
    else if rq.kind = 0 ∧ tl.ringFree b.queue = 0 then ans s stRefused
    else
      let free := tl.ringFree b.queue
      let n := if rq.kind = 0 then (if b.credits < free then b.credits else free) else b.credits
      let g : Grant := { from_ := { src := h.src, tile := from_, ctx := b.ctx, gen := b.gen }, queue := b.queue, credits := n, seq := 0 }
      let i := (firstBelow 256 (fun i => (tl.q.grants.find i).isNone)).getD 256
      let s := s.setTile t { tl with q := { tl.q with grants := tl.q.grants.put i g } }
      s.send { h := hdrBack h b.gen
               body := .grant { ref := { queue := b.queue, qinc := rq.qinc, ctx := b.ctx }, credits := n, kind := rq.kind,
                                op := rq.op, maxSize := (tl.handle rq.handle).slotSize, gen := tl.gen } }

/-- OPEN (R218). -/
def execOpenArrives (h : Hdr) (b : OpenBody) (s : State) : Out :=
  .next (s.landing { h := h, body := .openReq b } fun s =>
    match endpTile h.dst with | some t => s.openAt t h b | none => s)

/-- PROBE (R227): PEER_LOST under R216, CLOSED where queue, incarnation or record differ, else OK. -/
def execProbe (h : Hdr) (b : ProbeBody) (s : State) : Out :=
  .next (s.landing { h := h, body := .probe b } fun s =>
    match endpTile h.dst with
    | none => s
    | some t =>
      let tl := s.tile t
      let rq := tl.queue b.queue
      let code := if !tl.takes h.dstGen false then stPeerLost
        else if rq.state == 1 && rq.qinc == b.qinc && (tl.record b.queue (s.sourceTile h.src) b.ctx (some b.gen)).isSome then stOk
        else stClosed
      s.status h b.gen (.probe ⟨b.queue, b.qinc, b.ctx⟩) code)

/-- The record a CLOSE names. -/
def State.closeRecord (s : State) (t : TileId) (h : Hdr) (b : CloseBody) : Option (Nat × Grant) :=
  let tl := s.tile t
  if (tl.queue b.ref.queue).qinc = b.ref.qinc then tl.record b.ref.queue (s.sourceTile h.src) b.ref.ctx none else none

/-- SENDER_CLOSE (R224): the record ends once every message up to seq has landed; until then it waits. -/
def execSenderClose (h : Hdr) (b : CloseBody) (s : State) : Out :=
  .next (s.landing { h := h, body := .close 0 b } fun s =>
    match endpTile h.dst with
    | none => s
    | some t =>
      let tl := s.tile t
      if !tl.takes h.dstGen false then s.status h b.gen .closing stPeerLost
      else
        match s.closeRecord t h b with
        | none => s
        | some (i, g) =>
          if !((tl.queue g.queue).kind == 0) || g.seq == b.seq then s.setTile t (tl.endRecord i g false)
          else s.setTile t { tl with q := { tl.q with grants := tl.q.grants.put i { g with closing := some (b.seq, s.time) } } })

/-- READER_NOTICE (R225): an OPEN context on that connection becomes CLOSED with no credits; one that came over a fibre carries generation 0 (R287). -/
def execReaderNotice (h : Hdr) (b : CloseBody) (s : State) : Out :=
  .next (s.landing { h := h, body := .close 1 b } fun s =>
    match endpTile h.dst with
    | none => s
    | some t =>
      let tl := s.tile t
      if !tl.takes h.dstGen h.far.isSome then s.status h b.gen .closing stPeerLost
      else if tl.onConn h.src b.ref then s.ctxClosed t b.ref.ctx else s)

/-- CLOSE_AFTER_LOSS (R224): the record ends with a marker. -/
def execCloseAfterLoss (h : Hdr) (b : CloseBody) (s : State) : Out :=
  .next (s.landing { h := h, body := .close 2 b } fun s =>
    match endpTile h.dst with
    | none => s
    | some t =>
      let tl := s.tile t
      if !tl.takes h.dstGen false then s.status h b.gen .closing stPeerLost
      else
        match s.closeRecord t h b with
        | none => s
        | some (i, g) => s.setTile t (tl.endRecord i g true))

/-- Ticks a closing record waits for its missing messages (R224). -/
def recordWait : Nat := 250000

/-- RECORD_TIMEOUT (R224): a record still closing after 250,000 ticks ends with a marker and event 0x0585. -/
def execRecordTimeout (t : TileId) (r : Nat) (s : State) : Out :=
  let tl := s.tile t
  .next (match tl.q.grants.find r with
    | some g =>
      match g.closing with
      | some (seq, at_) =>
        if at_ + recordWait ≤ s.time then
          (s.setTile t (tl.endRecord r g true)).event (fieldOf t) 0x0585
            [tileDetail t, g.queue, tileDetail g.from_.tile, g.from_.ctx, (seq + 65536 - g.seq) % 65536]
        else s
      | none => s
    | none => s)

/-- GRANT (R219): the context becomes OPEN and qopen completes; a late grant is closed. -/
def execGrant (h : Hdr) (b : GrantBody) (s : State) : Out :=
  .next (s.landing { h := h, body := .grant b } fun s =>
    match endpTile h.dst with
    | none => s
    | some t =>
      let tl := s.tile t
      let c := b.ref.ctx
      let x := tl.ctx c
      if !tl.answerOk h || !(x.state == 1 && x.queue == b.ref.queue && x.hears h.src) then s
      else
        let x' : Ctx := { x with
          state := 2, credits := b.credits, granted := b.credits, kind := b.kind, op := b.op, maxSize := b.maxSize,
          qinc := b.ref.qinc, peerGen := b.gen, seq := 0, pos := 0, closePending := false }
        let s := s.setTile t (tl.setCtx c x')
        if x.closePending then
          (s.sendClose t c 0 0).modTile t (fun tl => tl.setCtx c { x' with state := 0, credits := 0 })
        else
          match tl.awaiting .qopen c with
          | some k => s.finish t k.a stOk c 4
          | none => s)

/-- CONNECTION_CREDIT (R223): credits return to an OPEN context, never beyond granted; others are discarded, and so is one that meets the connection's end at the tile (R237). -/
def execConnectionCredit (h : Hdr) (b : CreditBody) (s : State) : Out :=
  .next (s.landing { h := h, body := .credit b } fun s =>
    match endpTile h.dst with
    | none => s
    | some t =>
      let tl := s.tile t
      let x := tl.ctx b.ref.ctx
      if tl.answerOk h && tl.onConn h.src b.ref && x.peerGen == b.gen && !s.ending t b.ref.ctx true then
        s.setTile t (tl.setCtx b.ref.ctx { x with credits := satAdd x.granted x.credits b.count })
      else s)

/-- A message that fails order 2 or 3 of R222: dropped, counted, answered CLOSED. -/
def State.dropMessage (s : State) (t : TileId) (h : Hdr) (b : MsgBody) (order : Nat) : State :=
  let s := s.modTile t (fun tl => (tl.addDrop 1).setLost b.ref.queue)
  (s.event (fieldOf t) 0x0582 [tileDetail t, b.ref.queue, tileDetail (s.sourceTile h.src), order]).connStatus h b.gen b.ref stClosed

/-- A message that passes every check lands in the next ring slot (R222); a closing record that has its last message ends. -/
def State.landMessage (s : State) (t : TileId) (h : Hdr) (b : MsgBody) (i : Nat) (g : Grant) : State :=
  let tl := s.tile t
  let q := b.ref.queue
  let rq := tl.queue q
  let ring := tl.handle rq.handle
  let slot := (rq.ringHead + rq.msgs) % ring.length
  let g' := { g with seq := (g.seq + 1) % 65536 }
  let tl := tl.put (ring.slotAt slot) b.data
  let tl := tl.setQueue q { rq with entries := rq.entries ++ [.msg slot b.data.length g.from_ true] }
  let tl := { tl with q := { tl.q with grants := tl.q.grants.put i g' } }
  let tl := match g.closing with
    | some (seq, _) => if seq = g'.seq then tl.endRecord i g' false else tl
    | none => tl
  ((s.setTile t tl).queueSignal t q).connStatus h b.gen b.ref stOk

/-- MESSAGE (R222): checked in order and landed in the ring. -/
def execMessage (h : Hdr) (b : MsgBody) (s : State) : Out :=
  .next (s.landing { h := h, body := .message b } fun s =>
    match endpTile h.dst with
    | none => s
    | some t =>
      let tl := s.tile t
      let rq := tl.queue b.ref.queue
      if !tl.takes h.dstGen false then s.connStatus h b.gen b.ref stPeerLost
      else if !(rq.state == 1 && rq.qinc == b.ref.qinc && rq.kind == 0) then s.dropMessage t h b 2
      else
        match tl.record b.ref.queue (s.sourceTile h.src) b.ref.ctx (some b.gen) with
        | none => s.dropMessage t h b 3
        | some (i, g) =>
          if b.seq = g.seq then s.landMessage t h b i g
          else
            let s := s.modTile t (fun tl => ((tl.endRecord i g true).addDrop 1).setLost b.ref.queue)
            (s.event (fieldOf t) 0x0582 [tileDetail t, b.ref.queue, tileDetail g.from_.tile, 4]).connStatus h b.gen b.ref stClosed)

/-- COMBINE (R232): each contribution of the packet in order; a stale generation is answered PEER_LOST (R216). -/
def execCombine (h : Hdr) (cs : List Contribution) (s : State) : Out :=
  .next (s.landing { h := h, body := .combine cs } fun s =>
    match endpTile h.dst with
    | none => s
    | some t =>
      if !(s.tile t).takes h.dstGen false then cs.foldl (fun s k => s.combAnswer t k stPeerLost false) s
      else cs.foldl (fun s k => s.contribution t k) s)

/-- COMBINE_FOLD_DONE (R233): the fold at the head of the tile's fold engine finishes and its slot is done. -/
def execCombineFoldDone (t : TileId) (q slot : Nat) (s : State) : Out :=
  let tl := s.tile t
  .next (match tl.q.folds with
    | [] => s
    | f :: rest =>
      if f = (q, slot) then
        let o := (tl.handle (tl.queue q).handle).slotAt slot
        let tl := { tl with q := { tl.q with folds := rest } }
        let s := s.setTile t tl
        match tl.foldUe q o with
        | some u => s.ueFault t 12 u 0
        | none =>
          let s := ((tl.staged q o).foldl (fun s i => s.correct t ((tl.handle (tl.queue q).staging).slotAt 0 + 32 * i) 32) (s.correct t o 32)).served t 10 o
          (s.modTile t (fun tl => (tl.combFold q o).slotDone q slot o)).queueSignal t q
      else s)

/-- The control core and the field controller write RQ_CFG and RQ_COUNT (R213). -/
def coreOrFc : Writer → Bool
  | .core | .fc => true
  | .conductor | .hedgerow | .master | .host _ => false

/-- RQ_ENABLE (R211): an RQ_CFG write with enable 1. -/
def execRqEnable (t : TileId) (w : Writer) (q : Nat) (val : Word) (s : State) : Out :=
  .next (if coreOrFc w ∧ q < 8 then s.modTile t (fun tl => tl.rqCfg q (val ||| 0x80000000)) else s)

/-- RQ_DISABLE (R211): an RQ_CFG write with enable 0. -/
def execRqDisable (t : TileId) (w : Writer) (q : Nat) (val : Word) (s : State) : Out :=
  .next (if coreOrFc w ∧ q < 8 then s.modTile t (fun tl => tl.rqCfg q (val &&& 0x7FFFFFFF)) else s)

/-- The context a stream's credit stall waits on, and the tick the stall began (R227); stream 8 + i is the result that waits in steal-out entry i (R59). -/
def Tile.creditStall (tl : Tile) : Stream → Option (Nat × Nat)
  | .core =>
    match tl.core.stall with
    | some k => if k.op = .qsend ∧ k.wait = .cond ∧ (tl.ctx k.obj).credits = 0 then some (k.obj, k.since) else none
    | none => none
  | .engine e =>
    let of_ (u : FUnit) (at_ : Nat) : Option (Nat × Nat) :=
      let c := nbits (fieldAt u.desc 7 1) 7 4
      if nbit (fieldAt u.desc 3 1) 5 && (tl.ctx c).credits == 0 then some (c, at_) else none
    if 8 ≤ e then
      match tl.forage.out.find (e - 8) with
      | some x => if x.waiting.isSome then of_ x.unit x.since else none
      | none => none
    else
      match (tl.engine e).running with
      | some r => match r.stallSince with
        | some at_ => if r.unit.stolen.isNone then of_ r.unit at_ else none
        | none => none
      | none => none
  | .fire => none

/-- Ticks of the probe interval; a setting of 0 acts as 1 (R213). -/
def Tile.probeTicks (tl : Tile) : Nat := 64 * (if tl.q.probe = 0 then 1 else tl.q.probe)

/-- CONN_PROBE (R227): a probe interval of a credit stall has passed, and the sender sends an OPEN of op 1. -/
def execConnProbe (t : TileId) (st : Stream) (s : State) : Out :=
  let tl := s.tile t
  .next (match tl.creditStall st with
    | none => s
    | some (c, since) =>
      let x := tl.ctx c
      let last := match x.probeAt with | some p => if since < p then p else since | none => since
      if x.state = 2 ∧ last + tl.probeTicks ≤ s.run t then
        let s := s.setTile t (tl.setCtx c { x with probeAt := some (s.run t) })
        s.sendRequest t (s.connHdr t x x.peerGen) (.probe { ctx := c, queue := x.queue, gen := tl.gen, qinc := x.qinc })
      else s)

end Sys2Proof.Machine
end

