-- ==== Sys2Proof/Machine/Flags.lean ====
section
/-! DEFINITION. Every flag computation of the tile: the exception flags a conversion raises (R81, R82), and how a retiring unit's flags reach ARITH_FLAGS and ARITH_FIRST (R88, R89). -/

namespace Sys2Proof.Machine

/-- The rounding ARITH_MODE.round names; 2 and 3 act as 0 (R89). -/
def roundMode (m : Nat) : Rnd := if m = 1 then .zero else .even

/-- Convert a value to a floating format that is no MX element (R81); tz says that ARITH_MODE.round is toward zero, whose overflow rule holds under sr too (log entry 75). -/
def convertFloat (f : Fmt) (r : Rnd) (tz sat : Bool) : Num → Nat × Nat
  | .nan => (f.nanBits, 0)
  | .inf n => if f.special = 0 then (f.infBits n, 0) else if sat then (f.maxBits n, flSat) else (f.nanBits, 0)
  | .fin n m e =>
    if m = 0 then (f.pack n 0 0, 0)
    else
      let x := roundForm f.form r m e
      if x.overs then
        if tz || sat then (f.maxBits n, flOf + flNx + flSat)
        else (if f.special = 0 then f.infBits n else f.nanBits, flOf + flNx)
      else (f.pack n x.m x.q, x.flags)

/-- Convert one element of an MX block, already divided by its shared scale: an element beyond the largest finite value, before any rounding, saturates to it and sets sat (R82); of is not set (DESIGN CHOICE, log entry 78). -/
def convertMx (f : Fmt) (r : Rnd) : Num → Nat × Nat
  | .nan => (0, 0)
  | .inf n => (f.maxBits n, flSat)
  | .fin n m e =>
    if m = 0 then (f.pack n 0 0, 0)
    else if dyGt m e f.form.maxM f.form.maxE then (f.maxBits n, flSat + flNx)
    else
      let x := roundForm f.form r m e
      (f.pack n x.m x.q, x.flags)

/-- The shared exponent's emax of an MX element format (R82). -/
def mxEmax (code : Nat) : Nat := nth [8, 15, 4, 2, 2] (code - 8) 2

/-- The larger of two magnitudes, as exponents of their leading bits; none for zero. -/
def leadExp : Num → Option Int
  | .fin _ m e => if m = 0 then none else some (e + bitLen m - 1)
  | .nan | .inf _ => none

/-- The shared exponent X of a block (R82): all zero takes −127, an infinity 127, else floor(log2(amax)) − emax, held to −127 to 127. -/
def mxExponent (code : Nat) (vs : List Num) : Int :=
  if vs.any (fun v => v == .inf false || v == .inf true) then 127
  else
    match (vs.filterMap leadExp).max? with
    | none => -127
    | some l =>
      let x := l - mxEmax code
      if x < -127 then -127 else if 127 < x then 127 else x

/-- A value divided by 2^x. -/
def scaleDown (x : Int) : Num → Num
  | .nan => .nan
  | .inf n => .inf n
  | .fin n m e => .fin n m (e - x)

/-- Record a retiring unit's flags (R88, R89): ORed into ARITH_FLAGS; ARITH_FIRST takes the first unit that raises any while it is not valid, and of two in one cycle the one of the lower engine, a landing stolen result counting as engine 8. -/
def Arith.record (a : Arith) (unitId fl eng now : Nat) : Arith :=
  if fl = 0 then a
  else
    let a' := { a with flags := flor a.flags fl }
    if a.firstValid && !(a.firstAt == now && decide (eng < a.firstEng)) then a'
    else { a' with firstUnit := unitId, firstFlags := fl, firstValid := true, firstAt := now, firstEng := eng }

end Sys2Proof.Machine
end

