-- ==== Sys2Proof/Machine/UnitMath.lean ====
section
/-! DEFINITION. What a forage unit computes: descriptor fields (R48), operand layouts (R71 to R74, R96 to R98, R109, R110), metadata checks (R104, R112), the exact block dot product (R77 to R80), down-conversion (R81 to R86) and the row-bundle product (R111). -/

namespace Sys2Proof.Machine

/-! ## Descriptor fields (R48, R110) -/

/-- A forage descriptor's fields. -/
structure Desc where
  op : Nat
  aFmt : Nat
  bFmt : Nat
  out : Nat
  doneSig : Bool
  combine : Bool
  acc : Bool
  wide : Bool
  sr : Bool
  pinTile : Bool
  pinEngine : Bool
  a : Nat
  b : Nat
  c : Nat
  conn : Nat
  cell : Nat
  m : Nat
  n : Nat
  k : Nat
  aSlot : Nat
  bSlot : Nat
  cSlot : Nat
  salt : Nat
  nzFirst : Nat
  nzCount : Nat
  rowFirst : Nat
  rowSpan : Nat
  unitId : Nat
  deriving DecidableEq, Repr, Inhabited

/-- Read the fields of 32 descriptor bytes. An SPMV_RB unit's operands begin at slot 0 of a_slot's place: bytes 8 to 21 carry its segment (R110). -/
def descOf (d : List Byte) : Desc :=
  let f3 := fieldAt d 3 1
  let op := fieldAt d 0 1
  let rb := op == 4
  { op := op, aFmt := nbits (fieldAt d 1 1) 3 0, bFmt := nbits (fieldAt d 1 1) 7 4, out := nbits (fieldAt d 2 1) 3 0,
    doneSig := nbit f3 6, combine := nbit f3 5, acc := nbit f3 4, wide := nbit f3 3, sr := nbit f3 2,
    pinTile := nbit f3 1, pinEngine := nbit f3 0,
    a := nbits (fieldAt d 4 1) 5 0, b := nbits (fieldAt d 5 1) 5 0, c := nbits (fieldAt d 6 1) 5 0,
    conn := nbits (fieldAt d 7 1) 7 4, cell := nbits (fieldAt d 7 1) 3 0,
    m := fieldAt d 8 2, n := fieldAt d 10 2, k := fieldAt d 12 2,
    aSlot := if rb then 0 else fieldAt d 14 2, bSlot := if rb then 0 else fieldAt d 16 2,
    cSlot := if rb then 0 else fieldAt d 18 2, salt := fieldAt d 20 2,
    nzFirst := fieldAt d 8 4, nzCount := fieldAt d 12 2, rowFirst := fieldAt d 14 2, rowSpan := fieldAt d 16 2,
    unitId := fieldAt d 30 2 }

/-- Width of an element in bits (R68). -/
def elemBits (fmt : Nat) : Nat := nth [32, 16, 16, 8, 8, 8, 32, 64, 8, 8, 6, 6, 4] fmt 8

/-- An MX format (R68). -/
def isMx (fmt : Nat) : Bool := decide (8 ≤ fmt) && decide (fmt ≤ 12)

/-- Bytes of an MX block (R72). -/
def mxBlock (fmt : Nat) : Nat := 4 * elemBits fmt

/-- Bytes of an MX group (R72). -/
def mxGroup (fmt : Nat) : Nat := 32 + 32 * mxBlock fmt

/-- Bytes that n elements of a format occupy as an operand in operand order (R71, R72). -/
def denseBytes (fmt n : Nat) : Nat :=
  if isMx fmt then
    let nb := cdiv n 32
    let rest := nb % 32
    nb / 32 * mxGroup fmt + (if rest = 0 then 0 else 32 + rest * mxBlock fmt)
  else n * elemBits fmt / 8

/-- Bytes of a structured block record (R96). -/
def recordBytes (fmt : Nat) : Nat := if fmt = 12 then 8 else if elemBits fmt = 16 then 24 else 16

/-- Bytes of a structured A operand (R97, R98). -/
def structBytes (fmt m k : Nat) : Nat :=
  if isMx fmt then m / 4 * (k / 32) * (16 + 8 * recordBytes fmt) else m * k / 16 * recordBytes fmt

/-- Bytes of A. A row-bundle operand may use the whole of its handle. -/
def Desc.aBytes (d : Desc) (room : Nat) : Nat :=
  if d.op = 1 then denseBytes d.aFmt (d.m * d.k)
  else if d.op = 2 ∨ d.op = 3 then structBytes d.aFmt d.m d.k
  else if d.op = 4 then room
  else denseBytes d.aFmt d.k

/-- Bytes of B; x of a row bundle may use the whole of its handle. -/
def Desc.bBytes (d : Desc) (room : Nat) : Nat :=
  if d.op = 4 then room else if d.op = 5 ∨ d.op = 6 then 0 else denseBytes d.bFmt (d.n * d.k)

/-- Elements of C. -/
def Desc.cElems (d : Desc) : Nat :=
  if d.op = 4 then d.rowSpan else if d.op = 5 then d.k else if d.op = 6 then 1 else d.m * d.n

/-- Bytes of C. -/
def Desc.cBytes (d : Desc) : Nat := denseBytes d.out d.cElems

/-- An integer unit: its A is INT8 or INT32 (R75, R86). -/
def Desc.isInt (d : Desc) : Bool := d.aFmt == 5 || d.aFmt == 6

/-! ## Elements -/

/-- The bits of element i of a block of a sub-byte or byte format at offset o (R71). -/
def packedElem (fmt : Nat) (bs : List Byte) (o i : Nat) : Nat :=
  if elemBits fmt = 4 then nbits (fieldAt bs (o + i / 2) 1) (4 * (i % 2) + 3) (4 * (i % 2))
  else if elemBits fmt = 6 then nbits (fieldAt bs (o + 3 * (i / 4)) 3) (6 * (i % 4) + 5) (6 * (i % 4))
  else fieldAt bs (o + i) 1

/-- A value under a shared scale (R73): a scale of 0xFF is NaN. -/
def scaled (sc : Nat) (v : Num) : Num :=
  if sc = 0xFF then .nan
  else match v with
    | .nan => .nan
    | .inf n => .inf n
    | .fin n m e => .fin n m (e + sc - 127)

/-- Element i of a floating operand (R69, R72). -/
def floatElem (fmt : Nat) (bs : List Byte) (i : Nat) : Num :=
  if isMx fmt then
    let blk := i / 32
    let g := blk / 32 * mxGroup fmt
    scaled (fieldAt bs (g + blk % 32) 1)
      ((elemFmt fmt).decode (packedElem fmt bs (g + 32 + blk % 32 * mxBlock fmt) (i % 32)))
  else if fmt = 7 then decodeWide (fieldAt bs (8 * i) 8)
  else (elemFmt fmt).decode (fieldAt bs (elemBits fmt / 8 * i) (elemBits fmt / 8))

/-- Element i of an integer operand. -/
def intElem (fmt : Nat) (bs : List Byte) (i : Nat) : Int :=
  if fmt = 6 then sext 32 (fieldAt bs (4 * i) 4) else sext 8 (fieldAt bs i 1)

/-- Bits set in the low n bits. -/
def popcount (n w : Nat) : Nat := (upto w).foldl (fun a i => a + b2n (nbit w i && decide (i < n))) 0

/-- Offset of the record of a stored block, and of its strip's scale byte (R97, R98): (i, t) in the unit's own orientation. -/
def structAt (d : Desc) (i t : Nat) : Nat × Option Nat :=
  let rs := recordBytes d.aFmt
  if isMx d.aFmt then
    let strip := (i / 4 * (d.k / 32) + t / 32) * (16 + 8 * rs)
    (strip + 16 + t / 4 % 8 * rs, some (strip + i % 4))
  else if d.op = 3 then ((t / 4 * (d.m / 4) + i / 4) * rs, none)
  else ((i / 4 * (d.k / 4) + t / 4) * rs, none)

/-- The bitmap position of (i, t) within its stored block (R94, R99). -/
def structBit (d : Desc) (i t : Nat) : Nat := if d.op = 3 then 4 * (t % 4) + i % 4 else 4 * (i % 4) + t % 4

/-- The bits of element (i, t) of a structured A on its expansion: 0 where the bitmap is clear (R100). -/
def structElemBits (d : Desc) (bs : List Byte) (i t : Nat) : Nat :=
  let o := (structAt d i t).1
  let map := fieldAt bs o 2
  let pos := structBit d i t
  if nbit map pos then
    let sl := total ((upto pos).map (fun j => b2n (nbit map j)))
    if elemBits d.aFmt = 16 then fieldAt bs (o + 4 + 2 * sl) 2 else packedElem d.aFmt bs (o + 4) sl
  else 0

/-- Element (i, t) of A as a float. -/
def aFloat (d : Desc) (bs : List Byte) (i t : Nat) : Num :=
  if d.op = 2 ∨ d.op = 3 then
    let v := (elemFmt d.aFmt).decode (structElemBits d bs i t)
    match (structAt d i t).2 with
    | some sc => scaled (fieldAt bs sc 1) v
    | none => v
  else floatElem d.aFmt bs (i * d.k + t)

/-- Element (i, t) of A as an integer. -/
def aInt (d : Desc) (bs : List Byte) (i t : Nat) : Int :=
  if d.op = 2 ∨ d.op = 3 then sext 8 (structElemBits d bs i t) else intElem d.aFmt bs (i * d.k + t)

/-! ## Accumulation (R77 to R80) -/

/-- An accumulator: floating or INT32. -/
inductive Accum where
  | flt (v : Num)
  | int (v : Int)
  deriving DecidableEq, Repr, Inhabited

/-- Round into the accumulator form (R77). -/
def roundAcc (wide : Bool) (r : Rnd) (v : Num) : Num × Nat := if wide then accWide r v else accF32 r v

/-- One block of a floating unit: the exact sum of the products and the accumulator, rounded once. -/
def blockFloat (wide : Bool) (r : Rnd) (acc : Num) (ps : List (Num × Num)) : Num × Nat :=
  let prods := ps.map (fun p => exactMul p.1 p.2)
  let fl := prods.foldl (fun f p => flor f p.2) 0
  let fl := if ps.any (fun p => p.1 == .nan || p.2 == .nan) then flor fl flNan else fl
  let vs := prods.map (fun p => p.1)
  let fl := if vs.any (fun v => v == .inf false) && vs.any (fun v => v == .inf true) then flor fl flNv else fl
  if acc == .nan then (.nan, fl)
  else
    let s := exactSum (acc :: vs)
    let x := roundAcc wide r s.1
    (x.1, flor (flor fl s.2) x.2)

/-- One block of an integer unit: the exact sum added with saturation (R79). -/
def blockInt (acc s : Int) : Int × Nat :=
  let c := clampI32 (acc + s)
  (c.1, if c.2 then flIov else 0)

/-- Blocks of a row of k terms: block b holds terms 32b to 32b + 31 below k (R74). -/
def blockTerms (k b : Nat) : List Nat := (upto 32).filterMap (fun e => if 32 * b + e < k then some (32 * b + e) else none)

/-- Accumulate a row of k terms given as functions of t. -/
def accumulate (int wide : Bool) (r : Rnd) (acc : Accum) (blocks : List (List Nat))
    (fa fb : Nat → Num) (ia ib : Nat → Int) : Accum × Nat :=
  blocks.foldl (fun st ts =>
    match st.1 with
    | .flt v =>
      let x := blockFloat wide r v (ts.map (fun t => (fa t, fb t)))
      (.flt x.1, flor st.2 x.2)
    | .int v =>
      let x := blockInt v (ts.foldl (fun s t => s + ia t * ib t) 0)
      (.int x.1, flor st.2 x.2)) (if int then (match acc with | .int v => (.int v, 0) | .flt _ => (.int 0, 0)) else (acc, 0))

/-- The accumulator's start: C read exactly under accumulate (R80), else +0. -/
def startAcc (d : Desc) (cb : List Byte) (j : Nat) : Accum × Nat :=
  if d.isInt then (.int (if d.acc then intElem d.out cb j else 0), 0)
  else if d.acc then
    let v := floatElem d.out cb j
    (.flt v, if v == .nan then flNan else 0)
  else (.flt (.fin false 0 0), 0)

/-- 1, as the second factor of a REDUCE or CONVERT term. -/
def one : Num := .fin false 1 0

/-- Offsets array entry of a row bundle (R109). -/
def rbOffset (ab : List Byte) (r : Nat) : Nat := fieldAt ab (fieldAt ab 12 4 + 4 * r) 4

/-- Column index of a non-zero. -/
def rbIndex (ab : List Byte) (z : Nat) : Nat := fieldAt ab (fieldAt ab 16 4 + 4 * z) 4

/-- The non-zeros of a segment in row row_first + j, cut into the blocks of R111. -/
def rbBlocks (d : Desc) (ab : List Byte) (j : Nat) : List (List Nat) :=
  let lo := rbOffset ab (d.rowFirst + j)
  let hi := rbOffset ab (d.rowFirst + j + 1)
  let zs := (upto d.nzCount).filterMap (fun i =>
    let z := d.nzFirst + i
    if lo ≤ z ∧ z < hi then some z else none)
  let bs := (zs.map (fun z => (z - lo) / 32)).foldl insertNat []
  bs.map (fun b => zs.filter (fun z => (z - lo) / 32 == b))

/-- The accumulator of output element j, with the flags raised on the way. -/
def unitAcc (d : Desc) (r : Rnd) (ab bb cb : List Byte) (j : Nat) : Accum × Nat :=
  let st := startAcc d cb j
  let res :=
    if d.op = 4 then
      let vals := ab.drop (fieldAt ab 20 4)
      accumulate d.isInt d.wide r st.1 (rbBlocks d ab j)
        (fun z => floatElem d.aFmt vals z) (fun z => floatElem d.bFmt bb (rbIndex ab z))
        (fun z => intElem d.aFmt vals z) (fun z => intElem d.bFmt bb (rbIndex ab z))
    else if d.op = 6 then
      accumulate d.isInt d.wide r st.1 ((upto (cdiv d.k 32)).map (blockTerms d.k))
        (floatElem d.aFmt ab) (fun _ => one) (intElem d.aFmt ab) (fun _ => 1)
    else if d.op = 5 then
      if d.isInt then
        let v := intElem d.aFmt ab j
        (.int v, 0)
      else
        let v := floatElem d.aFmt ab j
        (.flt v, if v == .nan then flNan else 0)
    else
      let i := j / d.n
      let col := j % d.n
      accumulate d.isInt d.wide r st.1 ((upto (cdiv d.k 32)).map (blockTerms d.k))
        (aFloat d ab i) (fun t => floatElem d.bFmt bb (col * d.k + t))
        (aInt d ab i) (fun t => intElem d.bFmt bb (col * d.k + t))
  (res.1, flor st.2 res.2)

/-! ## Down-conversion (R81 to R86) -/

/-- Every finite value of format a is a value of format o (R86). -/
def holdsAll (a o : Nat) : Bool :=
  if isMx o then false
  else if o = 7 then true
  else if a = 7 then false
  else
    let fa := elemFmt a
    let fo := elemFmt o
    !isMx a && decide (fa.mb ≤ fo.mb) && !dyGt fa.form.maxM fa.form.maxE fo.form.maxM fo.form.maxE &&
      decide (fo.form.qmin ≤ fa.form.qmin)

/-- The unit draws (R81, R84, R86): sr is set and its conversion is stochastic. -/
def Desc.draws (d : Desc) : Bool :=
  d.sr && !d.isInt &&
    (if d.op = 5 then !holdsAll d.aFmt d.out
     else if d.wide then !(d.out == 7) else !(d.out == 0))

/-- The generator's state at a unit's start (R83). -/
def srStart (seed salt : Nat) : Nat :=
  let s := seed % 65536 * 65536 + salt % 65536
  if s = 0 then 0x6D2B79F5 else s

/-- One step of the generator (R84). -/
def srStep (s : Nat) : Nat :=
  let s := (s ^^^ (s * 2 ^ 13)) % 2 ^ 32
  let s := s ^^^ (s / 2 ^ 17)
  (s ^^^ (s * 2 ^ 5)) % 2 ^ 32

/-- The first n draws: 24 random bits each (R84). -/
def srDraws : Nat → Nat → List Nat
  | 0, _ => []
  | n + 1, s => let s' := srStep s; (s' / 2 ^ 8) :: srDraws n s'

/-- Convert one accumulator to a destination that is no MX format (R79, R81, R86). -/
def convertOne (d : Desc) (r : Rnd) (tz sat : Bool) : Accum → Nat × Nat
  | .int v =>
    if d.out = 5 then
      let c : Int := if 127 < v then 127 else if v < -128 then -128 else v
      (intBits 8 c, if c = v then 0 else flOf + flNx + flSat)
    else if d.out = 6 then (intBits 32 v, 0)
    else convertFloat (elemFmt d.out) r tz sat (.fin (decide (v < 0)) v.natAbs 0)
  | .flt v =>
    if d.out = 7 then
      let x := accWide r v
      (packWide x.1, x.2)
    else if d.out = 0 ∧ !d.wide ∧ !(d.op == 5) then (packF32 v, 0)
    else convertFloat (elemFmt d.out) r tz sat v

/-- The value of an accumulator. -/
def Accum.num : Accum → Num
  | .flt v => v
  | .int v => .fin (decide (v < 0)) v.natAbs 0

/-- Write a sub-byte or byte element into a block's bytes (R71). -/
def packElems (fmt : Nat) (es : List Nat) : List Byte :=
  let w := elemBits fmt
  natLe (4 * w) ((es.zip (upto 32)).foldl (fun a p => a + p.1 * 2 ^ (w * p.2)) 0)

/-- One MX block of at most 32 values (R82): scale byte, block bytes, flags. -/
def mxConvert (fmt : Nat) (rs : List Rnd) (vs : List Num) : Nat × List Byte × Nat :=
  if vs.any (fun v => v == .nan) then (0xFF, packElems fmt [], 0)
  else
    let x := mxExponent fmt vs
    let es := (vs.zip rs).map (fun p => convertMx (elemFmt fmt) p.2 (scaleDown x p.1))
    ((x + 127).toNat, packElems fmt (es.map (fun e => e.1)), es.foldl (fun f e => flor f e.2) 0)

/-- Take a list in pieces of 32. -/
def chunks {α : Type} : Nat → List α → List (List α)
  | 0, _ => []
  | n + 1, l => if l.isEmpty then [] else l.take 32 :: chunks n (l.drop 32)

/-- A unit's result: element bits in out_fmt (for contributions), the destination bytes in order, and the flags. -/
structure UnitOut where
  elems : List Nat
  bytes : List Byte
  flags : Nat
  deriving DecidableEq, Repr, Inhabited

/-- Lay MX blocks out in groups (R72). -/
def mxLayout (fmt : Nat) (bl : List (Nat × List Byte × Nat)) : List Byte :=
  (upto (cdiv bl.length 32)).flatMap (fun g =>
    let part := (bl.drop (32 * g)).take 32
    let sc := part.map (fun b => BitVec.ofNat 8 b.1)
    sc ++ List.replicate (32 - sc.length) 0 ++ part.flatMap (fun b => bytesAt b.2.1 0 (mxBlock fmt)))

/-- What a unit computes from its operands, the mode of its home tile and the seed (R77 to R86, R90, R111). -/
def unitResult (d : Desc) (round : Nat) (sat : Bool) (seed : Nat) (ab bb cb : List Byte) : UnitOut :=
  let r := roundMode round
  let n := d.cElems
  let accs := (upto n).map (unitAcc d r ab bb cb)
  let rs := if d.draws then (srDraws n (srStart seed d.salt)).map Rnd.draw else List.replicate n r
  let fl := accs.foldl (fun f a => flor f a.2) 0
  if isMx d.out then
    let bl := (chunks n (accs.map (fun a => a.1.num) |>.zip rs)).map (fun c => mxConvert d.out (c.map (fun p => p.2)) (c.map (fun p => p.1)))
    { elems := [], bytes := mxLayout d.out bl, flags := bl.foldl (fun f b => flor f b.2.2) fl }
  else
    let es := (accs.zip rs).map (fun p => convertOne d p.2 (round == 1) sat p.1.1)
    { elems := es.map (fun e => e.1)
      bytes := es.flatMap (fun e => natLe (elemBits d.out / 8) e.1)
      flags := es.foldl (fun f e => flor f e.2) fl }

/-! ## Metadata checks -/

/-- The first failing check of one record: code and detail byte (R104, R107). -/
def recordFail (fmt : Nat) (bs : List Byte) (o : Nat) : Option (Nat × Nat) :=
  let map := fieldAt bs o 2
  let cb := fieldAt bs (o + 2) 1
  let count := cb % 16
  let row (r : Nat) := total ((upto 4).map (fun c => b2n (nbit map (4 * r + c))))
  let col (c : Nat) := total ((upto 4).map (fun r => b2n (nbit map (4 * r + c))))
  let pop := total ((upto 16).map (fun i => b2n (nbit map i)))
  let slotOf (i : Nat) := if elemBits fmt = 16 then fieldAt bs (o + 4 + 2 * i) 2 else packedElem fmt bs (o + 4) i
  let padAt := 4 + elemBits fmt
  if !(cb / 16 == 0) then some (0x0205, 2)
  else if !(fieldAt bs (o + 3) 1 == 0) then some (0x0205, 3)
  else match firstBelow 4 (fun r => decide (2 < row r)) with
    | some r => some (0x0201, r)
    | none => match firstBelow 4 (fun c => decide (2 < col c)) with
      | some c => some (0x0202, c)
      | none =>
        if !(pop == count) then some (0x0203, pop % 16 * 16 + count)
        else match firstBelow 8 (fun i => decide (count ≤ i) && !(slotOf i == 0)) with
          | some i => some (0x0204, i)
          | none => (firstBelow (recordBytes fmt - padAt) (fun i => !(fieldAt bs (o + padAt + i) 1 == 0))).map (fun i => (0x0204, 8 + i))

/-- Check a structured operand in storage order (R104): the failing block (mb, kb) in the unit's orientation, code and detail. A strip header lies before eight blocks; its failure names the first of them (DESIGN CHOICE, log entry 78). -/
def structFail (d : Desc) (bs : List Byte) : Option (Nat × Nat × Nat × Nat) :=
  let rs := recordBytes d.aFmt
  if isMx d.aFmt then
    (upto (d.m / 4 * (d.k / 32))).findSome? (fun v =>
      let strip := v * (16 + 8 * rs)
      let mb := v / (d.k / 32)
      let kb := v % (d.k / 32) * 8
      match firstBelow 12 (fun i => !(fieldAt bs (strip + 4 + i) 1 == 0)) with
      | some i => some (mb, kb, 0x0205, 0x80 + 4 + i)
      | none => (upto 8).findSome? (fun q => (recordFail d.aFmt bs (strip + 16 + q * rs)).map (fun f => (mb, kb + q, f.1, f.2))))
  else
    (upto (d.m * d.k / 16)).findSome? (fun n =>
      let cols := if d.op = 3 then d.m / 4 else d.k / 4
      (recordFail d.aFmt bs (n * rs)).map (fun f =>
        if d.op = 3 then (n % cols, n / cols, f.1, f.2) else (n / cols, n % cols, f.1, f.2)))

/-- Check a row-bundle operand in order (R112): code, position for INFO0 and detail byte for INFO1. aLen and bLen are the bytes to the end of each handle. -/
def rbFail (d : Desc) (ab : List Byte) (aLen bLen : Nat) : Option (Nat × Nat × Nat) :=
  let rows := fieldAt ab 0 4
  let cols := fieldAt ab 4 4
  let nnz := fieldAt ab 8 4
  let offAt := fieldAt ab 12 4
  let idxAt := fieldAt ab 16 4
  let valAt := fieldAt ab 20 4
  let w := elemBits d.aFmt / 8
  let off (i : Nat) := rbOffset ab (d.rowFirst + i)
  let last := d.nzFirst + d.nzCount - 1
  if !(fieldAt ab 24 8 == 0) then some (0x0206, 0, 24)
  else
    if !(offAt % 4 == 0) then some (0x0206, 0, 12)
    else if !(idxAt % 4 == 0) then some (0x0206, 0, 16)
    else if !(valAt % w == 0) then some (0x0206, 0, 20)
    else if aLen < offAt + 4 * (rows + 1) then some (0x0206, 0, 12)
    else if aLen < idxAt + 4 * nnz then some (0x0206, 0, 16)
    else if aLen < valAt + w * nnz then some (0x0206, 0, 20)
    else if bLen < cols * (elemBits d.bFmt / 8) then some (0x0206, 0, 0xFF)
    else if rows < d.rowFirst + d.rowSpan then some (0x0207, 0, 0)
    else
      match (upto (d.rowSpan + 1)).find? (fun i => decide (nnz < off i) || (!(i == 0) && decide (off i < off (i - 1)))) with
      | some i => some (0x0207, i, 0)
      | none =>
        if !(decide (off 0 ≤ d.nzFirst) && decide (d.nzFirst < off 1)) || decide (nnz < d.nzFirst + d.nzCount) ||
            !(decide (off (d.rowSpan - 1) ≤ last) && decide (last < off d.rowSpan)) then some (0x0208, 0, 0)
        else ((upto d.nzCount).find? (fun i => decide (cols ≤ rbIndex ab (d.nzFirst + i)))).map (fun i => (0x0209, i, 0))

/-! ## Rates and cycles -/

/-- Rate of an operand format (R76). -/
def rate (fmt : Nat) : Nat := nth [1, 4, 4, 8, 8, 8, 1, 1, 8, 8, 8, 8, 16] fmt 1

/-- Accumulate cycles of a unit (R50, R86, R101; the least count of R113). -/
def Desc.cycles (d : Desc) : Nat :=
  let r := if rate d.aFmt ≤ rate d.bFmt then rate d.aFmt else rate d.bFmt
  if d.op = 1 then d.m * d.n * cdiv d.k 32 * (32 / r)
  else if d.op = 2 ∨ d.op = 3 then d.m * d.n * cdiv d.k 32 * (16 / r)
  else if d.op = 4 then cdiv d.nzCount 4 + d.rowSpan
  else if d.op = 5 then cdiv d.k 32
  else cdiv d.k 32 * (32 / rate d.aFmt)

end Sys2Proof.Machine
end

