-- ==== Sys2Proof/Machine/ForageUnit.lean ====
section
/-! DEFINITION. The forage queue's shared operations: descriptor checks at push (R48, R49, R75, R95, R110), deques, readiness (R51), and how a unit ends (R51, R52, R54, R130 to R132). -/

namespace Sys2Proof.Machine

/-! ## Checks at push (R48) -/

/-- How a push fails: BAD_DESCRIPTOR, or BAD_HANDLE with the handle number. -/
inductive PushFail where
  | descriptor
  | handle (h : Nat)
  deriving DecidableEq, Repr, Inhabited

/-- The handles of a descriptor in the order they are checked (R48). -/
def Desc.handles (d : Desc) : List Nat := [d.a] ++ (if d.op = 5 ∨ d.op = 6 then [] else [d.b]) ++ [d.c]

/-- Stage 1, form: reserved codes and bits, byte 7, and the shape limits of R49 and R110. -/
def formOk (bs : List Byte) : Bool :=
  let d := descOf bs
  let rsv := fieldAt bs 2 1 / 16 == 0 && !nbit (fieldAt bs 3 1) 7 && decide (fieldAt bs 4 1 < 64) &&
    decide (fieldAt bs 5 1 < 64) && decide (fieldAt bs 6 1 < 64) && fieldAt bs 22 2 == 0
  let fmts := decide (d.aFmt ≤ 12) && decide (d.bFmt ≤ 12) && decide (d.out ≤ 12)
  let byte7 := (d.combine || d.conn == 0) && !(d.doneSig && d.pinEngine) &&
    (if d.pinEngine then decide (d.cell < 8) else d.doneSig || d.cell == 0)
  let shape :=
    if d.op ≤ 3 then within 1 256 d.m && within 1 256 d.n && within 4 4096 d.k && d.k % 4 == 0 &&
      (!(isMx d.aFmt || isMx d.bFmt) || d.k % 32 == 0)
    else if d.op = 4 then within 1 256 d.nzCount && within 1 4096 d.rowSpan && fieldAt bs 18 2 == 0
    else d.m == 1 && d.n == 1 && decide (1 ≤ d.k)
  within 1 6 d.op && rsv && fmts && byte7 && shape && (!(d.op == 5 || d.op == 6) || d.b == 0)

/-- A floating format code (R68). -/
def isFloatFmt (f : Nat) : Bool := decide (f ≤ 4) || isMx f

/-- The format combinations of R75, R86, R95 and R109. -/
def combosOk (d : Desc) : Bool :=
  let pair := (isFloatFmt d.aFmt && isFloatFmt d.bFmt) || (d.aFmt == 5 && d.bFmt == 5)
  let dest :=
    if d.isInt then (d.out == 6 || d.out == 5) && !d.wide
    else (isFloatFmt d.out || (d.out == 7 && d.wide)) && (!d.acc || !isMx d.out)
  if d.op ≤ 4 then
    pair && dest &&
      (if d.op = 2 then d.m % 4 == 0 && [1, 2, 3, 4, 5, 8, 9, 12].contains d.aFmt
       else if d.op = 3 then d.m % 4 == 0 && [1, 2, 3, 4, 5].contains d.aFmt
       else if d.op = 4 then decide (d.aFmt ≤ 5) && !isMx d.bFmt else true)
  else if d.op = 5 then
    d.bFmt == 0 && !d.wide && !d.acc &&
      ((!d.isInt && (isFloatFmt d.out || d.out == 7)) || (d.aFmt == 5 && (d.out == 6 || d.out == 0)) ||
        (d.aFmt == 6 && (d.out == 5 || d.out == 0)))
  else
    d.bFmt == 0 &&
      (if d.isInt then (d.out == 6 || d.out == 5) && !d.wide else decide (d.out ≤ 4) || (d.out == 7 && d.wide))

/-- A dense MX operand's first slot lies at a multiple of its group (R72). The spec does not say what another first slot does; fpush refuses it with BAD_DESCRIPTOR (DESIGN CHOICE, log entry 78). -/
def mxAligned (fmt : Nat) (h : Handle) (sl : Nat) : Bool := !isMx fmt || (sl * h.slotBytes) % mxGroup fmt == 0

/-- n bytes from a slot fit their handle (R49). -/
def fits (h : Handle) (sl n : Nat) : Bool := decide (sl * h.slotBytes + n ≤ h.extent)

/-- Stage 3, fit: formats against the handles, combinations, extents, and the combine connection. c_handle is checked under combine too (DESIGN CHOICE, log entry 78). -/
def Tile.fitOk (tl : Tile) (d : Desc) : Bool :=
  let ha := tl.handle d.a
  let hb := tl.handle d.b
  let hc := tl.handle d.c
  let useB := decide (d.op ≤ 4)
  let x := tl.ctx d.conn
  ha.format == d.aFmt && (!useB || hb.format == d.bFmt) && hc.format == d.out && combosOk d &&
    fits ha d.aSlot (if d.op = 4 then 32 else d.aBytes 0) && (!useB || d.op == 4 || fits hb d.bSlot (d.bBytes 0)) &&
    fits hc d.cSlot d.cBytes &&
    (d.op == 2 || d.op == 3 || d.op == 4 || mxAligned d.aFmt ha d.aSlot) && (!useB || mxAligned d.bFmt hb d.bSlot) &&
    mxAligned d.out hc d.cSlot &&
    (!d.combine || (x.state == 2 && !(x.kind == 0) && d.out == nth [0, 1, 6, 0] x.op 0))

/-- The checks of fpush after its operand checks, in three stages (R48); none where the descriptor is accepted. -/
def Tile.pushFail (tl : Tile) (bs : List Byte) : Option PushFail :=
  let d := descOf bs
  if !formOk bs then some .descriptor
  else
    match d.handles.find? (fun h => !(tl.handle h).valid) with
    | some h => some (.handle h)
    | none => if tl.fitOk d then none else some .descriptor

/-! ## Deques -/

/-- Units queued on an engine. -/
def Tile.occ (tl : Tile) (e : Nat) : Nat := (tl.engine e).deque.length

/-- The shortest deque, lowest number on a tie (R46). -/
def Tile.shortest (tl : Tile) : Nat := (upto 8).foldl (fun b e => if tl.occ e < tl.occ b then e else b) 0

/-- The deque a push goes to: the pinned engine's, else the one selected, 8 being the shortest (R46). -/
def Tile.dequeFor (tl : Tile) (d : Desc) (sel : Nat) : Nat :=
  if d.pinEngine then d.cell else if sel = 8 then tl.shortest else sel

/-- Append a unit to a deque in a cycle. fpush looks for room first; a unit that comes back, or that fsteal brings, may be a deque's 17th (DESIGN CHOICE, log entry 78). -/
def Tile.enqueue (tl : Tile) (e : Nat) (u : FUnit) (now : Nat) : Tile :=
  let g := tl.engine e
  tl.setEngine e { g with deque := g.deque ++ [u], pushedAt := some now }

/-- The last unit of a deque. -/
def Tile.tail (tl : Tile) (e : Nat) : Option FUnit := (tl.engine e).deque.getLast?

/-- The tail unit leaves its deque (R55, R58): an emptied deque has no stalled head, and its engine may become idle (R38, R57). -/
def Tile.popTail (tl : Tile) (e now : Nat) : Tile :=
  let g := tl.engine e
  let d := g.deque.dropLast
  tl.setEngine e { g with
    deque := d
    headSince := if d.isEmpty then none else g.headSince
    idleSince := if d.isEmpty && g.running.isNone then now else g.idleSince }

/-- The unit that a push makes of a descriptor: bytes 24 to 31 written, the connection it holds at push kept (R48, R221). -/
def Tile.makeUnit (tl : Tile) (t : TileId) (bs : List Byte) (firing : Option (Nat × Nat)) : FUnit :=
  let id := tl.forage.unitId % 65536
  let d := descOf bs
  let x := tl.ctx d.conn
  { desc := bytesAt bs 0 24 ++ natLe 4 (t.y * 1024 + t.x) ++ natLe 2 tl.gen ++ natLe 2 id
    unitId := id, home := t, homeGen := tl.gen, firing := firing
    conn := if d.combine then some (x.peer, x.queue, x.qinc) else none, stolen := none }

/-- Push an accepted descriptor on a deque that has room (R48). -/
def Tile.push (tl : Tile) (t : TileId) (bs : List Byte) (e : Nat) (firing : Option (Nat × Nat)) (now : Nat) : Tile :=
  let u := tl.makeUnit t bs firing
  let tl := tl.enqueue e u now
  { tl with forage := { tl.forage with unitId := (tl.forage.unitId + 1) % 65536 } }

/-- FORAGE_STATUS.outstanding (R66). -/
def Tile.outstanding (tl : Tile) : Nat := tl.ownUnits.length

/-! ## Readiness and operands -/

/-- Slots that n bytes from a slot cover. -/
def slotSpan (h : Handle) (n : Nat) : Nat := cdiv n h.slotBytes

/-- Bytes from a slot to the end of a handle. -/
def roomFrom (h : Handle) (sl : Nat) : Nat := h.extent - sl * h.slotBytes

/-- Offset and length of operand which (0 A, 1 B, 2 C) of a unit at its home; a row-bundle operand may use the whole of its handle. -/
def Tile.operandSpan (tl : Tile) (d : Desc) (which : Nat) : Nat × Nat :=
  if which = 0 then
    let h := tl.handle d.a
    (h.slotAt d.aSlot, d.aBytes (roomFrom h d.aSlot))
  else if which = 1 then
    let h := tl.handle d.b
    (h.slotAt d.bSlot, d.bBytes (roomFrom h d.bSlot))
  else
    let h := tl.handle d.c
    (h.slotAt d.cSlot, if d.acc then d.cBytes else 0)

/-- The handle of an operand. -/
def Tile.operandHandle (tl : Tile) (d : Desc) (which : Nat) : Handle := tl.handle (if which = 0 then d.a else if which = 1 then d.b else d.c)

/-- The operands a unit has: A, B unless CONVERT or REDUCE, C when it accumulates (R48). -/
def Desc.operands (d : Desc) : List Nat := [0] ++ (if d.op ≤ 4 then [1] else []) ++ (if d.acc then [2] else [])

/-- The parts of A that a row-bundle segment reads, by offset in A: the header, its rows' offsets, and its non-zeros' indices and values (R109 to R111). -/
def rbParts (d : Desc) (ab : List Byte) : List (Nat × Nat) :=
  let w := elemBits d.aFmt / 8
  [(0, 32), (fieldAt ab 12 4 + 4 * d.rowFirst, 4 * (d.rowSpan + 1)), (fieldAt ab 16 4 + 4 * d.nzFirst, 4 * d.nzCount),
    (fieldAt ab 20 4 + w * d.nzFirst, w * d.nzCount)]

/-- The parts of an operand that a unit reads, as offset and length in the tile's window; for a row bundle those of its segment that lie in the handle, and the elements of x that its indices name (R51, R111). -/
def Tile.readSpans (tl : Tile) (d : Desc) (which : Nat) : List (Nat × Nat) :=
  let sp := tl.operandSpan d which
  if !(d.op == 4) || which == 2 then (if sp.2 = 0 then [] else [sp])
  else
    let a := tl.operandSpan d 0
    let ab := tl.get a.1 a.2
    let parts : List (Nat × Nat) :=
      if which = 0 then rbParts d ab
      else
        let w := elemBits d.bFmt / 8
        (upto d.nzCount).map (fun i => (w * rbIndex ab (d.nzFirst + i), w))
    (parts.filter (fun p => decide (p.1 + p.2 ≤ sp.2))).map (fun p => (sp.1 + p.1, p.2))

/-- The slots an operand's parts touch, each once, by offset. -/
def Tile.readSlots (tl : Tile) (d : Desc) (which : Nat) : List Nat :=
  let h := tl.operandHandle d which
  let b := h.slotAt 0
  ((tl.readSpans d which).flatMap (fun p =>
    let lo := (p.1 - b) / h.slotBytes
    (upto (cdiv (p.1 - b + p.2) h.slotBytes - lo)).map (fun i => lo + i))).foldl insertNat [] |>.map h.slotAt

/-- The slots an operand's parts touch are full, if its handle is tagged (R51, R131). -/
def Tile.operandFull (tl : Tile) (d : Desc) (which : Nat) : Bool :=
  !(tl.operandHandle d which).tagged || (tl.readSlots d which).all tl.mem.isFull

/-- A unit of this tile is ready: every slot it reads in a tagged buffer is full (R51). A stolen unit was ready at its home. -/
def Tile.unitReady (tl : Tile) (u : FUnit) : Bool :=
  let d := descOf u.desc
  u.stolen.isSome || d.operands.all (tl.operandFull d)

/-- The first uncorrectable word in the parts of an operand that a unit reads (R118). -/
def Tile.operandUe (tl : Tile) (d : Desc) (which : Nat) : Option Nat := (tl.readSpans d which).findSome? (fun p => tl.mem.hit p.1 p.2)

/-- Reading an operand corrects the single-bit errors in its parts (R117). -/
def State.correctOperand (s : State) (t : TileId) (d : Desc) (which : Nat) : State :=
  ((s.tile t).readSpans d which).foldl (fun s p => s.correct t p.1 p.2) s

/-- The home tile's mode and the seed of c_handle (R87). -/
def Tile.homeMode (tl : Tile) (d : Desc) : HomeMode :=
  { round := tl.arith.round, sat := tl.arith.sat, seed := tl.arith.seeds.getD d.c 0 }

/-! ## How a unit ends -/

/-- A unit of a firing has ended (R151, R165): the context counts it, and a failure raises FIRING_FAILED of unit 9. -/
def State.firingUnit (s : State) (t : TileId) (f : Option (Nat × Nat)) (ok : Bool) : State :=
  match f with
  | none => s
  | some (c, tm) =>
    let tl := s.tile t
    match tl.fold.ctxs.find c with
    | none => s
    | some x =>
      let n := x.outstanding - 1
      let x' := { x with
        outstanding := n, failed := if ok then x.failed else (match x.failed with | some k => some k | none => some tm) }
      let x' := if n = 0 ∧ x'.phase = .units ∧ x'.failed = none then { x' with phase := .emit 0 0 } else x'
      let s := s.setTile t { tl with fold := { tl.fold with ctxs := tl.fold.ctxs.put c x' } }
      if ok then s
      else s.raise t 9 0x070C (word [(x.slot, 0), (x.node, 3), (tm, 16)]) (BitVec.ofNat 32 x.iter)

/-- Count a failed unit (R52): UNIT_FAILED and the count fwait returns. -/
def Tile.countFailed (tl : Tile) : Tile :=
  { tl with forage := { tl.forage with
    unitFailed := tl.forage.unitFailed + 1, failedSince := satAdd 0xFFFFFF tl.forage.failedSince 1 } }

/-- Take the running unit off an engine; the engine is idle from this cycle. -/
def Tile.clearEngine (tl : Tile) (e now : Nat) : Tile :=
  tl.setEngine e { tl.engine e with running := none, idleSince := now }

/-- The header of a thief's packet to a stolen unit's home. -/
def homeHdr (t : TileId) (u : FUnit) : Hdr := { src := .tile t, dst := .tile u.home, dstGen := u.homeGen, tag := 0 }

/-- A running unit fails (R52): nothing is written and no tag changes; a stolen unit's thief sends its home a failure notice, a write as any RESULT, and waits while that may not issue (R61, R248). -/
def State.failUnit (s : State) (t : TileId) (e : Nat) (u : FUnit) : State :=
  let clear (s : State) : State := s.modTile t (fun tl => tl.clearEngine e (s.cycles t))
  match u.stolen with
  | some (entry, _) =>
    if s.mayWrite t (homeHdr t u) then (clear s).sendWrite t (homeHdr t u) (.failure entry u.homeGen u.unitId) (.result entry) true else s
  | none => ((clear s).modTile t Tile.countFailed).firingUnit t u.firing false

/-- Slots of a tagged destination that the unit does not read as C must be empty at retirement (R51, R131). -/
def Tile.destReady (tl : Tile) (d : Desc) : Bool :=
  let h := tl.handle d.c
  !h.tagged || d.acc || tl.slotsEmpty h d.cSlot (slotSpan h d.cBytes)

/-- The pieces of a result, slot by slot with their offsets, without the slots that another unit's result has taken (R54). -/
def resultPieces (o step : Nat) (bs : List Byte) (lost : List Nat) : List (Nat × List Byte) :=
  ((upto (cdiv bs.length step)).map (fun i => (o + i * step, (bs.drop (i * step)).take step))).filter (fun p => !lost.contains p.1)

/-- The first uncorrectable word that a piece covers only in part (R119). -/
def Tile.piecesUe (tl : Tile) (ps : List (Nat × List Byte)) : Option Nat := ps.findSome? (fun p => tl.mem.partialHit p.1 p.2.length)

/-- Write the pieces of a result. -/
def State.writePieces (s : State) (t : TileId) (ps : List (Nat × List Byte)) : State :=
  ps.foldl (fun s p => (s.merge t p.1 p.2.length).modTile t (fun tl => tl.put p.1 p.2)) s

/-- Destination slots of a unit that does not combine, each an offset and its bytes. -/
def Tile.destSlots (tl : Tile) (d : Desc) : List (Nat × Nat) :=
  if d.combine then []
  else
    let h := tl.handle d.c
    (upto (slotSpan h d.cBytes)).map (fun i => (h.slotAt (d.cSlot + i), h.slotBytes))

/-- A unit's tag changes at retirement, all at once: consumed operands empty, destinations full (R51, R130 to R132). -/
def Tile.retireTags (tl : Tile) (d : Desc) : Tile :=
  let hc := tl.handle d.c
  let eaten := ([0] ++ (if d.op ≤ 4 then [1] else [])).flatMap (fun w =>
    let h := tl.operandHandle d w
    if h.consume then (tl.readSlots d w).map (fun o => (o, h.slotBytes)) else [])
  let tl := eaten.foldl (fun x p => x.emptyTags p.1 p.2) tl
  if !d.combine && hc.tagged then tl.fillTags (hc.slotAt d.cSlot) (slotSpan hc d.cBytes * hc.slotBytes) else tl

/-! ## Units in flight whose destinations overlap (R54) -/

/-- Two slots share bytes. -/
def slotsMeet (a b : Nat × Nat) : Bool := decide (a.1 < b.1 + b.2) && decide (b.1 < a.1 + a.2)

/-- The slots of one unit that share bytes with another's. -/
def slotsShared (mine theirs : List (Nat × Nat)) : List Nat := (mine.filter (fun a => theirs.any (slotsMeet a))).map (fun a => a.1)

/-- The overlap of a retiring unit with one other in flight: which of the two results the shared slots end with is open, and the other unit leaves its slots there unwritten. Answers the slots each has lost. -/
def State.settlePair (s : State) (mine theirs : List (Nat × Nat)) : List Nat × List Nat × State :=
  if (slotsShared mine theirs).isEmpty then ([], [], s)
  else
    let v := s.freeVal
    if bit v.1 0 then ([], slotsShared theirs mine, v.2) else (slotsShared mine theirs, [], v.2)

/-- Settle a retiring unit's destination with every other unit in flight: the slots it has lost, and the state in which the others keep theirs. -/
def State.settleOverlaps (s : State) (t : TileId) (mine : List (Nat × Nat)) : List Nat × State :=
  let p := (upto 8).foldl (fun (p : List Nat × State) e =>
    match ((p.2.tile t).engine e).running with
    | none => p
    | some r =>
      if r.unit.stolen.isSome then p
      else
        let q := p.2.settlePair mine ((p.2.tile t).destSlots (descOf r.unit.desc))
        (p.1 ++ q.1, q.2.2.modTile t (fun tl => tl.setEngine e { tl.engine e with running := some { r with lost := r.lost ++ q.2.1 } }))) ([], s)
  ((p.2.tile t).forage.out.map (fun x => x.1)).foldl (fun (p : List Nat × State) i =>
    match (p.2.tile t).forage.out.find i with
    | none => p
    | some x =>
      let q := p.2.settlePair mine ((p.2.tile t).destSlots (descOf x.unit.desc))
      (p.1 ++ q.1, q.2.2.modTile t (fun tl => { tl with forage := { tl.forage with out := tl.forage.out.put i { x with lost := x.lost ++ q.2.1 } } }))) p

/-- The last steps of a retirement at the home tile: flags (R88), done_sig (R52) and the firing. -/
def State.retired (s : State) (t : TileId) (u : FUnit) (fl eng : Nat) : State :=
  let d := descOf u.desc
  let s := s.modTile t (fun tl => { tl with arith := tl.arith.record u.unitId fl eng (s.cycles t) })
  let s := if d.doneSig then s.signalLocal t (eng + 1) d.cell 1 else s
  s.firingUnit t u.firing true

/-- The context still holds the connection a unit named at push (R221). -/
def Tile.sameConn (tl : Tile) (c : Nat) (k : Option (TileId × Nat × Nat)) : Bool :=
  let x := tl.ctx c
  x.state == 2 && k == some (x.peer, x.queue, x.qinc)

/-- Send contributions of elements sent, sent + 1, ... while credits last (R221); answers how many are sent in all. -/
def State.sendElems (s : State) (t : TileId) (d : Desc) (es : List Word) : Nat → Nat → Nat × State
  | 0, sent => (sent, s)
  | fuel + 1, sent =>
    let x := (s.tile t).ctx d.conn
    if decide (sent < es.length) && x.state == 2 && !(x.credits == 0) && s.mayWrite t (s.connHdr t x x.peerGen) then
      (s.sendContribution t d.conn (d.cSlot + sent) (nth es sent 0)).sendElems t d es fuel (sent + 1)
    else (sent, s)

end Sys2Proof.Machine
end

