-- ==== Sys2Proof/Machine/ForageOps.lean ====
section
/-! DEFINITION. The forage instructions: fpush, fsteal, fwait (R46, R48, R57, R58). -/

namespace Sys2Proof.Machine

/-- fpush (R46, R48): operand checks, then the descriptor's three stages, then the deque. Where both operands break R42, rs1 is reported (DESIGN CHOICE, log entry 78). -/
def xFpush (t : TileId) (a : XArgs) (s : State) : State :=
  let v := s.rs1 t a
  let w := s.rs2 t a
  let o := v.toNat
  if !imageOk o 32 then s.badArg t .fpush a v
  else if !decide (w.toNat ≤ 8) then s.badArg t .fpush a w
  else
    s.reading t 0 o 32 (fun bs s =>
      let tl := s.tile t
      match tl.pushFail bs with
      | some .descriptor => s.raise t 0 fcBadDescriptor (leWord (bytesAt bs 0 4)) (leWord (bytesAt bs 8 4))
      | some (.handle h) => s.raise t 0 fcBadHandle (BitVec.ofNat 32 h) (xword .fpush a)
      | none =>
        let e := tl.dequeFor (descOf bs) w.toNat
        if 16 ≤ tl.occ e then
          if nbit a.mods 0 then s.finish t a stFull 0 3 else s.stallOn t .fpush a .cond e
        else (s.setTile t (tl.push t bs e none (s.cycles t))).finish t a stOk (tl.forage.unitId % 65536) 3)

/-- Positions at distance n of a tile, clockwise from north (R57). -/
def ringOf (t : TileId) (n : Nat) : List TileId :=
  let p (dx dy : Int) : Option TileId :=
    let x := (t.x : Int) + dx
    let y := (t.y : Int) + dy
    if 0 ≤ x ∧ 0 ≤ y then some ⟨x.toNat, y.toNat⟩ else none
  (upto n).filterMap (fun i : Nat => p i ((n : Int) - i)) ++ (upto n).filterMap (fun i : Nat => p ((n : Int) - i) (-(i : Int))) ++
    (upto n).filterMap (fun i : Nat => p (-(i : Int)) (-((n : Int) - i))) ++ (upto n).filterMap (fun i : Nat => p (-((n : Int) - i)) i)

/-- Candidate victims: good tiles within the radius, nearest first, ties from a rotation (R57). -/
def State.victims (s : State) (t : TileId) : List TileId :=
  let f := (s.tile t).forage
  let r := if 8 < f.radius then 8 else f.radius
  (upto r).flatMap (fun i =>
    let ring := (ringOf t (i + 1)).filter s.good
    ring.rotateLeft (if ring.isEmpty then 0 else f.searchRot % ring.length))

/-- The engine number a core's own steal request carries. -/
def coreThief : Nat := 8

/-- Send a steal request (R57) and keep its tag and the candidates that are left. -/
def State.askSteal (s : State) (t : TileId) (engine : Nat) (v : TileId) (rest : List TileId) : State :=
  let tl := s.tile t
  let s := s.setTile t (tl.setEngine engine { tl.engine engine with search := some rest, asked := tl.sync.tag })
  s.sendRequest t { src := .tile t, dst := .tile v, dstGen := 0, tag := 0 } (.steal engine tl.forage.domain tl.gen)

/-- fsteal (R46): a named victim, or the nearest candidates in turn; stalls for the reply. -/
def xFsteal (t : TileId) (a : XArgs) (s : State) : State :=
  let v := s.rs1 t a
  let cands := if v == 0 then s.victims t else [⟨bits v 9 0, bits v 19 10⟩]
  if !(v == 0) && !(bit v 31 && bits v 30 20 == 0) then s.badArg t .fsteal a v
  else
    match cands with
    | [] => s.finish t a stNotFound 0 2
    | c :: rest => (s.askSteal t coreThief c rest).stallOn t .fsteal a .answer 0

/-- fwait (R46): waits until the outstanding units fall to the threshold; reports the units failed since the last fwait. -/
def xFwait (t : TileId) (a : XArgs) (s : State) : State :=
  let v := s.rs1 t a
  let tl := s.tile t
  if !(bits v 31 16 == 0) then s.badArg t .fwait a v
  else if v.toNat < tl.outstanding then s.stallOn t .fwait a .cond 0
  else
    let n := tl.forage.failedSince
    (s.setTile t { tl with forage := { tl.forage with failedSince := 0 } }).finish t a (if n = 0 then stOk else stUnitFailed) n 1

/-- FPUSH (R48). -/
def execFpush (t : TileId) (a : XArgs) (s : State) : Out := .next (issue .fpush xFpush t a s)
/-- FSTEAL (R46). -/
def execFsteal (t : TileId) (a : XArgs) (s : State) : Out := .next (issue .fsteal xFsteal t a s)
/-- FWAIT (R46). -/
def execFwait (t : TileId) (a : XArgs) (s : State) : Out := .next (issue .fwait xFwait t a s)

end Sys2Proof.Machine
end

