-- ==== Sys2Proof/Machine/FoldUnitOps.lean ====
section
/-! DEFINITION. The fire unit's shared operations: configuration images (R157), tokens and matching (R144 to R153), loading, purging and switching (R158 to R163). -/

namespace Sys2Proof.Machine

/-! ## Images (R157) -/

/-- Node entry n of an image's bytes. -/
def nodeAt (bs : List Byte) (o : Nat) : NodeE :=
  { kind := fieldAt bs o 1, inCount := fieldAt bs (o + 1) 1, inFirst := fieldAt bs (o + 2) 1,
    outCount := fieldAt bs (o + 3) 1, outFirst := fieldAt bs (o + 4) 1, window := fieldAt bs (o + 5) 1,
    actFirst := fieldAt bs (o + 6) 2, actCount := fieldAt bs (o + 8) 2, start := fieldAt bs (o + 10) 3 }

/-- Input port entry. -/
def portAt (bs : List Byte) (o : Nat) : PortE :=
  { handle := fieldAt bs o 1, count := fieldAt bs (o + 1) 1, base := fieldAt bs (o + 2) 2,
    depth := fieldAt bs (o + 4) 2, len := fieldAt bs (o + 6) 1 }

/-- Emit entry. -/
def emitAt (bs : List Byte) (o : Nat) : EmitE :=
  let w := fieldAt bs o 4
  { target := ⟨nbits w 9 0, nbits w 19 10⟩, node := nbits w 22 20, port := nbits w 25 23, epoch := nbits w 28 26,
    dstGen := fieldAt bs (o + 4) 2, p := fieldAt bs (o + 6) 1, c := fieldAt bs (o + 7) 1,
    srcHandle := fieldAt bs (o + 8) 1, len := fieldAt bs (o + 9) 1, srcBase := fieldAt bs (o + 10) 2,
    srcDepth := fieldAt bs (o + 12) 2, credits := fieldAt bs (o + 14) 2 }

/-- Action entry. -/
def actionAt (bs : List Byte) (o : Nat) : ActionE := { signal := fieldAt bs o 1 == 1, arg := fieldAt bs (o + 2) 2 }

/-- Forage template. -/
def templAt (bs : List Byte) (o : Nat) : TemplE :=
  { desc := bytesAt bs o 32, aStep := fieldAt bs (o + 32) 2, bStep := fieldAt bs (o + 34) 2,
    cStep := fieldAt bs (o + 36) 2, period := fieldAt bs (o + 38) 2, deque := fieldAt bs (o + 40) 1 }

/-- n entries of size z from offset o. -/
def entriesAt {α : Type} (f : List Byte → Nat → α) (bs : List Byte) (o z n : Nat) : List α :=
  (upto n).map (fun i => f bs (o + z * i))

/-- The image's five tables; offsets follow one another with no gap. -/
def imageOf (bs : List Byte) : Image :=
  let nn := fieldAt bs 6 1
  let np := fieldAt bs 7 1
  let ne := fieldAt bs 8 1
  let nt := fieldAt bs 9 1
  let na := fieldAt bs 10 2
  let op := 64 + 32 * nn
  let oe := op + 16 * np
  let oa := oe + 16 * ne
  let ot := oa + 8 * na
  { epoch := nbits (fieldAt bs 3 1) 2 0, size := fieldAt bs 4 2,
    nodes := entriesAt nodeAt bs 64 32 nn, ports := entriesAt portAt bs op 16 np, emits := entriesAt emitAt bs oe 16 ne,
    actions := entriesAt actionAt bs oa 8 na, templates := entriesAt templAt bs ot 48 nt }

/-- The size that the header's counts give (R157). -/
def imageSize (bs : List Byte) : Nat :=
  64 + 32 * fieldAt bs 6 1 + 16 * fieldAt bs 7 1 + 16 * fieldAt bs 8 1 + 8 * fieldAt bs 10 2 + 48 * fieldAt bs 9 1

/-- All of n bytes from o are 0. -/
def zeros (bs : List Byte) (o n : Nat) : Bool := (bytesAt bs o n).all (fun b => b == 0)

/-- The first failing byte offset among (offset, holds) checks. -/
def firstFail (cs : List (Nat × Bool)) : Option Nat := (cs.find? (fun c => !c.2)).map (fun c => c.1)

/-- Header checks (R157, R158). -/
def headerChecks (bs : List Byte) : List (Nat × Bool) :=
  [(0, fieldAt bs 0 2 == 0x6446), (2, fieldAt bs 2 1 == 1), (3, decide (fieldAt bs 3 1 < 8)),
   (4, fieldAt bs 4 2 == imageSize bs && decide (imageSize bs ≤ 12288)),
   (6, decide (1 ≤ fieldAt bs 6 1) && decide (fieldAt bs 6 1 ≤ 8)), (7, decide (fieldAt bs 7 1 ≤ 32)),
   (8, decide (fieldAt bs 8 1 ≤ 32)), (9, decide (fieldAt bs 9 1 ≤ 192)), (10, decide (fieldAt bs 10 2 ≤ 256)),
   (16, zeros bs 16 48)]

/-- Node checks, by kind (R155, R156, R157, R164). -/
def nodeChecks (im : Image) (bs : List Byte) (i : Nat) : List (Nat × Bool) :=
  let o := 64 + 32 * i
  let n := nth im.nodes i default
  let port (k : Nat) := nth im.ports (n.inFirst + k) default
  let outs := (im.emits.drop n.outFirst).take n.outCount
  [(o, decide (n.kind ≤ 3)), (o + 1, decide (n.inCount ≤ 8) && decide (n.inFirst + n.inCount ≤ im.ports.length)),
   (o + 3, decide (n.outCount ≤ 8) && decide (n.outFirst + n.outCount ≤ im.emits.length)), (o + 5, within 1 64 n.window),
   (o + 6, decide (n.actFirst + n.actCount ≤ im.actions.length)), (o + 13, zeros bs (o + 13) 19),
   (o + 1, if n.kind = 1 ∨ n.kind = 2 then n.inCount == 2 else if n.kind = 3 then n.inCount == 0 else true),
   (o + 8, !(n.kind == 1 || n.kind == 2) || n.actCount == 0),
   (o + 3, !(n.kind == 1) || (n.outCount == 2 && (port 0).count == 1 && decide (1 ≤ (port 0).len))),
   (o + 3, !(n.kind == 2) || (port 0).count == (port 1).count),
   (o + 4, !(n.kind == 1 || n.kind == 2) || outs.all (fun e => e.p == (port 1).count))]

/-- Port checks; the depth rule uses the window of the node that owns the port (R157). -/
def portChecks (handle : Nat → Handle) (im : Image) (bs : List Byte) (i : Nat) : List (Nat × Bool) :=
  let o := 64 + 32 * im.nodes.length + 16 * i
  let p := nth im.ports i default
  let owner := im.nodes.find? (fun n => decide (n.inFirst ≤ i) && decide (i < n.inFirst + n.inCount))
  let w := match owner with | some n => n.window | none => 0
  [(o, decide (p.handle < 64)), (o + 1, within 1 64 p.count),
   (o + 4, p.depth % p.count == 0 && decide (w * p.count ≤ p.depth) && decide (1 ≤ p.depth)),
   (o + 6, decide (p.len ≤ 8) && (p.len == 0 || ((handle p.handle).valid && decide (32 * p.len ≤ (handle p.handle).slotBytes)))),
   (o + 7, zeros bs (o + 7) 9)]

/-- Emit checks (R157). A source depth of 0 is refused only where a compute or source node reads a source slot (DEDUCED, log entry 78). -/
def emitChecks (im : Image) (bs : List Byte) (i : Nat) : List (Nat × Bool) :=
  let o := 64 + 32 * im.nodes.length + 16 * im.ports.length + 16 * i
  let e := nth im.emits i default
  let reads := !(e.len == 0) && im.nodes.any (fun n => decide (n.outFirst ≤ i) && decide (i < n.outFirst + n.outCount) && (n.kind == 0 || n.kind == 3))
  [(o + 3, decide (fieldAt bs (o + 3) 1 < 32)), (o + 6, within 1 64 e.p), (o + 7, within 1 64 e.c),
   (o + 8, decide (e.srcHandle < 64)), (o + 9, decide (e.len ≤ 8)), (o + 12, e.srcDepth % e.p == 0 && (decide (1 ≤ e.srcDepth) || !reads)),
   (o + 14, within 1 1024 e.credits)]

/-- Action checks (R157). -/
def actionChecks (im : Image) (bs : List Byte) (i : Nat) : List (Nat × Bool) :=
  let o := 64 + 32 * im.nodes.length + 16 * im.ports.length + 16 * im.emits.length + 8 * i
  let a := nth im.actions i default
  [(o, decide (fieldAt bs o 1 ≤ 1)), (o + 1, zeros bs (o + 1) 1),
   (o + 2, if a.signal then decide (a.arg < 16) else decide (a.arg < im.templates.length)), (o + 4, zeros bs (o + 4) 4)]

/-- Template checks (R157); the descriptor itself is checked at each push. -/
def templChecks (im : Image) (bs : List Byte) (i : Nat) : List (Nat × Bool) :=
  let o := 64 + 32 * im.nodes.length + 16 * im.ports.length + 16 * im.emits.length + 8 * im.actions.length + 48 * i
  let t := nth im.templates i default
  [(o + 24, zeros bs (o + 24) 8), (o + 38, decide (1 ≤ t.period)), (o + 40, decide (t.deque ≤ 8)), (o + 41, zeros bs (o + 41) 7)]

/-- The image's CRC-32C over its bytes with the field taken as 0. -/
def imageCrcOk (bs : List Byte) : Bool :=
  crc32c (bs.take 12 ++ [0, 0, 0, 0] ++ bs.drop 16) == fieldAt bs 12 4

/-- The first failing byte offset of an image, or none where it is accepted (R158, step 3). -/
def imageFail (handle : Nat → Handle) (bs : List Byte) : Option Nat :=
  match firstFail (headerChecks bs) with
  | some o => some o
  | none =>
    if !imageCrcOk bs then some 12
    else
      let im := imageOf bs
      firstFail ((upto im.nodes.length).flatMap (nodeChecks im bs) ++ (upto im.ports.length).flatMap (portChecks handle im bs) ++
        (upto im.emits.length).flatMap (emitChecks im bs) ++ (upto im.actions.length).flatMap (actionChecks im bs) ++
        (upto im.templates.length).flatMap (templChecks im bs))

/-! ## Tokens and matching -/

/-- Iterations wrap modulo 2^24 (R144). -/
def iterMod : Nat := 2 ^ 24

/-- How far an iteration lies past another, modulo 2^24 (R149). -/
def iterAhead (i base : Nat) : Nat := (i + iterMod - base % iterMod) % iterMod

/-- The loaded slot whose image carries an epoch (R145). -/
def Tile.slotOfEpoch (tl : Tile) (e : Nat) : Option (Nat × Image) :=
  (upto 8).findSome? (fun i => match (tl.slot i).image with
    | some im => if im.epoch = e then some (i, im) else none
    | none => none)

/-- A node of an image. -/
def Image.node (im : Image) (n : Nat) : NodeE := nth im.nodes n default

/-- The port table entry of a node's input port. -/
def Image.port (im : Image) (n p : Nat) : PortE := nth im.ports ((im.node n).inFirst + p) default

/-- The landing slot of part p of iteration i at a port (R147). -/
def PortE.landing (p : PortE) (i part : Nat) : Nat := p.base + (i * p.count + part) % p.depth

/-- The token's node, port, part and length agree with the image (R165). -/
def tokenFits (im : Image) (b : TokenBody) : Bool :=
  decide (b.node < im.nodes.length) && decide (b.port < (im.node b.node).inCount) &&
    decide (b.part < (im.port b.node b.port).count) &&
    (if b.void then b.len == 0 else b.len == (im.port b.node b.port).len)

/-- Offset and size of a token's landing slot, and whether its handle is tagged. -/
def Tile.landingOf (tl : Tile) (im : Image) (node port i part : Nat) : Nat × Nat × Bool :=
  let p := im.port node port
  let h := tl.handle p.handle
  (h.slotAt (p.landing i part), h.slotBytes, h.tagged)

/-- Tokens of the store that feed a firing. -/
def FoldUnit.tokensOf (u : FoldUnit) (slot node i : Nat) : List Tok :=
  u.store.filter (fun k => k.slot == some slot && k.body.node == node && k.body.iteration == i)

/-- A firing is complete when every port holds every part (R146). -/
def FoldUnit.complete (u : FoldUnit) (im : Image) (slot node i : Nat) : Bool :=
  let ks := u.tokensOf slot node i
  let n := im.node node
  decide (0 < n.inCount) && (upto n.inCount).all (fun p =>
    (upto (im.port node p).count).all (fun part => ks.any (fun k => k.body.port == p && k.body.part == part)))

/-- Complete firings of the active slot that are neither ready nor running, in completion order (R150). -/
def Tile.readyCandidates (tl : Tile) : List (Nat × Nat × Nat) :=
  let u := tl.fold
  match (tl.slot u.active).image with
  | none => []
  | some im =>
    let keys := u.store.reverse.foldl (fun acc k =>
      let key := (u.active, k.body.node, k.body.iteration)
      if k.slot == some u.active && !acc.contains key then key :: acc else acc) []
    keys.filter (fun k => u.complete im k.1 k.2.1 k.2.2 && !u.ready.contains k &&
      !u.ctxs.any (fun c => c.2.slot == k.1 && c.2.node == k.2.1 && c.2.iter == k.2.2))

/-- Let complete firings of the active slot enter the ready list, which holds 32 (R150). -/
def Tile.fillReady (tl : Tile) : Tile :=
  { tl with fold := { tl.fold with ready := (tl.fold.ready ++ tl.readyCandidates).take 32 } }

/-- The credit return of a token (R152); a tile with a fault returns none (R165). -/
def State.tokenCredit (s : State) (t : TileId) (b : TokenBody) : State :=
  if (s.tile t).frozen then s
  else s.send { h := { src := .tile t, dst := .tile b.src, dstGen := b.srcGen, tag := 0 }, body := .tokenCredit b.slot b.emit }

/-- What an arriving token meets (R145, R149, R153, R159, R165). -/
inductive TokenFate where
  | land (slot : Nat) (im : Image)
  | keepUnbound
  | reject
  | retry
  deriving DecidableEq, Repr, Inhabited

/-- Unbound tokens in the store. -/
def FoldUnit.unbound (u : FoldUnit) : Nat := (u.store.filter (fun k => k.slot.isNone)).length

/-- The fate of a token. -/
def Tile.tokenFate (tl : Tile) (b : TokenBody) : TokenFate :=
  match tl.slotOfEpoch b.epoch with
  | none => if tl.fold.unbound < 64 ∧ tl.fold.store.length < 512 then .keepUnbound else .retry
  | some (sl, im) =>
    if !tokenFits im b then .reject
    else
      let st := nth (tl.slot sl).nodes b.node ({} : NodeSt)
      let ld := tl.landingOf im b.node b.port b.iteration b.part
      if (im.node b.node).window ≤ iterAhead b.iteration st.oldest then .retry
      else if !b.void && decide (0 < b.len) && ld.2.2 && tl.mem.isFull ld.1 then .retry
      else if 512 ≤ tl.fold.store.length then .retry
      else .land sl im

/-- Land a token's payload, set its slot full, and put it in the store (R145). -/
def Tile.landToken (tl : Tile) (sl : Nat) (im : Image) (b : TokenBody) (now : Nat) : Tile :=
  let ld := tl.landingOf im b.node b.port b.iteration b.part
  let tl :=
    if b.void || b.len == 0 then tl
    else
      let tl := tl.put ld.1 (bytesAt b.payload 0 (32 * b.len))
      if ld.2.2 then tl.fillTags ld.1 ld.2.1 else tl
  ({ tl with fold := { tl.fold with store := tl.fold.store ++ [Tok.mk b (some sl) now] } }).fillReady

/-! ## Loading and purging (R158 to R160) -/

/-- A slot's epoch holds tokens (R158). -/
def Tile.epochHolds (tl : Tile) (sl : Nat) : Bool :=
  match (tl.slot sl).image with
  | none => false
  | some im => tl.fold.store.any (fun k => k.body.epoch == im.epoch) || tl.fold.ready.any (fun r => r.1 == sl) ||
      tl.fold.ctxs.any (fun c => c.2.slot == sl)

/-- A firing context runs a firing of the slot's epoch. -/
def Tile.epochRuns (tl : Tile) (sl : Nat) : Bool := tl.fold.ctxs.any (fun c => c.2.slot == sl)

/-- The token feeds a firing that runs in a context. -/
def Tile.tokenRuns (tl : Tile) (k : Tok) : Bool :=
  tl.fold.ctxs.any (fun c => k.slot == some c.2.slot && k.body.node == c.2.node && k.body.iteration == c.2.iter)

/-- Advance a node's oldest open iteration over completed ones (R149). -/
def NodeSt.advance : Nat → NodeSt → NodeSt
  | 0, n => n
  | fuel + 1, n =>
    if n.done.contains n.oldest then
      NodeSt.advance fuel { n with oldest := (n.oldest + 1) % iterMod, done := n.done.filter (fun i => !(i == n.oldest)) }
    else n

/-- An iteration lies before another, modulo 2^24 (R149). -/
def iterBefore (i base : Nat) : Bool := decide (iterMod / 2 ≤ iterAhead i base)

/-- A node's firing of iteration i has completed; one that a purge has passed while it ran changes nothing (R160). -/
def NodeSt.finish (n : NodeSt) (i : Nat) : NodeSt := if iterBefore i n.oldest then n else NodeSt.advance 65 { n with done := n.done ++ [i] }

/-- Firings of a node that are open: those from the oldest on that have not completed (R149, R164). -/
def NodeSt.openCount (n : NodeSt) : Nat := iterAhead n.next n.oldest - n.done.length

/-- A node's oldest open iteration moves past a discarded iteration (R160). -/
def NodeSt.pass (n : NodeSt) (i : Nat) : NodeSt :=
  if iterBefore i n.oldest then n
  else
    let o := (i + 1) % iterMod
    NodeSt.advance 65 { n with oldest := o, done := n.done.filter (fun d => !iterBefore d o) }

/-- Purge a slot (R160): its tokens leave the store and the ready list, their landing slots go empty, credits return; answers how many. -/
def State.purge (s : State) (t : TileId) (sl : Nat) : Nat × State :=
  let tl := s.tile t
  match (tl.slot sl).image with
  | none => (0, s)
  | some im =>
    let gone := tl.fold.store.filter (fun k => k.body.epoch == im.epoch && !tl.tokenRuns k)
    let tl := gone.foldl (fun x k =>
      if k.body.void || k.body.len == 0 || k.slot.isNone then x
      else
        let ld := x.landingOf im k.body.node k.body.port k.body.iteration k.body.part
        if ld.2.2 then x.emptyTags ld.1 ld.2.1 else x) tl
    let slot := tl.slot sl
    let nodes := gone.foldl (fun ns k => ns.set k.body.node
      ((nth ns k.body.node ({} : NodeSt)).pass k.body.iteration)) slot.nodes
    let nodes := (tl.fold.ready.filter (fun r => r.1 == sl && (im.node r.2.1).kind == 3)).foldl (fun ns r => ns.set r.2.1
      ((nth ns r.2.1 ({} : NodeSt)).pass r.2.2)) nodes
    let tl := tl.setSlot sl { slot with nodes := nodes, purged := slot.purged + BitVec.ofNat 32 gone.length }
    let tl := { tl with fold := { tl.fold with
      store := tl.fold.store.filter (fun k => !(k.body.epoch == im.epoch) || tl.tokenRuns k)
      ready := tl.fold.ready.filter (fun r => !(r.1 == sl))
      readySince := if tl.fold.ready.head?.any (fun r => r.1 == sl) then none else tl.fold.readySince } }
    (gone.length, gone.foldl (fun s k => s.tokenCredit t k.body) (s.setTile t tl))

/-- The order in which tokens that match in one cycle do so (R150). -/
def tokenLe (a b : Tok) : Bool :=
  decide (a.body.node < b.body.node) || (a.body.node == b.body.node && decide (a.body.iteration ≤ b.body.iteration))

/-- Bind the unbound tokens of a loaded epoch: each matches as though it had just arrived, lower nodes and iterations first (R150, R159). One that its node's window or its full landing slot keeps out has been accepted already: it stays in the store and is tried again as a firing completes or a stall is looked at (DEDUCED, log entry 70). -/
def State.bindTokens (s : State) (t : TileId) (epoch : Nat) : State :=
  let mine := (s.tile t).fold.store.filter (fun k => k.slot.isNone && k.body.epoch == epoch)
  (sortBy tokenLe mine).foldl (fun s k =>
    let tl := s.tile t
    let out : Tile := { tl with fold := { tl.fold with store := tl.fold.store.erase k } }
    match out.tokenFate k.body with
    | .land sl im => s.setTile t (out.landToken sl im k.body s.time)
    | .reject => ((s.setTile t out).tokenCredit t k.body).event (fieldOf t) 0x0781 [tileDetail t, tileDetail k.body.src, k.body.emit]
    | .keepUnbound | .retry => s) s

/-- Bind what waits for every loaded epoch. -/
def State.bindAll (s : State) (t : TileId) : State :=
  (upto 8).foldl (fun s i => match ((s.tile t).slot i).image with
    | some im => s.bindTokens t im.epoch
    | none => s) s

/-- What a dload answers: a status with a count, or a recorded fault. -/
inductive LoadOut where
  | answer (st n : Nat) (s : State)
  | fault (s : State)
  deriving DecidableEq, Repr, Inhabited

/-- dload of a slot from a handle reference (R158), for the instruction and for a field controller's order. -/
def State.dloadAt (s : State) (t : TileId) (sl : Nat) (r : HRef) (purge : Bool) : LoadOut :=
  let tl := s.tile t
  if !purge && tl.epochHolds sl then .answer stBusy 0 s
  else if purge && tl.epochRuns sl then .answer stBusy 0 s
  else
    let h := tl.handle r.handle
    let o := tl.refAt r
    let room := h.extent - r.slot * h.slotBytes
    let head := tl.get o 64
    let size := fieldAt head 4 2
    let bad (s : State) (off : Nat) : LoadOut :=
      .fault (s.raise t 9 0x0706 (word [(sl, 0), (off, 16)]) (leWord (bytesAt head 0 4)))
    if room < 64 then bad s 4
    else
      match tl.mem.hit o 64 with
      | some u => .fault (s.ueFault t 0 u 0)
      | none =>
        match firstFail (headerChecks head) with
        | some off => bad s off
        | none =>
          if room < size then bad s 4
          else
            match tl.mem.hit o size with
            | some u => .fault (s.ueFault t 0 u 0)
            | none =>
              let bs := tl.get o size
              match imageFail tl.handle bs with
              | some off => bad s off
              | none =>
                let im := imageOf bs
                match (upto 8).find? (fun i => !(i == sl) && (match (tl.slot i).image with | some x => x.epoch == im.epoch | none => false)) with
                | some i => .fault (s.raise t 9 0x0707 (word [(sl, 0), (i, 4)]) (BitVec.ofNat 32 im.epoch))
                | none =>
                  let s := (s.correct t o size).served t 9 o
                  let p := if purge then s.purge t sl else (0, s)
                  let s := p.2
                  let slot := (s.tile t).slot sl
                  let s := s.modTile t (fun tl => tl.setSlot sl { slot with
                    image := some im
                    nodes := im.nodes.map (fun n => { oldest := n.start, next := n.start, done := [] })
                    credits := im.emits.map (fun e => e.credits) })
                  .answer stOk p.1 (s.bindTokens t im.epoch)

/-! ## Slots a firing reads (R150, R151) -/

/-- The landing slots of a firing's real tokens: offset, size and whether tagged. -/
def Tile.firingSlots (tl : Tile) (im : Image) (sl node i : Nat) : List (Nat × Nat × Bool) :=
  ((tl.fold.tokensOf sl node i).filter (fun k => !k.body.void && !(k.body.len == 0))).map
    (fun k => tl.landingOf im node k.body.port i k.body.part)

/-- Every tagged landing slot of a firing is full (R150). -/
def Tile.inputsFull (tl : Tile) (im : Image) (sl node i : Nat) : Bool :=
  (tl.firingSlots im sl node i).all (fun x => !x.2.2 || tl.mem.isFull x.1)

/-- Where token j of an emit entry takes its payload (R151, R155 to R157): offset, bytes, slot bytes and tag, or none for a void token. -/
def Tile.emitSource (tl : Tile) (im : Image) (x : FCtx) (e j : Nat) : Option (Nat × Nat × Nat × Bool) :=
  let n := im.node x.node
  let em := nth im.emits (n.outFirst + e) default
  if x.isVoid then none
  else if n.kind = 1 then
    if x.choose = e then
      let ld := tl.landingOf im x.node 1 x.iter j
      some (ld.1, 32 * (im.port x.node 1).len, ld.2.1, false)
    else none
  else if n.kind = 2 then
    if x.choose < 2 then
      let ld := tl.landingOf im x.node x.choose x.iter j
      some (ld.1, 32 * (im.port x.node x.choose).len, ld.2.1, false)
    else none
  else
    let h := tl.handle em.srcHandle
    let sl := em.srcBase + (x.iter * em.p + j) % (if em.srcDepth = 0 then 1 else em.srcDepth)
    some (h.slotAt sl, 32 * em.len, h.slotBytes, h.tagged && !(em.len == 0))

/-! ## The active slot (R161 to R163) -/

/-- Source firings that wait in the ready list return to their slot's armed count as it stops being active (R150, R164). -/
def Tile.unfire (tl : Tile) (sl : Nat) : Tile :=
  match (tl.slot sl).image with
  | none => tl
  | some im =>
    let back := tl.fold.ready.filter (fun r => r.1 == sl && (im.node r.2.1).kind == 3)
    let slot := tl.slot sl
    tl.setSlot sl { slot with
      armed := satAdd (iterMod - 1) slot.armed back.length
      nodes := back.foldl (fun ns r =>
        let n := nth ns r.2.1 ({} : NodeSt)
        ns.set r.2.1 { n with next := (n.next + iterMod - 1) % iterMod }) slot.nodes }

/-- Make a slot active; complete firings of it enter the ready list, and those of another leave it for the store (R150, R161). -/
def Tile.activate (tl : Tile) (sl : Nat) : Tile :=
  if tl.fold.active = sl then tl
  else
    let tl := tl.unfire tl.fold.active
    ({ tl with fold := { tl.fold with active := sl, ready := [], readySince := none } }).fillReady

/-- Schedule entry e: slot and dwell. -/
def FoldUnit.entry (u : FoldUnit) (e : Nat) : Nat × Nat := u.sched.getD e (0, 0)

/-- Go to a schedule entry at a cycle count. -/
def Tile.toEntry (tl : Tile) (e now : Nat) : Tile :=
  let tl := tl.activate (tl.fold.entry e).1
  { tl with fold := { tl.fold with schedPos := e, dwellFrom := now } }

/-- The switch of R163 at a cycle: to a slot, or to a schedule entry with sched_en set. -/
def Tile.switchTo (tl : Tile) (g : SwitchTarget) (now : Nat) : Tile :=
  let tl := { tl with fold := { tl.fold with switchedAt := some now } }
  match g with
  | .slot sl => ({ tl with fold := { tl.fold with schedEn := false } }).activate sl
  | .entry e => ({ tl with fold := { tl.fold with schedEn := true } }).toEntry e now

end Sys2Proof.Machine
end

