-- ==== Sys2Proof/Machine/Waiters.lean ====
section
/-! DEFINITION. Stalled operations that wait on slots, and the rotation that chooses among them when a slot changes (R116, R133). -/

namespace Sys2Proof.Machine

/-- An operation that waits for slots of its tile, by the requester of R116 it belongs to: the slots' offsets and sizes, and whether they must be full. -/
structure SlotWait where
  req : Nat
  slots : List (Nat × Nat)
  full : Bool
  deriving DecidableEq, Repr, Inhabited

/-- The wait for the slot of a handle reference, if its handle is tagged. -/
def Tile.refWait (tl : Tile) (req : Nat) (r : HRef) (full : Bool) : List SlotWait :=
  let h := tl.handle r.handle
  if h.tagged then [{ req := req, slots := [(h.slotAt r.slot, h.slotBytes)], full := full }] else []

/-- The slots the core's stalled instruction waits on (R43, R46, R47). -/
def Tile.coreWaits (tl : Tile) : List SlotWait :=
  match tl.core.stall with
  | none => []
  | some k =>
    let r1 := hrefOf (tl.reg k.a.rs1)
    let r2 := hrefOf (tl.reg k.a.rs2)
    match k.wait with
    | .data _ _ => tl.refWait 0 r1 false
    | .answer | .cancel _ => []
    | .cond =>
      match k.op with
      | .ldt | .xput => tl.refWait 0 r1 true
      | .stt => tl.refWait 0 r1 false
      | .qsend => tl.refWait 0 r2 true
      | .qrecv => tl.refWait 0 r2 false
      | .qopen | .qclose | .qtrysend | .qtryrecv | .qselect | .qstat | .swait | .ssignal | .sfence | .sread | .fpush | .fsteal | .fwait
      | .hset | .hclr | .tfill | .dload | .dswitch | .dpurge | .dsample | .wopen | .wclose | .xget => []

/-- The destination slots a result waits to find empty (R51). -/
def Tile.destWaits (tl : Tile) (req : Nat) (d : Desc) : List SlotWait :=
  if !d.combine && (tl.handle d.c).tagged && !d.acc then [{ req := req, slots := tl.destSlots d, full := false }] else []

/-- The slots an engine's stalled unit waits on: at the head of its deque its operands', at retirement its destination's (R51). -/
def Tile.engineWaits (tl : Tile) (e : Nat) : List SlotWait :=
  let g := tl.engine e
  match g.running, g.deque with
  | some r, _ => if r.stallSince.isSome && r.unit.stolen.isNone then tl.destWaits (e + 1) (descOf r.unit.desc) else []
  | none, [] => []
  | none, u :: _ =>
    let d := descOf u.desc
    if g.headSince.isNone || u.stolen.isSome then []
    else
      [{ req := e + 1
         slots := d.operands.flatMap (fun w =>
           if (tl.operandHandle d w).tagged then (tl.readSlots d w).map (fun o => (o, (tl.operandHandle d w).slotBytes)) else [])
         full := true }]

/-- The slots that the result waiting in a steal-out entry needs (R59): the landing unit writes it. -/
def Tile.outWaits (tl : Tile) (i : Nat) : List SlotWait :=
  match tl.forage.out.find i with
  | some x => if x.waiting.isSome then tl.destWaits 10 (descOf x.unit.desc) else []
  | none => []

/-- The slots the fire unit's stalled emissions and stalled head wait on (R150, R151). -/
def Tile.fireWaits (tl : Tile) : List SlotWait :=
  let emits := tl.fold.ctxs.filterMap (fun e =>
    match e.2.since, e.2.phase, (tl.slot e.2.slot).image with
    | some _, .emit k j, some im =>
      match tl.emitSource im e.2 k j with
      | some p => if p.2.2.2 then some { req := 9, slots := [(p.1, p.2.2.1)], full := true } else none
      | none => none
    | _, _, _ => none)
  let head := match tl.fold.readySince, tl.fold.ready with
    | some _, (sl, node, i) :: _ =>
      match (tl.slot sl).image with
      | some im => [{ req := 9, slots := ((tl.firingSlots im sl node i).filter (fun p => p.2.2)).map (fun p => (p.1, p.2.1)), full := true }]
      | none => []
    | _, _ => []
  emits ++ head

/-- The slots the request at the head of a window waits on (R140). -/
def Tile.windowWaits (tl : Tile) (w : Nat) : List SlotWait :=
  let win := tl.window w
  match win.held with
  | [] => []
  | r :: _ =>
    let h := tl.handle (bits win.w0 24 19)
    let o := h.slotAt 0 + 32 * bits win.w0 12 0 + r.body.offset
    if bit win.w0 27 then
      [{ req := 10, slots := (upto (r.body.length / h.slotBytes)).map (fun i => (o + i * h.slotBytes, h.slotBytes)), full := r.data.isNone }]
    else []

/-- All of a tile's stalled operations that wait on slots. -/
def Tile.slotWaits (tl : Tile) : List SlotWait :=
  tl.coreWaits ++ (upto 8).flatMap tl.engineWaits ++ tl.fireWaits ++ (upto 8).flatMap tl.windowWaits ++
    tl.forage.out.flatMap (fun x => tl.outWaits x.1)

/-- A wait's slots are as it needs them. -/
def TileMem.waitMet (m : TileMem) (w : SlotWait) : Bool := w.slots.all (fun p => m.isFull p.1 == w.full)

/-- None of a wait's slots changed its tag in the present cycle: a stalled operation sees a change in the cycle after it (R133). -/
def TileMem.waitSees (m : TileMem) (w : SlotWait) : Bool := w.slots.all (fun p => !(granules p.1 p.2).any (fun g => m.turned.contains g))

/-- Two waits share a slot. -/
def SlotWait.meets (a b : SlotWait) : Bool := a.slots.any (fun p => b.slots.any (slotsMeet p))

/-- Where a requester stands in the rotation of the port of a slot (R116). -/
def TileMem.rank (m : TileMem) (o req : Nat) : Nat := (req + 12 - (if o < spEnd then m.arb else m.arbTm) % 12) % 12

/-- The waits of an operation let it proceed: it has seen its slots change, and no operation that stands before it in the rotation waits for a slot of it with its own condition met (R133). -/
def Tile.waitsPass (tl : Tile) (ws : List SlotWait) : Bool :=
  ws.all (fun w =>
    let o := match w.slots with
      | p :: _ => p.1
      | [] => 0
    !tl.mem.waitMet w || (tl.mem.waitSees w &&
      !tl.slotWaits.any (fun v => decide (tl.mem.rank o v.req < tl.mem.rank o w.req) && w.meets v && tl.mem.waitMet v && tl.mem.waitSees v)))

end Sys2Proof.Machine
end

