-- ==== Sys2Proof/Machine/WindowOps.lean ====
section
/-! DEFINITION. Remote windows: wopen and wclose, the checks on an arriving request, its service, and the deadline (R135 to R142). -/

namespace Sys2Proof.Machine

/-- The window's base handle number. -/
def Window.handle (w : Window) : Nat := bits w.w0 24 19
/-- Landings and reads honour tags. -/
def Window.tagged (w : Window) : Bool := bit w.w0 27
/-- Extent in bytes. -/
def Window.bytes (w : Window) : Nat := 32 * bits w.w1 13 0
/-- Drain interval in ticks, held to 500 to 25,000 (R135). -/
def Window.drain (w : Window) : Nat := clampN 500 25000 (bits w.w1 31 17)

/-- R136: the image that wopen accepts. -/
def Tile.windowImageOk (tl : Tile) (w0 w1 w3 : Word) : Bool :=
  let h := tl.handle (bits w0 24 19)
  let off := bits w0 12 0
  let len := bits w1 13 0
  let g := h.slotBytes / 32
  bits w0 31 28 == 0 && bits w0 18 13 == 0 && bits w1 16 14 == 0 && bits w3 31 21 == 0 &&
    (bit w0 26 || bit w0 25) && h.valid && !(len == 0) && decide (off + len ≤ h.length * g) &&
    (!bit w0 27 || (h.tagged && off % g == 0 && len % g == 0))

/-- wopen (R47, R136): BUSY unless CLOSED; then the image is read and checked. -/
def xWopen (t : TileId) (a : XArgs) (s : State) : State :=
  let v := s.rs1 t a
  let w := s.rs2 t a
  let tl := s.tile t
  let o := w.toNat
  let n := bits v 2 0
  if !(bits v 31 3 == 0) then s.badArg t .wopen a v
  else if !imageOk o 16 then s.badArg t .wopen a w
  else if !((tl.window n).state == 0) then s.finish t a stBusy 0 3
  else
    s.reading t 0 o 16 (fun bs s =>
      let w (i : Nat) : Word := leWord (bytesAt bs (4 * i) 4)
      if tl.windowImageOk (w 0) (w 1) (w 3) then
        (s.modTile t (fun tl => tl.setWindow n { w0 := w 0, w1 := w 1, w2 := w 2, w3 := w 3, state := 1 })).finish t a stOk 0 3
      else s.raise t 0 fcWindowImage (BitVec.ofNat 32 n) (w 0))

/-- wclose (R138): OPEN moves to CLOSING with its deadline; otherwise CLOSED. -/
def xWclose (t : TileId) (a : XArgs) (s : State) : State :=
  let v := s.rs1 t a
  let tl := s.tile t
  let n := bits v 2 0
  let w := tl.window n
  if !(bits v 31 3 == 0) then s.badArg t .wclose a v
  else if w.state = 1 then
    (s.setTile t (tl.setWindow n { w with state := 2, deadline := s.time + w.drain })).finish t a stOk 0 2
  else s.finish t a stClosed 0 2

/-- Answer a window request: a STATUS for a write, a REPLY for a read (R175). -/
def State.windowAnswer (s : State) (h : Hdr) (b : RemoteBody) (isWrite : Bool) (st : Nat) (data : List Byte) : State :=
  if isWrite then s.status h b.srcGen .xput st else s.reply h b.srcGen .xget st data

/-- The first check of R137 that a request fails, as its order, or none. -/
def Tile.windowCheck (tl : Tile) (b : RemoteBody) (isWrite : Bool) : Option Nat :=
  let w := tl.window b.window
  let h := tl.handle w.handle
  if !(w.state == 1 || w.state == 2) then some 1
  else if !(((b.srcWafer ^^^ bits w.w2 15 0) &&& bits w.w2 31 16) == 0) then some 2
  else if !(b.key == bits w.w3 15 0) then some 3
  else if !(if isWrite then bit w.w0 25 else bit w.w0 26) then some 4
  else if !(decide (b.offset + b.length ≤ w.bytes) &&
      (!w.tagged || (b.offset % h.slotBytes == 0 && b.length % h.slotBytes == 0 && !(b.length == 0)))) then some 5
  else none

/-- Where a request lies in the tile's window of addresses. -/
def Tile.windowAt (tl : Tile) (b : RemoteBody) : Nat :=
  let w := tl.window b.window
  (tl.handle w.handle).slotAt 0 + 32 * bits w.w0 12 0 + b.offset

/-- The slots a request covers meet their condition (R140). -/
def Tile.windowReady (tl : Tile) (b : RemoteBody) (isWrite : Bool) : Bool :=
  let w := tl.window b.window
  let h := tl.handle w.handle
  let o := tl.windowAt b
  let n := b.length / h.slotBytes
  !w.tagged || (upto n).all (fun i => tl.mem.isFull (o + i * h.slotBytes) == !isWrite)

/-- A request refused for an uncorrectable word (R118): the fault of unit 11, and one more refused with DENIED (R135). -/
def State.windowFault (s : State) (t : TileId) (h : Hdr) (b : RemoteBody) (isWrite : Bool) (u : Nat) : State :=
  let s := (s.ueFault t 11 u 0).modTile t (fun tl =>
    tl.setWindow b.window { tl.window b.window with denied := satAdd 0xFFFF (tl.window b.window).denied 1 })
  s.windowAnswer h b isWrite stDenied []

/-- Land a write or answer a read that has passed R137 and whose slots are ready (R140, R142); an uncorrectable word refuses it with DENIED and a fault of unit 11 (R118). -/
def State.windowServe (s : State) (t : TileId) (h : Hdr) (b : RemoteBody) (data : Option (List Byte)) : State :=
  let tl := s.tile t
  let w := tl.window b.window
  let hd := tl.handle w.handle
  let o := tl.windowAt b
  match data with
  | some bs =>
    match tl.mem.partialHit o b.length with
    | some u => s.windowFault t h b true u
    | none =>
      let s := ((s.merge t o b.length).served t 10 o).modTile t (fun tl =>
        let tl := tl.put o (bytesAt bs 0 b.length)
        let tl := if w.tagged then tl.fillTags o b.length else tl
        tl.setWindow b.window { tl.window b.window with done := w.done + 1 })
      let s := if bit w.w3 20 then s.signalLocal t (10 + b.window) (bits w.w3 19 16) 1 else s
      s.windowAnswer h b true stOk []
  | none =>
    match tl.mem.hit o b.length with
    | some u => s.windowFault t h b false u
    | none =>
      (((s.correct t o b.length).served t 10 o).modTile t (fun tl => if w.tagged && hd.consume then tl.emptyTags o b.length else tl)).windowAnswer
        h b false stOk (tl.get o b.length)

/-- Refuse a request by R137: counters and events by check (R137, R138, R143). -/
def State.windowRefuse (s : State) (t : TileId) (h : Hdr) (b : RemoteBody) (isWrite : Bool) (order : Nat) : State :=
  let w := (s.tile t).window b.window
  if order = 1 then
    let s := s.modTile t (fun tl => tl.setWindow b.window { w with drop := w.drop + 1 })
    (s.event (fieldOf t) 0x0481 [tileDetail t, b.window, b.srcWafer, (w.drop + 1).toNat]).windowAnswer h b isWrite stWindowClosed []
  else
    let s := s.modTile t (fun tl => tl.setWindow b.window { w with denied := satAdd 0xFFFF w.denied 1 })
    (s.event (fieldOf t) 0x0482 [tileDetail t, b.window, b.srcWafer, order]).windowAnswer h b isWrite stDenied []

/-- Refuse a request with STALL_TIMEOUT (R141). -/
def State.windowTimeout (s : State) (t : TileId) (h : Hdr) (b : RemoteBody) (isWrite : Bool) : State :=
  let w := (s.tile t).window b.window
  let s := s.modTile t (fun tl => tl.setWindow b.window { w with timeouts := satAdd 0xFF w.timeouts 1 })
  (s.event (fieldOf t) 0x0483 [tileDetail t, b.window, b.srcWafer]).windowAnswer h b isWrite stStallTimeout []

/-- A request arrives at a tile's window (R65, R137 to R141): served, held behind the requests ahead of it, or refused. -/
def State.windowRequest (s : State) (t : TileId) (h : Hdr) (b : RemoteBody) (data : Option (List Byte)) : State :=
  let tl := s.tile t
  let isWrite := data.isSome
  if !tl.inService || !(h.dstGen == 0 || h.dstGen == tl.gen) then s.windowAnswer h b isWrite stPeerLost []
  else
    match tl.windowCheck b isWrite with
    | some o => s.windowRefuse t h b isWrite o
    | none =>
      let w := tl.window b.window
      if w.held.isEmpty && tl.windowReady b isWrite then s.windowServe t h b data
      else if decide (4 ≤ w.held.length) then s.windowTimeout t h b isWrite
      else s.setTile t (tl.setWindow b.window { w with held := w.held ++ [{ h := h, body := b, data := data, since := s.run t }] })

/-- WOPEN (R136). -/
def execWopen (t : TileId) (a : XArgs) (s : State) : Out := .next (issue .wopen xWopen t a s)
/-- WCLOSE (R138). -/
def execWclose (t : TileId) (a : XArgs) (s : State) : Out := .next (issue .wclose xWclose t a s)

/-- REMOTE_READ (R137): a remote read reaches a tile's window. -/
def execRemoteRead (h : Hdr) (b : RemoteBody) (s : State) : Out :=
  .next (s.landing { h := h, body := .remoteRead b } fun s => s.windowRequest b.target h b none)

/-- REMOTE_WRITE (R137): a remote write reaches a tile's window. -/
def execRemoteWrite (h : Hdr) (b : RemoteBody) (data : List Byte) (s : State) : Out :=
  .next (s.landing { h := h, body := .remoteWrite b data } fun s => s.windowRequest b.target h b (some data))

/-- The tile's watchdog limit, if its watchdog is on; a limit of 0 acts as off (R66). -/
def Tile.watchdog (tl : Tile) : Option Nat := if tl.wdogEn && !(tl.wdogLimit == 0) then some tl.wdogLimit else none

/-- WINDOW_HELD_SERVE (R140): the request at the head of a window proceeds once its slots are ready, and not before; where other stalled operations wait on them too, in its turn (R133). -/
def execWindowHeldServe (t : TileId) (w : Nat) (s : State) : Out :=
  let tl := s.tile t
  let win := tl.window w
  .next (match win.held with
    | [] => s
    | r :: rest =>
      if tl.windowReady r.body r.data.isSome && tl.waitsPass (tl.windowWaits w) then
        (s.setTile t (tl.setWindow w { win with held := rest })).windowServe t r.h r.body r.data
      else s)

/-- WINDOW_HOLD_TIMEOUT (R141): the held request at the head that has waited the watchdog limit is refused. -/
def execWindowHoldTimeout (t : TileId) (w : Nat) (s : State) : Out :=
  let tl := s.tile t
  let win := tl.window w
  .next (match win.held, tl.watchdog with
    | r :: rest, some lim =>
      if lim ≤ s.run t - r.since then
        (s.setTile t (tl.setWindow w { win with held := rest })).windowTimeout t r.h r.body r.data.isSome
      else s
    | _, _ => s)

/-- Refuse every held request of a window with WINDOW_CLOSED, counting each in WIN_DROP (R138). -/
def State.windowFlush (s : State) (t : TileId) (w : Nat) : State :=
  let win := (s.tile t).window w
  let s := s.modTile t (fun tl => tl.setWindow w { win with held := [], drop := win.drop + BitVec.ofNat 32 win.held.length })
  win.held.foldl (fun s r => s.windowAnswer r.h r.body r.data.isSome stWindowClosed []) s

/-- WINDOW_DEADLINE (R138): wafer time reaches WIN_DEADLINE of a CLOSING window; held requests are refused and it becomes CLOSED. -/
def execWindowDeadline (t : TileId) (w : Nat) (s : State) : Out :=
  let win := (s.tile t).window w
  .next (if win.state = 2 ∧ win.deadline ≤ s.time then
      let s := s.windowFlush t w
      s.modTile t (fun tl => tl.setWindow w { tl.window w with state := 0, deadline := 0 })
    else s)

end Sys2Proof.Machine
end

