-- ==== Sys2Proof/Machine/Engines.lean ====
section
/-! DEFINITION. The ant engines and stealing: starting and retiring units (R51 to R54, R87, R88, R104 to R107), stealing within the tile (R55) and across tiles (R57 to R61), and sleep (R329). -/

namespace Sys2Proof.Machine

/-! ## Sleep and wake (R329) -/

/-- Wake a tile's engines; the first tile awake makes an IDLE field ACTIVE (R328, R329). -/
def State.wake (s : State) (t : TileId) : State :=
  let s := s.modTile t (fun tl => if tl.act.asleep then
      { tl with act := { tl.act with asleep := false, asleepCount := tl.act.asleepCount + BitVec.ofNat 32 (s.cycles t - tl.act.asleepAt) } } else tl)
  s.modField (fieldOf t) (fun fd => match fd.pwr.state with
    | .idle => { fd with pwr := { fd.pwr with state := .active } }
    | .off | .retain | .active | .failed => fd)

/-- Put a tile's engines to sleep; the last tile asleep makes an ACTIVE field IDLE. -/
def State.sleep (s : State) (t : TileId) : State :=
  let s := s.modTile t (fun tl => if tl.act.asleep then tl else { tl with act := { tl.act with asleep := true, asleepAt := s.cycles t } })
  let f := fieldOf t
  if s.tiles.any (fun e => fieldOf (keyTile e.1) == f && !e.2.act.asleep && e.2.present) then s
  else s.modField f (fun fd => match fd.pwr.state with
    | .active => { fd with pwr := { fd.pwr with state := .idle } }
    | .off | .retain | .idle | .failed => fd)

/-- All deques are empty and no unit is running (R57). -/
def Tile.enginesIdle (tl : Tile) : Bool :=
  (upto 8).all (fun e => (tl.engine e).deque.isEmpty && (tl.engine e).running.isNone)

/-- The cycle at which the last engine became idle. -/
def Tile.idleFrom (tl : Tile) : Nat := (upto 8).foldl (fun m e => if m < (tl.engine e).idleSince then (tl.engine e).idleSince else m) 0

/-- ENGINE_SLEEP (R329): 256 idle cycles with no thatch running. -/
def execEngineSleep (t : TileId) (s : State) : Out :=
  let tl := s.tile t
  .next (if s.clocked t && tl.enginesIdle && !tl.act.running && decide (tl.idleFrom + 256 ≤ s.cycles t) then s.sleep t else s)

/-! ## Starting a unit (R51, R87, R104, R112) -/

/-- The first failing metadata check of a unit: code, the low half of FAULT_INFO0 and the detail byte (R104, R107, R112). -/
def metaFail (d : Desc) (ab bb : List Byte) : Option (Nat × Nat × Nat) :=
  if d.op = 2 ∨ d.op = 3 then (structFail d ab).map (fun f => (f.2.2.1, f.1 * 1024 + f.2.1, f.2.2.2))
  else if d.op = 4 then rbFail d ab ab.length bb.length
  else none

/-- A unit fails its metadata check: the fault of R107 at the tile that runs it, then the unit's failure (R105, R106). -/
def State.metaFault (s : State) (t : TileId) (e : Nat) (u : FUnit) (f : Nat × Nat × Nat) : State :=
  (s.raise t (e + 1) f.1 (word [(f.2.1, 0), (u.unitId, 16)])
    (word [(u.home.x, 0), (u.home.y, 10), (e, 20), (f.2.2, 24)])).failUnit t e u

/-- The bytes of an operand at its home, or the first uncorrectable word in the parts of it that the unit reads (R118). -/
def Tile.operand (tl : Tile) (d : Desc) (which : Nat) : Except Nat (List Byte) :=
  let sp := tl.operandSpan d which
  match tl.operandUe d which with
  | some u => .error u
  | none => .ok (tl.get sp.1 (if which = 1 ∧ 4 < d.op then 0 else sp.2))

/-- A thief asks a stolen unit's home for an operand from a byte of it on (R59). -/
def State.askOperand (s : State) (t : TileId) (e : Nat) (u : FUnit) (entry which at_ : Nat) : State :=
  s.sendRequest t (homeHdr t u) (.operandRead { entry := entry, engine := e, homeGen := u.homeGen, which := which, at_ := at_ })

/-- A thief reads a stolen unit's operands from its home (R59). -/
def State.readOperands (s : State) (t : TileId) (e : Nat) (u : FUnit) (entry : Nat) : State :=
  (descOf u.desc).operands.foldl (fun s w => s.askOperand t e u entry w 0) s

/-- An own unit that has started makes its checks: a handle that is not valid, an uncorrectable word in A, or bad metadata ends it (R52, R105, R118). -/
def State.setupChecks (s : State) (t : TileId) (e : Nat) (u : FUnit) : State :=
  let tl := s.tile t
  let d := descOf u.desc
  match d.handles.find? (fun h => !(tl.handle h).valid) with
  | some h => (s.raise t (e + 1) fcBadHandle (BitVec.ofNat 32 h) (BitVec.ofNat 32 u.unitId)).failUnit t e u
  | none =>
    if d.op = 2 ∨ d.op = 3 ∨ d.op = 4 then
      match tl.operand d 0 with
      | .error o => (s.ueFault t (e + 1) o u.unitId).failUnit t e u
      | .ok ab =>
        let s := s.correctOperand t d 0
        let hb := tl.handle d.b
        match metaFail d ab (List.replicate (roomFrom hb d.bSlot) 0) with
        | some f => s.metaFault t e u f
        | none => s
    else s

/-- The head unit of a deque leaves it and starts. -/
def State.startUnit (s : State) (t : TileId) (e : Nat) (u : FUnit) (rest : List FUnit) : State :=
  let tl := s.tile t
  let mode := match u.stolen with
    | some (_, m) => m
    | none => tl.homeMode (descOf u.desc)
  let s := s.setTile t (tl.setEngine e { tl.engine e with deque := rest, running := some { unit := u, mode := mode }, headSince := none })
  let s := s.wake t
  match u.stolen with
  | some (entry, _) => s.readOperands t e u entry
  | none => s.setupChecks t e u

/-- UNIT_START (R51): the ready unit at the head of an idle engine's deque starts; a head that is not ready stalls the deque (R37), and one that has stalled takes its turn among those that wait on its slots (R133). A queue frozen in an earlier cycle starts none (R61, R108). -/
def execUnitStart (t : TileId) (e : Nat) (s : State) : Out :=
  let tl := s.tile t
  let g := tl.engine e
  .next (if decide (e < 8) && tl.present && s.clocked t && !tl.frozenAt (s.cycles t) && g.running.isNone then
      match g.deque with
      | [] => s
      | u :: rest =>
        if tl.unitReady u then (if tl.waitsPass (tl.engineWaits e) then s.startUnit t e u rest else s)
        else if g.headSince.isNone then s.setTile t (tl.setEngine e { g with headSince := some (s.run t) })
        else s
    else s)

/-! ## Retiring a unit (R51 to R54) -/

/-- The issue cycles a unit adds to ACT_ISSUE; a row-bundle unit's count beyond its least is open (R113). -/
def State.countIssue (s : State) (t : TileId) (d : Desc) : State :=
  let (x, s) := if d.op = 4 then s.freeVal else ((0 : Word), s)
  s.modTile t (fun tl => { tl with act := { tl.act with issue := tl.act.issue + BitVec.ofNat 32 d.cycles + x } })

/-- The operands a running unit works on: read from the tile's memory by an own unit that has not done so, else those it holds; none while an answer is missing. -/
def Tile.gathered (tl : Tile) (r : RunUnit) : Option (Except Nat (List Byte × List Byte × List Byte)) :=
  let d := descOf r.unit.desc
  if r.unit.stolen.isSome || r.opA.isSome then
    let need (w : Nat) (o : Option (List Byte)) : Option (List Byte) := if d.operands.contains w then o else some []
    match need 0 r.opA, need 1 r.opB, need 2 r.opC with
    | some a, some b, some c => some (.ok (a, b, c))
    | _, _, _ => none
  else
    some (match tl.operand d 0, tl.operand d 1, tl.operand d 2 with
      | .ok a, .ok b, .ok c => .ok (a, b, c)
      | .error u, _, _ => .error u
      | .ok _, .error u, _ => .error u
      | .ok _, .ok _, .error u => .error u)

/-- An engine's unit stalls at its retirement; the watchdog restarts where contributions have gone out since (R38, R221). -/
def State.stallEngine (s : State) (t : TileId) (e : Nat) (r : RunUnit) (restart : Bool) : State :=
  s.modTile t (fun tl => tl.setEngine e { tl.engine e with
    running := some { r with stallSince := some (if restart then s.run t else r.stallSince.getD (s.run t)) } })

/-- Pieces of n of a list, one at least. -/
def cutIn {α : Type} (n : Nat) (l : List α) : List (List α) := (upto (max 1 (cdiv l.length n))).map (fun i => (l.drop (n * i)).take n)

/-- The bytes of an operand or of a result that one packet of VC2 or VC3 carries (R173). -/
def stealChunk : Nat := 4096

/-- The writes of a stolen unit's result (R59, R88): contributions, or bytes by their place in it; the flags ride with the last. -/
def resultWrites (u : FUnit) (entry : Nat) (o : UnitOut) : List ResultBody :=
  let ps : List (List Word × List (Nat × Byte)) :=
    if (descOf u.desc).combine then (cutIn (stealChunk / 4) (o.elems.map (BitVec.ofNat 32))).map (fun es => (es, []))
    else (cutIn stealChunk (o.bytes.zipIdx.map (fun p => (p.2, p.1)))).map (fun ds => ([], ds))
  ps.zipIdx.map (fun p =>
    let last := decide (p.2 + 1 = ps.length)
    { entry := entry, homeGen := u.homeGen, unitId := u.unitId, flags := if last then o.flags else 0, elems := p.1.1, data := p.1.2, last := last })

/-- A stolen unit's result goes home in writes on VC3 (R59, R88), once the counter of its class has room for them; else the unit stalls at its retirement (R248). -/
def State.sendResult (s : State) (t : TileId) (e : Nat) (r : RunUnit) (entry : Nat) (o : UnitOut) : State :=
  let u := r.unit
  let ws := resultWrites u entry o
  if (s.tile t).sync.outstanding (writeClass t (homeHdr t u)) + ws.length ≤ 65535 then
    let s := s.modTile t (fun tl => tl.clearEngine e (s.cycles t))
    (ws.foldl (fun s b => s.sendWrite t (homeHdr t u) (.result b) (.result entry) true) s).countIssue t (descOf u.desc)
  else s.stallEngine t e r false

/-- Write an own unit's result, slot by slot, but for the slots that another unit in flight has taken (R54), and change its tags; or answer the uncorrectable word that the write covers in part, and write nothing (R51, R119). -/
def State.putResult (s : State) (t : TileId) (req : Nat) (d : Desc) (bs : List Byte) (lost : List Nat) : Option Nat × State :=
  let h := (s.tile t).handle d.c
  let p := s.settleOverlaps t ((s.tile t).destSlots d)
  let ps := resultPieces (h.slotAt d.cSlot) h.slotBytes bs (lost ++ p.1)
  match (p.2.tile t).piecesUe ps with
  | some u => (some u, p.2)
  | none => (none, ((p.2.writePieces t ps).modTile t (fun tl => tl.retireTags d)).served t req (h.slotAt d.cSlot))

/-- Retire an own unit whose result stands (R51, R52, R221). -/
def State.retireOwn (s : State) (t : TileId) (e : Nat) (r : RunUnit) (o : UnitOut) : State :=
  let tl := s.tile t
  let d := descOf r.unit.desc
  if d.combine then
    if !tl.sameConn d.conn r.unit.conn then s.failUnit t e r.unit
    else
      let p := s.sendElems t d (o.elems.map (BitVec.ofNat 32)) (o.elems.length + 1) r.sent
      if p.1 < o.elems.length then p.2.stallEngine t e { r with sent := p.1 } (decide (r.sent < p.1))
      else ((p.2.modTile t (fun tl => (tl.retireTags d).clearEngine e (s.cycles t))).countIssue t d).retired t r.unit o.flags e
  else if !tl.destReady d then s.stallEngine t e r false
  else
    let p := (s.modTile t (fun tl => tl.clearEngine e (s.cycles t))).putResult t (e + 1) d o.bytes r.lost
    match p.1 with
    | some u => (p.2.ueFault t (e + 1) u r.unit.unitId).failUnit t e r.unit
    | none => (p.2.countIssue t d).retired t r.unit o.flags e

/-- An own unit's operands are read as it accumulates: single-bit errors in them are corrected (R117). -/
def State.readOwn (s : State) (t : TileId) (e : Nat) (d : Desc) : State :=
  d.operands.foldl (fun s w => (s.correctOperand t d w).served t (e + 1) ((s.tile t).operandSpan d w).1) s

/-- A unit on an engine finishes accumulating. -/
def State.retireEngine (s : State) (t : TileId) (e : Nat) : State :=
  let tl := s.tile t
  match (tl.engine e).running with
  | none => s
  | some r =>
    let d := descOf r.unit.desc
    match tl.gathered r with
    | none => s
    | some (.error u) => (s.ueFault t (e + 1) u r.unit.unitId).failUnit t e r.unit
    | some (.ok (a, b, c)) =>
      let out := unitResult d r.mode.round r.mode.sat r.mode.seed a b c
      match r.unit.stolen with
      | none => (if r.opA.isNone then s.readOwn t e d else s).retireOwn t e { r with opA := some a, opB := some b, opC := some c } out
      | some (entry, _) =>
        match metaFail d a b with
        | some f => s.metaFault t e r.unit f
        | none => s.sendResult t e r entry out

/-- Free a steal-out entry (R60). -/
def Tile.dropOut (tl : Tile) (i : Nat) : Tile := { tl with forage := { tl.forage with out := tl.forage.out.erase i } }

/-- Replace a steal-out entry. -/
def Tile.setOut (tl : Tile) (i : Nat) (x : StealOut) : Tile := { tl with forage := { tl.forage with out := tl.forage.out.put i x } }

/-- A stolen-out unit has failed: its entry is freed, and it is counted (R60). -/
def State.failOut (s : State) (t : TileId) (i : Nat) (u : FUnit) : State :=
  (s.modTile t (fun tl => (tl.dropOut i).countFailed)).firingUnit t u.firing false

/-- The bytes of a result by their places in it (R59). -/
def ResultBody.bytes (b : ResultBody) : List Byte := (sortBy (fun x y => decide (x.1 ≤ y.1)) b.data).map (fun p => p.2)

/-- The result of a stolen-out unit that waits in its entry lands: forwarded while credits last, or written once its tagged slots are empty (R51, R59). An uncorrectable word that it covers in part is a fault of the memory, unit 12, and the unit fails (R119; log entry 78). -/
def State.landResult (s : State) (t : TileId) (i : Nat) : State :=
  let tl := s.tile t
  match tl.forage.out.find i with
  | none => s
  | some x =>
    match x.waiting with
    | none => s
    | some b =>
      let d := descOf x.unit.desc
      if d.combine then
        if !tl.sameConn d.conn x.unit.conn then s.failOut t i x.unit
        else
          let p := s.sendElems t d b.elems (b.elems.length + 1) x.sent
          if p.1 < b.elems.length then
            p.2.modTile t (fun tl => tl.setOut i { x with sent := p.1, since := if x.sent < p.1 then s.run t else x.since })
          else (p.2.modTile t (fun tl => (tl.retireTags d).dropOut i)).retired t x.unit b.flags 8
      else if !tl.destReady d then s
      else
        let p := (s.modTile t (fun tl => tl.dropOut i)).putResult t 10 d (ResultBody.bytes b) x.lost
        match p.1 with
        | some u => (p.2.ueFault t 12 u x.unit.unitId).failOut t i x.unit
        | none => p.2.retired t x.unit b.flags 8

/-- UNIT_RETIRE (R51): engines 0 to 7 finish their unit; 8 + i is the result that waits in steal-out entry i (R59). -/
def execUnitRetire (t : TileId) (e : Nat) (s : State) : Out :=
  .next (if !((s.tile t).present && s.clocked t) then s
    else if e < 8 then s.retireEngine t e else s.landResult t (e - 8))

/-! ## Stealing within the tile (R55) -/

/-- An engine has no unit: none queued and none running (R55). -/
def Tile.idleEngine (tl : Tile) (e : Nat) : Bool := (tl.engine e).deque.isEmpty && (tl.engine e).running.isNone

/-- The tail of sibling v may go to engine e in a cycle (R55, R56): it is ready and pinned to no other engine, it was pushed in an earlier cycle, and it is not the one unit that its own idle engine takes. -/
def Tile.mayMove (tl : Tile) (now e v : Nat) : Bool :=
  match tl.tail v with
  | none => false
  | some u =>
    let d := descOf u.desc
    !(v == e) && tl.unitReady u && (!d.pinEngine || d.cell == e) && !((tl.engine v).pushedAt == some now) &&
      !(tl.occ v == 1 && (tl.engine v).running.isNone)

/-- The sibling an idle engine chooses: most queued units, ties from its pointer. -/
def Tile.siblingFor (tl : Tile) (now e : Nat) : Option Nat :=
  let order := (upto 8).map (fun i => ((tl.engine e).sibling + i) % 8)
  let ok := order.filter (tl.mayMove now e)
  let best := ok.foldl (fun m v => if m < tl.occ v then tl.occ v else m) 0
  ok.find? (fun v => tl.occ v == best)

/-- The idle engines that choose the tail of sibling v in a cycle (R56). -/
def Tile.rivals (tl : Tile) (now v : Nat) : List Nat := (upto 8).filter (fun e => tl.idleEngine e && tl.siblingFor now e == some v)

/-- The engine that takes it: the first at or after the deque's thief pointer (R56). -/
def Tile.winner (tl : Tile) (now v : Nat) : Option Nat := firstFrom 8 (tl.engine v).thief (fun e => (tl.rivals now v).contains e)

/-- INTRA_TILE_STEAL (R55, R56): the tail unit of the chosen sibling moves to the idle engine's deque; where several engines choose it, to the one the deque's thief pointer names, which moves past that engine, and a loser changes nothing. -/
def execIntraTileSteal (t : TileId) (e : Nat) (s : State) : Out :=
  let tl := s.tile t
  let now := s.cycles t
  .next (if decide (e < 8) && tl.present && s.clocked t && !tl.frozen && tl.forage.intra && tl.idleEngine e then
      match tl.siblingFor now e with
      | none => s
      | some v =>
        match tl.tail v with
        | none => s
        | some u =>
          if tl.winner now v ≠ some e then s
          else
            let tl' := tl.popTail v now
            let tl' := if 2 ≤ (tl.rivals now v).length then tl'.setEngine v { tl'.engine v with thief := (e + 1) % 8 } else tl'
            s.setTile t (tl'.setEngine e { tl'.engine e with deque := [u], sibling := (v + 1) % 8 })
    else s)

/-! ## Stealing across tiles: the thief (R57, R59) -/

/-- Send one steal request for each idle engine that has none in flight (R57). -/
def State.searchAll (s : State) (t : TileId) : State :=
  (upto 8).foldl (fun s e =>
    let tl := s.tile t
    if (tl.engine e).search.isSome then s
    else
      match s.victims t with
      | [] => s
      | v :: rest =>
        let s := s.askSteal t e v rest
        s.modTile t (fun tl => { tl with forage := { tl.forage with searchRot := tl.forage.searchRot + 1 } })) s

/-- A tile may search (R57, R58): ADMITTED, not frozen, in a domain, and idle for idle_delay × 8 cycles. -/
def State.maySearch (s : State) (t : TileId) : Bool :=
  let tl := s.tile t
  tl.st == .admitted && !tl.frozen && s.clocked t && !(tl.forage.domain == 0) && tl.enginesIdle &&
    decide (tl.idleFrom + tl.forage.idleDelay * 8 ≤ s.cycles t)

/-- STEAL_SEARCH (R57): idle for idle_delay × 8 cycles, and no wait of R57 under way. -/
def execStealSearch (t : TileId) (s : State) : Out :=
  let f := (s.tile t).forage
  .next (if s.maySearch t && f.backoffUntil.isNone then s.searchAll t else s)

/-- STEAL_BACKOFF_EXPIRY (R57): the wait ends and the search starts again. -/
def execStealBackoffExpiry (t : TileId) (s : State) : Out :=
  let tl := s.tile t
  .next (match tl.forage.backoffUntil with
    | none => s
    | some n =>
      if n ≤ s.cycles t then
        let s := s.setTile t { tl with forage := { tl.forage with backoffUntil := none } }
        if s.maySearch t then s.searchAll t else s
      else s)

/-- The engine, or the core's 8, whose steal request carries a tag. -/
def Tile.askedBy (tl : Tile) (tag : Nat) : Option Nat :=
  (upto 9).find? (fun e => (tl.engine e).search.isSome && (tl.engine e).asked == tag)

/-- A victim had nothing to give: the next candidate, or the end of the search (R46, R57). -/
def State.stealMissed (s : State) (t : TileId) (e st : Nat) : State :=
  let tl := s.tile t
  match (tl.engine e).search with
  | none => s
  | some (v :: rest) => s.askSteal t e v rest
  | some [] =>
    let tl := tl.setEngine e { tl.engine e with search := none }
    let s := s.setTile t tl
    if e = coreThief then
      match tl.awaiting .fsteal 0 with
      | some k => s.finish t k.a st 0 2
      | none => s
    else if (upto 8).any (fun i => (tl.engine i).search.isSome) then s
    else s.setTile t { tl with forage := { tl.forage with backoffUntil := some (s.cycles t + tl.forage.idleDelay * 32) } }

/-- A unit reaches the thief: into the asking engine's deque, or for the core's request into the shortest one (R46, R59). -/
def State.stealGot (s : State) (t : TileId) (e : Nat) (u : StolenUnit) : State :=
  let tl := s.tile t
  let tl := tl.setEngine e { tl.engine e with search := none }
  if tl.frozen || !(tl.st == .admitted) then s.setTile t tl
  else
    let unit := { u.unit with stolen := some (u.entry, u.mode) }
    let tl := tl.enqueue (if e = coreThief then tl.shortest else e) unit (s.cycles t)
    let tl := { tl with forage := { tl.forage with stealIn := tl.forage.stealIn + 1 } }
    let s := s.setTile t tl
    if e = coreThief then
      match tl.awaiting .fsteal 0 with
      | some k => s.finish t k.a stOk (u.unit.unitId % 65536) 2
      | none => s
    else s

/-- STEAL_REPLY (R59): a unit, or NOT_FOUND; a reply that no request of the tile awaits changes nothing. -/
def execStealReply (h : Hdr) (u : Option StolenUnit) (s : State) : Out :=
  .next (s.landing { h := h, body := .stealReply u } fun s =>
    match endpTile h.dst with
    | none => s
    | some t =>
      let tl := s.tile t
      if !tl.answerOk h then s
      else
        match tl.askedBy h.tag, u with
        | none, _ => s
        | some e, none => s.stealMissed t e stNotFound
        | some e, some x => s.stealGot t e x)

/-- A unit with pin_tile set in its descriptor. -/
def pinTile (u : FUnit) : FUnit :=
  { u with desc := bytesAt u.desc 0 3 ++ [BitVec.ofNat 8 (fieldAt u.desc 3 1) ||| 2] ++ u.desc.drop 4 }

/-- A steal-out entry is voided and its unit queued again at the tail of the shortest deque, pinned to the tile (R60). -/
def State.voidOut (s : State) (t : TileId) (i : Nat) (u : FUnit) : State :=
  s.modTile t (fun tl => let tl := tl.dropOut i; tl.enqueue tl.shortest (pinTile u) (s.cycles t))

/-- A read reply to the thief was lost (R60): the thief drops the unit, and its home voids the entry while that still stands for it (how the home learns of it is DEDUCED, log entry 78). -/
def State.lostOperand (s : State) (t : TileId) (e : Nat) (u : FUnit) (entry : Nat) : State :=
  let s := s.modTile t (fun tl => tl.clearEngine e (s.cycles t))
  match (s.tile u.home).forage.out.find entry with
  | none => s
  | some x =>
    if x.unit.unitId == u.unitId && x.thief == t && x.waiting.isNone && (s.tile u.home).gen == u.homeGen then s.voidOut u.home entry x.unit else s

/-- An operand reply at the thief (R59): the bytes are kept, and where a packet's fill has come the next are asked for; DATA_ERROR is an uncorrectable word at the home, at the tile-local offset the reply names (R118; log entry 13); a lost reply drops the unit (R60). -/
def State.operandReply (s : State) (t : TileId) (e which at_ st : Nat) (data : List Byte) : State :=
  let tl := s.tile t
  match (tl.engine e).running with
  | none => s
  | some r =>
    match r.unit.stolen with
    | none => s
    | some (entry, _) =>
      if st = stOk then
        let got := r.part.getD which []
        let all := got ++ data
        let keep (r : RunUnit) : State := s.setTile t (tl.setEngine e { tl.engine e with running := some r })
        if at_ ≠ got.length then s
        else if data.length = stealChunk then (keep { r with part := r.part.put which all }).askOperand t e r.unit entry which all.length
        else keep (if which = 0 then { r with opA := some all } else if which = 1 then { r with opB := some all } else { r with opC := some all })
      else if st = stDataError then
        (s.raise t (e + 1) (ueCode at_) (BitVec.ofNat 32 at_) (BitVec.ofNat 32 r.unit.unitId)).failUnit t e r.unit
      else s.lostOperand t e r.unit entry

/-! ## Stealing across tiles: the home (R58 to R60) -/

/-- The tail of deque e may leave the tile (R58). -/
def Tile.mayGive (tl : Tile) (e : Nat) : Bool :=
  match tl.tail e with
  | none => false
  | some u =>
    let d := descOf u.desc
    tl.unitReady u && !d.pinTile && !d.pinEngine && u.stolen.isNone

/-- The victim's conditions (R58). -/
def Tile.mayServe (tl : Tile) (domain : Nat) : Bool :=
  tl.st == .admitted && !tl.frozen && !(domain == 0) && domain == tl.forage.domain &&
    decide (tl.forage.stealKeep < total ((upto 8).map tl.occ)) && decide (tl.forage.out.length < 16)

/-- Hand out the tail unit of the fullest qualifying deque; which of equals is open. -/
def State.giveUnit (s : State) (t : TileId) (thief : TileId) : Option StolenUnit × State :=
  let tl := s.tile t
  let ok := (upto 8).filter tl.mayGive
  let best := ok.foldl (fun m v => if m < tl.occ v then tl.occ v else m) 0
  let ties := ok.filter (fun v => tl.occ v == best)
  let (pick, s) := if 2 ≤ ties.length then s.freeVal else ((0 : Word), s)
  let e := nth ties (pick.toNat % ties.length) 0
  match ok, tl.tail e with
  | [], _ => (none, s)
  | _ :: _, none => (none, s)
  | _ :: _, some u =>
    let i := (firstBelow 16 (fun i => (tl.forage.out.find i).isNone)).getD 16
    let tl := tl.popTail e (s.cycles t)
    let tl := { tl with forage := { tl.forage with
      stealOut := tl.forage.stealOut + 1, out := tl.forage.out.put i { unit := u, since := s.run t, thief := thief } } }
    (some { unit := u, mode := tl.homeMode (descOf u.desc), entry := i }, s.setTile t tl)

/-- STEAL (R58): served with a unit or NOT_FOUND; a tile that takes no request answers PEER_LOST (R65). -/
def execSteal (h : Hdr) (engine domain gen : Nat) (s : State) : Out :=
  .next (s.landing { h := h, body := .steal engine domain gen } fun s =>
    match endpTile h.dst with
    | none => s
    | some t =>
      let tl := s.tile t
      if !tl.takes h.dstGen true then s.status h gen (.steal engine) stPeerLost
      else
        let p := if tl.mayServe domain then s.giveUnit t (s.sourceTile h.src) else (none, s)
        p.2.send { h := hdrBack h gen, body := .stealReply p.1 })

/-- OPERAND_READ (R59): a live entry's operand from the byte asked for on, as much as a packet holds; any other read is answered PEER_LOST (R377). An uncorrectable word draws DATA_ERROR with the stored bits (R118, R175). -/
def execOperandRead (h : Hdr) (b : OperandReq) (s : State) : Out :=
  .next (s.landing { h := h, body := .operandRead b } fun s =>
    match endpTile h.dst with
    | none => s
    | some t =>
      let tl := s.tile t
      let re : Re := .operand b.engine b.which b.at_
      match tl.forage.out.find b.entry with
      | none => s.reply h h.srcGen re stPeerLost []
      | some x =>
        let d := descOf x.unit.desc
        if tl.takes h.dstGen false && b.homeGen == tl.gen && x.thief == s.sourceTile h.src then
          match tl.operand d b.which with
          | .ok bs => (if b.at_ = 0 then s.correctOperand t d b.which else s).reply h h.srcGen re stOk ((bs.drop b.at_).take stealChunk)
          | .error o =>
            let sp := tl.operandSpan d b.which
            (s.logUe t o 2).reply h h.srcGen (.operand b.engine b.which o) stDataError (((tl.get sp.1 sp.2).drop b.at_).take stealChunk)
        else s.reply h h.srcGen re stPeerLost [])

/-- The live steal-out entry that a thief's RESULT or failure notice names. -/
def State.outEntry (s : State) (t : TileId) (h : Hdr) (entry homeGen unitId : Nat) : Option StealOut :=
  let tl := s.tile t
  match tl.forage.out.find entry with
  | none => none
  | some x =>
    if tl.inService && homeGen == tl.gen && x.unit.unitId == unitId && x.thief == s.sourceTile h.src && x.waiting.isNone then some x else none

/-- What a RESULT or failure notice without a live entry is answered: PEER_LOST where the tile's generation is not its own (R65), else CLOSED. -/
def Tile.lateStatus (tl : Tile) (homeGen : Nat) : Nat := if tl.inService && homeGen == tl.gen then stClosed else stPeerLost

/-- One more write of a result, behind those that have come. -/
def joinResult (got : Option ResultBody) (b : ResultBody) : ResultBody :=
  match got with
  | none => b
  | some a => { b with elems := a.elems ++ b.elems, data := a.data ++ b.data }

/-- RESULT (R59, R60): the writes of a live entry's result are kept, and at the last of them the result lands or waits; any other is discarded and counted in STEAL_LATE. -/
def execResult (h : Hdr) (b : ResultBody) (s : State) : Out :=
  .next (s.landing { h := h, body := .result b } fun s =>
    match endpTile h.dst with
    | none => s
    | some t =>
      match s.outEntry t h b.entry b.homeGen b.unitId with
      | none =>
        let s := s.modTile t (fun tl => { tl with forage := { tl.forage with stealLate := tl.forage.stealLate + 1 } })
        s.status h h.srcGen (.result b.entry) ((s.tile t).lateStatus b.homeGen)
      | some x =>
        let all := joinResult x.got b
        (if b.last then
          (s.modTile t (fun tl => tl.setOut b.entry { x with got := none, waiting := some all, since := s.run t })).landResult t b.entry
        else s.modTile t (fun tl => tl.setOut b.entry { x with got := some all })).status h h.srcGen (.result b.entry) stOk)

/-- STEAL_FAILURE_NOTICE (R60): the home counts the unit failed and frees the entry; the notice is a write of kind RESULT and is answered as one (R248). -/
def execStealFailureNotice (h : Hdr) (entry homeGen unitId : Nat) (s : State) : Out :=
  .next (s.landing { h := h, body := .failure entry homeGen unitId } fun s =>
    match endpTile h.dst with
    | none => s
    | some t =>
      match s.outEntry t h entry homeGen unitId with
      | none => s.status h h.srcGen (.result entry) ((s.tile t).lateStatus homeGen)
      | some x => (s.failOut t entry x.unit).status h h.srcGen (.result entry) stOk)

/-- STEAL_RETURN_TIMEOUT (R60): the entry is voided and its unit queued again on the shortest deque, pinned to the tile. -/
def execStealReturnTimeout (t : TileId) (entry : Nat) (s : State) : Out :=
  let tl := s.tile t
  .next (match tl.forage.out.find entry, tl.watchdog with
    | some x, some lim =>
      if x.waiting.isNone && decide (lim ≤ s.run t - x.since) then
        s.voidOut t entry x.unit
      else s
    | _, _ => s)

end Sys2Proof.Machine
end

