-- ==== Sys2Proof/Machine/Tick.lean ====
section
/-! DEFINITION. What a tick of wafer time does on an empty queue (log entry 1): the counts that time alone advances. -/

namespace Sys2Proof.Machine

/-- Cycles per tick of each operating point (R310). -/
def opN (op : Nat) : Nat := nth [108, 102, 96, 90, 84, 78, 72, 66, 60, 56, 52, 48, 44, 40, 36, 32] op 32

/-- The arithmetic clock of a field runs: its field is IDLE or ACTIVE, no relock holds it and no margin stop is in force (R298, R304, R313). -/
def Field.counting (fd : Field) : Bool :=
  fd.running && fd.clk.relock.isNone && fd.clk.stopped.isNone

/-- The cycles a tick takes from the count by stretch: at most a quarter of them (R301). -/
def FieldClk.lost (c : FieldClk) : Nat := if c.owe < opN c.op / 4 then c.owe else opN c.op / 4

/-- The cycles of debt a tick repays at 2 % above nominal frequency (R302), with the part of a cycle kept in acc. -/
def FieldClk.repaid (c : FieldClk) : Nat :=
  if c.fast then (if (c.acc + opN c.op) / 50 < c.debt then (c.acc + opN c.op) / 50 else c.debt) else 0

/-- One tick of a field (R3, R38): stretch takes cycles from the count and repayment gives them back (R301, R302). -/
def Field.tick (fd : Field) : Field :=
  let fd := if fd.running then { fd with runTicks := fd.runTicks + 1 } else fd
  if fd.counting then
    let c := fd.clk
    { fd with
      cycles := fd.cycles + opN c.op - c.lost + c.repaid
      clk := { c with owe := c.owe - c.lost, debt := c.debt - c.repaid, acc := if c.fast then (c.acc + opN c.op) % 50 else 0 } }
  else fd

/-- A tag change is older than the present cycle (R133). -/
def Tile.tick (tl : Tile) : Tile := { tl with mem := { tl.mem with turned := [] } }

/-- Start sampling (R167): a record every 2^n cycles from now. -/
def Tile.startProfile (tl : Tile) (h n now : Nat) : Tile :=
  { tl with fold := { tl.fold with
    profOn := true, profHandle := h, profLog := n, profNext := 0, profDue := now + 2 ^ n, profWraps := 0, profLostBit := false } }

/-- Sampling that a field controller ordered for wafer time T starts as wafer time reaches T (R167); where sampling already runs the order is dropped. -/
def Tile.sampleStart (tl : Tile) (now cyc n : Nat) : Tile :=
  match tl.fold.sampleAt with
  | none => tl
  | some (h, l, at_) =>
    if now < at_ then tl
    else
      let tl := { tl with fold := { tl.fold with sampleAt := none } }
      if tl.fold.profOn || !(tl.handle h).valid then tl else tl.startProfile h l (cyc - (now - at_) * n)

/-- A tick of 40 ns: wafer time counts in 64 bits (R4), and each field counts its own; a tile's ordered sampling starts as its time comes (R167). -/
def State.tick (s : State) : State :=
  let now := wrapAdd 64 s.time 1
  let fields := s.fields.mapVals (fun _ fd => fd.tick)
  { s with
    time := now
    fields := fields
    tiles := s.tiles.mapVals (fun k tl =>
      let fd := fields.getD (fieldOf (keyTile k)) {}
      tl.tick.sampleStart now fd.cycles (opN fd.clk.op)) }

end Sys2Proof.Machine
end

