-- ==== Sys2Proof/Machine/FoldOps.lean ====
section
/-! DEFINITION. The dataflow instructions: dload, dswitch, dpurge, dsample (R47, R158 to R162, R167). -/

namespace Sys2Proof.Machine

/-- Cost of a dload (R47). -/
def dloadCost (inTm : Bool) (size : Nat) : Nat := 32 + cdiv size (if inTm then 64 else 256)

/-- dload (R158). -/
def xDload (t : TileId) (a : XArgs) (s : State) : State :=
  let v := s.rs1 t a
  let w := s.rs2 t a
  let tl := s.tile t
  let r := hrefOf w
  if !(bits v 31 3 == 0) then s.badArg t .dload a v
  else if !tl.refOk r then s.badArg t .dload a w
  else
    match s.dloadAt t (bits v 2 0) r (nbit a.mods 0) with
    | .fault s => s
    | .answer st n s =>
      let size := match ((s.tile t).slot (bits v 2 0)).image with | some im => im.size | none => 0
      s.finish t a st n (dloadCost (tl.handle r.handle).inTm (if st = stOk then size else 0))

/-- dswitch (R161): to a loaded slot, clearing sched_en; or with mod 0 resume the schedule; EMPTY where neither holds. In the cycle of a conductor's switch it returns OK without effect (R162). -/
def xDswitch (t : TileId) (a : XArgs) (s : State) : State :=
  let v := s.rs1 t a
  let tl := s.tile t
  let sl := bits v 2 0
  if nbit a.mods 0 then
    if !(v == 0) then s.badArg t .dswitch a v
    else if tl.fold.switchedAt == some (s.cycles t) then s.finish t a stOk 0 4
    else if tl.fold.schedLen = 0 then s.finish t a stEmpty 0 4
    else
      let tl := { tl with fold := { tl.fold with schedEn := true } }
      (s.setTile t (tl.toEntry tl.fold.schedPos (s.cycles t))).finish t a stOk 0 4
  else if !(bits v 31 3 == 0) then s.badArg t .dswitch a v
  else if tl.fold.switchedAt == some (s.cycles t) then s.finish t a stOk 0 4
  else if (tl.slot sl).image.isNone then s.finish t a stEmpty 0 4
  else (s.setTile t (({ tl with fold := { tl.fold with schedEn := false } }).activate sl)).finish t a stOk 0 4

/-- dpurge (R160). -/
def xDpurge (t : TileId) (a : XArgs) (s : State) : State :=
  let v := s.rs1 t a
  if !(bits v 31 3 == 0) then s.badArg t .dpurge a v
  else
    let p := s.purge t (bits v 2 0)
    p.2.finish t a stOk p.1 (2 + cdiv p.1 8)

/-- dsample (R167): start on a valid handle and an interval of 6 to 16, or stop with 0; BUSY while sampling runs. -/
def xDsample (t : TileId) (a : XArgs) (s : State) : State :=
  let v := s.rs1 t a
  let w := s.rs2 t a
  let tl := s.tile t
  let h := bits v 5 0
  if !(bits v 31 6 == 0) || !(tl.handle h).valid then s.badArg t .dsample a v
  else if !(w == 0 || within 6 16 w.toNat) then s.badArg t .dsample a w
  else if w == 0 then (s.setTile t { tl with fold := { tl.fold with profOn := false } }).finish t a stOk 0 2
  else if tl.fold.profOn then s.finish t a stBusy 0 2
  else (s.setTile t (tl.startProfile h w.toNat (s.cycles t))).finish t a stOk 0 2

/-- DLOAD (R158). -/
def execDload (t : TileId) (a : XArgs) (s : State) : Out := .next (issue .dload xDload t a s)
/-- DSWITCH (R161). -/
def execDswitch (t : TileId) (a : XArgs) (s : State) : Out := .next (issue .dswitch xDswitch t a s)
/-- DPURGE (R160). -/
def execDpurge (t : TileId) (a : XArgs) (s : State) : Out := .next (issue .dpurge xDpurge t a s)
/-- DSAMPLE (R167). -/
def execDsample (t : TileId) (a : XArgs) (s : State) : Out := .next (issue .dsample xDsample t a s)

end Sys2Proof.Machine
end

