-- ==== Sys2Proof/Machine/FireUnit.lean ====
section
/-! DEFINITION. The fire unit at work: arriving tokens and credits (R145, R152, R153, R159), issuing, emitting and completing firings (R151, R154 to R156), sources (R164), the schedule and switches (R161, R163) and sampling (R167). -/

namespace Sys2Proof.Machine

/-! ## Arrivals -/

/-- The clock of a packet's tile runs (R166). -/
def State.endClocked (s : State) : Endp → Bool
  | .tile t => s.clocked t
  | .dock _ _ | .fc _ | .gate _ | .conductor => true

/-- Count a refused token (R153). -/
def Tile.refuseToken (tl : Tile) : Tile := { tl with fold := { tl.fold with refused := tl.fold.refused + 1 } }

/-- TOKEN (R145): checked against the generation (R65), then landed, kept unbound, rejected with its credit (R165) or refused with RETRY (R153). A fire unit whose clock is stopped holds its state, and the packet waits (R166). -/
def execToken (h : Hdr) (b : TokenBody) (s : State) : Out :=
  .next (if !s.endClocked h.dst then s else s.landing { h := h, body := .token b } fun s =>
    match endpTile h.dst with
    | none => s
    | some t =>
      let tl := s.tile t
      let ans (s : State) (code : Nat) : State := s.status h b.srcGen (.token b) code
      if !tl.takes h.dstGen false then ans s stPeerLost
      else
        match tl.tokenFate b with
        | .land sl im => ans ((s.setTile t (tl.landToken sl im b (s.run t))).served t 10 (tl.landingOf im b.node b.port b.iteration b.part).1) stOk
        | .keepUnbound =>
          ans (s.setTile t { tl with fold := { tl.fold with store := tl.fold.store ++ [Tok.mk b none (s.run t)] } }) stOk
        | .reject => ans ((s.tokenCredit t b).event (fieldOf t) 0x0781 [tileDetail t, tileDetail b.src, b.emit]) stRefused
        | .retry => ans (s.setTile t tl.refuseToken) stRetry)

/-- TOKEN_CREDIT (R152): one credit returns to an emit entry; a stale generation's is discarded. -/
def execTokenCredit (h : Hdr) (slot emit : Nat) (s : State) : Out :=
  .next (if !s.endClocked h.dst then s else s.landing { h := h, body := .tokenCredit slot emit } fun s =>
    match endpTile h.dst with
    | none => s
    | some t =>
      let tl := s.tile t
      let sl := tl.slot slot
      if tl.present && h.dstGen == tl.gen then
        s.setTile t (tl.setSlot slot { sl with credits := sl.credits.set emit (nth sl.credits emit 0 + 1) })
      else s)

/-- TOKEN_ORPHAN (R159): an unbound token of no loaded epoch that is past the watchdog limit is discarded, its credit returned (but not by a tile with a fault, R165) and the event written. -/
def execTokenOrphan (t : TileId) (i : Nat) (s : State) : Out :=
  let tl := s.tile t
  .next (match tl.fold.store[i]?, tl.watchdog with
    | some k, some lim =>
      if k.slot.isNone && (tl.slotOfEpoch k.body.epoch).isNone && s.clocked t && decide (lim ≤ s.run t - k.since) then
        let s := s.setTile t { tl with fold := { tl.fold with store := tl.fold.store.eraseIdx i, orphan := tl.fold.orphan + 1 } }
        (s.tokenCredit t k.body).event (fieldOf t) 0x0782 [tileDetail t, k.body.epoch, k.body.iteration]
      else s
    | _, _ => s)

/-! ## Firings -/

/-- The token that fed a port's part. -/
def FoldUnit.fed (u : FoldUnit) (sl node i port part : Nat) : Option Tok :=
  (u.tokensOf sl node i).find? (fun k => k.body.port == port && k.body.part == part)

/-- A port's input of a firing is void. -/
def FoldUnit.portVoid (u : FoldUnit) (sl node i port : Nat) : Bool :=
  (u.tokensOf sl node i).any (fun k => k.body.port == port && k.body.void)

/-- What a firing does (R151, R154 to R156): its actions and emits, void tokens everywhere, the steer's or merge's choice, or a conflict. -/
inductive FireKind where
  | acts
  | void
  | choose (n : Nat)
  | conflict
  | error (off : Nat)
  deriving DecidableEq, Repr, Inhabited

/-- The kind of a complete firing. Choice 2 makes every output void. -/
def Tile.fireKind (tl : Tile) (im : Image) (sl node i : Nat) : FireKind :=
  let u := tl.fold
  let k := (im.node node).kind
  let v0 := u.portVoid sl node i 0
  let v1 := u.portVoid sl node i 1
  if k = 1 then
    if v0 then .void
    else
      let o := (tl.landingOf im node 0 i 0).1
      match tl.mem.hit o 1 with
      | some e => .error e
      | none => if v1 then .choose 2 else .choose (leNat (tl.get o 1) % 2)
  else if k = 2 then
    if v0 ∧ v1 then .choose 2 else if v0 then .choose 1 else if v1 then .choose 0 else .conflict
  else if (u.tokensOf sl node i).any (fun t => t.body.void) then .void else .acts

/-- FAULT_INFO0 of a firing's fault (R165). -/
def fireInfo (sl node rest at_ : Nat) : Word := word [(sl, 0), (node, 3), (rest, at_)]

/-- End a firing without emits, leaving its tokens (R165). -/
def Tile.dropFiring (tl : Tile) (c : Nat) : Tile := { tl with fold := { tl.fold with ctxs := tl.fold.ctxs.erase c } }

/-- Change a firing context. -/
def Tile.setFiring (tl : Tile) (c : Nat) (x : FCtx) : Tile := { tl with fold := { tl.fold with ctxs := tl.fold.ctxs.put c x } }

/-- The descriptor a template pushes for iteration i (R157): slots advanced and the salt moved; a row-bundle descriptor has no slot fields (R110). -/
def templDesc (e : TemplE) (i : Nat) : List Byte :=
  let r := i % (if e.period = 0 then 1 else e.period)
  let slot (o step : Nat) : List Byte := natLe 2 (fieldAt e.desc o 2 + r * step)
  let slots := if fieldAt e.desc 0 1 = 4 then bytesAt e.desc 14 6 else slot 14 e.aStep ++ slot 16 e.bStep ++ slot 18 e.cStep
  bytesAt e.desc 0 14 ++ slots ++ natLe 2 (fieldAt e.desc 20 2 + i) ++ bytesAt e.desc 22 10

/-- Run a firing's actions from where it stands (R151): a FORAGE pushes a unit or stalls on a full deque, a refused descriptor is a fault of unit 9. -/
def State.runActions (s : State) (t : TileId) (c : Nat) : Nat → State
  | 0 => s
  | fuel + 1 =>
    let tl := s.tile t
    match tl.fold.ctxs.find c with
    | none => s
    | some x =>
      match (tl.slot x.slot).image with
      | none => s
      | some im =>
        let n := im.node x.node
        if n.actCount ≤ x.act then
          s.setTile t (tl.setFiring c { x with phase := if x.outstanding = 0 then .emit 0 0 else .units, since := none })
        else
          let a := nth im.actions (n.actFirst + x.act) default
          if a.signal then (s.setTile t (tl.setFiring c { x with act := x.act + 1 })).runActions t c fuel
          else
            let e := nth im.templates a.arg default
            let bs := templDesc e x.iter
            match tl.pushFail bs with
            | some f =>
              let s := s.setTile t (tl.setFiring c { x with failed := some a.arg, since := none })
              match f with
              | .descriptor => s.raise t 9 fcBadDescriptor (leWord (bytesAt bs 0 4)) (leWord (bytesAt bs 8 4))
              | .handle h => s.raise t 9 fcBadHandle (BitVec.ofNat 32 h) (word [(a.arg, 0), (x.node, 16), (x.slot, 24), (1, 31)])
            | none =>
              let d := tl.dequeFor (descOf bs) e.deque
              if 16 ≤ tl.occ d then s.setTile t (tl.setFiring c { x with since := some (x.since.getD (s.run t)) })
              else
                let tl := tl.setFiring c { x with act := x.act + 1, outstanding := x.outstanding + 1, since := none }
                (s.setTile t (tl.push t bs d (some (c, a.arg)) (s.cycles t))).runActions t c fuel

/-- A steer node whose control token is real reads its control byte (R117, R155). -/
def State.controlRead (s : State) (t : TileId) (im : Image) (sl node i : Nat) : State :=
  let tl := s.tile t
  if (im.node node).kind = 1 ∧ tl.fold.portVoid sl node i 0 = false then
    let o := (tl.landingOf im node 0 i 0).1
    (s.correct t o 1).served t 9 o
  else s

/-- Issue the firing at the head of the ready list into a free context; complete firings that waited for room enter behind it (R150). -/
def State.issueFiring (s : State) (t : TileId) (im : Image) (c sl node i : Nat) (rest : List (Nat × Nat × Nat)) : State :=
  let s := s.controlRead t im sl node i
  let tl := s.tile t
  let tl := { tl with fold := { tl.fold with ready := rest, readySince := none } }
  let start (k : FPhase) (v : Bool) (ch : Nat) (tl : Tile) : Tile :=
    tl.setFiring c { slot := sl, node := node, iter := i, phase := k, isVoid := v, choose := ch }
  match tl.fireKind im sl node i with
  | .error o => (s.setTile t tl).ueFault t 9 o 0
  | .conflict => (s.setTile t tl).raise t 9 0x070B (fireInfo sl node 0 0) (BitVec.ofNat 32 i)
  | .void => s.setTile t (start (.emit 0 0) true 2 { tl with fold := { tl.fold with voids := tl.fold.voids + 1 } }).fillReady
  | .choose n => s.setTile t (start (.emit 0 0) false n tl).fillReady
  | .acts => (s.setTile t (start .issue false 0 tl).fillReady).runActions t c 257

/-- A firing whose actions wait goes on; else the head of the ready list takes a free context once its inputs are full; else the head stalls (R150, R151). -/
def State.fireIssue (s : State) (t : TileId) : State :=
  let tl := s.tile t
  if !(tl.present && s.clocked t) || tl.frozen then s
    else
      match tl.fold.ctxs.find? (fun e => e.2.phase == .issue && e.2.failed.isNone) with
      | some e => s.runActions t e.1 257
      | none =>
        match tl.fold.ready with
        | [] => s
        | (sl, node, i) :: rest =>
          match firstBelow 4 (fun c => (tl.fold.ctxs.find c).isNone), (tl.slot sl).image with
          | some c, some im =>
            if tl.inputsFull im sl node i then s.issueFiring t im c sl node i rest
            else s.setTile t { tl with fold := { tl.fold with readySince := some (tl.fold.readySince.getD (s.run t)) } }
          | _, _ => s.setTile t { tl with fold := { tl.fold with readySince := some (tl.fold.readySince.getD (s.run t)) } }

/-- FIRING_ISSUE (R151). -/
def execFiringIssue (t : TileId) (s : State) : Out := .next (s.fireIssue t)

/-! ## Emission and completion -/

/-- A token of this firing waits to be sent again (R153). -/
def Tile.holdsFor (tl : Tile) (x : FCtx) (im : Image) : Bool :=
  tl.fold.held.any (fun k => k.body.slot == x.slot && k.iter == x.iter &&
    decide ((im.node x.node).outFirst ≤ k.body.emit) && decide (k.body.emit < (im.node x.node).outFirst + (im.node x.node).outCount))

/-- Send token j of an emit entry (R148, R151): one credit; its source slot goes empty if tagged. -/
def State.sendToken (s : State) (t : TileId) (im : Image) (c : Nat) (x : FCtx) (e j : Nat)
    (src : Option (Nat × Nat × Nat × Bool)) : State :=
  let s := match src with
    | some p => (s.correct t p.1 p.2.1).served t 9 p.1
    | none => s
  let tl := s.tile t
  let n := im.node x.node
  let k := n.outFirst + e
  let em := nth im.emits k default
  let abs := x.iter * em.p + j
  let payload := match src with | some p => tl.get p.1 p.2.1 | none => []
  let body : TokenBody :=
    { iteration := abs / em.c % iterMod, epoch := em.epoch, void := src.isNone, node := em.node, port := em.port,
      part := abs % em.c, len := payload.length / 32, slot := x.slot, emit := k, src := t, srcGen := tl.gen, payload := payload }
  let tl := match src with
    | some p => if p.2.2.2 then tl.emptyTags p.1 p.2.2.1 else tl
    | none => tl
  let sl := tl.slot x.slot
  let tl := tl.setSlot x.slot { sl with credits := sl.credits.set k (nth sl.credits k 0 - 1) }
  let next : FPhase := if j + 1 < em.p then .emit e (j + 1) else if e + 1 < n.outCount then .emit (e + 1) 0 else .completing
  let tl := tl.setFiring c { x with phase := next, since := none }
  (s.setTile t tl).sendWriteOf t { src := .tile t, dst := .tile em.target, dstGen := em.dstGen, tag := 0 } (.token body) (.token body) true x.iter

/-- The next token of a firing, once a credit, its full source slot and a write counter allow it; else the emission stalls (R151). -/
def State.tokenEmit (s : State) (t : TileId) (c : Nat) : State :=
  let tl := s.tile t
  if !(tl.present && s.clocked t) || tl.frozen then s
    else
      match tl.fold.ctxs.find c with
      | none => s
      | some x =>
        match x.phase, (tl.slot x.slot).image with
        | .emit e j, some im =>
          let n := im.node x.node
          let k := n.outFirst + e
          let em := nth im.emits k default
          if n.outCount ≤ e then s.setTile t (tl.setFiring c { x with phase := .completing })
          else if tl.holdsFor x im then s
          else
            let src := tl.emitSource im x e j
            let full := match src with | some p => !p.2.2.2 || tl.mem.isFull p.1 | none => true
            let room := s.mayWrite t { src := .tile t, dst := .tile em.target, dstGen := 0, tag := 0 }
            if nth (tl.slot x.slot).credits k 0 = 0 || !full || !room then
              s.setTile t (tl.setFiring c { x with since := some (x.since.getD (s.run t)) })
            else if !x.isVoid && decide (n.kind = 0 ∨ n.kind = 3) && !(em.len == 0) && !(tl.handle em.srcHandle).valid then
              (s.setTile t (tl.dropFiring c)).raise t 9 fcBadHandle (BitVec.ofNat 32 em.srcHandle) (fireInfo x.slot x.node k 6)
            else
              match src.bind (fun p => tl.mem.hit p.1 p.2.1) with
              | some u => (s.setTile t (tl.dropFiring c)).ueFault t 9 u 0
              | none => s.sendToken t im c x e j src
        | _, _ => s

/-- TOKEN_EMIT (R151). -/
def execTokenEmit (t : TileId) (c : Nat) (s : State) : Out := .next (s.tokenEmit t c)

/-- Release a completed firing's inputs (R151): landing slots empty, tokens gone, one credit for each. -/
def State.releaseInputs (s : State) (t : TileId) (im : Image) (x : FCtx) : State :=
  let tl := s.tile t
  let ks := tl.fold.tokensOf x.slot x.node x.iter
  let tl := (tl.firingSlots im x.slot x.node x.iter).foldl (fun y p => if p.2.2 then y.emptyTags p.1 p.2.1 else y) tl
  let tl := { tl with fold := { tl.fold with store := tl.fold.store.filter (fun k => !ks.contains k) } }
  ks.foldl (fun s k => s.tokenCredit t k.body) (s.setTile t tl)

/-- FIRING_COMPLETE (R151): inputs released, the node's window moves, SIGNAL actions take effect and the context is free. -/
def execFiringComplete (t : TileId) (c : Nat) (s : State) : Out :=
  let tl := s.tile t
  .next (if !(tl.present && s.clocked t) || tl.frozen then s
    else
      match tl.fold.ctxs.find c with
      | none => s
      | some x =>
        match (tl.slot x.slot).image with
        | none => s
        | some im =>
          let n := im.node x.node
          let ended := match x.phase with
            | .completing => true
            | .emit e _ => decide (n.outCount ≤ e)
            | .issue | .units => false
          if !ended || tl.holdsFor x im then s
          else
            let s := s.releaseInputs t im x
            let s := s.modTile t (fun tl =>
              let sl := tl.slot x.slot
              let nd := (nth sl.nodes x.node ({} : NodeSt)).finish x.iter
              let tl := tl.setSlot x.slot { sl with nodes := sl.nodes.set x.node nd, firings := sl.firings + 1 }
              (tl.dropFiring c).fillReady)
            let s := s.bindAll t
            let acts := if x.isVoid || n.kind == 1 || n.kind == 2 then [] else (im.actions.drop n.actFirst).take n.actCount
            (acts.filter (fun a => a.signal)).foldl (fun s a => s.signalLocal t 26 (a.arg % 16) 1) s)

/-- SOURCE_FIRE (R164): an armed source of the active slot with fewer than W firings open enters the ready list. -/
def execSourceFire (t : TileId) (slot node : Nat) (s : State) : Out :=
  let tl := s.tile t
  let sl := tl.slot slot
  .next (match sl.image with
    | none => s
    | some im =>
      let n := nth sl.nodes node ({} : NodeSt)
      if (im.node node).kind == 3 && decide (node < im.nodes.length) && !(sl.armed == 0) && tl.fold.active == slot && !tl.frozen &&
          tl.present && s.clocked t && decide (n.openCount < (im.node node).window) && decide (tl.fold.ready.length < 32) then
        let tl := tl.setSlot slot { sl with armed := sl.armed - 1, nodes := sl.nodes.set node { n with next := (n.next + 1) % iterMod } }
        s.setTile t { tl with fold := { tl.fold with ready := tl.fold.ready ++ [(slot, node, n.next)] } }
      else s)

/-- SLOT_ARM (R164, R168): a write adds to the armed count, saturating. -/
def execSlotArm (t : TileId) (w : Writer) (slot n : Nat) (s : State) : Out :=
  let tl := s.tile t
  let sl := tl.slot slot
  .next (if coreOrFc w && decide (slot < 8) then
      s.setTile t (tl.setSlot slot { sl with armed := satAdd (iterMod - 1) sl.armed (n % iterMod) })
    else s)

/-! ## Retries and watchdog -/

/-- The node of an image that owns an emit entry. -/
def Image.owner (im : Image) (k : Nat) : Nat :=
  (firstBelow im.nodes.length (fun n => decide ((im.node n).outFirst ≤ k) && decide (k < (im.node n).outFirst + (im.node n).outCount))).getD 0

/-- A fault about an emitted token (R165): slot, node and emit, the flag of EMIT_LOST in bit 31, and the firing's iteration. -/
def State.emitFault (s : State) (t : TileId) (code : Nat) (b : TokenBody) (iter top : Nat) : State :=
  let node := match ((s.tile t).slot b.slot).image with
    | some im => im.owner b.emit
    | none => 0
  s.raise t 9 code (word [(b.slot, 0), (node, 3), (b.emit, 6), (top, 31)]) (BitVec.ofNat 32 iter)

/-- Cycles between two sendings of a refused token (R153). -/
def retryGap : Nat := 64

/-- A token's answer at its sender (R152, R153, R165): RETRY holds it for its next sending; any other answer ends it, and a refusal is a fault of unit 9. -/
def State.tokenAnswer (s : State) (t : TileId) (h : Hdr) (b : TokenBody) (code : Nat) : State :=
  let tl := s.tile t
  let mine (k : HeldTok) : Bool := k.body == b && k.h.tag == h.tag
  match tl.sync.writes.find? (fun w => w.tag == h.tag && w.re == .token b) with
  | none => s
  | some w =>
    if code = stRetry then
      let due := s.cycles t + retryGap
      if tl.fold.held.any mine then
        s.setTile t { tl with fold := { tl.fold with held := tl.fold.held.map (fun k => if mine k then { k with sent := false, due := due } else k) } }
      else
        let emits := match (tl.slot b.slot).image with | some im => im.emits | none => []
        let hd : Hdr := { src := .tile t, dst := w.dst, dstGen := (nth emits b.emit default).dstGen, tag := h.tag }
        let k : HeldTok := { h := hd, body := b, iter := w.iter, since := s.run t, due := due, sent := false }
        s.setTile t { tl with fold := { tl.fold with held := tl.fold.held ++ [k] } }
    else
      let tl := tl.settle h.tag (.token b) (code == stOk)
      let s := s.setTile t { tl with fold := { tl.fold with held := tl.fold.held.filter (fun k => !mine k) } }
      if code = stOk then s
      else if code = stRefused then s.emitFault t 0x070A b w.iter 0
      else s.emitFault t 0x0708 b w.iter (if code = stPeerLost then 0 else 1)

/-- TOKEN_RETRY_RESEND (R153): a held token is sent again 64 cycles after its refusal; DF_RETRY counts it. -/
def execTokenRetryResend (t : TileId) (i : Nat) (s : State) : Out :=
  let tl := s.tile t
  .next (match tl.fold.held[i]? with
    | none => s
    | some k =>
      if !k.sent && decide (k.due ≤ s.cycles t) && tl.present && s.clocked t && !tl.frozen then
        let tl := { tl with fold := { tl.fold with held := tl.fold.held.set i { k with sent := true }, retry := tl.fold.retry + 1 } }
        (s.setTile t tl).send { h := k.h, body := .token k.body }
      else s)

/-- Whether a stall that began at a tick has lasted the watchdog limit; force ends it in any case (R38, R259). -/
def Tile.expired (tl : Tile) (now : Nat) (since : Option Nat) (force : Bool) : Bool :=
  match since with
  | none => false
  | some b => force || (match tl.watchdog with | some lim => decide (lim ≤ now - b) | none => false)

/-- The fire unit's stalls end (R38, R153, R259): an emission fails with EMIT_TIMEOUT, a stalled push or ready head with FIRING_FAILED (log entry 14). -/
def State.fireExpire (s : State) (t : TileId) (force : Bool) : State :=
  let tl := s.tile t
  let now := s.run t
  match tl.fold.held.find? (fun k => tl.expired now (some k.since) force) with
  | some k =>
    (s.setTile t { tl with fold := { tl.fold with held := tl.fold.held.filter (fun x => !(x == k)) } }).emitFault t 0x0709 k.body k.iter 0
  | none =>
    match tl.fold.ctxs.find? (fun e => tl.expired now e.2.since force) with
    | some e =>
      let x := e.2
      let s := s.setTile t (tl.setFiring e.1 { x with failed := some 0, since := none })
      match x.phase, (tl.slot x.slot).image with
      | .emit k _, some im =>
        s.raise t 9 0x0709 (word [(x.slot, 0), (x.node, 3), ((im.node x.node).outFirst + k, 6)]) (BitVec.ofNat 32 x.iter)
      | _, some im =>
        let a := nth im.actions ((im.node x.node).actFirst + x.act) default
        s.raise t 9 0x070C (fireInfo x.slot x.node a.arg 16) (BitVec.ofNat 32 x.iter)
      | _, none => s
    | none =>
      match tl.fold.ready with
      | [] => s
      | (sl, node, i) :: rest =>
        if tl.expired now tl.fold.readySince force then
          (s.setTile t { tl with fold := { tl.fold with ready := rest, readySince := none } }).raise t 9 0x070C
            (fireInfo sl node 0 16) (BitVec.ofNat 32 i)
        else s

/-! ## Folding and sampling -/

/-- A slot has a complete firing (R161). -/
def Tile.slotBusy (tl : Tile) (sl : Nat) : Bool := tl.fold.ready.any (fun r => r.1 == sl) || (tl.fold.active == sl && !tl.readyCandidates.isEmpty)

/-- The next schedule entry after pos whose slot is LOADED. -/
def Tile.nextEntry (tl : Tile) (pos : Nat) : Option Nat :=
  let n := tl.fold.schedLen
  ((upto n).map (fun k => (pos + 1 + k) % n)).find? (fun e => (tl.slot (tl.fold.entry e).1).image.isSome)

/-- FOLD_SCHEDULE_MOVE (R161): the dwell of the current entry has ended, and the next entry with a LOADED slot becomes current. -/
def execFoldScheduleMove (t : TileId) (s : State) : Out :=
  let tl := s.tile t
  let e := tl.fold.entry tl.fold.schedPos
  let ended := if e.2 = 0 then !tl.slotBusy e.1 else decide (tl.fold.dwellFrom + e.2 ≤ s.cycles t)
  .next (if tl.fold.schedEn && !(tl.fold.schedLen == 0) && ended && tl.present && s.clocked t then
      match tl.nextEntry tl.fold.schedPos with
      | some n => s.setTile t (tl.toEntry n (s.cycles t))
      | none => s
    else s)

/-- FOLD_SWITCH_AT_T (R163): an armed switch takes effect at or after its wafer time. -/
def execFoldSwitchAtT (t : TileId) (s : State) : Out :=
  let tl := s.tile t
  .next (match tl.fold.armed with
    | none => s
    | some (g, at_) =>
      if at_ ≤ s.time ∧ tl.present ∧ s.clocked t then
        s.setTile t (({ tl with fold := { tl.fold with armed := none } }).switchTo g (s.cycles t))
      else s)

/-- Tokens a slot holds (R168). -/
def Tile.slotTokens (tl : Tile) (sl : Nat) : Nat := (tl.fold.store.filter (fun k => k.slot == some sl)).length

/-- The profile record (R167). -/
def Tile.profileRecord (tl : Tile) (now : Nat) : List Byte :=
  let u := tl.fold
  natLe 4 (now - tl.core.cycleBase) ++
    (upto 8).map (fun q => BitVec.ofNat 8 (satAdd 255 (tl.queue q).occupancy 0)) ++
    (upto 8).map (fun e => BitVec.ofNat 8 (tl.occ e)) ++
    (upto 8).map (fun i => BitVec.ofNat 8 (if tl.slotTokens i < 255 then tl.slotTokens i else 255)) ++
    [BitVec.ofNat 8 u.ready.length,
     BitVec.ofNat 8 (u.active + 8 * u.ctxs.length + 64 * b2n u.readySince.isSome + 128 * b2n u.schedEn),
     BitVec.ofNat 8 tl.forage.out.length, BitVec.ofNat 8 (b2n u.profLostBit)]

/-- PROFILE_SAMPLE (R167): a record every 2^N cycles, or one dropped because its write was not granted in time. -/
def execProfileSample (t : TileId) (granted : Bool) (s : State) : Out :=
  let s := s.modTile t (fun tl => tl.sampleStart s.time (s.cycles t) (opN (s.field (fieldOf t)).clk.op))
  let tl := s.tile t
  let u := tl.fold
  let h := tl.handle u.profHandle
  let due := u.profDue + 2 ^ u.profLog
  .next (if !(u.profOn && decide (u.profDue ≤ s.cycles t) && tl.present && s.clocked t) then s
    else if granted then
      let tl := tl.put (h.slotAt 0 + 32 * u.profNext) (tl.profileRecord (s.cycles t))
      let wrap := decide (h.extent ≤ 32 * (u.profNext + 1))
      s.setTile t { tl with fold := { u with
        profDue := due, profLostBit := false, profNext := if wrap then 0 else u.profNext + 1
        profWraps := if wrap then (u.profWraps + 1) % 65536 else u.profWraps } }
    else
      let s := s.setTile t { tl with fold := { u with profDue := due, profLostBit := true, profLost := u.profLost + 1 } }
      s.event (fieldOf t) 0x0784 [tileDetail t, (u.profLost + 1).toNat])

end Sys2Proof.Machine
end

