-- ==== Sys2Proof/Machine/SyncOps.lean ====
section
/-! DEFINITION. The sync instructions: swait, ssignal, sfence, sread (R44, R45, R239 to R255). -/

namespace Sys2Proof.Machine

/-- The SYNC packet a tile sends to a global cell's host field controller (R240). -/
def syncHdr (t : TileId) (n : Nat) : Hdr := { src := .tile t, dst := .fc (cellHost n).1, dstGen := 0, tag := 0 }

/-- Payload of a SYNC request (R240); an amount of 0 in the operand means 1 (R241). -/
def syncBody (gen n amount wafer : Nat) : SyncBody :=
  { index := (cellHost n).2, amount := amount, srcGen := gen, srcWafer := wafer }

/-- Mark a global request outstanding in SYNC_PEND (R260). -/
def State.setPend (s : State) (t : TileId) (p : Option (Nat × Nat)) : State :=
  s.modTile t (fun tl => { tl with sync := { tl.sync with pend := p, resend := none } })

/-- Send a SYNC request to a global cell of the wafer and mark it pending. -/
def State.sendSync (s : State) (t : TileId) (op n amount : Nat) : State :=
  let tl := s.tile t
  let s := if op = 2 then s else s.setPend t (some (op, n))
  s.sendRequest t (syncHdr t n) (.sync op (syncBody tl.gen n amount 0))

/-- The operand of a cell: bit 16 local, bits 15:0 the number; other bits must be 0, and a local number is below 16 (R42, R44). -/
def cellOperandOk (w : Word) : Bool := bits w 31 17 == 0 && (!bit w 16 || decide (bits w 15 0 < 16))

/-- swait (R242, R244): a local wait completes at once or stalls until a signal releases it; a global wait goes to the host and stalls for the answer. -/
def xSwait (t : TileId) (a : XArgs) (s : State) : State :=
  let v := s.rs1 t a
  if !cellOperandOk v then s.badArg t .swait a v
  else
    let c := bits v 15 0
    if bit v 16 then
      let tl := s.tile t
      match (tl.cell c).wait 0 with
      | some cl =>
        let tl := tl.setCell c cl
        (s.setTile t { tl with sync := { tl.sync with turns := tl.sync.turns.erase c } }).finish t a stOk 0 2
      | none => s.stallOn t .swait a .answer (localObj c)
    else (s.sendSync t 0 c 0).stallOn t .swait a .answer c

/-- The signal amount of an ssignal operand: 0 means 1 (R44). -/
def signalAmount (w : Word) : Nat := if bits w 15 0 = 0 then 1 else bits w 15 0

/-- ssignal (R44, R45, R239, R254): local at once; global posted or awaited; remote through the ingress dock. -/
def xSsignal (t : TileId) (a : XArgs) (s : State) : State :=
  let v := s.rs1 t a
  let w := s.rs2 t a
  let remote := nbit a.mods 0
  let posted := nbit a.mods 1
  let amt := signalAmount w
  if !cellOperandOk v || (remote && bit v 16) then s.badArg t .ssignal a v
  else if !remote && !(bits w 31 16 == 0) then s.badArg t .ssignal a w
  else if bit v 16 then (s.finish t a stOk 0 1).signalLocal t 0 (bits v 15 0) amt
  else
    let n := bits v 15 0
    let op := if posted then 2 else 1
    if remote then
      let wafer := bits w 31 16
      match s.ingressEnd t wafer with
      | none => s.finish t a stPathLost 0 2
      | some p =>
        let h : Hdr := { src := .tile t, dst := p, dstGen := 0, tag := 0, far := some (s.farTo wafer (.fc (cellHost n).1)) }
        let s := s.sendRequest t h (.sync op (syncBody (s.tile t).gen n amt s.waferId))
        if posted then s.finish t a stOk 0 2 else (s.setPend t (some (1, n))).stallOn t .ssignal a .answer n
    else if posted then (s.sendSync t 2 n amt).finish t a stOk 0 2
    else (s.sendSync t 1 n amt).stallOn t .ssignal a .answer n

/-- Writes an sfence of a scope waits for: those of its classes issued before it (R249). -/
def SyncUnit.fenceHolds (u : SyncUnit) (scope before : Nat) : Bool :=
  u.writes.any (fun w => decide (w.cls < scope) && decide (w.n < before))

/-- The failure record of a scope's counters (R249). -/
def SyncUnit.fenceFailed (u : SyncUnit) (scope : Nat) : Bool :=
  (decide (1 ≤ scope) && u.failField) || (decide (2 ≤ scope) && u.failWafer) || (decide (3 ≤ scope) && u.failRemote)

/-- Clear the failure record of a scope's counters (R249). -/
def SyncUnit.fenceClear (u : SyncUnit) (scope : Nat) : SyncUnit :=
  { u with
    failField := u.failField && decide (scope < 1)
    failWafer := u.failWafer && decide (scope < 2)
    failRemote := u.failRemote && decide (scope < 3) }

/-- sfence (R249): waits for the earlier writes of its scope, then reports and clears the scope's failure record. -/
def xSfence (t : TileId) (a : XArgs) (s : State) : State :=
  let u := (s.tile t).sync
  let scope := a.mods % 4
  let before := match (s.tile t).core.stall with
    | some st => st.obj
    | none => u.nextTag
  if u.fenceHolds scope before then s.stallOn t .sfence a .cond before
  else
    let st := if u.fenceFailed scope then stPathLost else stOk
    (s.modTile t (fun tl => { tl with sync := tl.sync.fenceClear scope })).finish t a st 0 2

/-- sread (R44): a local cell's value at once; a global cell's by a read request. -/
def xSread (t : TileId) (a : XArgs) (s : State) : State :=
  let v := s.rs1 t a
  if !cellOperandOk v then s.badArg t .sread a v
  else
    let c := bits v 15 0
    if bit v 16 then s.finish t a stOk ((s.tile t).cell c).value 1
    else (s.sendSync t 3 c 0).stallOn t .sread a .answer c

/-- SWAIT (R244): swait waits on a local or global sync cell. -/
def execSwait (t : TileId) (a : XArgs) (s : State) : Out := .next (issue .swait xSwait t a s)
/-- SSIGNAL (R44). -/
def execSsignal (t : TileId) (a : XArgs) (s : State) : Out := .next (issue .ssignal xSsignal t a s)
/-- SFENCE (R249). -/
def execSfence (t : TileId) (a : XArgs) (s : State) : Out := .next (issue .sfence xSfence t a s)
/-- SREAD (R44). -/
def execSread (t : TileId) (a : XArgs) (s : State) : Out := .next (issue .sread xSread t a s)

end Sys2Proof.Machine
end

