-- ==== Sys2Proof/Machine/RemoteOps.lean ====
section
/-! DEFINITION. The remote instructions: xput and xget (R45, R47, R282, R283). -/

namespace Sys2Proof.Machine

/-- A remote request descriptor's fields (R283). -/
structure RemoteDesc where
  wafer : Nat
  key : Nat
  target : TileId
  window : Nat
  offset : Nat
  length : Nat
  deriving DecidableEq, Repr, Inhabited

/-- Read a descriptor. -/
def remoteDesc (bs : List Byte) : RemoteDesc :=
  let w := fieldAt bs 4 4
  { wafer := fieldAt bs 0 2, key := fieldAt bs 2 2, target := ⟨nbits w 9 0, nbits w 19 10⟩, window := nbits w 22 20,
    offset := nbits (fieldAt bs 8 4) 17 0, length := fieldAt bs 12 2 }

/-- The first offending field of a descriptor, for a slot of n bytes (R67, R283). -/
def remoteBad (bs : List Byte) (n : Nat) : Option Nat :=
  let d := remoteDesc bs
  let rsv := nbits (fieldAt bs 4 4) 31 23
  let rsv2 := nbits (fieldAt bs 8 4) 31 18
  if !(rsv == 0) then some rsv
  else if !(d.offset % 32 == 0) then some d.offset
  else if !(rsv2 == 0) then some rsv2
  else if !(d.length % 32 == 0 && within 32 4064 d.length) || decide (n < d.length) then some d.length
  else
    ([fieldAt bs 14 2] ++ (upto 4).map (fun i => fieldAt bs (16 + 4 * i) 4)).find? (fun v => !(v == 0))

/-- The operand and descriptor checks of xput and xget (R42, R283), then what they do with the descriptor. -/
def State.remoteIssue (s : State) (t : TileId) (op : XOp) (a : XArgs) (go : RemoteDesc → HRef → State → State) : State :=
  let v := s.rs1 t a
  let w := s.rs2 t a
  let tl := s.tile t
  let r := hrefOf v
  let o := w.toNat
  if !tl.refOk r then s.badArg t op a v
  else if !imageOk o 32 then s.badArg t op a w
  else
    s.reading t 0 o 32 (fun bs s =>
      match remoteBad bs (tl.handle r.handle).slotBytes with
      | some f => s.badArg t op a (BitVec.ofNat 32 f)
      | none => go (remoteDesc bs) r s)

/-- The remote extension of a request (R283). -/
def State.remoteBody (s : State) (t : TileId) (d : RemoteDesc) : RemoteBody :=
  { srcWafer := s.waferId, wafer := d.wafer, key := d.key, target := d.target, window := d.window,
    offset := d.offset, length := d.length, srcGen := (s.tile t).gen }

/-- The header of a remote request. -/
def State.remoteHdr (s : State) (t : TileId) (p : Endp) (d : RemoteDesc) : Hdr :=
  { src := .tile t, dst := p, dstGen := 0, tag := 0, far := some (s.farTo d.wafer (.tile d.target)) }

/-- xput (R283): waits for a full source slot, then sends one REMOTE_WRITE; posted completes at issue, unposted stalls for the answer. -/
def xXput (t : TileId) (a : XArgs) (s : State) : State :=
  s.remoteIssue t .xput a (fun d r s =>
    let tl := s.tile t
    let h := tl.handle r.handle
    let posted := nbit a.mods 0
    if h.tagged && !tl.slotsFull h r.slot 1 then s.stallOn t .xput a .cond 0
    else
      match s.ingressEnd t d.wafer with
      | none => s.finish t a stPathLost 0 4
      | some p =>
        let hd := s.remoteHdr t p d
        if !s.mayWrite t hd then s.stallOn t .xput a .cond 0
        else
          s.reading t 0 (tl.refAt r) d.length (fun data s =>
            let tag := tl.sync.tag
            let s := s.modTile t (fun tl => tl.consumeSlots h r.slot 1)
            let s := s.sendWrite t hd (.remoteWrite (s.remoteBody t d) data) .xput posted
            if posted then s.finish t a stOk 0 (4 + cdiv d.length 64) else s.stallOn t .xput a .answer tag))

/-- xget (R283): sends one REMOTE_READ and stalls for its reply. -/
def xXget (t : TileId) (a : XArgs) (s : State) : State :=
  s.remoteIssue t .xget a (fun d _ s =>
    match s.ingressEnd t d.wafer with
    | none => s.finish t a stPathLost 0 4
    | some p =>
      let tag := (s.tile t).sync.tag
      (s.sendRequest t (s.remoteHdr t p d) (.remoteRead (s.remoteBody t d))).stallOn t .xget a .answer tag)

/-- Land an xget's reply in its destination slot once that is empty, and set it full (R47). -/
def State.xgetLand (s : State) (t : TileId) (a : XArgs) (st : Nat) (data : List Byte) : State :=
  let tl := s.tile t
  let r := hrefOf (s.rs1 t a)
  let h := tl.handle r.handle
  if !(st == stOk) then s.finish t a st 0 4
  else if !tl.refOk r then s.badArg t .xget a (s.rs1 t a)
  else if h.tagged && !tl.slotsEmpty h r.slot 1 then
    let obj := match tl.core.stall with | some k => k.obj | none => 0
    s.stallOn t .xget a (.data st data) obj
  else
    let o := tl.refAt r
    s.writing t 0 o data.length (fun s =>
      (s.modTile t (fun tl =>
        let tl := tl.put o data
        if h.tagged then tl.fillTags (h.slotAt r.slot) h.slotBytes else tl)).finish t a stOk data.length (4 + cdiv data.length 64))

/-- XPUT (R283). -/
def execXput (t : TileId) (a : XArgs) (s : State) : Out := .next (issue .xput xXput t a s)
/-- XGET (R283). -/
def execXget (t : TileId) (a : XArgs) (s : State) : Out := .next (issue .xget xXget t a s)

end Sys2Proof.Machine
end

