-- ==== Sys2Proof/Machine/SyncArrivals.lean ====
section
/-! DEFINITION. Requests at a global cell's host field controller (R240 to R247, R252 to R254), the resend of a refused wait (R245), and a release that finds its tile gone (R247). -/

namespace Sys2Proof.Machine

/-- The field controller an endpoint names, if it is one. -/
def endpFc : Endp → Option Nat
  | .fc f => some f
  | .tile _ | .dock _ _ | .gate _ | .conductor => none

/-- A field's cells are in service: keep-field cells while the keep field is, compute-field cells while the field runs and its records are not saved away (R180, R253, R254). -/
def State.cellsUp (s : State) (f : Nat) : Bool := if isKeep f then s.keepUp f else ((s.field f).running && (s.field f).sync.saved.isNone)

/-- Why a request is refused before it reaches its cell: the host out of service, or an index it does not hold. -/
def State.syncRefusal (s : State) (f i : Nat) : Option Nat :=
  if !s.cellsUp f then some stCellLost else if cellsOf f ≤ i then some stAddressError else none

/-- The tile a SYNC request came from, for its waiter record. -/
def srcTile : Endp → TileId
  | .tile t => t
  | .dock _ _ | .fc _ | .gate _ | .conductor => ⟨0, 0⟩

/-- A wait at its host (R242, R243, R245). -/
def State.waitAt (s : State) (f : Nat) (h : Hdr) (b : SyncBody) : State :=
  let fd := s.field f
  let n := cellNumber f b.index
  let ans (s : State) (code : Nat) : State := s.status h b.srcGen (.wait n) code
  match s.syncRefusal f b.index with
  | some code => ans s code
  | none =>
    match (fd.cell b.index).wait (fd.waitersOn b.index).length with
    | some c => ans (s.setCellG f b.index c) stOk
    | none =>
      if waiterCap f ≤ fd.sync.waiters.length then
        let s := s.modField f (fun fd => { fd with sync := { fd.sync with retry := fd.sync.retry + 1 } })
        ans (s.event f 0x0682 [f, n, tileDetail (srcTile h.src)]) stRetry
      else
        let w : Waiter := { cell := b.index, tile := srcTile h.src, gen := b.srcGen, tag := h.tag }
        s.modField f (fun fd => { fd with sync := { fd.sync with waiters := fd.sync.waiters ++ [w] } })

/-- A SYNC request taken out of the mesh at its host, with what it does there. -/
def syncAt (op : Nat) (h : Hdr) (b : SyncBody) (s : State) (act : Nat → State → State) : Out :=
  .next (s.landing { h := h, body := .sync op b } fun s =>
    match endpFc h.dst with
    | some f => act f s
    | none => s)

/-- The amount a signal carries: 0 means 65,536 (R240). -/
def syncAmount (b : SyncBody) : Nat := if b.amount = 0 then 65536 else b.amount

/-- SYNC_WAIT (R242). -/
def execSyncWait (h : Hdr) (b : SyncBody) (s : State) : Out := syncAt 0 h b s (fun f s => s.waitAt f h b)

/-- SYNC_SIGNAL (R242): applied, waiters released, and acknowledged. -/
def execSyncSignal (h : Hdr) (b : SyncBody) (s : State) : Out :=
  syncAt 1 h b s (fun f s =>
    let re : Re := .signal (cellNumber f b.index) false
    match s.syncRefusal f b.index with
    | some code => s.status h b.srcGen re code
    | none => (s.signalGlobal f b.index (syncAmount b)).status h b.srcGen re stOk)

/-- SYNC_POSTED_SIGNAL (R242, R45): applied without an answer; a refusal is still sent back. -/
def execSyncPostedSignal (h : Hdr) (b : SyncBody) (s : State) : Out :=
  syncAt 2 h b s (fun f s =>
    match s.syncRefusal f b.index with
    | some code => s.status h b.srcGen (.signal (cellNumber f b.index) true) code
    | none => s.signalGlobal f b.index (syncAmount b))

/-- SYNC_READ (R241): the cell's value in three bytes. -/
def execSyncRead (h : Hdr) (b : SyncBody) (s : State) : Out :=
  syncAt 3 h b s (fun f s =>
    let re : Re := .read (cellNumber f b.index)
    match s.syncRefusal f b.index with
    | some code => s.reply h b.srcGen re code []
    | none => s.reply h b.srcGen re stOk (natLe 3 ((s.field f).cell b.index).value))

/-- SYNC_CANCEL (R252): CANCELLED where the record existed and is removed, OK where none remains. -/
def execSyncCancel (h : Hdr) (b : SyncBody) (s : State) : Out :=
  syncAt 4 h b s (fun f s =>
    let mine (w : Waiter) : Bool := w.cell == b.index && w.tile == srcTile h.src && w.gen == b.srcGen
    let found := (s.field f).sync.waiters.any mine
    let s := s.modField f (fun fd => { fd with sync := { fd.sync with waiters := fd.sync.waiters.filter (fun w => !mine w) } })
    s.status h b.srcGen (.cancel (cellNumber f b.index)) (if found then stCancelled else stOk))

/-- SYNC_WAIT_RESEND (R245): a wait refused with RETRY is sent again 64 cycles later. -/
def execSyncWaitResend (t : TileId) (s : State) : Out :=
  let tl := s.tile t
  .next (match tl.sync.resend, tl.sync.pend with
    | some due, some (op, c) => if op = 0 ∧ due ≤ s.cycles t ∧ s.clocked t then s.sendSync t 0 c 0 else s
    | _, _ => s)

/-- The unit of a refused release returns and the next waiter is released (R247). -/
def State.returnUnit (s : State) (f i : Nat) : State :=
  let c := (s.field f).cell i
  if c.type = 1 ∨ c.type = 2 then s
  else (s.setCellG f i { c with value := if c.value < cellMax then c.value + 1 else c.value }).evalGlobal f i

/-- STALE_RELEASE_REFUSED (R247): the PEER_LOST answer to a release reaches the host, which takes the unit back, counts it and writes event 0x0686 with the generation the release was sent to. -/
def execStaleReleaseRefused (f cell : Nat) (waiter : TileId) (s : State) : Out :=
  let gen (x : Flight) : Option Nat :=
    match x.pkt.body with
    | .status (.release c g) st => if x.pkt.h.dst == .fc f && x.pkt.h.src == .tile waiter && c == cell && st == stPeerLost then some g else none
    | _ => none
  .next (match s.mesh.flight.findSome? (fun x => (gen x).map (fun g => (x.pkt, g))) with
    | none => s
    | some (p, g) => s.landing p fun s =>
      let s := s.returnUnit f (cellHost cell).2
      let s := s.modField f (fun fd => { fd with sync := { fd.sync with stale := fd.sync.stale + 1 } })
      s.event f 0x0686 [cell, tileDetail waiter, g])

end Sys2Proof.Machine
end

