-- ==== Sys2Proof/Machine/Answers.lean ====
section
/-! DEFINITION. Answers at a tile (R175, R248): REPLY and STATUS settle the operation and the write they answer; ends of stalls by condition, watchdog and debugger (R37 to R39, R246, R259). -/

namespace Sys2Proof.Machine

/-! ## Answers -/

/-- A RETRY from a full pending table: the request is sent again 64 cycles later (R284). -/
def Tile.holdRemote (tl : Tile) (tag due : Nat) : Tile :=
  { tl with sync := { tl.sync with heldRemote := tl.sync.heldRemote.map (fun r => if r.h.tag == tag then { r with due := some due } else r) } }

/-- The final answer of a remote request frees its copy. -/
def Tile.dropRemote (tl : Tile) (tag : Nat) : Tile :=
  { tl with sync := { tl.sync with heldRemote := tl.sync.heldRemote.filter (fun r => !(r.h.tag == tag)) } }

/-- A refused or lost OPEN (R219): the context returns to IDLE and a waiting qopen ends with the status. -/
def State.openRefused (s : State) (t : TileId) (src : Endp) (r : ConnRef) (st : Nat) : State :=
  let tl := s.tile t
  let c := r.ctx
  if (tl.ctx c).state = 1 ∧ (tl.ctx c).queue = r.queue ∧ (tl.ctx c).hears src = true then
    let s := s.setTile t (tl.setCtx c {})
    match tl.awaiting .qopen c with
    | some k => s.finish t k.a st 0 4
    | none => s
  else s

/-- The answer to a packet that no write counts: a refusal of a full pending table is held for its resend (R284), any other frees the copy. -/
def State.freeRemote (s : State) (t : TileId) (tag st : Nat) : State :=
  s.modTile t (fun tl => if st = stRetry then tl.holdRemote tag (s.cycles t + 64) else tl.dropRemote tag)

/-- The status a tile reports for a request to a cell of its own wafer: PATH_LOST becomes CELL_LOST, as does any status the instruction does not list (R44, R254). -/
def cellStatus (st : Nat) : Nat := if st = stOk ∨ st = stForced then st else stCellLost

/-- The answer to a global wait (R241, R245, R246). -/
def State.waitAnswer (s : State) (t : TileId) (c st : Nat) : State :=
  let tl := s.tile t
  match tl.core.stall with
  | none => s
  | some k =>
    if !(k.op = .swait ∧ k.obj = c) then s
    else if st = stRetry then s.setTile t { tl with sync := { tl.sync with resend := some (s.cycles t + 64) } }
    else (s.setPend t none).finish t k.a (cellStatus st) 0 2

/-- The answer to a cancel (R246, R252, R259): the wait ends with STALL_TIMEOUT, or FORCED for the debugger's. OK means that no record was left: the waiter had been released, or, where the wait itself was refused with RETRY, it was never recorded and ends as CANCELLED does (DEDUCED, log entry 79). -/
def State.cancelAnswer (s : State) (t : TileId) (c st : Nat) : State :=
  match (s.tile t).core.stall with
  | none => s
  | some k =>
    match k.wait with
    | .cancel forced =>
      if k.obj = c then
        (s.setPend t none).finish t k.a
          (if st = stCancelled ∨ (st = stOk ∧ (s.tile t).sync.resend.isSome) then (if forced then stForced else stStallTimeout)
            else cellStatus st) 0 2
      else s
    | .cond | .answer | .data _ _ => s

/-- The answer to an ssignal (R44, R45, R254). -/
def State.signalAnswer (s : State) (t : TileId) (c : Nat) (posted : Bool) (tag st : Nat) : State :=
  if st = stRetry then s.modTile t (fun tl => tl.holdRemote tag (s.cycles t + 64))
  else
    let s := s.modTile t (fun tl => tl.dropRemote tag)
    if posted then (if st = stOk then s else s.modTile t Tile.lostPosted)
    else
      match (s.tile t).awaiting .ssignal c with
      | some k => (s.setPend t none).finish t k.a (if nbit k.a.mods 0 then st else cellStatus st) 0 2
      | none => s

/-- The answer to an xput (R45, R248, R284). -/
def State.xputAnswer (s : State) (t : TileId) (tag st : Nat) : State :=
  if st = stRetry then s.modTile t (fun tl => tl.holdRemote tag (s.cycles t + 64))
  else
    let posted := (s.tile t).sync.writes.any (fun w => w.tag == tag && w.re == .xput && w.posted)
    let s := s.modTile t (fun tl => (tl.dropRemote tag).settle tag .xput (st == stOk))
    if posted then (if st = stOk then s else s.modTile t Tile.lostPosted)
    else
      match (s.tile t).awaiting .xput tag with
      | some k => s.finish t k.a st 0 4
      | none => s

/-- The answer to an xget. -/
def State.xgetAnswer (s : State) (t : TileId) (tag st : Nat) (data : List Byte) : State :=
  if st = stRetry then s.modTile t (fun tl => tl.holdRemote tag (s.cycles t + 64))
  else
    let s := s.modTile t (fun tl => tl.dropRemote tag)
    match (s.tile t).awaiting .xget tag with
    | some k => s.xgetLand t k.a st data
    | none => s

/-- The answer to a read of a global cell (R44). -/
def State.readAnswer (s : State) (t : TileId) (c st : Nat) (data : List Byte) : State :=
  match (s.tile t).awaiting .sread c with
  | some k => (s.setPend t none).finish t k.a (cellStatus st) (if st = stOk then leNat (bytesAt data 0 3) else 0) 1
  | none => s

/-- The answer to a packet of a connection: the write settles (R248), and a negative answer ends the context (R222, R226); the late answer of a write already settled is discarded (R250). -/
def State.connWrite (s : State) (t : TileId) (h : Hdr) (r : ConnRef) (st : Nat) : State :=
  if !(s.tile t).sync.writes.any (fun w => w.tag == h.tag && w.re == .conn r) then s
  else if st = stRetry then s.modTile t (fun tl => tl.holdRemote h.tag (s.cycles t + 64))
  else
    let s := s.modTile t (fun tl => (tl.dropRemote h.tag).settle h.tag (.conn r) (st == stOk))
    if st = stOk then s else s.connAnswer t h.src r st

/-- An answer of the tile's current generation (R65). A victim that cannot be reached counts as one with nothing to give, for fsteal too, whose row lists no PATH_LOST (R46; DESIGN CHOICE, log entry 78). -/
def State.tileAnswer (s : State) (t : TileId) (h : Hdr) (re : Re) (st : Nat) (data : List Byte) : State :=
  match re with
  | .conn r => s.connWrite t h r st
  | .opening r => s.openRefused t h.src r st
  | .probe r => (s.freeRemote t h.tag st).connAnswer t h.src r st
  | .closing => s.freeRemote t h.tag st
  | .token b => s.tokenAnswer t h b st
  | .result e => s.modTile t (fun tl => tl.settle h.tag (.result e) (st == stOk))
  | .operand e w o => s.operandReply t e w o st data
  | .steal _ => match (s.tile t).askedBy h.tag with
    | some e => s.stealMissed t e (if st = stPathLost then stNotFound else st)
    | none => s
  | .xput => s.xputAnswer t h.tag st
  | .xget => s.xgetAnswer t h.tag st data
  | .signal c posted => s.signalAnswer t c posted h.tag st
  | .wait c => s.waitAnswer t c st
  | .read c => s.readAnswer t c st data
  | .cancel c => s.cancelAnswer t c st
  | .release _ _ | .raw _ | .ctrl _ => s

/-- An answer for a generation the tile no longer has is discarded; a release of a wait is refused with PEER_LOST (R65, R247). -/
def State.staleAnswer (s : State) (h : Hdr) (re : Re) (st : Nat) : State :=
  match re with
  | .wait c => if st = stOk then s.send { h := hdrBack h h.srcGen, body := .status (.release c h.dstGen) stPeerLost } else s
  | _ => s

/-- An answer reaches an endpoint; those of host nodes, docks and controllers are other commands' matter. -/
def State.answerAt (s : State) (h : Hdr) (re : Re) (st : Nat) (data : List Byte) : State :=
  match endpTile h.dst with
  | none => s
  | some t => if (s.tile t).answerOk h then s.tileAnswer t h re (statusCode st) data else s.staleAnswer h re st

/-- REPLY (R175). -/
def execReply (h : Hdr) (re : Re) (status : Nat) (data : List Byte) (s : State) : Out :=
  .next (s.landing { h := h, body := .reply re status data } fun s => s.answerAt h re status data)

/-- STATUS (R248); one that refuses a release waits for the field controller (R247). -/
def execStatus (h : Hdr) (re : Re) (code : Nat) (s : State) : Out :=
  .next (match endpTile h.dst with
    | some _ => s.landing { h := h, body := .status re code } fun s => s.answerAt h re code []
    | none => s)

/-- REMOTE_RETRY_RESEND (R284): a remote request whose 64 cycles have passed is sent again. -/
def execRemoteRetryResend (t : TileId) (s : State) : Out :=
  let tl := s.tile t
  .next (match tl.sync.heldRemote.find? (fun r => match r.due with | some d => decide (d ≤ s.cycles t) | none => false) with
    | none => s
    | some r =>
      if tl.present && s.clocked t then
        let tl := { tl with sync := { tl.sync with
          heldRemote := tl.sync.heldRemote.map (fun x => if x == r then { x with due := none } else x) } }
        (s.setTile t tl).send { h := r.h, body := r.body }
      else s)

/-! ## Ends of stalls -/

/-- What an Xkyoro instruction does once issued. -/
def xbody : XOp → TileId → XArgs → State → State
  | .qopen => xQopen | .qclose => xQclose | .qsend => xQsend | .qtrysend => xQtrysend | .qrecv => xQrecv
  | .qtryrecv => xQtryrecv | .qselect => xQselect | .qstat => xQstat | .swait => xSwait | .ssignal => xSsignal
  | .sfence => xSfence | .sread => xSread | .fpush => xFpush | .fsteal => xFsteal | .fwait => xFwait | .hset => xHset
  | .hclr => xHclr | .ldt => xLdt | .stt => xStt | .tfill => xTfill | .dload => xDload | .dswitch => xDswitch
  | .dpurge => xDpurge | .dsample => xDsample | .wopen => xWopen | .wclose => xWclose | .xput => xXput | .xget => xXget

/-- Try the core's stalled instruction again; it stays stalled where its condition does not hold. -/
def State.coreMet (s : State) (t : TileId) : State :=
  let tl := s.tile t
  if tl.core.halted || !tl.present || !s.clocked t then s
  else
    match tl.core.stall with
    | none => s
    | some k =>
      match k.wait with
      | .cond => xbody k.op t k.a s
      | .data st data => s.xgetLand t k.a st data
      | .answer | .cancel _ => s

/-- Try an engine's stalled unit, or the waiting result of a steal-out entry, again. -/
def State.engineMet (s : State) (t : TileId) (e : Nat) : State :=
  if !((s.tile t).present && s.clocked t) then s
  else if 8 ≤ e then s.landResult t (e - 8)
  else
    match ((s.tile t).engine e).running with
    | some r => if r.stallSince.isSome then s.retireEngine t e else s
    | none =>
      let g := (s.tile t).engine e
      if (s.tile t).frozen then s
      else
        match g.deque with
        | [] => s
        | u :: rest => if (s.tile t).unitReady u then s.startUnit t e u rest else s

/-- Try the fire unit's stalled emissions, actions, ready head and unmatched tokens again. -/
def State.fireMet (s : State) (t : TileId) : State :=
  let s := if (s.tile t).present && s.clocked t && !(s.tile t).frozen then s.bindAll t else s
  (((s.tile t).fold.ctxs.filter (fun e => e.2.since.isSome)).map (fun e => e.1)).foldl (fun s c => s.tokenEmit t c) (s.fireIssue t)

/-- A stalled operation's condition is tried (R37). -/
def State.streamMet (s : State) (t : TileId) : Stream → State
  | .core => s.coreMet t
  | .engine e => s.engineMet t e
  | .fire => s.fireMet t

/-- The slots a stream's stalled operations wait on. -/
def Tile.streamWaits (tl : Tile) : Stream → List SlotWait
  | .core => tl.coreWaits
  | .engine e => if e < 8 then tl.engineWaits e else tl.outWaits (e - 8)
  | .fire => tl.fireWaits

/-- STALL_CONDITION_MET (R37): the operation at the head of the stream proceeds where its condition now holds; of several that wait on one slot, the one whose turn it is, and not before the cycle after the change (R133). -/
def execStallConditionMet (t : TileId) (st : Stream) (s : State) : Out :=
  .next (if (s.tile t).waitsPass ((s.tile t).streamWaits st) then s.streamMet t st else s)

/-- End the core's stalled instruction (R38, R246, R259): a global swait cancels first, and the debugger takes over a cancel that its watchdog sent; a local one ends with FORCED for the debugger; ldt returns 0; qopen leaves its context OPENING with a close pending (R219). -/
def State.endStall (s : State) (t : TileId) (k : Stall) (debug : Bool) : State :=
  let st := if debug && k.op == .swait then stForced else stStallTimeout
  if k.op = .swait ∧ k.obj < 0x10000 then
    match k.wait with
    | .cancel forced => s.stallOn t .swait k.a (.cancel (forced || debug)) k.obj
    | .cond | .answer | .data _ _ =>
      let s := s.modTile t (fun tl => { tl with sync := { tl.sync with pend := some (4, k.obj) } })
      (s.sendRequest t (syncHdr t k.obj) (.sync 4 (syncBody (s.tile t).gen k.obj 0 0))).stallOn t .swait k.a (.cancel debug) k.obj
  else if k.op = .ldt then s.finishRaw t k.a st 0 1
  else if k.op = .qopen then
    (s.modTile t (fun tl => tl.setCtx k.obj { tl.ctx k.obj with closePending := true })).finish t k.a st 0 4
  else if k.op = .fsteal then (s.modTile t (fun tl => tl.setEngine coreThief { tl.engine coreThief with search := none })).finish t k.a st 0 2
  else (s.setPend t none).finish t k.a st 0 2

/-- The core's watchdog expires, or the debugger ends its stall (R38, R39, R259). A global sread is no stall (R44). -/
def State.coreExpire (s : State) (t : TileId) (force : Bool) : State :=
  let s := if force then s else s.coreMet t
  let tl := s.tile t
  match tl.core.stall with
  | none => s
  | some k =>
    if tl.expired (s.run t) (some k.since) force && (force || !(k.op == .sread)) && s.clocked t then s.endStall t k force else s

/-- A unit whose stall ends by the watchdog fails without a fault (R52): the retiring unit, the head of the deque, or the waiting result of a steal-out entry. -/
def State.engineExpire (s : State) (t : TileId) (e : Nat) (force : Bool) : State :=
  let s := if force then s else s.engineMet t e
  let tl := s.tile t
  if 8 ≤ e then
    match tl.forage.out.find (e - 8) with
    | none => s
    | some x =>
      if x.waiting.isSome && tl.expired (s.run t) (some x.since) force then
        s.failOut t (e - 8) x.unit
      else s
  else
    let g := tl.engine e
    match g.running with
    | some r => if tl.expired (s.run t) r.stallSince force then s.failUnit t e r.unit else s
    | none =>
      match g.deque with
      | [] => s
      | u :: rest =>
        if !tl.frozen && tl.expired (s.run t) g.headSince force then
          (s.setTile t (tl.setEngine e { g with deque := rest, headSince := none })).failUnit t e u
        else s

/-- A stream's stall ends. -/
def State.streamExpire (s : State) (t : TileId) (force : Bool) : Stream → State
  | .core => s.coreExpire t force
  | .engine e => s.engineExpire t e force
  | .fire => (if force then s else s.fireMet t).fireExpire t force

/-- STALL_WATCHDOG_EXPIRY (R38, R39). -/
def execStallWatchdogExpiry (t : TileId) (st : Stream) (s : State) : Out :=
  .next (if (s.tile t).present && s.clocked t then s.streamExpire t false st else s)

/-- SYNC_DEBUG_CORE (R259). -/
def execSyncDebugCore (t : TileId) (s : State) : Out := .next (s.coreExpire t true)

/-- End every stall of the tile: core, engines, waiting results and the fire unit's head (R259). -/
def State.debugAll (s : State) (t : TileId) : State :=
  let s := s.coreExpire t true
  let s := ((s.tile t).forage.out.map (fun e => e.1)).foldl (fun s i => s.engineExpire t (8 + i) true) s
  ((upto 8).foldl (fun s e => s.engineExpire t e true) s).fireExpire t true

/-- SYNC_DEBUG_ALL (R259). -/
def execSyncDebugAll (t : TileId) (s : State) : Out := .next (s.debugAll t)

end Sys2Proof.Machine
end

