-- ==== Sys2Proof/Machine/LinkFrames.lean ====
section
/-! DEFINITION. What a firefly port computes from its training (R264, R265, R267), the capability block it reports (R271), and the bytes of the frames on the fibre (R276). -/

namespace Sys2Proof.Machine

/-! ## Paths and fibres (R264, R265) -/

/-- The fibre of a path in LANE_MAP (R293): transmit in bits 15:0, receive in bits 31:16. -/
def mapFibre (m : Word) (rx : Bool) (p : Nat) : Nat := bits m (16 * b2n rx + 4 * p + 3) (16 * b2n rx + 4 * p)

/-- Put a path on a fibre. -/
def setFibre (m : Word) (rx : Bool) (p fibre : Nat) : Word :=
  word (((upto 8).map (fun i => (if i = 4 * b2n rx + p then fibre else mapFibre m false i, 4 * i))))

/-- The lowest-numbered free spare of a direction: F8 to F11 transmit, and the fibres opposite them, F12 to F15, receive (R264). -/
def freeSpare (m : Word) (rx : Bool) : Option Nat :=
  (firstBelow 4 (fun k => (upto 4).all (fun p => !(mapFibre m rx p == 8 + 4 * b2n rx + k)))).map (fun k => 8 + 4 * b2n rx + k)

/-- Move the dark paths of a direction to spares, each once, lower paths first (R265): the map, the moves (path, direction, fibre), and the paths no spare was left for. -/
def moveSpares (m : Word) (dark : Nat) (rx : Bool) : Word × List (Nat × Bool × Nat) × Nat :=
  ((upto 4).filter (fun p => nbit dark p)).foldl (fun x p =>
    match freeSpare x.1 rx with
    | some f => (setFibre x.1 rx p f, x.2.1 ++ [(p, rx, f)], x.2.2)
    | none => (x.1, x.2.1, x.2.2 + 2 ^ p)) (m, [], 0)

/-! ## What training gives (R267, R270, R271) -/

/-- The greatest acceptable pre-FEC bit error ratio of a level, in units of 10⁻¹⁵ (R267). -/
def berLimit (level : Nat) : Nat := nth [1000, 1000000000, 240000000000, 1000000000000] level 0

/-- The FEC levels acceptable at a bit error ratio, bit l for level l (R267). -/
def fecLevels (ber : Nat) : Nat := total ((upto 4).map (fun l => if ber ≤ berLimit l then 2 ^ l else 0))

/-- The paths left of a direction, bit p for path p. -/
def litPaths (dark gone : Nat) : Nat := total ((upto 4).map (fun p => if nbit dark p || nbit gone p then 0 else 2 ^ p))

/-- How many paths a mask holds. -/
def pathCount (m : Nat) : Nat := ((upto 4).filter (fun p => nbit m p)).length

/-- One rate's entry: the paths usable, those that failed with no spare apart, and the acceptable levels (R271). -/
def rateCap (r : RateTrain) (noTx noRx : Nat) : RateCap :=
  { tx := pathCount (litPaths r.txDark noTx), rx := pathCount (litPaths r.rxDark noRx), fec := fecLevels r.ber }

/-- What training comes to: the lane map, the spares moved to, and the report. With a fixed map no spare is moved to (R265). Rates 2 and 1 are trained only where fewer than 4 paths are usable at rate 3 (R270). -/
def TrainResult.outcome (r : TrainResult) (m : Word) (fixed : Option Word) : Word × List (Nat × Bool × Nat) × Trained :=
  let t := match fixed with
    | some w => (w, [], r.txDark)
    | none => moveSpares m r.txDark false
  let v := match fixed with
    | some w => (w, [], r.rxDark)
    | none => moveSpares t.1 r.rxDark true
  let cap (x : RateTrain) : RateCap := rateCap x t.2.2 v.2.2
  let r3 := cap r.rate3
  let low (x : RateTrain) : RateCap := if r3.tx < 4 ∨ r3.rx < 4 then cap x else ⟨0, 0, 0⟩
  let paths (x : RateTrain) : Nat := litPaths x.txDark t.2.2
  (v.1, t.2.1 ++ v.2.1, { rate3 := r3, rate2 := low r.rate2, rate1 := low r.rate1, usable := [paths r.rate1, paths r.rate2, paths r.rate3] })

/-! ## The capability block (R271) -/

/-- Bytes 0 to 159 of a capability block, which are signed. -/
def CapBlock.signed (b : CapBlock) : List Byte :=
  let rate (r : RateCap) : List Byte := natLe 1 r.tx ++ natLe 1 r.rx ++ natLe 1 r.fec
  natLe 2 0x4243 ++ natLe 1 b.versions ++ [0] ++ rate b.rate3 ++ rate b.rate2 ++ rate b.rate1 ++ natLe 1 b.port ++ natLe 2 b.wafer ++
    natLe 2 b.txMap ++ natLe 2 b.rxMap ++ natLe 32 b.nonce ++ natLe 32 b.echo ++ natLe 64 b.cert ++ natLe 12 b.serial

/-- The 296 bytes of a port's own block: the signed part, the signature by Hedgerow's secure element, and the reserved end. -/
def CapBlock.bytes (b : CapBlock) : List Byte :=
  let d := Sys2Proof.Machine.CapBlock.signed b
  d ++ Config.sign d ++ natLe 4 0

/-! ## Frames (R276) -/

/-- The 32-byte frame header without its hop bytes' meaning: tail holds bytes 16 on, padded to 16. The sequence number of a frame that is not DATA is that of the next DATA frame (DESIGN CHOICE, log entry 79). -/
def frameHead (kind version vc seq ack length src dst count index creditVc credits : Nat) (tail : List Byte) : List Byte :=
  natLe 1 (kind % 16 + 16 * (version % 16)) ++ natLe 1 (vc % 4) ++ natLe 2 seq ++ natLe 2 ack ++ natLe 2 length ++ natLe 2 src ++ natLe 2 dst ++
    natLe 1 (count % 16 + 16 * (index % 16)) ++ natLe 1 (creditVc % 4) ++ natLe 2 credits ++ (tail ++ List.replicate 16 0).take 16

/-- A frame with its CRC-32C over header and payload (R276). -/
def withCrc (bs : List Byte) : List Byte := bs ++ natLe 4 (crc32c bs)

/-- What a LINK frame's bytes 16 on hold: the operation, and the expected sequence number of a nak or the lane of a lane change (R276). -/
def linkTail (op arg : Nat) : List Byte := natLe 1 op ++ (if op = 1 then natLe 2 arg else if op = 2 ∨ op = 3 then natLe 1 arg else [])

/-- The 36 bytes of a LINK frame that a port sends to its partner (R276). -/
def Port.linkBytes (p : Port) (waferId op arg ack creditVc credits : Nat) : List Byte :=
  withCrc (frameHead 1 p.mode.version 0 p.txSeq ack 0 waferId p.partnerWafer 0 0 creditVc credits (linkTail op arg))

/-- The bytes of a DATA frame (R276): its header, the packet's 16-byte mesh header under the address of its far target, its payload where the spec lays it out, and the CRC. -/
def Frame.bytes (fr : Frame) (version : Nat) : Option (List Byte) :=
  match fr.pkt.h.far with
  | none => none
  | some f =>
    let h := { fr.pkt.h with dst := f.endp }
    let aim : TileId := match f.endp with
      | .tile t => t
      | .fc g => cornerOf g
      | .dock p _ => cornerOf p
      | .gate k => cornerOf (keepField k)
      | .conductor => ⟨0, 0⟩
    let src : TileId := match h.src with
      | .tile t => t
      | .fc g => cornerOf g
      | .dock p _ => cornerOf p
      | .gate k => cornerOf (keepField k)
      | .conductor => ⟨0, 0⟩
    (Sys2Proof.Machine.Body.payload h fr.pkt.body).map (fun d =>
      let m := headerBytes { fr.pkt with h := h } src aim 0 false d.length ++ d
      withCrc (frameHead 0 version fr.vc fr.seq fr.ack m.length f.srcWafer f.dstWafer f.hops.length f.idx fr.creditVc fr.credits
        (f.hops.map (BitVec.ofNat 8)) ++ m))

end Sys2Proof.Machine
end

