-- ==== Sys2Proof/Machine/Ports.lean ====
section
/-! DEFINITION. The firefly ports: settings, the port state machine (R268 to R275), link retry, credits and lanes (R277 to R280), and the glow bays (R266, R503). -/

namespace Sys2Proof.Machine

/-! ## Settings and small readings -/

/-- The port of a field. -/
def State.port (s : State) (p : Nat) : Port := s.ports.getD p {}

/-- Replace a port. -/
def State.setPort (s : State) (p : Nat) (v : Port) : State := { s with ports := s.ports.put p v }

/-- Change a port. -/
def State.modPort (s : State) (p : Nat) (g : Port → Port) : State := s.setPort p (g (s.port p))

/-- PORT_CTRL.enable. -/
def Port.enabled (p : Port) : Bool := bit p.ctrl 31

/-- PORT_CTRL.hold; 0 acts as 2,500. -/
def Port.hold (p : Port) : Nat := if bits p.ctrl 15 0 = 0 then 2500 else bits p.ctrl 15 0

/-- Versions offered, bit 0 version 1; 0 acts as 3. -/
def Port.versions (p : Port) : Nat := if bits p.ctrl 27 26 = 0 then 3 else bits p.ctrl 27 26

/-- Rates offered, bit 0 rate 1; 0 acts as 7. -/
def Port.rates (p : Port) : Nat := if bits p.ctrl 25 23 = 0 then 7 else bits p.ctrl 25 23

/-- FEC levels offered; 0 acts as 0xF. -/
def Port.fecs (p : Port) : Nat := if bits p.ctrl 22 19 = 0 then 15 else bits p.ctrl 22 19

/-- Lanes in use. -/
def Port.lanes (p : Port) : Nat := ((upto 32).filter (fun l => bit p.laneActive l)).length

/-- A port's field lets it run (R268): IDLE or ACTIVE, or a powered keep field. -/
def State.portField (s : State) (p : Nat) : Bool := (s.field p).running

/-- The glow module that lights a port is lit (R266). -/
def State.portLit (s : State) (p : Nat) : Bool := s.glow.getD (p / 7) 1 == 2

/-- The lanes of the first g usable paths (R263, R272). -/
def firstPaths (usable g : Nat) : Word :=
  word ((((upto 4).filter (fun p => nbit usable p)).take g).map (fun p => (255, 8 * p)))

/-- The lanes that carry traffic in a mode: the first paths usable by the transmitter at its rate. Where the receiver uses other paths, LANE_ACTIVE shows the transmitter's (DESIGN CHOICE, log entry 79). -/
def Trained.lanes (t : Trained) (m : LinkMode) : Word := firstPaths (nth t.usable (m.rate - 1) 0) m.paths

/-! ## Sending frames (R276 to R278) -/

/-- Bytes of a packet's frame (R276). -/
def frameBytes (p : Pkt) : Nat := 36 + 16 + (Body.len p.h p.body).getD 4096

/-- Credits a packet takes, in 64-byte units. -/
def creditUnits (p : Pkt) : Nat := cdiv (16 + (Body.len p.h p.body).getD 4096) 64

/-- The receive buffers, in 64-byte units (R278). -/
def bufferUnits (vc : Nat) : Nat := nth [128, 512, 1024, 2048] vc 0

/-- Bytes in the retry buffer (R277). -/
def Port.retryBytes (p : Port) : Nat := total (p.unacked.map (fun f => frameBytes f.pkt))

/-- The waiting packet of a channel that may be sent: the oldest, with credit, and room in the retry buffer. -/
def Port.sendable (p : Port) (vc : Nat) : Option Waiting :=
  match p.waiting.find? (fun w => w.vc == vc) with
  | some w => if creditUnits w.pkt ≤ nth p.credit vc 0 ∧ p.retryBytes + frameBytes w.pkt ≤ 524288 then some w else none
  | none => none

/-- The first channel that is owed credits. -/
def Port.owedVc (p : Port) : Nat := (firstBelow 4 (fun v => decide (0 < nth p.owed v 0))).getD 0

/-- Put a waiting packet on the fibre: it is kept until it is acknowledged, and its header acknowledges and returns credits (R276, R277). -/
def Port.emit (p : Port) (w : Waiting) : Port :=
  let v := p.owedVc
  { p with
    waiting := p.waiting.filter (fun x => !(x == w)) ++ (p.waiting.filter (fun x => x == w)).drop 1
    unacked := p.unacked ++ [{ seq := p.txSeq, ack := (p.rxSeq + 65535) % 65536, creditVc := v, credits := nth p.owed v 0, vc := w.vc, pkt := w.pkt, mark := p.markDue }]
    markDue := false
    txSeq := (p.txSeq + 1) % 65536
    credit := p.credit.set w.vc (nth p.credit w.vc 0 - creditUnits w.pkt)
    owed := p.owed.set v 0
    ackDue := false
    turn := if w.vc = 0 then p.turn else w.vc % 3 + 1 }

/-- Send what may be sent: VC0 first, then VC1 to VC3 in rotation (R278). -/
def Port.pump : Nat → Port → Port
  | 0, p => p
  | n + 1, p =>
    if !(p.state == 4) then p
    else
      match [0, p.turn, p.turn % 3 + 1, (p.turn + 1) % 3 + 1].findSome? p.sendable with
      | some w => Port.pump n (p.emit w)
      | none => p

/-- Send a NEG frame. -/
def Port.say (p : Port) (x : CtlFrame) : Port := { p with out := p.out ++ [x] }

/-- Send a LINK frame (R276): it acknowledges and returns credits as every header does (R277). -/
def Port.link (p : Port) (op arg : Nat) : Port :=
  let v := p.owedVc
  { p.say (.link op arg ((p.rxSeq + 65535) % 65536) v (nth p.owed v 0)) with owed := p.owed.set v 0, ackDue := false }

/-- The operations of LINK frames (R276). -/
def linkAck : Nat := 0
def linkNak : Nat := 1
def linkLaneOff : Nat := 2
def linkLaneOn : Nat := 3
def linkClose : Nat := 4

/-- Send what waits at a port. -/
def Port.flush (p : Port) : Port := p.pump p.waiting.length

/-- Drop the frames up to an acknowledged sequence number; one that names no unacknowledged frame frees none. -/
def Port.acked (p : Port) (seq : Nat) : Port :=
  match p.unacked.findIdx? (fun f => f.seq == seq) with
  | some i => { p with unacked := p.unacked.drop (i + 1) }
  | none => p

/-- Add returned credits, never past the far buffer. -/
def Port.credited (p : Port) (vc n : Nat) : Port :=
  if vc < 4 then { p with credit := p.credit.set vc (min (bufferUnits vc) (nth p.credit vc 0 + n)) } else p

/-! ## Frames that are lost (R280, R284, R286) -/

/-- The reverse path of a packet that stands at an engine: the recorded arrival ports, last first (R285). -/
def reversePath (f : Far) : List Nat := ((f.hops.take f.idx).drop 1).reverse.map (fun n => n % 128)

/-- The packets that refuse a packet of another engine, each set on the reverse path from its first port (R285, R286). -/
def farRefusals (p : Pkt) (f : Far) (path : List Nat) (st : Nat) : List Pkt :=
  let back (src : Endp) (body : Body) (tag : Nat) : Pkt :=
    { h := { src := .dock (path.headD 0) 0, dst := .dock (path.headD 0) 0, dstGen := 0, tag := tag,
             far := some { srcWafer := f.dstWafer, dstWafer := f.srcWafer, endp := src, hops := 0xFE :: path.drop 1, idx := 1, answer := true } }
      body := body }
  match p.body with
  | .combine cs => cs.map (fun c => back c.src (.status (.conn c.ref) st) c.tag)
  | b =>
    match Body.asked { p.h with far := some f } b with
    | some (re, isRead) => [back p.h.src (if isRead then .reply re st [] else .status re st) p.h.tag]
    | none => []

/-- A reference as its request names it: an OPEN carries no incarnation, its answer the queue's (R215). -/
def Re.asAsked : Re → Re
  | .opening r => .opening { r with qinc := 0 }
  | re => re

/-- An answer is waited for under a pending entry: every one but a posted signal's refusal and a connection's own traffic (R284). -/
def Pend.isFor (e : Pend) (t : TileId) (tag : Nat) (re : Re) : Bool := e.tile == t && e.tag == tag && Sys2Proof.Machine.Re.asAsked e.re == Sys2Proof.Machine.Re.asAsked re

/-- The pending entry an answer belongs to, over every dock. -/
def State.findPend (s : State) (t : TileId) (tag : Nat) (re : Re) : Option (Nat × Nat × Pend) :=
  s.ports.findSome? (fun e => (e.2.pending.find? (fun x => x.2.isFor t tag re)).map (fun x => (e.1, x.1, x.2)))

/-- Pass an answer to the source tile and free its pending entry. -/
def State.endPend (s : State) (p i : Nat) (e : Pend) (body : Body) : State :=
  let s := s.modPort p (fun x => { x with pending := x.pending.erase i })
  s.send { h := { src := .dock p 0, dst := .tile e.tile, dstGen := e.gen, tag := e.tag }, body := body }

/-- What an operation asked for, answered with a bare status. -/
def bareAnswer (re : Re) (isRead : Bool) (st : Nat) : Body := if isRead then .reply re st [] else .status re st

/-- A request of this engine is answered at a dock with a status: its pending entries end, and what has none goes straight to its tile (R280, R284). -/
def State.answerOwn (s : State) (p : Nat) (x : Pkt) (st : Nat) : State :=
  (refusals x st).foldl (fun s q =>
    match q.h.dst, q.body with
    | .tile t, .status re _ | .tile t, .reply re _ _ =>
      match s.findPend t q.h.tag re with
      | some (d, i, e) => s.endPend d i e (bareAnswer re e.isRead st)
      | none => s.send { q with h := { q.h with src := .dock p 0, far := none } }
    | _, _ => s) s

/-- A frame that cannot go on from port p: this engine's own request is answered PATH_LOST, a relayed request is refused along its reverse path, a relayed answer is dropped (R280, R286). -/
def State.loseFrame (s : State) (p : Nat) (x : Pkt) (cause : Nat) : State :=
  match x.h.far with
  | none => s
  | some f =>
    if Body.isAnswer x.body || f.answer then
      if f.idx ≤ 1 then s else s.modPort p (fun v => { v with relayDrop := v.relayDrop + 1 })
    else if f.idx ≤ 1 then s.answerOwn p x stPathLost
    else
      let s := s.modPort p (fun v => { v with relayNack := v.relayNack + 1 })
      let s := s.event p 0x0989 [p, nth f.hops f.idx 0, cause]
      (farRefusals x f (reversePath f) stPathLost).foldl (fun s q => s.sendFrom (s.place (.dock p 0)) q) s

/-- Causes in events 0x0982 and 0x0989. The spec gives them no numbers; these are the model's (log entry 20). -/
def causeLight : Nat := 1
def causeRetrain : Nat := 2
def causeDown : Nat := 3
def causeClose : Nat := 4
def causeHold : Nat := 5
def causeRelayOff : Nat := 6
def causeNextPort : Nat := 7
def causeField : Nat := 8
def causeVersion : Nat := 9

/-- A port goes DISABLED, or leaves UP or RETRAINING: a LINK close is sent on the way to DISABLED where the port is lit, every frame awaiting egress and every unacknowledged frame is answered PATH_LOST, and event 0x0982 is written (R269, R280). -/
def State.portDrop (s : State) (p next cause : Nat) : State :=
  let v := s.port p
  let lost := v.unacked.map (fun f => f.pkt) ++ v.waiting.map (fun w => w.pkt)
  let v' : Port := if next = 0 ∧ s.portLit p = true then ({ v with out := [] } : Port).link linkClose 0 else { v with out := [] }
  let s := s.setPort p { v' with
    state := next, since := s.time, waiting := [], unacked := [], laneActive := 0, retraining := [], relayOn := false
    mode := ⟨0, 0, 0, 0⟩, backoff := false, markDue := false, neg := {} }
  if v.state = 4 ∨ v.state = 5 ∨ next = 0 then
    (lost.foldl (fun s x => s.loseFrame p x cause) s).event p 0x0982 [p, cause, lost.length]
  else s

/-- A hop list longer than the negotiated version carries (R272). -/
def Port.tooLong (p : Port) (x : Pkt) : Bool :=
  p.mode.version == 1 && (match x.h.far with
    | some f => decide (6 < f.hops.length)
    | none => false)

/-- Put a packet at the egress of a port: held while RETRAINING, sent when UP, lost otherwise or where its hop list is too long for the link (R272, R278, R280, R286). -/
def State.enqueue (s : State) (p : Nat) (x : Pkt) : State :=
  let v := s.port p
  if v.tooLong x then s.loseFrame p x causeVersion
  else if (v.state = 4 ∨ v.state = 5) ∧ s.portField p = true then
    s.setPort p ({ v with waiting := v.waiting ++ [({ vc := Body.vc x.body, pkt := x, since := s.time } : Waiting)] } : Port).flush
  else s.loseFrame p x causeNextPort

/-- EGRESS_HOLD_EXPIRY (R280): a frame held while RETRAINING beyond the hold limit is answered PATH_LOST. -/
def execEgressHoldExpiry (p : Nat) (s : State) : Out :=
  let v := s.port p
  .next (if v.state = 5 then
      match v.waiting with
      | w :: rest => if w.since + v.hold < s.time then (s.setPort p { v with waiting := rest }).loseFrame p w.pkt causeHold else s
      | [] => s
    else s)

/-! ## Acknowledgement, retry and credits (R277, R278) -/

/-- Enter RETRAINING: traffic is held, RETRAIN_CNT counts, and a new training and negotiation begin (R269, R293). -/
def State.retrain (s : State) (p : Nat) : State :=
  let v := s.port p
  s.setPort p { v with
    state := 5, since := s.time, retrainCnt := v.retrainCnt + 1, retraining := [], nakCount := 0, markDue := false, neg := {}
    laneMap := match v.fixedMap with
      | some m => m
      | none => v.laneMap }

/-- LINK_ACK (R277). -/
def execLinkAck (p seq : Nat) (s : State) : Out :=
  .next (if (s.port p).state = 4 then s.modPort p (fun v => (v.acked seq).flush) else s)

/-- LINK_NAK (R277): the named frame and those after it are sent again; eight in a row for one number retrain the port. -/
def execLinkNak (p seq : Nat) (s : State) : Out :=
  let v := s.port p
  .next (if v.state = 4 then
      let v := v.acked ((seq + 65535) % 65536)
      let n := if v.nakSeq = seq then v.nakCount + 1 else 1
      let v := { v with nakSeq := seq, nakCount := n }
      if 8 ≤ n then (s.setPort p v).retrain p
      else s.setPort p { v with retryCnt := v.retryCnt + BitVec.ofNat 32 v.unacked.length }
    else s)

/-- LINK_CREDITS (R278). -/
def execLinkCredits (p vc n : Nat) (s : State) : Out :=
  .next (if (s.port p).state = 4 then s.modPort p (fun v => (v.credited vc n).flush) else s)

/-- LINK_IDLE_ACK (R277): with nothing to send, the receiver acknowledges in a LINK frame. -/
def execLinkIdleAck (p : Nat) (s : State) : Out :=
  .next (if (s.port p).state = 4 ∧ (s.port p).waiting = [] then s.modPort p (fun v => v.link linkAck 0) else s)

/-- A frame is discarded: counted, and one nak with the number expected is sent (R277). -/
def Port.discard (p : Port) : Port := ({ p with crcErr := p.crcErr + 1 } : Port).link linkNak p.rxSeq

/-- FRAME_CRC_ERROR (R277). -/
def execFrameCrcError (p : Nat) (s : State) : Out :=
  .next (if (s.port p).state = 4 then s.modPort p Port.discard else s)

/-! ## Lanes (R279) -/

/-- A path of the mode has lost all its lanes, or fewer than 8 lanes are left (R269). -/
def Port.starved (p : Port) (lane : Nat) : Bool :=
  decide (p.lanes < 8) || (upto 8).all (fun i => !(bit p.laneActive (lane / 8 * 8 + i)))

/-- Take a lane off: it retrains alone; with too few lanes left the port retrains (R269, R279). -/
def State.laneOff (s : State) (p lane : Nat) : State :=
  let v := s.port p
  if v.state = 4 ∧ bit v.laneActive lane = true ∧ lane < 32 then
    let v := { v with
      laneActive := v.laneActive &&& ~~~(BitVec.ofNat 32 (2 ^ lane)), retraining := v.retraining ++ [lane]
      retrainCnt := v.retrainCnt + 1 }
    let s := (s.setPort p v).event p 0x0983 [p, lane, v.lanes]
    if v.starved lane then s.retrain p else s
  else s

/-- LINK_LANE_OFF (R279): the transmitter stripes over the remaining lanes from its next frame, which it marks. -/
def execLinkLaneOff (p lane : Nat) (s : State) : Out :=
  let marks := (s.port p).state = 4 ∧ bit (s.port p).laneActive lane = true
  let s' := s.laneOff p lane
  .next (if marks then s'.modPort p (fun v => { v with markDue := true }) else s')

/-- Return a lane to the stripe. -/
def Port.laneBack (p : Port) (lane : Nat) : Port :=
  { p with laneActive := p.laneActive ||| BitVec.ofNat 32 (2 ^ lane), retraining := p.retraining.filter (fun l => !(l == lane)) }

/-- LINK_LANE_ON (R279). -/
def execLinkLaneOn (p lane : Nat) (s : State) : Out :=
  .next (if (s.port p).state = 4 ∧ (s.port p).retraining.contains lane = true then
      s.modPort p (fun v => { v.laneBack lane with markDue := true })
    else s)

/-- LANE_RETRAIN_DONE (R279): the lane returns, by LINK lane on, or stays off until the port next retrains. -/
def execLaneRetrainDone (p lane : Nat) (ok : Bool) (s : State) : Out :=
  .next (if (s.port p).state = 4 ∧ (s.port p).retraining.contains lane = true then
      s.modPort p (fun v => if ok then (v.laneBack lane).link linkLaneOn lane else { v with retraining := v.retraining.filter (fun l => !(l == lane)) })
    else s)

/-- Begin training (R270); a fixed lane map applies. -/
def State.train (s : State) (p : Nat) : State :=
  let v := s.port p
  s.setPort p { v with
    state := 2, since := s.time, backoff := false, out := [], neg := {}
    laneMap := match v.fixedMap with
      | some m => m
      | none => v.laneMap }

/-- LANE_FAILURE (R279): the receiver sends LINK lane off; during NEGOTIATING the negotiation is abandoned and the port trains again (R292). -/
def execLaneFailure (p lane : Nat) (s : State) : Out :=
  let v := s.port p
  .next (if v.state = 3 then s.train p
    else if v.state = 4 ∧ bit v.laneActive lane = true ∧ lane < 32 then (s.setPort p (v.link linkLaneOff lane)).laneOff p lane
    else s)

/-! ## The port state machine (R269, R270) -/

/-- PORT_LIGHT_DETECTED (R269). -/
def execPortLightDetected (p : Nat) (s : State) : Out :=
  .next (if (s.port p).state = 1 ∧ s.portLit p = true ∧ s.portField p = true then s.train p else s)

/-- One rate's report: what training measured, within the rates and levels PORT_CTRL offers (R271). -/
def Port.report (p : Port) (bit_ : Nat) (r : RateCap) : RateCap :=
  if nbit p.rates bit_ then { r with fec := Nat.land r.fec p.fecs } else ⟨0, 0, 0⟩

/-- What a port reports of a training (R271). -/
def Port.reports (p : Port) (t : Trained) : Trained :=
  { t with rate3 := p.report 2 t.rate3, rate2 := p.report 1 t.rate2, rate1 := p.report 0 t.rate1 }

/-- A fresh nonce of 32 bytes, a free value (R270; log entry 2). -/
def State.freshNonce (s : State) : Nat × State :=
  (upto 8).foldl (fun r _ => let v := r.2.freeVal; (r.1 * 2 ^ 32 + v.1.toNat, v.2)) (0, s)

/-- A path is usable in both directions at some rate. -/
def Trained.some_ (t : Trained) : Bool :=
  [t.rate3, t.rate2, t.rate1].any (fun c => decide (0 < c.tx) && decide (0 < c.rx))

/-- A port negotiates: in NEGOTIATING, or in RETRAINING once it has trained (R269). -/
def Port.negotiates (p : Port) : Bool := p.state == 3 || (p.state == 5 && p.neg.trained.some_)

/-- TRAINING_DONE (R265, R267, R269, R270): dark paths have moved to spares, with one event 0x0984 each, and HELLO exchange begins with a fresh nonce, from TRAINING in NEGOTIATING, in RETRAINING without a change of state. -/
def execTrainingDone (p : Nat) (r : TrainResult) (s : State) : Out :=
  let v := s.port p
  let o := Sys2Proof.Machine.TrainResult.outcome r v.laneMap v.fixedMap
  .next (if ((v.state = 2 ∧ v.backoff = false) ∨ v.state = 5) ∧ o.2.2.some_ = true then
      let n := s.freshNonce
      let v := { v with
        state := if v.state = 5 then 5 else 3
        since := if v.state = 5 then v.since else s.time
        neg := { trained := v.reports o.2.2, nonce := n.1 }
        laneMap := o.1 }
      o.2.1.foldl (fun s e => s.event p 0x0984 [p, e.1, b2n e.2.1, e.2.2]) (n.2.setPort p (v.say (.hello v.versions n.1)))
    else s)

/-- TRAINING_FAILED (R269): no usable path, or 130 ms elapsed; the port waits 1 s. -/
def execTrainingFailed (p : Nat) (s : State) : Out :=
  let v := s.port p
  .next (if v.state = 2 ∧ v.backoff = false then s.setPort p { v with backoff := true, since := s.time }
    else if v.state = 5 then s.portDrop p 1 causeRetrain
    else s)

/-- TRAINING_BACKOFF_EXPIRY (R269). -/
def execTrainingBackoffExpiry (p : Nat) (s : State) : Out :=
  let v := s.port p
  .next (if v.state = 2 ∧ v.backoff = true ∧ v.since + 25000000 ≤ s.time then
      s.setPort p { v with state := 1, since := s.time, backoff := false }
    else s)

/-- Refuse a partner (R269, R273): the refusal code is kept and event 0x0985 written; a negotiation that fails in RETRAINING takes the port DARK. -/
def State.refusePort (s : State) (p code serial : Nat) : State :=
  if (s.port p).state = 5 then (s.modPort p (fun v => { v with refusal := code })).portDrop p 1 causeRetrain
  else (s.modPort p (fun v => { v with state := 6, since := s.time, refusal := code, neg := {} })).event p 0x0985 [p, code, serial]

/-- A port's own capability block (R271), with the partner's nonce as echo. -/
def State.ownBlock (s : State) (p : Nat) : CapBlock :=
  let v := s.port p
  let t := v.neg.trained
  { versions := v.versions, rate3 := t.rate3, rate2 := t.rate2, rate1 := t.rate1, port := p, wafer := s.waferId
    txMap := bits v.laneMap 15 0, rxMap := bits v.laneMap 31 16, nonce := v.neg.nonce, echo := (v.neg.hello.map (fun h => h.2)).getD 0
    cert := leNat (Config.sha512 Config.certChain), serial := Config.serial, sigOk := true, chainOk := true }

/-- Send the partner a signed block (R271, R275). -/
def State.sayBlock (s : State) (p : Nat) : State :=
  s.modPort p (fun v => v.say (.cap (Sys2Proof.Machine.CapBlock.bytes (s.ownBlock p))))

/-- HELLO (R270): the partner's versions and nonce; the own block, which echoes that nonce, goes out. -/
def execHello (p versions nonce : Nat) (s : State) : Out :=
  .next (if (s.port p).negotiates then
      (s.modPort p (fun v => { v with neg := { v.neg with hello := some (versions, nonce) } })).sayBlock p
    else s)

/-- The lowest FEC level of a set. -/
def lowestFec (f : Nat) : Option Nat := firstBelow 4 (fun i => nbit f i)

/-- One candidate mode: a version and a rate both ends offer (R272). -/
def candidate (version rate : Nat) (a b : RateCap) : Option LinkMode :=
  let g := min (min a.tx a.rx) (min b.tx b.rx)
  match lowestFec (Nat.land a.fec b.fec) with
  | some f => if 0 < g then some { version := version, rate := rate, paths := g, fec := f } else none
  | none => none

/-- Net bandwidth of a lane by rate code, in Gbit/s (R263). -/
def laneRate (r : Nat) : Nat := if r = 3 then 200 else if r = 2 then 100 else if r = 1 then 50 else 0

/-- A candidate ranks above another: more bandwidth, then the lower level, then the lower version (R272). -/
def LinkMode.above (a b : LinkMode) : Bool :=
  let x := laneRate a.rate * 8 * a.paths
  let y := laneRate b.rate * 8 * b.paths
  decide (y < x) || (x == y && (decide (a.fec < b.fec) || (a.fec == b.fec && decide (a.version < b.version))))

/-- The mode both ends choose (R272). -/
def chooseMode (versions : Nat) (t : Trained) (b : CapBlock) : Option LinkMode :=
  let cs := (upto 2).flatMap (fun (v : Nat) =>
    if nbit versions v && nbit b.versions v then
      [candidate (v + 1) 3 t.rate3 b.rate3, candidate (v + 1) 2 t.rate2 b.rate2, candidate (v + 1) 1 t.rate1 b.rate1].filterMap (fun c => c)
    else [])
  cs.foldl (fun best c => match best with
    | none => some c
    | some m => if Sys2Proof.Machine.LinkMode.above c m then some c else some m) none

/-- Why a partner's block is refused (R273, R274). -/
def State.capRefusal (s : State) (v : Port) (b : CapBlock) : Option Nat :=
  if !(b.echo == v.neg.nonce) then some 7
  else if !b.sigOk then some 3
  else if bit v.ctrl 29 && !b.chainOk then some 4
  else if b.wafer == s.waferId && !(b.wafer == 0xFFFF) then some 5
  else if bit v.ctrl 28 && (match v.partner with | some q => !(q.cert == b.cert) | none => false) then some 6
  else none

/-- The two MODE frames disagree (R272). -/
def Negotiation.mismatch (n : Negotiation) : Bool :=
  match n.chosen, n.theirs with
  | some a, some (b, _) => !(a == b)
  | _, _ => false

/-- The partner's block is verified, the mode computed, and a MODE frame names it with a switch frame count, a free value (R270, R272, R273). -/
def State.verifyCap (s : State) (p : Nat) (b : CapBlock) : State :=
  let v := s.port p
  match s.capRefusal v b with
  | some code => s.refusePort p code b.serial
  | none =>
    match chooseMode v.versions v.neg.trained b with
    | none => s.refusePort p 1 b.serial
    | some m =>
      let c := s.freeVal
      let n := { v.neg with cap := some b, chosen := some m, count := c.1.toNat }
      let s := c.2.setPort p (({ v with neg := n } : Port).say (.mode m c.1.toNat))
      if n.mismatch then s.refusePort p 2 b.serial else s

/-- CAP (R270, R272, R273): the block is verified once its certificate chain is cached, and the chain is requested first where it is not; on an UP port a new block carries a changed identifier (R275). -/
def execCap (p : Nat) (b : CapBlock) (s : State) : Out :=
  let v := s.port p
  .next (if v.negotiates then
      if s.hedge.certCache.contains b.cert then s.verifyCap p b
      else s.setPort p (({ v with neg := { v.neg with cap := some b } } : Port).say (.cert .request))
    else if v.state = 4 then
      match s.capRefusal v b with
      | some _ => s
      | none => s.setPort p { v with partnerWafer := b.wafer }
    else s)

/-- CERT (R270): the partner's request is answered with the own chain; with the last part of the partner's chain, which is then cached, its block is verified. -/
def execCert (x : CertAt) (s : State) : Out :=
  let p := x.port
  let v := s.port p
  .next (if v.negotiates then
      match x.frame with
      | .request => s.setPort p (v.say (.cert (.part Config.certChain true)))
      | .part d last =>
        let s := s.setPort p { v with neg := { v.neg with certs := v.neg.certs ++ d } }
        match v.neg.cap, v.neg.chosen with
        | some b, none =>
          if last then ({ s with hedge := { s.hedge with certCache := insertNat s.hedge.certCache b.cert } }).verifyCap p b else s
        | _, _ => s
    else s)

/-- MODE (R272): the partner's mode and switch count. -/
def execMode (p : Nat) (m : LinkMode) (count : Nat) (s : State) : Out :=
  let v := s.port p
  .next (if v.negotiates then
      let n := { v.neg with theirs := some (m, count) }
      if n.mismatch then s.refusePort p 2 (match n.cap with | some b => b.serial | none => 0) else s.setPort p { v with neg := n }
    else s)

/-- The mode word of event 0x0981. -/
def LinkMode.code (m : LinkMode) : Nat := m.version + 4 * m.rate + 16 * m.fec + 64 * m.paths

/-- Record the partner that reaches UP (R274): a first one with event 0x0987, a changed one with PORT_STATE.changed and event 0x0986. -/
def State.recordPartner (s : State) (p : Nat) (b : CapBlock) : State :=
  let v := s.port p
  let s := s.setPort p { v with partner := some { cert := b.cert, serial := b.serial, wafer := b.wafer } }
  match v.partner with
  | none => s.event p 0x0987 [p, b.serial, b.wafer]
  | some q =>
    if q.cert = b.cert then s
    else (s.modPort p (fun v => { v with changed := true })).event p 0x0986 [p, q.serial, q.wafer, b.serial, b.wafer]

/-- MODE_SWITCH (R269, R270): once the frames between the ends have reached the switch count of both MODE frames, the agreed mode takes force and the port is UP. -/
def execModeSwitch (x : SwitchAt) (s : State) : Out :=
  let p := x.port
  let v := s.port p
  .next (match v.neg.cap, v.neg.chosen, v.neg.theirs with
    | some b, some m, some (_, count) =>
      if v.state = 3 ∧ v.neg.count ≤ x.frames ∧ count ≤ x.frames then
        let s := s.recordPartner p b
        let s := s.modPort p (fun w => { w with
          state := 4, since := s.time, relayOn := bit v.ctrl 30, mode := m, partnerPort := b.port, partnerWafer := b.wafer
          laneActive := v.neg.trained.lanes m, waiting := [], unacked := [], txSeq := 0, rxSeq := 0
          credit := [128, 512, 1024, 2048], owed := [0, 0, 0, 0], turn := 1, nakCount := 0, retraining := [], markDue := false })
        s.event p 0x0981 [p, Sys2Proof.Machine.LinkMode.code m, b.wafer, b.port]
      else s
    | _, _, _ => s)

/-- NEGOTIATION_TIMEOUT (R269). -/
def execNegotiationTimeout (p : Nat) (s : State) : Out :=
  .next (if (s.port p).state = 3 ∧ (s.port p).since + 5000000 ≤ s.time then s.portDrop p 1 causeLight else s)

/-- REFUSED_TIMEOUT (R269). -/
def execRefusedTimeout (p : Nat) (s : State) : Out :=
  .next (if (s.port p).state = 6 ∧ (s.port p).since + 250000000 ≤ s.time then s.train p else s)

/-- PORT_SIGNAL_LOSS (R269, R292). -/
def execPortSignalLoss (p : Nat) (s : State) : Out :=
  let st := (s.port p).state
  .next (if st = 3 ∨ st = 4 ∨ st = 5 then s.portDrop p 1 causeLight else s)

/-- LINK_CLOSE (R269): the partner's port goes down, so its signal is lost. -/
def execLinkClose (p : Nat) (s : State) : Out :=
  let st := (s.port p).state
  .next (if st = 3 ∨ st = 4 ∨ st = 5 then s.portDrop p 1 causeClose else s)

/-- RETRAIN_DONE (R269, R280): training and negotiation have succeeded within 250 ms. The port is UP again with every lane of the mode agreed, and the frames of its retry buffer are sent again. -/
def execRetrainDone (p : Nat) (s : State) : Out :=
  let v := s.port p
  .next (match v.neg.cap, v.neg.chosen, v.neg.theirs with
    | some b, some m, some _ =>
      if v.state = 5 ∧ s.time ≤ v.since + 6250000 then
        (s.recordPartner p b).modPort p (fun w => ({ w with
          state := 4, since := s.time, turn := 1, retryCnt := v.retryCnt + BitVec.ofNat 32 v.unacked.length, mode := m
          partnerPort := b.port, partnerWafer := b.wafer, laneActive := v.neg.trained.lanes m } : Port).flush)
      else s
    | _, _, _ => s)

/-- RETRAIN_TIMEOUT (R269). -/
def execRetrainTimeout (p : Nat) (s : State) : Out :=
  .next (if (s.port p).state = 5 then s.portDrop p 1 causeRetrain else s)

/-- Take a port DISABLED (R269): held frames are answered PATH_LOST. -/
def State.portDown (s : State) (p : Nat) : State := if (s.port p).state = 0 then s else s.portDrop p 0 causeDown

/-- A port leaves DISABLED where it is enabled and its field runs (R268, R269). -/
def State.portWake (s : State) (p : Nat) : State :=
  let v := s.port p
  if v.state = 0 ∧ v.enabled = true ∧ s.portField p = true then s.setPort p { v with state := 1, since := s.time } else s

/-! ## Glow modules (R266, R503) -/

/-- The seven ports of a bay. -/
def bayPorts (g : Nat) : List Nat := (upto 7).map (fun i => 7 * g + i)

/-- A bay changes state: Hedgerow writes event 0x0F93 with the light level it reads. -/
def State.setBay (s : State) (g st : Nat) : State :=
  let old := s.glow.getD g 1
  let v := s.freeVal
  ({ v.2 with glow := v.2.glow.put g st }).event srcHedgerow 0x0F93 [g, old, st, v.1.toNat]

/-- A bay's light is gone: each of its ports that is not DISABLED goes DARK (R266). -/
def State.darken (s : State) (g : Nat) : State :=
  (bayPorts g).foldl (fun s p => if (s.port p).state = 0 then s else s.portDrop p 1 causeLight) s

/-- GLOW_LIGHT_LOSS (R266). -/
def execGlowLightLoss (g : Nat) (s : State) : Out :=
  .next (if g < 8 ∧ s.glow.getD g 1 = 2 then (s.setBay g 1).darken g else s)

/-- GLOW_LATCH_OPEN (R503). -/
def execGlowLatchOpen (g : Nat) (s : State) : Out :=
  .next (if g < 8 ∧ ¬ s.glow.getD g 1 = 0 then (s.setBay g 0).darken g else s)

/-- GLOW_LATCH_CLOSE (R503). -/
def execGlowLatchClose (g : Nat) (s : State) : Out :=
  .next (if g < 8 ∧ s.glow.getD g 1 = 0 then s.setBay g 1 else s)

/-- GLOW_LIT (R503). -/
def execGlowLit (g : Nat) (s : State) : Out :=
  .next (if g < 8 ∧ s.glow.getD g 1 = 1 then s.setBay g 2 else s)

end Sys2Proof.Machine
end

