-- ==== Sys2Proof/Machine/Docks.lean ====
section
/-! DEFINITION. The docks: remote packets on their way out (R281 to R285), relay and delivery of frames (R286 to R288), proxies of brokered connections (R289), and pending entries (R284). -/

namespace Sys2Proof.Machine

/-! ## Pending entries (R284) -/

/-- The pending entries a request takes at its ingress dock: one, or one for each contribution. -/
def State.pendsOf (s : State) (x : Pkt) : List Pend :=
  let mk (src : Endp) (tag : Nat) (re : Re) (isRead : Bool) : Pend :=
    let t := srcTile src
    { tile := t, gen := (s.tile t).gen, tag := tag, re := re, isRead := isRead, since := s.time }
  match x.body with
  | .combine cs => cs.map (fun c => mk c.src c.tag (.conn c.ref) false)
  | b =>
    if pended b then
      match Body.asked x.h b with
      | some (re, isRead) => [mk x.h.src x.h.tag re isRead]
      | none => []
    else []

/-- Record pending entries, each in the first free place. -/
def Port.record (p : Port) (es : List Pend) : Port :=
  es.foldl (fun p e => { p with pending := p.pending.put ((firstBelow 4096 (fun i => (p.pending.find i).isNone)).getD 4096) e }) p

/-- PENDING_EXPIRY (R284, R292): answered PATH_LOST and counted, once its tick is over, so that an answer of that tick is passed. -/
def execPendingExpiry (p i : Nat) (s : State) : Out :=
  let v := s.port p
  .next (match v.pending.find i with
    | none => s
    | some e =>
      if e.since + v.remoteTimeout < s.time then
        (s.setPort p { v with pendingExpired := v.pendingExpired + 1 }).endPend p i e (bareAnswer e.re e.isRead stPathLost)
      else s)

/-! ## Proxies (R289) -/

/-- The proxy that stands for a far sender at an arrival dock. -/
def Port.proxyFor (p : Port) (wafer : Nat) (src : Endp) (ctx : Nat) : Option (Nat × Proxy) :=
  p.proxies.find? (fun e => e.2.valid && e.2.wafer == wafer && Endp.tile e.2.tile == src && e.2.ctx == ctx)

/-- The context a request names, where it travels through a proxy. -/
def proxied : Body → Option Nat
  | .message b => some b.ref.ctx
  | .close op b => if op = 1 then none else some b.ref.ctx
  | .probe b => some b.ctx
  | _ => none

/-- A request as its proxy sends it: the proxy's context and generation (R289). -/
def throughProxy (ctx gen : Nat) : Body → Body
  | .message b => .message { b with ref := { b.ref with ctx := ctx }, gen := gen }
  | .close op b => .close op { b with ref := { b.ref with ctx := ctx }, gen := gen }
  | .probe b => .probe { b with ctx := ctx, gen := gen }
  | b => b

/-- The proxy of a context at an injection point (R289). -/
def Port.proxyAt (p : Port) (inj ctx : Nat) : Proxy := p.proxies.getD (16 * inj + ctx) {}

/-- A reference as the far sender holds it: under its own context (R289). -/
def Port.refBack (p : Port) (inj : Nat) (r : ConnRef) : ConnRef := { r with ctx := (p.proxyAt inj r.ctx).ctx }

/-- An answer's reference, back under the far sender's context. -/
def Port.reBack (p : Port) (inj : Nat) (re : Re) : Re :=
  match re with
  | .conn r => .conn (p.refBack inj r)
  | .probe r => .probe (p.refBack inj r)
  | .opening r => .opening (p.refBack inj r)
  | re => re

/-- A packet that is an answer or notice of a connection, back under the far sender's context, and under the proxy's generation where the receiving tile names its own: the proxy is that tile to the far sender (R235, R289). -/
def Port.bodyBack (p : Port) (inj : Nat) : Body → Body
  | .reply re st d => .reply (p.reBack inj re) st d
  | .status re st => .status (p.reBack inj re) st
  | .credit b => .credit { b with ref := p.refBack inj b.ref, gen := (p.proxyAt inj b.ref.ctx).gen }
  | .close op b => .close op { b with ref := p.refBack inj b.ref, gen := (p.proxyAt inj b.ref.ctx).gen }
  | b => b

/-- The proxy context an answer or notice without a reverse path is for. -/
def proxyCtx : Body → Option Nat
  | .credit b => some b.ref.ctx
  | .grant b => some b.ref.ctx
  | .close _ b => some b.ref.ctx
  | .status (.conn r) _ => some r.ctx
  | .status (.opening r) _ => some r.ctx
  | .status (.probe r) _ => some r.ctx
  | _ => none

/-! ## Answers that reach this engine -/

/-- The dock that took a tile's request to a wafer, where its late answer counts (R284). -/
def State.ingressDock (s : State) (t : TileId) (wafer : Nat) : Nat :=
  match s.ingressEnd t wafer with
  | some (.dock p _) => p
  | _ => fieldOf t

/-- A tile's answer comes home: its pending entry ends; a posted signal's refusal has none; any other is late and counts at the ingress dock (R284). Traffic of a connection that is no answer goes on as it is. -/
def State.passAnswer (s : State) (p : Nat) (x : Pkt) (t : TileId) : State :=
  let direct (s : State) : State := s.send { x with h := { x.h with src := .dock p 0, dst := .tile t, dstGen := 0 } }
  match x.body with
  | .status re _ | .reply re _ _ =>
    match s.findPend t x.h.tag re with
    | some (d, i, e) => s.endPend d i e x.body
    | none =>
      match re with
      | .signal _ true => direct s
      | _ => s.modPort (s.ingressDock t ((x.h.far.map Far.srcWafer).getD 0)) (fun v => { v with lateAnswer := v.lateAnswer + 1 })
  | _ => direct s

/-- A refusal at the arrival dock, on the reverse path, or to its own tile where the packet looped back (R281, R287). -/
def State.refuseFar (s : State) (p : Nat) (x : Pkt) (f : Far) (path : List Nat) (st : Nat) : State :=
  if path.isEmpty then s.answerOwn p x st
  else (farRefusals x f path st).foldl (fun s q => s.sendFrom (s.place (.dock p 0)) q) s

/-! ## Delivery (R287 to R289) -/

/-- A job image is loaded in some field: a job is LOADED, RUNNING or STOPPED (R404). -/
def State.loaded (s : State) : Bool := s.cond.jobs.any (fun e => decide (2 ≤ e.2.st))

/-- The engine is unprogrammed (R26). -/
def State.unprogrammed (s : State) : Bool := !s.loaded && !s.boot.programmed

/-- What an operation receives from a closed target: an unprogrammed engine has no open window, connection or sync cell (R30). -/
def closedTarget : Body → Option Nat
  | .remoteWrite _ _ | .remoteRead _ => some stWindowClosed
  | .message _ | .combine _ | .probe _ | .close _ _ | .openReq _ => some stPeerLost
  | .sync op _ => some (if op = 1 ∨ op = 2 then stCellLost else stPathLost)
  | .ctrlWrite _ _ | .ctrlRead _ _ | .ctrlAdmit | .ctrlSwitch _ _ | .ctrlDload _ _ _ | .ctrlSample _ _ _ | .ctrlReply _ _ _
  | .rawWrite _ _ | .rawRead _ _ | .steal _ _ _ | .operandRead _ | .reply _ _ _ | .status _ _ | .grant _ | .credit _ | .tokenCredit _ _
  | .stealReply _ | .token _ | .result _ | .failure _ _ _ | .multicast _ _ _ => none

/-- Put a request on the mesh of its target's engine: dst_gen 0, or through its proxy. -/
def State.deliverRequest (s : State) (p : Nat) (x : Pkt) (f : Far) (path : List Nat) : State :=
  let v := s.port p
  let home : Far := { srcWafer := f.srcWafer, dstWafer := f.dstWafer, endp := x.h.src, hops := path, idx := 0 }
  let near : Nat := match f.endp with
    | .tile t => (s.nearest t p).getD 0
    | .fc g => (s.nearest (s.place (.fc g)) p).getD 0
    | .dock _ _ | .gate _ | .conductor => 0
  let out (s : State) (inj gen : Nat) (b : Body) : State :=
    s.send { h := { src := .dock p inj, dst := f.endp, dstGen := gen, tag := x.h.tag, far := some home }, body := b }
  match x.body with
  | .sync op _ => if op = 1 ∨ op = 2 then out s near 0 x.body else s.refuseFar p x f path stPathLost
  | .combine cs =>
    cs.foldl (fun s c =>
      match v.proxyFor f.srcWafer c.src c.ref.ctx with
      | some (q, y) =>
        if x.h.dstGen = y.gen then
          s.send { h := { src := .dock p (q / 16), dst := f.endp, dstGen := y.peerGen, tag := c.tag }
                   body := .combine [{ c with ref := { c.ref with ctx := q % 16 }, src := .dock p (q / 16) }] }
        else s.refuseFar p { x with body := .combine [c] } f path stPeerLost
      | none => s.refuseFar p { x with body := .combine [c] } f path stPeerLost) s
  | b =>
    match proxied b with
    | some ctx =>
      match v.proxyFor f.srcWafer x.h.src ctx with
      | some (q, y) =>
        if x.h.dstGen = y.gen then out s (q / 16) y.peerGen (throughProxy (q % 16) y.gen b)
        else s.refuseFar p x f path stPeerLost
      | none => s.refuseFar p x f path stPeerLost
    | none => out s near 0 b

/-- A packet whose hop list ends here: the checks of R287, then delivery. -/
def State.deliver (s : State) (p : Nat) (x : Pkt) (f : Far) (path : List Nat) : State :=
  let isReq := !(f.answer || Body.isAnswer x.body)
  if s.waferId = 0xFFFF then (if isReq then s.refuseFar p x f path stWaferUnassigned else s)
  else if !(f.dstWafer == s.waferId) then
    let s := s.event p 0x0988 [p, f.dstWafer, f.srcWafer]
    if isReq then s.refuseFar p x f path stPathLost else s
  else if isReq then
    match closedTarget x.body, s.unprogrammed with
    | some st, true => s.refuseFar p x f path st
    | _, _ => s.deliverRequest p x f path
  else
    match f.endp with
    | .tile t => s.passAnswer p x t
    | .dock _ _ | .fc _ | .gate _ | .conductor => s

/-! ## Out of the engine (R281, R282) -/

/-- Take a routed packet to the egress dock of its route, over the mesh where that is another dock; it cannot go on where either dock is out of service (R20, R280, R286). It leaves by the first place in service of the dock it stands at and enters by the first of the other: R286 names none (DESIGN CHOICE, log entry 79). -/
def State.toEgress (s : State) (p e : Nat) (x : Pkt) : State :=
  if e = p then s.enqueue p x
  else if s.dockOn p && s.dockOn e then s.sendFrom (s.place (.dock p 0)) { x with h := { x.h with dst := .dock e 0 } }
  else s.loseFrame p x causeField

/-- Set a packet on a route from this engine (R281, R285). -/
def onRoute (x : Pkt) (f : Far) (r : Route) : Pkt :=
  { x with h := { x.h with far := some { f with hops := 0xFE :: r.hops.drop 1, idx := 1 } } }

/-- A tile's request at its ingress dock: loopback, a route miss, a full pending table, or on its way (R281, R282, R284). -/
def State.ingress (s : State) (p : Nat) (x : Pkt) (f : Far) : State :=
  let f := { f with srcWafer := s.waferId }
  let es := s.pendsOf x
  let loop := f.dstWafer == s.waferId
  match s.route p f.dstWafer, loop with
  | none, false => (s.event p 0x098A [p, f.dstWafer]).answerOwn p x stPathLost
  | r, _ =>
    if 4096 < (s.port p).pending.length + es.length then s.answerOwn p x stRetry
    else
      let s := s.modPort p (fun v => v.record es)
      if loop then s.deliver p x f []
      else
        match r with
        | some r => s.toEgress p r.egress (onRoute x f r)
        | none => s

/-- DOCK_INGRESS (R282): a dock in service takes a remote packet out of the mesh. -/
def execDockIngress (p : Nat) (pkt : Pkt) (s : State) : Out :=
  .next (match pkt.h.far with
    | some f =>
      if f.hops.isEmpty && !f.answer && !Body.isAnswer pkt.body && s.dockOn p then s.landing pkt (fun s => s.ingress p pkt f) else s
    | none => s)

/-- The op of a broker message (R407). -/
def brokerOp : BrokerBody → Nat
  | .connectRequest .. => 1 | .connectReply .. => 2 | .close .. => 3 | .lookupRequest .. => 4 | .lookupReply .. => 5

/-- The status a broker message carries, 0 in a request. -/
def brokerStatus : BrokerBody → Nat
  | .connectReply st .. => st
  | .lookupReply st .. => st
  | .connectRequest .. => 0 | .close .. => 0 | .lookupRequest .. => 0

/-- Bytes 16 to 47 of a broker message (R407). -/
def brokerTail : BrokerBody → List Byte
  | .connectRequest far q cr org c =>
    natLe 4 (tileDetail far) ++ natLe 1 q ++ natLe 1 cr ++ [0, 0] ++ natLe 4 (tileDetail org) ++ natLe 1 c ++ List.replicate 19 0
  | .connectReply _ g q inc cr k op mx gen =>
    natLe 2 g ++ natLe 1 q ++ natLe 1 inc ++ natLe 1 cr ++ natLe 1 (k + 4 * op) ++ natLe 1 mx ++ [0] ++ natLe 2 gen ++ List.replicate 22 0
  | .close g q => natLe 2 g ++ natLe 1 q ++ List.replicate 29 0
  | .lookupRequest n => natLe 4 n ++ List.replicate 28 0
  | .lookupReply _ pos w k len => natLe 4 (tileDetail pos) ++ natLe 1 w ++ [0] ++ natLe 2 k ++ natLe 2 len ++ List.replicate 22 0

/-- The 48 bytes of a broker message (R407). -/
def brokerBytes (m : BrokerMsg) : List Byte :=
  natLe 2 0x4B42 ++ natLe 1 1 ++ natLe 1 (brokerOp m.body) ++ natLe 2 m.origin ++ natLe 2 m.target ++ natLe 4 m.request ++
    natLe 2 (brokerStatus m.body) ++ [0, 0] ++ brokerTail m.body

/-- Send a broker message to another wafer's conductor as a fibre VC0 CTRL_WRITE on the local route (R278, R281, R407); to this engine's own identifier it loops back. Where no route stands it is lost, with event 0x098A. -/
def State.sendBroker (s : State) (m : BrokerMsg) : State :=
  let p := s.activeKeep
  let f := s.farTo m.target .conductor
  let x : Pkt := { h := { src := .conductor, dst := .dock p 0, dstGen := 0, tag := 0, far := some f }, body := .ctrlWrite 0 (brokerBytes m) }
  if m.target = s.waferId then s.send { x with h := { x.h with dst := .conductor } }
  else
    match s.route p m.target with
    | some r => s.toEgress p r.egress (onRoute x f r)
    | none => s.event p 0x098A [p, m.target]

/-- The answer to a brokered OPEN reaches its proxy: the proxy keeps the receiving tile's generation, or is freed, and the conductor replies with the grant or the refusal (R289, R407). -/
def State.serveAnswer (s : State) (p q : Nat) (grant : Option GrantBody) : State :=
  match s.cond.serves.find? (fun e => e.port == p && e.proxy == q) with
  | none => s
  | some e =>
    let s := { s with cond := { s.cond with serves := s.cond.serves.filter (fun e => !(e.port == p && e.proxy == q)) } }
    let y := (s.port p).proxies.getD q {}
    let reply (b : BrokerBody) : BrokerMsg := { origin := s.waferId, target := e.origin, request := e.request, body := b }
    match grant with
    | some g =>
      (s.modPort p (fun v => { v with proxies := v.proxies.put q { y with peerGen := g.gen } })).sendBroker
        (reply (.connectReply 0 y.gen q g.ref.qinc g.credits g.kind g.op g.maxSize g.gen))
    | none =>
      let s := s.modPort p (fun v => { v with proxies := v.proxies.put q { y with valid := false } })
      (s.event srcConductor 0x0E87 [e.origin, 1, 0x800E]).sendBroker (reply (.connectReply 0x800E 0 0 0 0 0 0 0 0))

/-- What a tile sends to a proxy goes on to the far sender (R289). -/
def State.proxyOut (s : State) (p inj : Nat) (x : Pkt) : State :=
  match proxyCtx x.body with
  | none => s
  | some c =>
    let q := 16 * inj + c
    let y := (s.port p).proxies.getD q {}
    match x.body with
    | .grant b => s.serveAnswer p q (some b)
    | .status (.opening _) _ => s.serveAnswer p q none
    | b =>
      if !y.valid then s
      else
        let isAns := match b with
          | .status _ _ => true
          | _ => false
        let f : Far := { srcWafer := s.waferId, dstWafer := y.wafer, endp := .tile y.tile, answer := isAns }
        let x : Pkt := { x with body := (s.port p).bodyBack inj b }
        if y.wafer = s.waferId then s.passAnswer p { x with h := { x.h with far := some f } } y.tile
        else
          match s.route p y.wafer with
          | none => s.event p 0x098A [p, y.wafer]
          | some r => s.toEgress p r.egress (onRoute x f r)

/-- A window of a tile that is OFF or in QUARANTINE is CLOSED to its far sender (R287). -/
def closedWindow : Body → Body
  | .status .xput st => .status .xput (if st = stPeerLost then stWindowClosed else st)
  | .reply .xget st d => .reply .xget (if st = stPeerLost then stWindowClosed else st) d
  | .status .xget st => .status .xget (if st = stPeerLost then stWindowClosed else st)
  | b => b

/-- A remote signal that this wafer's mesh refused because the host field of its cell is out of service is answered CELL_LOST (R254, R288). -/
def State.lostCell (s : State) : Body → Body
  | .status (.signal n posted) st =>
    .status (.signal n posted) (if st = stPathLost ∧ s.cellsUp (cellHost n).1 = false then stCellLost else st)
  | b => b

/-- DOCK_EGRESS (R286): routed and relayed packets are framed; a fresh answer takes its reverse path, or ends here where its request looped back; what a tile sends to a proxy goes to the far sender. -/
def execDockEgress (p : Nat) (pkt : Pkt) (s : State) : Out :=
  let inj : Nat := match pkt.h.dst with
    | .dock _ i => i
    | .tile _ | .fc _ | .gate _ | .conductor => 0
  .next (s.landing pkt fun s => match pkt.h.far with
    | none => s.proxyOut p inj pkt
    | some f =>
      if f.answer && f.idx == 0 then
        let x : Pkt := { pkt with body := s.lostCell (closedWindow ((s.port p).bodyBack inj pkt.body)) }
        if f.hops.isEmpty then
          match f.endp with
          | .tile t => s.passAnswer p x t
          | .dock _ _ | .fc _ | .gate _ | .conductor => s
        else s.enqueue p { x with h := { x.h with far := some { f with hops := 0xFE :: f.hops.drop 1, idx := 1 } } }
      else if f.hops.isEmpty then s
      else s.enqueue p pkt)

/-! ## Frames that arrive (R276 to R278, R286) -/

/-- Why a frame cannot be relayed from port p, as a cause of event 0x0989 (R286). -/
def State.relayRefusal (s : State) (p : Nat) (f : Far) : Option Nat :=
  let n := nth f.hops f.idx 0xFF
  if !(s.port p).relayOn then some causeRelayOff
  else if 56 ≤ n then some causeNextPort
  else if !s.dockOn n then some causeField
  else if !((s.port n).state == 4) then some causeNextPort
  else if (s.port n).mode.version == 1 && decide (6 < f.hops.length) then some causeVersion
  else none

/-- Forward a frame, or refuse it along its reverse path; an answer that cannot go on is dropped (R285, R286). -/
def State.relay (s : State) (p : Nat) (x : Pkt) (f : Far) : State :=
  let n := nth f.hops f.idx 0xFF
  match s.relayRefusal p f with
  | some cause =>
    if f.answer || Body.isAnswer x.body then s.modPort p (fun v => { v with relayDrop := v.relayDrop + 1 })
    else
      let s := s.modPort p (fun v => { v with relayNack := v.relayNack + 1 })
      (s.event p 0x0989 [p, n, cause]).refuseFar p x f (p :: reversePath f) stPathLost
  | none =>
    let s := s.modPort p (fun v => { v with relayFwd := v.relayFwd + 1 })
    s.toEgress p n { x with h := { x.h with far := some { f with hops := f.hops.set f.idx (p + 128), idx := f.idx + 1 } } }

/-- What a frame's header does at the receiving port: acknowledgement, credits, and the units its packet will return. -/
def Port.header (p : Port) (fr : Frame) : Port :=
  let p := (p.acked fr.ack).credited fr.creditVc fr.credits
  ({ p with
    rxSeq := (p.rxSeq + 1) % 65536, ackDue := true
    owed := p.owed.set fr.vc (nth p.owed fr.vc 0 + creditUnits fr.pkt) } : Port).flush

/-- The frame is one the receiver already holds, sent again after a retrain (R280). -/
def Port.holds (p : Port) (seq : Nat) : Bool := within 1 32767 ((p.rxSeq + 65536 - seq % 65536) % 65536)

/-- DATA_FRAME (R286): in sequence it is relayed or delivered; out of sequence it is discarded, counted and naked, or quietly dropped where the port holds it already (R277, R280). The corrected symbols of the frame are a free value. -/
def execDataFrame (p : Nat) (fr : Frame) (s : State) : Out :=
  let v := s.port p
  .next (if !(v.state == 4) then s
    else if v.holds fr.seq then s.setPort p { v with ackDue := true }
    else if !(fr.seq == v.rxSeq) then s.setPort p v.discard
    else
      let n := if v.mode.fec = 0 then ((0 : Word), s) else s.freeVal
      let v := { v with fecCorr := BitVec.ofNat 32 (satAdd 0xFFFFFFFF v.fecCorr.toNat n.1.toNat) }
      let s := n.2.setPort p (v.header fr)
      match fr.pkt.h.far with
      | none => s
      | some f => if f.idx < f.hops.length then s.relay p fr.pkt f else s.deliver p fr.pkt f (p :: reversePath f))

end Sys2Proof.Machine
end

