-- ==== Sys2Proof/Machine/HostMem.lean ====
section
/-! DEFINITION. Host memory as the mesh, the conductor and devices reach it (R420 to R422), and the reset of a node (R429, R438). -/

namespace Sys2Proof.Machine

/-! ## Wafer addresses (R11, R422) -/

/-- The space, position and offset of a 44-bit wafer address. -/
def addrParts (a : Nat) : Nat × TileId × Nat := (a / 2 ^ 40 % 16, ⟨nbits a 29 20, nbits a 39 30⟩, nbits a 19 0)

/-- The node and byte of host memory that an address in space 0x3 names (R422). -/
def hostByte (a : Nat) : Option (Nat × Nat) :=
  let p := addrParts a
  if p.1 = 3 ∧ p.2.1.x < 800 ∧ p.2.1.y < 840 ∧ isKeep (fieldOf p.2.1) = true ∧ localIdx p.2.1 < 4096 then
    some (keepIdx (fieldOf p.2.1), localIdx p.2.1 * 2 ^ 20 + p.2.2)
  else none

/-- A host node. -/
def State.host (s : State) (j : Nat) : HostNode := s.hosts.getD j {}

/-- Change a host node. -/
def State.modHost (s : State) (j : Nat) (g : HostNode → HostNode) : State := { s with hosts := s.hosts.put j (g (s.host j)) }

/-- Bytes of local host memory. -/
def hostMemSize : Nat := 2 ^ 32

/-- Write bytes into a node's memory: a word written whole loses its error (R421). -/
def HostNode.put (h : HostNode) (a : Nat) (bs : List Byte) : HostNode :=
  { h with mem := Memory.writeN h.mem bs a, bad := h.bad.filter (fun w => !(decide (a ≤ w) && decide (w + 8 ≤ a + bs.length))) }

/-- The first uncorrectable word that a range touches. -/
def HostNode.badIn (h : HostNode) (a n : Nat) : Option Nat := h.bad.find? (fun w => decide (w < a + n) && decide (a < w + 8))

/-- Write into the memory of a node whose keep field is powered. -/
def State.hostPut (s : State) (j a : Nat) (bs : List Byte) : State :=
  if (s.field (keepField j)).running then s.modHost j (fun h => h.put a bs) else s

/-- The uncorrectable word that a write covers only in part (R119, R428). -/
def HostNode.badPart (h : HostNode) (a n : Nat) : Option Nat :=
  h.bad.find? (fun w => decide (w < a + n) && decide (a < w + 8) && !(decide (a ≤ w) && decide (w + 8 ≤ a + n)))

/-- A raw write into the memory of node j from the mesh: its status, and the state (R421, R422, R428). -/
def State.hostRawPut (s : State) (j a : Nat) (bs : List Byte) : Nat × State :=
  let h := s.host j
  if !(s.field (keepField j)).running then (stPathLost, s)
  else if hostMemSize < a + bs.length then (stAddressError, s)
  else
    match h.badPart a bs.length with
    | some _ => (stDataError, s.modHost j (fun h => { h with memUe := satAdd 0xFFFFFFFF h.memUe 1 }))
    | none => (stOk, s.modHost j (fun h => h.put a bs))

/-- A raw read of it: its status and bytes, and the state. -/
def State.hostRawGet (s : State) (j a n : Nat) : Nat × List Byte × State :=
  let h := s.host j
  if !(s.field (keepField j)).running then (stPathLost, [], s)
  else if hostMemSize < a + n then (stAddressError, List.replicate n 0, s)
  else
    match h.badIn a n with
    | some _ => (stDataError, Memory.readN h.mem n a, s.modHost j (fun h => { h with memUe := satAdd 0xFFFFFFFF h.memUe 1 }))
    | none => (stOk, Memory.readN h.mem n a, s)

/-! ## Reset of a node -/

/-- A node's reset: harts, caches, Ethernet and the root port; its memory stays, and it boots again (R421, R435, R438). -/
def HostNode.reboot (h : HostNode) (now : Nat) : HostNode := { mem := h.mem, bad := h.bad, stage := 1, bootAt := now, nextId := h.nextId }

/-- Every powered node is reset. -/
def State.rebootHosts (s : State) : State :=
  (upto 4).foldl (fun s j => if (s.field (keepField j)).running then s.modHost j (fun h => h.reboot s.time) else s) s

end Sys2Proof.Machine
end

