-- ==== Sys2Proof/Machine/TileRegs.lean ====
section
/-! DEFINITION. The tile register block, read and written (R66, R89, R125, R135, R168, R213, R260, R355): who may write each field, and what a write does. -/

namespace Sys2Proof.Machine

/-! ## Reading -/

/-- Ticks of the core's stall so far, saturating (R66). -/
def State.stallTicks (s : State) (t : TileId) : Nat :=
  match (s.tile t).core.stall with
  | none => 0
  | some k => satAdd 0xFFFFFF (s.run t - k.since) 0

/-- Tile control and forage registers, from offset 0xF_0000 (R66). -/
def State.regControl (s : State) (t : TileId) (o : Nat) : Word :=
  let tl := s.tile t
  let f := tl.forage
  let occ (a : Nat) : Word := word ((upto 4).map (fun i => (tl.occ (a + i), 8 * i)))
  if o = 0x00 then word [(t.x, 0), (t.y, 10), (fieldOf t, 20)]
  else if o = 0x04 then word [(tl.gen, 0)]
  else if o = 0x08 then word [(tl.st.code, 0), (b2n tl.core.halted, 6), (b2n tl.frozen, 7)]
  else if o = 0x0C then tl.core.startPc
  else if o = 0x10 then word [(b2n tl.fault.valid, 0), (b2n tl.fault.overflow, 1), (tl.fault.unit, 12), (tl.fault.code, 16)]
  else if o = 0x14 then tl.fault.info0
  else if o = 0x18 then tl.fault.info1
  else if o = 0x1C then tl.fault.pc
  else if o = 0x20 then word [(tl.wdogLimit, 0), (b2n tl.wdogEn, 31)]
  else if o = 0x24 then
    word [(s.stallTicks t, 0), ((match tl.core.stall with | some k => k.op.family | none => 0), 28)]
  else if o = 0x28 then word [(tl.core.lastStatus, 24)]
  else if o = 0x30 then word [(f.radius, 0), (b2n f.intra, 4), (f.stealKeep, 8), (f.idleDelay, 16), (f.domain, 24)]
  else if o = 0x34 then word [(tl.outstanding, 0), (f.out.length, 16)]
  else if o = 0x38 then occ 0
  else if o = 0x3C then occ 4
  else if o = 0x40 then f.stealIn
  else if o = 0x44 then f.stealOut
  else if o = 0x48 then f.stealLate
  else if o = 0x4C then f.unitFailed
  else if o = 0x50 then f.postedLost
  else 0

/-- Queue registers, 0xF_0060 to 0xF_00FF (R213). -/
def Tile.regQueue (tl : Tile) (o : Nat) : Word :=
  if o = 0x60 then tl.qstat
  else if o = 0x64 then word [(tl.q.probe, 0)]
  else if o = 0x68 then tl.q.drop
  else if o = 0x6C then tl.q.connLost
  else if o < 0x80 then 0
  else
    let q := (o - 0x80) / 16
    let rq := tl.queue q
    let r := o % 16
    if r = 0 then rq.cfg
    else if r = 4 then word [(rq.defaultCount, 0), (rq.qinc, 24)]
    else if r = 8 then
      word [(tl.senders q, 0), (rq.occupancy, 10), (b2n (tl.q.folds.any (fun x => x.1 == q)), 24), (rq.markers, 25),
        (b2n rq.cfgErr, 29), (rq.state, 30)]
    else
      match rq.last with
      | some f => word [(f.tile.x, 0), (f.tile.y, 10), (f.ctx, 28)]
      | none => 0

/-- Activity and thatch registers, 0xF_0100 to 0xF_01FF (R355), at a cycle and under the field's gate level: the ceiling in force is the smaller of the gating and the ramp ceiling (R343). -/
def Act.reg (a : Act) (cyc gate o : Nat) : Word :=
  if o = 0x100 then a.issue
  else if o = 0x104 then a.sp
  else if o = 0x108 then a.tm
  else if o = 0x10C then a.flit
  else if o = 0x110 then a.thatch
  else if o = 0x114 then a.asleepCount + (if a.asleep then BitVec.ofNat 32 (cyc - a.asleepAt) else 0)
  else if o = 0x118 then
    word [(a.duty, 0), (a.level, 8), (min a.ceiling (16 - gate), 16), (b2n (decide (a.ceiling < 16)), 29), (b2n a.running, 30), (b2n a.asleep, 31)]
  else if o = 0x11C then word [(a.delay, 8), (a.up, 16), (a.down, 23), (b2n a.local_, 30), (b2n a.enable, 31)]
  else 0

/-- Arithmetic registers, 0xF_0200 to 0xF_02FF (R89). -/
def Arith.reg (a : Arith) (o : Nat) : Word :=
  if o = 0x200 then word [(a.flags, 0)]
  else if o = 0x204 then word [(a.round, 0), (b2n a.sat, 4)]
  else if o = 0x208 then word [(b2n a.firstValid, 0), (a.firstFlags, 8), (a.firstUnit, 16)]
  else if 0x280 ≤ o then
    let w := (o - 0x280) / 4
    word [(a.seeds.getD (2 * w) 0, 0), (a.seeds.getD (2 * w + 1) 0, 16)]
  else 0

/-- The handle table, 0xF_1000 to 0xF_13FF (R125). -/
def Tile.regHandle (tl : Tile) (o : Nat) : Word :=
  let n := (o - 0x1000) / 16
  let h := tl.handle n
  let r := o % 16
  if r = 0 then h.word0 else if r = 4 then word [(h.length, 0)]
  else if r = 8 then word [(tl.unitsOn n, 0), (tl.windowsOn n, 16)] else 0

/-- The window table, 0xF_1800 to 0xF_18FF (R135). -/
def Tile.regWindow (tl : Tile) (o : Nat) : Word :=
  let r := o % 16
  if o < 0x1880 then
    let w := tl.window ((o - 0x1800) / 16)
    if r = 0 then w.w0 else if r = 4 then w.w1 else if r = 8 then w.w2 else w.w3
  else
    let w := tl.window ((o - 0x1880) / 16)
    if r = 0 then word [(w.state, 0), (b2n (!w.held.isEmpty), 2), (w.timeouts, 8), (w.denied, 16)]
    else if r = 4 then w.done else if r = 8 then w.drop else BitVec.ofNat 32 w.deadline

/-- Connection contexts, 0xF_2000 to 0xF_21FF (R213). -/
def Tile.regCtx (tl : Tile) (o : Nat) : Word :=
  let c := tl.ctx ((o - 0x2000) / 32)
  let r := o % 32
  if r = 0 then
    word [(c.credits, 0), (c.maxSize, 16), (b2n c.closePending, 22), (b2n c.reason, 23), (c.op, 24), (c.kind, 26), (b2n c.remote, 28), (c.state, 29)]
  else if r = 4 then word [(c.peer.x, 0), (c.peer.y, 10), (c.queue, 20)]
  else if r = 8 then word [(c.peerGen, 0), (c.qinc, 16)]
  else if r = 12 then word [(c.seq, 0), (c.granted, 16)]
  else if r = 16 then BitVec.ofNat 32 c.pos
  else if r = 20 then BitVec.ofNat 32 (c.pos / 2 ^ 32)
  else if r = 24 then word [(c.wafer, 0)]
  else 0

/-- Local sync cells and fence registers, 0xF_2400 to 0xF_24FF (R260). -/
def Tile.regSync (tl : Tile) (o : Nat) : Word :=
  let u := tl.sync
  if o < 0x2480 then
    let n := (o - 0x2400) / 8
    let c := tl.cell n
    if o % 8 = 0 then word [(c.value, 0), (b2n c.overflow, 27), (b2n (tl.waitsLocal n), 28), (b2n c.reached, 29), (c.type, 30)]
    else word [(c.target, 0)]
  else if o = 0x2480 then word [(u.outstanding 0, 0), (u.outstanding 1, 16)]
  else if o = 0x2484 then word [(u.outstanding 2, 0), (b2n u.failField, 16), (b2n u.failWafer, 17), (b2n u.failRemote, 18)]
  else if o = 0x2488 then
    match u.pend with
    | some (op, c) => word [(c, 0), (op, 28), (1, 31)]
    | none => 0
  else 0

/-- The node of a slot whose open iteration is oldest, and that iteration (R168). -/
def Slot.oldestNode (sl : Slot) : Nat × Nat :=
  match sl.nodes.zipIdx with
  | [] => (0, 0)
  | e :: rest =>
    let b := rest.foldl (fun b x => if iterBefore x.1.oldest b.1.oldest then x else b) e
    (b.2, b.1.oldest)

/-- Fold and profile registers, 0xF_3000 to 0xF_33FF (R168). -/
def Tile.regFold (tl : Tile) (o : Nat) : Word :=
  let u := tl.fold
  let size (i : Nat) : Nat := match (tl.slot i).image with | some im => im.size | none => 0
  let epoch (i : Nat) : Nat := match (tl.slot i).image with | some im => im.epoch | none => 0
  if o = 0x3000 then word [(u.active, 0), (u.schedPos, 12), (u.schedLen, 16), (b2n u.schedEn, 31)]
  else if o = 0x3004 then
    word [(u.unbound, 8), (u.ctxs.length, 15), (u.ready.length, 18),
      (total ((upto 8).map (fun i => b2n (tl.slot i).image.isSome * 2 ^ i)), 24)]
  else if o = 0x3008 then word [(u.store.length, 0)]
  else if o = 0x300C then u.refused
  else if o = 0x3010 then u.retry
  else if o = 0x3014 then u.orphan
  else if o = 0x3018 then u.voids
  else if o = 0x3020 then word [(u.profLog, 16), (u.profHandle, 24), (b2n u.profOn, 31)]
  else if o = 0x3024 then word [(u.profNext, 0), (u.profWraps, 16)]
  else if o = 0x3028 then u.profLost
  else if 0x3040 ≤ o ∧ o < 0x3080 then
    let e := u.entry ((o - 0x3040) / 4)
    word [(e.2, 0), (e.1, 24)]
  else if 0x3100 ≤ o ∧ o < 0x3200 then
    let i := (o - 0x3100) / 32
    let sl := tl.slot i
    let r := o % 32
    if r = 0 then word [(size i, 0), (epoch i, 24), (b2n sl.image.isSome, 30)]
    else if r = 4 then word [(tl.slotTokens i, 0)]
    else if r = 8 then sl.firings
    else if r = 16 then word [(sl.armed, 0)]
    else if r = 20 then sl.purged
    else if r = 24 then word [(sl.oldestNode.2, 0), (sl.oldestNode.1, 24)]
    else 0
  else 0

/-- A register of the block by its offset from 0xF_0000; a reserved offset reads 0 (R7). -/
def State.tileReg (s : State) (t : TileId) (o : Nat) : Word :=
  let tl := s.tile t
  if o < 0x60 then s.regControl t o
  else if o < 0x100 then tl.regQueue o
  else if o < 0x200 then tl.act.reg (s.cycles t) (s.field (fieldOf t)).gate o
  else if o < 0x300 then tl.arith.reg o
  else if 0x1000 ≤ o ∧ o < 0x1400 then tl.regHandle o
  else if 0x1800 ≤ o ∧ o < 0x1900 then tl.regWindow o
  else if 0x2000 ≤ o ∧ o < 0x2200 then tl.regCtx o
  else if 0x2400 ≤ o ∧ o < 0x2500 then tl.regSync o
  else if 0x3000 ≤ o ∧ o < 0x3400 then tl.regFold o
  else 0

/-- Observe the beat counters ACT_SP and ACT_TM: the spec does not state how many port beats each operation makes, so each observation finds free values (log entry 16). -/
def State.beatCounts (s : State) (t : TileId) : State :=
  let (a, s) := s.freeVal
  let (b, s) := s.freeVal
  s.modTile t (fun tl => { tl with act := { tl.act with sp := a, tm := b } })

/-- Read a register of the block. -/
def State.readTileReg (s : State) (t : TileId) (o : Nat) : Word × State :=
  let s := if o = 0x104 ∨ o = 0x108 then s.beatCounts t else s
  (s.tileReg t o, s)

/-! ## Writing -/

/-- Write a local cell's register: fields set, then the cell evaluated as a set does (R260). -/
def State.writeCell (s : State) (t : TileId) (c : Nat) (isTarget : Bool) (val : Word) : State :=
  let tl := s.tile t
  let cl := tl.cell c
  let cl := if isTarget then { cl with target := bits val 23 0 }
    else { cl with type := bits val 31 30, value := bits val 23 0, overflow := cl.overflow && !bit val 27 }
  s.writeLocal t c cl

/-- SYNC_CELL_WRITE (R260). -/
def execSyncCellWrite (t : TileId) (w : Writer) (c : Nat) (isTarget : Bool) (val : Word) (s : State) : Out :=
  .next (if coreOrFc w && decide (c < 16) then s.writeCell t c isTarget val else s)

/-- Write FOLD_CTRL: sched_en and sched_len (R168). The write that turns the schedule on makes the current entry's slot active, and its dwell counts from then (R161). -/
def Tile.writeFoldCtrl (tl : Tile) (val : Word) (now : Nat) : Tile :=
  let on := bit val 31
  let u := tl.fold
  let tl := { tl with fold := { u with schedEn := on, schedLen := clampN 0 16 (bits val 20 16) } }
  if on && !u.schedEn then tl.toEntry u.schedPos now else tl

/-- Write FORAGE_CTRL (R66). -/
def Forage.writeCtrl (f : Forage) (val : Word) : Forage :=
  { f with domain := bits val 31 24, idleDelay := bits val 23 16, stealKeep := bits val 11 8, intra := bit val 4, radius := bits val 3 0 }

/-- Write THATCH_CTRL (R355). -/
def Act.writeThatch (a : Act) (val : Word) : Act :=
  { a with enable := bit val 31, local_ := bit val 30, down := bits val 29 23, up := bits val 22 16, delay := bits val 15 8 }

/-- Write the arithmetic registers (R89). -/
def Arith.write (a : Arith) (o : Nat) (val : Word) : Arith :=
  if o = 0x200 then { a with flags := Nat.land a.flags (127 - bits val 6 0) }
  else if o = 0x204 then { a with round := bits val 1 0, sat := bit val 4 }
  else if o = 0x208 then { a with firstValid := a.firstValid && !bit val 0 }
  else if 0x280 ≤ o then
    let w := (o - 0x280) / 4
    { a with seeds := (a.seeds.put (2 * w) (bits val 15 0)).put (2 * w + 1) (bits val 31 16) }
  else a

/-- A word write to the block by the control core or the field controller; registers and writers the maps do not name ignore it. START_PC takes the field controller's in QUARANTINE alone, SYNC_DEBUG the field controller's alone. CONN_CTRL.probe is RW in its map (DEDUCED, log entry 17). -/
def State.writeTileReg (s : State) (t : TileId) (w : Writer) (o : Nat) (val : Word) : State :=
  let tl := s.tile t
  if !coreOrFc w then s
  else if o = 0x0C then
    if w = .fc ∧ tl.st = .quarantine then s.setTile t { tl with core := { tl.core with startPc := val } } else s
  else if o = 0x20 then s.setTile t { tl with wdogEn := bit val 31, wdogLimit := bits val 23 0 }
  else if o = 0x30 then s.setTile t { tl with forage := tl.forage.writeCtrl val }
  else if o = 0x60 then
    s.setTile t ((upto 8).foldl (fun x q => if bit val (16 + q) then x.setQueue q { x.queue q with lost := false } else x) tl)
  else if o = 0x64 then s.setTile t { tl with q := { tl.q with probe := bits val 15 0 } }
  else if 0x80 ≤ o ∧ o < 0x100 then
    let q := (o - 0x80) / 16
    if o % 16 = 0 then s.setTile t (tl.rqCfg q val)
    else if o % 16 = 4 ∧ ¬ (tl.queue q).state = 1 then s.setTile t (tl.setQueue q { tl.queue q with defaultCount := bits val 23 0 })
    else s
  else if o = 0x11C then s.setTile t { tl with act := tl.act.writeThatch val }
  else if 0x200 ≤ o ∧ o < 0x300 then s.setTile t { tl with arith := tl.arith.write o val }
  else if 0x2400 ≤ o ∧ o < 0x2480 then s.writeCell t ((o - 0x2400) / 8) (o % 8 == 4) val
  else if o = 0x248C then
    if w = .fc then
      if bit val 1 then s.debugAll t else if bit val 0 then s.coreExpire t true else s
    else s
  else if o = 0x3000 then s.setTile t (tl.writeFoldCtrl val (s.cycles t))
  else if 0x3040 ≤ o ∧ o < 0x3080 then
    s.setTile t { tl with fold := { tl.fold with sched := tl.fold.sched.put ((o - 0x3040) / 4) (bits val 26 24, bits val 23 0) } }
  else if 0x3100 ≤ o ∧ o < 0x3200 ∧ o % 32 = 12 then
    let i := (o - 0x3100) / 32
    let sl := tl.slot i
    s.setTile t (tl.setSlot i { sl with armed := satAdd (iterMod - 1) sl.armed (bits val 23 0) })
  else s

end Sys2Proof.Machine
end

