-- ==== Sys2Proof/Machine/RawAccess.lean ====
section
/-! DEFINITION. VC0 packets and orders of the field controller and the conductor at a tile (R62, R115, R163, R167), entry to QUARANTINE (R63, R64), and raw accesses of the hosts (R115, R425). -/

namespace Sys2Proof.Machine

/-! ## Entry to QUARANTINE -/

/-- A tile record of the service block (R379). -/
def State.modRec (s : State) (t : TileId) (g : TRec → TRec) : State :=
  s.modField (fieldOf t) (fun fd => { fd with svc := { fd.svc with recs := fd.svc.recs.modify (localIdx t) {} g } })

/-- The registers a core enters QUARANTINE with: the spec gives x1 to x31 no value, so they are free (log entry 2). -/
def State.freeRegs (s : State) : Tab Word × State :=
  ((upto 31).foldl (fun p (i : Nat) => let v := p.2.freeVal; (p.1 ++ [(i + 1, v.1)], v.2)) (([] : Tab Word), s))

/-- The cleared tile of R64: generation advanced, memories kept, every tag empty. -/
def Tile.cleared (tl : Tile) (gen : Nat) (regs : Tab Word) (now : Nat) : Tile :=
  { st := .quarantine, gen := gen, core := { regs := regs, cycleBase := now },
    mem := { cells := tl.mem.cells, ue := tl.mem.ue, ce := tl.mem.ce }, act := { asleepAt := now } }

/-- What the tile owes others before it clears: its recorded wait is cancelled and its held window requests are refused (R138, R246). -/
def State.leaveService (s : State) (t : TileId) : State :=
  let s := match (s.tile t).core.stall with
    | some k => if k.op = .swait ∧ k.obj < 0x10000 then
        s.sendRequest t (syncHdr t k.obj) (.sync 4 (syncBody (s.tile t).gen k.obj 0 0)) else s
    | none => s
  (upto 8).foldl (fun s w => s.windowFlush t w) s

/-- Enter QUARANTINE (R62 to R64): the generation advances, in the conductor's table too, and the tile is cleared; past 65,535 the tile is a hole and event 0x0D88 says so. -/
def State.enterQuarantine (s : State) (t : TileId) : State :=
  let s := s.leaveService t
  let g := (s.tile t).gen + 1
  if 65535 < g then
    let s := s.modTile t (fun tl => { ({} : Tile) with st := .hole, gen := tl.gen })
    (s.modRec t (fun r => { r with result := Nat.lor r.result 128 })).event (fieldOf t) 0x0D88 [tileDetail t]
  else
    let p := s.freeRegs
    let s := p.2
    let s := s.modTile t (fun tl => tl.cleared g p.1 (s.cycles t))
    let s := { s with cond := { s.cond with gens := s.cond.gens.put (tileKey t) g } }
    (s.modRec t (fun r => { r with gen := g })).sleep t

/-- TILE_RESET_ORDER (R62): an ADMITTED or HALTED tile enters QUARANTINE. -/
def execTileResetOrder (t : TileId) (s : State) : Out :=
  .next (if (s.tile t).inService then s.enterQuarantine t else s)

/-! ## Accesses that name an offset (R115) -/

/-- The writer a VC0 packet's source stands for at the register block. -/
def vc0Writer : Endp → Writer
  | .fc _ => .fc
  | .conductor | .tile _ | .dock _ _ | .gate _ => .conductor

/-- The sources whose VC0 packets a tile of a field takes: its own field controller and the conductor (R65, R115). -/
def vc0Source (f : Nat) : Endp → Bool
  | .fc g => g == f
  | .conductor => true
  | .tile _ | .dock _ _ | .gate _ => false

/-- What R65 and R180 refuse a VC0 packet with. -/
def State.vc0Refusal (s : State) (t : TileId) (h : Hdr) : Option Nat :=
  let tl := s.tile t
  if !tl.present then some stPathLost
  else if !vc0Source (fieldOf t) h.src || !(h.dstGen == 0 || h.dstGen == tl.gen) then some stPeerLost else none

/-- The answer of a VC0 request: one flit, so no more data than fits it (R173). -/
def State.ctrlAnswer (s : State) (h : Hdr) (st : Nat) (data : List Byte) : State :=
  s.send { h := hdrBack h h.srcGen, body := .ctrlReply h.tag st (data.take (payloadMax 0 - 1)) }

/-- Write whole words to the register block. -/
def State.writeRegs (s : State) (t : TileId) (w : Writer) (o : Nat) (data : List Byte) : State :=
  (upto (data.length / 4)).foldl (fun s i => s.writeTileReg t w (o + 4 * i) (leWord (bytesAt data (4 * i) 4))) s

/-- Read whole words from the register block. -/
def State.readRegs (s : State) (t : TileId) (o : Nat) : Nat → List Byte × State
  | 0 => ([], s)
  | n + 1 =>
    let p := s.readTileReg t o
    let q := State.readRegs p.2 t (o + 4) n
    (wordLe p.1 ++ q.1, q.2)

/-- A raw write at a tile: the status, and the state (R115, R118, R119). A write to the registers that is no aligned word writes nothing (R6). -/
def State.rawPut (s : State) (t : TileId) (w : Writer) (o : Nat) (data : List Byte) : Nat × State :=
  let n := data.length
  if inRegs o n then
    (stOk, if o % 4 = 0 ∧ n % 4 = 0 then s.writeRegs t w (o - regBase) data else s)
  else if inMem o n then
    match (s.tile t).mem.partialHit o n with
    | some u => (stDataError, s.logUe t u 2)
    | none => (stOk, (s.merge t o n).modTile t (fun tl => tl.put o data))
  else (stAddressError, s)

/-- A raw read at a tile: the status, the bytes and the state; an unmapped offset reads zeros (R115, R118). -/
def State.rawGet (s : State) (t : TileId) (o n : Nat) : Nat × List Byte × State :=
  if inRegs o n then
    if o % 4 = 0 ∧ n % 4 = 0 then
      let p := s.readRegs t (o - regBase) (n / 4)
      (stOk, p.1, p.2)
    else (stOk, List.replicate n 0, s)
  else if inMem o n then
    match (s.tile t).mem.hit o n with
    | some u => (stDataError, (s.tile t).get o n, s.logUe t u 2)
    | none => (stOk, (s.tile t).get o n, s.correct t o n)
  else (stAddressError, List.replicate n 0, s)

/-- A VC0 request taken out of the mesh at its tile, and what it does there unless it is refused. -/
def State.vc0At (s : State) (h : Hdr) (body : Body) (act : TileId → State → State) : State :=
  s.landing { h := h, body := body } fun s =>
    match endpTile h.dst with
    | none => s
    | some t =>
      match s.vc0Refusal t h with
      | some st => s.ctrlAnswer h st []
      | none => act t s

/-- Start an admitted tile's core at START_PC (R62). -/
def Tile.toAdmitted (tl : Tile) : Tile :=
  { tl with st := .admitted, core := { tl.core with pc := tl.core.startPc, halted := false, stall := none } }

/-- CTRL_ORDER_ADMIT (R62): a QUARANTINE tile becomes ADMITTED; any other answers BUSY. -/
def execCtrlOrderAdmit (h : Hdr) (s : State) : Out :=
  .next (s.vc0At h .ctrlAdmit (fun t s =>
    if (s.tile t).st = .quarantine then (s.modTile t Tile.toAdmitted).ctrlAnswer h stOk [] else s.ctrlAnswer h stBusy []))

/-- A switch order reaches an admitted tile: armed for T, or taken at once where T has passed, with event 0x0783 and the switch flag (R163). -/
def State.orderSwitch (s : State) (t : TileId) (g : SwitchTarget) (at_ : Nat) : State :=
  if at_ < s.time then
    let s := s.modTile t (fun tl => ({ tl with fold := { tl.fold with armed := none } }).switchTo g (s.cycles t))
    let s := s.modField (fieldOf t) (fun fd => { fd with flt := { fd.flt with switchLate := true } })
    s.event (fieldOf t) 0x0783 [tileDetail t, at_, s.time]
  else s.modTile t (fun tl => { tl with fold := { tl.fold with armed := some (g, at_) } })

/-- CTRL_ORDER_SWITCH (R163). -/
def execCtrlOrderSwitch (h : Hdr) (tgt : SwitchTarget) (at_ : Nat) (s : State) : Out :=
  .next (s.vc0At h (.ctrlSwitch tgt at_) (fun t s =>
    if (s.tile t).st = .admitted then (s.orderSwitch t tgt at_).ctrlAnswer h stOk [] else s.ctrlAnswer h stBusy []))

/-- CTRL_ORDER_DLOAD (R158, R163): the load of R158, its status and count in the answer; a reference R42 refuses, or a load that faults, answers REFUSED (log entry 19). -/
def execCtrlOrderDload (h : Hdr) (slot : Nat) (ref : Word) (purge : Bool) (s : State) : Out :=
  .next (s.vc0At h (.ctrlDload slot ref purge) (fun t s =>
    if !(s.tile t).refOk (hrefOf ref) || decide (8 ≤ slot) then s.ctrlAnswer h stRefused []
    else
      match s.dloadAt t slot (hrefOf ref) purge with
      | .answer st n s => s.ctrlAnswer h st (natLe 4 n)
      | .fault s => s.ctrlAnswer h stRefused []))

/-- CTRL_ORDER_SAMPLE (R167): sampling starts at one wafer-time count, or at once where that has passed; BUSY while sampling runs. -/
def execCtrlOrderSample (h : Hdr) (handle n at_ : Nat) (s : State) : Out :=
  .next (s.vc0At h (.ctrlSample handle n at_) (fun t s =>
    let tl := s.tile t
    if tl.fold.profOn then s.ctrlAnswer h stBusy []
    else if !(tl.handle handle).valid || !within 6 16 n then s.ctrlAnswer h stRefused []
    else (s.setTile t (({ tl with fold := { tl.fold with sampleAt := some (handle, n, at_) } }).sampleStart s.time (s.cycles t) (opN (s.field (fieldOf t)).clk.op))).ctrlAnswer h stOk []))

/-! ## Raw accesses of the hosts -/

/-- The hosts' raw accesses come through the keep-field gates alone (R115). -/
def rawSource : Endp → Bool
  | .gate _ => true
  | .tile _ | .dock _ _ | .fc _ | .conductor => false

/-- What a raw access is refused with (R115, R425); one of another source draws PEER_LOST as any packet R65 does not take (log entry 78). -/
def State.rawRefusal (s : State) (t : TileId) (h : Hdr) : Option Nat :=
  let tl := s.tile t
  if !tl.present then some stPathLost
  else if !rawSource h.src then some stPeerLost
  else if !tl.inService || !(h.dstGen == 0 || h.dstGen == tl.gen) then some stPeerLost else none

/-- RAW_WRITE (R115, R422, R425): a write to the register block is dropped and answered ADDRESS_ERROR; one to a keep field writes host memory. -/
def execRawWrite (h : Hdr) (off : Nat) (data : List Byte) (s : State) : Out :=
  .next (s.landing { h := h, body := .rawWrite off data } fun s =>
    match endpTile h.dst with
    | none =>
      match h.dst with
      | .gate j =>
        let p := s.hostRawPut j off data
        p.2.status h h.srcGen (.raw h.tag) p.1
      | .tile _ | .dock _ _ | .fc _ | .conductor => s
    | some t =>
      match s.rawRefusal t h with
      | some st => s.status h h.srcGen (.raw h.tag) st
      | none =>
        if inRegs off 1 then s.status h h.srcGen (.raw h.tag) stAddressError
        else
          let p := s.rawPut t (.host false) off data
          p.2.status h h.srcGen (.raw h.tag) p.1)

/-- RAW_READ (R115, R422, R425). -/
def execRawRead (h : Hdr) (off len : Nat) (s : State) : Out :=
  .next (s.landing { h := h, body := .rawRead off len } fun s =>
    match endpTile h.dst with
    | none =>
      match h.dst with
      | .gate j =>
        let p := s.hostRawGet j off len
        p.2.2.reply h h.srcGen (.raw h.tag) p.1 (p.2.1.take (payloadMax 2 - 1))
      | .tile _ | .dock _ _ | .fc _ | .conductor => s
    | some t =>
      match s.rawRefusal t h with
      | some st => s.reply h h.srcGen (.raw h.tag) st []
      | none =>
        let p := s.rawGet t off len
        p.2.2.reply h h.srcGen (.raw h.tag) p.1 (p.2.1.take (payloadMax 2 - 1)))

end Sys2Proof.Machine
end

