-- ==== Sys2Proof/Machine/MapChange.lean ====
section
/-! DEFINITION. Map changes (R193, R194), the settlement of lost writes around them (R250), the loss of a failed field's cells (R253), the distance table (R207) and multicast (R204). -/

namespace Sys2Proof.Machine

/-- A step boundary is a multiple of 256 ticks. -/
def isBoundary (s : Nat) : Bool := s % 256 == 0

/-- The first step boundary at or after a tick. -/
def boundaryFrom (t : Nat) : Nat := cdiv t 256 * 256

/-- Change every listed field. -/
def State.allFields (s : State) (g : Nat → Field → Field) : State := { s with fields := s.fields.mapVals g }

/-- Change every listed tile. -/
def State.allTiles (s : State) (g : TileId → Tile → Tile) : State := { s with tiles := s.tiles.mapVals (fun k tl => g (keyTile k) tl) }

/-- The positions listed in the tile table. -/
def State.tileList (s : State) : List TileId := s.tiles.map (fun e => keyTile e.1)

/-- The listed positions of a field. -/
def State.tilesOf (s : State) (f : Nat) : List TileId := s.tileList.filter (fun t => fieldOf t == f)

/-! ## Publishing -/

/-- Fields a partition cuts off from the active conductor go out of service (R184). -/
def State.cutOff (s : State) (p : Furrow) : State :=
  let kf := if s.mb.activeKf = 0 then 0 else 55
  let lost := (upto 56).filter (fun f => isCompute f && farSide p kf f && (s.furrowKind f).isNone)
  lost.foldl (fun s f => s.modField f (fun fd => { fd with svc := { fd.svc with furrow := some 5, state := .out } })) s

/-- A list of furrows shadows a good tile of a field (R182). -/
def State.shades (s : State) (fs : List Furrow) (f : Nat) : Bool :=
  fs.any (fun q => decide (0 < q.shadowed) && decide (0 < s.shadowedOf q f))

/-- Build and publish the map of the present furrows, effective at S; a partition is reported and what it cuts off goes out of service (R181 to R185), and a map that shadows an in-service field is reported (R182). -/
def State.publishMap (s : State) (at_ : Nat) : State :=
  let seq := match s.mesh.next with
    | some m => m.seq
    | none => nextSeq s.mesh.map.seq
  let s := match partitioner s.buildFurrows with
    | none => s
    | some p =>
      let s := (s.cutOff p).event srcConductor 0x0884 [seq, p.x0, p.y0, p.x1, p.y1]
      s.allFields (fun _ fd => { fd with mesh := { fd.mesh with bvPartition := true } })
  let fs := s.buildFurrows
  let sh := total (fs.map (fun f => f.shadowed))
  let hidden := (upto 56).filter (fun f => (s.field f).svc.state == .inService && (s.furrowKind f).isNone && s.shades fs f)
  let s := { s with mesh := { s.mesh with next := some { seq := seq, effective := at_, furrows := fs, shadowed := sh } },
                    cond := { s.cond with wantMap := false } }
  if hidden.isEmpty then s else s.event srcConductor 0x0885 [seq, hidden.length, sh]

/-- MAP_PUBLISH (R193): a running conductor names a step boundary at least 256 ticks ahead; changes due at the boundary of a map already published join it (R378). -/
def execMapPublish (at_ : Nat) (s : State) : Out :=
  let free := match s.mesh.next with
    | none => true
    | some m => m.effective == at_
  .next (if s.mb.running && isBoundary at_ && decide (s.time + 256 ≤ at_) && free && !s.mesh.paused then s.publishMap at_ else s)

/-- MAP_INJECTION_PAUSE (R193): at S every source stops injecting, and the map bound is void. -/
def execMapInjectionPause (s : State) : Out :=
  .next (match s.mesh.next with
    | none => s
    | some m =>
      if m.effective ≤ s.time ∧ s.mesh.paused = false then
        ({ s with mesh := { s.mesh with paused := true } }).allFields (fun _ fd => { fd with mesh := { fd.mesh with bvMap := true } })
      else s)

/-! ## Settlement (R250) -/

/-- A write is taken as lost: its counter falls and its failure bit is set; a stalled xput ends with PATH_LOST, and a write whose operation has completed counts in POSTED_LOST. The delivery of a connection's packet can no longer be confirmed, which ends its context (R226). -/
def State.loseWrite (s : State) (t : TileId) (w : WriteRec) : State :=
  let s := s.modTile t (fun tl => { tl with sync := { (tl.sync.fail w.cls) with writes := tl.sync.writes.filter (fun x => !(x == w)) } })
  let s := match w.re with
    | .conn r => if (s.tile t).onConn w.dst r then s.ctxLost t r.ctx true else s
    | _ => s
  match if w.posted then none else (s.tile t).awaiting .xput w.tag with
  | some k => s.finish t k.a stPathLost 0 4
  | none => s.modTile t Tile.lostPosted

/-- Settle the old writes of a tile that a test picks. -/
def State.settleOld (s : State) (p : WriteRec → Bool) (t : TileId) : State :=
  ((s.tile t).sync.writes.filter (fun w => w.old && p w)).foldl (fun s w => s.loseWrite t w) s

/-- A new answer epoch at every tile: what remains of the old set is settled first (R250). -/
def State.newEpoch (s : State) (at_ : Nat) : State :=
  let s := s.tileList.foldl (fun s t => s.settleOld (fun _ => true) t) s
  let s := s.allTiles (fun _ tl => { tl with sync := { tl.sync with
    epoch := !tl.sync.epoch, writes := tl.sync.writes.map (fun w => { w with old := true }) } })
  { s with mesh := { s.mesh with settleAt := some at_ } }

/-- FENCE_SETTLE_LOCAL (R250): at S + 512 the old field and wafer writes are lost. -/
def execFenceSettleLocal (s : State) : Out :=
  .next (match s.mesh.settleAt with
    | none => s
    | some at_ => if at_ + 512 ≤ s.time then s.tileList.foldl (fun s t => s.settleOld (fun w => decide (w.cls < 2)) t) s else s)

/-- FENCE_SETTLE_REMOTE (R250): at S + 512 + PORT_REMOTE_TIMEOUT of a field, its tiles' old remote writes are lost. -/
def execFenceSettleRemote (f : Nat) (s : State) : Out :=
  .next (match s.mesh.settleAt with
    | none => s
    | some at_ =>
      if at_ + 512 + (s.ports.getD f {}).remoteTimeout ≤ s.time then (s.tilesOf f).foldl (fun s t => s.settleOld (fun w => w.cls == 2) t) s else s)

/-! ## The switch -/

/-- Drop flight x at the switch: nothing is written; its source, or an answer's destination, receives PATH_LOST (R194). -/
def State.dropStale (s : State) (seq : Nat) (x : Flight) : State :=
  let f := fieldOf x.at_
  let s := s.modField f (fun fd => { fd with mesh := { fd.mesh with staleDrop := fd.mesh.staleDrop + 1, bvMap := true } })
  let s := s.event f 0x0882 [tileDetail x.at_, Sys2Proof.Machine.Body.kind x.pkt.body, seq]
  match answerLost x.pkt.body with
  | some b => s.sendFrom x.at_ { x.pkt with body := b }
  | none => s.refuseAt x.at_ x.pkt stPathLost

/-- Packets still held in the mesh are dropped (R193 step 5); one that has left it at its endpoint is the endpoint's to take (R178). -/
def State.dropHeld (s : State) : State :=
  let held (x : Flight) : Bool := !x.fresh && !x.landed
  let gone := s.mesh.flight.filter held
  let seq := s.mesh.map.seq
  gone.foldl (fun s x => s.dropStale seq x) { s with mesh := { s.mesh with flight := s.mesh.flight.filter (fun x => !held x) } }

/-- Positions of fields in service that the map covers are shadowed, and shadowed ones it leaves return through QUARANTINE (R62, R182). -/
def State.reshade (s : State) (t : TileId) : State :=
  let tl := s.tile t
  let f := fieldOf t
  let covered := s.mesh.map.furrows.any (fun r => r.covers t)
  if covered && (s.furrowKind f).isNone && tl.present then
    s.setTile t { ({} : Tile) with st := .hole, shadow := true, gen := tl.gen, mem := tl.mem }
  else if !covered && tl.shadow && (s.field f).running then s.enterQuarantine t
  else s

/-- The service and power states that a map in force completes: a drained field is DRAINED, a woken or returning field has its cell records back (R253, R299, R373). -/
def State.fieldMapped (s : State) (f : Nat) : State :=
  let fd := s.field f
  let held := s.mesh.map.holds f
  match fd.svc.furrow with
  | some 4 =>
    match fd.svc.state with
    | .inService | .ready =>
      if held then s.setField f { fd with svc := { fd.svc with state := .drained, resetDone := false, phase := 0 } } else s
    | .out | .testing | .drained | .parked | .failed => s
  | none =>
    if held then s
    else
      let s := match fd.sync.saved with
        | some cs => s.setField f { fd with sync := { fd.sync with cells := cs, saved := none, waiters := [] } }
        | none => s
      s.modField f (fun fd => { fd with
        pwr := { fd.pwr with waking := none, plan := .none }
        svc := if fd.svc.state = .testing ∧ fd.svc.phase < 4 then { fd.svc with phase := 4, since := s.time } else fd.svc })
  | some _ => s

/-- The field beyond boundary b of field f: 0 north, 1 east, 2 south, 3 west. -/
def fieldAcross (f b : Nat) : Option Nat :=
  if b = 0 then (if f / 8 < 6 then some (f + 8) else none)
  else if b = 1 then (if f % 8 < 7 then some (f + 1) else none)
  else if b = 2 then (if 0 < f / 8 then some (f - 8) else none)
  else if b = 3 then (if 0 < f % 8 then some (f - 1) else none) else none

/-- A boundary whose tiles a field's routers may take from the map again: the map holds the far field, or the crossing runs. A boundary lost without warning stays dead until then (R195, R309). -/
def State.boundaryKnown (s : State) (f b : Nat) : Bool :=
  match fieldAcross f b with
  | some g => s.mesh.map.holds g || ((s.field f).clk.xing.getD b {}).state == .running
  | none => true

/-- A field's routers load their neighbour flags from a new map (R186, R193). -/
def State.reloadFlags (s : State) (f : Nat) (fd : Field) : Field :=
  let keep (b : Nat) (v : Bool) : Bool := v && !s.boundaryKnown f b
  { fd with mesh := { fd.mesh with routers := fd.mesh.routers.mapVals (fun _ r =>
      { r with deadN := keep 0 r.deadN, deadE := keep 1 r.deadE, deadS := keep 2 r.deadS, deadW := keep 3 r.deadW }) } }

/-- A packet that waits to be injected looks its gate up again in the new map (R193 step 6); old is the state before the switch. -/
def State.readdress (s old : State) (x : Flight) : Flight :=
  if x.fresh then
    let a := if x.at_ == old.source x.pkt.h then s.source x.pkt.h else x.at_
    let b := s.target x.pkt.h
    { x with at_ := a, aim := b, cls := travelClass a b }
  else x

/-- A keep field that the map in force has cut off from the mesh is reported, and one that has a gate again is taken off the list (R19). -/
def State.reportCutOff (s : State) : State :=
  let cut := (upto 4).filter s.cutOffKeep
  let new := cut.filter (fun j => !s.cond.cutKeeps.contains j)
  let s := { s with cond := { s.cond with cutKeeps := cut } }
  new.foldl (fun s j => s.event srcConductor 0x0884 [s.mesh.map.seq, (cornerOf (keepField j)).x, (cornerOf (keepField j)).y,
    (cornerOf (keepField j)).x + 99, (cornerOf (keepField j)).y + 119]) s

/-- MAP_SWITCH (R193): at S + 256 held packets drop, the new map loads in every router, injection resumes, and a new answer epoch starts where the map first holds a field that failed without warning. -/
def execMapSwitch (s : State) : Out :=
  .next (match s.mesh.next with
    | none => s
    | some m =>
      if s.mesh.paused = true ∧ m.effective + 256 ≤ s.time then
        let s := s.dropHeld
        let fresh := s.mesh.dead.filter (fun f => m.holds f)
        let old := s
        let s := { s with mesh := { s.mesh with
          map := m, next := none, paused := false, distDue := true, dead := s.mesh.dead.filter (fun f => !fresh.contains f) } }
        let s := s.allFields (fun f fd => s.reloadFlags f fd)
        let s := (upto 56).foldl (fun s f => s.fieldMapped f) s
        let s := s.tileList.foldl (fun s t => s.reshade t) s
        let s := { s with mesh := { s.mesh with flight := s.mesh.flight.map (fun x => s.readdress old x) } }
        let s := s.reportCutOff
        if fresh.isEmpty then s else s.newEpoch m.effective
      else s)

/-! ## A field that fails without warning (R195, R253) -/

/-- The neighbours of a dead field hold its boundary tiles as holes (R195). -/
def State.deadBoundary (s : State) (f : Nat) : State :=
  let edge (i : Nat) (d : Nat) : TileId :=
    let x0 := f % 8 * 100
    let y0 := f / 8 * 120
    if d = 0 then ⟨x0 + i, y0 + 120⟩ else if d = 2 then ⟨x0 + i, y0 - 1⟩ else if d = 1 then ⟨x0 + 100, y0 + i⟩ else ⟨x0 - 1, y0 + i⟩
  let mark (s : State) (d n : Nat) (g : Router → Router) : State :=
    (upto n).foldl (fun s i => if onArray (edge i d) then s.modRouter (edge i d) g else s) s
  let s := if f / 8 < 6 then mark s 0 100 (fun r => { r with deadS := true }) else s
  let s := if 0 < f / 8 then mark s 2 100 (fun r => { r with deadN := true }) else s
  let s := if f % 8 < 7 then mark s 1 120 (fun r => { r with deadW := true }) else s
  if 0 < f % 8 then mark s 3 120 (fun r => { r with deadE := true }) else s

/-- Packets inside a field when it dies are lost (R195). -/
def State.loseInside (s : State) (f : Nat) : State :=
  { s with mesh := { s.mesh with flight := s.mesh.flight.filter (fun x => x.fresh || !(fieldOf x.at_ == f)) } }

/-- The tile's core has a request outstanding at a cell of field f of its own wafer; a remote ssignal names a cell of another (R254). -/
def Tile.awaitsField (tl : Tile) (f : Nat) : Bool :=
  match tl.sync.pend, tl.core.stall with
  | some (_, c), some k => decide (c < 65536) && (cellHost c).1 == f && !(k.op == .ssignal && nbit k.a.mods 0)
  | _, _ => false

/-- Every outstanding wait, signal and read on a failed field's cells completes with CELL_LOST, a wait whose cancel is not answered too (R253); its records were lost as it failed. -/
def State.cellSweep (s : State) (f cause : Nat) : State :=
  let mine := s.tileList.filter (fun t => (s.tile t).awaitsField f)
  let s := mine.foldl (fun s t => match (s.tile t).core.stall with
    | some k => (s.setPend t none).finish t k.a stCellLost 0 2
    | none => s) s
  ({ s with cond := { s.cond with sweeps := s.cond.sweeps.filter (fun g => !(g == f)) } }).event f 0x0681 [f, cause, mine.length]

/-- CELL_LOST_SWEEP (R253): the conductor orders it once for each field that failed without warning, whatever map is in force by then. -/
def execCellLostSweep (f : Nat) (s : State) : Out :=
  .next (if isCompute f && s.cond.sweeps.contains f && s.mb.running then s.cellSweep f (s.field f).pwr.cause else s)

/-- Save a field's cell records and complete their waiters with CELL_LOST before it leaves service by plan (R253). -/
def State.saveCells (s : State) (f : Nat) : State :=
  let ws := (s.field f).sync.waiters
  let s := s.releaseList f ws stCellLost
  let s := s.modField f (fun fd => { fd with sync := { fd.sync with
    saved := some (match fd.sync.saved with
      | some cs => cs
      | none => fd.sync.cells) } })
  if ws.isEmpty then s else s.event f 0x0681 [f, 1, ws.length]

/-- DIST_TABLE_PUBLISH (R207): the table of the map in force, under the crossing latencies of the last calibration (R206). -/
def execDistTablePublish (s : State) : Out :=
  .next (if s.mesh.distDue && s.mb.running then
      { s with mesh := { s.mesh with
        distDue := false, distMap := s.mesh.map, distHoles := s.holes
        distOut := (upto 56).filter (fun f => (s.furrowKind f).isSome)
        distLat := (upto 56).flatMap (fun f => (upto 4).map (fun b => (4 * f + b, s.crossLatency (f, b)))) } }
    else s)

/-! ## Multicast (R204) -/

/-- Whether a rectangle holds a position. -/
def Rect.has (r : Rect) (t : TileId) : Bool := decide (r.x0 ≤ t.x) && decide (t.x ≤ r.x1) && decide (r.y0 ≤ t.y) && decide (t.y ≤ r.y1)

/-- The most data a multicast packet carries: 8 flits with its header and offset (R173, R204). -/
def multicastMax : Nat := 492

/-- Where a multicast copy for a tile is dropped on its way along the source row and the tile's column: the first router of a field whose mcast_en is clear (R204); none where it arrives. A tile no route leads to is not reached. -/
def State.mcastStop (s : State) (a t : TileId) : Option (Option TileId) :=
  (pathOf s.mesh.map.furrows a t).map (fun p => (a :: p).find? (fun q => !(s.field (fieldOf q)).mesh.mcastEn))

/-- A router drops a multicast packet: counted, with event 0x0886 (R204, R209). -/
def State.mcastDropped (s : State) (q src : TileId) : State :=
  (s.modField (fieldOf q) (fun fd => { fd with mesh := { fd.mesh with mcastDrop := fd.mesh.mcastDrop + 1 } })).event (fieldOf q) 0x0886
    [tileDetail q, tileDetail src]

/-- MULTICAST (R204): every good tile of the rectangle that a copy reaches takes one; a router of a field whose mcast_en is clear drops what it meets. A packet longer than 8 flits is never built. -/
def execMulticast (r : Rect) (off : Nat) (data : List Byte) (s : State) : Out :=
  let a := s.place .conductor
  let ts := s.tileList.filter (fun t => Sys2Proof.Machine.Rect.has r t && (s.tile t).present && s.clocked t)
  let stops := ts.filterMap (fun t => (s.mcastStop a t).map (fun q => (t, q)))
  let reached := stops.filterMap (fun e => if e.2.isNone then some e.1 else none)
  let drops := (stops.filterMap (fun e => e.2)).eraseDups
  .next (if multicastMax < data.length then s
    else
      let s := drops.foldl (fun s q => s.mcastDropped q a) s
      reached.foldl (fun s t => (s.rawPut t .conductor off data).2) s)

end Sys2Proof.Machine
end

