-- ==== Sys2Proof/Machine/FieldOut.lean ====
section
/-! DEFINITION. Fields entering and leaving power: rails, clocks, crossings, tiles and ports (R300, R327, R328, R195, R62). -/

namespace Sys2Proof.Machine

/-! ## Boundaries -/

/-- The boundary of the far field that faces back. -/
def facing (b : Nat) : Nat := (b + 2) % 4

/-- A crossing register set. -/
def Field.xing (fd : Field) (b : Nat) : Xing := fd.clk.xing.getD b {}

/-- Change the inbound crossings of a boundary. -/
def State.modXing (s : State) (f b : Nat) (g : Xing → Xing) : State :=
  s.modField f (fun fd => { fd with clk := { fd.clk with xing := fd.clk.xing.modify b {} g } })

/-- A crossing whose clock is lost or ordered to stop (R306): RUNNING and CALIBRATING become PARKED. -/
def Xing.park (x : Xing) : Xing :=
  match x.state with
  | .running | .calibrating => { x with state := .parked, async := false, latency := 0 }
  | .parked | .failed => x

/-- Park the crossings of a field, in both directions (R300). -/
def State.parkCrossings (s : State) (f : Nat) : State :=
  (upto 4).foldl (fun s b =>
    match fieldAcross f b with
    | some g => (s.modXing f b Xing.park).modXing g (facing b) Xing.park
    | none => s) s

/-- A crossing that failed its calibration, cleared (R306). -/
def Xing.clear (x : Xing) : Xing :=
  match x.state with
  | .failed => { x with state := .parked }
  | .parked | .calibrating | .running => x

/-- A field reset, or a clear by the conductor: FAILED crossings of the field park, both ways (R306). -/
def State.clearCrossings (s : State) (f : Nat) : State :=
  (upto 4).foldl (fun s b =>
    match fieldAcross f b with
    | some g => (s.modXing f b Xing.clear).modXing g (facing b) Xing.clear
    | none => s) s

/-- The crossing of a boundary has failed in one direction. -/
def State.crossFailed (s : State) (f b g : Nat) : Bool :=
  ((s.field f).xing b).state == .failed || ((s.field g).xing (facing b)).state == .failed

/-- Every crossing between a field and its running neighbours runs, both ways (R299); a neighbour that a failed crossing keeps out does not hold the field back (R306). -/
def State.calibrated (s : State) (f : Nat) : Bool :=
  (upto 4).all (fun b =>
    match fieldAcross f b with
    | some g => !(s.field g).running ||
        (((s.field f).xing b).state == .running && ((s.field g).xing (facing b)).state == .running) ||
        (s.crossFailed f b g && (s.field g).svc.state == .out)
    | none => true)

/-! ## Clock and rails -/

/-- The point a field runs at: the slowest of its four (R336). -/
def Field.slowest (fd : Field) : Nat := max (max fd.pwr.req fd.pwr.cap) (max fd.pwr.therm fd.pwr.forced)

/-- The clock held low: nothing is armed to restart it, and its debt is gone (R300, R302). -/
def FieldClk.stop (c : FieldClk) : FieldClk :=
  { c with halted := true, clock := 0, relock := none, stopped := none, debt := 0, owe := 0, fast := false }

/-- The clock started at a point (R299, R302). -/
def FieldClk.start (c : FieldClk) (op : Nat) : FieldClk :=
  { c with halted := false, clock := 2, relock := none, stopped := none, debt := 0, owe := 0, acc := 0, fast := false, op := op }

/-- A tile whose power is lost: OFF, its memories lost, its generation kept (R62, R64). A defect hole stays one. -/
def Tile.powerLost (tl : Tile) : Tile :=
  match tl.st with
  | .hole => if tl.shadow then { st := .off, gen := tl.gen } else tl
  | .off | .quarantine | .admitted | .halted => { st := .off, gen := tl.gen }

/-- The tiles of a field lose power. -/
def State.tilesOff (s : State) (f : Nat) : State :=
  s.allTiles (fun t tl => if fieldOf t = f then tl.powerLost else tl)

/-- A dock goes with its field: every pending remote request is answered PATH_LOST (R280, R284), and its proxies are lost (R289). -/
def State.dockDown (s : State) (f : Nat) : State :=
  let s := (s.port f).pending.foldl (fun s e => s.endPend f e.1 e.2 (bareAnswer e.2.re e.2.isRead stPathLost)) s
  s.modPort f (fun v => { v with proxies := [], pending := [] })

/-- The rails of a field go: its clock stops, its crossings park, its port goes DISABLED with its dock and its tiles are OFF (R300, R269); a keep field's node loses its memory (R421). -/
def State.railsOff (s : State) (f : Nat) (st : PwrSt) (cause : Nat) : State :=
  let s := ((s.portDown f).dockDown f).parkCrossings f
  let s := s.modField f (fun fd => { fd with
    clk := fd.clk.stop
    pwr := { fd.pwr with
      state := st, cause := cause, parked := false, capGate := 0, tgate := 0, est := 0, actCore := 0, actMem := 0, plan := .none, waking := none,
      retainAt := none, hotSince := none, warmSince := none, coolSince := none, lostAt := some s.time } })
  let s := if isKeep f then { s with hosts := s.hosts.erase (keepIdx f) } else s
  s.tilesOff f

/-- A field lists itself with the conductor as a furrow of a kind, in a service state (R183, R373). -/
def State.setOut (s : State) (f kind : Nat) (st : SvcSt) : State :=
  s.modField f (fun fd => { fd with svc := { fd.svc with furrow := some kind, state := st, phase := 0, testing := [], awaiting := [] } })

/-- A keep field is lost: its conductor pair goes with it, and a lost standby is reported with event 0x0E84 (R350, R351, R382, R397). -/
def State.keepLost (s : State) (f : Nat) : State :=
  if !isKeep f then s
  else
    let act := if s.mb.activeKf = 0 then 0 else 55
    let s := { s with cond := { s.cond with up := s.cond.up.filter (fun g => !(g == f)) } }
    if act = f then { s with mb := { s.mb with running := false } }
    else if (f = 0 ∨ f = 55) ∧ (s.mb.standbyReady || s.cond.rebuilding) = true then
      ({ s with mb := { s.mb with standbyReady := false }, cond := { s.cond with rebuilding := false } }).event srcConductor 0x0E84 [f, (s.field f).pwr.cause]
    else s

/-- A field fails without warning (R195, R350, R352): its neighbours hold its boundary as dead, what was inside it is lost with its cell records (R253), and no map holds it yet. -/
def State.failNow (s : State) (f : Nat) (st : PwrSt) (cause kind : Nat) (sv : SvcSt) : State :=
  let inMap := s.mesh.map.holds f
  let s := s.loseInside f
  let s := (s.railsOff f st cause).setOut f kind sv
  let s := if isKeep f then s else
    { s with cond := { s.cond with sweeps := insertNat s.cond.sweeps f }, mesh := { s.mesh with dead := if inMap then s.mesh.dead else insertNat s.mesh.dead f } }
  let s := s.modField f (fun fd => { fd with sync := { fd.sync with cells := [], waiters := [], saved := none } })
  (s.deadBoundary f).keepLost f

/-- A planned end of power: the cells were saved before (R253, R328). -/
def State.plannedOff (s : State) (f : Nat) : State := (s.railsOff f .off 1).setOut f 5 .out

/-- Every field loses its rails at once: the 6 V bus stops, or the reference is lost (R295, R325). -/
def State.allOff (s : State) (cause : Nat) : State :=
  let s := (upto 56).foldl (fun s f => ((s.railsOff f .off cause).setOut f 5 .out).keepLost f) s
  { s with mesh := { s.mesh with flight := [], dead := [] }, mb := { s.mb with running := false } }

/-- The power board goes: every field is OFF, lit glow modules go dark, and no start-up is under way (R24, R325, R449, R499). -/
def State.boardOff (s : State) (cause : Nat) : State :=
  let s := { s with
    chassis := { s.chassis with board := false, goodSince := none }, boot := {}, glow := s.glow.mapVals (fun _ g => min g 1) }
  s.allOff cause

/-! ## Power-up -/

/-- A position the defect record lists: a factory defect, or a history position with three failures (R366). -/
def State.defect (s : State) (t : TileId) : Bool :=
  Config.factoryHole (tileKey t) || decide (3 ≤ ((s.field (fieldOf t)).svc.recs.getD (localIdx t) {}).fails)

/-- The positions of a field, in local order. -/
def fieldTiles (f : Nat) : List TileId :=
  (upto 12000).map (fun i => ⟨f % 8 * 100 + i % 100, f / 8 * 120 + i / 100⟩)

/-- A tile of a newly powered field: HOLE where the defect record lists it, else QUARANTINE with a new generation (R62). -/
def State.tileUp (s : State) (t : TileId) : State :=
  if s.defect t then
    (s.modTile t (fun tl => { ({} : Tile) with st := .hole, gen := tl.gen })).modRec t (fun r => { r with result := Nat.lor r.result 64 })
  else
    match (s.tile t).st with
    | .off => s.enterQuarantine t
    | .hole | .quarantine | .admitted | .halted => s

/-- Power a field up: rails charged, clock started at its point, IDLE (R328, R298). -/
def State.fieldUp (s : State) (f : Nat) : State :=
  let s := s.modField f (fun fd => { fd with
    clk := fd.clk.start fd.slowest
    pwr := { fd.pwr with state := .idle, parked := false, plan := .none, waking := none, retainAt := none, cause := 0 } })
  let s := if isCompute f then (fieldTiles f).foldl State.tileUp s else s
  (s.clearCrossings f).portWake f

/-- Change a field's service block. -/
def State.modSvc (s : State) (f : Nat) (g : FieldSvc → FieldSvc) : State := s.modField f (fun fd => { fd with svc := g fd.svc })

/-- Tile of a local number. -/
def localTile (f i : Nat) : TileId := ⟨f % 8 * 100 + i % 100, f / 8 * 120 + i / 100⟩

/-- The positions a retest takes: those in QUARANTINE, and holes the defect record does not list (R62, R366). -/
def State.testable (s : State) (f : Nat) : List Nat :=
  ((s.tilesOf f).filter (fun t => match (s.tile t).st with
    | .quarantine => true
    | .hole => !(s.tile t).shadow && !s.defect t
    | .off | .admitted | .halted => false)).map localIdx

/-- Start the tests of a field at a level, from a phase (R374): results of the tested tiles are cleared. -/
def State.startTest (s : State) (f level phase : Nat) : State :=
  let ts := s.testable f
  s.modSvc f (fun v => { v with
    state := .testing, level := level, phase := phase, testing := ts, awaiting := [], since := s.time, pause := 0, codes0 := [], codes1 := []
    failed := 0, passed := 0, firstFail := none
    recs := ts.foldl (fun r i => r.modify i {} (fun e => { e with result := 0 })) v.recs })

/-- A field that woke, ended its tests, or comes up in a bring-up leaves the furrows of the next map once its crossings run (R299, R359, R370, R373). -/
def State.clearFurrow (s : State) (f : Nat) : State :=
  let fd := s.field f
  let due := (match fd.pwr.plan with
    | .wake => true
    | .none | .retain | .park | .off | .back => false) || fd.svc.phase == 11 ||
    (fd.svc.state == .testing && (s.boot.kind == 1 || (s.boot.kind == 2 && fd.svc.level == 0)))
  if due && fd.running && s.calibrated f then
    let s := s.modField f (fun fd => { fd with svc := { fd.svc with furrow := none } })
    { s with cond := { s.cond with wantMap := true } }
  else s

end Sys2Proof.Machine
end

