-- ==== Sys2Proof/Machine/Clock.lean ====
section
/-! DEFINITION. Clocking: the reference and wafer time (R295 to R297), stretch and margin (R301 to R304), crossings (R305 to R309), operating-point steps (R311 to R313) and monitor-steered mode (R317 to R319). -/

namespace Sys2Proof.Machine

/-! ## Reference and wafer time -/

/-- A signed number as a word of an event's detail holds it. -/
def signedWord (d : Int) : Nat := (d % 4294967296).toNat

/-- REFERENCE_SWITCH (R295): the spine takes the secondary; each field's count moves by at most one tick, and wafer time is KF0's count. -/
def execReferenceSwitch (deltas : List Int) (s : State) : Out :=
  let d (f : Nat) : Int := deltas.getD f 0
  .next (if s.osc = 0 ∧ deltas.all (fun x => decide (-1 ≤ x) && decide (x ≤ 1)) = true then
      let s := { s with osc := 1, time := (Int.ofNat s.time + d 0).toNat % 2 ^ 64 }
      let s := (upto 56).foldl (fun s f => s.modField f (fun fd => { fd with clk := { fd.clk with skew := fd.clk.skew + d f - d 0 } })) s
      s.event srcHedgerow 0x0A87 [0, signedWord (d 0)]
    else s)

/-- REFERENCE_LOST (R295): both oscillators have failed; clocks stop, refresh runs from the fallback oscillators, and every field goes OFF. -/
def execReferenceLost (s : State) : Out :=
  .next (if s.osc < 2 then
      let s := { s with osc := 2 }
      let s := (upto 56).foldl (fun s f => s.modField f (fun fd => { fd with clk := { fd.clk with fallback := true } })) s
      (s.event srcHedgerow 0x0A88 [2, 56]).allOff 5
    else s)

/-- WAFER_TIME_BROADCAST (R297): every 65,536 ticks a controller whose count differs from KF0's reloads it, with event 0x0A86. -/
def execWaferTimeBroadcast (s : State) : Out :=
  .next (if s.time % 65536 = 0 then (upto 56).foldl (fun s f =>
      let k := (s.field f).clk.skew
      if k = 0 then s
      else (s.modField f (fun fd => { fd with clk := { fd.clk with skew := 0 } })).event f 0x0A86 [f, signedWord (-k)]) s
    else s)

/-- WT_LO_READ (R321): the read latches WT_HI. -/
def execWtLoRead (f : Nat) (s : State) : Out :=
  .next (s.modField f (fun fd => { fd with clk := { fd.clk with
    wtHi := BitVec.ofNat 32 ((Int.ofNat s.time + fd.clk.skew).toNat / 2 ^ 32) } }))

/-- MARGIN_LOW_WRITE (R321): a write of any value sets low to 7. -/
def execMarginLowWrite (f : Nat) (s : State) : Out :=
  .next (s.modField f (fun fd => { fd with clk := { fd.clk with low := 7 } }))

/-! ## Stretch, debt and margin -/

/-- Add stretched cycles to a field's debt: STRETCH_CYC counts them, and a debt that saturates is forgiven with event 0x0A85 (R301, R302). -/
def State.droop (s : State) (f n level : Nat) : State :=
  let c := (s.field f).clk
  let d := c.debt + n
  let s := s.modField f (fun fd => { fd with clk := { fd.clk with
    stretch := fd.clk.stretch + BitVec.ofNat 32 n, owe := fd.clk.owe + n
    debt := if 65535 ≤ d then 0 else d, fast := decide (0 < d) && decide (d < 65535) && decide (4 ≤ level) } })
  if 65535 ≤ d then s.event f 0x0A85 [f, c.op] else s

/-- RAIL_DROOP (R301): a droop that costs n cycles; level is the margin level after it, which starts repayment at 4 or more (R302). -/
def execRailDroop (f n level : Nat) (s : State) : Out := .next (if (s.field f).counting then s.droop f n level else s)

/-- DEBT_REPAID (R302). -/
def execDebtRepaid (f : Nat) (s : State) : Out :=
  .next (if (s.field f).clk.fast = true ∧ (s.field f).clk.debt = 0 then
      s.modField f (fun fd => { fd with clk := { fd.clk with fast := false, acc := 0 } }) else s)

/-- A crossing whose calibration is abandoned as a clock stops (R306). -/
def Xing.abandon (x : Xing) : Xing :=
  match x.state with
  | .calibrating => x.park
  | .parked | .running | .failed => x

/-- Calibrations at a field's boundaries are abandoned, both ways. -/
def State.abandonCal (s : State) (f : Nat) : State :=
  (upto 4).foldl (fun s b =>
    match fieldAcross f b with
    | some g => (s.modXing f b Xing.abandon).modXing g (facing b) Xing.abandon
    | none => s) s

/-- MARGIN_STOP (R304): level 0 for a whole tick stops the field's clock; running crossings hold their contents, calibrations are abandoned (R306). Its event carries the duration and is written at the restart. -/
def execMarginStop (f monitor : Nat) (s : State) : Out :=
  .next (if (s.field f).running = true ∧ (s.field f).clk.stopped = none then
      (s.modField f (fun fd => { fd with
        clk := { fd.clk with
          stopped := some s.time, stopMon := monitor, clock := 0, debt := 0, owe := 0, fast := false, stops := fd.clk.stops + 1
          bvMargin := true, low := 0, lowMon := monitor }
        pwr := { fd.pwr with marginStops := insertNat fd.pwr.marginStops fd.clk.op } })).abandonCal f
    else s)

/-- MARGIN_RESTART (R304): after 4 ticks at level 2 or more the clock restarts, or joins a relock under way (R320). -/
def execMarginRestart (f : Nat) (s : State) : Out :=
  let c := (s.field f).clk
  .next (match c.stopped with
    | some t =>
      if t + 4 ≤ s.time then
        (s.modField f (fun fd => { fd with clk := { fd.clk with stopped := none, clock := if fd.clk.relock.isNone then 2 else 1 } })).event f 0x0A83
          [f, c.stopMon, s.time - t]
      else s
    | none => s)

/-! ## Crossings -/

/-- CROSSING_CALIBRATE (R306, R307): a PARKED crossing between two clocked fields starts its markers. -/
def execCrossingCalibrate (f b : Nat) (s : State) : Out :=
  .next (match fieldAcross f b with
    | some g =>
      if ((s.field f).xing b).state = .parked ∧ (s.field f).running = true ∧ (s.field g).running = true then
        s.modXing f b (fun x => { x with state := .calibrating, async := false, latency := 0, retried := false, began := s.time })
      else s
    | none => s)

/-- The ticks 4,096 cycles take at a point (R307). -/
def calTicks (op : Nat) : Nat := (4096 + opN op - 1) / opN op

/-- The ticks a calibration of a boundary takes: those of the slower side (R307). -/
def State.calTime (s : State) (f b : Nat) : Nat :=
  match fieldAcross f b with
  | some g => max (calTicks (s.field f).clk.op) (calTicks (s.field g).clk.op)
  | none => calTicks (s.field f).clk.op

/-- What follows at the two fields of a boundary once one of its crossings runs or has failed: each may leave the furrows of the next map. -/
def State.clearBoth (s : State) (f b : Nat) : State :=
  match fieldAcross f b with
  | some g => (s.clearFurrow f).clearFurrow g
  | none => s.clearFurrow f

/-- A crossing failed its calibration: in a bring-up the higher-numbered field of the two stays out (R306); a field that only wakes stays out since its crossing does not run. -/
def State.crossingFailed (s : State) (f b : Nat) : State :=
  match fieldAcross f b with
  | some g => if s.boot.kind = 1 ∧ (s.field (max f g)).svc.state = .testing then s.setOut (max f g) 5 .out else s
  | none => s

/-- CALIBRATION_DONE (R306, R307): after 4,096 cycles of the slower side L is 3 plus the spread; above 7 it is repeated once, then fails. In monitor-steered mode the crossing runs asynchronously, with no L (R317). -/
def execCalibrationDone (f b spread : Nat) (s : State) : Out :=
  let x := (s.field f).xing b
  let l := 3 + spread
  let async := (s.field f).clk.monitor
  .next (if ¬ x.state = .calibrating ∨ s.time < x.began + s.calTime f b then s
    else if l ≤ 7 then
      let s := s.modXing f b (fun x => { x with
        state := .running, async := async, latency := if async then 0 else l, peak := 0, retried := false, calTime := BitVec.ofNat 32 s.time })
      (s.event f 0x0A81 [f, x.latency, l, b, 0]).clearBoth f b
    else if x.retried then
      (((s.modXing f b (fun x => { x with state := .failed, retried := false })).event f 0x0A82 [f, b, 1]).crossingFailed f b).clearBoth f b
    else (s.modXing f b (fun x => { x with retried := true, began := s.time })).event f 0x0A84 [f, b, spread])

/-- The tiles of a boundary as the routers of field f that face it hold them: holes (R195, R309). -/
def State.boundaryDead (s : State) (f b : Nat) : State :=
  let x0 := f % 8 * 100
  let y0 := f / 8 * 120
  if b = 0 then (upto 100).foldl (fun s i => s.modRouter ⟨x0 + i, y0 + 119⟩ (fun r => { r with deadN := true })) s
  else if b = 1 then (upto 120).foldl (fun s i => s.modRouter ⟨x0 + 99, y0 + i⟩ (fun r => { r with deadE := true })) s
  else if b = 2 then (upto 100).foldl (fun s i => s.modRouter ⟨x0 + i, y0⟩ (fun r => { r with deadS := true })) s
  else (upto 120).foldl (fun s i => s.modRouter ⟨x0, y0 + i⟩ (fun r => { r with deadW := true })) s

/-- HEARTBEAT_LOSS (R309): judged on running clocks only (R320). -/
def execHeartbeatLoss (f b : Nat) (s : State) : Out :=
  .next (match fieldAcross f b with
    | some g =>
      if ((s.field f).xing b).state = .running ∧ (s.field f).counting = true ∧ (s.field g).running = false then
        (s.modXing f b Xing.park).boundaryDead f b
      else s
    | none => s)

/-! ## Waking and stopping -/

/-- FIELD_WAKE (R299): 550 ticks after the order the clock runs at the current point; the tiles of a parked field, and of a field woken by a warm reset, enter QUARANTINE (R348, R370), and the test that a return ends with begins (R374). -/
def execFieldWake (f : Nat) (s : State) : Out :=
  let fd := s.field f
  .next (match fd.pwr.waking with
    | some w =>
      if fd.pwr.state = .retain ∧ w + 550 ≤ s.time then
        let fresh := fd.pwr.parked || s.boot.kind == 2
        let s := s.setField f { fd with clk := fd.clk.start fd.slowest, pwr := { fd.pwr with state := .idle, parked := false, capGate := 0, tgate := 0 } }
        let s := if fresh then
            ((s.tilesOf f).filter (fun t => (s.tile t).inService || (s.boot.kind == 2 && (s.tile t).present))).foldl State.enterQuarantine s
          else s
        let s := match fd.pwr.plan with
          | .back => (s.startTest f fd.svc.level 4).modField f (fun fd => { fd with pwr := { fd.pwr with plan := .none, waking := none } })
          | .none | .retain | .park | .off | .wake => s
        s.portWake f
      else s
    | none => s)

/-- FIELD_CLOCK_STOP (R300): once a map that holds the field is in force its clock stops, its crossings park, thatch stops (R343) and its port goes down. -/
def execFieldClockStop (f : Nat) (s : State) : Out :=
  let fd := s.field f
  let ordered := match fd.pwr.plan with
    | .retain | .park | .off => true
    | .none | .wake | .back => false
  .next (if ordered && fd.running && s.mesh.map.holds f then
      let s := s.modField f (fun fd => { fd with clk := fd.clk.stop, pwr := { fd.pwr with retainAt := some (s.time + 25) } })
      let s := s.allTiles (fun t tl => if fieldOf t = f then { tl with act := { tl.act with running := false, engaged := false, level := 0 } } else tl)
      (s.parkCrossings f).portDown f
    else s)

/-- RETENTION_REACHED (R347, R328): 25 ticks later the core rail holds retention voltage; a parked field is PARKED, and a field ordered OFF goes OFF. -/
def execRetentionReached (f : Nat) (s : State) : Out :=
  let fd := s.field f
  .next (match fd.pwr.retainAt with
    | some t =>
      if t ≤ s.time then
        match fd.pwr.plan with
        | .off => s.plannedOff f
        | .park => s.setField f { fd with
            pwr := { fd.pwr with state := .retain, parked := true, retainAt := none, plan := .none }
            svc := { fd.svc with state := .parked, resetDone := false } }
        | .retain | .none | .wake | .back => s.setField f { fd with pwr := { fd.pwr with state := .retain, retainAt := none, plan := .none } }
      else s
    | none => s)

/-! ## Orders and steps -/

/-- The step boundary that bits 31:8 name at a tick: the multiple of 256 within 2^31 ticks that carries them (R312). -/
def resolveAt (now at_ : Nat) : Nat :=
  let base := now / 256
  let d := (at_ + 2 ^ 24 - base % 2 ^ 24) % 2 ^ 24
  if d < 2 ^ 23 then (base + d) * 256 else (base + d - 2 ^ 24) * 256

/-- The lead an order needs: 128 ticks to a faster point, else 4 (R311). -/
def leadOf (op target : Nat) : Nat := if target < op then 128 else 4

/-- The boundary an order takes at a field: its own, or the first that meets the lead where it comes too late, with event 0x0A89 (R311). -/
def State.orderAt (s : State) (f kind target at_ : Nat) : Nat × State :=
  let lead := if kind = 2 then 4 else leadOf (s.field f).clk.op target
  let want := resolveAt s.time at_
  if s.time + lead ≤ want then (want, s)
  else
    let at2 := boundaryFrom (s.time + lead)
    (at2, s.event f 0x0A89 [f, kind, want, at2])

/-- Arm a CLK_ORDER (R311, R321): at_ is bits 31:8 of S, as CLK_ORDER_AT carries it; a new order replaces one that is armed. -/
def State.clkOrder (s : State) (f kind op at_ : Nat) : State :=
  let p := s.orderAt f kind op at_
  p.2.modField f (fun fd => { fd with clk := { fd.clk with order := some { kind := kind, op := op, at_ := p.1 }, orderAt := at_ } })

/-- CLK_ORDER_OP_STEP (R311). -/
def execClkOrderOpStep (f op at_ : Nat) (s : State) : Out := .next (s.clkOrder f 1 op at_)

/-- CLK_ORDER_ENTER_MONITOR (R319). -/
def execClkOrderEnterMonitor (f op at_ : Nat) (s : State) : Out := .next (s.clkOrder f 2 op at_)

/-- CLK_ORDER_LEAVE_MONITOR (R319). -/
def execClkOrderLeaveMonitor (f op at_ : Nat) (s : State) : Out := .next (s.clkOrder f 3 op at_)

/-- Arm a PWR_STEP (R336): kind 1 cap, 2 thermal, 3 forced. -/
def State.pwrStep (s : State) (f kind op at_ : Nat) : State :=
  let p := s.orderAt f (3 + kind) op at_
  p.2.modField f (fun fd => { fd with pwr := { fd.pwr with steps := fd.pwr.steps.put kind { kind := kind, op := op, at_ := p.1 } } })

/-- PWR_STEP_CAP (R336). -/
def execPwrStepCap (f op at_ : Nat) (s : State) : Out := .next (s.pwrStep f 1 op at_)

/-- PWR_STEP_THERMAL (R336). -/
def execPwrStepThermal (f op at_ : Nat) (s : State) : Out := .next (s.pwrStep f 2 op at_)

/-- PWR_STEP_FORCED (R336). -/
def execPwrStepForced (f op at_ : Nat) (s : State) : Out := .next (s.pwrStep f 3 op at_)

/-- Take what is armed and due into the field's points, with the bound-void flags of cap, forced and thermal steps (R336, R356); in monitor-steered mode the requested point is the ceiling (R410). -/
def Field.takeSteps (fd : Field) (now : Nat) : Field :=
  let due := fd.pwr.steps.filter (fun e => decide (e.2.at_ ≤ now))
  let has (k : Nat) : Bool := (Tab.find due k).isSome
  let op (k old : Nat) : Nat := match Tab.find due k with
    | some o => o.op
    | none => old
  let req := match fd.clk.order with
    | some o => if o.kind = 1 ∧ o.at_ ≤ now then o.op else fd.pwr.req
    | none => fd.pwr.req
  { fd with
    pwr := { fd.pwr with
      steps := fd.pwr.steps.filter (fun e => !decide (e.2.at_ ≤ now)), req := req
      cap := op 1 fd.pwr.cap, therm := op 2 fd.pwr.therm, forced := op 3 fd.pwr.forced
      bvCap := fd.pwr.bvCap || has 1 || has 3, bvTherm := fd.pwr.bvTherm || has 2 }
    clk := { fd.clk with
      ceiling := match fd.clk.order with
        | some o => if fd.clk.monitor ∧ o.kind = 1 ∧ o.at_ ≤ now then o.op else fd.clk.ceiling
        | none => fd.clk.ceiling
      order := match fd.clk.order with
        | some o => if o.kind = 1 ∧ o.at_ ≤ now then none else some o
        | none => none } }

/-- A calibration abandoned at a step and started again as the clock comes back (R320). -/
def Xing.restartAt (at_ : Nat) (x : Xing) : Xing :=
  match x.state with
  | .calibrating => { x with retried := false, began := at_ }
  | .parked | .running | .failed => x

/-- A field relocks at S to a point: its clock is held for 50 ticks and its debt is gone (R313); calibration in progress starts again (R320). -/
def State.relockTo (s : State) (f op at_ : Nat) : State :=
  let old := (s.field f).clk.op
  let s := s.modField f (fun fd => { fd with clk := { fd.clk with
    op := op, relock := some (at_ + 50), clock := 1, debt := 0, owe := 0, acc := 0, fast := false, bvOp := true, low16 := 0
    xing := fd.clk.xing.mapVals (fun _ x => x.restartAt (at_ + 50)) } })
  s.event f 0x0A81 [f, old, op, 4, at_]

/-- The step boundary of what is due at a field: the latest of the orders due (R313). -/
def Field.lastDue (fd : Field) (now : Nat) : Nat :=
  let orders := (match fd.clk.order with
    | some o => [o]
    | none => []) ++ fd.pwr.steps.map (fun e => e.2)
  (orders.filter (fun o => decide (o.at_ ≤ now))).foldl (fun m o => max m o.at_) 0

/-- OP_STEP (R313, R336): at S the points armed for it are taken and the field steps to the slowest; a field without a clock takes it as its current point (R311), and in monitor-steered mode the requested point is a ceiling (R318). -/
def execOpStep (f : Nat) (s : State) : Out :=
  let fd := s.field f
  let now := s.time
  let orderDue := match fd.clk.order with
    | some o => o.kind == 1 && decide (o.at_ ≤ now)
    | none => false
  .next (if !(orderDue || fd.pwr.steps.any (fun e => decide (e.2.at_ ≤ now))) then s
    else
      let due := fd.lastDue now
      let fd := fd.takeSteps now
      let target := if fd.clk.monitor then max fd.clk.op fd.slowest else fd.slowest
      let s := s.setField f fd
      if target = fd.clk.op then s
      else if fd.running then s.relockTo f target due
      else s.modField f (fun fd => { fd with clk := { fd.clk with op := target } }))

/-- RELOCK_DONE (R313): 50 ticks after S the clock restarts, unless a margin stop still holds it (R320). -/
def execRelockDone (f : Nat) (s : State) : Out :=
  .next (match (s.field f).clk.relock with
    | some t =>
      if t ≤ s.time then s.modField f (fun fd => { fd with clk := { fd.clk with relock := none, clock := if fd.clk.stopped.isNone then 2 else 0 } })
      else s
    | none => s)

/-! ## Monitor-steered mode -/

/-- The order of a kind that is due at a field. -/
def Field.orderDue (fd : Field) (kind now : Nat) : Option StepOrder :=
  match fd.clk.order with
  | some o => if o.kind = kind ∧ o.at_ ≤ now then some o else none
  | none => none

/-- A field enters monitor-steered mode: running crossings turn asynchronous without a pause, and the point is its first own point (R317, R319). -/
def Field.enterMonitor (fd : Field) (o : StepOrder) : Field :=
  { fd with
    clk := { fd.clk with
      monitor := true, ceiling := o.op, order := none, bvAsync := true, low16 := 0
      xing := fd.clk.xing.mapVals (fun _ x => match x.state with
        | .running => { x with async := true, latency := 0 }
        | .parked | .calibrating | .failed => x) }
    pwr := { fd.pwr with req := o.op } }

/-- A field leaves monitor-steered mode: its asynchronous crossings calibrate again (R306, R319). -/
def Field.leaveMonitor (fd : Field) (o : StepOrder) : Field :=
  { fd with
    clk := { fd.clk with
      monitor := false, order := none
      xing := fd.clk.xing.mapVals (fun _ x => match x.state with
        | .running => { x with state := .calibrating, async := false, retried := false, began := o.at_ + 50 }
        | .parked | .calibrating | .failed => x) }
    pwr := { fd.pwr with req := o.op } }

/-- One field at S: it enters or leaves the mode; leaving, it steps to the named point (R319). -/
def State.monitorField (s : State) (f : Nat) : State :=
  let fd := s.field f
  match fd.orderDue 2 s.time, fd.orderDue 3 s.time with
  | some o, _ => s.setField f (fd.enterMonitor o)
  | none, some o =>
    let fd := fd.leaveMonitor o
    let s := s.setField f fd
    if fd.running then s.relockTo f fd.slowest o.at_ else s.modField f (fun fd => { fd with clk := { fd.clk with op := fd.slowest } })
  | none, none => s

/-- MONITOR_MODE_SWITCH (R319): at S every field that holds the order enters or leaves; leaving pauses injection until S + 512 and the distance table is due again (R207). -/
def execMonitorModeSwitch (s : State) : Out :=
  let leaving := (upto 56).filterMap (fun f => (s.field f).orderDue 3 s.time)
  let s1 := (upto 56).foldl State.monitorField s
  .next (match leaving with
    | [] => s1
    | o :: _ => { s1 with mesh := { s1.mesh with holdUntil := o.at_ + 512, distDue := true } })

/-- MONITOR_STEER_EPOCH (R318): low is the lowest margin level of the epoch. -/
def execMonitorSteerEpoch (f low : Nat) (s : State) : Out :=
  let fd := s.field f
  let c := fd.clk
  .next (if !(c.monitor && fd.counting) then s
    else if low ≤ 2 then
      (if c.op < 15 then s.relockTo f (c.op + 1) s.time else s.setField f { fd with clk := { c with low16 := 0 } })
    else if 6 ≤ low then
      (if 16 ≤ c.low16 + 1 ∧ max c.ceiling fd.slowest < c.op then s.relockTo f (c.op - 1) s.time
       else s.setField f { fd with clk := { c with low16 := c.low16 + 1 } })
    else s.setField f { fd with clk := { c with low16 := 0 } })

end Sys2Proof.Machine
end

