-- ==== Sys2Proof/Machine/PowerLoop.lean ====
section
/-! DEFINITION. Power and heat: the estimate (R330), the power master (R331 to R337), Hedgerow's backstop and trims (R335, R338, R339), thatch (R340 to R343), the thermal ladder and parks (R346 to R350), coolant (R351), overcurrent (R352, R353) and the input (R325, R326). -/

namespace Sys2Proof.Machine

/-! ## Orders to a field that leaves or returns (R328, R347, R348) -/

/-- Leave service by plan: the cells are saved, their waiters completed, and the field joins the next map's furrows (R253, R183). -/
def State.leavePlan (s : State) (f kind : Nat) (p : Plan) : State :=
  let s := if isCompute f then s.saveCells f else s
  let s := s.modField f (fun fd => { fd with
    svc := { fd.svc with furrow := some kind }
    pwr := if p = .park then { fd.pwr with plan := p, capGate := 12, bvGate := true } else { fd.pwr with plan := p } })
  { s with cond := { s.cond with wantMap := true } }

/-- Start a park (R347); tests under way are abandoned (R378). -/
def State.startPark (s : State) (f : Nat) : State :=
  (s.modField f (fun fd => { fd with svc := { fd.svc with phase := 0, testing := [], awaiting := [] } })).leavePlan f 3 .park

/-- Start a planned OFF: from RETAIN the rails go at once (R328). -/
def State.startOff (s : State) (f : Nat) : State :=
  match (s.field f).pwr.state with
  | .retain => s.plannedOff f
  | .idle | .active => s.leavePlan f 5 .off
  | .off | .failed => s

/-- Order a field OFF as planned: by way of the conductor where one runs, else by its controller alone. -/
def State.orderOff (s : State) (f : Nat) : State :=
  if s.mb.running then s.startOff f
  else
    match (s.field f).pwr.state with
    | .idle | .active | .retain => s.plannedOff f
    | .off | .failed => s

/-- Order a parked field back: it wakes, and a retest follows, at level 0 where it only returns (R348, R374). -/
def State.startReturn (s : State) (f level : Nat) : State :=
  s.modField f (fun fd => { fd with
    pwr := { fd.pwr with plan := .back, waking := some s.time }, svc := { fd.svc with state := .testing, phase := 3, level := level, since := s.time } })

/-! ## The estimate (R330) -/

/-- A field's voltage at a point, fused plus trim, mV (R338). -/
def State.volts (s : State) (f op : Nat) : Nat := Config.fusedMv f op + 5 * (s.field f).pwr.trims.getD op 0

/-- An exact number rounded to a natural, to the nearest below or above: the spec gives no rounding, so which is a free value (log entry 21). -/
def State.roundFree (s : State) (r : Rat) : Nat × State :=
  let n := r.floor.toNat
  let v := s.freeVal
  (if r = Int.ofNat n ∨ r < 0 then n else n + v.1.toNat % 2, v.2)

/-- The activity part of p_f at the present point, in 0.125 W: core scaled by the voltage, memory and port unscaled, 1 fJ in 4 us being 2 x 10^-9 of the unit. -/
def State.actPart (s : State) (f : Nat) : Rat :=
  let fd := s.field f
  let v : Rat := s.volts f fd.clk.op
  let v0 : Rat := s.volts f 0
  ((fd.pwr.actCore : Rat) * (v / v0) * (v / v0) + fd.pwr.actMem) / 500000000 * 1024 / (Config.eff f)

/-- p_f in 0.125 W (R330). -/
def State.pField (s : State) (f : Nat) : Rat :=
  (Config.static_ f (s.field f).clk.op : Rat) * 1024 / (Config.eff f) + s.actPart f

/-- The counts of a tile in the epoch that ends: issue, flits and thatch cycles. -/
def Act.delta (a : Act) : Nat × Nat × Nat := ((a.issue - a.lastIssue).toNat, (a.flit - a.lastFlit).toNat, (a.thatch - a.lastThatch).toNat)

/-- A tile at the end of an epoch: its issue duty in sixteenths, rounded to nearest, and its counts kept (R340, R355). -/
def Act.latch (a : Act) (cycles : Nat) : Act :=
  { a with
    duty := if cycles = 0 then 0 else min 16 (((a.issue - a.lastIssue).toNat * 16 + 4 * cycles) / (8 * cycles))
    lastIssue := a.issue, lastFlit := a.flit, lastThatch := a.thatch }

/-- A field in RETAIN at an epoch's end: its clock is stopped, so its counts are 0 and p_f is its static figure (R327, R330). -/
def State.retainEstimate (s : State) (f : Nat) : State :=
  let s := s.modField f (fun fd => { fd with pwr := { fd.pwr with actCore := 0, actMem := 0, epochNo := s.time / 100 } })
  let e := s.roundFree (s.pField f)
  e.2.modField f (fun fd => { fd with pwr := { fd.pwr with est := min 65535 e.1 } })

/-- EPOCH_END (R330, R303), once for each epoch of a field: the counts are latched, p_f is formed, the lowest margin level kept, and the epoch counted for the trims (R338). The beats, the port bytes and a keep field's own counters are free values (log entries 16 and 22). -/
def execEpochEnd (f low mon : Nat) (s : State) : Out :=
  let fd := s.field f
  .next (if !(decide (f < 56) && fd.memoryUp && decide (fd.pwr.epochNo < s.time / 100)) then s
    else if !fd.running then s.retainEstimate f
    else
      let ds := (s.tilesOf f).map (fun t => (s.tile t).act.delta)
      let sp := s.freeVal
      let tm := sp.2.freeVal
      let port := tm.2.freeVal
      let w (i : Nat) : Nat := Config.weight f i
      let core := w 0 * total (ds.map (fun d => d.1)) + w 1 * sp.1.toNat + w 3 * total (ds.map (fun d => d.2.1)) + w 5 * total (ds.map (fun d => d.2.2))
      let mem := w 2 * tm.1.toNat + w 4 * port.1.toNat / 64
      let cycles := fd.cycles - fd.pwr.epochCyc
      let s := port.2.allTiles (fun t tl => if fieldOf t = f then { tl with act := tl.act.latch cycles } else tl)
      let s := s.modField f (fun fd => { fd with
        pwr := { fd.pwr with
          actCore := core, actMem := mem, epochCyc := fd.cycles, epochNo := s.time / 100
          gateEpochs := if 0 < fd.gate then fd.pwr.gateEpochs + 1 else fd.pwr.gateEpochs
          epochsAt := fd.pwr.epochsAt.modify fd.clk.op (0, 0) (fun e => (e.1 + 1, if low % 8 ≤ 3 then e.2 + 1 else e.2)) }
        clk := { fd.clk with epochLow := low % 8, low := min fd.clk.low (low % 8), lowMon := if low % 8 < fd.clk.low then mon else fd.clk.lowMon } })
      let e := s.roundFree (s.pField f)
      e.2.modField f (fun fd => { fd with pwr := { fd.pwr with est := min 65535 e.1 } }))

/-! ## The power master (R331 to R336) -/

/-- PWR_CAP in force: 10,000 to 42,000 W (R357). -/
def Master.capInForce (m : Master) : Nat := clampN 10000 42000 m.cap

/-- cap_eff, W (R333). -/
def Master.capEff (m : Master) : Nat :=
  let g := if m.groupCap = 0 then m.capInForce else min m.capInForce m.groupCap
  if m.hedgeCap = 0 then g else min g m.hedgeCap

/-- The glow figures of the lit bays, in 0.125 W. -/
def State.glowPower (s : State) : Nat := total ((upto 8).map (fun g => if s.glow.getD g 1 = 2 then Config.glowFigure g else 0))

/-- Fields in service for the total: those neither OFF nor FAILED. -/
def State.estimated (s : State) : List Nat :=
  (upto 56).filter (fun f => match (s.field f).pwr.state with
    | .off | .failed => false
    | .retain | .idle | .active => true)

/-- est_scale in force: 768 to 1,280. -/
def Master.scale (m : Master) : Rat := (clampN 768 1280 m.estScale : Rat) / 1024

/-- The total p in W (R333). -/
def State.totalPower (s : State) (m : Master) : Rat :=
  m.scale * ((total (s.estimated.map (fun f => (s.field f).pwr.est)) + s.glowPower : Nat) : Rat) / 8

/-- p_f predicted at point t, in 0.125 W (R333). -/
def State.predField (s : State) (t f : Nat) : Rat :=
  let fd := s.field f
  let vt : Rat := s.volts f t
  let v0 : Rat := s.volts f 0
  let speed : Rat := (opN t : Rat) / (opN fd.clk.op)
  let core : Rat := (fd.pwr.actCore : Rat) * (vt / v0) * (vt / v0) * speed
  let mem : Rat := (fd.pwr.actMem : Rat) * speed
  ((Config.static_ f t : Rat) + (core + mem) / 500000000) * 1024 / (Config.eff f)

/-- pred(t), W (R333). -/
def State.pred (s : State) (m : Master) (t : Nat) : Rat :=
  m.scale * ((s.estimated.map (s.predField t)).foldl (· + ·) 0 + (s.glowPower : Rat)) / 8

/-- The power master's block of a keep field. -/
def State.master (s : State) (f : Nat) : Master := (s.field f).master

/-- Change both master blocks. -/
def State.bothMasters (s : State) (g : Master → Master) : State :=
  (s.modField 0 (fun fd => { fd with master := g fd.master })).modField 55 (fun fd => { fd with master := g fd.master })

/-- The field whose controller is the active master (R332). -/
def State.masterField (s : State) : Option Nat :=
  if (s.master 0).active ∧ (s.field 0).running = true then some 0
  else if (s.master 55).active ∧ (s.field 55).running = true then some 55 else none

/-- Insert a field by descending p_f; equal ones stand in field order (log entry 23). -/
def insertDesc (est : Nat → Nat) : List Nat → Nat → List Nat
  | [], f => [f]
  | g :: gs, f => if est g < est f then f :: g :: gs else g :: insertDesc est gs f

/-- Compute fields that run, by descending p_f. -/
def State.hottest (s : State) : List Nat :=
  ((upto 56).filter (fun f => isCompute f && (s.field f).running)).foldl (insertDesc (fun f => (s.field f).pwr.est)) []

/-- Set a field's cap gate level; its gate flag is set while it is gated, and event 0x0B81 marks the beginning (R337). -/
def State.setGate (s : State) (f level p cap : Nat) : State :=
  let old := (s.field f).gate
  let s := s.modField f (fun fd => { fd with pwr := { fd.pwr with capGate := level, bvGate := fd.pwr.bvGate || decide (0 < level) } })
  if old = 0 ∧ 0 < level then s.event f 0x0B81 [f, level, p, cap] else s

/-- max_gate and step_after in force (R357). -/
def Master.gateLimit (m : Master) : Nat := min 12 m.maxGate
def Master.stepEpochs (m : Master) : Nat := if m.stepAfter = 0 then 1 else m.stepAfter

/-- Shed load by gating, hottest field first (R333). -/
def State.shedLoad (s : State) (limit p cap : Nat) : Rat → List Nat → State
  | _, [] => s
  | shed, f :: fs =>
    if shed ≤ 0 then s
    else
      let step : Rat := s.actPart f / 16 / 8
      let cur := (s.field f).pwr.capGate
      if step ≤ 0 ∨ limit ≤ cur then State.shedLoad s limit p cap shed fs
      else
        let n := min (limit - cur) (shed / step).ceil.toNat
        State.shedLoad (s.setGate f (cur + n) p cap) limit p cap (shed - step * n) fs

/-- Release gating, coolest gated field first, while one level fewer stays within the cap (R333). -/
def State.easeGates (s : State) (m : Master) (cap : Nat) : Rat → List Nat → State
  | _, [] => s
  | p, f :: fs =>
    let cur := (s.field f).pwr.capGate
    let q := p + m.scale * s.actPart f / 16 / 8
    if 0 < cur ∧ q ≤ cap then State.easeGates (s.setGate f (cur - 1) p.floor.toNat cap) m cap q fs
    else State.easeGates s m cap p fs

/-- Arm a step of a kind in every field, at a boundary given by bits 31:8. -/
def State.stepAll (s : State) (kind op at_ : Nat) : State := (upto 56).foldl (fun s f => s.pwrStep f kind op (at_ / 256 % 2 ^ 24)) s

/-- The cap point the master steers: an armed one, else the one in force. -/
def Field.capPoint (fd : Field) : Nat :=
  match fd.pwr.steps.find 1 with
  | some o => o.op
  | none => fd.pwr.cap

/-- Arm a cap step in every field, counted, with event 0x0B82 (R333, R337). -/
def State.capStep (s : State) (k op at_ p : Nat) : State :=
  let old := (s.field k).capPoint
  let s := s.stepAll 1 op at_
  let s := s.modField k (fun fd => { fd with master := { fd.master with capSteps := satAdd 0xFFFF fd.master.capSteps 1 } })
  s.event k 0x0B82 [old, op, at_, p]

/-- The fastest point no faster than the cap point whose prediction fits under 0.97 of the cap; OP15 if none (R333). -/
def State.fitPoint (s : State) (m : Master) (from_ : Nat) : Nat :=
  ((upto 16).find? (fun t => decide (from_ ≤ t) && decide (s.pred m t ≤ (97 : Rat) / 100 * m.capEff))).getD 15

/-- The decision of one epoch (R333). -/
def State.decide1 (s : State) (k : Nat) : State :=
  let m := s.master k
  let p := s.totalPower m
  let cap := m.capEff
  let r := s.roundFree p
  let s := r.2.modField k (fun fd => { fd with master := { fd.master with
    total := r.1, lastEpoch := s.time / 100, totals := fd.master.totals.filter (fun e => decide (s.time < e.1 + 1024)) ++ [(s.time, r.1)] } })
  if (cap : Rat) < p then
    let s := s.shedLoad m.gateLimit r.1 cap (p - cap) s.hottest
    let n := m.overs + 1
    let s := s.modField k (fun fd => { fd with master := { fd.master with
      overCount := fd.master.overCount + 1, under := 0, overs := if m.stepEpochs ≤ n then 0 else n } })
    if m.stepEpochs ≤ n then
      let cur := (s.field k).capPoint
      let t := s.fitPoint m cur
      if t = cur then s else s.capStep k t (boundaryFrom (s.time + 4)) r.1
    else s
  else
    let s := s.easeGates m cap p s.hottest.reverse
    let cur := (s.field k).capPoint
    let gated := (upto 56).any (fun f => decide (0 < (s.field f).pwr.capGate))
    let faster := !gated && decide ((s.field k).pwr.req < cur) && decide (s.pred m (cur - 1) ≤ (97 : Rat) / 100 * cap)
    let n := if faster then m.under + 1 else 0
    let s := s.modField k (fun fd => { fd with master := { fd.master with overs := 0, under := if 64 ≤ n then 0 else n } })
    if 64 ≤ n then s.capStep k (cur - 1) (boundaryFrom (s.time + 128)) r.1 else s

/-- The standby master runs R333 on the same estimates without issuing orders (R332): its totals and counts are the master's. -/
def State.standbyRuns (s : State) (k : Nat) : State :=
  if k = 0 ∧ (s.field 55).running = true then
    let m := s.master 0
    s.modField 55 (fun fd => { fd with master := { fd.master with
      total := m.total, totals := m.totals, overs := m.overs, under := m.under, overCount := m.overCount, lastEpoch := m.lastEpoch } })
  else s

/-- POWER_MASTER_DECISION (R331, R333): once for each epoch, 50 ticks after it ends. The 30 ticks its gate orders travel are left out (log entry 80). -/
def execPowerMasterDecision (s : State) : Out :=
  .next (match s.masterField with
    | some k => if (s.master k).lastEpoch < s.time / 100 ∧ 50 ≤ s.time % 100 then (s.decide1 k).standbyRuns k else s
    | none => s)

/-- MASTER_TAKEOVER (R332): two epochs without a decision, or KF0 out of service; the standby starts from its own counts and from what the fields report. -/
def execMasterTakeover (s : State) : Out :=
  let late := decide ((s.master 0).lastEpoch + 3 ≤ s.time / 100) || !(s.field 0).running
  .next (if (s.master 0).active = true ∧ late = true ∧ (s.field 55).running = true then
      let s := s.modField 0 (fun fd => { fd with master := { fd.master with active := false } })
      let s := s.modField 55 (fun fd => { fd with master := { fd.master with active := true, lastEpoch := s.time / 100 } })
      s.event 55 0x0B8E [55, s.time / 100]
    else s)

/-! ## Hedgerow's backstop (R335) -/

/-- The cap that Hedgerow judges by: the active master's, else KF0's. -/
def State.capNow (s : State) : Nat := (s.master (s.masterField.getD 0)).capEff

/-- Write a forced step of one point slower to every field, with event 0x0B8A. -/
def State.forceStep (s : State) (watts : Nat) : State :=
  let op := min 15 ((s.field 0).slowest + 1)
  let s := s.stepAll 3 op (boundaryFrom (s.time + 4))
  let s := { s with watch := { s.watch with forcedAt := some s.hedgeNow } }
  s.event srcHedgerow 0x0B8A [watts, s.capNow, op]

/-- HEDGEROW_POWER_SAMPLE (R335): excess for 3 ms, or over 800 A, forces a step, again every 3 ms while it lasts. -/
def execHedgerowPowerSample (watts amps : Nat) (s : State) : Out :=
  let overs := decide (105 * s.capNow < 100 * watts)
  let n := if overs then s.watch.overs + 1 else 0
  let excess := decide (3 ≤ n) || decide (800 < amps)
  let due := match s.watch.forcedAt with
    | some t => decide (t + 75000 ≤ s.hedgeNow)
    | none => true
  let s1 := ({ s with watch := { s.watch with overs := n, watts := watts, forcedAt := if excess then s.watch.forcedAt else none } }).moduleSensor 1 1000 amps
  .next (if !s.hedge.up then s else if excess && due && s.mayOrder then s1.forceStep watts else s1)

/-- EST_SCALE_CALIBRATE (R335): 1,024 x measured / estimated, held to 768 to 1,280; with nothing estimated the quotient is a free value. -/
def execEstScaleCalibrate (measured estimated : Nat) (s : State) : Out :=
  let q := if estimated = 0 then (let v := s.freeVal; (v.1.toNat, v.2)) else s.roundFree ((1024 * measured : Nat) / (estimated : Rat))
  .next (if s.mayOrder then q.2.bothMasters (fun m => { m with estScale := clampN 768 1280 q.1 }) else s)

/-- PWR_HEDGE_CAP: the least of 780 A x the measured input voltage and the coolant limit (R333, R351). -/
def State.setHedgeCap (s : State) : State :=
  if !s.mayOrder then s
  else
  let r := s.roundFree ((780 * s.chassis.mv : Nat) / (1000 : Rat))
  let v := if s.watch.coolCap = 0 then r.1 else min r.1 s.watch.coolCap
  r.2.bothMasters (fun m => { m with hedgeCap := min 65535 v })

/-! ## The input (R325, R326) -/

/-- The range an input voltage lies in (R325): 0 normal, 1 under 54 V, 2 under 50 V, 3 over 64 V, 4 over 66 V. -/
def rangeOf (mv : Nat) : Nat := if mv < 50000 then 2 else if mv < 54000 then 1 else if mv ≤ 64000 then 0 else if mv ≤ 66000 then 3 else 4

/-- INPUT_VOLTAGE_SAMPLE (R325): each 1 ms; a change of range is reported, and PWR_HEDGE_CAP follows the voltage. An input over 72 V is answered as one over 66 V; the damage that may result is left out (log entry 34). -/
def execInputVoltageSample (mv : Nat) (s : State) : Out :=
  if !s.hedge.up then .next s
  else
    let r := rangeOf mv
    let c := s.chassis
    let good := if r = 0 then (match c.goodSince with
      | some t => some t
      | none => some s.hedgeNow) else none
    let s1 := { s with chassis := { c with mv := mv, range := r, lowMs := if r = 2 then c.lowMs + 1 else 0, goodSince := good } }
    let s1 := (s1.moduleSensor 0 80000 mv).setHedgeCap
    .next (if r = c.range ∨ r = 0 then s1 else s1.event srcHedgerow 0x0B89 [mv, r])

/-- BUS_STOP (R325): the board's comparators stop the 6 V bus, and every field goes OFF. -/
def execBusStop (s : State) : Out :=
  .next (if s.chassis.board then
      let s := { s with chassis := { s.chassis with busStopped := true, shutdown := none } }
      (s.boardOff 5).event srcHedgerow 0x0B89 [s.chassis.mv, if rangeOf s.chassis.mv = 4 then 4 else 2]
    else s)

/-- CURRENT_LIMIT (R326): the board holds 800 A; every field's clock stretches, by how much is a free value. -/
def execCurrentLimit (s : State) : Out :=
  .next ((upto 56).foldl (fun s f =>
    if (s.field f).counting then
      let n := s.freeVal
      let l := n.2.freeVal
      l.2.droop f n.1.toNat (l.1.toNat % 8)
    else s) s)

/-! ## Thatch (R340 to R343) -/

/-- THATCH_CTRL fields in force (R355). -/
def Act.downTime (a : Act) : Nat := cdiv (100 * clampN 5 125 a.down) 16
def Act.upTime (a : Act) : Nat := cdiv (100 * clampN 1 125 a.up) 16
def Act.delayCycles (a : Act) : Nat := 64 * (if a.delay = 0 then 1 else a.delay)

/-- A swait that thatch may engage in (R340), and the ticks it has lasted. -/
def State.thatchWait (s : State) (t : TileId) : Option Nat :=
  let tl := s.tile t
  match tl.core.stall with
  | some k => if k.op = .swait ∧ (k.obj < 0x10000 ∨ tl.act.local_ = true) then some (s.run t - k.since) else none
  | none => none

/-- THATCH_ENGAGE (R340): the level starts at the last epoch's issue duty; 0 engages nothing. -/
def execThatchEngage (t : TileId) (s : State) : Out :=
  let tl := s.tile t
  let a := tl.act
  .next (match s.thatchWait t with
    | some n =>
      let long := decide (a.delayCycles ≤ n * opN (s.field (fieldOf t)).clk.op) && decide (tl.idleFrom + a.delayCycles ≤ s.cycles t)
      if a.enable && !a.engaged && tl.enginesIdle && long && s.clocked t && decide (0 < a.duty) then
        (s.wake t).modTile t (fun tl => { tl with act := { tl.act with
          running := true, engaged := true, level := a.duty, stepAt := s.time, stepCyc := s.cycles t } })
      else s
    | none => s)

/-- Thatch issue cycles of the 8 engines at a level over some cycles: L of every 16, the part of a period a free value (log entry 21). -/
def State.thatchCycles (s : State) (level cycles : Nat) : Nat × State :=
  let v := s.freeVal
  (8 * ((cycles * level + v.1.toNat % 16) / 16), v.2)

/-- THATCH_RAMP_DOWN_STEP (R341). -/
def execThatchRampDownStep (t : TileId) (s : State) : Out :=
  let a := (s.tile t).act
  .next (if a.running = true ∧ a.stepAt + a.downTime ≤ s.time ∧ s.clocked t = true then
      let n := s.thatchCycles (min a.level (16 - (s.field (fieldOf t)).gate)) (s.cycles t - a.stepCyc)
      n.2.modTile t (fun tl => { tl with act := { tl.act with
        level := a.level - 1, running := decide (1 < a.level), stepAt := s.time, stepCyc := s.cycles t
        thatch := tl.act.thatch + BitVec.ofNat 32 n.1 } })
    else s)

/-- THATCH_RAMP_UP_STEP (R342): the ramp ceiling rises by 1 toward 16. -/
def execThatchRampUpStep (t : TileId) (s : State) : Out :=
  let a := (s.tile t).act
  .next (if a.ceiling < 16 ∧ a.stepAt + a.upTime ≤ s.time then
      s.modTile t (fun tl => { tl with act := { tl.act with ceiling := a.ceiling + 1, stepAt := s.time } })
    else s)

/-! ## The thermal ladder (R346 to R350) -/

/-- THERM_LIMITS in force: each threshold lowered by at most 20 K and never raised (R346). -/
def FieldPwr.warnAt (p : FieldPwr) : Nat := clampN 75 95 p.limWarn
def FieldPwr.gateAt (p : FieldPwr) : Nat := clampN 80 100 p.limGate
def FieldPwr.parkAt (p : FieldPwr) : Nat := clampN 85 105 p.limPark

/-- FIELD_THERM.max keeps the highest reading (R356). -/
def FieldPwr.sensed (p : FieldPwr) (temp : Int) (sensor now : Nat) : FieldPwr :=
  let hot := fun (limit : Nat) (since : Option Nat) => if Int.ofNat limit ≤ temp then (match since with
    | some t => some t
    | none => some now) else none
  { p with
    temp := temp, sensor := sensor, maxTemp := max p.maxTemp (min 255 temp.toNat)
    hotSince := hot p.parkAt p.hotSince
    warmSince := if p.tgate = 12 then hot p.gateAt p.warmSince else none
    trips := if 115 ≤ temp then p.trips + 1 else 0
    coolSince := if temp ≤ 85 then (match p.coolSince with
      | some t => some t
      | none => some now) else none
    tripped := p.tripped && decide (80 < temp) }

/-- Rung 1 (R346): the thermal point, one slower each 25,000 ticks while any field is hot, one faster each 2,500,000 ticks once every field reads 90 or below. -/
def State.thermalPoint (s : State) (f : Nat) : State :=
  match s.masterField with
  | none => s
  | some k =>
    let m := s.master k
    let p := (s.field f).pwr
    let old := match (s.field k).pwr.steps.find 2 with
      | some o => o.op
      | none => (s.field k).pwr.therm
    let after (t : Option Nat) (n : Nat) : Bool := match t with
      | some t => decide (t + n ≤ s.time)
      | none => true
    if Int.ofNat p.warnAt ≤ p.temp then
      let s := s.modField k (fun fd => { fd with master := { fd.master with coolSince := none } })
      if after m.thermSince 25000 && decide (old < 15) then
        let s := s.stepAll 2 (old + 1) (boundaryFrom (s.time + 4))
        let s := s.modField k (fun fd => { fd with master := { fd.master with
          thermSince := some s.time, thermSteps := satAdd 0xFFFF fd.master.thermSteps 1 } })
        s.event k 0x0B83 [f, p.temp.toNat, old + 1]
      else s
    else
      let anyHot := s.estimated.any (fun g => decide (Int.ofNat (s.field g).pwr.warnAt ≤ (s.field g).pwr.temp))
      let allCool := s.estimated.all (fun g => decide ((s.field g).pwr.temp ≤ 90))
      let s := if anyHot then s else s.modField k (fun fd => { fd with master := { fd.master with thermSince := none } })
      if allCool && decide (0 < old) then
        match m.coolSince with
        | none => s.modField k (fun fd => { fd with master := { fd.master with coolSince := some s.time } })
        | some t =>
          if t + 2500000 ≤ s.time then
            let s := s.stepAll 2 (old - 1) (boundaryFrom (s.time + 128))
            s.modField k (fun fd => { fd with master := { fd.master with coolSince := some s.time, thermSteps := satAdd 0xFFFF fd.master.thermSteps 1 } })
          else s
      else s.modField k (fun fd => { fd with master := { fd.master with coolSince := none } })

/-- Rung 2 (R346): the thermal gate level, by 4 up and by 1 down, once an epoch; a field that is not IDLE or ACTIVE ignores gate orders (R354). -/
def State.thermalGate (s : State) (f : Nat) : State :=
  let p := (s.field f).pwr
  let e := s.time / 100
  if p.tgateEpoch = e ∨ (s.field f).running = false then s
  else if Int.ofNat p.gateAt ≤ p.temp ∧ p.tgate < 12 then
    let n := min 12 (p.tgate + 4)
    (s.modField f (fun fd => { fd with pwr := { fd.pwr with tgate := n, tgateEpoch := e, bvTherm := true, bvGate := true } })).event f 0x0B84 [f, p.temp.toNat, n]
  else if p.temp ≤ 97 ∧ 0 < p.tgate then
    s.modField f (fun fd => { fd with pwr := { fd.pwr with tgate := p.tgate - 1, tgateEpoch := e } })
  else s

/-- The condition of rung 3 stands: the park limit for 10 ms, or the gate limit for 50 ms with the thermal gate at its highest (R346). -/
def FieldPwr.rung3 (p : FieldPwr) (now : Nat) : Bool :=
  (match p.hotSince with | some t => decide (t + 250000 ≤ now) | none => false) ||
    (match p.warmSince with | some t => decide (t + 1250000 ≤ now) | none => false)

/-- Rung 3 (R346, R347, R349, R367, R378): the conductor parks the field; during cold bring-up its steps are abandoned and it stays OUT. -/
def State.thermalPark (s : State) (f : Nat) : State :=
  let fd := s.field f
  let p := fd.pwr
  if !(p.rung3 s.time && isCompute f && fd.running && s.mb.running && p.plan == .none) then s
  else if fd.svc.state == .testing && !s.boot.complete then
    ((s.railsOff f .off 4).setOut f 5 .out).event f 0x0D83 [f, 4]
  else (s.startPark f).event f 0x0B85 [f, p.temp.toNat, boundaryFrom (s.time + 356)]

/-- Rung 4 (R346, R350): the fourth sample in a row at 115 degrees turns the field off at once; a field that an overcurrent latched in the same tick stays FAILED, and its trip is written as well (R354). -/
def State.hardTrip (s : State) (f : Nat) : State :=
  let p := (s.field f).pwr
  match p.state with
  | .idle | .active | .retain =>
    if 4 ≤ p.trips then
      let s := s.failNow f .off 4 5 .out
      (s.modField f (fun fd => { fd with pwr := { fd.pwr with tripped := true } })).event f 0x0B86 [f, p.sensor, p.temp.toNat]
    else s
  | .failed => if 4 ≤ p.trips ∧ p.lostAt = some s.time ∧ 2 ≤ p.cause then s.event f 0x0B86 [f, p.sensor, p.temp.toNat] else s
  | .off => s

/-- THERMAL_SAMPLE (R346): a field's hottest sensor, every 25 ticks. -/
def execThermalSample (f : Nat) (temp : Int) (sensor : Nat) (s : State) : Out :=
  .next (if f < 56 then
      let s := s.modField f (fun fd => { fd with pwr := fd.pwr.sensed temp sensor s.time })
      let s := s.hardTrip f
      match (s.field f).pwr.state with
      | .off | .failed => s
      | .retain | .idle | .active => ((s.thermalPoint f).thermalGate f).thermalPark f
    else s)

/-- FIELD_THERM_CLEAR (R356). -/
def execFieldThermClear (f : Nat) (s : State) : Out :=
  .next (s.modField f (fun fd => { fd with pwr := { fd.pwr with maxTemp := 0 } }))

/-- AUTO_RETURN (R348): a parked field that has read 85 or below for 100 ms is ordered back. -/
def execAutoReturn (f : Nat) (s : State) : Out :=
  let p := (s.field f).pwr
  .next (match s.masterField, p.coolSince with
    | some k, some t =>
      if (s.master k).autoReturn = true ∧ p.parked = true ∧ p.state = .retain ∧ p.plan = .none ∧ t + 2500000 ≤ s.time then s.startReturn f 0 else s
    | _, _ => s)

/-! ## Coolant (R351) -/

/-- The limit of a coolant sample, W; 0 none. Readings are in tenths. -/
def coolantCap (c : Coolant) : Nat :=
  let a := if 320 < c.inlet then 40000 - 100 * (c.inlet - 320).toNat else 0
  let b := if c.flow < 800 then 50 * c.flow else 0
  if a = 0 ∧ ¬ 320 < c.inlet then b else if ¬ c.flow < 800 then a else min a b

/-- A coolant sensor has failed, or reads outside its range (R455). -/
def coolantLost (c : Coolant) : Bool :=
  c.failed || decide (c.inlet < 0) || decide (800 < c.inlet) || decide (c.outlet < 0) || decide (800 < c.outlet) || decide (2000 < c.flow)

/-- COOLANT_SAMPLE (R351): the cap follows inlet and flow; a flow below 20 litres a minute for 2 s, an outlet above 60 degrees or a failed sensor orders every compute field OFF. -/
def execCoolantSample (c : Coolant) (s : State) : Out :=
  let low := if c.flow < 200 then (match s.watch.lowFlow with
    | some t => some t
    | none => some s.hedgeNow) else none
  let stop := coolantLost c || decide (600 < c.outlet) || (match low with | some t => decide (t + 50000000 ≤ s.hedgeNow) | none => false)
  let limited := decide (320 < c.inlet) || decide (c.flow < 800)
  let r := if stop then 2 else if limited then 1 else 0
  let old := s.watch.response
  let s1 := ({ s with watch := { s.watch with coolant := c, lowFlow := low, coolCap := if limited then max 1 (coolantCap c) else 0, response := r } }).setHedgeCap
  let s1 := ((s1.moduleSensor 2 800 c.inlet).moduleSensor 3 800 c.outlet).moduleSensor 4 2000 c.flow
  let s1 := if r = old ∨ r = 0 then s1 else s1.event srcHedgerow 0x0B8D [c.inlet.toNat, c.outlet.toNat, c.flow, r]
  .next (if !s.hedge.up then s else if stop then
      (upto 56).foldl (fun s f => if isCompute f then
        (if (s.field f).pwr.plan == .off then s else s.orderOff f) else s) s1
    else s1)

/-! ## Overcurrent (R352, R353) -/

/-- The latch of a field's regulators, with event 0x0B87; the peak current in it is a free value. -/
def State.latched (s : State) (f : Nat) (core mem : Bool) : State :=
  let s := s.modField f (fun fd => { fd with pwr := { fd.pwr with coreLatch := core, memLatch := mem, insul := 0 } })
  let v := s.freeVal
  v.2.event f 0x0B87 [f, if core then 0 else 1, v.1.toNat]

/-- A field that tripped in the same tick as its regulators latch is FAILED by the overcurrent (R354). -/
def State.tripThenLatch (s : State) (f cause : Nat) : State :=
  s.modField f (fun fd => { fd with
    pwr := { fd.pwr with state := .failed, cause := cause }, svc := { fd.svc with state := .failed, furrow := some 2 } })

/-- OVERCURRENT_LATCH (R352, R354): the field's rails latch off and it is FAILED. -/
def execOvercurrentLatch (f : Nat) (core mem : Bool) (s : State) : Out :=
  let p := (s.field f).pwr
  let cause := if core then 2 else 3
  .next (if !(decide (f < 56) && (core || mem)) then s
    else
      match p.state with
      | .failed => s
      | .off => if p.cause = 4 ∧ p.lostAt = some s.time then (s.tripThenLatch f cause).latched f core mem else s
      | .retain | .idle | .active => (s.failNow f .failed cause 2 .failed).latched f core mem)

/-- INSULATION_CHECK_DONE (R353): passed at 30 A and 10 A or less. -/
def execInsulationCheckDone (f coreMa memMa : Nat) (s : State) : Out :=
  .next (match (s.field f).pwr.insulating with
    | some t =>
      if t + 2500000 ≤ s.time then
        let r := if coreMa ≤ 30000 ∧ memMa ≤ 10000 then 1 else 2
        (s.modField f (fun fd => { fd with pwr := { fd.pwr with insulating := none, insul := r, insulCore := coreMa, insulMem := memMa } })).event
          srcHedgerow 0x0B88 [f, coreMa, memMa, r]
      else s
    | none => s)

/-! ## Trims (R338, R339) -/

/-- Ticks in 24 hours. -/
def dayTicks : Nat := 86400 * 25000000

/-- A point is withheld from the whole engine (R310, R339): the highest permitted point falls below it, and fields that run faster are stepped to it. -/
def State.withhold (s : State) (point : Nat) : State :=
  let top := min 15 (max s.cond.highest (point + 1))
  let s := { s with cond := { s.cond with highest := top } }
  (upto 56).foldl (fun s f =>
    let fd := s.field f
    let s := s.modField f (fun fd => { fd with clk := { fd.clk with ceiling := max fd.clk.ceiling top } })
    if fd.pwr.req < top then s.clkOrder f 1 top (boundaryFrom (s.time + 4) / 256 % 2 ^ 24) else s) s

/-- A point's margins were short over the 24 hours: a margin stop there, or a lowest level of 3 or less in more than 1 % of its epochs (R338). -/
def FieldPwr.trimDue (p : FieldPwr) (point : Nat) : Bool :=
  let e := p.epochsAt.getD point (0, 0)
  p.marginStops.contains point || decide (e.1 < 100 * e.2)

/-- A point's 24 hours end, and the next ones begin. -/
def FieldPwr.trimDay (p : FieldPwr) (point now : Nat) : FieldPwr :=
  { p with shorts := p.shorts.put point now, epochsAt := p.epochsAt.erase point, marginStops := p.marginStops.filter (fun q => !(q == point)) }

/-- TRIM_RAISE (R338, R339): at the end of day number day, each of 24 hours by Hedgerow's count from input power (log entry 81); a day is taken once. A point at 10 steps whose margins are short again is exhausted. -/
def execTrimRaise (f point day : Nat) (s : State) : Out :=
  let p := (s.field f).pwr
  let n := p.trims.getD point 0
  .next (if !(s.mayOrder && decide (f < 56) && decide (point < 16) && decide (p.shorts.getD point 0 ≤ day) && decide ((day + 1) * dayTicks ≤ s.hedgeNow)) then s
    else
      let s := s.modField f (fun fd => { fd with pwr := fd.pwr.trimDay point (day + 1) })
      if !p.trimDue point then s
      else if n < 10 then
        (s.modField f (fun fd => { fd with pwr := { fd.pwr with trims := fd.pwr.trims.put point (n + 1) } })).event srcHedgerow 0x0B8B [f, point, n + 1]
      else
        let s := s.event srcHedgerow 0x0B8C [f, point]
        if s.mb.running then s.withhold point else s)

end Sys2Proof.Machine
end

