-- ==== Sys2Proof/Machine/BringUp.lean ====
section
/-! DEFINITION. Cold bring-up (R359 to R367), warm reset (R369 to R372), and the tests of bring-up and retest (R361 to R365, R373, R374). -/

namespace Sys2Proof.Machine

/-! ## Steps -/

/-- A bring-up moves to a step, with event 0x0D81 (R380). -/
def State.bootTo (s : State) (step : Nat) : State :=
  if s.boot.step = step then s
  else ({ s with boot := { s.boot with step := step, since := s.time } }).event srcConductor 0x0D81 [s.boot.kind, step, s.time]

/-- Fields whose tests are under way. -/
def State.testingFields (s : State) : List Nat := (upto 56).filter (fun f => (s.field f).svc.state == .testing)

/-- The step a test phase belongs to, cold (R359) or warm (R370). -/
def stepOfPhase (kind phase : Nat) : Nat :=
  if kind = 1 then (if phase < 4 then 6 else if phase = 4 then 7 else if phase = 5 then 8 else if phase = 6 then 9 else if phase = 7 then 10
    else if phase = 8 then 11 else if phase = 11 then 13 else 12)
  else if phase < 4 then 7 else if phase = 11 then 9 else 8

/-- The step of a bring-up follows the field that is furthest behind; in a warm reset the fields on the cold field path are not waited for (R372). -/
def State.stepBoot (s : State) : State :=
  let fs := s.testingFields.filter (fun f => s.boot.kind == 1 || (s.field f).svc.level == 0)
  if s.boot.kind = 0 ∨ fs.isEmpty then s
  else s.bootTo (fs.foldl (fun m f => min m (stepOfPhase s.boot.kind (s.field f).svc.phase)) 13)

/-- Write the repair event 0x0D87: field, order, old and new service state, result. -/
def SvcSt.code : SvcSt → Nat
  | .out => 0 | .testing => 1 | .ready => 2 | .inService => 3 | .drained => 4 | .parked => 5 | .failed => 6

/-! ## Tests -/

/-- Set a test bit of a tile's record (R379: mask of bits 23:16). -/
def State.failTile (s : State) (t : TileId) (mask : Nat) : State := s.modRec t (fun r => { r with result := Nat.lor r.result mask })

/-- Tiles that have failed nothing so far. -/
def FieldSvc.clean (v : FieldSvc) : List Nat := v.testing.filter (fun i => (v.recs.getD i {}).result == 0)

/-- End the tests of a field (R366, R374): failures enter the history with event 0x0D82, the counts are formed, holes that passed enter QUARANTINE, and more than 1,200 failures in a cold bring-up leave the field OUT (R367). -/
def State.endTest (s : State) (f : Nat) : State :=
  let v := (s.field f).svc
  let bad := v.testing.filter (fun i => !((v.recs.getD i {}).result == 0))
  let good := v.clean
  let s := bad.foldl (fun s i =>
    let t := localTile f i
    let s := s.modRec t (fun r => { r with fails := satAdd 15 r.fails 1 })
    s.event srcConductor 0x0D82 [tileDetail t, (v.recs.getD i {}).result]) s
  let s := s.modSvc f (fun v => { v with
    phase := 11, since := s.time, failed := bad.length, passed := good.length
    firstFail := match bad with
      | [] => none
      | i :: _ => some ((v.recs.getD i {}).result, localTile f i) })
  let s := s.modField f (fun fd => { fd with mesh := { fd.mesh with mcastEn := false } })
  let s := good.foldl (fun s i => match (s.tile (localTile f i)).st with
    | .hole => s.enterQuarantine (localTile f i)
    | .off | .quarantine | .admitted | .halted => s) s
  let s := if s.boot.kind = 1 ∧ 1200 < bad.length then
      let s := bad.foldl (fun s i => s.modTile (localTile f i) (fun tl => { ({} : Tile) with st := .hole, gen := tl.gen })) s
      (s.setOut f 5 .out).event f 0x0D83 [f, 3]
    else s
  (s.clearFurrow f).stepBoot

/-- The scratchpad after firmware and test patterns: every byte a free value, with valid check bits (R64, R363). -/
def State.scribble (s : State) (t : TileId) : State :=
  let n := s.free
  let s := s.modTile t (fun tl => { tl with mem := { tl.mem with
    cells := (tl.mem.cells.clear 0 spEnd).writeN ((upto spEnd).map (fun i => Config.freeByte (n + i))) 0
    ue := tl.mem.ue.filter (fun o => decide (spEnd ≤ o)) } })
  { s with free := n + spEnd }

/-- Tile memory after a march or profiling: every word 0 with valid check bits, every tag empty (R363). -/
def State.zeroTm (s : State) (t : TileId) : State :=
  s.modTile t (fun tl => { tl with mem := { tl.mem with
    cells := tl.mem.cells.clear tmBase tmEnd, full := [], ue := tl.mem.ue.filter (fun o => decide (o < tmBase)) } })

/-- The field goes on after the known-answer run: level 0 ends, higher levels march tile memory (R374). -/
def State.afterKnown (s : State) (f : Nat) : State :=
  if (s.field f).svc.awaiting.isEmpty then
    if (s.field f).svc.level = 0 then s.endTest f
    else (s.modSvc f (fun v => { v with phase := 7, since := s.time })).stepBoot
  else s

/-- MARCH_DONE (R361, R363): failed lists the tiles a march fails; routers those whose router failed the self-test that precedes it, which take no tile test. After the scratchpad march firmware arrives, its multicast enabled in the field (R359, R374). -/
def execMarchDone (f : Nat) (k : MarchKind) (failed routers : List TileId) (s : State) : Out :=
  let v := (s.field f).svc
  let mine (ts : List TileId) : List TileId := ts.filter (fun t => fieldOf t == f && v.clean.contains (localIdx t))
  .next (match k with
    | .scratchpad =>
      if v.state = .testing ∧ v.phase = 4 then
        let s := (mine routers).foldl (fun s t => s.failTile t 8) s
        let s := ((mine failed).filter (fun t => !routers.contains t)).foldl (fun s t => s.failTile t 4) s
        let s := (v.testing.map (localTile f)).foldl State.scribble s
        let s := s.modField f (fun fd => { fd with mesh := { fd.mesh with mcastEn := true } })
        ((s.modSvc f (fun v => { v with phase := 6, since := s.time, awaiting := v.clean })).stepBoot).afterKnown f
      else s
    | .tileMemory =>
      if v.state = .testing ∧ v.phase = 7 then
        let s := (mine failed).foldl (fun s t => s.failTile t 16) s
        let s := (v.testing.map (localTile f)).foldl State.zeroTm s
        if v.level = 1 then s.endTest f
        else (s.modSvc f (fun v => { v with phase := 8, since := s.time })).stepBoot
      else s)

/-- A tile reports, or is taken as failed. -/
def State.reported (s : State) (t : TileId) (mask : Nat) : State :=
  let f := fieldOf t
  let s := if mask = 0 then s else s.failTile t mask
  (s.modSvc f (fun v => { v with awaiting := v.awaiting.filter (fun i => !(i == localIdx t)) })).afterKnown f

/-- KNOWN_ANSWER_DONE (R362). -/
def execKnownAnswerDone (t : TileId) (corePass enginePass : Bool) (s : State) : Out :=
  let v := (s.field (fieldOf t)).svc
  .next (if v.phase = 6 ∧ v.awaiting.contains (localIdx t) = true then
      s.reported t ((if corePass then 0 else 1) + (if enginePass then 0 else 2))
    else s)

/-- KNOWN_ANSWER_TIMEOUT (R362): a tile that faults, or has not reported within 10 ms, fails with the control-core bit. -/
def execKnownAnswerTimeout (t : TileId) (s : State) : Out :=
  let v := (s.field (fieldOf t)).svc
  .next (if v.phase = 6 ∧ v.awaiting.contains (localIdx t) = true ∧ ((s.tile t).fault.valid || decide (v.since + 250000 ≤ s.time)) = true then
      s.reported t 1
    else s)

/-! ## Soak and profiling -/

/-- log2 of the pause factor k at a temperature (R365). -/
def pauseLog (temp : Int) : Nat := if 85 ≤ temp then 0 else if temp < 45 then 4 else ((85 - temp).toNat + 9) / 10

/-- The soak has reached its limit: in a cold bring-up 66.2 s after input power, of which at most 2 s lie before the release of cold reset (R359, R364; log entry 80); in a retest 50 s after the march (R374). -/
def State.soakOver (s : State) (f : Nat) : Bool :=
  if s.boot.kind = 1 then decide (1655000000 ≤ s.time + min s.hedge.base 50000000)
  else decide ((s.field f).svc.since + 1250000000 ≤ s.time)

/-- SOAK_DONE (R364, R365): at 45 degrees, or at the soak limit; a colder field is marked cold, with event 0x0D86. -/
def execSoakDone (f : Nat) (temp : Int) (s : State) : Out :=
  let v := (s.field f).svc
  .next (if v.state = .testing ∧ v.phase = 8 ∧ (45 ≤ temp ∨ s.soakOver f = true) then
      let cold := decide (temp < 45)
      let s := s.modSvc f (fun v => { v with
        phase := 9, since := s.time, pause := 0, codes0 := [], codes1 := [], cold := cold, log2k := pauseLog temp, temp := temp.toNat })
      let s := if cold then s.event f 0x0D86 [f, temp.toNat] else s
      s.stepBoot
    else s)

/-- The pauses of a pattern, in ticks before the factor k: 256 ms, 1 s, 4 s. -/
def pauseTicks (i : Nat) : Nat := if i = 0 then 6400000 else if i = 1 then 25000000 else 100000000

/-- The code of a row group: the longest pause passed with both patterns; none where it failed the first (R365). -/
def FieldSvc.groupCode (v : FieldSvc) (key : Nat) : Option Nat :=
  let m := Nat.lor (v.codes0.getD key 0) (v.codes1.getD key 0)
  if nbit m 0 then none
  else
    let c := if !nbit m 2 then 2 else if !nbit m 1 then 1 else 0
    some (if v.cold then c - 1 else c)

/-- The profile word of a tile: two bits for each of 16 row groups (R124). -/
def FieldSvc.profileWord (v : FieldSvc) (i : Nat) : Word := word ((upto 16).map (fun (g : Nat) => ((v.groupCode (16 * i + g)).getD 0, 2 * g)))

/-- PROFILING_PAUSE_END (R365): failed lists the row groups, as local tile x 16 + group, whose rows fail the read after this pause. After the last pause the tiles with a group that failed 256 ms fail, memory is 0, and the tests end. -/
def execProfilingPauseEnd (f : Nat) (failed : List Nat) (s : State) : Out :=
  let v := (s.field f).svc
  let note (c : Tab Nat) : Tab Nat := failed.foldl (fun c k => c.modify k 0 (fun m => Nat.lor m (2 ^ v.pause))) c
  .next (if !(v.state == .testing && (v.phase == 9 || v.phase == 10) && decide (v.since + pauseTicks v.pause * 2 ^ v.log2k ≤ s.time)) then s
    else
      let v' : FieldSvc := if v.phase = 9 then { v with codes0 := note v.codes0 } else { v with codes1 := note v.codes1 }
      if v.pause < 2 then s.modSvc f (fun _ => { v' with pause := v.pause + 1, since := s.time })
      else if v.phase = 9 then (s.modSvc f (fun _ => { v' with phase := 10, pause := 0, since := s.time })).stepBoot
      else
        let s := s.modSvc f (fun _ => v')
        let bad := v'.clean.filter (fun i => (upto 16).any (fun (g : Nat) => (v'.groupCode (16 * i + g)).isNone))
        let s := bad.foldl (fun s i => s.failTile (localTile f i) 32) s
        let s := (v'.testing.map (localTile f)).foldl State.zeroTm s
        s.endTest f)

/-- Write a field's profile where its controller and Hedgerow's flash hold it, and restart its age (R366, R374); while Hedgerow restarts the flash waits for it (R378). -/
def State.writeProfile (s : State) (f : Nat) : State :=
  let v := (s.field f).svc
  let p : Tab Word := v.testing.map (fun i => (i, v.profileWord i))
  let s := s.modField f (fun fd => { fd with mem := { fd.mem with profiles := p }, svc := { fd.svc with age := 0, scrubUe := 0 } })
  if s.hedge.up then { s with flash := { s.flash with profiles := s.flash.profiles.put f p } }
  else { s with hedge := { s.hedge with profDue := insertNat s.hedge.profDue f } }

/-- The conductor's generation table takes a field's generations (R376). -/
def State.learnGens (s : State) (f : Nat) : State :=
  { s with cond := { s.cond with gens := (s.tilesOf f).foldl (fun g t => g.put (tileKey t) (s.tile t).gen) s.cond.gens } }

/-- The tiles that failed their tests become holes (R62). -/
def State.holeFailed (s : State) (f : Nat) : State :=
  let v := (s.field f).svc
  (v.testing.filter (fun i => !((v.recs.getD i {}).result == 0))).foldl
    (fun s i => s.modTile (localTile f i) (fun tl => { ({} : Tile) with st := .hole, gen := tl.gen })) s

/-- RETEST_DONE (R373, R374): with the map without the field in force, failing tiles are HOLE, the generation table is updated, a level 2 retest writes its profile, and the field is READY. -/
def execRetestDone (f : Nat) (s : State) : Out :=
  let v := (s.field f).svc
  .next (if v.state = .testing ∧ v.phase = 11 ∧ v.furrow = none ∧ s.mesh.next = none ∧ s.mesh.map.holds f = false ∧ s.cond.wantMap = false ∧
        (s.boot.kind = 0 ∨ (s.boot.kind = 2 ∧ v.level = 2)) then
      let s := s.holeFailed f
      let s := if v.level = 2 then s.writeProfile f else s
      let s := (s.modSvc f (fun v => { v with state := .ready, phase := 0, testing := [] })).learnGens f
      s.event srcConductor 0x0D87 [f, 6, 1, 2, v.failed]
    else s)

/-! ## Cold bring-up -/

/-- The four fields of a wave (R360). -/
def waveFields (w : Nat) : List Nat := [computeField w, computeField (w + 13), computeField (w + 26), computeField (w + 39)]

/-- A field powered in a cold wave: up at OP0, its routers tested, and its tests opened (R360, R361). -/
def State.waveField (s : State) (routers : List TileId) (f : Nat) : State :=
  match (s.field f).pwr.state with
  | .off =>
    let s := (s.fieldUp f).startTest f 2 2
    (routers.filter (fun t => fieldOf t == f)).foldl (fun s t =>
      (s.failTile t 8).modTile t (fun tl => { ({} : Tile) with st := .hole, gen := tl.gen })) s
  | .retain | .idle | .active | .failed => s

/-- The warm path holds for a field (R372): its profile matches flash, is at most 4,380 hours old, and fewer than 64 uncorrectable words were found. -/
def State.warmPath (s : State) (f : Nat) : Bool :=
  let fd := s.field f
  fd.mem.profiles == s.flash.profiles.getD f [] && decide (fd.svc.age.toNat ≤ 4380) && decide (fd.svc.scrubUe < 64)

/-- A field woken in a warm wave: by the warm path at level 0, else by the cold field path as at level 2, with event 0x0D85; a field without power, or one that was OUT, stays as it is (R370, R372, R378; log entry 80). -/
def State.warmField (s : State) (f : Nat) : State :=
  match (s.field f).pwr.state with
  | .retain =>
    if (s.field f).svc.stays then s else
    let warm := s.warmPath f
    let s := s.modField f (fun fd => { fd with
      pwr := { fd.pwr with waking := some s.time, plan := .wake }
      svc := { fd.svc with state := .testing, level := if warm then 0 else 2, phase := 3, since := s.time, furrow := some 5 } })
    if warm then s else s.event srcConductor 0x0D85 [f, 1]
  | .off | .idle | .active | .failed => s

/-- FIELD_POWER_WAVE (R360, R370): the next wave of four fields, each 250 ms in a cold bring-up and 50 ms in a warm reset. -/
def execFieldPowerWave (w : Nat) (routers : List TileId) (s : State) : Out :=
  let b := s.boot
  let gap := if b.kind = 1 then 6250000 else 1250000
  let due := b.wave == w && decide (w < 13) && (decide (w = 0) || decide (b.waveAt + gap ≤ s.time)) && s.mb.running
  .next (if due && b.kind == 1 && decide (4 ≤ b.step) && decide (b.step ≤ 5) then
      let s := (waveFields w).foldl (State.waveField · routers) (s.bootTo 5)
      { s with boot := { s.boot with wave := w + 1, waveAt := s.time } }
    else if due && b.kind == 2 && decide (5 ≤ b.step) && decide (b.step ≤ 6) then
      let s := (waveFields w).foldl State.warmField (s.bootTo 6)
      { s with boot := { s.boot with wave := w + 1, waveAt := s.time } }
    else s)

/-- FIELD_WAVE_TIMEOUT (R360, R367): a field of the last wave that has come no further is left OUT, with event 0x0D83. -/
def execFieldWaveTimeout (f : Nat) (s : State) : Out :=
  let v := (s.field f).svc
  .next (if s.boot.kind = 1 ∧ v.state = .testing ∧ v.phase = 2 ∧ v.since + 6250000 ≤ s.time ∧
        (upto 4).all (fun b => ((s.field f).xing b).state == .parked) = true then
      ((s.railsOff f .off 1).setOut f 5 .out).event f 0x0D83 [f, 1]
    else s)

/-- A tile may be admitted (R376): in QUARANTINE, its generation that of both tables, and no furrow of the map over it. -/
def State.admittable (s : State) (t : TileId) : Bool :=
  (s.tile t).st == .quarantine && s.cond.gens.getD (tileKey t) 0 == (s.tile t).gen && !(s.mesh.map.furrows.any (fun r => r.covers t))

/-- Admit the good tiles of a field that are neither holes nor shadowed, at an entry where one is given (R366, R376). -/
def State.admitField (s : State) (f : Nat) (entry : Option Word) : State :=
  let s := ((s.tilesOf f).filter s.admittable).foldl (fun s t => s.modTile t (fun tl =>
    Tile.toAdmitted (match entry with
      | some w => { tl with core := { tl.core with startPc := w } }
      | none => tl))) s
  s.modSvc f (fun v => { v with state := .inService, phase := 0, testing := [] })

/-- Tiles admitted in a field. -/
def State.admitted (s : State) (f : Nat) : Nat := ((s.tilesOf f).filter (fun t => (s.tile t).inService)).length

/-- The grade's guarantee (R1). -/
def guaranteed : Nat := if Config.part = 0 then 599040 else 574080

/-- Fields a bring-up waits for: those under test, but in a warm reset not those on the cold field path. -/
def State.bootFields (s : State) : List Nat := s.testingFields.filter (fun f => s.boot.kind == 1 || (s.field f).svc.level == 0)

/-- BRINGUP_ADMISSION (R359 step 13, R366, R370 step 9): with the final map in force, failures are holes, profiles are written, and good tiles are admitted at the firmware's resident loop; a shortfall is reported with event 0x0D84. -/
def execBringupAdmission (s : State) : Out :=
  let fs := s.bootFields
  let done := fs.all (fun f => (s.field f).svc.phase == 11 && (s.field f).svc.furrow.isNone && !s.mesh.map.holds f)
  .next (if (s.boot.kind = 1 ∨ s.boot.kind = 2) ∧ s.boot.wave = 13 ∧ done = true ∧ s.mesh.next = none ∧ s.cond.wantMap = false ∧ s.mb.running = true then
      let s := s.bootTo (if s.boot.kind = 1 then 13 else 9)
      let s := fs.foldl (fun s f =>
        let s := s.holeFailed f
        let s := if s.boot.kind = 1 then s.writeProfile f else s
        (s.learnGens f).admitField f (some Config.residentLoop)) s
      let n := total ((upto 56).map s.admitted)
      let s := { s with
        boot := { s.boot with kind := 0, complete := true }, chassis := { s.chassis with restarts := 0 }
        cond := { s.cond with pend := s.cond.pend.map (fun c => if (c.words.getD 0 0).toNat % 65536 = 0x0103 then { c with outcome := some 0 } else c) } }
      if n < guaranteed then s.event srcConductor 0x0D84 [n, guaranteed] else s
    else s)

/-! ## Warm reset -/

/-- Hedgerow takes every record the controllers and the holding area still hold (R371, R469). -/
def State.drainQueues (s : State) : State :=
  let evs := s.scarab.holding ++ s.scarabQ.flatMap (fun e => e.2)
  { s with scarabQ := [], scarab := evs.foldl (fun k e => k.accept s.hedgeNow e) { s.scarab with holding := [] } }

/-- What a warm reset keeps of a field (R321, R356, R371, R379). -/
def Field.warm (fd : Field) (keep : Bool) : Field :=
  { mem := { profiles := fd.mem.profiles }
    clk := { op := fd.clk.op, ceiling := fd.clk.ceiling, clock := if keep then 2 else 0, halted := !keep, skew := fd.clk.skew, fallback := fd.clk.fallback,
             xing := fd.clk.xing.mapVals (fun _ x => { stalls := x.stalls, episodes := x.episodes, peak := x.peak }) }
    pwr := { state := match fd.pwr.state with
               | .idle | .active => if keep then .idle else .retain
               | .retain => .retain
               | .off => .off
               | .failed => .failed
             cause := fd.pwr.cause, trims := fd.pwr.trims, shorts := fd.pwr.shorts, epochsAt := fd.pwr.epochsAt, marginStops := fd.pwr.marginStops, tripped := fd.pwr.tripped, temp := fd.pwr.temp, sensor := fd.pwr.sensor
             limPark := fd.pwr.limPark, limGate := fd.pwr.limGate, limWarn := fd.pwr.limWarn
             coreLatch := fd.pwr.coreLatch, memLatch := fd.pwr.memLatch, insul := fd.pwr.insul }
    svc := { state := match fd.svc.state with
               | .failed => .failed
               | .out | .testing | .ready | .inService | .drained | .parked => .out
             furrow := fd.svc.furrow.map (fun k => if k = 2 then 2 else 5) |>.orElse (fun _ => some 5)
             cold := fd.svc.cold, log2k := fd.svc.log2k, temp := fd.svc.temp, age := fd.svc.age, recs := fd.svc.recs, scrubUe := fd.svc.scrubUe
             stays := fd.svc.state == .out || fd.svc.state == .failed }
    master := { cap := fd.master.cap, groupCap := fd.master.groupCap, hedgeCap := fd.master.hedgeCap, estScale := fd.master.estScale
                maxGate := fd.master.maxGate, stepAfter := fd.master.stepAfter, autoReturn := fd.master.autoReturn }
    runTicks := fd.runTicks, cycles := fd.cycles, fcVersion := fd.fcVersion, fcDigest := fd.fcDigest, tileVersion := fd.tileVersion, tileDigest := fd.tileDigest }

/-- What a warm reset keeps of a port (R293, R371). -/
def Port.warm (p : Port) : Port := { ctrl := p.ctrl, timeout := p.timeout, routes := p.routes, partner := p.partner, fixedMap := p.fixedMap }

/-- What a warm reset keeps of the conductor: generations, the highest permitted point, the power group, and a warm-reset command that awaits its record. -/
def Conductor.warm (c : Conductor) : Conductor :=
  { gens := c.gens, highest := c.highest, reqOp := c.reqOp, group := c.group, groupCap := c.groupCap
    pend := c.pend.filter (fun p => (p.words.getD 0 0).toNat % 65536 == 0x0103) }

/-- Step 4 of a warm reset: controllers and the keep fields restart, keeping what R371 keeps. -/
def State.warmClear (s : State) : State :=
  let s := s.drainQueues
  let s := { s with
    fields := (upto 56).map (fun f => (f, (s.field f).warm (isKeep f)))
    ports := s.ports.mapVals (fun _ p => p.warm)
    mesh := {}, mb := { epoch := (s.mb.epoch + 1) % 65536 }
    cond := s.cond.warm }
  let s := s.modField 0 (fun fd => { fd with master := { fd.master with active := true } })
  [0, 7, 48, 55].foldl State.portWake s.rebootHosts

/-- A warm reset may be accepted: cold bring-up has completed, none is under way and no shutdown is (R369, R499). -/
def State.warmOk (s : State) : Bool := s.boot.complete && s.boot.kind == 0 && s.chassis.board && s.chassis.shutdown.isNone

/-- Step 1 of a warm reset (R370): ports go down, the tiles of compute fields halt. -/
def State.startWarm (s : State) : State :=
  let s := { s with boot := { s.boot with kind := 2, step := 0, wave := 0, waveAt := 0, stopAt := boundaryFrom (s.time + 4) } }
  let s := (upto 56).foldl State.portDown (s.bootTo 1)
  s.allTiles (fun _ tl => if tl.inService then { tl with core := { tl.core with halted := true } } else tl)

/-- WARM_RESET_INJECTION_STOP (R370): at S injection stops; 256 ticks later compute clocks stop, crossings park and rails go to retention, and the controllers restart. -/
def execWarmResetInjectionStop (s : State) : Out :=
  .next (if s.boot.kind = 2 ∧ s.boot.step = 1 ∧ s.boot.stopAt ≤ s.time then
      ({ s with mesh := { s.mesh with paused := true } }).bootTo 2
    else if s.boot.kind = 2 ∧ s.boot.step = 2 ∧ s.boot.stopAt + 256 ≤ s.time then
      let s := s.bootTo 3
      let s := (upto 56).foldl (fun s f => if isCompute f && (s.field f).running then s.parkCrossings f else s) s
      s.warmClear.bootTo 4
    else s)

end Sys2Proof.Machine
end

