-- ==== Sys2Proof/Machine/Mailbox.lean ====
section
/-! DEFINITION. The mailboxes: accesses to the block (R383 to R388), takes and their checks (R389, R393), records (R390), pending commands (R394 to R396), the heartbeat and takeover (R397 to R400). -/

namespace Sys2Proof.Machine

/-! ## Channels -/

/-- A channel's registers. -/
def State.chan (s : State) (c : Nat) : Chan := s.mb.chans.getD c {}

/-- Change a channel. -/
def State.modChan (s : State) (c : Nat) (g : Chan → Chan) : State :=
  { s with mb := { s.mb with chans := s.mb.chans.put c (g (s.chan c)) } }

/-- The secure channels MB40 to MB47 and MB56 to MB63. -/
def secureChan (c : Nat) : Bool := within 40 47 c || within 56 63 c

/-- Whether a spine port may access a channel: 0 to 3 the hosts, 4 Hedgerow (R385). -/
def mayAccess (sp : Nat) (secure : Bool) (c : Nat) : Bool :=
  if c < 40 then decide (sp < 4)
  else if c < 48 then decide (sp < 4) && secure
  else if c < 56 then sp == 4
  else decide (c < 64) && sp == 4 && secure

/-- An access that R385 refuses: counted, with event 0x0E82. -/
def State.mbViolation (s : State) (c sp : Nat) (write : Bool) : State :=
  ({ s with mb := { s.mb with violation := s.mb.violation + 1 } }).event srcConductor 0x0E82 [c, sp, b2n write]

/-- The spine grants a port's access; its next search begins after that port (R383). Accesses come in the order of their grants (log entry 5). -/
def State.spineGrant (s : State) (sp : Nat) : State := { s with mb := { s.mb with spine := (sp + 1) % 7 } }

/-- MB_MSG_WRITE (R386, R388): word w of channel c; while FULL the write stands and sets COLLISION. -/
def execMbMsgWrite (sp : Nat) (secure : Bool) (c w : Nat) (val : Word) (s : State) : Out :=
  let s := s.spineGrant sp
  .next (if mayAccess sp secure c then
      if w < 16 then s.modChan c (fun h => { h with msg := h.msg.put w val, collision := h.collision || h.full }) else s
    else s.mbViolation c sp true)

/-- MB_DOORBELL (R387, R388): a sequence number of 0 is ignored. -/
def execMbDoorbell (sp : Nat) (secure : Bool) (c : Nat) (val : Word) (s : State) : Out :=
  let seq := bits val 15 0
  let s := s.spineGrant sp
  .next (if mayAccess sp secure c then
      if seq = 0 then s else s.modChan c (fun h => { h with seq := seq, full := true, taken := false, collision := h.collision || h.full })
    else s.mbViolation c sp true)

/-! ## The catalogue (R402 to R413) -/

/-- A command of the catalogue: code, whether it needs a secure channel, argument words, whether it returns result words, and whether it may be run again after a takeover (no †). -/
structure CmdInfo where
  code : Nat
  secure : Bool
  args : Nat
  res : Bool
  redo : Bool := true
  deriving DecidableEq, Repr, Inhabited

/-- System, field and job commands (R402 to R404). -/
def catalogue1 : List CmdInfo := [
  ⟨0x0101, false, 0, true, true⟩, ⟨0x0102, false, 0, true, true⟩, ⟨0x0103, true, 0, false, true⟩, ⟨0x0104, true, 1, false, true⟩,
  ⟨0x0105, true, 0, false, true⟩, ⟨0x0106, false, 3, true, true⟩, ⟨0x0107, false, 0, true, true⟩,
  ⟨0x0201, false, 1, true, true⟩, ⟨0x0202, false, 1, true, true⟩, ⟨0x0203, false, 1, true, true⟩, ⟨0x0204, false, 2, true, true⟩,
  ⟨0x0205, false, 1, false, true⟩, ⟨0x0206, false, 2, true, true⟩, ⟨0x0207, true, 1, false, true⟩, ⟨0x0208, true, 1, false, true⟩,
  ⟨0x0209, true, 1, true, true⟩, ⟨0x020A, false, 2, false, true⟩, ⟨0x020B, false, 1, true, true⟩, ⟨0x020C, false, 1, true, false⟩,
  ⟨0x0301, false, 3, false, true⟩, ⟨0x0302, false, 4, true, true⟩, ⟨0x0303, false, 1, true, true⟩, ⟨0x0304, false, 1, false, true⟩,
  ⟨0x0305, false, 1, false, true⟩, ⟨0x0306, false, 1, true, true⟩, ⟨0x0307, false, 2, true, true⟩, ⟨0x0308, false, 4, true, true⟩,
  ⟨0x0309, false, 10, false, true⟩]

/-- Broker, sync debug, power and clock commands (R407 to R410). -/
def catalogue2 : List CmdInfo := [
  ⟨0x0401, false, 5, true, false⟩, ⟨0x0402, false, 2, false, false⟩, ⟨0x0403, true, 3, false, true⟩, ⟨0x0404, false, 5, false, true⟩,
  ⟨0x0405, false, 1, false, true⟩, ⟨0x0406, false, 2, true, true⟩,
  ⟨0x0501, true, 2, true, true⟩, ⟨0x0502, true, 5, true, false⟩, ⟨0x0503, true, 4, true, false⟩, ⟨0x0504, true, 3, true, true⟩,
  ⟨0x0505, true, 2, false, false⟩,
  ⟨0x0601, true, 1, false, true⟩, ⟨0x0602, true, 1, false, true⟩, ⟨0x0603, true, 2, false, true⟩, ⟨0x0604, false, 0, true, true⟩,
  ⟨0x0605, true, 3, true, true⟩, ⟨0x0606, true, 3, false, true⟩,
  ⟨0x0701, false, 3, true, true⟩, ⟨0x0702, true, 4, true, true⟩, ⟨0x0703, false, 0, true, true⟩]

/-- Port, firmware and map commands (R411 to R413). -/
def catalogue3 : List CmdInfo := [
  ⟨0x0801, false, 1, true, true⟩, ⟨0x0802, false, 1, false, true⟩, ⟨0x0803, false, 1, true, true⟩, ⟨0x0804, false, 2, false, true⟩,
  ⟨0x0805, false, 3, false, true⟩, ⟨0x0806, true, 3, false, true⟩, ⟨0x0807, false, 4, false, true⟩, ⟨0x0808, false, 1, false, true⟩,
  ⟨0x0809, false, 1, true, true⟩, ⟨0x080A, true, 1, false, true⟩,
  ⟨0x0901, false, 0, true, true⟩, ⟨0x0902, true, 3, true, true⟩,
  ⟨0x0A01, false, 3, true, true⟩, ⟨0x0A02, false, 4, true, true⟩, ⟨0x0A03, false, 2, true, true⟩]

/-- The catalogue's entry of a code. -/
def cmdInfo (code : Nat) : Option CmdInfo := (catalogue1 ++ catalogue2 ++ catalogue3).find? (fun i => i.code == code)

/-! ## Messages and return codes (R386, R392) -/

def rcOk : Nat := 0x0000
def rcPending : Nat := 0x0001
def rcPendingEnable : Nat := 0x0002
def rcBusy : Nat := 0x8001
def rcBadCommand : Nat := 0x8002
def rcBadArgument : Nat := 0x8003
def rcNotPermitted : Nat := 0x8004
def rcCollisionSeen : Nat := 0x8005
def rcStateConflict : Nat := 0x8006
def rcNotPresent : Nat := 0x8007
def rcTimeout : Nat := 0x8008
def rcImageRejected : Nat := 0x8009
def rcNoResource : Nat := 0x800A
def rcInterrupted : Nat := 0x800B
def rcNotReady : Nat := 0x800C
def rcSuperseded : Nat := 0x800D
def rcRefused : Nat := 0x800E

/-- Word i of a message, as a number. -/
def msgWord (m : List Word) (i : Nat) : Nat := (m.getD i 0).toNat

/-- Command code, the rec flag and the argument count of a message. -/
def msgCode (m : List Word) : Nat := msgWord m 0 % 65536
def msgRec (m : List Word) : Bool := nbit (msgWord m 0) 16

/-- An address in two words, low word first (R401). -/
def msgAddr (m : List Word) (i : Nat) : Nat := msgWord m i + msgWord m (i + 1) % 4096 * 2 ^ 32

/-- A position argument (R401). -/
def msgPos (w : Nat) : TileId := ⟨nbits w 9 0, nbits w 19 10⟩

/-- The form of a message (R386, R390, R393 step 3). -/
def msgFormOk (m : List Word) (c : Nat) (i : CmdInfo) : Bool :=
  let w0 := msgWord m 0
  let rec_ := msgRec m
  nbits w0 23 17 == 0 && nbits w0 31 24 == i.args && (!i.res || rec_) &&
    (upto (12 - i.args)).all (fun k => msgWord m (2 + i.args + k) == 0) &&
    (if rec_ && decide (c < 48) then
      decide (msgWord m 15 < 4096) && msgWord m 14 % 64 == 0 && (hostByte (msgAddr m 14)).isSome
    else msgWord m 14 == 0 && msgWord m 15 == 0)

/-- Commands accepted before the engine is ready (R393 step 4): queries, SYS_IDENTIFY, SYS_STATUS and SYS_PING, port commands from step 6 on; a warm-reset request is refused by its own rule (R369). -/
def State.readyFor (s : State) (code : Nat) : Bool :=
  (s.boot.complete && s.boot.kind == 0) ||
    [0x0101, 0x0102, 0x0103, 0x0107, 0x020B, 0x0306, 0x0604, 0x0703, 0x0809, 0x0901].contains code ||
    (code / 256 == 8 && decide (6 ≤ s.boot.step))

/-- The first of checks 1 to 4 of R393 that a message fails, and whether a record may be written for it. -/
def State.earlyCheck (s : State) (m : List Word) (c : Nat) : Option (Nat × Bool) :=
  match cmdInfo (msgCode m) with
  | none => some (rcBadCommand, false)
  | some i =>
    if i.secure && !secureChan c then some (rcNotPermitted, false)
    else if !msgFormOk m c i then some (rcBadArgument, false)
    else if !s.readyFor i.code then some (rcNotReady, true)
    else none

/-! ## Records and acknowledgements (R387, R390) -/

/-- A completion record (R390). -/
def doneBytes (m : List Word) (c seq result epoch : Nat) (words : List Word) : List Byte :=
  natLe 2 (msgCode m) ++ natLe 2 result ++ natLe 4 (msgWord m 1) ++ natLe 2 seq ++ natLe 1 c ++ [0] ++ natLe 2 epoch ++ [0, 1] ++
    bytesOf ((words ++ List.replicate 12 0).take 12)

/-- Write a command's record where its message asks for one. -/
def State.writeRecord (s : State) (m : List Word) (c seq result : Nat) (words : List Word) : State :=
  if !msgRec m then s
  else
    let bs := doneBytes m c seq result s.mb.epoch words
    if c < 48 then
      match hostByte (msgAddr m 14) with
      | some (j, a) => s.hostPut j a bs
      | none => s
    else s.modChan c (fun h => { h with done := wordsOf 16 bs })

/-- A resident loader that polls a secure channel for its own message returns the code it reads (R391, R430). -/
def State.sbiReturn (s : State) (c seq code : Nat) : State :=
  let k := (c - 40) / 2
  if within 40 47 c && (s.host k).sbiWait == some (c, seq) then s.modHost k (fun h => { h with sbi := some code, sbiWait := none }) else s

/-- Acknowledge a taken message; the journal then reads idle, pending or pending enable. -/
def State.ack (s : State) (c seq code : Nat) : State :=
  let s := s.sbiReturn c seq code
  let j := if code = rcPending then 2 else if code = rcPendingEnable then 3 else 0
  let s := s.modChan c (fun h => { h with ackSeq := seq, ackCode := code, jState := j, jStep := 0, jSeq := seq, buf := none })
  { s with cond := { s.cond with order := s.cond.order.filter (fun d => !(d == c)) } }

/-- End a command at its take: its record, then its acknowledgement. -/
def State.answer (s : State) (c : Nat) (k : Taken) (code : Nat) (words : List Word) : State :=
  (s.writeRecord k.words c k.seq code words).ack c k.seq code

/-! ## The take (R387, R389) -/

/-- Channels of a pass in the order of its search, from a pointer on. -/
def passOrder (secure : Bool) (ptr : Nat) : List Nat :=
  let cs := (upto 64).filter (fun c => secureChan c == secure)
  cs.filter (fun c => decide (ptr ≤ c)) ++ cs.filter (fun c => decide (c < ptr))

/-- Take one channel: the message is latched and checked; what passes waits for its command to run, in take order. -/
def State.take (s : State) (c : Nat) : State :=
  let h := s.chan c
  if !(h.full && h.buf.isNone) then s
  else
    let k : Taken := { words := (upto 16).map (fun i => h.msg.getD i 0), seq := h.seq, collision := h.collision, at_ := s.time }
    let s := (s.spineGrant (if s.mb.activeKf = 0 then 5 else 6)).modChan c (fun h => { h with full := false, collision := false, taken := true, jState := 1, jStep := 0, jSeq := k.seq, buf := some k })
    let s := { s with cond := if secureChan c then { s.cond with ptrS := c + 1 } else { s.cond with ptrN := c + 1 } }
    if k.collision then
      let s := { s with mb := { s.mb with collisions := s.mb.collisions + 1 } }
      (s.event srcConductor 0x0E81 [c, k.seq]).ack c k.seq rcCollisionSeen
    else
      match s.earlyCheck k.words c with
      | some (code, rec_) => if rec_ then s.answer c k code [] else s.ack c k.seq code
      | none => { s with cond := { s.cond with order := s.cond.order ++ [c] } }

/-- MAILBOX_POLL (R389): the secure channels, then the rest; not before H + 2,500 of a takeover, whose event is written then (R398). -/
def execMailboxPoll (s : State) : Out :=
  let due := match s.cond.takeover with
    | some h => decide (h + 2500 ≤ s.time)
    | none => true
  .next (if s.mb.running && due && !s.cond.handover then
      let s := if s.cond.takeover.isSome then
          ({ s with cond := { s.cond with takeover := none, takeNote := [] } }).event srcConductor 0x0E83 s.cond.takeNote
        else s
      let s := (passOrder true s.cond.ptrS).foldl State.take s
      (passOrder false s.cond.ptrN).foldl State.take s
    else s)

/-! ## Running a taken command -/

/-- What a command does once steps 1 to 4 are passed: refused with a code and the words of its record, done at once, long with its outcome where that is known already, or deferred behind a shutdown (R395). -/
inductive CmdOut where
  | refuse (code : Nat) (words : List Word)
  | done (words : List Word) (s : State)
  | long (outcome : Option Nat) (words : List Word) (s : State)
  | defer (s : State)
  deriving DecidableEq, Repr, Inhabited

/-- Room for one more pending command (R389). -/
def State.pendRoom (s : State) (c : Nat) : Bool :=
  decide (s.cond.pend.length < 64) && decide ((s.cond.pend.filter (fun p => p.chan == c)).length < 8)

/-- Hold a long command until its record is posted. -/
def State.addPend (s : State) (p : PendCmd) : State := { s with cond := { s.cond with pend := s.cond.pend ++ [p] } }

/-- Acknowledge a command by what it did. -/
def State.settle (s : State) (c : Nat) (k : Taken) (o : CmdOut) : State :=
  match o with
  | .refuse code words => s.answer c k code words
  | .done words s' => s'.answer c k rcOk words
  | .long outcome words s' =>
    if s.pendRoom c then
      (s'.addPend { chan := c, seq := k.seq, words := k.words, since := s.time, outcome := outcome, results := words }).ack c k.seq rcPending
    else s.answer c k rcBusy []
  | .defer s' =>
    if s.pendRoom c then
      (s'.addPend { chan := c, seq := k.seq, words := k.words, since := s.time, waiting := true }).ack c k.seq rcPendingEnable
    else s.answer c k rcBusy []

/-- Run the command of a code that channel c's taken message carries, in take order (R393); where no such message stands first, nothing happens. -/
def State.command (s : State) (c code : Nat) (act : List Word → State → CmdOut) : Out :=
  .next (match (s.chan c).buf with
    | some k =>
      if s.mb.running ∧ s.cond.order.head? = some c ∧ msgCode k.words = code then s.settle c k (act k.words s) else s
    | none => s)

/-! ## Pending commands -/

/-- The function a command enables or shuts down (R395): 1 a port, 2 a field's clock, 3 a job, 4 the monitor-steered mode. -/
def funcKey (m : List Word) : Option (Nat × Nat) :=
  let c := msgCode m
  if c = 0x0801 ∨ c = 0x0802 then some (1, msgWord m 2)
  else if c = 0x020A ∧ msgWord m 3 ≤ 1 then some (2, msgWord m 2)
  else if c = 0x0303 ∨ c = 0x0304 then some (3, msgWord m 2)
  else if c = 0x0702 then some (4, 0)
  else none

/-- Post a pending command's record and forget it (R390). -/
def State.endCmd (s : State) (p : PendCmd) (code : Nat) (words : List Word) : State :=
  let s := s.writeRecord p.words p.chan p.seq code words
  let s := { s with cond := { s.cond with pend := s.cond.pend.filter (fun q => !(q.chan == p.chan && q.seq == p.seq)) } }
  s.modChan p.chan (fun h => if h.jSeq = p.seq ∧ 2 ≤ h.jState then { h with jState := 0 } else h)

/-- The enables that wait behind a function's shutdown post SUPERSEDED (R396). -/
def State.supersede (s : State) (key : Nat × Nat) : State :=
  (s.cond.pend.filter (fun p => p.waiting && funcKey p.words == some key)).foldl (fun s p => s.endCmd p rcSuperseded []) s

/-- A pending command by channel and sequence number. -/
def State.findCmd (s : State) (c seq : Nat) : Option PendCmd := s.cond.pend.find? (fun p => p.chan == c && p.seq == seq)

/-- The time limit of a long command, in ticks (R394). -/
def cmdLimit (m : List Word) : Nat :=
  let c := msgCode m
  let perBytes (n : Nat) : Nat := max 1 (cdiv n (2 ^ 28)) * tickHz
  if (c = 0x0206 ∧ msgWord m 3 = 2) ∨ c = 0x0204 then 240 * tickHz
  else if c = 0x0103 then 20 * tickHz
  else if c = 0x0902 then 600 * tickHz
  else if c = 0x0302 then perBytes (msgWord m 5)
  else if c = 0x0A02 then perBytes (64 + 384 * msgWord m 3)
  else if c = 0x0A03 then 10 * tickHz
  else if c = 0x0401 ∨ c = 0x0406 then tickHz / 100
  else tickHz

/-- COMMAND_TIMEOUT (R394). -/
def execCommandTimeout (c seq : Nat) (s : State) : Out :=
  .next (match s.findCmd c seq with
    | some p =>
      if s.mb.running = true ∧ p.waiting = false ∧ p.since + cmdLimit p.words ≤ s.time then
        let s := (s.event srcConductor 0x0E85 [c, msgCode p.words, p.step]).endCmd p rcTimeout p.results
        { s with cond := { s.cond with reqs := s.cond.reqs.filter (fun r => !(r.chan == c && r.seq == seq)) } }
      else s
    | none => s)

/-! ## The role (R381, R389, R397 to R400) -/

/-- CONDUCTOR_BEAT (R397): a beat ends a silence (R24). -/
def execConductorBeat (s : State) : Out :=
  .next (if s.mb.running ∧ (s.mb.beatAt + 250 ≤ s.time ∨ s.mb.beatAt = 0) then
      { s with mb := { s.mb with beat := BitVec.ofNat 32 s.time, beatAt := s.time }, cond := { s.cond with silent := none } }
    else s)

/-- Take the conductor's role: the epoch advances and the take pointers stand at MB40 and MB00 (R384, R389). -/
def State.takeRole (s : State) (kf : Nat) : State :=
  { s with
    mb := { s.mb with activeKf := if kf = 0 then 0 else 1, running := true, epoch := (s.mb.epoch + 1) % 65536, beat := BitVec.ofNat 32 s.time, beatAt := s.time }
    cond := { s.cond with ptrS := 40, ptrN := 0, silent := none, silentSeen := false } }

/-- CONDUCTOR_BOOT (R381, R389): a pair finishes booting; the first takes the role and publishes the map of bring-up, the other starts a copy as the standby. -/
def execConductorBoot (kf : Nat) (s : State) : Out :=
  .next (if (kf = 0 ∨ kf = 55) ∧ (s.field kf).running = true ∧ s.cond.up.contains kf = false then
      let s := { s with cond := { s.cond with up := s.cond.up ++ [kf], versions := s.cond.versions.put kf (s.flash.regions.getD 2 {}).version } }
      if s.mb.running then { s with cond := { s.cond with rebuilding := true } }
      else if kf = 0 ∨ (s.field 0).running = false then
        let s := s.takeRole kf
        let s := if s.boot.kind = 1 ∧ s.boot.step = 3 then s.bootTo 4 else if s.boot.kind = 2 ∧ s.boot.step = 4 then s.bootTo 5 else s
        let s := if s.mesh.next.isNone && !s.mesh.paused then s.publishMap (boundaryFrom (s.time + 256))
          else { s with cond := { s.cond with wantMap := true } }
        if s.cond.up.length = 2 then { s with cond := { s.cond with rebuilding := true } } else s
      else s
    else s)

/-- STANDBY_REBUILD_DONE (R400). -/
def execStandbyRebuildDone (s : State) : Out :=
  .next (if s.mb.running = true ∧ s.cond.rebuilding = true ∧ s.cond.up.length = 2 then
      { s with mb := { s.mb with standbyReady := true }, cond := { s.cond with rebuilding := false } }
    else s)

/-- Commands of these classes go on after a takeover from their journal step: field, job, port, firmware and map commands and the warm reset (R399). -/
def continues (code : Nat) : Bool := [2, 3, 8, 9, 10].contains (code / 256) || code == 0x0103

/-- Settle one channel's taken message (R399): one that cannot be run again is interrupted. -/
def State.settleTaken (s : State) (c : Nat) : State × Nat :=
  match (s.chan c).buf with
  | some k =>
    match cmdInfo (msgCode k.words) with
    | some i => if i.redo then (s, 0) else ((s.answer c k rcInterrupted []).event srcConductor 0x0E86 [c, i.code, k.seq], 1)
    | none => (s, 0)
  | none => (s, 0)

/-- Settle one pending command (R399); a planned handover's own command ends with OK (R402). -/
def State.settlePend (s : State) (planned : Bool) (p : PendCmd) : State × Nat :=
  let code := msgCode p.words
  if code = 0x0105 ∧ planned = true then (s.endCmd p rcOk [], 0)
  else if continues code then (s, 0)
  else ((s.endCmd p rcInterrupted p.results).event srcConductor 0x0E86 [p.chan, code, p.seq], 1)

/-- The takeover at H (R398, R399): role and epoch, journals settled, and the old pair restarts as the standby where its keep field is in service (R400). cause: 1 heartbeat, 2 keep field, 3 planned. -/
def State.takeOver (s : State) (old new cause : Nat) : State :=
  let planned := cause == 3
  let s := s.takeRole new
  let a := (upto 64).foldl (fun p c => let q := p.1.settleTaken c; (q.1, p.2 + q.2)) (s, 0)
  let b := a.1.cond.pend.foldl (fun p c => let q := p.1.settlePend planned c; (q.1, p.2 + q.2)) (a.1, a.2)
  let alive := (s.field old).running
  let s := { b.1 with
    mb := { b.1.mb with standbyReady := false }
    cond := { b.1.cond with
      takeover := some s.time, takeNote := [old, new, cause, s.mb.epoch, b.2], handover := false, rebuilding := alive, reqs := []
      up := if alive then b.1.cond.up else b.1.cond.up.filter (fun k => !(k == old)) } }
  if alive then s else s.event srcConductor 0x0E84 [old, (s.field old).pwr.cause]

/-- CONDUCTOR_TAKEOVER (R397): a heartbeat 750 ticks behind, the active pair's keep field out of service, or a handover that is due; never without standby_ready. -/
def execConductorTakeover (s : State) : Out :=
  let old := if s.mb.activeKf = 0 then 0 else 55
  let new := if s.mb.activeKf = 0 then 55 else 0
  let ready := s.mb.standbyReady && (s.field new).running
  .next (if !ready then s
    else if !(s.field old).running then s.takeOver old new 2
    else if s.mb.beatAt + 750 ≤ s.time then s.takeOver old new 1
    else if s.cond.handover then s.takeOver old new 3
    else s)

end Sys2Proof.Machine
end

