-- ==== Sys2Proof/Machine/FabricControl.lean ====
section
/-! DEFINITION. What conductors of different engines send one another: power notes and the group cap (R344, R345), and broker messages (R407); and VC0 replies (R175). -/

namespace Sys2Proof.Machine

/-- Take a conductor's fibre VC0 CTRL_WRITE out of the mesh, where it still travels. -/
def State.takeCtrl (s : State) (bytes : List Byte) : State :=
  { s with mesh := { s.mesh with flight := (
      let mine (x : Flight) : Bool := x.pkt.h.dst == .conductor && (match x.pkt.body with
        | .ctrlWrite _ d => d == bytes
        | _ => false)
      let (a, b) := s.mesh.flight.span (fun x => !mine x)
      a ++ b.drop 1) } }

/-- CTRL_REPLY (R175): a VC0 answer reaches the field controller or conductor that asked. -/
def execCtrlReply (h : Hdr) (re status : Nat) (data : List Byte) (s : State) : Out :=
  .next (s.landing { h := h, body := .ctrlReply re status data } id)

/-! ## Power notes (R344, R345) -/

/-- The 48 bytes of a power note (R344). -/
def noteBytes (n : PowerNote) : List Byte :=
  natLe 2 0x4E50 ++ natLe 1 1 ++ natLe 1 n.hopsLeft ++ natLe 2 n.origin ++ natLe 2 n.group ++ natLe 4 n.seq ++ natLe 4 n.estimate ++
    natLe 4 n.capEff ++ natLe 2 n.thatching ++ [0, 0] ++ natLe 8 n.time ++ List.replicate 16 0

/-- Ports that are UP. -/
def State.upPorts (s : State) : List Nat := (upto 56).filter (fun p => (s.port p).state == 4)

/-- Send a note to the partner of a port. -/
def State.sendNote (s : State) (n : PowerNote) (p : Nat) : State :=
  let f : Far := { s.farTo (s.port p).partnerWafer .conductor with hops := [0xFE], idx := 1 }
  s.enqueue p { h := { src := .conductor, dst := .dock p 0, dstGen := 0, tag := 0, far := some f }, body := .ctrlWrite 0 (noteBytes n) }

/-- The mean of the master's totals over the last 1,024 ticks, W. -/
def State.meanPower (s : State) : Rat :=
  let m := s.master (s.masterField.getD 0)
  let ts := m.totals.filter (fun e => decide (s.time < e.1 + 1024))
  if ts.isEmpty then m.total else (total (ts.map (fun e => e.2)) : Rat) / ts.length

/-- PWR_GROUP_CAP as R345 gives it, written into both masters; event 0x0B8F marks a change. -/
def State.groupCap (s : State) : State :=
  let own := s.meanPower
  let all : Rat := own + (total (s.cond.notes.map (fun e => e.1.estimate)) : Nat)
  let r := if s.cond.groupCap = 0 ∨ all ≤ s.cond.groupCap then (0, s) else s.roundFree (own * s.cond.groupCap / all)
  let v := if r.1 = 0 ∧ (s.cond.groupCap = 0 ∨ all ≤ s.cond.groupCap) then 0 else max 10000 r.1
  let s := r.2
  let old := (s.master (s.masterField.getD 0)).groupCap
  if old = v then s else (s.bothMasters (fun m => { m with groupCap := min 65535 v })).event srcConductor 0x0B8F [s.cond.group, old, v]

/-- POWER_NOTE_SEND (R344): each 1,024 ticks, to every UP partner, with 8 hops to go (log entry 27); the group cap is formed again. -/
def execPowerNoteSend (s : State) : Out :=
  .next (if s.mb.running && !(s.waferId == 0xFFFF) && !(s.cond.group == 0) && decide (s.cond.noteAt + 1024 ≤ s.time) then
      let e := s.roundFree s.meanPower
      let ts := (e.2.tileList.filter (fun t => (e.2.tile t).inService))
      let n := ts.length
      let k := (ts.filter (fun t => (e.2.tile t).act.running)).length
      let th := if n = 0 then (0, e.2) else e.2.roundFree ((65536 * k : Nat) / (n : Rat))
      let s := th.2
      let note : PowerNote :=
        { hopsLeft := 8, origin := s.waferId, group := s.cond.group, seq := s.cond.noteSeq, estimate := e.1, capEff := s.capNow
          thatching := min 65535 th.1, time := s.time }
      let s := s.upPorts.foldl (State.sendNote · note) { s with cond := { s.cond with noteSeq := wrapAdd 32 s.cond.noteSeq 1, noteAt := s.time } }
      s.groupCap
    else s)

/-- POWER_NOTE (R344): recorded where it is newer than the last of its origin, forwarded on the other UP ports while hops are left, and the group cap formed again. -/
def execPowerNote (p : Nat) (n : PowerNote) (s : State) : Out :=
  let s := s.takeCtrl (noteBytes n)
  let last := s.cond.notes.find? (fun e => e.1.origin == n.origin)
  let newer := match last with
    | some e => within 1 0x7FFFFFFF ((n.seq + 2 ^ 32 - e.1.seq % 2 ^ 32) % 2 ^ 32)
    | none => decide (s.cond.notes.length < 256)
  .next (if s.mb.running && n.group == s.cond.group && !(n.group == 0) && !(n.origin == s.waferId) && newer then
      let s := { s with cond := { s.cond with notes := s.cond.notes.filter (fun (e : PowerNote × Nat) => !(e.1.origin == n.origin)) ++ [(n, s.time)] } }
      let s := if n.hopsLeft = 0 then s
        else (s.upPorts.filter (fun q => !(q == p))).foldl (State.sendNote · { n with hopsLeft := n.hopsLeft - 1 }) s
      s.groupCap
    else s)

/-- POWER_NOTE_EXPIRY (R344). -/
def execPowerNoteExpiry (s : State) : Out :=
  .next (if s.mb.running then
      ({ s with cond := { s.cond with notes := s.cond.notes.filter (fun (e : PowerNote × Nat) => decide (s.time < e.2 + 4096)) } }).groupCap
    else s)

/-! ## The broker (R407) -/

/-- The far wafer's policy admits an origin (R137 check 2, R407). -/
def State.admitsWafer (s : State) (w : Nat) : Bool := Nat.land w s.cond.polMask == Nat.land s.cond.polSrc s.cond.polMask

/-- A reply to a broker request. -/
def State.brokerReply (s : State) (m : BrokerMsg) (b : BrokerBody) : State :=
  s.sendBroker { origin := s.waferId, target := m.origin, request := m.request, body := b }

/-- Refuse a broker request with a code, and event 0x0E87. -/
def State.brokerRefuse (s : State) (m : BrokerMsg) (code : Nat) : State :=
  let s := s.event srcConductor 0x0E87 [m.origin, brokerOp m.body, code]
  match m.body with
  | .lookupRequest _ => s.brokerReply m (.lookupReply code ⟨0, 0⟩ 0 0 0)
  | .connectRequest .. | .connectReply .. | .close .. | .lookupReply .. => s.brokerReply m (.connectReply code 0 0 0 0 0 0 0 0)

/-- A generation of a proxy advances, and is never 0 (R289). -/
def nextGen (g : Nat) : Nat := if 65535 ≤ g then 1 else g + 1

/-- BROKER_CONNECT_REQUEST (R407): policy, the far tile and queue, a free proxy at the arrival dock; then the OPEN goes from the proxy. -/
def execBrokerConnectRequest (p : Nat) (m : BrokerMsg) (s : State) : Out :=
  let s := s.takeCtrl (brokerBytes m)
  .next (match m.body with
    | .connectRequest far q cr org ctx =>
      let v := s.port p
      if !s.mb.running then s
      else if !s.admitsWafer m.origin then s.brokerRefuse m rcNotPermitted
      else if !onArray far || !((s.tile far).st == .admitted) then s.brokerRefuse m rcNotPresent
      else if !(((s.tile far).queue q).state == 1) then s.brokerRefuse m rcRefused
      else
        match firstBelow 128 (fun i => !(v.proxies.getD i {}).valid) with
        | some i =>
          if s.cond.polMax ≤ (v.proxies.filter (fun e => e.2.valid)).length then s.brokerRefuse m rcNoResource
          else
            let g := nextGen (v.proxies.getD i {}).gen
            let y : Proxy := { valid := true, wafer := m.origin, tile := org, ctx := ctx, gen := g, peer := far, peerGen := 0 }
            let s := s.setPort p { v with proxies := v.proxies.put i y }
            let s := { s with cond := { s.cond with serves := s.cond.serves ++ [({ port := p, proxy := i, origin := m.origin, request := m.request } : BrokerServe)] } }
            s.send { h := { src := .dock p (i / 16), dst := .tile far, dstGen := 0, tag := 0 }
                     body := .openReq { ctx := i % 16, queue := q, credits := cr, gen := g } }
        | none => s.brokerRefuse m rcNoResource
    | .connectReply .. | .close .. | .lookupRequest .. | .lookupReply .. => s)

/-- End the command that a broker exchange belongs to, with its outcome and words. -/
def State.brokerEnd (s : State) (r : BrokerReq) (code : Nat) (words : List Word) : State :=
  { s with cond := { s.cond with
    reqs := s.cond.reqs.filter (fun q => !(q.id == r.id))
    pend := s.cond.pend.map (fun p => if p.chan = r.chan ∧ p.seq = r.seq then { p with outcome := some code, results := words } else p) } }

/-- The exchange an arriving reply belongs to. -/
def State.brokerReq (s : State) (m : BrokerMsg) : Option BrokerReq := s.cond.reqs.find? (fun r => r.id == m.request && r.wafer == m.origin)

/-- BROKER_CONNECT_REPLY (R407, R235): the local context is written OPEN with the grant, the proxy its peer; one that is no longer IDLE gives STATE_CONFLICT, and the proxy is closed. -/
def execBrokerConnectReply (_p : Nat) (m : BrokerMsg) (s : State) : Out :=
  let s := s.takeCtrl (brokerBytes m)
  .next (match m.body, s.brokerReq m with
    | .connectReply st pg q inc cr k op mx _, some r =>
      if !s.mb.running then s
      else if !(st == 0) then s.brokerEnd r st []
      else if !(((s.tile r.tile).ctx r.ctx).state == 0) || !(s.tile r.tile).inService then
        (s.brokerEnd r rcStateConflict []).sendBroker { origin := s.waferId, target := m.origin, request := m.request, body := .close pg q }
      else
        let x : Ctx := { state := 2, remote := true, kind := k, op := op, maxSize := mx, credits := cr, granted := cr, peer := r.far, queue := r.queue
                         qinc := inc, peerGen := pg, wafer := r.wafer, proxy := q }
        (s.modTile r.tile (fun tl => tl.setCtx r.ctx x)).brokerEnd r rcOk [BitVec.ofNat 32 cr, word [(k, 0), (op, 2), (mx, 4)], word [(q, 0), (pg, 16)]]
    | _, _ => s)

/-- BROKER_CLOSE_MESSAGE (R407): the far conductor frees the proxy the message names by its generation. -/
def execBrokerCloseMessage (p : Nat) (m : BrokerMsg) (s : State) : Out :=
  let s := s.takeCtrl (brokerBytes m)
  .next (match m.body with
    | .close g q =>
      let y := (s.port p).proxies.getD q {}
      if s.mb.running && y.valid && y.wafer == m.origin && y.gen == g then
        s.modPort p (fun v => { v with proxies := v.proxies.put q { y with valid := false } })
      else s
    | .connectRequest .. | .connectReply .. | .lookupRequest .. | .lookupReply .. => s)

/-- BROKER_LOOKUP_REQUEST (R407): a published window, to a wafer the policy admits. -/
def execBrokerLookupRequest (_p : Nat) (m : BrokerMsg) (s : State) : Out :=
  let s := s.takeCtrl (brokerBytes m)
  .next (match m.body with
    | .lookupRequest n =>
      if !s.mb.running then s
      else if !s.admitsWafer m.origin then s.brokerRefuse m rcNotPermitted
      else
        match s.cond.dir.find? (fun w => w.name == n) with
        | some w => s.brokerReply m (.lookupReply 0 w.pos w.window w.key w.length)
        | none => s.brokerRefuse m rcNotPresent
    | .connectRequest .. | .connectReply .. | .close .. | .lookupReply .. => s)

/-- BROKER_LOOKUP_REPLY (R407). -/
def execBrokerLookupReply (_p : Nat) (m : BrokerMsg) (s : State) : Out :=
  let s := s.takeCtrl (brokerBytes m)
  .next (match m.body, s.brokerReq m with
    | .lookupReply st pos w k len, some r =>
      if !s.mb.running then s
      else if !(st == 0) then s.brokerEnd r st []
      else s.brokerEnd r rcOk [BitVec.ofNat 32 (tileDetail pos), BitVec.ofNat 32 w, BitVec.ofNat 32 k, BitVec.ofNat 32 len]
    | _, _ => s)

end Sys2Proof.Machine
end

