-- ==== Sys2Proof/Machine/FaultLog.lean ====
section
/-! DEFINITION. Halted tiles as their field controller and the conductor see them: HALT_VEC, the fault log and its readers (R481 to R484). -/

namespace Sys2Proof.Machine

/-- Local tiles of a field that are HALTED, in ascending order (R481). -/
def State.haltedIn (s : State) (f : Nat) : List Nat := ((s.tilesOf f).filter (fun t => (s.tile t).st == .halted)).map localIdx

/-- The log entry of a tile (R482, R484). -/
def State.fltEntry (s : State) (t : TileId) (e : Nat) : FltEntry :=
  let tl := s.tile t
  { fault := s.tileReg t 0x10, tile := t, gen := tl.gen, info0 := tl.fault.info0, info1 := tl.fault.info1, pc := tl.fault.pc, time := e }

/-- Add an entry to a log of 64; a full one sets overflow (R482). -/
def FieldFlt.push (l : FieldFlt) (e : FltEntry) : FieldFlt :=
  if 64 ≤ l.count then { l with overflow := true }
  else { l with entries := l.entries.put l.next e, next := (l.next + 1) % 64, count := l.count + 1 }

/-- A tile is taken: its log entry, event 0x0E88 where the log is full, and its Scarab record (R482). -/
def State.takeHalt (s : State) (f e : Nat) (i : Nat) : State :=
  let t : TileId := ⟨f % 8 * 100 + i % 100, f / 8 * 120 + i / 100⟩
  let k := (s.tile t).fault
  let full := decide (64 ≤ (s.field f).flt.count)
  let s := s.modField f (fun fd => { fd with flt := fd.flt.push (s.fltEntry t e) })
  let s := if full then s.event f 0x0E88 [tileDetail t, k.code] else s
  s.event (srcTileNo t) k.code [k.info0.toNat, k.info1.toNat, k.pc.toNat, k.unit, (s.tile t).gen]

/-- HALT_SCAN (R481): at E + 20 HALT_VEC holds; at most 64 newly set bits are taken, in ascending order. -/
def execHaltScan (f : Nat) (s : State) : Out :=
  let l := (s.field f).flt
  let e := s.time / 100
  .next (if decide (f < 56) && (s.field f).running && decide (l.epoch < e) && decide (20 ≤ s.time % 100) then
      let hv := s.haltedIn f
      let old := l.taken.filter (fun i => hv.contains i)
      let new := (hv.filter (fun i => !old.contains i)).take 64
      let s := new.foldl (State.takeHalt · f (100 * e)) s
      s.modField f (fun fd => { fd with flt := { fd.flt with haltVec := hv, taken := old ++ new, epoch := e } })
    else s)

/-- Free the entries from the old tail up to a new one; a tail beyond the unread entries frees them all (log entry 24). -/
def FieldFlt.freeTo (l : FieldFlt) (tail : Nat) : FieldFlt :=
  let n := (tail % 64 + 64 - l.tail) % 64
  if n ≤ l.count then { l with tail := tail % 64, count := l.count - n } else { l with tail := l.next, count := 0 }

/-- The unread entries, oldest first. -/
def FieldFlt.unread (l : FieldFlt) : List FltEntry := (upto l.count).filterMap (fun i => l.entries.find ((l.tail + i) % 64))

/-- FAULT_LOG_POLL (R483): the active conductor reads every log and frees what it read. -/
def execFaultLogPoll (s : State) : Out :=
  .next (if s.mb.running then
      let seen := (upto 56).flatMap (fun f => (s.field f).flt.unread.map (fun e => e.tile))
      let s := (upto 56).foldl (fun s f =>
        if (s.field f).flt.count = 0 then s
        else s.modField f (fun fd => { fd with flt := { fd.flt with tail := fd.flt.next, count := 0 } })) s
      { s with cond := { s.cond with halted := s.cond.halted ++ seen.filter (fun t => !s.cond.halted.contains t), pollAt := s.time } }
    else s)

/-- FLT_READ (R484): the conductor's write of a new tail. -/
def execFltRead (f tail : Nat) (s : State) : Out :=
  .next (if f < 56 then s.modField f (fun fd => { fd with flt := fd.flt.freeTo tail }) else s)

end Sys2Proof.Machine
end

