-- ==== Sys2Proof/Machine/MemoryUpkeep.lean ====
section
/-! DEFINITION. Refresh, derating and patrol scrub (R120 to R124), and writes to global cell records (R258, R261). -/

namespace Sys2Proof.Machine

/-- Refresh interval of a code in ticks (R120). -/
def refreshTicks (code : Nat) : Nat := if code = 1 then 6400000 else if code = 2 then 25000000 else 1600000

/-- The interval of a tile's row: its group's code, or 64 ms while the field is derated or on its fallback oscillator (R120, R295). -/
def Field.rowInterval (fd : Field) (t : TileId) (row : Nat) : Nat :=
  if fd.mem.derated || fd.clk.fallback then 1600000
  else
    let g := row / 16
    refreshTicks (bits (fd.mem.profiles.getD (localIdx t) 0) (2 * g + 1) (2 * g))


/-- Refresh and scrub stop during a profiling pause (R365). -/
def Field.profiling (fd : Field) : Bool := fd.svc.phase == 9 || fd.svc.phase == 10

/-- ROW_REFRESH (R121): a row whose interval has passed since its last refresh is refreshed. -/
def execRowRefresh (t : TileId) (row : Nat) (s : State) : Out :=
  let fd := s.field (fieldOf t)
  let key := localIdx t * 256 + row
  .next (if decide (row < 256) && fd.memoryUp && !fd.profiling && decide (fd.mem.refreshed.getD key 0 + fd.rowInterval t row ≤ s.time) then
      s.setField (fieldOf t) { fd with mem := { fd.mem with refreshed := fd.mem.refreshed.put key s.time } }
    else s)

/-- An upset strikes a word: an error of one bit can be corrected; a second one in the word, or one of more bits, cannot (R117). -/
def TileMem.upset (m : TileMem) (w : Nat) (many : Bool) : TileMem :=
  if many || m.ce.contains w then { m with ue := insertNat m.ue w, ce := m.ce.filter (fun x => !(x == w)) }
  else if m.ue.contains w then m else { m with ce := insertNat m.ce w }

/-- An upset strikes a tile's memory. -/
def State.upset (s : State) (e : ScrubErr) : State :=
  let w := e.off / 8 * 8
  if inMem w 8 then s.modTile e.tile (fun tl => { tl with mem := tl.mem.upset w e.uncorrectable }) else s

/-- A word of tile memory lies in a row of 1,024 bytes (R121, R122). -/
def inRow (row w : Nat) : Bool := decide (tmBase + 1024 * row ≤ w) && decide (w < tmBase + 1024 * (row + 1))

/-- One uncorrectable word found by scrub: logged and left as it is, with event 0x0C82 (R118, R122). -/
def State.scrubUe (s : State) (row : Nat) (t : TileId) (w : Nat) : State :=
  let f := fieldOf t
  let s := (s.logUe t w 3).modField f (fun fd => { fd with svc := { fd.svc with scrubUe := fd.svc.scrubUe + 1 } })
  s.event f 0x0C82 [tileDetail t, w, row]

/-- The scrub reads one row of a tile: single-bit errors are corrected and written back, uncorrectable words logged (R122). -/
def State.scrubTile (s : State) (row : Nat) (t : TileId) : State :=
  let m := (s.tile t).mem
  (m.ue.filter (inRow row)).foldl (fun s w => s.scrubUe row t w) (s.correctWords t (m.ce.filter (inRow row)))

/-- An error in host memory that its patrol scrub meets: corrected and counted, or uncorrectable and left for its readers (R421, R429). Position and offset name the byte as R422 does. -/
def State.hostUpset (s : State) (e : ScrubErr) : State :=
  let w := (localIdx e.tile * 2 ^ 20 + e.off) / 8 * 8
  if !(decide (localIdx e.tile < 4096) && decide (e.off < 2 ^ 20)) then s
  else s.modHost (keepIdx (fieldOf e.tile)) (fun h =>
    if e.uncorrectable then { h with bad := insertNat h.bad w, memUe := satAdd 0xFFFFFFFF h.memUe 1 }
    else { h with memCe := satAdd 0xFFFFFFFF h.memCe 1 })

/-- PATROL_SCRUB (R122): the upsets that have struck the field's memories since the last visit take their places, and the next row of every tile of the field is read. -/
def execPatrolScrub (f : Nat) (errs : List ScrubErr) (s : State) : Out :=
  let fd := s.field f
  let row := fd.mem.scrubRow
  .next (if isKeep f && fd.memoryUp then (errs.filter (fun e => fieldOf e.tile == f)).foldl State.hostUpset s
    else if isCompute f && fd.memoryUp && !fd.profiling && decide (fd.mem.scrubAt + (fd.mem.scrubStep + 1) * 65536 ≤ s.time) then
      let s := s.setField f { fd with mem := { fd.mem with scrubRow := (row + 1) % 256, scrubAt := s.time } }
      let s := (errs.filter (fun e => fieldOf e.tile == f)).foldl State.upset s
      ((s.tiles.map (fun e => keyTile e.1)).filter (fun t => fieldOf t == f)).foldl (fun s t => s.scrubTile row t) s
    else s)

/-- The derating threshold in force: derate_c within 60 to 85 (R124). -/
def FieldMem.derateAt (m : FieldMem) : Int := Int.ofNat (clampN 60 85 m.derateC)

/-- REFRESH_DERATE (R120): a base-wafer sensor reads above derate_c. -/
def execRefreshDerate (f : Nat) (temp : Int) (s : State) : Out :=
  let fd := s.field f
  .next (if fd.mem.derateAt < temp then s.setField f { fd with mem := { fd.mem with derated := true } } else s)

/-- REFRESH_RESTORE (R120): every sensor reads derate_c − 5 or below. -/
def execRefreshRestore (f : Nat) (temps : List Int) (s : State) : Out :=
  let fd := s.field f
  .next (if !temps.isEmpty && temps.all (fun x => decide (x ≤ fd.mem.derateAt - 5)) then
      s.setField f { fd with mem := { fd.mem with derated := false } } else s)

/-- The channel number a set or a force is recorded under when Hedgerow makes it. -/
def byHedgerow : Nat := 64

/-- A cell with the words of SYNC_RECi that a set writes: type, value and overflow in word 0, target in word 1 (R261). -/
def Cell.withWords (c : Cell) (w0 w1 : Option Word) : Cell :=
  let c := match w1 with
    | some v => { c with target := bits v 23 0 }
    | none => c
  match w0 with
  | some v => { c with type := bits v 31 30, value := bits v 23 0, overflow := bit v 28 }
  | none => c

/-- A write of SYNC_RECi: a set of word 0, of word 1 or of both, made by the conductor or Hedgerow alone (R261). A set of both writes word 1 first, is evaluated once and writes one event (R258). -/
def State.syncRecWrite (s : State) (f i : Nat) (w0 w1 : Option Word) (w : Writer) : State :=
  let ok := (w == .conductor || w == .hedgerow) && decide (f < 56) && decide (i < cellsOf f) && (w0.isSome || w1.isSome)
  if ok then s.cellSet f i (((s.field f).cell i).withWords w0 w1) (if w == .hedgerow then byHedgerow else 0) else s

/-- The set that a write of one word at offset o of a controller's space makes. -/
def State.syncWordWrite (s : State) (f o : Nat) (val : Word) (w : Writer) : State :=
  let i := (o - 0x20000) / 8
  if o % 8 = 0 then s.syncRecWrite f i (some val) none w else s.syncRecWrite f i none (some val) w

/-- SYNC_REC_WRITE (R261). -/
def execSyncRecWrite (f i : Nat) (w0 w1 : Option Word) (w : Writer) (s : State) : Out := .next (s.syncRecWrite f i w0 w1 w)

/-- What a read of a global cell returns: type, value, target, reached, overflow, number of waiters (R258). -/
def State.cellReply (s : State) (f i : Nat) : List Nat :=
  let c := (s.field f).cell i
  [c.type, c.value, c.target, b2n c.reached, b2n c.overflow, ((s.field f).waitersOn i).length]

/-- What a list of a global cell's waiters returns: tile, generation and arrival order of each, oldest first (R258). -/
def State.waiterReply (s : State) (f i : Nat) : List Nat :=
  ((s.field f).waitersOn i).zipIdx.flatMap (fun e => [tileDetail e.1.tile, e.1.gen, e.2])

/-- Hedgerow's answer to a read or a list. -/
def State.hedgeReply (s : State) (ws : List Nat) : State := { s with hedge := { s.hedge with syncReply := ws } }

/-- HEDGEROW_SYNC_DEBUG (R258): with no conductor, Hedgerow acts on a global cell over the cricket ring; a read and a list return what they ask for. -/
def execHedgerowSyncDebug (cell : Nat) (op : CellOp) (s : State) : Out :=
  let p := cellHost cell
  .next (if decide (cell < 65536) && s.mayOrder && !s.mb.running && s.cellsUp p.1 then
      match op with
      | .read => s.hedgeReply (s.cellReply p.1 p.2)
      | .list => s.hedgeReply (s.waiterReply p.1 p.2)
      | .set ty v tg => s.cellSet p.1 p.2 { (s.field p.1).cell p.2 with type := ty % 4, value := v % 2 ^ 24, target := tg % 2 ^ 24 } byHedgerow
      | .force w => s.cellForce p.1 p.2 w byHedgerow
    else s)

end Sys2Proof.Machine
end

