-- ==== Sys2Proof/Machine/FieldRegs.lean ====
section
/-! DEFINITION. The blocks of a field controller's own space (space 0x2), read and written: memory (R124), mesh (R208), sync (R261), port (R293), clock (R321), power (R356), power master (R357), service (R379) and fault (R484). -/

namespace Sys2Proof.Machine

/-! ## Reading -/

/-- A reading in degrees as an 8-bit field: below 0 reads 0, above 255 reads 255 (log entry 25). -/
def degrees (t : Int) : Nat := min 255 t.toNat

/-- Memory block (R124). -/
def FieldMem.reg (m : FieldMem) (o : Nat) : Word :=
  if o = 0x4000 then word [(m.scrubStep, 0), (m.derateC, 8)]
  else if o = 0x4004 then word [(m.scrubRow, 0), (b2n m.derated, 8)]
  else if o = 0x4008 then m.ceSp
  else if o = 0x400C then m.ceTm
  else if o = 0x4010 then m.ue
  else if o = 0x4014 then word [(m.logHead, 0)]
  else if 0x4080 ≤ o ∧ o < 0x4100 then
    match m.log.find ((o - 0x4080) / 16) with
    | some (k, off, t, at_) =>
      if o % 16 = 0 then word [(off, 0), (k, 30)] else if o % 16 = 4 then word [(tileDetail t, 0)]
      else if o % 16 = 8 then BitVec.ofNat 32 at_ else 0
    | none => 0
  else 0

/-- A furrow's ring: the positions just outside its rectangle (R181, R186). -/
def Furrow.ringed (f : Furrow) (t : TileId) : Bool :=
  decide (f.x0 ≤ t.x + 1) && decide (t.x ≤ f.x1 + 1) && decide (f.y0 ≤ t.y + 1) && decide (t.y ≤ f.y1 + 1) && !f.covers t

/-- Word 0 of ROUTER_t (R208): neighbour holes, of the map (a keep field's positions among them) or held as dead, the rings through the router, and its near ring. -/
def State.routerWord (s : State) (t : TileId) : Word :=
  let r := s.router t
  let hole (a : TileId) (dead : Bool) : Nat := b2n (dead || s.mesh.map.furrows.any (fun q => q.covers a))
  let west := if t.x = 0 then b2n r.deadW else hole ⟨t.x - 1, t.y⟩ r.deadW
  let south := if t.y = 0 then b2n r.deadS else hole ⟨t.x, t.y - 1⟩ r.deadS
  let near := nearSite s.mesh.map.furrows s.onMap t
  word [(near.2, 4), (near.1, 8), ((s.mesh.map.furrows.filter (fun q => q.ringed t)).length, 21),
    (west, 24), (south, 25), (hole ⟨t.x + 1, t.y⟩ r.deadE, 26), (hole ⟨t.x, t.y + 1⟩ r.deadN, 27)]

/-- Mesh block (R208). -/
def State.meshReg (s : State) (f o : Nat) : Word :=
  let m := (s.field f).mesh
  if o = 0x5000 then word [(b2n m.mcastEn, 1), (b2n m.mergeEn, 2), (b2n m.nearEn, 3), (m.vc0Gap, 24)]
  else if o = 0x5004 then BitVec.ofNat 32 s.mesh.map.seq
  else if o = 0x5008 then
    word [(b2n s.mesh.paused, 0), (b2n (s.mesh.paused && s.mesh.flight.any (fun x => !x.fresh && !x.landed && fieldOf x.at_ == f)), 1)]
  else if o = 0x500C then word [(b2n m.bvVc0, 0), (b2n m.bvMap, 1), (b2n m.bvPartition, 2)]
  else if o = 0x5010 then m.pathLost
  else if o = 0x5014 then m.staleDrop
  else if o = 0x5018 then m.vc0Over
  else if o = 0x501C then m.merged
  else if o = 0x5020 then m.mcastDrop
  else 0

/-- ROUTER_t (R208). -/
def State.routerReg (s : State) (f o : Nat) : Word :=
  let i := (o - 0x40000) / 16
  let r := (s.field f).mesh.routers.getD i {}
  if o % 16 = 0 then s.routerWord (localTile f i)
  else if o % 16 = 4 then r.flits
  else if o % 16 = 8 then r.escape
  else word [(r.merges, 0), (r.lost, 16)]

/-- Sync block (R261). -/
def FieldSync.reg (y : FieldSync) (o : Nat) : Word :=
  if o = 0x6000 then word [(y.waiters.length, 0)]
  else if o = 0x6004 then y.retry
  else if o = 0x6008 then y.stale
  else if o = 0x600C then y.forced
  else 0

/-- SYNC_RECi (R261). -/
def Field.syncRec (fd : Field) (f o : Nat) : Word :=
  let i := (o - 0x20000) / 8
  let c := fd.cell i
  if cellsOf f ≤ i then 0
  else if o % 8 = 0 then word [(c.value, 0), (b2n c.overflow, 28), (b2n c.reached, 29), (c.type, 30)]
  else word [(c.target, 0)]

/-- PORT_STATE (R293). -/
def Port.stateWord (p : Port) : Word :=
  word [(p.refusal, 0), (p.lanes, 15), (p.mode.fec, 21), (p.mode.rate, 23), (p.mode.version, 25), (b2n p.changed, 27), (b2n p.relayOn, 28), (p.state, 29)]

/-- PORT_PARTNER (R293). -/
def Port.partnerWord (p : Port) : Word := word [(p.partnerWafer, 0), (p.partnerPort, 24)]

/-- Port block (R293). -/
def Port.reg (p : Port) (o : Nat) : Word :=
  if o = 0x7000 then p.ctrl
  else if o = 0x7004 then p.stateWord
  else if o = 0x7008 then p.partnerWord
  else if o = 0x700C then p.laneActive
  else if o = 0x7010 then p.laneMap
  else if o = 0x7014 then BitVec.ofNat 32 p.timeout
  else if o = 0x7020 then p.crcErr
  else if o = 0x7024 then p.retryCnt
  else if o = 0x7028 then p.retrainCnt
  else if o = 0x702C then p.fecCorr
  else if o = 0x7030 then p.relayFwd
  else if o = 0x7034 then p.relayNack
  else if o = 0x7038 then p.relayDrop
  else if o = 0x703C then p.pendingExpired
  else if o = 0x7040 then p.lateAnswer
  else if o = 0x7044 then word [(p.pending.length, 0)]
  else 0

/-- A word of a route or proxy entry (R293). -/
def Port.tableReg (p : Port) (o : Nat) : Word :=
  if o < 0x90000 then (p.routes.getD ((o - 0x80000) / 16) []).getD (o % 16 / 4) 0
  else
    let y := p.proxies.getD ((o - 0x90000) / 16) {}
    if o % 16 = 0 then word [(y.wafer, 0), (b2n y.valid, 31)]
    else if o % 16 = 4 then word [(y.tile.x, 0), (y.tile.y, 10), (y.ctx, 20)]
    else if o % 16 = 8 then word [(y.gen, 0)]
    else 0

/-- The states of a crossing register (R321). -/
def XSt.code : XSt → Nat
  | .parked => 0 | .calibrating => 1 | .running => 2 | .failed => 3

/-- CLK_STATE (R321). -/
def FieldClk.stateWord (c : FieldClk) : Word :=
  word [(c.debt, 0), (c.clock, 18), (b2n c.stopped.isSome, 20), (b2n c.relock.isSome, 21), (b2n c.order.isSome, 22), (b2n c.monitor, 23),
    (c.ceiling, 24), (c.op, 28)]

/-- CLK_BOUND_VOID (R321). -/
def FieldClk.voidBits (c : FieldClk) : Nat := b2n c.bvStretch + 2 * b2n c.bvOp + 4 * b2n c.bvMargin + 8 * b2n c.bvAsync

/-- Clock block (R321); a waking field's clock is starting from the 500th tick of its wake (R299). -/
def State.clockReg (s : State) (f o : Nat) : Word :=
  let c := (s.field f).clk
  if o = 0x8004 then word [(c.orderAt % 2 ^ 24, 8)]
  else if o = 0x8008 then
    ({ c with clock := match (s.field f).pwr.waking with
      | some w => if c.clock = 0 ∧ (s.field f).pwr.state = .retain ∧ w + 500 ≤ s.time then 1 else c.clock
      | none => c.clock } : FieldClk).stateWord
  else if o = 0x800C then BitVec.ofNat 32 (Int.ofNat s.time + c.skew).toNat
  else if o = 0x8010 then c.wtHi
  else if o = 0x8014 then word [(c.epochLow, 0), (c.low, 3), (c.lowMon, 6)]
  else if o = 0x8018 then c.stretch
  else if o = 0x801C then c.stops
  else if o = 0x8020 then BitVec.ofNat 32 c.voidBits
  else if 0x8040 ≤ o ∧ o < 0x8080 then
    let x := c.xing.getD ((o - 0x8040) / 16) {}
    if o % 16 = 0 then word [(x.latency, 20), (b2n x.async, 29), (x.state.code, 30)]
    else if o % 16 = 4 then x.stalls
    else if o % 16 = 8 then word [(x.peak, 0), (x.episodes, 16)]
    else x.calTime
  else 0

/-- FIELD_PWR.state (R356). -/
def PwrSt.code : PwrSt → Nat
  | .off => 0 | .retain => 1 | .idle => 2 | .active => 3 | .failed => 4

/-- FIELD_PWR (R356). -/
def Field.pwrWord (fd : Field) : Word :=
  word [(fd.pwr.est, 0), (fd.pwr.tgate, 16), (fd.gate, 20), (fd.pwr.cause, 24), (b2n fd.pwr.parked, 28), (fd.pwr.state.code, 29)]

/-- FIELD_THERM (R356). -/
def FieldPwr.thermWord (p : FieldPwr) : Word := word [(p.maxTemp, 0), (p.sensor, 12), (degrees p.temp, 16)]

/-- PWR_POINTS (R356). -/
def FieldPwr.pointsWord (p : FieldPwr) : Word := word [(p.forced, 16), (p.therm, 20), (p.cap, 24), (p.req, 28)]

/-- PWR_BOUND_VOID (R356). -/
def FieldPwr.voidBits (p : FieldPwr) : Nat := b2n p.bvGate + 2 * b2n p.bvThatch + 4 * b2n p.bvCap + 8 * b2n p.bvTherm

/-- OC_STATUS (R356). -/
def FieldPwr.ocWord (p : FieldPwr) : Word := word [(b2n p.coreLatch, 0), (b2n p.memLatch, 1), (p.insul, 2)]

/-- Power block (R356). -/
def Field.powerReg (fd : Field) (f o : Nat) : Word :=
  let p := fd.pwr
  let w (i : Nat) : Nat := Config.weight f i % 2 ^ 16
  if o = 0x9000 then fd.pwrWord
  else if o = 0x9004 then p.thermWord
  else if o = 0x9008 then word [(p.limWarn, 0), (p.limGate, 8), (p.limPark, 16)]
  else if o = 0x9010 then p.pointsWord
  else if o = 0x9014 then BitVec.ofNat 32 p.voidBits
  else if o = 0x9018 then p.ocWord
  else if o = 0x901C then p.gateEpochs
  else if 0x9020 ≤ o ∧ o < 0x9060 then
    let n := (o - 0x9020) / 4
    word [(Config.fusedMv f n % 1024, 0), (p.trims.getD n 0, 16)]
  else if o = 0x9060 then word [(w 1, 0), (w 0, 16)]
  else if o = 0x9064 then word [(w 3, 0), (w 2, 16)]
  else if o = 0x9068 then word [(w 5, 0), (w 4, 16)]
  else if o = 0x906C then word [(Config.eff f % 1024, 0)]
  else if 0x9080 ≤ o ∧ o < 0x90C0 then word [(Config.static_ f ((o - 0x9080) / 4) % 2 ^ 16, 0)]
  else 0

/-- PWR_STEPS (R357). -/
def Master.stepsWord (m : Master) : Word := word [(m.capSteps, 0), (m.thermSteps, 16)]

/-- Power master block (R357). -/
def Master.reg (m : Master) (o : Nat) : Word :=
  if o = 0x9100 then word [(m.cap, 0)]
  else if o = 0x9104 then word [(m.groupCap, 0)]
  else if o = 0x9108 then word [(m.hedgeCap, 0)]
  else if o = 0x910C then BitVec.ofNat 32 m.total
  else if o = 0x9110 then word [(b2n m.active, 0), (b2n m.autoReturn, 12), (m.stepAfter, 13), (m.maxGate, 17), (m.estScale, 21)]
  else if o = 0x9114 then m.stepsWord
  else if o = 0x9118 then m.overCount
  else 0

/-- SVC_STATE (R379). -/
def FieldSvc.stateWord (v : FieldSvc) : Word := word [(b2n v.resetDone, 21), (v.level, 22), (v.phase, 24), (v.state.code, 28)]

/-- SVC_COUNTS (R379). -/
def FieldSvc.countsWord (v : FieldSvc) : Word := word [(v.passed, 0), (v.failed, 16)]

/-- SVC_FIRST_FAIL (R379). -/
def FieldSvc.firstWord (v : FieldSvc) : Word :=
  match v.firstFail with
  | some (r, t) => word [(tileDetail t, 0), (r, 24)]
  | none => 0

/-- PROFILE_INFO (R379). -/
def FieldSvc.profileInfo (v : FieldSvc) : Word := word [(v.temp, 20), (v.log2k, 28), (b2n v.cold, 31)]

/-- SVC_ADMITTED (R379). -/
def State.admittedWord (s : State) (f : Nat) : Word :=
  word [(((s.tilesOf f).filter (fun t => (s.tile t).inService)).length, 0), (((s.tilesOf f).filter (fun t => (s.tile t).shadow)).length, 16)]

/-- TILE_REC (R379). -/
def State.recWord (s : State) (f i : Nat) : Word :=
  let r := (s.field f).svc.recs.getD i {}
  let tl := s.tile (localTile f i)
  let st := match tl.st with
    | .off => 0 | .quarantine => 1 | .admitted => 2 | .halted => 3 | .hole => 4
  word [(tl.gen, 0), (r.result, 16), (b2n tl.shadow, 24), (st, 25), (r.fails, 28)]

/-- Service block (R379). -/
def State.svcReg (s : State) (f o : Nat) : Word :=
  let v := (s.field f).svc
  if o = 0xA000 then v.stateWord
  else if o = 0xA004 then v.countsWord
  else if o = 0xA008 then s.admittedWord f
  else if o = 0xA00C then v.firstWord
  else if o = 0xA010 then v.profileInfo
  else if o = 0xA014 then v.age
  else 0

/-- BOUND_VOID of the mesh block (R208). -/
def FieldMesh.voidBits (m : FieldMesh) : Nat := b2n m.bvVc0 + 2 * b2n m.bvMap + 4 * b2n m.bvPartition

/-- Any bound-void flag of a field is set (R402, R484). -/
def Field.anyVoid (fd : Field) : Bool :=
  !(fd.mesh.voidBits == 0) || !(fd.clk.voidBits == 0) || !(fd.pwr.voidBits == 0) || fd.flt.switchLate

/-- Fault block (R484). -/
def State.faultReg (s : State) (f o : Nat) : Word :=
  let fd := s.field f
  let l := fd.flt
  if o = 0xB000 then word [(l.next, 0), (l.count, 6), (b2n l.overflow, 15), ((s.haltedIn f).length, 16)]
  else if o = 0xB004 then word [(l.tail, 0)]
  else if o = 0xB008 then
    word [(b2n (!(fd.mesh.voidBits == 0)), 0), (b2n (!(fd.clk.voidBits == 0)), 1), (b2n (!(fd.pwr.voidBits == 0)), 2), (b2n l.switchLate, 3)]
  else if 0xB100 ≤ o ∧ o < 0xB900 then
    match l.entries.find ((o - 0xB100) / 32) with
    | some e =>
      let r := o % 32
      if r = 0 then e.fault else if r = 4 then word [(tileDetail e.tile, 0)] else if r = 8 then word [(e.gen, 0)]
      else if r = 12 then e.info0 else if r = 16 then e.info1 else if r = 20 then e.pc
      else if r = 24 then BitVec.ofNat 32 e.time else BitVec.ofNat 32 (e.time / 2 ^ 32)
    | none => 0
  else if 0xC000 ≤ o ∧ o < 0xC5DC then
    word ((upto 32).map (fun b => (b2n (l.haltVec.contains (32 * ((o - 0xC000) / 4) + b)), b)))
  else 0

/-- A register of field f's controller by its offset in space 0x2; a reserved or write-only one reads 0 (R6, R7). -/
def State.fcReg (s : State) (f o : Nat) : Word :=
  let fd := s.field f
  if o < 0x5000 then fd.mem.reg o
  else if o < 0x6000 then s.meshReg f o
  else if o < 0x7000 then fd.sync.reg o
  else if o < 0x8000 then (s.port f).reg o
  else if o < 0x9000 then s.clockReg f o
  else if o < 0x9100 then fd.powerReg f o
  else if o < 0xA000 then (if f = 0 ∨ f = 55 then fd.master.reg o else 0)
  else if o < 0xB000 then s.svcReg f o
  else if o < 0x10000 then s.faultReg f o
  else if o < 0x10000 + 48000 then fd.mem.profiles.getD ((o - 0x10000) / 4) 0
  else if o < 0x20000 then 0
  else if o < 0x30000 then fd.syncRec f o
  else if o < 0x30000 + 48000 then s.recWord f ((o - 0x30000) / 4)
  else if o < 0x40000 then 0
  else if o < 0x40000 + 192000 then s.routerReg f o
  else if o < 0x80000 then 0
  else if o < 0x90800 then (s.port f).tableReg o
  else 0

/-! ## Writing -/

/-- The writers of the W1C fields: the conductor and Hedgerow. -/
def condOrHedge : Writer → Bool
  | .conductor | .hedgerow => true
  | .core | .fc | .master | .host _ => false

/-- Write the memory block (R124): the conductor alone. -/
def FieldMem.write (m : FieldMem) (o : Nat) (val : Word) : FieldMem :=
  if o = 0x4000 then { m with derateC := bits val 15 8, scrubStep := bits val 7 0 }
  else if o = 0x4008 then { m with ceSp := 0 }
  else if o = 0x400C then { m with ceTm := 0 }
  else if o = 0x4010 then { m with ue := 0 }
  else if 0x10000 ≤ o ∧ o < 0x10000 + 48000 then { m with profiles := m.profiles.put ((o - 0x10000) / 4) val }
  else m

/-- Write PORT_CTRL: enable set wakes the port, enable cleared takes it down, and relay takes force on an UP port (R268, R269, R286). -/
def State.portCtrl (s : State) (p : Nat) (val : Word) : State :=
  let s := s.modPort p (fun v => { v with ctrl := masked val 0xFFF8FFFF, relayOn := (v.state == 4 || v.state == 5) && bit val 30 })
  if bit val 31 then s.portWake p else s.portDown p

/-- Write a word of a route entry, its reserved bits ignored; an entry of zeros is not listed. -/
def Port.writeRoute (p : Port) (e i : Nat) (val : Word) : Port :=
  let keep := if i = 0 then 0xBFF0FFFF else if i = 3 then 0x00FFFFFF else 0xFFFFFFFF
  let ws := (upto 4).map (fun j => if j = i then masked val keep else (p.routes.getD e []).getD j 0)
  { p with routes := if ws.all (fun w => w == 0) then p.routes.erase e else p.routes.put e ws }

/-- Write a word of a proxy entry. -/
def Port.writeProxy (p : Port) (q i : Nat) (val : Word) : Port :=
  { p with proxies := p.proxies.modify q {} (fun y =>
    if i = 0 then { y with valid := bit val 31, wafer := bits val 15 0 }
    else if i = 1 then { y with tile := ⟨bits val 9 0, bits val 19 10⟩, ctx := bits val 23 20 }
    else if i = 2 then { y with gen := bits val 15 0 }
    else y) }

/-- Write the port block (R293): the conductor alone. -/
def State.portWrite (s : State) (p o : Nat) (val : Word) : State :=
  if o = 0x7000 then s.portCtrl p val
  else if o = 0x7014 then s.modPort p (fun v => { v with timeout := bits val 17 0 })
  else if 0x80000 ≤ o ∧ o < 0x90000 then s.modPort p (fun v => v.writeRoute ((o - 0x80000) / 16) (o % 16 / 4) val)
  else if 0x90000 ≤ o ∧ o < 0x90800 then s.modPort p (fun v => v.writeProxy ((o - 0x90000) / 16) (o % 16 / 4) val)
  else s

/-- A write of PWR_STEP (R356): kind 0 arms nothing. -/
def State.stepWrite (s : State) (f : Nat) (val : Word) : State :=
  if bits val 31 30 = 0 then s else s.pwrStep f (bits val 31 30) (bits val 27 24) (bits val 23 0)

/-- A write of CLK_ORDER (R321): it takes S from CLK_ORDER_AT; kind 0 disarms. -/
def State.orderWrite (s : State) (f : Nat) (val : Word) : State :=
  if bits val 31 30 = 0 then s.modField f (fun fd => { fd with clk := { fd.clk with order := none } })
  else s.clkOrder f (bits val 31 30) (bits val 27 24) (s.field f).clk.orderAt

/-- Write the power master block of both masters' controllers by the conductor (R357). -/
def Master.write (m : Master) (o : Nat) (val : Word) : Master :=
  if o = 0x9100 then { m with cap := bits val 15 0 }
  else if o = 0x9104 then { m with groupCap := bits val 15 0 }
  else if o = 0x9110 then { m with maxGate := bits val 20 17, stepAfter := bits val 16 13, autoReturn := bit val 12 }
  else m

/-- What Hedgerow writes of it (R357). -/
def Master.hedgeWrite (m : Master) (o : Nat) (val : Word) : Master :=
  if o = 0x9108 then { m with hedgeCap := bits val 15 0 }
  else if o = 0x9110 then { m with estScale := bits val 31 21 }
  else m

/-- Clear W1C bits of a field's flags, by offset (R208, R293, R321, R356, R484); the async bit stays set for as long as monitor-steered mode lasts (R317). -/
def Field.clearFlags (fd : Field) (o : Nat) (val : Word) : Field :=
  if o = 0x500C then { fd with mesh := { fd.mesh with
    bvVc0 := fd.mesh.bvVc0 && !bit val 0, bvMap := fd.mesh.bvMap && !bit val 1, bvPartition := fd.mesh.bvPartition && !bit val 2 } }
  else if o = 0x8020 then { fd with clk := { fd.clk with
    bvStretch := fd.clk.bvStretch && !bit val 0, bvOp := fd.clk.bvOp && !bit val 1, bvMargin := fd.clk.bvMargin && !bit val 2
    bvAsync := fd.clk.bvAsync && (fd.clk.monitor || !bit val 3) } }
  else if o = 0x9014 then { fd with pwr := { fd.pwr with
    bvGate := fd.pwr.bvGate && !bit val 0, bvThatch := fd.pwr.bvThatch && !bit val 1, bvCap := fd.pwr.bvCap && !bit val 2
    bvTherm := fd.pwr.bvTherm && !bit val 3 } }
  else if o = 0xB000 then { fd with flt := { fd.flt with overflow := fd.flt.overflow && !bit val 15 } }
  else if o = 0xB008 then { fd with flt := { fd.flt with switchLate := fd.flt.switchLate && !bit val 3 } }
  else fd

/-- PWR_BOUND_VOID.gate is set for as long as the field's gate level is above 0 (R337), and thatch while a tile's ramp ceiling is below 16 (R342). -/
def State.holdVoid (s : State) (f : Nat) : State :=
  s.modField f (fun fd => { fd with pwr := { fd.pwr with
    bvGate := fd.pwr.bvGate || decide (0 < fd.gate)
    bvThatch := fd.pwr.bvThatch || (s.tilesOf f).any (fun t => decide ((s.tile t).act.ceiling < 16)) } })

/-- A write by the conductor on VC0. -/
def State.conductorWrite (s : State) (f o : Nat) (val : Word) : State :=
  if o < 0x5000 ∨ (0x10000 ≤ o ∧ o < 0x20000) then s.modField f (fun fd => { fd with mem := fd.mem.write o val })
  else if o = 0x5000 then s.modField f (fun fd => { fd with mesh := { fd.mesh with
    mcastEn := bit val 1, mergeEn := bit val 2, nearEn := bit val 3, vc0Gap := bits val 31 24 } })
  else if 0x20000 ≤ o ∧ o < 0x30000 then s.syncWordWrite f o val .conductor
  else if o = 0x7000 ∨ o = 0x7014 ∨ 0x80000 ≤ o then s.portWrite f o val
  else if o = 0x8000 then s.orderWrite f val
  else if o = 0x8004 then s.modField f (fun fd => { fd with clk := { fd.clk with orderAt := bits val 31 8 } })
  else if o = 0x9008 then s.modField f (fun fd => { fd with pwr := { fd.pwr with
    limPark := bits val 23 16, limGate := bits val 15 8, limWarn := bits val 7 0 } })
  else if 0x9100 ≤ o ∧ o < 0xA000 then (if f = 0 ∨ f = 55 then s.modField f (fun fd => { fd with master := fd.master.write o val }) else s)
  else if o = 0xB004 then s.modField f (fun fd => { fd with flt := fd.flt.freeTo (bits val 5 0) })
  else s

/-- A write by Hedgerow over the cricket ring. -/
def State.hedgeWrite (s : State) (f o : Nat) (val : Word) : State :=
  if o = 0x900C then s.stepWrite f val
  else if 0x9020 ≤ o ∧ o < 0x9060 then
    s.modField f (fun fd => { fd with pwr := { fd.pwr with trims := fd.pwr.trims.put ((o - 0x9020) / 4) (min 10 (bits val 19 16)) } })
  else if 0x9100 ≤ o ∧ o < 0xA000 then (if f = 0 ∨ f = 55 then s.modField f (fun fd => { fd with master := fd.master.hedgeWrite o val }) else s)
  else if o = 0xA014 then s.modField f (fun fd => { fd with svc := { fd.svc with age := val } })
  else if 0x20000 ≤ o ∧ o < 0x30000 then s.syncWordWrite f o val .hedgerow
  else s

/-- A word write into a field controller's space: each register takes the writers its map names and ignores every other (R124, R208, R261, R293, R321, R356, R357, R379, R484). -/
def State.writeFcReg (s : State) (f : Nat) (w : Writer) (o : Nat) (val : Word) : State :=
  let s := if condOrHedge w then s.modField f (fun fd => fd.clearFlags o val) else s
  let s := if condOrHedge w && o == 0x9014 then s.holdVoid f else s
  let s := if condOrHedge w && o == 0x7004 then s.modPort f (fun v => { v with changed := v.changed && !bit val 27 }) else s
  if o = 0x8014 then s.modField f (fun fd => { fd with clk := { fd.clk with low := 7 } })
  else if o = 0x9004 then s.modField f (fun fd => { fd with pwr := { fd.pwr with maxTemp := 0 } })
  else
    match w with
    | .conductor => s.conductorWrite f o val
    | .hedgerow => s.hedgeWrite f o val
    | .master => if o = 0x900C then s.stepWrite f val else s
    | .core | .fc | .host _ => s

end Sys2Proof.Machine
end

