-- ==== Sys2Proof/Machine/GliastField.lean ====
section
/-! DEFINITION. The field commands (R403), by the service states of R373 and the power states of R328. -/

namespace Sys2Proof.Machine

/-! ## Objects and states -/

/-- A command that names a compute field in w2 (R401). -/
def withField (m : List Word) (k : Nat → CmdOut) : CmdOut :=
  let f := msgWord m 2
  if 55 < f then .refuse rcBadArgument [] else if isKeep f then .refuse rcNotPermitted [] else k f

/-- A position argument names a tile (R401): its bits and range, then a tile there that is neither a hole nor shadowed nor OFF. -/
def State.withTile (s : State) (w : Nat) (k : TileId → CmdOut) : CmdOut :=
  let t := msgPos w
  if 2 ^ 20 ≤ w ∨ 800 ≤ t.x ∨ 840 ≤ t.y then .refuse rcBadArgument []
  else if !onArray t || !(s.tile t).present then .refuse rcNotPresent []
  else k t

/-- An order of the field commands: codes 0x0201 to 0x020A. -/
def isFieldOrder (m : List Word) : Bool := within 0x0201 0x020A (msgCode m)

/-- An order or a park of a field is under way (R373). -/
def State.orderBusy (s : State) (f : Nat) : Bool :=
  s.cond.pend.any (fun p => isFieldOrder p.words && msgWord p.words 2 == f) || !((s.field f).pwr.plan == .none)

/-- Low word of a tick count, and the two words of a time. -/
def loWord (n : Nat) : Word := BitVec.ofNat 32 n
def timeWords (n : Nat) : List Word := [loWord n, loWord (n / 2 ^ 32)]

/-- Reset a tile by the conductor's order: QUARANTINE with a new generation (R62, R376). -/
def State.resetTile (s : State) (t : TileId) : State := s.enterQuarantine t

/-- Reset every ADMITTED or HALTED tile of a field (R373); its failed crossings are parked (R306). -/
def State.resetField (s : State) (f : Nat) : State :=
  let s := ((s.tilesOf f).filter (fun t => (s.tile t).inService)).foldl State.resetTile s
  (s.clearCrossings f).modSvc f (fun v => { v with resetDone := true })

/-- Write the repair event 0x0D87 for an order that moved a field's service state. -/
def State.repairEvent (s : State) (f order : Nat) (old new : SvcSt) : State :=
  s.event srcConductor 0x0D87 [f, order, old.code, new.code, 0]

/-! ## Orders -/

/-- FIELD_ADMIT: a READY field's good tiles; refused while a rung 3 condition stands (R373, R378). -/
def cmdFieldAdmit (m : List Word) (s : State) : CmdOut :=
  withField m (fun f =>
    let fd := s.field f
    match fd.svc.state with
    | .ready =>
      if fd.pwr.rung3 s.time then .refuse rcStateConflict []
      else if s.orderBusy f then .refuse rcBusy []
      else
        let s := s.admitField f none
        .long (some rcOk) [loWord (s.admitted f)] (s.repairEvent f 1 .ready .inService)
    | .out | .testing | .inService | .drained | .parked | .failed => .refuse (if s.orderBusy f then rcBusy else rcStateConflict) [])

/-- FIELD_ADMIT (R403). -/
def execFieldAdmit (c : Nat) (s : State) : Out := s.command c 0x0201 cmdFieldAdmit

/-- FIELD_DRAIN: cells saved and the field a furrow of kind 4 in the next map (R373); refused while a park is under way (R378). -/
def cmdFieldDrain (m : List Word) (s : State) : CmdOut :=
  withField m (fun f =>
    let fd := s.field f
    if fd.pwr.plan = .park then .refuse rcStateConflict []
    else if s.orderBusy f then .refuse rcBusy []
    else
      let out (s : State) : CmdOut :=
        let s := s.modSvc f (fun v => { v with furrow := some 4 })
        .long none [] { s with cond := { s.cond with wantMap := true } }
      match fd.svc.state with
      | .inService => out (s.saveCells f)
      | .ready => out s
      | .out | .testing | .drained | .parked | .failed => .refuse rcStateConflict [])

/-- FIELD_DRAIN (R403). -/
def execFieldDrain (c : Nat) (s : State) : Out := s.command c 0x0202 cmdFieldDrain

/-- FIELD_PARK (R347, R373). -/
def cmdFieldPark (m : List Word) (s : State) : CmdOut :=
  withField m (fun f =>
    if s.orderBusy f then .refuse rcBusy []
    else
      match (s.field f).svc.state with
      | .inService | .drained => if (s.field f).running then .long none [] (s.startPark f) else .refuse rcStateConflict []
      | .out | .testing | .ready | .parked | .failed => .refuse rcStateConflict [])

/-- FIELD_PARK (R403). -/
def execFieldPark (c : Nat) (s : State) : Out := s.command c 0x0203 cmdFieldPark

/-- FIELD_RETURN: a parked field wakes and is retested at level 0 (R348, R374). -/
def cmdFieldReturn (m : List Word) (s : State) : CmdOut :=
  if 1 < msgWord m 3 then .refuse rcBadArgument []
  else withField m (fun f =>
    if s.orderBusy f then .refuse rcBusy []
    else if (s.field f).svc.state = .parked then .long none [] (s.startReturn f 0) else .refuse rcStateConflict [])

/-- FIELD_RETURN (R403). -/
def execFieldReturn (c : Nat) (s : State) : Out := s.command c 0x0204 cmdFieldReturn

/-- FIELD_RESET (R373). -/
def cmdFieldReset (m : List Word) (s : State) : CmdOut :=
  withField m (fun f =>
    if s.orderBusy f then .refuse rcBusy []
    else if (s.field f).svc.state = .drained then .long (some rcOk) [] ((s.resetField f).repairEvent f 5 .drained .drained)
    else .refuse rcStateConflict [])

/-- FIELD_RESET (R403). -/
def execFieldReset (c : Nat) (s : State) : Out := s.command c 0x0205 cmdFieldReset

/-- FIELD_RETEST (R373 to R375): from DRAINED or PARKED at any level, from OUT at level 2; at most 8 fields are TESTING. -/
def cmdFieldRetest (m : List Word) (s : State) : CmdOut :=
  let level := msgWord m 3
  if 2 < level then .refuse rcBadArgument []
  else withField m (fun f =>
    let fd := s.field f
    if s.orderBusy f || fd.svc.state == .testing || decide (8 ≤ s.testingFields.length) then .refuse rcBusy []
    else
      match fd.svc.state with
      | .drained => .long none [] ((if fd.svc.resetDone then s else s.resetField f).startTest f level 4)
      | .parked => .long none [] (s.startReturn f level)
      | .out =>
        if level < 2 ∨ (fd.pwr.tripped = true ∧ 80 < fd.pwr.temp) then .refuse rcStateConflict []
        else
          let s := match fd.pwr.state with
            | .off => s.fieldUp f
            | .retain | .idle | .active | .failed => s.resetField f
          .long none [] (s.startTest f 2 4)
      | .testing | .ready | .inService | .failed => .refuse rcStateConflict [])

/-- FIELD_RETEST (R403). -/
def execFieldRetest (c : Nat) (s : State) : Out := s.command c 0x0206 cmdFieldRetest

/-- FIELD_FAIL: rails off at once, cells lost, cause 1 (R253, R373). -/
def cmdFieldFail (m : List Word) (s : State) : CmdOut :=
  withField m (fun f =>
    let old := (s.field f).svc.state
    if s.orderBusy f then .refuse rcBusy []
    else if old = .failed then .refuse rcStateConflict []
    else .long (some rcOk) [] ((s.failNow f .failed 1 2 .failed).repairEvent f 7 old .failed))

/-- FIELD_FAIL (R403). -/
def execFieldFail (c : Nat) (s : State) : Out := s.command c 0x0207 cmdFieldFail

/-- A FAILED field may be cleared (R353, R373): its insulation check passed, or it was failed by order with neither rail latched and no check has failed. -/
def FieldPwr.clearable (p : FieldPwr) : Bool :=
  p.insul == 1 || (p.cause == 1 && !p.coreLatch && !p.memLatch && p.insul == 0)

/-- FIELD_CLEAR (R353): the field is OFF and OUT; the latches and the check's result go with it. -/
def cmdFieldClear (m : List Word) (s : State) : CmdOut :=
  withField m (fun f =>
    let p := (s.field f).pwr
    if s.orderBusy f then .refuse rcBusy []
    else if (s.field f).svc.state = .failed ∧ p.clearable = true then
      let s := s.modField f (fun fd => { fd with
        pwr := { fd.pwr with state := .off, coreLatch := false, memLatch := false, insul := 0 }
        svc := { fd.svc with state := .out, furrow := some 5 } })
      .done [] ((s.clearCrossings f).repairEvent f 8 .failed .out)
    else .refuse rcStateConflict [])

/-- FIELD_CLEAR (R353). -/
def execFieldClear (c : Nat) (s : State) : Out := s.command c 0x0208 cmdFieldClear

/-- FIELD_INSULATE (R353): Hedgerow is asked for the check of a FAILED field. -/
def cmdFieldInsulate (m : List Word) (s : State) : CmdOut :=
  withField m (fun f =>
    if s.orderBusy f then .refuse rcBusy []
    else if (s.field f).svc.state = .failed then
      .long none [] (s.modField f (fun fd => { fd with pwr := { fd.pwr with insulating := some s.time } }))
    else .refuse rcStateConflict [])

/-- FIELD_INSULATE (R403). -/
def execFieldInsulate (c : Nat) (s : State) : Out := s.command c 0x0209 cmdFieldInsulate

/-- An enable of this function waits behind its shutdown. -/
def State.enableWaits (s : State) (key : Nat × Nat) : Bool := s.cond.pend.any (fun p => p.waiting && funcKey p.words == some key)

/-- FIELD_POWER retain: from IDLE or ACTIVE; one under way is joined (R328, R396). -/
def State.fieldRetain (s : State) (f : Nat) : CmdOut :=
  let fd := s.field f
  if fd.pwr.plan = .retain then .long none [] (s.supersede (2, f))
  else if s.enableWaits (2, f) then .refuse rcStateConflict []
  else if s.orderBusy f then .refuse rcBusy []
  else if fd.running then .long none [] (s.leavePlan f 5 .retain) else .refuse rcStateConflict []

/-- FIELD_POWER wake: from RETAIN by a retain order; behind a retain under way it waits (R299, R395). -/
def State.fieldWake (s : State) (f : Nat) : CmdOut :=
  let fd := s.field f
  if fd.pwr.plan = .retain then .defer (s.supersede (2, f))
  else if s.orderBusy f then .refuse rcBusy []
  else if fd.pwr.state = .retain ∧ fd.pwr.parked = false then
    .long none [] (s.modField f (fun fd => { fd with pwr := { fd.pwr with plan := .wake, waking := some s.time } }))
  else .refuse rcStateConflict []

/-- FIELD_POWER off: from IDLE, ACTIVE or RETAIN (R328). -/
def State.fieldOff (s : State) (f : Nat) : CmdOut :=
  if s.enableWaits (2, f) then .refuse rcStateConflict []
  else if s.orderBusy f then .refuse rcBusy []
  else
    match (s.field f).pwr.state with
    | .retain | .idle | .active => .long none [] (s.startOff f)
    | .off | .failed => .refuse rcStateConflict []

/-- FIELD_POWER (R328, R403). -/
def cmdFieldPower (m : List Word) (s : State) : CmdOut :=
  let a := msgWord m 3
  if 2 < a then .refuse rcBadArgument []
  else withField m (fun f => if a = 0 then s.fieldRetain f else if a = 1 then s.fieldWake f else s.fieldOff f)

/-- FIELD_POWER (R328). -/
def execFieldPower (c : Nat) (s : State) : Out := s.command c 0x020A cmdFieldPower

/-- FIELD_QUERY: seven registers (R403); never refused for work under way (R373). -/
def cmdFieldQuery (m : List Word) (s : State) : CmdOut :=
  withField m (fun f => .done ([0xA000, 0x9000, 0xA004, 0xA008, 0xA010, 0xA014, 0x9004].map (s.fcReg f)) s)

/-- FIELD_QUERY (R403). -/
def execFieldQuery (c : Nat) (s : State) : Out := s.command c 0x020B cmdFieldQuery

/-- TILE_RESET (R62, R403): an ADMITTED or HALTED tile; its new generation, 0 where it is exhausted (R63). -/
def cmdTileReset (m : List Word) (s : State) : CmdOut :=
  s.withTile (msgWord m 2) (fun t =>
    if (s.tile t).inService && s.clocked t then
      let s := s.resetTile t
      .done [loWord (if (s.tile t).st = .hole then 0 else (s.tile t).gen)] s
    else .refuse rcStateConflict [])

/-- TILE_RESET (R403). -/
def execTileReset (c : Nat) (s : State) : Out := s.command c 0x020C cmdTileReset

/-! ## Completion -/

/-- The outcome of a field command whose work has ended: code, result words and state (R403). -/
def State.fieldDone (s : State) (m : List Word) : Option (Nat × List Word × State) :=
  let f := msgWord m 2
  let fd := s.field f
  let c := msgCode m
  if c = 0x0202 then (if fd.svc.state = .drained then some (rcOk, [loWord s.mesh.map.seq], s) else none)
  else if c = 0x0203 then (if fd.svc.state = .parked then some (rcOk, [loWord s.mesh.map.effective], s) else none)
  else if c = 0x0204 then
    if fd.svc.state = .ready then
      if msgWord m 3 = 1 ∧ fd.pwr.rung3 s.time = false then
        let s := s.admitField f none
        some (rcOk, [loWord (s.admitted f)], s)
      else some (rcOk, [0], s)
    else none
  else if c = 0x0206 then (if fd.svc.state = .ready then some (rcOk, [fd.svc.countsWord, fd.svc.firstWord], s) else none)
  else if c = 0x0209 then
    (if fd.pwr.insulating.isNone then some (rcOk, [loWord fd.pwr.insulCore, loWord fd.pwr.insulMem, fd.pwr.ocWord], s) else none)
  else if c = 0x020A then
    let a := msgWord m 3
    if a = 0 then (if fd.pwr.state = .retain ∧ fd.pwr.plan ≠ .retain then some (rcOk, [], s) else none)
    else if a = 1 then (if fd.running ∧ fd.pwr.plan = .none then some (rcOk, [], s) else none)
    else (if fd.pwr.state = .off then some (rcOk, [], s) else none)
  else none

end Sys2Proof.Machine
end

