-- ==== Sys2Proof/Machine/GliastJob.lean ====
section
/-! DEFINITION. The job commands (R404 to R406): segments, loading, starting, stopping, and the fold commands over a job's tiles. -/

namespace Sys2Proof.Machine

/-! ## Jobs -/

/-- A job by its identifier. -/
def State.job (s : State) (j : Nat) : Job := s.cond.jobs.getD j {}

/-- Replace a job. -/
def State.setJob (s : State) (j : Nat) (v : Job) : State := { s with cond := { s.cond with jobs := s.cond.jobs.put j v } }

/-- A command that names a job in w2. -/
def withJob (m : List Word) (k : Nat → CmdOut) : CmdOut := if 15 < msgWord m 2 then .refuse rcBadArgument [] else k (msgWord m 2)

/-- A field mask of two words (R401); none where it sets a reserved bit. -/
def msgMask (m : List Word) (i : Nat) : Option Nat :=
  if 2 ^ 24 ≤ msgWord m (i + 1) then none else some (msgWord m i + msgWord m (i + 1) * 2 ^ 32)

/-- JOB_DECLARE (R404). -/
def cmdJobDeclare (m : List Word) (s : State) : CmdOut :=
  withJob m (fun j =>
    match msgMask m 3 with
    | none => .refuse rcBadArgument []
    | some k => if (s.job j).st = 0 then .done [] (s.setJob j { st := 1, fmask := k }) else .refuse rcStateConflict [])

/-- JOB_DECLARE (R404). -/
def execJobDeclare (c : Nat) (s : State) : Out := s.command c 0x0301 cmdJobDeclare

/-! ## Segments (R405) -/

/-- A record of a job image segment, with its byte offset in the segment. -/
structure JobRec where
  at_ : Nat
  pos : Nat
  kind : Nat
  off : Nat
  len : Nat
  value : Nat
  data : List Byte
  deriving DecidableEq, Repr, Inhabited

/-- The record's tile. -/
def JobRec.tile (r : JobRec) : TileId := msgPos (r.pos % 2 ^ 20)

/-- Read n records from a byte offset: the records, or the offset of one that runs past the segment or leaves bytes over. -/
def readRecs (bs : List Byte) : Nat → Nat → List JobRec ⊕ Nat
  | 0, o => if o = bs.length then .inl [] else .inr o
  | n + 1, o =>
    let len := fieldAt bs (o + 8) 4
    let next := o + 16 + cdiv len 16 * 16
    if bs.length < o + 16 ∨ bs.length < next then .inr o
    else
      match readRecs bs n next with
      | .inr e => .inr e
      | .inl rs => .inl ({ at_ := o, pos := fieldAt bs o 4 % 2 ^ 20, kind := fieldAt bs o 4 / 2 ^ 20, off := fieldAt bs (o + 4) 4, len := len,
                           value := fieldAt bs (o + 12) 4, data := bytesAt bs (o + 16) len } :: rs)

/-- The header check (R405). -/
def segHeaderOk (bs : List Byte) (length : Nat) : Bool :=
  decide (32 ≤ length) && fieldAt bs 0 2 == 0x4A42 && fieldAt bs 2 1 == 1 && fieldAt bs 3 1 == 0 && fieldAt bs 8 4 == length &&
    (bytesAt bs 16 16).all (fun b => b == 0) && crc32c (bs.take 12 ++ [0, 0, 0, 0] ++ bs.drop 16) == fieldAt bs 12 4

/-- A handle that lets every landing slot size pass: a tile's handles are not set when its image is loaded (log entry 26). -/
def anyHandle (_ : Nat) : Handle := { valid := true, slotSize := 15 }

/-- The checks on one record alone: kind and reserved bits, its place in the tile-local window, and a configuration image's own checks (R405, R158). -/
def JobRec.ok (r : JobRec) : Bool :=
  decide (r.kind ≤ 2) && r.off % 4 == 0 &&
    (if r.kind = 2 then r.len == 0
     else inMem r.off r.len && (r.kind == 1 || r.value == 0) && (r.kind == 0 || (imageFail anyHandle r.data).isNone))

/-- The byte offset at which a segment is rejected, or its records (R405). -/
def checkSegment (bs : List Byte) (length : Nat) : List JobRec ⊕ Nat :=
  if !segHeaderOk bs length then .inr 0
  else
    match readRecs bs (min (fieldAt bs 4 4) bs.length) 32 with
    | .inr e => .inr e
    | .inl rs =>
      match rs.find? (fun r => !r.ok) with
      | some r => .inr r.at_
      | none => .inl rs

/-! ## Loading -/

/-- A tile belongs to a job other than j. -/
def State.ofOther (s : State) (j : Nat) (t : TileId) : Bool := s.cond.jobs.any (fun e => !(e.1 == j) && e.2.tiles.contains t)

/-- Why the records of a segment may not be loaded for a job: the field mask, the tiles' states, the job's state (R404). -/
def State.loadRefusal (s : State) (j : Nat) (rs : List JobRec) : Option Nat :=
  let v := s.job j
  if rs.any (fun r => !nbit v.fmask (fieldOf r.tile)) then some rcNotPermitted
  else if rs.any (fun r => !onArray r.tile || !(s.tile r.tile).present) then some rcNotPresent
  else if !(v.st == 1 || v.st == 2) || rs.any (fun r => s.ofOther j r.tile || !s.clocked r.tile || ((s.field (fieldOf r.tile)).svc.furrow).isSome) then
    some rcStateConflict
  else none

/-- What a load has done so far: state, records written, tiles reset, records with a word that could not be written, and the first of them. -/
structure LoadRun where
  s : State
  written : Nat := 0
  reset : Nat := 0
  bad : Nat := 0
  first : Nat := 0xFFFFFFFF

/-- Run one record (R404): a tile outside QUARANTINE is reset before its first write; START_PC and image references are kept in the job directory. -/
def LoadRun.record (p : LoadRun) (j : Nat) (r : JobRec) : LoadRun :=
  let t := r.tile
  let s := p.s
  let n := b2n (s.tile t).inService
  let s := if (s.tile t).inService then s.resetTile t else s
  let v := s.job j
  let v : Job := { v with st := 2, tiles := if v.tiles.contains t then v.tiles else v.tiles ++ [t] }
  if r.kind = 2 then
    { p with s := s.setJob j { v with starts := v.starts.put (tileKey t) (BitVec.ofNat 32 r.value) }, written := p.written + 1, reset := p.reset + n }
  else
    let q := s.rawPut t .conductor r.off r.data
    let v : Job := if r.kind = 1 then
        { v with refs := v.refs.put (8 * tileKey t + nbits r.value 24 22) (BitVec.ofNat 32 r.value)
                 images := v.images.filter (fun e => !(e.1 == t && e.2.1 == r.off)) ++ [(t, r.off, r.len)] }
      else v
    let fail := q.1 == stDataError
    { s := q.2.setJob j v, written := p.written + 1, reset := p.reset + n, bad := p.bad + b2n fail
      first := if fail && p.first == 0xFFFFFFFF then r.at_ else p.first }

/-- JOB_LOAD (R404, R405): every check comes before anything changes. -/
def cmdJobLoad (m : List Word) (s : State) : CmdOut :=
  withJob m (fun j =>
    if 4096 ≤ msgWord m 4 then .refuse rcBadArgument []
    else
      match hostByte (msgAddr m 3) with
      | none => .refuse rcBadArgument []
      | some (k, a) =>
        let len := msgWord m 5
        if hostMemSize < a + len then .refuse rcBadArgument []
        else
          match checkSegment (Memory.readN (s.host k).mem len a) len with
          | .inr e => .refuse rcImageRejected [0, 0, loWord e, 0, 0xFFFFFFFF]
          | .inl rs =>
            match s.loadRefusal j rs with
            | some code => .refuse code []
            | none =>
              let p : LoadRun := rs.foldl (fun (p : LoadRun) r => p.record j r) { s := s.setJob j { s.job j with st := 2 } }
              .long (some rcOk) [loWord p.written, loWord p.reset, 0, loWord p.bad, loWord p.first] p.s)

/-- JOB_LOAD (R405). -/
def execJobLoad (c : Nat) (s : State) : Out := s.command c 0x0302 cmdJobLoad

/-! ## Starting and stopping -/

/-- Rewrite dst_gen in every emit entry of an image's bytes from the generation table, and its crc (R406). -/
def regenImage (gens : Tab Nat) (bs : List Byte) : List Byte :=
  let o := 64 + 32 * fieldAt bs 6 1 + 16 * fieldAt bs 7 1
  let bs := (upto (fieldAt bs 8 1)).foldl (fun bs i =>
    let t := msgPos (fieldAt bs (o + 16 * i) 4)
    bs.take (o + 16 * i + 4) ++ natLe 2 (gens.getD (tileKey t) 0) ++ bs.drop (o + 16 * i + 6)) bs
  bs.take 12 ++ natLe 4 (crc32c (bs.take 12 ++ [0, 0, 0, 0] ++ bs.drop 16)) ++ bs.drop 16

/-- Rewrite one loaded image where it lies. -/
def State.regen (s : State) (e : TileId × Nat × Nat) : State :=
  (s.rawPut e.1 .conductor e.2.1 (regenImage s.cond.gens ((s.tile e.1).get e.2.1 e.2.2))).2


/-- JOB_START (R404, R406): behind a stop it waits; dst_gen is rewritten, START_PC set, and the tiles admitted. -/
def cmdJobStart (m : List Word) (s : State) : CmdOut :=
  withJob m (fun j =>
    let v := s.job j
    if v.stopping then .defer (s.supersede (3, j))
    else if v.st = 2 ∨ v.st = 4 then
      let s := v.images.foldl State.regen s
      let ts := v.tiles.filter s.admittable
      let s := ts.foldl (fun s t => s.modTile t (fun tl =>
        Tile.toAdmitted { tl with core := { tl.core with startPc := v.starts.getD (tileKey t) 0 } })) s
      .long (some rcOk) [loWord ts.length] (s.setJob j { v with st := 3 })
    else .refuse rcStateConflict [])

/-- JOB_START (R406). -/
def execJobStart (c : Nat) (s : State) : Out := s.command c 0x0303 cmdJobStart

/-- JOB_STOP (R404): every tile of the job is reset; a stop under way is joined (R396). -/
def cmdJobStop (m : List Word) (s : State) : CmdOut :=
  withJob m (fun j =>
    let v := s.job j
    if v.stopping then .long none [] (s.supersede (3, j))
    else if v.st = 3 then
      let s := (v.tiles.filter (fun t => (s.tile t).inService)).foldl State.resetTile s
      .long none [] (s.setJob j { v with stopping := true })
    else .refuse rcStateConflict [])

/-- JOB_STOP (R404). -/
def execJobStop (c : Nat) (s : State) : Out := s.command c 0x0304 cmdJobStop

/-- A stop has ended: no tile of the job is in service (R395, R404). -/
def State.jobStopped (s : State) (j : Nat) : Bool := (s.job j).tiles.all (fun t => !(s.tile t).inService)

/-- JOB_RELEASE (R404). -/
def cmdJobRelease (m : List Word) (s : State) : CmdOut :=
  withJob m (fun j => if (s.job j).st = 3 then .refuse rcStateConflict [] else .done [] (s.setJob j {}))

/-- JOB_RELEASE (R404). -/
def execJobRelease (c : Nat) (s : State) : Out := s.command c 0x0305 cmdJobRelease

/-- JOB_QUERY (R404, R483): halted tiles are those the conductor has read of. -/
def cmdJobQuery (m : List Word) (s : State) : CmdOut :=
  withJob m (fun j =>
    let v := s.job j
    let hs := v.tiles.filter (fun t => s.cond.halted.contains t && (s.tile t).st == .halted)
    .done [loWord v.st, loWord v.tiles.length, loWord hs.length, loWord ((hs.map tileDetail).headD 0)] s)

/-- JOB_QUERY (R404). -/
def execJobQuery (c : Nat) (s : State) : Out := s.command c 0x0306 cmdJobQuery

/-! ## Folds -/

/-- Order one tile's dload (R163): loaded, BUSY, and tokens purged are counted. -/
def foldLoadTile (slot : Nat) (purge : Bool) (refs : Tab Word) (p : State × Nat × Nat × Nat) (t : TileId) : State × Nat × Nat × Nat :=
  match refs.find (8 * tileKey t + slot) with
  | none => p
  | some w =>
    if !(p.1.tile t).refOk (hrefOf w) then p
    else
      match p.1.dloadAt t slot (hrefOf w) purge with
      | .answer st n s => (s, p.2.1 + b2n (st == stOk), p.2.2.1 + b2n (st == stBusy), if st = stOk then p.2.2.2 + n else p.2.2.2)
      | .fault s => (s, p.2.1, p.2.2.1, p.2.2.2)

/-- FOLD_LOAD (R404). -/
def cmdFoldLoad (m : List Word) (s : State) : CmdOut :=
  withJob m (fun j =>
    let w := msgWord m 3
    if !(w / 8 % 32 == 0 && decide (w < 512)) then .refuse rcBadArgument []
    else if !((s.job j).st == 3) || (s.job j).stopping then .refuse rcStateConflict []
    else
      let ts := (s.job j).tiles.filter (fun t => (s.tile t).inService && s.clocked t)
      let p := ts.foldl (foldLoadTile (w % 8) (nbit w 8) (s.job j).refs) (s, 0, 0, 0)
      .long (some rcOk) [loWord p.2.1, loWord p.2.2.1, loWord p.2.2.2] p.1)

/-- FOLD_LOAD (R404). -/
def execFoldLoad (c : Nat) (s : State) : Out := s.command c 0x0307 cmdFoldLoad

/-- FOLD_SWITCH (R163, R404): T of 0 is the earliest, 80 ticks after the take. -/
def cmdFoldSwitch (m : List Word) (s : State) : CmdOut :=
  withJob m (fun j =>
    let w := msgWord m 3
    let t0 := msgWord m 4 + msgWord m 5 * 2 ^ 32
    let at_ := if t0 = 0 then s.time + 80 else t0
    let entry := nbit w 31
    if (if entry then w % 2 ^ 16 ≠ 0 ∨ nbits w 30 20 ≠ 0 else 8 ≤ w) ∨ at_ < s.time + 80 then .refuse rcBadArgument []
    else
      let tgt : SwitchTarget := if entry then .entry (nbits w 19 16) else .slot w
      let ts := (s.job j).tiles.filter (fun t => (s.tile t).st == .admitted)
      .long (some rcOk) (timeWords at_ ++ [0]) (ts.foldl (fun s t => s.orderSwitch t tgt at_) s))

/-- FOLD_SWITCH (R163). -/
def execFoldSwitch (c : Nat) (s : State) : Out := s.command c 0x0308 cmdFoldSwitch

/-- FOLD_SCHEDULE (R404, R168): the entries from the first one, below sched_len, and sched_len itself. -/
def cmdFoldSchedule (m : List Word) (s : State) : CmdOut :=
  withJob m (fun j =>
    let w := msgWord m 3
    let first := nbits w 3 0
    let len := nbits w 8 4
    let es := (upto 8).filter (fun i => decide (first + i < 16) && decide (first + i < len))
    if 512 ≤ w ∨ 16 < len ∨ (upto 8).any (fun i => decide (2 ^ 27 ≤ msgWord m (4 + i))) = true then .refuse rcBadArgument []
    else
      .done [] (((s.job j).tiles.filter (fun t => (s.tile t).present)).foldl (fun s t => s.modTile t (fun tl => { tl with fold := { tl.fold with
        schedLen := len
        sched := es.foldl (fun d i => d.put (first + i) (nbits (msgWord m (4 + i)) 26 24, nbits (msgWord m (4 + i)) 23 0)) tl.fold.sched } })) s))

/-- FOLD_SCHEDULE (R404). -/
def execFoldSchedule (c : Nat) (s : State) : Out := s.command c 0x0309 cmdFoldSchedule

end Sys2Proof.Machine
end

