-- ==== Sys2Proof/Machine/GliastSys.lean ====
section
/-! DEFINITION. The system, broker, sync debug, power and thatch commands (R402, R407 to R409). -/

namespace Sys2Proof.Machine

/-! ## System and identity (R402) -/

/-- CONDUCTOR_ROLE (R384). -/
def Mailbox.roleWord (b : Mailbox) : Word := word [(b2n b.running, 0), (b.activeKf, 1), (b2n b.standbyReady, 2), (b.epoch, 16)]

/-- A field mask in two words. -/
def maskWords (fs : List Nat) : List Word :=
  [word ((fs.filter (fun f => decide (f < 32))).map (fun f => (1, f))), word ((fs.filter (fun f => decide (32 ≤ f))).map (fun f => (1, f - 32)))]

/-- Fields of a mask. -/
def maskFields (k : Nat) : List Nat := (upto 56).filter (fun f => nbit k f)

/-- Running versions of the conductor, field controller, tile and host boot loader images (R412). -/
def State.versions (s : State) : List Word :=
  let f := (firstBelow 56 (fun f => (s.field f).running)).getD 0
  [loWord (s.cond.versions.getD s.activeKeep 0), loWord (s.field f).fcVersion, loWord (s.field f).tileVersion, loWord (s.flash.regions.getD 5 {}).version]

/-- SYS_IDENTIFY (R402). -/
def cmdSysIdentify (_ : List Word) (s : State) : CmdOut :=
  .done ([loWord Config.serial, loWord (Config.serial / 2 ^ 32), loWord (Config.serial / 2 ^ 64), loWord Config.part] ++ s.versions ++
    [loWord (total ((upto 56).map s.admitted))] ++ maskWords ((upto 56).filter (fun f => (s.field f).svc.state == .inService)) ++ [loWord s.waferId]) s

/-- SYS_IDENTIFY (R402). -/
def execSysIdentify (c : Nat) (s : State) : Out := s.command c 0x0101 cmdSysIdentify

/-- SYS_STATUS (R402). -/
def cmdSysStatus (_ : List Word) (s : State) : CmdOut :=
  .done [word [(s.boot.kind, 0), (s.boot.step, 4)], s.mb.roleWord, loWord s.mesh.map.seq, s.fcReg 0 0x8008,
    s.fcReg (s.masterField.getD 0) 0x910C, loWord s.capNow] s

/-- SYS_STATUS (R402). -/
def execSysStatus (c : Nat) (s : State) : Out := s.command c 0x0102 cmdSysStatus

/-- SYS_WARM_RESET (R369, R402). -/
def cmdSysWarmReset (_ : List Word) (s : State) : CmdOut := if s.warmOk then .long none [] s.startWarm else .refuse rcBusy []

/-- SYS_WARM_RESET (R402). -/
def execSysWarmReset (c : Nat) (s : State) : Out := s.command c 0x0103 cmdSysWarmReset

/-- SYS_SET_WAFER_ID (R275). -/
def cmdSysSetWaferId (m : List Word) (s : State) : CmdOut :=
  if 65535 < msgWord m 2 then .refuse rcBadArgument []
  else
    let s := { s with waferId := msgWord m 2 }
    .done [] (((upto 56).filter (fun p => (s.port p).state == 4)).foldl State.sayBlock s)

/-- SYS_SET_WAFER_ID (R275): every UP port sends its partner a new signed block. -/
def execSysSetWaferId (c : Nat) (s : State) : Out := s.command c 0x0104 cmdSysSetWaferId

/-- SYS_HANDOVER (R397, R402): the active pair stops taking; the standby's takeover follows. -/
def cmdSysHandover (_ : List Word) (s : State) : CmdOut :=
  if s.mb.standbyReady then .long none [] { s with cond := { s.cond with handover := true } } else .refuse rcStateConflict []

/-- SYS_HANDOVER (R402). -/
def execSysHandover (c : Nat) (s : State) : Out := s.command c 0x0105 cmdSysHandover

/-- Clear every bound-void flag of a field, FLT_BOUND.switch among them (R484). -/
def Field.clearVoid (fd : Field) : Field :=
  ((((fd.clearFlags 0x500C (BitVec.ofNat 32 7)).clearFlags 0x8020 (BitVec.ofNat 32 15)).clearFlags 0x9014 (BitVec.ofNat 32 15)).clearFlags 0xB008
    (BitVec.ofNat 32 8))

/-- SYS_BOUND_VOID (R402, R484). -/
def cmdSysBoundVoid (m : List Word) (s : State) : CmdOut :=
  match msgMask m 2 with
  | none => .refuse rcBadArgument []
  | some k =>
    if 1 < msgWord m 4 then .refuse rcBadArgument []
    else
      let fs := maskFields k
      let orOf (g : Field → Nat) : Word := BitVec.ofNat 32 (fs.foldl (fun a f => Nat.lor a (g (s.field f))) 0)
      let ws := maskWords (fs.filter (fun f => (s.field f).anyVoid)) ++
        [orOf (fun fd => fd.mesh.voidBits), orOf (fun fd => fd.clk.voidBits), orOf (fun fd => fd.pwr.voidBits)]
      .done ws (if msgWord m 4 = 1 then fs.foldl (fun s f => (s.modField f Field.clearVoid).holdVoid f) s else s)

/-- SYS_BOUND_VOID (R402). -/
def execSysBoundVoid (c : Nat) (s : State) : Out := s.command c 0x0106 cmdSysBoundVoid

/-- SYS_PING: the wafer time of the take (R402). -/
def execSysPing (c : Nat) (s : State) : Out :=
  s.command c 0x0107 (fun _ s => .done (timeWords (match (s.chan c).buf with
    | some k => k.at_
    | none => s.time)) s)

/-! ## Brokered connections and windows (R407) -/

/-- Start an exchange with another wafer's conductor. -/
def State.brokerAsk (s : State) (c : Nat) (wafer : Nat) (r : BrokerReq) (body : BrokerBody) : CmdOut :=
  if wafer ≠ s.waferId ∧ (s.route s.activeKeep wafer).isNone then .refuse rcNotPresent []
  else
    let id := s.cond.nextReq
    let seq := match (s.chan c).buf with
      | some k => k.seq
      | none => 0
    let s := { s with cond := { s.cond with nextReq := id + 1, reqs := s.cond.reqs ++ [{ r with id := id, chan := c, seq := seq, since := s.time }] } }
    .long none [] (s.sendBroker { origin := s.waferId, target := wafer, request := id % 2 ^ 32, body := body })

/-- BROKER_CONNECT (R407). -/
def execBrokerConnect (c : Nat) (s : State) : Out :=
  s.command c 0x0401 (fun m s =>
    let w6 := msgWord m 6
    let ctx := msgWord m 3
    let far := msgPos (msgWord m 5)
    if 15 < ctx ∨ 65535 < msgWord m 4 ∨ 2 ^ 14 ≤ w6 ∨ nbits w6 7 3 ≠ 0 ∨ within 1 32 (nbits w6 13 8) = false ∨ 2 ^ 20 ≤ msgWord m 5 ∨ 800 ≤ far.x ∨ 840 ≤ far.y then
      .refuse rcBadArgument []
    else s.withTile (msgWord m 2) (fun t =>
      if !(s.tile t).inService || !(((s.tile t).ctx ctx).state == 0) then .refuse rcStateConflict []
      else
        s.brokerAsk c (msgWord m 4)
          { id := 0, chan := c, seq := 0, tile := t, ctx := ctx, wafer := msgWord m 4, queue := nbits w6 2 0, far := far, since := s.time }
          (.connectRequest far (nbits w6 2 0) (nbits w6 13 8) t ctx)))

/-- BROKER_CLOSE (R225, R407): the local context closes, and the far conductor is told to free the proxy. -/
def cmdBrokerClose (m : List Word) (s : State) : CmdOut :=
  let c := msgWord m 3
  if 15 < c then .refuse rcBadArgument []
  else s.withTile (msgWord m 2) (fun t =>
    let x := (s.tile t).ctx c
    if !x.remote || x.state == 0 then .refuse rcStateConflict []
    else
      let s := if x.state = 2 then s.sendClose t c 0 x.seq else if x.state = 4 then s.sendClose t c 2 0 else s
      let s := s.modTile t (fun tl => tl.setCtx c { tl.ctx c with state := 0, credits := 0, closePending := false })
      .done [] (s.sendBroker { origin := s.waferId, target := x.wafer, request := 0, body := .close x.peerGen x.proxy }))

/-- BROKER_CLOSE (R407). -/
def execBrokerClose (c : Nat) (s : State) : Out := s.command c 0x0402 cmdBrokerClose

/-- BROKER_POLICY (R407). -/
def cmdBrokerPolicy (m : List Word) (s : State) : CmdOut :=
  if 65535 < msgWord m 2 ∨ 65535 < msgWord m 3 ∨ 128 < msgWord m 4 then .refuse rcBadArgument []
  else .done [] { s with cond := { s.cond with polSrc := msgWord m 2, polMask := msgWord m 3, polMax := msgWord m 4 } }

/-- BROKER_POLICY (R407). -/
def execBrokerPolicy (c : Nat) (s : State) : Out := s.command c 0x0403 cmdBrokerPolicy

/-- WINDOW_PUBLISH (R407). -/
def cmdWindowPublish (m : List Word) (s : State) : CmdOut :=
  if 7 < msgWord m 4 ∨ 65535 < msgWord m 5 ∨ 65535 < msgWord m 6 then .refuse rcBadArgument []
  else s.withTile (msgWord m 3) (fun t =>
    if s.cond.dir.any (fun w => w.name == msgWord m 2) then .refuse rcStateConflict []
    else if 256 ≤ s.cond.dir.length then .refuse rcNoResource []
    else .done [] { s with cond := { s.cond with dir := s.cond.dir ++
      [{ name := msgWord m 2, pos := t, window := msgWord m 4, key := msgWord m 5, length := msgWord m 6 }] } })

/-- WINDOW_PUBLISH (R407). -/
def execWindowPublish (c : Nat) (s : State) : Out := s.command c 0x0404 cmdWindowPublish

/-- WINDOW_WITHDRAW (R407). -/
def cmdWindowWithdraw (m : List Word) (s : State) : CmdOut :=
  if s.cond.dir.any (fun w => w.name == msgWord m 2) then
    .done [] { s with cond := { s.cond with dir := s.cond.dir.filter (fun w => !(w.name == msgWord m 2)) } }
  else .refuse rcNotPresent []

/-- WINDOW_WITHDRAW (R407). -/
def execWindowWithdraw (c : Nat) (s : State) : Out := s.command c 0x0405 cmdWindowWithdraw

/-- WINDOW_LOOKUP (R407). -/
def execWindowLookup (c : Nat) (s : State) : Out :=
  s.command c 0x0406 (fun m s =>
    if 65535 < msgWord m 2 then .refuse rcBadArgument []
    else
      s.brokerAsk c (msgWord m 2)
        { id := 0, chan := c, seq := 0, tile := ⟨0, 0⟩, ctx := 0, wafer := msgWord m 2, queue := 0, far := ⟨0, 0⟩, since := s.time }
        (.lookupRequest (msgWord m 3)))

/-! ## Sync debug (R258, R408) -/

/-- The cell a command names: a global cell's field and index, or a local cell of a tile (R408). -/
def State.withCell (s : State) (m : List Word) (g : Nat → Nat → CmdOut) (l : TileId → Nat → CmdOut) : CmdOut :=
  let w := msgWord m 2
  if 2 ^ 17 ≤ w then .refuse rcBadArgument []
  else if nbit w 16 then
    if 16 ≤ w % 65536 then .refuse rcBadArgument [] else s.withTile (msgWord m 3) (fun t => l t (w % 65536))
  else
    let p := cellHost w
    if s.cellsUp p.1 then g p.1 p.2 else .refuse rcNotPresent []

/-- Word 0 of CELL_READ. -/
def Cell.flags (c : Cell) : Word := word [(c.type, 0), (b2n c.reached, 2), (b2n c.overflow, 3)]

/-- CELL_READ (R408). -/
def cmdCellRead (m : List Word) (s : State) : CmdOut :=
  let out (c : Cell) (n : Nat) : CmdOut := .done [c.flags, loWord c.value, loWord c.target, loWord n] s
  s.withCell m (fun f i => out ((s.field f).cell i) ((s.field f).waitersOn i).length)
    (fun t i => out ((s.tile t).cell i) (b2n ((s.tile t).waitsLocal i)))

/-- CELL_READ (R408). -/
def execCellRead (c : Nat) (s : State) : Out := s.command c 0x0501 cmdCellRead

/-- The number of a local cell in an event: bit 16, then the cell (R408). -/
def localEvent (i : Nat) : Nat := 2 ^ 16 + i

/-- CELL_SET (R258): written, evaluated once, waiters released, and one event 0x0685. -/
def execCellSet (c : Nat) (s : State) : Out :=
  s.command c 0x0502 (fun m s =>
    let ty := msgWord m 4
    if 2 < ty ∨ 2 ^ 24 ≤ msgWord m 5 ∨ 2 ^ 24 ≤ msgWord m 6 then .refuse rcBadArgument []
    else
      let set (x : Cell) : Cell := { x with type := ty, value := msgWord m 5, target := msgWord m 6 }
      s.withCell m
        (fun f i =>
          let x := set ((s.field f).cell i)
          .done [loWord (x.evaluate ((s.field f).waitersOn i).length).2] (s.cellSet f i x c))
        (fun t i =>
          let old := (s.tile t).cell i
          let x := set old
          let s' := s.writeLocal t i x
          .done [loWord (x.evaluate (b2n ((s.tile t).waitsLocal i))).2]
            (s'.event (fieldOf t) 0x0685 [localEvent i, old.type, x.type, old.value, x.value, c])))

/-- CELL_FORCE (R258): every waiter, or the one named, completes with FORCED, with one event 0x0684. -/
def execCellForce (c : Nat) (s : State) : Out :=
  s.command c 0x0503 (fun m s =>
    let w := msgWord m 4
    let all := w == 0xFFFFFFFF
    if !all && (decide (2 ^ 20 ≤ w) || decide (800 ≤ (msgPos w).x) || decide (840 ≤ (msgPos w).y) || decide (65535 < msgWord m 5)) then
      .refuse rcBadArgument []
    else
      let who : Option (TileId × Nat) := if all then none else some (msgPos w, msgWord m 5)
      s.withCell m
        (fun f i =>
          let ws := ((s.field f).waitersOn i).filter (fun v => match who with
            | none => true
            | some (t, g) => v.tile == t && v.gen == g)
          if ws.isEmpty && !all then .refuse rcNotPresent [] else .done [loWord ws.length] (s.cellForce f i who c))
        (fun t i =>
          let hit := (s.tile t).waitsLocal i && (match who with
            | none => true
            | some (u, g) => u == t && g == (s.tile t).gen)
          if !hit && !all then .refuse rcNotPresent []
          else
            let s' := if hit then s.endWait t stForced else s
            .done [loWord (b2n hit)] (s'.event (fieldOf t) 0x0684 [localEvent i, b2n hit, c])))

/-- CELL_WAITERS (R408): the number of waiters, and up to five from the index given, oldest first. -/
def cmdCellWaiters (m : List Word) (s : State) : CmdOut :=
  let first := msgWord m 4
  let out (ws : List (TileId × Nat)) : CmdOut :=
    .done (loWord ws.length :: (ws.zipIdx.drop first |>.take 5).flatMap (fun e => [loWord (tileDetail e.1.1), word [(e.1.2, 0), (e.2 % 65536, 16)]])) s
  s.withCell m (fun f i => out (((s.field f).waitersOn i).map (fun w => (w.tile, w.gen))))
    (fun t i => out (if (s.tile t).waitsLocal i then [(t, (s.tile t).gen)] else []))

/-- CELL_WAITERS (R408). -/
def execCellWaiters (c : Nat) (s : State) : Out := s.command c 0x0504 cmdCellWaiters

/-- TILE_RELEASE (R259): SYNC_DEBUG of a tile, the core's stall or all. -/
def cmdTileRelease (m : List Word) (s : State) : CmdOut :=
  if 1 < msgWord m 3 then .refuse rcBadArgument []
  else s.withTile (msgWord m 2) (fun t => .done [] (if msgWord m 3 = 1 then s.debugAll t else s.coreExpire t true))

/-- TILE_RELEASE (R259). -/
def execTileRelease (c : Nat) (s : State) : Out := s.command c 0x0505 cmdTileRelease

/-! ## Power and thatch (R409) -/

/-- PWR_SET_CAP: out-of-range values act as the limits (R357, R409). -/
def cmdPwrSetCap (m : List Word) (s : State) : CmdOut :=
  if 65535 < msgWord m 2 then .refuse rcBadArgument [] else .done [] (s.bothMasters (fun x => { x with cap := msgWord m 2 }))

/-- PWR_SET_CAP (R409). -/
def execPwrSetCap (c : Nat) (s : State) : Out := s.command c 0x0601 cmdPwrSetCap

/-- PWR_SET_POLICY (R409). -/
def cmdPwrSetPolicy (m : List Word) (s : State) : CmdOut :=
  let w := msgWord m 2
  if 512 ≤ w then .refuse rcBadArgument []
  else .done [] (s.bothMasters (fun x => { x with maxGate := nbits w 3 0, stepAfter := nbits w 7 4, autoReturn := nbit w 8 }))

/-- PWR_SET_POLICY (R409). -/
def execPwrSetPolicy (c : Nat) (s : State) : Out := s.command c 0x0602 cmdPwrSetPolicy

/-- PWR_SET_GROUP (R344, R345): the records of another group go, and the group cap is formed again. -/
def cmdPwrSetGroup (m : List Word) (s : State) : CmdOut :=
  let g := msgWord m 2
  if 65535 < g then .refuse rcBadArgument []
  else .done [] ({ s with cond := { s.cond with
    group := g, groupCap := msgWord m 3, notes := s.cond.notes.filter (fun (e : PowerNote × Nat) => e.1.group == g) } }).groupCap

/-- PWR_SET_GROUP (R345). -/
def execPwrSetGroup (c : Nat) (s : State) : Out := s.command c 0x0603 cmdPwrSetGroup

/-- PWR_QUERY (R409). -/
def cmdPwrQuery (_ : List Word) (s : State) : CmdOut :=
  let k := s.masterField.getD 0
  .done [s.fcReg k 0x910C, loWord s.capNow, s.fcReg 0 0x9010, s.fcReg k 0x9104, s.fcReg k 0x9108, s.fcReg k 0x9118, s.fcReg k 0x9114] s

/-- PWR_QUERY (R409). -/
def execPwrQuery (c : Nat) (s : State) : Out := s.command c 0x0604 cmdPwrQuery

/-- THATCH_SET (R409): the image goes into every admitted tile of the fields named. -/
def cmdThatchSet (m : List Word) (s : State) : CmdOut :=
  match msgMask m 2 with
  | none => .refuse rcBadArgument []
  | some k =>
    if msgWord m 4 % 256 ≠ 0 then .refuse rcBadArgument []
    else
      let ts := s.tileList.filter (fun t => nbit k (fieldOf t) && (s.tile t).inService)
      .long (some rcOk) [loWord ts.length] (ts.foldl (fun s t => s.writeTileReg t .fc 0x11C (loWord (msgWord m 4))) s)

/-- THATCH_SET (R409). -/
def execThatchSet (c : Nat) (s : State) : Out := s.command c 0x0605 cmdThatchSet

/-- THERM_SET_LIMITS (R356, R409): each limit in the range its field gives. -/
def cmdThermSetLimits (m : List Word) (s : State) : CmdOut :=
  let w := msgWord m 4
  match msgMask m 2 with
  | none => .refuse rcBadArgument []
  | some k =>
    if !(decide (w < 2 ^ 24) && within 85 105 (nbits w 23 16) && within 80 100 (nbits w 15 8) && within 75 95 (nbits w 7 0)) then .refuse rcBadArgument []
    else .done [] ((maskFields k).foldl (fun s f => s.writeFcReg f .conductor 0x9008 (loWord w)) s)

/-- THERM_SET_LIMITS (R409). -/
def execThermSetLimits (c : Nat) (s : State) : Out := s.command c 0x0606 cmdThermSetLimits

end Sys2Proof.Machine
end

