-- ==== Sys2Proof/Machine/GliastLink.lean ====
section
/-! DEFINITION. The clock, port, firmware and map commands (R410 to R413), and how pending commands end or start (R390, R395, R312). -/

namespace Sys2Proof.Machine

/-! ## Clock commands (R410) -/

/-- The boundary a clock command uses: its own S, or the first that meets the lead; none where its S misses the lead or is no boundary (R311). -/
def State.clkAt (s : State) (op at_ : Nat) : Option Nat :=
  let lead := leadOf (s.field 0).clk.op op
  if at_ = 0 then some (boundaryFrom (s.time + lead))
  else if isBoundary at_ && decide (s.time + lead ≤ at_) then some at_ else none

/-- Write an order into every controller, or hold it until S is within 2^31 - 256 ticks (R312). -/
def State.sendOrder (s : State) (kind op at_ : Nat) : State :=
  if s.time + (2 ^ 31 - 256) < at_ then
    { s with cond := { s.cond with heldOrders := s.cond.heldOrders ++ [({ kind := kind, op := op, at_ := at_ } : HeldOrder)] } }
  else (upto 56).foldl (fun s f => s.clkOrder f kind op (at_ / 256 % 2 ^ 24)) s

/-- An order of a kind is held or armed. -/
def State.orderOut (s : State) (kind : Nat) : Bool :=
  s.cond.heldOrders.any (fun o => o.kind == kind) || (upto 56).any (fun f => match (s.field f).clk.order with
    | some o => o.kind == kind
    | none => false)

/-- Leaving monitor-steered mode is under way until S + 250 (R319, R395). -/
def State.leavingMode (s : State) : Bool := s.orderOut 3 || decide (s.time + 262 < s.mesh.holdUntil)

/-- CLK_SET_OP (R410). -/
def cmdClkSetOp (m : List Word) (s : State) : CmdOut :=
  let op := msgWord m 2
  if 15 < op ∨ op < s.cond.highest then .refuse rcBadArgument []
  else
    match s.clkAt op (msgWord m 3 + msgWord m 4 * 2 ^ 32) with
    | none => .refuse rcBadArgument []
    | some at_ => .long none (timeWords at_) ({ s with cond := { s.cond with reqOp := op } }.sendOrder 1 op at_)

/-- CLK_SET_OP (R410). -/
def execClkSetOp (c : Nat) (s : State) : Out := s.command c 0x0701 cmdClkSetOp

/-- CLK_SET_MODE (R319, R410): entering while the mode is being left waits; a leave under way is joined (R395, R396). -/
def cmdClkSetMode (m : List Word) (s : State) : CmdOut :=
  let op := msgWord m 3
  if 1 < msgWord m 2 ∨ 15 < op ∨ op < s.cond.highest then .refuse rcBadArgument []
  else
    match s.clkAt op (msgWord m 4 + msgWord m 5 * 2 ^ 32) with
    | none => .refuse rcBadArgument []
    | some at_ =>
      if msgWord m 2 = 1 then
        if s.leavingMode then .defer (s.supersede (4, 0)) else .long none (timeWords at_) (s.sendOrder 2 op at_)
      else if s.leavingMode then .long none (timeWords at_) (s.supersede (4, 0))
      else .long none (timeWords at_) (s.sendOrder 3 op at_)

/-- CLK_SET_MODE (R410). -/
def execClkSetMode (c : Nat) (s : State) : Out := s.command c 0x0702 cmdClkSetMode

/-- CLK_QUERY (R410). -/
def cmdClkQuery (_ : List Word) (s : State) : CmdOut :=
  let k := (s.field 0).clk
  .done ([loWord (b2n k.monitor), loWord k.op, loWord k.ceiling, loWord s.cond.highest] ++
    maskWords ((upto 56).filter (fun f => !((s.field f).clk.voidBits == 0)))) s

/-- CLK_QUERY (R410). -/
def execClkQuery (c : Nat) (s : State) : Out := s.command c 0x0703 cmdClkQuery

/-- HELD_ORDER_WRITE (R312): what has come within range is written. -/
def execHeldOrderWrite (s : State) : Out :=
  let due (o : HeldOrder) : Bool := decide (o.at_ ≤ s.time + (2 ^ 31 - 256))
  .next (if s.mb.running then
      (s.cond.heldOrders.filter due).foldl (fun s o => s.sendOrder o.kind o.op o.at_)
        { s with cond := { s.cond with heldOrders := s.cond.heldOrders.filter (fun o => !due o) } }
    else s)

/-! ## Port commands (R411) -/

/-- A command that names a port in w2. -/
def withPort (m : List Word) (k : Nat → CmdOut) : CmdOut := if 55 < msgWord m 2 then .refuse rcBadArgument [] else k (msgWord m 2)

/-- A port setting or a route entry has been written since cold reset (R26). -/
def State.programmed (s : State) : State := { s with boot := { s.boot with programmed := true } }

/-- The port's field is leaving IDLE and ACTIVE (R395). -/
def Field.leaving (fd : Field) : Bool :=
  match fd.pwr.plan with
  | .retain | .park | .off => true
  | .none | .wake | .back => false

/-- A shutdown of the port is under way. -/
def State.portLeaving (s : State) (p : Nat) : Bool := (s.field p).leaving && !((s.port p).state == 0)

/-- Set or clear a bit of PORT_CTRL. -/
def State.ctrlBit (s : State) (p i : Nat) (on : Bool) : State :=
  let c := (s.port p).ctrl
  let m : Word := BitVec.ofNat 32 (2 ^ i)
  (s.portCtrl p (if on then c ||| m else c &&& ~~~m)).programmed

/-- PORT_UP (R411): enable, and PORT_STATE as it reads then; behind a shutdown it waits. -/
def cmdPortUp (m : List Word) (s : State) : CmdOut :=
  withPort m (fun p =>
    if s.portLeaving p then .defer (s.supersede (1, p))
    else
      let s := s.ctrlBit p 31 true
      .done [(s.port p).stateWord] s)

/-- PORT_UP (R411). -/
def execPortUp (c : Nat) (s : State) : Out := s.command c 0x0801 cmdPortUp

/-- PORT_DOWN (R269, R411): enable cleared, the port DISABLED; one that is going DISABLED with its field is joined (R396). -/
def cmdPortDown (m : List Word) (s : State) : CmdOut :=
  withPort m (fun p =>
    if (s.port p).state = 0 then .done [] (s.ctrlBit p 31 false)
    else if s.portLeaving p then .long none [] (s.supersede (1, p))
    else .long none [] (s.ctrlBit p 31 false))

/-- PORT_DOWN (R411). -/
def execPortDown (c : Nat) (s : State) : Out := s.command c 0x0802 cmdPortDown

/-- PORT_RETRAIN (R269, R411). -/
def cmdPortRetrain (m : List Word) (s : State) : CmdOut :=
  withPort m (fun p => if (s.port p).state = 4 then .long none [] (s.retrain p) else .refuse rcStateConflict [])

/-- PORT_RETRAIN (R411). -/
def execPortRetrain (c : Nat) (s : State) : Out := s.command c 0x0803 cmdPortRetrain

/-- PORT_RELAY (R286, R411). -/
def cmdPortRelay (m : List Word) (s : State) : CmdOut :=
  withPort m (fun p => if 1 < msgWord m 3 then .refuse rcBadArgument [] else .done [] (s.ctrlBit p 30 (msgWord m 3 == 1)))

/-- PORT_RELAY (R411). -/
def execPortRelay (c : Nat) (s : State) : Out := s.command c 0x0804 cmdPortRelay

/-- The fibres of a LANE_MAP image lie in their direction's sets (R265): paths 0 to 3 send on 0 to 3 or spares 8 to 11, paths 4 to 7 receive on 4 to 7 or 12 to 15. -/
def laneMapOk (w : Nat) : Bool :=
  (upto 8).all (fun i =>
    let v := nbits w (4 * i + 3) (4 * i)
    if i < 4 then within 0 3 v || within 8 11 v else within 4 7 v || within 12 15 v)

/-- PORT_LANE_MAP (R265, R411): the map applies when the port next trains. -/
def cmdPortLaneMap (m : List Word) (s : State) : CmdOut :=
  withPort m (fun p =>
    if 1 < msgWord m 4 ∨ (msgWord m 4 = 1 ∧ laneMapOk (msgWord m 3) = false) then .refuse rcBadArgument []
    else .done [] (s.modPort p (fun v => { v with fixedMap := if msgWord m 4 = 1 then some (loWord (msgWord m 3)) else none })).programmed)

/-- PORT_LANE_MAP (R411). -/
def execPortLaneMap (c : Nat) (s : State) : Out := s.command c 0x0805 cmdPortLaneMap

/-- PORT_CONFIG (R411): PORT_CTRL but for enable and relay, and PORT_REMOTE_TIMEOUT. -/
def cmdPortConfig (m : List Word) (s : State) : CmdOut :=
  withPort m (fun p =>
    if 2 ^ 18 ≤ msgWord m 4 then .refuse rcBadArgument []
    else .done [] (s.modPort p (fun v => { v with
      ctrl := (v.ctrl &&& 0xC0000000) ||| masked (loWord (msgWord m 3)) 0x3FF8FFFF, timeout := msgWord m 4 })).programmed)

/-- PORT_CONFIG (R411). -/
def execPortConfig (c : Nat) (s : State) : Out := s.command c 0x0806 cmdPortConfig

/-- A route argument is in range (R281, R293). -/
def routeOk (w0 w3 : Nat) : Bool :=
  nbits w0 19 16 == 0 && nbits w0 30 30 == 0 && decide (nbits w0 29 24 ≤ 55) && within 1 12 (nbits w0 23 20) && decide (w3 < 2 ^ 24)

/-- ROUTE_SET (R281, R411): the entry goes into every dock at index wafer bits 11:0. -/
def cmdRouteSet (m : List Word) (s : State) : CmdOut :=
  let w (i : Nat) : Nat := msgWord m (2 + i)
  if !routeOk (w 0) (w 3) then .refuse rcBadArgument []
  else
    let e := w 0 % 4096
    .done [] ((upto 56).foldl (fun s p => (upto 4).foldl (fun s i => s.modPort p (fun v => v.writeRoute e i (loWord (w i)))) s) s).programmed

/-- ROUTE_SET (R411). -/
def execRouteSet (c : Nat) (s : State) : Out := s.command c 0x0807 cmdRouteSet

/-- ROUTE_CLEAR (R411): the entries of that wafer, in every dock. -/
def cmdRouteClear (m : List Word) (s : State) : CmdOut :=
  let w := msgWord m 2
  let hit (v : Port) : Bool := match v.routes.find (w % 4096) with
    | some ws => (routeOf ws).valid && (routeOf ws).wafer == w
    | none => false
  if 65535 < w then .refuse rcBadArgument []
  else if (upto 56).any (fun p => hit (s.port p)) then
    .done [] ((upto 56).foldl (fun s p => if hit (s.port p) then s.modPort p (fun v => { v with routes := v.routes.erase (w % 4096) }) else s) s).programmed
  else .refuse rcNotPresent []

/-- ROUTE_CLEAR (R411). -/
def execRouteClear (c : Nat) (s : State) : Out := s.command c 0x0808 cmdRouteClear

/-- PORT_QUERY (R411). -/
def cmdPortQuery (m : List Word) (s : State) : CmdOut :=
  withPort m (fun p => .done ([0x7004, 0x7008, 0x700C, 0x7010, 0x7020, 0x7028, 0x7030, 0x7044].map (s.fcReg p)) s)

/-- PORT_QUERY (R411). -/
def execPortQuery (c : Nat) (s : State) : Out := s.command c 0x0809 cmdPortQuery

/-- PORT_FORGET (R274, R411). -/
def cmdPortForget (m : List Word) (s : State) : CmdOut :=
  withPort m (fun p => .done [] (s.modPort p (fun v => { v with partner := none })))

/-- PORT_FORGET (R411). -/
def execPortForget (c : Nat) (s : State) : Out := s.command c 0x080A cmdPortForget

/-! ## Firmware commands (R412, R462) -/

/-- Commit a staged image into its region (R462): the counter rises to its security version, with event 0x0F86. -/
def State.commitImage (s : State) (kind : Nat) : State :=
  match s.flash.staged.find kind with
  | none => s
  | some i =>
    let i : Img := { i with ok := true }
    ({ s with flash := { s.flash with
      regions := s.flash.regions.put kind i, counters := s.flash.counters.put kind (max i.svn (s.flash.counters.getD kind 0)) } }).event
      srcHedgerow 0x0F86 [kind, i.version, i.svn]

/-- A live session other than the one named is pushing an image of the kind (R463). -/
def State.pushedBy (s : State) (kind : Nat) (session : Option Nat) : Bool :=
  match s.hedge.pushing.find kind with
  | some n => !(session == some n) && s.hedge.sessions.any (fun x => x.id == n)
  | none => false

/-- FW_QUERY (R412). -/
def cmdFwQuery (_ : List Word) (s : State) : CmdOut :=
  .done (s.versions ++ [2, 3, 4, 5].map (fun k => loWord (s.flash.staged.getD k {}).version)) s

/-- FW_QUERY (R412). -/
def execFwQuery (c : Nat) (s : State) : Out := s.command c 0x0901 cmdFwQuery

/-- The keep field of the standby pair. -/
def State.standbyKf (s : State) : Nat := if s.mb.activeKf = 0 then 55 else 0

/-- A tile image takes the field to DRAINED, its tiles wanting a retest (R412). -/
def State.tileImage (s : State) (f : Nat) (i : Img) : State :=
  let s := s.modField f (fun fd => { fd with tileVersion := i.version, tileDigest := i.digest })
  match (s.field f).svc.state with
  | .ready =>
    let s := s.modSvc f (fun v => { v with furrow := some 4 })
    { s with cond := { s.cond with wantMap := true } }
  | .out | .testing | .inService | .drained | .parked | .failed => s

/-- FW_APPLY (R412, R477): refused while its kind is being pushed; the region is committed, then controllers, service stores or pairs take the image. -/
def cmdFwApply (m : List Word) (s : State) : CmdOut :=
  let k := msgWord m 2
  let kind := if k = 0 then 3 else if k = 1 then 4 else 2
  match msgMask m 3 with
  | none => .refuse rcBadArgument []
  | some fm =>
    let fs := maskFields fm
    if 2 < k ∨ (k = 2 ∧ fm ≠ 0) then .refuse rcBadArgument []
    else if s.pushedBy kind none then .refuse rcStateConflict []
    else
      match s.flash.staged.find kind with
      | none => .refuse rcNotPresent []
      | some i =>
        if k = 0 then
          .long (some rcOk) [loWord fs.length] (fs.foldl (fun s f => s.modField f (fun fd => { fd with fcVersion := i.version, fcDigest := i.digest })) (s.commitImage kind))
        else if k = 1 then
          if fs.all (fun f => (s.field f).svc.state == .drained || (s.field f).svc.state == .ready) then
            .long (some rcOk) [loWord fs.length] (fs.foldl (fun s f => s.tileImage f i) (s.commitImage kind))
          else .refuse rcStateConflict []
        else if s.mb.standbyReady then
          let s := s.commitImage kind
          .long none [0] { s with cond := { s.cond with versions := s.cond.versions.put s.standbyKf i.version, handover := true } }
        else .refuse rcStateConflict []

/-- FW_APPLY (R412). -/
def execFwApply (c : Nat) (s : State) : Out := s.command c 0x0902 cmdFwApply

/-- A conductor image is in force once the pair restarted on it is the active one; the other pair then restarts on it (R412). -/
def State.applyDone (s : State) : Option State :=
  let v := (s.flash.regions.getD 2 {}).version
  if s.cond.versions.getD s.activeKeep 0 = v ∧ s.cond.handover = false then
    some { s with cond := { s.cond with versions := s.cond.versions.put s.standbyKf v } }
  else none

/-! ## The map and the distance table (R413, R206) -/

/-- Bytes fit the host memory from an address in space 0x3. -/
def hostRoom (a n : Nat) : Option (Nat × Nat) :=
  match hostByte a with
  | some (j, o) => if o + n ≤ hostMemSize then some (j, o) else none
  | none => none

/-- MAP_GET (R413): the map in force, as R185 lays it out. -/
def cmdMapGet (m : List Word) (s : State) : CmdOut :=
  let bs := FMap.bytes s.mesh.map
  if 4096 ≤ msgWord m 3 ∨ msgWord m 4 < bs.length then .refuse rcBadArgument []
  else
    match hostRoom (msgAddr m 2) bs.length with
    | none => .refuse rcBadArgument []
    | some (j, o) =>
      .long (some rcOk) ([loWord s.mesh.map.seq, loWord bs.length] ++ timeWords s.mesh.map.effective) (s.hostPut j o bs)

/-- MAP_GET (R413). -/
def execMapGet (c : Nat) (s : State) : Out := s.command c 0x0A01 cmdMapGet

/-- State of a position in the table, as it was when the table was formed: 0 good, 1 hole, 2 shadowed, 3 names no tile (R206). A position of a field out of service is a hole of the map. -/
def State.distState (s : State) (t : TileId) : Nat :=
  if !onArray t then 3
  else if !s.mesh.distMap.furrows.any (fun r => r.covers t) then 0
  else if s.mesh.distHoles.contains t || s.mesh.distOut.contains (fieldOf t) then 1 else 2

/-- Hops and cycles under the table's map and the crossing latencies it was formed with (R206). -/
def State.distBetween (s : State) (a b : TileId) : Option (Nat × Nat) :=
  (pathOf s.mesh.distMap.furrows a b).map (fun p =>
    (p.length, 2 + p.length + turnsOf a p + total ((crossingsOf a p).map (fun c => s.mesh.distLat.getD (4 * c.1 + c.2) 0))))

/-- The nearest of some places by hops. -/
def State.distNearest (s : State) (a : TileId) (bs : List TileId) : Option (Nat × Nat) :=
  (bs.filterMap (s.distBetween a)).foldl (fun best d => match best with
    | some e => if d.1 < e.1 then some d else some e
    | none => some d) none

/-- The tiles just beyond boundary b of field f (R206). -/
def beyond (f b : Nat) : List TileId :=
  let x0 := f % 8 * 100
  let y0 := f / 8 * 120
  match fieldAcross f b with
  | none => []
  | some _ =>
    if b = 0 then (upto 100).map (fun i => ⟨x0 + i, y0 + 120⟩)
    else if b = 1 then (upto 120).map (fun i => ⟨x0 + 100, y0 + i⟩)
    else if b = 2 then (upto 100).map (fun i => ⟨x0 + i, y0 - 1⟩)
    else (upto 120).map (fun i => ⟨x0 - 1, y0 + i⟩)

/-- An entry of a record: hops 13:0, cycles 31:14; all ones where there is no way. -/
def distWord : Option (Nat × Nat) → Word
  | some (h, c) => word [(h, 0), (c, 14)]
  | none => 0xFFFFFFFF

/-- Entry e of a position's record (R206). -/
def State.distEntry (s : State) (t : TileId) (e : Nat) : Word :=
  if !(s.distState t == 0) then 0xFFFFFFFF
  else if e < 32 then distWord (s.distBetween t (gateTile (e / 8) (e % 8)))
  else if e < 84 then distWord (s.distNearest t (injectionPoints (computeField (e - 32))))
  else distWord (s.distNearest t (beyond (fieldOf t) (e - 84)))

/-- A record of the distance table (R206). -/
def State.distRecord (s : State) (i : Nat) : List Byte :=
  let t := keyTile i
  wordLe (word [(t.x, 0), (t.y, 10), (s.distState t, 20), ((nearSite s.mesh.distMap.furrows (fun q => s.distState q == 0) t).1, 24)]) ++ natLe 4 s.mesh.distMap.seq ++ natLe 8 0 ++
    (upto 88).flatMap (fun e => wordLe (s.distEntry t e)) ++ List.replicate 16 0

/-- The 64-byte header with a CRC (R206): its order within the 64 bytes is the model's (log entry 28). -/
def State.distHead (s : State) (crc : Nat) : List Byte :=
  natLe 2 0x5444 ++ natLe 1 1 ++ natLe 1 0 ++ natLe 4 s.mesh.distMap.seq ++ natLe 4 384 ++ natLe 4 crc ++ List.replicate 48 0

/-- The CRC over the whole table, its own field taken as 0. -/
def State.distCrc (s : State) : Nat := crc32c (s.distHead 0 ++ (upto 672000).flatMap s.distRecord)

/-- DIST_GET (R413): the header, then the records named. -/
def cmdDistGet (m : List Word) (s : State) : CmdOut :=
  let t := msgWord m 2
  let n := msgWord m 3
  if 672000 < t + n ∨ 4096 ≤ msgWord m 5 then .refuse rcBadArgument []
  else
    match hostRoom (msgAddr m 4) (64 + 384 * n) with
    | none => .refuse rcBadArgument []
    | some (j, o) =>
      .long (some rcOk) [loWord s.mesh.distMap.seq] (s.hostPut j o (s.distHead s.distCrc ++ (upto n).flatMap (fun i => s.distRecord (t + i))))

/-- DIST_GET (R413). -/
def execDistGet (c : Nat) (s : State) : Out := s.command c 0x0A02 cmdDistGet

/-- A sequence number is at or after another, modulo 2^32 (R413). -/
def seqReached (have_ want : Nat) : Bool := decide ((have_ + 2 ^ 32 - want % 2 ^ 32) % 2 ^ 32 < 2 ^ 31)

/-- The map, and where it is asked for the table, have reached the number given. -/
def State.mapReached (s : State) (m : List Word) : Bool :=
  seqReached s.mesh.map.seq (msgWord m 2) && (msgWord m 3 == 0 || (seqReached s.mesh.distMap.seq (msgWord m 2) && !s.mesh.distDue))

/-- MAP_WAIT (R413). -/
def cmdMapWait (m : List Word) (s : State) : CmdOut :=
  if 1 < msgWord m 3 then .refuse rcBadArgument [] else .long none [] s

/-- MAP_WAIT (R413). -/
def execMapWait (c : Nat) (s : State) : Out := s.command c 0x0A03 cmdMapWait

/-! ## Pending commands end and start -/

/-- The tick in the first two result words of a clock command. -/
def PendCmd.at_ (p : PendCmd) : Nat := (p.results.getD 0 0).toNat + (p.results.getD 1 0).toNat * 2 ^ 32

/-- A stop of a job has ended: the job is STOPPED. -/
def State.endStop (s : State) (j : Nat) : State :=
  if (s.job j).stopping ∧ s.jobStopped j = true then s.setJob j { s.job j with st := 4, stopping := false } else s

/-- The outcome of a long command whose work has ended, by its code (R403, R404, R410 to R413). -/
def State.workDone (s : State) (p : PendCmd) : Option (Nat × List Word × State) :=
  let m := p.words
  let c := msgCode m
  let x := msgWord m 2
  if c = 0x0304 then
    let s := s.endStop x
    if (s.job x).stopping then none else some (rcOk, [], s)
  else if c = 0x0701 then
    if p.at_ ≤ s.time ∧ s.orderOut 1 = false then some (rcOk, p.results ++ [loWord (s.field 0).clk.op], s) else none
  else if c = 0x0702 then
    if x = 1 then (if p.at_ ≤ s.time ∧ s.orderOut 2 = false then some (rcOk, p.results, s) else none)
    else if s.leavingMode then none else some (rcOk, p.results, s)
  else if c = 0x0802 then (if (s.port x).state = 0 then some (rcOk, [], s) else none)
  else if c = 0x0803 then (if (s.port x).state = 5 then none else some (rcOk, [(s.port x).stateWord], s))
  else if c = 0x0902 then s.applyDone.map (fun t => (rcOk, p.results, t))
  else if c = 0x0A03 then (if s.mapReached m then some (rcOk, [loWord s.mesh.map.seq], s) else none)
  else s.fieldDone m

/-- COMMAND_COMPLETE (R390): a long command's work has ended; its record is posted and it is forgotten. -/
def execCommandComplete (c seq : Nat) (s : State) : Out :=
  .next (match s.findCmd c seq with
    | none => s
    | some p =>
      if p.waiting || !s.mb.running then s
      else
        match p.outcome with
        | some code => s.endCmd p code p.results
        | none =>
          match s.workDone p with
          | some (code, words, t) => t.endCmd p code words
          | none => s)

/-- The shutdown of a function has finished (R395). -/
def State.shutdownEnded (s : State) (key : Nat × Nat) : Bool :=
  if key.1 = 1 then (s.port key.2).state == 0
  else if key.1 = 2 then !((s.field key.2).pwr.plan == .retain)
  else if key.1 = 3 then !(s.job key.2).stopping || s.jobStopped key.2
  else !s.leavingMode

/-- The enable of a waiting command. -/
def runEnable (m : List Word) (s : State) : CmdOut :=
  let c := msgCode m
  if c = 0x0801 then cmdPortUp m s
  else if c = 0x020A then cmdFieldPower m s
  else if c = 0x0303 then cmdJobStart m (s.endStop (msgWord m 2))
  else cmdClkSetMode m s

/-- DEFERRED_ENABLE_START (R395): the shutdown has finished and its own record is posted; the enable runs as though just taken, its limit from now. -/
def execDeferredEnableStart (c seq : Nat) (s : State) : Out :=
  .next (match s.findCmd c seq with
    | none => s
    | some p =>
      match funcKey p.words with
      | none => s
      | some key =>
        let ahead := s.cond.pend.any (fun q => !q.waiting && funcKey q.words == some key)
        if !p.waiting || ahead || !s.mb.running || !s.shutdownEnded key then s
        else
          let drop (t : State) : State := { t with cond := { t.cond with pend := t.cond.pend.filter (fun q => !(q.chan == c && q.seq == seq)) } }
          match runEnable p.words (drop s) with
          | .refuse code words => s.endCmd p code words
          | .done words t => t.endCmd p rcOk words
          | .long outcome words t =>
            (t.addPend { p with waiting := false, since := s.time, outcome := outcome, results := words }).modChan c
              (fun h => if h.jSeq = seq ∧ h.jState = 3 then { h with jState := 2 } else h)
          | .defer _ => s)

end Sys2Proof.Machine
end

