-- ==== Sys2Proof/Machine/HedgeCore.lean ====
section
/-! DEFINITION. Hedgerow itself: its flash writes (R472, R473), its start (R443, R444, R454, R464), the release of cold reset (R26, R471), chassis health (R450), and the commands it sends on its own channels (R451). -/

namespace Sys2Proof.Machine

/-! ## The recorder's flash (R472, R473) -/

/-- Slots of the Scarab region. -/
def regionSlots : Nat := 262144

/-- A record of Hedgerow's own, made where it is written. -/
def State.ownRec (s : State) (code : Nat) (detail : List Nat) : Rec := { ev := { code := code, time := s.time, src := srcHedgerow, detail := detail }, suppressed := 0 }

/-- Write one record; the near-full mark follows the 229,376th, and a record beyond the last slot is refused and counted (R473). -/
def State.flashRec (s : State) (r : Rec) : State :=
  let k := s.scarab
  if regionSlots ≤ k.region.length then
    { s with scarab := { (k.drop r.ev.code) with fullTime := match k.fullTime with
      | some t => some t
      | none => some s.time } }
  else
    let rs := k.region ++ [r]
    { s with scarab := { k with region := if rs.length = 229376 then rs ++ [s.ownRec 0x0F8B [229376]] else rs } }

/-- Write the whole RAM buffer. -/
def State.flush (s : State) : State :=
  let s := s.scarab.ram.foldl State.flashRec { s with scarab := { s.scarab with ram := [] } }
  { s with scarab := { s.scarab with flushAt := s.hedgeNow } }

/-- SCARAB_FLUSH (R472): every 100 ms, and at once when 512 records wait. -/
def execScarabFlush (s : State) : Out :=
  .next (if s.hedge.up ∧ (s.scarab.flushAt + 2500000 ≤ s.hedgeNow ∨ 512 ≤ s.scarab.ram.length) then s.flush else s)

/-- The slot check no longer holds Hedgerow's records: what it held follows what was written for the check (R454). -/
def State.release (s : State) : State :=
  if s.scarab.opening then
    { s with scarab := s.scarab.held.foldl (fun k e => k.accept s.hedgeNow e) { s.scarab with opening := false, held := [] } }
  else s

/-- Write MODULE_INSTALLED before what is held (R454). -/
def State.installed (s : State) (detail : List Nat) : State :=
  let e : Ev := { code := 0x0F82, time := s.time, src := srcHedgerow, detail := detail }
  ({ s with scarab := s.scarab.accept s.hedgeNow e }).release

/-! ## UTC (R471) -/

/-- UTC now, in seconds. -/
def State.utcNow (s : State) : Nat := s.hedge.utc + (s.hedgeNow - s.hedge.utcAt) / tickHz

/-- Set the clock. -/
def State.setUtc (s : State) (utc : Nat) : State := { s with hedge := { s.hedge with utc := utc, utcAt := s.hedgeNow } }

/-! ## Image regions (R464) -/

/-- The regions other than Hedgerow's own verify. -/
def State.regionsOk (s : State) : Bool := [2, 3, 4, 5, 6].all (fun k => (s.flash.regions.getD k {}).ok)

/-- Take what a start's verification found. -/
def State.verify (s : State) (bad : List Nat) : State :=
  { s with flash := { s.flash with regions := [1, 2, 3, 4, 5, 6].foldl (fun r k => r.modify k {} (fun i => { i with ok := !bad.contains k })) s.flash.regions } }

/-! ## Cold reset (R26 step 3, R359, R471) -/

/-- A field at the release of cold reset: keep fields powered and clocked at OP0; trims, the test history and what holds a field FAILED stay (R338, R353, R366). -/
def Field.cold (fd : Field) (f : Nat) (fc tile : Img) : Field :=
  let bad := fd.pwr.coreLatch || fd.pwr.memLatch || fd.pwr.insul == 2
  let keep := isKeep f && !bad
  { clk := { clock := if keep then 2 else 0, halted := !keep }
    pwr := { state := if bad then .failed else if keep then .idle else .off
             cause := if bad then fd.pwr.cause else 0, trims := fd.pwr.trims, shorts := fd.pwr.shorts, epochsAt := fd.pwr.epochsAt, marginStops := fd.pwr.marginStops, temp := fd.pwr.temp, sensor := fd.pwr.sensor
             coreLatch := fd.pwr.coreLatch, memLatch := fd.pwr.memLatch, insul := fd.pwr.insul, tripped := fd.pwr.tripped }
    svc := { state := if bad then .failed else .out, furrow := some (if bad then 2 else 5)
             recs := fd.svc.recs.mapVals (fun _ r => ({ fails := r.fails } : TRec)) }
    master := { active := f == 0 }
    fcVersion := fc.version, fcDigest := fc.digest, tileVersion := tile.version, tileDigest := tile.digest }

/-- The release of cold reset: the board is enabled, keep fields powered, wafer time 0, and a time anchor written. -/
def State.coldReset (s : State) : State :=
  let v (k : Nat) : Img := s.flash.regions.getD k {}
  let before := s.time
  let s := { s with
    time := 0, mesh := {}, mb := {}, cond := {}, tiles := []
    hedge := { s.hedge with base := s.hedge.base + before, before := before, anchorAt := s.hedge.base + before }
    boot := { kind := 1 }
    chassis := { s.chassis with board := true, busStopped := false, heldOff := false, restartAt := none, resetHeld := false }
    flash := { s.flash with coldResets := s.flash.coldResets + 1 }
    scarab := { s.scarab with holding := [] }
    fields := (upto 56).map (fun f => (f, (s.field f).cold f (v 3) (v 4)))
    ports := s.ports.mapVals (fun _ p => ({ partner := p.partner } : Port)) }
  let s := { s with hosts := ((upto 4).filter (fun j => (s.field (keepField j)).running)).map (fun j => (j, ({} : HostNode).reboot 0)) }
  let s := s.event srcHedgerow 0x0F83 [s.utcNow, 0, before, s.flash.coldResets]
  let s := [0, 7, 48, 55].foldl State.portWake s
  s.bootTo 3

/-- Hedgerow starts the engine at step 3 where its inputs and images allow it (R26, R449, R464). -/
def State.tryStart (s : State) : State :=
  let c := s.chassis
  if s.hedge.up && c.input && c.pwrEn && c.stbyGood && !c.board && !c.busStopped && !c.heldOff && c.restartAt.isNone && c.shutdown.isNone &&
      !c.resetHeld && s.regionsOk then s.coldReset
  else s

/-! ## Start and restart of Hedgerow (R443, R444) -/

/-- Profiles that were taken while Hedgerow was down are written to flash as it returns (R378). -/
def State.profilesDue (s : State) : State :=
  let p := s.hedge.profDue.foldl (fun d f => d.put f (s.field f).mem.profiles) s.flash.profiles
  { s with flash := { s.flash with profiles := p }, hedge := { s.hedge with profDue := [] } }

/-- Hedgerow starts: regions are verified, buckets are full, the slot check opens, sessions and bus state begin anew, and event 0x0F81 is written. cause: 0 cold, 1 restart, 2 watchdog, 3 update, 4 recovery. Where its own region fails, the recovery loader runs instead (R466). -/
def State.hedgeStart (s : State) (cause : Nat) (bad : List Nat) : State :=
  let s := s.verify bad
  let now := s.hedgeNow
  let s := { s with
    scarab := { s.scarab with buckets := [], opening := true, held := [], flushAt := now }
    hedge := { s.hedge with
      up := !bad.contains 1, recovering := bad.contains 1, retryAt := none, pollAt := s.time, sideLink := false, sideMode := 0, sideAt := now
      i3c := none, eid := 0, mctp := [], i3cRead := none, slot := .waiting now, slotStored := false, spdm := [], spdmOut := none, sessions := []
      sensors := [], frames := [], pushing := [], unread := if within 1 3 cause then upto 56 else [] }
    watch := { s.watch with overs := 0, forcedAt := none } }
  if bad.contains 1 then s else s.profilesDue.event srcHedgerow 0x0F81 [cause, (s.flash.regions.getD 1 {}).version]

/-- Hedgerow restarts without touching the wafer (R444): accepted records are written first, and its pending own records with them. -/
def State.hedgeRestart (s : State) (cause : Nat) (bad : List Nat) : State := (s.release.flush).hedgeStart cause bad

/-- HEDGEROW_RESTART (R444). -/
def execHedgerowRestart (c : HedgeCause) (bad : List Nat) (s : State) : Out :=
  let cause := match c with
    | .reset => 1 | .watchdog => 2 | .commit => 3
  .next (if s.hedge.up then s.hedgeRestart cause bad else s)

/-- STANDBY_INPUT_LOSS (R443): pending records are written in the hold-up, the bus is gone, and Hedgerow goes down. -/
def execStandbyInputLoss (s : State) : Out :=
  .next (if s.chassis.input then
      let s := if s.chassis.board then s.boardOff 5 else s
      let s := if s.hedge.up then s.release.flush else s
      { s with chassis := { s.chassis with input := false, mv := 0, restartAt := none, shutdown := none, resetHeld := false, busStopped := false, goodSince := none }
               hedge := { s.hedge with up := false, recovering := false } }
    else s)

/-! ## Health (R450) -/

/-- Any sensor is failed. -/
def Hedge.sensorFailed (h : Hedge) : Bool := h.sensors.any (fun e => e.2.failed)

/-- Chassis health: 0 OK, 1 Warning, 2 Critical (R450). -/
def State.health (s : State) : Nat :=
  let c := s.chassis
  if c.busStopped || (c.heldOff && decide (3 ≤ c.restarts)) || !s.regionsOk || !(s.flash.regions.getD 1 {}).ok || s.osc == 2 || s.watch.response == 2 then 2
  else if decide (total ((upto 56).map s.admitted) < guaranteed) ||
      (upto 56).any (fun f => (s.field f).svc.state == .failed || (isCompute f && (s.field f).svc.state == .out)) ||
      decide (0 < s.cond.highest) || (s.boot.complete && !s.mb.standbyReady) || s.hedge.sensorFailed || coolantLost s.watch.coolant ||
      decide (229376 < s.scarab.region.length) then 1
  else 0

/-- FAULT_N is low: until Hedgerow is up, and while health is Critical (R498). -/
def State.faultLow (s : State) : Bool := s.chassis.input && (!s.hedge.up || s.health == 2)

/-- The identify LED blinks (R497, R500). -/
def State.identLed (s : State) : Bool := s.chassis.ident || s.hedge.led

/-! ## The LEDs (R506) -/

/-- The health LED: 0 dark, 1 green, 2 amber, 3 amber flashing, 4 amber and green alternating while the recovery loader runs. -/
def State.healthLed (s : State) : Nat :=
  if !s.chassis.input then 0 else if s.hedge.recovering then 4 else if !s.hedge.up then 0 else s.health + 1

/-- The standby LED is lit while Hedgerow is up. -/
def State.standbyLed (s : State) : Bool := s.chassis.input && s.hedge.up

/-- The LED of a glow bay: 0 off, 1 amber, 2 green. -/
def State.glowLed (s : State) (g : Nat) : Nat := s.glow.getD g 1

/-- The LED of an optical connector: 0 off, 1 amber, 2 green. -/
def State.portLed (s : State) (p : Nat) : Nat :=
  let st := (s.port p).state
  if st = 4 then 2 else if st = 0 ∨ st = 1 then 0 else 1

/-! ## Hedgerow's channels (R385, R391, R451) -/

/-- Ring a command without a record on a channel of Hedgerow's that is free; none where all are busy. -/
def State.ring (s : State) (secure : Bool) (code : Nat) (args : List Nat) : Option State :=
  let cs := (upto 8).map (fun i => (if secure then 56 else 48) + i)
  match cs.find? (fun c => !(s.chan c).full && (s.chan c).buf.isNone) with
  | none => none
  | some c =>
    let ws : List Nat := [code + args.length * 2 ^ 24, 0] ++ args
    some ((s.spineGrant 4).modChan c (fun h => { h with
      msg := (ws ++ List.replicate (16 - ws.length) 0).zipIdx.map (fun (e : Nat × Nat) => (e.2, BitVec.ofNat 32 e.1))
      seq := if 65535 ≤ h.seq then 1 else h.seq + 1, full := true, taken := false }))

end Sys2Proof.Machine
end

