-- ==== Sys2Proof/Machine/Chassis.lean ====
section
/-! DEFINITION. The chassis inputs, the power board and start-up (R24, R26, R33, R325, R369, R497 to R500). -/

namespace Sys2Proof.Machine

/-- Responses in event 0x0B89 beyond the ranges of R325. The spec gives them no numbers; these are the model's (log entry 20). -/
def respPowerEnable : Nat := 5
def respStandbyGood : Nat := 6
def respModReset : Nat := 7

/-- INPUT_POWER_APPLIED (R26 step 1, R443, R464): Hedgerow starts, its count at 0; bad lists the regions that fail verification. The clock has run on for a time the model does not hold. -/
def execInputPowerApplied (mv : Nat) (bad : List Nat) (s : State) : Out :=
  .next (if !s.chassis.input && within 40000 72000 mv then
      let v := s.freeVal
      let utc := s.utcNow + v.1.toNat
      let s := { v.2 with
        time := 0, chassis := { s.chassis with input := true, mv := mv, heldOff := false }
        hedge := { s.hedge with base := 0, before := 0, anchorAt := 0, utc := utc, utcAt := 0 }, watch := {}
        fields := s.fields.mapVals (fun _ fd => { fd with pwr := { fd.pwr with shorts := [] } }) }
      s.hedgeStart 0 bad
    else s)

/-- POWER_ENABLE (R26 step 3, R497): a new assertion also ends a held-off state (R449); what start-up still waits for holds it back. -/
def execPowerEnable (s : State) : Out :=
  let c := s.chassis
  let fresh := !(c.pwrEn && c.stbyGood)
  .next ({ s with chassis := { c with pwrEn := true, stbyGood := true, heldOff := c.heldOff && !fresh, restarts := if fresh then 0 else c.restarts } }).tryStart

/-- The planned shutdown of R499: ports close, fields go OFF by plan, nodes are reset, the board goes, and the Scarab buffer is written. -/
def State.shutdown (s : State) : State :=
  let s := (upto 56).foldl State.portDown s
  let s := (upto 56).foldl (fun s f => if isCompute f then (match (s.field f).pwr.state with
    | .retain | .idle | .active => s.plannedOff f
    | .off | .failed => s) else s) s
  let s := s.boardOff 1
  { s with chassis := { s.chassis with shutdown := none } }.flush

/-- Power-enable is withdrawn (R33, R497, R499): start-up is abandoned; after bring-up the conductor shuts the engine down, or Hedgerow waits 10 ms for one. -/
def State.powerWithdrawn (s : State) (resp : Nat) : State :=
  let s := { s with chassis := { s.chassis with restartAt := none, resetHeld := false } }
  if !s.chassis.board then s
  else
    let s := s.event srcHedgerow 0x0B89 [s.chassis.mv, resp]
    if !s.boot.complete then s.boardOff 1
    else if s.mb.running then s.shutdown
    else { s with chassis := { s.chassis with shutdown := some s.hedgeNow } }

/-- PWR_EN_FALL (R497). -/
def execPwrEnFall (s : State) : Out :=
  .next (if s.chassis.pwrEn then ({ s with chassis := { s.chassis with pwrEn := false } }).powerWithdrawn respPowerEnable else s)

/-- STBY_GOOD_FALL (R497): acts as PWR_EN falling. -/
def execStbyGoodFall (s : State) : Out :=
  let s1 := { s with chassis := { s.chassis with stbyGood := false } }
  .next (if s.chassis.stbyGood ∧ s.chassis.pwrEn then s1.powerWithdrawn respStandbyGood else s1)

/-- SHUTDOWN_CONDUCTOR_TIMEOUT (R499): the board is disabled directly; power-enable that rose meanwhile starts the engine again (R500). -/
def execShutdownConductorTimeout (s : State) : Out :=
  .next (match s.chassis.shutdown with
    | some p =>
      if p + 250000 ≤ s.hedgeNow then
        let s := s.boardOff 1
        ({ s with chassis := { s.chassis with shutdown := none } }.flush).tryStart
      else s
    | none => s)

/-- MOD_RESET_FALL (R33, R369, R497, R500): a warm reset after bring-up; during start-up the sequence is abandoned until release; ignored during a shutdown, and within 250 ticks of the last release. -/
def execModResetFall (s : State) : Out :=
  let c := s.chassis
  let settled := match c.releasedAt with
    | some t => decide (t + 250 ≤ s.hedgeNow)
    | none => true
  .next (if c.modReset || !settled then s
    else
      let s := { s with chassis := { c with modReset := true } }
      if c.shutdown.isSome || !c.board then s
      else if !s.boot.complete then
        let s := (s.event srcHedgerow 0x0B89 [c.mv, respModReset]).boardOff 1
        { s with chassis := { s.chassis with resetHeld := true } }
      else if s.warmOk then s.startWarm else s)

/-- MOD_RESET_RELEASE (R33). -/
def execModResetRelease (s : State) : Out :=
  .next (if s.chassis.modReset then
      ({ s with chassis := { s.chassis with modReset := false, resetHeld := false, releasedAt := some s.hedgeNow } }).tryStart
    else s)

/-- IDENT_INPUT (R497). -/
def execIdentInput (low : Bool) (s : State) : Out := .next { s with chassis := { s.chassis with ident := low } }

/-! ## Silence of both conductors (R24) -/

/-- The tick the last heartbeat was due: the last one written, or the bound by which the conductor of a bring-up has booted (R359 step 4, R370 step 5). -/
def State.lastBeat (s : State) : Nat :=
  if s.mb.beatAt = 0 then (if s.boot.kind = 2 then s.boot.stopAt + 125000000 else 200000000) else s.mb.beatAt

/-- CONDUCTOR_SILENCE_CHECK (R24): event 0x0F8F, with the action to come: 0 none, 1 warm reset, 2 cold restart, 3 the board stays disabled. The spec gives the actions no numbers; these are the model's (log entry 20). -/
def execConductorSilenceCheck (s : State) : Out :=
  .next (if s.hedge.up && s.chassis.board && s.cond.silent.isNone && decide (s.lastBeat + 25000000 ≤ s.time) then
      let act := if !s.hedge.cfg.silenceReset then 0 else if s.boot.complete then 1 else if s.chassis.restarts < 3 then 2 else 3
      ({ s with cond := { s.cond with silent := some s.time, silentSeen := true } }).event srcHedgerow 0x0F8F [s.time - s.lastBeat, act]
    else s)

/-- Disable the board for 2 s (R24, R449). -/
def State.boardPause (s : State) : State :=
  let s := s.boardOff 1
  { s with chassis := { s.chassis with restartAt := some (s.hedgeNow + 50000000) } }

/-- CONDUCTOR_SILENCE_ACTION (R24). -/
def execConductorSilenceAction (s : State) : Out :=
  .next (match s.cond.silent with
    | some t =>
      if !(s.hedge.up && s.chassis.board && s.hedge.cfg.silenceReset && decide (t + 100000000 ≤ s.time) && decide (s.lastBeat ≤ t)) then s
      else
        let s := { s with cond := { s.cond with silent := none } }
        if s.boot.complete then (if s.warmOk then s.startWarm else s)
        else if s.chassis.restarts < 3 then
          ({ s with chassis := { s.chassis with restarts := s.chassis.restarts + 1 } }).boardPause
        else
          let s := (s.event srcHedgerow 0x0F8F [s.time - s.lastBeat, 3]).boardOff 1
          { s with chassis := { s.chassis with heldOff := true } }
    | none => s)

/-- COLD_RESTART_TIMER (R24, R449). -/
def execColdRestartTimer (s : State) : Out :=
  .next (match s.chassis.restartAt with
    | some t => if t ≤ s.hedgeNow then ({ s with chassis := { s.chassis with restartAt := none } }).tryStart else s
    | none => s)

/-- BUS_RESTART (R325): input in range for 1 s with power-enable asserted. -/
def execBusRestart (s : State) : Out :=
  .next (match s.chassis.goodSince with
    | some t =>
      if s.chassis.busStopped = true ∧ s.chassis.pwrEn = true ∧ t + 25000000 ≤ s.hedgeNow then
        ({ s with chassis := { s.chassis with busStopped := false } }).tryStart
      else s
    | none => s)

/-! ## Warm reset -/

/-- WARM_RESET (R369, R370, R372): refused while one may not be accepted; cold is not 0 where a defect record that fails its check (1) or a changed profile format (2) makes it a cold bring-up, with event 0x0D85. -/
def execWarmReset (_c : WarmCause) (cold : Nat) (s : State) : Out :=
  .next (if !s.warmOk then s
    else if cold = 0 then s.startWarm
    else
      let s := (s.event srcConductor 0x0D85 [0xFF, cold]).boardOff 1
      s.tryStart)

end Sys2Proof.Machine
end

