-- ==== Sys2Proof/Machine/ControlCore.lean ====
section
/-! DEFINITION. The control core's base instructions (R34 to R36): loads and stores, CSRs, ecall and ebreak. -/

namespace Sys2Proof.Machine

/-- The effective address of a load or store. -/
def State.lsAddr (s : State) (t : TileId) (a : LsArgs) : Word := (s.tile t).reg a.rs1 + a.imm

/-- Where an access of n bytes may lie (R36). -/
def mapped (o n : Nat) : Bool := inMem o n || inRegs o n

/-- The check of an access: alignment first, then the map (R36, R67); kind is 0 load, 1 store. -/
def State.lsFault (s : State) (t : TileId) (a : LsArgs) (kind : Nat) : Option State :=
  let w := s.lsAddr t a
  let o := w.toNat
  if !(o % a.size == 0) then some (s.raise t 0 fcMisaligned w (BitVec.ofNat 32 a.size))
  else if !mapped o a.size then some (s.raise t 0 fcUnmapped w (BitVec.ofNat 32 kind))
  else none

/-- A loaded value, sign- or zero-extended. -/
def extendLoad (size : Nat) (unsigned : Bool) (v : Nat) : Word :=
  if unsigned then BitVec.ofNat 32 v
  else if size = 1 then (BitVec.ofNat 8 v).signExtend 32
  else if size = 2 then (BitVec.ofNat 16 v).signExtend 32
  else BitVec.ofNat 32 v

/-- A load (R36, R118): memory ignoring tags, or a register, which a narrower access reads as 0 (R6). -/
def State.coreLoad (s : State) (t : TileId) (a : LsArgs) : State :=
  match s.lsFault t a 0 with
  | some s' => s'
  | none =>
    let o := (s.lsAddr t a).toNat
    let done (v : Word) (s : State) : State := s.modTile t (fun tl => (tl.setReg a.reg v).retire a.ilen 1)
    if inRegs o a.size then
      if a.size = 4 then
        let p := s.readTileReg t (o - regBase)
        done p.1 p.2
      else done 0 s
    else
      s.reading t 0 o a.size (fun bs s => done (extendLoad a.size a.unsigned (leNat bs)) s)

/-- A store (R36, R119). -/
def State.coreStore (s : State) (t : TileId) (a : LsArgs) : State :=
  match s.lsFault t a 1 with
  | some s' => s'
  | none =>
    let o := (s.lsAddr t a).toNat
    let v := (s.tile t).reg a.reg
    let done (s : State) : State := s.modTile t (fun tl => tl.retire a.ilen 1)
    if inRegs o a.size then
      if a.size = 4 then (done s).writeTileReg t .core (o - regBase) v else done s
    else
      s.writing t 0 o a.size (fun s => done (s.modTile t (fun tl => tl.put o (natLe a.size v.toNat))))

/-- CORE_LOAD (R36). -/
def execCoreLoad (t : TileId) (a : LsArgs) (s : State) : Out := .next (if s.coreReady t then s.coreLoad t a else s)

/-- CORE_STORE (R36). -/
def execCoreStore (t : TileId) (a : LsArgs) (s : State) : Out := .next (if s.coreReady t then s.coreStore t a else s)

/-! ## CSRs (R35) -/

/-- Cycles of the tile's field since the tile last entered QUARANTINE. -/
def State.mcycle (s : State) (t : TileId) : Nat := s.cycles t - (s.tile t).core.cycleBase

/-- The value of a listed CSR; the numbers are RISC-V's (R34 names that architecture). -/
def State.csr (s : State) (t : TileId) (n : Nat) : Option Word :=
  let lo (v : Nat) : Option Word := some (BitVec.ofNat 32 v)
  let hi (v : Nat) : Option Word := some (BitVec.ofNat 32 (v / 2 ^ 32))
  if n = 0x301 then some 0x40001104
  else if n = 0xF14 then some (s.regControl t 0)
  else if n = 0xC00 ∨ n = 0xB00 then lo (s.mcycle t)
  else if n = 0xC80 ∨ n = 0xB80 then hi (s.mcycle t)
  else if n = 0xC02 ∨ n = 0xB02 then lo (s.tile t).core.instret
  else if n = 0xC82 ∨ n = 0xB82 then hi (s.tile t).core.instret
  else if n = 0xC01 then lo s.time
  else if n = 0xC81 then hi s.time
  else none

/-- The funct3 of a Zicsr operation. -/
def csrFunct3 : CsrOp → Nat
  | .rw => 1 | .rs => 2 | .rc => 3 | .rwi => 5 | .rsi => 6 | .rci => 7

/-- The instruction word of a Zicsr instruction. -/
def csrWord (n : Nat) (op : CsrOp) (rd rs1 : Nat) : Word :=
  word [(0x73, 0), (rd, 7), (csrFunct3 op, 12), (rs1, 15), (n, 20)]

/-- The operation writes its CSR: csrrw and csrrwi always, the others by a non-zero operand (R35). -/
def csrWrites (op : CsrOp) (rs1 : Nat) : Bool :=
  match op with
  | .rw | .rwi => true
  | .rs | .rc | .rsi | .rci => !(rs1 == 0)

/-- A CSR instruction (R35): a listed CSR is read; a write or an unlisted CSR is illegal. -/
def State.csrAccess (s : State) (t : TileId) (n : Nat) (op : CsrOp) (rd rs1 : Nat) : State :=
  match s.csr t n with
  | none => s.raise t 0 fcIllegal (csrWord n op rd rs1) 0
  | some v =>
    if csrWrites op rs1 then s.raise t 0 fcIllegal (csrWord n op rd rs1) 0
    else s.modTile t (fun tl => (tl.setReg rd v).retire 4 1)

/-- CSR_ACCESS (R35). -/
def execCsrAccess (t : TileId) (csr : Nat) (op : CsrOp) (rd rs1 : Nat) (s : State) : Out :=
  .next (if s.coreReady t then s.csrAccess t csr op rd rs1 else s)

/-- ECALL (R34): halts with fault 0x0702. -/
def execEcall (t : TileId) (s : State) : Out := .next (if s.coreReady t then s.raise t 0 fcEcall 0 0 else s)

/-- EBREAK (R34): halts with fault 0x0703. -/
def execEbreak (t : TileId) (s : State) : Out := .next (if s.coreReady t then s.raise t 0 fcEbreak 0 0 else s)

end Sys2Proof.Machine
end

