-- ==== Sys2Proof/Machine/ControlPackets.lean ====
section
/-! DEFINITION. VC0 reads and writes (R115, R124, R179): at a tile by offset, and in a field controller's own space. -/

namespace Sys2Proof.Machine

/-- The words of a field controller's space from an offset on. -/
def State.fcWords (s : State) (f o n : Nat) : List Byte := (upto n).flatMap (fun i => wordLe (s.fcReg f (o + 4 * i)))

/-- Write whole words of a field controller's space, each by the writers its map names. Where the words cover both of a SYNC_RECi they are one set of that cell (R258). -/
def State.writeFcWords (s : State) (f : Nat) (w : Writer) (o : Nat) (data : List Byte) : State :=
  let n := data.length / 4
  let at_ (i : Nat) : Word := leWord (bytesAt data (4 * i) 4)
  let rec_ (i : Nat) : Bool := decide (0x20000 ≤ o + 4 * i ∧ o + 4 * i < 0x30000)
  (upto n).foldl (fun s i =>
    let a := o + 4 * i
    if rec_ i && a % 8 == 0 && decide (i + 1 < n) then s.syncRecWrite f ((a - 0x20000) / 8) (some (at_ i)) (some (at_ (i + 1))) w
    else if rec_ i && a % 8 == 4 && decide (0 < i) then s
    else s.writeFcReg f w a (at_ i)) s

/-- A VC0 request in a field controller's space (R179): its controller takes those of VC0 sources; an access that is no aligned word writes nothing and reads zeros (R6). -/
def State.fcAt (s : State) (f : Nat) (h : Hdr) (body : Body) (act : State → State) : State :=
  s.landing { h := h, body := body } fun s => if vc0Source f h.src then act s else s.ctrlAnswer h stPeerLost []

/-- CTRL_WRITE (R115, R124). -/
def execCtrlWrite (h : Hdr) (off : Nat) (data : List Byte) (s : State) : Out :=
  .next (match h.dst with
    | .fc f => s.fcAt f h (.ctrlWrite off data) (fun s =>
      (if off % 4 = 0 ∧ data.length % 4 = 0 then s.writeFcWords f (vc0Writer h.src) off data else s).ctrlAnswer h stOk [])
    | _ => s.vc0At h (.ctrlWrite off data) (fun t s =>
      let p := s.rawPut t (vc0Writer h.src) off data
      p.2.ctrlAnswer h p.1 []))

/-- CTRL_READ (R115, R124). -/
def execCtrlRead (h : Hdr) (off len : Nat) (s : State) : Out :=
  .next (match h.dst with
    | .fc f => s.fcAt f h (.ctrlRead off len) (fun s =>
      s.ctrlAnswer h stOk (if off % 4 = 0 ∧ len % 4 = 0 then s.fcWords f off (len / 4) else List.replicate len 0))
    | _ => s.vc0At h (.ctrlRead off len) (fun t s =>
      let p := s.rawGet t off len
      p.2.2.ctrlAnswer h p.1 p.2.1))

end Sys2Proof.Machine
end

