-- ==== Sys2Proof/Machine/Fetch.lean ====
section
/-! DEFINITION. Fetching and running a base instruction (R34 to R36): RV32I, M, C, Zicsr and Zifencei by their public encodings (PRESUMED, log entry 18), and the Xkyoro words of R40. -/

namespace Sys2Proof.Machine

/-! ## Encodings -/

/-- A number's low n bits read as two's complement, as a word. -/
def sx (n v : Nat) : Word := if nbit v (n - 1) then BitVec.ofNat 32 v - BitVec.ofNat 32 (2 ^ n) else BitVec.ofNat 32 v

/-- I-type word. -/
def encI (op f3 rd rs1 imm : Nat) : Word := word [(op, 0), (rd, 7), (f3, 12), (rs1, 15), (imm % 4096, 20)]
/-- R-type word. -/
def encR (op f3 f7 rd rs1 rs2 : Nat) : Word := word [(op, 0), (rd, 7), (f3, 12), (rs1, 15), (rs2, 20), (f7, 25)]
/-- S-type word. -/
def encS (op f3 rs1 rs2 imm : Nat) : Word := word [(op, 0), (imm % 32, 7), (f3, 12), (rs1, 15), (rs2, 20), (imm / 32 % 128, 25)]
/-- B-type word; imm is a 13-bit two's complement offset. -/
def encB (f3 rs1 rs2 imm : Nat) : Word :=
  word [(0x63, 0), (nbits imm 11 11, 7), (nbits imm 4 1, 8), (f3, 12), (rs1, 15), (rs2, 20), (nbits imm 10 5, 25), (nbits imm 12 12, 31)]
/-- J-type word; imm is a 21-bit two's complement offset. -/
def encJ (rd imm : Nat) : Word :=
  word [(0x6F, 0), (rd, 7), (nbits imm 19 12, 12), (nbits imm 11 11, 20), (nbits imm 10 1, 21), (nbits imm 20 20, 31)]

/-- Widen an n-bit two's complement field to m bits. -/
def widen (n m v : Nat) : Nat := if nbit v (n - 1) then v + 2 ^ m - 2 ^ n else v

/-! ## Compressed instructions: each is expanded to the word it stands for -/

/-- Quadrant 0. -/
def expand0 (c : Nat) : Option Word :=
  let f3 := nbits c 15 13
  let rd := 8 + nbits c 4 2
  let rs := 8 + nbits c 9 7
  let lw := nbits c 12 10 * 8 + nbits c 6 6 * 4 + nbits c 5 5 * 64
  if f3 = 0 then
    let imm := nbits c 12 11 * 16 + nbits c 10 7 * 64 + nbits c 6 6 * 4 + nbits c 5 5 * 8
    if imm = 0 then none else some (encI 0x13 0 rd 2 imm)
  else if f3 = 2 then some (encI 0x03 2 rd rs lw)
  else if f3 = 6 then some (encS 0x23 2 rs rd lw)
  else none

/-- Offset of c.j and c.jal. -/
def cjImm (c : Nat) : Nat :=
  widen 12 21 (nbits c 12 12 * 2048 + nbits c 11 11 * 16 + nbits c 10 9 * 256 + nbits c 8 8 * 1024 + nbits c 7 7 * 64 +
    nbits c 6 6 * 128 + nbits c 5 3 * 2 + nbits c 2 2 * 32)

/-- Offset of c.beqz and c.bnez. -/
def cbImm (c : Nat) : Nat :=
  widen 9 13 (nbits c 12 12 * 256 + nbits c 11 10 * 8 + nbits c 6 5 * 64 + nbits c 4 3 * 2 + nbits c 2 2 * 32)

/-- Quadrant 1. -/
def expand1 (c : Nat) : Option Word :=
  let f3 := nbits c 15 13
  let rd := nbits c 11 7
  let r := 8 + nbits c 9 7
  let r2 := 8 + nbits c 4 2
  let i6 := nbits c 12 12 * 32 + nbits c 6 2
  let imm := widen 6 12 i6
  if f3 = 0 then some (encI 0x13 0 rd rd imm)
  else if f3 = 1 then some (encJ 1 (cjImm c))
  else if f3 = 2 then some (encI 0x13 0 rd 0 imm)
  else if f3 = 3 then
    if i6 = 0 then none
    else if rd = 2 then
      some (encI 0x13 0 2 2 (widen 10 12 (nbits c 12 12 * 512 + nbits c 6 6 * 16 + nbits c 5 5 * 64 + nbits c 4 3 * 128 + nbits c 2 2 * 32)))
    else some (word [(0x37, 0), (rd, 7), (widen 6 20 i6, 12)])
  else if f3 = 4 then
    let k := nbits c 11 10
    if k = 0 then (if nbit c 12 then none else some (encI 0x13 5 r r (nbits c 6 2)))
    else if k = 1 then (if nbit c 12 then none else some (encI 0x13 5 r r (0x400 + nbits c 6 2)))
    else if k = 2 then some (encI 0x13 7 r r imm)
    else if nbit c 12 then none
    else
      let j := nbits c 6 5
      some (if j = 0 then encR 0x33 0 0x20 r r r2 else encR 0x33 (nth [0, 4, 6, 7] j 0) 0 r r r2)
  else if f3 = 5 then some (encJ 0 (cjImm c))
  else some (encB (if f3 = 6 then 0 else 1) r 0 (cbImm c))

/-- Quadrant 2. -/
def expand2 (c : Nat) : Option Word :=
  let f3 := nbits c 15 13
  let rd := nbits c 11 7
  let rs2 := nbits c 6 2
  if f3 = 0 then (if nbit c 12 then none else some (encI 0x13 1 rd rd rs2))
  else if f3 = 2 then
    if rd = 0 then none else some (encI 0x03 2 rd 2 (nbits c 12 12 * 32 + nbits c 6 4 * 4 + nbits c 3 2 * 64))
  else if f3 = 4 then
    if !nbit c 12 then
      if rs2 = 0 then (if rd = 0 then none else some (encI 0x67 0 0 rd 0)) else some (encR 0x33 0 0 rd 0 rs2)
    else if rs2 = 0 then (if rd = 0 then some 0x00100073 else some (encI 0x67 0 1 rd 0))
    else some (encR 0x33 0 0 rd rd rs2)
  else if f3 = 6 then some (encS 0x23 2 2 rs2 (nbits c 12 9 * 4 + nbits c 8 7 * 64))
  else none

/-- The word a compressed instruction stands for; none where its encoding is reserved or names an extension the core lacks. -/
def expandC (c : Nat) : Option Word :=
  if c % 4 = 0 then expand0 c else if c % 4 = 1 then expand1 c else expand2 c

/-! ## Arithmetic -/

/-- Signed quotient: −1 for a zero divisor, the dividend on overflow. -/
def divS (a b : Word) : Word :=
  if b = 0 then BitVec.allOnes 32 else if a = 0x80000000 ∧ b = BitVec.allOnes 32 then a else a.sdiv b
/-- Signed remainder. -/
def remS (a b : Word) : Word :=
  if b = 0 then a else if a = 0x80000000 ∧ b = BitVec.allOnes 32 then 0 else a.srem b

/-- The M extension by funct3. -/
def mulDiv (f3 : Nat) (a b : Word) : Word :=
  let hi (x y : BitVec 64) : Word := ((x * y) >>> (32 : Nat)).setWidth 32
  if f3 = 0 then a * b
  else if f3 = 1 then hi (a.signExtend 64) (b.signExtend 64)
  else if f3 = 2 then hi (a.signExtend 64) (b.zeroExtend 64)
  else if f3 = 3 then hi (a.zeroExtend 64) (b.zeroExtend 64)
  else if f3 = 4 then divS a b
  else if f3 = 5 then (if b = 0 then BitVec.allOnes 32 else a / b)
  else if f3 = 6 then remS a b
  else if b = 0 then a else a % b

/-- The integer operations by funct3; alt is bit 30 of the word. -/
def aluOp (f3 : Nat) (alt : Bool) (a b : Word) : Word :=
  let sh := b.toNat % 32
  if f3 = 0 then (if alt then a - b else a + b)
  else if f3 = 1 then a <<< sh
  else if f3 = 2 then (if a.slt b then 1 else 0)
  else if f3 = 3 then (if a.ult b then 1 else 0)
  else if f3 = 4 then a ^^^ b
  else if f3 = 5 then (if alt then a.sshiftRight sh else a >>> sh)
  else if f3 = 6 then a ||| b
  else a &&& b

/-- The branch conditions by funct3. -/
def branchTaken (f3 : Nat) (a b : Word) : Bool :=
  if f3 = 0 then a == b else if f3 = 1 then !(a == b)
  else if f3 = 4 then a.slt b else if f3 = 5 then !a.slt b
  else if f3 = 6 then a.ult b else !a.ult b

/-! ## Running a word -/

/-- Retire with a result. -/
def State.rvWrite (s : State) (t : TileId) (rd : Nat) (v : Word) (len cost : Nat) : State :=
  s.modTile t (fun tl => (tl.setReg rd v).retire len cost)

/-- Retire at a new pc. -/
def State.rvJump (s : State) (t : TileId) (rd : Nat) (link target : Word) : State :=
  s.modTile t (fun tl =>
    let tl := (tl.setReg rd link).retire 0 3
    { tl with core := { tl.core with pc := target } })

/-- An illegal instruction: the word as fetched (R67). -/
def State.illegal (s : State) (t : TileId) (w : Word) : State := s.raise t 0 fcIllegal w 0

/-- OP-IMM words. -/
def State.rvOpImm (s : State) (t : TileId) (w raw : Word) (len : Nat) : State :=
  let f3 := bits w 14 12
  let a := (s.tile t).reg (bits w 19 15)
  let imm := sx 12 (bits w 31 20)
  let f7 := bits w 31 25
  if f3 = 1 ∧ f7 ≠ 0 then s.illegal t raw
  else if f3 = 5 ∧ f7 ≠ 0 ∧ f7 ≠ 0x20 then s.illegal t raw
  else s.rvWrite t (bits w 11 7) (aluOp f3 (f3 == 5 && f7 == 0x20) a imm) len 1

/-- OP words. -/
def State.rvOp (s : State) (t : TileId) (w raw : Word) (len : Nat) : State :=
  let f3 := bits w 14 12
  let f7 := bits w 31 25
  let a := (s.tile t).reg (bits w 19 15)
  let b := (s.tile t).reg (bits w 24 20)
  if f7 = 1 then s.rvWrite t (bits w 11 7) (mulDiv f3 a b) len (if f3 < 4 then 1 else 34)
  else if f7 = 0 then s.rvWrite t (bits w 11 7) (aluOp f3 false a b) len 1
  else if f7 = 0x20 ∧ (f3 = 0 ∨ f3 = 5) then s.rvWrite t (bits w 11 7) (aluOp f3 true a b) len 1
  else s.illegal t raw

/-- SYSTEM words (R34, R35): ecall, ebreak, wfi and the Zicsr operations. -/
def State.rvSystem (s : State) (t : TileId) (w raw : Word) (len : Nat) : State :=
  let op : Option CsrOp := nth [none, some .rw, some .rs, some .rc, none, some .rwi, some .rsi, some .rci] (bits w 14 12) none
  match op with
  | some op => s.csrAccess t (bits w 31 20) op (bits w 11 7) (bits w 19 15)
  | none =>
    if w = 0x00000073 then s.raise t 0 fcEcall 0 0
    else if w = 0x00100073 then s.raise t 0 fcEbreak 0 0
    else if w = 0x10500073 then s.rvWrite t 0 0 len 1
    else s.illegal t raw

/-- Run the word at the pc, raw being the bits as fetched and len their bytes. -/
def State.rvRun (s : State) (t : TileId) (w raw : Word) (len : Nat) : State :=
  let tl := s.tile t
  let pc := tl.core.pc
  let link := pc + BitVec.ofNat 32 len
  let op := bits w 6 0
  let f3 := bits w 14 12
  let rd := bits w 11 7
  let rs1 := bits w 19 15
  let ls (uns : Bool) (reg : Nat) (imm : Word) : LsArgs :=
    { size := 2 ^ (f3 % 4), unsigned := uns, reg := reg, rs1 := rs1, imm := imm, ilen := len }
  if op = 0x37 then s.rvWrite t rd (w &&& 0xFFFFF000) len 1
  else if op = 0x17 then s.rvWrite t rd (pc + (w &&& 0xFFFFF000)) len 1
  else if op = 0x6F then
    s.rvJump t rd link (pc + sx 21 (bits w 31 31 * 2 ^ 20 + bits w 19 12 * 2 ^ 12 + bits w 20 20 * 2 ^ 11 + bits w 30 21 * 2))
  else if op = 0x67 ∧ f3 = 0 then
    s.rvJump t rd link ((tl.reg rs1 + sx 12 (bits w 31 20)) &&& 0xFFFFFFFE)
  else if op = 0x63 ∧ f3 ≠ 2 ∧ f3 ≠ 3 then
    if branchTaken f3 (tl.reg rs1) (tl.reg (bits w 24 20)) then
      s.rvJump t 0 0 (pc + sx 13 (bits w 31 31 * 2 ^ 12 + bits w 7 7 * 2 ^ 11 + bits w 30 25 * 2 ^ 5 + bits w 11 8 * 2))
    else s.rvWrite t 0 0 len 1
  else if op = 0x03 ∧ (f3 < 3 ∨ f3 = 4 ∨ f3 = 5) then s.coreLoad t (ls (decide (4 ≤ f3)) rd (sx 12 (bits w 31 20)))
  else if op = 0x23 ∧ f3 < 3 then
    s.coreStore t (ls false (bits w 24 20) (sx 12 (bits w 31 25 * 32 + bits w 11 7)))
  else if op = 0x13 then s.rvOpImm t w raw len
  else if op = 0x33 then s.rvOp t w raw len
  else if op = 0x0F ∧ f3 = 0 then s.rvWrite t 0 0 len 1
  else if op = 0x0F ∧ f3 = 1 then s.rvWrite t 0 0 len 4
  else if op = 0x73 then s.rvSystem t w raw len
  else
    match xdecode w with
    | some (x, a) => xbody x t a s
    | none => s.illegal t raw

/-- Fetch at the pc and run (R36): an address outside the scratchpad, or an uncorrectable word, halts the core. A core started at an odd START_PC records MISALIGNED with width 2, the width of an instruction parcel (DESIGN CHOICE, log entry 78). -/
def State.fetchRun (s : State) (t : TileId) : State :=
  let pc := (s.tile t).core.pc
  let o := pc.toNat
  if !(o % 2 == 0) then s.raise t 0 fcMisaligned pc 2
  else if !inSp o 2 then s.raise t 0 fcUnmapped pc 2
  else
    let long := leNat ((s.tile t).get o 2) % 4 == 3
    s.reading t 0 o (if long && inSp o 4 then 4 else 2) (fun bs s =>
      let lo := leNat (bytesAt bs 0 2)
      if !long then
        match expandC lo with
        | some w => s.rvRun t w (BitVec.ofNat 32 lo) 2
        | none => s.illegal t (BitVec.ofNat 32 lo)
      else if !inSp o 4 then s.raise t 0 fcUnmapped (pc + 2) 2
      else s.rvRun t (leWord bs) (leWord bs) 4)

/-- RV_INSTRUCTION (R34): the core fetches and executes the instruction at its pc. -/
def execRvInstruction (t : TileId) (s : State) : Out := .next (if s.coreReady t then s.fetchRun t else s)

end Sys2Proof.Machine
end

