-- ==== Sys2Proof/Machine/HedgeRecorder.lean ====
section
/-! DEFINITION. Hedgerow's polls and its recorder: sensors (R455, R456), the holding area (R469), anchors (R471), and the records, exports and snapshots that readers get (R468, R474, R475). -/

namespace Sys2Proof.Machine

/-! ## Sensors (R455) -/

/-- Insert into a rising list. -/
def insertInt (x : Int) : List Int → List Int
  | [] => [x]
  | y :: ys => if x ≤ y then x :: y :: ys else y :: insertInt x ys

/-- Twice the median; a list of even length takes the sum of its two middle values. -/
def median2 (l : List Int) : Int :=
  let r := l.foldr insertInt []
  let n := r.length
  if n = 0 then 0 else r.getD (n / 2) 0 + r.getD ((n - 1) / 2) 0

/-- A thermal reading within the sensor's range, in steps of 0.25 degree. -/
def thermalOk (t : Int) : Bool := decide (-160 ≤ t) && decide (t ≤ 600)

/-- A thermal sensor after one reading: it fails outside its range, and where it has differed by more than 20 K from the median for 1 s. -/
def Sensor.thermal (x : Sensor) (t med2 : Int) (now : Nat) : Sensor :=
  let far := decide (160 < (2 * t - med2).natAbs)
  let since := if far then (match x.farSince with
    | some a => some a
    | none => some now) else none
  { failed := !thermalOk t || (match since with
      | some a => decide (a + 25000000 ≤ now)
      | none => false)
    farSince := since }

/-- Take a field's sensor frame. -/
def State.sense (s : State) (f : Nat) (fr : SensorFrame) : State :=
  let now := s.hedgeNow
  let med := median2 (fr.thermal.filter thermalOk)
  let s := (fr.thermal.take 12).zipIdx.foldl (fun s (e : Int × Nat) =>
    s.sensorNow f e.2 ((s.hedge.sensors.getD (sensorKey f e.2) {}).thermal e.1 med now) (intWord e.1)) s
  let s := (fr.volts.take 4).zipIdx.foldl (fun s (e : Nat × Nat) => s.sensorNow f (12 + e.2) { failed := decide (8000 < e.1) } e.1) s
  (fr.margin.take 24).zipIdx.foldl (fun s (e : Nat × Nat) => s.sensorNow f (16 + e.2) { failed := decide (7 < e.1) } e.1) s

/-- A thermal sensor of a field is failed. -/
def Hedge.thermalFailed (h : Hedge) (f i : Nat) : Bool := (h.sensors.getD (sensorKey f i) {}).failed

/-- Too few thermal sensors are left: every one of the base wafer's failed, or fewer than 3 of 12 working. -/
def Hedge.blind (h : Hedge) (f : Nat) : Bool :=
  (upto 6).all (h.thermalFailed f) || decide (((upto 12).filter (fun i => !h.thermalFailed f i)).length < 3)

/-- Keep the frame for snapshots: one in 10 ms, for 60 s (R475). -/
def Hedge.keepFrame (h : Hedge) (f now : Nat) (fr : SensorFrame) : Hedge :=
  let l := h.frames.getD f []
  let due := match l.getLast? with
    | some (t, _) => decide (t + 250000 ≤ now)
    | none => true
  let l := if due then l ++ [(now, fr)] else l
  { h with frames := h.frames.put f (l.filter (fun e => decide (now ≤ e.1 + 1500000000))) }

/-! ## Records from the controllers (R456, R469) -/

/-- Accept a list of records. -/
def State.takeRecs (s : State) (es : List Ev) : State := { s with scarab := es.foldl (fun k e => k.accept s.hedgeNow e) s.scarab }

/-- The holding area is taken first. -/
def State.takeHolding (s : State) : State := ({ s with scarab := { s.scarab with holding := [] } }).takeRecs s.scarab.holding

/-- One poll takes up to 4 records of a controller. -/
def State.takePoll (s : State) (f : Nat) : State :=
  let q := s.scarabQ.getD f []
  ({ s with scarabQ := s.scarabQ.put f (q.drop 4) }).takeRecs (q.take 4)

/-- HEDGEROW_FIELD_POLL (R23, R455, R456): one sensor frame, in every field state, and up to 4 records; a field too few of whose sensors work is ordered OFF as planned. -/
def execHedgerowFieldPoll (f : Nat) (fr : SensorFrame) (s : State) : Out :=
  .next (if s.hedge.up && decide (f < 56) then
      let s := { s with hedge := { (s.hedge.keepFrame f s.time fr) with pollAt := s.time, unread := s.hedge.unread.erase f } }
      let s := (s.takeHolding.takePoll f).sense f fr
      if isCompute f && s.hedge.blind f && !((s.field f).pwr.plan == .off) then s.orderOff f else s
    else s)

/-- SCARAB_HOLDING_DRAIN (R469): with no poll for 10 ms the active conductor moves every queue into 16,384 places of its shared area; the rest are dropped and counted. -/
def execScarabHoldingDrain (s : State) : Out :=
  .next (if s.mb.running ∧ s.hedge.pollAt + 250000 ≤ s.time then
      let all := s.scarab.holding ++ s.scarabQ.flatMap (fun e => e.2)
      { s with scarabQ := [], scarab := (all.drop 16384).foldl (fun k e => k.drop e.code) { s.scarab with holding := all.take 16384 } }
    else s)

/-- TIME_ANCHOR (R471): every hour; utc is what NTP or the real-time clock gives. The anchor at the load pulse is written by the release of cold reset. -/
def execTimeAnchor (utc : Nat) (s : State) : Out :=
  .next (if s.hedge.up ∧ s.hedge.anchorAt + 3600 * tickHz ≤ s.hedgeNow then
      let s := s.setUtc utc
      let s := { s with hedge := { s.hedge with anchorAt := s.hedgeNow } }
      s.event srcHedgerow 0x0F83 [utc, s.time, s.hedge.before, s.flash.coldResets]
    else s)

/-- PROFILE_AGE_UPDATE (R379). -/
def execProfileAgeUpdate (f : Nat) (s : State) : Out :=
  .next (if s.hedge.up ∧ f < 56 then
      s.modField f (fun fd => { fd with svc := { fd.svc with age := BitVec.ofNat 32 (satAdd 0xFFFFFFFF fd.svc.age.toNat 1) } })
    else s)

/-! ## The bytes of a record (R468, R480) -/

def infoCodes : List Nat := [0x0A81, 0x0C81, 0x0D81, 0x0F81, 0x0F83, 0x0F84, 0x0F8A, 0x0F91]

def noticeCodes : List Nat :=
  [0x0702, 0x0703, 0x0481, 0x0682, 0x0686, 0x0784, 0x0981, 0x0984, 0x0987, 0x0A84, 0x0A89, 0x0B81, 0x0B82, 0x0B8B, 0x0B8F, 0x0D87, 0x0F82, 0x0F86, 0x0F89, 0x0F8E]

def errorCodes : List Nat :=
  [0x0681, 0x0988, 0x0A83, 0x0A87, 0x0B85, 0x0B89, 0x0B8A, 0x0B8C, 0x0B8D, 0x0C82, 0x0C83, 0x0D83, 0x0D84, 0x0D89, 0x0E82, 0x0E83, 0x0E84, 0x0F8F]

def criticalCodes : List Nat := [0x0884, 0x0A88, 0x0B86, 0x0B87, 0x0F87]

/-- The severity of a code (R480): a tile fault has 4, but ECALL and EBREAK 2. -/
def severity (code : Nat) : Nat :=
  if infoCodes.contains code then 1 else if noticeCodes.contains code then 2 else if criticalCodes.contains code then 5
  else if errorCodes.contains code || decide (code % 256 < 128) then 4 else 3

/-- Source and source_id of a record. Class 0x09 names the port, one to a field (log entry 30). -/
def recSource (e : Ev) : Nat × Nat :=
  if e.src < 56 then (if e.code / 256 = 9 then (3, e.src) else (1, e.src))
  else if e.src = srcConductor then (5, 0)
  else if e.src = srcHedgerow then (6, 0)
  else if e.src < 62 then (4, e.src - 58)
  else (2, tileDetail (keyTile (e.src - 64)))

/-- Bytes of each item of a code's detail (log entry 30). -/
def detailWidths (code : Nat) : List Nat := if code = 0x0F82 then [1, 12, 16, 2, 8] else if code = 0x0F83 then [8, 8, 8, 4] else List.replicate 10 4

/-- Extend with 0 to n bytes, or cut. -/
def padTo (n : Nat) (bs : List Byte) : List Byte := (bs ++ List.replicate (n - bs.length) 0).take n

/-- The 64 bytes of a record. -/
def Rec.bytes (r : Rec) : List Byte :=
  let src := recSource r.ev
  let d := padTo 40 ((r.ev.detail.zip (detailWidths r.ev.code)).flatMap (fun (p : Nat × Nat) => natLe p.2 p.1))
  let b := natLe 8 r.ev.time ++ natLe 2 r.ev.code ++ natLe 1 (severity r.ev.code) ++ natLe 1 src.1 ++ natLe 4 src.2 ++ d ++ natLe 4 r.suppressed
  b ++ natLe 4 (crc32c b)

/-! ## Status block, export and snapshot (R474, R475) -/

/-- The 128-byte status block; export_time and utc are 0 outside an export. -/
def State.statusBlock (s : State) (export_ : Bool) : List Byte :=
  let k := s.scarab
  natLe 2 0x5358 ++ natLe 1 1 ++ natLe 1 0 ++ natLe 4 k.region.length ++ natLe 4 (b2n (decide (regionSlots ≤ k.region.length))) ++
    natLe 8 (k.fullTime.getD 0) ++ natLe 4 k.clears ++ (upto 16).flatMap (fun c => natLe 4 (k.dropped.getD c 0)) ++ natLe 12 Config.serial ++
    natLe 8 (if export_ then s.time else 0) ++ natLe 8 (if export_ then s.utcNow else 0) ++ natLe 12 0

/-- Sign what precedes. -/
def signedBytes (bs : List Byte) : List Byte := bs ++ Config.sign bs

/-- A ScarabExport: the status block, every record in write order, and the signature. -/
def State.exportBytes (s : State) : List Byte := signedBytes (s.statusBlock true ++ s.scarab.region.flatMap Rec.bytes)

/-- The register blocks of a controller that a snapshot holds (R124, R208, R261, R293, R321, R356, R379, and the fault block, R483): first offset and words. -/
def snapBlocks : List (Nat × Nat) :=
  [(0x4000, 64), (0x5000, 64), (0x6000, 64), (0x7000, 64), (0x8000, 64), (0x9000, 64), (0xA000, 64), (0xB000, 576), (0xC000, 375), (0x10000, 12000), (0x20000, 16384),
    (0x30000, 12000), (0x40000, 48000), (0x80000, 16896)]

/-- A record names a field: its own, its port's, or a tile's in it. -/
def Rec.names (r : Rec) (f : Nat) : Bool :=
  let src := recSource r.ev
  ((src.1 == 1 || src.1 == 3) && src.2 == f) || (src.1 == 2 && decide (64 ≤ r.ev.src) && fieldOf (keyTile (r.ev.src - 64)) == f)

/-- Words that a snapshot holds of a tile: TILE_STATE, FAULT_WORD, FAULT_INFO0, FAULT_INFO1, FAULT_PC, TILE_GEN, ARITH_FLAGS, STALL_STATUS. -/
def State.tileSnap (s : State) (t : TileId) : List Word := [0x08, 0x10, 0x14, 0x18, 0x1C, 0x04, 0x200, 0x24].map (s.tileReg t)

/-- The bytes of a sensor frame, with its tick. -/
def sensorBytes (e : Nat × SensorFrame) : List Byte :=
  natLe 8 e.1 ++ e.2.thermal.flatMap (fun t => natLe 4 (intWord t)) ++ e.2.volts.flatMap (natLe 2) ++ e.2.margin.flatMap (natLe 1)

/-- Collect a snapshot of field f. -/
def State.snapshot (s : State) (f : Nat) : Snapshot :=
  let regs := snapBlocks.flatMap (fun b => (upto b.2).map (fun i => s.fcReg f (b.1 + 4 * i)))
  let frames := s.hedge.frames.getD f []
  let rs := (s.scarab.region.filter (fun r => r.names f))
  let recs := (rs.drop (rs.length - 4096)).map Rec.bytes
  let tiles : List (List Word) := if (s.field f).running then (upto 12000).map (fun i => s.tileSnap ⟨f % 8 * 100 + i % 100, f / 8 * 120 + i / 100⟩) else []
  { field := f, time := s.time, regs := regs, frames := frames, recs := recs, tiles := tiles
    sig := Config.sign (natLe 1 f ++ natLe 8 s.time ++ bytesOf regs ++ frames.flatMap sensorBytes ++ recs.flatten ++ tiles.flatMap bytesOf) }

/-- Bytes of a snapshot. -/
def Snapshot.size (x : Snapshot) : Nat :=
  4 * x.regs.length + total (x.frames.map (fun e => (sensorBytes e).length)) + 64 * x.recs.length + 32 * x.tiles.length + x.sig.length

/-- Keep a snapshot as one of 8; a ninth replaces the oldest. -/
def State.keepSnap (s : State) (x : Snapshot) : State :=
  let l := s.hedge.snaps ++ [x]
  ({ s with hedge := { s.hedge with snaps := l.drop (l.length - 8) } }).event srcHedgerow 0x0F91 [x.field, x.size]

end Sys2Proof.Machine
end

