-- ==== Sys2Proof/Machine/HedgeBus.lean ====
section
/-! DEFINITION. Hedgerow's side-band port (R446), its I3C target and MCTP messages (R453), the slot check (R454) and its SPDM responder (R457 to R459). -/

namespace Sys2Proof.Machine

/-! ## Side-band port (R446) -/

/-- Change Hedgerow. -/
def State.modHedge (s : State) (g : Hedge → Hedge) : State := { s with hedge := g s.hedge }

/-- SIDEBAND_MODE_TRY (R446): after 3 s without a link the other mode is tried. -/
def execSidebandModeTry (s : State) : Out :=
  let h := s.hedge
  .next (if (h.up ∨ h.recovering) ∧ h.sideLink = false ∧ h.sideAt + 75000000 ≤ s.hedgeNow then
      s.modHedge (fun h => { h with sideMode := 1 - h.sideMode, sideAt := s.hedgeNow })
    else s)

/-- SIDEBAND_LINK (R446, R478): mode 0 25GBASE-CR, 1 25GBASE-SR, 2 10GBASE-R; a link comes up in the mode tried, and a drop restarts the sequence. -/
def execSidebandLink (mode : Nat) (up : Bool) (s : State) : Out :=
  let h := s.hedge
  .next (if !(h.up || h.recovering) || h.sideLink == up || decide (2 < mode) || (up && !((mode == 2) == (h.sideMode == 1))) then s
    else
      let s := s.modHedge (fun h => { h with sideLink := up, sideMode := if up then h.sideMode else 0, sideAt := s.hedgeNow })
      s.event srcHedgerow 0x0F8E [mode, b2n up])

/-! ## MCTP (R453) -/

/-- Cut a message into the 64-byte units of its packets; the packet headers of DSP0236 are left out (log entry 31). -/
def mctpUnits : Nat → List Byte → List (List Byte)
  | 0, _ => []
  | n + 1, bs => bs.take 64 :: mctpUnits n (bs.drop 64)

/-- Queue a message for the controller's private reads. -/
def State.mctpSend (s : State) (msg : List Byte) : State :=
  s.modHedge (fun h => { h with mctp := h.mctp ++ mctpUnits (cdiv msg.length 64) msg })

/-- A number most significant byte first, as the published MCTP form has the IANA number and the vendor set: R453 gives them no byte order (PRESUMED, log entry 31). -/
def natBe (n v : Nat) : List Byte := (natLe n v).reverse

/-- An MCTP control reply (type 0x00): the command and completion code 0, then its data. -/
def State.mctpReply (s : State) (code : Nat) (data : List Byte) : Out :=
  .next (if s.hedge.up && s.hedge.i3c.isSome then s.mctpSend ([0, BitVec.ofNat 8 code, 0] ++ data) else s)

/-- The opening of a vendor message (type 0x7F), its IANA number most significant byte first (PRESUMED, log entry 31). -/
def vendorHead (cmd : Nat) : List Byte := natBe 1 0x7F ++ natBe 4 Config.iana ++ natBe 1 cmd

/-- I3C_PRIVATE_READ (R453): the next MCTP packet, or a refusal. -/
def execI3cPrivateRead (s : State) : Out :=
  .next (if s.hedge.up && s.hedge.i3c.isSome then
      s.modHedge (fun h => match h.mctp with
        | [] => { h with i3cRead := none }
        | p :: ps => { h with i3cRead := some p, mctp := ps })
    else s)

/-- SET_ENDPOINT_ID (R453): the assignment is accepted and read back; an address that MCTP reserves (0, 255) is refused with completion code 0x02. -/
def execSetEndpointId (eid : Nat) (s : State) : Out :=
  if eid = 0 ∨ 255 ≤ eid then .next (if s.hedge.up && s.hedge.i3c.isSome then s.mctpSend [0, 1, 2] else s)
  else (if s.hedge.up && s.hedge.i3c.isSome then s.modHedge (fun h => { h with eid := eid }) else s).mctpReply 1 [0, BitVec.ofNat 8 eid, 0]

/-- GET_ENDPOINT_ID (R453). -/
def execGetEndpointId (s : State) : Out := s.mctpReply 2 [BitVec.ofNat 8 s.hedge.eid, 0, 0]

/-- GET_MCTP_VERSION_SUPPORT (R453). -/
def execGetMctpVersionSupport (s : State) : Out := s.mctpReply 4 Config.mctpVersions

/-- GET_MESSAGE_TYPE_SUPPORT (R453): the types beside control, 0x05 and 0x7F. -/
def execGetMessageTypeSupport (s : State) : Out := s.mctpReply 5 [2, 0x05, 0x7F]

/-- GET_VENDOR_DEFINED_MSG_SUPPORT (R453): one vendor, by its IANA number, most significant byte first (PRESUMED, log entry 31). -/
def execGetVendorDefinedMsgSupport (s : State) : Out := s.mctpReply 6 ([0xFF, 1] ++ natBe 4 Config.iana ++ natBe 2 Config.vendorSet)

/-- HEALTH (R453). PowerState is 1 while the board is enabled. -/
def execHealth (s : State) : Out :=
  let w := s.watch
  .next (if s.hedge.up && s.hedge.i3c.isSome then
      s.mctpSend (vendorHead 1 ++ natLe 1 0 ++ natLe 1 s.health ++ natLe 1 (b2n s.chassis.board) ++ natLe 4 w.watts ++ natLe 2 (w.coolant.inlet % 2 ^ 16).toNat ++
        natLe 2 (w.coolant.outlet % 2 ^ 16).toNat ++ natLe 2 w.coolant.flow ++ natLe 4 (total ((upto 56).map s.admitted)) ++ natLe 12 Config.serial)
    else s)

/-! ## The slot check (R454) -/

/-- The SHA-512 of the device identity certificate (R271). -/
def certHash : List Byte := Config.sha512 Config.certChain

/-- The 128-byte slot record of this module (R453). -/
def State.slotRecord (s : State) : List Byte :=
  natLe 2 0x5352 ++ natLe 1 1 ++ natLe 1 0 ++ natLe 12 Config.serial ++ padTo 64 certHash ++ natLe 8 s.utcNow ++ natLe 2 s.waferId ++ List.replicate 38 0

/-- The check settles; SLOT_SET follows where the record is to change. -/
def State.slotSettle (s : State) (set : Bool) : State :=
  let s := s.modHedge (fun h => { h with slot := .settled, slotStored := false })
  if set then s.mctpSend (vendorHead 3 ++ s.slotRecord) else s

/-- I3C_ENTDAA (R453, R454): the address is taken, and SLOT_GET is sent once for a start. -/
def execI3cEntdaa (addr : Nat) (s : State) : Out :=
  .next (if s.hedge.up = false then s
    else
      let s := s.modHedge (fun h => { h with i3c := some addr })
      match s.hedge.slot with
      | .waiting _ => (s.modHedge (fun h => { h with slot := .asked s.hedgeNow })).mctpSend (vendorHead 2)
      | .asked _ | .settled => s)

/-- SLOT_GET_ANSWER (R454): within 1 s of the request. -/
def execSlotGetAnswer (a : SlotAnswer) (s : State) : Out :=
  .next (match s.hedge.slot with
    | .waiting _ | .settled => s
    | .asked t =>
      if s.hedge.up = false ∨ t + 25000000 ≤ s.hedgeNow then s
      else
        match a with
        | .record serial cert wafer inst =>
          if serial = Config.serial ∧ cert = leNat certHash then s.release.slotSettle false
          else (s.installed [1, serial, cert % 2 ^ 128, wafer, inst]).slotSettle true
        | .noRecord => (s.installed [2]).slotSettle true
        | .unsupported => (s.installed [3]).slotSettle false)

/-- SLOT_SET_ANSWER (R453): the controller has stored the record. -/
def execSlotSetAnswer (s : State) : Out :=
  .next (match s.hedge.slot with
    | .settled => if s.hedge.up then s.modHedge (fun h => { h with slotStored := true }) else s
    | .waiting _ | .asked _ => s)

/-- SLOT_CHECK_TIMEOUT (R454): no address within 10 s is result 4, and the check continues; no answer within 1 s is result 3. -/
def execSlotCheckTimeout (s : State) : Out :=
  .next (if s.hedge.up = false then s
    else
      match s.hedge.slot with
      | .waiting t => if t + 250000000 ≤ s.hedgeNow ∧ s.scarab.opening = true then s.installed [4] else s
      | .asked t => if t + 25000000 ≤ s.hedgeNow then (s.installed [3]).slotSettle false else s
      | .settled => s)

/-! ## SPDM (R458, R459) -/

/-- Error codes of the published protocol (log entry 32). -/
def spdmInvalid : Nat := 0x01
def spdmBusy : Nat := 0x03
def spdmUnexpected : Nat := 0x04
def spdmVersion : Nat := 0x41

/-- Which requester this is: its transport and its address there. -/
def spdmKey (q : SpdmReq) : Nat := 2 * q.requester + q.transport % 2

/-- Give an answer. -/
def State.spdmSay (s : State) (a : SpdmAns) : State := s.modHedge (fun h => { h with spdmOut := some a })

/-- A request after GET_VERSION: the version must be 1.3 and the requester must have come as far as need; g answers. -/
def State.spdmDo (s : State) (q : SpdmReq) (need : Nat) (g : State → State) : Out :=
  .next (if s.hedge.up = false then s
    else
      match s.hedge.spdm.find (spdmKey q) with
      | none => s.spdmSay (.error spdmUnexpected)
      | some n =>
        if q.version ≠ 0x13 then s.spdmSay (.error spdmVersion)
        else if n < need then s.spdmSay (.error spdmUnexpected)
        else g s)

/-- How far a requester has come. -/
def State.spdmStep (s : State) (q : SpdmReq) (n : Nat) : State := s.modHedge (fun h => { h with spdm := h.spdm.put (spdmKey q) n })

/-- GET_VERSION (R458): 1.3 only; it begins a requester's exchange anew, and a fifth requester at once is told Busy. -/
def execGetVersion (q : SpdmReq) (s : State) : Out :=
  .next (if s.hedge.up = false then s
    else if (s.hedge.spdm.find (spdmKey q)).isNone && decide (4 ≤ s.hedge.spdm.length) then s.spdmSay (.error spdmBusy)
    else (s.spdmStep q 1).spdmSay .version)

/-- GET_CAPABILITIES (R458). -/
def execGetCapabilities (q : SpdmReq) (s : State) : Out := s.spdmDo q 1 (fun s => (s.spdmStep q 2).spdmSay .capabilities)

/-- NEGOTIATE_ALGORITHMS (R458): a requester that offers neither P-521 nor SHA-512 receives ERROR; what is selected is what both have. -/
def execNegotiateAlgorithms (q : SpdmReq) (s : State) : Out :=
  s.spdmDo q 2 (fun s => if q.algs % 4 = 0 then s.spdmSay (.error spdmInvalid) else (s.spdmStep q 3).spdmSay (.algorithms (q.algs % 4)))

/-- GET_DIGESTS (R458): slot 0 alone. -/
def execGetDigests (q : SpdmReq) (s : State) : Out := s.spdmDo q 3 (fun s => s.spdmSay (.digests certHash))

/-- GET_CERTIFICATE (R458): part of the chain of slot 0, and how much remains; the other slots are empty. -/
def execGetCertificate (q : SpdmReq) (s : State) : Out :=
  s.spdmDo q 3 (fun s =>
    if q.slot ≠ 0 ∨ Config.certChain.length ≤ q.offset then s.spdmSay (.error spdmInvalid)
    else
      let part := (Config.certChain.drop q.offset).take q.length
      s.spdmSay (.certificate part (Config.certChain.length - q.offset - part.length)))

/-- Event 0x0F8A: request 0 CHALLENGE, 1 signed GET_MEASUREMENTS. -/
def State.attested (s : State) (q : SpdmReq) (request : Nat) : State := s.event srcHedgerow 0x0F8A [q.transport, q.requester, request]

/-- A free signature over a transcript the model does not hold: the identity key signs the requester's nonce too (R457). -/
def State.freeSig (s : State) : List Byte × State :=
  let v := s.freeVal
  (Config.sign (wordLe v.1), v.2)

/-- CHALLENGE (R458). -/
def execChallenge (q : SpdmReq) (s : State) : Out :=
  s.spdmDo q 3 (fun s =>
    if q.slot ≠ 0 then s.spdmSay (.error spdmInvalid)
    else
      let v := s.freeSig
      (v.2.attested q 0).spdmSay (.challengeAuth v.1))

/-- A set of codes as bytes. -/
def codesBytes : Option (List Nat) → List Byte
  | none => [0]
  | some cs => 1 :: cs.flatMap (natLe 2)

/-- An optional number as bytes. -/
def optBytes : Option Nat → List Byte
  | none => [0]
  | some n => 1 :: natLe 64 n

/-- What measurement i covers (R459). The order of items within 3, 4, 7 and 8 is the table's; their byte form is the model's (log entry 33). -/
def State.measured (s : State) (i : Nat) : List Byte :=
  let region (k : Nat) : List Byte := Config.headerDigest (s.flash.regions.getD k {}).digest
  let h := s.hedge
  if i = 1 ∨ i = 2 ∨ i = 5 ∨ i = 6 then region i
  else if i = 3 then Config.sha512 ((upto 56).flatMap (fun f => Config.headerDigest (s.field f).fcDigest))
  else if i = 4 then Config.sha512 ((upto 56).flatMap (fun f => Config.headerDigest (s.field f).tileDigest))
  else if i = 7 then
    Config.sha512 (optBytes h.ownerRoot ++ optBytes h.ownerImage ++ natLe 4 s.cond.polMask ++ natLe 4 s.cond.polSrc ++ natLe 4 s.cond.polMax ++
      codesBytes h.cfg.forward ++ (upto 56).map (fun p => BitVec.ofNat 8 (b2n (bit (s.port p).ctrl 29))))
  else if i = 8 then Config.sha512 ([1, 2, 3, 4, 5, 6].flatMap (fun k => natLe 4 (s.flash.counters.getD k 0)))
  else if i = 9 then Config.sha512 [0]
  else Config.sha512 (((s.statusBlock false).drop 4).take 20)

/-- GET_MEASUREMENTS (R458, R459): block 0 gives the count alone, 0xFF every block, 1 to 10 one. -/
def execGetMeasurements (q : SpdmReq) (s : State) : Out :=
  s.spdmDo q 3 (fun s =>
    if 10 < q.block ∧ q.block ≠ 0xFF then s.spdmSay (.error spdmInvalid)
    else
      let is : List Nat := if q.block = 0xFF then (upto 10).map (· + 1) else [q.block]
      let blocks : List (Nat × List Byte) := if q.block = 0 then [(0, [10])] else is.map (fun i => (i, s.measured i))
      if q.signed then
        let v := s.freeSig
        (v.2.attested q 1).spdmSay (.measurements blocks v.1)
      else s.spdmSay (.measurements blocks []))

end Sys2Proof.Machine
end

