-- ==== Sys2Proof/Machine/HostNode.lean ====
section
/-! DEFINITION. The host nodes: the wafer window (R422 to R428), timers and software interrupts (R418), the clock (R417), the resident loader (R430, R438), boot (R435, R436), Ethernet (R431, R432) and PCIe (R421, R434). -/

namespace Sys2Proof.Machine

/-! ## Nodes and harts -/

/-- A hart of a node. -/
def HostNode.hart (h : HostNode) (i : Nat) : Hart := h.harts.getD i {}

/-- Change a hart. -/
def HostNode.modHart (h : HostNode) (i : Nat) (g : Hart → Hart) : HostNode := { h with harts := h.harts.put i (g (h.hart i)) }

/-- Change a hart of node k. -/
def State.modHart (s : State) (k i : Nat) (g : Hart → Hart) : State := s.modHost k (fun h => h.modHart i g)

/-- A node whose keep field runs. -/
def State.nodeOn (s : State) (k : Nat) : Bool := decide (k < 4) && (s.field (keepField k)).running

/-- A hart of node k may execute: the loader or the kernel runs, and no change of frequency stalls it (R417, R435). -/
def State.hartRuns (s : State) (k i : Nat) : Bool :=
  let h := s.host k
  s.nodeOn k && decide (i < 32) && (h.stage == 3 || h.stage == 4) && decide (h.stallTo ≤ s.time)

/-! ## The wafer window (R422 to R428) -/

/-- Whether an access is a write. -/
def WinAcc.isWrite (a : WinAcc) : Bool := a.data.isSome

/-- Reads or writes of a node in flight (R427, R429). -/
def HostNode.reads (h : HostNode) : Nat := (h.flight.filter (fun a => !a.isWrite)).length
def HostNode.writes (h : HostNode) : Nat := (h.flight.filter (fun a => a.isWrite)).length

/-- Record a failed access (R428): the first is kept until valid is cleared. -/
def HostNode.winFail (h : HostNode) (a : WinAcc) (st : Nat) : HostNode :=
  let h := { h with winErr := h.winErr + 1 }
  if h.winValid then h else { h with winValid := true, winHart := a.hart, winWrite := a.isWrite, winStatus := st, winAddr := a.addr }

/-- End an access with an answer (R428): a failed load returns all ones, and faults where HOST_WIN_CTRL.fault is set. -/
def HostNode.endAcc (h : HostNode) (a : WinAcc) (st : Nat) (data : List Byte) : HostNode :=
  let h := { h with flight := h.flight.filter (fun x => !(x.id == a.id)) }
  if st = stOk then (if a.isWrite then h else h.modHart a.hart (fun x => { x with load := data, trap := 0 }))
  else
    let h := h.winFail a st
    if a.isWrite then h
    else
      let f := h.winFault
      h.modHart a.hart (fun x => { x with load := List.replicate a.size 255, trap := if f then 3 else 0 })


/-- The endpoint and offset that a wafer address of space 0x0 or 0x3 names; one that names no keep field is delivered nowhere (R12, R422). -/
def winTarget (a : Nat) : Endp × Nat :=
  let p := addrParts a
  if p.1 = 0 then (.tile p.2.1, p.2.2)
  else if p.2.1.x < 800 ∧ p.2.1.y < 840 ∧ isKeep (fieldOf p.2.1) = true then (.gate (keepIdx (fieldOf p.2.1)), localIdx p.2.1 * 2 ^ 20 + p.2.2)
  else (.gate 4, 0)

/-- Send one access through the node's nearest gate (R425, R426); a node cut off from the mesh has PATH_LOST at once (R427). -/
def State.sendAcc (s : State) (k : Nat) (a : WinAcc) : State :=
  let a := { a with since := s.time }
  if s.cutOffKeep k then s.modHost k (fun h => h.endAcc a stPathLost [])
  else
    let s := s.modHost k (fun h => { h with flight := h.flight ++ [a] })
    let t := winTarget a.addr
    s.send { h := { src := .gate k, dst := t.1, dstGen := 0, tag := a.id }
             body := match a.data with
               | some bs => .rawWrite t.2 bs
               | none => .rawRead t.2 a.size }

/-- The limits of R427 leave room for an access. -/
def HostNode.room (h : HostNode) (a : WinAcc) : Bool := if a.isWrite then decide (h.writes < 8192) else decide (h.reads < 1024)

/-- Go on with what a hart holds, in order: an access goes once there is room, a fence once the hart's earlier writes are answered (R426, R427). -/
def State.pumpHart (s : State) (k i : Nat) : List HartOp → State
  | [] => s.modHart k i (fun x => { x with held := [] })
  | .acc a :: r => if (s.host k).room a then State.pumpHart (s.sendAcc k a) k i r else s.modHart k i (fun x => { x with held := .acc a :: r })
  | .fence :: r =>
    if (s.host k).flight.any (fun a => a.isWrite && a.hart == i) then s.modHart k i (fun x => { x with held := .fence :: r })
    else State.pumpHart s k i r

/-- Go on with what every hart of a node holds. -/
def State.pumpNode (s : State) (k : Nat) : State :=
  (upto 32).foldl (fun s i => let q := ((s.host k).hart i).held; if q.isEmpty then s else s.pumpHart k i q) s

/-- Put an operation behind what its hart holds, and go on. -/
def State.issueHart (s : State) (k i : Nat) (op : HartOp) : State := s.pumpHart k i (((s.host k).hart i).held ++ [op])

/-- Why an access raises an exception and sends nothing: 1 access fault, 2 misaligned (R423, R424). -/
def winTrap (addr size : Nat) (form : HartForm) : Option Nat :=
  match form with
  | .amo => some 1
  | .scalar | .vector =>
    if !(addrParts addr).1 == 0 && !((addrParts addr).1 == 3) then some 1
    else if ([1, 2, 4, 8].contains size || (size == 64 && form == .vector)) && !(addr % size == 0) then some 2
    else none

/-- A size the window takes as one access: a scalar, or a vector store that covers one aligned 64-byte block (R424). -/
def oneAccess (size : Nat) (store : Bool) (form : HartForm) : Bool :=
  [1, 2, 4, 8].contains size || (size == 64 && store && form == .vector)

/-- Issue an access, with a fresh number. -/
def State.issueAcc (s : State) (k hart addr size : Nat) (data : Option (List Byte)) : State :=
  let n := (s.host k).nextId
  (s.modHost k (fun h => { h with nextId := n + 1 })).issueHart k hart (.acc { id := n, hart := hart, addr := addr, size := size, data := data })

/-- WAFER_WINDOW_LOAD (R423, R424): addr is a wafer address; a vector access goes element by element, here by bytes (log entry 29). -/
def execWaferWindowLoad (k hart addr size : Nat) (form : HartForm) (s : State) : Out :=
  .next (if !s.hartRuns k hart || decide (2 ^ 44 ≤ addr) then s
    else
      match winTrap addr size form with
      | some t => s.modHart k hart (fun x => { x with trap := t })
      | none =>
        if oneAccess size false form then s.issueAcc k hart addr size none
        else if form = .vector then (upto size).foldl (fun s i => s.issueAcc k hart (addr + i) 1 none) s
        else s)

/-- WAFER_WINDOW_STORE (R423, R424). -/
def execWaferWindowStore (k hart addr : Nat) (data : List Byte) (form : HartForm) (s : State) : Out :=
  let n := data.length
  .next (if !s.hartRuns k hart || decide (2 ^ 44 ≤ addr) then s
    else
      match winTrap addr n form with
      | some t => s.modHart k hart (fun x => { x with trap := t })
      | none =>
        if oneAccess n true form then s.issueAcc k hart addr n (some data)
        else if form = .vector then (upto n).foldl (fun s i => s.issueAcc k hart (addr + i) 1 (some (bytesAt data i 1))) s
        else s)

/-- An access in flight. -/
def HostNode.accOf (h : HostNode) (id : Nat) : Option WinAcc := h.flight.find? (fun a => a.id == id)

/-- WAFER_WINDOW_TIMEOUT (R428): no answer within HOST_WIN_CTRL.timeout, below 2,500 acting as 2,500; status 0xFF. -/
def execWaferWindowTimeout (k id : Nat) (s : State) : Out :=
  .next (match (s.host k).accOf id with
    | some a => if a.since + max 2500 (s.host k).winTimeout ≤ s.time then (s.modHost k (fun h => h.endAcc a 0xFF [])).pumpNode k else s
    | none => s)

/-- Take the answer of a raw access out of the mesh. -/
def State.takeRaw (s : State) (k id : Nat) : State :=
  let mine (x : Flight) : Bool := x.pkt.h.dst == .gate k && (match x.pkt.body with
    | .status (.raw i) _ | .reply (.raw i) _ _ => i == id
    | _ => false)
  { s with mesh := { s.mesh with flight := (let (a, b) := s.mesh.flight.span (fun x => !mine x); a ++ b.drop 1) } }

/-- WAFER_WINDOW_ANSWER (R428): an answer that no access waits for is discarded (R438). -/
def execWaferWindowAnswer (k id status : Nat) (data : List Byte) (s : State) : Out :=
  let s := s.takeRaw k id
  .next (match (s.host k).accOf id with
    | some a => (s.modHost k (fun h => h.endAcc a (statusCode status) data)).pumpNode k
    | none => s)

/-- HART_FENCE_IO (R426). -/
def execHartFenceIo (k hart : Nat) (s : State) : Out :=
  .next (if s.hartRuns k hart then s.issueHart k hart .fence else s)

/-! ## Interrupts and the clock (R417, R418) -/

/-- TIMER_INTERRUPT (R418): mtime, which is wafer time, has reached the hart's compare. -/
def execTimerInterrupt (k hart : Nat) (machine : Bool) (s : State) : Out :=
  let h := (s.host k).hart hart
  .next (if !(s.nodeOn k && decide (hart < 32)) then s
    else if machine then (if h.mtimecmp ≤ s.time then s.modHart k hart (fun x => { x with mtip := true }) else s)
    else if h.stimecmp ≤ s.time then s.modHart k hart (fun x => { x with stip := true }) else s)

/-- SOFTWARE_INTERRUPT_WRITE (R418): MSWI holds what is written; SSWI sets the bit where 1 is written. -/
def execSoftwareInterruptWrite (k : Nat) (machine : Bool) (hart : Nat) (val : Bool) (s : State) : Out :=
  .next (if !(s.nodeOn k && decide (hart < 32)) then s
    else s.modHart k hart (fun x => if machine then { x with msip := val } else { x with ssip := x.ssip || val }))

/-- HOST_CLK.freq in force: 10 to 30. -/
def freqInForce (n : Nat) : Nat := clampN 10 30 n

/-- A write of HOST_CLK (R417, R429): from machine mode alone; a change stalls every hart for 20 us. -/
def State.hostClk (s : State) (k : Nat) (machine : Bool) (val : Word) : State :=
  let f := bits val 4 0
  if s.nodeOn k && machine then
    s.modHost k (fun h => { h with freq := f, stallTo := if freqInForce f = freqInForce h.freq then h.stallTo else s.time + 500 })
  else s

/-- HOST_CLK_WRITE (R417). -/
def execHostClkWrite (k : Nat) (machineMode : Bool) (val : Word) (s : State) : Out := .next (s.hostClk k machineMode val)

/-! ## The resident loader (R430, R438) -/

/-- The owner's forwarding mask permits a code. -/
def Hedge.forwards (h : Hedge) (code : Nat) : Bool :=
  match h.cfg.forward with
  | none => true
  | some cs => cs.contains code

/-- The sequence number a sender rings next: never 0 (R391). -/
def nextSeq16 (n : Nat) : Nat := if 65535 ≤ n then 1 else n + 1

/-- SBI_SECURE_FORWARD (R430): a permitted message goes on the node's secure channel MB(40 + 2 k + idx) once that is free, and its return code follows the acknowledgement; another is answered NOT_PERMITTED. -/
def execSbiSecureForward (k idx : Nat) (msg : List Word) (s : State) : Out :=
  let c := 40 + 2 * k + idx
  let h := s.chan c
  .next (if !(s.nodeOn k && (s.host k).stage == 4 && decide (idx < 2) && msg.length == 16) then s
    else if !s.hedge.forwards (msgCode msg) then s.modHost k (fun n => { n with sbi := some rcNotPermitted })
    else if h.full || h.buf.isSome then s
    else
      ((s.spineGrant k).modChan c (fun h => { h with
        msg := msg.zipIdx.map (fun (e : Word × Nat) => (e.2, e.1)), seq := nextSeq16 h.seq, full := true, taken := false })).modHost k
        (fun n => { n with sbi := none, sbiWait := some (c, nextSeq16 h.seq) }))

/-- SBI_SYSTEM_RESET (R438): the node alone boots again. -/
def execSbiSystemReset (k : Nat) (s : State) : Out :=
  .next (if s.nodeOn k && (s.host k).stage == 4 then s.modHost k (fun h => h.reboot s.time) else s)

/-! ## Boot (R435, R436) -/

/-- What Hedgerow copies into a node's memory (R435 step 2): loader, digest, devicetree, and the host image where that boots from flash. -/
def State.loadNode (s : State) (k : Nat) : State :=
  let l := (s.flash.regions.getD 5 {}).digest
  let i := (s.flash.regions.getD 6 {}).digest
  let s := s.modHost k (fun h => ((h.put 0 ((Config.imageBody l).take 0x400000)).put 0x400000 ((Config.imageDigest l).take 64)).put 0x401000
    ((Config.devicetree k s.waferId).take 0xBFF000))
  if s.hedge.cfg.bootNvme then s else s.modHost k (fun h => h.put 0x1000000 ((Config.imageBody i).take 0xC000000))

/-- A boot fails (R436): stage 15 with its code, and event 0x0D89. -/
def State.bootFail (s : State) (k code : Nat) : State :=
  let n := (s.host k).attempts + 1
  (s.modHost k (fun h => { h with stage := 15, code := code, attempts := n, bootAt := s.time })).event (srcHost k) 0x0D89 [k, code, n]

/-- NODE_BOOT (R435, R436): the next step of a node's boot: images loaded, the digest checked by the boot ROM, then the kernel started; a boot that failed once begins again. -/
def execNodeBoot (k : Nat) (digestOk : Bool) (s : State) : Out :=
  let h := s.host k
  .next (if !(s.nodeOn k && s.hedge.up) then s
    else if h.stage = 1 ∨ (h.stage = 15 ∧ h.attempts = 1) then (s.loadNode k).modHost k (fun h => { h with stage := 2, code := 0 })
    else if h.stage = 2 then (if digestOk then s.modHost k (fun h => { h with stage := 3 }) else s.bootFail k 1)
    else if h.stage = 3 then s.modHost k (fun h => { h with stage := 4 })
    else s)

/-- HOST_BOOT_TIMEOUT (R436): stage 4 is not reached within 2 s. -/
def execHostBootTimeout (k : Nat) (s : State) : Out :=
  let h := s.host k
  .next (if s.nodeOn k && within 1 3 h.stage && decide (h.bootAt + 50000000 ≤ s.time) then s.bootFail k 2 else s)

/-! ## Ethernet (R431, R432) -/

/-- A port of a node. -/
def HostNode.port (h : HostNode) (p : Nat) : EthPort := h.eth.getD p {}

/-- Change a port. -/
def HostNode.modPort (h : HostNode) (p : Nat) (g : EthPort → EthPort) : HostNode := { h with eth := h.eth.put p (g (h.port p)) }

/-- A ring of a port. -/
def EthPort.ring (e : EthPort) (r : Nat) : Ring := e.rings.getD r {}

/-- Change a ring. -/
def EthPort.modRing (e : EthPort) (r : Nat) (g : Ring → Ring) : EthPort := { e with rings := e.rings.put r (g (e.ring r)) }

/-- Descriptors of a ring: 2^size, the size held to 6 to 16. -/
def Ring.slots (r : Ring) : Nat := 2 ^ clampN 6 16 r.size

/-- The largest frame of a port, held to 64 to 9,216. -/
def EthPort.maxFrame (e : EthPort) : Nat := clampN 64 9216 e.mtu

/-- Where a range of host physical addresses lies in local memory (R419). -/
def localMem (a n : Nat) : Option Nat := if 0x80000000 ≤ a ∧ a + n ≤ 0x180000000 then some (a - 0x80000000) else none

/-- A descriptor: buffer, length and the flag of the last fragment, with its priority. -/
structure EthDesc where
  addr : Nat
  length : Nat
  last : Bool
  prio : Nat
  deriving DecidableEq, Repr, Inhabited

/-- Where descriptor i of a ring lies in local memory. -/
def Ring.descAt (r : Ring) (i : Nat) : Option Nat := localMem (r.base + 16 * (i % r.slots)) 16

/-- Read a descriptor. -/
def HostNode.desc (h : HostNode) (o : Nat) : EthDesc :=
  let b := Memory.readN h.mem 16 o
  { addr := fieldAt b 0 8, length := fieldAt b 8 2, last := nbit (fieldAt b 10 1) 1, prio := fieldAt b 11 1 % 8 }

/-- Write a descriptor back (R432): length, flags, priority and hash. -/
def HostNode.writeBack (h : HostNode) (o length flags prio hash : Nat) : HostNode := h.put (o + 8) (natLe 2 length ++ natLe 1 flags ++ natLe 1 prio ++ natLe 4 hash)

/-- ETH_RING_TAIL_WRITE (R432). -/
def execEthRingTailWrite (k port : Nat) (tx : Bool) (ring val : Nat) (s : State) : Out :=
  .next (if s.nodeOn k && decide (port < 2) && decide (ring < 8) then
      s.modHost k (fun h => h.modPort port (fun e => e.modRing (if tx then ring else 8 + ring) (fun r => { r with tail := val % 65536 })))
    else s)

/-- Put a finished frame on the wire; one shorter than 64 bytes or longer than the port's largest is not carried (R431). -/
def EthPort.send (e : EthPort) (frame : List Byte) : EthPort :=
  if within 64 e.maxFrame frame.length then { e with frag := [], sent := e.sent ++ [frame] } else { e with frag := [] }

/-- Event 0x0C83, and the count, for an uncorrectable word a device or hart reads (R421, R441): reader 0 hart, 1 PCIe, 2 Ethernet. -/
def State.memBad (s : State) (k a reader : Nat) : State :=
  (s.modHost k (fun h => { h with memUe := satAdd 0xFFFFFFFF h.memUe 1 })).event (srcHost k) 0x0C83 [k, a, reader]

/-- ETH_DESCRIPTOR_DONE (R432): the transmit descriptor at RING_HEAD is sent and written back; one whose buffer lies outside local memory, or reads beyond correction, has error set and sends nothing. Receive descriptors are written back as their frame arrives. -/
def execEthDescriptorDone (k port ring : Nat) (s : State) : Out :=
  let h := s.host k
  let e := h.port port
  let r := e.ring ring
  .next (if !(s.nodeOn k && decide (port < 2) && decide (ring < 8) && e.enable && e.link && r.enable && !(r.head == r.tail % r.slots)) then s
    else
      match r.descAt r.head with
      | none => s
      | some o =>
        let d := h.desc o
        let next : Ring := { r with head := (r.head + 1) % r.slots }
        if s.time < e.pause.getD d.prio 0 then s
        else
          let fin (flags : Nat) (g : EthPort → EthPort) (s : State) : State :=
            s.modHost k (fun h => (h.writeBack o d.length flags d.prio 0).modPort port (fun e => g { e with rings := e.rings.put ring next }))
          match localMem d.addr d.length with
          | none => fin (5 + 2 * b2n d.last) (fun e => { e with frag := [] }) s
          | some b =>
            match h.badIn b d.length with
            | some w => fin (5 + 2 * b2n d.last) (fun e => { e with frag := [] }) (s.memBad k w 2)
            | none =>
              let bs := e.frag ++ Memory.readN h.mem d.length b
              fin (1 + 2 * b2n d.last) (fun e => if d.last then e.send bs else { e with frag := bs }) s)

/-- Descriptors a frame will fill from a ring's head on: each with its place and its part of the frame; none where the ring runs out. An empty part marks a descriptor whose buffer lies outside local memory. -/
def HostNode.plan (h : HostNode) (r : Ring) : Nat → Nat → List Byte → Option (List (Nat × EthDesc × List Byte))
  | 0, _, _ => none
  | n + 1, i, bs =>
    if i = r.tail % r.slots then none
    else
      match r.descAt i with
      | none => none
      | some o =>
        let d := h.desc o
        match localMem d.addr d.length with
        | none => (HostNode.plan h r n ((i + 1) % r.slots) bs).map (fun p => (o, d, []) :: p)
        | some _ =>
          if bs.length ≤ d.length then some [(o, d, bs)]
          else (HostNode.plan h r n ((i + 1) % r.slots) (bs.drop d.length)).map (fun p => (o, d, bs.take d.length) :: p)

/-- Fill planned descriptors; good is the checksum flag. -/
def HostNode.fill (h : HostNode) (prio hash good : Nat) : List (Nat × EthDesc × List Byte) → HostNode
  | [] => h
  | (o, d, bs) :: rest =>
    let h := match localMem d.addr d.length with
      | none => h.writeBack o 0 5 prio hash
      | some b => (h.put b bs).writeBack o bs.length (1 + 2 * b2n rest.isEmpty + 8 * good) prio hash
    HostNode.fill h prio hash good rest

/-- A MAC control frame: pause (IEEE 802.3x) or priority pause (802.1Qbb). -/
def pauseOp (bs : List Byte) : Option Nat :=
  if fieldAt bs 12 1 = 0x88 ∧ fieldAt bs 13 1 = 0x08 then some (fieldAt bs 14 1 * 256 + fieldAt bs 15 1) else none

/-- Big-endian 16 bits of a frame. -/
def be16 (bs : List Byte) (o : Nat) : Nat := fieldAt bs o 1 * 256 + fieldAt bs (o + 1) 1

/-- Ticks of a pause: quanta of 512 bit times at 800 Gbit/s, rounded up. -/
def quantaTicks (q : Nat) : Nat := cdiv (q * 16) 1000

/-- Take a pause: of every priority, or where pfc is set of those its vector names. -/
def EthPort.takePause (e : EthPort) (op now : Nat) (bs : List Byte) : EthPort :=
  if op = 1 ∧ e.pfc = false then { e with pause := (upto 8).map (fun p => (p, now + quantaTicks (be16 bs 16))) }
  else if op = 0x0101 ∧ e.pfc = true then
    { e with pause := (upto 8).foldl (fun t p => if nbit (be16 bs 16) p then t.put p (now + quantaTicks (be16 bs (18 + 2 * p))) else t) e.pause }
  else e

/-- ETH_FRAME_RECEIVE (R431, R432): spread over the receive rings by its hash; dropped and counted where the ring has too few descriptors. Whether its checksums are good is a free value. -/
def execEthFrameReceive (k port : Nat) (bytes : List Byte) (prio hash : Nat) (s : State) : Out :=
  let h := s.host k
  let e := h.port port
  let q := 8 + hash % 8
  let r := e.ring q
  .next (if !(s.nodeOn k && decide (port < 2) && e.enable && e.link && within 64 e.maxFrame bytes.length) then s
    else
      match pauseOp bytes with
      | some op => s.modHost k (fun h => h.modPort port (fun e => e.takePause op s.time bytes))
      | none =>
        match (if r.enable then h.plan r r.slots r.head bytes else none) with
        | none => s.modHost k (fun h => h.modPort port (fun e => { e with rxDrop := e.rxDrop + 1 }))
        | some ps =>
          let v := s.freeVal
          v.2.modHost k (fun h => (h.fill prio (hash % 2 ^ 32) (v.1.toNat % 2) ps).modPort port
            (fun e => e.modRing q (fun r => { r with head := (r.head + ps.length) % r.slots }))))

/-- ETH_LINK_CHANGE (R431, R505): mode 1 800GBASE-CR8, 2 800GBASE-DR8; on a link that goes down, 0 says that the module has left its cage. -/
def execEthLinkChange (k port : Nat) (up : Bool) (mode : Nat) (s : State) : Out :=
  .next (if s.nodeOn k && decide (port < 2) && (!up || ((s.host k).port port).enable && within 1 2 mode) then
      s.modHost k (fun h => h.modPort port (fun e => { e with link := up, mode := if up then mode else 0, present := up || !(mode == 0) }))
    else s)

/-! ## PCIe (R421, R434) -/

/-- The bit of the AER uncorrectable error status that an Unsupported Request sets. -/
def aerUnsupported : Word := 0x00100000

/-- PERST# is asserted: the node is in reset, or its reset was released less than 100 ms ago (R505). A device held by it sends nothing. -/
def State.perst (s : State) (k : Nat) : Bool := !s.nodeOn k || decide (s.time < (s.host k).bootAt + 2500000)

/-- PCIE_DEVICE_WRITE (R434): a device write or MSI lands in local host memory; any other address is an Unsupported Request. -/
def execPcieDeviceWrite (k addr : Nat) (data : List Byte) (s : State) : Out :=
  .next (if s.perst k then s
    else
      match localMem addr data.length with
      | some o => s.modHost k (fun h => h.put o data)
      | none => s.modHost k (fun h => { h with aer := h.aer ||| aerUnsupported }))

/-- PCIE_DEVICE_READ (R421, R434): the bytes, a poisoned completion for a word beyond correction, or Unsupported Request. -/
def execPcieDeviceRead (k addr len : Nat) (s : State) : Out :=
  .next (if s.perst k then s
    else
      match localMem addr len with
      | some o =>
        match (s.host k).badIn o len with
        | some w => (s.memBad k w 1).modHost k (fun h => { h with dma := .poisoned })
        | none => s.modHost k (fun h => { h with dma := .data (Memory.readN h.mem len o) })
      | none => s.modHost k (fun h => { h with aer := h.aer ||| aerUnsupported, dma := .unsupported }))

/-! ## Register writes of a node (R429, R432, R418) -/

/-- A write into the host control block (R429). -/
def State.hostCtlWrite (s : State) (k : Nat) (machine : Bool) (o : Nat) (val : Word) : State :=
  if o = 0x008 then s.hostClk k machine val
  else if o = 0x010 then (if machine then s.modHost k (fun h => { h with winFault := bit val 31, winTimeout := bits val 23 0 }) else s)
  else if o = 0x01C then s.modHost k (fun h => { h with winValid := h.winValid && !bit val 31 })
  else s

/-- A write into an Ethernet port's registers (R432). -/
def EthPort.write (e : EthPort) (o : Nat) (val : Word) : EthPort :=
  if o = 0x000 then { e with enable := bit val 31, pfc := bit val 30, mtu := bits val 29 16 }
  else if 0x100 ≤ o ∧ o < 0x300 then
    let r := (o - 0x100) / 32
    let p := o % 32
    e.modRing r (fun g =>
      if p = 0 then { g with base := g.base / 2 ^ 32 * 2 ^ 32 + val.toNat }
      else if p = 4 then { g with base := bits val 15 0 * 2 ^ 32 + g.base % 2 ^ 32 }
      else if p = 8 then { g with enable := bit val 31, size := bits val 4 0 }
      else if p = 12 then { g with tail := bits val 15 0 }
      else g)
  else e

/-- A word write into the ACLINT (R418, R419): MSIP at +0x0000, MTIMECMP at +0x4000, mtime ignored, SETSSIP at +0xC000. -/
def HostNode.aclintWrite (h : HostNode) (now o : Nat) (val : Word) : HostNode :=
  if o < 0x80 then h.modHart (o / 4) (fun x => { x with msip := bit val 0 })
  else if 0x4000 ≤ o ∧ o < 0x4100 then
    h.modHart ((o - 0x4000) / 8) (fun x =>
      let c := if o % 8 = 0 then x.mtimecmp / 2 ^ 32 * 2 ^ 32 + val.toNat else val.toNat * 2 ^ 32 + x.mtimecmp % 2 ^ 32
      { x with mtimecmp := c, mtip := x.mtip && decide (c ≤ now) })
  else if 0xC000 ≤ o ∧ o < 0xC080 then h.modHart ((o - 0xC000) / 4) (fun x => { x with ssip := x.ssip || bit val 0 })
  else h

/-- A write into the mailbox block from a spine port (R385): a register with no row of its own takes no write, and the access is refused. -/
def State.mailboxWrite (s : State) (sp : Nat) (secure : Bool) (o : Nat) (val : Word) : State :=
  let c := o / 0x80
  if o < 0x2000 ∧ o % 0x80 < 0x40 then
    (if mayAccess sp secure c then s.modChan c (fun h => { h with msg := h.msg.put (o % 0x80 / 4) val, collision := h.collision || h.full })
     else s.mbViolation c sp true)
  else if o < 0x2000 ∧ o % 0x80 = 0x40 then
    (if mayAccess sp secure c then
      (if bits val 15 0 = 0 then s
       else s.modChan c (fun h => { h with seq := bits val 15 0, full := true, taken := false, collision := h.collision || h.full }))
     else s.mbViolation c sp true)
  else s.mbViolation (if 0x3000 ≤ o then 48 + (o - 0x3000) / 0x40 else c) sp true

/-- A machine-mode access of a host (R429, R430). -/
def Writer.machine : Writer → Bool
  | .host m => m
  | .core | .fc | .conductor | .hedgerow | .master => false

/-- The hosts' own writes. -/
def Writer.ofHost : Writer → Bool
  | .host _ => true
  | .core | .fc | .conductor | .hedgerow | .master => false

/-- REGISTER_WRITE (R6): a word write at the register its space and offset name; a write that is not word aligned changes nothing. -/
def execRegisterWrite (sp : RegSpace) (w : Writer) (off : Nat) (val : Word) (s : State) : Out :=
  .next (if off % 4 ≠ 0 then s
    else
      match sp with
      | .tile t => if onArray t && (s.tile t).present && s.clocked t then s.writeTileReg t w off val else s
      | .fc f => if f < 56 then s.writeFcReg f w off val else s
      | .hostCtl k => if s.nodeOn k && Sys2Proof.Machine.Writer.ofHost w then s.hostCtlWrite k (Sys2Proof.Machine.Writer.machine w) off val else s
      | .eth k p =>
        if s.nodeOn k && decide (p < 2) && Sys2Proof.Machine.Writer.ofHost w then s.modHost k (fun h => h.modPort p (fun e => e.write off val)) else s
      | .aclint k => if s.nodeOn k && Sys2Proof.Machine.Writer.ofHost w then s.modHost k (fun h => h.aclintWrite s.time off val) else s
      | .stimecmp k i =>
        if s.nodeOn k && decide (i < 32) && Sys2Proof.Machine.Writer.ofHost w then
          s.modHart k i (fun x =>
            let c := if off = 0 then x.stimecmp / 2 ^ 32 * 2 ^ 32 + val.toNat else val.toNat * 2 ^ 32 + x.stimecmp % 2 ^ 32
            { x with stimecmp := c, stip := x.stip && decide (c ≤ s.time) })
        else s
      | .mailbox p secure => (s.spineGrant p).mailboxWrite p secure off val)

end Sys2Proof.Machine
end

