-- ==== Sys2Proof/Machine/Redfish.lean ====
section
/-! DEFINITION. The Redfish service (R448 to R452): sessions and accounts, chassis actions, configuration, and the recorder's actions (R473 to R475). -/

namespace Sys2Proof.Machine

/-! ## Sessions and roles (R451) -/

/-- The last answer's HTTP status. -/
def State.http (s : State) (code : Nat) : State := s.modHedge (fun h => { h with http := code, body := [] })

/-- Roles, lowest first. -/
def roleRead : Nat := 0
def roleOperator : Nat := 1
def roleAdmin : Nat := 2

/-- A session lives until it has stood idle for 600 s (R451). -/
def Session.lives (x : Session) (now : Nat) : Bool := decide (now < x.at_ + 600 * tickHz)

/-- The account of a live session. -/
def Hedge.who (h : Hedge) (session now : Nat) : Option Account :=
  match h.sessions.find? (fun x => x.id == session && x.lives now) with
  | some x => h.accounts.find? (fun a => a.name == x.account)
  | none => none

/-- Note a session's use. -/
def State.used (s : State) (session : Nat) : State :=
  s.modHedge (fun h => { h with sessions := h.sessions.map (fun x => if x.id = session then { x with at_ := s.hedgeNow } else x) })

/-- Serve a request of a session whose role is at least need: 401 without a live session, 403 with too low a role. -/
def State.serve (s : State) (session need : Nat) (g : Account → State → State) : Out :=
  .next (if s.hedge.up = false then s
    else
      match s.hedge.who session s.hedgeNow with
      | none => s.http 401
      | some a => if a.role < need then (s.used session).http 403 else g a ((s.used session).http 200))

/-- SESSION_LOGIN (R451): at most 32 sessions; five failures lock the account for 300 s; every failure writes event 0x0F88, its source address a free value. -/
def execSessionLogin (name password : Nat) (s : State) : Out :=
  let fail (s : State) (locked : Bool) : State :=
    let v := s.freeVal
    (v.2.event srcHedgerow 0x0F88 [name, v.1.toNat, b2n locked]).http 401
  .next (if s.hedge.up = false then s
    else
      match s.hedge.accounts.find? (fun a => a.name == name) with
      | none => fail s false
      | some a =>
        let put (b : Account) : State := s.modHedge (fun h => { h with accounts := h.accounts.map (fun x => if x.name = name then b else x) })
        let locked := match a.locked with
          | some t => decide (s.hedgeNow < t)
          | none => false
        if locked then fail s true
        else if a.password ≠ password then
          let n := a.fails + 1
          if 5 ≤ n then fail (put { a with fails := 0, locked := some (s.hedgeNow + 300 * tickHz) }) true
          else fail (put { a with fails := n, locked := none }) false
        else if 32 ≤ (s.hedge.sessions.filter (Session.lives · s.hedgeNow)).length then s.http 503
        else
          let id := s.hedge.nextSession
          let s := (put { a with fails := 0, locked := none }).http 201
          s.modHedge (fun h => { h with nextSession := id + 1, sessions := h.sessions.filter (Session.lives · s.hedgeNow) ++ [{ id := id, account := name, at_ := s.hedgeNow }], body := [id, b2n a.mustChange] }))

/-- ACCOUNT_LOCK_EXPIRY (R451). -/
def execAccountLockExpiry (name : Nat) (s : State) : Out :=
  .next (if s.hedge.up = false then s
    else s.modHedge (fun h => { h with accounts := h.accounts.map (fun x =>
      if x.name = name then (match x.locked with
        | some t => if t ≤ s.hedgeNow then { x with locked := none, fails := 0 } else x
        | none => x) else x) }))

/-- SESSION_IDLE_EXPIRY (R451): 600 s without use. -/
def execSessionIdleExpiry (session : Nat) (s : State) : Out :=
  .next (if s.hedge.up = false then s
    else s.modHedge (fun h => { h with sessions := h.sessions.filter (fun x => x.id != session || x.lives s.hedgeNow) }))

/-- A password has 12 to 64 characters (R451): it stands as the number its characters spell, one byte each. -/
def passwordOk (p : Nat) : Bool := decide (256 ^ 11 ≤ p) && decide (p < 256 ^ 64)

/-- The accounts after a change, its name and number (0 created, 1 changed, 2 removed), or the status that refuses it. A role above 2, a password of a wrong length or a 17th account is 400. -/
def Hedge.changed (h : Hedge) : AccountChange → Except Nat (Hedge × Nat × Nat)
  | .create name role password =>
    if h.accounts.any (fun a => a.name == name) then .error 409
    else if 2 < role ∨ passwordOk password = false ∨ 16 ≤ h.accounts.length then .error 400
    else .ok ({ h with accounts := h.accounts ++ [{ name := name, role := role, password := password }] }, name, 0)
  | .modify name role password =>
    if !(h.accounts.any (fun a => a.name == name)) then .error 404
    else if 2 < role ∨ passwordOk password = false then .error 400
    else .ok ({ h with accounts := h.accounts.map (fun a => if a.name = name then { a with role := role, password := password, mustChange := false } else a) }, name, 1)
  | .remove name =>
    if !(h.accounts.any (fun a => a.name == name)) then .error 404
    else .ok ({ h with accounts := h.accounts.filter (fun a => !(a.name == name)), sessions := h.sessions.filter (fun x => !(x.account == name)) }, name, 2)

/-- ACCOUNT_CHANGE (R451). -/
def execAccountChange (session : Nat) (ch : AccountChange) (s : State) : Out :=
  s.serve session roleAdmin (fun a s =>
    match s.hedge.changed ch with
    | .error c => s.http c
    | .ok (h, name, n) => ({ s with hedge := h }).event srcHedgerow 0x0F89 [name, n, a.name])

/-! ## Chassis actions (R448, R449) -/

/-- CHASSIS_FORCE_RESTART (R449): SYS_WARM_RESET on a secure channel; 503 where all eight are busy. -/
def execChassisForceRestart (session : Nat) (s : State) : Out :=
  s.serve session roleOperator (fun _ s => match s.ring true 0x0103 [] with
    | some t => t
    | none => s.http 503)

/-- CHASSIS_POWER_CYCLE (R449). -/
def execChassisPowerCycle (session : Nat) (s : State) : Out :=
  s.serve session roleOperator (fun _ s => if s.chassis.shutdown.isSome then s.http 409 else s.boardPause)

/-- CHASSIS_FORCE_OFF (R449). -/
def execChassisForceOff (session : Nat) (s : State) : Out :=
  s.serve session roleOperator (fun _ s =>
    if s.chassis.shutdown.isSome then s.http 409
    else
      let s := if s.chassis.board then s.boardOff 1 else s
      { s with chassis := { s.chassis with heldOff := true, restartAt := none } })

/-- CHASSIS_ON (R449): power-enable and standby-good must be asserted, or 409. -/
def execChassisOn (session : Nat) (s : State) : Out :=
  s.serve session roleOperator (fun _ s =>
    if s.chassis.pwrEn && s.chassis.stbyGood && s.chassis.shutdown.isNone then ({ s with chassis := { s.chassis with heldOff := false } }).tryStart else s.http 409)

/-- POWER_LIMIT_SET (R448): PWR_SET_CAP on a secure channel, within 10,000 to 42,000 W. -/
def execPowerLimitSet (session watts : Nat) (s : State) : Out :=
  s.serve session roleAdmin (fun _ s =>
    if !within 10000 42000 watts then s.http 400
    else
      match s.ring true 0x0601 [watts] with
      | some t => t
      | none => s.http 503)

/-- INDICATOR_LED_SET (R448). -/
def execIndicatorLedSet (session : Nat) (on : Bool) (s : State) : Out :=
  s.serve session roleOperator (fun _ s => s.modHedge (fun h => { h with led := on }))

/-- DATETIME_SET (R451, R471). -/
def execDatetimeSet (session utc : Nat) (s : State) : Out := s.serve session roleOperator (fun _ s => s.setUtc utc)

/-! ## The manager (R444, R452) -/

/-- Regions that do not verify now. -/
def State.badRegions (s : State) : List Nat := [1, 2, 3, 4, 5, 6].filter (fun k => !(s.flash.regions.getD k {}).ok)

/-- MANAGER_RESET (R444). -/
def execManagerReset (session : Nat) (s : State) : Out := s.serve session roleAdmin (fun _ s => s.hedgeRestart 1 s.badRegions)

/-- RESET_TO_DEFAULTS (R445, R452): configuration, accounts and partner records go, staging and snapshots are emptied; owner keys, images, the log and the hardware state stay. -/
def execResetToDefaults (session : Nat) (s : State) : Out :=
  s.serve session roleAdmin (fun a s =>
    let h := s.hedge
    let s := { s with
      waferId := 0xFFFF
      hedge := { h with cfg := {}, accounts := [{ name := 0, role := 2, password := 0, mustChange := true }], sessions := [], snaps := [] }
      scarab := { s.scarab with rates := [] }
      flash := { s.flash with staged := [] }
      ports := s.ports.mapVals (fun _ p => { p with partner := none }) }
    s.event srcHedgerow 0x0F92 [a.name])

/-- CONFIG_SET (R452, R470): rates and depths lie in 1 to 4,096. -/
def execConfigSet (session : Nat) (item : ConfigItem) (s : State) : Out :=
  s.serve session roleAdmin (fun _ s =>
    let set (g : HedgeCfg → HedgeCfg) : State := s.modHedge (fun h => { h with cfg := g h.cfg })
    match item with
    | .network i => set (fun c => { c with network := i })
    | .recoveryUrl u => set (fun c => { c with recoveryUrl := u })
    | .silenceReset b => set (fun c => { c with silenceReset := b })
    | .bootSource b => set (fun c => { c with bootNvme := b })
    | .forwardMask l => set (fun c => { c with forward := some l })
    | .rateLimit code rate depth =>
      if within 1 4096 rate && within 1 4096 depth then { s with scarab := { s.scarab with rates := s.scarab.rates.put code (rate, depth) } } else s.http 400)

/-- OWNER_KEY_INSTALL (R457): item 0 the root certificate, 1 the image key; an image key in place goes only by an upload signed with it. -/
def execOwnerKeyInstall (session : Nat) (image : Bool) (key : Option Nat) (signed : Bool) (s : State) : Out :=
  s.serve session roleAdmin (fun _ s =>
    let old := if image then s.hedge.ownerImage else s.hedge.ownerRoot
    if image && old.isSome && !signed then s.http 403
    else if old.isNone && key.isNone then s.http 404
    else
      (s.modHedge (fun h => if image then { h with ownerImage := key } else { h with ownerRoot := key })).event srcHedgerow 0x0F90 [b2n image, b2n key.isSome])

/-! ## Reads (R448) -/

/-- What a listed resource reports, in the order of its properties; a URI that is not listed is 404. -/
def State.resource (s : State) : RedfishUri → Option (List Nat)
  | .root => some []
  | .chassis => some [Config.part, Config.serial, b2n s.chassis.board, s.health, b2n s.identLed]
  | .sensors => some ([s.chassis.mv, s.watch.watts, intWord s.watch.coolant.inlet, intWord s.watch.coolant.outlet, s.watch.coolant.flow] ++
      (upto 56).map (fun f => intWord (s.field f).pwr.temp) ++ (upto (56 * 40 + 5)).map (fun i => b2n (s.hedge.sensors.getD i {}).failed))
  | .powerLimit => some [(s.master (s.masterField.getD 0)).cap, 10000, 42000]
  | .powerSubsystem => some [42000, s.chassis.mv]
  | .thermalSubsystem => some ([intWord s.watch.coolant.inlet, intWord s.watch.coolant.outlet, s.watch.coolant.flow] ++
      (upto 56).map (fun f => intWord (s.field f).pwr.temp))
  | .manager => some [(s.flash.regions.getD 1 {}).version, s.utcNow]
  | .network => some [s.hedge.cfg.network]
  | .scarab => some ((s.statusBlock false).map BitVec.toNat ++ (s.scarab.region.flatMap Rec.bytes).map BitVec.toNat)
  | .updateService => some ([1, 2, 3, 4, 5, 6].flatMap (fun k => [(s.flash.regions.getD k {}).version, (s.flash.staged.getD k {}).version]))
  | .tasks => some s.hedge.tasks
  | .accounts => some (s.hedge.accounts.flatMap (fun a => [a.name, a.role]))
  | .sessions => some ((s.hedge.sessions.filter (Session.lives · s.hedgeNow)).flatMap (fun x => [x.id, x.account]))
  | .other => none

/-- REDFISH_GET (R448). -/
def execRedfishGet (session : Nat) (uri : RedfishUri) (s : State) : Out :=
  s.serve session roleRead (fun _ s => match s.resource uri with
    | some b => s.modHedge (fun h => { h with body := b })
    | none => s.http 404)

/-! ## The recorder's actions (R473 to R475, R477) -/

/-- CLEAR_LOG (R473, R477): the expected count must be the record count, and the slot check settled, or 409. -/
def execClearLog (session expected : Nat) (s : State) : Out :=
  s.serve session roleAdmin (fun a s =>
    let k := s.scarab
    if k.opening || !(expected == k.region.length) then s.http 409
    else
      ({ s with scarab := { k with region := [], ram := [], dropped := [], fullTime := none, clears := k.clears + 1 } }).event
        srcHedgerow 0x0F8C [k.region.length + k.ram.length, total (k.dropped.map (fun (e : Nat × Nat) => e.2)), a.name])

/-- SCARAB_EXPORT (R474). -/
def execScarabExport (session : Nat) (s : State) : Out :=
  s.serve session roleOperator (fun _ s => s.modHedge (fun h => { h with export_ := s.exportBytes, tasks := h.tasks ++ [1] }))

/-- FIELD_SNAPSHOT (R475). -/
def execFieldSnapshot (session f : Nat) (s : State) : Out :=
  s.serve session roleOperator (fun _ s =>
    if 56 ≤ f then s.http 404 else (s.keepSnap (s.snapshot f)).modHedge (fun h => { h with tasks := h.tasks ++ [1] }))

end Sys2Proof.Machine
end

