-- ==== Sys2Proof/Machine/Update.lean ====
section
/-! DEFINITION. The update service, region repair and the recovery loader (R460 to R466). -/

namespace Sys2Proof.Machine

/-- Bytes of a kind's region (R445), and the longest body it takes: kinds 5 and 6 have a lower one. -/
def regionSize (kind : Nat) : Nat :=
  2 ^ 20 * (if kind = 1 ∨ kind = 2 then 64 else if kind = 3 ∨ kind = 4 then 32 else if kind = 5 then 8 else 256)

def bodyLimit (kind : Nat) : Nat := if kind = 5 then 4 * 2 ^ 20 else if kind = 6 then 192 * 2 ^ 20 else regionSize kind

/-- The header's sizes fit the kind's region (R460, R461). -/
def imageFits (img : ImagePush) : Bool :=
  decide (img.length ≤ bodyLimit img.kind) && decide (512 + 64 * cdiv img.length 65536 + img.length ≤ regionSize img.kind)

/-- The first check of R461 that an image fails: its step, and the block where that is step 6 (0 otherwise). -/
def State.imageBad (s : State) (img : ImagePush) : Option (Nat × Nat) :=
  if !(img.headerOk && within 1 6 img.kind && imageFits img) then some (1, 0)
  else if !(decide (img.key < 4) && img.exelornSigOk && Config.keyIntact img.key) then some (2, 0)
  else if s.hedge.ownerImage.isSome && !img.ownerSigOk then some (3, 0)
  else if img.svn < s.flash.counters.getD img.kind 0 then some (4, 0)
  else if !img.tableOk then some (5, 0)
  else
    match img.badBlock with
    | some b => some (6, b)
    | none => none

/-- Stage a checked image. -/
def State.stage (s : State) (img : ImagePush) : State :=
  { s with flash := { s.flash with staged := s.flash.staged.put img.kind { version := img.version, svn := img.svn, digest := img.digest } } }

/-- Check an image and stage it: true where it is staged. A rejected one leaves the staged image in place (R461). -/
def State.pushImage (s : State) (img : ImagePush) : Bool × State :=
  match s.imageBad img with
  | some (step, block) => (false, s.event srcHedgerow 0x0F85 [img.kind, step, block])
  | none => (true, (s.stage img).event srcHedgerow 0x0F84 [img.kind, img.version, img.svn])

/-- The kind of image an FW_APPLY message names (R412). -/
def applyKind (m : List Word) : Option Nat :=
  if msgCode m = 0x0902 then some (if msgWord m 2 = 0 then 3 else if msgWord m 2 = 1 then 4 else 2) else none

/-- An FW_APPLY of the kind waits on a channel or is not complete (R412). -/
def State.applying (s : State) (kind : Nat) : Bool :=
  (upto 64).any (fun c =>
    let h := s.chan c
    (h.full && applyKind ((upto 16).map (fun i => h.msg.getD i 0)) == some kind) ||
      (match h.buf with
       | some k => applyKind k.words == some kind
       | none => false)) ||
  s.cond.pend.any (fun p => applyKind p.words == some kind)

/-- An image of the kind is being pushed by another live session than the one named, or committed (R463). -/
def State.kindBusy (s : State) (kind : Nat) (session : Option Nat) : Bool :=
  s.applying kind || s.pushedBy kind session

/-- FIRMWARE_PUSH (R461, R463): while last is clear its blocks still arrive; with the last one the image is staged or the push abandoned, and the Task reports Completed (1) or Exception (2). 409 while an image of the kind is being pushed or committed. -/
def execFirmwarePush (session : Nat) (img : ImagePush) (s : State) : Out :=
  s.serve session roleAdmin (fun _ s =>
    if s.kindBusy img.kind (some session) then s.http 409
    else if !img.last then s.modHedge (fun h => { h with http := 202, pushing := h.pushing.put img.kind session })
    else
      let p := s.pushImage img
      p.2.modHedge (fun h => { h with http := 202, tasks := h.tasks ++ [if p.1 then 1 else 2], pushing := h.pushing.erase img.kind }))

/-- UPDATE_APPLY (R462, R463): kinds 1, 5 and 6 are committed; kinds 2 to 4 go by FW_APPLY on a secure channel, kind 3 for all fields and kind 4 for the compute fields; with nothing staged, or while an image of the kind is being pushed or committed, it is 409. -/
def execUpdateApply (session kind : Nat) (s : State) : Out :=
  s.serve session roleAdmin (fun _ s =>
    if (s.flash.staged.find kind).isNone || !within 1 6 kind || s.kindBusy kind none then s.http 409
    else if kind = 1 then (s.commitImage 1).hedgeRestart 3 (s.badRegions.filter (fun k => !(k == 1)))
    else if kind = 5 ∨ kind = 6 then (s.commitImage kind).modHedge (fun h => { h with tasks := h.tasks ++ [1] })
    else
      let fs := (upto 56).filter (fun f => kind == 3 || (kind == 4 && isCompute f))
      match s.ring true 0x0902 ((if kind = 3 then 0 else if kind = 4 then 1 else 2) :: (maskWords fs).map BitVec.toNat) with
      | some t => t
      | none => s.http 503)

/-- A repaired region: it is committed, event 0x0F87 names the source (0 staged, 1 URL, 2 push), and start-up continues (R465). -/
def State.repaired (s : State) (kind source : Nat) : State := ((s.commitImage kind).event srcHedgerow 0x0F87 [kind, source]).tryStart

/-- REGION_REPAIR (R465): a staged image comes first, then the recovery URL, then a push by an Administrator. -/
def execRegionRepair (session kind : Nat) (src : RepairSource) (s : State) : Out :=
  let staged := (s.flash.staged.find kind).isSome
  if !(s.hedge.up && within 2 6 kind && !(s.flash.regions.getD kind {}).ok) then .next s
  else
    match src with
    | .staged => .next (if staged then s.repaired kind 0 else s)
    | .url img =>
      .next (if staged || !(img.kind == kind) then s
        else
          let p := s.pushImage img
          if p.1 then p.2.repaired kind 1 else p.2)
    | .push img =>
      s.serve session roleAdmin (fun _ s =>
        if staged || !(img.kind == kind) || s.kindBusy kind none then s.http 409
        else
          let p := s.pushImage img
          let t := p.2.modHedge (fun h => { h with http := 202, tasks := h.tasks ++ [if p.1 then 1 else 2] })
          if p.1 then t.repaired kind 2 else t)

/-- RECOVERY_LOADER (R466): one attempt; it commits only images of kind 1, and then Hedgerow starts. A failure at any step waits 60 s. -/
def execRecoveryLoader (img : Option ImagePush) (s : State) : Out :=
  let fail : State := s.modHedge (fun h => { h with retryAt := some (s.hedgeNow + 60 * tickHz) })
  .next (if s.hedge.recovering = false ∨ s.hedge.retryAt.isSome = true then s
    else
      match img with
      | none => fail
      | some i =>
        if i.kind = 1 ∧ (s.imageBad i).isNone = true then
          let bad := s.badRegions.filter (fun k => !(k == 1))
          let s := (((s.stage i).commitImage 1).hedgeStart 4 bad).commitImage 1
          (s.event srcHedgerow 0x0F87 [1, 1]).tryStart
        else fail)

/-- RECOVERY_RETRY (R466): after 60 s the loader returns to step 2. -/
def execRecoveryRetry (s : State) : Out :=
  .next (match s.hedge.retryAt with
    | some t => if s.hedge.recovering = true ∧ t ≤ s.hedgeNow then s.modHedge (fun h => { h with retryAt := none }) else s
    | none => s)

end Sys2Proof.Machine
end

