-- ==== Sys2Proof/Machine/Dispatch.lean ====
section
/-! DEFINITION. What a command does: one arm for each constructor of Instr. -/

namespace Sys2Proof.Machine

/-- The effect of a command on everything but the queue. -/
def exec (i : Instr) (s : State) : Host.Outcome State Fault Refusal :=
  match i with
  | .inputPowerApplied mv bad => Sys2Proof.Machine.execInputPowerApplied mv bad s
  | .powerEnable => Sys2Proof.Machine.execPowerEnable s
  | .pwrEnFall => Sys2Proof.Machine.execPwrEnFall s
  | .shutdownConductorTimeout => Sys2Proof.Machine.execShutdownConductorTimeout s
  | .stbyGoodFall => Sys2Proof.Machine.execStbyGoodFall s
  | .modResetFall => Sys2Proof.Machine.execModResetFall s
  | .modResetRelease => Sys2Proof.Machine.execModResetRelease s
  | .identInput low => Sys2Proof.Machine.execIdentInput low s
  | .conductorSilenceCheck => Sys2Proof.Machine.execConductorSilenceCheck s
  | .conductorSilenceAction => Sys2Proof.Machine.execConductorSilenceAction s
  | .coldRestartTimer => Sys2Proof.Machine.execColdRestartTimer s
  | .rvInstruction t => Sys2Proof.Machine.execRvInstruction t s
  | .coreLoad t a => Sys2Proof.Machine.execCoreLoad t a s
  | .coreStore t a => Sys2Proof.Machine.execCoreStore t a s
  | .csrAccess t csr op rd rs1 => Sys2Proof.Machine.execCsrAccess t csr op rd rs1 s
  | .ecall t => Sys2Proof.Machine.execEcall t s
  | .ebreak t => Sys2Proof.Machine.execEbreak t s
  | .stallConditionMet t st => Sys2Proof.Machine.execStallConditionMet t st s
  | .stallWatchdogExpiry t st => Sys2Proof.Machine.execStallWatchdogExpiry t st s
  | .qopen t a => Sys2Proof.Machine.execQopen t a s
  | .qclose t a => Sys2Proof.Machine.execQclose t a s
  | .qsend t a => Sys2Proof.Machine.execQsend t a s
  | .qtrysend t a => Sys2Proof.Machine.execQtrysend t a s
  | .qrecv t a => Sys2Proof.Machine.execQrecv t a s
  | .qtryrecv t a => Sys2Proof.Machine.execQtryrecv t a s
  | .qselect t a => Sys2Proof.Machine.execQselect t a s
  | .qstat t a => Sys2Proof.Machine.execQstat t a s
  | .swait t a => Sys2Proof.Machine.execSwait t a s
  | .ssignal t a => Sys2Proof.Machine.execSsignal t a s
  | .sfence t a => Sys2Proof.Machine.execSfence t a s
  | .sread t a => Sys2Proof.Machine.execSread t a s
  | .fpush t a => Sys2Proof.Machine.execFpush t a s
  | .fsteal t a => Sys2Proof.Machine.execFsteal t a s
  | .fwait t a => Sys2Proof.Machine.execFwait t a s
  | .hset t a => Sys2Proof.Machine.execHset t a s
  | .hclr t a => Sys2Proof.Machine.execHclr t a s
  | .ldt t a => Sys2Proof.Machine.execLdt t a s
  | .stt t a => Sys2Proof.Machine.execStt t a s
  | .tfill t a => Sys2Proof.Machine.execTfill t a s
  | .dload t a => Sys2Proof.Machine.execDload t a s
  | .dswitch t a => Sys2Proof.Machine.execDswitch t a s
  | .dpurge t a => Sys2Proof.Machine.execDpurge t a s
  | .dsample t a => Sys2Proof.Machine.execDsample t a s
  | .wopen t a => Sys2Proof.Machine.execWopen t a s
  | .wclose t a => Sys2Proof.Machine.execWclose t a s
  | .xput t a => Sys2Proof.Machine.execXput t a s
  | .xget t a => Sys2Proof.Machine.execXget t a s
  | .unitStart t e => Sys2Proof.Machine.execUnitStart t e s
  | .unitRetire t e => Sys2Proof.Machine.execUnitRetire t e s
  | .intraTileSteal t e => Sys2Proof.Machine.execIntraTileSteal t e s
  | .stealSearch t => Sys2Proof.Machine.execStealSearch t s
  | .stealBackoffExpiry t => Sys2Proof.Machine.execStealBackoffExpiry t s
  | .stealReturnTimeout t entry => Sys2Proof.Machine.execStealReturnTimeout t entry s
  | .stealFailureNotice h entry homeGen unitId => Sys2Proof.Machine.execStealFailureNotice h entry homeGen unitId s
  | .engineSleep t => Sys2Proof.Machine.execEngineSleep t s
  | .ctrlWrite h off data => Sys2Proof.Machine.execCtrlWrite h off data s
  | .ctrlRead h off len => Sys2Proof.Machine.execCtrlRead h off len s
  | .ctrlOrderAdmit h => Sys2Proof.Machine.execCtrlOrderAdmit h s
  | .ctrlOrderSwitch h tgt at_ => Sys2Proof.Machine.execCtrlOrderSwitch h tgt at_ s
  | .ctrlOrderDload h slot ref purge => Sys2Proof.Machine.execCtrlOrderDload h slot ref purge s
  | .ctrlOrderSample h handle n at_ => Sys2Proof.Machine.execCtrlOrderSample h handle n at_ s
  | .ctrlReply h re status data => Sys2Proof.Machine.execCtrlReply h re status data s
  | .tileResetOrder t => Sys2Proof.Machine.execTileResetOrder t s
  | .rawWrite h off data => Sys2Proof.Machine.execRawWrite h off data s
  | .rawRead h off len => Sys2Proof.Machine.execRawRead h off len s
  | .openArrives h b => Sys2Proof.Machine.execOpenArrives h b s
  | .probe h b => Sys2Proof.Machine.execProbe h b s
  | .senderClose h b => Sys2Proof.Machine.execSenderClose h b s
  | .readerNotice h b => Sys2Proof.Machine.execReaderNotice h b s
  | .closeAfterLoss h b => Sys2Proof.Machine.execCloseAfterLoss h b s
  | .recordTimeout t r => Sys2Proof.Machine.execRecordTimeout t r s
  | .steal h engine domain gen => Sys2Proof.Machine.execSteal h engine domain gen s
  | .operandRead h b => Sys2Proof.Machine.execOperandRead h b s
  | .syncWait h b => Sys2Proof.Machine.execSyncWait h b s
  | .syncSignal h b => Sys2Proof.Machine.execSyncSignal h b s
  | .syncPostedSignal h b => Sys2Proof.Machine.execSyncPostedSignal h b s
  | .syncRead h b => Sys2Proof.Machine.execSyncRead h b s
  | .syncCancel h b => Sys2Proof.Machine.execSyncCancel h b s
  | .syncWaitResend t => Sys2Proof.Machine.execSyncWaitResend t s
  | .staleReleaseRefused f cell waiter => Sys2Proof.Machine.execStaleReleaseRefused f cell waiter s
  | .remoteRead h b => Sys2Proof.Machine.execRemoteRead h b s
  | .remoteWrite h b data => Sys2Proof.Machine.execRemoteWrite h b data s
  | .windowHeldServe t w => Sys2Proof.Machine.execWindowHeldServe t w s
  | .windowHoldTimeout t w => Sys2Proof.Machine.execWindowHoldTimeout t w s
  | .windowDeadline t w => Sys2Proof.Machine.execWindowDeadline t w s
  | .reply h re status data => Sys2Proof.Machine.execReply h re status data s
  | .status h re code => Sys2Proof.Machine.execStatus h re code s
  | .grant h b => Sys2Proof.Machine.execGrant h b s
  | .connectionCredit h b => Sys2Proof.Machine.execConnectionCredit h b s
  | .tokenCredit h slot emit => Sys2Proof.Machine.execTokenCredit h slot emit s
  | .stealReply h u => Sys2Proof.Machine.execStealReply h u s
  | .message h b => Sys2Proof.Machine.execMessage h b s
  | .combine h cs => Sys2Proof.Machine.execCombine h cs s
  | .combineFoldDone t q slot => Sys2Proof.Machine.execCombineFoldDone t q slot s
  | .token h b => Sys2Proof.Machine.execToken h b s
  | .result h b => Sys2Proof.Machine.execResult h b s
  | .multicast r off data => Sys2Proof.Machine.execMulticast r off data s
  | .routePacket n merge stall depth => Sys2Proof.Machine.execRoutePacket n merge stall depth s
  | .tokenRetryResend t idx => Sys2Proof.Machine.execTokenRetryResend t idx s
  | .firingIssue t => Sys2Proof.Machine.execFiringIssue t s
  | .tokenEmit t ctx => Sys2Proof.Machine.execTokenEmit t ctx s
  | .firingComplete t ctx => Sys2Proof.Machine.execFiringComplete t ctx s
  | .sourceFire t slot node => Sys2Proof.Machine.execSourceFire t slot node s
  | .tokenOrphan t idx => Sys2Proof.Machine.execTokenOrphan t idx s
  | .foldScheduleMove t => Sys2Proof.Machine.execFoldScheduleMove t s
  | .foldSwitchAtT t => Sys2Proof.Machine.execFoldSwitchAtT t s
  | .profileSample t granted => Sys2Proof.Machine.execProfileSample t granted s
  | .slotArm t w slot n => Sys2Proof.Machine.execSlotArm t w slot n s
  | .syncCellWrite t w c isTarget val => Sys2Proof.Machine.execSyncCellWrite t w c isTarget val s
  | .syncDebugCore t => Sys2Proof.Machine.execSyncDebugCore t s
  | .syncDebugAll t => Sys2Proof.Machine.execSyncDebugAll t s
  | .syncRecWrite f idx w0 w1 w => Sys2Proof.Machine.execSyncRecWrite f idx w0 w1 w s
  | .hedgerowSyncDebug cell op => Sys2Proof.Machine.execHedgerowSyncDebug cell op s
  | .rqEnable t w q val => Sys2Proof.Machine.execRqEnable t w q val s
  | .rqDisable t w q val => Sys2Proof.Machine.execRqDisable t w q val s
  | .connProbe t st => Sys2Proof.Machine.execConnProbe t st s
  | .rowRefresh t row => Sys2Proof.Machine.execRowRefresh t row s
  | .patrolScrub f errs => Sys2Proof.Machine.execPatrolScrub f errs s
  | .refreshDerate f temp => Sys2Proof.Machine.execRefreshDerate f temp s
  | .refreshRestore f temps => Sys2Proof.Machine.execRefreshRestore f temps s
  | .mapPublish at_ => Sys2Proof.Machine.execMapPublish at_ s
  | .mapInjectionPause => Sys2Proof.Machine.execMapInjectionPause s
  | .mapSwitch => Sys2Proof.Machine.execMapSwitch s
  | .fenceSettleLocal => Sys2Proof.Machine.execFenceSettleLocal s
  | .fenceSettleRemote f => Sys2Proof.Machine.execFenceSettleRemote f s
  | .distTablePublish => Sys2Proof.Machine.execDistTablePublish s
  | .cellLostSweep f => Sys2Proof.Machine.execCellLostSweep f s
  | .dockIngress p pkt => Sys2Proof.Machine.execDockIngress p pkt s
  | .dockEgress p pkt => Sys2Proof.Machine.execDockEgress p pkt s
  | .pendingExpiry p idx => Sys2Proof.Machine.execPendingExpiry p idx s
  | .remoteRetryResend t => Sys2Proof.Machine.execRemoteRetryResend t s
  | .dataFrame p fr => Sys2Proof.Machine.execDataFrame p fr s
  | .linkAck p seq => Sys2Proof.Machine.execLinkAck p seq s
  | .linkNak p seq => Sys2Proof.Machine.execLinkNak p seq s
  | .linkLaneOff p lane => Sys2Proof.Machine.execLinkLaneOff p lane s
  | .linkLaneOn p lane => Sys2Proof.Machine.execLinkLaneOn p lane s
  | .linkClose p => Sys2Proof.Machine.execLinkClose p s
  | .linkCredits p vc n => Sys2Proof.Machine.execLinkCredits p vc n s
  | .linkIdleAck p => Sys2Proof.Machine.execLinkIdleAck p s
  | .frameCrcError p => Sys2Proof.Machine.execFrameCrcError p s
  | .laneFailure p lane => Sys2Proof.Machine.execLaneFailure p lane s
  | .laneRetrainDone p lane ok => Sys2Proof.Machine.execLaneRetrainDone p lane ok s
  | .egressHoldExpiry p => Sys2Proof.Machine.execEgressHoldExpiry p s
  | .portLightDetected p => Sys2Proof.Machine.execPortLightDetected p s
  | .trainingDone p r => Sys2Proof.Machine.execTrainingDone p r s
  | .trainingFailed p => Sys2Proof.Machine.execTrainingFailed p s
  | .trainingBackoffExpiry p => Sys2Proof.Machine.execTrainingBackoffExpiry p s
  | .hello p versions nonce => Sys2Proof.Machine.execHello p versions nonce s
  | .cap p b => Sys2Proof.Machine.execCap p b s
  | .cert x => Sys2Proof.Machine.execCert x s
  | .mode p m count => Sys2Proof.Machine.execMode p m count s
  | .modeSwitch x => Sys2Proof.Machine.execModeSwitch x s
  | .negotiationTimeout p => Sys2Proof.Machine.execNegotiationTimeout p s
  | .refusedTimeout p => Sys2Proof.Machine.execRefusedTimeout p s
  | .portSignalLoss p => Sys2Proof.Machine.execPortSignalLoss p s
  | .retrainDone p => Sys2Proof.Machine.execRetrainDone p s
  | .retrainTimeout p => Sys2Proof.Machine.execRetrainTimeout p s
  | .glowLightLoss g => Sys2Proof.Machine.execGlowLightLoss g s
  | .glowLatchOpen g => Sys2Proof.Machine.execGlowLatchOpen g s
  | .glowLatchClose g => Sys2Proof.Machine.execGlowLatchClose g s
  | .glowLit g => Sys2Proof.Machine.execGlowLit g s
  | .powerNoteSend => Sys2Proof.Machine.execPowerNoteSend s
  | .powerNote p n => Sys2Proof.Machine.execPowerNote p n s
  | .powerNoteExpiry => Sys2Proof.Machine.execPowerNoteExpiry s
  | .brokerConnectRequest p m => Sys2Proof.Machine.execBrokerConnectRequest p m s
  | .brokerConnectReply p m => Sys2Proof.Machine.execBrokerConnectReply p m s
  | .brokerCloseMessage p m => Sys2Proof.Machine.execBrokerCloseMessage p m s
  | .brokerLookupRequest p m => Sys2Proof.Machine.execBrokerLookupRequest p m s
  | .brokerLookupReply p m => Sys2Proof.Machine.execBrokerLookupReply p m s
  | .referenceSwitch deltas => Sys2Proof.Machine.execReferenceSwitch deltas s
  | .referenceLost => Sys2Proof.Machine.execReferenceLost s
  | .waferTimeBroadcast => Sys2Proof.Machine.execWaferTimeBroadcast s
  | .railDroop f n level => Sys2Proof.Machine.execRailDroop f n level s
  | .marginStop f monitor => Sys2Proof.Machine.execMarginStop f monitor s
  | .marginRestart f => Sys2Proof.Machine.execMarginRestart f s
  | .crossingCalibrate f b => Sys2Proof.Machine.execCrossingCalibrate f b s
  | .calibrationDone f b spread => Sys2Proof.Machine.execCalibrationDone f b spread s
  | .heartbeatLoss f b => Sys2Proof.Machine.execHeartbeatLoss f b s
  | .fieldWake f => Sys2Proof.Machine.execFieldWake f s
  | .fieldClockStop f => Sys2Proof.Machine.execFieldClockStop f s
  | .retentionReached f => Sys2Proof.Machine.execRetentionReached f s
  | .clkOrderOpStep f op at_ => Sys2Proof.Machine.execClkOrderOpStep f op at_ s
  | .clkOrderEnterMonitor f op at_ => Sys2Proof.Machine.execClkOrderEnterMonitor f op at_ s
  | .clkOrderLeaveMonitor f op at_ => Sys2Proof.Machine.execClkOrderLeaveMonitor f op at_ s
  | .opStep f => Sys2Proof.Machine.execOpStep f s
  | .relockDone f => Sys2Proof.Machine.execRelockDone f s
  | .monitorModeSwitch => Sys2Proof.Machine.execMonitorModeSwitch s
  | .monitorSteerEpoch f low => Sys2Proof.Machine.execMonitorSteerEpoch f low s
  | .marginLowWrite f => Sys2Proof.Machine.execMarginLowWrite f s
  | .wtLoRead f => Sys2Proof.Machine.execWtLoRead f s
  | .epochEnd f low mon => Sys2Proof.Machine.execEpochEnd f low mon s
  | .powerMasterDecision => Sys2Proof.Machine.execPowerMasterDecision s
  | .masterTakeover => Sys2Proof.Machine.execMasterTakeover s
  | .pwrStepCap f op at_ => Sys2Proof.Machine.execPwrStepCap f op at_ s
  | .pwrStepThermal f op at_ => Sys2Proof.Machine.execPwrStepThermal f op at_ s
  | .pwrStepForced f op at_ => Sys2Proof.Machine.execPwrStepForced f op at_ s
  | .hedgerowPowerSample watts amps => Sys2Proof.Machine.execHedgerowPowerSample watts amps s
  | .estScaleCalibrate measured estimated => Sys2Proof.Machine.execEstScaleCalibrate measured estimated s
  | .inputVoltageSample mv => Sys2Proof.Machine.execInputVoltageSample mv s
  | .busStop => Sys2Proof.Machine.execBusStop s
  | .busRestart => Sys2Proof.Machine.execBusRestart s
  | .currentLimit => Sys2Proof.Machine.execCurrentLimit s
  | .thatchEngage t => Sys2Proof.Machine.execThatchEngage t s
  | .thatchRampDownStep t => Sys2Proof.Machine.execThatchRampDownStep t s
  | .thatchRampUpStep t => Sys2Proof.Machine.execThatchRampUpStep t s
  | .thermalSample f temp sensor => Sys2Proof.Machine.execThermalSample f temp sensor s
  | .autoReturn f => Sys2Proof.Machine.execAutoReturn f s
  | .coolantSample c => Sys2Proof.Machine.execCoolantSample c s
  | .overcurrentLatch f core mem => Sys2Proof.Machine.execOvercurrentLatch f core mem s
  | .insulationCheckDone f coreMa memMa => Sys2Proof.Machine.execInsulationCheckDone f coreMa memMa s
  | .trimRaise f point day => Sys2Proof.Machine.execTrimRaise f point day s
  | .fieldThermClear f => Sys2Proof.Machine.execFieldThermClear f s
  | .fieldPowerWave w routers => Sys2Proof.Machine.execFieldPowerWave w routers s
  | .fieldWaveTimeout f => Sys2Proof.Machine.execFieldWaveTimeout f s
  | .knownAnswerDone t corePass enginePass => Sys2Proof.Machine.execKnownAnswerDone t corePass enginePass s
  | .knownAnswerTimeout t => Sys2Proof.Machine.execKnownAnswerTimeout t s
  | .marchDone f k failed routers => Sys2Proof.Machine.execMarchDone f k failed routers s
  | .soakDone f temp => Sys2Proof.Machine.execSoakDone f temp s
  | .profilingPauseEnd f failed => Sys2Proof.Machine.execProfilingPauseEnd f failed s
  | .bringupAdmission => Sys2Proof.Machine.execBringupAdmission s
  | .warmReset c cold => Sys2Proof.Machine.execWarmReset c cold s
  | .warmResetInjectionStop => Sys2Proof.Machine.execWarmResetInjectionStop s
  | .retestDone f => Sys2Proof.Machine.execRetestDone f s
  | .haltScan f => Sys2Proof.Machine.execHaltScan f s
  | .faultLogPoll => Sys2Proof.Machine.execFaultLogPoll s
  | .fltRead f tail => Sys2Proof.Machine.execFltRead f tail s
  | .mbMsgWrite sp secure c w val => Sys2Proof.Machine.execMbMsgWrite sp secure c w val s
  | .mbDoorbell sp secure c val => Sys2Proof.Machine.execMbDoorbell sp secure c val s
  | .mailboxPoll => Sys2Proof.Machine.execMailboxPoll s
  | .commandComplete c seq => Sys2Proof.Machine.execCommandComplete c seq s
  | .commandTimeout c seq => Sys2Proof.Machine.execCommandTimeout c seq s
  | .deferredEnableStart c seq => Sys2Proof.Machine.execDeferredEnableStart c seq s
  | .conductorBeat => Sys2Proof.Machine.execConductorBeat s
  | .conductorTakeover => Sys2Proof.Machine.execConductorTakeover s
  | .standbyRebuildDone => Sys2Proof.Machine.execStandbyRebuildDone s
  | .sysIdentify c => Sys2Proof.Machine.execSysIdentify c s
  | .sysStatus c => Sys2Proof.Machine.execSysStatus c s
  | .sysWarmReset c => Sys2Proof.Machine.execSysWarmReset c s
  | .sysSetWaferId c => Sys2Proof.Machine.execSysSetWaferId c s
  | .sysHandover c => Sys2Proof.Machine.execSysHandover c s
  | .sysBoundVoid c => Sys2Proof.Machine.execSysBoundVoid c s
  | .sysPing c => Sys2Proof.Machine.execSysPing c s
  | .fieldAdmit c => Sys2Proof.Machine.execFieldAdmit c s
  | .fieldDrain c => Sys2Proof.Machine.execFieldDrain c s
  | .fieldPark c => Sys2Proof.Machine.execFieldPark c s
  | .fieldReturn c => Sys2Proof.Machine.execFieldReturn c s
  | .fieldReset c => Sys2Proof.Machine.execFieldReset c s
  | .fieldRetest c => Sys2Proof.Machine.execFieldRetest c s
  | .fieldFail c => Sys2Proof.Machine.execFieldFail c s
  | .fieldClear c => Sys2Proof.Machine.execFieldClear c s
  | .fieldInsulate c => Sys2Proof.Machine.execFieldInsulate c s
  | .fieldPower c => Sys2Proof.Machine.execFieldPower c s
  | .fieldQuery c => Sys2Proof.Machine.execFieldQuery c s
  | .tileReset c => Sys2Proof.Machine.execTileReset c s
  | .jobDeclare c => Sys2Proof.Machine.execJobDeclare c s
  | .jobLoad c => Sys2Proof.Machine.execJobLoad c s
  | .jobStart c => Sys2Proof.Machine.execJobStart c s
  | .jobStop c => Sys2Proof.Machine.execJobStop c s
  | .jobRelease c => Sys2Proof.Machine.execJobRelease c s
  | .jobQuery c => Sys2Proof.Machine.execJobQuery c s
  | .foldLoad c => Sys2Proof.Machine.execFoldLoad c s
  | .foldSwitch c => Sys2Proof.Machine.execFoldSwitch c s
  | .foldSchedule c => Sys2Proof.Machine.execFoldSchedule c s
  | .brokerConnect c => Sys2Proof.Machine.execBrokerConnect c s
  | .brokerClose c => Sys2Proof.Machine.execBrokerClose c s
  | .brokerPolicy c => Sys2Proof.Machine.execBrokerPolicy c s
  | .windowPublish c => Sys2Proof.Machine.execWindowPublish c s
  | .windowWithdraw c => Sys2Proof.Machine.execWindowWithdraw c s
  | .windowLookup c => Sys2Proof.Machine.execWindowLookup c s
  | .cellRead c => Sys2Proof.Machine.execCellRead c s
  | .cellSet c => Sys2Proof.Machine.execCellSet c s
  | .cellForce c => Sys2Proof.Machine.execCellForce c s
  | .cellWaiters c => Sys2Proof.Machine.execCellWaiters c s
  | .tileRelease c => Sys2Proof.Machine.execTileRelease c s
  | .pwrSetCap c => Sys2Proof.Machine.execPwrSetCap c s
  | .pwrSetPolicy c => Sys2Proof.Machine.execPwrSetPolicy c s
  | .pwrSetGroup c => Sys2Proof.Machine.execPwrSetGroup c s
  | .pwrQuery c => Sys2Proof.Machine.execPwrQuery c s
  | .thatchSet c => Sys2Proof.Machine.execThatchSet c s
  | .thermSetLimits c => Sys2Proof.Machine.execThermSetLimits c s
  | .clkSetOp c => Sys2Proof.Machine.execClkSetOp c s
  | .clkSetMode c => Sys2Proof.Machine.execClkSetMode c s
  | .clkQuery c => Sys2Proof.Machine.execClkQuery c s
  | .portUp c => Sys2Proof.Machine.execPortUp c s
  | .portDown c => Sys2Proof.Machine.execPortDown c s
  | .portRetrain c => Sys2Proof.Machine.execPortRetrain c s
  | .portRelay c => Sys2Proof.Machine.execPortRelay c s
  | .portLaneMap c => Sys2Proof.Machine.execPortLaneMap c s
  | .portConfig c => Sys2Proof.Machine.execPortConfig c s
  | .routeSet c => Sys2Proof.Machine.execRouteSet c s
  | .routeClear c => Sys2Proof.Machine.execRouteClear c s
  | .portQuery c => Sys2Proof.Machine.execPortQuery c s
  | .portForget c => Sys2Proof.Machine.execPortForget c s
  | .fwQuery c => Sys2Proof.Machine.execFwQuery c s
  | .fwApply c => Sys2Proof.Machine.execFwApply c s
  | .mapGet c => Sys2Proof.Machine.execMapGet c s
  | .distGet c => Sys2Proof.Machine.execDistGet c s
  | .mapWait c => Sys2Proof.Machine.execMapWait c s
  | .waferWindowLoad k hart addr size form => Sys2Proof.Machine.execWaferWindowLoad k hart addr size form s
  | .waferWindowStore k hart addr data form => Sys2Proof.Machine.execWaferWindowStore k hart addr data form s
  | .waferWindowTimeout k id => Sys2Proof.Machine.execWaferWindowTimeout k id s
  | .waferWindowAnswer k id status data => Sys2Proof.Machine.execWaferWindowAnswer k id status data s
  | .hartFenceIo k hart => Sys2Proof.Machine.execHartFenceIo k hart s
  | .timerInterrupt k hart machine => Sys2Proof.Machine.execTimerInterrupt k hart machine s
  | .softwareInterruptWrite k machine hart val => Sys2Proof.Machine.execSoftwareInterruptWrite k machine hart val s
  | .hostClkWrite k machineMode val => Sys2Proof.Machine.execHostClkWrite k machineMode val s
  | .sbiSecureForward k idx msg => Sys2Proof.Machine.execSbiSecureForward k idx msg s
  | .sbiSystemReset k => Sys2Proof.Machine.execSbiSystemReset k s
  | .nodeBoot k digestOk => Sys2Proof.Machine.execNodeBoot k digestOk s
  | .hostBootTimeout k => Sys2Proof.Machine.execHostBootTimeout k s
  | .ethRingTailWrite k port tx ring val => Sys2Proof.Machine.execEthRingTailWrite k port tx ring val s
  | .ethDescriptorDone k port ring => Sys2Proof.Machine.execEthDescriptorDone k port ring s
  | .ethFrameReceive k port bytes prio hash => Sys2Proof.Machine.execEthFrameReceive k port bytes prio hash s
  | .pcieDeviceWrite k addr data => Sys2Proof.Machine.execPcieDeviceWrite k addr data s
  | .hedgerowRestart c bad => Sys2Proof.Machine.execHedgerowRestart c bad s
  | .sidebandModeTry => Sys2Proof.Machine.execSidebandModeTry s
  | .hedgerowFieldPoll f fr => Sys2Proof.Machine.execHedgerowFieldPoll f fr s
  | .scarabFlush => Sys2Proof.Machine.execScarabFlush s
  | .scarabHoldingDrain => Sys2Proof.Machine.execScarabHoldingDrain s
  | .timeAnchor utc => Sys2Proof.Machine.execTimeAnchor utc s
  | .i3cEntdaa addr => Sys2Proof.Machine.execI3cEntdaa addr s
  | .i3cPrivateRead => Sys2Proof.Machine.execI3cPrivateRead s
  | .setEndpointId eid => Sys2Proof.Machine.execSetEndpointId eid s
  | .getEndpointId => Sys2Proof.Machine.execGetEndpointId s
  | .getMctpVersionSupport => Sys2Proof.Machine.execGetMctpVersionSupport s
  | .getMessageTypeSupport => Sys2Proof.Machine.execGetMessageTypeSupport s
  | .getVendorDefinedMsgSupport => Sys2Proof.Machine.execGetVendorDefinedMsgSupport s
  | .health => Sys2Proof.Machine.execHealth s
  | .slotGetAnswer a => Sys2Proof.Machine.execSlotGetAnswer a s
  | .slotSetAnswer => Sys2Proof.Machine.execSlotSetAnswer s
  | .slotCheckTimeout => Sys2Proof.Machine.execSlotCheckTimeout s
  | .getVersion q => Sys2Proof.Machine.execGetVersion q s
  | .getCapabilities q => Sys2Proof.Machine.execGetCapabilities q s
  | .negotiateAlgorithms q => Sys2Proof.Machine.execNegotiateAlgorithms q s
  | .getDigests q => Sys2Proof.Machine.execGetDigests q s
  | .getCertificate q => Sys2Proof.Machine.execGetCertificate q s
  | .challenge q => Sys2Proof.Machine.execChallenge q s
  | .getMeasurements q => Sys2Proof.Machine.execGetMeasurements q s
  | .chassisForceRestart session => Sys2Proof.Machine.execChassisForceRestart session s
  | .chassisPowerCycle session => Sys2Proof.Machine.execChassisPowerCycle session s
  | .chassisForceOff session => Sys2Proof.Machine.execChassisForceOff session s
  | .chassisOn session => Sys2Proof.Machine.execChassisOn session s
  | .powerLimitSet session watts => Sys2Proof.Machine.execPowerLimitSet session watts s
  | .indicatorLedSet session on => Sys2Proof.Machine.execIndicatorLedSet session on s
  | .datetimeSet session utc => Sys2Proof.Machine.execDatetimeSet session utc s
  | .managerReset session => Sys2Proof.Machine.execManagerReset session s
  | .resetToDefaults session => Sys2Proof.Machine.execResetToDefaults session s
  | .redfishGet session uri => Sys2Proof.Machine.execRedfishGet session uri s
  | .sessionLogin name password => Sys2Proof.Machine.execSessionLogin name password s
  | .sessionIdleExpiry session => Sys2Proof.Machine.execSessionIdleExpiry session s
  | .accountChange session ch => Sys2Proof.Machine.execAccountChange session ch s
  | .configSet session item => Sys2Proof.Machine.execConfigSet session item s
  | .ownerKeyInstall session image key signed => Sys2Proof.Machine.execOwnerKeyInstall session image key signed s
  | .clearLog session expected => Sys2Proof.Machine.execClearLog session expected s
  | .scarabExport session => Sys2Proof.Machine.execScarabExport session s
  | .fieldSnapshot session f => Sys2Proof.Machine.execFieldSnapshot session f s
  | .firmwarePush session img => Sys2Proof.Machine.execFirmwarePush session img s
  | .updateApply session kind => Sys2Proof.Machine.execUpdateApply session kind s
  | .regionRepair session kind src => Sys2Proof.Machine.execRegionRepair session kind src s
  | .recoveryLoader img => Sys2Proof.Machine.execRecoveryLoader img s
  | .recoveryRetry => Sys2Proof.Machine.execRecoveryRetry s
  | .registerWrite sp w off val => Sys2Proof.Machine.execRegisterWrite sp w off val s
  | .conductorBoot kf => Sys2Proof.Machine.execConductorBoot kf s
  | .standbyInputLoss => Sys2Proof.Machine.execStandbyInputLoss s
  | .ethLinkChange k port up mode => Sys2Proof.Machine.execEthLinkChange k port up mode s
  | .sidebandLink mode up => Sys2Proof.Machine.execSidebandLink mode up s
  | .debtRepaid f => Sys2Proof.Machine.execDebtRepaid f s
  | .accountLockExpiry name => Sys2Proof.Machine.execAccountLockExpiry name s
  | .profileAgeUpdate f => Sys2Proof.Machine.execProfileAgeUpdate f s
  | .pcieDeviceRead k addr len => Sys2Proof.Machine.execPcieDeviceRead k addr len s
  | .heldOrderWrite => Sys2Proof.Machine.execHeldOrderWrite s

end Sys2Proof.Machine
end

