-- ==== Sys2Proof/Safety.lean ====
section
/-! DEFINITION. The words in which claims are stated: a command that completes, a core instruction that completes or halts, and the limits that every step keeps. -/

namespace Sys2Proof.Machine

/-- Command c completes from s, in a state of which P holds. -/
def Does (c : Instr) (s : State) (P : State → Prop) : Prop := ∃ u, exec c s = .next u ∧ P u

/-- The core of tile t issues this Xkyoro instruction: it runs, and R40 lets the word name it. -/
def Issues (s : State) (t : TileId) (op : XOp) (a : XArgs) : Prop := s.coreReady t = true ∧ op.legal a = true

/-- An instruction of tile t has retired: the pc is len bytes on, rd holds v (x0 discards it), every other register is as before, and the core does not stall. -/
def Retired (s u : State) (t : TileId) (len : Nat) (rd : Nat) (v : Word) : Prop :=
  (u.tile t).core.pc = (s.tile t).core.pc + BitVec.ofNat 32 len ∧ (u.tile t).reg rd = (if rd = 0 then 0 else v) ∧
    (∀ r, r ≠ rd → (u.tile t).reg r = (s.tile t).reg r) ∧ (u.tile t).core.stall = none

/-- An Xkyoro instruction of tile t has completed with a status in bits 31:24 of rd and a value below (R41). -/
def Completed (s u : State) (t : TileId) (a : XArgs) (st v : Nat) : Prop := Retired s u t 4 a.rd (statusWord st v)

/-- The core of tile t is halted by a fault code with these detail words, and the pc names the instruction. -/
def Halts (s u : State) (t : TileId) (code : Nat) (i0 i1 : Word) : Prop :=
  (u.tile t).core.halted = true ∧ (u.tile t).fault.valid = true ∧ (u.tile t).fault.code = code ∧ (u.tile t).fault.info0 = i0 ∧ (u.tile t).fault.info1 = i1 ∧
    (u.tile t).fault.pc = (s.tile t).core.pc

/-- The core of tile t stalls in an instruction. -/
def StallsIn (u : State) (t : TileId) (op : XOp) : Prop := ∃ k, (u.tile t).core.stall = some k ∧ k.op = op

/-- A packet with this body, bound for this endpoint, is in the mesh. -/
def Sent (u : State) (dst : Endp) (body : Body) : Prop := ∃ x ∈ u.mesh.flight, x.pkt.h.dst = dst ∧ x.pkt.body = body

/-- A packet stands where it may be taken by its endpoint (R58, R192, R237). -/
def Arrives (s : State) (h : Hdr) (body : Body) : Prop := s.mayArrive { h := h, body := body } = true

/-- The tile's slots of a destination are no other unit's in flight: none that an engine but this one runs for the tile itself, and none of a unit handed out but this one (R54). -/
def Alone (s : State) (t : TileId) (engine entry : Option Nat) (mine : List (Nat × Nat)) : Prop :=
  (∀ i r, i < 8 → engine ≠ some i → ((s.tile t).engine i).running = some r → r.unit.stolen = none →
    slotsShared mine ((s.tile t).destSlots (descOf r.unit.desc)) = []) ∧
  ∀ i x, entry ≠ some i → (s.tile t).forage.out.find i = some x → slotsShared mine ((s.tile t).destSlots (descOf x.unit.desc)) = []

/-- Every byte of a memory outside n bytes from o reads as before. -/
def SameBut (m m' : Memory) (o n : Nat) : Prop := ∀ i, (i < o ∨ o + n ≤ i) → m'.read i = m.read i

/-- Nothing but tile t has changed among the tiles. -/
def OnlyTile (s u : State) (t : TileId) : Prop := ∀ v, tileKey v ≠ tileKey t → u.tile v = s.tile v

/-- An event finds room where it is written: Hedgerow's own passes the rate limit into a buffer with room, or waits for the slot check; any other finds room in its controller's queue (R454, R469, R470). -/
def CanLog (s : State) (src code : Nat) : Prop :=
  if src = srcHedgerow then s.scarab.opening = true ∨ (s.scarab.admits code s.hedgeNow = true ∧ s.scarab.ram.length < 16384)
  else (s.scarabQ.getD (s.queueOf src) []).length < 256

/-- The event is in the recorder's buffer, waits for the slot check, or stands in a controller's queue. -/
def Logged (u : State) (e : Ev) : Prop := e ∈ u.scarab.held ∨ (∃ r ∈ u.scarab.ram, r.ev = e) ∨ ∃ q, e ∈ u.scarabQ.getD q []

/-- An event of this source, code and detail, written in s where it finds room, is held in u. -/
def Writes (s u : State) (src code : Nat) (detail : List Nat) : Prop :=
  CanLog s src code → Logged u { code := code, time := s.time, src := src, detail := detail }

/-- Nothing but the power board itself keeps the engine from a start (R26, R449, R464). -/
def Startable (s : State) : Prop :=
  s.hedge.up = true ∧ s.chassis.input = true ∧ s.chassis.heldOff = false ∧ s.chassis.busStopped = false ∧ s.regionsOk = true

/-- The engine has started at step 3 of R26: the board is on, wafer time is 0, no tile is up, and keep fields that no latch holds are powered. -/
def ColdStarted (s u : State) : Prop :=
  u.chassis.board = true ∧ u.time = 0 ∧ u.boot.kind = 1 ∧ u.boot.step = 3 ∧ u.boot.complete = false ∧ u.tiles = [] ∧
    ∀ f, f < 56 → (s.field f).pwr.coreLatch = false → (s.field f).pwr.memLatch = false → (s.field f).pwr.insul ≠ 2 →
      (u.field f).pwr.state = (if isKeep f then .idle else .off)

/-- The power board is off: no field has power, no conductor runs and no start-up is under way. -/
def Unpowered (u : State) : Prop :=
  u.chassis.board = false ∧ u.boot = {} ∧ u.mb.running = false ∧ ∀ f, f < 56 → (u.field f).pwr.state = .off

/-- Step 1 of a warm reset has run (R370): ports are DISABLED and the tiles in service are halted. -/
def WarmStarted (u : State) : Prop :=
  u.boot.kind = 2 ∧ u.boot.step = 1 ∧ (∀ p, p < 56 → (u.port p).state = 0) ∧ ∀ t, (u.tile t).inService = true → (u.tile t).core.halted = true

/-- The command of this code, in message k, stands first among the messages that channel c's running conductor took (R393). -/
def Takes (s : State) (c code : Nat) (k : Taken) : Prop :=
  s.mb.running = true ∧ s.cond.order.head? = some c ∧ (s.chan c).buf = some k ∧ msgCode k.words = code

/-- The message is acknowledged with a return code and the channel's buffer is free (R387). -/
def Acked (u : State) (c : Nat) (k : Taken) (code : Nat) : Prop :=
  (u.chan c).ackSeq = k.seq ∧ (u.chan c).ackCode = code ∧ (u.chan c).buf = none

/-- Where a message asks for one, its completion record stands in DONE or, with the keep field running, in host memory (R390). -/
def Posted (u : State) (m : List Word) (c seq code : Nat) (words : List Word) : Prop :=
  msgRec m = true →
    (48 ≤ c → (u.chan c).done = wordsOf 16 (doneBytes m c seq code u.mb.epoch words)) ∧
    (c < 48 → ∀ j a, hostByte (msgAddr m 14) = some (j, a) → (u.field (keepField j)).running = true →
      Memory.readN (u.host j).mem 64 a = doneBytes m c seq code u.mb.epoch words)

/-- A command is done at its take: result OK, with these result words (R390). -/
def Answers (u : State) (c : Nat) (k : Taken) (words : List Word) : Prop := Acked u c k rcOk ∧ Posted u k.words c k.seq rcOk words

/-- A command is refused with this code: nothing but its channel, its place in the take order and its record has changed. -/
def Refuses (s u : State) (c : Nat) (k : Taken) (code : Nat) : Prop :=
  Acked u c k code ∧ Posted u k.words c k.seq code [] ∧ u.fields = s.fields ∧ u.tiles = s.tiles ∧ u.ports = s.ports ∧ u.mesh = s.mesh ∧ u.boot = s.boot

/-- A long command is acknowledged with OK_PENDING and waits for its record, with its outcome where that is known (R390, R394). -/
def Pends (s u : State) (c : Nat) (k : Taken) (outcome : Option Nat) (words : List Word) : Prop :=
  Acked u c k rcPending ∧
    ({ chan := c, seq := k.seq, words := k.words, since := s.time, outcome := outcome, results := words } : PendCmd) ∈ u.cond.pend

/-- An MCTP message stands behind what Hedgerow already had for the controller's private reads (R453). -/
def Queued (s u : State) (m : List Byte) : Prop := u.hedge.mctp = s.hedge.mctp ++ mctpUnits (cdiv m.length 64) m

/-- One of Hedgerow's secure channels is free (R391). -/
def SecureFree (s : State) : Prop := ∃ c, 56 ≤ c ∧ c < 64 ∧ (s.chan c).full = false ∧ (s.chan c).buf = none

/-- A command of this code, with this first argument, rings on one of Hedgerow's secure channels (R391). -/
def Rung (u : State) (code arg : Nat) : Prop :=
  ∃ c, 56 ≤ c ∧ c < 64 ∧ (u.chan c).full = true ∧ ((u.chan c).msg.getD 0 0).toNat % 65536 = code ∧ (u.chan c).msg.getD 2 0 = BitVec.ofNat 32 arg

/-- A live session whose account's role is at least need, on a Hedgerow that runs (R451). -/
def Allowed (s : State) (session need : Nat) (a : Account) : Prop := s.hedge.up = true ∧ s.hedge.who session s.hedgeNow = some a ∧ need ≤ a.role

/-- The limits the spec sets on what the engine holds once: wafer time in 64 bits (R4), the wafer identifier in 16 (R29), one of two oscillators or none (R295), the states of a glow bay (R503) and of a port (R268), the sideband mode tried (R446), three cold restarts in a row (R24), and Hedgerow's accounts, sessions (R451) and snapshots (R475). -/
def State.Limits (s : State) : Prop :=
  s.time < 2 ^ 64 ∧ s.waferId < 2 ^ 16 ∧ s.osc ≤ 2 ∧ (∀ g, s.glow.getD g 1 ≤ 2) ∧ (∀ p, (s.port p).state ≤ 6) ∧
    s.hedge.sideMode ≤ 1 ∧ s.chassis.restarts ≤ 3 ∧ s.mb.activeKf ≤ 1 ∧
    s.hedge.accounts.length ≤ 16 ∧ s.hedge.sessions.length ≤ 32 ∧ s.hedge.snaps.length ≤ 8

/-- The recorder holds no more than its buffers do: 256 records at a controller, 16,384 in RAM and in the holding area, 262,144 in flash (R469, R472, R473). -/
def State.RecorderFits (s : State) : Prop :=
  (∀ q, (s.scarabQ.getD q []).length ≤ 256) ∧ s.scarab.ram.length ≤ 16384 ∧ s.scarab.holding.length ≤ 16384 ∧ s.scarab.region.length ≤ regionSlots

/-- Every tile's and every host node's memory is in its canonical form. -/
def State.MemoryForm (s : State) : Prop := (∀ t, (s.tile t).mem.cells.wf = true) ∧ ∀ k, Memory.wf (s.host k).mem = true

/-- What stands outside the array and its controllers is as before: Hedgerow, its flash and its watch, the chassis, the glow bays, the reference, the wafer identifier, and the commands that wait. -/
def OuterSame (s u : State) : Prop :=
  u.hedge = s.hedge ∧ u.flash = s.flash ∧ u.watch = s.watch ∧ u.chassis = s.chassis ∧ u.glow = s.glow ∧ u.osc = s.osc ∧
    u.waferId = s.waferId ∧ u.pending = s.pending

/-- The conductor, its mailbox and start-up are as before. -/
def ConductorSame (s u : State) : Prop := u.cond = s.cond ∧ u.mb = s.mb ∧ u.boot = s.boot

/-- The array is as before: its tiles, its mesh and its fields. -/
def ArraySame (s u : State) : Prop := u.tiles = s.tiles ∧ u.mesh = s.mesh ∧ u.fields = s.fields

/-- The families of commands: what a control core issues; what units, packets, windows, cells and maps do in the array; what power, clocks and tests do to fields; ports, docks, glow bays and the brokers' messages; host nodes and mailboxes; the Gliast commands a conductor runs; Hedgerow's buses, sessions and records; and what acts on the engine as a whole. -/
inductive Family where
  | core | array | field | port | host | gliast | hedgerow | engine
  deriving DecidableEq, Repr

/-- The family of a command. -/
def family (c : Instr) : Family :=
  match c with
  | .inputPowerApplied _ _ => .engine
  | .powerEnable => .engine
  | .pwrEnFall => .engine
  | .shutdownConductorTimeout => .engine
  | .stbyGoodFall => .engine
  | .modResetFall => .engine
  | .modResetRelease => .engine
  | .identInput _ => .engine
  | .conductorSilenceCheck => .field
  | .conductorSilenceAction => .engine
  | .coldRestartTimer => .engine
  | .rvInstruction _ => .core
  | .coreLoad _ _ => .core
  | .coreStore _ _ => .core
  | .csrAccess _ _ _ _ _ => .core
  | .ecall _ => .core
  | .ebreak _ => .core
  | .stallConditionMet _ _ => .core
  | .stallWatchdogExpiry _ _ => .core
  | .qopen _ _ => .core
  | .qclose _ _ => .core
  | .qsend _ _ => .core
  | .qtrysend _ _ => .core
  | .qrecv _ _ => .core
  | .qtryrecv _ _ => .core
  | .qselect _ _ => .core
  | .qstat _ _ => .core
  | .swait _ _ => .core
  | .ssignal _ _ => .core
  | .sfence _ _ => .core
  | .sread _ _ => .core
  | .fpush _ _ => .core
  | .fsteal _ _ => .core
  | .fwait _ _ => .core
  | .hset _ _ => .core
  | .hclr _ _ => .core
  | .ldt _ _ => .core
  | .stt _ _ => .core
  | .tfill _ _ => .core
  | .dload _ _ => .core
  | .dswitch _ _ => .core
  | .dpurge _ _ => .core
  | .dsample _ _ => .core
  | .wopen _ _ => .core
  | .wclose _ _ => .core
  | .xput _ _ => .core
  | .xget _ _ => .core
  | .unitStart _ _ => .array
  | .unitRetire _ _ => .array
  | .intraTileSteal _ _ => .array
  | .stealSearch _ => .array
  | .stealBackoffExpiry _ => .array
  | .stealReturnTimeout _ _ => .array
  | .stealFailureNotice _ _ _ _ => .array
  | .engineSleep _ => .array
  | .ctrlWrite _ _ _ => .array
  | .ctrlRead _ _ _ => .array
  | .ctrlOrderAdmit _ => .array
  | .ctrlOrderSwitch _ _ _ => .array
  | .ctrlOrderDload _ _ _ _ => .array
  | .ctrlOrderSample _ _ _ _ => .array
  | .ctrlReply _ _ _ _ => .array
  | .tileResetOrder _ => .array
  | .rawWrite _ _ _ => .engine
  | .rawRead _ _ _ => .engine
  | .openArrives _ _ => .array
  | .probe _ _ => .array
  | .senderClose _ _ => .array
  | .readerNotice _ _ => .array
  | .closeAfterLoss _ _ => .array
  | .recordTimeout _ _ => .array
  | .steal _ _ _ _ => .array
  | .operandRead _ _ => .array
  | .syncWait _ _ => .array
  | .syncSignal _ _ => .array
  | .syncPostedSignal _ _ => .array
  | .syncRead _ _ => .array
  | .syncCancel _ _ => .array
  | .syncWaitResend _ => .array
  | .staleReleaseRefused _ _ _ => .array
  | .remoteRead _ _ => .array
  | .remoteWrite _ _ _ => .array
  | .windowHeldServe _ _ => .array
  | .windowHoldTimeout _ _ => .array
  | .windowDeadline _ _ => .array
  | .reply _ _ _ _ => .array
  | .status _ _ _ => .array
  | .grant _ _ => .array
  | .connectionCredit _ _ => .array
  | .tokenCredit _ _ _ => .array
  | .stealReply _ _ => .array
  | .message _ _ => .array
  | .combine _ _ => .array
  | .combineFoldDone _ _ _ => .array
  | .token _ _ => .array
  | .result _ _ => .array
  | .multicast _ _ _ => .array
  | .routePacket _ _ _ _ => .array
  | .tokenRetryResend _ _ => .array
  | .firingIssue _ => .array
  | .tokenEmit _ _ => .array
  | .firingComplete _ _ => .array
  | .sourceFire _ _ _ => .array
  | .tokenOrphan _ _ => .array
  | .foldScheduleMove _ => .array
  | .foldSwitchAtT _ => .array
  | .profileSample _ _ => .array
  | .slotArm _ _ _ _ => .array
  | .syncCellWrite _ _ _ _ _ => .array
  | .syncDebugCore _ => .array
  | .syncDebugAll _ => .array
  | .syncRecWrite _ _ _ _ _ => .array
  | .hedgerowSyncDebug _ _ => .array
  | .rqEnable _ _ _ _ => .array
  | .rqDisable _ _ _ _ => .array
  | .connProbe _ _ => .array
  | .rowRefresh _ _ => .field
  | .patrolScrub _ _ => .array
  | .refreshDerate _ _ => .field
  | .refreshRestore _ _ => .field
  | .mapPublish _ => .engine
  | .mapInjectionPause => .array
  | .mapSwitch => .array
  | .fenceSettleLocal => .array
  | .fenceSettleRemote _ => .array
  | .distTablePublish => .array
  | .cellLostSweep _ => .array
  | .dockIngress _ _ => .port
  | .dockEgress _ _ => .port
  | .pendingExpiry _ _ => .port
  | .remoteRetryResend _ => .array
  | .dataFrame _ _ => .port
  | .linkAck _ _ => .port
  | .linkNak _ _ => .port
  | .linkLaneOff _ _ => .port
  | .linkLaneOn _ _ => .port
  | .linkClose _ => .port
  | .linkCredits _ _ _ => .port
  | .linkIdleAck _ => .port
  | .frameCrcError _ => .port
  | .laneFailure _ _ => .port
  | .laneRetrainDone _ _ _ => .port
  | .egressHoldExpiry _ => .port
  | .portLightDetected _ => .port
  | .trainingDone _ _ => .port
  | .trainingFailed _ => .port
  | .trainingBackoffExpiry _ => .port
  | .hello _ _ _ => .port
  | .cap _ _ => .port
  | .cert _ => .port
  | .mode _ _ _ => .port
  | .modeSwitch _ => .port
  | .negotiationTimeout _ => .port
  | .refusedTimeout _ => .port
  | .portSignalLoss _ => .port
  | .retrainDone _ => .port
  | .retrainTimeout _ => .port
  | .glowLightLoss _ => .port
  | .glowLatchOpen _ => .port
  | .glowLatchClose _ => .port
  | .glowLit _ => .port
  | .powerNoteSend => .engine
  | .powerNote _ _ => .engine
  | .powerNoteExpiry => .field
  | .brokerConnectRequest _ _ => .port
  | .brokerConnectReply _ _ => .engine
  | .brokerCloseMessage _ _ => .port
  | .brokerLookupRequest _ _ => .port
  | .brokerLookupReply _ _ => .port
  | .referenceSwitch _ => .engine
  | .referenceLost => .engine
  | .waferTimeBroadcast => .field
  | .railDroop _ _ _ => .field
  | .marginStop _ _ => .field
  | .marginRestart _ => .field
  | .crossingCalibrate _ _ => .field
  | .calibrationDone _ _ _ => .engine
  | .heartbeatLoss _ _ => .array
  | .fieldWake _ => .engine
  | .fieldClockStop _ => .engine
  | .retentionReached _ => .engine
  | .clkOrderOpStep _ _ _ => .field
  | .clkOrderEnterMonitor _ _ _ => .field
  | .clkOrderLeaveMonitor _ _ _ => .field
  | .opStep _ => .field
  | .relockDone _ => .field
  | .monitorModeSwitch => .array
  | .monitorSteerEpoch _ _ => .field
  | .marginLowWrite _ => .field
  | .wtLoRead _ => .field
  | .epochEnd _ _ _ => .array
  | .powerMasterDecision => .field
  | .masterTakeover => .field
  | .pwrStepCap _ _ _ => .field
  | .pwrStepThermal _ _ _ => .field
  | .pwrStepForced _ _ _ => .field
  | .hedgerowPowerSample _ _ => .field
  | .estScaleCalibrate _ _ => .field
  | .inputVoltageSample _ => .engine
  | .busStop => .engine
  | .busRestart => .engine
  | .currentLimit => .field
  | .thatchEngage _ => .array
  | .thatchRampDownStep _ => .array
  | .thatchRampUpStep _ => .array
  | .thermalSample _ _ _ => .engine
  | .autoReturn _ => .field
  | .coolantSample _ => .engine
  | .overcurrentLatch _ _ _ => .engine
  | .insulationCheckDone _ _ _ => .field
  | .trimRaise _ _ _ => .field
  | .fieldThermClear _ => .field
  | .fieldPowerWave _ _ => .engine
  | .fieldWaveTimeout _ => .engine
  | .knownAnswerDone _ _ _ => .engine
  | .knownAnswerTimeout _ => .engine
  | .marchDone _ _ _ _ => .engine
  | .soakDone _ _ => .field
  | .profilingPauseEnd _ _ => .engine
  | .bringupAdmission => .engine
  | .warmReset _ _ => .engine
  | .warmResetInjectionStop => .engine
  | .retestDone _ => .engine
  | .haltScan _ => .field
  | .faultLogPoll => .field
  | .fltRead _ _ => .field
  | .mbMsgWrite _ _ _ _ _ => .host
  | .mbDoorbell _ _ _ _ => .host
  | .mailboxPoll => .host
  | .commandComplete _ _ => .engine
  | .commandTimeout _ _ => .host
  | .deferredEnableStart _ _ => .engine
  | .conductorBeat => .host
  | .conductorTakeover => .host
  | .standbyRebuildDone => .host
  | .sysIdentify _ => .gliast
  | .sysStatus _ => .gliast
  | .sysWarmReset _ => .gliast
  | .sysSetWaferId _ => .gliast
  | .sysHandover _ => .gliast
  | .sysBoundVoid _ => .gliast
  | .sysPing _ => .gliast
  | .fieldAdmit _ => .gliast
  | .fieldDrain _ => .gliast
  | .fieldPark _ => .gliast
  | .fieldReturn _ => .gliast
  | .fieldReset _ => .gliast
  | .fieldRetest _ => .gliast
  | .fieldFail _ => .gliast
  | .fieldClear _ => .gliast
  | .fieldInsulate _ => .gliast
  | .fieldPower _ => .gliast
  | .fieldQuery _ => .gliast
  | .tileReset _ => .gliast
  | .jobDeclare _ => .gliast
  | .jobLoad _ => .gliast
  | .jobStart _ => .gliast
  | .jobStop _ => .gliast
  | .jobRelease _ => .gliast
  | .jobQuery _ => .gliast
  | .foldLoad _ => .gliast
  | .foldSwitch _ => .gliast
  | .foldSchedule _ => .gliast
  | .brokerConnect _ => .gliast
  | .brokerClose _ => .gliast
  | .brokerPolicy _ => .gliast
  | .windowPublish _ => .gliast
  | .windowWithdraw _ => .gliast
  | .windowLookup _ => .gliast
  | .cellRead _ => .gliast
  | .cellSet _ => .gliast
  | .cellForce _ => .gliast
  | .cellWaiters _ => .gliast
  | .tileRelease _ => .gliast
  | .pwrSetCap _ => .gliast
  | .pwrSetPolicy _ => .gliast
  | .pwrSetGroup _ => .gliast
  | .pwrQuery _ => .gliast
  | .thatchSet _ => .gliast
  | .thermSetLimits _ => .gliast
  | .clkSetOp _ => .gliast
  | .clkSetMode _ => .gliast
  | .clkQuery _ => .gliast
  | .portUp _ => .gliast
  | .portDown _ => .gliast
  | .portRetrain _ => .gliast
  | .portRelay _ => .gliast
  | .portLaneMap _ => .gliast
  | .portConfig _ => .gliast
  | .routeSet _ => .gliast
  | .routeClear _ => .gliast
  | .portQuery _ => .gliast
  | .portForget _ => .gliast
  | .fwQuery _ => .gliast
  | .fwApply _ => .gliast
  | .mapGet _ => .gliast
  | .distGet _ => .gliast
  | .mapWait _ => .gliast
  | .waferWindowLoad _ _ _ _ _ => .host
  | .waferWindowStore _ _ _ _ _ => .host
  | .waferWindowTimeout _ _ => .host
  | .waferWindowAnswer _ _ _ _ => .host
  | .hartFenceIo _ _ => .host
  | .timerInterrupt _ _ _ => .host
  | .softwareInterruptWrite _ _ _ _ => .host
  | .hostClkWrite _ _ _ => .host
  | .sbiSecureForward _ _ _ => .host
  | .sbiSystemReset _ => .host
  | .nodeBoot _ _ => .host
  | .hostBootTimeout _ => .host
  | .ethRingTailWrite _ _ _ _ _ => .host
  | .ethDescriptorDone _ _ _ => .host
  | .ethFrameReceive _ _ _ _ _ => .host
  | .pcieDeviceWrite _ _ _ => .host
  | .hedgerowRestart _ _ => .hedgerow
  | .sidebandModeTry => .hedgerow
  | .hedgerowFieldPoll _ _ => .engine
  | .scarabFlush => .field
  | .scarabHoldingDrain => .host
  | .timeAnchor _ => .hedgerow
  | .i3cEntdaa _ => .hedgerow
  | .i3cPrivateRead => .hedgerow
  | .setEndpointId _ => .hedgerow
  | .getEndpointId => .hedgerow
  | .getMctpVersionSupport => .hedgerow
  | .getMessageTypeSupport => .hedgerow
  | .getVendorDefinedMsgSupport => .hedgerow
  | .health => .hedgerow
  | .slotGetAnswer _ => .hedgerow
  | .slotSetAnswer => .hedgerow
  | .slotCheckTimeout => .hedgerow
  | .getVersion _ => .hedgerow
  | .getCapabilities _ => .hedgerow
  | .negotiateAlgorithms _ => .hedgerow
  | .getDigests _ => .hedgerow
  | .getCertificate _ => .hedgerow
  | .challenge _ => .hedgerow
  | .getMeasurements _ => .hedgerow
  | .chassisForceRestart _ => .hedgerow
  | .chassisPowerCycle _ => .engine
  | .chassisForceOff _ => .engine
  | .chassisOn _ => .engine
  | .powerLimitSet _ _ => .hedgerow
  | .indicatorLedSet _ _ => .hedgerow
  | .datetimeSet _ _ => .hedgerow
  | .managerReset _ => .hedgerow
  | .resetToDefaults _ => .engine
  | .redfishGet _ _ => .hedgerow
  | .sessionLogin _ _ => .hedgerow
  | .sessionIdleExpiry _ => .hedgerow
  | .accountChange _ _ => .hedgerow
  | .configSet _ _ => .hedgerow
  | .ownerKeyInstall _ _ _ _ => .hedgerow
  | .clearLog _ _ => .hedgerow
  | .scarabExport _ => .hedgerow
  | .fieldSnapshot _ _ => .hedgerow
  | .firmwarePush _ _ => .hedgerow
  | .updateApply _ _ => .hedgerow
  | .regionRepair _ _ _ => .engine
  | .recoveryLoader _ => .engine
  | .recoveryRetry => .hedgerow
  | .registerWrite _ _ _ _ => .engine
  | .conductorBoot _ => .engine
  | .standbyInputLoss => .engine
  | .ethLinkChange _ _ _ _ => .host
  | .sidebandLink _ _ => .hedgerow
  | .debtRepaid _ => .field
  | .accountLockExpiry _ => .hedgerow
  | .profileAgeUpdate _ => .field
  | .pcieDeviceRead _ _ _ => .host
  | .heldOrderWrite => .field

end Sys2Proof.Machine
end

