-- ==== Sys2Proof/WellFormed.lean ====
section
/-! DEFINITION. The commands whose operands lie in the ranges that the spec's encodings give them. -/

namespace Sys2Proof

/-- A tile position lies on the array of 800 by 840 (R10). -/
def posOk (t : TileId) : Bool := decide (t.x < 800) && decide (t.y < 840)

/-- Register numbers have 5 bits and mod 3 (R40). -/
def xArgsOk (a : XArgs) : Bool := decide (a.rd < 32) && decide (a.rs1 < 32) && decide (a.rs2 < 32) && decide (a.mods < 8)

/-- A base access moves 1, 2 or 4 bytes, in an instruction of 2 or 4 (R34). -/
def lsArgsOk (a : LsArgs) : Bool :=
  (a.size == 1 || a.size == 2 || a.size == 4) && decide (a.reg < 32) && decide (a.rs1 < 32) && (a.ilen == 2 || a.ilen == 4)

/-- An endpoint names a tile of the array, one of 56 docks with one of its 8 injection points, one of 56 field controllers or one of 4 keep-field gates (R20, R179). -/
def endpOk : Endp → Bool
  | .tile t => posOk t
  | .dock p inj => decide (p < 56) && decide (inj < 8)
  | .fc f => decide (f < 56)
  | .gate k => decide (k < 4)
  | .conductor => true

/-- A header: endpoints, generations of 16 bits, a tag of 8 (R172). -/
def hdrOk (h : Hdr) : Bool := endpOk h.src && endpOk h.dst && decide (h.dstGen < 65536) && decide (h.srcGen < 65536) && decide (h.tag < 256)

/-- A body within the limit of its channel, as every source builds it (R144, R173, R204, R283): what it carries, or what its reply will. -/
def bodyOk : Body → Bool
  | .ctrlWrite _ d => decide (d.length ≤ 48)
  | .ctrlRead _ n => decide (n ≤ 47)
  | .ctrlReply _ _ d => decide (d.length ≤ 47)
  | .rawWrite _ d => decide (d.length ≤ 112)
  | .rawRead _ n => decide (n ≤ 4143)
  | .reply _ _ d => decide (d.length ≤ 4143)
  | .message b => decide (b.data.length ≤ 4096)
  | .token b => decide (b.payload.length ≤ 256)
  | .combine cs => decide (1 ≤ cs.length) && decide (cs.length ≤ 2)
  | .remoteWrite _ d => decide (d.length ≤ 4064)
  | .multicast _ _ d => decide (d.length ≤ 492)
  | .result b => decide (b.elems.length ≤ 1024) && decide (b.data.length ≤ 4096)
  | .ctrlAdmit | .ctrlSwitch _ _ | .ctrlDload _ _ _ | .ctrlSample _ _ _ | .openReq _ | .probe _ | .close _ _ | .steal _ _ _ | .operandRead _
  | .sync _ _ | .remoteRead _ | .status _ _ | .grant _ | .credit _ | .tokenCredit _ _ | .stealReply _ | .failure _ _ _ => true

/-- A packet's header and body. -/
def pktOk (x : Pkt) : Bool := hdrOk x.h && bodyOk x.body

/-- A sensor frame has 12 thermal readings, 4 voltages and 24 monitor levels (R455). -/
def frameOk (x : SensorFrame) : Bool := x.thermal.length == 12 && x.volts.length == 4 && x.margin.length == 24

/-- A register space names a tile, a field, a node, an Ethernet port or a hart that exists. -/
def spaceOk : RegSpace → Bool
  | .tile t => posOk t
  | .fc f => decide (f < 56)
  | .hostCtl k => decide (k < 4)
  | .eth k port => decide (k < 4) && decide (port < 2)
  | .aclint k => decide (k < 4)
  | .stimecmp k hart => decide (k < 4) && decide (hart < 32)
  | .mailbox _ _ => true

/-- The operands of a command are in range. -/
def Instr.wf : Instr → Bool
  | .inputPowerApplied _ _ => true
  | .powerEnable => true
  | .pwrEnFall => true
  | .shutdownConductorTimeout => true
  | .stbyGoodFall => true
  | .modResetFall => true
  | .modResetRelease => true
  | .identInput _ => true
  | .conductorSilenceCheck => true
  | .conductorSilenceAction => true
  | .coldRestartTimer => true
  | .rvInstruction t => posOk t
  | .coreLoad t a => posOk t && lsArgsOk a
  | .coreStore t a => posOk t && lsArgsOk a
  | .csrAccess t csr _ rd rs1 => posOk t && decide (csr < 4096) && decide (rd < 32) && decide (rs1 < 32)
  | .ecall t => posOk t
  | .ebreak t => posOk t
  | .stallConditionMet t _ => posOk t
  | .stallWatchdogExpiry t _ => posOk t
  | .qopen t a => posOk t && xArgsOk a
  | .qclose t a => posOk t && xArgsOk a
  | .qsend t a => posOk t && xArgsOk a
  | .qtrysend t a => posOk t && xArgsOk a
  | .qrecv t a => posOk t && xArgsOk a
  | .qtryrecv t a => posOk t && xArgsOk a
  | .qselect t a => posOk t && xArgsOk a
  | .qstat t a => posOk t && xArgsOk a
  | .swait t a => posOk t && xArgsOk a
  | .ssignal t a => posOk t && xArgsOk a
  | .sfence t a => posOk t && xArgsOk a
  | .sread t a => posOk t && xArgsOk a
  | .fpush t a => posOk t && xArgsOk a
  | .fsteal t a => posOk t && xArgsOk a
  | .fwait t a => posOk t && xArgsOk a
  | .hset t a => posOk t && xArgsOk a
  | .hclr t a => posOk t && xArgsOk a
  | .ldt t a => posOk t && xArgsOk a
  | .stt t a => posOk t && xArgsOk a
  | .tfill t a => posOk t && xArgsOk a
  | .dload t a => posOk t && xArgsOk a
  | .dswitch t a => posOk t && xArgsOk a
  | .dpurge t a => posOk t && xArgsOk a
  | .dsample t a => posOk t && xArgsOk a
  | .wopen t a => posOk t && xArgsOk a
  | .wclose t a => posOk t && xArgsOk a
  | .xput t a => posOk t && xArgsOk a
  | .xget t a => posOk t && xArgsOk a
  | .unitStart t e => posOk t && decide (e < 8)
  | .unitRetire t e => posOk t && decide (e < 24)
  | .intraTileSteal t e => posOk t && decide (e < 8)
  | .stealSearch t => posOk t
  | .stealBackoffExpiry t => posOk t
  | .stealReturnTimeout t _ => posOk t
  | .stealFailureNotice h _ _ _ => hdrOk h
  | .engineSleep t => posOk t
  | .ctrlWrite h off data => hdrOk h && bodyOk (.ctrlWrite off data)
  | .ctrlRead h off len => hdrOk h && bodyOk (.ctrlRead off len)
  | .ctrlOrderAdmit h => hdrOk h
  | .ctrlOrderSwitch h _ _ => hdrOk h
  | .ctrlOrderDload h _ _ _ => hdrOk h
  | .ctrlOrderSample h _ _ _ => hdrOk h
  | .ctrlReply h re st data => hdrOk h && bodyOk (.ctrlReply re st data)
  | .tileResetOrder t => posOk t
  | .rawWrite h off data => hdrOk h && bodyOk (.rawWrite off data)
  | .rawRead h off len => hdrOk h && bodyOk (.rawRead off len)
  | .openArrives h _ => hdrOk h
  | .probe h _ => hdrOk h
  | .senderClose h _ => hdrOk h
  | .readerNotice h _ => hdrOk h
  | .closeAfterLoss h _ => hdrOk h
  | .recordTimeout t _ => posOk t
  | .steal h _ _ _ => hdrOk h
  | .operandRead h _ => hdrOk h
  | .syncWait h _ => hdrOk h
  | .syncSignal h _ => hdrOk h
  | .syncPostedSignal h _ => hdrOk h
  | .syncRead h _ => hdrOk h
  | .syncCancel h _ => hdrOk h
  | .syncWaitResend t => posOk t
  | .staleReleaseRefused f _ waiter => decide (f < 56) && posOk waiter
  | .remoteRead h _ => hdrOk h
  | .remoteWrite h b data => hdrOk h && bodyOk (.remoteWrite b data)
  | .windowHeldServe t _ => posOk t
  | .windowHoldTimeout t _ => posOk t
  | .windowDeadline t _ => posOk t
  | .reply h re st data => hdrOk h && bodyOk (.reply re st data)
  | .status h _ _ => hdrOk h
  | .grant h _ => hdrOk h
  | .connectionCredit h _ => hdrOk h
  | .tokenCredit h _ _ => hdrOk h
  | .stealReply h _ => hdrOk h
  | .message h b => hdrOk h && bodyOk (.message b)
  | .combine h cs => hdrOk h && bodyOk (.combine cs)
  | .combineFoldDone t _ _ => posOk t
  | .token h b => hdrOk h && bodyOk (.token b)
  | .result h b => hdrOk h && bodyOk (.result b)
  | .multicast r off data => bodyOk (.multicast r off data)
  | .routePacket _ _ _ _ => true
  | .tokenRetryResend t _ => posOk t
  | .firingIssue t => posOk t
  | .tokenEmit t _ => posOk t
  | .firingComplete t _ => posOk t
  | .sourceFire t _ _ => posOk t
  | .tokenOrphan t _ => posOk t
  | .foldScheduleMove t => posOk t
  | .foldSwitchAtT t => posOk t
  | .profileSample t _ => posOk t
  | .slotArm t _ _ _ => posOk t
  | .syncCellWrite t _ c _ _ => posOk t && decide (c < 64)
  | .syncDebugCore t => posOk t
  | .syncDebugAll t => posOk t
  | .syncRecWrite f _ w0 w1 _ => decide (f < 56) && (w0.isSome || w1.isSome)
  | .hedgerowSyncDebug _ _ => true
  | .rqEnable t _ _ _ => posOk t
  | .rqDisable t _ _ _ => posOk t
  | .connProbe t _ => posOk t
  | .rowRefresh t _ => posOk t
  | .patrolScrub f _ => decide (f < 56)
  | .refreshDerate f _ => decide (f < 56)
  | .refreshRestore f _ => decide (f < 56)
  | .mapPublish _ => true
  | .mapInjectionPause => true
  | .mapSwitch => true
  | .fenceSettleLocal => true
  | .fenceSettleRemote f => decide (f < 56)
  | .distTablePublish => true
  | .cellLostSweep f => decide (f < 56)
  | .dockIngress p pkt => decide (p < 56) && pktOk pkt
  | .dockEgress p pkt => decide (p < 56) && pktOk pkt
  | .pendingExpiry p _ => decide (p < 56)
  | .remoteRetryResend t => posOk t
  | .dataFrame p fr => decide (p < 56) && pktOk fr.pkt
  | .linkAck p _ => decide (p < 56)
  | .linkNak p _ => decide (p < 56)
  | .linkLaneOff p lane => decide (p < 56) && decide (lane < 8)
  | .linkLaneOn p lane => decide (p < 56) && decide (lane < 8)
  | .linkClose p => decide (p < 56)
  | .linkCredits p _ _ => decide (p < 56)
  | .linkIdleAck p => decide (p < 56)
  | .frameCrcError p => decide (p < 56)
  | .laneFailure p lane => decide (p < 56) && decide (lane < 8)
  | .laneRetrainDone p lane _ => decide (p < 56) && decide (lane < 8)
  | .egressHoldExpiry p => decide (p < 56)
  | .portLightDetected p => decide (p < 56)
  | .trainingDone p _ => decide (p < 56)
  | .trainingFailed p => decide (p < 56)
  | .trainingBackoffExpiry p => decide (p < 56)
  | .hello p _ _ => decide (p < 56)
  | .cap p _ => decide (p < 56)
  | .cert x => decide (x.port < 56)
  | .mode p _ _ => decide (p < 56)
  | .modeSwitch x => decide (x.port < 56)
  | .negotiationTimeout p => decide (p < 56)
  | .refusedTimeout p => decide (p < 56)
  | .portSignalLoss p => decide (p < 56)
  | .retrainDone p => decide (p < 56)
  | .retrainTimeout p => decide (p < 56)
  | .glowLightLoss g => decide (g < 8)
  | .glowLatchOpen g => decide (g < 8)
  | .glowLatchClose g => decide (g < 8)
  | .glowLit g => decide (g < 8)
  | .powerNoteSend => true
  | .powerNote p _ => decide (p < 56)
  | .powerNoteExpiry => true
  | .brokerConnectRequest p _ => decide (p < 56)
  | .brokerConnectReply p _ => decide (p < 56)
  | .brokerCloseMessage p _ => decide (p < 56)
  | .brokerLookupRequest p _ => decide (p < 56)
  | .brokerLookupReply p _ => decide (p < 56)
  | .referenceSwitch _ => true
  | .referenceLost => true
  | .waferTimeBroadcast => true
  | .railDroop f _ _ => decide (f < 56)
  | .marginStop f _ => decide (f < 56)
  | .marginRestart f => decide (f < 56)
  | .crossingCalibrate f _ => decide (f < 56)
  | .calibrationDone f _ _ => decide (f < 56)
  | .heartbeatLoss f _ => decide (f < 56)
  | .fieldWake f => decide (f < 56)
  | .fieldClockStop f => decide (f < 56)
  | .retentionReached f => decide (f < 56)
  | .clkOrderOpStep f _ _ => decide (f < 56)
  | .clkOrderEnterMonitor f _ _ => decide (f < 56)
  | .clkOrderLeaveMonitor f _ _ => decide (f < 56)
  | .opStep f => decide (f < 56)
  | .relockDone f => decide (f < 56)
  | .monitorModeSwitch => true
  | .monitorSteerEpoch f _ => decide (f < 56)
  | .marginLowWrite f => decide (f < 56)
  | .wtLoRead f => decide (f < 56)
  | .epochEnd f _ _ => decide (f < 56)
  | .powerMasterDecision => true
  | .masterTakeover => true
  | .pwrStepCap f _ _ => decide (f < 56)
  | .pwrStepThermal f _ _ => decide (f < 56)
  | .pwrStepForced f _ _ => decide (f < 56)
  | .hedgerowPowerSample _ _ => true
  | .estScaleCalibrate _ _ => true
  | .inputVoltageSample _ => true
  | .busStop => true
  | .busRestart => true
  | .currentLimit => true
  | .thatchEngage t => posOk t
  | .thatchRampDownStep t => posOk t
  | .thatchRampUpStep t => posOk t
  | .thermalSample f _ _ => decide (f < 56)
  | .autoReturn f => decide (f < 56)
  | .coolantSample _ => true
  | .overcurrentLatch f _ _ => decide (f < 56)
  | .insulationCheckDone f _ _ => decide (f < 56)
  | .trimRaise f point _ => decide (f < 56) && decide (point < 16)
  | .fieldThermClear f => decide (f < 56)
  | .fieldPowerWave _ routers => routers.all posOk
  | .fieldWaveTimeout f => decide (f < 56)
  | .knownAnswerDone t _ _ => posOk t
  | .knownAnswerTimeout t => posOk t
  | .marchDone f _ failed routers => decide (f < 56) && failed.all posOk && routers.all posOk
  | .soakDone f _ => decide (f < 56)
  | .profilingPauseEnd f _ => decide (f < 56)
  | .bringupAdmission => true
  | .warmReset _ _ => true
  | .warmResetInjectionStop => true
  | .retestDone f => decide (f < 56)
  | .haltScan f => decide (f < 56)
  | .faultLogPoll => true
  | .fltRead f _ => decide (f < 56)
  | .mbMsgWrite _ _ c _ _ => decide (c < 64)
  | .mbDoorbell _ _ c _ => decide (c < 64)
  | .mailboxPoll => true
  | .commandComplete c _ => decide (c < 64)
  | .commandTimeout c _ => decide (c < 64)
  | .deferredEnableStart c _ => decide (c < 64)
  | .conductorBeat => true
  | .conductorTakeover => true
  | .standbyRebuildDone => true
  | .sysIdentify c => decide (c < 64)
  | .sysStatus c => decide (c < 64)
  | .sysWarmReset c => decide (c < 64)
  | .sysSetWaferId c => decide (c < 64)
  | .sysHandover c => decide (c < 64)
  | .sysBoundVoid c => decide (c < 64)
  | .sysPing c => decide (c < 64)
  | .fieldAdmit c => decide (c < 64)
  | .fieldDrain c => decide (c < 64)
  | .fieldPark c => decide (c < 64)
  | .fieldReturn c => decide (c < 64)
  | .fieldReset c => decide (c < 64)
  | .fieldRetest c => decide (c < 64)
  | .fieldFail c => decide (c < 64)
  | .fieldClear c => decide (c < 64)
  | .fieldInsulate c => decide (c < 64)
  | .fieldPower c => decide (c < 64)
  | .fieldQuery c => decide (c < 64)
  | .tileReset c => decide (c < 64)
  | .jobDeclare c => decide (c < 64)
  | .jobLoad c => decide (c < 64)
  | .jobStart c => decide (c < 64)
  | .jobStop c => decide (c < 64)
  | .jobRelease c => decide (c < 64)
  | .jobQuery c => decide (c < 64)
  | .foldLoad c => decide (c < 64)
  | .foldSwitch c => decide (c < 64)
  | .foldSchedule c => decide (c < 64)
  | .brokerConnect c => decide (c < 64)
  | .brokerClose c => decide (c < 64)
  | .brokerPolicy c => decide (c < 64)
  | .windowPublish c => decide (c < 64)
  | .windowWithdraw c => decide (c < 64)
  | .windowLookup c => decide (c < 64)
  | .cellRead c => decide (c < 64)
  | .cellSet c => decide (c < 64)
  | .cellForce c => decide (c < 64)
  | .cellWaiters c => decide (c < 64)
  | .tileRelease c => decide (c < 64)
  | .pwrSetCap c => decide (c < 64)
  | .pwrSetPolicy c => decide (c < 64)
  | .pwrSetGroup c => decide (c < 64)
  | .pwrQuery c => decide (c < 64)
  | .thatchSet c => decide (c < 64)
  | .thermSetLimits c => decide (c < 64)
  | .clkSetOp c => decide (c < 64)
  | .clkSetMode c => decide (c < 64)
  | .clkQuery c => decide (c < 64)
  | .portUp c => decide (c < 64)
  | .portDown c => decide (c < 64)
  | .portRetrain c => decide (c < 64)
  | .portRelay c => decide (c < 64)
  | .portLaneMap c => decide (c < 64)
  | .portConfig c => decide (c < 64)
  | .routeSet c => decide (c < 64)
  | .routeClear c => decide (c < 64)
  | .portQuery c => decide (c < 64)
  | .portForget c => decide (c < 64)
  | .fwQuery c => decide (c < 64)
  | .fwApply c => decide (c < 64)
  | .mapGet c => decide (c < 64)
  | .distGet c => decide (c < 64)
  | .mapWait c => decide (c < 64)
  | .waferWindowLoad k hart _ _ _ => decide (k < 4) && decide (hart < 32)
  | .waferWindowStore k hart _ _ _ => decide (k < 4) && decide (hart < 32)
  | .waferWindowTimeout k _ => decide (k < 4)
  | .waferWindowAnswer k _ _ _ => decide (k < 4)
  | .hartFenceIo k hart => decide (k < 4) && decide (hart < 32)
  | .timerInterrupt k hart _ => decide (k < 4) && decide (hart < 32)
  | .softwareInterruptWrite k _ hart _ => decide (k < 4) && decide (hart < 32)
  | .hostClkWrite k _ _ => decide (k < 4)
  | .sbiSecureForward k _ _ => decide (k < 4)
  | .sbiSystemReset k => decide (k < 4)
  | .nodeBoot k _ => decide (k < 4)
  | .hostBootTimeout k => decide (k < 4)
  | .ethRingTailWrite k port _ _ _ => decide (k < 4) && decide (port < 2)
  | .ethDescriptorDone k port _ => decide (k < 4) && decide (port < 2)
  | .ethFrameReceive k port _ _ _ => decide (k < 4) && decide (port < 2)
  | .pcieDeviceWrite k _ _ => decide (k < 4)
  | .hedgerowRestart _ _ => true
  | .sidebandModeTry => true
  | .hedgerowFieldPoll f fr => decide (f < 56) && frameOk fr
  | .scarabFlush => true
  | .scarabHoldingDrain => true
  | .timeAnchor _ => true
  | .i3cEntdaa addr => decide (addr < 128)
  | .i3cPrivateRead => true
  | .setEndpointId eid => decide (eid < 256)
  | .getEndpointId => true
  | .getMctpVersionSupport => true
  | .getMessageTypeSupport => true
  | .getVendorDefinedMsgSupport => true
  | .health => true
  | .slotGetAnswer _ => true
  | .slotSetAnswer => true
  | .slotCheckTimeout => true
  | .getVersion _ => true
  | .getCapabilities _ => true
  | .negotiateAlgorithms _ => true
  | .getDigests _ => true
  | .getCertificate _ => true
  | .challenge _ => true
  | .getMeasurements _ => true
  | .chassisForceRestart _ => true
  | .chassisPowerCycle _ => true
  | .chassisForceOff _ => true
  | .chassisOn _ => true
  | .powerLimitSet _ _ => true
  | .indicatorLedSet _ _ => true
  | .datetimeSet _ _ => true
  | .managerReset _ => true
  | .resetToDefaults _ => true
  | .redfishGet _ _ => true
  | .sessionLogin _ _ => true
  | .sessionIdleExpiry _ => true
  | .accountChange _ _ => true
  | .configSet _ _ => true
  | .ownerKeyInstall _ _ _ _ => true
  | .clearLog _ _ => true
  | .scarabExport _ => true
  | .fieldSnapshot _ f => decide (f < 56)
  | .firmwarePush _ _ => true
  | .updateApply _ _ => true
  | .regionRepair _ _ _ => true
  | .recoveryLoader _ => true
  | .recoveryRetry => true
  | .registerWrite sp _ _ _ => spaceOk sp
  | .conductorBoot _ => true
  | .standbyInputLoss => true
  | .ethLinkChange k port _ _ => decide (k < 4) && decide (port < 2)
  | .sidebandLink _ _ => true
  | .debtRepaid f => decide (f < 56)
  | .accountLockExpiry _ => true
  | .profileAgeUpdate f => decide (f < 56)
  | .pcieDeviceRead k _ _ => decide (k < 4)
  | .heldOrderWrite => true

end Sys2Proof
end

