-- ==== Sys2Proof/Certificates/Slice0/Obligations.lean ====
section
/-! DEFINITION. The statements for the provers. -/

open Sys2Proof Sys2Proof.Machine

/-- Base loads, stores, CSRs, ecall and ebreak (R34, R35, R36, R67, R118, R119). From a core that issues: an aligned load of memory without an uncorrectable word, or of a register, gives its value (every byte of memory reads as before); an aligned store of memory moves its bytes (every byte outside the stored ones reads as before) and one to a register is that register's write; a misaligned or unmapped access halts the core with 0x0301 or 0x0302. A read of a listed CSR gives its value and any other access of a CSR halts with 0x0701, ecall and ebreak halt with codes 0x0702 and 0x0703, and the core runs the 32-bit word at its pc, of which addi, lui and mul give their results. -/
def Obligations.BaseInstructionsComplete : Prop :=
  ∀ (s : State) (t : TileId), s.coreReady t = true →
    (∀ a : LsArgs, (s.lsAddr t a).toNat % a.size = 0 →
      (inMem (s.lsAddr t a).toNat a.size = true → inRegs (s.lsAddr t a).toNat a.size = false →
        (s.tile t).mem.hit (s.lsAddr t a).toNat a.size = none →
        Does (.coreLoad t a) s (fun u =>
          Retired s u t a.ilen a.reg (extendLoad a.size a.unsigned (leNat ((s.tile t).get (s.lsAddr t a).toNat a.size))) ∧
            (u.tile t).mem.cells = (s.tile t).mem.cells)) ∧
      (inRegs (s.lsAddr t a).toNat a.size = true →
        Does (.coreLoad t a) s (fun u =>
          Retired s u t a.ilen a.reg (if a.size = 4 then (s.readTileReg t ((s.lsAddr t a).toNat - regBase)).1 else 0) ∧
            (u.tile t).mem = (s.tile t).mem)) ∧
      (inMem (s.lsAddr t a).toNat a.size = true → inRegs (s.lsAddr t a).toNat a.size = false →
        (s.tile t).mem.partialHit (s.lsAddr t a).toNat a.size = none →
        Does (.coreStore t a) s (fun u =>
          (u.tile t).core.pc = (s.tile t).core.pc + BitVec.ofNat 32 a.ilen ∧ (u.tile t).core.regs = (s.tile t).core.regs ∧
            (u.tile t).get (s.lsAddr t a).toNat a.size = natLe a.size ((s.tile t).reg a.reg).toNat ∧
            SameBut (s.tile t).mem.cells (u.tile t).mem.cells (s.lsAddr t a).toNat a.size)) ∧
      (inRegs (s.lsAddr t a).toNat a.size = true →
        Does (.coreStore t a) s (fun u => u =
          (if a.size = 4 then (s.modTile t (fun tl => tl.retire a.ilen 1)).writeTileReg t .core ((s.lsAddr t a).toNat - regBase) ((s.tile t).reg a.reg)
           else s.modTile t (fun tl => tl.retire a.ilen 1))))) ∧
    (∀ a : LsArgs, (s.tile t).fault.valid = false →
      ((s.lsAddr t a).toNat % a.size ≠ 0 →
        Does (.coreLoad t a) s (fun u => Halts s u t 0x0301 (s.lsAddr t a) (BitVec.ofNat 32 a.size)) ∧
        Does (.coreStore t a) s (fun u => Halts s u t 0x0301 (s.lsAddr t a) (BitVec.ofNat 32 a.size))) ∧
      ((s.lsAddr t a).toNat % a.size = 0 → mapped (s.lsAddr t a).toNat a.size = false →
        Does (.coreLoad t a) s (fun u => Halts s u t 0x0302 (s.lsAddr t a) 0) ∧
        Does (.coreStore t a) s (fun u => Halts s u t 0x0302 (s.lsAddr t a) 1))) ∧
    (∀ csr op rd rs1 v, s.csr t csr = some v → csrWrites op rs1 = false →
      Does (.csrAccess t csr op rd rs1) s (fun u => Retired s u t 4 rd v)) ∧
    (∀ csr op rd rs1, (s.tile t).fault.valid = false → s.csr t csr = none ∨ csrWrites op rs1 = true →
      Does (.csrAccess t csr op rd rs1) s (fun u => Halts s u t 0x0701 (csrWord csr op rd rs1) 0)) ∧
    ((s.tile t).fault.valid = false → Does (.ecall t) s (fun u => Halts s u t 0x0702 0 0)) ∧
    ((s.tile t).fault.valid = false → Does (.ebreak t) s (fun u => Halts s u t 0x0703 0 0)) ∧
    (∀ w : Word, (s.tile t).core.pc.toNat % 2 = 0 → inSp (s.tile t).core.pc.toNat 4 = true →
      (s.tile t).mem.hit (s.tile t).core.pc.toNat 4 = none → (s.tile t).get (s.tile t).core.pc.toNat 4 = wordLe w →
      (∀ rd rs1 imm, rd < 32 → rs1 < 32 → imm < 4096 → w = encI 0x13 0 rd rs1 imm →
        Does (.rvInstruction t) s (fun u => Retired s u t 4 rd ((s.tile t).reg rs1 + sx 12 imm))) ∧
      (∀ rd imm, rd < 32 → imm < 2 ^ 20 → w = word [(0x37, 0), (rd, 7), (imm, 12)] →
        Does (.rvInstruction t) s (fun u => Retired s u t 4 rd (BitVec.ofNat 32 (imm * 4096)))) ∧
      (∀ rd rs1 rs2, rd < 32 → rs1 < 32 → rs2 < 32 → w = encR 0x33 0 1 rd rs1 rs2 →
        Does (.rvInstruction t) s (fun u => Retired s u t 4 rd ((s.tile t).reg rs1 * (s.tile t).reg rs2))))

/-- hset, hclr, ldt, stt and tfill (R42, R46, R126, R127, R129, R130, R132, R134). From a core that issues: hset writes the entry its image spells, hclr makes a valid one invalid, ldt reads a word of a slot that is untagged or full, stt writes one of a slot that is untagged or empty (every other byte reads as before) and tfill sets or clears the tags of slots; each completes with OK, ldt with the word in rd. A handle in use answers BUSY to hset and hclr, and ldt and stt stall on a tagged slot that is not as they need it. -/
def Obligations.BufferInstructionsComplete : Prop :=
  ∀ (s : State) (t : TileId) (a : XArgs),
    (Issues s t .hset a → bits (s.rs1 t a) 31 6 = 0 → imageOk (s.rs2 t a).toNat 16 = true →
      ((s.tile t).inUse (bits (s.rs1 t a) 5 0) = true → Does (.hset t a) s (fun u => Completed s u t a stBusy 0)) ∧
      ((s.tile t).inUse (bits (s.rs1 t a) 5 0) = false → (s.tile t).mem.hit (s.rs2 t a).toNat 16 = none →
        handleImageOk (leWord ((s.tile t).get (s.rs2 t a).toNat 4)) (leWord ((s.tile t).get ((s.rs2 t a).toNat + 4) 4))
          (leWord ((s.tile t).get ((s.rs2 t a).toNat + 8) 4)) (leWord ((s.tile t).get ((s.rs2 t a).toNat + 12) 4)) = true →
        Does (.hset t a) s (fun u => Completed s u t a stOk 0 ∧ (u.tile t).handle (bits (s.rs1 t a) 5 0) =
          handleOf (leWord ((s.tile t).get (s.rs2 t a).toNat 4)) (leWord ((s.tile t).get ((s.rs2 t a).toNat + 4) 4))))) ∧
    (Issues s t .hclr a → bits (s.rs1 t a) 31 6 = 0 → ((s.tile t).handle (bits (s.rs1 t a) 5 0)).valid = true →
      ((s.tile t).inUse (bits (s.rs1 t a) 5 0) = true → Does (.hclr t a) s (fun u => Completed s u t a stBusy 0)) ∧
      ((s.tile t).inUse (bits (s.rs1 t a) 5 0) = false →
        Does (.hclr t a) s (fun u => Completed s u t a stOk 0 ∧ ((u.tile t).handle (bits (s.rs1 t a) 5 0)).valid = false))) ∧
    (∀ h r, r = hrefOf (s.rs1 t a) → h = (s.tile t).handle r.handle → Issues s t .ldt a → (s.tile t).refWordOk r = true →
      (h.tagged = false ∨ (s.tile t).slotsFull h r.slot 1 = true → (s.tile t).mem.hit ((s.tile t).refAt r + 4 * r.idx) 4 = none →
        Does (.ldt t a) s (fun u =>
          Retired s u t 4 a.rd (leWord ((s.tile t).get ((s.tile t).refAt r + 4 * r.idx) 4)) ∧ (u.tile t).core.lastStatus = stOk ∧
            (h.tagged = false → (u.tile t).mem.cells = (s.tile t).mem.cells))) ∧
      (h.tagged = true → (s.tile t).slotsFull h r.slot 1 = false → Does (.ldt t a) s (fun u => StallsIn u t .ldt))) ∧
    (∀ h r, r = hrefOf (s.rs1 t a) → h = (s.tile t).handle r.handle → Issues s t .stt a → (s.tile t).refWordOk r = true →
      (h.tagged = false ∨ (s.tile t).slotsEmpty h r.slot 1 = true → (s.tile t).mem.partialHit ((s.tile t).refAt r + 4 * r.idx) 4 = none →
        Does (.stt t a) s (fun u => Completed s u t a stOk 0 ∧
          (u.tile t).get ((s.tile t).refAt r + 4 * r.idx) 4 = wordLe (s.rs2 t a) ∧
          (h.tagged = true → nbit a.mods 0 = true → (u.tile t).slotsFull h r.slot 1 = true) ∧
          SameBut (s.tile t).mem.cells (u.tile t).mem.cells ((s.tile t).refAt r + 4 * r.idx) 4)) ∧
      (h.tagged = true → (s.tile t).slotsEmpty h r.slot 1 = false → Does (.stt t a) s (fun u => StallsIn u t .stt))) ∧
    (∀ h first n, h = (s.tile t).handle (bits (s.rs1 t a) 5 0) → first = bits (s.rs2 t a) 15 0 →
      n = (if bits (s.rs2 t a) 31 16 = 0 then h.length - first else bits (s.rs2 t a) 31 16) →
      Issues s t .tfill a → bits (s.rs1 t a) 31 6 = 0 → h.valid = true → first < h.length → first + n ≤ h.length →
      Does (.tfill t a) s (fun u => Completed s u t a stOk 0 ∧
        (nbit a.mods 0 = true → (u.tile t).mem.cells = (s.tile t).mem.cells ∧ (u.tile t).slotsFull h first n = true) ∧
        (nbit a.mods 0 = false → (u.tile t).slotsEmpty h first n = true)))

/-- swait, ssignal, sfence and sread (R44, R239, R240, R242, R243, R244, R249, R254, R257). From a core that issues: swait on a local cell completes where the cell lets it (a counting cell with a value gives one unit) and stalls where it does not; ssignal of a local cell completes and the cell stands as its cycle's signals leave it (a wrapping cell that nothing else touches adds the amount modulo 2^24); sread of a local cell gives its value; an sfence with no earlier write of its scope outstanding reports the scope's failure record and clears it, and stalls while there is one. On a global cell each sends its request to the cell's host, a remote ssignal to the dock, and all but a posted ssignal stall for the answer; a remote ssignal with no dock to take completes with PATH_LOST. -/
def Obligations.SyncInstructionsComplete : Prop :=
  ∀ (s : State) (t : TileId) (a : XArgs) (c : Nat), c = bits (s.rs1 t a) 15 0 → cellOperandOk (s.rs1 t a) = true →
    (Issues s t .swait a → bit (s.rs1 t a) 16 = true →
      (∀ cl, ((s.tile t).cell c).wait 0 = some cl → Does (.swait t a) s (fun u => Completed s u t a stOk 0 ∧ (u.tile t).cell c = cl)) ∧
      (((s.tile t).cell c).type = 0 → 0 < ((s.tile t).cell c).value →
        Does (.swait t a) s (fun u => Completed s u t a stOk 0 ∧ ((u.tile t).cell c).value + 1 = ((s.tile t).cell c).value)) ∧
      (((s.tile t).cell c).wait 0 = none → Does (.swait t a) s (fun u => StallsIn u t .swait))) ∧
    (Issues s t .swait a → bit (s.rs1 t a) 16 = false →
      Does (.swait t a) s (fun u => StallsIn u t .swait ∧
        Sent u (.fc (cellHost c).1) (.sync 0 { index := (cellHost c).2, amount := 0, srcGen := (s.tile t).gen, srcWafer := 0 }))) ∧
    (Issues s t .ssignal a → bit (s.rs1 t a) 16 = true → nbit a.mods 0 = false → bits (s.rs2 t a) 31 16 = 0 →
      Does (.ssignal t a) s (fun u => Completed s u t a stOk 0 ∧
        (u.tile t).cell c = (((s.tile t).turnAt c (s.cycles t)).add 0 (signalAmount (s.rs2 t a))).settle.1 ∧
        (((s.tile t).cell c).type = 1 → (s.tile t).sync.turns.find c = none →
          ((u.tile t).cell c).value = (((s.tile t).cell c).value + signalAmount (s.rs2 t a)) % 2 ^ 24))) ∧
    (∀ op, op = (if nbit a.mods 1 then 2 else 1) → Issues s t .ssignal a → bit (s.rs1 t a) 16 = false → nbit a.mods 0 = false → bits (s.rs2 t a) 31 16 = 0 →
      Does (.ssignal t a) s (fun u => (if nbit a.mods 1 then Completed s u t a stOk 0 else StallsIn u t .ssignal) ∧
        Sent u (.fc (cellHost c).1)
          (.sync op { index := (cellHost c).2, amount := signalAmount (s.rs2 t a), srcGen := (s.tile t).gen, srcWafer := 0 }))) ∧
    (∀ op, op = (if nbit a.mods 1 then 2 else 1) → Issues s t .ssignal a → bit (s.rs1 t a) 16 = false → nbit a.mods 0 = true →
      (∀ p, s.ingressEnd t (bits (s.rs2 t a) 31 16) = some p →
        Does (.ssignal t a) s (fun u => (if nbit a.mods 1 then Completed s u t a stOk 0 else StallsIn u t .ssignal) ∧
          Sent u p (.sync op { index := (cellHost c).2, amount := signalAmount (s.rs2 t a), srcGen := (s.tile t).gen, srcWafer := s.waferId }))) ∧
      (s.ingressEnd t (bits (s.rs2 t a) 31 16) = none → Does (.ssignal t a) s (fun u => Completed s u t a stPathLost 0))) ∧
    (Issues s t .sread a → bit (s.rs1 t a) 16 = true →
      Does (.sread t a) s (fun u => Completed s u t a stOk ((s.tile t).cell c).value)) ∧
    (Issues s t .sread a → bit (s.rs1 t a) 16 = false →
      Does (.sread t a) s (fun u => StallsIn u t .sread ∧
        Sent u (.fc (cellHost c).1) (.sync 3 { index := (cellHost c).2, amount := 0, srcGen := (s.tile t).gen, srcWafer := 0 }))) ∧
    (Issues s t .sfence a →
      ((s.tile t).sync.fenceHolds (a.mods % 4) (s.tile t).sync.nextTag = false →
        Does (.sfence t a) s (fun u => Completed s u t a (if (s.tile t).sync.fenceFailed (a.mods % 4) then stPathLost else stOk) 0 ∧
          (u.tile t).sync.fenceFailed (a.mods % 4) = false)) ∧
      ((s.tile t).sync.fenceHolds (a.mods % 4) (s.tile t).sync.nextTag = true → Does (.sfence t a) s (fun u => StallsIn u t .sfence)))

/-- qopen, qclose, qsend, qtrysend, qrecv, qtryrecv, qselect and qstat (R43, R217, R220, R223, R225, R229, R237). From a core that issues: qopen takes the lowest IDLE context, sends OPEN and stalls, or answers NO_CONTEXT; qclose of a context leaves it IDLE, sending CLOSE where it was OPEN, and of an OPEN queue leaves it CLOSED and empty; qsend and qtrysend on an OPEN context whose end has not reached the tile spend a credit and send the slot's bytes as a MESSAGE, or its element as a contribution; on a CLOSED or LOST one they complete with its status; qrecv and qtryrecv copy the oldest message into the destination slot, answer PEER_LOST for a marker and CLOSED for a queue that is not OPEN; with nothing there qrecv stalls and qtryrecv answers EMPTY; qselect answers the lowest selectable queue of its mask; qstat gives QSTAT. -/
def Obligations.QueueInstructionsComplete : Prop :=
  ∀ (s : State) (t : TileId) (a : XArgs),
    (Issues s t .qopen a → bits (s.rs1 t a) 31 23 = 0 → 1 ≤ (s.rs2 t a).toNat → (s.rs2 t a).toNat ≤ 32 →
      (∀ c, firstBelow 16 (fun c => ((s.tile t).ctx c).state == 0) = some c →
        Does (.qopen t a) s (fun u => StallsIn u t .qopen ∧ ((u.tile t).ctx c).state = 1 ∧
          Sent u (.tile ⟨bits (s.rs1 t a) 9 0, bits (s.rs1 t a) 19 10⟩)
            (.openReq { ctx := c, queue := bits (s.rs1 t a) 22 20, credits := (s.rs2 t a).toNat, gen := (s.tile t).gen }))) ∧
      (firstBelow 16 (fun c => ((s.tile t).ctx c).state == 0) = none → Does (.qopen t a) s (fun u => Completed s u t a stNoContext 0))) ∧
    (∀ c, c = bits (s.rs1 t a) 3 0 → Issues s t .qclose a → nbit a.mods 0 = false → bits (s.rs1 t a) 31 4 = 0 →
      (((s.tile t).ctx c).state = 2 ∨ ((s.tile t).ctx c).state = 3 ∨ ((s.tile t).ctx c).state = 4 →
        Does (.qclose t a) s (fun u => Completed s u t a stOk 0 ∧ ((u.tile t).ctx c).state = 0)) ∧
      (((s.tile t).ctx c).state = 2 → ((s.tile t).ctx c).remote = false →
        Does (.qclose t a) s (fun u => Sent u (.tile ((s.tile t).ctx c).peer)
          (.close 0 { ref := ((s.tile t).ctx c).ref c, gen := (s.tile t).gen, seq := ((s.tile t).ctx c).seq }))) ∧
      (((s.tile t).ctx c).state = 0 → Does (.qclose t a) s (fun u => Completed s u t a stClosed 0))) ∧
    (∀ q, q = bits (s.rs1 t a) 2 0 → Issues s t .qclose a → nbit a.mods 0 = true → bits (s.rs1 t a) 31 3 = 0 →
      (((s.tile t).queue q).state = 1 → Does (.qclose t a) s (fun u => Completed s u t a stOk 0 ∧
        ((u.tile t).queue q).state = 2 ∧ ((u.tile t).queue q).entries = [])) ∧
      (((s.tile t).queue q).state ≠ 1 → Does (.qclose t a) s (fun u => Completed s u t a stClosed 0))) ∧
    (∀ op c r h, (op = .qsend ∨ op = .qtrysend) → Issues s t op a → c = bits (s.rs1 t a) 3 0 → r = hrefOf (s.rs2 t a) → h = (s.tile t).handle r.handle →
      bits (s.rs1 t a) 31 4 = 0 → (s.tile t).refOk r = true →
      (((s.tile t).ctx c).state = 2 → s.ending t c false = false → ((s.tile t).ctx c).remote = false → 0 < ((s.tile t).ctx c).credits →
        h.tagged = false → (s.tile t).sync.writes.length < 65535 →
        (((s.tile t).ctx c).kind = 0 → h.slotBytes ≤ 32 * 2 ^ ((s.tile t).ctx c).maxSize → (s.tile t).mem.hit ((s.tile t).refAt r) h.slotBytes = none →
          Does (if op = .qsend then .qsend t a else .qtrysend t a) s (fun u => Completed s u t a stOk 0 ∧
            ((u.tile t).ctx c).credits + 1 = ((s.tile t).ctx c).credits ∧
            Sent u (.tile ((s.tile t).ctx c).peer)
              (.message { ref := ((s.tile t).ctx c).ref c, seq := ((s.tile t).ctx c).seq
                          gen := (s.tile t).gen, data := (s.tile t).get ((s.tile t).refAt r) h.slotBytes }))) ∧
        (((s.tile t).ctx c).kind ≠ 0 → (s.tile t).mem.hit ((s.tile t).refAt r) 8 = none →
          Does (if op = .qsend then .qsend t a else .qtrysend t a) s (fun u => Completed s u t a stOk 0 ∧
            ((u.tile t).ctx c).credits + 1 = ((s.tile t).ctx c).credits ∧
            ∃ k, Sent u (.tile ((s.tile t).ctx c).peer) (.combine [k]) ∧ k.op = ((s.tile t).ctx c).op ∧
              k.value = leWord ((s.tile t).get ((s.tile t).refAt r + 4) 4)))) ∧
      (((s.tile t).ctx c).state = 3 ∨ s.ending t c false = true →
        Does (if op = .qsend then .qsend t a else .qtrysend t a) s (fun u => Completed s u t a stClosed 0)) ∧
      (((s.tile t).ctx c).state = 4 → s.ending t c false = false →
        Does (if op = .qsend then .qsend t a else .qtrysend t a) s (fun u => Completed s u t a ((s.tile t).ctx c).lostStatus 0))) ∧
    (∀ op q r h, (op = .qrecv ∨ op = .qtryrecv) → Issues s t op a → q = bits (s.rs1 t a) 2 0 → r = hrefOf (s.rs2 t a) → h = (s.tile t).handle r.handle →
      bits (s.rs1 t a) 31 3 = 0 → (s.tile t).refOk r = true →
      (∀ slot len f live rest, ((s.tile t).queue q).state = 1 → ((s.tile t).queue q).kind = 0 →
        ((s.tile t).queue q).entries = .msg slot len f live :: rest → len ≤ h.slotBytes → (h.tagged = false ∨ (s.tile t).slotsEmpty h r.slot 1 = true) →
        (s.tile t).mem.hit (((s.tile t).handle ((s.tile t).queue q).handle).slotAt slot) len = none → (s.tile t).mem.partialHit ((s.tile t).refAt r) len = none →
        Does (if op = .qrecv then .qrecv t a else .qtryrecv t a) s (fun u =>
          Completed s u t a stOk (len + f.ctx * 2 ^ 13) ∧ ((u.tile t).queue q).entries = rest ∧
          (u.tile t).get ((s.tile t).refAt r) len = (s.tile t).get (((s.tile t).handle ((s.tile t).queue q).handle).slotAt slot) len ∧
          (h.tagged = true → (u.tile t).slotsFull h r.slot 1 = true) ∧
          (live = true → Sent u f.src (.credit { ref := { queue := q, qinc := ((s.tile t).queue q).qinc, ctx := f.ctx }, count := 1, gen := (s.tile t).gen })) ∧
          SameBut (s.tile t).mem.cells (u.tile t).mem.cells ((s.tile t).refAt r) len)) ∧
      (∀ f rest, ((s.tile t).queue q).state = 1 → ((s.tile t).queue q).kind = 0 → ((s.tile t).queue q).entries = .marker f :: rest →
        Does (if op = .qrecv then .qrecv t a else .qtryrecv t a) s (fun u =>
          Completed s u t a stPeerLost (f.ctx * 2 ^ 13) ∧ ((u.tile t).queue q).entries = rest)) ∧
      (((s.tile t).queue q).state = 1 → ((s.tile t).queue q).kind = 0 → ((s.tile t).queue q).entries = [] →
        Does (if op = .qrecv then .qrecv t a else .qtryrecv t a) s (fun u => if op = .qrecv then StallsIn u t .qrecv else Completed s u t a stEmpty 0)) ∧
      (((s.tile t).queue q).state ≠ 1 →
        Does (if op = .qrecv then .qrecv t a else .qtryrecv t a) s (fun u => Completed s u t a stClosed 0))) ∧
    (∀ q, Issues s t .qselect a → a.mods = 0 → s.rs1 t a ≠ 0 → bits (s.rs1 t a) 31 8 = 0 → q < 8 →
      bit (s.rs1 t a) q = true → ((s.tile t).queue q).selectable = true →
      (∀ i, i < q → bit (s.rs1 t a) i = true → ((s.tile t).queue i).selectable = false) →
      Does (.qselect t a) s (fun u => Completed s u t a stOk q)) ∧
    (∀ q start, Issues s t .qselect a → nbit a.mods 0 = true → start = (s.tile t).q.rot + 1 → s.rs1 t a ≠ 0 → bits (s.rs1 t a) 31 8 = 0 →
      (upto 8).find? (fun i => bit (s.rs1 t a) ((start + i) % 8) && ((s.tile t).queue ((start + i) % 8)).selectable) = some q →
      Does (.qselect t a) s (fun u => Completed s u t a stOk ((start + q) % 8) ∧ (u.tile t).q.rot = (start + q) % 8)) ∧
    (Issues s t .qselect a → s.rs1 t a ≠ 0 → bits (s.rs1 t a) 31 8 = 0 →
      (∀ i, i < 8 → bit (s.rs1 t a) i = true → ((s.tile t).queue i).selectable = false) →
      Does (.qselect t a) s (fun u => if nbit a.mods 1 then Completed s u t a stEmpty 0 else StallsIn u t .qselect)) ∧
    (Issues s t .qstat a → Does (.qstat t a) s (fun u => Retired s u t 4 a.rd (s.tile t).qstat ∧ (u.tile t).core.lastStatus = stOk))

/-- fpush, fsteal and fwait (R46, R48, R57, R58). From a core that issues: fpush of an accepted descriptor appends its unit to the chosen deque and returns its unit_id, and where that deque is full answers FULL or stalls; a refused one halts with 0x0705 or 0x0303; fsteal asks the named victim, or the nearest candidate, and stalls, or answers NOT_FOUND where there is none; fwait at or below its threshold returns the count of failed units and clears it, and stalls above it. -/
def Obligations.ForageInstructionsComplete : Prop :=
  ∀ (s : State) (t : TileId) (a : XArgs),
    (∀ bs, bs = (s.tile t).get (s.rs1 t a).toNat 32 → Issues s t .fpush a → imageOk (s.rs1 t a).toNat 32 = true → (s.rs2 t a).toNat ≤ 8 →
      (s.tile t).mem.hit (s.rs1 t a).toNat 32 = none →
      (∀ e, (s.tile t).pushFail bs = none → e = (s.tile t).dequeFor (descOf bs) (s.rs2 t a).toNat →
        ((s.tile t).occ e < 16 →
          Does (.fpush t a) s (fun u => Completed s u t a stOk ((s.tile t).forage.unitId % 65536) ∧
            ((u.tile t).engine e).deque = ((s.tile t).engine e).deque ++ [(s.tile t).makeUnit t bs none] ∧
            (u.tile t).forage.unitId = ((s.tile t).forage.unitId + 1) % 65536)) ∧
        (16 ≤ (s.tile t).occ e →
          Does (.fpush t a) s (fun u => if nbit a.mods 0 then Completed s u t a stFull 0 else StallsIn u t .fpush))) ∧
      ((s.tile t).pushFail bs = some .descriptor → (s.tile t).fault.valid = false →
        Does (.fpush t a) s (fun u => Halts s u t 0x0705 (leWord (bytesAt bs 0 4)) (leWord (bytesAt bs 8 4)))) ∧
      (∀ h, (s.tile t).pushFail bs = some (.handle h) → (s.tile t).fault.valid = false →
        Does (.fpush t a) s (fun u => Halts s u t 0x0303 (BitVec.ofNat 32 h) (xword .fpush a)))) ∧
    (Issues s t .fsteal a → bit (s.rs1 t a) 31 = true → bits (s.rs1 t a) 30 20 = 0 →
      Does (.fsteal t a) s (fun u => StallsIn u t .fsteal ∧
        Sent u (.tile ⟨bits (s.rs1 t a) 9 0, bits (s.rs1 t a) 19 10⟩) (.steal 8 (s.tile t).forage.domain (s.tile t).gen))) ∧
    (Issues s t .fsteal a → s.rs1 t a = 0 →
      (∀ v rest, s.victims t = v :: rest → Does (.fsteal t a) s (fun u => StallsIn u t .fsteal ∧
        Sent u (.tile v) (.steal 8 (s.tile t).forage.domain (s.tile t).gen))) ∧
      (s.victims t = [] → Does (.fsteal t a) s (fun u => Completed s u t a stNotFound 0))) ∧
    (Issues s t .fwait a → bits (s.rs1 t a) 31 16 = 0 →
      ((s.tile t).outstanding ≤ (s.rs1 t a).toNat → Does (.fwait t a) s (fun u =>
        Completed s u t a (if (s.tile t).forage.failedSince = 0 then stOk else stUnitFailed) (s.tile t).forage.failedSince ∧
        (u.tile t).forage.failedSince = 0)) ∧
      ((s.rs1 t a).toNat < (s.tile t).outstanding → Does (.fwait t a) s (fun u => StallsIn u t .fwait)))

/-- dload, dswitch, dpurge and dsample (R47, R158, R160, R161, R162, R167). From a core that issues: dload of an image that passes its checks loads the slot, and answers BUSY while the slot's epoch holds tokens; dswitch makes a loaded slot active and clears sched_en, resumes a schedule that has entries, answers EMPTY where neither holds, and OK without effect in the cycle of a conductor's switch; dpurge returns how many tokens of the slot's epoch it removed and leaves none that no firing runs; dsample starts sampling into a valid handle, stops it with 0, and answers BUSY while it runs. -/
def Obligations.DataflowInstructionsComplete : Prop :=
  ∀ (s : State) (t : TileId) (a : XArgs),
    (∀ r o size bs, r = hrefOf (s.rs2 t a) → o = (s.tile t).refAt r → size = fieldAt ((s.tile t).get o 64) 4 2 → bs = (s.tile t).get o size →
      Issues s t .dload a → bits (s.rs1 t a) 31 3 = 0 → (s.tile t).refOk r = true → nbit a.mods 0 = false →
      ((s.tile t).epochHolds (bits (s.rs1 t a) 2 0) = true → Does (.dload t a) s (fun u => Completed s u t a stBusy 0)) ∧
      ((s.tile t).epochHolds (bits (s.rs1 t a) 2 0) = false → (s.tile t).mem.ue = [] → (s.tile t).fold.store = [] →
        64 ≤ size → size ≤ ((s.tile t).handle r.handle).extent - r.slot * ((s.tile t).handle r.handle).slotBytes →
        firstFail (headerChecks ((s.tile t).get o 64)) = none → imageFail (s.tile t).handle bs = none →
        (∀ i im, i < 8 → i ≠ bits (s.rs1 t a) 2 0 → ((s.tile t).slot i).image = some im → im.epoch ≠ (imageOf bs).epoch) →
        Does (.dload t a) s (fun u => Completed s u t a stOk 0 ∧ ((u.tile t).slot (bits (s.rs1 t a) 2 0)).image = some (imageOf bs)))) ∧
    (Issues s t .dswitch a → nbit a.mods 0 = false → bits (s.rs1 t a) 31 3 = 0 → (s.tile t).fold.switchedAt ≠ some (s.cycles t) →
      (((s.tile t).slot (bits (s.rs1 t a) 2 0)).image.isSome = true →
        Does (.dswitch t a) s (fun u => Completed s u t a stOk 0 ∧ (u.tile t).fold.schedEn = false ∧ (u.tile t).fold.active = bits (s.rs1 t a) 2 0)) ∧
      (((s.tile t).slot (bits (s.rs1 t a) 2 0)).image = none → Does (.dswitch t a) s (fun u => Completed s u t a stEmpty 0))) ∧
    (Issues s t .dswitch a → nbit a.mods 0 = true → s.rs1 t a = 0 → (s.tile t).fold.switchedAt ≠ some (s.cycles t) →
      ((s.tile t).fold.schedLen ≠ 0 → Does (.dswitch t a) s (fun u => Completed s u t a stOk 0 ∧ (u.tile t).fold.schedEn = true ∧
        (u.tile t).fold.active = ((s.tile t).fold.entry (s.tile t).fold.schedPos).1)) ∧
      ((s.tile t).fold.schedLen = 0 → Does (.dswitch t a) s (fun u => Completed s u t a stEmpty 0))) ∧
    (Issues s t .dswitch a → (if nbit a.mods 0 then s.rs1 t a = 0 else bits (s.rs1 t a) 31 3 = 0) → (s.tile t).fold.switchedAt = some (s.cycles t) →
      Does (.dswitch t a) s (fun u => Completed s u t a stOk 0 ∧ (u.tile t).fold = (s.tile t).fold)) ∧
    (∀ im, Issues s t .dpurge a → bits (s.rs1 t a) 31 3 = 0 → ((s.tile t).slot (bits (s.rs1 t a) 2 0)).image = some im →
      Does (.dpurge t a) s (fun u =>
        Completed s u t a stOk ((s.tile t).fold.store.filter (fun k => k.body.epoch == im.epoch && !(s.tile t).tokenRuns k)).length ∧
        (∀ k ∈ (u.tile t).fold.store, k.body.epoch = im.epoch → (s.tile t).tokenRuns k = true))) ∧
    (Issues s t .dpurge a → bits (s.rs1 t a) 31 3 = 0 → ((s.tile t).slot (bits (s.rs1 t a) 2 0)).image = none →
      Does (.dpurge t a) s (fun u => Completed s u t a stOk 0)) ∧
    (Issues s t .dsample a → bits (s.rs1 t a) 31 6 = 0 → ((s.tile t).handle (bits (s.rs1 t a) 5 0)).valid = true →
      (6 ≤ (s.rs2 t a).toNat → (s.rs2 t a).toNat ≤ 16 → (s.tile t).fold.profOn = false →
        Does (.dsample t a) s (fun u => Completed s u t a stOk 0 ∧ (u.tile t).fold.profOn = true ∧ (u.tile t).fold.profHandle = bits (s.rs1 t a) 5 0 ∧
          (u.tile t).fold.profDue = s.cycles t + 2 ^ (s.rs2 t a).toNat)) ∧
      (6 ≤ (s.rs2 t a).toNat → (s.rs2 t a).toNat ≤ 16 → (s.tile t).fold.profOn = true →
        Does (.dsample t a) s (fun u => Completed s u t a stBusy 0)) ∧
      (s.rs2 t a = 0 → Does (.dsample t a) s (fun u => Completed s u t a stOk 0 ∧ (u.tile t).fold.profOn = false)))

/-- wopen, wclose, xput and xget (R45, R47, R136, R138, R248, R282, R283). From a core that issues: wopen of an accepted image makes a CLOSED entry OPEN with the image's words, and answers BUSY where it is not CLOSED; wclose makes an OPEN entry CLOSING with its deadline a drain interval on, and answers CLOSED for any other; xput of an untagged or full slot sends a REMOTE_WRITE of the slot's bytes, and completes where it is posted or else stalls; xget sends a REMOTE_READ and stalls; where no dock can take the request both complete with PATH_LOST. -/
def Obligations.WindowInstructionsComplete : Prop :=
  ∀ (s : State) (t : TileId) (a : XArgs),
    (∀ n o, n = bits (s.rs1 t a) 2 0 → o = (s.rs2 t a).toNat → Issues s t .wopen a → bits (s.rs1 t a) 31 3 = 0 → imageOk o 16 = true →
      (((s.tile t).window n).state ≠ 0 → Does (.wopen t a) s (fun u => Completed s u t a stBusy 0)) ∧
      (((s.tile t).window n).state = 0 → (s.tile t).mem.hit o 16 = none →
        (s.tile t).windowImageOk (leWord ((s.tile t).get o 4)) (leWord ((s.tile t).get (o + 4) 4)) (leWord ((s.tile t).get (o + 12) 4)) = true →
        Does (.wopen t a) s (fun u => Completed s u t a stOk 0 ∧ ((u.tile t).window n).state = 1 ∧
          ((u.tile t).window n).w0 = leWord ((s.tile t).get o 4) ∧ ((u.tile t).window n).w1 = leWord ((s.tile t).get (o + 4) 4) ∧
          ((u.tile t).window n).w2 = leWord ((s.tile t).get (o + 8) 4) ∧ ((u.tile t).window n).w3 = leWord ((s.tile t).get (o + 12) 4)))) ∧
    (∀ n, n = bits (s.rs1 t a) 2 0 → Issues s t .wclose a → bits (s.rs1 t a) 31 3 = 0 →
      (((s.tile t).window n).state = 1 → Does (.wclose t a) s (fun u => Completed s u t a stOk 0 ∧ ((u.tile t).window n).state = 2 ∧
        ((u.tile t).window n).deadline = s.time + ((s.tile t).window n).drain)) ∧
      (((s.tile t).window n).state ≠ 1 → Does (.wclose t a) s (fun u => Completed s u t a stClosed 0))) ∧
    (∀ d r h o, o = (s.rs2 t a).toNat → d = remoteDesc ((s.tile t).get o 32) → r = hrefOf (s.rs1 t a) → h = (s.tile t).handle r.handle →
      (s.tile t).refOk r = true → imageOk o 32 = true → (s.tile t).mem.hit o 32 = none → remoteBad ((s.tile t).get o 32) h.slotBytes = none →
      (Issues s t .xput a → (h.tagged = false ∨ (s.tile t).slotsFull h r.slot 1 = true) →
        (∀ p, s.ingressEnd t d.wafer = some p → (s.tile t).sync.writes.length < 65535 → (s.tile t).mem.hit ((s.tile t).refAt r) d.length = none →
          Does (.xput t a) s (fun u => (if nbit a.mods 0 then Completed s u t a stOk 0 else StallsIn u t .xput) ∧
            Sent u p (.remoteWrite (s.remoteBody t d) ((s.tile t).get ((s.tile t).refAt r) d.length)))) ∧
        (s.ingressEnd t d.wafer = none → Does (.xput t a) s (fun u => Completed s u t a stPathLost 0))) ∧
      (Issues s t .xget a →
        (∀ p, s.ingressEnd t d.wafer = some p →
          Does (.xget t a) s (fun u => StallsIn u t .xget ∧ Sent u p (.remoteRead (s.remoteBody t d)))) ∧
        (s.ingressEnd t d.wafer = none → Does (.xget t a) s (fun u => Completed s u t a stPathLost 0))))

/-- Units start, retire and move, and idle engines sleep and search (R51, R52, R54, R55, R56, R57, R59, R88, R107, R118, R221, R329). The ready head of an idle engine's deque starts in its turn and wakes the tile: an own unit that passes its checks runs, one that fails them ends and counts as failed, and a stolen one asks its home for each operand; a head that is not ready stalls. An own unit whose operands are there retires once its destination is free, with its flags and its bytes there, forwards its elements where it combines, ends where a word of its operands is uncorrectable, and stalls while its destination is not free; a stolen one sends its result home; a result that waits at the home lands. The engine that wins the tail of the sibling it chooses takes it. Engines idle for 256 cycles sleep. An idle tile whose search is due asks for every engine, at once or when its wait ends. -/
def Obligations.EnginesRunUnits : Prop :=
  ∀ (s : State) (t : TileId) (e : Nat), (s.tile t).present = true → s.clocked t = true →
    (∀ u rest d, e < 8 → (s.tile t).frozenAt (s.cycles t) = false → ((s.tile t).engine e).running = none → ((s.tile t).engine e).deque = u :: rest →
      d = descOf u.desc →
      ((s.tile t).unitReady u = true → (s.tile t).waitsPass ((s.tile t).engineWaits e) = true →
        (u.stolen = none → d.handles.find? (fun h => !((s.tile t).handle h).valid) = none →
          (d.op = 2 ∨ d.op = 3 ∨ d.op = 4 → ∃ ab, (s.tile t).operand d 0 = .ok ab ∧
            metaFail d ab (List.replicate (roomFrom ((s.tile t).handle d.b) d.bSlot) 0) = none) →
          Does (.unitStart t e) s (fun v => ((v.tile t).engine e).running = some { unit := u, mode := (s.tile t).homeMode d } ∧
            ((v.tile t).engine e).deque = rest ∧ (v.tile t).act.asleep = false)) ∧
        (∀ h, u.stolen = none → d.handles.find? (fun h => !((s.tile t).handle h).valid) = some h →
          Does (.unitStart t e) s (fun v => ((v.tile t).engine e).running = none ∧ ((v.tile t).engine e).deque = rest ∧ (v.tile t).fault.valid = true ∧
            (v.tile t).forage.unitFailed = (s.tile t).forage.unitFailed + 1)) ∧
        (∀ entry m, u.stolen = some (entry, m) →
          Does (.unitStart t e) s (fun v => ((v.tile t).engine e).running = some { unit := u, mode := m } ∧ ((v.tile t).engine e).deque = rest ∧
            ∀ w ∈ d.operands, Sent v (.tile u.home) (.operandRead { entry := entry, engine := e, homeGen := u.homeGen, which := w, at_ := 0 })))) ∧
      ((s.tile t).unitReady u = false → ((s.tile t).engine e).headSince = none →
        Does (.unitStart t e) s (fun v => ((v.tile t).engine e).headSince = some (s.run t) ∧ ((v.tile t).engine e).deque = u :: rest))) ∧
    (∀ r d x y z out, e < 8 → ((s.tile t).engine e).running = some r → d = descOf r.unit.desc → (s.tile t).gathered r = some (.ok (x, y, z)) →
      out = unitResult d r.mode.round r.mode.sat r.mode.seed x y z →
      (r.unit.stolen = none → d.combine = false → (s.tile t).destReady d = true → (s.tile t).mem.ue = [] →
        Does (.unitRetire t e) s (fun v => ((v.tile t).engine e).running = none ∧
          (v.tile t).arith = (s.tile t).arith.record r.unit.unitId out.flags e (s.cycles t) ∧
          (r.lost = [] → Alone s t (some e) none ((s.tile t).destSlots d) → ((s.tile t).handle d.a).consume = false → ((s.tile t).handle d.b).consume = false →
            (v.tile t).get (((s.tile t).handle d.c).slotAt d.cSlot) out.bytes.length = out.bytes))) ∧
      (r.unit.stolen = none → d.combine = false → (s.tile t).destReady d = false →
        Does (.unitRetire t e) s (fun v => ∃ q, ((v.tile t).engine e).running = some q ∧ q.unit = r.unit ∧
          q.stallSince = some (r.stallSince.getD (s.run t)))) ∧
      (r.unit.stolen = none → d.combine = true → (s.tile t).sameConn d.conn r.unit.conn = true →
        out.elems.length - r.sent ≤ ((s.tile t).ctx d.conn).credits → (s.tile t).sync.writes.length + out.elems.length < 65535 →
        Does (.unitRetire t e) s (fun v => ((v.tile t).engine e).running = none ∧
          ((v.tile t).ctx d.conn).credits + (out.elems.length - r.sent) = ((s.tile t).ctx d.conn).credits)) ∧
      (∀ entry m, r.unit.stolen = some (entry, m) → metaFail d x y = none →
        (s.tile t).sync.writes.length + (resultWrites r.unit entry out).length ≤ 65535 →
        Does (.unitRetire t e) s (fun v => ((v.tile t).engine e).running = none ∧
          ∀ b ∈ resultWrites r.unit entry out, Sent v (.tile r.unit.home) (.result b)))) ∧
    (∀ r o, e < 8 → ((s.tile t).engine e).running = some r → r.unit.stolen = none → (s.tile t).gathered r = some (.error o) →
      Does (.unitRetire t e) s (fun v => ((v.tile t).engine e).running = none ∧ (v.tile t).fault.valid = true ∧
        (v.tile t).forage.unitFailed = (s.tile t).forage.unitFailed + 1)) ∧
    (∀ i x b d, (s.tile t).forage.out.find i = some x → x.waiting = some b → d = descOf x.unit.desc → d.combine = false →
      (s.tile t).destReady d = true → (s.tile t).mem.ue = [] →
      Does (.unitRetire t (8 + i)) s (fun v => (v.tile t).forage.out.find i = none ∧
        (v.tile t).arith = (s.tile t).arith.record x.unit.unitId b.flags 8 (s.cycles t))) ∧
    (∀ v u, e < 8 → (s.tile t).frozen = false → (s.tile t).forage.intra = true → (s.tile t).idleEngine e = true →
      (s.tile t).siblingFor (s.cycles t) e = some v → (s.tile t).tail v = some u → (s.tile t).winner (s.cycles t) v = some e →
      Does (.intraTileSteal t e) s (fun w => ((w.tile t).engine e).deque = [u] ∧ ((w.tile t).engine v).deque = ((s.tile t).engine v).deque.dropLast ∧
        ((w.tile t).engine e).sibling = (v + 1) % 8 ∧
        (2 ≤ ((s.tile t).rivals (s.cycles t) v).length → ((w.tile t).engine v).thief = (e + 1) % 8))) ∧
    ((s.tile t).enginesIdle = true → (s.tile t).act.running = false → (s.tile t).act.asleep = false → (s.tile t).idleFrom + 256 ≤ s.cycles t →
      Does (.engineSleep t) s (fun u => (u.tile t).act.asleep = true ∧ (u.tile t).act.asleepAt = s.cycles t)) ∧
    (∀ v rest, s.maySearch t = true → (s.tile t).forage.backoffUntil = none → s.victims t = v :: rest →
      Does (.stealSearch t) s (fun u => (∀ i, i < 8 → ((u.tile t).engine i).search.isSome = true) ∧
        (((s.tile t).engine 0).search = none → Sent u (.tile v) (.steal 0 (s.tile t).forage.domain (s.tile t).gen) ∧ ((u.tile t).engine 0).search = some rest))) ∧
    (∀ n, (s.tile t).forage.backoffUntil = some n → n ≤ s.cycles t →
      Does (.stealBackoffExpiry t) s (fun u => (u.tile t).forage.backoffUntil = none ∧
        (∀ v rest, s.maySearch t = true → s.victims t = v :: rest → ((s.tile t).engine 0).search = none →
          Sent u (.tile v) (.steal 0 (s.tile t).forage.domain (s.tile t).gen) ∧ ((u.tile t).engine 0).search = some rest)))

/-- What passes between a thief and a home tile (R46, R58, R59, R60, R65, R118, R175, R248, R377). A home that may serve hands out a tail unit, one that may not answers that it has none, and a tile that takes no request answers PEER_LOST; a thief queues the unit it gets and its core's fsteal completes, and asks the next candidate where there was none; an operand read of a live entry is answered with the operand's bytes, or DATA_ERROR; a result of a live entry is kept and acknowledged with OK, and one of no live entry counts in STEAL_LATE and is answered; a failure notice counts the unit failed, frees the entry and is acknowledged; an entry that has waited the watchdog limit is voided and its unit queued again. -/
def Obligations.StealExchange : Prop :=
  ∀ (s : State) (t : TileId) (h : Hdr), h.dst = .tile t →
    (∀ engine domain gen, Arrives s h (.steal engine domain gen) →
      ((s.tile t).takes h.dstGen true = true → (s.tile t).mayServe domain = false →
        Does (.steal h engine domain gen) s (fun u => Sent u h.src (.stealReply none) ∧
          u.tile t = (s.took { h := h, body := .steal engine domain gen }).tile t)) ∧
      ((s.tile t).takes h.dstGen true = true → (s.tile t).mayServe domain = true → (upto 8).any (s.tile t).mayGive = true →
        Does (.steal h engine domain gen) s (fun u => ∃ x, Sent u h.src (.stealReply (some x)) ∧
          (u.tile t).forage.out.find x.entry = some { unit := x.unit, since := s.run t, thief := s.sourceTile h.src } ∧
          (u.tile t).forage.stealOut = (s.tile t).forage.stealOut + 1)) ∧
      ((s.tile t).takes h.dstGen true = false → Does (.steal h engine domain gen) s (fun u => Sent u h.src (.status (.steal engine) stPeerLost)))) ∧
    (∀ e x, Arrives s h (.stealReply (some x)) → (s.tile t).answerOk h = true → (s.tile t).askedBy h.tag = some e →
      (s.tile t).frozen = false → (s.tile t).st = .admitted →
      (e < 8 → Does (.stealReply h (some x)) s (fun u =>
        ((u.tile t).engine e).deque = ((s.tile t).engine e).deque ++ [{ x.unit with stolen := some (x.entry, x.mode) }] ∧
        ((u.tile t).engine e).search = none ∧ (u.tile t).forage.stealIn = (s.tile t).forage.stealIn + 1)) ∧
      (∀ k, e = coreThief → (s.tile t).awaiting .fsteal 0 = some k →
        Does (.stealReply h (some x)) s (fun u => Completed s u t k.a stOk (x.unit.unitId % 65536) ∧
          (u.tile t).forage.stealIn = (s.tile t).forage.stealIn + 1))) ∧
    (∀ e, Arrives s h (.stealReply none) → (s.tile t).answerOk h = true → (s.tile t).askedBy h.tag = some e →
      (∀ v rest, ((s.tile t).engine e).search = some (v :: rest) →
        Does (.stealReply h none) s (fun u => Sent u (.tile v) (.steal e (s.tile t).forage.domain (s.tile t).gen) ∧ ((u.tile t).engine e).search = some rest)) ∧
      (∀ k, ((s.tile t).engine e).search = some [] → e = coreThief → (s.tile t).awaiting .fsteal 0 = some k →
        Does (.stealReply h none) s (fun u => Completed s u t k.a stNotFound 0))) ∧
    (∀ b, Arrives s h (.operandRead b) →
      (∀ x, (s.tile t).forage.out.find b.entry = some x → (s.tile t).takes h.dstGen false = true → b.homeGen = (s.tile t).gen →
        x.thief = s.sourceTile h.src →
        (∀ bs, (s.tile t).operand (descOf x.unit.desc) b.which = .ok bs →
          Does (.operandRead h b) s (fun u => Sent u h.src (.reply (.operand b.engine b.which b.at_) stOk ((bs.drop b.at_).take stealChunk)))) ∧
        (∀ o, (s.tile t).operand (descOf x.unit.desc) b.which = .error o →
          Does (.operandRead h b) s (fun u => ∃ bs, Sent u h.src (.reply (.operand b.engine b.which o) stDataError bs)))) ∧
      ((s.tile t).forage.out.find b.entry = none →
        Does (.operandRead h b) s (fun u => Sent u h.src (.reply (.operand b.engine b.which b.at_) stPeerLost [])))) ∧
    (∀ b, Arrives s h (.result b) →
      (s.outEntry t h b.entry b.homeGen b.unitId = none →
        Does (.result h b) s (fun u => (u.tile t).forage.stealLate = (s.tile t).forage.stealLate + 1 ∧
          Sent u h.src (.status (.result b.entry) ((s.tile t).lateStatus b.homeGen)))) ∧
      (∀ x, s.outEntry t h b.entry b.homeGen b.unitId = some x → Does (.result h b) s (fun u => Sent u h.src (.status (.result b.entry) stOk) ∧
        (b.last = false → (u.tile t).forage.out.find b.entry = some { x with got := some (joinResult x.got b) })))) ∧
    (∀ entry homeGen unitId, Arrives s h (.failure entry homeGen unitId) →
      (∀ x, s.outEntry t h entry homeGen unitId = some x →
        Does (.stealFailureNotice h entry homeGen unitId) s (fun u => (u.tile t).forage.out.find entry = none ∧
          (u.tile t).forage.unitFailed = (s.tile t).forage.unitFailed + 1 ∧ Sent u h.src (.status (.result entry) stOk))) ∧
      (s.outEntry t h entry homeGen unitId = none →
        Does (.stealFailureNotice h entry homeGen unitId) s (fun u => Sent u h.src (.status (.result entry) ((s.tile t).lateStatus homeGen))))) ∧
    (∀ entry x lim, (s.tile t).forage.out.find entry = some x → (s.tile t).watchdog = some lim → x.waiting = none → lim ≤ s.run t - x.since →
      Does (.stealReturnTimeout t entry) s (fun u => (u.tile t).forage.out.find entry = none ∧
        ((u.tile t).engine (s.tile t).shortest).deque = ((s.tile t).engine (s.tile t).shortest).deque ++ [pinTile x.unit]))

/-- OPEN, PROBE, CLOSE, GRANT, CREDIT and MESSAGE at a tile (R65, R216, R217, R218, R219, R222, R223, R224, R225, R227, R235, R237). An OPEN that a queue with room takes is granted, one of a queue that is not OPEN is refused, and one of another generation is answered PEER_LOST; a probe is answered OK where queue, incarnation and record agree and CLOSED where they do not; a GRANT opens the context that waits for it and its qopen completes; a credit returns no more than was granted; a message in sequence lands in the next ring slot and is answered OK, one out of sequence is dropped and answered CLOSED; a reader's notice closes the context; closes of either kind end the record; a record that has waited 250,000 ticks ends; a sender that has stalled for a probe interval sends a probe. -/
def Obligations.ConnectionPacketsArrive : Prop :=
  ∀ (s : State) (t : TileId) (h : Hdr), h.dst = .tile t →
    (∀ b : OpenBody, Arrives s h (.openReq b) →
      ((s.tile t).takes h.dstGen true = true → ((s.tile t).queue b.queue).state ≠ 1 →
        Does (.openArrives h b) s (fun u => Sent u h.src (.status (.opening ⟨b.queue, ((s.tile t).queue b.queue).qinc, b.ctx⟩) stRefused))) ∧
      ((s.tile t).takes h.dstGen true = false →
        Does (.openArrives h b) s (fun u => Sent u h.src (.status (.opening ⟨b.queue, ((s.tile t).queue b.queue).qinc, b.ctx⟩) stPeerLost))) ∧
      ((s.tile t).takes h.dstGen true = true → ((s.tile t).queue b.queue).state = 1 →
        (s.tile t).q.grants.filter (fun e => e.2.from_.tile == s.sourceTile h.src && !(e.2.from_.gen == b.gen)) = [] → (s.tile t).q.grants.length < 256 →
        (bits ((s.tile t).queue b.queue).cfg 7 0 = 0 ∨ (s.tile t).senders b.queue < bits ((s.tile t).queue b.queue).cfg 7 0) →
        (((s.tile t).queue b.queue).kind = 0 → 0 < (s.tile t).ringFree b.queue) →
        Does (.openArrives h b) s (fun u => ∃ g, Sent u h.src (.grant g) ∧
          g.credits = (if ((s.tile t).queue b.queue).kind = 0 then min b.credits ((s.tile t).ringFree b.queue) else b.credits) ∧
          g.kind = ((s.tile t).queue b.queue).kind ∧ g.gen = (s.tile t).gen ∧ g.ref = ⟨b.queue, ((s.tile t).queue b.queue).qinc, b.ctx⟩))) ∧
    (∀ b : ProbeBody, Arrives s h (.probe b) → (s.tile t).takes h.dstGen false = true →
      Does (.probe h b) s (fun u => Sent u h.src (.status (.probe ⟨b.queue, b.qinc, b.ctx⟩)
        (if ((s.tile t).queue b.queue).state = 1 ∧ ((s.tile t).queue b.queue).qinc = b.qinc ∧
          ((s.tile t).record b.queue (s.sourceTile h.src) b.ctx (some b.gen)).isSome = true then stOk else stClosed)))) ∧
    (∀ b : GrantBody, Arrives s h (.grant b) → (s.tile t).answerOk h = true → ((s.tile t).ctx b.ref.ctx).state = 1 →
      ((s.tile t).ctx b.ref.ctx).queue = b.ref.queue → ((s.tile t).ctx b.ref.ctx).hears h.src = true →
      (((s.tile t).ctx b.ref.ctx).closePending = false →
        Does (.grant h b) s (fun u => ((u.tile t).ctx b.ref.ctx).state = 2 ∧ ((u.tile t).ctx b.ref.ctx).credits = b.credits ∧
          ((u.tile t).ctx b.ref.ctx).qinc = b.ref.qinc ∧ ((u.tile t).ctx b.ref.ctx).peerGen = b.gen ∧
          ∀ k, (s.tile t).awaiting .qopen b.ref.ctx = some k → Completed s u t k.a stOk b.ref.ctx)) ∧
      (((s.tile t).ctx b.ref.ctx).closePending = true → Does (.grant h b) s (fun u => ((u.tile t).ctx b.ref.ctx).state = 0))) ∧
    (∀ b : CreditBody, Arrives s h (.credit b) → (s.tile t).answerOk h = true → (s.tile t).onConn h.src b.ref = true →
      ((s.tile t).ctx b.ref.ctx).peerGen = b.gen → (s.took { h := h, body := .credit b }).ending t b.ref.ctx true = false →
      Does (.connectionCredit h b) s (fun u => ((u.tile t).ctx b.ref.ctx).credits =
        satAdd ((s.tile t).ctx b.ref.ctx).granted ((s.tile t).ctx b.ref.ctx).credits b.count)) ∧
    (∀ b : MsgBody, Arrives s h (.message b) → (s.tile t).takes h.dstGen false = true →
      ((((s.tile t).queue b.ref.queue).state = 1 ∧ ((s.tile t).queue b.ref.queue).qinc = b.ref.qinc ∧ ((s.tile t).queue b.ref.queue).kind = 0) →
        ∀ i g, (s.tile t).record b.ref.queue (s.sourceTile h.src) b.ref.ctx (some b.gen) = some (i, g) →
          (b.seq = g.seq → Does (.message h b) s (fun u => Sent u h.src (.status (.conn b.ref) stOk) ∧
            (g.closing = none → ∃ slot, ((u.tile t).queue b.ref.queue).entries =
              ((s.tile t).queue b.ref.queue).entries ++ [.msg slot b.data.length g.from_ true]))) ∧
          (b.seq ≠ g.seq → Does (.message h b) s (fun u => Sent u h.src (.status (.conn b.ref) stClosed) ∧ (u.tile t).q.grants.find i = none))) ∧
      (¬ (((s.tile t).queue b.ref.queue).state = 1 ∧ ((s.tile t).queue b.ref.queue).qinc = b.ref.qinc ∧ ((s.tile t).queue b.ref.queue).kind = 0) →
        Does (.message h b) s (fun u => Sent u h.src (.status (.conn b.ref) stClosed)))) ∧
    (∀ b : CloseBody, Arrives s h (.close 1 b) → (s.tile t).takes h.dstGen h.far.isSome = true → (s.tile t).onConn h.src b.ref = true →
      Does (.readerNotice h b) s (fun u => ((u.tile t).ctx b.ref.ctx).state = 3 ∧ ((u.tile t).ctx b.ref.ctx).credits = 0)) ∧
    (∀ (b : CloseBody) i g, Arrives s h (.close 0 b) → (s.tile t).takes h.dstGen false = true → s.closeRecord t h b = some (i, g) →
      (((s.tile t).queue g.queue).kind ≠ 0 ∨ g.seq = b.seq → Does (.senderClose h b) s (fun u => (u.tile t).q.grants.find i = none)) ∧
      (((s.tile t).queue g.queue).kind = 0 → g.seq ≠ b.seq →
        Does (.senderClose h b) s (fun u => (u.tile t).q.grants.find i = some { g with closing := some (b.seq, s.time) }))) ∧
    (∀ (b : CloseBody) i g, Arrives s h (.close 2 b) → (s.tile t).takes h.dstGen false = true → s.closeRecord t h b = some (i, g) →
      Does (.closeAfterLoss h b) s (fun u => (u.tile t).q.grants.find i = none)) ∧
    (∀ r g seq at_, (s.tile t).q.grants.find r = some g → g.closing = some (seq, at_) → at_ + 250000 ≤ s.time →
      Does (.recordTimeout t r) s (fun u => (u.tile t).q.grants.find r = none)) ∧
    (∀ st c since, (s.tile t).creditStall st = some (c, since) → ((s.tile t).ctx c).state = 2 →
      (∀ p, ((s.tile t).ctx c).probeAt = some p → p + (s.tile t).probeTicks ≤ s.run t) → since + (s.tile t).probeTicks ≤ s.run t →
      Does (.connProbe t st) s (fun u => ((u.tile t).ctx c).probeAt = some (s.run t) ∧
        Sent u (s.connHdr t ((s.tile t).ctx c) ((s.tile t).ctx c).peerGen).dst
          (.probe { ctx := c, queue := ((s.tile t).ctx c).queue, gen := (s.tile t).gen, qinc := ((s.tile t).ctx c).qinc })))

/-- Chassis inputs and the power board (R24, R26, R33, R325, R443, R449, R497, R499, R500). Input in range starts Hedgerow at count 0; both power inputs high start the engine; their fall shuts it down, abandons a start-up, or waits 10 ms for a conductor; the restart timers start it again; loss of standby input takes Hedgerow and the board down with the buffer written. -/
def Obligations.PowerInputsAct : Prop :=
  ∀ s : State,
    (∀ mv bad, s.chassis.input = false → 40000 ≤ mv → mv ≤ 72000 → 1 ∉ bad →
      Does (.inputPowerApplied mv bad) s (fun u => u.chassis.input = true ∧ u.hedge.up = true ∧ u.hedgeNow = 0)) ∧
    (Startable s → s.chassis.board = false → s.chassis.shutdown = none → s.chassis.resetHeld = false → s.chassis.restartAt = none →
      Does .powerEnable s (fun u => u.chassis.pwrEn = true ∧ u.chassis.stbyGood = true ∧ ColdStarted s u)) ∧
    (∀ c, (c = .pwrEnFall ∧ s.chassis.pwrEn = true ∨ c = .stbyGoodFall ∧ s.chassis.pwrEn = true ∧ s.chassis.stbyGood = true) →
      s.chassis.board = true →
      (s.boot.complete = false → Does c s Unpowered) ∧
      (s.boot.complete = true → s.mb.running = true → Does c s (fun u => Unpowered u ∧ u.scarab.ram = [])) ∧
      (s.boot.complete = true → s.mb.running = false → Does c s (fun u => u.chassis.board = true ∧ u.chassis.shutdown = some s.hedgeNow))) ∧
    (∀ p, s.chassis.shutdown = some p → p + 250000 ≤ s.hedgeNow → s.chassis.pwrEn = false →
      Does .shutdownConductorTimeout s (fun u => Unpowered u ∧ u.chassis.shutdown = none ∧ u.scarab.ram = [])) ∧
    (∀ low, Does (.identInput low) s (fun u => u.identLed = (low || s.hedge.led))) ∧
    (∀ t, Startable s → s.chassis.restartAt = some t → t ≤ s.hedgeNow → s.chassis.pwrEn = true → s.chassis.stbyGood = true →
      s.chassis.board = false → s.chassis.shutdown = none → s.chassis.resetHeld = false →
      Does .coldRestartTimer s (ColdStarted s)) ∧
    (∀ t, s.hedge.up = true → s.chassis.input = true → s.chassis.heldOff = false → s.regionsOk = true → s.chassis.busStopped = true →
      s.chassis.goodSince = some t → t + 25000000 ≤ s.hedgeNow → s.chassis.pwrEn = true → s.chassis.stbyGood = true →
      s.chassis.board = false → s.chassis.shutdown = none → s.chassis.resetHeld = false → s.chassis.restartAt = none →
      Does .busRestart s (ColdStarted s)) ∧
    (s.chassis.input = true →
      Does .standbyInputLoss s (fun u => u.chassis.input = false ∧ u.hedge.up = false ∧ (s.chassis.board = true → Unpowered u) ∧
        (s.hedge.up = true → u.scarab.ram = [])))

/-- Resets and the watch over silent conductors (R24, R33, R369, R370, R371, R497). A module reset or an accepted warm reset starts step 1 of R370, whose steps 2 and 4 follow at the stop tick; module reset in start-up takes the board away and its release starts again; 1 s of silence is recorded, and 4 s later Hedgerow resets warm, restarts cold at most three times, or leaves the board off. -/
def Obligations.ResetsRunTheirSequence : Prop :=
  ∀ s : State,
    (s.chassis.modReset = false → (∀ t, s.chassis.releasedAt = some t → t + 250 ≤ s.hedgeNow) → s.chassis.board = true →
      s.chassis.shutdown = none →
      (s.boot.complete = true → s.boot.kind = 0 → Does .modResetFall s (fun u => u.chassis.modReset = true ∧ WarmStarted u)) ∧
      (s.boot.complete = false → Does .modResetFall s (fun u => Unpowered u ∧ u.chassis.resetHeld = true))) ∧
    (s.chassis.modReset = true →
      Does .modResetRelease s (fun u => u.chassis.modReset = false ∧ u.chassis.releasedAt = some s.hedgeNow ∧
        (Startable s → s.chassis.pwrEn = true → s.chassis.stbyGood = true → s.chassis.board = false → s.chassis.shutdown = none →
          s.chassis.restartAt = none → ColdStarted s u))) ∧
    (∀ c cold, s.warmOk = true →
      (cold = 0 → Does (.warmReset c cold) s WarmStarted) ∧
      (cold ≠ 0 → Startable s → s.chassis.pwrEn = true → s.chassis.stbyGood = true → s.chassis.resetHeld = false → s.chassis.restartAt = none →
        Does (.warmReset c cold) s (ColdStarted s))) ∧
    (s.boot.kind = 2 → s.boot.step = 1 → s.boot.stopAt ≤ s.time →
      Does .warmResetInjectionStop s (fun u => u.mesh.paused = true ∧ u.boot.step = 2)) ∧
    (s.boot.kind = 2 → s.boot.step = 2 → s.boot.stopAt + 256 ≤ s.time →
      Does .warmResetInjectionStop s (fun u => u.boot.step = 4 ∧ u.mesh.flight = [] ∧ u.mb.running = false ∧
        ∀ f, f < 56 → isCompute f = true → (s.field f).running = true → (u.field f).pwr.state = .retain ∧ (u.field f).mem.profiles = (s.field f).mem.profiles)) ∧
    (s.hedge.up = true → s.chassis.board = true → s.cond.silent = none → s.lastBeat + 25000000 ≤ s.time →
      Does .conductorSilenceCheck s (fun u => u.cond.silent = some s.time ∧ ∃ act, Writes s u srcHedgerow 0x0F8F [s.time - s.lastBeat, act])) ∧
    (∀ t, s.cond.silent = some t → s.hedge.up = true → s.chassis.board = true → s.hedge.cfg.silenceReset = true → t + 100000000 ≤ s.time →
      s.lastBeat ≤ t →
      (s.warmOk = true → Does .conductorSilenceAction s WarmStarted) ∧
      (s.boot.complete = false → s.chassis.restarts < 3 →
        Does .conductorSilenceAction s (fun u => Unpowered u ∧ u.chassis.restarts = s.chassis.restarts + 1 ∧
          u.chassis.restartAt = some (s.hedgeNow + 50000000))) ∧
      (s.boot.complete = false → 3 ≤ s.chassis.restarts →
        Does .conductorSilenceAction s (fun u => Unpowered u ∧ u.chassis.heldOff = true)))

/-- Ends of stalls (R37, R38, R39, R44, R246, R249, R259). A stalled sfence completes once the writes of its scope have settled; the watchdog ends a stalled xput or local ssignal with STALL_TIMEOUT and turns a global swait into a cancel; the debugger ends a local swait with FORCED, alone or with every other stall of the tile. -/
def Obligations.StallsEnd : Prop :=
  ∀ (s : State) (t : TileId) (k : Stall), (s.tile t).core.stall = some k → (s.tile t).core.halted = false → (s.tile t).present = true → s.clocked t = true →
    (k.op = .sfence → k.wait = .cond → (∀ w ∈ (s.tile t).sync.writes, w.cls < k.a.mods % 4 → k.obj ≤ w.n) →
      Does (.stallConditionMet t .core) s (fun u =>
        Completed s u t k.a (if (s.tile t).sync.fenceFailed (k.a.mods % 4) then stPathLost else stOk) 0)) ∧
    (∀ lim, (s.tile t).watchdog = some lim → lim ≤ s.run t - k.since → k.wait = .answer →
      (k.op = .xput ∨ k.op = .ssignal → Does (.stallWatchdogExpiry t .core) s (fun u => Completed s u t k.a stStallTimeout 0)) ∧
      (k.op = .swait → k.obj < 65536 →
        Does (.stallWatchdogExpiry t .core) s (fun u => StallsIn u t .swait ∧
          Sent u (.fc (cellHost k.obj).1) (.sync 4 { index := (cellHost k.obj).2, amount := 0, srcGen := (s.tile t).gen, srcWafer := 0 })))) ∧
    (k.op = .swait → 65536 ≤ k.obj →
      Does (.syncDebugCore t) s (fun u => Completed s u t k.a stForced 0) ∧
      ((s.tile t).forage.out = [] → (∀ e, e < 8 → ((s.tile t).engine e).running = none ∧ ((s.tile t).engine e).deque = []) →
        (s.tile t).fold.held = [] → (s.tile t).fold.ctxs = [] →
        (∀ sl n i rest b, (s.tile t).fold.ready = (sl, n, i) :: rest → (s.tile t).fold.readySince = some b → (s.tile t).fault.valid = false →
          Does (.syncDebugAll t) s (fun u => (u.tile t).fold.ready = rest ∧ (u.tile t).fault.valid = true ∧ (u.tile t).fault.unit = 9)) ∧
        ((s.tile t).fold.ready = [] → Does (.syncDebugAll t) s (fun u => Completed s u t k.a stForced 0))))

/-- VC0 packets, orders and raw accesses at a tile (R62, R63, R64, R65, R115, R124, R158, R163, R167, R175, R425). An accepted VC0 write or raw write moves its bytes and is answered OK, one of an unmapped offset changes no tile and is answered ADDRESS_ERROR; a read is answered with the bytes, or with DATA_ERROR and the stored bits, or at a field controller with its words; a refused request changes nothing at the tile and is answered with what refuses it; a raw write to the register block changes no tile and is answered ADDRESS_ERROR; an admission starts the core at START_PC, and is BUSY outside QUARANTINE; a switch order arms its tick or is late; a load order answers what its load answers, or REFUSED; a sampling order is kept for its time, or starts at once; a reset order brings the tile to QUARANTINE with the next generation, its memories kept and every tag empty. An answer leaves the mesh. -/
def Obligations.OrdersAtTiles : Prop :=
  ∀ (s : State) (t : TileId) (h : Hdr), h.dst = .tile t →
    (s.vc0Refusal t h = none →
      (∀ off data, Arrives s h (.ctrlWrite off data) →
        (inMem off data.length = true → (s.tile t).mem.partialHit off data.length = none →
          Does (.ctrlWrite h off data) s (fun u => (u.tile t).get off data.length = data ∧
            SameBut (s.tile t).mem.cells (u.tile t).mem.cells off data.length ∧ Sent u h.src (.ctrlReply h.tag stOk []))) ∧
        (∀ w, inMem off data.length = true → (s.tile t).mem.partialHit off data.length = some w →
          Does (.ctrlWrite h off data) s (fun u => u.tile t = s.tile t ∧ Sent u h.src (.ctrlReply h.tag stDataError []))) ∧
        (inMem off data.length = false → inRegs off data.length = false →
          Does (.ctrlWrite h off data) s (fun u => u.tile t = s.tile t ∧ Sent u h.src (.ctrlReply h.tag stAddressError [])))) ∧
      (∀ off len, Arrives s h (.ctrlRead off len) →
        (inMem off len = true → (s.tile t).mem.hit off len = none →
          Does (.ctrlRead h off len) s (fun u => (u.tile t).mem.cells = (s.tile t).mem.cells ∧
            Sent u h.src (.ctrlReply h.tag stOk (((s.tile t).get off len).take (payloadMax 0 - 1))))) ∧
        (∀ w, inMem off len = true → (s.tile t).mem.hit off len = some w →
          Does (.ctrlRead h off len) s (fun u => u.tile t = s.tile t ∧
            Sent u h.src (.ctrlReply h.tag stDataError (((s.tile t).get off len).take (payloadMax 0 - 1)))))) ∧
      (Arrives s h .ctrlAdmit →
        ((s.tile t).st = .quarantine →
          Does (.ctrlOrderAdmit h) s (fun u => (u.tile t).st = .admitted ∧ (u.tile t).core.pc = (s.tile t).core.startPc ∧
            (u.tile t).core.halted = false ∧ (u.tile t).core.regs = (s.tile t).core.regs ∧ Sent u h.src (.ctrlReply h.tag stOk []))) ∧
        ((s.tile t).st ≠ .quarantine →
          Does (.ctrlOrderAdmit h) s (fun u => u.tile t = s.tile t ∧ Sent u h.src (.ctrlReply h.tag stBusy [])))) ∧
      (∀ tgt at_, Arrives s h (.ctrlSwitch tgt at_) →
        ((s.tile t).st = .admitted → s.time ≤ at_ →
          Does (.ctrlOrderSwitch h tgt at_) s (fun u => (u.tile t).fold.armed = some (tgt, at_) ∧ Sent u h.src (.ctrlReply h.tag stOk []))) ∧
        ((s.tile t).st = .admitted → at_ < s.time →
          Does (.ctrlOrderSwitch h tgt at_) s (fun u => (u.field (fieldOf t)).flt.switchLate = true ∧ (u.tile t).fold.armed = none ∧
            Writes s u (fieldOf t) 0x0783 [tileDetail t, at_, s.time])) ∧
        ((s.tile t).st ≠ .admitted →
          Does (.ctrlOrderSwitch h tgt at_) s (fun u => u.tile t = s.tile t ∧ Sent u h.src (.ctrlReply h.tag stBusy [])))) ∧
      (∀ slot ref purge, Arrives s h (.ctrlDload slot ref purge) →
        (∀ st n v, slot < 8 → (s.tile t).refOk (hrefOf ref) = true →
          (s.took { h := h, body := .ctrlDload slot ref purge }).dloadAt t slot (hrefOf ref) purge = .answer st n v →
          Does (.ctrlOrderDload h slot ref purge) s (fun u => u.tile t = v.tile t ∧ Sent u h.src (.ctrlReply h.tag st (natLe 4 n)))) ∧
        ((s.tile t).refOk (hrefOf ref) = false ∨ 8 ≤ slot →
          Does (.ctrlOrderDload h slot ref purge) s (fun u => u.tile t = s.tile t ∧ Sent u h.src (.ctrlReply h.tag stRefused [])))) ∧
      (∀ hd n at_, Arrives s h (.ctrlSample hd n at_) →
        ((s.tile t).fold.profOn = false → ((s.tile t).handle hd).valid = true → 6 ≤ n → n ≤ 16 →
          Does (.ctrlOrderSample h hd n at_) s (fun u => Sent u h.src (.ctrlReply h.tag stOk []) ∧
            (s.time < at_ → (u.tile t).fold.sampleAt = some (hd, n, at_)) ∧
            (at_ ≤ s.time → (u.tile t).fold.profOn = true ∧ (u.tile t).fold.profHandle = hd ∧ (u.tile t).fold.profLog = n ∧ (u.tile t).fold.profNext = 0))) ∧
        ((s.tile t).fold.profOn = true →
          Does (.ctrlOrderSample h hd n at_) s (fun u => u.tile t = s.tile t ∧ Sent u h.src (.ctrlReply h.tag stBusy []))))) ∧
    (∀ st, s.vc0Refusal t h = some st →
      (∀ off data, Arrives s h (.ctrlWrite off data) →
        Does (.ctrlWrite h off data) s (fun u => u.tile t = s.tile t ∧ Sent u h.src (.ctrlReply h.tag st []))) ∧
      (∀ off len, Arrives s h (.ctrlRead off len) →
        Does (.ctrlRead h off len) s (fun u => u.tile t = s.tile t ∧ Sent u h.src (.ctrlReply h.tag st []))) ∧
      (Arrives s h .ctrlAdmit → Does (.ctrlOrderAdmit h) s (fun u => u.tile t = s.tile t ∧ Sent u h.src (.ctrlReply h.tag st [])))) ∧
    (∀ (g : Hdr) f off len, g.dst = .fc f → vc0Source f g.src = true → Arrives s g (.ctrlRead off len) → off % 4 = 0 → len % 4 = 0 →
      Does (.ctrlRead g off len) s (fun u => u.fields = s.fields ∧
        Sent u g.src (.ctrlReply g.tag stOk ((((s.took { h := g, body := .ctrlRead off len }).fcWords f off (len / 4)).take (payloadMax 0 - 1)))))) ∧
    (∀ (g : Hdr) f off data, g.dst = .fc f → vc0Source f g.src = false → Arrives s g (.ctrlWrite off data) →
      Does (.ctrlWrite g off data) s (fun u => u.fields = s.fields ∧ Sent u g.src (.ctrlReply g.tag stPeerLost []))) ∧
    (∀ re st data, Arrives s h (.ctrlReply re st data) →
      Does (.ctrlReply h re st data) s (fun u => u = s.took { h := h, body := .ctrlReply re st data })) ∧
    (∀ off data, Arrives s h (.rawWrite off data) →
      (s.rawRefusal t h = none →
        (inMem off data.length = true → (s.tile t).mem.partialHit off data.length = none →
          Does (.rawWrite h off data) s (fun u => (u.tile t).get off data.length = data ∧
            SameBut (s.tile t).mem.cells (u.tile t).mem.cells off data.length ∧ Sent u h.src (.status (.raw h.tag) stOk))) ∧
        (inRegs off 1 = true →
          Does (.rawWrite h off data) s (fun u => u.tiles = s.tiles ∧ Sent u h.src (.status (.raw h.tag) stAddressError)))) ∧
      (∀ st, s.rawRefusal t h = some st →
        Does (.rawWrite h off data) s (fun u => u.tiles = s.tiles ∧ Sent u h.src (.status (.raw h.tag) st)))) ∧
    (∀ off len, Arrives s h (.rawRead off len) →
      (s.rawRefusal t h = none → inMem off len = true → (s.tile t).mem.hit off len = none →
        Does (.rawRead h off len) s (fun u => (u.tile t).mem.cells = (s.tile t).mem.cells ∧
          Sent u h.src (.reply (.raw h.tag) stOk (((s.tile t).get off len).take (payloadMax 2 - 1))))) ∧
      (∀ st, s.rawRefusal t h = some st →
        Does (.rawRead h off len) s (fun u => u.tiles = s.tiles ∧ Sent u h.src (.reply (.raw h.tag) st [])))) ∧
    ((s.tile t).inService = true → (s.tile t).gen < 65535 →
      Does (.tileResetOrder t) s (fun u => (u.tile t).st = .quarantine ∧ (u.tile t).gen = (s.tile t).gen + 1 ∧
        (u.tile t).mem.cells = (s.tile t).mem.cells ∧ (u.tile t).mem.full = [] ∧ (u.tile t).fault.valid = false ∧ (u.tile t).core.halted = true)) ∧
    ((s.tile t).inService = true → 65535 ≤ (s.tile t).gen →
      Does (.tileResetOrder t) s (fun u => (u.tile t).st = .hole ∧ (u.tile t).gen = (s.tile t).gen ∧ Writes s u (fieldOf t) 0x0D88 [tileDetail t]))

/-- Global cells at their host, local cells by register, and debugging of cells (R240, R241, R242, R243, R245, R247, R252, R253, R257, R258, R260, R261). At a host in service: a wait on a counting cell with a value and no earlier waiter takes one and is answered OK, one that must wait is recorded, and one that finds no record free is answered RETRY; a signal does to the cell what R242 says, and is answered unless posted; a read answers the value in three bytes; requests a host refuses change nothing and are answered; a cancel removes the record and answers CANCELLED, or OK where none stands; a wait refused with RETRY is sent again when due; a release refused with PEER_LOST returns its unit and is counted; register writes set cells, once where both words are written, and Hedgerow's debugger reads, lists, sets and releases. -/
def Obligations.CellRequestsAtTheirHost : Prop :=
  ∀ (s : State) (h : Hdr) (b : SyncBody) (f : Nat), h.dst = .fc f →
    (s.syncRefusal f b.index = none →
      (Arrives s h (.sync 0 b) →
        (((s.field f).cell b.index).takes = true → 0 < ((s.field f).cell b.index).value → (s.field f).waitersOn b.index = [] →
          Does (.syncWait h b) s (fun u => ((u.field f).cell b.index).value + 1 = ((s.field f).cell b.index).value ∧
            Sent u h.src (.status (.wait (cellNumber f b.index)) stOk))) ∧
        (((s.field f).cell b.index).type = 2 → ((s.field f).cell b.index).reached = true →
          Does (.syncWait h b) s (fun u => (u.field f).cell b.index = (s.field f).cell b.index ∧
            Sent u h.src (.status (.wait (cellNumber f b.index)) stOk))) ∧
        (((s.field f).cell b.index).wait ((s.field f).waitersOn b.index).length = none →
          ((s.field f).sync.waiters.length < waiterCap f →
            Does (.syncWait h b) s (fun u => (u.field f).sync.waiters =
              (s.field f).sync.waiters ++ [{ cell := b.index, tile := srcTile h.src, gen := b.srcGen, tag := h.tag }])) ∧
          (waiterCap f ≤ (s.field f).sync.waiters.length →
            Does (.syncWait h b) s (fun u => (u.field f).sync.waiters = (s.field f).sync.waiters ∧
              Sent u h.src (.status (.wait (cellNumber f b.index)) stRetry))))) ∧
      (Arrives s h (.sync 1 b) →
        Does (.syncSignal h b) s (fun u =>
          (u.field f).cell b.index = (((s.field f).cell b.index).signal (syncAmount b) ((s.field f).waitersOn b.index).length).1 ∧
          (((s.field f).cell b.index).type = 1 → (u.field f).waitersOn b.index = []) ∧
          Sent u h.src (.status (.signal (cellNumber f b.index) false) stOk))) ∧
      (Arrives s h (.sync 2 b) →
        Does (.syncPostedSignal h b) s (fun u =>
          (u.field f).cell b.index = (((s.field f).cell b.index).signal (syncAmount b) ((s.field f).waitersOn b.index).length).1 ∧
          (((s.field f).cell b.index).type = 1 → (u.field f).waitersOn b.index = []))) ∧
      (Arrives s h (.sync 3 b) → Does (.syncRead h b) s (fun u => u.fields = s.fields ∧
        Sent u h.src (.reply (.read (cellNumber f b.index)) stOk (natLe 3 ((s.field f).cell b.index).value))))) ∧
    (∀ st, s.syncRefusal f b.index = some st →
      (Arrives s h (.sync 0 b) → Does (.syncWait h b) s (fun u => u.fields = s.fields ∧ Sent u h.src (.status (.wait (cellNumber f b.index)) st))) ∧
      (Arrives s h (.sync 1 b) → Does (.syncSignal h b) s (fun u => u.fields = s.fields ∧ Sent u h.src (.status (.signal (cellNumber f b.index) false) st))) ∧
      (Arrives s h (.sync 2 b) → Does (.syncPostedSignal h b) s (fun u => u.fields = s.fields ∧ Sent u h.src (.status (.signal (cellNumber f b.index) true) st))) ∧
      (Arrives s h (.sync 3 b) → Does (.syncRead h b) s (fun u => u.fields = s.fields ∧ Sent u h.src (.reply (.read (cellNumber f b.index)) st [])))) ∧
    (Arrives s h (.sync 4 b) → Does (.syncCancel h b) s (fun u =>
      (∀ w ∈ (u.field f).sync.waiters, ¬(w.cell = b.index ∧ w.tile = srcTile h.src ∧ w.gen = b.srcGen)) ∧
      Sent u h.src (.status (.cancel (cellNumber f b.index))
        (if ∃ w ∈ (s.field f).sync.waiters, w.cell = b.index ∧ w.tile = srcTile h.src ∧ w.gen = b.srcGen then stCancelled else stOk)))) ∧
    (∀ t due c, (s.tile t).sync.resend = some due → (s.tile t).sync.pend = some (0, c) → due ≤ s.cycles t → s.clocked t = true →
      Does (.syncWaitResend t) s (fun u =>
        Sent u (.fc (cellHost c).1) (.sync 0 { index := (cellHost c).2, amount := 0, srcGen := (s.tile t).gen, srcWafer := 0 }))) ∧
    (∀ n t g, ((s.field f).cell (cellHost n).2).takes = true → (s.field f).waitersOn (cellHost n).2 = [] →
      ((s.field f).cell (cellHost n).2).value < cellMax →
      h.src = .tile t → Arrives s h (.status (.release n g) stPeerLost) →
      (∃ x ∈ s.mesh.flight, x.pkt = { h := h, body := .status (.release n g) stPeerLost }) →
      (∀ x ∈ s.mesh.flight, ∀ k, x.pkt.h.dst = .fc f → x.pkt.h.src = .tile t → x.pkt.body = .status (.release n k) stPeerLost →
        x.pkt = { h := h, body := .status (.release n g) stPeerLost }) →
      Does (.staleReleaseRefused f n t) s (fun u => ((u.field f).cell (cellHost n).2).value = ((s.field f).cell (cellHost n).2).value + 1 ∧
        (u.field f).sync.stale = (s.field f).sync.stale + 1 ∧ Writes s u f 0x0686 [n, tileDetail t, g])) ∧
    (∀ t c val, c < 16 →
      ((s.tile t).sync.turns.find c = none →
        ((s.tile t).waitsLocal c = false ∨ bits val 31 30 = 1 →
          Does (.syncCellWrite t .core c false val) s (fun u =>
            ((u.tile t).cell c).type = bits val 31 30 ∧ ((u.tile t).cell c).value = bits val 23 0 ∧ ((u.tile t).cell c).target = ((s.tile t).cell c).target)) ∧
        (∀ k, (s.tile t).awaiting .swait (localObj c) = some k → bits val 31 30 = 0 → 0 < bits val 23 0 →
          Does (.syncCellWrite t .core c false val) s (fun u => ((u.tile t).cell c).value + 1 = bits val 23 0 ∧ Completed s u t k.a stOk 0))) ∧
      Does (.syncCellWrite t .fc c true val) s (fun u => ((u.tile t).cell c).target = bits val 23 0)) ∧
    (∀ i v0 w1 w, f < 56 → i < cellsOf f → (w = .conductor ∨ w = .hedgerow) → bits v0 31 30 = 1 →
      Does (.syncRecWrite f i (some v0) w1 w) s (fun u => ((u.field f).cell i).type = 1 ∧ ((u.field f).cell i).value = bits v0 23 0 ∧
        (∀ v1, w1 = some v1 → ((u.field f).cell i).target = bits v1 23 0) ∧
        Writes s u f 0x0685 [cellNumber f i, ((s.field f).cell i).type, 1, ((s.field f).cell i).value, bits v0 23 0, if w = .hedgerow then 64 else 0])) ∧
    (∀ n, n < 65536 → (cellHost n).1 = f → s.mayOrder = true → s.mb.running = false → s.cellsUp f = true →
      (∀ v tg, Does (.hedgerowSyncDebug n (.set 1 v tg)) s (fun u => ((u.field f).cell (cellHost n).2).type = 1 ∧
        ((u.field f).cell (cellHost n).2).value = v % 2 ^ 24 ∧ ((u.field f).cell (cellHost n).2).target = tg % 2 ^ 24)) ∧
      Does (.hedgerowSyncDebug n .read) s (fun u => u.fields = s.fields ∧ u.hedge.syncReply.take 3 =
        [((s.field f).cell (cellHost n).2).type, ((s.field f).cell (cellHost n).2).value, ((s.field f).cell (cellHost n).2).target]) ∧
      Does (.hedgerowSyncDebug n .list) s (fun u => u.fields = s.fields ∧
        u.hedge.syncReply.length = 3 * ((s.field f).waitersOn (cellHost n).2).length) ∧
      Does (.hedgerowSyncDebug n (.force none)) s (fun u => (u.field f).waitersOn (cellHost n).2 = [] ∧
        ∀ w ∈ (s.field f).waitersOn (cellHost n).2, Sent u (.tile w.tile) (.status (.wait (cellNumber f (cellHost n).2)) stForced)))

/-- Held window requests, queues enabled and disabled, and resends (R118, R133, R138, R140, R141, R142, R211, R227, R232, R233, R284). The write at the head of a window lands once its slots are ready and no stalled operation that stands before it waits on them, a read there is answered with the bytes, the head is refused after the watchdog limit, and every held request is refused at the deadline, which closes the window; a remote request due again is sent again; the fold at the head of the fold engine ends and its slot counts, or meets an uncorrectable word; an enable that meets the requirements opens the queue under a new incarnation and another only sets cfg_err; a disable makes the queue IDLE; an OPEN queue keeps its configuration. -/
def Obligations.WindowsAndQueuesServe : Prop :=
  ∀ (s : State) (t : TileId),
    (∀ w r rest, ((s.tile t).window w).held = r :: rest → r.body.window = w → (s.tile t).windowReady r.body r.data.isSome = true →
      (s.tile t).waitsPass ((s.tile t).windowWaits w) = true →
      (∀ bs, r.data = some bs → (s.tile t).mem.partialHit ((s.tile t).windowAt r.body) r.body.length = none →
        Does (.windowHeldServe t w) s (fun u => ((u.tile t).window w).held = rest ∧
          (u.tile t).get ((s.tile t).windowAt r.body) r.body.length = bytesAt bs 0 r.body.length ∧
          SameBut (s.tile t).mem.cells (u.tile t).mem.cells ((s.tile t).windowAt r.body) r.body.length ∧
          ((u.tile t).window w).done = ((s.tile t).window w).done + 1 ∧ Sent u r.h.src (.status .xput stOk))) ∧
      (r.data = none → (s.tile t).mem.hit ((s.tile t).windowAt r.body) r.body.length = none →
        Does (.windowHeldServe t w) s (fun u => ((u.tile t).window w).held = rest ∧
          Sent u r.h.src (.reply .xget stOk ((s.tile t).get ((s.tile t).windowAt r.body) r.body.length))))) ∧
    (∀ w r rest lim, ((s.tile t).window w).held = r :: rest → r.body.window = w → (s.tile t).watchdog = some lim → lim ≤ s.run t - r.since →
      Does (.windowHoldTimeout t w) s (fun u => ((u.tile t).window w).held = rest ∧ (u.tile t).mem = (s.tile t).mem ∧
        Sent u r.h.src (if r.data.isSome then .status .xput stStallTimeout else .reply .xget stStallTimeout []))) ∧
    (∀ w, ((s.tile t).window w).state = 2 → ((s.tile t).window w).deadline ≤ s.time →
      Does (.windowDeadline t w) s (fun u => ((u.tile t).window w).state = 0 ∧ ((u.tile t).window w).held = [] ∧
        ((u.tile t).window w).drop = ((s.tile t).window w).drop + BitVec.ofNat 32 ((s.tile t).window w).held.length ∧
        ∀ r ∈ ((s.tile t).window w).held,
          Sent u r.h.src (if r.data.isSome then .status .xput stWindowClosed else .reply .xget stWindowClosed []))) ∧
    (∀ r d, (s.tile t).sync.heldRemote = [r] → r.due = some d → d ≤ s.cycles t → (s.tile t).present = true → s.clocked t = true →
      Does (.remoteRetryResend t) s (fun u => Sent u r.h.dst r.body ∧ (u.tile t).sync.heldRemote = [{ r with due := none }])) ∧
    (∀ q slot rest, (s.tile t).q.folds = (q, slot) :: rest →
      ((s.tile t).foldUe q (((s.tile t).handle ((s.tile t).queue q).handle).slotAt slot) = none →
        Does (.combineFoldDone t q slot) s (fun u => (u.tile t).q.folds = rest ∧
          ((u.tile t).queue q).doneSlots = ((s.tile t).queue q).doneSlots ++ [slot])) ∧
      (∀ w, (s.tile t).foldUe q (((s.tile t).handle ((s.tile t).queue q).handle).slotAt slot) = some w →
        Does (.combineFoldDone t q slot) s (fun u => (u.tile t).q.folds = rest ∧ (u.tile t).fault.valid = true ∧
          ((u.tile t).queue q).doneSlots = ((s.tile t).queue q).doneSlots))) ∧
    (∀ q w val, q < 8 → w = .core ∨ w = .fc →
      (((s.tile t).queue q).state ≠ 1 →
        ((s.tile t).enableOk q (masked (val ||| 0x80000000) 0xFFFF3FFF) = true →
          Does (.rqEnable t w q val) s (fun u => ((u.tile t).queue q).state = 1 ∧ ((u.tile t).queue q).cfgErr = false ∧
            ((u.tile t).queue q).qinc = (((s.tile t).queue q).qinc + 1) % 256 ∧ ((u.tile t).queue q).entries = [])) ∧
        ((s.tile t).enableOk q (masked (val ||| 0x80000000) 0xFFFF3FFF) = false →
          Does (.rqEnable t w q val) s (fun u => ((u.tile t).queue q).state = ((s.tile t).queue q).state ∧ ((u.tile t).queue q).cfgErr = true)) ∧
        Does (.rqDisable t w q val) s (fun u => ((u.tile t).queue q).state = 0)) ∧
      (((s.tile t).queue q).state = 1 →
        Does (.rqEnable t w q val) s (fun u => u.tile t = s.tile t) ∧ Does (.rqDisable t w q val) s (fun u => u.tile t = s.tile t)))

/-- Tokens, firings, schedules, switches and sampling (R65, R144, R145, R148, R150, R151, R152, R153, R159, R161, R164, R167). A token for an epoch no slot holds is kept unbound, one that fits lands its payload, and both are answered OK; one that the window or a full slot keeps out is answered RETRY, one that does not fit REFUSED, one of another generation PEER_LOST; a credit returns; an orphan is discarded with its credit; a refused token goes again when due; a ready firing issues, one whose inputs are void counts, a merge with two real inputs is a fault; its emission spends a credit and sends the token, void where the firing is, or stalls without a credit; its completion frees its context and returns its inputs' credits; an armed source enters the ready list; the schedule moves and an armed switch acts at its tick; a sample is written, or dropped and counted; an arming adds. -/
def Obligations.TokensAndFirings : Prop :=
  ∀ (s : State) (t : TileId), (s.tile t).present = true → s.clocked t = true → (s.tile t).frozen = false →
    (∀ h b, h.dst = .tile t → Arrives s h (.token b) →
      ((s.tile t).takes h.dstGen false = false → Does (.token h b) s (fun u => Sent u h.src (.status (.token b) stPeerLost))) ∧
      ((s.tile t).takes h.dstGen false = true →
        ((s.tile t).slotOfEpoch b.epoch = none → (s.tile t).fold.unbound < 64 → (s.tile t).fold.store.length < 512 →
          Does (.token h b) s (fun u => (u.tile t).fold.store = (s.tile t).fold.store ++ [{ body := b, slot := none, since := s.run t }] ∧
            Sent u h.src (.status (.token b) stOk))) ∧
        (∀ sl im, (s.tile t).slotOfEpoch b.epoch = some (sl, im) →
          (tokenFits im b = true →
            iterAhead b.iteration (nth ((s.tile t).slot sl).nodes b.node ({} : NodeSt)).oldest < (im.node b.node).window →
            (s.tile t).fold.store.length < 512 →
            (((s.tile t).landingOf im b.node b.port b.iteration b.part).2.2 = false ∨
              (s.tile t).mem.isFull ((s.tile t).landingOf im b.node b.port b.iteration b.part).1 = false ∨ b.void = true) →
            Does (.token h b) s (fun u => (u.tile t).fold.store = (s.tile t).fold.store ++ [{ body := b, slot := some sl, since := s.run t }] ∧
              (b.void = false →
                (u.tile t).get ((s.tile t).landingOf im b.node b.port b.iteration b.part).1 (32 * b.len) = bytesAt b.payload 0 (32 * b.len)) ∧
              Sent u h.src (.status (.token b) stOk))) ∧
          (tokenFits im b = true →
            (im.node b.node).window ≤ iterAhead b.iteration (nth ((s.tile t).slot sl).nodes b.node ({} : NodeSt)).oldest →
            Does (.token h b) s (fun u => (u.tile t).fold.store = (s.tile t).fold.store ∧ (u.tile t).fold.refused = (s.tile t).fold.refused + 1 ∧
              Sent u h.src (.status (.token b) stRetry))) ∧
          (tokenFits im b = false →
            Does (.token h b) s (fun u => (u.tile t).fold.store = (s.tile t).fold.store ∧ Sent u (.tile b.src) (.tokenCredit b.slot b.emit) ∧
              Sent u h.src (.status (.token b) stRefused) ∧
              Writes s u (fieldOf t) 0x0781 [tileDetail t, tileDetail b.src, b.emit]))))) ∧
    (∀ h slot emit, h.dst = .tile t → Arrives s h (.tokenCredit slot emit) →
      (h.dstGen = (s.tile t).gen → emit < ((s.tile t).slot slot).credits.length →
        Does (.tokenCredit h slot emit) s (fun u =>
          nth ((u.tile t).slot slot).credits emit 0 = nth ((s.tile t).slot slot).credits emit 0 + 1)) ∧
      (h.dstGen ≠ (s.tile t).gen → Does (.tokenCredit h slot emit) s (fun u => u.tile t = s.tile t))) ∧
    (∀ i k lim, (s.tile t).fold.store[i]? = some k → k.slot = none → (s.tile t).slotOfEpoch k.body.epoch = none →
      (s.tile t).watchdog = some lim → lim ≤ s.run t - k.since →
      Does (.tokenOrphan t i) s (fun u => (u.tile t).fold.store = (s.tile t).fold.store.eraseIdx i ∧
        (u.tile t).fold.orphan = (s.tile t).fold.orphan + 1 ∧ Sent u (.tile k.body.src) (.tokenCredit k.body.slot k.body.emit) ∧
        Writes s u (fieldOf t) 0x0782 [tileDetail t, k.body.epoch, k.body.iteration])) ∧
    (∀ i k, (s.tile t).fold.held[i]? = some k → k.sent = false → k.due ≤ s.cycles t →
      Does (.tokenRetryResend t i) s (fun u => Sent u k.h.dst (.token k.body) ∧ (u.tile t).fold.retry = (s.tile t).fold.retry + 1)) ∧
    (∀ sl node i rest im, (s.tile t).fold.ctxs = [] → (s.tile t).fold.ready = (sl, node, i) :: rest → rest.length ≤ 32 →
      ((s.tile t).slot sl).image = some im →
      ((s.tile t).inputsFull im sl node i = true →
        ((s.tile t).fireKind im sl node i = .acts → (im.node node).actCount = 0 →
          Does (.firingIssue t) s (fun u => (u.tile t).fold.ready.take rest.length = rest ∧ (u.tile t).fold.readySince = none ∧
            ∃ x, (u.tile t).fold.ctxs.find 0 = some x ∧ x.slot = sl ∧ x.node = node ∧ x.iter = i ∧ x.phase = .emit 0 0 ∧ x.isVoid = false)) ∧
        ((s.tile t).fireKind im sl node i = .void →
          Does (.firingIssue t) s (fun u => (u.tile t).fold.voids = (s.tile t).fold.voids + 1 ∧
            ∃ x, (u.tile t).fold.ctxs.find 0 = some x ∧ x.slot = sl ∧ x.node = node ∧ x.iter = i ∧ x.phase = .emit 0 0 ∧ x.isVoid = true)) ∧
        (∀ n, (s.tile t).fireKind im sl node i = .choose n →
          Does (.firingIssue t) s (fun u => ∃ x, (u.tile t).fold.ctxs.find 0 = some x ∧ x.node = node ∧ x.iter = i ∧ x.phase = .emit 0 0 ∧ x.choose = n)) ∧
        ((s.tile t).fireKind im sl node i = .conflict →
          Does (.firingIssue t) s (fun u => (u.tile t).fault.valid = true ∧ (u.tile t).fault.code = 0x070B ∧ (u.tile t).fault.unit = 9 ∧
            (u.tile t).fold.ctxs = []))) ∧
      ((s.tile t).inputsFull im sl node i = false →
        Does (.firingIssue t) s (fun u => (u.tile t).fold.ready = (s.tile t).fold.ready ∧
          (u.tile t).fold.readySince = some ((s.tile t).fold.readySince.getD (s.run t))))) ∧
    (∀ c x e j im em, (s.tile t).fold.ctxs.find c = some x → x.phase = .emit e j → ((s.tile t).slot x.slot).image = some im →
      (im.node x.node).kind = 0 ∨ (im.node x.node).kind = 3 → e < (im.node x.node).outCount → (s.tile t).holdsFor x im = false →
      nth im.emits ((im.node x.node).outFirst + e) default = em → (im.node x.node).outFirst + e < ((s.tile t).slot x.slot).credits.length →
      ((s.tile t).sync.writes.length < 65535 → 0 < nth ((s.tile t).slot x.slot).credits ((im.node x.node).outFirst + e) 0 →
        (x.isVoid = false → ((s.tile t).handle em.srcHandle).valid = true → em.srcDepth ≠ 0 →
          (((s.tile t).handle em.srcHandle).tagged = false ∨ em.len = 0 ∨
            (s.tile t).mem.isFull (((s.tile t).handle em.srcHandle).slotAt (em.srcBase + (x.iter * em.p + j) % em.srcDepth)) = true) →
          (s.tile t).mem.hit (((s.tile t).handle em.srcHandle).slotAt (em.srcBase + (x.iter * em.p + j) % em.srcDepth)) (32 * em.len) = none →
          Does (.tokenEmit t c) s (fun u =>
            nth ((u.tile t).slot x.slot).credits ((im.node x.node).outFirst + e) 0 + 1 =
              nth ((s.tile t).slot x.slot).credits ((im.node x.node).outFirst + e) 0 ∧
            ∃ b, Sent u (.tile em.target) (.token b) ∧ b.iteration = (x.iter * em.p + j) / em.c % iterMod ∧ b.part = (x.iter * em.p + j) % em.c ∧
              b.epoch = em.epoch ∧ b.node = em.node ∧ b.port = em.port ∧ b.void = false ∧ b.len = em.len ∧ b.src = t ∧ b.srcGen = (s.tile t).gen ∧
              b.payload = (s.tile t).get (((s.tile t).handle em.srcHandle).slotAt (em.srcBase + (x.iter * em.p + j) % em.srcDepth)) (32 * em.len))) ∧
        (x.isVoid = true →
          Does (.tokenEmit t c) s (fun u =>
            nth ((u.tile t).slot x.slot).credits ((im.node x.node).outFirst + e) 0 + 1 =
              nth ((s.tile t).slot x.slot).credits ((im.node x.node).outFirst + e) 0 ∧
            ∃ b, Sent u (.tile em.target) (.token b) ∧ b.iteration = (x.iter * em.p + j) / em.c % iterMod ∧ b.part = (x.iter * em.p + j) % em.c ∧
              b.void = true ∧ b.len = 0 ∧ b.payload = []))) ∧
      (nth ((s.tile t).slot x.slot).credits ((im.node x.node).outFirst + e) 0 = 0 →
        Does (.tokenEmit t c) s (fun u => (u.tile t).fold.ctxs.find c = some { x with since := some (x.since.getD (s.run t)) }))) ∧
    (∀ c x im, (s.tile t).fold.ctxs.find c = some x → x.phase = .completing → ((s.tile t).slot x.slot).image = some im →
      (s.tile t).holdsFor x im = false →
      Does (.firingComplete t c) s (fun u => (u.tile t).fold.ctxs.find c = none ∧
        ((u.tile t).slot x.slot).firings = ((s.tile t).slot x.slot).firings + 1 ∧
        ∀ k ∈ (s.tile t).fold.tokensOf x.slot x.node x.iter, Sent u (.tile k.body.src) (.tokenCredit k.body.slot k.body.emit))) ∧
    (∀ slot node im, ((s.tile t).slot slot).image = some im → (im.node node).kind = 3 → node < im.nodes.length → 0 < ((s.tile t).slot slot).armed →
      (s.tile t).fold.active = slot → (s.tile t).fold.ready.length < 32 →
      (nth ((s.tile t).slot slot).nodes node ({} : NodeSt)).openCount < (im.node node).window →
      Does (.sourceFire t slot node) s (fun u => ((u.tile t).slot slot).armed + 1 = ((s.tile t).slot slot).armed ∧
        (u.tile t).fold.ready = (s.tile t).fold.ready ++ [(slot, node, (nth ((s.tile t).slot slot).nodes node ({} : NodeSt)).next)])) ∧
    (∀ n, (s.tile t).fold.schedEn = true → (s.tile t).fold.schedLen ≠ 0 → (s.tile t).nextEntry (s.tile t).fold.schedPos = some n →
      (((s.tile t).fold.entry (s.tile t).fold.schedPos).2 ≠ 0 ∧
          (s.tile t).fold.dwellFrom + ((s.tile t).fold.entry (s.tile t).fold.schedPos).2 ≤ s.cycles t ∨
        ((s.tile t).fold.entry (s.tile t).fold.schedPos).2 = 0 ∧ (s.tile t).slotBusy ((s.tile t).fold.entry (s.tile t).fold.schedPos).1 = false) →
      Does (.foldScheduleMove t) s (fun u => (u.tile t).fold.schedPos = n ∧ (u.tile t).fold.active = ((s.tile t).fold.entry n).1 ∧
        (u.tile t).fold.dwellFrom = s.cycles t)) ∧
    (∀ tgt at_, (s.tile t).fold.armed = some (tgt, at_) → at_ ≤ s.time →
      Does (.foldSwitchAtT t) s (fun u => (u.tile t).fold.armed = none ∧
        (∀ sl, tgt = .slot sl → (u.tile t).fold.active = sl ∧ (u.tile t).fold.schedEn = false) ∧
        (∀ e, tgt = .entry e → (u.tile t).fold.schedPos = e ∧ (u.tile t).fold.active = ((s.tile t).fold.entry e).1 ∧ (u.tile t).fold.schedEn = true))) ∧
    ((s.tile t).fold.profOn = true → (s.tile t).fold.sampleAt = none → (s.tile t).fold.profDue ≤ s.cycles t →
      Does (.profileSample t true) s (fun u =>
        (u.tile t).get (((s.tile t).handle (s.tile t).fold.profHandle).slotAt 0 + 32 * (s.tile t).fold.profNext) 32 = (s.tile t).profileRecord (s.cycles t) ∧
        (u.tile t).fold.profDue = (s.tile t).fold.profDue + 2 ^ (s.tile t).fold.profLog) ∧
      Does (.profileSample t false) s (fun u => (u.tile t).fold.profLost = (s.tile t).fold.profLost + 1 ∧ (u.tile t).fold.profLostBit = true ∧
        (u.tile t).mem = (s.tile t).mem)) ∧
    (∀ w slot n, slot < 8 → w = .core ∨ w = .fc →
      Does (.slotArm t w slot n) s (fun u => ((u.tile t).slot slot).armed = satAdd (iterMod - 1) ((s.tile t).slot slot).armed (n % iterMod)))

/-- Refresh, scrub, map changes, settlement, multicast and routing (R19, R62, R117, R120, R121, R122, R187, R193, R204, R207, R250, R253). A due row is refreshed; patrol scrub reads the next row, corrects and counts an error in that row, leaves one elsewhere to its own turn, and keeps an uncorrectable word, host memory counting its own; a hot sensor derates and cool ones restore; a map is published for a step boundary, and a change due then joins a map already published; injection pauses at it, and the switch loads it 256 ticks later and shadows the tiles it covers; old writes settle at their ticks; the distance table follows the map; what waits on a failed field's cells ends with CELL_LOST, once for each failure; a multicast writes each tile of its rectangle that it reaches and none it does not; the packet that a router grants moves on to the next tile, leaves at its endpoint, or takes its neighbour's link, one refused is reported, one that waits stays, and with no furrow in its way one moves a hop east. -/
def Obligations.MemoryUpkeepAndMaps : Prop :=
  ∀ s : State,
    (∀ t row, row < 256 → (s.field (fieldOf t)).memoryUp = true → (s.field (fieldOf t)).profiling = false →
      (s.field (fieldOf t)).mem.refreshed.getD (localIdx t * 256 + row) 0 + (s.field (fieldOf t)).rowInterval t row ≤ s.time →
      Does (.rowRefresh t row) s (fun u => (u.field (fieldOf t)).mem.refreshed.getD (localIdx t * 256 + row) 0 = s.time)) ∧
    (∀ f, isCompute f = true → (s.field f).memoryUp = true → (s.field f).profiling = false →
      (s.field f).mem.scrubAt + ((s.field f).mem.scrubStep + 1) * 65536 ≤ s.time →
      Does (.patrolScrub f []) s (fun u => (u.field f).mem.scrubRow = ((s.field f).mem.scrubRow + 1) % 256 ∧ (u.field f).mem.scrubAt = s.time) ∧
      ∀ e, fieldOf e.tile = f → e.tile.x < 800 → inTm e.off 1 = true →
        Does (.patrolScrub f [e]) s (fun u =>
          (e.uncorrectable = true → e.off / 8 * 8 ∈ (u.tile e.tile).mem.ue) ∧
          (e.uncorrectable = false → e.off / 8 * 8 ∉ (s.tile e.tile).mem.ue → e.off / 8 * 8 ∉ (s.tile e.tile).mem.ce →
            (inRow (s.field f).mem.scrubRow (e.off / 8 * 8) = false → e.off / 8 * 8 ∈ (u.tile e.tile).mem.ce) ∧
            (inRow (s.field f).mem.scrubRow (e.off / 8 * 8) = true →
              e.off / 8 * 8 ∉ (u.tile e.tile).mem.ce ∧ e.off / 8 * 8 ∉ (u.tile e.tile).mem.ue ∧
              ((∀ t, fieldOf t = f → (s.tile t).mem.ce.filter (inRow (s.field f).mem.scrubRow) = []) →
                (s.field f).mem.ceTm ≠ 0xFFFFFFFF → (u.field f).mem.ceTm = (s.field f).mem.ceTm + 1))))) ∧
    (∀ f e, isKeep f = true → (s.field f).memoryUp = true → fieldOf e.tile = f → localIdx e.tile < 4096 → e.off < 2 ^ 20 →
      Does (.patrolScrub f [e]) s (fun u =>
        (u.host (keepIdx f)).memUe = (if e.uncorrectable then satAdd 0xFFFFFFFF (s.host (keepIdx f)).memUe 1 else (s.host (keepIdx f)).memUe) ∧
        (u.host (keepIdx f)).memCe = (if e.uncorrectable then (s.host (keepIdx f)).memCe else satAdd 0xFFFFFFFF (s.host (keepIdx f)).memCe 1))) ∧
    (∀ f temp, (s.field f).mem.derateAt < temp → Does (.refreshDerate f temp) s (fun u => (u.field f).mem.derated = true)) ∧
    (∀ f temps, temps ≠ [] → (∀ x ∈ temps, x ≤ (s.field f).mem.derateAt - 5) →
      Does (.refreshRestore f temps) s (fun u => (u.field f).mem.derated = false)) ∧
    (∀ at_, s.mb.running = true → at_ % 256 = 0 → s.time + 256 ≤ at_ → s.mesh.paused = false →
      (s.mesh.next = none →
        Does (.mapPublish at_) s (fun u => ∃ m, u.mesh.next = some m ∧ m.effective = at_ ∧ m.seq = nextSeq s.mesh.map.seq ∧
          (partitioner s.buildFurrows = none → m.furrows = s.buildFurrows))) ∧
      (∀ m, s.mesh.next = some m → m.effective = at_ →
        Does (.mapPublish at_) s (fun u => ∃ n, u.mesh.next = some n ∧ n.effective = at_ ∧ n.seq = m.seq ∧
          (partitioner s.buildFurrows = none → n.furrows = s.buildFurrows)))) ∧
    (∀ m, s.mesh.next = some m →
      (m.effective ≤ s.time → s.mesh.paused = false → Does .mapInjectionPause s (fun u => u.mesh.paused = true)) ∧
      (s.mesh.paused = true → m.effective + 256 ≤ s.time →
        Does .mapSwitch s (fun u => u.mesh.map = m ∧ u.mesh.next = none ∧ u.mesh.paused = false ∧ u.mesh.distDue = true ∧
          ∀ t ∈ s.tileList, (s.tile t).present = true → s.furrowKind (fieldOf t) = none → (∃ r ∈ m.furrows, r.covers t = true) →
            (u.tile t).st = .hole))) ∧
    (∀ at_ t, s.mesh.settleAt = some at_ → at_ + 512 ≤ s.time → t ∈ s.tileList →
      Does .fenceSettleLocal s (fun u => ∀ w ∈ (u.tile t).sync.writes, ¬(w.old = true ∧ w.cls < 2))) ∧
    (∀ at_ f t, s.mesh.settleAt = some at_ → at_ + 512 + (s.ports.getD f {}).remoteTimeout ≤ s.time → t ∈ s.tilesOf f →
      Does (.fenceSettleRemote f) s (fun u => ∀ w ∈ (u.tile t).sync.writes, ¬(w.old = true ∧ w.cls = 2))) ∧
    (s.mesh.distDue = true → s.mb.running = true → Does .distTablePublish s (fun u => u.mesh.distMap = s.mesh.map ∧ u.mesh.distDue = false)) ∧
    (∀ f, isCompute f = true → f ∈ s.cond.sweeps → s.mb.running = true →
      Does (.cellLostSweep f) s (fun u => f ∉ u.cond.sweeps ∧
        (∃ n, Writes s u f 0x0681 [f, (s.field f).pwr.cause, n]) ∧
        ∀ t k, t ∈ s.tileList → (s.tile t).awaitsField f = true → (s.tile t).core.stall = some k → Completed s u t k.a stCellLost 0)) ∧
    (∀ r off data t, t ∈ s.tileList → Sys2Proof.Machine.Rect.has r t = true → (s.tile t).present = true → s.clocked t = true → data.length ≤ multicastMax →
      (s.mcastStop (s.place .conductor) t = some none → inMem off data.length = true → (s.tile t).mem.partialHit off data.length = none →
        Does (.multicast r off data) s (fun u => (u.tile t).get off data.length = data ∧
          SameBut (s.tile t).mem.cells (u.tile t).mem.cells off data.length)) ∧
      (∀ q, s.mcastStop (s.place .conductor) t = some (some q) → Does (.multicast r off data) s (fun u => u.tile t = s.tile t))) ∧
    (∀ i x merge stall depth, s.mesh.flight[i]? = some x → s.laneHead i x = true →
      (∀ p cls det v near, s.moveOf x = .hop p cls det → s.granted x.at_ (dirTo x.at_ p) = some (i, v, near) → (stall = 0 ∨ fieldOf p = fieldOf x.at_) →
        (merge = false ∨ (s.field (fieldOf x.at_)).mesh.mergeEn = false) →
        Does (.routePacket i merge stall depth) s (fun u => ∃ y, u.mesh.flight[i]? = some y ∧ y.at_ = p ∧ y.pkt = x.pkt ∧ y.cls = cls ∧ y.det = det ∧ y.fresh = false)) ∧
      (∀ v near, s.moveOf x = .eject → s.granted x.at_ 4 = some (i, v, near) →
        Does (.routePacket i merge stall depth) s (fun u => ∃ y, u.mesh.flight[i]? = some y ∧ y.at_ = x.at_ ∧ y.pkt = x.pkt ∧ y.landed = true)) ∧
      (s.moveOf x = .link → (stall = 0 ∨ fieldOf x.aim = fieldOf x.at_) →
        Does (.routePacket i merge stall depth) s (fun u => ∃ y, u.mesh.flight[i]? = some y ∧ y.at_ = x.aim ∧ y.pkt = x.pkt ∧ y.landed = true)) ∧
      (s.moveOf x = .refuse →
        Does (.routePacket i merge stall depth) s (fun u =>
          Writes s u (fieldOf x.at_) 0x0881 [tileDetail x.at_, tileDetail x.aim, Sys2Proof.Machine.Body.kind x.pkt.body])) ∧
      (s.moveOf x = .wait → Does (.routePacket i merge stall depth) s (fun u => u = s)) ∧
      (∀ v near, x.fresh = false → x.landed = false → x.det = none → x.cls = 0 → x.pkt.h.dst = .tile x.aim → onArray x.aim = true → x.at_.x < x.aim.x →
        onArray ⟨x.at_.x + 1, x.at_.y⟩ = true → fieldOf ⟨x.at_.x + 1, x.at_.y⟩ = fieldOf x.at_ → (s.field (fieldOf x.at_)).running = true →
        s.mesh.map.furrows = [] → (s.router x.at_).deadE = false → s.granted x.at_ 0 = some (i, v, near) →
        Does (.routePacket i false stall depth) s (fun u => ∃ y, u.mesh.flight[i]? = some y ∧ y.at_ = ⟨x.at_.x + 1, x.at_.y⟩ ∧ y.pkt = x.pkt ∧ y.cls = 0)))

/-- Remote requests, contributions and answers at a tile (R44, R65, R92, R137, R138, R140, R141, R142, R230, R232, R243, R245). A remote write that passes the window's checks lands and is answered OK, a read is answered with the bytes, one whose slots are not ready is held, or refused where four are, one that fails is refused by its order, and one of another generation is answered PEER_LOST; a contribution an unordered queue can take is added, counted and answered OK, one for no open connection is answered CLOSED, and one of another generation PEER_LOST; the answer to a global read or wait completes the instruction that waits for it, and RETRY holds the wait for its resend. -/
def Obligations.AnswersAndContributionsArrive : Prop :=
  ∀ (s : State) (t : TileId) (h : Hdr),
    (∀ b data, b.target = t → Arrives s h (.remoteWrite b data) →
      ((s.tile t).inService = true → (h.dstGen = 0 ∨ h.dstGen = (s.tile t).gen) →
        ((s.tile t).windowCheck b true = none →
          (((s.tile t).window b.window).held = [] → (s.tile t).windowReady b true = true →
            (s.tile t).mem.partialHit ((s.tile t).windowAt b) b.length = none →
            Does (.remoteWrite h b data) s (fun u => (u.tile t).get ((s.tile t).windowAt b) b.length = bytesAt data 0 b.length ∧
              SameBut (s.tile t).mem.cells (u.tile t).mem.cells ((s.tile t).windowAt b) b.length ∧
              ((u.tile t).window b.window).done = ((s.tile t).window b.window).done + 1 ∧ Sent u h.src (.status .xput stOk))) ∧
          ((s.tile t).windowReady b true = false →
            (((s.tile t).window b.window).held.length < 4 →
              Does (.remoteWrite h b data) s (fun u => (u.tile t).mem = (s.tile t).mem ∧ ((u.tile t).window b.window).held =
                ((s.tile t).window b.window).held ++ [{ h := h, body := b, data := some data, since := s.run t }])) ∧
            (4 ≤ ((s.tile t).window b.window).held.length →
              Does (.remoteWrite h b data) s (fun u => (u.tile t).mem = (s.tile t).mem ∧ Sent u h.src (.status .xput stStallTimeout))))) ∧
        (∀ o, (s.tile t).windowCheck b true = some o →
          Does (.remoteWrite h b data) s (fun u => (u.tile t).mem = (s.tile t).mem ∧
            Sent u h.src (.status .xput (if o = 1 then stWindowClosed else stDenied))))) ∧
      ((s.tile t).inService = false ∨ (h.dstGen ≠ 0 ∧ h.dstGen ≠ (s.tile t).gen) →
        Does (.remoteWrite h b data) s (fun u => u.tile t = s.tile t ∧ Sent u h.src (.status .xput stPeerLost)))) ∧
    (∀ b, b.target = t → Arrives s h (.remoteRead b) →
      ((s.tile t).inService = true → (h.dstGen = 0 ∨ h.dstGen = (s.tile t).gen) →
        ((s.tile t).windowCheck b false = none →
          (((s.tile t).window b.window).held = [] → (s.tile t).windowReady b false = true →
            (s.tile t).mem.hit ((s.tile t).windowAt b) b.length = none →
            Does (.remoteRead h b) s (fun u => (((s.tile t).window b.window).tagged = false → (u.tile t).mem.cells = (s.tile t).mem.cells) ∧
              Sent u h.src (.reply .xget stOk ((s.tile t).get ((s.tile t).windowAt b) b.length)))) ∧
          ((s.tile t).windowReady b false = false → ((s.tile t).window b.window).held.length < 4 →
            Does (.remoteRead h b) s (fun u => ((u.tile t).window b.window).held =
              ((s.tile t).window b.window).held ++ [{ h := h, body := b, data := none, since := s.run t }]))) ∧
        (∀ o, (s.tile t).windowCheck b false = some o →
          Does (.remoteRead h b) s (fun u => (u.tile t).mem = (s.tile t).mem ∧
            Sent u h.src (.reply .xget (if o = 1 then stWindowClosed else stDenied) [])))) ∧
      ((s.tile t).inService = false ∨ (h.dstGen ≠ 0 ∧ h.dstGen ≠ (s.tile t).gen) →
        Does (.remoteRead h b) s (fun u => u.tile t = s.tile t ∧ Sent u h.src (.reply .xget stPeerLost [])))) ∧
    (h.dst = .tile t →
      (∀ k, Arrives s h (.combine [k]) →
        ((s.tile t).takes h.dstGen false = true →
          (∀ i g o, ((s.tile t).queue k.ref.queue).state = 1 → ((s.tile t).queue k.ref.queue).qinc = k.ref.qinc →
            ((s.tile t).queue k.ref.queue).kind ≠ 0 → ((s.tile t).queue k.ref.queue).folds? = false →
            (s.tile t).record k.ref.queue (s.sourceTile k.src) k.ref.ctx none = some (i, g) →
            k.slot < ((s.tile t).handle ((s.tile t).queue k.ref.queue).handle).length → k.op = ((s.tile t).queue k.ref.queue).op → k.op ≠ 2 →
            o = ((s.tile t).handle ((s.tile t).queue k.ref.queue).handle).slotAt k.slot → (s.tile t).mem.hit o 32 = none →
            leNat ((s.tile t).get (o + 8) 4) + 1 < (s.tile t).slotCount k.ref.queue o → (s.tile t).slotCount k.ref.queue o < 2 ^ 32 →
            Does (.combine h [k]) s (fun u =>
              leWord ((u.tile t).get o 4) = (if k.op = 3 then maxF32 (leWord ((s.tile t).get o 4)) k.value
                else addF32 (leWord ((s.tile t).get o 4)) (combValue k.op k.value)) ∧
              leNat ((u.tile t).get (o + 8) 4) = leNat ((s.tile t).get (o + 8) 4) + 1 ∧ Sent u k.src (.status (.conn k.ref) stOk))) ∧
          (((s.tile t).queue k.ref.queue).state ≠ 1 ∨ (s.tile t).record k.ref.queue (s.sourceTile k.src) k.ref.ctx none = none →
            Does (.combine h [k]) s (fun u => (u.tile t).mem = (s.tile t).mem ∧ ((u.tile t).queue k.ref.queue).lost = true ∧
              (u.tile t).q.drop = (s.tile t).q.drop + 1 ∧ Sent u k.src (.status (.conn k.ref) stClosed)))) ∧
        ((s.tile t).takes h.dstGen false = false →
          Does (.combine h [k]) s (fun u => (u.tile t).mem = (s.tile t).mem ∧ Sent u k.src (.status (.conn k.ref) stPeerLost)))) ∧
      (∀ k c st data, Arrives s h (.reply (.read c) st data) → (s.tile t).answerOk h = true → (s.tile t).awaiting .sread c = some k →
        (st = stOk → Does (.reply h (.read c) st data) s (fun u => Completed s u t k.a stOk (leNat (bytesAt data 0 3)))) ∧
        (statusCode st ≠ stOk → Does (.reply h (.read c) st data) s (fun u => Completed s u t k.a (cellStatus (statusCode st)) 0))) ∧
      (∀ k c st, Arrives s h (.status (.wait c) st) → (s.tile t).answerOk h = true → (s.tile t).core.stall = some k → k.op = .swait → k.obj = c →
        (statusCode st ≠ stRetry → Does (.status h (.wait c) st) s (fun u => Completed s u t k.a (cellStatus (statusCode st)) 0)) ∧
        (st = stRetry → Does (.status h (.wait c) st) s (fun u => (u.tile t).sync.resend = some (s.cycles t + 64) ∧
          (u.tile t).core = (s.tile t).core))))

/-- Docks: packets out of the engine, frames in, and pending entries (R30, R272, R277, R280, R281, R282, R284, R285, R286, R287, R292). A request for another wafer is set on its route with a pending entry, answered RETRY where no entry is free, or PATH_LOST with event 0x098A where no route stands; one for this wafer loops back; a packet on its route waits or is sent at the egress dock, and a fresh answer takes its reverse path; a pending entry that expires is counted and its request answered PATH_LOST; a frame in sequence advances the port's count and is delivered, refused by an unprogrammed engine, or forwarded or refused by its hop list; one the port holds already changes nothing but the acknowledgement owed, and another is counted and naked; a held frame past the hold limit is lost. -/
def Obligations.DocksRouteAndDeliver : Prop :=
  ∀ (s : State) (p : Nat),
    (∀ x f t re isRead, x.h.far = some f → f.hops = [] → f.answer = false → x.h.src = .tile t → pended x.body = true → (∀ cs, x.body ≠ .combine cs) →
      Sys2Proof.Machine.Body.asked x.h x.body = some (re, isRead) → s.dockOn p = true → Arrives s x.h x.body →
      (f.dstWafer ≠ s.waferId →
        (s.findPend t x.h.tag re = none →
          (s.route p f.dstWafer = none →
            Does (.dockIngress p x) s (fun u => Sent u (.tile t) (bareAnswer re isRead stPathLost) ∧ Writes s u p 0x098A [p, f.dstWafer])) ∧
          (∀ r, s.route p f.dstWafer = some r → 4096 ≤ (s.port p).pending.length →
            Does (.dockIngress p x) s (fun u => Sent u (.tile t) (bareAnswer re isRead stRetry)))) ∧
        (∀ r, s.route p f.dstWafer = some r → r.egress = p → (s.port p).state = 4 → (s.port p).pending.length < 4096 →
          ((s.port p).mode.version = 1 → r.hops.length ≤ 6) →
          Does (.dockIngress p x) s (fun u => (∃ i e, (u.port p).pending.find i = some e ∧ e.tile = t ∧ e.tag = x.h.tag ∧ e.re = re) ∧
            ∃ y, y.body = x.body ∧ y.h.far = some { f with srcWafer := s.waferId, hops := 0xFE :: r.hops.drop 1, idx := 1 } ∧
              ((∃ w ∈ (u.port p).waiting, w.pkt = y) ∨ ∃ fr ∈ (u.port p).unacked, fr.pkt = y)))) ∧
      (∀ b, f.dstWafer = s.waferId → s.waferId ≠ 0xFFFF → s.unprogrammed = false → (s.port p).pending.length < 4096 → x.body = .remoteRead b →
        Does (.dockIngress p x) s (fun u => Sent u f.endp (.remoteRead b)))) ∧
    (∀ x f, x.h.far = some f → (s.port p).state = 4 ∨ (s.port p).state = 5 → s.portField p = true → Arrives s x.h x.body → f.hops ≠ [] →
      ((s.port p).mode.version = 1 → f.hops.length ≤ 6) →
      (f.answer = false →
        Does (.dockEgress p x) s (fun u => (∃ w ∈ (u.port p).waiting, w.pkt = x) ∨ ∃ fr ∈ (u.port p).unacked, fr.pkt = x)) ∧
      (f.answer = true → f.idx = 0 →
        Does (.dockEgress p x) s (fun u => ∃ y, y.h.far = some { f with hops := 0xFE :: f.hops.drop 1, idx := 1 } ∧
          ((∃ w ∈ (u.port p).waiting, w.pkt = y) ∨ ∃ fr ∈ (u.port p).unacked, fr.pkt = y)))) ∧
    (∀ i e, (s.port p).pending.find i = some e → e.since + (s.port p).remoteTimeout < s.time →
      Does (.pendingExpiry p i) s (fun u => (u.port p).pending.find i = none ∧ (u.port p).pendingExpired = (s.port p).pendingExpired + 1 ∧
        Sent u (.tile e.tile) (bareAnswer e.re e.isRead stPathLost))) ∧
    (∀ fr, (s.port p).state = 4 →
      ((s.port p).holds fr.seq = true → Does (.dataFrame p fr) s (fun u => u.port p = { s.port p with ackDue := true } ∧ u.mesh = s.mesh)) ∧
      ((s.port p).holds fr.seq = false → fr.seq ≠ (s.port p).rxSeq →
        Does (.dataFrame p fr) s (fun u => (u.port p).crcErr = (s.port p).crcErr + 1 ∧ (u.port p).rxSeq = (s.port p).rxSeq ∧ u.mesh = s.mesh ∧
          ∃ a v n, CtlFrame.link linkNak (s.port p).rxSeq a v n ∈ (u.port p).out)) ∧
      (∀ f b, (s.port p).holds fr.seq = false → fr.seq = (s.port p).rxSeq → fr.pkt.h.far = some f → f.answer = false → fr.pkt.body = .remoteRead b →
        (f.hops.length ≤ f.idx → f.dstWafer = s.waferId → s.waferId ≠ 0xFFFF →
          (s.unprogrammed = false →
            Does (.dataFrame p fr) s (fun u => (u.port p).rxSeq = ((s.port p).rxSeq + 1) % 65536 ∧ Sent u f.endp (.remoteRead b))) ∧
          (s.unprogrammed = true →
            Does (.dataFrame p fr) s (fun u => (u.port p).rxSeq = ((s.port p).rxSeq + 1) % 65536 ∧
              ∃ x ∈ u.mesh.flight, x.pkt.body = .reply .xget stWindowClosed []))) ∧
        (f.idx < f.hops.length → s.relayRefusal p f = none → nth f.hops f.idx 0xFF ≠ p → s.dockOn p = true →
          Does (.dataFrame p fr) s (fun u => (u.port p).relayFwd = (s.port p).relayFwd + 1 ∧
            Sent u (.dock (nth f.hops f.idx 0xFF) 0) (.remoteRead b))) ∧
        (∀ cause, f.idx < f.hops.length → s.relayRefusal p f = some cause →
          Does (.dataFrame p fr) s (fun u => (u.port p).relayNack = (s.port p).relayNack + 1 ∧
            Writes s u p 0x0989 [p, nth f.hops f.idx 0xFF, cause] ∧ ∃ x ∈ u.mesh.flight, x.pkt.body = .reply .xget stPathLost [])))) ∧
    (∀ w rest, (s.port p).state = 5 → (s.port p).waiting = w :: rest → w.since + (s.port p).hold < s.time →
      Does (.egressHoldExpiry p) s (fun u => (u.port p).waiting = rest ∧
        ∀ f t b, w.pkt.h.far = some f → f.answer = false → f.idx ≤ 1 → w.pkt.h.src = .tile t → w.pkt.body = .remoteRead b →
          s.findPend t w.pkt.h.tag .xget = none → Sent u (.tile t) (.reply .xget stPathLost [])))

/-- Link retry, credits and lanes of a port that is UP (R269, R277, R278, R279, R280, R292). An acknowledgement frees the frames it covers; a nak keeps the named frame and counts its resending, and the eighth in a row retrains the port; credits return up to the far buffer; the idle acknowledgement is sent; a bad frame is counted and naked; a lane goes off, which the partner is told or the next frame marks, and retrains alone and returns, or stays off; too few lanes retrain the port; a lane failure during negotiation trains it again. -/
def Obligations.LinksRetryAndRestripe : Prop :=
  ∀ (s : State) (p : Nat),
    ((s.port p).state = 4 →
      (∀ fr rest, (s.port p).unacked = fr :: rest → (s.port p).waiting = [] →
        Does (.linkAck p fr.seq) s (fun u => (u.port p).unacked = rest)) ∧
      (∀ fr, (s.port p).unacked = [fr] → fr.seq < 65536 →
        ((s.port p).nakSeq ≠ fr.seq →
          Does (.linkNak p fr.seq) s (fun u => (u.port p).state = 4 ∧ (u.port p).unacked = [fr] ∧ (u.port p).retryCnt = (s.port p).retryCnt + 1)) ∧
        ((s.port p).nakSeq = fr.seq → (s.port p).nakCount = 7 →
          Does (.linkNak p fr.seq) s (fun u => (u.port p).state = 5 ∧ (u.port p).retrainCnt = (s.port p).retrainCnt + 1))) ∧
      (∀ vc n, vc < 4 → vc < (s.port p).credit.length → (s.port p).waiting = [] →
        Does (.linkCredits p vc n) s (fun u => nth (u.port p).credit vc 0 = min (bufferUnits vc) (nth (s.port p).credit vc 0 + n))) ∧
      ((s.port p).waiting = [] → Does (.linkIdleAck p) s (fun u => (u.port p).ackDue = false ∧
        ∃ v n, CtlFrame.link linkAck 0 (((s.port p).rxSeq + 65535) % 65536) v n ∈ (u.port p).out)) ∧
      Does (.frameCrcError p) s (fun u => (u.port p).crcErr = (s.port p).crcErr + 1 ∧ (u.port p).rxSeq = (s.port p).rxSeq ∧
        ∃ a v n, CtlFrame.link linkNak (s.port p).rxSeq a v n ∈ (u.port p).out) ∧
      (∀ lane, lane < 32 → bit (s.port p).laneActive lane = true →
        (({ s.port p with laneActive := (s.port p).laneActive &&& ~~~(BitVec.ofNat 32 (2 ^ lane)) } : Port).starved lane = false →
          Does (.linkLaneOff p lane) s (fun u => (u.port p).state = 4 ∧ bit (u.port p).laneActive lane = false ∧
            (u.port p).retrainCnt = (s.port p).retrainCnt + 1 ∧ (u.port p).mode = (s.port p).mode ∧ (u.port p).markDue = true) ∧
          Does (.laneFailure p lane) s (fun u => (u.port p).state = 4 ∧ bit (u.port p).laneActive lane = false ∧
            (u.port p).mode = (s.port p).mode ∧ ∃ a v n, CtlFrame.link Sys2Proof.Machine.linkLaneOff lane a v n ∈ (u.port p).out)) ∧
        (({ s.port p with laneActive := (s.port p).laneActive &&& ~~~(BitVec.ofNat 32 (2 ^ lane)) } : Port).starved lane = true →
          Does (.linkLaneOff p lane) s (fun u => (u.port p).state = 5))) ∧
      (∀ lane, lane < 32 → lane ∈ (s.port p).retraining →
        Does (.linkLaneOn p lane) s (fun u => bit (u.port p).laneActive lane = true ∧ lane ∉ (u.port p).retraining) ∧
        Does (.laneRetrainDone p lane true) s (fun u => bit (u.port p).laneActive lane = true ∧ lane ∉ (u.port p).retraining ∧
          ∃ a v n, CtlFrame.link Sys2Proof.Machine.linkLaneOn lane a v n ∈ (u.port p).out) ∧
        Does (.laneRetrainDone p lane false) s (fun u => (u.port p).laneActive = (s.port p).laneActive ∧ lane ∉ (u.port p).retraining))) ∧
    (∀ lane, (s.port p).state = 3 → Does (.laneFailure p lane) s (fun u => (u.port p).state = 2))

/-- The port state machine (R265, R268, R269, R270, R271, R272, R273, R274, R280). Light trains a DARK port; training that leaves a path moves spares and begins negotiation with a HELLO, or ends in a 1 s wait; HELLO, CAP, CERT and MODE are taken while NEGOTIATING: a HELLO is answered with the own block, a block whose chain is not held asks for it, a request for the chain is answered, a verified block names the mode, a refused block or a mismatch refuses the partner; the switch, once both counts are reached, makes the port UP in the agreed mode with the partner recorded; timeouts, lost signals and closes take it to DARK with every frame gone, and a retrain returns it to UP in the mode agreed anew. -/
def Obligations.PortsTrainAndNegotiate : Prop :=
  ∀ (s : State) (p : Nat),
    ((s.port p).state = 1 → s.portLit p = true → s.portField p = true → Does (.portLightDetected p) s (fun u => (u.port p).state = 2)) ∧
    (∀ r, (Sys2Proof.Machine.TrainResult.outcome r (s.port p).laneMap (s.port p).fixedMap).2.2.some_ = true →
      ((s.port p).state = 2 ∧ (s.port p).backoff = false) ∨ (s.port p).state = 5 →
      Does (.trainingDone p r) s (fun u => (u.port p).state = (if (s.port p).state = 5 then 5 else 3) ∧
        (u.port p).laneMap = (Sys2Proof.Machine.TrainResult.outcome r (s.port p).laneMap (s.port p).fixedMap).1 ∧
        (u.port p).neg.trained = (s.port p).reports (Sys2Proof.Machine.TrainResult.outcome r (s.port p).laneMap (s.port p).fixedMap).2.2 ∧
        CtlFrame.hello (s.port p).versions (u.port p).neg.nonce ∈ (u.port p).out)) ∧
    ((s.port p).state = 2 → (s.port p).backoff = false →
      Does (.trainingFailed p) s (fun u => (u.port p).state = 2 ∧ (u.port p).backoff = true)) ∧
    ((s.port p).state = 5 → Does (.trainingFailed p) s (fun u => (u.port p).state = 1 ∧ (u.port p).unacked = [])) ∧
    ((s.port p).state = 2 → (s.port p).backoff = true → (s.port p).since + 25000000 ≤ s.time →
      Does (.trainingBackoffExpiry p) s (fun u => (u.port p).state = 1)) ∧
    ((s.port p).state = 3 →
      (∀ v n, Does (.hello p v n) s (fun u => (u.port p).state = 3 ∧ (u.port p).neg.hello = some (v, n) ∧
        ∃ b, CtlFrame.cap b ∈ (u.port p).out)) ∧
      Does (.cert ⟨p, .request⟩) s (fun u => (u.port p).state = 3 ∧ CtlFrame.cert (.part Config.certChain true) ∈ (u.port p).out) ∧
      (∀ d, Does (.cert ⟨p, .part d false⟩) s (fun u => (u.port p).state = 3 ∧ (u.port p).neg.certs = (s.port p).neg.certs ++ d)) ∧
      (∀ d b m, (s.port p).neg.cap = some b → (s.port p).neg.chosen = none → s.capRefusal (s.port p) b = none →
        chooseMode (s.port p).versions (s.port p).neg.trained b = some m → (s.port p).neg.theirs = none →
        Does (.cert ⟨p, .part d true⟩) s (fun u => (u.port p).state = 3 ∧ (u.port p).neg.chosen = some m ∧ u.hedge.certCache.contains b.cert = true)) ∧
      (∀ b, s.hedge.certCache.contains b.cert = false →
        Does (.cap p b) s (fun u => (u.port p).state = 3 ∧ (u.port p).neg.cap = some b ∧ CtlFrame.cert .request ∈ (u.port p).out)) ∧
      (∀ b m, s.hedge.certCache.contains b.cert = true → s.capRefusal (s.port p) b = none →
        chooseMode (s.port p).versions (s.port p).neg.trained b = some m → (s.port p).neg.theirs = none →
        Does (.cap p b) s (fun u => (u.port p).state = 3 ∧ (u.port p).neg.chosen = some m ∧ CtlFrame.mode m (u.port p).neg.count ∈ (u.port p).out)) ∧
      (∀ b code, s.hedge.certCache.contains b.cert = true → s.capRefusal (s.port p) b = some code →
        Does (.cap p b) s (fun u => (u.port p).state = 6 ∧ (u.port p).refusal = code ∧ Writes s u p 0x0985 [p, code, b.serial])) ∧
      (∀ m n, (s.port p).neg.chosen = none → Does (.mode p m n) s (fun u => (u.port p).state = 3 ∧ (u.port p).neg.theirs = some (m, n))) ∧
      (∀ m m' n, (s.port p).neg.chosen = some m' → m' ≠ m → Does (.mode p m n) s (fun u => (u.port p).state = 6 ∧ (u.port p).refusal = 2)) ∧
      (∀ b m m' n frames, (s.port p).neg.cap = some b → (s.port p).neg.chosen = some m → (s.port p).neg.theirs = some (m', n) →
        ((s.port p).neg.count ≤ frames → n ≤ frames →
          Does (.modeSwitch ⟨p, frames⟩) s (fun u => (u.port p).state = 4 ∧ (u.port p).mode = m ∧ (u.port p).partnerWafer = b.wafer ∧
            (u.port p).partner = some { cert := b.cert, serial := b.serial, wafer := b.wafer } ∧ (u.port p).relayOn = bit (s.port p).ctrl 30)) ∧
        (frames < (s.port p).neg.count ∨ frames < n → Does (.modeSwitch ⟨p, frames⟩) s (fun u => u = s))) ∧
      ((s.port p).since + 5000000 ≤ s.time → Does (.negotiationTimeout p) s (fun u => (u.port p).state = 1))) ∧
    ((s.port p).state = 6 → (s.port p).since + 250000000 ≤ s.time → Does (.refusedTimeout p) s (fun u => (u.port p).state = 2)) ∧
    ((s.port p).state = 3 ∨ (s.port p).state = 4 ∨ (s.port p).state = 5 →
      Does (.portSignalLoss p) s (fun u => (u.port p).state = 1 ∧ (u.port p).waiting = [] ∧ (u.port p).unacked = []) ∧
      Does (.linkClose p) s (fun u => (u.port p).state = 1 ∧ (u.port p).waiting = [] ∧ (u.port p).unacked = [])) ∧
    (∀ b m q, (s.port p).state = 5 → s.time ≤ (s.port p).since + 6250000 → (s.port p).neg.cap = some b → (s.port p).neg.chosen = some m →
      (s.port p).neg.theirs = some q →
      Does (.retrainDone p) s (fun u => (u.port p).state = 4 ∧ (u.port p).mode = m ∧ (u.port p).partnerWafer = b.wafer)) ∧
    ((s.port p).state = 5 → Does (.retrainTimeout p) s (fun u => (u.port p).state = 1 ∧ (u.port p).unacked = []))

/-- Glow modules and the ports they light (R266, R503). Loss of a lit module's light and the opening of its latch take each port of the bay that is not DISABLED to DARK and write event 0x0F93; a closed latch powers a module that is not lit, and it lights. -/
def Obligations.GlowBaysLightPorts : Prop :=
  ∀ (s : State) (g : Nat), g < 8 →
    (s.glow.getD g 1 = 2 → Does (.glowLightLoss g) s (fun u => u.glow.getD g 1 = 1 ∧
      (∀ p ∈ bayPorts g, (s.port p).state ≠ 0 → (u.port p).state = 1) ∧ ∃ v, Writes s u srcHedgerow 0x0F93 [g, 2, 1, v])) ∧
    (s.glow.getD g 1 ≠ 0 → Does (.glowLatchOpen g) s (fun u => u.glow.getD g 1 = 0 ∧
      ∀ p ∈ bayPorts g, (s.port p).state ≠ 0 → (u.port p).state = 1)) ∧
    (s.glow.getD g 1 = 0 → Does (.glowLatchClose g) s (fun u => u.glow.getD g 1 = 1 ∧ u.ports = s.ports)) ∧
    (s.glow.getD g 1 = 1 → Does (.glowLit g) s (fun u => u.glow.getD g 1 = 2 ∧ u.ports = s.ports))

/-- Fabric control between conductors (R235, R281, R289, R344, R345, R407). A conductor in a group sends its note to every UP partner each 1,024 ticks, records a newer note of its group and forgets it after 4,096 ticks; a connect the policy and the queue allow takes the first free proxy and opens from it, another is refused with event 0x0E87; a granted reply opens the local context, one refused or too late ends its command; a close frees the proxy it names; a lookup is answered from the directory or refused, and its reply ends the command that asked. -/
def Obligations.PowerNotesAndBroker : Prop :=
  ∀ (s : State), s.mb.running = true →
    (s.waferId ≠ 0xFFFF → s.cond.group ≠ 0 → s.cond.noteAt + 1024 ≤ s.time →
      Does .powerNoteSend s (fun u => u.cond.noteSeq = wrapAdd 32 s.cond.noteSeq 1 ∧ u.cond.noteAt = s.time ∧
        ∀ p, p < 56 → (s.port p).state = 4 → s.portField p = true → ∃ n y, n.origin = s.waferId ∧ n.group = s.cond.group ∧ n.seq = s.cond.noteSeq ∧
          n.time = s.time ∧ y.body = .ctrlWrite 0 (noteBytes n) ∧ ((∃ w ∈ (u.port p).waiting, w.pkt = y) ∨ ∃ fr ∈ (u.port p).unacked, fr.pkt = y))) ∧
    (∀ p n, n.group = s.cond.group → n.group ≠ 0 → n.origin ≠ s.waferId → (∀ e ∈ s.cond.notes, e.1.origin ≠ n.origin) → s.cond.notes.length < 256 →
      Does (.powerNote p n) s (fun u => (n, s.time) ∈ u.cond.notes ∧
        (0 < n.hopsLeft → ∀ q, q < 56 → q ≠ p → (s.port q).state = 4 → s.portField q = true →
          ∃ y, y.body = .ctrlWrite 0 (noteBytes { n with hopsLeft := n.hopsLeft - 1 }) ∧
            ((∃ w ∈ (u.port q).waiting, w.pkt = y) ∨ ∃ fr ∈ (u.port q).unacked, fr.pkt = y)))) ∧
    (∀ p n e, s.cond.notes.find? (fun e => e.1.origin == n.origin) = some e →
      (n.group = s.cond.group → n.group ≠ 0 → n.origin ≠ s.waferId → within 1 0x7FFFFFFF ((n.seq + 2 ^ 32 - e.1.seq % 2 ^ 32) % 2 ^ 32) = true →
        Does (.powerNote p n) s (fun u => (n, s.time) ∈ u.cond.notes ∧ ∀ e ∈ u.cond.notes, e.1.origin = n.origin → e.1 = n)) ∧
      (within 1 0x7FFFFFFF ((n.seq + 2 ^ 32 - e.1.seq % 2 ^ 32) % 2 ^ 32) = false → Does (.powerNote p n) s (fun u => u.cond = s.cond))) ∧
    Does .powerNoteExpiry s (fun u => ∀ e ∈ u.cond.notes, s.time < e.2 + 4096) ∧
    (∀ p m far q cr org ctx, m.body = .connectRequest far q cr org ctx →
      (s.admitsWafer m.origin = true → onArray far = true → (s.tile far).st = .admitted → ((s.tile far).queue q).state = 1 →
        ∀ i, firstBelow 128 (fun i => !((s.port p).proxies.getD i {}).valid) = some i →
        ((s.port p).proxies.filter (fun e => e.2.valid)).length < s.cond.polMax →
        Does (.brokerConnectRequest p m) s (fun u =>
          Sent u (.tile far) (.openReq { ctx := i % 16, queue := q, credits := cr, gen := nextGen ((s.port p).proxies.getD i {}).gen }) ∧
          ∃ y, (u.port p).proxies.find i = some y ∧ y.valid = true ∧ y.wafer = m.origin ∧ y.tile = org ∧ y.ctx = ctx ∧ y.peer = far)) ∧
      (∀ code, code = (if s.admitsWafer m.origin = false then rcNotPermitted else if onArray far = false ∨ (s.tile far).st ≠ .admitted then rcNotPresent
          else if ((s.tile far).queue q).state ≠ 1 then rcRefused else rcNoResource) →
        code ≠ rcNoResource ∨ s.cond.polMax ≤ ((s.port p).proxies.filter (fun e => e.2.valid)).length ∨
          firstBelow 128 (fun i => !((s.port p).proxies.getD i {}).valid) = none →
        Does (.brokerConnectRequest p m) s (fun u => Writes s u srcConductor 0x0E87 [m.origin, 1, code]))) ∧
    (∀ p m pg q inc cr k op mx gen r, m.body = .connectReply 0 pg q inc cr k op mx gen → s.brokerReq m = some r →
      ((s.tile r.tile).ctx r.ctx).state = 0 → (s.tile r.tile).inService = true →
      Does (.brokerConnectReply p m) s (fun u => ((u.tile r.tile).ctx r.ctx).state = 2 ∧ ((u.tile r.tile).ctx r.ctx).remote = true ∧
        ((u.tile r.tile).ctx r.ctx).credits = cr ∧ ((u.tile r.tile).ctx r.ctx).wafer = r.wafer ∧ ((u.tile r.tile).ctx r.ctx).proxy = q ∧
        ((u.tile r.tile).ctx r.ctx).peerGen = pg ∧
        (∀ x ∈ u.cond.reqs, x.id ≠ r.id))) ∧
    (∀ p m st pg q inc cr k op mx gen r, m.body = .connectReply st pg q inc cr k op mx gen → s.brokerReq m = some r →
      (st ≠ 0 → Does (.brokerConnectReply p m) s (fun u => u.tiles = s.tiles ∧ ∀ c ∈ u.cond.pend, c.chan = r.chan → c.seq = r.seq → c.outcome = some st)) ∧
      (st = 0 → ((s.tile r.tile).ctx r.ctx).state ≠ 0 ∨ (s.tile r.tile).inService = false →
        Does (.brokerConnectReply p m) s (fun u => u.tiles = s.tiles ∧
          ∀ c ∈ u.cond.pend, c.chan = r.chan → c.seq = r.seq → c.outcome = some rcStateConflict))) ∧
    (∀ p m g q y, m.body = .close g q → (s.port p).proxies.find q = some y → y.valid = true → y.wafer = m.origin → y.gen = g →
      Does (.brokerCloseMessage p m) s (fun u => ((u.port p).proxies.getD q {}).valid = false)) ∧
    (∀ p m n w r, m.body = .lookupRequest n → s.admitsWafer m.origin = true → s.cond.dir.find? (fun w => w.name == n) = some w →
      m.origin ≠ s.waferId → s.route s.activeKeep m.origin = some r → r.egress ≠ s.activeKeep → s.dockOn s.activeKeep = true → s.dockOn r.egress = true →
      Does (.brokerLookupRequest p m) s (fun u => Sent u (.dock r.egress 0) (.ctrlWrite 0 (brokerBytes
        { origin := s.waferId, target := m.origin, request := m.request, body := .lookupReply 0 w.pos w.window w.key w.length })))) ∧
    (∀ p m n, m.body = .lookupRequest n → s.admitsWafer m.origin = false ∨ s.cond.dir.find? (fun w => w.name == n) = none →
      Does (.brokerLookupRequest p m) s (fun u => Writes s u srcConductor 0x0E87
        [m.origin, 4, if s.admitsWafer m.origin = false then rcNotPermitted else rcNotPresent])) ∧
    (∀ p m pos w k len r, m.body = .lookupReply 0 pos w k len → s.brokerReq m = some r →
      Does (.brokerLookupReply p m) s (fun u => ∀ c ∈ u.cond.pend, c.chan = r.chan → c.seq = r.seq → c.outcome = some rcOk ∧
        c.results = [BitVec.ofNat 32 (tileDetail pos), BitVec.ofNat 32 w, BitVec.ofNat 32 k, BitVec.ofNat 32 len]))

/-- Reference, wafer time, stretch, margin and crossings (R295, R297, R301, R302, R304, R306, R307, R309, R321). The spine switches to the secondary with each count moving by at most one, and the loss of both turns every field off; a broadcast each 65,536 ticks reloads counts that differ; stretch adds to the debt, which is forgiven when it saturates; a margin stop holds the clock until its restart is reported; a parked crossing between running fields calibrates for 4,096 cycles to L of 3 plus the spread (asynchronous, without L, in monitor-steered mode), is repeated once above 7 and then fails; a lost heartbeat parks it; WT_LO latches WT_HI and MARGIN_LOW is rewritten. -/
def Obligations.ReferenceMarginsAndCrossings : Prop :=
  ∀ s : State,
    (∀ ds : List Int, s.osc = 0 → (∀ x ∈ ds, -1 ≤ x ∧ x ≤ 1) →
      Does (.referenceSwitch ds) s (fun u => u.osc = 1 ∧ u.time = (Int.ofNat s.time + ds.getD 0 0).toNat % 2 ^ 64 ∧
        
        (CanLog s srcHedgerow 0x0A87 → ∃ e, Logged u e ∧ e.code = 0x0A87 ∧ e.detail = [0, signedWord (ds.getD 0 0)]) ∧ ∀ f, f < 56 → (u.field f).clk.skew = (s.field f).clk.skew + ds.getD f 0 - ds.getD 0 0)) ∧
    (s.osc < 2 → Does .referenceLost s (fun u => u.osc = 2 ∧ u.mb.running = false ∧ ∀ f, f < 56 → (u.field f).pwr.state = .off)) ∧
    (s.time % 65536 = 0 → Does .waferTimeBroadcast s (fun u => ∀ f, f < 56 → (u.field f).clk.skew = 0 ∧
      ((s.field f).clk.skew ≠ 0 → Writes s u f 0x0A86 [f, signedWord (-(s.field f).clk.skew)]))) ∧
    (s.time % 65536 ≠ 0 → Does .waferTimeBroadcast s (fun u => u = s)) ∧
    (∀ f n l, (s.field f).counting = true →
      ((s.field f).clk.debt + n < 65535 → Does (.railDroop f n l) s (fun u => (u.field f).clk.debt = (s.field f).clk.debt + n ∧
        (u.field f).clk.stretch = (s.field f).clk.stretch + BitVec.ofNat 32 n)) ∧
      (65535 ≤ (s.field f).clk.debt + n → Does (.railDroop f n l) s (fun u => (u.field f).clk.debt = 0 ∧ Writes s u f 0x0A85 [f, (s.field f).clk.op]))) ∧
    (∀ f, (s.field f).clk.fast = true → (s.field f).clk.debt = 0 → Does (.debtRepaid f) s (fun u => (u.field f).clk.fast = false)) ∧
    (∀ f m, (s.field f).running = true → (s.field f).clk.stopped = none →
      Does (.marginStop f m) s (fun u => (u.field f).clk.stopped = some s.time ∧ (u.field f).clk.low = 0 ∧ (u.field f).clk.lowMon = m ∧
        (u.field f).clk.bvMargin = true ∧ (u.field f).clk.stops = (s.field f).clk.stops + 1 ∧ (u.field f).clk.debt = 0 ∧
        (s.field f).clk.op ∈ (u.field f).pwr.marginStops)) ∧
    (∀ f t, (s.field f).clk.stopped = some t → t + 4 ≤ s.time →
      Does (.marginRestart f) s (fun u => (u.field f).clk.stopped = none ∧ Writes s u f 0x0A83 [f, (s.field f).clk.stopMon, s.time - t])) ∧
    (∀ f b g, fieldAcross f b = some g → ((s.field f).xing b).state = .parked → (s.field f).running = true → (s.field g).running = true →
      Does (.crossingCalibrate f b) s (fun u => ((u.field f).xing b).state = .calibrating ∧ ((u.field f).xing b).began = s.time)) ∧
    (∀ f b n, ((s.field f).xing b).state = .calibrating →
      (s.time < ((s.field f).xing b).began + s.calTime f b → Does (.calibrationDone f b n) s (fun u => u = s)) ∧
      (((s.field f).xing b).began + s.calTime f b ≤ s.time →
        (3 + n ≤ 7 → Does (.calibrationDone f b n) s (fun u => ((u.field f).xing b).state = .running ∧
          ((u.field f).xing b).async = (s.field f).clk.monitor ∧ ((u.field f).xing b).latency = (if (s.field f).clk.monitor = true then 0 else 3 + n))) ∧
        (7 < 3 + n → ((s.field f).xing b).retried = false →
          Does (.calibrationDone f b n) s (fun u => ((u.field f).xing b).state = .calibrating ∧ ((u.field f).xing b).retried = true ∧
            ((u.field f).xing b).began = s.time ∧ Writes s u f 0x0A84 [f, b, n])) ∧
        (7 < 3 + n → ((s.field f).xing b).retried = true →
          Does (.calibrationDone f b n) s (fun u => ((u.field f).xing b).state = .failed ∧ Writes s u f 0x0A82 [f, b, 1])))) ∧
    (∀ f b g, fieldAcross f b = some g → ((s.field f).xing b).state = .running → (s.field f).counting = true → (s.field g).running = false →
      Does (.heartbeatLoss f b) s (fun u => ((u.field f).xing b).state = .parked)) ∧
    (∀ f, Does (.wtLoRead f) s (fun u => (s.field f).clk.skew = 0 → (u.field f).clk.wtHi = BitVec.ofNat 32 (s.time / 2 ^ 32))) ∧
    (∀ f, Does (.marginLowWrite f) s (fun u => (u.field f).clk.low = 7))

/-- Wakes, stops, orders and steps (R299, R300, R311, R312, R313, R317, R318, R319, R328, R336, R347). A woken field runs at its slowest point; a field a map holds stops with its crossings parked, its port DISABLED, and reaches retention, PARKED or OFF 25 ticks later; an order or step is armed for its boundary, or for the first that meets its lead with event 0x0A89; at the boundary the field relocks to the slowest of its points for 50 ticks; fields enter and leave monitor-steered mode at S, and the mode moves a field by one point an epoch. -/
def Obligations.FieldsWakeStopAndStep : Prop :=
  ∀ (s : State) (f : Nat),
    (∀ w, (s.field f).pwr.waking = some w → (s.field f).pwr.state = .retain → w + 550 ≤ s.time → (s.field f).pwr.parked = false → s.boot.kind ≠ 2 →
      (s.field f).pwr.plan = .wake →
      Does (.fieldWake f) s (fun u => (u.field f).pwr.state = .idle ∧ (u.field f).clk.clock = 2 ∧ (u.field f).clk.op = (s.field f).slowest ∧
        (u.field f).running = true ∧ u.tiles = s.tiles)) ∧
    ((s.field f).running = true → s.mesh.map.holds f = true →
      ((s.field f).pwr.plan = .retain ∨ (s.field f).pwr.plan = .park ∨ (s.field f).pwr.plan = .off) →
      Does (.fieldClockStop f) s (fun u => (u.field f).clk.halted = true ∧ (u.field f).clk.clock = 0 ∧ (u.field f).pwr.retainAt = some (s.time + 25) ∧
        (u.port f).state = 0 ∧ ∀ b g, fieldAcross f b = some g → ((s.field f).xing b).state = .running → ((u.field f).xing b).state = .parked)) ∧
    (∀ t, (s.field f).pwr.retainAt = some t → t ≤ s.time →
      ((s.field f).pwr.plan = .retain → Does (.retentionReached f) s (fun u => (u.field f).pwr.state = .retain ∧ (u.field f).pwr.plan = .none)) ∧
      ((s.field f).pwr.plan = .park →
        Does (.retentionReached f) s (fun u => (u.field f).pwr.state = .retain ∧ (u.field f).pwr.parked = true ∧ (u.field f).svc.state = .parked)) ∧
      ((s.field f).pwr.plan = .off → Does (.retentionReached f) s (fun u => (u.field f).pwr.state = .off ∧ (u.field f).svc.furrow = some 5))) ∧
    (∀ c k op at_, (c = .clkOrderOpStep f op at_ ∧ k = 1 ∨ c = .clkOrderEnterMonitor f op at_ ∧ k = 2 ∨ c = .clkOrderLeaveMonitor f op at_ ∧ k = 3) →
      let lead := if k = 2 then 4 else leadOf (s.field f).clk.op op
      (s.time + lead ≤ resolveAt s.time at_ →
        Does c s (fun u => (u.field f).clk.order = some { kind := k, op := op, at_ := resolveAt s.time at_ })) ∧
      (resolveAt s.time at_ < s.time + lead →
        Does c s (fun u => (u.field f).clk.order = some { kind := k, op := op, at_ := boundaryFrom (s.time + lead) } ∧
          Writes s u f 0x0A89 [f, k, resolveAt s.time at_, boundaryFrom (s.time + lead)]))) ∧
    (∀ c k op at_, (c = .pwrStepCap f op at_ ∧ k = 1 ∨ c = .pwrStepThermal f op at_ ∧ k = 2 ∨ c = .pwrStepForced f op at_ ∧ k = 3) →
      Does c s (fun u => (u.field f).clk = (s.field f).clk ∧
        (s.time + leadOf (s.field f).clk.op op ≤ resolveAt s.time at_ →
          (u.field f).pwr.steps.find k = some { kind := k, op := op, at_ := resolveAt s.time at_ }) ∧
        (resolveAt s.time at_ < s.time + leadOf (s.field f).clk.op op →
          (u.field f).pwr.steps.find k = some { kind := k, op := op, at_ := boundaryFrom (s.time + leadOf (s.field f).clk.op op) } ∧
          Writes s u f 0x0A89 [f, 3 + k, resolveAt s.time at_, boundaryFrom (s.time + leadOf (s.field f).clk.op op)]))) ∧
    (∀ o, (s.field f).clk.order = some o → o.kind = 1 → o.at_ ≤ s.time → (s.field f).pwr.steps = [] → (s.field f).clk.monitor = false →
      (s.field f).running = true →
      max (max o.op (s.field f).pwr.cap) (max (s.field f).pwr.therm (s.field f).pwr.forced) ≠ (s.field f).clk.op →
      Does (.opStep f) s (fun u => (u.field f).clk.op = max (max o.op (s.field f).pwr.cap) (max (s.field f).pwr.therm (s.field f).pwr.forced) ∧
        (u.field f).clk.relock = some (o.at_ + 50) ∧ (u.field f).pwr.req = o.op ∧ (u.field f).clk.order = none)) ∧
    (∀ t, (s.field f).clk.relock = some t → t ≤ s.time → (s.field f).clk.stopped = none →
      Does (.relockDone f) s (fun u => (u.field f).clk.relock = none ∧ (u.field f).clk.clock = 2)) ∧
    (∀ t m, (s.field f).clk.relock = some t → t ≤ s.time → (s.field f).clk.stopped = some m →
      Does (.relockDone f) s (fun u => (u.field f).clk.relock = none ∧ (u.field f).clk.clock = 0)) ∧
    (∀ o, f < 56 → (s.field f).clk.order = some o → o.at_ ≤ s.time →
      (o.kind = 2 → Does .monitorModeSwitch s (fun u => (u.field f).clk.monitor = true ∧ (u.field f).clk.ceiling = o.op ∧ (u.field f).clk.order = none)) ∧
      (o.kind = 3 → (s.field f).running = true →
        Does .monitorModeSwitch s (fun u => (u.field f).clk.monitor = false ∧ (u.field f).clk.relock = some (o.at_ + 50) ∧ u.mesh.distDue = true))) ∧
    ((s.field f).clk.monitor = true → (s.field f).counting = true →
      (∀ low, low ≤ 2 → (s.field f).clk.op < 15 → Does (.monitorSteerEpoch f low) s (fun u => (u.field f).clk.op = (s.field f).clk.op + 1)) ∧
      (∀ low, 6 ≤ low → (s.field f).clk.low16 = 15 → max (s.field f).clk.ceiling (s.field f).slowest < (s.field f).clk.op →
        Does (.monitorSteerEpoch f low) s (fun u => (u.field f).clk.op + 1 = (s.field f).clk.op)) ∧
      (∀ low, 2 < low → low < 6 → Does (.monitorSteerEpoch f low) s (fun u => (u.field f).clk.op = (s.field f).clk.op ∧ (u.field f).clk.low16 = 0)))

/-- Estimates, the cap loop, the backstop, the input and thatch (R325, R326, R330, R331, R332, R333, R335, R340, R341, R342). An epoch's end forms p_f from the counts; the master's decision raises cap gates only over the cap, never beyond max_gate, and eases them under it; the standby takes over from a silent master; the third excess sample forces a step one point slower in every field; est_scale is held to 768 to 1,280; an input sample is kept and a change of range reported; a bus stop turns every field off; a current limit stretches every counting field; thatch engages at the last duty and ramps by one level. -/
def Obligations.PowerLoopDecides : Prop :=
  ∀ s : State,
    (∀ f low mon, f < 56 → (s.field f).running = true → (s.field f).pwr.epochNo < s.time / 100 → Does (.epochEnd f low mon) s (fun u =>
      (u.field f).pwr.epochNo = s.time / 100 ∧
      (∀ t, onArray t = true → fieldOf t = f → (u.tile t).act.lastIssue = (s.tile t).act.issue ∧ (u.tile t).act.lastFlit = (s.tile t).act.flit) ∧
        (∃ n, (n = (u.pField f).floor.toNat ∨ n = (u.pField f).floor.toNat + 1) ∧ (u.field f).pwr.est = min 65535 n) ∧
        (u.field f).clk.low = min (s.field f).clk.low (low % 8))) ∧
    (∀ f low mon, f < 56 → (s.field f).memoryUp = true → (s.field f).running = false → (s.field f).pwr.epochNo < s.time / 100 →
      Does (.epochEnd f low mon) s (fun u => (u.field f).pwr.epochNo = s.time / 100 ∧ (u.field f).pwr.actCore = 0 ∧ (u.field f).pwr.actMem = 0 ∧
        u.tiles = s.tiles ∧ (u.field f).clk = (s.field f).clk ∧
        ∃ n, (n = (u.pField f).floor.toNat ∨ n = (u.pField f).floor.toNat + 1) ∧ (u.field f).pwr.est = min 65535 n)) ∧
    (∀ f low mon, s.time / 100 ≤ (s.field f).pwr.epochNo → Does (.epochEnd f low mon) s (fun u => u = s)) ∧
    (∀ k, s.masterField = some k → (s.master k).lastEpoch < s.time / 100 → 50 ≤ s.time % 100 →
      Does .powerMasterDecision s (fun u => (u.master k).lastEpoch = s.time / 100 ∧
        (∃ n, (n = (s.totalPower (s.master k)).floor.toNat ∨ n = (s.totalPower (s.master k)).floor.toNat + 1) ∧ (u.master k).total = n) ∧
        (((s.master k).capEff : Rat) < s.totalPower (s.master k) → (u.master k).overCount = (s.master k).overCount + 1 ∧
          ∀ f, (s.field f).pwr.capGate ≤ (u.field f).pwr.capGate ∧ (u.field f).pwr.capGate ≤ max (s.field f).pwr.capGate (s.master k).gateLimit) ∧
        (s.totalPower (s.master k) ≤ (s.master k).capEff → (u.master k).overs = 0 ∧
          ∀ f, (u.field f).pwr.capGate ≤ (s.field f).pwr.capGate ∧ (s.field f).pwr.capGate ≤ (u.field f).pwr.capGate + 1))) ∧
    ((s.master 0).active = true → ((s.master 0).lastEpoch + 3 ≤ s.time / 100 ∨ (s.field 0).running = false) → (s.field 55).running = true →
      Does .masterTakeover s (fun u => (u.master 0).active = false ∧ (u.master 55).active = true ∧ Writes s u 55 0x0B8E [55, s.time / 100])) ∧
    (∀ w a, s.hedge.up = true →
      ((105 * s.capNow < 100 * w ∧ 2 ≤ s.watch.overs) ∨ 800 < a → (∀ t, s.watch.forcedAt = some t → t + 75000 ≤ s.hedgeNow) → s.mayOrder = true → Does (.hedgerowPowerSample w a) s (fun u =>
        u.watch.forcedAt = some s.hedgeNow ∧
          ∀ f, f < 56 → ∃ o, (u.field f).pwr.steps.find 3 = some o ∧ o.op = min 15 ((s.field 0).slowest + 1))) ∧
      (100 * w ≤ 105 * s.capNow → a ≤ 800 → Does (.hedgerowPowerSample w a) s (fun u => u.watch.overs = 0 ∧ u.watch.forcedAt = none ∧ u.fields = s.fields))) ∧
    (∀ m e, s.mayOrder = true → Does (.estScaleCalibrate m e) s (fun u => ∃ q,
      (0 < e → (q = 1024 * m / e ∨ q = 1024 * m / e + 1) ∧ (1024 * m % e = 0 → q = 1024 * m / e)) ∧
        (u.master 0).estScale = clampN 768 1280 q ∧ (u.master 55).estScale = clampN 768 1280 q)) ∧
    (∀ mv, s.hedge.up = true → Does (.inputVoltageSample mv) s (fun u => u.chassis.mv = mv ∧ u.chassis.range = rangeOf mv ∧
      (rangeOf mv ≠ s.chassis.range → rangeOf mv ≠ 0 → mv ≤ 80000 → Writes s u srcHedgerow 0x0B89 [mv, rangeOf mv]))) ∧
    (s.chassis.board = true → Does .busStop s (fun u => Unpowered u ∧ u.chassis.busStopped = true)) ∧
    Does .currentLimit s (fun u => ∀ f, f < 56 →
      ((s.field f).counting = true → ∃ n, (u.field f).clk.stretch = (s.field f).clk.stretch + BitVec.ofNat 32 n ∧
        ((s.field f).clk.debt + n < 65535 → (u.field f).clk.debt = (s.field f).clk.debt + n)) ∧
      ((s.field f).counting = false → (u.field f).clk = (s.field f).clk)) ∧
    (∀ t n, s.thatchWait t = some n → (s.tile t).act.enable = true → (s.tile t).act.engaged = false → (s.tile t).enginesIdle = true →
      (s.tile t).act.delayCycles ≤ n * opN (s.field (fieldOf t)).clk.op → (s.tile t).idleFrom + (s.tile t).act.delayCycles ≤ s.cycles t →
      s.clocked t = true → 0 < (s.tile t).act.duty →
      Does (.thatchEngage t) s (fun u => (u.tile t).act.engaged = true ∧ (u.tile t).act.running = true ∧ (u.tile t).act.level = (s.tile t).act.duty)) ∧
    (∀ t, (s.tile t).act.running = true → (s.tile t).act.stepAt + (s.tile t).act.downTime ≤ s.time → s.clocked t = true →
      Does (.thatchRampDownStep t) s (fun u => (u.tile t).act.level = (s.tile t).act.level - 1 ∧ ((s.tile t).act.level ≤ 1 → (u.tile t).act.running = false))) ∧
    (∀ t, (s.tile t).act.ceiling < 16 → (s.tile t).act.stepAt + (s.tile t).act.upTime ≤ s.time →
      Does (.thatchRampUpStep t) s (fun u => (u.tile t).act.ceiling = (s.tile t).act.ceiling + 1))

/-- The thermal ladder, coolant, overcurrent and trims (R338, R339, R346, R347, R348, R350, R351, R352, R353, R356). A thermal sample is kept, raises the thermal gate by 4 at the gate limit, parks a field that stood at the park limit for 10 ms, or at the gate limit with its gate at the highest for 50 ms, and turns it off at the fourth reading of 115 degrees; a parked field that stays cool is ordered back; good coolant lifts the cap; a failed sensor, an outlet above 60 degrees or 2 s of low flow stops the compute fields; an overcurrent latches its rails and fails the field; an insulation check is judged at 30 A and 10 A; at the end of a point's 24 hours short margins trim it by one step of ten, and then withhold it; the highest reading clears when it is written. -/
def Obligations.HeatAndRailsProtect : Prop :=
  ∀ s : State,
    (∀ f x n, f < 56 → Does (.thermalSample f x n) s (fun u => (u.field f).pwr.temp = x ∧ (u.field f).pwr.sensor = n)) ∧
    (∀ f x n, f < 56 → ((s.field f).pwr.state = .idle ∨ (s.field f).pwr.state = .active ∨ (s.field f).pwr.state = .retain) → 115 ≤ x → 3 ≤ (s.field f).pwr.trips →
      Does (.thermalSample f x n) s (fun u => (u.field f).pwr.state = .off ∧ (u.field f).pwr.tripped = true ∧ (u.field f).running = false)) ∧
    (∀ f x n, f < 56 → (s.field f).running = true → Int.ofNat (s.field f).pwr.gateAt ≤ x → x < 115 →
      (s.field f).pwr.tgate < 12 → (s.field f).pwr.tgateEpoch ≠ s.time / 100 → s.mb.running = false ∨ (s.field f).svc.state ≠ .testing →
      Does (.thermalSample f x n) s (fun u => (u.field f).pwr.tgate = min 12 ((s.field f).pwr.tgate + 4))) ∧
    (∀ f x n, isCompute f = true → f < 56 → (s.field f).running = true → x < 115 → ((s.field f).pwr.sensed x n s.time).rung3 s.time = true → s.mb.running = true → (s.field f).pwr.plan = .none → (s.field f).svc.state = .inService →
      Does (.thermalSample f x n) s (fun u => (u.field f).pwr.plan = .park ∧ (u.field f).svc.furrow = some 3 ∧ u.cond.wantMap = true)) ∧
    (∀ f k t, s.masterField = some k → (s.master k).autoReturn = true → (s.field f).pwr.parked = true → (s.field f).pwr.state = .retain →
      (s.field f).pwr.plan = .none → (s.field f).pwr.coolSince = some t → t + 2500000 ≤ s.time →
      Does (.autoReturn f) s (fun u => (u.field f).pwr.plan = .back ∧ (u.field f).pwr.waking = some s.time ∧ (u.field f).svc.state = .testing)) ∧
    (∀ c : Coolant, s.hedge.up = true →
      (coolantLost c = false → c.inlet ≤ 320 → 800 ≤ c.flow → c.outlet ≤ 600 →
        Does (.coolantSample c) s (fun u => u.watch.coolant = c ∧ u.watch.coolCap = 0 ∧ u.watch.response = 0 ∧ u.watch.lowFlow = none)) ∧
      (coolantLost c = true ∨ 600 < c.outlet ∨ (c.flow < 200 ∧ ∃ t, s.watch.lowFlow = some t ∧ t + 50000000 ≤ s.hedgeNow) →
        Does (.coolantSample c) s (fun u => u.watch.response = 2 ∧ ∀ f, f < 56 → isCompute f = true → (s.field f).pwr.plan ≠ .off →
          ((s.field f).pwr.state = .retain ∨ (s.mb.running = false ∧ (s.field f).pwr.state ≠ .failed) → (u.field f).pwr.state = .off) ∧
          (s.mb.running = true → (s.field f).pwr.state = .idle ∨ (s.field f).pwr.state = .active →
            (u.field f).pwr.plan = .off ∧ (u.field f).svc.furrow = some 5)))) ∧
    (∀ f core mem, f < 56 → (core || mem) = true → ((s.field f).pwr.state = .idle ∨ (s.field f).pwr.state = .active ∨ (s.field f).pwr.state = .retain) →
      Does (.overcurrentLatch f core mem) s (fun u => (u.field f).pwr.state = .failed ∧ (u.field f).pwr.coreLatch = core ∧ (u.field f).pwr.memLatch = mem ∧
        (u.field f).pwr.cause = (if core then 2 else 3) ∧ (u.field f).svc.furrow = some 2)) ∧
    (∀ f core mem, f < 56 → (core || mem) = true → (s.field f).pwr.state = .off → (s.field f).pwr.cause = 4 → (s.field f).pwr.lostAt = some s.time →
      Does (.overcurrentLatch f core mem) s (fun u => (u.field f).pwr.state = .failed ∧ (u.field f).pwr.coreLatch = core ∧ (u.field f).pwr.memLatch = mem)) ∧
    (∀ f a b t, (s.field f).pwr.insulating = some t → t + 2500000 ≤ s.time → Does (.insulationCheckDone f a b) s (fun u =>
      (u.field f).pwr.insulating = none ∧ (u.field f).pwr.insul = (if a ≤ 30000 ∧ b ≤ 10000 then 1 else 2) ∧
        Writes s u srcHedgerow 0x0B88 [f, a, b, if a ≤ 30000 ∧ b ≤ 10000 then 1 else 2])) ∧
    (∀ f p day, s.mayOrder = true → f < 56 → p < 16 → (s.field f).pwr.shorts.getD p 0 ≤ day → (day + 1) * dayTicks ≤ s.hedgeNow →
      ((s.field f).pwr.trimDue p = true → (s.field f).pwr.trims.getD p 0 < 10 → Does (.trimRaise f p day) s (fun u =>
        (u.field f).pwr.trims.getD p 0 = (s.field f).pwr.trims.getD p 0 + 1 ∧ Writes s u srcHedgerow 0x0B8B [f, p, (s.field f).pwr.trims.getD p 0 + 1])) ∧
      ((s.field f).pwr.trimDue p = true → 10 ≤ (s.field f).pwr.trims.getD p 0 → Does (.trimRaise f p day) s (fun u =>
        (s.mb.running = true → u.cond.highest = min 15 (max s.cond.highest (p + 1))) ∧ Writes s u srcHedgerow 0x0B8C [f, p])) ∧
      ((s.field f).pwr.trimDue p = false → Does (.trimRaise f p day) s (fun u =>
        (u.field f).pwr.trims = (s.field f).pwr.trims ∧ (u.field f).pwr.shorts.getD p 0 = day + 1 ∧ u.cond = s.cond))) ∧
    (∀ f, Does (.fieldThermClear f) s (fun u => (u.field f).pwr.maxTemp = 0))

/-- Bring-up waves and tests (R359, R360, R362, R363, R364, R365, R366, R367, R370, R373, R374). A wave powers its OFF fields at OP0 and opens their tests, or wakes the RETAIN fields of a warm reset; a field that comes no further is left OUT; a known-answer report or its limit enters the tile's result; the marches, the soak and the pauses move a field to its next phase; admission puts every waiting field in service, its good tiles ADMITTED at the resident loop, and completes the bring-up; a retest that ends makes its field READY with event 0x0D87. -/
def Obligations.BringUpAndTestsRun : Prop :=
  ∀ s : State,
    (∀ w rs, s.boot.wave = w → w < 13 → (w = 0 ∨ s.boot.waveAt + (if s.boot.kind = 1 then 6250000 else 1250000) ≤ s.time) → s.mb.running = true →
      (s.boot.kind = 1 → 4 ≤ s.boot.step → s.boot.step ≤ 5 → Does (.fieldPowerWave w rs) s (fun u => u.boot.wave = w + 1 ∧ u.boot.waveAt = s.time ∧
        u.boot.step = 5 ∧ ∀ f ∈ waveFields w, (s.field f).pwr.state = .off → (u.field f).pwr.state = .idle ∧ (u.field f).running = true ∧
          (u.field f).svc.state = .testing ∧ (u.field f).svc.level = 2)) ∧
      (s.boot.kind = 2 → 5 ≤ s.boot.step → s.boot.step ≤ 6 → Does (.fieldPowerWave w rs) s (fun u => u.boot.wave = w + 1 ∧ u.boot.step = 6 ∧
        ∀ f ∈ waveFields w, (s.field f).pwr.state = .retain → (s.field f).svc.stays = false → (u.field f).pwr.waking = some s.time ∧ (u.field f).svc.state = .testing ∧
          (u.field f).svc.level = (if s.warmPath f then 0 else 2)))) ∧
    (∀ f, s.boot.kind = 1 → (s.field f).svc.state = .testing → (s.field f).svc.phase = 2 → (s.field f).svc.since + 6250000 ≤ s.time →
      (∀ b, b < 4 → ((s.field f).xing b).state = .parked) →
      Does (.fieldWaveTimeout f) s (fun u => (u.field f).pwr.state = .off ∧ (u.field f).svc.state = .out)) ∧
    (∀ t cp ep, (s.field (fieldOf t)).svc.phase = 6 → localIdx t ∈ (s.field (fieldOf t)).svc.awaiting →
      Does (.knownAnswerDone t cp ep) s (fun u => localIdx t ∉ (u.field (fieldOf t)).svc.awaiting ∧
        ((∃ j ∈ (s.field (fieldOf t)).svc.awaiting, j ≠ localIdx t) → ((u.field (fieldOf t)).svc.recs.getD (localIdx t) {}).result =
          Nat.lor ((s.field (fieldOf t)).svc.recs.getD (localIdx t) {}).result ((if cp then 0 else 1) + (if ep then 0 else 2)))) ∧
      ((s.tile t).fault.valid = true ∨ (s.field (fieldOf t)).svc.since + 250000 ≤ s.time → Does (.knownAnswerTimeout t) s (fun u =>
        localIdx t ∉ (u.field (fieldOf t)).svc.awaiting ∧
          ((∃ j ∈ (s.field (fieldOf t)).svc.awaiting, j ≠ localIdx t) →
            ((u.field (fieldOf t)).svc.recs.getD (localIdx t) {}).result = Nat.lor ((s.field (fieldOf t)).svc.recs.getD (localIdx t) {}).result 1)))) ∧
    (∀ f bad rs, (s.field f).svc.state = .testing →
      ((s.field f).svc.phase = 4 → (∃ i ∈ (s.field f).svc.clean, ∀ t ∈ bad ++ rs, fieldOf t = f → localIdx t ≠ i) →
        Does (.marchDone f .scratchpad bad rs) s (fun u => (u.field f).svc.phase = 6 ∧ (u.field f).mesh.mcastEn = true ∧
          ∀ i, i ∈ (u.field f).svc.awaiting ↔ i ∈ (s.field f).svc.clean ∧ ∀ t ∈ bad ++ rs, fieldOf t = f → localIdx t ≠ i)) ∧
      ((s.field f).svc.phase = 7 → (s.field f).svc.level ≠ 1 → Does (.marchDone f .tileMemory bad rs) s (fun u => (u.field f).svc.phase = 8 ∧
        ∀ i ∈ (s.field f).svc.testing, ∀ a, tmBase ≤ a → a < tmEnd → (u.tile (localTile f i)).mem.cells.read a = 0)) ∧
      ((s.field f).svc.phase = 7 → (s.field f).svc.level = 1 → s.boot.kind ≠ 1 →
        Does (.marchDone f .tileMemory bad rs) s (fun u => (u.field f).svc.phase = 11))) ∧
    (∀ f x, (s.field f).svc.state = .testing → (s.field f).svc.phase = 8 → (45 ≤ x ∨ s.soakOver f = true) →
      Does (.soakDone f x) s (fun u => (u.field f).svc.phase = 9 ∧ (u.field f).svc.cold = decide (x < 45) ∧ (u.field f).svc.log2k = pauseLog x ∧
        (x < 45 → Writes s u f 0x0D86 [f, x.toNat]))) ∧
    (∀ f bad, (s.field f).svc.state = .testing → (s.field f).svc.since + pauseTicks (s.field f).svc.pause * 2 ^ (s.field f).svc.log2k ≤ s.time →
      (((s.field f).svc.phase = 9 ∨ (s.field f).svc.phase = 10) → (s.field f).svc.pause < 2 → Does (.profilingPauseEnd f bad) s (fun u =>
        (u.field f).svc.pause = (s.field f).svc.pause + 1 ∧ (u.field f).svc.phase = (s.field f).svc.phase ∧ (u.field f).svc.since = s.time)) ∧
      ((s.field f).svc.phase = 9 → 2 ≤ (s.field f).svc.pause →
        Does (.profilingPauseEnd f bad) s (fun u => (u.field f).svc.phase = 10 ∧ (u.field f).svc.pause = 0)) ∧
      ((s.field f).svc.phase = 10 → 2 ≤ (s.field f).svc.pause → s.boot.kind ≠ 1 →
        Does (.profilingPauseEnd f bad) s (fun u => (u.field f).svc.phase = 11))) ∧
    ((s.boot.kind = 1 ∨ s.boot.kind = 2) → s.boot.wave = 13 → s.mesh.next = none → s.cond.wantMap = false → s.mb.running = true →
      (∀ f ∈ s.bootFields, (s.field f).svc.phase = 11 ∧ (s.field f).svc.furrow = none ∧ s.mesh.map.holds f = false) →
      Does .bringupAdmission s (fun u => u.boot.kind = 0 ∧ u.boot.complete = true ∧ u.chassis.restarts = 0 ∧
        ∀ f ∈ s.bootFields, (u.field f).svc.state = .inService ∧ (u.field f).svc.testing = [] ∧
          ∀ t, onArray t = true → fieldOf t = f → (s.tile t).st = .quarantine → (∀ r ∈ s.mesh.map.furrows, r.covers t = false) →
            (∀ g ∈ s.bootFields, ∀ i ∈ (s.field g).svc.testing, i < 12000 ∧ (localTile g i = t → ((s.field g).svc.recs.getD i {}).result = 0)) →
            (u.tile t).st = .admitted ∧ (u.tile t).core.pc = Config.residentLoop ∧ (u.tile t).core.halted = false)) ∧
    (∀ f, (s.field f).svc.state = .testing → (s.field f).svc.phase = 11 → (s.field f).svc.furrow = none → s.mesh.next = none →
      s.mesh.map.holds f = false → s.cond.wantMap = false → s.boot.kind = 0 ∨ (s.boot.kind = 2 ∧ (s.field f).svc.level = 2) →
      Does (.retestDone f) s (fun u => (u.field f).svc.state = .ready ∧ Writes s u srcConductor 0x0D87 [f, 6, 1, 2, (s.field f).svc.failed]))

/-- Fault logs, mailboxes and the conductor's role (R384, R387, R388, R389, R390, R394, R395, R397, R398, R400, R482, R484). A scan takes a newly halted tile into its field's log; the conductor's poll reads and frees every log, and a tail frees what it passes; a permitted message word and doorbell are stored and any other access is counted with event 0x0E82; a poll takes every full channel, answers a collision and what fails an early check and puts the rest in take order; a finished command posts its record, one at its limit ends with TIMEOUT and event 0x0E85, and a waiting enable starts after its shutdown; the beat, the boot, the standby's copy and the takeover set the role. -/
def Obligations.FaultLogsAndMailbox : Prop :=
  ∀ s : State,
    (∀ f, f < 56 → (s.field f).running = true → (s.field f).flt.epoch < s.time / 100 → 20 ≤ s.time % 100 →
      Does (.haltScan f) s (fun u => (u.field f).flt.haltVec = s.haltedIn f ∧ (u.field f).flt.epoch = s.time / 100 ∧
        ∀ i, s.haltedIn f = [i] → i ∉ (s.field f).flt.taken → (s.field f).flt.count < 64 →
          (u.field f).flt.count = (s.field f).flt.count + 1 ∧ (u.field f).flt.taken = [i] ∧
            (u.field f).flt.entries.find (s.field f).flt.next = some (s.fltEntry (localTile f i) (100 * (s.time / 100))) ∧
            Writes s u (srcTileNo (localTile f i)) (s.tile (localTile f i)).fault.code [(s.tile (localTile f i)).fault.info0.toNat,
              (s.tile (localTile f i)).fault.info1.toNat, (s.tile (localTile f i)).fault.pc.toNat, (s.tile (localTile f i)).fault.unit,
              (s.tile (localTile f i)).gen])) ∧
    (∀ f i, f < 56 → (s.field f).running = true → (s.field f).flt.epoch < s.time / 100 → 20 ≤ s.time % 100 → i ∈ s.haltedIn f → i ∉ (s.field f).flt.taken →
      (s.field f).flt.count + (s.haltedIn f).length ≤ 64 → Does (.haltScan f) s (fun u => i ∈ (u.field f).flt.taken ∧
        ∃ n, (u.field f).flt.entries.find n = some (s.fltEntry (localTile f i) (100 * (s.time / 100))))) ∧
    (s.mb.running = true → Does .faultLogPoll s (fun u => u.cond.pollAt = s.time ∧
      ∀ f, f < 56 → (u.field f).flt.count = 0 ∧ ∀ e ∈ (s.field f).flt.unread, e.tile ∈ u.cond.halted)) ∧
    (∀ f n, f < 56 → Does (.fltRead f n) s (fun u =>
      ((n % 64 + 64 - (s.field f).flt.tail) % 64 ≤ (s.field f).flt.count →
        (u.field f).flt.tail = n % 64 ∧ (u.field f).flt.count = (s.field f).flt.count - (n % 64 + 64 - (s.field f).flt.tail) % 64) ∧
      ((s.field f).flt.count < (n % 64 + 64 - (s.field f).flt.tail) % 64 → (u.field f).flt.tail = (s.field f).flt.next ∧ (u.field f).flt.count = 0))) ∧
    (∀ sp sec c w v,
      (mayAccess sp sec c = true → w < 16 → Does (.mbMsgWrite sp sec c w v) s (fun u => (u.chan c).msg.getD w 0 = v ∧
        (u.chan c).collision = ((s.chan c).collision || (s.chan c).full) ∧ ∀ d, d ≠ c → u.chan d = s.chan d)) ∧
      (mayAccess sp sec c = false → Does (.mbMsgWrite sp sec c w v) s (fun u => u.mb.chans = s.mb.chans ∧ u.mb.violation = s.mb.violation + 1 ∧
        Writes s u srcConductor 0x0E82 [c, sp, 1])) ∧
      (mayAccess sp sec c = true → bits v 15 0 ≠ 0 → Does (.mbDoorbell sp sec c v) s (fun u => (u.chan c).seq = bits v 15 0 ∧ (u.chan c).full = true ∧
        (u.chan c).taken = false ∧ (u.chan c).collision = ((s.chan c).collision || (s.chan c).full))) ∧
      (mayAccess sp sec c = true → bits v 15 0 = 0 → Does (.mbDoorbell sp sec c v) s (fun u => u = s.spineGrant sp)) ∧
      (mayAccess sp sec c = true → 16 ≤ w → Does (.mbMsgWrite sp sec c w v) s (fun u => u = s.spineGrant sp)) ∧
      (mayAccess sp sec c = false → Does (.mbDoorbell sp sec c v) s (fun u => u.mb.chans = s.mb.chans ∧ u.mb.violation = s.mb.violation + 1 ∧
        Writes s u srcConductor 0x0E82 [c, sp, 1]))) ∧
    (s.mb.running = true → (∀ h, s.cond.takeover = some h → h + 2500 ≤ s.time) → s.cond.handover = false → Does .mailboxPoll s (fun u =>
      u.cond.takeover = none ∧ (s.cond.takeover ≠ none → Writes s u srcConductor 0x0E83 s.cond.takeNote) ∧
      ∀ c m, c < 64 → (s.chan c).full = true → (s.chan c).buf = none → m = (upto 16).map (fun i => (s.chan c).msg.getD i 0) →
        (u.chan c).full = false ∧ (u.chan c).taken = true ∧
        ((s.chan c).collision = true → (u.chan c).ackCode = rcCollisionSeen ∧ (u.chan c).ackSeq = (s.chan c).seq) ∧
        (∀ code r, (s.chan c).collision = false → s.earlyCheck m c = some (code, r) → (u.chan c).ackCode = code ∧ (u.chan c).buf = none) ∧
        ((s.chan c).collision = false → s.earlyCheck m c = none → c ∈ u.cond.order ∧ ∃ k, (u.chan c).buf = some k ∧ k.words = m ∧ k.seq = (s.chan c).seq))) ∧
    (∀ c n p, s.findCmd c n = some p → p.waiting = false → s.mb.running = true →
      (∀ code, p.outcome = some code → Does (.commandComplete c n) s (fun u => Posted u p.words c n code p.results ∧ u.findCmd c n = none)) ∧
      (p.since + cmdLimit p.words ≤ s.time → Does (.commandTimeout c n) s (fun u => u.findCmd c n = none ∧ Posted u p.words c n rcTimeout p.results ∧
        Writes s u srcConductor 0x0E85 [c, msgCode p.words, p.step]))) ∧
    (∀ c n p q, s.findCmd c n = some p → p.waiting = true → s.mb.running = true → msgCode p.words = 0x0801 → msgWord p.words 2 = q → q < 56 →
      (s.port q).state = 0 → (∀ r ∈ s.cond.pend, r.waiting = false → funcKey r.words ≠ some (1, q)) →
      Does (.deferredEnableStart c n) s (fun u => u.findCmd c n = none ∧ nbit (u.port q).ctrl.toNat 31 = true)) ∧
    (s.mb.running = true → s.mb.beatAt + 250 ≤ s.time ∨ s.mb.beatAt = 0 →
      Does .conductorBeat s (fun u => u.mb.beat = BitVec.ofNat 32 s.time ∧ u.mb.beatAt = s.time ∧ u.cond.silent = none)) ∧
    (∀ kf, (kf = 0 ∨ kf = 55) → (s.field kf).running = true → kf ∉ s.cond.up →
      Does (.conductorBoot kf) s (fun u => kf ∈ u.cond.up ∧ (s.mb.running = true → u.cond.rebuilding = true) ∧
        (s.mb.running = false → kf = 0 ∨ (s.field 0).running = false →
          u.mb.running = true ∧ u.mb.activeKf = (if kf = 0 then 0 else 1) ∧ u.mb.epoch = (s.mb.epoch + 1) % 65536))) ∧
    (s.mb.running = true → s.cond.rebuilding = true → s.cond.up.length = 2 →
      Does .standbyRebuildDone s (fun u => u.mb.standbyReady = true ∧ u.cond.rebuilding = false)) ∧
    (∀ old new, (s.mb.activeKf = 0 ∧ old = 0 ∧ new = 55) ∨ (s.mb.activeKf ≠ 0 ∧ old = 55 ∧ new = 0) → s.mb.standbyReady = true →
      (s.field new).running = true → ((s.field old).running = false ∨ s.mb.beatAt + 750 ≤ s.time ∨ s.cond.handover = true) →
      Does .conductorTakeover s (fun u => u.mb.activeKf = (if new = 0 then 0 else 1) ∧ u.mb.running = true ∧ u.mb.epoch = (s.mb.epoch + 1) % 65536 ∧
        u.mb.standbyReady = false ∧ u.cond.takeover = some s.time ∧ u.cond.handover = false ∧ u.cond.rebuilding = (s.field old).running))

/-- System and identity commands (R275, R317, R337, R342, R369, R390, R392, R397, R402, R484). From the message that stands first in take order: identity, status and ping post their words; a warm reset that may be accepted starts and waits, otherwise it answers BUSY; the wafer identifier is set and sent to the partners of UP ports, an argument above 65,535 refused; a handover waits for a ready standby; bound-void flags are reported and, where asked, cleared, but for those whose cause lasts: async in monitor-steered mode (R317, log entry 76), gate while the field is gated (R337), thatch while a ramp ceiling is low (R342). -/
def Obligations.SystemCommandsComplete : Prop :=
  ∀ (s : State) (c : Nat) (k : Taken),
    (Takes s c 0x0101 k → Does (.sysIdentify c) s (fun u => ∃ ws, Answers u c k ws ∧ ws.take 4 =
      [loWord Config.serial, loWord (Config.serial / 2 ^ 32), loWord (Config.serial / 2 ^ 64), loWord Config.part] ∧
        ws.getD 8 0 = loWord (total ((upto 56).map s.admitted)) ∧ ws.getD 11 0 = loWord s.waferId)) ∧
    (Takes s c 0x0102 k → Does (.sysStatus c) s (fun u => ∃ ws, Answers u c k ws ∧ ws.length = 6 ∧
      ws.take 3 = [word [(s.boot.kind, 0), (s.boot.step, 4)], s.mb.roleWord, loWord s.mesh.map.seq])) ∧
    (Takes s c 0x0103 k → s.pendRoom c = true →
      (s.warmOk = true → Does (.sysWarmReset c) s (fun u => Pends s u c k none [] ∧ WarmStarted u)) ∧
      (s.warmOk = false → Does (.sysWarmReset c) s (fun u => Refuses s u c k rcBusy))) ∧
    (Takes s c 0x0104 k →
      (msgWord k.words 2 ≤ 65535 → Does (.sysSetWaferId c) s (fun u => Answers u c k [] ∧ u.waferId = msgWord k.words 2 ∧
        ∀ p, p < 56 → (s.port p).state = 4 → ∃ b, b.wafer = msgWord k.words 2 ∧ CtlFrame.cap (Sys2Proof.Machine.CapBlock.bytes b) ∈ (u.port p).out)) ∧
      (65535 < msgWord k.words 2 → Does (.sysSetWaferId c) s (fun u => Refuses s u c k rcBadArgument ∧ u.waferId = s.waferId))) ∧
    (Takes s c 0x0105 k → s.pendRoom c = true →
      (s.mb.standbyReady = true → Does (.sysHandover c) s (fun u => Pends s u c k none [] ∧ u.cond.handover = true)) ∧
      (s.mb.standbyReady = false → Does (.sysHandover c) s (fun u => Refuses s u c k rcStateConflict))) ∧
    (∀ fm, Takes s c 0x0106 k → msgMask k.words 2 = some fm →
      (msgWord k.words 4 = 1 → Does (.sysBoundVoid c) s (fun u => (∃ ws, Answers u c k ws ∧ ws.take 2 = maskWords ((maskFields fm).filter (fun f => (s.field f).anyVoid))) ∧
        ∀ f ∈ maskFields fm, (u.field f).anyVoid = ((s.field f).clk.bvAsync && (s.field f).clk.monitor || decide (0 < (s.field f).gate) ||
          (s.tilesOf f).any (fun t => decide ((s.tile t).act.ceiling < 16))))) ∧
      (msgWord k.words 4 = 0 → Does (.sysBoundVoid c) s (fun u => (∃ ws, Answers u c k ws ∧ ws.length = 5) ∧ u.fields = s.fields))) ∧
    (Takes s c 0x0106 k → msgMask k.words 2 = none ∨ 1 < msgWord k.words 4 → Does (.sysBoundVoid c) s (fun u => Refuses s u c k rcBadArgument)) ∧
    (Takes s c 0x0107 k → Does (.sysPing c) s (fun u => Answers u c k (timeWords k.at_)))

/-- Field commands (R299, R328, R347, R353, R373, R374, R376, R390, R403, R62). With no order of the compute field under way: admission of a READY field, draining, parking, return, reset, retest, failure, clearing, the insulation check and the three power orders have their effect and wait or answer as their kind says, a query posts its seven registers, and a tile reset posts the new generation. -/
def Obligations.FieldCommandsComplete : Prop :=
  ∀ (s : State) (c : Nat) (k : Taken),
    (∀ f, msgWord k.words 2 = f → f < 56 → isKeep f = false → s.orderBusy f = false →
    (s.pendRoom c = true →
      (Takes s c 0x0201 k → (s.field f).svc.state = .ready → (s.field f).pwr.rung3 s.time = false →
        Does (.fieldAdmit c) s (fun u => Pends s u c k (some rcOk) [loWord (u.admitted f)] ∧ (u.field f).svc.state = .inService)) ∧
      (Takes s c 0x0202 k → ((s.field f).svc.state = .inService ∨ (s.field f).svc.state = .ready) →
        Does (.fieldDrain c) s (fun u => Pends s u c k none [] ∧ (u.field f).svc.furrow = some 4 ∧ u.cond.wantMap = true)) ∧
      (Takes s c 0x0203 k → ((s.field f).svc.state = .inService ∨ (s.field f).svc.state = .drained) → (s.field f).running = true →
        Does (.fieldPark c) s (fun u => Pends s u c k none [] ∧ (u.field f).pwr.plan = .park ∧ (u.field f).svc.furrow = some 3)) ∧
      (Takes s c 0x0204 k → (s.field f).svc.state = .parked → msgWord k.words 3 ≤ 1 →
        Does (.fieldReturn c) s (fun u => Pends s u c k none [] ∧ (u.field f).pwr.plan = .back ∧ (u.field f).svc.state = .testing ∧ (u.field f).svc.level = 0)) ∧
      (Takes s c 0x0205 k → (s.field f).svc.state = .drained → Does (.fieldReset c) s (fun u => Pends s u c k (some rcOk) [] ∧
        (u.field f).svc.resetDone = true ∧ ∀ t, onArray t = true → fieldOf t = f → (u.tile t).inService = false)) ∧
      (Takes s c 0x0206 k → (s.field f).svc.state = .drained → msgWord k.words 3 ≤ 2 → s.testingFields.length < 8 →
        Does (.fieldRetest c) s (fun u => Pends s u c k none [] ∧ (u.field f).svc.state = .testing ∧ (u.field f).svc.phase = 4 ∧
          (u.field f).svc.level = msgWord k.words 3)) ∧
      (Takes s c 0x0207 k → (s.field f).svc.state ≠ .failed → Does (.fieldFail c) s (fun u => Pends s u c k (some rcOk) [] ∧
        (u.field f).pwr.state = .failed ∧ (u.field f).pwr.cause = 1 ∧ (u.field f).svc.state = .failed)) ∧
      (Takes s c 0x0209 k → (s.field f).svc.state = .failed →
        Does (.fieldInsulate c) s (fun u => Pends s u c k none [] ∧ (u.field f).pwr.insulating = some s.time)) ∧
      (Takes s c 0x020A k → s.enableWaits (2, f) = false →
        (msgWord k.words 3 = 0 → (s.field f).running = true →
          Does (.fieldPower c) s (fun u => Pends s u c k none [] ∧ (u.field f).pwr.plan = .retain ∧ (u.field f).svc.furrow = some 5)) ∧
        (msgWord k.words 3 = 1 → (s.field f).pwr.state = .retain → (s.field f).pwr.parked = false →
          Does (.fieldPower c) s (fun u => Pends s u c k none [] ∧ (u.field f).pwr.plan = .wake ∧ (u.field f).pwr.waking = some s.time)) ∧
        (msgWord k.words 3 = 2 → (s.field f).pwr.state = .idle →
          Does (.fieldPower c) s (fun u => Pends s u c k none [] ∧ (u.field f).pwr.plan = .off ∧ u.cond.wantMap = true)) ∧
        (msgWord k.words 3 = 2 → (s.field f).pwr.state = .retain →
          Does (.fieldPower c) s (fun u => Pends s u c k none [] ∧ (u.field f).pwr.state = .off)))) ∧
    (Takes s c 0x0208 k → (s.field f).svc.state = .failed → (s.field f).pwr.clearable = true → Does (.fieldClear c) s (fun u => Answers u c k [] ∧
      (u.field f).pwr.state = .off ∧ (u.field f).pwr.coreLatch = false ∧ (u.field f).pwr.memLatch = false ∧ (u.field f).svc.state = .out)) ∧
    (Takes s c 0x020B k → Does (.fieldQuery c) s (fun u => Answers u c k ([0xA000, 0x9000, 0xA004, 0xA008, 0xA010, 0xA014, 0x9004].map (s.fcReg f)) ∧
      u.fields = s.fields))) ∧
    (∀ t, Takes s c 0x020C k → msgPos (msgWord k.words 2) = t → msgWord k.words 2 < 2 ^ 20 → onArray t = true → (s.tile t).inService = true →
      s.clocked t = true →
      (65535 ≤ (s.tile t).gen → Does (.tileReset c) s (fun u => Answers u c k [0] ∧ (u.tile t).st = .hole)) ∧
      ((s.tile t).gen < 65535 →
      Does (.tileReset c) s (fun u => Answers u c k [loWord ((s.tile t).gen + 1)] ∧ (u.tile t).st = .quarantine ∧ (u.tile t).gen = (s.tile t).gen + 1 ∧
        u.cond.gens.getD (tileKey t) 0 = (s.tile t).gen + 1)))

/-- Refusals of the field orders (R373, R401, R403). An order of a field number above 55 is BAD_ARGUMENT, one of a keep field NOT_PERMITTED, and a park, return, reset, retest, failure, clearing or insulation check that finds an order or a park of its field under way BUSY; nothing of the engine changes. -/
def Obligations.FieldCommandsRefuse : Prop :=
  ∀ (s : State) (c : Nat) (k : Taken) (f : Nat), msgWord k.words 2 = f → msgWord k.words 3 ≤ 1 →
    (∀ i n, (i, n) ∈ [(Instr.fieldAdmit c, 0x0201), (.fieldDrain c, 0x0202), (.fieldPark c, 0x0203), (.fieldReturn c, 0x0204), (.fieldReset c, 0x0205),
        (.fieldRetest c, 0x0206), (.fieldFail c, 0x0207), (.fieldClear c, 0x0208), (.fieldInsulate c, 0x0209), (.fieldPower c, 0x020A), (.fieldQuery c, 0x020B)] →
      Takes s c n k →
      (55 < f → Does i s (fun u => Refuses s u c k rcBadArgument)) ∧
      (f < 56 → isKeep f = true → Does i s (fun u => Refuses s u c k rcNotPermitted))) ∧
    (∀ i n, (i, n) ∈ [(Instr.fieldPark c, 0x0203), (.fieldReturn c, 0x0204), (.fieldReset c, 0x0205), (.fieldRetest c, 0x0206), (.fieldFail c, 0x0207),
        (.fieldClear c, 0x0208), (.fieldInsulate c, 0x0209)] →
      Takes s c n k → f < 56 → isKeep f = false → s.orderBusy f = true → Does i s (fun u => Refuses s u c k rcBusy))

/-- Job and fold commands (R158, R163, R168, R376, R390, R404, R405, R406, R483). A job is declared FREE to DECLARED with its mask; a checked segment whose records the job may load is written, its tiles out of service, and a segment that fails a check is IMAGE_REJECTED at the offset it fails; a start admits the job's admittable tiles at their START_PC and a start behind a stop waits; a stop resets the tiles in service; a release frees the job; a query posts its state and counts; the fold commands load, arm a switch at least 80 ticks ahead and write the schedule. -/
def Obligations.JobAndFoldCommandsComplete : Prop :=
  ∀ (s : State) (c : Nat) (k : Taken) (j : Nat), msgWord k.words 2 = j → j < 16 →
    (∀ fm, Takes s c 0x0301 k → msgMask k.words 3 = some fm → (s.job j).st = 0 →
      Does (.jobDeclare c) s (fun u => Answers u c k [] ∧ (u.job j).st = 1 ∧ (u.job j).fmask = fm ∧ (u.job j).tiles = [])) ∧
    (∀ n a, Takes s c 0x0302 k → msgWord k.words 4 < 4096 → hostByte (msgAddr k.words 3) = some (n, a) → a + msgWord k.words 5 ≤ hostMemSize →
      (∀ rs, checkSegment (Memory.readN (s.host n).mem (msgWord k.words 5) a) (msgWord k.words 5) = .inl rs → s.loadRefusal j rs = none → s.pendRoom c = true →
        Does (.jobLoad c) s (fun u => (∃ ws, Pends s u c k (some rcOk) ws ∧ ws.getD 0 0 = loWord rs.length) ∧ (u.job j).st = 2 ∧
          ∀ r ∈ rs, (u.tile r.tile).inService = false ∧ r.tile ∈ (u.job j).tiles)) ∧
      (∀ e, checkSegment (Memory.readN (s.host n).mem (msgWord k.words 5) a) (msgWord k.words 5) = .inr e →
        Does (.jobLoad c) s (fun u => Acked u c k rcImageRejected ∧ Posted u k.words c k.seq rcImageRejected [0, 0, loWord e, 0, 0xFFFFFFFF] ∧
          u.tiles = s.tiles ∧ u.job j = s.job j))) ∧
    (Takes s c 0x0303 k → s.pendRoom c = true →
      ((s.job j).stopping = false → ((s.job j).st = 2 ∨ (s.job j).st = 4) → (∀ e ∈ (s.job j).images, e.2.1 < regBase) →
        Does (.jobStart c) s (fun u => (∃ ws, Pends s u c k (some rcOk) ws) ∧ (u.job j).st = 3 ∧
          ∀ t ∈ (s.job j).tiles, s.admittable t = true → (u.tile t).st = .admitted ∧ (u.tile t).core.pc = (s.job j).starts.getD (tileKey t) 0)) ∧
      ((s.job j).stopping = true → Does (.jobStart c) s (fun u => Acked u c k rcPendingEnable ∧ ∃ p ∈ u.cond.pend, p.chan = c ∧ p.seq = k.seq ∧ p.waiting = true))) ∧
    (Takes s c 0x0304 k → s.pendRoom c = true → (s.job j).stopping = false → (s.job j).st = 3 →
      Does (.jobStop c) s (fun u => Pends s u c k none [] ∧ (u.job j).stopping = true ∧ ∀ t ∈ (s.job j).tiles, (u.tile t).inService = false)) ∧
    (Takes s c 0x0305 k → (s.job j).st ≠ 3 → Does (.jobRelease c) s (fun u => Answers u c k [] ∧ u.job j = {})) ∧
    (Takes s c 0x0306 k → Does (.jobQuery c) s (fun u => (∃ ws, Answers u c k ws ∧ ws.take 2 = [loWord (s.job j).st, loWord (s.job j).tiles.length]) ∧
      u.tiles = s.tiles)) ∧
    (Takes s c 0x0307 k → s.pendRoom c = true → (s.job j).st = 3 → (s.job j).stopping = false → msgWord k.words 3 < 512 → msgWord k.words 3 / 8 % 32 = 0 →
      Does (.foldLoad c) s (fun u => ∃ ws, Pends s u c k (some rcOk) ws ∧ ws.length = 3)) ∧
    (∀ T w t0, Takes s c 0x0308 k → s.pendRoom c = true → msgWord k.words 3 = w → msgWord k.words 4 + msgWord k.words 5 * 2 ^ 32 = t0 →
      T = (if t0 = 0 then s.time + 80 else t0) → s.time + 80 ≤ T →
      (w < 8 → Does (.foldSwitch c) s (fun u => Pends s u c k (some rcOk) (timeWords T ++ [0]) ∧
        ∀ t ∈ (s.job j).tiles, (s.tile t).st = .admitted → (u.tile t).fold.armed = some (.slot w, T))) ∧
      (∀ e, e < 16 → w = 2 ^ 31 + e * 2 ^ 16 → Does (.foldSwitch c) s (fun u => Pends s u c k (some rcOk) (timeWords T ++ [0]) ∧
        ∀ t ∈ (s.job j).tiles, (s.tile t).st = .admitted → (u.tile t).fold.armed = some (.entry e, T)))) ∧
    (∀ w t0, Takes s c 0x0308 k → msgWord k.words 3 = w → msgWord k.words 4 + msgWord k.words 5 * 2 ^ 32 = t0 →
      (8 ≤ w ∧ w < 2 ^ 31) ∨ (t0 ≠ 0 ∧ t0 < s.time + 80) → Does (.foldSwitch c) s (fun u => Refuses s u c k rcBadArgument)) ∧
    (Takes s c 0x0309 k → msgWord k.words 3 < 512 → nbits (msgWord k.words 3) 8 4 ≤ 16 → (∀ i, i < 8 → msgWord k.words (4 + i) < 2 ^ 27) →
      Does (.foldSchedule c) s (fun u => Answers u c k [] ∧ ∀ t ∈ (s.job j).tiles, (s.tile t).present = true →
        (u.tile t).fold.schedLen = nbits (msgWord k.words 3) 8 4 ∧
          ∀ i, i < 8 → nbits (msgWord k.words 3) 3 0 + i < 16 → nbits (msgWord k.words 3) 3 0 + i < nbits (msgWord k.words 3) 8 4 →
            (u.tile t).fold.sched.getD (nbits (msgWord k.words 3) 3 0 + i) (0, 0) = (nbits (msgWord k.words (4 + i)) 26 24, nbits (msgWord k.words (4 + i)) 23 0)))

/-- Broker and window commands (R225, R289, R390, R407). A connect from an admitted tile's IDLE context, and a lookup, towards the wafer itself or one with a route wait on the request they leave behind; a close empties a remote context; the policy and the directory take what is written, a name twice or an unknown one being refused. -/
def Obligations.BrokerAndWindowCommandsComplete : Prop :=
  ∀ (s : State) (c : Nat) (k : Taken),
    (∀ t n w, Takes s c 0x0401 k → s.pendRoom c = true → msgPos (msgWord k.words 2) = t → msgWord k.words 2 < 2 ^ 20 → onArray t = true →
      (s.tile t).inService = true → msgWord k.words 3 = n → n < 16 → ((s.tile t).ctx n).state = 0 → msgWord k.words 4 = w → w < 65536 →
      (w = s.waferId ∨ s.route s.activeKeep w ≠ none) → msgWord k.words 6 < 2 ^ 14 → nbits (msgWord k.words 6) 7 3 = 0 →
      1 ≤ nbits (msgWord k.words 6) 13 8 → nbits (msgWord k.words 6) 13 8 ≤ 32 → msgWord k.words 5 < 2 ^ 20 → (msgPos (msgWord k.words 5)).x < 800 →
      (msgPos (msgWord k.words 5)).y < 840 →
      Does (.brokerConnect c) s (fun u => Pends s u c k none [] ∧ ∃ r ∈ u.cond.reqs, r.chan = c ∧ r.seq = k.seq ∧ r.tile = t ∧ r.ctx = n ∧ r.wafer = w ∧
        r.queue = nbits (msgWord k.words 6) 2 0 ∧ r.far = msgPos (msgWord k.words 5))) ∧
    (∀ t n, Takes s c 0x0402 k → msgPos (msgWord k.words 2) = t → msgWord k.words 2 < 2 ^ 20 → onArray t = true → (s.tile t).present = true →
      msgWord k.words 3 = n → n < 16 → ((s.tile t).ctx n).remote = true → ((s.tile t).ctx n).state ≠ 0 →
      Does (.brokerClose c) s (fun u => Answers u c k [] ∧ ((u.tile t).ctx n).state = 0 ∧ ((u.tile t).ctx n).credits = 0)) ∧
    (Takes s c 0x0403 k → msgWord k.words 2 < 65536 → msgWord k.words 3 < 65536 → msgWord k.words 4 ≤ 128 →
      Does (.brokerPolicy c) s (fun u => Answers u c k [] ∧ u.cond.polSrc = msgWord k.words 2 ∧ u.cond.polMask = msgWord k.words 3 ∧
        u.cond.polMax = msgWord k.words 4)) ∧
    (∀ t, Takes s c 0x0404 k → msgPos (msgWord k.words 3) = t → msgWord k.words 3 < 2 ^ 20 → onArray t = true → (s.tile t).present = true →
      msgWord k.words 4 < 8 → msgWord k.words 5 < 65536 → msgWord k.words 6 < 65536 →
      ((∀ w ∈ s.cond.dir, w.name ≠ msgWord k.words 2) → s.cond.dir.length < 256 → Does (.windowPublish c) s (fun u => Answers u c k [] ∧
        ∃ w ∈ u.cond.dir, w.name = msgWord k.words 2 ∧ w.pos = t ∧ w.window = msgWord k.words 4 ∧ w.key = msgWord k.words 5 ∧ w.length = msgWord k.words 6)) ∧
      ((∃ w ∈ s.cond.dir, w.name = msgWord k.words 2) → Does (.windowPublish c) s (fun u => Refuses s u c k rcStateConflict ∧ u.cond.dir = s.cond.dir))) ∧
    (Takes s c 0x0405 k →
      ((∃ w ∈ s.cond.dir, w.name = msgWord k.words 2) → Does (.windowWithdraw c) s (fun u => Answers u c k [] ∧ ∀ w ∈ u.cond.dir, w.name ≠ msgWord k.words 2)) ∧
      ((∀ w ∈ s.cond.dir, w.name ≠ msgWord k.words 2) → Does (.windowWithdraw c) s (fun u => Refuses s u c k rcNotPresent))) ∧
    (∀ w, Takes s c 0x0406 k → s.pendRoom c = true → msgWord k.words 2 = w → w < 65536 →
      ((w = s.waferId ∨ s.route s.activeKeep w ≠ none) → Does (.windowLookup c) s (fun u => Pends s u c k none [] ∧
        ∃ r ∈ u.cond.reqs, r.chan = c ∧ r.seq = k.seq ∧ r.wafer = w)) ∧
      (w ≠ s.waferId → s.route s.activeKeep w = none → Does (.windowLookup c) s (fun u => Refuses s u c k rcNotPresent)))

/-- Sync debug, power and thatch commands (R258, R259, R345, R355, R356, R357, R390, R408, R409). A cell of a field or of a tile is read, set and its waiters released by force, its waiters listed; the core's stall is ended, a swait with FORCED and any other with STALL_TIMEOUT; caps, policy, group and limits are written where they are in range, the master's figures are posted, and the thatch image goes into every admitted tile of the fields named. -/
def Obligations.SyncAndPowerCommandsComplete : Prop :=
  ∀ (s : State) (c : Nat) (k : Taken),
    (∀ n f i, msgWord k.words 2 = n → n < 65536 → cellHost n = (f, i) → s.cellsUp f = true →
      (Takes s c 0x0501 k → Does (.cellRead c) s (fun u => Answers u c k [((s.field f).cell i).flags, loWord ((s.field f).cell i).value,
        loWord ((s.field f).cell i).target, loWord ((s.field f).waitersOn i).length] ∧ u.fields = s.fields)) ∧
      (Takes s c 0x0502 k → msgWord k.words 4 ≤ 2 → msgWord k.words 5 < 2 ^ 24 → msgWord k.words 6 < 2 ^ 24 → 
        ∀ x : Cell, x = { (s.field f).cell i with type := msgWord k.words 4, value := msgWord k.words 5, target := msgWord k.words 6 } →
        Does (.cellSet c) s (fun u => Answers u c k [loWord (x.evaluate ((s.field f).waitersOn i).length).2] ∧
          (u.field f).cell i = (x.evaluate ((s.field f).waitersOn i).length).1 ∧
          (∀ w ∈ ((s.field f).waitersOn i).take (x.evaluate ((s.field f).waitersOn i).length).2,
            Sent u (.tile w.tile) (.status (.wait (cellNumber f w.cell)) stOk)) ∧
          Writes s u f 0x0685 [cellNumber f i, ((s.field f).cell i).type, x.type, ((s.field f).cell i).value, x.value, c])) ∧
      (Takes s c 0x0503 k → msgWord k.words 4 = 0xFFFFFFFF → Does (.cellForce c) s (fun u => Answers u c k [loWord ((s.field f).waitersOn i).length] ∧
        (u.field f).waitersOn i = [] ∧ ∀ w ∈ (s.field f).waitersOn i, Sent u (.tile w.tile) (.status (.wait (cellNumber f w.cell)) stForced))) ∧
      (Takes s c 0x0504 k → Does (.cellWaiters c) s (fun u => (∃ ws, Answers u c k ws ∧ ws.getD 0 0 = loWord ((s.field f).waitersOn i).length) ∧
        u.fields = s.fields))) ∧
    (∀ t i, msgWord k.words 2 = 65536 + i → i < 16 → msgPos (msgWord k.words 3) = t → msgWord k.words 3 < 2 ^ 20 → onArray t = true → (s.tile t).present = true →
      (Takes s c 0x0501 k → Does (.cellRead c) s (fun u => Answers u c k [((s.tile t).cell i).flags, loWord ((s.tile t).cell i).value,
        loWord ((s.tile t).cell i).target, loWord (b2n ((s.tile t).waitsLocal i))] ∧ u.tiles = s.tiles)) ∧
      (Takes s c 0x0502 k → msgWord k.words 4 ≤ 2 → msgWord k.words 5 < 2 ^ 24 → msgWord k.words 6 < 2 ^ 24 → Does (.cellSet c) s (fun u => Acked u c k rcOk ∧
        ((u.tile t).cell i).type = msgWord k.words 4 ∧ ((u.tile t).cell i).target = msgWord k.words 6)) ∧
      (Takes s c 0x0503 k → msgWord k.words 4 = 0xFFFFFFFF → (s.tile t).waitsLocal i = true →
        Does (.cellForce c) s (fun u => Answers u c k [1] ∧ (u.tile t).core.stall = none)) ∧
      (Takes s c 0x0504 k → (s.tile t).waitsLocal i = false → Does (.cellWaiters c) s (fun u => Answers u c k [0]))) ∧
    (∀ t x, Takes s c 0x0505 k → msgPos (msgWord k.words 2) = t → msgWord k.words 2 < 2 ^ 20 → onArray t = true → (s.tile t).present = true →
      msgWord k.words 3 = 0 →
      ((s.tile t).core.stall = none → Does (.tileRelease c) s (fun u => Answers u c k [] ∧ u.tiles = s.tiles)) ∧
      ((s.tile t).core.stall = some x → x.op ≠ .swait → x.op ≠ .ldt → (s.tile t).core.halted = false → s.clocked t = true →
        Does (.tileRelease c) s (fun u => Answers u c k [] ∧ Completed s u t x.a stStallTimeout 0)) ∧
      ((s.tile t).core.stall = some x → x.op = .swait → 65536 ≤ x.obj → (s.tile t).core.halted = false → s.clocked t = true →
        Does (.tileRelease c) s (fun u => Answers u c k [] ∧ Completed s u t x.a stForced 0))) ∧
    (Takes s c 0x0601 k → msgWord k.words 2 < 65536 →
      Does (.pwrSetCap c) s (fun u => Answers u c k [] ∧ (u.master 0).cap = msgWord k.words 2 ∧ (u.master 55).cap = msgWord k.words 2)) ∧
    (Takes s c 0x0602 k → msgWord k.words 2 < 512 → Does (.pwrSetPolicy c) s (fun u => Answers u c k [] ∧
      ∀ f, f = 0 ∨ f = 55 → (u.master f).maxGate = nbits (msgWord k.words 2) 3 0 ∧ (u.master f).stepAfter = nbits (msgWord k.words 2) 7 4 ∧
        (u.master f).autoReturn = nbit (msgWord k.words 2) 8)) ∧
    (Takes s c 0x0603 k → msgWord k.words 2 < 65536 → Does (.pwrSetGroup c) s (fun u => Answers u c k [] ∧ u.cond.group = msgWord k.words 2 ∧
      u.cond.groupCap = msgWord k.words 3 ∧ ∀ e ∈ u.cond.notes, e.1.group = msgWord k.words 2)) ∧
    (Takes s c 0x0604 k → Does (.pwrQuery c) s (fun u => (∃ ws, Answers u c k ws ∧ ws.length = 7 ∧ ws.getD 1 0 = loWord s.capNow) ∧ u.fields = s.fields)) ∧
    (∀ fm, Takes s c 0x0605 k → s.pendRoom c = true → msgMask k.words 2 = some fm → msgWord k.words 4 % 256 = 0 → Does (.thatchSet c) s (fun u =>
      (∃ n, Pends s u c k (some rcOk) [loWord n]) ∧
        ∀ t, onArray t = true → nbit fm (fieldOf t) = true → (s.tile t).inService = true → (u.tile t).act = (s.tile t).act.writeThatch (loWord (msgWord k.words 4)))) ∧
    (∀ fm w, Takes s c 0x0606 k → msgMask k.words 2 = some fm → msgWord k.words 4 = w → w < 2 ^ 24 → 85 ≤ nbits w 23 16 → nbits w 23 16 ≤ 105 →
      80 ≤ nbits w 15 8 → nbits w 15 8 ≤ 100 → 75 ≤ nbits w 7 0 → nbits w 7 0 ≤ 95 →
      Does (.thermSetLimits c) s (fun u => Answers u c k [] ∧ ∀ f ∈ maskFields fm, (u.field f).pwr.limPark = nbits w 23 16 ∧
        (u.field f).pwr.limGate = nbits w 15 8 ∧ (u.field f).pwr.limWarn = nbits w 7 0))

/-- Clock and port commands (R265, R274, R281, R286, R310, R311, R312, R319, R390, R395, R410, R411). An operating point or mode in range arms its order in every field for its boundary, or is held until the boundary is within 2^31 - 256 ticks; a port is enabled, disabled, retrained and set up as its command says; a route entry goes into every dock and is cleared from every dock; queries post their words; a port number above 55 is refused. -/
def Obligations.ClockAndPortCommandsComplete : Prop :=
  ∀ (s : State) (c : Nat) (k : Taken),
    (∀ op at_, Takes s c 0x0701 k → s.pendRoom c = true → msgWord k.words 2 = op → op < 16 → s.cond.highest ≤ op →
      s.clkAt op (msgWord k.words 3 + msgWord k.words 4 * 2 ^ 32) = some at_ →
      (at_ ≤ s.time + (2 ^ 31 - 256) → Does (.clkSetOp c) s (fun u => Pends s u c k none (timeWords at_) ∧ u.cond.reqOp = op ∧
        ∀ f, f < 56 → ∃ o, (u.field f).clk.order = some o ∧ o.kind = 1 ∧ o.op = op ∧
          (s.time + leadOf (s.field f).clk.op op ≤ at_ → o.at_ = at_))) ∧
      (s.time + (2 ^ 31 - 256) < at_ → Does (.clkSetOp c) s (fun u => Pends s u c k none (timeWords at_) ∧ u.fields = s.fields ∧
        ({ kind := 1, op := op, at_ := at_ } : HeldOrder) ∈ u.cond.heldOrders))) ∧
    (∀ op at_ m, Takes s c 0x0702 k → s.pendRoom c = true → msgWord k.words 2 = m → m < 2 → msgWord k.words 3 = op → op < 16 → s.cond.highest ≤ op →
      s.clkAt op (msgWord k.words 4 + msgWord k.words 5 * 2 ^ 32) = some at_ →
      (s.leavingMode = false → at_ ≤ s.time + (2 ^ 31 - 256) → Does (.clkSetMode c) s (fun u => Pends s u c k none (timeWords at_) ∧
        ∀ f, f < 56 → ∃ o, (u.field f).clk.order = some o ∧ o.kind = (if m = 1 then 2 else 3) ∧ o.op = op ∧
          (m = 1 ∨ s.time + leadOf (s.field f).clk.op op ≤ at_ → o.at_ = at_))) ∧
      (s.leavingMode = false → s.time + (2 ^ 31 - 256) < at_ → Does (.clkSetMode c) s (fun u => Pends s u c k none (timeWords at_) ∧ u.fields = s.fields ∧
        ({ kind := if m = 1 then 2 else 3, op := op, at_ := at_ } : HeldOrder) ∈ u.cond.heldOrders)) ∧
      (s.leavingMode = true → m = 0 → Does (.clkSetMode c) s (fun u => Pends s u c k none (timeWords at_))) ∧
      (s.leavingMode = true → m = 1 → Does (.clkSetMode c) s (fun u => Acked u c k rcPendingEnable ∧ u.fields = s.fields ∧
        ∃ p ∈ u.cond.pend, p.chan = c ∧ p.seq = k.seq ∧ p.waiting = true))) ∧
    (Takes s c 0x0703 k → Does (.clkQuery c) s (fun u => (∃ ws, Answers u c k ws ∧ ws.take 4 = [loWord (b2n (s.field 0).clk.monitor), loWord (s.field 0).clk.op,
      loWord (s.field 0).clk.ceiling, loWord s.cond.highest]) ∧ u.fields = s.fields)) ∧
    (s.mb.running = true → Does .heldOrderWrite s (fun u => (∀ o ∈ u.cond.heldOrders, s.time + (2 ^ 31 - 256) < o.at_) ∧
      ∀ o, s.cond.heldOrders = [o] → o.at_ ≤ s.time + (2 ^ 31 - 256) → ∀ f, f < 56 → ∃ q, (u.field f).clk.order = some q ∧ q.kind = o.kind ∧ q.op = o.op)) ∧
    (∀ i n, (i, n) ∈ [(Instr.portUp c, 0x0801), (.portDown c, 0x0802), (.portRetrain c, 0x0803), (.portRelay c, 0x0804), (.portLaneMap c, 0x0805),
        (.portConfig c, 0x0806), (.portQuery c, 0x0809), (.portForget c, 0x080A)] →
      Takes s c n k → 55 < msgWord k.words 2 → Does i s (fun u => Refuses s u c k rcBadArgument)) ∧
    (∀ p, msgWord k.words 2 = p → p < 56 →
      (Takes s c 0x0801 k → s.portLeaving p = false → Does (.portUp c) s (fun u => Answers u c k [(u.port p).stateWord] ∧ bit (u.port p).ctrl 31 = true ∧
        ((s.port p).state = 0 → s.portField p = true → (u.port p).state = 1))) ∧
      (Takes s c 0x0802 k →
        ((s.port p).state = 0 → Does (.portDown c) s (fun u => Answers u c k [] ∧ bit (u.port p).ctrl 31 = false ∧ (u.port p).state = 0)) ∧
        ((s.port p).state ≠ 0 → s.portLeaving p = false → s.pendRoom c = true →
          Does (.portDown c) s (fun u => Pends s u c k none [] ∧ bit (u.port p).ctrl 31 = false ∧ (u.port p).state = 0))) ∧
      (Takes s c 0x0803 k → s.pendRoom c = true →
        ((s.port p).state = 4 → Does (.portRetrain c) s (fun u => Pends s u c k none [] ∧ (u.port p).state = 5)) ∧
        ((s.port p).state ≠ 4 → Does (.portRetrain c) s (fun u => Refuses s u c k rcStateConflict))) ∧
      (Takes s c 0x0804 k → msgWord k.words 3 ≤ 1 →
        Does (.portRelay c) s (fun u => Answers u c k [] ∧ bit (u.port p).ctrl 30 = (msgWord k.words 3 == 1))) ∧
      (Takes s c 0x0805 k → (msgWord k.words 4 = 0 → Does (.portLaneMap c) s (fun u => Answers u c k [] ∧ (u.port p).fixedMap = none)) ∧
        (msgWord k.words 4 = 1 → laneMapOk (msgWord k.words 3) = true →
          Does (.portLaneMap c) s (fun u => Answers u c k [] ∧ (u.port p).fixedMap = some (loWord (msgWord k.words 3))))) ∧
      (Takes s c 0x0806 k → msgWord k.words 4 < 2 ^ 18 → Does (.portConfig c) s (fun u => Answers u c k [] ∧ (u.port p).timeout = msgWord k.words 4 ∧
        bit (u.port p).ctrl 31 = bit (s.port p).ctrl 31 ∧ bit (u.port p).ctrl 30 = bit (s.port p).ctrl 30 ∧ u.boot.programmed = true)) ∧
      (Takes s c 0x0809 k → Does (.portQuery c) s (fun u => Answers u c k ([0x7004, 0x7008, 0x700C, 0x7010, 0x7020, 0x7028, 0x7030, 0x7044].map (s.fcReg p)) ∧
        u.ports = s.ports)) ∧
      (Takes s c 0x080A k → Does (.portForget c) s (fun u => Answers u c k [] ∧ (u.port p).partner = none))) ∧
    (∀ w, Takes s c 0x0807 k → msgWord k.words 2 = w → routeOk w (msgWord k.words 5) = true → nbit w 31 = true →
      Does (.routeSet c) s (fun u => Answers u c k [] ∧ u.boot.programmed = true ∧ ∀ p, p < 56 →
        ∃ ws, (u.port p).routes.find (w % 4096) = some ws ∧ (routeOf ws).valid = true ∧ (routeOf ws).wafer = w % 65536 ∧ (routeOf ws).egress = nbits w 29 24)) ∧
    (∀ w, Takes s c 0x0808 k → msgWord k.words 2 = w → w < 65536 →
      ((∃ p ws, p < 56 ∧ (s.port p).routes.find (w % 4096) = some ws ∧ (routeOf ws).valid = true ∧ (routeOf ws).wafer = w) →
        Does (.routeClear c) s (fun u => Answers u c k [] ∧ ∀ p, p < 56 → ∀ ws, (u.port p).routes.find (w % 4096) = some ws →
          (routeOf ws).valid = true → (routeOf ws).wafer ≠ w)) ∧
      ((∀ p ws, p < 56 → (s.port p).routes.find (w % 4096) = some ws → (routeOf ws).valid = true → (routeOf ws).wafer ≠ w) →
        Does (.routeClear c) s (fun u => Refuses s u c k rcNotPresent)))

/-- Firmware and map commands (R185, R206, R390, R412, R413). A query posts the versions; a staged controller or tile image is committed and taken by the fields named, a conductor image by the standby, which then takes over; without a staged image the answer is NOT_PRESENT, while its kind is being pushed STATE_CONFLICT. The map in force goes into host memory as R185 lays it out, the distance table's header and the records named likewise, and a wait stays pending. -/
def Obligations.FirmwareAndMapCommandsComplete : Prop :=
  ∀ (s : State) (c : Nat) (k : Taken),
    (Takes s c 0x0901 k → Does (.fwQuery c) s (fun u => Answers u c k (s.versions ++ [2, 3, 4, 5].map (fun k => loWord (s.flash.staged.getD k {}).version)))) ∧
    (∀ fm, Takes s c 0x0902 k → s.pendRoom c = true → msgMask k.words 3 = some fm →
      (∀ i, msgWord k.words 2 = 0 → s.pushedBy 3 none = false → s.flash.staged.find 3 = some i → Does (.fwApply c) s (fun u => Pends s u c k (some rcOk) [loWord (maskFields fm).length] ∧
        (u.flash.regions.getD 3 {}).version = i.version ∧ ∀ f ∈ maskFields fm, (u.field f).fcVersion = i.version)) ∧
      (∀ i, msgWord k.words 2 = 1 → s.pushedBy 4 none = false → s.flash.staged.find 4 = some i →
        (∀ f ∈ maskFields fm, (s.field f).svc.state = .drained ∨ (s.field f).svc.state = .ready) →
        Does (.fwApply c) s (fun u => Pends s u c k (some rcOk) [loWord (maskFields fm).length] ∧ ∀ f ∈ maskFields fm, (u.field f).tileVersion = i.version)) ∧
      (∀ i, msgWord k.words 2 = 2 → fm = 0 → s.pushedBy 2 none = false → s.flash.staged.find 2 = some i → s.mb.standbyReady = true →
        Does (.fwApply c) s (fun u => Pends s u c k none [0] ∧ u.cond.handover = true ∧ u.cond.versions.getD s.standbyKf 0 = i.version)) ∧
      (∀ a kind, (a, kind) ∈ [(0, 3), (1, 4), (2, 2)] → msgWord k.words 2 = a → (a = 2 → fm = 0) →
        (s.pushedBy kind none = true → Does (.fwApply c) s (fun u => Refuses s u c k rcStateConflict ∧ u.flash = s.flash)) ∧
        (s.pushedBy kind none = false → s.flash.staged.find kind = none → Does (.fwApply c) s (fun u => Refuses s u c k rcNotPresent ∧ u.flash = s.flash)))) ∧
    (∀ j o, Takes s c 0x0A01 k → s.pendRoom c = true → msgWord k.words 3 < 4096 → (FMap.bytes s.mesh.map).length ≤ msgWord k.words 4 →
      hostRoom (msgAddr k.words 2) (FMap.bytes s.mesh.map).length = some (j, o) → (s.field (keepField j)).running = true →
      Does (.mapGet c) s (fun u => Pends s u c k (some rcOk) ([loWord s.mesh.map.seq, loWord (FMap.bytes s.mesh.map).length] ++ timeWords s.mesh.map.effective) ∧
        Memory.readN (u.host j).mem (FMap.bytes s.mesh.map).length o = FMap.bytes s.mesh.map)) ∧
    (∀ j o n, Takes s c 0x0A02 k → s.pendRoom c = true → msgWord k.words 3 = n → msgWord k.words 2 + n ≤ 672000 → msgWord k.words 5 < 4096 →
      hostRoom (msgAddr k.words 4) (64 + 384 * n) = some (j, o) → (s.field (keepField j)).running = true →
      Does (.distGet c) s (fun u => Pends s u c k (some rcOk) [loWord s.mesh.distMap.seq] ∧ Memory.readN (u.host j).mem (64 + 384 * n) o =
        s.distHead s.distCrc ++ (upto n).flatMap (fun i => s.distRecord (msgWord k.words 2 + i)))) ∧
    (Takes s c 0x0A03 k → s.pendRoom c = true → msgWord k.words 3 ≤ 1 → Does (.mapWait c) s (fun u => Pends s u c k none [])) ∧
    (Takes s c 0x0A03 k → 1 < msgWord k.words 3 → Does (.mapWait c) s (fun u => Refuses s u c k rcBadArgument))

/-- Wafer window, interrupts, loader and boot of a host node (R417, R418, R423, R424, R426, R427, R428, R430, R435, R436, R438). A load or store of a running hart goes into the mesh as a raw access, or raises its exception and sends nothing; an answer ends it, a limit ends it with status 0xFF; a fence waits for the hart's writes; timers and software interrupts set their bits; HOST_CLK obeys machine mode alone; a forwarded command goes on the node's secure channel where the mask permits it; a node boots in stages, the loader's image first, fails by code and event 0x0D89, and boots again when its supervisor asks. -/
def Obligations.HostNodesRun : Prop :=
  ∀ (s : State) (k : Nat),
    (∀ i addr size form, s.hartRuns k i = true → addr < 2 ^ 44 →
      (∀ x, winTrap addr size form = some x → Does (.waferWindowLoad k i addr size form) s (fun u => ((u.host k).hart i).trap = x ∧ u.mesh = s.mesh)) ∧
      (winTrap addr size form = none → oneAccess size false form = true → ((s.host k).hart i).held = [] → (s.host k).reads < 1024 →
        (s.cutOffKeep k = false → Does (.waferWindowLoad k i addr size form) s (fun u => Sent u (winTarget addr).1 (.rawRead (winTarget addr).2 size) ∧
          ∃ a ∈ (u.host k).flight, a.id = (s.host k).nextId ∧ a.hart = i ∧ a.addr = addr ∧ a.size = size ∧ a.data = none)) ∧
        (s.cutOffKeep k = true → Does (.waferWindowLoad k i addr size form) s (fun u => ((u.host k).hart i).load = List.replicate size 255 ∧
          (u.host k).winErr = (s.host k).winErr + 1 ∧ u.mesh = s.mesh))) ∧
      (winTrap addr size form = none → oneAccess size false form = false → form = .vector → ((s.host k).hart i).held = [] →
        (s.host k).reads + size ≤ 1024 → s.cutOffKeep k = false → Does (.waferWindowLoad k i addr size form) s (fun u =>
          ∀ j, j < size → Sent u (winTarget (addr + j)).1 (.rawRead (winTarget (addr + j)).2 1)))) ∧
    (∀ i addr bs form, s.hartRuns k i = true → addr < 2 ^ 44 →
      (∀ x, winTrap addr bs.length form = some x → Does (.waferWindowStore k i addr bs form) s (fun u => ((u.host k).hart i).trap = x ∧ u.mesh = s.mesh)) ∧
      (winTrap addr bs.length form = none → oneAccess bs.length true form = true → ((s.host k).hart i).held = [] → (s.host k).writes < 8192 →
        (s.cutOffKeep k = false → Does (.waferWindowStore k i addr bs form) s (fun u => Sent u (winTarget addr).1 (.rawWrite (winTarget addr).2 bs) ∧
          ∃ a ∈ (u.host k).flight, a.id = (s.host k).nextId ∧ a.hart = i ∧ a.addr = addr ∧ a.data = some bs)) ∧
        (s.cutOffKeep k = true → Does (.waferWindowStore k i addr bs form) s (fun u => (u.host k).winErr = (s.host k).winErr + 1 ∧ u.mesh = s.mesh))) ∧
      (winTrap addr bs.length form = none → oneAccess bs.length true form = false → form = .vector → ((s.host k).hart i).held = [] →
        (s.host k).writes + bs.length ≤ 8192 → s.cutOffKeep k = false → Does (.waferWindowStore k i addr bs form) s (fun u =>
          ∀ j, j < bs.length → Sent u (winTarget (addr + j)).1 (.rawWrite (winTarget (addr + j)).2 (bytesAt bs j 1))))) ∧
    (∀ id a, (s.host k).accOf id = some a → (∀ i, i < 32 → ((s.host k).hart i).held = []) →
      (a.since + max 2500 (s.host k).winTimeout ≤ s.time → Does (.waferWindowTimeout k id) s (fun u => (u.host k).accOf id = none ∧ (u.host k).winValid = true ∧
        (u.host k).winErr = (s.host k).winErr + 1 ∧
        ((s.host k).winValid = false → (u.host k).winStatus = 0xFF ∧ (u.host k).winAddr = a.addr ∧ (u.host k).winHart = a.hart))) ∧
      (∀ st bs, Does (.waferWindowAnswer k id st bs) s (fun u => (u.host k).accOf id = none ∧
        (statusCode st = stOk → (u.host k).winErr = (s.host k).winErr ∧ (a.data = none → ((u.host k).hart a.hart).load = bs)) ∧
        (statusCode st ≠ stOk → (u.host k).winErr = (s.host k).winErr + 1 ∧ (u.host k).winValid = true ∧
          ((s.host k).winValid = false → (u.host k).winStatus = statusCode st ∧ (u.host k).winAddr = a.addr) ∧
          (a.data = none → ((u.host k).hart a.hart).load = List.replicate a.size 255 ∧
            ((u.host k).hart a.hart).trap = (if (s.host k).winFault = true then 3 else 0)))))) ∧
    (∀ i, s.hartRuns k i = true → ((s.host k).hart i).held = [] →
      ((∃ a ∈ (s.host k).flight, a.isWrite = true ∧ a.hart = i) → Does (.hartFenceIo k i) s (fun u => ((u.host k).hart i).held = [.fence])) ∧
      ((∀ a ∈ (s.host k).flight, a.isWrite = true → a.hart ≠ i) → Does (.hartFenceIo k i) s (fun u => ((u.host k).hart i).held = []))) ∧
    (s.nodeOn k = true →
      (∀ i, i < 32 → ((s.host k).hart i).mtimecmp ≤ s.time → Does (.timerInterrupt k i true) s (fun u => ((u.host k).hart i).mtip = true)) ∧
      (∀ i, i < 32 → ((s.host k).hart i).stimecmp ≤ s.time → Does (.timerInterrupt k i false) s (fun u => ((u.host k).hart i).stip = true)) ∧
      (∀ i b, i < 32 → Does (.softwareInterruptWrite k true i b) s (fun u => ((u.host k).hart i).msip = b) ∧
        Does (.softwareInterruptWrite k false i b) s (fun u => ((u.host k).hart i).ssip = (((s.host k).hart i).ssip || b))) ∧
      (∀ w, Does (.hostClkWrite k true w) s (fun u => (u.host k).freq = bits w 4 0 ∧
          (freqInForce (bits w 4 0) ≠ freqInForce (s.host k).freq → (u.host k).stallTo = s.time + 500)) ∧
        Does (.hostClkWrite k false w) s (fun u => u = s)) ∧
      (∀ i m, (s.host k).stage = 4 → i < 2 → m.length = 16 →
        (s.hedge.forwards (msgCode m) = false → Does (.sbiSecureForward k i m) s (fun u => (u.host k).sbi = some rcNotPermitted ∧ u.mb = s.mb)) ∧
        (s.hedge.forwards (msgCode m) = true → (s.chan (40 + 2 * k + i)).full = false → (s.chan (40 + 2 * k + i)).buf = none →
          Does (.sbiSecureForward k i m) s (fun u => (u.chan (40 + 2 * k + i)).full = true ∧
            ∀ j, j < 16 → (u.chan (40 + 2 * k + i)).msg.getD j 0 = m.getD j 0))) ∧
      ((s.host k).stage = 4 → Does (.sbiSystemReset k) s (fun u => (u.host k).stage = 1 ∧ (u.host k).bootAt = s.time ∧ (u.host k).harts = [] ∧
        (u.host k).mem = (s.host k).mem ∧ ∀ j, j ≠ k → u.host j = s.host j)) ∧
      (s.hedge.up = true →
        ((s.host k).stage = 1 ∨ ((s.host k).stage = 15 ∧ (s.host k).attempts = 1) → ∀ b l,
          l = (Config.imageBody (s.flash.regions.getD 5 {}).digest).take 0x400000 → Does (.nodeBoot k b) s (fun u =>
            (u.host k).stage = 2 ∧ (u.host k).code = 0 ∧ Memory.readN (u.host k).mem l.length 0 = l)) ∧
        ((s.host k).stage = 2 → Does (.nodeBoot k true) s (fun u => (u.host k).stage = 3) ∧
          Does (.nodeBoot k false) s (fun u => (u.host k).stage = 15 ∧ (u.host k).code = 1 ∧ (u.host k).attempts = (s.host k).attempts + 1 ∧
            Writes s u (srcHost k) 0x0D89 [k, 1, (s.host k).attempts + 1])) ∧
        ((s.host k).stage = 3 → ∀ b, Does (.nodeBoot k b) s (fun u => (u.host k).stage = 4)) ∧
        ((s.host k).stage = 15 → 2 ≤ (s.host k).attempts → ∀ b, Does (.nodeBoot k b) s (fun u => u = s))) ∧
      (1 ≤ (s.host k).stage → (s.host k).stage ≤ 3 → (s.host k).bootAt + 50000000 ≤ s.time →
        Does (.hostBootTimeout k) s (fun u => (u.host k).stage = 15 ∧ (u.host k).code = 2 ∧ Writes s u (srcHost k) 0x0D89 [k, 2, (s.host k).attempts + 1])))

/-- Ethernet, PCIe and register writes (R6, R418, R421, R429, R431, R432, R434, R505). A ring's tail is written; a transmit descriptor that can be read is sent and its ring moves on; a received frame fills its descriptors or is dropped and counted; a link changes as its port allows; a device out of PERST# reaches local memory alone, and any other address is an Unsupported Request; a word write reaches the register its space and offset name. -/
def Obligations.HostDevicesAndRegisters : Prop :=
  ∀ (s : State) (k : Nat),
    (s.nodeOn k = true →
      (∀ p r v, p < 2 → r < 8 → Does (.ethRingTailWrite k p true r v) s (fun u => (((u.host k).port p).ring r).tail = v % 65536) ∧
        Does (.ethRingTailWrite k p false r v) s (fun u => (((u.host k).port p).ring (8 + r)).tail = v % 65536)) ∧
      (∀ p r o b d, p < 2 → r < 8 → ((s.host k).port p).enable = true → ((s.host k).port p).link = true → (((s.host k).port p).ring r).enable = true →
        (((s.host k).port p).ring r).head ≠ (((s.host k).port p).ring r).tail % (((s.host k).port p).ring r).slots →
        (((s.host k).port p).ring r).descAt (((s.host k).port p).ring r).head = some o → (s.host k).desc o = d →
        ((s.host k).port p).pause.getD d.prio 0 ≤ s.time →
        (localMem d.addr d.length = none ∨ (localMem d.addr d.length = some b ∧ (s.host k).badIn b d.length ≠ none) →
          Does (.ethDescriptorDone k p r) s (fun u =>
            (((u.host k).port p).ring r).head = ((((s.host k).port p).ring r).head + 1) % (((s.host k).port p).ring r).slots ∧
            ((u.host k).port p).sent = ((s.host k).port p).sent)) ∧
        (localMem d.addr d.length = some b → (s.host k).badIn b d.length = none → Does (.ethDescriptorDone k p r) s (fun u =>
          (((u.host k).port p).ring r).head = ((((s.host k).port p).ring r).head + 1) % (((s.host k).port p).ring r).slots ∧
          (d.last = true → ((s.host k).port p).frag = [] → 64 ≤ d.length → d.length ≤ ((s.host k).port p).maxFrame →
            ((u.host k).port p).sent = ((s.host k).port p).sent ++ [Memory.readN (s.host k).mem d.length b])))) ∧
      (∀ p bs prio hash, p < 2 → ((s.host k).port p).enable = true → ((s.host k).port p).link = true → 64 ≤ bs.length →
        bs.length ≤ ((s.host k).port p).maxFrame →
        (∀ op, pauseOp bs = some op → Does (.ethFrameReceive k p bs prio hash) s (fun u =>
          (u.host k).port p = ((s.host k).port p).takePause op s.time bs)) ∧
        (pauseOp bs = none → (((s.host k).port p).ring (8 + hash % 8)).enable = false ∨
            (s.host k).plan (((s.host k).port p).ring (8 + hash % 8)) (((s.host k).port p).ring (8 + hash % 8)).slots
              (((s.host k).port p).ring (8 + hash % 8)).head bs = none →
          Does (.ethFrameReceive k p bs prio hash) s (fun u => ((u.host k).port p).rxDrop = ((s.host k).port p).rxDrop + 1)) ∧
        (∀ ds, pauseOp bs = none → (((s.host k).port p).ring (8 + hash % 8)).enable = true →
          (s.host k).plan (((s.host k).port p).ring (8 + hash % 8)) (((s.host k).port p).ring (8 + hash % 8)).slots
            (((s.host k).port p).ring (8 + hash % 8)).head bs = some ds →
          Does (.ethFrameReceive k p bs prio hash) s (fun u => ((u.host k).port p).rxDrop = ((s.host k).port p).rxDrop ∧
            (((u.host k).port p).ring (8 + hash % 8)).head =
              ((((s.host k).port p).ring (8 + hash % 8)).head + ds.length) % (((s.host k).port p).ring (8 + hash % 8)).slots))) ∧
      (∀ p m, p < 2 → (((s.host k).port p).enable = true → 1 ≤ m → m ≤ 2 →
          Does (.ethLinkChange k p true m) s (fun u => ((u.host k).port p).link = true ∧ ((u.host k).port p).mode = m ∧
            ((u.host k).port p).present = true)) ∧
        Does (.ethLinkChange k p false m) s (fun u => ((u.host k).port p).link = false ∧ ((u.host k).port p).present = !(m == 0))) ∧
      (s.perst k = false → ∀ a bs, (∀ o, localMem a bs.length = some o → Does (.pcieDeviceWrite k a bs) s (fun u => Memory.readN (u.host k).mem bs.length o = bs ∧
          SameBut (s.host k).mem (u.host k).mem o bs.length)) ∧
        (localMem a bs.length = none → Does (.pcieDeviceWrite k a bs) s (fun u => (u.host k).aer = (s.host k).aer ||| aerUnsupported ∧
          (u.host k).mem = (s.host k).mem))) ∧
      (s.perst k = true → ∀ a bs n, Does (.pcieDeviceWrite k a bs) s (fun u => u = s) ∧ Does (.pcieDeviceRead k a n) s (fun u => u = s)) ∧
      (s.perst k = false → ∀ a n, (∀ o, localMem a n = some o → (s.host k).badIn o n = none →
          Does (.pcieDeviceRead k a n) s (fun u => (u.host k).dma = .data (Memory.readN (s.host k).mem n o))) ∧
        (∀ o w, localMem a n = some o → (s.host k).badIn o n = some w → Does (.pcieDeviceRead k a n) s (fun u => (u.host k).dma = .poisoned ∧
          Writes s u (srcHost k) 0x0C83 [k, w, 1])) ∧
        (localMem a n = none → Does (.pcieDeviceRead k a n) s (fun u => (u.host k).dma = .unsupported))) ∧
      (∀ v, Does (.registerWrite (.hostCtl k) (.host true) 0x10 v) s (fun u => (u.host k).winFault = bit v 31 ∧ (u.host k).winTimeout = bits v 23 0)) ∧
      (∀ v, Does (.registerWrite (.hostCtl k) (.host false) 0x10 v) s (fun u => u = s)) ∧
      (∀ p v, p < 2 → Does (.registerWrite (.eth k p) (.host true) 0 v) s (fun u => ((u.host k).port p).enable = bit v 31 ∧
        ((u.host k).port p).pfc = bit v 30 ∧ ((u.host k).port p).mtu = bits v 29 16)) ∧
      (∀ i v, i < 32 → Does (.registerWrite (.aclint k) (.host true) (4 * i) v) s (fun u => ((u.host k).hart i).msip = bit v 0))) ∧
    (∀ sp w o v, o % 4 ≠ 0 → Does (.registerWrite sp w o v) s (fun u => u = s)) ∧
    (∀ t w v, (w = .core ∨ w = .fc) → onArray t = true → (s.tile t).present = true → s.clocked t = true →
      Does (.registerWrite (.tile t) w 0x11C v) s (fun u => (u.tile t).act = (s.tile t).act.writeThatch v ∧ OnlyTile s u t)) ∧
    (∀ f v, f < 56 → Does (.registerWrite (.fc f) .conductor 0x8014 v) s (fun u => (u.field f).clk.low = 7)) ∧
    (∀ sp sec c w v, c < 64 → w < 16 → mayAccess sp sec c = true → Does (.registerWrite (.mailbox sp sec) (.host true) (128 * c + 4 * w) v) s (fun u =>
      (u.chan c).msg.getD w 0 = v ∧ (u.chan c).collision = ((s.chan c).collision || (s.chan c).full)))

/-- Hedgerow, its recorder and its buses (R379, R444, R446, R453, R454, R455, R469, R471, R472). A restart keeps the wafer and ends sessions; the other side-band mode is tried after 3 s, and a link is reported; a poll takes the holding area and marks a reading out of range; the buffer goes to flash, or to the holding area when Hedgerow is silent; the hour's anchor is written; MCTP requests queue their replies and private reads take them; the slot check settles with its record; a profile ages by an hour. -/
def Obligations.HedgerowBusesAnswer : Prop :=
  ∀ s : State, s.hedge.up = true →
    (∀ c bad, Does (.hedgerowRestart c bad) s (fun u => u.hedge.up = !bad.contains 1 ∧ u.hedge.sessions = [] ∧ u.hedge.eid = 0 ∧ u.hedge.spdm = [] ∧
      u.scarab.ram = [] ∧ u.tiles = s.tiles ∧ u.fields = s.fields ∧ u.time = s.time)) ∧
    (s.hedge.sideLink = false → s.hedge.sideAt + 75000000 ≤ s.hedgeNow →
      Does .sidebandModeTry s (fun u => u.hedge.sideMode = 1 - s.hedge.sideMode ∧ u.hedge.sideAt = s.hedgeNow)) ∧
    (∀ m, m ≤ 2 → (s.hedge.sideLink = false → (m = 2 ↔ s.hedge.sideMode = 1) → Does (.sidebandLink m true) s (fun u => u.hedge.sideLink = true ∧
        Writes s u srcHedgerow 0x0F8E [m, 1])) ∧
      (s.hedge.sideLink = true → Does (.sidebandLink m false) s (fun u => u.hedge.sideLink = false ∧ u.hedge.sideMode = 0 ∧
        Writes s u srcHedgerow 0x0F8E [m, 0]))) ∧
    (∀ f fr, f < 56 → Does (.hedgerowFieldPoll f fr) s (fun u => u.hedge.pollAt = s.time ∧ u.scarab.holding = [] ∧
      u.hedge.unread = s.hedge.unread.erase f ∧
      ∀ i x, fr.thermal[i]? = some x → i < 12 → thermalOk x = false → (u.hedge.sensors.getD (sensorKey f i) {}).failed = true)) ∧
    ((s.scarab.flushAt + 2500000 ≤ s.hedgeNow ∨ 512 ≤ s.scarab.ram.length) → Does .scarabFlush s (fun u => u.scarab.ram = [] ∧ u.scarab.flushAt = s.hedgeNow ∧
      (s.scarab.region.length + s.scarab.ram.length < 229376 → u.scarab.region = s.scarab.region ++ s.scarab.ram))) ∧
    (s.mb.running = true → s.hedge.pollAt + 250000 ≤ s.time → Does .scarabHoldingDrain s (fun u => u.scarabQ = [] ∧
      u.scarab.holding = (s.scarab.holding ++ s.scarabQ.flatMap (fun e => e.2)).take 16384)) ∧
    (∀ t, s.hedge.anchorAt + 3600 * tickHz ≤ s.hedgeNow → Does (.timeAnchor t) s (fun u => u.utcNow = t ∧ u.hedge.anchorAt = s.hedgeNow ∧
      Writes s u srcHedgerow 0x0F83 [t, s.time, s.hedge.before, s.flash.coldResets])) ∧
    (∀ a, Does (.i3cEntdaa a) s (fun u => u.hedge.i3c = some a ∧
      ∀ n, s.hedge.slot = .waiting n → u.hedge.slot = .asked s.hedgeNow ∧ Queued s u (vendorHead 2))) ∧
    (∀ a, s.hedge.i3c = some a →
      (∀ p ps, s.hedge.mctp = p :: ps → Does .i3cPrivateRead s (fun u => u.hedge.i3cRead = some p ∧ u.hedge.mctp = ps)) ∧
      (s.hedge.mctp = [] → Does .i3cPrivateRead s (fun u => u.hedge.i3cRead = none)) ∧
      (∀ e, 0 < e → e < 255 → Does (.setEndpointId e) s (fun u => u.hedge.eid = e ∧ Queued s u [0, 1, 0, 0, BitVec.ofNat 8 e, 0])) ∧
      (∀ e, e = 0 ∨ 255 ≤ e → Does (.setEndpointId e) s (fun u => u.hedge.eid = s.hedge.eid ∧ Queued s u [0, 1, 2])) ∧
      Does .getEndpointId s (fun u => Queued s u [0, 2, 0, BitVec.ofNat 8 s.hedge.eid, 0, 0]) ∧
      Does .getMctpVersionSupport s (fun u => Queued s u ([0, 4, 0] ++ Config.mctpVersions)) ∧
      Does .getMessageTypeSupport s (fun u => Queued s u [0, 5, 0, 2, 0x05, 0x7F]) ∧
      Does .getVendorDefinedMsgSupport s (fun u => Queued s u ([0, 6, 0, 0xFF, 1] ++ natBe 4 Config.iana ++ natBe 2 Config.vendorSet)) ∧
      Does .health s (fun u => ∃ m, Queued s u m ∧ m.take 9 = vendorHead 1 ++ [0, BitVec.ofNat 8 s.health, BitVec.ofNat 8 (b2n s.chassis.board)])) ∧
    (∀ n, s.hedge.slot = .asked n →
      (s.hedgeNow < n + 25000000 → ∀ w i, Does (.slotGetAnswer (.record Config.serial (leNat certHash) w i)) s (fun u => u.hedge.slot = .settled ∧
        u.scarab.opening = false ∧ u.hedge.mctp = s.hedge.mctp)) ∧
      (s.hedgeNow < n + 25000000 → ∀ a b w i, ¬(a = Config.serial ∧ b = leNat certHash) → Does (.slotGetAnswer (.record a b w i)) s (fun u =>
        u.hedge.slot = .settled ∧ u.scarab.opening = false ∧ Queued s u (vendorHead 3 ++ s.slotRecord) ∧ (s.scarab.ram.length < 16384 →
          Logged u { code := 0x0F82, time := s.time, src := srcHedgerow, detail := [1, a, b % 2 ^ 128, w, i] }))) ∧
      (s.hedgeNow < n + 25000000 → Does (.slotGetAnswer .unsupported) s (fun u => u.hedge.slot = .settled ∧ u.scarab.opening = false ∧
        u.hedge.mctp = s.hedge.mctp ∧ (s.scarab.ram.length < 16384 →
          Logged u { code := 0x0F82, time := s.time, src := srcHedgerow, detail := [3] }))) ∧
      (s.hedgeNow < n + 25000000 → Does (.slotGetAnswer .noRecord) s (fun u => u.hedge.slot = .settled ∧ u.scarab.opening = false ∧
        Queued s u (vendorHead 3 ++ s.slotRecord) ∧
          (s.scarab.ram.length < 16384 → Logged u { code := 0x0F82, time := s.time, src := srcHedgerow, detail := [2] }))) ∧
      (n + 25000000 ≤ s.hedgeNow → Does .slotCheckTimeout s (fun u => u.hedge.slot = .settled ∧ u.scarab.opening = false))) ∧
    (∀ n, s.hedge.slot = .waiting n → n + 250000000 ≤ s.hedgeNow → Does .slotCheckTimeout s (fun u => u.hedge.slot = s.hedge.slot ∧ u.scarab.opening = false)) ∧
    (s.hedge.slot = .settled → Does .slotSetAnswer s (fun u => u.hedge.slotStored = true)) ∧
    (∀ f, f < 56 → Does (.profileAgeUpdate f) s (fun u => (u.field f).svc.age.toNat = min 0xFFFFFFFF ((s.field f).svc.age.toNat + 1)))

/-- The SPDM responder (R457, R458, R459). A requester begins with GET_VERSION, a fifth at once being told Busy; each later request of version 1.3 that comes in order is answered, out of order it is Unexpected, of another version a version mismatch; what neither algorithm, slot nor block allows is invalid; CHALLENGE and signed measurements write event 0x0F8A. -/
def Obligations.SpdmResponderAnswers : Prop :=
  ∀ (s : State) (q : SpdmReq), s.hedge.up = true →
    (((s.hedge.spdm.find (spdmKey q)).isSome = true ∨ s.hedge.spdm.length < 4) →
      Does (.getVersion q) s (fun u => u.hedge.spdmOut = some .version ∧ u.hedge.spdm.find (spdmKey q) = some 1)) ∧
    (s.hedge.spdm.find (spdmKey q) = none → 4 ≤ s.hedge.spdm.length →
      Does (.getVersion q) s (fun u => u.hedge.spdmOut = some (.error 0x03) ∧ u.hedge.spdm = s.hedge.spdm)) ∧
    (∀ i ∈ [Instr.getCapabilities q, .negotiateAlgorithms q, .getDigests q, .getCertificate q, .challenge q, .getMeasurements q],
      (s.hedge.spdm.find (spdmKey q) = none → Does i s (fun u => u.hedge.spdmOut = some (.error 0x04) ∧ u.hedge.spdm = s.hedge.spdm)) ∧
      (s.hedge.spdm.find (spdmKey q) ≠ none → q.version ≠ 0x13 → Does i s (fun u => u.hedge.spdmOut = some (.error 0x41)))) ∧
    (∀ n, s.hedge.spdm.find (spdmKey q) = some n → q.version = 0x13 →
      (1 ≤ n → Does (.getCapabilities q) s (fun u => u.hedge.spdmOut = some .capabilities ∧ u.hedge.spdm.find (spdmKey q) = some 2)) ∧
      (2 ≤ n → q.algs % 4 ≠ 0 → Does (.negotiateAlgorithms q) s (fun u => u.hedge.spdmOut = some (.algorithms (q.algs % 4)) ∧
        u.hedge.spdm.find (spdmKey q) = some 3)) ∧
      (2 ≤ n → q.algs % 4 = 0 → Does (.negotiateAlgorithms q) s (fun u => u.hedge.spdmOut = some (.error 0x01))) ∧
      (n < 3 → Does (.getDigests q) s (fun u => u.hedge.spdmOut = some (.error 0x04))) ∧
      (3 ≤ n →
        Does (.getDigests q) s (fun u => u.hedge.spdmOut = some (.digests certHash)) ∧
        (q.slot = 0 → q.offset < Config.certChain.length → Does (.getCertificate q) s (fun u => ∃ p r, u.hedge.spdmOut = some (.certificate p r) ∧
          p = (Config.certChain.drop q.offset).take q.length ∧ q.offset + p.length + r = Config.certChain.length)) ∧
        (q.slot = 0 → Config.certChain.length ≤ q.offset → Does (.getCertificate q) s (fun u => u.hedge.spdmOut = some (.error 0x01))) ∧
        (q.block = 0xFF → q.signed = false → Does (.getMeasurements q) s (fun u =>
          u.hedge.spdmOut = some (.measurements ((upto 10).map (fun i => (i + 1, s.measured (i + 1)))) []))) ∧
        (q.slot ≠ 0 → Does (.getCertificate q) s (fun u => u.hedge.spdmOut = some (.error 0x01)) ∧
          Does (.challenge q) s (fun u => u.hedge.spdmOut = some (.error 0x01))) ∧
        (q.slot = 0 → Does (.challenge q) s (fun u => (∃ g, u.hedge.spdmOut = some (.challengeAuth g)) ∧
          Writes s u srcHedgerow 0x0F8A [q.transport, q.requester, 0])) ∧
        (1 ≤ q.block → q.block ≤ 10 → q.signed = false →
          Does (.getMeasurements q) s (fun u => u.hedge.spdmOut = some (.measurements [(q.block, s.measured q.block)] []))) ∧
        (q.block = 0 → q.signed = false → Does (.getMeasurements q) s (fun u => u.hedge.spdmOut = some (.measurements [(0, [10])] []))) ∧
        (1 ≤ q.block → q.block ≤ 10 → q.signed = true → Does (.getMeasurements q) s (fun u =>
          (∃ g, u.hedge.spdmOut = some (.measurements [(q.block, s.measured q.block)] g)) ∧ Writes s u srcHedgerow 0x0F8A [q.transport, q.requester, 1])) ∧
        (10 < q.block → q.block ≠ 0xFF → Does (.getMeasurements q) s (fun u => u.hedge.spdmOut = some (.error 0x01)))))

/-- Redfish actions, accounts and the recorder's actions (R448, R449, R451, R452, R457, R473, R474, R475). For a live session of the role an action needs: the chassis actions ring or switch the board, the settings are written, the manager restarts, defaults return, a listed resource is read, accounts and keys change with their events, the log is cleared only with its own count, and an export or a snapshot is kept; without a session the answer is 401, with too low a role 403, and nothing but the answer changes. -/
def Obligations.RedfishActionsComplete : Prop :=
  ∀ (s : State) (n : Nat),
    (∀ i r, (i, r) ∈ [(Instr.chassisForceRestart n, 1), (.chassisPowerCycle n, 1), (.chassisForceOff n, 1), (.chassisOn n, 1), (.managerReset n, 2),
        (.resetToDefaults n, 2), (.scarabExport n, 1)] → s.hedge.up = true →
      (s.hedge.who n s.hedgeNow = none → Does i s (fun u => u.hedge.http = 401 ∧ u.chassis = s.chassis ∧ u.mb = s.mb ∧ u.flash = s.flash ∧ u.scarab = s.scarab)) ∧
      (∀ a, s.hedge.who n s.hedgeNow = some a → a.role < r →
        Does i s (fun u => u.hedge.http = 403 ∧ u.chassis = s.chassis ∧ u.mb = s.mb ∧ u.flash = s.flash ∧ u.scarab = s.scarab))) ∧
    (∀ a, Allowed s n 1 a →
      (SecureFree s → Does (.chassisForceRestart n) s (fun u => u.hedge.http = 200 ∧ ∃ c, 56 ≤ c ∧ c < 64 ∧ (u.chan c).full = true ∧
        (u.chan c).msg.getD 0 0 = 0x0103)) ∧
      (¬ SecureFree s → Does (.chassisForceRestart n) s (fun u => u.hedge.http = 503 ∧ u.mb = s.mb)) ∧
      (s.chassis.shutdown = none →
        Does (.chassisPowerCycle n) s (fun u => Unpowered u ∧ u.chassis.restartAt = some (s.hedgeNow + 50000000)) ∧
        Does (.chassisForceOff n) s (fun u => (s.chassis.board = true → Unpowered u) ∧ u.chassis.heldOff = true ∧ u.chassis.restartAt = none) ∧
        (s.chassis.pwrEn = false ∨ s.chassis.stbyGood = false → Does (.chassisOn n) s (fun u => u.hedge.http = 409 ∧ u.chassis = s.chassis)) ∧
        (s.chassis.pwrEn = true → s.chassis.stbyGood = true →
          (s.chassis.board = true → Does (.chassisOn n) s (fun u => u.chassis.heldOff = false ∧ u.tiles = s.tiles)) ∧
          (s.chassis.board = false → s.chassis.input = true → s.chassis.busStopped = false → s.chassis.restartAt = none → s.chassis.resetHeld = false →
            s.regionsOk = true → Does (.chassisOn n) s (fun u => ColdStarted s u)))) ∧
      (s.chassis.shutdown ≠ none → Does (.chassisPowerCycle n) s (fun u => u.hedge.http = 409 ∧ u.chassis = s.chassis) ∧
        Does (.chassisForceOff n) s (fun u => u.hedge.http = 409 ∧ u.chassis = s.chassis) ∧
        Does (.chassisOn n) s (fun u => u.hedge.http = 409 ∧ u.chassis = s.chassis)) ∧
      (∀ b, Does (.indicatorLedSet n b) s (fun u => u.hedge.led = b)) ∧
      (∀ t, Does (.datetimeSet n t) s (fun u => u.utcNow = t)) ∧
      Does (.scarabExport n) s (fun u => u.hedge.export_ = s.exportBytes ∧ u.hedge.tasks = s.hedge.tasks ++ [1] ∧ u.scarab = s.scarab) ∧
      (∀ f, f < 56 → Does (.fieldSnapshot n f) s (fun u => u.hedge.snaps.length ≤ 8 ∧ ∃ x ∈ u.hedge.snaps, x.field = f ∧ x.time = s.time)) ∧
      (∀ f, 56 ≤ f → Does (.fieldSnapshot n f) s (fun u => u.hedge.http = 404 ∧ u.hedge.snaps = s.hedge.snaps))) ∧
    (∀ a, Allowed s n 0 a → ∀ uri, (∀ b, (s.used n).resource uri = some b → Does (.redfishGet n uri) s (fun u => u.hedge.http = 200 ∧ u.hedge.body = b)) ∧
      ((s.used n).resource uri = none → Does (.redfishGet n uri) s (fun u => u.hedge.http = 404))) ∧
    (∀ a, Allowed s n 2 a →
      (∀ w, (10000 ≤ w → w ≤ 42000 → SecureFree s → Does (.powerLimitSet n w) s (fun u => u.hedge.http = 200 ∧ Rung u 0x0601 w)) ∧
        (w < 10000 ∨ 42000 < w → Does (.powerLimitSet n w) s (fun u => u.hedge.http = 400 ∧ u.mb = s.mb))) ∧
      Does (.managerReset n) s (fun u => u.hedge.sessions = [] ∧ u.tiles = s.tiles ∧ u.fields = s.fields ∧ u.hedge.up = (s.flash.regions.getD 1 {}).ok) ∧
      Does (.resetToDefaults n) s (fun u => u.waferId = 0xFFFF ∧ u.hedge.cfg = {} ∧ u.hedge.sessions = [] ∧ u.flash.staged = [] ∧
        (∀ p, (u.port p).partner = none) ∧ u.flash.regions = s.flash.regions ∧ u.hedge.ownerImage = s.hedge.ownerImage) ∧
      (∀ nm r pw, (∀ x ∈ s.hedge.accounts, x.name ≠ nm) → r ≤ 2 → passwordOk pw = true → s.hedge.accounts.length < 16 → Does (.accountChange n (.create nm r pw)) s (fun u =>
        u.hedge.accounts = s.hedge.accounts ++ [{ name := nm, role := r, password := pw }] ∧ Writes s u srcHedgerow 0x0F89 [nm, 0, a.name])) ∧
      (∀ nm r pw, 2 < r ∨ passwordOk pw = false →
        ((∀ x ∈ s.hedge.accounts, x.name ≠ nm) → Does (.accountChange n (.create nm r pw)) s (fun u => u.hedge.http = 400 ∧ u.hedge.accounts = s.hedge.accounts)) ∧
        ((∃ x ∈ s.hedge.accounts, x.name = nm) → Does (.accountChange n (.modify nm r pw)) s (fun u => u.hedge.http = 400 ∧ u.hedge.accounts = s.hedge.accounts))) ∧
      (∀ nm, (∃ x ∈ s.hedge.accounts, x.name = nm) → Does (.accountChange n (.remove nm)) s (fun u => (∀ x ∈ u.hedge.accounts, x.name ≠ nm) ∧
        (∀ x ∈ u.hedge.sessions, x.account ≠ nm) ∧ Writes s u srcHedgerow 0x0F89 [nm, 2, a.name])) ∧
      (∀ nm r pw, (∃ x ∈ s.hedge.accounts, x.name = nm) → r ≤ 2 → passwordOk pw = true → Does (.accountChange n (.modify nm r pw)) s (fun u =>
        ∀ x ∈ u.hedge.accounts, x.name = nm → x.role = r ∧ x.password = pw)) ∧
      (∀ b, Does (.configSet n (.silenceReset b)) s (fun u => u.hedge.cfg = { s.hedge.cfg with silenceReset := b })) ∧
      (∀ c r d, (1 ≤ r → r ≤ 4096 → 1 ≤ d → d ≤ 4096 → Does (.configSet n (.rateLimit c r d)) s (fun u => u.scarab.rate c = (r, d))) ∧
        (r = 0 ∨ 4096 < r ∨ d = 0 ∨ 4096 < d → Does (.configSet n (.rateLimit c r d)) s (fun u => u.hedge.http = 400 ∧ u.scarab = s.scarab))) ∧
      (∀ key g, Does (.ownerKeyInstall n false (some key) g) s (fun u => u.hedge.ownerRoot = some key ∧ Writes s u srcHedgerow 0x0F90 [0, 1])) ∧
      (∀ key, s.hedge.ownerImage ≠ none → Does (.ownerKeyInstall n true key false) s (fun u => u.hedge.http = 403 ∧ u.hedge.ownerImage = s.hedge.ownerImage)) ∧
      (s.scarab.opening = false → Does (.clearLog n s.scarab.region.length) s (fun u => u.scarab.region = [] ∧ u.scarab.clears = s.scarab.clears + 1 ∧
        ∃ r ∈ u.scarab.ram, r.ev.code = 0x0F8C ∧ r.ev.detail = [s.scarab.region.length + s.scarab.ram.length, total (s.scarab.dropped.map (fun e => e.2)), a.name])) ∧
      (∀ e, e ≠ s.scarab.region.length ∨ s.scarab.opening = true → Does (.clearLog n e) s (fun u => u.hedge.http = 409 ∧ u.scarab = s.scarab)))

/-- Logins, updates and recovery (R451, R461, R462, R465, R466). A right password opens one of 32 sessions, a wrong one counts and the fifth locks the account for 300 s; an idle session and an expired lock end; an image whose last block arrives and that passes every check is staged and one that fails is reported by its step, while another of its kind is under way it is 409; a staged image is committed or sent to the conductor; a region that does not verify is repaired from its staged image; the recovery loader starts Hedgerow on a good image of kind 1, and waits 60 s otherwise. -/
def Obligations.LoginsImagesAndRepairs : Prop :=
  ∀ s : State,
    (s.hedge.up = true →
      (∀ nm a, s.hedge.accounts.find? (fun x => x.name == nm) = some a → (∀ t, a.locked = some t → t ≤ s.hedgeNow) →
        ((s.hedge.sessions.filter (Session.lives · s.hedgeNow)).length < 32 → Does (.sessionLogin nm a.password) s (fun u => u.hedge.http = 201 ∧
          u.hedge.sessions = s.hedge.sessions.filter (Session.lives · s.hedgeNow) ++ [{ id := s.hedge.nextSession, account := nm, at_ := s.hedgeNow }] ∧
          u.hedge.nextSession = s.hedge.nextSession + 1)) ∧
        (32 ≤ (s.hedge.sessions.filter (Session.lives · s.hedgeNow)).length → Does (.sessionLogin nm a.password) s (fun u => u.hedge.http = 503 ∧ u.hedge.sessions = s.hedge.sessions)) ∧
        (∀ pw, pw ≠ a.password → Does (.sessionLogin nm pw) s (fun u => u.hedge.http = 401 ∧ u.hedge.sessions = s.hedge.sessions ∧
          (∃ v, Writes s u srcHedgerow 0x0F88 [nm, v, if 4 ≤ a.fails then 1 else 0]) ∧ ∀ x ∈ u.hedge.accounts, x.name = nm →
            (a.fails < 4 → x.fails = a.fails + 1 ∧ x.locked = none) ∧ (4 ≤ a.fails → x.locked = some (s.hedgeNow + 300 * tickHz))))) ∧
      (∀ nm a t pw, s.hedge.accounts.find? (fun x => x.name == nm) = some a → a.locked = some t → s.hedgeNow < t → Does (.sessionLogin nm pw) s (fun u =>
        u.hedge.http = 401 ∧ u.hedge.sessions = s.hedge.sessions ∧ u.hedge.accounts = s.hedge.accounts ∧
          ∃ v, Writes s u srcHedgerow 0x0F88 [nm, v, 1])) ∧
      (∀ nm pw, (∀ x ∈ s.hedge.accounts, x.name ≠ nm) → Does (.sessionLogin nm pw) s (fun u => u.hedge.http = 401 ∧ u.hedge.sessions = s.hedge.sessions)) ∧
      (∀ n, Does (.sessionIdleExpiry n) s (fun u => ∀ x ∈ u.hedge.sessions, x ∈ s.hedge.sessions ∧ (x.id = n → s.hedgeNow < x.at_ + 600 * tickHz))) ∧
      (∀ nm, Does (.accountLockExpiry nm) s (fun u => ∀ x ∈ u.hedge.accounts, x.name = nm → ∀ t, x.locked = some t → s.hedgeNow < t)) ∧
      (∀ kind i src, 2 ≤ kind → kind ≤ 6 → (s.flash.regions.getD kind {}).ok = false → s.flash.staged.find kind = some i →
        Does (.regionRepair src kind .staged) s (fun u => (u.flash.regions.getD kind {}).ok = true ∧ (u.flash.regions.getD kind {}).version = i.version ∧
          i.svn ≤ u.flash.counters.getD kind 0)) ∧
      (∀ kind n i, 2 ≤ kind → kind ≤ 6 → (s.flash.regions.getD kind {}).ok = false → s.flash.staged.find kind = none → i.kind = kind →
        s.imageBad i = none → Does (.regionRepair n kind (.url i)) s (fun u => (u.flash.regions.getD kind {}).ok = true ∧
          (u.flash.regions.getD kind {}).version = i.version))) ∧
    (∀ n a, Allowed s n 2 a →
      (∀ i, s.kindBusy i.kind (some n) = true → Does (.firmwarePush n i) s (fun u => u.hedge.http = 409 ∧ u.flash = s.flash)) ∧
      (∀ i, s.kindBusy i.kind (some n) = false →
        (i.last = false → Does (.firmwarePush n i) s (fun u => u.hedge.http = 202 ∧ u.hedge.pushing.find i.kind = some n ∧ u.flash = s.flash)) ∧
        (i.last = true → s.imageBad i = none → Does (.firmwarePush n i) s (fun u => u.hedge.http = 202 ∧ u.hedge.tasks = s.hedge.tasks ++ [1] ∧
          u.flash.staged.getD i.kind {} = { version := i.version, svn := i.svn, digest := i.digest } ∧ u.flash.regions = s.flash.regions ∧
          Writes s u srcHedgerow 0x0F84 [i.kind, i.version, i.svn])) ∧
        (∀ st b, i.last = true → s.imageBad i = some (st, b) → Does (.firmwarePush n i) s (fun u => u.hedge.tasks = s.hedge.tasks ++ [2] ∧ u.flash = s.flash ∧
          Writes s u srcHedgerow 0x0F85 [i.kind, st, b]))) ∧
      (∀ kind i, (kind = 5 ∨ kind = 6) → s.kindBusy kind none = false → s.flash.staged.find kind = some i → Does (.updateApply n kind) s (fun u => u.hedge.tasks = s.hedge.tasks ++ [1] ∧
        (u.flash.regions.getD kind {}).version = i.version ∧ i.svn ≤ u.flash.counters.getD kind 0 ∧ Writes s u srcHedgerow 0x0F86 [kind, i.version, i.svn])) ∧
      (∀ kind i, 2 ≤ kind → kind ≤ 4 → s.kindBusy kind none = false → s.flash.staged.find kind = some i → SecureFree s →
        Does (.updateApply n kind) s (fun u => Rung u 0x0902 (if kind = 3 then 0 else if kind = 4 then 1 else 2) ∧ u.flash = s.flash)) ∧
      (∀ i, s.kindBusy 1 none = false → s.flash.staged.find 1 = some i → Does (.updateApply n 1) s (fun u => (u.flash.regions.getD 1 {}).version = i.version ∧ u.hedge.sessions = [] ∧
        u.hedge.up = true ∧ u.fields = s.fields ∧ u.tiles = s.tiles)) ∧
      (∀ kind, s.flash.staged.find kind = none ∨ s.kindBusy kind none = true → Does (.updateApply n kind) s (fun u => u.hedge.http = 409 ∧ u.flash = s.flash)) ∧
      (∀ kind i, 2 ≤ kind → kind ≤ 6 → (s.flash.regions.getD kind {}).ok = false → s.flash.staged.find kind = none → i.kind = kind → s.kindBusy kind none = false →
        s.imageBad i = none → Does (.regionRepair n kind (.push i)) s (fun u => (u.flash.regions.getD kind {}).ok = true ∧
          (u.flash.regions.getD kind {}).version = i.version ∧ u.hedge.http = 202))) ∧
    (s.hedge.recovering = true → s.hedge.retryAt = none →
      Does (.recoveryLoader none) s (fun u => u.hedge.retryAt = some (s.hedgeNow + 60 * tickHz) ∧ u.hedge.recovering = true) ∧
      (∀ i, i.kind = 1 → s.imageBad i = none → Does (.recoveryLoader (some i)) s (fun u => u.hedge.up = true ∧ u.hedge.recovering = false ∧
        (u.flash.regions.getD 1 {}).version = i.version)) ∧
      (∀ i, i.kind ≠ 1 ∨ s.imageBad i ≠ none → Does (.recoveryLoader (some i)) s (fun u => u.hedge.retryAt = some (s.hedgeNow + 60 * tickHz) ∧ u.flash = s.flash))) ∧
    (∀ t, s.hedge.recovering = true → s.hedge.retryAt = some t → t ≤ s.hedgeNow → Does .recoveryRetry s (fun u => u.hedge.retryAt = none))

/-- A step runs the command at the front of the queue; an idle step lets a tick pass (R4, R392). A step with a command at the front of the queue is exec of it on the state with the queue's rest; with an empty queue it lets one tick of wafer time pass, which changes only wafer time, the fields and, in the tiles, the tags just turned and the start of sampling ordered for that time (log entry 1: what an empty queue does is the model's choice). -/
def Obligations.StepTakesTheFront : Prop :=
  (∀ (s : State) (c : Instr) (rest : List Instr), s.pending = c :: rest → step s = exec c { s with pending := rest }) ∧
    ∀ s : State, s.pending = [] → step s = .next s.tick ∧ s.tick.time = (s.time + 1) % 2 ^ 64 ∧ s.tick.mesh = s.mesh ∧
      (∀ t, (s.tick.tile t).core = (s.tile t).core ∧ (s.tick.tile t).st = (s.tile t).st ∧ (s.tick.tile t).gen = (s.tile t).gen ∧
        (s.tick.tile t).mem = { (s.tile t).mem with turned := [] } ∧ (s.tick.tile t).q = (s.tile t).q ∧ (s.tick.tile t).sync = (s.tile t).sync ∧
        (s.tick.tile t).forage = (s.tile t).forage ∧
        ((∀ h n at_, (s.tile t).fold.sampleAt = some (h, n, at_) → s.tick.time < at_) → (s.tick.tile t).fold = (s.tile t).fold)) ∧
      s.tick.ports = s.ports ∧ s.tick.hosts = s.hosts ∧ s.tick.cond = s.cond ∧ s.tick.mb = s.mb ∧ s.tick.boot = s.boot ∧ s.tick.scarab = s.scarab ∧
      OuterSame s s.tick

/-- What reset holds (R4, R29, R256, R268). At reset no command waits, wafer time is 0, the wafer identifier is 0xFFFF, every global cell is a SEMAPHORE of value 0 and target 1 without waiters, ports are enabled, no session is open, the power board is off; the limits, the recorder's bounds and the form of memory hold. -/
def Obligations.ResetState : Prop :=
  State.reset.pending = [] ∧ State.reset.time = 0 ∧ State.reset.waferId = 0xFFFF ∧ State.reset.chassis.board = false ∧
    State.reset.hedge.sessions = [] ∧
    (∀ f i, (State.reset.field f).sync.cells.getD i {} = { type := 0, value := 0, target := 1 } ∧ (State.reset.field f).sync.waiters = []) ∧
    (∀ p, (State.reset.port p).enabled = true ∧ (State.reset.port p).state = 0) ∧
    State.reset.Limits ∧ State.reset.RecorderFits ∧ State.reset.MemoryForm

/-- Every step keeps the engine within its limits (R4, R24, R29, R295, R446, R451, R475, R503). From every state within the limits (64-bit wafer time, a 16-bit wafer identifier, the states of the reference, of glow bays and of ports, three cold restarts, 16 accounts, 32 sessions, 8 snapshots), a step gives a state within them. -/
def Obligations.EveryStepKeepsTheLimits : Prop :=
  ∀ s u : State, s.Limits → step s = .next u → u.Limits

/-- The recorder's buffers hold, and the log only grows (R469, R472, R473). Every step keeps the recorder within its buffers; and no command but CLEAR_LOG takes a record out of the flash log, or a record out of the RAM buffer but into the log, unless the log is full. -/
def Obligations.RecorderFitsAndLosesNothing : Prop :=
  (∀ s u : State, s.RecorderFits → step s = .next u → u.RecorderFits) ∧
    ∀ (c : Instr) (s u : State), exec c s = .next u → (∀ x e, c ≠ .clearLog x e) →
      s.scarab.region <+: u.scarab.region ∧
        ∀ r ∈ s.scarab.ram, r ∈ u.scarab.ram ∨ r ∈ u.scarab.region ∨ regionSlots ≤ u.scarab.region.length

/-- Every step keeps the form of memory (R36, R119, R421). From every state in which each tile's memory and each host node's memory is in its canonical form (addresses rising, no byte 0 listed), a step gives such a state. -/
def Obligations.EveryStepKeepsMemoryForm : Prop :=
  ∀ s u : State, s.MemoryForm → step s = .next u → u.MemoryForm

/-- What only named commands change (R4, R29, R295, R464). The wafer identifier changes only by SYS_SET_WAFER_ID and RESET_TO_DEFAULTS; the reference only by REFERENCE_SWITCH and REFERENCE_LOST; wafer time only by REFERENCE_SWITCH, INPUT_POWER_APPLIED and a cold reset, which makes it 0 (a warm reset leaves it); the power board turns on only in a cold reset with Hedgerow running and the images verified; and no command changes the queue. -/
def Obligations.OnlyTheseCommandsChange : Prop :=
  ∀ (c : Instr) (s u : State), exec c s = .next u →
    (u.waferId = s.waferId ∨ (∃ k, c = .sysSetWaferId k) ∨ ∃ x, c = .resetToDefaults x) ∧
    (u.osc = s.osc ∨ (∃ d, c = .referenceSwitch d) ∨ c = .referenceLost) ∧
    (u.time = s.time ∨ (∃ d, c = .referenceSwitch d) ∨ (∃ mv bad, c = .inputPowerApplied mv bad) ∨
      (u.time = 0 ∧ u.boot.kind = 1 ∧ u.chassis.board = true)) ∧
    (s.chassis.board = false → u.chassis.board = true →
      u.hedge.up = true ∧ u.regionsOk = true ∧ u.time = 0 ∧ u.boot.kind = 1 ∧ u.boot.step = 3) ∧
    u.pending = s.pending

/-- No command ends in a fault or a refusal (R22, R42, R115, R401). Every command, with any operands, from every state, answers a next state: what the spec gives no effect changes nothing, what it answers with a status or an error is answered, and no data ends a run. -/
def Obligations.EveryCommandCompletes : Prop := ∀ (c : Instr) (s : State), ∃ u, exec c s = .next u

/-- Frame of a core's commands (R35, R36, R41, R67, R115, R129, R176). Whatever a control core of tile t does leaves every other tile, every field but its own, the ports, the host nodes, the conductor and all outside the array as they are, and wafer time. An Xkyoro instruction writes no register but rd, a load and a CSR access none but theirs, ecall and ebreak none; and those that write no memory leave every byte of the tile's memory as it was (ldt, tfill, the sends, xput and dpurge may arm a slot they empty of an open combining queue, and leave it too where there is none). -/
def Obligations.CoreInstructionsKeepTheRest : Prop :=
  ∀ (s u : State) (t : TileId) (a : XArgs) (l : LsArgs) (st : Stream) (csr : Nat) (op : CsrOp) (rd rs1 : Nat) (c : Instr),
    exec c s = .next u →
    (c ∈ [.rvInstruction t, .coreLoad t l, .coreStore t l, .csrAccess t csr op rd rs1, .ecall t, .ebreak t, .stallConditionMet t st,
        .stallWatchdogExpiry t st, .qopen t a, .qclose t a, .qsend t a, .qtrysend t a, .qrecv t a, .qtryrecv t a, .qselect t a, .qstat t a,
        .swait t a, .ssignal t a, .sfence t a, .sread t a, .fpush t a, .fsteal t a, .fwait t a, .hset t a, .hclr t a, .ldt t a, .stt t a,
        .tfill t a, .dload t a, .dswitch t a, .dpurge t a, .dsample t a, .wopen t a, .wclose t a, .xput t a, .xget t a] →
      OnlyTile s u t ∧ OuterSame s u ∧ ConductorSame s u ∧ u.ports = s.ports ∧ u.hosts = s.hosts ∧ u.time = s.time ∧
        ∀ f, f ≠ fieldOf t → u.field f = s.field f) ∧
    (c ∈ [.qopen t a, .qclose t a, .qsend t a, .qtrysend t a, .qrecv t a, .qtryrecv t a, .qselect t a, .qstat t a, .swait t a, .ssignal t a,
        .sfence t a, .sread t a, .fpush t a, .fsteal t a, .fwait t a, .hset t a, .hclr t a, .ldt t a, .stt t a, .tfill t a, .dload t a,
        .dswitch t a, .dpurge t a, .dsample t a, .wopen t a, .wclose t a, .xput t a, .xget t a] →
      ∀ r, r ≠ a.rd → (u.tile t).reg r = (s.tile t).reg r) ∧
    (c = .coreLoad t l → ∀ r, r ≠ l.reg → (u.tile t).reg r = (s.tile t).reg r) ∧
    (c = .csrAccess t csr op rd rs1 → ∀ r, r ≠ rd → (u.tile t).reg r = (s.tile t).reg r) ∧
    (c ∈ [.ecall t, .ebreak t] → (u.tile t).core.regs = (s.tile t).core.regs) ∧
    (c ∈ [.coreLoad t l, .csrAccess t csr op rd rs1, .ecall t, .ebreak t, .qopen t a, .qclose t a, .qselect t a, .qstat t a, .swait t a,
        .ssignal t a, .sfence t a, .sread t a, .fpush t a, .fsteal t a, .fwait t a, .hset t a, .hclr t a, .dswitch t a, .dsample t a,
        .wopen t a, .wclose t a, .xget t a] →
      (u.tile t).mem.cells = (s.tile t).mem.cells) ∧
    (c ∈ [.ldt t a, .tfill t a, .qsend t a, .qtrysend t a, .xput t a, .dpurge t a] →
      (∀ q, q < 8 → ((s.tile t).queue q).state = 1 → ((s.tile t).queue q).kind = 0) →
      (u.tile t).mem.cells = (s.tile t).mem.cells)

/-- Frame of the array's and the fields' commands (R51, R140, R172, R242, R311, R326, R338, R472). A command of the core or array family (units, packets, windows, cells, maps) changes nothing of start-up, the mailbox, wafer time and all outside the array, but that HEDGEROW_SYNC_DEBUG leaves its reply with Hedgerow; nothing of the ports but by CTRL_WRITE, nothing of the host nodes but by PATROL_SCRUB, and nothing of the conductor's own state but that TILE_RESET_ORDER, MAP_SWITCH and CELL_LOST_SWEEP keep its table of generations, its list of cut-off keep fields and its list of fields to sweep. A command of the field family (clocks, power, temperature) leaves tiles, mesh, ports, host nodes, the mailbox, Hedgerow (but the module sensors that HEDGEROW_POWER_SAMPLE reads), its flash, the chassis and wafer time as they are. -/
def Obligations.ArrayAndFieldCommandsKeepTheRest : Prop :=
  ∀ (c : Instr) (s u : State), exec c s = .next u →
    (family c = .core ∨ family c = .array →
      u.mb = s.mb ∧ u.boot = s.boot ∧ u.time = s.time ∧ u.flash = s.flash ∧ u.watch = s.watch ∧ u.chassis = s.chassis ∧ u.glow = s.glow ∧
        u.osc = s.osc ∧ u.waferId = s.waferId ∧ u.pending = s.pending ∧
        u.hedge = { s.hedge with syncReply := u.hedge.syncReply } ∧ ((∀ x o, c ≠ .hedgerowSyncDebug x o) → u.hedge = s.hedge) ∧
        u.cond = { s.cond with gens := u.cond.gens, cutKeeps := u.cond.cutKeeps, sweeps := u.cond.sweeps } ∧
        ((∀ t f, c ≠ .tileResetOrder t ∧ c ≠ .mapSwitch ∧ c ≠ .cellLostSweep f) → u.cond = s.cond) ∧
        ((∀ x sp b, c ≠ .ctrlWrite x sp b) → u.ports = s.ports) ∧ ((∀ f es, c ≠ .patrolScrub f es) → u.hosts = s.hosts)) ∧
    (family c = .field → u.tiles = s.tiles ∧ u.mesh = s.mesh ∧ u.ports = s.ports ∧ u.hosts = s.hosts ∧ u.mb = s.mb ∧
      u.hedge = { s.hedge with sensors := u.hedge.sensors } ∧ ((∀ w a, c ≠ .hedgerowPowerSample w a) → u.hedge = s.hedge) ∧
      u.flash = s.flash ∧ u.chassis = s.chassis ∧ u.glow = s.glow ∧ u.osc = s.osc ∧ u.waferId = s.waferId ∧ u.time = s.time)

/-- Frame of the ports' and the host nodes' commands (R265, R269, R277, R278, R417, R424, R434). A command of the port family leaves fields, host nodes, the mailbox and start-up as they are, the tiles too but that a packet which leaves the mesh at a dock moves on the arrival pointers of the tile it passes, and Hedgerow but that CERT adds to the certificates it keeps; and one that only moves a link or its negotiation leaves the mesh and every other port as it is (a negotiation or training that fails in RETRAINING loses frames, which answers them); a command of the host family leaves tiles, fields, start-up and all outside the array, and one of node k leaves every other node as it is. -/
def Obligations.PortAndHostCommandsKeepTheRest : Prop :=
  ∀ (c : Instr) (s u : State), exec c s = .next u →
    (family c = .port → u.fields = s.fields ∧ u.hosts = s.hosts ∧ u.mb = s.mb ∧ u.boot = s.boot ∧
      (∀ t, ∃ i j, u.tile t = { s.tile t with forage := { (s.tile t).forage with portPtr := i }, q := { (s.tile t).q with port := j } }) ∧
      ((∀ p x, c ≠ .dockIngress p x ∧ c ≠ .dockEgress p x) → u.tiles = s.tiles) ∧
      u.hedge = { s.hedge with certCache := u.hedge.certCache } ∧ ((∀ x, c ≠ .cert x) → u.hedge = s.hedge) ∧
      u.flash = s.flash ∧ u.watch = s.watch ∧ u.chassis = s.chassis ∧ u.osc = s.osc ∧ u.waferId = s.waferId ∧ u.time = s.time) ∧
    (∀ p seq lane vc n ok r versions nonce b m count x frames,
      ((s.port p).state ≠ 5 ∨ c ∉ [.trainingFailed p, .cap p b, .cert ⟨p, x⟩, .mode p m count]) →
      c ∈ [.linkAck p seq, .linkNak p seq, .linkLaneOff p lane, .linkLaneOn p lane, .linkCredits p vc n, .linkIdleAck p, .frameCrcError p,
        .laneFailure p lane, .laneRetrainDone p lane ok, .portLightDetected p, .trainingDone p r, .trainingFailed p, .trainingBackoffExpiry p,
        .hello p versions nonce, .cap p b, .cert ⟨p, x⟩, .mode p m count, .modeSwitch ⟨p, frames⟩, .refusedTimeout p, .retrainDone p] →
      u.mesh = s.mesh ∧ ∀ q, q ≠ p → u.port q = s.port q) ∧
    (family c = .host → u.tiles = s.tiles ∧ u.fields = s.fields ∧ u.boot = s.boot ∧ OuterSame s u ∧ u.time = s.time) ∧
    (∀ k hart addr size lform data sform id st machine val mmode idx msg digestOk port tx ring bytes prio hash off len up mode,
      c ∈ [.waferWindowLoad k hart addr size lform, .waferWindowStore k hart addr data sform, .waferWindowTimeout k id, .waferWindowAnswer k id st data,
        .hartFenceIo k hart, .timerInterrupt k hart machine, .softwareInterruptWrite k machine hart val, .hostClkWrite k mmode (BitVec.ofNat 32 len),
        .sbiSecureForward k idx msg, .sbiSystemReset k, .nodeBoot k digestOk, .hostBootTimeout k, .ethRingTailWrite k port tx ring len,
        .ethDescriptorDone k port ring, .ethFrameReceive k port bytes prio hash, .pcieDeviceWrite k off data, .pcieDeviceRead k off len,
        .ethLinkChange k port up mode] →
      ∀ j, j ≠ k → u.host j = s.host j)

/-- Frame of the Gliast commands and of Hedgerow's (R390, R397, R444, R451, R453, R457). A Gliast command leaves Hedgerow, its watch, the chassis, the glow bays, the reference and wafer time as they are; all but FW_APPLY leave the flash, and all but SYS_SET_WAFER_ID the wafer identifier. The commands that only ask leave fields, tiles, mesh, ports and start-up as they are. A command of Hedgerow's family (buses, sessions, the log) leaves the array, the ports, the host nodes, the conductor's own state, start-up, the chassis and wafer time as they are. -/
def Obligations.GliastAndHedgerowCommandsKeepTheRest : Prop :=
  ∀ (c : Instr) (s u : State), exec c s = .next u →
    (family c = .gliast → u.hedge = s.hedge ∧ u.watch = s.watch ∧ u.chassis = s.chassis ∧ u.glow = s.glow ∧ u.osc = s.osc ∧ u.time = s.time ∧
      ((∀ k, c ≠ .fwApply k) → u.flash = s.flash) ∧ ((∀ k, c ≠ .sysSetWaferId k) → u.waferId = s.waferId)) ∧
    (∀ k, c ∈ [.sysIdentify k, .sysStatus k, .sysPing k, .fieldQuery k, .jobQuery k, .cellRead k, .pwrQuery k, .clkQuery k, .portQuery k, .fwQuery k,
        .mapGet k, .distGet k, .mapWait k] →
      ArraySame s u ∧ u.ports = s.ports ∧ u.boot = s.boot) ∧
    (family c = .hedgerow → ArraySame s u ∧ u.ports = s.ports ∧ u.hosts = s.hosts ∧ u.cond = s.cond ∧ u.boot = s.boot ∧ u.chassis = s.chassis ∧
      u.glow = s.glow ∧ u.osc = s.osc ∧ u.waferId = s.waferId ∧ u.time = s.time)

/-- A condition met in the tick of the watchdog's expiry completes the operation (R39). Where trying the condition ends the stall of a stream (the core's instruction, an engine's unit or a steal-out entry's result, or everything the fire unit holds), the watchdog's expiry does exactly what the condition's being met does, so that no STALL_TIMEOUT arises; and that is what STALL_CONDITION_MET does of an operation whose turn it is. -/
def Obligations.ConditionBeatsWatchdog : Prop :=
  ∀ (s : State) (t : TileId), (s.tile t).present = true → s.clocked t = true →
    (∀ st, (s.tile t).waitsPass ((s.tile t).streamWaits st) = true → exec (.stallConditionMet t st) s = .next (s.streamMet t st)) ∧
    (((s.streamMet t .core).tile t).core.stall = none →
      exec (.stallWatchdogExpiry t .core) s = .next (s.streamMet t .core)) ∧
    (∀ e, e < 8 → (((s.streamMet t (.engine e)).tile t).engine e).running = none → (((s.streamMet t (.engine e)).tile t).engine e).headSince = none →
      exec (.stallWatchdogExpiry t (.engine e)) s = .next (s.streamMet t (.engine e))) ∧
    (∀ e, 8 ≤ e → ((s.streamMet t (.engine e)).tile t).forage.out.find (e - 8) = none →
      exec (.stallWatchdogExpiry t (.engine e)) s = .next (s.streamMet t (.engine e))) ∧
    (((s.streamMet t .fire).tile t).fold.held = [] → (∀ x ∈ ((s.streamMet t .fire).tile t).fold.ctxs, x.2.since = none) →
      ((s.streamMet t .fire).tile t).fold.readySince = none →
      exec (.stallWatchdogExpiry t .fire) s = .next (s.streamMet t .fire))

/-- Where word w of slot s of a handle lies (R127). ldt reads and stt writes word w (bits 31:22 of rs1) of slot s (bits 21:6) of handle h (bits 5:0) at tile-local offset M + 32 x base + s x 2^(5 + slot_size) + 4 w, with M 0 for scratchpad and 0x4_0000 for tile memory; a word index at or beyond the slot's size in words, and a slot index at or beyond length, halt the core with BAD_ARGUMENT. -/
def Obligations.SlotWordsLieAtTheirOffset : Prop :=
  ∀ (s : State) (t : TileId) (a : XArgs),
    let v := (s.tile t).reg a.rs1
    let h := (s.tile t).handle (bits v 5 0)
    let off := (if h.inTm then 0x40000 else 0) + 32 * h.base + bits v 21 6 * 2 ^ (5 + h.slotSize) + 4 * bits v 31 22
    (h.valid = true → bits v 21 6 < h.length → bits v 31 22 < 2 ^ (5 + h.slotSize) / 4 → h.tagMode = 0 →
      (Issues s t .ldt a → (s.tile t).mem.hit off 4 = none →
        Does (.ldt t a) s (fun u => Retired s u t 4 a.rd (leWord ((s.tile t).get off 4)))) ∧
      (Issues s t .stt a → (s.tile t).mem.partialHit off 4 = none →
        Does (.stt t a) s (fun u => Completed s u t a stOk 0 ∧ (u.tile t).get off 4 = wordLe (s.rs2 t a) ∧
          SameBut (s.tile t).mem.cells (u.tile t).mem.cells off 4))) ∧
    (2 ^ (5 + h.slotSize) / 4 ≤ bits v 31 22 ∨ h.length ≤ bits v 21 6 → (s.tile t).fault.valid = false →
      (Issues s t .ldt a → Does (.ldt t a) s (fun u => Halts s u t fcBadArgument (xword .ldt a) v)) ∧
      (Issues s t .stt a → Does (.stt t a) s (fun u => Halts s u t fcBadArgument (xword .stt a) v)))

/-- The handles of an OPEN queue are in use (R212). For the queue handle of an OPEN queue, and for the staging handle of one that stages contributions (kind 2), hset and hclr complete with BUSY and leave every handle as it is (hclr of a handle that is not valid, which no OPEN queue has, is a bad argument first, by R42). -/
def Obligations.OpenQueueHandlesAreInUse : Prop :=
  ∀ (s : State) (t : TileId) (a : XArgs) (q : Nat), q < 8 → ((s.tile t).queue q).state = 1 →
    (((s.tile t).queue q).handle = bits (s.rs1 t a) 5 0 ∨ (((s.tile t).queue q).kind = 2 ∧ ((s.tile t).queue q).staging = bits (s.rs1 t a) 5 0)) →
    bits (s.rs1 t a) 31 6 = 0 →
    (s.tile t).inUse (bits (s.rs1 t a) 5 0) = true ∧
    (Issues s t .hset a → imageOk (s.rs2 t a).toNat 16 = true →
      Does (.hset t a) s (fun u => Completed s u t a stBusy 0 ∧ (u.tile t).handles = (s.tile t).handles)) ∧
    (Issues s t .hclr a → ((s.tile t).handle (bits (s.rs1 t a) 5 0)).valid = false → (s.tile t).fault.valid = false →
      Does (.hclr t a) s (fun u => Halts s u t fcBadArgument (xword .hclr a) (s.rs1 t a) ∧ (u.tile t).handles = (s.tile t).handles)) ∧
    (Issues s t .hclr a → ((s.tile t).handle (bits (s.rs1 t a) 5 0)).valid = true → Does (.hclr t a) s (fun u => Completed s u t a stBusy 0 ∧ (u.tile t).handles = (s.tile t).handles))

/-- Global cells at cold and warm reset, and over a handover (R256). After the release of cold reset and after step 4 of a warm reset every global cell is a SEMAPHORE of value 0 and target 1 without waiters; SYS_HANDOVER and the standby's takeover leave every cell and waiter. -/
def Obligations.CellsAtResetAndHandover : Prop :=
  ∀ s : State,
    (Startable s → s.chassis.board = false → s.chassis.pwrEn = true → s.chassis.stbyGood = true → s.chassis.restartAt = none →
      s.chassis.shutdown = none → s.chassis.resetHeld = false →
      Does .powerEnable s (fun u => u.boot.kind = 1 ∧ ∀ f, f < 56 → (u.field f).sync.waiters = [] ∧
        ∀ i, (u.field f).sync.cells.getD i {} = { type := 0, value := 0, target := 1 })) ∧
    (s.boot.kind = 2 → s.boot.step = 2 → s.boot.stopAt + 256 ≤ s.time →
      Does .warmResetInjectionStop s (fun u => u.boot.kind = 2 ∧ u.boot.step = 4 ∧ ∀ f, f < 56 → (u.field f).sync.waiters = [] ∧
        ∀ i, (u.field f).sync.cells.getD i {} = { type := 0, value := 0, target := 1 })) ∧
    (∀ c k u, c ∈ [.sysHandover k, .conductorTakeover, .standbyRebuildDone] → exec c s = .next u →
      ∀ f, (u.field f).sync = (s.field f).sync)

/-- Hedgerow verifies all six regions before the board goes on (R464). A start of Hedgerow (input power, or a restart) marks each of the six regions by what its verification found; and no command turns the power board on unless Hedgerow's own region let it run and the other five are marked good. -/
def Obligations.ImagesAreVerifiedBeforeTheBoard : Prop :=
  (∀ (s u : State) (mv : Nat) (bad : List Nat) (c : HedgeCause) (i : Instr),
    (i = .inputPowerApplied mv bad ∧ s.chassis.input = false ∧ within 40000 72000 mv = true) ∨ (i = .hedgerowRestart c bad ∧ s.hedge.up = true) →
    exec i s = .next u →
    (∀ k, 1 ≤ k → k ≤ 6 → (u.flash.regions.getD k {}).ok = !bad.contains k) ∧ u.hedge.up = !bad.contains 1 ∧ u.chassis.board = s.chassis.board) ∧
  ∀ (c : Instr) (s u : State), exec c s = .next u → s.chassis.board = false → u.chassis.board = true →
    u.hedge.up = true ∧ ∀ k, 2 ≤ k → k ≤ 6 → (u.flash.regions.getD k {}).ok = true
end

