-- ==== Sys2Proof/Laws/Memory.lean ====
section
/-! SUPPORT. What every memory operation does: reads after writes, and the canonical form that each keeps. -/

namespace Sys2Proof.Machine

theorem Memory.wfFrom_mono {lo lo' : Nat} (h : lo' ≤ lo) : ∀ {m : Memory}, Memory.wfFrom lo m = true → Memory.wfFrom lo' m = true
  | [], _ => rfl
  | (a, b) :: m, hm => by
    simp only [Memory.wfFrom, Bool.and_eq_true, decide_eq_true_eq] at hm ⊢
    exact ⟨⟨Nat.le_trans h hm.1.1, hm.1.2⟩, hm.2⟩

theorem Memory.wfFrom_filter (p : Host.Cell → Bool) : ∀ {lo : Nat} {m : Memory}, Memory.wfFrom lo m = true → Memory.wfFrom lo (m.filter p) = true
  | _, [], _ => rfl
  | lo, (a, b) :: m, hm => by
    simp only [Memory.wfFrom, Bool.and_eq_true, decide_eq_true_eq] at hm
    have ih := Memory.wfFrom_filter p hm.2
    by_cases hp : p (a, b) = true
    · simp [hp, Memory.wfFrom, hm.1.1, ih]
      simpa using hm.1.2
    · simp [hp]
      exact Memory.wfFrom_mono (Nat.le_succ_of_le hm.1.1) ih

theorem Memory.wfFrom_ins (i : Nat) (b : Byte) (hb : b ≠ 0) :
    ∀ {lo : Nat} {m : Memory}, lo ≤ i → Memory.wfFrom lo m = true → Memory.wfFrom lo (Memory.ins m i b) = true
  | lo, [], h, _ => by simp [Memory.ins, Memory.wfFrom, h]; exact hb
  | lo, (a, v) :: m, h, hm => by
    simp only [Memory.wfFrom, Bool.and_eq_true, decide_eq_true_eq] at hm
    simp only [Memory.ins]
    split
    · next e => subst e; simp [Memory.wfFrom, h, hm.2]; exact hb
    · split
      · next h1 h2 =>
        simp only [Memory.wfFrom, Bool.and_eq_true, decide_eq_true_eq]
        exact ⟨⟨h, by simpa using hb⟩, ⟨h2, hm.1.2⟩, hm.2⟩
      · next h1 h2 =>
        simp only [Memory.wfFrom, Bool.and_eq_true, decide_eq_true_eq]
        exact ⟨hm.1, Memory.wfFrom_ins i b hb (by omega) hm.2⟩

theorem Memory.wf_write (m : Memory) (i : Nat) (b : Byte) (h : m.wf = true) : (m.write i b).wf = true := by
  unfold Memory.write Memory.wf at *
  split
  · exact Memory.wfFrom_filter _ h
  · next hb => exact Memory.wfFrom_ins i b hb (Nat.zero_le _) h

theorem Memory.wf_writeN : ∀ (bs : List Byte) (m : Memory) (a : Nat), m.wf = true → (m.writeN bs a).wf = true
  | [], _, _, h => h
  | b :: bs, m, a, h => Memory.wf_writeN bs _ _ (Memory.wf_write m a b h)

theorem Memory.wf_clear (m : Memory) (lo hi : Nat) (h : m.wf = true) : (m.clear lo hi).wf = true := Memory.wfFrom_filter _ h

theorem Memory.wf_empty : Memory.wf [] = true := rfl

/-! ## Reading what was written -/

theorem Memory.read_below {lo i : Nat} : ∀ {m : Memory}, Memory.wfFrom lo m = true → i < lo → m.read i = 0
  | [], _, _ => rfl
  | (a, b) :: m, hm, hi => by
    simp only [Memory.wfFrom, Bool.and_eq_true, decide_eq_true_eq] at hm
    simp only [Memory.read]
    split
    · omega
    · exact Memory.read_below hm.2 (by omega)

theorem Memory.read_ins (i j : Nat) (b : Byte) : ∀ (m : Memory), (Memory.ins m i b).read j = if i = j then b else m.read j
  | [] => rfl
  | (a, v) :: m => by
    simp only [Memory.ins]
    split
    · next e => subst e; simp only [Memory.read]; split <;> simp_all
    · split
      · simp only [Memory.read]
      · next h _ =>
        simp only [Memory.read, Memory.read_ins i j b m]
        split
        · next e => subst e; simp [Ne.symm h]
        · rfl

theorem Memory.read_drop1 (i j : Nat) : ∀ (m : Memory), (Memory.drop1 m i).read j = if i = j then 0 else m.read j
  | [] => by simp [Memory.drop1, Memory.read]
  | (a, v) :: m => by
    have ih := Memory.read_drop1 i j m
    simp only [Memory.drop1, List.filter_cons] at ih ⊢
    by_cases h : a = i
    · subst h
      simp only [beq_self_eq_true, Bool.not_true, Bool.false_eq_true, if_false, ih, Memory.read]
      split
      · rfl
      · simp_all
    · have : (!(a == i)) = true := by simpa using h
      simp only [this, if_true, Memory.read, ih]
      split
      · next e => subst e; simp [Ne.symm h]
      · rfl

@[simp] theorem Memory.read_write (m : Memory) (i j : Nat) (b : Byte) : (m.write i b).read j = if i = j then b else m.read j := by
  unfold Memory.write
  split
  · next h => rw [Memory.read_drop1]; simp [h]
  · exact Memory.read_ins i j b m

theorem Memory.read_writeN_other : ∀ (bs : List Byte) (m : Memory) (a i : Nat), i < a ∨ a + bs.length ≤ i → (m.writeN bs a).read i = m.read i
  | [], _, _, _, _ => rfl
  | b :: bs, m, a, i, h => by
    simp only [List.length_cons] at h
    simp only [Memory.writeN]
    rw [Memory.read_writeN_other bs _ _ _ (by omega), Memory.read_write]
    exact if_neg (by omega)

theorem Memory.readN_writeN : ∀ (bs : List Byte) (m : Memory) (a : Nat), (m.writeN bs a).readN bs.length a = bs
  | [], _, _ => rfl
  | b :: bs, m, a => by
    simp only [Memory.writeN, List.length_cons, Memory.readN]
    rw [Memory.readN_writeN bs (m.write a b) (a + 1), Memory.read_writeN_other _ _ _ _ (by omega)]
    simp

theorem Memory.length_readN (m : Memory) : ∀ n a, (m.readN n a).length = n
  | 0, _ => rfl
  | n + 1, a => by simp [Memory.readN, Memory.length_readN m n]

theorem length_natLe : ∀ n v, (natLe n v).length = n
  | 0, _ => rfl
  | n + 1, v => by simp [natLe, length_natLe n]

end Sys2Proof.Machine
end

