-- ==== Sys2Proof/Laws/State.lean ====
section
/-! SUPPORT. One lemma for each field of the state under each shared update, and reading back a tile or a field that was written. -/

namespace Sys2Proof.Machine

@[simp] theorem State.setTile_pending (s : State) (t : TileId) (tl : Tile) : (s.setTile t tl).pending = s.pending := rfl
@[simp] theorem State.setTile_time (s : State) (t : TileId) (tl : Tile) : (s.setTile t tl).time = s.time := rfl
@[simp] theorem State.setTile_free (s : State) (t : TileId) (tl : Tile) : (s.setTile t tl).free = s.free := rfl
@[simp] theorem State.setTile_osc (s : State) (t : TileId) (tl : Tile) : (s.setTile t tl).osc = s.osc := rfl
@[simp] theorem State.setTile_waferId (s : State) (t : TileId) (tl : Tile) : (s.setTile t tl).waferId = s.waferId := rfl
@[simp] theorem State.setTile_mesh (s : State) (t : TileId) (tl : Tile) : (s.setTile t tl).mesh = s.mesh := rfl
@[simp] theorem State.setTile_mb (s : State) (t : TileId) (tl : Tile) : (s.setTile t tl).mb = s.mb := rfl
@[simp] theorem State.setTile_cond (s : State) (t : TileId) (tl : Tile) : (s.setTile t tl).cond = s.cond := rfl
@[simp] theorem State.setTile_boot (s : State) (t : TileId) (tl : Tile) : (s.setTile t tl).boot = s.boot := rfl
@[simp] theorem State.setTile_fields (s : State) (t : TileId) (tl : Tile) : (s.setTile t tl).fields = s.fields := rfl
@[simp] theorem State.setTile_ports (s : State) (t : TileId) (tl : Tile) : (s.setTile t tl).ports = s.ports := rfl
@[simp] theorem State.setTile_glow (s : State) (t : TileId) (tl : Tile) : (s.setTile t tl).glow = s.glow := rfl
@[simp] theorem State.setTile_hosts (s : State) (t : TileId) (tl : Tile) : (s.setTile t tl).hosts = s.hosts := rfl
@[simp] theorem State.setTile_chassis (s : State) (t : TileId) (tl : Tile) : (s.setTile t tl).chassis = s.chassis := rfl
@[simp] theorem State.setTile_watch (s : State) (t : TileId) (tl : Tile) : (s.setTile t tl).watch = s.watch := rfl
@[simp] theorem State.setTile_hedge (s : State) (t : TileId) (tl : Tile) : (s.setTile t tl).hedge = s.hedge := rfl
@[simp] theorem State.setTile_flash (s : State) (t : TileId) (tl : Tile) : (s.setTile t tl).flash = s.flash := rfl
@[simp] theorem State.setTile_scarabQ (s : State) (t : TileId) (tl : Tile) : (s.setTile t tl).scarabQ = s.scarabQ := rfl
@[simp] theorem State.setTile_scarab (s : State) (t : TileId) (tl : Tile) : (s.setTile t tl).scarab = s.scarab := rfl

@[simp] theorem State.modTile_pending (s : State) (t : TileId) (g : Tile → Tile) : (s.modTile t g).pending = s.pending := rfl
@[simp] theorem State.modTile_time (s : State) (t : TileId) (g : Tile → Tile) : (s.modTile t g).time = s.time := rfl
@[simp] theorem State.modTile_free (s : State) (t : TileId) (g : Tile → Tile) : (s.modTile t g).free = s.free := rfl
@[simp] theorem State.modTile_osc (s : State) (t : TileId) (g : Tile → Tile) : (s.modTile t g).osc = s.osc := rfl
@[simp] theorem State.modTile_waferId (s : State) (t : TileId) (g : Tile → Tile) : (s.modTile t g).waferId = s.waferId := rfl
@[simp] theorem State.modTile_mesh (s : State) (t : TileId) (g : Tile → Tile) : (s.modTile t g).mesh = s.mesh := rfl
@[simp] theorem State.modTile_mb (s : State) (t : TileId) (g : Tile → Tile) : (s.modTile t g).mb = s.mb := rfl
@[simp] theorem State.modTile_cond (s : State) (t : TileId) (g : Tile → Tile) : (s.modTile t g).cond = s.cond := rfl
@[simp] theorem State.modTile_boot (s : State) (t : TileId) (g : Tile → Tile) : (s.modTile t g).boot = s.boot := rfl
@[simp] theorem State.modTile_fields (s : State) (t : TileId) (g : Tile → Tile) : (s.modTile t g).fields = s.fields := rfl
@[simp] theorem State.modTile_ports (s : State) (t : TileId) (g : Tile → Tile) : (s.modTile t g).ports = s.ports := rfl
@[simp] theorem State.modTile_glow (s : State) (t : TileId) (g : Tile → Tile) : (s.modTile t g).glow = s.glow := rfl
@[simp] theorem State.modTile_hosts (s : State) (t : TileId) (g : Tile → Tile) : (s.modTile t g).hosts = s.hosts := rfl
@[simp] theorem State.modTile_chassis (s : State) (t : TileId) (g : Tile → Tile) : (s.modTile t g).chassis = s.chassis := rfl
@[simp] theorem State.modTile_watch (s : State) (t : TileId) (g : Tile → Tile) : (s.modTile t g).watch = s.watch := rfl
@[simp] theorem State.modTile_hedge (s : State) (t : TileId) (g : Tile → Tile) : (s.modTile t g).hedge = s.hedge := rfl
@[simp] theorem State.modTile_flash (s : State) (t : TileId) (g : Tile → Tile) : (s.modTile t g).flash = s.flash := rfl
@[simp] theorem State.modTile_scarabQ (s : State) (t : TileId) (g : Tile → Tile) : (s.modTile t g).scarabQ = s.scarabQ := rfl
@[simp] theorem State.modTile_scarab (s : State) (t : TileId) (g : Tile → Tile) : (s.modTile t g).scarab = s.scarab := rfl

@[simp] theorem State.setField_pending (s : State) (f : Nat) (fd : Field) : (s.setField f fd).pending = s.pending := rfl
@[simp] theorem State.setField_time (s : State) (f : Nat) (fd : Field) : (s.setField f fd).time = s.time := rfl
@[simp] theorem State.setField_free (s : State) (f : Nat) (fd : Field) : (s.setField f fd).free = s.free := rfl
@[simp] theorem State.setField_osc (s : State) (f : Nat) (fd : Field) : (s.setField f fd).osc = s.osc := rfl
@[simp] theorem State.setField_waferId (s : State) (f : Nat) (fd : Field) : (s.setField f fd).waferId = s.waferId := rfl
@[simp] theorem State.setField_mesh (s : State) (f : Nat) (fd : Field) : (s.setField f fd).mesh = s.mesh := rfl
@[simp] theorem State.setField_mb (s : State) (f : Nat) (fd : Field) : (s.setField f fd).mb = s.mb := rfl
@[simp] theorem State.setField_cond (s : State) (f : Nat) (fd : Field) : (s.setField f fd).cond = s.cond := rfl
@[simp] theorem State.setField_boot (s : State) (f : Nat) (fd : Field) : (s.setField f fd).boot = s.boot := rfl
@[simp] theorem State.setField_tiles (s : State) (f : Nat) (fd : Field) : (s.setField f fd).tiles = s.tiles := rfl
@[simp] theorem State.setField_ports (s : State) (f : Nat) (fd : Field) : (s.setField f fd).ports = s.ports := rfl
@[simp] theorem State.setField_glow (s : State) (f : Nat) (fd : Field) : (s.setField f fd).glow = s.glow := rfl
@[simp] theorem State.setField_hosts (s : State) (f : Nat) (fd : Field) : (s.setField f fd).hosts = s.hosts := rfl
@[simp] theorem State.setField_chassis (s : State) (f : Nat) (fd : Field) : (s.setField f fd).chassis = s.chassis := rfl
@[simp] theorem State.setField_watch (s : State) (f : Nat) (fd : Field) : (s.setField f fd).watch = s.watch := rfl
@[simp] theorem State.setField_hedge (s : State) (f : Nat) (fd : Field) : (s.setField f fd).hedge = s.hedge := rfl
@[simp] theorem State.setField_flash (s : State) (f : Nat) (fd : Field) : (s.setField f fd).flash = s.flash := rfl
@[simp] theorem State.setField_scarabQ (s : State) (f : Nat) (fd : Field) : (s.setField f fd).scarabQ = s.scarabQ := rfl
@[simp] theorem State.setField_scarab (s : State) (f : Nat) (fd : Field) : (s.setField f fd).scarab = s.scarab := rfl

@[simp] theorem State.modField_pending (s : State) (f : Nat) (g : Field → Field) : (s.modField f g).pending = s.pending := rfl
@[simp] theorem State.modField_time (s : State) (f : Nat) (g : Field → Field) : (s.modField f g).time = s.time := rfl
@[simp] theorem State.modField_free (s : State) (f : Nat) (g : Field → Field) : (s.modField f g).free = s.free := rfl
@[simp] theorem State.modField_osc (s : State) (f : Nat) (g : Field → Field) : (s.modField f g).osc = s.osc := rfl
@[simp] theorem State.modField_waferId (s : State) (f : Nat) (g : Field → Field) : (s.modField f g).waferId = s.waferId := rfl
@[simp] theorem State.modField_mesh (s : State) (f : Nat) (g : Field → Field) : (s.modField f g).mesh = s.mesh := rfl
@[simp] theorem State.modField_mb (s : State) (f : Nat) (g : Field → Field) : (s.modField f g).mb = s.mb := rfl
@[simp] theorem State.modField_cond (s : State) (f : Nat) (g : Field → Field) : (s.modField f g).cond = s.cond := rfl
@[simp] theorem State.modField_boot (s : State) (f : Nat) (g : Field → Field) : (s.modField f g).boot = s.boot := rfl
@[simp] theorem State.modField_tiles (s : State) (f : Nat) (g : Field → Field) : (s.modField f g).tiles = s.tiles := rfl
@[simp] theorem State.modField_ports (s : State) (f : Nat) (g : Field → Field) : (s.modField f g).ports = s.ports := rfl
@[simp] theorem State.modField_glow (s : State) (f : Nat) (g : Field → Field) : (s.modField f g).glow = s.glow := rfl
@[simp] theorem State.modField_hosts (s : State) (f : Nat) (g : Field → Field) : (s.modField f g).hosts = s.hosts := rfl
@[simp] theorem State.modField_chassis (s : State) (f : Nat) (g : Field → Field) : (s.modField f g).chassis = s.chassis := rfl
@[simp] theorem State.modField_watch (s : State) (f : Nat) (g : Field → Field) : (s.modField f g).watch = s.watch := rfl
@[simp] theorem State.modField_hedge (s : State) (f : Nat) (g : Field → Field) : (s.modField f g).hedge = s.hedge := rfl
@[simp] theorem State.modField_flash (s : State) (f : Nat) (g : Field → Field) : (s.modField f g).flash = s.flash := rfl
@[simp] theorem State.modField_scarabQ (s : State) (f : Nat) (g : Field → Field) : (s.modField f g).scarabQ = s.scarabQ := rfl
@[simp] theorem State.modField_scarab (s : State) (f : Nat) (g : Field → Field) : (s.modField f g).scarab = s.scarab := rfl

@[simp] theorem State.raise_pending (s : State) (t : TileId) (n c : Nat) (a b : Word) : (s.raise t n c a b).pending = s.pending := rfl
@[simp] theorem State.raise_time (s : State) (t : TileId) (n c : Nat) (a b : Word) : (s.raise t n c a b).time = s.time := rfl
@[simp] theorem State.raise_free (s : State) (t : TileId) (n c : Nat) (a b : Word) : (s.raise t n c a b).free = s.free := rfl
@[simp] theorem State.raise_osc (s : State) (t : TileId) (n c : Nat) (a b : Word) : (s.raise t n c a b).osc = s.osc := rfl
@[simp] theorem State.raise_waferId (s : State) (t : TileId) (n c : Nat) (a b : Word) : (s.raise t n c a b).waferId = s.waferId := rfl
@[simp] theorem State.raise_mesh (s : State) (t : TileId) (n c : Nat) (a b : Word) : (s.raise t n c a b).mesh = s.mesh := rfl
@[simp] theorem State.raise_mb (s : State) (t : TileId) (n c : Nat) (a b : Word) : (s.raise t n c a b).mb = s.mb := rfl
@[simp] theorem State.raise_cond (s : State) (t : TileId) (n c : Nat) (a b : Word) : (s.raise t n c a b).cond = s.cond := rfl
@[simp] theorem State.raise_boot (s : State) (t : TileId) (n c : Nat) (a b : Word) : (s.raise t n c a b).boot = s.boot := rfl
@[simp] theorem State.raise_fields (s : State) (t : TileId) (n c : Nat) (a b : Word) : (s.raise t n c a b).fields = s.fields := rfl
@[simp] theorem State.raise_ports (s : State) (t : TileId) (n c : Nat) (a b : Word) : (s.raise t n c a b).ports = s.ports := rfl
@[simp] theorem State.raise_glow (s : State) (t : TileId) (n c : Nat) (a b : Word) : (s.raise t n c a b).glow = s.glow := rfl
@[simp] theorem State.raise_hosts (s : State) (t : TileId) (n c : Nat) (a b : Word) : (s.raise t n c a b).hosts = s.hosts := rfl
@[simp] theorem State.raise_chassis (s : State) (t : TileId) (n c : Nat) (a b : Word) : (s.raise t n c a b).chassis = s.chassis := rfl
@[simp] theorem State.raise_watch (s : State) (t : TileId) (n c : Nat) (a b : Word) : (s.raise t n c a b).watch = s.watch := rfl
@[simp] theorem State.raise_hedge (s : State) (t : TileId) (n c : Nat) (a b : Word) : (s.raise t n c a b).hedge = s.hedge := rfl
@[simp] theorem State.raise_flash (s : State) (t : TileId) (n c : Nat) (a b : Word) : (s.raise t n c a b).flash = s.flash := rfl
@[simp] theorem State.raise_scarabQ (s : State) (t : TileId) (n c : Nat) (a b : Word) : (s.raise t n c a b).scarabQ = s.scarabQ := rfl
@[simp] theorem State.raise_scarab (s : State) (t : TileId) (n c : Nat) (a b : Word) : (s.raise t n c a b).scarab = s.scarab := rfl

@[simp] theorem State.send_pending (s : State) (p : Pkt) : (s.send p).pending = s.pending := rfl
@[simp] theorem State.send_time (s : State) (p : Pkt) : (s.send p).time = s.time := rfl
@[simp] theorem State.send_free (s : State) (p : Pkt) : (s.send p).free = s.free := rfl
@[simp] theorem State.send_osc (s : State) (p : Pkt) : (s.send p).osc = s.osc := rfl
@[simp] theorem State.send_waferId (s : State) (p : Pkt) : (s.send p).waferId = s.waferId := rfl
@[simp] theorem State.send_mb (s : State) (p : Pkt) : (s.send p).mb = s.mb := rfl
@[simp] theorem State.send_cond (s : State) (p : Pkt) : (s.send p).cond = s.cond := rfl
@[simp] theorem State.send_boot (s : State) (p : Pkt) : (s.send p).boot = s.boot := rfl
@[simp] theorem State.send_tiles (s : State) (p : Pkt) : (s.send p).tiles = s.tiles := rfl
@[simp] theorem State.send_fields (s : State) (p : Pkt) : (s.send p).fields = s.fields := rfl
@[simp] theorem State.send_ports (s : State) (p : Pkt) : (s.send p).ports = s.ports := rfl
@[simp] theorem State.send_glow (s : State) (p : Pkt) : (s.send p).glow = s.glow := rfl
@[simp] theorem State.send_hosts (s : State) (p : Pkt) : (s.send p).hosts = s.hosts := rfl
@[simp] theorem State.send_chassis (s : State) (p : Pkt) : (s.send p).chassis = s.chassis := rfl
@[simp] theorem State.send_watch (s : State) (p : Pkt) : (s.send p).watch = s.watch := rfl
@[simp] theorem State.send_hedge (s : State) (p : Pkt) : (s.send p).hedge = s.hedge := rfl
@[simp] theorem State.send_flash (s : State) (p : Pkt) : (s.send p).flash = s.flash := rfl
@[simp] theorem State.send_scarabQ (s : State) (p : Pkt) : (s.send p).scarabQ = s.scarabQ := rfl
@[simp] theorem State.send_scarab (s : State) (p : Pkt) : (s.send p).scarab = s.scarab := rfl

@[simp] theorem State.arrive_pending (s : State) (p : Pkt) : (s.arrive p).pending = s.pending := rfl
@[simp] theorem State.arrive_time (s : State) (p : Pkt) : (s.arrive p).time = s.time := rfl
@[simp] theorem State.arrive_free (s : State) (p : Pkt) : (s.arrive p).free = s.free := rfl
@[simp] theorem State.arrive_osc (s : State) (p : Pkt) : (s.arrive p).osc = s.osc := rfl
@[simp] theorem State.arrive_waferId (s : State) (p : Pkt) : (s.arrive p).waferId = s.waferId := rfl
@[simp] theorem State.arrive_mb (s : State) (p : Pkt) : (s.arrive p).mb = s.mb := rfl
@[simp] theorem State.arrive_cond (s : State) (p : Pkt) : (s.arrive p).cond = s.cond := rfl
@[simp] theorem State.arrive_boot (s : State) (p : Pkt) : (s.arrive p).boot = s.boot := rfl
@[simp] theorem State.arrive_tiles (s : State) (p : Pkt) : (s.arrive p).tiles = s.tiles := rfl
@[simp] theorem State.arrive_fields (s : State) (p : Pkt) : (s.arrive p).fields = s.fields := rfl
@[simp] theorem State.arrive_ports (s : State) (p : Pkt) : (s.arrive p).ports = s.ports := rfl
@[simp] theorem State.arrive_glow (s : State) (p : Pkt) : (s.arrive p).glow = s.glow := rfl
@[simp] theorem State.arrive_hosts (s : State) (p : Pkt) : (s.arrive p).hosts = s.hosts := rfl
@[simp] theorem State.arrive_chassis (s : State) (p : Pkt) : (s.arrive p).chassis = s.chassis := rfl
@[simp] theorem State.arrive_watch (s : State) (p : Pkt) : (s.arrive p).watch = s.watch := rfl
@[simp] theorem State.arrive_hedge (s : State) (p : Pkt) : (s.arrive p).hedge = s.hedge := rfl
@[simp] theorem State.arrive_flash (s : State) (p : Pkt) : (s.arrive p).flash = s.flash := rfl
@[simp] theorem State.arrive_scarabQ (s : State) (p : Pkt) : (s.arrive p).scarabQ = s.scarabQ := rfl
@[simp] theorem State.arrive_scarab (s : State) (p : Pkt) : (s.arrive p).scarab = s.scarab := rfl

@[simp] theorem State.status_pending (s : State) (h : Hdr) (g : Nat) (re : Re) (c : Nat) : (s.status h g re c).pending = s.pending := rfl
@[simp] theorem State.status_time (s : State) (h : Hdr) (g : Nat) (re : Re) (c : Nat) : (s.status h g re c).time = s.time := rfl
@[simp] theorem State.status_free (s : State) (h : Hdr) (g : Nat) (re : Re) (c : Nat) : (s.status h g re c).free = s.free := rfl
@[simp] theorem State.status_osc (s : State) (h : Hdr) (g : Nat) (re : Re) (c : Nat) : (s.status h g re c).osc = s.osc := rfl
@[simp] theorem State.status_waferId (s : State) (h : Hdr) (g : Nat) (re : Re) (c : Nat) : (s.status h g re c).waferId = s.waferId := rfl
@[simp] theorem State.status_mb (s : State) (h : Hdr) (g : Nat) (re : Re) (c : Nat) : (s.status h g re c).mb = s.mb := rfl
@[simp] theorem State.status_cond (s : State) (h : Hdr) (g : Nat) (re : Re) (c : Nat) : (s.status h g re c).cond = s.cond := rfl
@[simp] theorem State.status_boot (s : State) (h : Hdr) (g : Nat) (re : Re) (c : Nat) : (s.status h g re c).boot = s.boot := rfl
@[simp] theorem State.status_tiles (s : State) (h : Hdr) (g : Nat) (re : Re) (c : Nat) : (s.status h g re c).tiles = s.tiles := rfl
@[simp] theorem State.status_fields (s : State) (h : Hdr) (g : Nat) (re : Re) (c : Nat) : (s.status h g re c).fields = s.fields := rfl
@[simp] theorem State.status_ports (s : State) (h : Hdr) (g : Nat) (re : Re) (c : Nat) : (s.status h g re c).ports = s.ports := rfl
@[simp] theorem State.status_glow (s : State) (h : Hdr) (g : Nat) (re : Re) (c : Nat) : (s.status h g re c).glow = s.glow := rfl
@[simp] theorem State.status_hosts (s : State) (h : Hdr) (g : Nat) (re : Re) (c : Nat) : (s.status h g re c).hosts = s.hosts := rfl
@[simp] theorem State.status_chassis (s : State) (h : Hdr) (g : Nat) (re : Re) (c : Nat) : (s.status h g re c).chassis = s.chassis := rfl
@[simp] theorem State.status_watch (s : State) (h : Hdr) (g : Nat) (re : Re) (c : Nat) : (s.status h g re c).watch = s.watch := rfl
@[simp] theorem State.status_hedge (s : State) (h : Hdr) (g : Nat) (re : Re) (c : Nat) : (s.status h g re c).hedge = s.hedge := rfl
@[simp] theorem State.status_flash (s : State) (h : Hdr) (g : Nat) (re : Re) (c : Nat) : (s.status h g re c).flash = s.flash := rfl
@[simp] theorem State.status_scarabQ (s : State) (h : Hdr) (g : Nat) (re : Re) (c : Nat) : (s.status h g re c).scarabQ = s.scarabQ := rfl
@[simp] theorem State.status_scarab (s : State) (h : Hdr) (g : Nat) (re : Re) (c : Nat) : (s.status h g re c).scarab = s.scarab := rfl

@[simp] theorem State.setPort_pending (s : State) (p : Nat) (v : Port) : (s.setPort p v).pending = s.pending := rfl
@[simp] theorem State.setPort_time (s : State) (p : Nat) (v : Port) : (s.setPort p v).time = s.time := rfl
@[simp] theorem State.setPort_free (s : State) (p : Nat) (v : Port) : (s.setPort p v).free = s.free := rfl
@[simp] theorem State.setPort_osc (s : State) (p : Nat) (v : Port) : (s.setPort p v).osc = s.osc := rfl
@[simp] theorem State.setPort_waferId (s : State) (p : Nat) (v : Port) : (s.setPort p v).waferId = s.waferId := rfl
@[simp] theorem State.setPort_mesh (s : State) (p : Nat) (v : Port) : (s.setPort p v).mesh = s.mesh := rfl
@[simp] theorem State.setPort_mb (s : State) (p : Nat) (v : Port) : (s.setPort p v).mb = s.mb := rfl
@[simp] theorem State.setPort_cond (s : State) (p : Nat) (v : Port) : (s.setPort p v).cond = s.cond := rfl
@[simp] theorem State.setPort_boot (s : State) (p : Nat) (v : Port) : (s.setPort p v).boot = s.boot := rfl
@[simp] theorem State.setPort_tiles (s : State) (p : Nat) (v : Port) : (s.setPort p v).tiles = s.tiles := rfl
@[simp] theorem State.setPort_fields (s : State) (p : Nat) (v : Port) : (s.setPort p v).fields = s.fields := rfl
@[simp] theorem State.setPort_glow (s : State) (p : Nat) (v : Port) : (s.setPort p v).glow = s.glow := rfl
@[simp] theorem State.setPort_hosts (s : State) (p : Nat) (v : Port) : (s.setPort p v).hosts = s.hosts := rfl
@[simp] theorem State.setPort_chassis (s : State) (p : Nat) (v : Port) : (s.setPort p v).chassis = s.chassis := rfl
@[simp] theorem State.setPort_watch (s : State) (p : Nat) (v : Port) : (s.setPort p v).watch = s.watch := rfl
@[simp] theorem State.setPort_hedge (s : State) (p : Nat) (v : Port) : (s.setPort p v).hedge = s.hedge := rfl
@[simp] theorem State.setPort_flash (s : State) (p : Nat) (v : Port) : (s.setPort p v).flash = s.flash := rfl
@[simp] theorem State.setPort_scarabQ (s : State) (p : Nat) (v : Port) : (s.setPort p v).scarabQ = s.scarabQ := rfl
@[simp] theorem State.setPort_scarab (s : State) (p : Nat) (v : Port) : (s.setPort p v).scarab = s.scarab := rfl

@[simp] theorem State.modPort_pending (s : State) (p : Nat) (g : Port → Port) : (s.modPort p g).pending = s.pending := rfl
@[simp] theorem State.modPort_time (s : State) (p : Nat) (g : Port → Port) : (s.modPort p g).time = s.time := rfl
@[simp] theorem State.modPort_free (s : State) (p : Nat) (g : Port → Port) : (s.modPort p g).free = s.free := rfl
@[simp] theorem State.modPort_osc (s : State) (p : Nat) (g : Port → Port) : (s.modPort p g).osc = s.osc := rfl
@[simp] theorem State.modPort_waferId (s : State) (p : Nat) (g : Port → Port) : (s.modPort p g).waferId = s.waferId := rfl
@[simp] theorem State.modPort_mesh (s : State) (p : Nat) (g : Port → Port) : (s.modPort p g).mesh = s.mesh := rfl
@[simp] theorem State.modPort_mb (s : State) (p : Nat) (g : Port → Port) : (s.modPort p g).mb = s.mb := rfl
@[simp] theorem State.modPort_cond (s : State) (p : Nat) (g : Port → Port) : (s.modPort p g).cond = s.cond := rfl
@[simp] theorem State.modPort_boot (s : State) (p : Nat) (g : Port → Port) : (s.modPort p g).boot = s.boot := rfl
@[simp] theorem State.modPort_tiles (s : State) (p : Nat) (g : Port → Port) : (s.modPort p g).tiles = s.tiles := rfl
@[simp] theorem State.modPort_fields (s : State) (p : Nat) (g : Port → Port) : (s.modPort p g).fields = s.fields := rfl
@[simp] theorem State.modPort_glow (s : State) (p : Nat) (g : Port → Port) : (s.modPort p g).glow = s.glow := rfl
@[simp] theorem State.modPort_hosts (s : State) (p : Nat) (g : Port → Port) : (s.modPort p g).hosts = s.hosts := rfl
@[simp] theorem State.modPort_chassis (s : State) (p : Nat) (g : Port → Port) : (s.modPort p g).chassis = s.chassis := rfl
@[simp] theorem State.modPort_watch (s : State) (p : Nat) (g : Port → Port) : (s.modPort p g).watch = s.watch := rfl
@[simp] theorem State.modPort_hedge (s : State) (p : Nat) (g : Port → Port) : (s.modPort p g).hedge = s.hedge := rfl
@[simp] theorem State.modPort_flash (s : State) (p : Nat) (g : Port → Port) : (s.modPort p g).flash = s.flash := rfl
@[simp] theorem State.modPort_scarabQ (s : State) (p : Nat) (g : Port → Port) : (s.modPort p g).scarabQ = s.scarabQ := rfl
@[simp] theorem State.modPort_scarab (s : State) (p : Nat) (g : Port → Port) : (s.modPort p g).scarab = s.scarab := rfl

@[simp] theorem State.modHost_pending (s : State) (j : Nat) (g : HostNode → HostNode) : (s.modHost j g).pending = s.pending := rfl
@[simp] theorem State.modHost_time (s : State) (j : Nat) (g : HostNode → HostNode) : (s.modHost j g).time = s.time := rfl
@[simp] theorem State.modHost_free (s : State) (j : Nat) (g : HostNode → HostNode) : (s.modHost j g).free = s.free := rfl
@[simp] theorem State.modHost_osc (s : State) (j : Nat) (g : HostNode → HostNode) : (s.modHost j g).osc = s.osc := rfl
@[simp] theorem State.modHost_waferId (s : State) (j : Nat) (g : HostNode → HostNode) : (s.modHost j g).waferId = s.waferId := rfl
@[simp] theorem State.modHost_mesh (s : State) (j : Nat) (g : HostNode → HostNode) : (s.modHost j g).mesh = s.mesh := rfl
@[simp] theorem State.modHost_mb (s : State) (j : Nat) (g : HostNode → HostNode) : (s.modHost j g).mb = s.mb := rfl
@[simp] theorem State.modHost_cond (s : State) (j : Nat) (g : HostNode → HostNode) : (s.modHost j g).cond = s.cond := rfl
@[simp] theorem State.modHost_boot (s : State) (j : Nat) (g : HostNode → HostNode) : (s.modHost j g).boot = s.boot := rfl
@[simp] theorem State.modHost_tiles (s : State) (j : Nat) (g : HostNode → HostNode) : (s.modHost j g).tiles = s.tiles := rfl
@[simp] theorem State.modHost_fields (s : State) (j : Nat) (g : HostNode → HostNode) : (s.modHost j g).fields = s.fields := rfl
@[simp] theorem State.modHost_ports (s : State) (j : Nat) (g : HostNode → HostNode) : (s.modHost j g).ports = s.ports := rfl
@[simp] theorem State.modHost_glow (s : State) (j : Nat) (g : HostNode → HostNode) : (s.modHost j g).glow = s.glow := rfl
@[simp] theorem State.modHost_chassis (s : State) (j : Nat) (g : HostNode → HostNode) : (s.modHost j g).chassis = s.chassis := rfl
@[simp] theorem State.modHost_watch (s : State) (j : Nat) (g : HostNode → HostNode) : (s.modHost j g).watch = s.watch := rfl
@[simp] theorem State.modHost_hedge (s : State) (j : Nat) (g : HostNode → HostNode) : (s.modHost j g).hedge = s.hedge := rfl
@[simp] theorem State.modHost_flash (s : State) (j : Nat) (g : HostNode → HostNode) : (s.modHost j g).flash = s.flash := rfl
@[simp] theorem State.modHost_scarabQ (s : State) (j : Nat) (g : HostNode → HostNode) : (s.modHost j g).scarabQ = s.scarabQ := rfl
@[simp] theorem State.modHost_scarab (s : State) (j : Nat) (g : HostNode → HostNode) : (s.modHost j g).scarab = s.scarab := rfl

@[simp] theorem State.modHedge_pending (s : State) (g : Hedge → Hedge) : (s.modHedge g).pending = s.pending := rfl
@[simp] theorem State.modHedge_time (s : State) (g : Hedge → Hedge) : (s.modHedge g).time = s.time := rfl
@[simp] theorem State.modHedge_free (s : State) (g : Hedge → Hedge) : (s.modHedge g).free = s.free := rfl
@[simp] theorem State.modHedge_osc (s : State) (g : Hedge → Hedge) : (s.modHedge g).osc = s.osc := rfl
@[simp] theorem State.modHedge_waferId (s : State) (g : Hedge → Hedge) : (s.modHedge g).waferId = s.waferId := rfl
@[simp] theorem State.modHedge_mesh (s : State) (g : Hedge → Hedge) : (s.modHedge g).mesh = s.mesh := rfl
@[simp] theorem State.modHedge_mb (s : State) (g : Hedge → Hedge) : (s.modHedge g).mb = s.mb := rfl
@[simp] theorem State.modHedge_cond (s : State) (g : Hedge → Hedge) : (s.modHedge g).cond = s.cond := rfl
@[simp] theorem State.modHedge_boot (s : State) (g : Hedge → Hedge) : (s.modHedge g).boot = s.boot := rfl
@[simp] theorem State.modHedge_tiles (s : State) (g : Hedge → Hedge) : (s.modHedge g).tiles = s.tiles := rfl
@[simp] theorem State.modHedge_fields (s : State) (g : Hedge → Hedge) : (s.modHedge g).fields = s.fields := rfl
@[simp] theorem State.modHedge_ports (s : State) (g : Hedge → Hedge) : (s.modHedge g).ports = s.ports := rfl
@[simp] theorem State.modHedge_glow (s : State) (g : Hedge → Hedge) : (s.modHedge g).glow = s.glow := rfl
@[simp] theorem State.modHedge_hosts (s : State) (g : Hedge → Hedge) : (s.modHedge g).hosts = s.hosts := rfl
@[simp] theorem State.modHedge_chassis (s : State) (g : Hedge → Hedge) : (s.modHedge g).chassis = s.chassis := rfl
@[simp] theorem State.modHedge_watch (s : State) (g : Hedge → Hedge) : (s.modHedge g).watch = s.watch := rfl
@[simp] theorem State.modHedge_flash (s : State) (g : Hedge → Hedge) : (s.modHedge g).flash = s.flash := rfl
@[simp] theorem State.modHedge_scarabQ (s : State) (g : Hedge → Hedge) : (s.modHedge g).scarabQ = s.scarabQ := rfl
@[simp] theorem State.modHedge_scarab (s : State) (g : Hedge → Hedge) : (s.modHedge g).scarab = s.scarab := rfl

@[simp] theorem State.modChan_pending (s : State) (c : Nat) (g : Chan → Chan) : (s.modChan c g).pending = s.pending := rfl
@[simp] theorem State.modChan_time (s : State) (c : Nat) (g : Chan → Chan) : (s.modChan c g).time = s.time := rfl
@[simp] theorem State.modChan_free (s : State) (c : Nat) (g : Chan → Chan) : (s.modChan c g).free = s.free := rfl
@[simp] theorem State.modChan_osc (s : State) (c : Nat) (g : Chan → Chan) : (s.modChan c g).osc = s.osc := rfl
@[simp] theorem State.modChan_waferId (s : State) (c : Nat) (g : Chan → Chan) : (s.modChan c g).waferId = s.waferId := rfl
@[simp] theorem State.modChan_mesh (s : State) (c : Nat) (g : Chan → Chan) : (s.modChan c g).mesh = s.mesh := rfl
@[simp] theorem State.modChan_cond (s : State) (c : Nat) (g : Chan → Chan) : (s.modChan c g).cond = s.cond := rfl
@[simp] theorem State.modChan_boot (s : State) (c : Nat) (g : Chan → Chan) : (s.modChan c g).boot = s.boot := rfl
@[simp] theorem State.modChan_tiles (s : State) (c : Nat) (g : Chan → Chan) : (s.modChan c g).tiles = s.tiles := rfl
@[simp] theorem State.modChan_fields (s : State) (c : Nat) (g : Chan → Chan) : (s.modChan c g).fields = s.fields := rfl
@[simp] theorem State.modChan_ports (s : State) (c : Nat) (g : Chan → Chan) : (s.modChan c g).ports = s.ports := rfl
@[simp] theorem State.modChan_glow (s : State) (c : Nat) (g : Chan → Chan) : (s.modChan c g).glow = s.glow := rfl
@[simp] theorem State.modChan_hosts (s : State) (c : Nat) (g : Chan → Chan) : (s.modChan c g).hosts = s.hosts := rfl
@[simp] theorem State.modChan_chassis (s : State) (c : Nat) (g : Chan → Chan) : (s.modChan c g).chassis = s.chassis := rfl
@[simp] theorem State.modChan_watch (s : State) (c : Nat) (g : Chan → Chan) : (s.modChan c g).watch = s.watch := rfl
@[simp] theorem State.modChan_hedge (s : State) (c : Nat) (g : Chan → Chan) : (s.modChan c g).hedge = s.hedge := rfl
@[simp] theorem State.modChan_flash (s : State) (c : Nat) (g : Chan → Chan) : (s.modChan c g).flash = s.flash := rfl
@[simp] theorem State.modChan_scarabQ (s : State) (c : Nat) (g : Chan → Chan) : (s.modChan c g).scarabQ = s.scarabQ := rfl
@[simp] theorem State.modChan_scarab (s : State) (c : Nat) (g : Chan → Chan) : (s.modChan c g).scarab = s.scarab := rfl

@[simp] theorem State.http_pending (s : State) (code : Nat) : (s.http code).pending = s.pending := rfl
@[simp] theorem State.http_time (s : State) (code : Nat) : (s.http code).time = s.time := rfl
@[simp] theorem State.http_free (s : State) (code : Nat) : (s.http code).free = s.free := rfl
@[simp] theorem State.http_osc (s : State) (code : Nat) : (s.http code).osc = s.osc := rfl
@[simp] theorem State.http_waferId (s : State) (code : Nat) : (s.http code).waferId = s.waferId := rfl
@[simp] theorem State.http_mesh (s : State) (code : Nat) : (s.http code).mesh = s.mesh := rfl
@[simp] theorem State.http_mb (s : State) (code : Nat) : (s.http code).mb = s.mb := rfl
@[simp] theorem State.http_cond (s : State) (code : Nat) : (s.http code).cond = s.cond := rfl
@[simp] theorem State.http_boot (s : State) (code : Nat) : (s.http code).boot = s.boot := rfl
@[simp] theorem State.http_tiles (s : State) (code : Nat) : (s.http code).tiles = s.tiles := rfl
@[simp] theorem State.http_fields (s : State) (code : Nat) : (s.http code).fields = s.fields := rfl
@[simp] theorem State.http_ports (s : State) (code : Nat) : (s.http code).ports = s.ports := rfl
@[simp] theorem State.http_glow (s : State) (code : Nat) : (s.http code).glow = s.glow := rfl
@[simp] theorem State.http_hosts (s : State) (code : Nat) : (s.http code).hosts = s.hosts := rfl
@[simp] theorem State.http_chassis (s : State) (code : Nat) : (s.http code).chassis = s.chassis := rfl
@[simp] theorem State.http_watch (s : State) (code : Nat) : (s.http code).watch = s.watch := rfl
@[simp] theorem State.http_flash (s : State) (code : Nat) : (s.http code).flash = s.flash := rfl
@[simp] theorem State.http_scarabQ (s : State) (code : Nat) : (s.http code).scarabQ = s.scarabQ := rfl
@[simp] theorem State.http_scarab (s : State) (code : Nat) : (s.http code).scarab = s.scarab := rfl

@[simp] theorem State.reply_pending (s : State) (h : Hdr) (g : Nat) (re : Re) (c : Nat) (d : List Byte) : (s.reply h g re c d).pending = s.pending := rfl
@[simp] theorem State.reply_time (s : State) (h : Hdr) (g : Nat) (re : Re) (c : Nat) (d : List Byte) : (s.reply h g re c d).time = s.time := rfl
@[simp] theorem State.reply_free (s : State) (h : Hdr) (g : Nat) (re : Re) (c : Nat) (d : List Byte) : (s.reply h g re c d).free = s.free := rfl
@[simp] theorem State.reply_osc (s : State) (h : Hdr) (g : Nat) (re : Re) (c : Nat) (d : List Byte) : (s.reply h g re c d).osc = s.osc := rfl
@[simp] theorem State.reply_waferId (s : State) (h : Hdr) (g : Nat) (re : Re) (c : Nat) (d : List Byte) : (s.reply h g re c d).waferId = s.waferId := rfl
@[simp] theorem State.reply_mb (s : State) (h : Hdr) (g : Nat) (re : Re) (c : Nat) (d : List Byte) : (s.reply h g re c d).mb = s.mb := rfl
@[simp] theorem State.reply_cond (s : State) (h : Hdr) (g : Nat) (re : Re) (c : Nat) (d : List Byte) : (s.reply h g re c d).cond = s.cond := rfl
@[simp] theorem State.reply_boot (s : State) (h : Hdr) (g : Nat) (re : Re) (c : Nat) (d : List Byte) : (s.reply h g re c d).boot = s.boot := rfl
@[simp] theorem State.reply_tiles (s : State) (h : Hdr) (g : Nat) (re : Re) (c : Nat) (d : List Byte) : (s.reply h g re c d).tiles = s.tiles := rfl
@[simp] theorem State.reply_fields (s : State) (h : Hdr) (g : Nat) (re : Re) (c : Nat) (d : List Byte) : (s.reply h g re c d).fields = s.fields := rfl
@[simp] theorem State.reply_ports (s : State) (h : Hdr) (g : Nat) (re : Re) (c : Nat) (d : List Byte) : (s.reply h g re c d).ports = s.ports := rfl
@[simp] theorem State.reply_glow (s : State) (h : Hdr) (g : Nat) (re : Re) (c : Nat) (d : List Byte) : (s.reply h g re c d).glow = s.glow := rfl
@[simp] theorem State.reply_hosts (s : State) (h : Hdr) (g : Nat) (re : Re) (c : Nat) (d : List Byte) : (s.reply h g re c d).hosts = s.hosts := rfl
@[simp] theorem State.reply_chassis (s : State) (h : Hdr) (g : Nat) (re : Re) (c : Nat) (d : List Byte) : (s.reply h g re c d).chassis = s.chassis := rfl
@[simp] theorem State.reply_watch (s : State) (h : Hdr) (g : Nat) (re : Re) (c : Nat) (d : List Byte) : (s.reply h g re c d).watch = s.watch := rfl
@[simp] theorem State.reply_hedge (s : State) (h : Hdr) (g : Nat) (re : Re) (c : Nat) (d : List Byte) : (s.reply h g re c d).hedge = s.hedge := rfl
@[simp] theorem State.reply_flash (s : State) (h : Hdr) (g : Nat) (re : Re) (c : Nat) (d : List Byte) : (s.reply h g re c d).flash = s.flash := rfl
@[simp] theorem State.reply_scarabQ (s : State) (h : Hdr) (g : Nat) (re : Re) (c : Nat) (d : List Byte) : (s.reply h g re c d).scarabQ = s.scarabQ := rfl
@[simp] theorem State.reply_scarab (s : State) (h : Hdr) (g : Nat) (re : Re) (c : Nat) (d : List Byte) : (s.reply h g re c d).scarab = s.scarab := rfl

@[simp] theorem State.freeVal_pending (s : State) : s.freeVal.2.pending = s.pending := rfl
@[simp] theorem State.freeVal_time (s : State) : s.freeVal.2.time = s.time := rfl
@[simp] theorem State.freeVal_osc (s : State) : s.freeVal.2.osc = s.osc := rfl
@[simp] theorem State.freeVal_waferId (s : State) : s.freeVal.2.waferId = s.waferId := rfl
@[simp] theorem State.freeVal_mesh (s : State) : s.freeVal.2.mesh = s.mesh := rfl
@[simp] theorem State.freeVal_mb (s : State) : s.freeVal.2.mb = s.mb := rfl
@[simp] theorem State.freeVal_cond (s : State) : s.freeVal.2.cond = s.cond := rfl
@[simp] theorem State.freeVal_boot (s : State) : s.freeVal.2.boot = s.boot := rfl
@[simp] theorem State.freeVal_tiles (s : State) : s.freeVal.2.tiles = s.tiles := rfl
@[simp] theorem State.freeVal_fields (s : State) : s.freeVal.2.fields = s.fields := rfl
@[simp] theorem State.freeVal_ports (s : State) : s.freeVal.2.ports = s.ports := rfl
@[simp] theorem State.freeVal_glow (s : State) : s.freeVal.2.glow = s.glow := rfl
@[simp] theorem State.freeVal_hosts (s : State) : s.freeVal.2.hosts = s.hosts := rfl
@[simp] theorem State.freeVal_chassis (s : State) : s.freeVal.2.chassis = s.chassis := rfl
@[simp] theorem State.freeVal_watch (s : State) : s.freeVal.2.watch = s.watch := rfl
@[simp] theorem State.freeVal_hedge (s : State) : s.freeVal.2.hedge = s.hedge := rfl
@[simp] theorem State.freeVal_flash (s : State) : s.freeVal.2.flash = s.flash := rfl
@[simp] theorem State.freeVal_scarabQ (s : State) : s.freeVal.2.scarabQ = s.scarabQ := rfl
@[simp] theorem State.freeVal_scarab (s : State) : s.freeVal.2.scarab = s.scarab := rfl
@[simp] theorem State.freeVal_free (s : State) : s.freeVal.2.free = s.free + 1 := rfl

@[simp] theorem State.event_pending (s : State) (src c : Nat) (d : List Nat) : (s.event src c d).pending = s.pending := by
  unfold State.event; split <;> rfl
@[simp] theorem State.event_time (s : State) (src c : Nat) (d : List Nat) : (s.event src c d).time = s.time := by
  unfold State.event; split <;> rfl
@[simp] theorem State.event_free (s : State) (src c : Nat) (d : List Nat) : (s.event src c d).free = s.free := by
  unfold State.event; split <;> rfl
@[simp] theorem State.event_osc (s : State) (src c : Nat) (d : List Nat) : (s.event src c d).osc = s.osc := by
  unfold State.event; split <;> rfl
@[simp] theorem State.event_waferId (s : State) (src c : Nat) (d : List Nat) : (s.event src c d).waferId = s.waferId := by
  unfold State.event; split <;> rfl
@[simp] theorem State.event_mesh (s : State) (src c : Nat) (d : List Nat) : (s.event src c d).mesh = s.mesh := by
  unfold State.event; split <;> rfl
@[simp] theorem State.event_mb (s : State) (src c : Nat) (d : List Nat) : (s.event src c d).mb = s.mb := by
  unfold State.event; split <;> rfl
@[simp] theorem State.event_cond (s : State) (src c : Nat) (d : List Nat) : (s.event src c d).cond = s.cond := by
  unfold State.event; split <;> rfl
@[simp] theorem State.event_boot (s : State) (src c : Nat) (d : List Nat) : (s.event src c d).boot = s.boot := by
  unfold State.event; split <;> rfl
@[simp] theorem State.event_tiles (s : State) (src c : Nat) (d : List Nat) : (s.event src c d).tiles = s.tiles := by
  unfold State.event; split <;> rfl
@[simp] theorem State.event_fields (s : State) (src c : Nat) (d : List Nat) : (s.event src c d).fields = s.fields := by
  unfold State.event; split <;> rfl
@[simp] theorem State.event_ports (s : State) (src c : Nat) (d : List Nat) : (s.event src c d).ports = s.ports := by
  unfold State.event; split <;> rfl
@[simp] theorem State.event_glow (s : State) (src c : Nat) (d : List Nat) : (s.event src c d).glow = s.glow := by
  unfold State.event; split <;> rfl
@[simp] theorem State.event_hosts (s : State) (src c : Nat) (d : List Nat) : (s.event src c d).hosts = s.hosts := by
  unfold State.event; split <;> rfl
@[simp] theorem State.event_chassis (s : State) (src c : Nat) (d : List Nat) : (s.event src c d).chassis = s.chassis := by
  unfold State.event; split <;> rfl
@[simp] theorem State.event_watch (s : State) (src c : Nat) (d : List Nat) : (s.event src c d).watch = s.watch := by
  unfold State.event; split <;> rfl
@[simp] theorem State.event_hedge (s : State) (src c : Nat) (d : List Nat) : (s.event src c d).hedge = s.hedge := by
  unfold State.event; split <;> rfl
@[simp] theorem State.event_flash (s : State) (src c : Nat) (d : List Nat) : (s.event src c d).flash = s.flash := by
  unfold State.event; split <;> rfl

@[simp] theorem State.tile_setTile (s : State) (t : TileId) (tl : Tile) : (s.setTile t tl).tile t = tl := by
  simp [State.tile, State.setTile]

@[simp] theorem State.tile_modTile (s : State) (t : TileId) (g : Tile → Tile) : (s.modTile t g).tile t = g (s.tile t) := by
  simp [State.modTile]

@[simp] theorem State.field_setField (s : State) (f : Nat) (fd : Field) : (s.setField f fd).field f = fd := by
  simp [State.field, State.setField]

@[simp] theorem State.field_modField (s : State) (f : Nat) (g : Field → Field) : (s.modField f g).field f = g (s.field f) := by
  simp [State.modField]

theorem State.tile_setTile_other (s : State) (t u : TileId) (tl : Tile) (h : tileKey t ≠ tileKey u) : (s.setTile t tl).tile u = s.tile u := by
  simp [State.tile, State.setTile, Tab.getD_put_other _ _ _ _ _ h]

theorem State.field_setField_other (s : State) (f g : Nat) (fd : Field) (h : f ≠ g) : (s.setField f fd).field g = s.field g := by
  simp [State.field, State.setField, Tab.getD_put_other _ _ _ _ _ h]

@[simp] theorem State.tile_setField (s : State) (f : Nat) (fd : Field) (t : TileId) : (s.setField f fd).tile t = s.tile t := rfl

@[simp] theorem State.tile_modField (s : State) (f : Nat) (g : Field → Field) (t : TileId) : (s.modField f g).tile t = s.tile t := rfl

@[simp] theorem State.field_setTile (s : State) (t : TileId) (tl : Tile) (f : Nat) : (s.setTile t tl).field f = s.field f := rfl

@[simp] theorem State.field_modTile (s : State) (t : TileId) (g : Tile → Tile) (f : Nat) : (s.modTile t g).field f = s.field f := rfl

@[simp] theorem State.tile_send (s : State) (p : Pkt) (t : TileId) : (s.send p).tile t = s.tile t := rfl

@[simp] theorem State.field_send (s : State) (p : Pkt) (f : Nat) : (s.send p).field f = s.field f := rfl

@[simp] theorem State.tile_arrive (s : State) (p : Pkt) (t : TileId) : (s.arrive p).tile t = s.tile t := rfl

@[simp] theorem State.field_arrive (s : State) (p : Pkt) (f : Nat) : (s.arrive p).field f = s.field f := rfl

@[simp] theorem State.tile_event (s : State) (src c : Nat) (d : List Nat) (t : TileId) : (s.event src c d).tile t = s.tile t := by
  simp [State.tile]

@[simp] theorem State.field_event (s : State) (src c : Nat) (d : List Nat) (f : Nat) : (s.event src c d).field f = s.field f := by
  simp [State.field]

@[simp] theorem State.port_setPort (s : State) (p : Nat) (v : Port) : (s.setPort p v).port p = v := by
  simp [State.port, State.setPort]

@[simp] theorem State.port_modPort (s : State) (p : Nat) (g : Port → Port) : (s.modPort p g).port p = g (s.port p) := by
  simp [State.modPort]

theorem State.port_setPort_other (s : State) (p q : Nat) (v : Port) (h : p ≠ q) : (s.setPort p v).port q = s.port q := by
  simp [State.port, State.setPort, Tab.getD_put_other _ _ _ _ _ h]

@[simp] theorem State.host_modHost (s : State) (j : Nat) (g : HostNode → HostNode) : (s.modHost j g).host j = g (s.host j) := by
  simp [State.host, State.modHost]

theorem State.host_modHost_other (s : State) (j k : Nat) (g : HostNode → HostNode) (h : j ≠ k) : (s.modHost j g).host k = s.host k := by
  simp [State.host, State.modHost, Tab.getD_put_other _ _ _ _ _ h]

@[simp] theorem State.hedge_modHedge (s : State) (g : Hedge → Hedge) : (s.modHedge g).hedge = g s.hedge := rfl

@[simp] theorem State.tile_setPort (s : State) (p : Nat) (v : Port) (t : TileId) : (s.setPort p v).tile t = s.tile t := rfl

@[simp] theorem State.field_setPort (s : State) (p : Nat) (v : Port) (f : Nat) : (s.setPort p v).field f = s.field f := rfl

@[simp] theorem State.tile_modHedge (s : State) (g : Hedge → Hedge) (t : TileId) : (s.modHedge g).tile t = s.tile t := rfl

@[simp] theorem State.field_modHedge (s : State) (g : Hedge → Hedge) (f : Nat) : (s.modHedge g).field f = s.field f := rfl

/-- Positions on the array have keys of their own. -/
theorem tileKey_inj (a b : TileId) (ha : a.x < 800) (hb : b.x < 800) (h : tileKey a = tileKey b) : a = b := by
  obtain ⟨ax, ay⟩ := a
  obtain ⟨bx, by_⟩ := b
  simp only [tileKey] at *
  have : ay = by_ := by omega
  subst this
  simp at h ⊢
  exact h

end Sys2Proof.Machine
end

