-- ==== Sys2Proof/Laws/Core.lean ====
section
/-! SUPPORT. What the shared operations of the control core do: registers, retiring, completing, stalling and halting. -/

namespace Sys2Proof.Machine

theorem Does.of_next {c : Instr} {s u : State} {P : State → Prop} (h : exec c s = .next u) (hp : P u) : Does c s P := ⟨u, h, hp⟩

theorem Tile.reg_setReg (tl : Tile) (r q : Nat) (v : Word) : (tl.setReg r v).reg q = if q = 0 then 0 else if r = q then v else tl.reg q := by
  unfold Tile.setReg Tile.reg
  by_cases hq : q = 0
  · simp [hq]
  · by_cases hr : r = 0
    · simp [hq, hr, Ne.symm hq]
    · by_cases h : r = q
      · subst h; simp [hq]
      · simp [hq, hr, h, Tab.getD_put_other _ _ _ _ _ h]

@[simp] theorem Tile.reg_retire (tl : Tile) (n c q : Nat) : (tl.retire n c).reg q = tl.reg q := rfl

@[simp] theorem Tile.stall_retire (tl : Tile) (n c : Nat) : (tl.retire n c).core.stall = none := rfl

@[simp] theorem Tile.pc_retire (tl : Tile) (n c : Nat) : (tl.retire n c).core.pc = tl.core.pc + BitVec.ofNat 32 n := rfl

@[simp] theorem Tile.pc_setReg (tl : Tile) (r : Nat) (v : Word) : (tl.setReg r v).core.pc = tl.core.pc := by
  unfold Tile.setReg; split <;> rfl

@[simp] theorem Tile.stall_setReg (tl : Tile) (r : Nat) (v : Word) : (tl.setReg r v).core.stall = tl.core.stall := by
  unfold Tile.setReg; split <;> rfl

/-- What a register write leaves of a tile. -/
theorem Tile.setReg_rest (tl : Tile) (r : Nat) (v : Word) : ({ (tl.setReg r v) with core := tl.core } : Tile) = tl := by
  unfold Tile.setReg; split <;> rfl

@[simp] theorem Tile.mem_setReg (tl : Tile) (r : Nat) (v : Word) : (tl.setReg r v).mem = tl.mem := by unfold Tile.setReg; split <;> rfl
@[simp] theorem Tile.handles_setReg (tl : Tile) (r : Nat) (v : Word) : (tl.setReg r v).handles = tl.handles := by unfold Tile.setReg; split <;> rfl
@[simp] theorem Tile.windows_setReg (tl : Tile) (r : Nat) (v : Word) : (tl.setReg r v).windows = tl.windows := by unfold Tile.setReg; split <;> rfl
@[simp] theorem Tile.q_setReg (tl : Tile) (r : Nat) (v : Word) : (tl.setReg r v).q = tl.q := by unfold Tile.setReg; split <;> rfl
@[simp] theorem Tile.sync_setReg (tl : Tile) (r : Nat) (v : Word) : (tl.setReg r v).sync = tl.sync := by unfold Tile.setReg; split <;> rfl
@[simp] theorem Tile.fold_setReg (tl : Tile) (r : Nat) (v : Word) : (tl.setReg r v).fold = tl.fold := by unfold Tile.setReg; split <;> rfl
@[simp] theorem Tile.forage_setReg (tl : Tile) (r : Nat) (v : Word) : (tl.setReg r v).forage = tl.forage := by unfold Tile.setReg; split <;> rfl
@[simp] theorem Tile.act_setReg (tl : Tile) (r : Nat) (v : Word) : (tl.setReg r v).act = tl.act := by unfold Tile.setReg; split <;> rfl
@[simp] theorem Tile.gen_setReg (tl : Tile) (r : Nat) (v : Word) : (tl.setReg r v).gen = tl.gen := by unfold Tile.setReg; split <;> rfl
@[simp] theorem Tile.fault_setReg (tl : Tile) (r : Nat) (v : Word) : (tl.setReg r v).fault = tl.fault := by unfold Tile.setReg; split <;> rfl
@[simp] theorem Tile.lastStatus_setReg (tl : Tile) (r : Nat) (v : Word) : (tl.setReg r v).core.lastStatus = tl.core.lastStatus := by unfold Tile.setReg; split <;> rfl

@[simp] theorem Tile.mem_retire (tl : Tile) (n c : Nat) : (tl.retire n c).mem = tl.mem := rfl
@[simp] theorem Tile.handles_retire (tl : Tile) (n c : Nat) : (tl.retire n c).handles = tl.handles := rfl
@[simp] theorem Tile.windows_retire (tl : Tile) (n c : Nat) : (tl.retire n c).windows = tl.windows := rfl
@[simp] theorem Tile.q_retire (tl : Tile) (n c : Nat) : (tl.retire n c).q = tl.q := rfl
@[simp] theorem Tile.sync_retire (tl : Tile) (n c : Nat) : (tl.retire n c).sync = tl.sync := rfl
@[simp] theorem Tile.fold_retire (tl : Tile) (n c : Nat) : (tl.retire n c).fold = tl.fold := rfl
@[simp] theorem Tile.forage_retire (tl : Tile) (n c : Nat) : (tl.retire n c).forage = tl.forage := rfl
@[simp] theorem Tile.fault_retire (tl : Tile) (n c : Nat) : (tl.retire n c).fault = tl.fault := rfl
@[simp] theorem Tile.lastStatus_retire (tl : Tile) (n c : Nat) : (tl.retire n c).core.lastStatus = tl.core.lastStatus := rfl

/-- A core that issues is neither halted nor stalled. -/
theorem ready_stall {s : State} {t : TileId} (h : s.coreReady t = true) : (s.tile t).core.stall = none := by
  simp only [State.coreReady, Bool.and_eq_true] at h
  simpa using h.1.1.2

theorem ready_halted {s : State} {t : TileId} (h : s.coreReady t = true) : (s.tile t).core.halted = false := by
  simp only [State.coreReady, Bool.and_eq_true] at h
  simpa using h.1.1.1

/-- Completing an instruction from a core that does not stall. -/
theorem tile_finish (s : State) (t : TileId) (a : XArgs) (st v c : Nat) (h : (s.tile t).core.stall = none) :
    (s.finish t a st v c).tile t = ((s.tile t).setReg a.rd (statusWord st v)).retire 4 c := by
  simp [State.finish, Tile.inSwait, h]

theorem finish_eq (s : State) (t : TileId) (a : XArgs) (st v c : Nat) (h : (s.tile t).core.stall = none) :
    s.finish t a st v c = s.modTile t (fun tl => (tl.setReg a.rd (statusWord st v)).retire 4 c) := by
  simp [State.finish, Tile.inSwait, h]

/-- An instruction that is named and issues runs its body. -/
theorem issue_eq {op : XOp} {body : TileId → XArgs → State → State} {t : TileId} {a : XArgs} {s : State} (h : Issues s t op a) :
    issue op body t a s = body t a s := by
  simp [issue, h.1, h.2]

end Sys2Proof.Machine
end

