-- ==== Sys2Proof/Laws/Shared.lean ====
section
/-! SUPPORT. What the shared operations over memory, packets and Hedgerow can do: one lemma each, to be cited in place of unfolding them. -/

namespace Sys2Proof.Machine

/-! ## Correcting single-bit errors (R117) -/

/-- A tile but for its list of single-bit errors and the rotations of its memory ports. -/
def Tile.calm (tl : Tile) : Tile := { tl with mem := { tl.mem with ce := [], arb := 0, arbTm := 0 } }

/-- What counting a corrected word leaves of the engine. -/
theorem State.tile_countCe (s : State) (t : TileId) (w : Nat) (v : TileId) : (s.countCe t w).tile v = s.tile v := by
  simp [State.countCe]

theorem State.mesh_countCe (s : State) (t : TileId) (w : Nat) : (s.countCe t w).mesh = s.mesh := by
  simp [State.countCe]

/-- Putting back a tile that is the same but for its errors and rotations changes no tile but for those. -/
theorem State.calm_modTile (s : State) (t v : TileId) (g : Tile → Tile) (h : ∀ tl : Tile, (g tl).calm = tl.calm) :
    ((s.modTile t g).tile v).calm = (s.tile v).calm := by
  by_cases k : tileKey t = tileKey v
  · have : s.tile v = s.tile t := by simp [State.tile, k]
    rw [this, show (s.modTile t g).tile v = (s.modTile t g).tile t by simp [State.tile, k], State.tile_modTile, h]
  · rw [State.modTile, State.tile_setTile_other _ _ _ _ k]

/-- Correcting words changes no tile but for its list of single-bit errors. -/
theorem State.calm_correctWords (t v : TileId) : ∀ (ws : List Nat) (s : State), ((s.correctWords t ws).tile v).calm = (s.tile v).calm
  | [], _ => rfl
  | w :: ws, s => by
    rw [State.correctWords, List.foldl_cons, ← State.correctWords, State.calm_correctWords t v ws]
    split
    · rw [State.tile_countCe]
    · rw [State.tile_countCe]; exact State.calm_modTile _ _ _ _ (fun _ => rfl)

/-- What a read's correction can do to a tile: nothing but take single-bit errors out of its list. -/
theorem State.calm_correct (s : State) (t v : TileId) (o n : Nat) : ((s.correct t o n).tile v).calm = (s.tile v).calm :=
  State.calm_correctWords _ _ _ _

theorem State.calm_merge (s : State) (t v : TileId) (o n : Nat) : ((s.merge t o n).tile v).calm = (s.tile v).calm :=
  State.calm_correctWords _ _ _ _

/-- Serving a requester moves the rotation of a port and nothing else. -/
theorem State.calm_served (s : State) (t v : TileId) (req o : Nat) : ((s.served t req o).tile v).calm = (s.tile v).calm :=
  State.calm_modTile _ _ _ _ (fun tl => by unfold TileMem.granted; split <;> rfl)

/-- A unit's read: it faults at a word beyond correction, or goes on with the bytes from a state whose tiles are the same but for errors and rotations. -/
theorem State.reading_cases (s : State) (t : TileId) (unit o n : Nat) (k : List Byte → State → State) :
    (∃ u, (s.tile t).mem.hit o n = some u ∧ s.reading t unit o n k = s.ueFault t unit u 0) ∨
      ((s.tile t).mem.hit o n = none ∧ ∃ s', (∀ v, (s'.tile v).calm = (s.tile v).calm) ∧ s.reading t unit o n k = k ((s.tile t).get o n) s') := by
  unfold State.reading
  split
  · exact .inl ⟨_, ‹_›, rfl⟩
  · exact .inr ⟨‹_›, _, fun v => (State.calm_served _ _ _ _ _).trans (State.calm_correct _ _ _ _ _), rfl⟩

/-- A unit's write: it faults at a word beyond correction that it covers in part, or goes on from such a state. -/
theorem State.writing_cases (s : State) (t : TileId) (unit o n : Nat) (k : State → State) :
    (∃ u, (s.tile t).mem.partialHit o n = some u ∧ s.writing t unit o n k = s.ueFault t unit u 0) ∨
      ((s.tile t).mem.partialHit o n = none ∧ ∃ s', (∀ v, (s'.tile v).calm = (s.tile v).calm) ∧ s.writing t unit o n k = k s') := by
  unfold State.writing
  split
  · exact .inl ⟨_, ‹_›, rfl⟩
  · exact .inr ⟨‹_›, _, fun v => (State.calm_served _ _ _ _ _).trans (State.calm_merge _ _ _ _ _), rfl⟩

/-! ## Arrival (R192) -/

/-- A packet's arrival: it may not arrive and nothing changes, or its endpoint acts on it. -/
theorem State.landing_cases (s : State) (p : Pkt) (k : State → State) :
    (s.mayArrive p = false ∧ s.landing p k = s) ∨ (s.mayArrive p = true ∧ s.landing p k = k (s.took p)) := by
  unfold State.landing
  cases h : s.mayArrive p <;> simp

/-- A packet that the mesh does not hold may arrive, and its taker's pointer stays (log entry 62). -/
theorem State.landing_absent {s : State} {p : Pkt} (k : State → State) (h : s.mesh.flight.any (fun x => x.pkt == p) = false) :
    s.landing p k = k (s.arrive p) := by
  simp [State.landing, State.mayArrive, State.took, h]

/-! ## Hedgerow's answers (R451) -/

/-- A Redfish request: without Hedgerow nothing happens, without a live session it is 401, with too low a role 403; else its action runs. -/
theorem State.serve_cases (s : State) (session need : Nat) (g : Account → State → State) :
    (s.hedge.up = false ∧ s.serve session need g = .next s) ∨
      (s.hedge.up = true ∧ s.hedge.who session s.hedgeNow = none ∧ s.serve session need g = .next (s.http 401)) ∨
      (∃ a, s.hedge.up = true ∧ s.hedge.who session s.hedgeNow = some a ∧
        ((a.role < need ∧ s.serve session need g = .next ((s.used session).http 403)) ∨
          (need ≤ a.role ∧ s.serve session need g = .next (g a ((s.used session).http 200))))) := by
  unfold State.serve
  cases h : s.hedge.up
  · simp
  · cases k : s.hedge.who session s.hedgeNow with
    | none => simp
    | some a =>
      by_cases r : a.role < need
      · exact .inr (.inr ⟨a, rfl, rfl, .inl ⟨r, by simp [r]⟩⟩)
      · exact .inr (.inr ⟨a, rfl, rfl, .inr ⟨by omega, by simp [r]⟩⟩)

end Sys2Proof.Machine
end

