-- ==== Sys2Proof/Tests/Slice0.lean ====
section
/-! SUPPORT. Witnesses: for every statement with hypotheses, states and operands that meet them, with what the command then does, at boundary values; and ill-formed commands that WellFormed refuses. -/

namespace Sys2Proof.Tests

set_option Elab.async false

open Sys2Proof Sys2Proof.Machine

/-- A tile of field 1. -/
def tA : TileId := ⟨110, 5⟩

/-- Its east neighbour. -/
def tB : TileId := ⟨111, 5⟩

/-- An admitted tile whose core runs at 0x1000. -/
def tile0 : Tile := { st := .admitted, core := { pc := 0x1000, halted := false } }

/-- A field whose clock runs. -/
def field0 : Field :=
  { pwr := { state := .idle }, clk := { clock := 2 }, svc := { state := .inService, furrow := none }, runTicks := 1000000, cycles := 1000000 }

/-- An engine with fields 0, 1 and 55 running, one tile, and a conductor. -/
def s0 : State :=
  { time := 1000000, tiles := [(tileKey tA, tile0)], fields := [(0, field0), (1, field0), (55, field0)]
    mb := { running := true }, boot := { complete := true }, chassis := { board := true, input := true, pwrEn := true, stbyGood := true }
    hedge := { up := true } }

/-- The engine with its tile changed. -/
def sT (f : Tile → Tile) : State := s0.modTile tA f

/-- The command answers a next state of which p holds. -/
def ran (c : Instr) (s : State) (p : State → Bool) : Bool :=
  match exec c s with
  | .next u => p u
  | .fault _ | .refused _ => false

/-! ## Witnesses: the core's instructions -/

/-- The core's registers 1 and 2 hold a and b. -/
def sR (a b : Word) (f : Tile → Tile := fun t => t) : State :=
  sT (fun t => f { t with core := { t.core with regs := [(1, a), (2, b)] } })

/-- Operands: rd 3, rs1 1, rs2 2. -/
def x12 : XArgs := ⟨3, 1, 2, 0⟩
/-- Operands: rd 3, rs1 1. -/
def x1 : XArgs := ⟨3, 1, 0, 0⟩

/-- The tile after the command. -/
def after (c : Instr) (s : State) (p : Tile → Bool) : Bool := ran c s (fun u => p (u.tile tA))

/-- An instruction completed: the pc is past it, and rd holds the status and value. -/
def done (st v : Nat) (tl : Tile) : Bool := decide (tl.core.pc = 0x1004 ∧ tl.reg 3 = statusWord st v ∧ tl.core.stall = none)

/-- The mesh holds a packet for this endpoint with this body. -/
def sentIn (dst : Endp) (b : Body) (u : State) : Bool := u.mesh.flight.any (fun x => x.pkt.h.dst == dst && x.pkt.body == b)

def lsB : LsArgs := { size := 1, unsigned := false, reg := 3, rs1 := 1, imm := 0, ilen := 4 }
def lsH : LsArgs := { size := 2, unsigned := false, reg := 2, rs1 := 1, imm := 0xFFFFFFFE, ilen := 2 }
def sByte : State := sR 0xBFFF 0 (fun t => { t with mem := { t.mem with cells := [(0xBFFF, 0x80)] } })
def sWord (w : Word) : State := sR 0xFFFFFFF0 0x20 (fun t => { t with mem := { t.mem with cells := Memory.writeN [] (wordLe w) 0x1000 } })

theorem witness_base_load : sByte.coreReady tA = true ∧ (sByte.lsAddr tA lsB).toNat % lsB.size = 0 ∧ inMem (sByte.lsAddr tA lsB).toNat lsB.size = true ∧
    (sByte.tile tA).mem.hit (sByte.lsAddr tA lsB).toNat lsB.size = none ∧
    after (.coreLoad tA lsB) sByte (fun t => decide (t.reg 3 = 0xFFFFFF80 ∧ t.core.pc = 0x1004)) = true := by decide +kernel
theorem witness_base_store : (sR 0x80000 0x1234).coreReady tA = true ∧ ((sR 0x80000 0x1234).lsAddr tA lsH).toNat % 2 = 0 ∧
    inMem ((sR 0x80000 0x1234).lsAddr tA lsH).toNat 2 = true ∧ ((sR 0x80000 0x1234).tile tA).mem.partialHit ((sR 0x80000 0x1234).lsAddr tA lsH).toNat 2 = none ∧
    after (.coreStore tA lsH) (sR 0x80000 0x1234) (fun t => decide (t.get 0x7FFFE 2 = [0x34, 0x12] ∧ t.core.pc = 0x1002 ∧ t.core.regs = [(1, 0x80000), (2, 0x1234)])) = true := by
  decide +kernel
theorem witness_base_csr : s0.csr tA 0xC01 = some 1000000 ∧ csrWrites .rs 0 = false ∧
    after (.csrAccess tA 0xC01 .rs 3 0) s0 (fun t => decide (t.reg 3 = 1000000)) = true := by decide +kernel
theorem witness_base_halts : (s0.tile tA).fault.valid = false ∧
    after (.ecall tA) s0 (fun t => decide (t.core.halted = true ∧ t.fault.code = 0x0702 ∧ t.fault.pc = 0x1000 ∧ t.st = .halted)) = true ∧
    after (.ebreak tA) s0 (fun t => decide (t.fault.code = 0x0703)) = true := by decide +kernel
theorem witness_base_words :
    ((sWord (encI 0x13 0 3 1 0xFFF)).tile tA).core.pc.toNat % 2 = 0 ∧ inSp 0x1000 4 = true ∧ ((sWord (encI 0x13 0 3 1 0xFFF)).tile tA).mem.ue = [] ∧
    ((sWord (encI 0x13 0 3 1 0xFFF)).tile tA).get 0x1000 4 = wordLe (encI 0x13 0 3 1 0xFFF) ∧
    after (.rvInstruction tA) (sWord (encI 0x13 0 3 1 0xFFF)) (fun t => decide (t.reg 3 = 0xFFFFFFEF ∧ t.core.pc = 0x1004)) = true ∧
    after (.rvInstruction tA) (sWord (word [(0x37, 0), (3, 7), (0xFFFFF, 12)])) (fun t => decide (t.reg 3 = 0xFFFFF000)) = true ∧
    after (.rvInstruction tA) (sWord (encR 0x33 0 1 3 1 2)) (fun t => decide (t.reg 3 = 0xFFFFFE00)) = true := by decide +kernel

/-! ## Buffers -/

/-- Handle 1: two slots of 32 bytes at scratchpad 0x200. -/
def hand1 : Handle := { valid := true, slotSize := 0, base := 16, length := 2 }
/-- The tile's handle 1 is set. -/
def withH (t : Tile) : Tile := { t with handles := [(1, hand1)] }
/-- A handle image at 0x40: two slots of 32 bytes at scratchpad 0x200. -/
def image1 : List Byte := wordLe hand1.word0 ++ wordLe 2 ++ wordLe 0 ++ wordLe 0
def sImg : State := sR 1 0x40 (fun t => { t with mem := { t.mem with cells := Memory.writeN [] image1 0x40 } })
/-- Slot 1, word 7 of handle 1. -/
def ref17 : Word := word [(1, 0), (1, 6), (7, 22)]

theorem witness_buffer_hset : Issues sImg tA .hset x12 ∧ bits (sImg.rs1 tA x12) 31 6 = 0 ∧ imageOk (sImg.rs2 tA x12).toNat 16 = true ∧
    (sImg.tile tA).inUse 1 = false ∧ (sImg.tile tA).mem.hit 0x40 16 = none ∧ handleImageOk hand1.word0 2 0 0 = true ∧
    after (.hset tA x12) sImg (fun t => done stOk 0 t && decide (t.handle 1 = hand1)) = true := by unfold Issues; decide +kernel
theorem witness_buffer_hclr : Issues (sR 1 0 withH) tA .hclr x1 ∧ ((sR 1 0 withH).tile tA).inUse 1 = false ∧
    after (.hclr tA x1) (sR 1 0 withH) (fun t => done stOk 0 t && decide ((t.handle 1).valid = false)) = true := by unfold Issues; decide +kernel
theorem witness_buffer_ldt : Issues (sR ref17 0 withH) tA .ldt x1 ∧ ((sR ref17 0 withH).tile tA).refWordOk (hrefOf ref17) = true ∧
    (((sR ref17 0 withH).tile tA).handle (hrefOf ref17).handle).tagged = false ∧
    after (.ldt tA x1) (sR ref17 0 (fun t => { withH t with mem := { t.mem with cells := [(0x23C, 5)] } })) (fun t => decide (t.reg 3 = 5 ∧ t.core.lastStatus = 0)) = true := by
  unfold Issues; decide +kernel
theorem witness_buffer_stt : Issues (sR ref17 9 withH) tA .stt x12 ∧ ((sR ref17 9 withH).tile tA).mem.partialHit 0x23C 4 = none ∧
    after (.stt tA x12) (sR ref17 9 withH) (fun t => done stOk 0 t && decide (t.mem.cells = [(0x23C, 9)])) = true := by unfold Issues; decide +kernel
theorem witness_buffer_tfill : Issues (sR 1 0x20000 withH) tA .tfill ⟨3, 1, 2, 1⟩ ∧ bits (0x20000 : Word) 31 16 ≠ 0 ∧
    bits (0x20000 : Word) 15 0 + bits (0x20000 : Word) 31 16 ≤ hand1.length ∧
    after (.tfill tA ⟨3, 1, 2, 1⟩) (sR 1 0x20000 withH) (fun t => done stOk 0 t && t.slotsFull hand1 0 2) = true := by unfold Issues; decide +kernel

/-! ## Cells -/

/-- Local cell 5. -/
def cell5 : Word := 0x10005
def withCell (c : Cell) (t : Tile) : Tile := { t with sync := { t.sync with cells := [(5, c)] } }

theorem witness_sync_local :
    cellOperandOk cell5 = true ∧ Issues (sR cell5 0 (withCell { type := 0, value := 1 })) tA .swait x1 ∧
    after (.swait tA x1) (sR cell5 0 (withCell { type := 0, value := 1 })) (fun t => done stOk 0 t && decide ((t.cell 5).value = 0)) = true ∧
    Issues (sR cell5 0 (withCell { type := 1, value := 0xFFFFFF })) tA .ssignal x12 ∧
    after (.ssignal tA x12) (sR cell5 0 (withCell { type := 1, value := 0xFFFFFF })) (fun t => done stOk 0 t && decide ((t.cell 5).value = 0)) = true ∧
    Issues (sR cell5 0 (withCell { value := 77 })) tA .sread x1 ∧ after (.sread tA x1) (sR cell5 0 (withCell { value := 77 })) (done stOk 77) = true := by
  unfold Issues; decide +kernel
theorem witness_sync_global : cellOperandOk 7 = true ∧ bit (7 : Word) 16 = false ∧ Issues (sR 7 0) tA .swait x1 ∧
    ran (.swait tA x1) (sR 7 0) (fun u => decide ((u.tile tA).core.stall.isSome = true) && sentIn (.fc 1) (.sync 0 { index := 7, amount := 0, srcGen := 0, srcWafer := 0 }) u) = true := by
  unfold Issues; decide +kernel
theorem witness_sync_fence : Issues (sT (fun t => { t with sync := { t.sync with failField := true } })) tA .sfence ⟨3, 0, 0, 1⟩ ∧
    after (.sfence tA ⟨3, 0, 0, 1⟩) (sT (fun t => { t with sync := { t.sync with failField := true } }))
      (fun t => done stPathLost 0 t && decide (t.sync.failField = false)) = true := by unfold Issues; decide +kernel

/-! ## Queues -/

/-- Context 2 is OPEN to tB's queue 3 with a credit and messages of up to 32 bytes. -/
def ctx2 : Ctx := { state := 2, credits := 1, granted := 1, peer := tB, queue := 3 }
def withCtx (c : Ctx) (t : Tile) : Tile := { t with q := { t.q with ctxs := [(2, c)] } }
/-- Slot 0 of handle 1. -/
def ref10 : Word := 1
def tBref : Word := word [(111, 0), (5, 10), (3, 20)]

theorem witness_queue_open : Issues (sR tBref 32) tA .qopen x12 ∧ bits tBref 31 23 = 0 ∧
    firstBelow 16 (fun c => (((sR tBref 32).tile tA).ctx c).state == 0) = some 0 ∧
    ran (.qopen tA x12) (sR tBref 32) (fun u => decide (((u.tile tA).ctx 0).state = 1 ∧ (u.tile tA).core.stall.isSome = true) &&
      sentIn (.tile tB) (.openReq { ctx := 0, queue := 3, credits := 32, gen := 0 }) u) = true := by unfold Issues; decide +kernel
theorem witness_queue_close : Issues (sR 2 0 (withCtx { state := 3 })) tA .qclose x1 ∧
    after (.qclose tA x1) (sR 2 0 (withCtx { state := 3 })) (fun t => done stOk 0 t && decide ((t.ctx 2).state = 0)) = true := by unfold Issues; decide +kernel
theorem witness_queue_send : Issues (sR 2 ref10 (fun t => withH (withCtx ctx2 t))) tA .qsend x12 ∧
    ((sR 2 ref10 (fun t => withH (withCtx ctx2 t))).tile tA).refOk (hrefOf ref10) = true ∧ 0 < ctx2.credits ∧
    hand1.slotBytes ≤ 32 * 2 ^ ctx2.maxSize ∧ hand1.tagged = false ∧
    ran (.qsend tA x12) (sR 2 ref10 (fun t => withH (withCtx ctx2 t))) (fun u => done stOk 0 (u.tile tA) && decide (((u.tile tA).ctx 2).credits = 0) &&
      sentIn (.tile tB) (.message { ref := ctx2.ref 2, seq := 0, gen := 0, data := List.replicate 32 0 }) u) = true ∧
    after (.qtrysend tA x12) (sR 2 ref10 (fun t => withH (withCtx ctx2 t))) (done stOk 0) = true := by unfold Issues; decide +kernel

/-- Queue 4 is OPEN on handle 2 and holds one message of 8 bytes in slot 1 from tB's context 6. -/
def from6 : Sender := { src := .tile tB, tile := tB, ctx := 6, gen := 0 }
def queue4 : RQueue := { cfg := word [(2, 16), (1, 31)], state := 1, entries := [.msg 1 8 from6 false] }
def withQ (t : Tile) : Tile :=
  { t with q := { t.q with queues := [(4, queue4)] }, handles := [(1, hand1), (2, { hand1 with base := 32 })],
           mem := { t.mem with cells := Memory.writeN [] [1, 2, 3, 4, 5, 6, 7, 8] 0x420 } }

theorem witness_queue_recv : Issues (sR 4 ref10 withQ) tA .qrecv x12 ∧ ((sR 4 ref10 withQ).tile tA).refOk (hrefOf ref10) = true ∧
    ((sR 4 ref10 withQ).tile tA).queue 4 = queue4 ∧ 8 ≤ hand1.slotBytes ∧
    after (.qrecv tA x12) (sR 4 ref10 withQ) (fun t => done stOk (8 + 6 * 2 ^ 13) t && decide ((t.queue 4).entries = [] ∧ t.get 0x200 9 = [1, 2, 3, 4, 5, 6, 7, 8, 0])) = true ∧
    after (.qtryrecv tA x12) (sR 4 ref10 withQ) (done stOk (8 + 6 * 2 ^ 13)) = true := by unfold Issues; decide +kernel
theorem witness_queue_select : Issues (sR 0x90 0 withQ) tA .qselect x1 ∧ bit (0x90 : Word) 4 = true ∧ (((sR 0x90 0 withQ).tile tA).queue 4).selectable = true ∧
    (∀ i, i < 4 → bit (0x90 : Word) i = true → (((sR 0x90 0 withQ).tile tA).queue i).selectable = false) ∧
    after (.qselect tA x1) (sR 0x90 0 withQ) (done stOk 4) = true ∧
    Issues (sT withQ) tA .qstat ⟨3, 0, 0, 0⟩ ∧ after (.qstat tA ⟨3, 0, 0, 0⟩) (sT withQ) (fun t => decide (t.reg 3 = ((sT withQ).tile tA).qstat)) = true := by
  unfold Issues; decide +kernel

/-! ## Witnesses: forage, folds and windows -/

/-- Handles 1 and 2: two slots of 32 bytes each at scratchpad 0x200 and 0x400. -/
def with2 (t : Tile) : Tile := { t with handles := [(1, hand1), (2, { hand1 with base := 32 })] }
/-- A descriptor: CONVERT of one FP32 element of handle 1 into handle 2. -/
def desc5 : List Byte := [5, 0, 0, 0, 1, 0, 2, 0, 1, 0, 1, 0, 1, 0] ++ List.replicate 18 0
/-- A tile with that descriptor at 0x60, and a unit of it. -/
def withDesc (t : Tile) : Tile := { with2 t with mem := { t.mem with cells := Memory.writeN [] desc5 0x60 } }
def unit5 : FUnit := { desc := desc5, unitId := 7, home := tA, homeGen := 0, firing := none, conn := none, stolen := none }
/-- Its engines: one unit queued on engine 0, or running on it. -/
def withQueued (n : Nat) (t : Tile) : Tile := { with2 t with forage := { t.forage with engines := [(0, { deque := List.replicate n unit5, sibling := 1, thief := 1 })], domain := 1 } }
def withRunning (t : Tile) : Tile := { with2 t with forage := { t.forage with engines := [(0, { running := some { unit := unit5 } })] } }
def sTwo (f : Tile → Tile) : State := { sT f with tiles := ((sT f).tiles.put (tileKey tB) (with2 tile0)) }

theorem witness_forage_push : Issues (sR 0x60 8 withDesc) tA .fpush x12 ∧ imageOk 0x60 32 = true ∧ ((sR 0x60 8 withDesc).tile tA).pushFail desc5 = none ∧
    ((sR 0x60 8 withDesc).tile tA).get 0x60 32 = desc5 ∧ ((sR 0x60 8 withDesc).tile tA).dequeFor (descOf desc5) 8 = 0 ∧ ((sR 0x60 8 withDesc).tile tA).occ 0 < 16 ∧
    after (.fpush tA x12) (sR 0x60 8 withDesc) (fun t => done stOk 0 t && decide (t.occ 0 = 1 ∧ t.forage.unitId = 1)) = true := by unfold Issues; decide +kernel
theorem witness_forage_steal_wait : Issues (sR (word [(1, 31), (111, 0), (5, 10)]) 0) tA .fsteal x1 ∧
    ran (.fsteal tA x1) (sR (word [(1, 31), (111, 0), (5, 10)]) 0) (sentIn (.tile tB) (.steal 8 0 0)) = true ∧
    Issues (sR 0 0 (fun t => { t with forage := { t.forage with failedSince := 3 } })) tA .fwait x1 ∧
    ((sR 0 0 (fun t => { t with forage := { t.forage with failedSince := 3 } })).tile tA).outstanding ≤ 0 ∧
    after (.fwait tA x1) (sR 0 0 (fun t => { t with forage := { t.forage with failedSince := 3 } })) (fun t => done stUnitFailed 3 t && decide (t.forage.failedSince = 0)) = true := by
  unfold Issues; decide +kernel

/-- A minimal image: epoch 0, one node without ports. -/
def img0 (crc : Nat) : List Byte := [0x46, 0x64, 1, 0, 96, 0, 1, 0, 0, 0, 0, 0] ++ natLe 4 crc ++ List.replicate 48 0 ++ [0, 0, 0, 0, 0, 1] ++ List.replicate 26 0
def img : List Byte := img0 (crc32c (img0 0))
def withImg (t : Tile) : Tile := { t with handles := [(1, { hand1 with length := 3 })], mem := { t.mem with cells := Memory.writeN [] img 0x200 } }
/-- Slot 0 holds the image, and an unbound token of its epoch waits. -/
def tok0 : TokenBody := { iteration := 0, epoch := 0, void := false, node := 0, port := 0, part := 0, len := 0, slot := 0, emit := 0, src := tB, srcGen := 0, payload := [] }
def withSlot (t : Tile) : Tile := { withImg t with fold := { t.fold with slots := [(0, { image := some (imageOf img), nodes := [{}] })], store := [{ body := tok0, slot := some 0, since := 0 }] } }

theorem witness_dload : Issues (sR 0 1 withImg) tA .dload x12 ∧ ((sR 0 1 withImg).tile tA).refOk (hrefOf 1) = true ∧ ((sR 0 1 withImg).tile tA).epochHolds 0 = false ∧
    ((sR 0 1 withImg).tile tA).get 0x200 96 = img ∧ ((sR 0 1 withImg).tile tA).refAt (hrefOf 1) = 0x200 ∧ fieldAt img 4 2 = 96 ∧
    firstFail (headerChecks (img.take 64)) = none ∧ imageFail ((sR 0 1 withImg).tile tA).handle img = none ∧
    (∀ i, i < 8 → i ≠ 0 → (((sR 0 1 withImg).tile tA).slot i).image = none) ∧
    after (.dload tA x12) (sR 0 1 withImg) (fun t => done stOk 0 t && decide ((t.slot 0).image = some (imageOf img))) = true := by unfold Issues; decide +kernel
theorem witness_dswitch_dpurge : Issues (sR 0 0 withSlot) tA .dswitch x1 ∧ (((sR 0 0 withSlot).tile tA).slot 0).image.isSome = true ∧
    after (.dswitch tA x1) (sR 0 0 withSlot) (fun t => done stOk 0 t && decide (t.fold.active = 0 ∧ t.fold.schedEn = false)) = true ∧
    Issues (sR 0 0 withSlot) tA .dpurge x1 ∧ after (.dpurge tA x1) (sR 0 0 withSlot) (fun t => done stOk 1 t && decide (t.fold.store = [])) = true := by
  unfold Issues; decide +kernel
theorem witness_dsample : Issues (sR 1 6 withH) tA .dsample x12 ∧ ((sR 1 6 withH).tile tA).fold.profOn = false ∧
    after (.dsample tA x12) (sR 1 6 withH) (fun t => done stOk 0 t && decide (t.fold.profOn = true ∧ t.fold.profHandle = 1 ∧ t.fold.profDue = 1000064)) = true := by
  unfold Issues; decide +kernel

/-- Window image: writable and readable, base handle 1, 64 bytes, key 9, drain 500. -/
def win0 : Word := word [(1, 26), (1, 25), (1, 19)]
def win1 : Word := word [(2, 0), (500, 17)]
def winImg : List Byte := wordLe win0 ++ wordLe win1 ++ wordLe 0 ++ wordLe 9
def openWin : Window := { w0 := win0, w1 := win1, w2 := 0, w3 := 9, state := 1 }
def withWin (t : Tile) : Tile := { with2 t with windows := [(3, openWin)], mem := { t.mem with cells := Memory.writeN [] winImg 0x40 } }
/-- A descriptor of R283 at 0x80: 32 bytes to tB's window 3 with key 9. -/
def rdesc : List Byte := natLe 2 0xFFFF ++ natLe 2 9 ++ natLe 4 (111 + 5 * 1024 + 3 * 2 ^ 20) ++ natLe 4 0 ++ natLe 2 32 ++ List.replicate 18 0
def withR (t : Tile) : Tile := { with2 t with mem := { t.mem with cells := Memory.writeN [] rdesc 0x80 } }

theorem witness_windows : Issues (sR 2 0x40 withWin) tA .wopen x12 ∧ (((sR 2 0x40 withWin).tile tA).window 2).state = 0 ∧
    ((sR 2 0x40 withWin).tile tA).windowImageOk win0 win1 9 = true ∧ ((sR 2 0x40 withWin).tile tA).get 0x40 16 = winImg ∧
    after (.wopen tA x12) (sR 2 0x40 withWin) (fun t => done stOk 0 t && decide (t.window 2 = openWin)) = true ∧
    Issues (sR 3 0 withWin) tA .wclose x1 ∧ (((sR 3 0 withWin).tile tA).window 3).state = 1 ∧
    after (.wclose tA x1) (sR 3 0 withWin) (fun t => done stOk 0 t && decide ((t.window 3).state = 2 ∧ (t.window 3).deadline = 1000500)) = true := by
  unfold Issues; decide +kernel
/-- An engine whose field 1 dock has an injection point in service. -/
def sDock (a b : Word) : State := { sR a b withR with tiles := (sR a b withR).tiles.put (tileKey ⟨148, 59⟩) tile0 }
theorem witness_remote : Issues (sDock 1 0x80) tA .xput ⟨3, 1, 2, 1⟩ ∧ Issues (sDock 1 0x80) tA .xget x12 ∧ ((sDock 1 0x80).tile tA).refOk (hrefOf 1) = true ∧
    remoteBad rdesc 32 = none ∧ (sDock 1 0x80).ingressEnd tA 0xFFFF = some (.dock 1 0) ∧
    ran (.xput tA ⟨3, 1, 2, 1⟩) (sDock 1 0x80) (fun u => done stOk 0 (u.tile tA) &&
      sentIn (.dock 1 0) (.remoteWrite ((sDock 1 0x80).remoteBody tA (remoteDesc rdesc)) (List.replicate 32 0)) u) = true ∧
    ran (.xget tA x12) (sDock 1 0x80) (fun u => decide ((u.tile tA).core.stall.isSome = true) &&
      sentIn (.dock 1 0) (.remoteRead ((sDock 1 0x80).remoteBody tA (remoteDesc rdesc))) u) = true := by unfold Issues; decide +kernel

/-! ## Engines and stealing -/

theorem witness_unit_start : ((sT (withQueued 1)).tile tA).present = true ∧ (sT (withQueued 1)).clocked tA = true ∧ ((sT (withQueued 1)).tile tA).unitReady unit5 = true ∧
    (descOf unit5.desc).handles.find? (fun h => !(((sT (withQueued 1)).tile tA).handle h).valid) = none ∧ (descOf unit5.desc).op = 5 ∧
    after (.unitStart tA 0) (sT (withQueued 1)) (fun t => decide ((t.engine 0).running.isSome = true ∧ (t.engine 0).deque = [] ∧ t.act.asleep = false)) = true := by decide +kernel
theorem witness_unit_retire : ((sT withRunning).tile tA).gathered { unit := unit5 } ≠ none ∧ ((sT withRunning).tile tA).gathered { unit := unit5 } = some (.ok ([0, 0, 0, 0], [], [])) ∧
    (∀ i, i < 8 → i ≠ 0 → (((sT withRunning).tile tA).engine i).running = none) ∧
    after (.unitRetire tA 0) (sT (fun t => { withRunning t with mem := { t.mem with cells := [(0x203, 0x80)] } }))
      (fun t => decide ((t.engine 0).running = none ∧ t.get 0x400 4 = [0, 0, 0, 0x80])) = true := by decide +kernel
theorem witness_intra_steal : ((sT (withQueued 2)).tile tA).siblingFor 1000000 1 = some 0 ∧ (((sT (withQueued 2)).tile tA).engine 0).deque.getLast? = some unit5 ∧
    after (.intraTileSteal tA 1) (sT (withQueued 2)) (fun t => decide (t.occ 0 = 1 ∧ t.occ 1 = 1 ∧ (t.engine 1).sibling = 1)) = true := by decide +kernel
def sAwake : State := sT (fun t => { t with act := { t.act with asleep := false } })
def sSearch : State := sTwo (fun t => { t with forage := { t.forage with radius := 1, domain := 1 } })
def sWaits : State := sT (fun t => { t with forage := { t.forage with backoffUntil := some 1000000 } })
theorem witness_idle : (sAwake.tile tA).enginesIdle = true ∧ (sAwake.tile tA).act.running = false ∧ (sAwake.tile tA).idleFrom + 256 ≤ sAwake.cycles tA ∧
    after (.engineSleep tA) sAwake (fun t => t.act.asleep) = true ∧
    sSearch.maySearch tA = true ∧ (sSearch.tile tA).idleFrom + (sSearch.tile tA).forage.idleDelay * 8 ≤ sSearch.cycles tA ∧ sSearch.victims tA = [tB] ∧
    ran (.stealSearch tA) sSearch (sentIn (.tile tB) (.steal 0 1 0)) = true ∧
    after (.stealBackoffExpiry tA) sWaits (fun t => t.forage.backoffUntil.isNone) = true := by decide +kernel

/-- A header from tB to tA with this tag. -/
def hdr (tag : Nat) : Hdr := { src := .tile tB, dst := .tile tA, dstGen := 0, tag := tag }
/-- A steal-out entry 0 with the unit, held by tB. -/
def withOut (t : Tile) : Tile := { with2 t with forage := { t.forage with out := [(0, { unit := unit5, since := 0, thief := tB })] } }
def res0 : ResultBody := { entry := 0, homeGen := 0, unitId := 7, flags := 0, elems := [], data := [] }
def asked0 (t : Tile) : Tile := { with2 t with forage := { t.forage with engines := [(0, { search := some [], asked := 12 })] } }

theorem witness_steal : (tile0.takes 0 true = true ∧ tile0.mayServe 0 = false) ∧ ran (.steal (hdr 1) 0 0 0) s0 (sentIn (.tile tB) (.stealReply none)) = true ∧
    ((sT (withQueued 3)).tile tA).mayServe 1 = true ∧ (upto 8).any ((sT (withQueued 3)).tile tA).mayGive = true ∧
    after (.steal (hdr 1) 0 1 0) (sT (withQueued 3)) (fun t => decide (t.forage.stealOut = 1 ∧ (t.forage.out.find 0).isSome = true ∧ t.occ 0 = 2)) = true ∧
    ((sT asked0).tile tA).answerOk (hdr 12) = true ∧ ((sT asked0).tile tA).askedBy 12 = some 0 ∧
    after (.stealReply (hdr 12) (some { unit := unit5, mode := { round := 0, sat := true, seed := 0 }, entry := 4 })) (sT asked0)
      (fun t => decide (t.occ 0 = 1 ∧ (t.engine 0).search = none ∧ t.forage.stealIn = 1)) = true := by decide +kernel
theorem witness_steal_home : ((sT withOut).tile tA).operand (descOf unit5.desc) 0 = .ok [0, 0, 0, 0] ∧
    ran (.operandRead (hdr 1) { entry := 0, engine := 2, homeGen := 0, which := 0 }) (sT withOut) (sentIn (.tile tB) (.reply (.operand 2 0 0) stOk [0, 0, 0, 0])) = true ∧
    s0.outEntry tA (hdr 1) 0 0 7 = none ∧
    ran (.result (hdr 1) res0) s0 (fun u => sentIn (.tile tB) (.status (.result 0) stClosed) u && decide ((u.tile tA).forage.stealLate = 1)) = true ∧
    ((sT withOut).outEntry tA (hdr 1) 0 0 7).isSome = true ∧
    ran (.result (hdr 1) res0) (sT withOut) (sentIn (.tile tB) (.status (.result 0) stOk)) = true ∧
    after (.stealFailureNotice (hdr 1) 0 0 7) (sT withOut) (fun t => decide (t.forage.out.find 0 = none ∧ t.forage.unitFailed = 1)) = true ∧
    ((sT withOut).tile tA).watchdog = some 250000 ∧ 250000 ≤ (sT withOut).run tA - 0 ∧
    after (.stealReturnTimeout tA 0) (sT withOut) (fun t => decide (t.forage.out.find 0 = none ∧ (t.engine 0).deque = [pinTile unit5])) = true := by decide +kernel

/-! ## Connections -/

def grantRec : Grant := { from_ := from6, queue := 4, credits := 2, seq := 9 }
def openQ : RQueue := { cfg := word [(2, 16), (1, 31)], state := 1 }
def withG (g : Grant) (t : Tile) : Tile :=
  { t with q := { t.q with queues := [(4, openQ)], grants := [(0, g)], ctxs := [(2, { ctx2 with credits := 0 })] }, handles := [(1, hand1), (2, { hand1 with base := 32 })] }
def sG : State := sT (withG grantRec)
def ref6 : ConnRef := { queue := 4, qinc := 0, ctx := 6 }
def ref2 : ConnRef := { queue := 3, qinc := 0, ctx := 2 }

theorem witness_open_and_probe : (s0.tile tA).takes 0 true = true ∧ ((s0.tile tA).queue 4).state ≠ 1 ∧
    ran (.openArrives (hdr 1) { ctx := 6, queue := 4, credits := 2, gen := 0 }) s0 (sentIn (.tile tB) (.status (.opening ref6) stRefused)) = true ∧
    ((sT (fun t => { withG grantRec t with q := { t.q with queues := [(4, openQ)] } })).tile tA).ringFree 4 = 2 ∧ openQ.kind = 0 ∧ bits openQ.cfg 7 0 = 0 ∧
    ran (.openArrives (hdr 1) { ctx := 6, queue := 4, credits := 3, gen := 0 }) (sT (fun t => { withG grantRec t with q := { t.q with queues := [(4, openQ)] } }))
      (fun u => u.mesh.flight.any (fun x => match x.pkt.body with | .grant g => g.credits == 2 | _ => false)) = true ∧
    ((sG.tile tA).record 4 (sG.sourceTile (.tile tB)) 6 (some 0)).isSome = true ∧
    ran (.probe (hdr 1) { ctx := 6, queue := 4, gen := 0, qinc := 0 }) sG (sentIn (.tile tB) (.status (.probe ref6) stOk)) = true := by decide +kernel
theorem witness_grant_and_credit : (tile0.answerOk (hdr 1) = true) ∧
    after (.grant (hdr 1) { ref := ref2, credits := 5, kind := 0, op := 0, maxSize := 1, gen := 0 }) (sT (withCtx { state := 1, peer := tB, queue := 3 }))
      (fun t => decide ((t.ctx 2).state = 2 ∧ (t.ctx 2).credits = 5)) = true ∧
    ((sG.tile tA).ctx 2).state = 2 ∧ after (.connectionCredit (hdr 1) { ref := ref2, count := 3, gen := 0 }) sG (fun t => decide ((t.ctx 2).credits = 1)) = true := by decide +kernel
theorem witness_message_and_closes : (sG.tile tA).record 4 (sG.sourceTile (.tile tB)) 6 (some 0) = some (0, grantRec) ∧ bits openQ.cfg 26 22 < 16 ∧
    ran (.message (hdr 1) { ref := ref6, seq := 9, gen := 0, data := [1, 2] }) sG (fun u => sentIn (.tile tB) (.status (.conn ref6) stOk) u &&
      decide (((u.tile tA).queue 4).entries = [.msg 0 2 from6 true])) = true ∧
    (sG.tile tA).onConn (.tile tB) ref2 = true ∧ after (.readerNotice (hdr 1) { ref := ref2, gen := 0, seq := 0 }) sG (fun t => decide ((t.ctx 2).state = 3)) = true ∧
    sG.closeRecord tA (hdr 1) { ref := ref6, gen := 0, seq := 9 } = some (0, grantRec) ∧
    after (.senderClose (hdr 1) { ref := ref6, gen := 0, seq := 9 }) sG (fun t => decide (t.q.grants.find 0 = none)) = true ∧
    after (.closeAfterLoss (hdr 1) { ref := ref6, gen := 0, seq := 3 }) sG (fun t => decide (t.q.grants.find 0 = none)) = true ∧
    after (.recordTimeout tA 0) (sT (withG { grantRec with closing := some (11, 750000) })) (fun t => decide (t.q.grants.find 0 = none)) = true := by decide +kernel
/-- The core has stalled in qsend on context 2 for long. -/
def sStalled : State := sT (fun t => { withG grantRec t with core := { t.core with stall := some { op := .qsend, a := x12, wait := .cond, obj := 2, since := 0 }, regs := [(1, 2), (2, 1)] } })
theorem witness_probe_due : (sStalled.tile tA).creditStall .core = some (2, 0) ∧ 0 + (sStalled.tile tA).probeTicks ≤ sStalled.run tA ∧
    ran (.connProbe tA .core) sStalled (sentIn (.tile tB) (.probe { ctx := 2, queue := 3, gen := 0, qinc := 0 })) = true := by decide +kernel

/-! ## Witnesses: power inputs and resets -/

/-- Hedgerow runs, and the board is off with both power inputs as given. -/
def sOff (f : Chassis → Chassis) : State := { time := 300000000, hedge := { up := true, base := 5 }, chassis := f { input := true } }
def colds (u : State) : Bool := decide (u.chassis.board = true ∧ u.time = 0 ∧ u.boot.kind = 1 ∧ u.boot.step = 3 ∧ u.tiles = [] ∧ (u.field 0).pwr.state = .idle ∧ (u.field 1).pwr.state = .off)
def unpowered (u : State) : Bool := decide (u.chassis.board = false ∧ u.mb.running = false) && (upto 56).all (fun f => (u.field f).pwr.state == .off)
def warms (u : State) : Bool := decide (u.boot.kind = 2 ∧ u.boot.step = 1) && (upto 56).all (fun p => (u.port p).state == 0) && (u.tile tA).core.halted
/-- The engine in start-up, or without a conductor. -/
def sBooting : State := { s0 with boot := { kind := 1, step := 5 } }
def sMute : State := { s0 with mb := {} }

theorem witness_power_inputs : 1 ∉ ([] : List Nat) ∧ State.reset.chassis.input = false ∧
    ran (.inputPowerApplied 40000 []) State.reset (fun u => decide (u.chassis.input = true ∧ u.hedge.up = true ∧ u.hedgeNow = 0)) = true ∧
    ran (.inputPowerApplied 72000 []) State.reset (fun u => u.hedge.up) = true ∧
    Startable (sOff id) ∧ ran .powerEnable (sOff id) colds = true ∧
    ran .pwrEnFall sBooting unpowered = true ∧ ran .pwrEnFall s0 (fun u => unpowered u && u.scarab.ram.isEmpty) = true ∧
    ran .stbyGoodFall sMute (fun u => decide (u.chassis.board = true ∧ u.chassis.shutdown = some 1000000)) = true := by unfold Startable; decide +kernel
theorem witness_power_timers :
    ran .shutdownConductorTimeout { sMute with chassis := { sMute.chassis with shutdown := some 750000, pwrEn := false } } (fun u => unpowered u && decide (u.chassis.shutdown = none)) = true ∧
    ran (.identInput true) s0 (fun u => u.identLed) = true ∧
    Startable (sOff (fun c => { c with restartAt := some 300000005, pwrEn := true, stbyGood := true })) ∧
    ran .coldRestartTimer (sOff (fun c => { c with restartAt := some 300000005, pwrEn := true, stbyGood := true })) colds = true ∧
    (sOff id).regionsOk = true ∧ ran .busRestart (sOff (fun c => { c with busStopped := true, goodSince := some 275000005, pwrEn := true, stbyGood := true })) colds = true ∧
    ran .standbyInputLoss s0 (fun u => unpowered u && decide (u.chassis.input = false ∧ u.hedge.up = false ∧ u.scarab.ram = [])) = true := by unfold Startable; decide +kernel

/-- A warm reset at its steps 1 and 2. -/
def sWarm (n t : Nat) : State := { s0 with boot := { kind := 2, step := n, stopAt := t, complete := true } }
/-- No heartbeat has come for long. -/
def sSilent (b : Boot) (r : Nat) : State :=
  { s0 with time := 200000000, boot := b, mb := { running := true, beatAt := 1 }, cond := { s0.cond with silent := some 100000000 }, chassis := { s0.chassis with restarts := r } }

theorem witness_resets : s0.warmOk = true ∧ s0.boot.kind = 0 ∧
    ran .modResetFall s0 (fun u => warms u && u.chassis.modReset) = true ∧
    ran .modResetFall sBooting (fun u => unpowered u && u.chassis.resetHeld) = true ∧
    Startable (sOff (fun c => { c with modReset := true, pwrEn := true, stbyGood := true })) ∧
    ran .modResetRelease (sOff (fun c => { c with modReset := true, pwrEn := true, stbyGood := true })) colds = true ∧
    ran (.warmReset .redfish 0) s0 warms = true ∧ Startable s0 ∧ ran (.warmReset .redfish 1) s0 colds = true ∧
    ran .warmResetInjectionStop (sWarm 1 1000000) (fun u => decide (u.mesh.paused = true ∧ u.boot.step = 2)) = true ∧
    isCompute 1 = true ∧ ran .warmResetInjectionStop (sWarm 2 999744) (fun u => decide (u.boot.step = 4 ∧ u.mesh.flight = [] ∧ u.mb.running = false ∧ (u.field 1).pwr.state = .retain)) = true := by
  unfold Startable; decide +kernel
def sQuiet : State := { s0 with time := 25000001, mb := { running := true, beatAt := 1 } }
theorem witness_silence : sQuiet.lastBeat + 25000000 ≤ sQuiet.time ∧
    ran .conductorSilenceCheck sQuiet (fun u => decide (u.cond.silent = some 25000001 ∧ u.scarab.ram.length = 1)) = true ∧
    (sSilent { complete := true } 0).warmOk = true ∧ (sSilent { complete := true } 0).lastBeat ≤ 100000000 ∧ (sSilent {} 0).hedge.cfg.silenceReset = true ∧
    ran .conductorSilenceAction (sSilent { complete := true } 0) warms = true ∧
    ran .conductorSilenceAction (sSilent { kind := 1 } 2) (fun u => unpowered u && decide (u.chassis.restarts = 3 ∧ u.chassis.restartAt = some 250000000)) = true ∧
    ran .conductorSilenceAction (sSilent { kind := 1 } 3) (fun u => unpowered u && u.chassis.heldOff) = true := by decide +kernel

/-! ## Witnesses: ends of stalls, orders and cells -/

/-- The core has stalled in an instruction since tick 0. -/
def sStall (op : XOp) (w : StallWait) (obj mods : Nat) (f : Tile → Tile := fun t => t) : State :=
  sT (fun t => f { t with core := { t.core with stall := some { op := op, a := ⟨3, 1, 2, mods⟩, wait := w, obj := obj, since := 0 } } })
def entered (t : Tile) : Tile := { t with fold := { t.fold with ready := [(0, 0, 0)], readySince := some 0 } }

theorem witness_stalls_end : (tile0.watchdog = some 250000 ∧ 250000 ≤ (sStall .xput .answer 0 0).run tA - 0) ∧
    after (.stallConditionMet tA .core) (sStall .sfence .cond 3 1) (done stOk 0) = true ∧
    after (.stallWatchdogExpiry tA .core) (sStall .xput .answer 0 0) (done stStallTimeout 0) = true ∧
    after (.stallWatchdogExpiry tA .core) (sStall .ssignal .answer 0 0) (done stStallTimeout 0) = true ∧
    ran (.stallWatchdogExpiry tA .core) (sStall .swait .answer 65535 0) (fun u => sentIn (.fc (cellHost 65535).1) (.sync 4 { index := (cellHost 65535).2, amount := 0, srcGen := 0, srcWafer := 0 }) u &&
      (u.tile tA).core.stall.isSome) = true ∧
    after (.syncDebugCore tA) (sStall .swait .answer 65536 0) (done stForced 0) = true ∧
    after (.syncDebugAll tA) (sStall .swait .answer 65536 0) (done stForced 0) = true ∧
    after (.syncDebugAll tA) (sStall .swait .answer 65536 0 entered) (fun t => decide (t.fold.ready = [] ∧ t.fault.unit = 9)) = true := by decide +kernel

/-- The conductor's header to tA, and a host gate's. -/
def hdrC : Hdr := { src := .conductor, dst := .tile tA, dstGen := 0, tag := 4 }
def hdrG : Hdr := { src := .gate 0, dst := .tile tA, dstGen := 0, tag := 4 }
def sQuar : State := sT (fun t => { t with st := .quarantine, core := { t.core with startPc := 0x2000, halted := true } })

theorem witness_vc0 : s0.vc0Refusal tA hdrC = none ∧ sQuar.vc0Refusal tA hdrC = none ∧
    ran (.ctrlWrite hdrC 0x7FFFE [1, 2]) s0 (fun u => decide ((u.tile tA).mem.cells = [(0x7FFFE, 1), (0x7FFFF, 2)]) && sentIn .conductor (.ctrlReply 4 stOk []) u) = true ∧
    ran (.ctrlRead hdrC 0xBFFE 2) s0 (sentIn .conductor (.ctrlReply 4 stOk [0, 0])) = true ∧
    after (.ctrlOrderAdmit hdrC) sQuar (fun t => decide (t.st = .admitted ∧ t.core.pc = 0x2000 ∧ t.core.halted = false)) = true ∧
    after (.ctrlOrderSwitch hdrC (.slot 3) 1000000) s0 (fun t => decide (t.fold.armed = some (.slot 3, 1000000))) = true ∧
    ran (.ctrlOrderSwitch hdrC (.slot 3) 999999) s0 (fun u => (u.field 1).flt.switchLate && decide (u.scarabQ.getD 1 [] = [⟨0x0783, 1000000, 1, [tileDetail tA, 999999, 1000000]⟩])) = true ∧
    (match (sT withImg).dloadAt tA 7 (hrefOf 1) false with | .answer st _ v => decide (st = stOk) && ((v.tile tA).slot 7).image.isSome | _ => false) = true ∧
    ran (.ctrlOrderDload hdrC 7 1 false) (sT withImg) (fun u => ((u.tile tA).slot 7).image.isSome && sentIn .conductor (.ctrlReply 4 stOk [0, 0, 0, 0]) u) = true ∧
    after (.ctrlOrderSample hdrC 1 16 2000000) (sT withH) (fun t => decide (t.fold.sampleAt = some (1, 16, 2000000))) = true ∧
    after (.ctrlOrderSample hdrC 1 16 1000000) (sT withH) (fun t => t.fold.profOn && decide (t.fold.sampleAt = none ∧ t.fold.profDue = 1065536)) = true := by decide +kernel
theorem witness_raw : s0.rawRefusal tA hdrG = none ∧ inRegs 0xFFFFF 1 = true ∧
    ran (.rawWrite hdrG 0xBFFF [9]) s0 (fun u => decide ((u.tile tA).get 0xBFFF 1 = [9]) && sentIn (.gate 0) (.status (.raw 4) stOk) u) = true ∧
    ran (.rawWrite hdrG 0xF0100 [9, 0, 0, 0]) s0 (fun u => decide (u.tiles = s0.tiles) && sentIn (.gate 0) (.status (.raw 4) stAddressError) u) = true ∧
    ran (.rawRead hdrG 0x40000 1) s0 (sentIn (.gate 0) (.reply (.raw 4) stOk [0])) = true := by decide +kernel
theorem witness_tile_reset :
    after (.tileResetOrder tA) (sT (fun t => { t with gen := 65534, mem := { t.mem with cells := [(3, 3)], full := [0] } }))
      (fun t => decide (t.st = .quarantine ∧ t.gen = 65535 ∧ t.mem.cells = [(3, 3)] ∧ t.mem.full = [])) = true ∧
    ran (.tileResetOrder tA) (sT (fun t => { t with gen := 65535 })) (fun u => decide ((u.tile tA).st = .hole ∧ (u.tile tA).gen = 65535) && !(u.scarabQ.getD 1 []).isEmpty) = true := by decide +kernel

/-- Cell 7 of field 1, and a request for it from tB. -/
def sCell (c : Cell) (ws : List Waiter) : State := s0.modField 1 (fun fd => { fd with sync := { fd.sync with cells := [(7, c)], waiters := ws } })
def hdrF : Hdr := { src := .tile tB, dst := .fc 1, dstGen := 0, tag := 9 }
def body7 (n : Nat) : SyncBody := { index := 7, amount := n, srcGen := 0, srcWafer := 0 }
def waitB : Waiter := { cell := 7, tile := tB, gen := 0, tag := 9 }
def inField (c : Instr) (s : State) (p : Field → Bool) : Bool := ran c s (fun u => p (u.field 1))

theorem witness_cell_requests : (sCell {} []).syncRefusal 1 7 = none ∧
    ran (.syncWait hdrF (body7 0)) (sCell { value := 1 } []) (fun u => decide (((u.field 1).cell 7).value = 0) && sentIn (.tile tB) (.status (.wait 7) stOk) u) = true ∧
    ({ value := 0 } : Cell).wait 0 = none ∧ inField (.syncWait hdrF (body7 0)) (sCell {} []) (fun fd => fd.sync.waiters == [waitB]) = true ∧
    inField (.syncSignal hdrF (body7 0)) (sCell { type := 1, value := 0xFFFFFF } []) (fun fd => decide ((fd.cell 7).value = 65535)) = true ∧
    inField (.syncPostedSignal hdrF (body7 3)) (sCell { type := 1, value := 1 } []) (fun fd => decide ((fd.cell 7).value = 4)) = true ∧
    ran (.syncRead hdrF (body7 0)) (sCell { value := 258 } []) (sentIn (.tile tB) (.reply (.read 7) stOk [2, 1, 0])) = true ∧
    ran (.syncCancel hdrF (body7 0)) (sCell {} [waitB]) (fun u => (u.field 1).sync.waiters.isEmpty && sentIn (.tile tB) (.status (.cancel 7) stCancelled) u) = true ∧
    ran (.syncCancel hdrF (body7 0)) (sCell {} []) (sentIn (.tile tB) (.status (.cancel 7) stOk)) = true := by decide +kernel
def sResend : State := sT (fun t => { t with sync := { t.sync with resend := some 1000000, pend := some (0, 7) } })
def sLate : State := { sCell {} [] with mesh := { flight := [{ pkt := ⟨{ src := .tile tB, dst := .fc 1, dstGen := 0, tag := 0 }, .status (.release 7 3) stPeerLost⟩, at_ := tA, aim := tA, cls := 0, fresh := false, landed := true }] } }
theorem witness_cells_by_other_ways : ran (.syncWaitResend tA) sResend (sentIn (.fc 1) (.sync 0 (body7 0))) = true ∧
    (∃ x ∈ sLate.mesh.flight, x.pkt.h.dst = .fc 1 ∧ x.pkt.h.src = .tile tB ∧ x.pkt.body = .status (.release 7 3) stPeerLost) ∧
    inField (.staleReleaseRefused 1 7 tB) sLate (fun fd => decide ((fd.cell 7).value = 1 ∧ fd.sync.stale = 1)) = true ∧
    after (.syncCellWrite tA .core 15 false 0x40000005) s0 (fun t => decide ((t.cell 15).type = 1 ∧ (t.cell 15).value = 5)) = true ∧
    after (.syncCellWrite tA .fc 15 true 0x40000005) s0 (fun t => decide ((t.cell 15).target = 5)) = true ∧
    inField (.syncRecWrite 1 1023 (some 0x40000006) none .conductor) s0 (fun fd => decide ((fd.cell 1023).type = 1 ∧ (fd.cell 1023).value = 6)) = true ∧
    sMute.cellsUp 1 = true ∧ inField (.hedgerowSyncDebug 7 (.set 1 (2 ^ 24 + 2) 3)) sMute (fun fd => decide (fd.cell 7 = { type := 1, value := 2, target := 3 })) = true := by decide +kernel

/-! ## Witnesses: windows and queues, tokens and firings, memory and maps -/

def rbody : RemoteBody := { srcWafer := 0xFFFF, wafer := 0xFFFF, key := 9, target := tA, window := 3, offset := 32, length := 32, srcGen := 0 }
def heldW : HeldReq := { h := hdr 8, body := rbody, data := some (List.replicate 32 7), since := 750000 }
def sHeld (st dl : Nat) : State := sT (fun t => { with2 t with windows := [(3, { openWin with state := st, held := [heldW], deadline := dl })] })
def heldR : HeldRemote := { h := { hdr 8 with src := .tile tA, dst := .dock 1 0 }, body := .remoteRead rbody, due := some 1000000 }

theorem witness_windows_serve : ((sHeld 1 0).tile tA).windowReady rbody true = true ∧
    ran (.windowHeldServe tA 3) (sHeld 1 0) (fun u => decide (((u.tile tA).window 3).held = [] ∧ ((u.tile tA).window 3).done = 1 ∧ (u.tile tA).get 0x21F 2 = [0, 7]) &&
      sentIn (.tile tB) (.status .xput stOk) u) = true ∧
    ran (.windowHoldTimeout tA 3) (sHeld 1 0) (fun u => decide (((u.tile tA).window 3).held = []) && sentIn (.tile tB) (.status .xput stStallTimeout) u) = true ∧
    ran (.windowDeadline tA 3) (sHeld 2 1000000) (fun u => decide (((u.tile tA).window 3).state = 0 ∧ ((u.tile tA).window 3).drop = 1) && sentIn (.tile tB) (.status .xput stWindowClosed) u) = true ∧
    ran (.remoteRetryResend tA) (sT (fun t => { t with sync := { t.sync with heldRemote := [heldR] } }))
      (fun u => sentIn (.dock 1 0) (.remoteRead rbody) u && decide ((u.tile tA).sync.heldRemote = [{ heldR with due := none }])) = true := by decide +kernel
theorem witness_queues_serve :
    after (.combineFoldDone tA 4 1) (sT (fun t => { t with q := { t.q with folds := [(4, 1)], queues := [(4, { openQ with cfg := word [(2, 16), (2, 29), (1, 31)] })] } }))
      (fun t => decide (t.q.folds = [] ∧ (t.queue 4).doneSlots = [1])) = true ∧
    ((sT withH).tile tA).enableOk 7 (masked (0x10000 ||| 0x80000000) 0xFFFF3FFF) = true ∧
    after (.rqEnable tA .core 7 0x10000) (sT withH) (fun t => decide ((t.queue 7).state = 1 ∧ (t.queue 7).qinc = 1)) = true ∧
    (s0.tile tA).enableOk 7 (masked (0x10000 ||| 0x80000000) 0xFFFF3FFF) = false ∧
    after (.rqEnable tA .core 7 0x10000) s0 (fun t => decide ((t.queue 7).state = 0) && (t.queue 7).cfgErr) = true ∧
    after (.rqDisable tA .fc 4 0) (sT (fun t => { t with q := { t.q with queues := [(4, { openQ with state := 2 })] } })) (fun t => decide ((t.queue 4).state = 0)) = true := by decide +kernel

/-- A node with one input and one output, as epoch 2 of slot 1; node 1 is a source. -/
def im1 : Image :=
  { epoch := 2, size := 0
    nodes := [{ kind := 0, inCount := 1, inFirst := 0, outCount := 1, outFirst := 0, window := 2, actFirst := 0, actCount := 0, start := 0 },
              { kind := 3, inCount := 0, inFirst := 0, outCount := 0, outFirst := 0, window := 1, actFirst := 0, actCount := 0, start := 0 }]
    ports := [{ handle := 1, count := 1, base := 0, depth := 2, len := 1 }]
    emits := [{ target := tB, node := 0, port := 0, epoch := 5, dstGen := 0, p := 1, c := 1, srcHandle := 1, len := 1, srcBase := 0, srcDepth := 2, credits := 4 }]
    actions := [], templates := [] }
def tok2 (i : Nat) : TokenBody := { iteration := i, epoch := 2, void := false, node := 0, port := 0, part := 0, len := 1, slot := 6, emit := 3, src := tB, srcGen := 0, payload := List.replicate 32 0xA5 }
def sFold (g : FoldUnit → FoldUnit) : State :=
  sT (fun t => { with2 t with fold := g { t.fold with slots := [(1, { image := some im1, nodes := [{}, {}], credits := [4], armed := 2 })], active := 1 } })
def fctx (p : FPhase) : FCtx := { slot := 1, node := 0, iter := 0, phase := p }
def heldT : HeldTok := { h := { hdr 8 with src := .tile tA, dst := .tile tB }, body := tok2 0, since := 0, due := 1000000, sent := false }

theorem witness_tokens : (tile0.frozen = false ∧ tile0.takes 0 false = true) ∧
    after (.token (hdr 5) (tok2 0)) s0 (fun t => decide (t.fold.store = [{ body := tok2 0, slot := none, since := 1000000 }])) = true ∧
    ((sFold id).tile tA).slotOfEpoch 2 = some (1, im1) ∧ tokenFits im1 (tok2 1) = true ∧ iterAhead 1 0 < 2 ∧
    ran (.token (hdr 5) (tok2 1)) (sFold id) (fun u => decide ((u.tile tA).get 0x21F 3 = [0, 0xA5, 0xA5] ∧ (u.tile tA).fold.store.length = 1) && sentIn (.tile tB) (.status (.token (tok2 1)) stOk) u) = true ∧
    after (.tokenCredit (hdr 5) 1 0) (sFold id) (fun t => decide ((t.slot 1).credits = [5])) = true ∧
    ran (.tokenOrphan tA 0) (sFold (fun f => { f with store := [{ body := { tok2 0 with epoch := 9 }, slot := none, since := 750000 }] }))
      (fun u => decide ((u.tile tA).fold.store = [] ∧ (u.tile tA).fold.orphan = 1) && sentIn (.tile tB) (.tokenCredit 6 3) u) = true ∧
    ran (.tokenRetryResend tA 0) (sFold (fun f => { f with held := [heldT] })) (fun u => decide ((u.tile tA).fold.retry = 1) && sentIn (.tile tB) (.token (tok2 0)) u) = true := by decide +kernel
theorem witness_firings :
    ((sFold (fun f => { f with ready := [(1, 0, 0)], store := [{ body := tok2 0, slot := some 1, since := 0 }] })).tile tA).inputsFull im1 1 0 0 = true ∧
    after (.firingIssue tA) (sFold (fun f => { f with ready := [(1, 0, 0)], store := [{ body := tok2 0, slot := some 1, since := 0 }] }))
      (fun t => decide (t.fold.ready = [] ∧ (t.fold.ctxs.find 0).map FCtx.phase = some (.emit 0 0))) = true ∧
    ran (.tokenEmit tA 0) (sFold (fun f => { f with ctxs := [(0, fctx (.emit 0 0))] })) (fun u => decide (((u.tile tA).slot 1).credits = [3]) &&
      u.mesh.flight.any (fun x => match x.pkt.body with | .token b => b.epoch == 5 && b.iteration == 0 && b.payload == List.replicate 32 0 | _ => false)) = true ∧
    ran (.firingComplete tA 0) (sFold (fun f => { f with ctxs := [(0, fctx .completing)], store := [{ body := tok2 0, slot := some 1, since := 0 }] }))
      (fun u => decide ((u.tile tA).fold.ctxs.find 0 = none ∧ ((u.tile tA).slot 1).firings = 1) && sentIn (.tile tB) (.tokenCredit 6 3) u) = true ∧
    after (.sourceFire tA 1 1) (sFold id) (fun t => decide ((t.slot 1).armed = 1 ∧ t.fold.ready = [(1, 1, 0)])) = true := by decide +kernel
def sSched : State := sFold (fun f => { f with schedEn := true, schedLen := 2, sched := [(0, (1, 5)), (1, (1, 5))], dwellFrom := 999995 })
def sProf : State := sFold (fun f => { f with profOn := true, profHandle := 1, profLog := 6, profDue := 1000000 })
theorem witness_schedules : (sSched.tile tA).nextEntry 0 = some 1 ∧ after (.foldScheduleMove tA) sSched (fun t => decide (t.fold.schedPos = 1 ∧ t.fold.active = 1)) = true ∧
    after (.foldSwitchAtT tA) (sFold (fun f => { f with armed := some (.slot 7, 1000000) })) (fun t => decide (t.fold.active = 7 ∧ t.fold.armed = none)) = true ∧
    after (.profileSample tA true) sProf (fun t => decide (t.get 0x200 32 = (sProf.tile tA).profileRecord 1000000 ∧ t.fold.profDue = 1000064)) = true ∧
    after (.profileSample tA false) sProf (fun t => decide (t.fold.profLost = 1) && t.fold.profLostBit) = true ∧
    after (.slotArm tA .core 1 0xFFFFFD) (sFold id) (fun t => decide ((t.slot 1).armed = 0xFFFFFF)) = true := by decide +kernel

def fmap1 : FMap := { seq := 1, effective := 999680, furrows := [{ x0 := 110, y0 := 5, x1 := 110, y1 := 5, kind := 1, field := 1, shadowed := 0 }] }
def sWhole : State := { s0 with fields := (upto 56).map (fun f => (f, field0)) }
def sMap (m : Mesh) : State := { s0 with mesh := m }
def oldWrite (c : Nat) : WriteRec := { n := 0, tag := 0, re := .xput, cls := c, old := true, posted := false, dst := .tile tB }
def sOld (c : Nat) (m : Mesh) : State := { sT (fun t => { t with sync := { t.sync with writes := [oldWrite c] } }) with mesh := m }
theorem witness_memory : (s0.field 1).memoryUp = true ∧ (s0.field 1).profiling = false ∧ 0 + (s0.field 1).rowInterval tA 255 ≤ 1600000 ∧
    inField (.rowRefresh tA 255) { s0 with time := 1600000 } (fun fd => decide (fd.mem.refreshed.getD (localIdx tA * 256 + 255) 0 = 1600000)) = true ∧
    (s0.field 1).mem.scrubAt + ((s0.field 1).mem.scrubStep + 1) * 65536 ≤ 5000000 ∧
    inField (.patrolScrub 1 []) { s0 with time := 5000000 } (fun fd => decide (fd.mem.scrubRow = 1 ∧ fd.mem.scrubAt = 5000000)) = true ∧
    inTm 0x403FF 1 = true ∧ inField (.patrolScrub 1 [{ tile := tA, off := 0x403FF, uncorrectable := false }]) { s0 with time := 5000000 } (fun fd => decide (fd.mem.ceTm = 1)) = true ∧
    after (.patrolScrub 1 [{ tile := tA, off := 0x7FFFF, uncorrectable := true }]) { s0 with time := 5000000 } (fun t => decide (0x7FFF8 ∈ t.mem.ue)) = true ∧
    inField (.refreshDerate 1 86) s0 (fun fd => fd.mem.derated) = true ∧
    inField (.refreshRestore 1 [80]) (s0.modField 1 (fun fd => { fd with mem := { fd.mem with derated := true } })) (fun fd => !fd.mem.derated) = true := by decide +kernel
theorem witness_maps :
    ran (.mapPublish 1000448) sWhole (fun u => decide (u.mesh.next.map FMap.effective = some 1000448)) = true ∧
    ran .mapInjectionPause (sMap { next := some { fmap1 with effective := 1000000 } }) (fun u => u.mesh.paused) = true ∧
    s0.furrowKind 1 = none ∧ (∃ r ∈ fmap1.furrows, r.covers tA = true) ∧
    ran .mapSwitch (sMap { next := some fmap1, paused := true }) (fun u => decide (u.mesh.map = fmap1 ∧ u.mesh.next = none ∧ (u.tile tA).st = .hole) && u.mesh.distDue) = true ∧
    tA ∈ s0.tileList ∧ after .fenceSettleLocal (sOld 1 { settleAt := some 999488 }) (fun t => decide (t.sync.writes = [])) = true ∧
    tA ∈ s0.tilesOf 1 ∧ (s0.port 1).timeout = 25000 ∧ after (.fenceSettleRemote 1) (sOld 2 { settleAt := some 974488 }) (fun t => decide (t.sync.writes = [])) = true ∧
    ran .distTablePublish (sMap { map := fmap1, distDue := true }) (fun u => decide (u.mesh.distMap = fmap1) && !u.mesh.distDue) = true := by decide +kernel
def sDead : State := { sStall .swait .answer 7 0 (fun t => { t with sync := { t.sync with pend := some (0, 7) } }) with mesh := { dead := [1] }, cond := { s0.cond with sweeps := [1] } }
def flight0 : Flight := { pkt := { h := { hdr 5 with src := .tile tA, dst := .tile tB }, body := .status .xput 0 }, at_ := tA, aim := tB, cls := 0, fresh := false }
theorem witness_mesh : isCompute 1 = true ∧ (cellHost 7).1 = 1 ∧ after (.cellLostSweep 1) sDead (done stCellLost 0) = true ∧
    after (.multicast { x0 := 110, y0 := 5, x1 := 110, y1 := 5 } 0x7FFFF [3]) (s0.modField 1 (fun fd => { fd with mesh := { fd.mesh with mcastEn := true } })) (fun t => decide (t.get 0x7FFFF 1 = [3])) = true ∧
    (sMap { flight := [flight0] }).target flight0.pkt.h = tB ∧ onArray tB = true ∧
    ran (.routePacket 0 false 0 5) (sMap { flight := [flight0] }) (fun u => decide (u.mesh.flight.map Flight.at_ = [tB])) = true := by decide +kernel

/-! ## Witnesses: answers, docks, links and ports -/

/-- A combining queue 4 on handle 2, whose slot 0 declares two contributions. -/
def sComb : State :=
  sT (fun t => { t with
    q := { t.q with queues := [(4, { cfg := word [(2, 16), (1, 29), (1, 31)], state := 1 })], grants := [(0, grantRec)] }
    handles := [(2, { hand1 with base := 32, tagMode := 2 })], mem := { t.mem with cells := [(0x404, 2)] } })
def contrib : Contribution := { ref := ref6, slot := 0, op := 0, value := 0x3F800000, rank := ⟨0, 0, 0, 0, 0⟩, src := .tile tB, tag := 3 }
def sWin : State := sT withWin

theorem witness_remote_arrivals : (sWin.tile tA).inService = true ∧ (sWin.tile tA).windowCheck rbody true = none ∧ (sWin.tile tA).windowReady rbody true = true ∧
    ran (.remoteWrite (hdr 8) rbody [1, 2]) sWin (fun u => decide ((u.tile tA).get 0x220 2 = [1, 2] ∧ ((u.tile tA).window 3).done = 1) && sentIn (.tile tB) (.status .xput stOk) u) = true ∧
    ran (.remoteRead (hdr 8) rbody) sWin (sentIn (.tile tB) (.reply .xget stOk (List.replicate 32 0))) = true ∧
    (s0.tile tA).windowCheck rbody false = some 1 ∧ ran (.remoteRead (hdr 8) rbody) s0 (sentIn (.tile tB) (.reply .xget stWindowClosed [])) = true ∧
    (sWin.tile tA).windowCheck { rbody with key := 8 } false = some 3 ∧ ran (.remoteRead (hdr 8) { rbody with key := 8 }) sWin (sentIn (.tile tB) (.reply .xget stDenied [])) = true := by decide +kernel
theorem witness_contributions : (sComb.tile tA).slotCount 4 0x400 = 2 ∧ leNat ((sComb.tile tA).get 0x408 4) + 1 < 2 ∧ ((sComb.tile tA).queue 4).kind = 1 ∧
    (sComb.tile tA).record 4 (sComb.sourceTile contrib.src) 6 none = some (0, grantRec) ∧
    ran (.combine (hdr 3) [contrib]) sComb (fun u => decide (leWord ((u.tile tA).get 0x400 4) = 0x3F800000 ∧ leNat ((u.tile tA).get 0x408 4) = 1) && sentIn (.tile tB) (.status (.conn ref6) stOk) u) = true ∧
    ((sStall .sread .answer 7 0).tile tA).answerOk (hdr 0) = true ∧ after (.reply (hdr 0) (.read 7) stOk [1, 1, 0]) (sStall .sread .answer 7 0) (done stOk 257) = true ∧
    after (.status (hdr 0) (.wait 7) stOk) (sStall .swait .answer 7 0) (done stOk 0) = true := by decide +kernel

/-- Port 1 in a state. -/
def sPort (g : Port → Port) : State := { s0 with ports := [(1, g {})], tiles := s0.tiles ++ [(tileKey ⟨148, 59⟩, tile0)] }
def far0 : Far := { srcWafer := 0xFFFF, dstWafer := 77, endp := .tile tB }
def farPkt (f : Far) : Pkt := { h := { src := .tile tA, dst := .dock 1 0, dstGen := 0, tag := 6, far := some f }, body := .remoteRead rbody }
/-- A route to wafer 77 by port 1 and one relay, whose egress port is 3. -/
def route77 : List Word := [word [(1, 31), (1, 24), (2, 20), (77, 0)], 3]
def inPort (c : Instr) (s : State) (p : Port → Bool) : Bool := ran c s (fun u => p (u.port 1))
def frame0 (seq : Nat) (f : Far) : Frame := { seq := seq, ack := 0, creditVc := 0, credits := 0, vc := 1, pkt := farPkt f }

theorem witness_docks : s0.portField 1 = true ∧ (sPort id).dockOn 1 = true ∧ (sPort id).route 1 77 = none ∧ (sPort id).findPend tA 6 .xget = none ∧
    ran (.dockIngress 1 (farPkt far0)) (sPort id) (fun u => sentIn (.tile tA) (.reply .xget stPathLost []) u && !(u.scarabQ.getD 1 []).isEmpty) = true ∧
    ((sPort (fun p => { p with state := 4, routes := [(77, route77)] })).route 1 77).map Route.egress = some 1 ∧
    inPort (.dockIngress 1 (farPkt far0)) (sPort (fun p => { p with state := 4, routes := [(77, route77)] }))
      (fun p => p.pending.length == 1 && p.unacked.any (fun fr => fr.pkt.h.far == some { far0 with hops := [0xFE, 3], idx := 1 })) = true ∧
    inPort (.dockEgress 1 (farPkt { far0 with hops := [0xFE], idx := 1 })) (sPort (fun p => { p with state := 5 })) (fun p => p.waiting.length == 1) = true ∧
    ran (.pendingExpiry 1 0) (sPort (fun p => { p with pending := [(0, { tile := tA, gen := 0, tag := 6, re := .xget, isRead := true, since := 974999 })] }))
      (fun u => decide ((u.port 1).pending = [] ∧ (u.port 1).pendingExpired = 1) && sentIn (.tile tA) (bareAnswer .xget true stPathLost) u) = true := by decide +kernel
def sRx (g : Port → Port) : State := { sPort (fun p => g { p with state := 4, rxSeq := 10 }) with waferId := 77, boot := { complete := true, programmed := true } }
def sRelay : State := { s0 with tiles := s0.tiles ++ [(tileKey ⟨148, 59⟩, tile0), (tileKey (gateTile 0 0), tile0)], ports := [(0, { state := 4, mode := ⟨2, 3, 4, 0⟩ }), (1, { state := 4, rxSeq := 10, relayOn := true })] }
theorem witness_frames : ((sRx id).port 1).holds 9 = true ∧ inPort (.dataFrame 1 (frame0 9 far0)) (sRx id) (fun p => p == { (sRx id).port 1 with ackDue := true }) = true ∧
    ((sRx id).port 1).holds 11 = false ∧ inPort (.dataFrame 1 (frame0 11 far0)) (sRx id) (fun p => decide (p.crcErr = 1 ∧ p.rxSeq = 10)) = true ∧
    ((sRx id).port 1).holds 10 = false ∧
    ran (.dataFrame 1 (frame0 10 { far0 with hops := [0xFE], idx := 1 })) (sRx id) (fun u => decide ((u.port 1).rxSeq = 11) && sentIn (.tile tB) (.remoteRead rbody) u) = true ∧
    ({ sRx id with boot := { complete := true } } : State).unprogrammed = true ∧
    ran (.dataFrame 1 (frame0 10 { far0 with hops := [0xFE], idx := 1 })) { sRx id with boot := { complete := true } }
      (fun u => decide ((u.port 1).rxSeq = 11) && u.mesh.flight.any (fun x => x.pkt.body == .reply .xget stWindowClosed [])) = true ∧
    sRelay.relayRefusal 1 { far0 with hops := [0xFE, 0], idx := 1 } = none ∧
    ran (.dataFrame 1 (frame0 10 { far0 with hops := [0xFE, 0], idx := 1 })) sRelay (fun u => decide ((u.port 1).relayFwd = 1) && sentIn (.dock 0 0) (.remoteRead rbody) u) = true ∧
    ran (.egressHoldExpiry 1) (sPort (fun p => { p with state := 5, waiting := [{ vc := 1, pkt := farPkt { far0 with hops := [0xFE], idx := 1 }, since := 997499 }] }))
      (fun u => (u.port 1).waiting.isEmpty && sentIn (.tile tA) (.reply .xget stPathLost []) u) = true := by decide +kernel

def sTx (n : Nat) : State := sPort (fun p => { p with state := 4, unacked := [frame0 10 far0], nakSeq := 10, nakCount := n, laneActive := 0xFFFF, retraining := [31] })
theorem witness_links :
    inPort (.linkAck 1 10) (sTx 0) (fun p => p.unacked.isEmpty) = true ∧
    inPort (.linkNak 1 10) (sPort (fun p => { p with state := 4, unacked := [frame0 10 far0] })) (fun p => decide (p.state = 4 ∧ p.retryCnt = 1)) = true ∧
    inPort (.linkNak 1 10) (sTx 7) (fun p => decide (p.state = 5 ∧ p.retrainCnt = 1)) = true ∧
    inPort (.linkCredits 1 3 5000) (sTx 0) (fun p => decide (nth p.credit 3 0 = bufferUnits 3)) = true ∧
    inPort (.linkIdleAck 1) (sTx 0) (fun p => !p.ackDue) = true ∧ inPort (.frameCrcError 1) (sTx 0) (fun p => decide (p.crcErr = 1)) = true ∧
    ({ (sTx 0).port 1 with laneActive := ((sTx 0).port 1).laneActive &&& ~~~(BitVec.ofNat 32 1) } : Port).starved 0 = false ∧
    inPort (.linkLaneOff 1 0) (sTx 0) (fun p => decide (p.state = 4 ∧ p.laneActive = 0xFFFE ∧ p.retrainCnt = 1)) = true ∧
    inPort (.linkLaneOn 1 31) (sTx 0) (fun p => decide (p.laneActive = 0x8000FFFF ∧ p.retraining = [])) = true ∧
    inPort (.laneRetrainDone 1 31 true) (sTx 0) (fun p => decide (p.laneActive = 0x8000FFFF)) = true ∧
    inPort (.laneRetrainDone 1 31 false) (sTx 0) (fun p => decide (p.laneActive = 0xFFFF ∧ p.retraining = [])) = true ∧
    inPort (.laneFailure 1 0) (sPort (fun p => { p with state := 3 })) (fun p => decide (p.state = 2)) = true := by decide +kernel

def rate4 : RateCap := ⟨4, 4, 15⟩
/-- All paths are lit and no error was seen: eight paths at each rate. -/
def quiet4 : RateTrain := ⟨0, 0, 0⟩
def result4 : TrainResult := ⟨0, 0, quiet4, quiet4, quiet4⟩
def trained4 : Trained := { rate3 := rate4, usable := [15, 15, 15] }
def block : CapBlock :=
  { versions := 3, rate3 := rate4, rate2 := rate4, rate1 := rate4, port := 2, wafer := 77, nonce := 0, echo := 5, cert := 8, serial := 9, sigOk := true, chainOk := true }
def sNeg (g : Negotiation → Negotiation) : State :=
  { sPort (fun p => { p with state := 3, neg := g { p.neg with trained := trained4, nonce := 5 } }) with hedge := { s0.hedge with certCache := [8] } }
def mode4 : LinkMode := (chooseMode 3 trained4 block).getD ⟨0, 0, 0, 0⟩
def sBack : State := sPort (fun p => { p with state := 2, backoff := true })

theorem witness_training :
    inPort (.portLightDetected 1) { sPort (fun p => { p with state := 1 }) with glow := [(0, 2)] } (fun p => decide (p.state = 2)) = true ∧
    (TrainResult.outcome result4 0x76543210 none).2.2.some_ = true ∧ (TrainResult.outcome result4 0x76543210 none).2.2 = trained4 ∧
    inPort (.trainingDone 1 result4) (sPort (fun p => { p with state := 2 })) (fun p => decide (p.state = 3 ∧ p.neg.trained.usable = [15, 15, 15] ∧ p.out.length = 1)) = true ∧
    inPort (.trainingDone 1 { result4 with txDark := 2 }) (sPort (fun p => { p with state := 2 })) (fun p => decide (mapFibre p.laneMap false 1 = 8 ∧ p.neg.trained.rate3.tx = 4)) = true ∧
    inPort (.trainingDone 1 result4) (sPort (fun p => { p with state := 5 })) (fun p => decide (p.state = 5) && p.negotiates) = true ∧
    inPort (.trainingFailed 1) (sPort (fun p => { p with state := 2 })) (fun p => decide (p.state = 2) && p.backoff) = true ∧
    inPort (.trainingFailed 1) (sPort (fun p => { p with state := 5 })) (fun p => decide (p.state = 1)) = true ∧
    inPort (.trainingBackoffExpiry 1) { sBack with time := 25000000 } (fun p => decide (p.state = 1)) = true := by decide +kernel
theorem witness_negotiation :
    inPort (.hello 1 3 6) (sNeg id) (fun p => decide (p.neg.hello = some (3, 6) ∧ p.out.length = 1)) = true ∧
    inPort (.cert ⟨1, .request⟩) (sNeg id) (fun p => decide (p.state = 3 ∧ p.out.length = 1)) = true ∧
    inPort (.cert ⟨1, .part [7] false⟩) (sNeg id) (fun p => decide (p.neg.certs = [7])) = true ∧
    ran (.cert ⟨1, .part [7] true⟩) (sNeg (fun n => { n with cap := some block })) (fun u => decide ((u.port 1).neg.chosen = some mode4) && u.hedge.certCache.contains 8) = true ∧
    (sNeg id).hedge.certCache.contains 8 = true ∧ inPort (.cap 1 { block with cert := 7 }) (sNeg id) (fun p => decide (p.state = 3 ∧ p.out = [.cert .request])) = true ∧
    (sNeg id).capRefusal ((sNeg id).port 1) block = none ∧ chooseMode ((sNeg id).port 1).versions trained4 block = some mode4 ∧
    inPort (.cap 1 block) (sNeg id) (fun p => decide (p.neg.chosen = some mode4)) = true ∧
    (sNeg id).capRefusal ((sNeg id).port 1) { block with sigOk := false } = some 3 ∧
    inPort (.cap 1 { block with sigOk := false }) (sNeg id) (fun p => decide (p.state = 6 ∧ p.refusal = 3)) = true ∧
    inPort (.mode 1 mode4 4) (sNeg id) (fun p => decide (p.neg.theirs = some (mode4, 4))) = true ∧
    inPort (.mode 1 ⟨1, 1, 1, 0⟩ 4) (sNeg (fun n => { n with chosen := some mode4 })) (fun p => decide (p.state = 6 ∧ p.refusal = 2)) = true ∧
    inPort (.modeSwitch ⟨1, 3⟩) (sNeg (fun n => { n with cap := some block, chosen := some mode4, theirs := some (mode4, 4) })) (fun p => decide (p.state = 3)) = true ∧
    inPort (.modeSwitch ⟨1, 4⟩) (sNeg (fun n => { n with cap := some block, chosen := some mode4, theirs := some (mode4, 4) }))
      (fun p => decide (p.state = 4 ∧ p.mode = mode4 ∧ p.partnerWafer = 77 ∧ p.partner = some ⟨8, 9, 77⟩)) = true ∧
    inPort (.negotiationTimeout 1) { sNeg id with time := 5000000 } (fun p => decide (p.state = 1)) = true ∧
    inPort (.refusedTimeout 1) { sPort (fun p => { p with state := 6 }) with time := 250000000 } (fun p => decide (p.state = 2)) = true ∧
    inPort (.portSignalLoss 1) (sTx 0) (fun p => decide (p.state = 1 ∧ p.unacked = [])) = true ∧ inPort (.linkClose 1) (sTx 0) (fun p => decide (p.state = 1)) = true ∧
    inPort (.retrainDone 1) (sPort (fun p => { p with state := 5, neg := { p.neg with trained := trained4, cap := some block, chosen := some mode4, theirs := some (mode4, 0) } })) (fun p => decide (p.state = 4 ∧ p.mode = mode4)) = true ∧
    inPort (.retrainTimeout 1) (sPort (fun p => { p with state := 5 })) (fun p => decide (p.state = 1)) = true := by decide +kernel
theorem witness_glow : 1 ∈ bayPorts 0 ∧
    ran (.glowLightLoss 0) { sTx 0 with glow := [(0, 2)] } (fun u => decide ((u.port 1).state = 1 ∧ u.glow.getD 0 1 = 1) && !u.scarab.ram.isEmpty) = true ∧
    ran (.glowLatchOpen 0) (sTx 0) (fun u => decide ((u.port 1).state = 1 ∧ u.glow.getD 0 1 = 0)) = true ∧
    ran (.glowLatchClose 7) { s0 with glow := [(7, 0)] } (fun u => decide (u.glow.getD 7 1 = 1)) = true ∧ ran (.glowLit 7) s0 (fun u => decide (u.glow.getD 7 1 = 2)) = true := by decide +kernel

/-! ## Witnesses: notes, the broker, clocks and steps -/

def sCond (g : Conductor → Conductor) : State := { sPort (fun p => { p with state := 4, laneActive := 0xFFFFFFFF }) with waferId := 77, cond := g s0.cond }
def note (o : Nat) : PowerNote := { hopsLeft := 3, origin := o, group := 2, seq := 1, estimate := 0, capEff := 0, thatching := 0, time := 0 }
def breq : BrokerReq := { id := 5, chan := 56, seq := 3, tile := tA, ctx := 7, wafer := 0, queue := 1, far := tB, since := 0 }
def pend3 : PendCmd := { chan := 56, seq := 3, words := [], since := 0 }

theorem witness_notes : (sCond id).portField 1 = true ∧
    ran .powerNoteSend (sCond (fun c => { c with group := 2, noteAt := 998976, noteSeq := 4 })) (fun u => decide (u.cond.noteSeq = 5 ∧ u.cond.noteAt = 1000000) &&
      (u.port 1).unacked.any (fun fr => match fr.pkt.body with | .ctrlWrite 0 bs => !bs.isEmpty | _ => false)) = true ∧
    ran (.powerNote 1 (note 6)) (sCond (fun c => { c with group := 2 })) (fun u => decide (u.cond.notes = [(note 6, 1000000)])) = true ∧
    ran .powerNoteExpiry (sCond (fun c => { c with notes := [(note 6, 995904), (note 8, 995905)] })) (fun u => decide (u.cond.notes = [(note 8, 995905)])) = true := by decide +kernel
def connectReq : BrokerMsg := { origin := 0, target := 77, request := 5, body := .connectRequest tA 4 8 tB 2 }
def sBroker : State := { sT (withG grantRec) with waferId := 77, ports := [(1, { proxies := [(0, { valid := true, wafer := 0, tile := tB, ctx := 2, gen := 3, peer := tA })] })] }
def sDir : State :=
  { sCond (fun c => { c with dir := [⟨9, tA, 3, 6, 64⟩] }) with tiles := s0.tiles ++ [(tileKey ⟨148, 59⟩, tile0), (tileKey (gateTile 0 0), tile0)], ports := [(0, { routes := [(0, [word [(1, 31), (1, 24), (1, 20)]])] })] }
theorem witness_broker : (sT (withG grantRec)).admitsWafer 0 = true ∧ ((sT (withG grantRec)).tile tA).st = .admitted ∧
    ran (.brokerConnectRequest 1 connectReq) (sT (withG grantRec)) (fun u => sentIn (.tile tA) (.openReq { ctx := 0, queue := 4, credits := 8, gen := 1 }) u &&
      (u.port 1).proxies.length == 1) = true ∧
    s0.admitsWafer 1 = false ∧ ran (.brokerConnectRequest 1 { connectReq with origin := 1 }) s0 (fun u => decide ((u.scarabQ.getD 0 []).head? = some ⟨0x0E87, 1000000, 56, [1, 1, rcNotPermitted]⟩)) = true ∧
    (sCond (fun c => { c with reqs := [breq], pend := [pend3] })).brokerReq { origin := 0, target := 77, request := 5, body := .close 0 0 } = some breq ∧
    ran (.brokerConnectReply 1 { origin := 0, target := 77, request := 5, body := .connectReply 0 2 9 1 16 0 0 1 8 }) (sCond (fun c => { c with reqs := [breq], pend := [pend3] }))
      (fun u => decide (((u.tile tA).ctx 7).state = 2 ∧ ((u.tile tA).ctx 7).credits = 16 ∧ ((u.tile tA).ctx 7).proxy = 9 ∧ u.cond.reqs = [])) = true ∧
    ran (.brokerCloseMessage 1 { origin := 0, target := 77, request := 5, body := .close 3 0 }) sBroker (fun u => !((u.port 1).proxies.getD 0 {}).valid) = true ∧
    (sDir.route sDir.activeKeep 0).map Route.egress = some 1 ∧
    ran (.brokerLookupRequest 1 { origin := 0, target := 77, request := 5, body := .lookupRequest 9 }) sDir
      (sentIn (.dock 1 0) (.ctrlWrite 0 (brokerBytes { origin := 77, target := 0, request := 5, body := .lookupReply 0 tA 3 6 64 }))) = true ∧
    ran (.brokerLookupReply 1 { origin := 0, target := 77, request := 5, body := .lookupReply 0 tB 3 6 64 }) (sCond (fun c => { c with reqs := [breq], pend := [pend3] }))
      (fun u => u.cond.pend.all (fun c => c.outcome == some rcOk && c.results == [BitVec.ofNat 32 (tileDetail tB), 3, 6, 64])) = true := by decide +kernel

/-- Field 1 changed. -/
def sF (g : Field → Field) : State := s0.modField 1 g
def fClk (g : FieldClk → FieldClk) : State := sF (fun fd => { fd with clk := g fd.clk })
def fPwr (g : FieldPwr → FieldPwr) : State := sF (fun fd => { fd with pwr := g fd.pwr })
/-- Field 1 with a crossing on boundary b, and field 2 beside it. -/
def sXing (x : Xing) (two : Bool) : State :=
  { fClk (fun c => { c with xing := [(0, x), (1, x), (2, x), (3, x)] }) with fields := (fClk (fun c => { c with xing := [(0, x), (1, x), (2, x), (3, x)] })).fields.put 2 (if two then field0 else {}) }

theorem witness_reference : (∀ x ∈ ([-1, 1] : List Int), -1 ≤ x ∧ x ≤ 1) ∧
    ran (.referenceSwitch [-1, 1]) s0 (fun u => decide (u.osc = 1 ∧ u.time = 999999 ∧ (u.field 1).clk.skew = 2)) = true ∧
    ran .referenceLost s0 (fun u => decide (u.osc = 2 ∧ u.mb.running = false ∧ (u.field 1).pwr.state = .off)) = true ∧
    inField .waferTimeBroadcast { fClk (fun c => { c with skew := -3 }) with time := 65536 } (fun fd => decide (fd.clk.skew = 0)) = true ∧
    (s0.field 1).counting = true ∧ inField (.railDroop 1 65534 0) s0 (fun fd => decide (fd.clk.debt = 65534 ∧ fd.clk.stretch = 65534)) = true ∧
    inField (.railDroop 1 65535 0) s0 (fun fd => decide (fd.clk.debt = 0)) = true ∧
    inField (.debtRepaid 1) (fClk (fun c => { c with fast := true })) (fun fd => !fd.clk.fast) = true ∧
    inField (.marginStop 1 6) s0 (fun fd => decide (fd.clk.stopped = some 1000000 ∧ fd.clk.low = 0 ∧ fd.clk.lowMon = 6 ∧ fd.clk.stops = 1)) = true ∧
    inField (.marginRestart 1) (fClk (fun c => { c with stopped := some 999996 })) (fun fd => decide (fd.clk.stopped = none)) = true := by decide +kernel
theorem witness_crossings : fieldAcross 1 1 = some 2 ∧
    inField (.crossingCalibrate 1 1) (sXing {} true) (fun fd => decide ((fd.xing 1).state = .calibrating)) = true ∧
    inField (.calibrationDone 1 1 4) (sXing { state := .calibrating } true) (fun fd => decide ((fd.xing 1).state = .running ∧ (fd.xing 1).latency = 7)) = true ∧
    inField (.calibrationDone 1 1 5) (sXing { state := .calibrating } true) (fun fd => decide ((fd.xing 1).state = .calibrating) && (fd.xing 1).retried) = true ∧
    inField (.calibrationDone 1 1 5) (sXing { state := .calibrating, retried := true } true) (fun fd => decide ((fd.xing 1).state = .failed)) = true ∧
    inField (.heartbeatLoss 1 1) (sXing { state := .running } false) (fun fd => decide ((fd.xing 1).state = .parked)) = true ∧
    inField (.wtLoRead 1) { s0 with time := 2 ^ 33 } (fun fd => decide (fd.clk.wtHi = 2)) = true ∧
    inField (.marginLowWrite 1) (fClk (fun c => { c with low := 2 })) (fun fd => decide (fd.clk.low = 7)) = true := by decide +kernel

def sWaking : State := fPwr (fun p => { p with state := .retain, waking := some 999450, plan := .wake, req := 6 })
def sStopping (p : Plan) : State := { fPwr (fun q => { q with plan := p }) with mesh := { map := { furrows := [{ x0 := 100, y0 := 0, x1 := 199, y1 := 119, kind := 3, field := 1, shadowed := 0 }] } } }
theorem witness_wake_and_stop : sWaking.boot.kind ≠ 2 ∧ (sWaking.field 1).slowest = 6 ∧
    inField (.fieldWake 1) sWaking (fun fd => decide (fd.pwr.state = .idle ∧ fd.clk.clock = 2 ∧ fd.clk.op = 6)) = true ∧
    (sStopping .park).mesh.map.holds 1 = true ∧ inField (.fieldClockStop 1) (sStopping .park) (fun fd => decide (fd.clk.clock = 0 ∧ fd.pwr.retainAt = some 1000025) && fd.clk.halted) = true ∧
    inField (.retentionReached 1) (fPwr (fun p => { p with plan := .retain, retainAt := some 1000000 })) (fun fd => decide (fd.pwr.state = .retain ∧ fd.pwr.plan = .none)) = true ∧
    inField (.retentionReached 1) (fPwr (fun p => { p with plan := .park, retainAt := some 1000000 })) (fun fd => decide (fd.pwr.state = .retain ∧ fd.svc.state = .parked) && fd.pwr.parked) = true ∧
    inField (.retentionReached 1) (fPwr (fun p => { p with plan := .off, retainAt := some 1000000 })) (fun fd => decide (fd.pwr.state = .off ∧ fd.svc.furrow = some 5)) = true := by decide +kernel
/-- Boundary 3907 is tick 1,000,192. -/
def orderAt (n k : Nat) : Option StepOrder := some { kind := k, op := 3, at_ := n }
theorem witness_orders : resolveAt 1000000 3907 = 1000192 ∧ 1000000 + leadOf 0 3 ≤ 1000192 ∧ resolveAt 1000000 3906 < 1000000 + leadOf 0 3 ∧
    inField (.clkOrderOpStep 1 3 3907) s0 (fun fd => decide (fd.clk.order = orderAt 1000192 1)) = true ∧
    inField (.clkOrderEnterMonitor 1 3 3907) s0 (fun fd => decide (fd.clk.order = orderAt 1000192 2)) = true ∧
    ran (.clkOrderLeaveMonitor 1 3 3906) s0 (fun u => decide ((u.field 1).clk.order = orderAt 1000192 3) && !(u.scarabQ.getD 1 []).isEmpty) = true ∧
    inField (.pwrStepCap 1 3 3907) s0 (fun fd => decide (fd.pwr.steps.find 1 = orderAt 1000192 1)) = true ∧
    inField (.pwrStepThermal 1 3 3907) s0 (fun fd => decide (fd.pwr.steps.find 2 = orderAt 1000192 2)) = true ∧
    inField (.pwrStepForced 1 3 3907) s0 (fun fd => decide (fd.pwr.steps.find 3 = orderAt 1000192 3)) = true := by decide +kernel
def sMon (o : Nat) (low16 : Nat) : State := fClk (fun c => { c with monitor := true, op := o, low16 := low16, ceiling := 4 })
theorem witness_steps :
    inField (.opStep 1) (fClk (fun c => { c with order := orderAt 999936 1 })) (fun fd => decide (fd.clk.op = 3 ∧ fd.clk.relock = some 999986 ∧ fd.pwr.req = 3 ∧ fd.clk.order = none)) = true ∧
    inField (.relockDone 1) (fClk (fun c => { c with relock := some 1000000, clock := 1 })) (fun fd => decide (fd.clk.relock = none ∧ fd.clk.clock = 2)) = true ∧
    inField .monitorModeSwitch (fClk (fun c => { c with order := orderAt 999936 2 })) (fun fd => fd.clk.monitor && decide (fd.clk.ceiling = 3 ∧ fd.clk.order = none)) = true ∧
    ran .monitorModeSwitch (fClk (fun c => { c with monitor := true, order := orderAt 999936 3 })) (fun u => decide ((u.field 1).clk.monitor = false ∧ (u.field 1).clk.relock = some 999986) && u.mesh.distDue) = true ∧
    inField (.monitorSteerEpoch 1 2) (sMon 14 0) (fun fd => decide (fd.clk.op = 15)) = true ∧ max 4 ((sMon 5 15).field 1).slowest < 5 ∧
    inField (.monitorSteerEpoch 1 6) (sMon 5 15) (fun fd => decide (fd.clk.op = 4)) = true ∧
    inField (.monitorSteerEpoch 1 5) (sMon 5 15) (fun fd => decide (fd.clk.op = 5 ∧ fd.clk.low16 = 0)) = true := by decide +kernel

/-! ## Witnesses: power and heat -/

/-- Field 0 is the master; est watts-eighths are estimated in field 1. -/
def sMaster (est overs : Nat) (cap : Nat := 40000) : State :=
  (({ fPwr (fun p => { p with est := est, capGate := 1 }) with time := 1000050 } : State).modField 0 (fun fd => { fd with
    pwr := { fd.pwr with est := est }, master := { fd.master with active := true, cap := cap, overs := overs, lastEpoch := 10000 - 1 } })).modField 55 (fun fd => { fd with pwr := { fd.pwr with est := est } })
def sSamples (n : Nat) : State := { sMaster 0 0 with watch := { overs := n } }
/-- The core waits in swait for a global cell, with thatch enabled. -/
def sThatch (g : Act → Act) : State := sStall .swait .answer 7 0 (fun t => { t with act := g { t.act with enable := true, duty := 16 } })

theorem witness_power_loop : (sMaster 65535 0 1).masterField = some 0 ∧ ((sMaster 65535 0 1).master 0).lastEpoch < 1000050 / 100 ∧
    ((((sMaster 65535 0 1).master 0).capEff : Rat) < (sMaster 65535 0 1).totalPower ((sMaster 65535 0 1).master 0)) ∧
    ((sMaster 0 0).totalPower ((sMaster 0 0).master 0) ≤ (((sMaster 0 0).master 0).capEff : Rat)) ∧
    after (.epochEnd 1 3 2) (sT (fun t => { t with act := { t.act with issue := 9 } })) (fun t => decide (t.act.lastIssue = 9)) = true ∧
    ran .masterTakeover ((sMaster 0 0).modField 0 (fun fd => { fd with master := { fd.master with lastEpoch := 9997 } })) (fun u => decide ((u.master 0).active = false ∧ (u.master 55).active = true)) = true := by decide +kernel
theorem witness_backstop : 105 * (sSamples 2).capNow < 100 * 42001 ∧
    ran (.hedgerowPowerSample 42001 0) (sSamples 2) (fun u => decide (u.watch.forcedAt = some u.hedgeNow ∧ ((u.field 1).pwr.steps.find 3).map StepOrder.op = some 1)) = true ∧
    100 * 42000 ≤ 105 * (sSamples 2).capNow ∧ ran (.hedgerowPowerSample 42000 800) (sSamples 2) (fun u => decide (u.watch.overs = 0 ∧ u.fields = (sSamples 2).fields)) = true ∧
    1024 * 5 = 4 * 1280 ∧ ran (.estScaleCalibrate 5 4) s0 (fun u => decide ((u.master 0).estScale = 1280 ∧ (u.master 55).estScale = 1280)) = true ∧
    ran (.inputVoltageSample 71999) s0 (fun u => decide (u.chassis.mv = 71999 ∧ u.chassis.range = rangeOf 71999)) = true ∧
    ran .busStop s0 (fun u => unpowered u && u.chassis.busStopped) = true ∧
    (sOff id).fields = [] ∧ ran .currentLimit (sOff id) (fun u => decide (u.fields = [])) = true := by decide +kernel
theorem witness_thatch : (sThatch id).thatchWait tA = some 1000000 ∧ ((sThatch id).tile tA).enginesIdle = true ∧
    ((sThatch id).tile tA).idleFrom + ((sThatch id).tile tA).act.delayCycles ≤ (sThatch id).cycles tA ∧
    ((sThatch id).tile tA).act.delayCycles ≤ 1000000 * opN ((sThatch id).field (fieldOf tA)).clk.op ∧
    after (.thatchEngage tA) (sThatch id) (fun t => t.act.engaged && t.act.running && decide (t.act.level = 16)) = true ∧
    after (.thatchRampDownStep tA) (sThatch (fun a => { a with running := true, level := 1 })) (fun t => decide (t.act.level = 0) && !t.act.running) = true ∧
    after (.thatchRampUpStep tA) (sThatch (fun a => { a with ceiling := 15 })) (fun t => decide (t.act.ceiling = 16)) = true := by decide +kernel

theorem witness_heat :
    inField (.thermalSample 1 40 11) s0 (fun fd => decide (fd.pwr.temp = 40 ∧ fd.pwr.sensor = 11)) = true ∧
    inField (.thermalSample 1 115 0) (fPwr (fun p => { p with trips := 3 })) (fun fd => decide (fd.pwr.state = .off) && fd.pwr.tripped) = true ∧
    sMute.mb.running = false ∧ inField (.thermalSample 1 100 0) sMute (fun fd => decide (fd.pwr.tgate = 4)) = true ∧
    ran (.thermalSample 1 105 0) (fPwr (fun p => { p with hotSince := some 750000 })) (fun u => decide ((u.field 1).pwr.plan = .park ∧ (u.field 1).svc.furrow = some 3) && u.cond.wantMap) = true ∧
    inField (.autoReturn 1) { (({ sMaster 0 0 with time := 2500000 } : State).modField 0 (fun fd => { fd with master := { fd.master with autoReturn := true } })).modField 1
        (fun fd => { fd with pwr := { fd.pwr with parked := true, state := .retain, coolSince := some 0 } }) with boot := { complete := true } }
      (fun fd => decide (fd.pwr.plan = .back ∧ fd.svc.state = .testing ∧ fd.pwr.waking = some 2500000)) = true ∧
    ran (.coolantSample { inlet := 320, outlet := 600, flow := 800, failed := false }) s0 (fun u => decide (u.watch.coolCap = 0 ∧ u.watch.response = 0)) = true ∧
    ran (.coolantSample { inlet := 320, outlet := 600, flow := 800, failed := true }) sMute (fun u => decide (u.watch.response = 2 ∧ (u.field 1).pwr.state = .off)) = true := by decide +kernel
theorem witness_rails :
    inField (.overcurrentLatch 1 false true) s0 (fun fd => decide (fd.pwr.state = .failed ∧ fd.pwr.cause = 3 ∧ fd.svc.furrow = some 2) && fd.pwr.memLatch) = true ∧
    inField (.insulationCheckDone 1 30000 10000) { fPwr (fun p => { p with insulating := some 0 }) with time := 2500000 } (fun fd => decide (fd.pwr.insul = 1 ∧ fd.pwr.insulating = none)) = true ∧
    inField (.insulationCheckDone 1 30001 10000) { fPwr (fun p => { p with insulating := some 0 }) with time := 2500000 } (fun fd => decide (fd.pwr.insul = 2)) = true ∧
    inField (.trimRaise 1 15 0) { fPwr (fun p => { p with marginStops := [15], trims := [(15, 9)] }) with time := dayTicks } (fun fd => decide (fd.pwr.trims.getD 15 0 = 10)) = true ∧
    ran (.trimRaise 1 15 0) { fPwr (fun p => { p with marginStops := [15], trims := [(15, 10)] }) with time := dayTicks } (fun u => decide (u.cond.highest = 15)) = true ∧
    inField (.fieldThermClear 1) (fPwr (fun p => { p with maxTemp := 90 })) (fun fd => decide (fd.pwr.maxTemp = 0)) = true := by decide +kernel

/-! ## Witnesses: bring-up, fault logs and mailboxes -/

def sBoot (kind step wave at_ : Nat) : State := { s0 with time := 2000000000, boot := { kind := kind, step := step, wave := wave, waveAt := at_ } }
def sSvc (g : FieldSvc → FieldSvc) : State := sF (fun fd => { fd with svc := g fd.svc })
def testing (phase : Nat) (g : FieldSvc → FieldSvc := id) : State :=
  { sSvc (fun v => g { v with state := .testing, phase := phase, testing := [localIdx tA, localIdx tB], awaiting := [localIdx tA, localIdx tB] }) with time := 2000000000 }

theorem witness_waves : 1 ∈ waveFields 0 ∧ 6 ∈ waveFields 5 ∧
    (s0.field 14).pwr.state = .off ∧ (sBoot 1 4 0 0).boot.wave = 0 ∧ (sBoot 1 4 0 0).mb.running = true ∧
    ran (.fieldPowerWave 5 []) (sBoot 1 5 5 1993750000) (fun u => decide (u.boot.wave = 6)) = true ∧
    ran (.fieldPowerWave 0 []) ((sBoot 2 5 0 0).modField 1 (fun fd => { fd with pwr := { fd.pwr with state := .retain } }))
      (fun u => decide (u.boot.step = 6 ∧ (u.field 1).pwr.waking = some 2000000000 ∧ (u.field 1).svc.state = .testing)) = true ∧
    ran (.fieldPowerWave 5 []) (sBoot 2 6 5 1998750000) (fun u => decide (u.boot.wave = 6)) = true ∧
    (∀ b, b < 4 → (((testing 2).field 1).xing b).state = .parked) ∧
    inField (.fieldWaveTimeout 1) { testing 2 (fun v => { v with since := 1993750000 }) with boot := { kind := 1, step := 5 } } (fun fd => decide (fd.pwr.state = .off ∧ fd.svc.state = .out)) = true := by decide +kernel
def resultA (fd : Field) : Nat := (fd.svc.recs.getD (localIdx tA) {}).result
theorem witness_tests :
    (localIdx tA ∈ ((testing 6).field 1).svc.awaiting ∧ ∃ j ∈ ((testing 6).field 1).svc.awaiting, j ≠ localIdx tA) ∧
    inField (.knownAnswerDone tA false true) (testing 6) (fun fd => decide (resultA fd = 1 ∧ fd.svc.awaiting = [localIdx tB])) = true ∧
    inField (.knownAnswerTimeout tA) (testing 6 (fun v => { v with since := 1999750000 })) (fun fd => decide (resultA fd = 1)) = true ∧
    (∃ i ∈ ((testing 4).field 1).svc.clean, ∀ t ∈ [tB] ++ [], fieldOf t = 1 → localIdx t ≠ i) ∧
    inField (.marchDone 1 .scratchpad [tB] []) (testing 4) (fun fd => decide (fd.svc.phase = 6 ∧ fd.svc.awaiting = [localIdx tA]) && fd.mesh.mcastEn) = true ∧
    ran (.marchDone 1 .tileMemory [] []) (testing 7 (fun v => { v with level := 2 })) (fun u => decide ((u.field 1).svc.phase = 8 ∧ (u.tile tA).mem.cells.read 0x40000 = 0)) = true ∧
    inField (.marchDone 1 .tileMemory [] []) (testing 7 (fun v => { v with level := 1 })) (fun fd => decide (fd.svc.phase = 11)) = true ∧
    inField (.soakDone 1 45) (testing 8 (fun v => { v with since := 1999999999 })) (fun fd => decide (fd.svc.phase = 9) && !fd.svc.cold) = true ∧
    inField (.soakDone 1 44) (testing 8 (fun v => { v with since := 750000000 })) (fun fd => decide (fd.svc.phase = 9) && fd.svc.cold) = true := by decide +kernel
theorem witness_pauses :
    inField (.profilingPauseEnd 1 []) (testing 9 (fun v => { v with since := 1975000000, pause := 1 })) (fun fd => decide (fd.svc.pause = 2 ∧ fd.svc.phase = 9)) = true ∧
    inField (.profilingPauseEnd 1 []) (testing 9 (fun v => { v with since := 1900000000, pause := 2 })) (fun fd => decide (fd.svc.pause = 0 ∧ fd.svc.phase = 10)) = true ∧
    inField (.profilingPauseEnd 1 []) (testing 10 (fun v => { v with since := 1900000000, pause := 2 })) (fun fd => decide (fd.svc.phase = 11)) = true ∧
    ({ testing 11 with boot := { kind := 1, step := 5, wave := 13 } } : State).bootFields = [1] ∧
    (∀ f ∈ ({ testing 11 with boot := { kind := 1, step := 5, wave := 13 } } : State).bootFields, ((testing 11).field f).svc.phase = 11 ∧
      ((testing 11).field f).svc.furrow = none ∧ (testing 11).mesh.map.holds f = false) ∧
    inField (.retestDone 1) (testing 11) (fun fd => decide (fd.svc.state = .ready)) = true := by decide +kernel

def entry0 : FltEntry := { fault := 5, tile := tA, gen := 0, info0 := 0, info1 := 0, pc := 0, time := 0 }
def sHalted : State := { sT (fun t => { t with st := .halted, fault := { t.fault with valid := true, code := 0x0702 } }) with time := 1000020 }
def sLog : State := sF (fun fd => { fd with flt := { fd.flt with count := 1, next := 1, tail := 0, entries := [(0, entry0)] } })
theorem witness_fault_logs : sHalted.haltedIn 1 = [localIdx tA] ∧
    inField (.haltScan 1) sHalted (fun fd => decide (fd.flt.haltVec = [localIdx tA] ∧ fd.flt.count = 1 ∧ fd.flt.entries.find 0 = some (sHalted.fltEntry tA 1000000))) = true ∧
    (sLog.field 1).flt.unread = [entry0] ∧ ran .faultLogPoll sLog (fun u => decide ((u.field 1).flt.count = 0 ∧ tA ∈ u.cond.halted ∧ u.cond.pollAt = 1000000)) = true ∧
    inField (.fltRead 1 1) sLog (fun fd => decide (fd.flt.tail = 1 ∧ fd.flt.count = 0)) = true := by decide +kernel

/-- A channel whose message is rung: a command with its code and arguments. -/
def chanW (ws : List Word) : Tab Word := (upto 16).map (fun i => (i, ws.getD i 0))
def sChan (c : Nat) (g : Chan → Chan) : State := { s0 with mb := { running := true, chans := [(c, g {})] } }
def pingW : List Word := [0x10107, 0, 0, 0, 0, 0, 0, 0, 0, 0, 0, 0, 0, 0, 0, 0]
def sRung (ws : List Word) (coll : Bool) : State := sChan 56 (fun k => { k with msg := chanW ws, full := true, seq := 8, collision := coll })
def sPend (p : PendCmd) : State := { s0 with cond := { s0.cond with pend := [p] } }
theorem witness_mailbox : mayAccess 4 true 63 = true ∧ mayAccess 3 false 63 = false ∧
    ran (.mbMsgWrite 4 true 63 15 7) (sChan 63 (fun k => { k with full := true })) (fun u => decide ((u.chan 63).msg.getD 15 0 = 7) && (u.chan 63).collision) = true ∧
    ran (.mbMsgWrite 3 false 63 15 7) s0 (fun u => decide (u.mb.violation = 1 ∧ u.mb.chans = [])) = true ∧
    ran (.mbDoorbell 4 true 63 0x10001) s0 (fun u => (u.chan 63).full && decide ((u.chan 63).seq = 1)) = true ∧
    ran (.mbDoorbell 4 true 63 0x10000) s0 (fun u => decide (u = s0.spineGrant 4)) = true ∧ ran (.mbDoorbell 3 false 63 1) s0 (fun u => decide (u.mb.violation = 1)) = true ∧
    ran .mailboxPoll (sRung pingW true) (fun u => decide ((u.chan 56).ackCode = rcCollisionSeen ∧ (u.chan 56).ackSeq = 8) && !(u.chan 56).full) = true ∧
    (sRung (0x0F01 :: pingW.drop 1) false).earlyCheck (0x0F01 :: pingW.drop 1) 56 = some (rcBadCommand, false) ∧
    ran .mailboxPoll (sRung (0x0F01 :: pingW.drop 1) false) (fun u => decide ((u.chan 56).ackCode = rcBadCommand)) = true ∧
    (sRung pingW false).earlyCheck pingW 56 = none ∧ ran .mailboxPoll (sRung pingW false) (fun u => decide (u.cond.order = [56] ∧ ((u.chan 56).buf.map Taken.words) = some pingW)) = true := by decide +kernel
def cmd3 (w : List Word) (o : Option Nat) (wt : Bool) : PendCmd := { chan := 56, seq := 3, words := w, since := 0, outcome := o, waiting := wt }
theorem witness_pending : (sPend (cmd3 pingW (some 0) false)).findCmd 56 3 = some (cmd3 pingW (some 0) false) ∧
    ran (.commandComplete 56 3) (sPend (cmd3 pingW (some 0) false)) (fun u => decide (u.findCmd 56 3 = none)) = true ∧
    ran (.commandTimeout 56 3) { sPend (cmd3 pingW none false) with time := 25000000 } (fun u => decide (u.findCmd 56 3 = none) && !(u.scarabQ.getD 0 []).isEmpty) = true ∧
    (∀ r ∈ (sPend (cmd3 [0x0801, 0, 1] none true)).cond.pend, r.waiting = false → funcKey r.words ≠ some (1, 1)) ∧
    ran (.deferredEnableStart 56 3) (sPend (cmd3 [0x0801, 0, 1] none true)) (fun u => decide (u.findCmd 56 3 = none) && nbit (u.port 1).ctrl.toNat 31) = true ∧
    ran .conductorBeat s0 (fun u => decide (u.mb.beat = 1000000 ∧ u.mb.beatAt = 1000000)) = true ∧
    ran (.conductorBoot 55) s0 (fun u => decide (55 ∈ u.cond.up) && u.cond.rebuilding) = true ∧
    ran (.conductorBoot 0) { sMute with mesh := { paused := true } } (fun u => u.mb.running && decide (0 ∈ u.cond.up ∧ u.mb.epoch = 1)) = true ∧
    ran .standbyRebuildDone { s0 with cond := { s0.cond with rebuilding := true, up := [0, 55] } } (fun u => u.mb.standbyReady) = true ∧
    ran .conductorTakeover { s0 with mb := { running := true, standbyReady := true, beatAt := 999250 } }
      (fun u => decide (u.mb.activeKf = 1 ∧ u.mb.epoch = 1 ∧ u.cond.takeover = some 1000000) && !u.mb.standbyReady) = true := by decide +kernel

/-! ## Witnesses: system, field, job and fold commands -/

def cmdK (code : Nat) (args : List Word) : Taken :=
  { words := (word [(code, 0), (1, 16), (args.length, 24)] :: 0 :: args ++ List.replicate 15 0).take 16, seq := 3, collision := false, at_ := 7 }
/-- A message with its arguments stands first in take order on channel 56. -/
def sCmd (s : State) (code : Nat) (args : List Word) : State :=
  { s with mb := { s.mb with chans := [(56, { buf := some (cmdK code args) })] }, cond := { s.cond with order := [56] } }
/-- It does, and the command answers a next state of which p holds. -/
def cmdRan (i : Nat → Instr) (code : Nat) (args : List Word) (s : State) (p : State → Bool) : Bool :=
  let u := sCmd s code args
  u.mb.running && u.cond.order.head? == some 56 && (u.chan 56).buf == some (cmdK code args) && msgCode (cmdK code args).words == code && ran (i 56) u p
def acked (code : Nat) (u : State) : Bool := decide ((u.chan 56).ackCode = code ∧ (u.chan 56).ackSeq = 3)

theorem witness_system :
    cmdRan .sysStatus 0x0102 [] s0 (acked 0) = true ∧
    s0.warmOk = true ∧ s0.pendRoom 56 = true ∧ cmdRan .sysWarmReset 0x0103 [] s0 (fun u => acked rcPending u && decide (u.boot.kind = 2)) = true ∧
    sBooting.warmOk = false ∧ cmdRan .sysWarmReset 0x0103 [] { sBooting with mb := s0.mb } (acked rcBusy) = true ∧
    cmdRan .sysSetWaferId 0x0104 [65535] s0 (fun u => acked 0 u && decide (u.waferId = 65535)) = true ∧
    cmdRan .sysSetWaferId 0x0104 [65536] s0 (acked rcBadArgument) = true ∧
    cmdRan .sysHandover 0x0105 [] { s0 with mb := { s0.mb with standbyReady := true } } (fun u => acked rcPending u && u.cond.handover) = true ∧
    cmdRan .sysHandover 0x0105 [] s0 (acked rcStateConflict) = true ∧
    msgMask (cmdK 0x0106 [2, 0, 1]).words 2 = some 2 ∧
    cmdRan .sysBoundVoid 0x0106 [2, 0, 1] (sF (fun fd => { fd with clk := { fd.clk with bvAsync := true } })) (fun u => acked 0 u && !(u.field 1).anyVoid) = true ∧
    cmdRan .sysBoundVoid 0x0106 [2, 0, 0] (sF (fun fd => { fd with clk := { fd.clk with bvAsync := true } })) (fun u => acked 0 u && (u.field 1).anyVoid) = true ∧
    cmdRan .sysPing 0x0107 [] s0 (acked 0) = true := by decide +kernel
theorem witness_identity : sCmd s0 0x0101 [] = { sCmd s0 0x0101 [] with time := s0.time } ∧ (sCmd s0 0x0101 []).mb.running = true ∧
    (sCmd s0 0x0101 []).cond.order.head? = some 56 ∧ ((sCmd s0 0x0101 []).chan 56).buf = some (cmdK 0x0101 []) ∧ msgCode (cmdK 0x0101 []).words = 0x0101 := by
  decide +kernel

def sSt (st : SvcSt) (g : Field → Field := id) : State := sF (fun fd => g { fd with svc := { fd.svc with state := st } })
def onF (p : Field → Bool) (u : State) : Bool := p (u.field 1)
theorem witness_field_commands : isKeep 1 = false ∧ (sSt .ready).orderBusy 1 = false ∧ (sSt .ready).pendRoom 56 = true ∧
    ((sSt .ready).field 1).pwr.rung3 s0.time = false ∧
    cmdRan .fieldAdmit 0x0201 [1] (sSt .ready) (fun u => acked rcPending u && onF (fun fd => decide (fd.svc.state = .inService)) u) = true ∧
    cmdRan .fieldDrain 0x0202 [1] (sSt .ready) (onF (fun fd => decide (fd.svc.furrow = some 4))) = true ∧
    cmdRan .fieldPark 0x0203 [1] (sSt .inService) (onF (fun fd => decide (fd.pwr.plan = .park))) = true ∧
    cmdRan .fieldReturn 0x0204 [1, 1] (sSt .parked) (onF (fun fd => decide (fd.pwr.plan = .back ∧ fd.svc.state = .testing))) = true ∧
    cmdRan .fieldReset 0x0205 [1] (sSt .drained) (fun u => onF (fun fd => fd.svc.resetDone) u && decide ((u.tile tA).st = .quarantine)) = true ∧
    (sSt .drained).testingFields.length < 8 ∧
    cmdRan .fieldRetest 0x0206 [1, 2] (sSt .drained) (onF (fun fd => decide (fd.svc.phase = 4 ∧ fd.svc.level = 2))) = true ∧
    cmdRan .fieldFail 0x0207 [1] (sSt .inService) (onF (fun fd => decide (fd.pwr.state = .failed ∧ fd.pwr.cause = 1))) = true ∧
    cmdRan .fieldInsulate 0x0209 [1] (sSt .failed) (onF (fun fd => decide (fd.pwr.insulating = some s0.time))) = true := by decide +kernel
def rtn (parked : Bool) : State := sF (fun fd => { fd with pwr := { fd.pwr with state := .retain, parked := parked } })
theorem witness_field_orders : (sSt .inService).enableWaits (2, 1) = false ∧
    cmdRan .fieldPower 0x020A [1, 0] (sSt .inService) (onF (fun fd => decide (fd.pwr.plan = .retain ∧ fd.svc.furrow = some 5))) = true ∧
    cmdRan .fieldPower 0x020A [1, 1] (rtn false) (onF (fun fd => decide (fd.pwr.plan = .wake))) = true ∧
    cmdRan .fieldPower 0x020A [1, 2] (sSt .inService) (onF (fun fd => decide (fd.pwr.plan = .off))) = true ∧
    cmdRan .fieldPower 0x020A [1, 2] (rtn false) (onF (fun fd => decide (fd.pwr.state = .off))) = true ∧
    cmdRan .fieldClear 0x0208 [1] (sSt .failed (fun fd => { fd with pwr := { fd.pwr with state := .failed, insul := 1 } })) (fun u => acked 0 u && onF (fun fd => decide (fd.pwr.state = .off)) u) = true ∧
    cmdRan .fieldQuery 0x020B [1] s0 (acked 0) = true ∧
    msgPos (110 + 5 * 1024) = tA ∧ onArray tA = true ∧ s0.clocked tA = true ∧
    cmdRan .tileReset 0x020C [BitVec.ofNat 32 (110 + 5 * 1024)] s0 (fun u => acked 0 u && decide ((u.tile tA).gen = 1 ∧ (u.tile tA).st = .quarantine)) = true := by decide +kernel
theorem witness_field_refusals : isKeep 0 = true ∧
    cmdRan .fieldAdmit 0x0201 [56] s0 (acked rcBadArgument) = true ∧ cmdRan .fieldQuery 0x020B [0] s0 (acked rcNotPermitted) = true ∧
    (sF (fun fd => { fd with pwr := { fd.pwr with plan := .wake } })).orderBusy 1 = true ∧
    cmdRan .fieldReset 0x0205 [1] (sF (fun fd => { fd with pwr := { fd.pwr with plan := .wake } })) (acked rcBusy) = true := by decide +kernel

/-- The engine with a job 1. -/
def sJob (j : Job) : State := { s0 with cond := { s0.cond with jobs := [(1, j)] } }
def tileOff (s : State) : State := s.modTile tA (fun t => { t with st := .quarantine })
theorem witness_jobs :
    cmdRan .jobDeclare 0x0301 [1, 2, 0] s0 (fun u => acked 0 u && decide ((u.job 1).st = 1 ∧ (u.job 1).fmask = 2)) = true ∧
    cmdRan .jobStart 0x0303 [1] (tileOff (sJob { st := 2, tiles := [tA], starts := [(tileKey tA, 0x2000)] }))
      (fun u => decide ((u.job 1).st = 3 ∧ (u.tile tA).st = .admitted ∧ (u.tile tA).core.pc = 0x2000)) = true ∧
    (tileOff s0).admittable tA = true ∧
    cmdRan .jobStart 0x0303 [1] (sJob { st := 3, tiles := [tA], stopping := true }) (acked rcPendingEnable) = true ∧
    cmdRan .jobStop 0x0304 [1] (sJob { st := 3, tiles := [tA] }) (fun u => (u.job 1).stopping && decide ((u.tile tA).st = .quarantine)) = true ∧
    cmdRan .jobRelease 0x0305 [1] (sJob { st := 4, tiles := [tA] }) (fun u => acked 0 u && decide (u.job 1 = {})) = true ∧
    cmdRan .jobQuery 0x0306 [1] (sJob { st := 3, tiles := [tA] }) (acked 0) = true ∧
    cmdRan .foldLoad 0x0307 [1, 0x107] (sJob { st := 3, tiles := [tA] }) (acked rcPending) = true ∧
    cmdRan .foldSwitch 0x0308 [1, 7, 1000080, 0] (sJob { st := 3, tiles := [tA] }) (fun u => decide ((u.tile tA).fold.armed = some (.slot 7, 1000080))) = true ∧
    cmdRan .foldSchedule 0x0309 [1, 0x10F, 0x07FFFFFF] (sJob { st := 3, tiles := [tA] })
      (fun u => decide ((u.tile tA).fold.schedLen = 16 ∧ (u.tile tA).fold.sched.getD 15 (0, 0) = (7, 0xFFFFFF))) = true := by decide +kernel
/-- A segment of no records, its checksum in place. -/
def seg0 : List Byte :=
  let b := natLe 2 0x4A42 ++ [1, 0] ++ natLe 4 0 ++ natLe 4 32
  b ++ natLe 4 (crc32c (b ++ [0, 0, 0, 0] ++ List.replicate 16 0)) ++ List.replicate 16 0
def segAddr : List Word := [0, 0x300]
def sSeg (bs : List Byte) : State :=
  let s := sJob { st := 1, fmask := 2 }
  { s with hosts := [(0, { mem := Memory.writeN [] bs 0 })] }
theorem witness_loads :
    hostByte (msgAddr (cmdK 0x0302 ([1] ++ segAddr ++ [32])).words 3) = some (0, 0) ∧
    (checkSegment (Memory.readN ((sSeg seg0).host 0).mem 32 0) 32 = .inl []) ∧ (sSeg seg0).loadRefusal 1 [] = none ∧
    cmdRan .jobLoad 0x0302 ([1] ++ segAddr ++ [32]) (sSeg seg0) (fun u => acked rcPending u && decide ((u.job 1).st = 2)) = true ∧
    (checkSegment (Memory.readN ((sSeg []).host 0).mem 32 0) 32 = .inr 0) ∧
    cmdRan .jobLoad 0x0302 ([1] ++ segAddr ++ [32]) (sSeg []) (acked rcImageRejected) = true := by decide +kernel

/-! ## Witnesses: broker, window, sync, power, clock, port, firmware and map commands -/

def posA : Word := BitVec.ofNat 32 (110 + 5 * 1024)
def sNames (l : List WinName) : State := { s0 with cond := { s0.cond with dir := l } }
def win9 : WinName := { name := 9, pos := tA, window := 7, key := 5, length := 64 }
theorem witness_broker_commands : s0.waferId = 65535 ∧ ((s0.tile tA).ctx 15).state = 0 ∧ s0.route s0.activeKeep 65534 = none ∧
    cmdRan .brokerConnect 0x0401 [posA, 15, 65535, posA, BitVec.ofNat 32 (7 + 32 * 256)] s0
      (fun u => acked rcPending u && u.cond.reqs.any (fun r => r.chan == 56 && r.ctx == 15 && r.queue == 7)) = true ∧
    cmdRan .brokerClose 0x0402 [posA, 2] (sT (withCtx { state := 1, remote := true, credits := 4 }))
      (fun u => acked 0 u && decide (((u.tile tA).ctx 2).state = 0)) = true ∧
    cmdRan .brokerPolicy 0x0403 [65535, 65535, 128] s0 (fun u => acked 0 u && decide (u.cond.polSrc = 65535 ∧ u.cond.polMax = 128)) = true ∧
    cmdRan .windowPublish 0x0404 [9, posA, 7, 5, 64] s0 (fun u => acked 0 u && decide (u.cond.dir = [win9])) = true ∧
    cmdRan .windowPublish 0x0404 [9, posA, 7, 5, 64] (sNames [win9]) (acked rcStateConflict) = true ∧
    cmdRan .windowWithdraw 0x0405 [9] (sNames [win9]) (fun u => acked 0 u && decide (u.cond.dir = [])) = true ∧
    cmdRan .windowWithdraw 0x0405 [9] s0 (acked rcNotPresent) = true ∧
    cmdRan .windowLookup 0x0406 [65535, 9] s0 (fun u => acked rcPending u && u.cond.reqs.any (fun r => r.wafer == 65535)) = true ∧
    cmdRan .windowLookup 0x0406 [65534, 9] s0 (acked rcNotPresent) = true := by decide +kernel

def waiting0 : State := sF (fun fd => { fd with sync := { fd.sync with waiters := [{ cell := 1023, tile := tA, gen := 0, tag := 3 }] } })
def sWaitOn (obj : Nat) : State := sStall .swait .answer obj 0
def sWaitG : State := sWaitOn 65536
def sWaitL : State := sWaitOn 65551
theorem witness_sync_commands : s0.cellsUp (cellHost 1023).1 = true ∧ (waiting0.field 1).waitersOn 1023 ≠ [] ∧ (cellHost 1023) = (1, 1023) ∧
    cmdRan .cellRead 0x0501 [1023, 0] s0 (acked 0) = true ∧
    cmdRan .cellSet 0x0502 [1023, 0, 2, 0xFFFFFF, 0xFFFFFF] s0 (fun u => acked 0 u && decide (((u.field 1).cell 1023).value = 0xFFFFFF)) = true ∧
    cmdRan .cellForce 0x0503 [1023, 0, 0xFFFFFFFF] waiting0 (fun u => acked 0 u && decide ((u.field 1).waitersOn 1023 = [])) = true ∧
    cmdRan .cellWaiters 0x0504 [1023, 0] waiting0 (acked 0) = true ∧
    cmdRan .cellRead 0x0501 [65551, posA] s0 (acked 0) = true ∧
    cmdRan .cellSet 0x0502 [65551, posA, 2, 0xFFFFFF, 0xFFFFFF] s0 (fun u => acked 0 u && decide (((u.tile tA).cell 15).target = 0xFFFFFF)) = true ∧
    sWaitL.clocked tA = true ∧ (sWaitL.tile tA).waitsLocal 15 = true ∧
    cmdRan .cellForce 0x0503 [65551, posA, 0xFFFFFFFF] sWaitL (fun u => acked 0 u && decide ((u.tile tA).core.stall = none)) = true ∧
    (s0.tile tA).waitsLocal 15 = false ∧ cmdRan .cellWaiters 0x0504 [65551, posA] s0 (acked 0) = true ∧
    cmdRan .tileRelease 0x0505 [posA, 0] s0 (acked 0) = true ∧
    cmdRan .tileRelease 0x0505 [posA, 0] sWaitG (fun u => acked 0 u && decide ((u.tile tA).core.stall = none)) = true := by decide +kernel
theorem witness_power_commands :
    cmdRan .pwrSetCap 0x0601 [65535] s0 (fun u => acked 0 u && decide ((u.master 0).cap = 65535 ∧ (u.master 55).cap = 65535)) = true ∧
    cmdRan .pwrSetPolicy 0x0602 [511] s0 (fun u => acked 0 u && decide ((u.master 0).maxGate = 15 ∧ (u.master 55).stepAfter = 15)) = true ∧
    cmdRan .pwrSetGroup 0x0603 [65535, 0xFFFFFFFF] s0 (fun u => acked 0 u && decide (u.cond.group = 65535)) = true ∧
    cmdRan .pwrQuery 0x0604 [] s0 (acked 0) = true ∧
    msgMask (cmdK 0x0605 [2, 0, 256]).words 2 = some 2 ∧
    cmdRan .thatchSet 0x0605 [2, 0, 256] s0 (fun u => acked rcPending u && decide ((u.tile tA).act = (s0.tile tA).act.writeThatch 256)) = true ∧
    (∀ w ∈ [105 * 65536 + 100 * 256 + 95, 85 * 65536 + 80 * 256 + 75],
      cmdRan .thermSetLimits 0x0606 [2, 0, BitVec.ofNat 32 w] s0 (fun u => acked 0 u && decide ((u.field 1).pwr.limPark = w / 65536)) = true) := by
  decide +kernel

theorem witness_clock_commands : s0.clkAt 15 0 ≠ none ∧ s0.cond.highest ≤ 15 ∧ s0.clkAt 15 (2 ^ 40) = some (2 ^ 40) ∧ s0.leavingMode = false ∧
    cmdRan .clkSetOp 0x0701 [15, 0, 0] s0 (fun u => acked rcPending u && decide (u.cond.reqOp = 15) && (u.field 55).clk.order.isSome) = true ∧
    cmdRan .clkSetOp 0x0701 [15, 0, 256] s0 (fun u => acked rcPending u && decide (u.cond.heldOrders = [{ kind := 1, op := 15, at_ := 2 ^ 40 }])) = true ∧
    cmdRan .clkSetMode 0x0702 [1, 15, 0, 0] s0 (fun u => acked rcPending u && decide ((u.field 55).clk.order.map (fun o => o.kind) = some 2)) = true ∧
    cmdRan .clkSetMode 0x0702 [0, 15, 0, 0] s0 (fun u => acked rcPending u && decide ((u.field 55).clk.order.map (fun o => o.kind) = some 3)) = true ∧
    cmdRan .clkQuery 0x0703 [] s0 (acked 0) = true ∧
    ran .heldOrderWrite { s0 with cond := { s0.cond with heldOrders := [{ kind := 1, op := 3, at_ := 2 ^ 20 }] } }
      (fun u => decide (u.cond.heldOrders = []) && (u.field 55).clk.order.isSome) = true := by decide +kernel
theorem witness_port_commands : s0.portField 1 = true ∧ s0.portLeaving 1 = false ∧ laneMapOk 0x76543210 = true ∧ laneMapOk 0xFEDCBA98 = true ∧
    cmdRan .portUp 0x0801 [1] s0 (fun u => acked 0 u && decide ((u.port 1).state = 1)) = true ∧
    cmdRan .portDown 0x0802 [1] s0 (acked 0) = true ∧
    cmdRan .portDown 0x0802 [1] (sPort (fun p => { p with state := 4 })) (fun u => acked rcPending u && decide ((u.port 1).state = 0)) = true ∧
    cmdRan .portRetrain 0x0803 [1] (sPort (fun p => { p with state := 4 })) (fun u => acked rcPending u && decide ((u.port 1).state = 5)) = true ∧
    cmdRan .portRetrain 0x0803 [1] s0 (acked rcStateConflict) = true ∧
    cmdRan .portRelay 0x0804 [1, 1] s0 (fun u => acked 0 u && bit (u.port 1).ctrl 30) = true ∧
    cmdRan .portLaneMap 0x0805 [1, 0xFEDCBA98, 1] s0 (fun u => acked 0 u && decide ((u.port 1).fixedMap = some 0xFEDCBA98)) = true ∧
    cmdRan .portLaneMap 0x0805 [1, 0, 0] s0 (acked 0) = true ∧
    cmdRan .portConfig 0x0806 [1, 0xFFFFFFFF, 0x3FFFF] s0 (fun u => acked 0 u && u.boot.programmed && decide ((u.port 1).timeout = 0x3FFFF)) = true ∧
    cmdRan .portForget 0x080A [1] (sPort (fun p => { p with partner := some default })) (fun u => acked 0 u && decide ((u.port 1).partner = none)) = true := by
  decide +kernel
def route7 : List Word := [0xB7C00007, 0, 0, 0]
theorem witness_routes : routeOk 0xB7C00007 0 = true ∧ nbit 0xB7C00007 31 = true ∧ s0.boot.programmed = false ∧
    cmdRan .portQuery 0x0809 [1] s0 (acked 0) = true ∧
    cmdRan .routeSet 0x0807 route7 s0 (fun u => acked 0 u && u.boot.programmed && ((u.port 55).routes.find 7).isSome) = true ∧
    cmdRan .routeClear 0x0808 [7] (sPort (fun p => { p with routes := [(7, route7)] })) (fun u => acked 0 u && ((u.port 1).routes.find 7).isNone) = true ∧
    cmdRan .routeClear 0x0808 [7] s0 (acked rcNotPresent) = true := by decide +kernel

/-- The engine with an image staged. -/
def sStaged (k : Nat) : State := { s0 with flash := { s0.flash with staged := [(k, { ok := true, version := 9, svn := 2 })] } }
theorem witness_firmware :
    cmdRan .fwQuery 0x0901 [] s0 (acked 0) = true ∧
    cmdRan .fwApply 0x0902 [0, 2, 0] (sStaged 3) (fun u => acked rcPending u && decide ((u.field 1).fcVersion = 9)) = true ∧
    cmdRan .fwApply 0x0902 [1, 2, 0] ((sStaged 4).modField 1 (fun fd => { fd with svc := { fd.svc with state := .drained } }))
      (fun u => acked rcPending u && decide ((u.field 1).tileVersion = 9)) = true ∧
    cmdRan .fwApply 0x0902 [2, 0, 0] { sStaged 2 with mb := { s0.mb with standbyReady := true } } (fun u => acked rcPending u && u.cond.handover) = true ∧
    cmdRan .fwApply 0x0902 [0, 2, 0] s0 (acked rcNotPresent) = true := by decide +kernel
theorem witness_map_commands : (s0.field (keepField 0)).running = true ∧
    hostRoom (msgAddr (cmdK 0x0A01 [0, 0x300, 65536]).words 2) (FMap.bytes s0.mesh.map).length = some (0, 0) ∧
    cmdRan .mapGet 0x0A01 [0, 0x300, 65536] s0 (acked rcPending) = true ∧
    hostRoom (msgAddr (cmdK 0x0A02 [672000, 0, 0, 0x300]).words 4) 64 = some (0, 0) ∧
    cmdRan .distGet 0x0A02 [672000, 0, 0, 0x300] s0 (acked rcPending) = true ∧
    cmdRan .mapWait 0x0A03 [5, 1] s0 (acked rcPending) = true ∧
    cmdRan .mapWait 0x0A03 [5, 2] s0 (acked rcBadArgument) = true := by decide +kernel

/-! ## Witnesses: host nodes, Hedgerow and its buses, SPDM -/

def sHost (g : HostNode → HostNode) : State := { s0 with hosts := [(0, g { stage := 4, nextId := 3 })], tiles := s0.tiles ++ [(tileKey (gateTile 0 0), tile0)] }
def inHost (c : Instr) (s : State) (p : HostNode → Bool) : Bool := ran c s (fun u => p (u.host 0))
/-- A keep field's gate tiles are out of service. -/
def sCut : State :=
  { sHost id with tiles := s0.tiles ++ (upto 8).map (fun g => (tileKey (gateTile 0 g), { tile0 with st := .hole })) }
def acc9 : WinAcc := { id := 9, hart := 31, addr := 0x300000000F8, size := 8, since := 0 }
def acc9w : WinAcc := { acc9 with data := some [1, 2, 3, 4, 5, 6, 7, 8] }
def addrA : Nat := 5 * 2 ^ 30 + 110 * 2 ^ 20 + 0xFFFF8
theorem witness_window_accesses : (sHost id).hartRuns 0 31 = true ∧ addrA < 2 ^ 44 ∧ (sHost id).cutOffKeep 0 = false ∧ sCut.cutOffKeep 0 = true ∧
    winTrap addrA 8 .scalar = none ∧ winTrap (addrA + 4) 8 .scalar = some 2 ∧ winTrap addrA 8 .amo = some 1 ∧ winTrap (2 ^ 40) 8 .scalar = some 1 ∧
    winTarget addrA = (.tile tA, 0xFFFF8) ∧ oneAccess 8 false .scalar = true ∧ oneAccess 64 true .vector = true ∧
    inHost (.waferWindowLoad 0 31 addrA 8 .scalar) (sHost id) (fun h => (h.flight.any (fun a => a.id == 3 && a.hart == 31 && a.addr == addrA))) = true ∧
    inHost (.waferWindowLoad 0 31 (addrA + 4) 8 .scalar) (sHost id) (fun h => decide ((h.hart 31).trap = 2)) = true ∧
    inHost (.waferWindowLoad 0 31 addrA 8 .scalar) sCut (fun h => decide ((h.hart 31).load = List.replicate 8 255 ∧ h.winErr = 1)) = true ∧
    inHost (.waferWindowStore 0 31 (addrA - 56) (List.replicate 64 7) .vector) (sHost id) (fun h => (h.flight.any (fun a => a.isWrite && a.hart == 31))) = true ∧
    inHost (.waferWindowStore 0 31 addrA [1] .amo) (sHost id) (fun h => decide ((h.hart 31).trap = 1)) = true ∧
    inHost (.waferWindowTimeout 0 9) (sHost (fun h => { h with flight := [acc9] })) (fun h => h.winValid && decide (h.winStatus = 255 ∧ h.winAddr = acc9.addr ∧ h.flight = [])) = true ∧
    inHost (.waferWindowAnswer 0 9 0 [1, 2]) (sHost (fun h => { h with flight := [acc9] })) (fun h => decide ((h.hart 31).load = [1, 2] ∧ h.flight = [])) = true ∧
    inHost (.hartFenceIo 0 31) (sHost (fun h => { h with flight := [acc9w] })) (fun h => decide ((h.hart 31).held = [.fence])) = true ∧
    inHost (.hartFenceIo 0 31) (sHost (fun h => { h with flight := [acc9] })) (fun h => decide ((h.hart 31).held = [])) = true := by decide +kernel
def fwdMsg : List Word := (cmdK 0x0107 []).words
theorem witness_hosts : (sHost id).nodeOn 0 = true ∧ freqInForce 9 = freqInForce 10 ∧
    inHost (.timerInterrupt 0 31 true) (sHost id) (fun h => (h.hart 31).mtip) = true ∧ inHost (.timerInterrupt 0 0 false) (sHost id) (fun h => (h.hart 0).stip) = true ∧
    inHost (.softwareInterruptWrite 0 true 31 true) (sHost id) (fun h => (h.hart 31).msip) = true ∧
    inHost (.hostClkWrite 0 true 0xFFFFFFEA) (sHost id) (fun h => decide (h.freq = 10 ∧ h.stallTo = 1000500)) = true ∧
    ran (.hostClkWrite 0 false 10) (sHost id) (fun u => decide (u = sHost id)) = true ∧
    (sHost id).hedge.forwards (msgCode fwdMsg) = true ∧
    ran (.sbiSecureForward 0 1 fwdMsg) (sHost id) (fun u => (u.chan 41).full && decide ((u.chan 41).msg.getD 0 0 = fwdMsg.getD 0 0)) = true ∧
    inHost (.sbiSecureForward 0 1 fwdMsg) { sHost id with hedge := { s0.hedge with cfg := { forward := some [] } } } (fun h => decide (h.sbi = some rcNotPermitted)) = true ∧
    inHost (.sbiSystemReset 0) (sHost id) (fun h => decide (h.stage = 1 ∧ h.bootAt = s0.time)) = true ∧
    inHost (.nodeBoot 0 true) (sHost (fun h => { h with stage := 3 })) (fun h => decide (h.stage = 4)) = true ∧
    inHost (.nodeBoot 0 true) (sHost (fun h => { h with stage := 15, attempts := 2 })) (fun h => decide (h.stage = 15)) = true ∧
    inHost (.hostBootTimeout 0) { sHost (fun h => { h with stage := 3 }) with time := 50000000 } (fun h => decide (h.stage = 15 ∧ h.code = 2)) = true := by decide +kernel

/-- A port of node 0 whose transmit ring 7 and receive ring 15 have descriptors at 0x1000 of local memory: buffer at 0x80002000, 64 bytes, the last fragment. -/
def desc0 : List Byte := natLe 8 0x80002000 ++ natLe 2 64 ++ [2, 0, 0, 0, 0, 0]
def ethP : EthPort :=
  { enable := true, link := true, mode := 1, rings := [(7, { base := 0x80001000, enable := true, tail := 1 }), (15, { base := 0x80001000, enable := true, tail := 1 })] }
def sEth : State := sHost (fun h => { h with eth := [(1, ethP)], mem := Memory.writeN [] desc0 0x1000 })
theorem witness_ethernet : ((sEth.host 0).port 1).maxFrame = 1518 ∧ (((sEth.host 0).port 1).ring 7).descAt 0 = some 0x1000 ∧
    (sEth.host 0).desc 0x1000 = { addr := 0x80002000, length := 64, last := true, prio := 0 } ∧ localMem 0x80002000 64 = some 0x2000 ∧ (sEth.host 0).badIn 0x2000 64 = none ∧
    inHost (.ethRingTailWrite 0 1 true 7 65535) (sHost id) (fun h => decide (((h.port 1).ring 7).tail = 65535)) = true ∧
    inHost (.ethRingTailWrite 0 1 false 7 65535) (sHost id) (fun h => decide (((h.port 1).ring 15).tail = 65535)) = true ∧
    inHost (.ethDescriptorDone 0 1 7) sEth (fun h => decide (((h.port 1).ring 7).head = 1 ∧ (h.port 1).sent = [List.replicate 64 0])) = true ∧
    pauseOp (List.replicate 64 5) = none ∧ ((sEth.host 0).plan (((sEth.host 0).port 1).ring 15) 64 0 (List.replicate 64 5)).isSome = true ∧
    inHost (.ethFrameReceive 0 1 (List.replicate 64 5) 0 7) sEth (fun h => decide (((h.port 1).ring 15).head = 1)) = true ∧
    inHost (.ethFrameReceive 0 1 (List.replicate 64 5) 0 6) sEth (fun h => decide ((h.port 1).rxDrop = 1)) = true ∧
    inHost (.ethLinkChange 0 1 true 2) sEth (fun h => decide ((h.port 1).mode = 2)) = true ∧ inHost (.ethLinkChange 0 1 false 2) sEth (fun h => !(h.port 1).link) = true := by
  decide +kernel
/-- The node came out of reset 100 ms ago. -/
def sPcie (g : HostNode → HostNode) : State := { sHost g with time := 2500000 }
theorem witness_devices : (sPcie id).perst 0 = false ∧ ran (.pcieDeviceWrite 0 0x17FFFFFFF [9]) { sPcie id with time := 2499999 } (fun u => decide (u.hosts = (sPcie id).hosts)) = true ∧
    localMem 0x17FFFFFFF 1 = some 0xFFFFFFFF ∧ localMem 0x180000000 1 = none ∧
    inHost (.pcieDeviceWrite 0 0x17FFFFFFF [9]) (sPcie id) (fun h => decide (Memory.readN h.mem 1 0xFFFFFFFF = [9])) = true ∧
    inHost (.pcieDeviceWrite 0 0x180000000 [9]) (sPcie id) (fun h => decide (h.aer = aerUnsupported)) = true ∧
    inHost (.pcieDeviceRead 0 0x80000000 2) (sPcie id) (fun h => decide (h.dma = .data [0, 0])) = true ∧
    inHost (.pcieDeviceRead 0 0x80000000 2) (sPcie (fun h => { h with bad := [0] })) (fun h => decide (h.dma = .poisoned)) = true ∧
    inHost (.pcieDeviceRead 0 0 2) (sPcie id) (fun h => decide (h.dma = .unsupported)) = true ∧
    inHost (.registerWrite (.hostCtl 0) (.host true) 0x10 0x80000005) (sHost id) (fun h => h.winFault && decide (h.winTimeout = 5)) = true ∧
    ran (.registerWrite (.hostCtl 0) (.host false) 0x10 5) (sHost id) (fun u => decide (u = sHost id)) = true ∧
    inHost (.registerWrite (.eth 0 1) (.host true) 0 0x80000000) (sHost id) (fun h => (h.port 1).enable) = true ∧
    inHost (.registerWrite (.aclint 0) (.host true) 124 1) (sHost id) (fun h => (h.hart 31).msip) = true ∧
    ran (.registerWrite (.fc 1) .conductor 0x8015 1) s0 (fun u => decide (u = s0)) = true ∧
    ran (.registerWrite (.tile tA) .core 0x11C 256) s0 (fun u => decide ((u.tile tA).act = (s0.tile tA).act.writeThatch 256)) = true ∧
    ran (.registerWrite (.fc 1) .conductor 0x8014 1) s0 (fun u => decide ((u.field 1).clk.low = 7)) = true ∧ mayAccess 4 true 63 = true ∧
    ran (.registerWrite (.mailbox 4 true) (.host true) (128 * 63 + 60) 7) s0 (fun u => decide ((u.chan 63).msg.getD 15 0 = 7)) = true := by decide +kernel

/-- The engine with Hedgerow changed. -/
def sH (g : Hedge → Hedge) : State := { s0 with hedge := g s0.hedge, time := 100000000000 }
def onH (c : Instr) (s : State) (p : Hedge → Bool) : Bool := ran c s (fun u => p u.hedge)
def sframe0 : SensorFrame := { thermal := 4000 :: List.replicate 11 100, volts := [], margin := [] }
def ev0 : Ev := ⟨0x0C02, 5, 1, []⟩
theorem witness_hedgerow :
    ran (.hedgerowRestart .watchdog [1]) s0 (fun u => !u.hedge.up && decide (u.hedge.sessions = [] ∧ u.time = s0.time)) = true ∧
    onH .sidebandModeTry (sH id) (fun h => decide (h.sideMode = 1)) = true ∧ onH (.sidebandLink 1 true) s0 (fun h => h.sideLink) = true ∧
    onH (.sidebandLink 2 false) (sH (fun h => { h with sideLink := true })) (fun h => !h.sideLink) = true ∧ thermalOk 4000 = false ∧ thermalOk 100 = true ∧
    onH (.hedgerowFieldPoll 55 sframe0) s0 (fun h => (h.sensors.getD (sensorKey 55 0) {}).failed && !(h.sensors.getD (sensorKey 55 1) {}).failed) = true ∧
    ran .scarabFlush { sH id with scarab := { ram := [⟨ev0, 0⟩] } } (fun u => decide (u.scarab.ram = [] ∧ u.scarab.region = [⟨ev0, 0⟩])) = true ∧
    ran .scarabHoldingDrain { sH id with scarabQ := [(1, [ev0])] } (fun u => decide (u.scarabQ = [] ∧ u.scarab.holding = [ev0])) = true ∧
    ran (.timeAnchor 77) (sH id) (fun u => decide (u.utcNow = 77 ∧ u.hedge.anchorAt = u.hedgeNow)) = true ∧
    ran (.profileAgeUpdate 1) s0 (fun u => decide ((u.field 1).svc.age = 1)) = true := by decide +kernel
def sBus (g : Hedge → Hedge) : State := sH (fun h => g { h with i3c := some 8 })
theorem witness_buses :
    onH (.i3cEntdaa 8) (sH (fun h => { h with slot := .waiting 5 })) (fun h => decide (h.i3c = some 8 ∧ h.slot = .asked 100000000000)) = true ∧
    onH .i3cPrivateRead (sBus (fun h => { h with mctp := [[1], [2]] })) (fun h => decide (h.i3cRead = some [1] ∧ h.mctp = [[2]])) = true ∧
    onH .i3cPrivateRead (sBus id) (fun h => decide (h.i3cRead = none)) = true ∧
    onH (.setEndpointId 254) (sBus id) (fun h => decide (h.eid = 254 ∧ h.mctp = [[0, 1, 0, 0, 254, 0]])) = true ∧
    onH (.setEndpointId 255) (sBus id) (fun h => decide (h.eid = 0 ∧ h.mctp = [[0, 1, 2]])) = true ∧
    onH .getEndpointId (sBus id) (fun h => decide (h.mctp = [[0, 2, 0, 0, 0, 0]])) = true ∧
    onH .getMessageTypeSupport (sBus id) (fun h => decide (h.mctp = [[0, 5, 0, 2, 5, 127]])) = true ∧
    onH .slotCheckTimeout (sBus (fun h => { h with slot := .asked 5 })) (fun h => decide (h.slot = .settled)) = true ∧
    onH .slotCheckTimeout (sBus (fun h => { h with slot := .waiting 5 })) (fun h => decide (h.slot = .waiting 5)) = true ∧
    (sBus (fun h => { h with slot := .asked 99999999999 })).hedgeNow < 99999999999 + 25000000 ∧
    onH .slotSetAnswer (sBus id) (fun h => h.slotStored) = true := by decide +kernel

def req0 : SpdmReq := { transport := 1, requester := 8, version := 0x13, algs := 3, slot := 0, block := 10, offset := 0, length := 64, signed := false }
def sSpdm (n : Nat) : State := { s0 with hedge := { s0.hedge with spdm := [(spdmKey req0, n)] } }
def replies (c : Instr) (s : State) (a : SpdmAns) : Bool := ran c s (fun u => u.hedge.spdmOut == some a)
theorem witness_spdm : spdmKey req0 = 17 ∧
    replies (.getVersion req0) s0 .version = true ∧
    replies (.getVersion req0) { s0 with hedge := { s0.hedge with spdm := [(1, 1), (2, 1), (3, 1), (4, 1)] } } (.error 3) = true ∧
    replies (.getDigests req0) s0 (.error 4) = true ∧ replies (.getDigests req0) (sSpdm 2) (.error 4) = true ∧
    replies (.challenge { req0 with version := 0x12 }) (sSpdm 3) (.error 0x41) = true ∧
    replies (.getCapabilities req0) (sSpdm 1) .capabilities = true ∧ replies (.negotiateAlgorithms req0) (sSpdm 2) (.algorithms 3) = true ∧
    replies (.negotiateAlgorithms { req0 with algs := 4 }) (sSpdm 2) (.error 1) = true ∧
    replies (.getCertificate { req0 with slot := 1 }) (sSpdm 3) (.error 1) = true ∧ replies (.challenge { req0 with slot := 7 }) (sSpdm 3) (.error 1) = true ∧
    replies (.getMeasurements { req0 with block := 0 }) (sSpdm 3) (.measurements [(0, [10])] []) = true ∧
    replies (.getMeasurements { req0 with block := 11 }) (sSpdm 3) (.error 1) = true := by decide +kernel

/-! ## Witnesses: Redfish, updates and the statements about every command -/

/-- Hedgerow with an account of a role, whose session 4 is live. -/
def sUser (role : Nat) (g : Hedge → Hedge := id) : State :=
  sH (fun h => g { h with accounts := [{ name := 1, role := role, password := 6 }], sessions := [⟨4, 1, 99999999999⟩], nextSession := 5 })
def http (c : Instr) (s : State) (n : Nat) : Bool := ran c s (fun u => u.hedge.http == n)
def sStop (s : State) : State := { s with chassis := { s.chassis with shutdown := some 3 } }
theorem witness_redfish : (sUser 1).hedge.who 4 100000000000 = some { name := 1, role := 1, password := 6 } ∧ (sUser 1).hedge.who 3 100000000000 = none ∧
    http (.chassisOn 3) (sUser 1) 401 = true ∧ http (.chassisOn 4) (sUser 0) 403 = true ∧ http (.managerReset 4) (sUser 1) 403 = true ∧
    (((sUser 1).chan 56).full = false ∧ ((sUser 1).chan 56).buf = none) ∧ ran (.chassisForceRestart 4) (sUser 1) (fun u => (upto 64).any (fun c => decide (56 ≤ c) && (u.chan c).full && (u.chan c).msg.getD 0 0 == 0x0103)) = true ∧
    http (.chassisForceRestart 4) { sUser 1 with mb := { s0.mb with chans := (upto 64).map (fun c => (c, { full := true })) } } 503 = true ∧
    ran (.chassisPowerCycle 4) (sUser 1) (fun u => !u.chassis.board && u.chassis.restartAt.isSome) = true ∧
    ran (.chassisForceOff 4) (sUser 1) (fun u => !u.chassis.board && u.chassis.heldOff) = true ∧ http (.chassisForceOff 4) (sStop (sUser 1)) 409 = true ∧
    ran (.chassisOn 4) { sUser 1 with chassis := { s0.chassis with heldOff := true } } (fun u => !u.chassis.heldOff && decide (u.tiles = s0.tiles)) = true ∧
    (sUser 1).regionsOk = true ∧ ran (.chassisOn 4) { sUser 1 with chassis := { s0.chassis with board := false } } colds = true ∧
    ran (.indicatorLedSet 4 true) (sUser 1) (fun u => u.hedge.led) = true ∧ ran (.datetimeSet 4 99) (sUser 1) (fun u => u.utcNow == 99) = true ∧
    ran (.fieldSnapshot 4 55) (sUser 1) (fun u => u.hedge.snaps.length ≤ 8) = true ∧ http (.fieldSnapshot 4 56) (sUser 1) 404 = true ∧
    http (.redfishGet 4 .powerLimit) (sUser 0) 200 = true ∧ http (.redfishGet 4 .other) (sUser 0) 404 = true := by decide +kernel
theorem witness_admin :
    (∀ w ∈ [10000, 42000], ran (.powerLimitSet 4 w) (sUser 2) (fun u => u.hedge.http == 200 && (upto 64).any (fun c => decide (56 ≤ c) && (u.chan c).msg.getD 2 0 == BitVec.ofNat 32 w)) = true) ∧
    http (.powerLimitSet 4 9999) (sUser 2) 400 = true ∧ http (.powerLimitSet 4 42001) (sUser 2) 400 = true ∧
    ran (.managerReset 4) (sUser 2) (fun u => u.hedge.up && decide (u.hedge.sessions = [])) = true ∧
    ran (.resetToDefaults 4) (sUser 2) (fun u => u.waferId == 65535 && decide (u.hedge.sessions = [])) = true ∧
    onH (.accountChange 4 (.create 2 2 (256 ^ 12))) (sUser 2) (fun h => h.accounts.length == 2) = true ∧
    onH (.accountChange 4 (.remove 1)) (sUser 2) (fun h => decide (h.accounts = [] ∧ h.sessions = [])) = true ∧
    onH (.accountChange 4 (.modify 1 2 (256 ^ 12))) (sUser 2) (fun h => decide ((h.accounts.map Account.password) = [256 ^ 12])) = true ∧
    onH (.configSet 4 (.silenceReset false)) (sUser 2) (fun h => !h.cfg.silenceReset) = true ∧
    ran (.configSet 4 (.rateLimit 0x0C02 4096 4096)) (sUser 2) (fun u => decide (u.scarab.rate 0x0C02 = (4096, 4096))) = true ∧
    http (.configSet 4 (.rateLimit 0x0C02 4097 1)) (sUser 2) 400 = true ∧ http (.configSet 4 (.rateLimit 0x0C02 1 0)) (sUser 2) 400 = true ∧
    onH (.ownerKeyInstall 4 false (some 3) false) (sUser 2) (fun h => decide (h.ownerRoot = some 3)) = true ∧
    http (.ownerKeyInstall 4 true none false) (sUser 2 (fun h => { h with ownerImage := some 3 })) 403 = true ∧
    ran (.clearLog 4 1) { sUser 2 with scarab := { region := [⟨ev0, 0⟩] } } (fun u => decide (u.scarab.region = [] ∧ u.scarab.clears = 1)) = true ∧
    http (.clearLog 4 2) { sUser 2 with scarab := { region := [⟨ev0, 0⟩] } } 409 = true := by decide +kernel

def push (kind : Nat) : ImagePush :=
  { kind := kind, version := 9, svn := 2, length := 4096, key := 0, digest := 4, headerOk := true, exelornSigOk := true, ownerSigOk := true, tableOk := true, badBlock := none }
def acct (fails : Nat) (locked : Option Nat) : State :=
  sH (fun h => { h with accounts := [{ name := 1, role := 2, password := 6, fails := fails, locked := locked }] })
def full32 : State := { acct 0 none with hedge := { (acct 0 none).hedge with sessions := (upto 32).map (fun i => ⟨i, 1, 99999999999⟩) } }
def badRegion (k : Nat) (s : State) : State := { s with flash := { s.flash with regions := [(k, { ok := false })] } }
def sUpd (k : Nat) : State := { sUser 2 with flash := { s0.flash with staged := [(k, { ok := true, version := 9, svn := 2 })] } }
theorem witness_logins :
    http (.sessionLogin 1 6) (acct 0 none) 201 = true ∧ http (.sessionLogin 1 6) full32 503 = true ∧
    onH (.sessionLogin 1 7) (acct 3 none) (fun h => h.http == 401 && decide (h.accounts.map Account.fails = [4])) = true ∧
    onH (.sessionLogin 1 7) (acct 4 none) (fun h => h.accounts.all (fun a => a.locked.isSome)) = true ∧ http (.sessionLogin 2 6) (acct 0 none) 401 = true ∧
    onH (.sessionIdleExpiry 4) (sUser 2 (fun h => { h with sessions := [⟨4, 1, 0⟩] })) (fun h => decide (h.sessions = [])) = true ∧
    onH (.accountLockExpiry 1) (acct 0 (some 5)) (fun h => h.accounts.all (fun a => a.locked.isNone)) = true ∧
    ran (.regionRepair 0 6 .staged) (badRegion 6 (sUpd 6)) (fun u => (u.flash.regions.getD 6 {}).ok) = true ∧
    http (.updateApply 4 5) (sUpd 6) 409 = true ∧
    onH (.updateApply 4 6) (sUpd 6) (fun h => decide (h.tasks = [1])) = true ∧
    ran (.updateApply 4 4) (sUpd 4) (fun u => (upto 64).any (fun c => decide (56 ≤ c) && (u.chan c).full && (u.chan c).msg.getD 2 0 == 1)) = true ∧
    ran (.updateApply 4 1) (sUpd 1) (fun u => u.hedge.up && decide ((u.flash.regions.getD 1 {}).version = 9)) = true ∧
    onH (.recoveryLoader none) (sH (fun h => { h with recovering := true })) (fun h => h.retryAt.isSome && h.recovering) = true ∧
    onH (.recoveryLoader (some (push 2))) (sH (fun h => { h with recovering := true })) (fun h => h.retryAt.isSome) = true ∧
    onH .recoveryRetry (sH (fun h => { h with recovering := true, retryAt := some 5 })) (fun h => h.retryAt.isNone) = true ∧
    (sUser 2).imageBad { push 6 with headerOk := false } = some (1, 0) ∧
    onH (.firmwarePush 4 { push 6 with headerOk := false }) (sUser 2) (fun h => h.http == 202 && decide (h.tasks = [2])) = true := by decide +kernel
/-- An image passes where the engine's key is intact, which the model leaves open. -/
theorem witness_good_image (h : Config.keyIntact 0 = true) : (sUser 2).imageBad (push 6) = none := by
  unfold State.imageBad; rw [show (push 6).key = 0 from rfl, h]; decide +kernel

theorem witness_limits : s0.Limits :=
  ⟨by decide, by decide, by decide, fun _ => (by decide : (1 : Nat) ≤ 2), fun _ => (by decide : (0 : Nat) ≤ 6), by decide, by decide, by decide, by decide, by decide, by decide⟩
theorem witness_recorder : s0.RecorderFits := ⟨fun _ => (by decide : (0 : Nat) ≤ 256), by decide, by decide, by decide⟩
theorem witness_memory_form : sByte.MemoryForm := by
  refine ⟨fun t => ?_, fun _ => (rfl : Memory.wf [] = true)⟩
  by_cases h : tileKey t = tileKey tA
  · rw [State.tile, h]; decide
  · simp [State.tile, sByte, sR, sT, State.modTile, State.setTile, s0, Tab.put, Tab.getD, Tab.find, Ne.symm h]; decide
theorem witness_step : ({ s0 with pending := [.ecall tA] } : State).pending = .ecall tA :: [] ∧ s0.pending = [] := by decide
theorem witness_kept : (∃ u, exec (.coreLoad tA ⟨4, true, 1, 1, 0, 4⟩) s0 = .next u) ∧ (∃ u, exec (.linkIdleAck 1) s0 = .next u) ∧ (∃ u, exec (.sysPing 1) s0 = .next u) ∧
    (∃ u, exec .health s0 = .next u) := ⟨⟨_, rfl⟩, ⟨_, rfl⟩, ⟨_, rfl⟩, ⟨_, rfl⟩⟩

theorem witness_condition_first : ((sStall .sfence .cond 3 1).tile tA).present = true ∧ (sStall .sfence .cond 3 1).clocked tA = true ∧
    (((sStall .sfence .cond 3 1).streamMet tA .core).tile tA).core.stall = none ∧
    (((s0.streamMet tA (.engine 0)).tile tA).engine 0).running = none ∧ (((s0.streamMet tA (.engine 0)).tile tA).engine 0).headSince = none ∧
    ((s0.streamMet tA (.engine 8)).tile tA).forage.out.find 0 = none ∧ ((s0.streamMet tA .fire).tile tA).fold.held = [] := by decide +kernel

theorem witness_slot_bounds : (((sR ref17 0 withH).tile tA).handle 1).valid = true ∧ bits ref17 21 6 < hand1.length ∧ bits ref17 31 22 < 2 ^ (5 + hand1.slotSize) / 4 ∧
    Issues (sR (1 + 8 * 0x400000) 0 withH) tA .ldt x1 ∧ 2 ^ (5 + hand1.slotSize) / 4 ≤ bits (1 + 8 * 0x400000 : Word) 31 22 ∧
    after (.ldt tA x1) (sR (1 + 8 * 0x400000) 0 withH) (fun t => t.core.halted && decide (t.fault.code = fcBadArgument)) = true ∧
    hand1.length ≤ bits (1 + 64 * 0xFFFF : Word) 21 6 ∧
    after (.stt tA x12) (sR (1 + 64 * 0xFFFF) 0 withH) (fun t => t.core.halted && decide (t.fault.code = fcBadArgument)) = true := by
  unfold Issues; decide +kernel
/-- Queue 4 of kind 2 on handle 2 with the staging handle 3. -/
def queueC : RQueue := { queue4 with cfg := word [(2, 16), (2, 29), (3, 8), (1, 31)] }
theorem witness_handles_in_use : ((sT withQ).tile tA).inUse 2 = true ∧ queue4.handle = 2 ∧ imageOk 0x400 16 = true ∧ Issues (sR 2 0x400 withQ) tA .hset x12 ∧
    after (.hset tA x12) (sR 2 0x400 withQ) (done stBusy 0) = true ∧ Issues (sR 2 0 withQ) tA .hclr x1 ∧
    after (.hclr tA x1) (sR 2 0 withQ) (done stBusy 0) = true ∧
    queueC.kind = 2 ∧ queueC.staging = 3 ∧ after (.hclr tA x1) (sR 3 0 (fun t => { withQ t with q := { t.q with queues := [(4, queueC)] }, handles := (3, hand1) :: (withQ t).handles })) (done stBusy 0) = true := by unfold Issues; decide +kernel

/-- Input power stands and the board is off. -/
def sReady : State := { s0 with chassis := { input := true, pwrEn := true, stbyGood := true } }
theorem witness_reset_cells : Startable sReady ∧ sReady.chassis.board = false ∧ sReady.chassis.restartAt = none ∧ sReady.chassis.resetHeld = false ∧
    ran .powerEnable { sReady with fields := waiting0.fields } (fun u => decide (u.boot.kind = 1 ∧ (u.field 1).sync.waiters = [])) = true ∧
    waiting0.boot.kind = 0 ∧
    ran .warmResetInjectionStop { sWarm 2 999744 with fields := waiting0.fields } (fun u => decide (u.boot.step = 4 ∧ (u.field 1).sync.waiters = [])) = true ∧
    ran .standbyRebuildDone waiting0 (fun u => decide ((u.field 1).sync = (waiting0.field 1).sync)) = true := by unfold Startable; decide +kernel
theorem witness_images_verified : State.reset.chassis.input = false ∧ within 40000 72000 40000 = true ∧ within 40000 72000 72000 = true ∧
    ran (.inputPowerApplied 40000 [5]) State.reset (fun u => !(u.flash.regions.getD 5 {}).ok && (u.flash.regions.getD 6 {}).ok && u.hedge.up) = true ∧
    ran (.inputPowerApplied 72000 [1]) State.reset (fun u => !u.hedge.up) = true ∧
    ran (.hedgerowRestart .commit [1]) s0 (fun u => !u.hedge.up) = true ∧ ran .powerEnable sReady (fun u => u.chassis.board && u.hedge.up && u.regionsOk) = true := by
  decide +kernel

/-! ## Witnesses of further clauses: the core's instructions -/

def lsW : LsArgs := { size := 4, unsigned := false, reg := 3, rs1 := 1, imm := 0, ilen := 4 }
def lsW2 : LsArgs := { lsW with reg := 2 }
def lsB2 : LsArgs := { lsB with reg := 2 }
theorem witness_base_registers : (sR 0xF0020 0x80000007).coreReady tA = true ∧ inRegs ((sR 0xF0020 0x80000007).lsAddr tA lsW).toNat 4 = true ∧
    after (.coreLoad tA lsW) (sR 0xF0020 0) (fun t => decide (t.reg 3 = 0x8003D090 ∧ t.core.pc = 0x1004)) = true ∧
    after (.coreLoad tA lsB) (sR 0xF0020 0) (fun t => decide (t.reg 3 = 0 ∧ t.core.pc = 0x1004)) = true ∧
    after (.coreStore tA lsW2) (sR 0xF0020 0x80000007) (fun t => decide (t.wdogLimit = 7 ∧ t.wdogEn = true ∧ t.core.pc = 0x1004)) = true ∧
    after (.coreStore tA lsB2) (sR 0xF0020 7) (fun t => decide (t.wdogLimit = 250000 ∧ t.core.pc = 0x1004)) = true := by decide +kernel
/-- The core halted with this code and detail words. -/
def halted (c : Nat) (i0 i1 : Word) (t : Tile) : Bool := decide (t.core.halted = true ∧ t.fault.code = c ∧ t.fault.info0 = i0 ∧ t.fault.info1 = i1)
theorem witness_base_faults : ((sR 0x81 0).lsAddr tA lsW).toNat % 4 ≠ 0 ∧ after (.coreLoad tA lsW) (sR 0x81 0) (halted 0x0301 0x81 4) = true ∧
    after (.coreStore tA lsW2) (sR 0x82 0) (halted 0x0301 0x82 4) = true ∧
    mapped 0x80000 4 = false ∧ mapped 0xEFFFC 4 = false ∧ mapped 0x100000 4 = false ∧
    after (.coreLoad tA lsW) (sR 0x80000 0) (halted 0x0302 0x80000 0) = true ∧ after (.coreStore tA lsW2) (sR 0xEFFFC 0) (halted 0x0302 0xEFFFC 1) = true ∧
    after (.coreStore tA lsW2) (sR 0x100000 0) (halted 0x0302 0x100000 1) = true ∧
    s0.csr tA 0x300 = none ∧ after (.csrAccess tA 0x300 .rs 3 0) s0 (halted 0x0701 (csrWord 0x300 .rs 3 0) 0) = true ∧
    csrWrites .rs 1 = true ∧ after (.csrAccess tA 0xC01 .rs 3 1) s0 (halted 0x0701 (csrWord 0xC01 .rs 3 1) 0) = true := by decide +kernel

/-- Handle 1 tagged. -/
def handT : Handle := { hand1 with tagMode := 1 }
def withT (full : List Nat) (t : Tile) : Tile := { t with handles := [(1, handT)], mem := { t.mem with cells := [(0x23C, 5)], full := full } }
/-- Queue 4 is OPEN on handle 1. -/
def busy1 (t : Tile) : Tile := { withH t with q := { t.q with queues := [(4, { cfg := word [(1, 16), (1, 31)], state := 1 })] } }
/-- The core stalls in this instruction. -/
def stallsIn (op : XOp) (t : Tile) : Bool := decide (t.core.stall.map Stall.op = some op)
theorem witness_buffer_busy : ((sR 1 0x40 busy1).tile tA).inUse 1 = true ∧ Issues (sR 1 0x40 busy1) tA .hset x12 ∧ Issues (sR 1 0x40 busy1) tA .hclr x1 ∧
    after (.hset tA x12) (sR 1 0x40 busy1) (done stBusy 0) = true ∧ after (.hclr tA x1) (sR 1 0 busy1) (done stBusy 0) = true := by unfold Issues; decide +kernel
theorem witness_buffer_tags : ((sR ref17 9 (withT [17])).tile tA).refWordOk (hrefOf ref17) = true ∧ ((sR ref17 9 (withT [17])).tile tA).slotsFull handT 1 1 = true ∧
    after (.ldt tA x1) (sR ref17 9 (withT [17])) (fun t => decide (t.reg 3 = 5 ∧ t.core.lastStatus = 0)) = true ∧
    after (.stt tA x12) (sR ref17 9 (withT [17])) (stallsIn .stt) = true ∧ ((sR ref17 9 (withT [16])).tile tA).slotsEmpty handT 1 1 = true ∧
    after (.ldt tA x1) (sR ref17 9 (withT [16])) (stallsIn .ldt) = true ∧
    after (.stt tA ⟨3, 1, 2, 1⟩) (sR ref17 9 (withT [])) (fun t => done stOk 0 t && t.slotsFull handT 1 1 && decide (t.get 0x23C 4 = [9, 0, 0, 0])) = true ∧
    after (.tfill tA ⟨3, 1, 2, 0⟩) (sR 1 0x10001 (withT [16, 17])) (fun t => done stOk 0 t && t.slotsEmpty handT 1 1 && t.slotsFull handT 0 1) = true ∧
    after (.tfill tA ⟨3, 1, 2, 1⟩) (sR 1 0x1 (withT [])) (fun t => done stOk 0 t && t.slotsFull handT 1 1 && t.slotsEmpty handT 0 1) = true := by decide +kernel

/-- An engine whose field 1 dock has an injection point in service. -/
def sDockR (a b : Word) : State := { sR a b with tiles := (sR a b).tiles.put (tileKey ⟨148, 59⟩) tile0 }
def sync7 (amount wafer : Nat) : SyncBody := { index := 7, amount := amount, srcGen := 0, srcWafer := wafer }
theorem witness_sync_stalls : ((sR cell5 0).tile tA).cell 5 = {} ∧ ({} : Cell).wait 0 = none ∧ after (.swait tA x1) (sR cell5 0) (stallsIn .swait) = true ∧
    (cellHost 7).1 = 1 ∧ (cellHost 7).2 = 7 ∧ signalAmount (3 : Word) = 3 ∧
    ran (.ssignal tA x12) (sR 7 3) (fun u => stallsIn .ssignal (u.tile tA) && sentIn (.fc 1) (.sync 1 (sync7 3 0)) u) = true ∧
    ran (.ssignal tA ⟨3, 1, 2, 2⟩) (sR 7 3) (fun u => done stOk 0 (u.tile tA) && sentIn (.fc 1) (.sync 2 (sync7 3 0)) u) = true ∧
    ran (.sread tA x1) (sR 7 0) (fun u => stallsIn .sread (u.tile tA) && sentIn (.fc 1) (.sync 3 (sync7 0 0)) u) = true := by decide +kernel
theorem witness_sync_remote : (sDockR 7 0xFFFF0003).ingressEnd tA 0xFFFF = some (.dock 1 0) ∧
    ran (.ssignal tA ⟨3, 1, 2, 1⟩) (sDockR 7 0xFFFF0003) (fun u => stallsIn .ssignal (u.tile tA) && sentIn (.dock 1 0) (.sync 1 (sync7 3 65535)) u) = true ∧
    ran (.ssignal tA ⟨3, 1, 2, 3⟩) (sDockR 7 0xFFFF0003) (fun u => done stOk 0 (u.tile tA) && sentIn (.dock 1 0) (.sync 2 (sync7 3 65535)) u) = true ∧
    (sR 7 0xFFFF0003).ingressEnd tA 0xFFFF = none ∧ after (.ssignal tA ⟨3, 1, 2, 1⟩) (sR 7 0xFFFF0003) (done stPathLost 0) = true := by decide +kernel
def write7 (c : Nat) : WriteRec := { n := 0, tag := 0, re := .xput, cls := c, old := false, posted := true, dst := .tile tB }
def withWrite (c : Nat) (t : Tile) : Tile := { t with sync := { t.sync with writes := [write7 c], nextTag := 1 } }
theorem witness_sync_fence_waits : ((sT (withWrite 1)).tile tA).sync.fenceHolds 2 1 = true ∧ after (.sfence tA ⟨3, 0, 0, 2⟩) (sT (withWrite 1)) (stallsIn .sfence) = true ∧
    ((sT (withWrite 1)).tile tA).sync.fenceHolds 1 1 = false ∧ after (.sfence tA ⟨3, 0, 0, 1⟩) (sT (withWrite 1)) (done stOk 0) = true := by decide +kernel

theorem witness_queue_contexts : firstBelow 16 (fun _ => false) = none ∧
    after (.qopen tA x12) (sR tBref 1 (fun t => { t with q := { t.q with ctxs := (upto 16).map (fun i => (i, { state := 3 })) } })) (done stNoContext 0) = true ∧
    ran (.qclose tA x1) (sR 2 0 (withCtx ctx2)) (fun u => done stOk 0 (u.tile tA) && decide (((u.tile tA).ctx 2).state = 0) &&
      sentIn (.tile tB) (.close 0 { ref := ctx2.ref 2, gen := 0, seq := 0 }) u) = true ∧
    after (.qclose tA x1) (sR 15 0) (done stClosed 0) = true ∧
    after (.qclose tA ⟨3, 1, 0, 1⟩) (sR 4 0 withQ) (fun t => done stOk 0 t && decide ((t.queue 4).state = 2 ∧ (t.queue 4).entries = [])) = true ∧
    after (.qclose tA ⟨3, 1, 0, 1⟩) (sR 7 0 withQ) (done stClosed 0) = true := by decide +kernel
def comb2 : Ctx := { ctx2 with kind := 1, op := 1 }
def withElem (t : Tile) : Tile := { withH t with mem := { t.mem with cells := Memory.writeN [] (wordLe 3 ++ wordLe 9) 0x200 } }
theorem witness_queue_sends : ((sR 2 ref10 (fun t => withElem (withCtx comb2 t))).tile tA).mem.hit 0x200 8 = none ∧ comb2.kind ≠ 0 ∧
    ran (.qsend tA x12) (sR 2 ref10 (fun t => withElem (withCtx comb2 t))) (fun u => done stOk 0 (u.tile tA) && decide (((u.tile tA).ctx 2).credits = 0) &&
      u.mesh.flight.any (fun x => match x.pkt.body with | .combine [k] => k.op == 1 && k.value == 9 | _ => false)) = true ∧
    (∀ st, st = 3 ∨ st = 4 → (sR 2 ref10 (fun t => withH (withCtx { state := st, reason := true } t))).ending tA 2 false = false) ∧
    after (.qsend tA x12) (sR 2 ref10 (fun t => withH (withCtx { state := 3 } t))) (done stClosed 0) = true ∧
    after (.qtrysend tA x12) (sR 2 ref10 (fun t => withH (withCtx { state := 3 } t))) (done stClosed 0) = true ∧
    after (.qsend tA x12) (sR 2 ref10 (fun t => withH (withCtx { state := 4 } t))) (done stPeerLost 0) = true ∧
    after (.qtrysend tA x12) (sR 2 ref10 (fun t => withH (withCtx { state := 4, reason := true } t))) (done stPathLost 0) = true := by
  refine ⟨by decide +kernel, by decide, by decide +kernel, ?_, by decide +kernel, by decide +kernel, by decide +kernel, by decide +kernel⟩
  rintro st (rfl | rfl) <;> decide +kernel

def withEnt (es : List REntry) (t : Tile) : Tile :=
  { withQ t with q := { t.q with queues := [(4, { queue4 with entries := es })], grants := [(0, { from_ := from6, queue := 4, credits := 2, seq := 9 })] } }
theorem witness_queue_ends :
    (∀ c ∈ [Instr.qrecv tA x12, .qtryrecv tA x12],
      ran c (sR 4 ref10 (withEnt [.msg 1 8 from6 true])) (fun u => done stOk (8 + 6 * 2 ^ 13) (u.tile tA) &&
        sentIn (.tile tB) (.credit { ref := { queue := 4, qinc := 0, ctx := 6 }, count := 1, gen := 0 }) u) = true ∧
      after c (sR 4 ref10 (withEnt [.marker from6, .msg 1 8 from6 true])) (fun t => done stPeerLost (6 * 2 ^ 13) t && decide ((t.queue 4).entries.length = 1)) = true ∧
      after c (sR 7 ref10 withQ) (done stClosed 0) = true) ∧
    after (.qrecv tA x12) (sR 4 ref10 (fun t => { withEnt [.msg 1 8 from6 false] t with handles := [(1, handT), (2, { hand1 with base := 32 })] }))
      (fun t => done stOk (8 + 6 * 2 ^ 13) t && t.slotsFull handT 0 1) = true ∧
    after (.qrecv tA x12) (sR 4 ref10 (withEnt [])) (stallsIn .qrecv) = true ∧ after (.qtryrecv tA x12) (sR 4 ref10 (withEnt [])) (done stEmpty 0) = true ∧
    ((sR 0xFF 0 withQ).tile tA).q.rot + 1 = 8 ∧ after (.qselect tA ⟨3, 1, 0, 1⟩) (sR 0xFF 0 withQ) (fun t => done stOk 4 t && decide (t.q.rot = 4)) = true ∧
    after (.qselect tA x1) (sR 0x80 0 withQ) (stallsIn .qselect) = true ∧ after (.qselect tA ⟨3, 1, 0, 2⟩) (sR 0x80 0 withQ) (done stEmpty 0) = true := by decide +kernel

/-! ## Witnesses of further clauses: forage, folds, windows and engines -/

def descBad : List Byte := [9] ++ desc5.tail
def descOff (f3 : Byte) (cn : Byte) : List Byte := [5, 0, 0, f3, 1, 0, 2, cn, 1, 0, 1, 0, 1, 0] ++ List.replicate 18 0
def withImage (bs : List Byte) (t : Tile) : Tile := { with2 t with mem := { t.mem with cells := Memory.writeN [] bs 0x60 } }
def full16 (t : Tile) : Tile := { withDesc t with forage := { t.forage with engines := [(3, { deque := List.replicate 16 unit5 })] } }
theorem witness_forage_refused : ((sR 0x60 3 full16).tile tA).occ 3 = 16 ∧ ((sR 0x60 3 full16).tile tA).dequeFor (descOf desc5) 3 = 3 ∧
    after (.fpush tA ⟨3, 1, 2, 1⟩) (sR 0x60 3 full16) (done stFull 0) = true ∧ after (.fpush tA x12) (sR 0x60 3 full16) (stallsIn .fpush) = true ∧
    after (.fpush tA x12) (sR 0x60 8 (withImage descBad)) (halted 0x0705 (leWord (bytesAt descBad 0 4)) (leWord (bytesAt descBad 8 4))) = true ∧
    after (.fpush tA x12) (sR 0x60 8 (fun t => { withImage desc5 t with handles := [(1, hand1)] })) (halted 0x0303 2 (xword .fpush x12)) = true := by decide +kernel
theorem witness_forage_waits : (sTwo (fun t => { t with forage := { t.forage with radius := 1, domain := 1 } })).victims tA = [tB] ∧
    ran (.fsteal tA x1) (sTwo (fun t => { t with forage := { t.forage with radius := 1, domain := 1 } })) (fun u => stallsIn .fsteal (u.tile tA) && sentIn (.tile tB) (.steal 8 1 0) u) = true ∧
    s0.victims tA = [] ∧ after (.fsteal tA x1) s0 (done stNotFound 0) = true ∧
    ((sT (withQueued 1)).tile tA).outstanding = 1 ∧ after (.fwait tA x1) (sT (withQueued 1)) (stallsIn .fwait) = true ∧
    after (.fwait tA x1) (sR 1 0 (withQueued 1)) (done stOk 0) = true := by decide +kernel

def schedTo (n : Nat) (t : Tile) : Tile := { withSlot t with fold := { (withSlot t).fold with schedLen := n, sched := [(0, (0, 9))] } }
def justSwitched (t : Tile) : Tile := { withSlot t with fold := { (withSlot t).fold with switchedAt := some 1000000, active := 5 } }
def sampling (t : Tile) : Tile := { withH t with fold := { t.fold with profOn := true } }
theorem witness_fold_answers : ((sR 0 1 withSlot).tile tA).epochHolds 0 = true ∧ after (.dload tA x12) (sR 0 1 withSlot) (done stBusy 0) = true ∧
    (((sR 7 0 withSlot).tile tA).slot 7).image = none ∧ after (.dswitch tA x1) (sR 7 0 withSlot) (done stEmpty 0) = true ∧
    after (.dswitch tA ⟨3, 1, 0, 1⟩) (sR 0 0 (schedTo 1)) (fun t => done stOk 0 t && decide (t.fold.schedEn = true ∧ t.fold.active = 0)) = true ∧
    after (.dswitch tA ⟨3, 1, 0, 1⟩) (sR 0 0 (schedTo 0)) (done stEmpty 0) = true ∧ s0.cycles tA = 1000000 ∧
    after (.dswitch tA x1) (sR 7 0 justSwitched) (fun t => done stOk 0 t && decide (t.fold.active = 5)) = true ∧
    after (.dswitch tA ⟨3, 1, 0, 1⟩) (sR 0 0 justSwitched) (fun t => done stOk 0 t && decide (t.fold.active = 5)) = true ∧
    after (.dpurge tA x1) (sR 7 0 withSlot) (done stOk 0) = true ∧ after (.dsample tA x12) (sR 1 16 sampling) (done stBusy 0) = true ∧
    after (.dsample tA x12) (sR 1 16 withH) (fun t => done stOk 0 t && decide (t.fold.profDue = 1065536)) = true ∧
    after (.dsample tA x12) (sR 1 0 sampling) (fun t => done stOk 0 t && !t.fold.profOn) = true := by decide +kernel

theorem witness_window_answers : after (.wopen tA x12) (sR 3 0x40 withWin) (done stBusy 0) = true ∧ after (.wclose tA x1) (sR 2 0 withWin) (done stClosed 0) = true ∧
    ran (.xput tA x12) (sDock 1 0x80) (fun u => stallsIn .xput (u.tile tA) &&
      sentIn (.dock 1 0) (.remoteWrite ((sDock 1 0x80).remoteBody tA (remoteDesc rdesc)) (List.replicate 32 0)) u) = true ∧
    (sR 1 0x80 withR).ingressEnd tA 0xFFFF = none ∧ after (.xput tA x12) (sR 1 0x80 withR) (done stPathLost 0) = true ∧
    after (.xget tA x12) (sR 1 0x80 withR) (done stPathLost 0) = true := by decide +kernel

def onEngine (g : Engine) (t : Tile) : Tile := { with2 t with forage := { t.forage with engines := [(0, g)] } }
def stolen5 : FUnit := { unit5 with home := tB, homeGen := 6, stolen := some (4, { round := 0, sat := true, seed := 0 }) }
/-- Handle 1 tagged, with its slot 0 empty. -/
def tagged1 (t : Tile) : Tile := { t with handles := [(1, handT), (2, { hand1 with base := 32 })] }
/-- Handle 2 tagged, with slot 0 full. -/
def tagged2 (t : Tile) : Tile := { t with handles := [(1, hand1), (2, { handT with base := 32 })], mem := { t.mem with full := [32] } }
theorem witness_unit_starts : ((sT (fun t => { onEngine { deque := [unit5] } t with handles := [(1, hand1)] })).tile tA).handle 2 = {} ∧
    after (.unitStart tA 0) (sT (fun t => { onEngine { deque := [unit5] } t with handles := [(1, hand1)] }))
      (fun t => decide ((t.engine 0).running = none ∧ (t.engine 0).deque = [] ∧ t.fault.valid = true ∧ t.forage.unitFailed = 1)) = true ∧
    ran (.unitStart tA 0) (sT (onEngine { deque := [stolen5] })) (fun u => decide (((u.tile tA).engine 0).running.map RunUnit.unit = some stolen5) &&
      sentIn (.tile tB) (.operandRead { entry := 4, engine := 0, homeGen := 6, which := 0, at_ := 0 }) u) = true ∧
    ((sT (fun t => tagged1 (onEngine { deque := [unit5] } t))).tile tA).unitReady unit5 = false ∧
    after (.unitStart tA 0) (sT (fun t => tagged1 (onEngine { deque := [unit5] } t))) (fun t => decide ((t.engine 0).headSince = some 1000000 ∧ (t.engine 0).deque = [unit5])) = true := by decide +kernel
def combUnit : FUnit := { unit5 with desc := descOff 0x20 0x20, conn := some (tB, 3, 0) }
def held5 : RunUnit := { unit := stolen5, opA := some [0, 0, 0, 0x80] }
theorem witness_unit_retires : ((sT (fun t => tagged2 (onEngine { running := some { unit := unit5 } } t))).tile tA).destReady (descOf desc5) = false ∧
    after (.unitRetire tA 0) (sT (fun t => tagged2 (onEngine { running := some { unit := unit5 } } t)))
      (fun t => decide ((t.engine 0).running.map (fun q => (q.unit, q.stallSince)) = some (unit5, some 1000000))) = true ∧
    (descOf combUnit.desc).combine = true ∧ (descOf combUnit.desc).conn = 2 ∧
    ran (.unitRetire tA 0) (sT (fun t => onEngine { running := some { unit := combUnit } } (withCtx { comb2 with credits := 1 } t)))
      (fun u => decide (((u.tile tA).engine 0).running = none ∧ ((u.tile tA).ctx 2).credits = 0) && u.mesh.flight.any (fun x => match x.pkt.body with | .combine [_] => true | _ => false)) = true ∧
    ran (.unitRetire tA 0) (sT (onEngine { running := some held5 })) (fun u => decide (((u.tile tA).engine 0).running = none) &&
      sentIn (.tile tB) (.result { entry := 4, homeGen := 6, unitId := 7, flags := 0, elems := [], data := [(0, 0), (1, 0), (2, 0), (3, 0x80)], last := true }) u) = true ∧
    after (.unitRetire tA 0) (sT (fun t => { onEngine { running := some { unit := unit5 } } t with mem := { t.mem with ue := [0x200] } }))
      (fun t => decide ((t.engine 0).running = none ∧ t.fault.valid = true ∧ t.forage.unitFailed = 1)) = true := by decide +kernel
def waiting5 : StealOut := { unit := unit5, since := 0, thief := tB, waiting := some { res0 with flags := 1, data := [(0, 1), (1, 2), (2, 3), (3, 4)] } }
theorem witness_unit_lands : after (.unitRetire tA 8) (sT (fun t => { with2 t with forage := { t.forage with out := [(0, waiting5)] } }))
      (fun t => decide (t.forage.out.find 0 = none ∧ t.get 0x400 4 = [1, 2, 3, 4] ∧ t.arith.flags = 1)) = true ∧
    ((sT (withQueued 3)).tile tA).rivals 1000000 0 = [1, 2, 3, 4, 5, 6, 7] ∧ ((sT (withQueued 3)).tile tA).winner 1000000 0 = some 1 ∧
    after (.intraTileSteal tA 1) (sT (withQueued 3)) (fun t => decide (t.occ 0 = 2 ∧ (t.engine 1).deque = [unit5] ∧ (t.engine 0).thief = 2)) = true ∧
    after (.intraTileSteal tA 2) (sT (withQueued 3)) (fun t => decide (t.occ 0 = 3 ∧ t.occ 2 = 0)) = true ∧
    ran (.stealBackoffExpiry tA) (sTwo (fun t => { t with forage := { t.forage with radius := 1, domain := 1, backoffUntil := some 1000000 } }))
      (fun u => decide (((u.tile tA).engine 0).search = some [] ∧ (u.tile tA).forage.backoffUntil = none) && sentIn (.tile tB) (.steal 0 1 0) u) = true := by decide +kernel

def stallCore (k : Stall) (t : Tile) : Tile := { t with core := { t.core with stall := some k } }
def fstealStall : Stall := { op := .fsteal, a := x1, wait := .answer, obj := 0, since := 0 }
/-- The core's search asks, with these candidates left. -/
def coreAsks (rest : List TileId) (t : Tile) : Tile := stallCore fstealStall { with2 t with forage := { t.forage with engines := [(8, { search := some rest, asked := 12 })] } }
theorem witness_steal_answers : coreThief = 8 ∧ ((sT (coreAsks [])).tile tA).askedBy 12 = some 8 ∧ ((sT (coreAsks [])).tile tA).awaiting .fsteal 0 = some fstealStall ∧
    after (.stealReply (hdr 12) (some { unit := unit5, mode := { round := 0, sat := true, seed := 0 }, entry := 4 })) (sT (coreAsks [])) (fun t => done stOk 7 t && decide (t.forage.stealIn = 1)) = true ∧
    after (.stealReply (hdr 12) none) (sT (coreAsks [])) (done stNotFound 0) = true ∧
    ran (.stealReply (hdr 12) none) (sT (coreAsks [tB])) (fun u => sentIn (.tile tB) (.steal 8 0 0) u && decide (((u.tile tA).engine 8).search = some [])) = true ∧
    ran (.steal { hdr 1 with dstGen := 3 } 0 0 0) s0 (sentIn (.tile tB) (.status (.steal 0) stPeerLost)) = true ∧
    ran (.operandRead (hdr 1) { entry := 0, engine := 2, homeGen := 0, which := 0 }) (sT (fun t => { withOut t with mem := { t.mem with ue := [0x200] } }))
      (fun u => u.mesh.flight.any (fun x => match x.pkt.body with | .reply (.operand 2 0 0x200) st _ => st == stDataError | _ => false)) = true ∧
    ran (.operandRead (hdr 1) { entry := 1, engine := 2, homeGen := 0, which := 0 }) s0 (sentIn (.tile tB) (.reply (.operand 2 0 0) stPeerLost [])) = true ∧
    ran (.result (hdr 1) { res0 with last := false, data := [(0, 5)] }) (sT withOut) (fun u => sentIn (.tile tB) (.status (.result 0) stOk) u &&
      decide (((u.tile tA).forage.out.find 0).map (fun x => (x.waiting.isNone, x.got.isSome)) = some (true, true))) = true ∧
    ran (.stealFailureNotice (hdr 1) 0 0 7) s0 (sentIn (.tile tB) (.status (.result 0) stClosed)) = true ∧
    ran (.stealFailureNotice (hdr 1) 0 5 7) s0 (sentIn (.tile tB) (.status (.result 0) stPeerLost)) = true := by decide +kernel

/-! ## Witnesses of further clauses: power inputs, orders and cells -/

theorem witness_more_inputs : ran .stbyGoodFall sBooting unpowered = true ∧ ran .stbyGoodFall s0 (fun u => unpowered u && u.scarab.ram.isEmpty) = true ∧
    ran .pwrEnFall sMute (fun u => u.chassis.board && decide (u.chassis.shutdown = some 1000000)) = true ∧
    (sOff id).chassis.board = false ∧ ran .standbyInputLoss (sOff id) (fun u => decide (u.chassis.input = false ∧ u.hedge.up = false)) = true := by decide +kernel

def withUe (w : Nat) (t : Tile) : Tile := { t with mem := { t.mem with ue := [w] } }
def sAdm : State := sT (fun t => { t with fold := { t.fold with armed := some (.slot 1, 5) } })
theorem witness_vc0_refused :
    ran (.ctrlWrite hdrC 0x201 [1]) (sT (withUe 0x200)) (fun u => decide (u.tile tA = (sT (withUe 0x200)).tile tA) && sentIn .conductor (.ctrlReply 4 stDataError []) u) = true ∧
    inMem 0x80000 4 = false ∧ inRegs 0x80000 4 = false ∧ ran (.ctrlWrite hdrC 0x80000 [1, 0, 0, 0]) s0 (fun u => decide (u.tile tA = s0.tile tA) && sentIn .conductor (.ctrlReply 4 stAddressError []) u) = true ∧
    ran (.ctrlRead hdrC 0x201 1) (sT (withUe 0x200)) (fun u => decide (u.tile tA = (sT (withUe 0x200)).tile tA) && sentIn .conductor (.ctrlReply 4 stDataError [0]) u) = true ∧
    ran (.ctrlOrderAdmit hdrC) s0 (fun u => decide (u.tile tA = s0.tile tA) && sentIn .conductor (.ctrlReply 4 stBusy []) u) = true ∧
    ran (.ctrlOrderSwitch hdrC (.slot 3) 1000000) sQuar (fun u => decide (u.tile tA = sQuar.tile tA) && sentIn .conductor (.ctrlReply 4 stBusy []) u) = true ∧
    ran (.ctrlOrderDload hdrC 8 1 false) (sT withImg) (fun u => decide (u.tile tA = (sT withImg).tile tA) && sentIn .conductor (.ctrlReply 4 stRefused []) u) = true ∧
    ran (.ctrlOrderDload hdrC 7 63 false) (sT withImg) (sentIn .conductor (.ctrlReply 4 stRefused [])) = true ∧
    ran (.ctrlOrderSample hdrC 1 16 2000000) (sT sampling) (fun u => decide (u.tile tA = (sT sampling).tile tA) && sentIn .conductor (.ctrlReply 4 stBusy []) u) = true := by decide +kernel
def hdrFc : Hdr := { hdrC with dst := .fc 1 }
theorem witness_vc0_elsewhere : s0.vc0Refusal tA (hdr 4) = some stPeerLost ∧
    ran (.ctrlWrite (hdr 4) 0x200 [1]) s0 (fun u => decide (u.tile tA = s0.tile tA) && sentIn (.tile tB) (.ctrlReply 4 stPeerLost []) u) = true ∧
    ran (.ctrlRead (hdr 4) 0x200 1) s0 (fun u => decide (u.tile tA = s0.tile tA) && sentIn (.tile tB) (.ctrlReply 4 stPeerLost []) u) = true ∧
    ran (.ctrlOrderAdmit (hdr 4)) sQuar (fun u => decide (u.tile tA = sQuar.tile tA) && sentIn (.tile tB) (.ctrlReply 4 stPeerLost []) u) = true ∧
    vc0Source 1 .conductor = true ∧ ran (.ctrlRead hdrFc 0x20000 8) s0 (fun u => decide (u.fields = s0.fields) && sentIn .conductor (.ctrlReply 4 stOk (s0.fcWords 1 0x20000 2)) u) = true ∧
    vc0Source 1 (.tile tB) = false ∧ ran (.ctrlWrite { hdr 4 with dst := .fc 1 } 0x20000 [1, 0, 0, 0]) s0 (fun u => decide (u.fields = s0.fields) && sentIn (.tile tB) (.ctrlReply 4 stPeerLost []) u) = true ∧
    ran (.ctrlReply hdrC 1 stOk []) s0 (fun u => decide (u = s0.took { h := hdrC, body := .ctrlReply 1 stOk [] })) = true := by decide +kernel
theorem witness_raw_refused : s0.rawRefusal tA (hdr 4) = some stPeerLost ∧
    ran (.rawWrite (hdr 4) 0xBFFF [9]) s0 (fun u => decide (u.tiles = s0.tiles) && sentIn (.tile tB) (.status (.raw 4) stPeerLost) u) = true ∧
    ran (.rawRead (hdr 4) 0xBFFF 1) s0 (fun u => decide (u.tiles = s0.tiles) && sentIn (.tile tB) (.reply (.raw 4) stPeerLost []) u) = true ∧
    (s0.tile tA).inService = true ∧ ((sT (fun t => { t with gen := 65535 })).tile tA).inService = true := by decide +kernel

def crowd : List Waiter := List.replicate 2048 waitB
theorem witness_cell_waits : waiterCap 1 = 2048 ∧ ({ type := 2, reached := true } : Cell).wait 5 = some { type := 2, reached := true } ∧
    ran (.syncWait hdrF (body7 0)) (sCell { type := 2, reached := true, value := 1 } [waitB]) (fun u => decide ((u.field 1).cell 7 = { type := 2, reached := true, value := 1 }) &&
      sentIn (.tile tB) (.status (.wait 7) stOk) u) = true ∧
    ran (.syncWait hdrF (body7 0)) (sCell {} crowd) (fun u => decide ((u.field 1).sync.waiters.length = 2048) && sentIn (.tile tB) (.status (.wait 7) stRetry) u) = true := by decide +kernel
def body1024 : SyncBody := { body7 0 with index := 1024 }
theorem witness_cell_refusals : s0.syncRefusal 1 1023 = none ∧ s0.syncRefusal 1 1024 = some stAddressError ∧ ({} : State).syncRefusal 1 7 = some stCellLost ∧
    ran (.syncWait hdrF (body7 0)) { fields := [(1, {})] } (fun u => decide (u.fields = [(1, {})]) && sentIn (.tile tB) (.status (.wait 7) stCellLost) u) = true ∧
    ran (.syncSignal hdrF body1024) s0 (fun u => decide (u.fields = s0.fields) && sentIn (.tile tB) (.status (.signal (cellNumber 1 1024) false) stAddressError) u) = true ∧
    ran (.syncPostedSignal hdrF body1024) s0 (fun u => decide (u.fields = s0.fields) && sentIn (.tile tB) (.status (.signal (cellNumber 1 1024) true) stAddressError) u) = true ∧
    ran (.syncRead hdrF body1024) s0 (sentIn (.tile tB) (.reply (.read (cellNumber 1 1024)) stAddressError [])) = true := by decide +kernel
theorem witness_cell_signals :
    ran (.syncSignal hdrF (body7 5)) (sCell { type := 2, target := 5 } [waitB, { waitB with tag := 10 }]) (fun u => (u.field 1).sync.waiters.isEmpty && ((u.field 1).cell 7).reached &&
      sentIn (.tile tB) (.status (.signal 7 false) stOk) u) = true ∧
    inField (.syncPostedSignal hdrF (body7 0)) (sCell { type := 1, value := 0xFFFFFF } [waitB]) (fun fd => decide ((fd.cell 7).value = 65535) && fd.sync.waiters.isEmpty) = true ∧
    ({ type := 1 } : Cell).takes = false ∧ ({} : Cell).takes = true ∧
    ((sStall .swait .answer (65536 + 5) 0).tile tA).waitsLocal 5 = true ∧ localObj 5 = 65541 ∧
    after (.syncCellWrite tA .core 5 false 3) (sStall .swait .answer (65536 + 5) 0) (fun t => done stOk 0 t && decide ((t.cell 5).value = 2)) = true ∧
    inField (.syncRecWrite 1 1023 (some 0x40000006) (some 9) .hedgerow) s0 (fun fd => decide ((fd.cell 1023).type = 1 ∧ (fd.cell 1023).value = 6 ∧ (fd.cell 1023).target = 9)) = true ∧
    ran (.hedgerowSyncDebug 7 .read) { sCell { value := 3, target := 4 } [] with mb := {} } (fun u => decide (u.hedge.syncReply.take 3 = [0, 3, 4])) = true ∧
    ran (.hedgerowSyncDebug 7 .list) { sCell {} [waitB] with mb := {} } (fun u => decide (u.hedge.syncReply.length = 3)) = true ∧
    ran (.hedgerowSyncDebug 7 (.force none)) { sCell {} [waitB] with mb := {} } (fun u => (u.field 1).sync.waiters.isEmpty && sentIn (.tile tB) (.status (.wait 7) stForced) u) = true := by decide +kernel

/-! ## Witnesses of further clauses: windows, tokens, memory and routing -/

def heldRd : HeldReq := { heldW with data := none }
def sHeldRd : State := sT (fun t => { with2 t with windows := [(3, { openWin with held := [heldRd] })] })
def sFolding (ue : List Nat) : State :=
  sT (fun t => { t with q := { t.q with folds := [(4, 1)], queues := [(4, { openQ with cfg := word [(2, 16), (2, 29), (1, 31)] })] }
                        handles := [(2, { hand1 with base := 32 })], mem := { t.mem with ue := ue } })
theorem witness_serve_more : ran (.windowHeldServe tA 3) sHeldRd (fun u => decide (((u.tile tA).window 3).held = []) && sentIn (.tile tB) (.reply .xget stOk (List.replicate 32 0)) u) = true ∧
    ran (.windowHoldTimeout tA 3) sHeldRd (sentIn (.tile tB) (.reply .xget stStallTimeout [])) = true ∧
    ((sFolding [0x420]).tile tA).foldUe 4 0x420 = some 0x420 ∧
    after (.combineFoldDone tA 4 1) (sFolding [0x420]) (fun t => decide (t.q.folds = [] ∧ t.fault.valid = true ∧ (t.queue 4).doneSlots = [])) = true ∧
    ran (.rqEnable tA .core 4 0) (sT withQ) (fun u => decide (u.tile tA = (sT withQ).tile tA)) = true ∧
    ran (.rqDisable tA .fc 4 0) (sT withQ) (fun u => decide (u.tile tA = (sT withQ).tile tA)) = true := by decide +kernel

theorem witness_token_refused : iterAhead 2 0 = 2 ∧ tokenFits im1 (tok2 2) = true ∧
    ran (.token { hdr 5 with dstGen := 9 } (tok2 0)) (sFold id) (sentIn (.tile tB) (.status (.token (tok2 0)) stPeerLost)) = true ∧
    ran (.token (hdr 5) (tok2 2)) (sFold id) (fun u => decide ((u.tile tA).fold.store = [] ∧ (u.tile tA).fold.refused = 1) && sentIn (.tile tB) (.status (.token (tok2 2)) stRetry) u) = true ∧
    tokenFits im1 { tok2 0 with len := 2 } = false ∧ tokenFits im1 { tok2 0 with port := 1 } = false ∧
    ran (.token (hdr 5) { tok2 0 with port := 1 }) (sFold id) (fun u => decide ((u.tile tA).fold.store = []) && sentIn (.tile tB) (.tokenCredit 6 3) u &&
      sentIn (.tile tB) (.status (.token { tok2 0 with port := 1 }) stRefused) u && decide (u.scarabQ.getD 1 [] = [⟨0x0781, 1000000, 1, [tileDetail tA, tileDetail tB, 3]⟩])) = true ∧
    after (.tokenCredit { hdr 5 with dstGen := 1 } 1 0) (sFold id) (fun t => decide ((t.slot 1).credits = [4])) = true := by decide +kernel
/-- Node 0 as a merge of two inputs. -/
def imMerge : Image :=
  { im1 with nodes := [{ kind := 2, inCount := 2, inFirst := 0, outCount := 1, outFirst := 0, window := 2, actFirst := 0, actCount := 0, start := 0 }]
             ports := [{ handle := 1, count := 1, base := 0, depth := 1, len := 1 }, { handle := 1, count := 1, base := 1, depth := 1, len := 1 }] }
def tokP (p : Nat) (v : Bool) : Tok := { body := { tok2 0 with port := p, void := v, len := if v then 0 else 1 }, slot := some 1, since := 0 }
def sFire (im : Image) (toks : List Tok) : State :=
  sFold (fun f => { f with slots := [(1, { image := some im, nodes := [{}, {}], credits := [4] })], ready := [(1, 0, 0)], store := toks })
def ctx0 (c : Instr) (s : State) (p : FCtx → Bool) : Bool := after c s (fun t => match t.fold.ctxs.find 0 with | some x => p x | none => false)
theorem witness_firing_kinds : ((sFire imMerge [tokP 0 true, tokP 1 false]).tile tA).fireKind imMerge 1 0 0 = .choose 1 ∧
    ctx0 (.firingIssue tA) (sFire imMerge [tokP 0 true, tokP 1 false]) (fun x => decide (x.choose = 1 ∧ x.phase = .emit 0 0)) = true ∧
    ((sFire imMerge [tokP 0 false, tokP 1 false]).tile tA).fireKind imMerge 1 0 0 = .conflict ∧
    after (.firingIssue tA) (sFire imMerge [tokP 0 false, tokP 1 false]) (fun t => decide (t.fault.code = 0x070B ∧ t.fault.unit = 9 ∧ t.fold.ctxs = [])) = true ∧
    ((sFire im1 [tokP 0 true]).tile tA).fireKind im1 1 0 0 = .void ∧ ctx0 (.firingIssue tA) (sFire im1 [tokP 0 true]) (fun x => x.isVoid && decide (x.phase = .emit 0 0)) = true ∧
    after (.firingIssue tA) (sFire im1 [tokP 0 true]) (fun t => decide (t.fold.voids = 1)) = true := by decide +kernel
/-- The inputs of a ready firing lie in an empty slot of a tagged handle. -/
def sNotFull : State := { sFire im1 [tokP 0 false] with tiles := [(tileKey tA, { (sFire im1 [tokP 0 false]).tile tA with handles := [(1, handT)] })] }
theorem witness_firing_waits : (sNotFull.tile tA).inputsFull im1 1 0 0 = false ∧
    after (.firingIssue tA) sNotFull (fun t => decide (t.fold.ready = [(1, 0, 0)] ∧ t.fold.readySince = some 1000000)) = true ∧
    ran (.tokenEmit tA 0) (sFold (fun f => { f with ctxs := [(0, { fctx (.emit 0 0) with isVoid := true })] })) (fun u => decide (((u.tile tA).slot 1).credits = [3]) &&
      u.mesh.flight.any (fun x => match x.pkt.body with | .token b => b.void && b.epoch == 5 && b.len == 0 && b.payload.isEmpty | _ => false)) = true ∧
    ctx0 (.tokenEmit tA 0) (sFold (fun f => { f with slots := [(1, { image := some im1, nodes := [{}, {}], credits := [0] })], ctxs := [(0, fctx (.emit 0 0))] }))
      (fun x => decide (x.since = some 1000000)) = true ∧
    after (.foldSwitchAtT tA) (sFold (fun f => { f with armed := some (.entry 1, 999999), sched := [(0, (1, 5)), (1, (4, 5))], schedLen := 2 }))
      (fun t => decide (t.fold.active = 4 ∧ t.fold.schedPos = 1 ∧ t.fold.schedEn = true ∧ t.fold.armed = none)) = true ∧
    ((sFold id).tile tA).slotBusy 1 = false ∧
    after (.foldScheduleMove tA) (sFold (fun f => { f with schedEn := true, schedLen := 2, sched := [(0, (1, 0)), (1, (1, 5))] })) (fun t => decide (t.fold.schedPos = 1)) = true := by decide +kernel

theorem witness_scrub : inRow 0 0x40400 = false ∧ inRow 0 0x403F8 = true ∧
    ran (.patrolScrub 1 [{ tile := tA, off := 0x40400, uncorrectable := false }]) { s0 with time := 5000000 } (fun u => decide ((u.tile tA).mem.ce = [0x40400] ∧ (u.field 1).mem.ceTm = 0)) = true ∧
    isKeep 0 = true ∧ (s0.field 0).memoryUp = true ∧
    ran (.patrolScrub 0 [{ tile := ⟨5, 5⟩, off := 0xFFFFF, uncorrectable := true }]) s0 (fun u => decide ((u.host 0).memUe = 1 ∧ (u.host 0).memCe = 0)) = true ∧
    ran (.patrolScrub 0 [{ tile := ⟨5, 5⟩, off := 0, uncorrectable := false }]) s0 (fun u => decide ((u.host 0).memUe = 0 ∧ (u.host 0).memCe = 1)) = true ∧
    ran (.mapPublish 1000448) { sWhole with mesh := { next := some { fmap1 with effective := 1000448, seq := 9 } } } (fun u => decide (u.mesh.next.map FMap.seq = some 9)) = true := by decide +kernel
def flightTo (d : Endp) (a b : TileId) : Flight := { flight0 with pkt := { flight0.pkt with h := { flight0.pkt.h with dst := d } }, at_ := a, aim := b }
def sAt (x : Flight) : State := sMap { flight := [x] }
def sPair (x : Flight) : State := { s0 with tiles := s0.tiles.put (tileKey tB) tile0, mesh := { flight := [x] } }
theorem witness_moves : (sAt flight0).laneHead 0 flight0 = true ∧ (sAt flight0).moveOf flight0 = .hop tB 0 none ∧ ((sAt flight0).granted tA 0).isSome = true ∧
    (sAt (flightTo (.tile tA) tA tA)).moveOf (flightTo (.tile tA) tA tA) = .eject ∧ ((sAt (flightTo (.tile tA) tA tA)).granted tA 4).isSome = true ∧
    ran (.routePacket 0 false 0 5) (sAt (flightTo (.tile tA) tA tA)) (fun u => u.mesh.flight.all (fun x => x.landed && x.at_ == tA)) = true ∧
    (sPair { flight0 with fresh := true }).moveOf { flight0 with fresh := true } = .link ∧
    ran (.routePacket 0 false 0 5) (sPair { flight0 with fresh := true }) (fun u => u.mesh.flight.all (fun x => x.landed && x.at_ == tB)) = true ∧
    (sAt (flightTo (.tile ⟨900, 5⟩) tA tA)).moveOf (flightTo (.tile ⟨900, 5⟩) tA tA) = .refuse ∧
    ran (.routePacket 0 false 0 5) (sAt (flightTo (.tile ⟨900, 5⟩) tA tA)) (fun u => (u.scarabQ.getD 1 []).any (fun e => e.code == 0x0881)) = true ∧
    (sAt { flight0 with landed := true }).moveOf { flight0 with landed := true } = .wait ∧
    ran (.routePacket 0 false 0 5) (sAt { flight0 with landed := true }) (fun u => decide (u = sAt { flight0 with landed := true })) = true := by decide +kernel
def sMcast : State := s0.modField 1 (fun fd => { fd with mesh := { fd.mesh with mcastEn := true } })
theorem witness_multicast : (sMcast.mcastStop (sMcast.place .conductor) tA).isSome = true ∧
    (s0.mcastStop (s0.place .conductor) tA).isSome = true ∧ ran (.multicast { x0 := 110, y0 := 5, x1 := 110, y1 := 5 } 0x200 [3]) s0 (fun u => decide (u.tile tA = s0.tile tA)) = true := by decide +kernel

/-! ## Witnesses of further clauses: answers, docks and links -/

/-- Window 3 tagged, over a tagged handle whose slot 1 is full. -/
def tagWin : Window := { openWin with w0 := openWin.w0 ||| word [(1, 27)] }
def sTagWin (held : List HeldReq) (full : List Nat) : State :=
  sT (fun t => { withWin t with handles := [(1, handT)], windows := [(3, { tagWin with held := held })], mem := { t.mem with full := full } })
theorem witness_remote_held : ((sTagWin [] [17]).tile tA).windowCheck rbody true = none ∧ ((sTagWin [] [17]).tile tA).windowReady rbody true = false ∧
    after (.remoteWrite (hdr 8) rbody [1]) (sTagWin [] [17]) (fun t => decide ((t.window 3).held = [{ h := hdr 8, body := rbody, data := some [1], since := 1000000 }] ∧ t.mem.cells = (((sTagWin [] [17]).tile tA).mem.cells))) = true ∧
    ran (.remoteWrite (hdr 8) rbody [1]) (sTagWin (List.replicate 4 heldW) [17]) (sentIn (.tile tB) (.status .xput stStallTimeout)) = true ∧
    ((sTagWin [] []).tile tA).windowCheck rbody false = none ∧ ((sTagWin [] []).tile tA).windowReady rbody false = false ∧
    after (.remoteRead (hdr 8) rbody) (sTagWin (List.replicate 3 heldW) []) (fun t => decide ((t.window 3).held.length = 4)) = true := by decide +kernel
theorem witness_remote_refused : ran (.remoteWrite (hdr 8) rbody [1]) s0 (sentIn (.tile tB) (.status .xput stWindowClosed)) = true ∧
    ran (.remoteWrite (hdr 8) { rbody with key := 8 } [1]) sWin (fun u => decide ((u.tile tA).mem = (sWin.tile tA).mem) && sentIn (.tile tB) (.status .xput stDenied) u) = true ∧
    ran (.remoteWrite { hdr 8 with dstGen := 3 } rbody [1]) sWin (fun u => decide (u.tile tA = sWin.tile tA) && sentIn (.tile tB) (.status .xput stPeerLost) u) = true ∧
    ran (.remoteRead { hdr 8 with dstGen := 3 } rbody) sWin (fun u => decide (u.tile tA = sWin.tile tA) && sentIn (.tile tB) (.reply .xget stPeerLost []) u) = true := by decide +kernel
theorem witness_contributions_refused :
    ran (.combine (hdr 3) [contrib]) s0 (fun u => decide ((u.tile tA).mem = (s0.tile tA).mem ∧ (u.tile tA).q.drop = 1) && ((u.tile tA).queue 4).lost && sentIn (.tile tB) (.status (.conn ref6) stClosed) u) = true ∧
    ran (.combine { hdr 3 with dstGen := 3 } [contrib]) sComb (fun u => decide ((u.tile tA).mem = (sComb.tile tA).mem) && sentIn (.tile tB) (.status (.conn ref6) stPeerLost) u) = true ∧
    after (.reply (hdr 0) (.read 7) stPathLost []) (sStall .sread .answer 7 0) (done stCellLost 0) = true ∧
    after (.status (hdr 0) (.wait 7) stRetry) (sStall .swait .answer 7 0) (fun t => stallsIn .swait t && decide (t.sync.resend = some 1000064)) = true := by decide +kernel

def pend0 : Pend := { tile := tB, gen := 0, tag := 1, re := .xget, isRead := true, since := 0 }
def sFullDock : State := sPort (fun p => { p with state := 4, routes := [(77, route77)], pending := (upto 4096).map (fun i => (i, pend0)) })
theorem witness_dock_refuses : (sFullDock.port 1).pending.length = 4096 ∧ (sFullDock.findPend tA 6 .xget) = none ∧
    ran (.dockIngress 1 (farPkt far0)) sFullDock (sentIn (.tile tA) (.reply .xget stRetry [])) = true ∧
    ran (.dockIngress 1 (farPkt far0)) (sRx id) (sentIn (.tile tB) (.remoteRead rbody)) = true ∧
    inPort (.dockEgress 1 (farPkt { far0 with hops := [1, 3], answer := true })) (sPort (fun p => { p with state := 4 }))
      (fun p => p.unacked.any (fun fr => fr.pkt.h.far == some { far0 with hops := [0xFE, 3], idx := 1, answer := true })) = true := by decide +kernel
theorem witness_frames_refused :
    inPort (.dataFrame 1 (frame0 11 far0)) (sRx id) (fun p => p.out.any (fun c => match c with | .link op 10 _ _ _ => op == linkNak | _ => false)) = true ∧
    (sRx id).relayRefusal 1 { far0 with hops := [0xFE, 0], idx := 1 } = some causeRelayOff ∧
    ran (.dataFrame 1 (frame0 10 { far0 with hops := [0xFE, 0], idx := 1 })) (sRx id) (fun u => decide ((u.port 1).relayNack = 1) &&
      u.mesh.flight.any (fun x => x.pkt.body == .reply .xget stPathLost []) && decide (u.scarabQ.getD 1 [] = [⟨0x0989, 1000000, 1, [1, 0, causeRelayOff]⟩])) = true := by decide +kernel
def sLanes (n : Word) : State := sPort (fun p => { p with state := 4, laneActive := n })
theorem witness_lanes : ((sLanes 0x101).port 1).lanes = 2 ∧ ({ (sLanes 0x101).port 1 with laneActive := (0x100 : Word) } : Port).starved 0 = true ∧
    inPort (.linkLaneOff 1 0) (sLanes 0x101) (fun p => decide (p.state = 5)) = true ∧
    inPort (.laneFailure 1 31) (sLanes 0xFFFFFFFF) (fun p => decide (p.state = 4 ∧ p.laneActive = 0x7FFFFFFF) &&
      p.out.any (fun c => match c with | .link op 31 _ _ _ => op == Sys2Proof.Machine.linkLaneOff | _ => false)) = true ∧
    inPort (.linkIdleAck 1) (sTx 0) (fun p => p.out.any (fun c => match c with | .link op 0 _ _ _ => op == linkAck | _ => false)) = true ∧
    inPort (.frameCrcError 1) (sTx 0) (fun p => p.out.any (fun c => match c with | .link op 0 _ _ _ => op == linkNak | _ => false)) = true := by decide +kernel

/-! ## Witnesses of further clauses: connections, notes, the broker and clocks -/

theorem witness_conn_refusals :
    ran (.openArrives { hdr 1 with dstGen := 9 } { ctx := 6, queue := 4, credits := 2, gen := 0 }) sG (sentIn (.tile tB) (.status (.opening ref6) stPeerLost)) = true ∧
    ran (.probe (hdr 1) { ctx := 6, queue := 4, gen := 0, qinc := 1 }) sG (sentIn (.tile tB) (.status (.probe { ref6 with qinc := 1 }) stClosed)) = true ∧
    ran (.message (hdr 1) { ref := ref6, seq := 8, gen := 0, data := [1, 2] }) sG (fun u => sentIn (.tile tB) (.status (.conn ref6) stClosed) u && decide ((u.tile tA).q.grants.find 0 = none)) = true ∧
    ran (.message (hdr 1) { ref := ref6, seq := 9, gen := 0, data := [1, 2] }) s0 (sentIn (.tile tB) (.status (.conn ref6) stClosed)) = true ∧
    after (.senderClose (hdr 1) { ref := ref6, gen := 0, seq := 11 }) sG (fun t => decide (t.q.grants.find 0 = some { grantRec with closing := some (11, 1000000) })) = true ∧
    after (.grant (hdr 1) { ref := ref2, credits := 5, kind := 0, op := 0, maxSize := 1, gen := 0 }) (sT (withCtx { state := 1, peer := tB, queue := 3, closePending := true }))
      (fun t => decide ((t.ctx 2).state = 0)) = true ∧
    (sT (withG grantRec)).sourceTile (.tile tB) = tB ∧
    after (.message (hdr 1) { ref := ref6, seq := 9, gen := 0, data := [] }) (sT (withG { grantRec with closing := some (10, 5) })) (fun t => decide (t.q.grants.find 0 = none)) = true := by decide +kernel

def sTwoPorts (g : Conductor → Conductor) : State := { sCond g with ports := [(1, { state := 4, laneActive := 0xFFFFFFFF }), (0, { state := 4, laneActive := 0xFFFFFFFF })], tiles := s0.tiles ++ [(tileKey ⟨148, 59⟩, tile0), (tileKey (gateTile 0 0), tile0)] }
theorem witness_notes_seen : (sTwoPorts id).portField 0 = true ∧
    ran (.powerNote 1 (note 6)) (sTwoPorts (fun c => { c with group := 2 })) (fun u => (u.port 0).unacked.any (fun fr => fr.pkt.body == .ctrlWrite 0 (noteBytes { note 6 with hopsLeft := 2 })) &&
      (u.port 1).unacked.isEmpty) = true ∧
    within 1 0x7FFFFFFF ((0x80000000 + 2 ^ 32 - 1 % 2 ^ 32) % 2 ^ 32) = true ∧ within 1 0x7FFFFFFF ((0x80000001 + 2 ^ 32 - 1 % 2 ^ 32) % 2 ^ 32) = false ∧
    ran (.powerNote 1 { note 6 with seq := 0x80000000 }) (sCond (fun c => { c with group := 2, notes := [(note 6, 999999)] })) (fun u => decide (u.cond.notes = [({ note 6 with seq := 0x80000000 }, 1000000)])) = true ∧
    ran (.powerNote 1 { note 6 with seq := 0x80000001 }) (sCond (fun c => { c with group := 2, notes := [(note 6, 999999)] })) (fun u => decide (u.cond.notes = [(note 6, 999999)])) = true := by decide +kernel
def noted (code : Nat) (u : State) : Bool := decide ((u.scarabQ.getD 0 []).head? = some ⟨0x0E87, 1000000, 56, [0, 1, code]⟩)
def sQ4 : State := sT (withG grantRec)
theorem witness_connect_refused :
    ran (.brokerConnectRequest 1 { connectReq with body := .connectRequest ⟨120, 5⟩ 4 8 tB 2 }) sQ4 (noted rcNotPresent) = true ∧
    ran (.brokerConnectRequest 1 { connectReq with body := .connectRequest tA 5 8 tB 2 }) sQ4 (noted rcRefused) = true ∧
    ran (.brokerConnectRequest 1 connectReq) { sQ4 with cond := { sQ4.cond with polMax := 0 } } (noted rcNoResource) = true ∧
    ran (.brokerConnectRequest 1 connectReq) { sQ4 with ports := [(1, { proxies := (upto 128).map (fun i => (i, { valid := true })) })], cond := { sQ4.cond with polMax := 500 } } (noted rcNoResource) = true ∧
    s0.admitsWafer 0 = true ∧ ran (.brokerLookupRequest 1 { origin := 0, target := 77, request := 5, body := .lookupRequest 9 }) s0
      (fun u => decide ((u.scarabQ.getD 0 []).head? = some ⟨0x0E87, 1000000, 56, [0, 4, rcNotPresent]⟩)) = true := by decide +kernel
def reply7 (st : Nat) : BrokerMsg := { origin := 0, target := 77, request := 5, body := .connectReply st 2 9 1 16 0 0 1 8 }
theorem witness_connect_replies :
    ran (.brokerConnectReply 1 (reply7 rcRefused)) (sCond (fun c => { c with reqs := [breq], pend := [pend3] })) (fun u => decide (u.tiles = (sCond id).tiles) && u.cond.pend.all (fun c => c.outcome == some rcRefused)) = true ∧
    ran (.brokerConnectReply 1 (reply7 0)) { sCond (fun c => { c with reqs := [breq], pend := [pend3] }) with tiles := [(tileKey tA, { tile0 with q := { tile0.q with ctxs := [(7, ctx2)] } })] }
      (fun u => u.cond.pend.all (fun c => c.outcome == some rcStateConflict)) = true := by decide +kernel

def fcXing (n at_ : Nat) (r mon : Bool) : State :=
  sXing { state := .calibrating, retried := r, began := at_ } true |>.modField 1 (fun fd => { fd with clk := { fd.clk with monitor := mon, op := n } })
theorem witness_crossing_times : ran .waferTimeBroadcast s0 (fun u => decide (u = s0)) = true ∧ (fcXing 0 0 false false).calTime 1 1 ≤ 1000000 ∧
    (fcXing 0 0 false false).calTime 1 1 = 38 ∧
    inField (.calibrationDone 1 1 0) (fcXing 0 (1000000 - 38) false false) (fun fd => decide ((fd.xing 1).state = .running ∧ (fd.xing 1).latency = 3)) = true ∧
    ran (.calibrationDone 1 1 0) (fcXing 0 (1000001 - 38) false false) (fun u => decide (u = fcXing 0 (1000001 - 38) false false)) = true ∧
    inField (.calibrationDone 1 1 0) (fcXing 0 0 false true) (fun fd => decide ((fd.xing 1).latency = 0) && (fd.xing 1).async) = true ∧
    inField (.relockDone 1) (fClk (fun c => { c with relock := some 1000000, clock := 1, stopped := some 999999 })) (fun fd => decide (fd.clk.relock = none ∧ fd.clk.clock = 0)) = true ∧
    ran (.pwrStepForced 1 3 3906) s0 (fun u => decide ((u.field 1).pwr.steps.find 3 = orderAt 1000192 3) && !(u.scarabQ.getD 1 []).isEmpty) = true ∧
    inField (.railDroop 1 1 0) (fClk (fun c => { c with debt := 65534 })) (fun fd => decide (fd.clk.debt = 0)) = true := by decide +kernel

/-! ## Witnesses of further clauses: power and heat -/

def sRetained : State := { fPwr (fun p => { p with state := .retain, actCore := 7, actMem := 8 }) with time := 1000100 }
theorem witness_epochs : (sRetained.field 1).memoryUp = true ∧ (sRetained.field 1).running = false ∧
    ran (.epochEnd 1 3 2) sRetained (fun u => decide ((u.field 1).pwr.epochNo = 10001 ∧ (u.field 1).pwr.actCore = 0 ∧ (u.field 1).pwr.actMem = 0 ∧ u.tiles = sRetained.tiles)) = true ∧
    ran (.epochEnd 1 3 2) (fPwr (fun p => { p with epochNo := 10000 })) (fun u => decide (u = fPwr (fun p => { p with epochNo := 10000 }))) = true ∧
    ran .masterTakeover ((sMaster 0 0).modField 0 (fun fd => { fd with pwr := { fd.pwr with state := .off } })) (fun u => (u.master 55).active) = true ∧
    ran (.hedgerowPowerSample 0 801) (sSamples 0) (fun u => decide (u.watch.forcedAt = some u.hedgeNow)) = true ∧
    rangeOf 72001 ≠ rangeOf 60000 ∧ ran (.inputVoltageSample 72001) { s0 with chassis := { s0.chassis with range := rangeOf 60000 } }
      (fun u => u.scarab.ram.any (fun e => e.ev.code == 0x0B89)) = true := by decide +kernel

def cool (o f : Nat) : Coolant := { inlet := 320, outlet := o, flow := f, failed := false }
theorem witness_coolant : coolantLost (cool 601 800) = false ∧ ran (.coolantSample (cool 601 800)) sMute (fun u => decide (u.watch.response = 2 ∧ (u.field 1).pwr.state = .off)) = true ∧
    ran (.coolantSample (cool 600 199)) { s0 with time := 60000000, watch := { lowFlow := some 10000000 } } (fun u => decide (u.watch.response = 2 ∧ (u.field 1).pwr.plan = .off ∧ (u.field 1).svc.furrow = some 5)) = true ∧
    ran (.coolantSample (cool 601 800)) (fPwr (fun p => { p with state := .retain })) (fun u => decide ((u.field 1).pwr.state = .off)) = true ∧
    inField (.overcurrentLatch 1 true true) (fPwr (fun p => { p with state := .off, cause := 4, lostAt := some 1000000 })) (fun fd => fd.pwr.coreLatch && fd.pwr.memLatch && decide (fd.pwr.state = .failed)) = true ∧
    inField (.overcurrentLatch 1 true false) (fPwr (fun p => { p with state := .retain })) (fun fd => decide (fd.pwr.cause = 2)) = true ∧
    (({ s0 with time := dayTicks } : State).field 1).pwr.trimDue 0 = false ∧ inField (.trimRaise 1 0 0) { s0 with time := dayTicks } (fun fd => decide (fd.pwr.trims = [] ∧ fd.pwr.shorts.getD 0 0 = 1)) = true ∧
    ran (.thermalSample 1 100 0) (fPwr id) (fun u => decide ((u.field 1).pwr.tgate = 4)) = true := by decide +kernel

/-! ## Witnesses of further clauses: fault logs and mailboxes -/

theorem witness_logs_and_words : inField (.fltRead 1 2) sLog (fun fd => decide (fd.flt.tail = 1 ∧ fd.flt.count = 0)) = true ∧
    inField (.fltRead 1 0) sLog (fun fd => decide (fd.flt.tail = 0 ∧ fd.flt.count = 1)) = true ∧
    ran (.mbMsgWrite 4 true 63 16 7) s0 (fun u => decide (u = s0.spineGrant 4)) = true ∧
    ran .mailboxPoll { s0 with cond := { s0.cond with takeover := some 997500 } } (fun u => decide (u.cond.takeover = none) && !(u.scarabQ.getD 0 []).isEmpty) = true ∧
    ran .mailboxPoll { s0 with cond := { s0.cond with takeover := some 997501 } } (fun u => decide (u.cond.takeover = some 997501)) = true ∧
    ran .conductorBeat { s0 with mb := { s0.mb with beatAt := 999751 } } (fun u => decide (u.mb.beatAt = 999751)) = true ∧
    ran .conductorTakeover { s0 with mb := { running := true, activeKf := 1, standbyReady := true, beatAt := 1000000 }, cond := { s0.cond with handover := true } } (fun u => decide (u.mb.activeKf = 0 ∧ u.cond.handover = false)) = true := by decide +kernel

/-! ## Witnesses of further clauses: system, field, job and fold commands -/

theorem witness_system_more : msgMask (cmdK 0x0106 [0, 0x1000000, 1]).words 2 = none ∧ cmdRan .sysBoundVoid 0x0106 [0, 0x1000000, 1] s0 (acked rcBadArgument) = true ∧
    cmdRan .sysBoundVoid 0x0106 [2, 0, 2] s0 (acked rcBadArgument) = true ∧
    cmdRan .sysSetWaferId 0x0104 [77] (sPort (fun p => { p with state := 4 })) (fun u => (u.port 1).out.any (fun c => match c with | .cap _ => true | _ => false)) = true ∧
    cmdRan .sysBoundVoid 0x0106 [2, 0, 1] (sF (fun fd => { fd with clk := { fd.clk with bvAsync := true, monitor := true } })) (fun u => acked 0 u && (u.field 1).anyVoid) = true := by decide +kernel
theorem witness_field_answers :
    cmdRan .tileReset 0x020C [BitVec.ofNat 32 (110 + 5 * 1024)] (sT (fun t => { t with gen := 65535 })) (fun u => acked 0 u && decide ((u.tile tA).st = .hole)) = true ∧
    (∀ n ∈ [0x0201, 0x0202, 0x0203, 0x0204, 0x0205, 0x0206, 0x0207, 0x0208, 0x0209, 0x020A, 0x020B],
      msgWord (cmdK n [56]).words 2 = 56 ∧ msgCode (cmdK n [56]).words = n) ∧
    cmdRan .fieldDrain 0x0202 [56] s0 (acked rcBadArgument) = true ∧ cmdRan .fieldPark 0x0203 [55] s0 (acked rcNotPermitted) = true ∧
    cmdRan .fieldPower 0x020A [0, 0] s0 (acked rcNotPermitted) = true ∧ cmdRan .fieldClear 0x0208 [65535] s0 (acked rcBadArgument) = true ∧
    cmdRan .fieldRetest 0x0206 [1, 1] (sF (fun fd => { fd with pwr := { fd.pwr with plan := .park } })) (acked rcBusy) = true ∧
    cmdRan .fieldInsulate 0x0209 [1] (sF (fun fd => { fd with pwr := { fd.pwr with plan := .wake } })) (acked rcBusy) = true := by decide +kernel
theorem witness_fold_commands :
    cmdRan .foldSwitch 0x0308 [1, 0x800F0000, 0, 0] (sJob { st := 3, tiles := [tA] }) (fun u => acked rcPending u && decide ((u.tile tA).fold.armed = some (.entry 15, 1000080))) = true ∧
    cmdRan .foldSwitch 0x0308 [1, 8, 0, 0] (sJob { st := 3, tiles := [tA] }) (acked rcBadArgument) = true ∧
    cmdRan .foldSwitch 0x0308 [1, 7, 1000079, 0] (sJob { st := 3, tiles := [tA] }) (acked rcBadArgument) = true := by decide +kernel

/-! ## Witnesses of further clauses: sync, clock, port and firmware commands, host nodes -/

theorem witness_releases : cmdRan .tileRelease 0x0505 [posA, 0] (sStall .xput .answer 0 0) (fun u => acked 0 u && done stStallTimeout 0 (u.tile tA)) = true ∧
    cmdRan .tileRelease 0x0505 [posA, 0] sWaitL (fun u => acked 0 u && done stForced 0 (u.tile tA)) = true ∧
    cmdRan .cellSet 0x0502 [1023, 0, 0, 1, 5] waiting0 (fun u => acked 0 u && decide (((u.field 1).cell 1023).value = 0) && (u.field 1).sync.waiters.isEmpty) = true := by decide +kernel
def sLeaving : State := { s0 with mesh := { holdUntil := 1000263 } }
theorem witness_clock_waits : sLeaving.leavingMode = true ∧ ({ s0 with mesh := { holdUntil := 1000262 } } : State).leavingMode = false ∧
    cmdRan .clkSetMode 0x0702 [0, 15, 0, 0] sLeaving (acked rcPending) = true ∧ cmdRan .clkSetMode 0x0702 [1, 15, 0, 0] sLeaving (acked rcPendingEnable) = true ∧
    cmdRan .clkSetMode 0x0702 [1, 15, 0, 256] s0 (fun u => acked rcPending u && decide (u.cond.heldOrders = [{ kind := 2, op := 15, at_ := 2 ^ 40 }])) = true ∧
    cmdRan .portUp 0x0801 [56] s0 (acked rcBadArgument) = true ∧ cmdRan .portForget 0x080A [65535] s0 (acked rcBadArgument) = true ∧
    cmdRan .portQuery 0x0809 [56] s0 (acked rcBadArgument) = true := by decide +kernel
def sPushed (k : Nat) : State := { sStaged k with hedge := { s0.hedge with pushing := [(k, 4)], sessions := [⟨4, 1, 99999999999⟩] } }
theorem witness_firmware_busy : (sPushed 3).pushedBy 3 none = true ∧ cmdRan .fwApply 0x0902 [0, 2, 0] (sPushed 3) (fun u => acked rcStateConflict u && decide (u.flash = (sPushed 3).flash)) = true ∧
    cmdRan .fwApply 0x0902 [2, 0, 0] (sPushed 2) (acked rcStateConflict) = true ∧ cmdRan .fwApply 0x0902 [1, 2, 0] s0 (acked rcNotPresent) = true ∧
    cmdRan .fwApply 0x0902 [2, 0, 0] s0 (acked rcNotPresent) = true := by decide +kernel

theorem witness_window_more : (sHost id).cutOffKeep 0 = false ∧ oneAccess 16 true .vector = false ∧ oneAccess 3 false .vector = false ∧
    inHost (.waferWindowStore 0 31 addrA [1] .scalar) sCut (fun h => decide (h.winErr = 1 ∧ h.flight = [])) = true ∧
    ran (.waferWindowLoad 0 0 addrA 3 .vector) (sHost id) (fun u => sentIn (.tile tA) (.rawRead 0xFFFF8 1) u && sentIn (.tile tA) (.rawRead 0xFFFF9 1) u) = true ∧
    ran (.waferWindowStore 0 0 addrA [6, 7, 8] .vector) (sHost id) (fun u => sentIn (.tile tA) (.rawWrite 0xFFFF8 [6]) u && sentIn (.tile tA) (.rawWrite 0xFFFF9 [7]) u) = true ∧
    inHost (.waferWindowAnswer 0 9 stPeerLost []) (sHost (fun h => { h with flight := [acc9], winFault := true }))
      (fun h => decide ((h.hart 31).load = List.replicate 8 255 ∧ (h.hart 31).trap = 3 ∧ h.winErr = 1 ∧ h.winStatus = stPeerLost) && h.winValid) = true ∧
    inHost (.waferWindowAnswer 0 9 stOk []) (sHost (fun h => { h with flight := [acc9w] })) (fun h => decide (h.winErr = 0 ∧ h.flight = [])) = true := by decide +kernel
theorem witness_node_boots : inHost (.nodeBoot 0 true) (sHost (fun h => { h with stage := 2 })) (fun h => decide (h.stage = 3)) = true ∧
    ran (.nodeBoot 0 false) (sHost (fun h => { h with stage := 2 })) (fun u => decide ((u.host 0).stage = 15 ∧ (u.host 0).code = 1 ∧ (u.host 0).attempts = 1)) = true ∧
    (sHost (fun h => { h with stage := 1 })).hedge.up = true ∧ (sHost (fun h => { h with stage := 15, attempts := 1 })).nodeOn 0 = true := by decide +kernel
def pauseFrame : List Byte := [1, 0x80, 0xC2, 0, 0, 1] ++ List.replicate 6 0 ++ [0x88, 8, 0, 1, 0xFF, 0xFF] ++ List.replicate 46 0
def sEthFar : State := sHost (fun h => { h with eth := [(1, ethP)], mem := Memory.writeN [] (natLe 8 0x10 ++ natLe 2 64 ++ [2, 0, 0, 0, 0, 0]) 0x1000 })
theorem witness_ethernet_more : (pauseOp pauseFrame).isSome = true ∧
    inHost (.ethFrameReceive 0 1 pauseFrame 0 7) sEth (fun h => decide (h.port 1 = ((sEth.host 0).port 1).takePause ((pauseOp pauseFrame).getD 0) 1000000 pauseFrame)) = true ∧
    localMem 0x10 64 = none ∧ inHost (.ethDescriptorDone 0 1 7) sEthFar (fun h => decide (((h.port 1).ring 7).head = 1 ∧ (h.port 1).sent = [])) = true ∧
    inHost (.ethLinkChange 0 1 false 0) sEth (fun h => !(h.port 1).link && !(h.port 1).present) = true ∧
    ({ sPcie id with time := 2499999 } : State).perst 0 = true ∧ ran (.pcieDeviceRead 0 0x80000000 2) { sPcie id with time := 2499999 } (fun u => decide (u.hosts = (sPcie id).hosts)) = true ∧
    inHost (.pcieDeviceWrite 0 0x80000000 [1, 2]) (sPcie id) (fun h => decide (Memory.readN h.mem 3 0 = [1, 2, 0])) = true := by decide +kernel

/-! ## Witnesses of further clauses: Hedgerow's buses and SPDM -/

def spdm4 : State := { s0 with hedge := { s0.hedge with spdm := [(1, 1), (2, 1), (3, 1), (4, 1)] } }
def sAsked (g : Hedge → Hedge := id) : State := sBus (fun h => g { h with slot := .asked 99975000001 })
theorem witness_slot_answers :
    onH (.slotGetAnswer .unsupported) (sAsked id) (fun h => decide (h.slot = .settled ∧ h.mctp = [])) = true ∧
    ran (.slotGetAnswer .unsupported) (sAsked id) (fun u => u.scarab.ram.any (fun r => r.ev.code == 0x0F82 && r.ev.detail == [3])) = true ∧
    onH .slotCheckTimeout (sBus (fun h => { h with slot := .waiting 99750000000 })) (fun h => decide (h.slot = .waiting 99750000000)) = true ∧
    ran .slotCheckTimeout { sBus (fun h => { h with slot := .waiting 99750000000 }) with scarab := { opening := true } } (fun u => !u.scarab.opening) = true ∧
    onH .getVendorDefinedMsgSupport (sBus id) (fun h => h.mctp.length == 1) = true := by decide +kernel
theorem witness_spdm_signed : replies (.getVersion req0) { spdm4 with hedge := { spdm4.hedge with spdm := (17, 2) :: spdm4.hedge.spdm.take 3 } } .version = true ∧
    (∀ n ∈ [1, 2, 3], replies (.getCapabilities { req0 with version := 0x12 }) (sSpdm n) (.error 0x41) = true) := by decide +kernel

/-! ## Witnesses of further clauses: Redfish, logins and updates -/

theorem witness_redfish_conflicts :
    http (.chassisPowerCycle 4) (sStop (sUser 1)) 409 = true ∧ http (.chassisOn 4) (sStop (sUser 1)) 409 = true ∧
    http (.chassisOn 4) { sUser 1 with chassis := { s0.chassis with pwrEn := false } } 409 = true ∧
    http (.chassisOn 4) { sUser 1 with chassis := { s0.chassis with stbyGood := false } } 409 = true ∧
    onH (.scarabExport 4) (sUser 1) (fun h => decide (h.tasks = [1])) = true ∧
    onH (.accountChange 4 (.create 2 3 (256 ^ 12))) (sUser 2) (fun h => h.http == 400 && h.accounts.length == 1) = true ∧
    onH (.accountChange 4 (.create 2 2 6)) (sUser 2) (fun h => h.http == 400 && h.accounts.length == 1) = true ∧
    onH (.accountChange 4 (.modify 1 2 6)) (sUser 2) (fun h => h.http == 400 && decide (h.accounts.map Account.role = [2])) = true ∧
    http (.clearLog 4 1) { sUser 2 with scarab := { opening := true, region := [⟨ev0, 0⟩] } } 409 = true ∧
    ran (.configSet 4 (.rateLimit 0x0C02 1 1)) (sUser 2) (fun u => decide (u.scarab.rate 0x0C02 = (1, 1))) = true := by decide +kernel
theorem witness_locked_login :
    ran (.sessionLogin 1 6) (acct 5 (some 100000000001)) (fun u => u.hedge.http == 401 && decide (u.hedge.sessions = []) &&
      u.scarab.ram.any (fun r => r.ev.code == 0x0F88 && r.ev.detail.getLast? == some 1)) = true ∧
    http (.sessionLogin 1 6) (acct 5 (some 100000000000)) 201 = true := by decide +kernel
def sPushing (i : ImagePush) (n : Nat) : State := sUser 2 (fun h => { h with sessions := [⟨4, 1, 99999999999⟩, ⟨5, 1, 99999999999⟩], pushing := [(i.kind, n)] })
theorem witness_push :
    (sUser 2).kindBusy 6 (some 4) = false ∧ ran (.firmwarePush 4 { push 6 with last := false }) (sUser 2) (fun u => u.hedge.http == 202 &&
      decide (u.hedge.pushing.find 6 = some 4 ∧ u.flash.staged = [])) = true ∧
    (sPushing (push 6) 4).kindBusy 6 (some 4) = false ∧ (sPushing (push 6) 5).kindBusy 6 (some 4) = true ∧ (sPushing (push 6) 5).kindBusy 5 (some 4) = false ∧
    http (.firmwarePush 4 (push 6)) (sPushing (push 6) 5) 409 = true ∧
    (sPushing (push 6) 5).kindBusy 6 none = true ∧
    http (.updateApply 4 6) { sPushing (push 6) 5 with flash := (sUpd 6).flash } 409 = true ∧ (sUpd 2).kindBusy 2 none = false ∧ (sUpd 1).kindBusy 1 none = false := by decide +kernel
/-- The premises of the repairs from a URL and by a push, but for the check of the image, are met together. -/
theorem witness_repair (h : Config.keyIntact 0 = true) :
    (((badRegion 6 (sUser 2)).flash.regions.getD 6 {}).ok = false ∧ (badRegion 6 (sUser 2)).flash.staged.find 6 = none ∧ (push 6).kind = 6 ∧
      (badRegion 6 (sUser 2)).kindBusy 6 none = false) ∧ (badRegion 6 (sUser 2)).imageBad (push 6) = none := by
  refine ⟨by decide +kernel, ?_⟩
  unfold State.imageBad; rw [show (push 6).key = 0 from rfl, h]; decide +kernel

/-! ## Witnesses of further clauses: handles and handover -/

theorem witness_handles_not_valid : (((sT withQ).tile tA).handle 7).valid = false ∧
    after (.hclr tA x1) (sR 7 0 withQ) (fun t => t.core.halted && decide (t.fault.code = fcBadArgument ∧ t.handles = (withQ ((sT id).tile tA)).handles)) = true := by decide +kernel
theorem witness_handover_cells :
    ran .conductorTakeover waiting0 (fun u => decide ((u.field 1).sync = (waiting0.field 1).sync)) = true := by decide +kernel

/-! ## Ill-formed commands: one for each check of WellFormed -/

def wild : TileId := ⟨800, 0⟩
def hdrTo (e : Endp) : Hdr := { src := .conductor, dst := e, dstGen := 0, tag := 0 }
theorem smoke_operands : (Instr.ecall tA).wf = true ∧ (Instr.ecall wild).wf = false ∧ (Instr.ecall ⟨0, 840⟩).wf = false ∧ (Instr.ecall ⟨799, 839⟩).wf = true ∧
    (Instr.qopen tA ⟨32, 0, 0, 0⟩).wf = false ∧ (Instr.qopen tA ⟨0, 32, 0, 0⟩).wf = false ∧ (Instr.qopen tA ⟨0, 0, 32, 0⟩).wf = false ∧
    (Instr.qopen tA ⟨0, 0, 0, 8⟩).wf = false ∧ (Instr.qopen tA ⟨31, 31, 31, 7⟩).wf = true ∧
    (Instr.coreLoad tA { lsB with size := 3 }).wf = false ∧ (Instr.coreLoad tA { lsB with reg := 32 }).wf = false ∧ (Instr.coreStore tA { lsB with ilen := 3 }).wf = false ∧
    (Instr.csrAccess tA 4096 .rw 0 0).wf = false ∧ (Instr.unitStart tA 8).wf = false ∧ (Instr.syncCellWrite tA .core 64 true 0).wf = false := by decide
theorem smoke_headers : (Instr.rawRead (hdrTo (.tile wild)) 0 4).wf = false ∧ (Instr.rawRead (hdrTo (.dock 56 0)) 0 4).wf = false ∧
    (Instr.rawRead (hdrTo (.dock 0 8)) 0 4).wf = false ∧ (Instr.rawRead (hdrTo (.fc 56)) 0 4).wf = false ∧ (Instr.rawRead (hdrTo (.gate 4)) 0 4).wf = false ∧
    (Instr.rawRead { hdrTo (.gate 3) with dstGen := 65536 } 0 4).wf = false ∧ (Instr.rawRead (hdrTo (.gate 3)) 0 4).wf = true ∧
    (Instr.dockEgress 0 { h := hdrTo (.fc 56), body := .rawRead 0 4 }).wf = false := by decide
theorem smoke_ranges : (Instr.hedgerowFieldPoll 0 { sframe0 with volts := [1] }).wf = false ∧ (Instr.registerWrite (.stimecmp 0 32) .core 0 0).wf = false ∧
    (Instr.registerWrite (.eth 0 2) .core 0 0).wf = false ∧ (Instr.marginRestart 56).wf = false ∧ (Instr.linkIdleAck 56).wf = false ∧ (Instr.linkLaneOff 0 8).wf = false ∧
    (Instr.sysPing 64).wf = false ∧ (Instr.sbiSystemReset 4).wf = false ∧ (Instr.hartFenceIo 0 32).wf = false ∧ (Instr.ethDescriptorDone 0 2 0).wf = false ∧
    (Instr.glowLit 8).wf = false ∧ (Instr.trimRaise 0 16 0).wf = false ∧ (Instr.i3cEntdaa 128).wf = false ∧ (Instr.setEndpointId 256).wf = false ∧
    (Instr.fieldPowerWave 0 [wild]).wf = false ∧ (Instr.marchDone 0 .tileMemory [wild] []).wf = false := by decide
theorem smoke_table_words (n w : Nat) (s : State) : decodeTableWord n w = none ∧ s.withFetchWord n w = s := ⟨rfl, rfl⟩

end Sys2Proof.Tests
end

section
/-! SUPPORT. The outline of the state: the few parts that the limits bound and that only named commands change, and the rules for keeping it. -/

namespace Sys2Proof.Machine

/-- The parts of the engine that few commands may change: what the limits bound, and what only named commands change. -/
structure Outline where
  pending : List Instr
  time : Nat
  osc : Nat
  waferId : Nat
  board : Bool
  restarts : Nat
  activeKf : Nat
  glow : Tab Nat
  portState : Nat → Nat
  sideMode : Nat
  accounts : Nat
  sessions : Nat
  snaps : Nat

def State.outline (s : State) : Outline where
  pending := s.pending
  time := s.time
  osc := s.osc
  waferId := s.waferId
  board := s.chassis.board
  restarts := s.chassis.restarts
  activeKf := s.mb.activeKf
  glow := s.glow
  portState := fun p => (s.port p).state
  sideMode := s.hedge.sideMode
  accounts := s.hedge.accounts.length
  sessions := s.hedge.sessions.length
  snaps := s.hedge.snaps.length

/-- The outline of the state a command answers. -/
def outlineOf (o : Out) : Option Outline :=
  match o with
  | .next u => some u.outline
  | .fault _ | .refused _ => none

@[simp] theorem outlineOf_next (s : State) : outlineOf (.next s) = some s.outline := rfl

/-- What a Gliast command does keeps this outline. -/
def CmdOut.keeps (o : CmdOut) (l : Outline) : Prop :=
  match o with
  | .refuse _ _ => True
  | .done _ u | .long _ _ u | .defer u => u.outline = l

@[simp] theorem CmdOut.keeps_refuse (c : Nat) (w : List Word) (l : Outline) : (CmdOut.refuse c w).keeps l := trivial
@[simp] theorem CmdOut.keeps_done (w : List Word) (u : State) (l : Outline) : (CmdOut.done w u).keeps l ↔ u.outline = l := Iff.rfl
@[simp] theorem CmdOut.keeps_long (o : Option Nat) (w : List Word) (u : State) (l : Outline) : (CmdOut.long o w u).keeps l ↔ u.outline = l := Iff.rfl
@[simp] theorem CmdOut.keeps_defer (u : State) (l : Outline) : (CmdOut.defer u).keeps l ↔ u.outline = l := Iff.rfl

/-- An update of the state that puts nothing new into its outline. -/
@[simp] theorem State.outline_update (a : State) (free : Nat) (mesh : Mesh) (mb : Mailbox) (cond : Conductor) (boot : Boot) (tiles : Tab Tile)
    (fields : Tab Field) (hosts : Tab HostNode) (chassis : Chassis) (watch : Watch) (hedge : Hedge) (flash : Flash)
    (scarabQ : Tab (List Ev)) (scarab : Scarab) (hm : mb.activeKf = a.mb.activeKf) (hb : chassis.board = a.chassis.board)
    (hr : chassis.restarts = a.chassis.restarts) (hs : hedge.sideMode = a.hedge.sideMode) (ha : hedge.accounts.length = a.hedge.accounts.length)
    (hss : hedge.sessions.length = a.hedge.sessions.length) (hn : hedge.snaps.length = a.hedge.snaps.length) :
    State.outline ⟨a.pending, a.time, free, a.osc, a.waferId, mesh, mb, cond, boot, tiles, fields, a.ports, a.glow, hosts, chassis, watch, hedge,
      flash, scarabQ, scarab⟩ = a.outline := by
  simp [State.outline, hm, hb, hr, hs, ha, hss, hn]; rfl

@[simp] theorem State.outline_ite (c : Prop) [Decidable c] (a b : State) :
    (if c then a else b).outline = if c then a.outline else b.outline := apply_ite ..

@[simp] theorem CmdOut.keeps_ite (c : Prop) [Decidable c] (a b : CmdOut) (l : Outline) :
    (if c then a else b).keeps l ↔ if c then a.keeps l else b.keeps l := by split <;> rfl

/-- A fold of steps that keep the outline keeps it. -/
@[simp] theorem State.outline_foldl {α : Type} (g : State → α → State) (l : List α) (s : State) (h : ∀ s x, (g s x).outline = s.outline) :
    (l.foldl g s).outline = s.outline := by
  induction l generalizing s with
  | nil => rfl
  | cons x l ih => rw [List.foldl_cons, ih, h]

/-- The same where the state is a part of what the fold carries. -/
theorem State.outline_foldl_part {α β : Type} (part : β → State) (g : β → α → β) (h : ∀ b x, (part (g b x)).outline = (part b).outline) (l : List α) (b : β) :
    (part (l.foldl g b)).outline = (part b).outline := by
  induction l generalizing b with
  | nil => rfl
  | cons x l ih => rw [List.foldl_cons, ih, h]

@[simp] theorem State.outline_setPort (s : State) (p : Nat) (v : Port) (h : v.state = (s.port p).state) : (s.setPort p v).outline = s.outline := by
  have hs : (fun q => ((s.setPort p v).port q).state) = fun q => (s.port q).state := by
    funext q
    by_cases e : p = q
    · subst e; simpa using h
    · rw [State.port_setPort_other _ _ _ _ e]
  simp only [State.outline, hs]
  rfl

theorem State.outline_setPort_of {u s : State} {p : Nat} {v : Port} (h : u.outline = s.outline) (hv : v.state = (s.port p).state) :
    (u.setPort p v).outline = s.outline :=
  (u.outline_setPort p v (hv.trans (congrFun (congrArg Outline.portState h) p).symm)).trans h

@[simp] theorem State.outline_modPort (s : State) (p : Nat) (g : Port → Port) (h : (g (s.port p)).state = (s.port p).state) :
    (s.modPort p g).outline = s.outline := State.outline_setPort s p _ h

@[simp] theorem State.activeKf_modChan (s : State) (c : Nat) (g : Chan → Chan) : (s.modChan c g).mb.activeKf = s.mb.activeKf := (rfl)

end Sys2Proof.Machine
end

section
/-! SUPPORT. What a port's own operations leave of its state of R268. -/

namespace Sys2Proof.Machine

@[simp] theorem Port.state_emit (p : Port) (w : Waiting) : (p.emit w).state = p.state := (rfl)
@[simp] theorem Port.state_pump (n : Nat) (p : Port) : (Port.pump n p).state = p.state := by
  induction n generalizing p with
  | zero => rfl
  | succ n ih => unfold Port.pump; split <;> [rfl; split <;> simp [ih]]
@[simp] theorem Port.state_say (p : Port) (x : CtlFrame) : (p.say x).state = p.state := (rfl)
@[simp] theorem Port.state_link (p : Port) (op arg : Nat) : (p.link op arg).state = p.state := (rfl)
@[simp] theorem Port.state_flush (p : Port) : p.flush.state = p.state := Port.state_pump _ p
@[simp] theorem Port.state_acked (p : Port) (seq : Nat) : (p.acked seq).state = p.state := by unfold Port.acked; split <;> rfl
@[simp] theorem Port.state_credited (p : Port) (vc n : Nat) : (p.credited vc n).state = p.state := by unfold Port.credited; split <;> rfl
@[simp] theorem Port.state_discard (p : Port) : p.discard.state = p.state := (rfl)
@[simp] theorem Port.state_laneBack (p : Port) (lane : Nat) : (p.laneBack lane).state = p.state := (rfl)
@[simp] theorem Port.state_record (p : Port) (es : List Pend) : (p.record es).state = p.state := by
  unfold Port.record
  induction es generalizing p with
  | nil => rfl
  | cons e es ih => rw [List.foldl_cons, ih]
@[simp] theorem Port.state_header (p : Port) (fr : Sys2Proof.Frame) : (p.header fr).state = p.state := by simp [Port.header]
@[simp] theorem Port.state_writeRoute (p : Port) (e i : Nat) (v : Word) : (p.writeRoute e i v).state = p.state := (rfl)
@[simp] theorem Port.state_writeProxy (p : Port) (q i : Nat) (v : Word) : (p.writeProxy q i v).state = p.state := (rfl)
end Sys2Proof.Machine
end

section
/-! SUPPORT. The operations and the commands that keep the outline, in the order of the model. -/

namespace Sys2Proof.Machine

/-! ## Ops -/

@[simp] theorem State.outline_setTile (s : State) (t : TileId) (tl : Tile) : (s.setTile t tl).outline = s.outline := by
  simp [State.setTile]
@[simp] theorem State.outline_modTile (s : State) (t : TileId) (f : Tile → Tile) : (s.modTile t f).outline = s.outline := by
  simp [State.modTile]
@[simp] theorem State.outline_setField (s : State) (f : Nat) (fd : Field) : (s.setField f fd).outline = s.outline := by
  simp [State.setField]
@[simp] theorem State.outline_modField (s : State) (f : Nat) (g : Field → Field) : (s.modField f g).outline = s.outline := by
  simp [State.modField]
@[simp] theorem State.outline_event (s : State) (src code : Nat) (detail : List Nat) : (s.event src code detail).outline = s.outline := by
  simp [State.event]
@[simp] theorem State.outline_sensorNow (s : State) (f i : Nat) (x : Sensor) (reading : Nat) : (s.sensorNow f i x reading).outline = s.outline := by
  simp [State.sensorNow]
@[simp] theorem State.outline_moduleSensor (s : State) (i top : Nat) (x : Int) : (s.moduleSensor i top x).outline = s.outline := by
  simp [State.moduleSensor]
@[simp] theorem State.outline_raise (s : State) (t : TileId) (unit code : Nat) (info0 info1 : Word) :
    (s.raise t unit code info0 info1).outline = s.outline := by
  simp [State.raise]
@[simp] theorem State.outline_sendFrom (s : State) (a : TileId) (p : Pkt) : (s.sendFrom a p).outline = s.outline := by
  simp [State.sendFrom]
@[simp] theorem State.outline_send (s : State) (p : Pkt) : (s.send p).outline = s.outline := by
  simp [State.send]
@[simp] theorem State.outline_arrive (s : State) (p : Pkt) : (s.arrive p).outline = s.outline := by
  simp [State.arrive]
@[simp] theorem State.outline_status (s : State) (h : Hdr) (gen : Nat) (re : Re) (code : Nat) : (s.status h gen re code).outline = s.outline := by
  simp [State.status]
@[simp] theorem State.outline_reply (s : State) (h : Hdr) (gen : Nat) (re : Re) (code : Nat) (data : List Byte) :
    (s.reply h gen re code data).outline = s.outline := by
  simp [State.reply]
@[simp] theorem State.outline_freeVal (s : State) : s.freeVal.2.outline = s.outline := by
  simp [State.freeVal]

/-! ## Operands -/

@[simp] theorem State.outline_logUe (s : State) (t : TileId) (o kind : Nat) : (s.logUe t o kind).outline = s.outline := by
  simp [State.logUe]
@[simp] theorem State.outline_countCe (s : State) (t : TileId) (w : Nat) : (s.countCe t w).outline = s.outline := by
  simp [State.countCe]
@[simp] theorem State.outline_correctWords (s : State) (t : TileId) (ws : List Nat) : (s.correctWords t ws).outline = s.outline := by
  simp [State.correctWords]
@[simp] theorem State.outline_correct (s : State) (t : TileId) (o n : Nat) : (s.correct t o n).outline = s.outline := by
  simp [State.correct]
@[simp] theorem State.outline_merge (s : State) (t : TileId) (o n : Nat) : (s.merge t o n).outline = s.outline := by
  simp [State.merge]
@[simp] theorem State.outline_ueFault (s : State) (t : TileId) (unit o unitId : Nat) : (s.ueFault t unit o unitId).outline = s.outline := by
  simp [State.ueFault]
@[simp] theorem State.outline_served (s : State) (t : TileId) (req o : Nat) : (s.served t req o).outline = s.outline := by
  simp [State.served]
@[simp] theorem State.outline_reading (s : State) (t : TileId) (unit o n : Nat) (k : List Byte → State → State)
    (hk : ∀ bs u, (k bs u).outline = u.outline) : (s.reading t unit o n k).outline = s.outline := by
  unfold State.reading; split <;> simp [hk]
@[simp] theorem State.outline_writing (s : State) (t : TileId) (unit o n : Nat) (k : State → State) (hk : ∀ u, (k u).outline = u.outline) :
    (s.writing t unit o n k).outline = s.outline := by
  unfold State.writing; split <;> simp [hk]

/-! ## CoreOps -/

@[simp] theorem State.outline_endThatch (s : State) (t : TileId) : (s.endThatch t).outline = s.outline := by
  simp [State.endThatch]
@[simp] theorem State.outline_finish (s : State) (t : TileId) (a : XArgs) (st v cost : Nat) : (s.finish t a st v cost).outline = s.outline := by
  simp [State.finish]
@[simp] theorem State.outline_finishRaw (s : State) (t : TileId) (a : XArgs) (st : Nat) (v : Word) (cost : Nat) :
    (s.finishRaw t a st v cost).outline = s.outline := by
  simp [State.finishRaw]
@[simp] theorem State.outline_stallOn (s : State) (t : TileId) (op : XOp) (a : XArgs) (w : StallWait) (obj : Nat) :
    (s.stallOn t op a w obj).outline = s.outline := by
  simp [State.stallOn]
@[simp] theorem State.outline_badArg (s : State) (t : TileId) (op : XOp) (a : XArgs) (v : Word) : (s.badArg t op a v).outline = s.outline := by
  simp [State.badArg]
@[simp] theorem outline_issue (op : XOp) (body : TileId → XArgs → State → State) (t : TileId) (a : XArgs) (s : State)
    (hb : (body t a s).outline = s.outline) : (issue op body t a s).outline = s.outline := by
  simp [issue, hb]

/-! ## SyncCells -/

@[simp] theorem State.outline_endWait (s : State) (t : TileId) (st : Nat) : (s.endWait t st).outline = s.outline := by
  unfold State.endWait; split <;> simp
@[simp] theorem State.outline_settleCell (s : State) (t : TileId) (c : Nat) (k : CellTurn) : (s.settleCell t c k).outline = s.outline := by
  simp [State.settleCell]
@[simp] theorem State.outline_signalLocal (s : State) (t : TileId) (rank c a : Nat) : (s.signalLocal t rank c a).outline = s.outline := by
  simp [State.signalLocal]
@[simp] theorem State.outline_writeLocal (s : State) (t : TileId) (c : Nat) (cl : Cell) : (s.writeLocal t c cl).outline = s.outline := by
  simp [State.writeLocal]
@[simp] theorem State.outline_answerWaiter (s : State) (f : Nat) (w : Waiter) (st : Nat) : (s.answerWaiter f w st).outline = s.outline := by
  simp [State.answerWaiter]
@[simp] theorem State.outline_releaseList (s : State) (f : Nat) (ws : List Waiter) (st : Nat) : (s.releaseList f ws st).outline = s.outline := by
  simp [State.releaseList]
@[simp] theorem State.outline_setCellG (s : State) (f i : Nat) (c : Cell) : (s.setCellG f i c).outline = s.outline := by
  simp [State.setCellG]
@[simp] theorem State.outline_signalGlobal (s : State) (f i a : Nat) : (s.signalGlobal f i a).outline = s.outline := by
  simp [State.signalGlobal]
@[simp] theorem State.outline_evalGlobal (s : State) (f i : Nat) : (s.evalGlobal f i).outline = s.outline := by
  simp [State.evalGlobal]
@[simp] theorem State.outline_cellSet (s : State) (f i : Nat) (c : Cell) (by_ : Nat) : (s.cellSet f i c by_).outline = s.outline := by
  simp [State.cellSet]
@[simp] theorem State.outline_cellForce (s : State) (f i : Nat) (who : Option (TileId × Nat)) (by_ : Nat) :
    (s.cellForce f i who by_).outline = s.outline := by
  simp [State.cellForce]

/-! ## BufferOps -/

@[simp] theorem outline_xHset (t : TileId) (a : XArgs) (s : State) : (xHset t a s).outline = s.outline := by
  simp [xHset]
@[simp] theorem outline_xHclr (t : TileId) (a : XArgs) (s : State) : (xHclr t a s).outline = s.outline := by
  simp [xHclr]
@[simp] theorem outline_xLdt (t : TileId) (a : XArgs) (s : State) : (xLdt t a s).outline = s.outline := by
  simp [xLdt]
@[simp] theorem outline_xStt (t : TileId) (a : XArgs) (s : State) : (xStt t a s).outline = s.outline := by
  simp [xStt]
@[simp] theorem outline_xTfill (t : TileId) (a : XArgs) (s : State) : (xTfill t a s).outline = s.outline := by
  simp [xTfill]
@[simp] theorem outline_execHset (t : TileId) (a : XArgs) (s : State) : outlineOf (execHset t a s) = some s.outline := by
  simp [execHset]
@[simp] theorem outline_execHclr (t : TileId) (a : XArgs) (s : State) : outlineOf (execHclr t a s) = some s.outline := by
  simp [execHclr]
@[simp] theorem outline_execLdt (t : TileId) (a : XArgs) (s : State) : outlineOf (execLdt t a s) = some s.outline := by
  simp [execLdt]
@[simp] theorem outline_execStt (t : TileId) (a : XArgs) (s : State) : outlineOf (execStt t a s) = some s.outline := by
  simp [execStt]
@[simp] theorem outline_execTfill (t : TileId) (a : XArgs) (s : State) : outlineOf (execTfill t a s) = some s.outline := by
  simp [execTfill]

/-! ## Header -/

@[simp] theorem State.outline_flitsOf (s : State) (p : Pkt) : (s.flitsOf p).2.outline = s.outline := by
  unfold State.flitsOf; split <;> simp

/-! ## Writes -/

@[simp] theorem State.outline_sendTagged (s : State) (t : TileId) (h : Hdr) (body : Body) (f : SyncUnit → SyncUnit) :
    (s.sendTagged t h body f).outline = s.outline := by
  simp [State.sendTagged]
@[simp] theorem State.outline_sendWriteOf (s : State) (t : TileId) (h : Hdr) (body : Body) (re : Re) (posted : Bool) (iter : Nat) :
    (s.sendWriteOf t h body re posted iter).outline = s.outline := by
  simp [State.sendWriteOf]
@[simp] theorem State.outline_sendWrite (s : State) (t : TileId) (h : Hdr) (body : Body) (re : Re) (posted : Bool) :
    (s.sendWrite t h body re posted).outline = s.outline := by
  simp [State.sendWrite]
@[simp] theorem State.outline_sendRequest (s : State) (t : TileId) (h : Hdr) (body : Body) : (s.sendRequest t h body).outline = s.outline := by
  simp [State.sendRequest]

/-! ## Packets -/

@[simp] theorem State.outline_refuseAt (s : State) (a : TileId) (p : Pkt) (st : Nat) : (s.refuseAt a p st).outline = s.outline := by
  simp [State.refuseAt]

/-! ## Mesh -/

@[simp] theorem State.outline_modRouter (s : State) (t : TileId) (g : Router → Router) : (s.modRouter t g).outline = s.outline := by
  simp [State.modRouter]
@[simp] theorem State.outline_countLost (s : State) (a aim : TileId) (p : Pkt) : (s.countLost a aim p).outline = s.outline := by
  simp [State.countLost]
@[simp] theorem State.outline_dropFlight (s : State) (i : Nat) : (s.dropFlight i).outline = s.outline := by
  simp [State.dropFlight]
@[simp] theorem State.outline_setFlight (s : State) (i : Nat) (x : Flight) : (s.setFlight i x).outline = s.outline := by
  simp [State.setFlight]
@[simp] theorem State.outline_offerVc0 (s : State) (a : TileId) (d : Nat) : (s.offerVc0 a d).outline = s.outline := by
  simp [State.offerVc0]
@[simp] theorem State.outline_mergeFlight (s : State) (i : Nat) (x : Flight) : (s.mergeFlight i x).2.outline = s.outline := by
  unfold State.mergeFlight; (repeat' split) <;> simp
@[simp] theorem State.outline_passCrossing (s : State) (a b : TileId) (depth : Nat) : (s.passCrossing a b depth).outline = s.outline := by
  simp [State.passCrossing]
@[simp] theorem State.outline_backPressure (s : State) (g b n : Nat) : (s.backPressure g b n).outline = s.outline := by
  simp [State.backPressure]
@[simp] theorem State.outline_refuseFlight (s : State) (i : Nat) (x : Flight) : (s.refuseFlight i x).outline = s.outline := by
  simp [State.refuseFlight]
@[simp] theorem State.outline_countFlits (s : State) (a : TileId) (n : Nat) : (s.countFlits a n).outline = s.outline := by
  simp [State.countFlits]
@[simp] theorem State.outline_crossTake (s : State) (i : Nat) (x : Flight) (d : Nat) (near : Bool) (next : Flight) :
    (s.crossTake i x d near next).outline = s.outline := by
  simp [State.crossTake]
@[simp] theorem State.outline_route1 (s : State) (i : Nat) (merge : Bool) (stall depth : Nat) :
    (s.route1 i merge stall depth).outline = s.outline := by
  unfold State.route1; (repeat' split) <;> simp
@[simp] theorem outline_execRoutePacket (i : Nat) (merge : Bool) (stall depth : Nat) (s : State) :
    outlineOf (execRoutePacket i merge stall depth s) = some s.outline := by
  simp [execRoutePacket]
@[simp] theorem State.outline_turned (s : State) (p : Pkt) : (s.turned p).outline = s.outline := by
  unfold State.turned; (repeat' split) <;> simp
@[simp] theorem State.outline_took (s : State) (p : Pkt) : (s.took p).outline = s.outline := by
  simp [State.took]
@[simp] theorem State.outline_landing (s : State) (p : Pkt) (k : State → State) (hk : ∀ u, (k u).outline = u.outline) :
    (s.landing p k).outline = s.outline := by
  simp [State.landing, hk]

/-! ## QueueUnit -/

@[simp] theorem State.outline_endSend (s : State) (t : TileId) (c st : Nat) : (s.endSend t c st).outline = s.outline := by
  unfold State.endSend; split <;> simp
@[simp] theorem State.outline_ctxClosed (s : State) (t : TileId) (c : Nat) : (s.ctxClosed t c).outline = s.outline := by
  simp [State.ctxClosed]
@[simp] theorem State.outline_ctxLost (s : State) (t : TileId) (c : Nat) (path : Bool) : (s.ctxLost t c path).outline = s.outline := by
  simp [State.ctxLost]
@[simp] theorem State.outline_connAnswer (s : State) (t : TileId) (src : Endp) (r : ConnRef) (code : Nat) :
    (s.connAnswer t src r code).outline = s.outline := by
  simp [State.connAnswer]
@[simp] theorem State.outline_sendContribution (s : State) (t : TileId) (c slot : Nat) (v : Word) :
    (s.sendContribution t c slot v).outline = s.outline := by
  simp [State.sendContribution]
@[simp] theorem State.outline_connStatus (s : State) (h : Hdr) (gen : Nat) (r : ConnRef) (code : Nat) :
    (s.connStatus h gen r code).outline = s.outline := by
  simp [State.connStatus]
@[simp] theorem State.outline_sendCredit (s : State) (t : TileId) (dest : Sender) (r : ConnRef) (n : Nat) :
    (s.sendCredit t dest r n).outline = s.outline := by
  simp [State.sendCredit]
@[simp] theorem State.outline_queueSignal (s : State) (t : TileId) (q : Nat) : (s.queueSignal t q).outline = s.outline := by
  simp [State.queueSignal]
@[simp] theorem State.outline_combCheck (s : State) (t : TileId) (q sl o : Nat) : (s.combCheck t q sl o).outline = s.outline := by
  simp [State.combCheck]
@[simp] theorem State.outline_combAnswer (s : State) (t : TileId) (k : Contribution) (code : Nat) (credit : Bool) :
    (s.combAnswer t k code credit).outline = s.outline := by
  simp [State.combAnswer]
@[simp] theorem State.outline_contribution (s : State) (t : TileId) (k : Contribution) : (s.contribution t k).outline = s.outline := by
  simp [State.contribution]

/-! ## QueueOps -/

@[simp] theorem outline_xQopen (t : TileId) (a : XArgs) (s : State) : (xQopen t a s).outline = s.outline := by
  simp only [xQopen]
  (repeat' split) <;> simp
@[simp] theorem State.outline_sendClose (s : State) (t : TileId) (c op seq : Nat) : (s.sendClose t c op seq).outline = s.outline := by
  simp [State.sendClose]
@[simp] theorem State.outline_closeQueue (s : State) (t : TileId) (q : Nat) : (s.closeQueue t q).outline = s.outline := by
  simp [State.closeQueue]
@[simp] theorem outline_xQclose (t : TileId) (a : XArgs) (s : State) : (xQclose t a s).outline = s.outline := by
  simp [xQclose]
@[simp] theorem State.outline_qsendOpen (s : State) (t : TileId) (op : XOp) (a : XArgs) (c : Nat) (r : HRef) (try_ : Bool) :
    (s.qsendOpen t op a c r try_).outline = s.outline := by
  simp [State.qsendOpen]
@[simp] theorem outline_xSend (op : XOp) (try_ : Bool) (t : TileId) (a : XArgs) (s : State) : (xSend op try_ t a s).outline = s.outline := by
  simp [xSend]
@[simp] theorem outline_xQsend (t : TileId) (a : XArgs) (s : State) : (xQsend t a s).outline = s.outline := by
  simp [xQsend]
@[simp] theorem outline_xQtrysend (t : TileId) (a : XArgs) (s : State) : (xQtrysend t a s).outline = s.outline := by
  simp [xQtrysend]
@[simp] theorem State.outline_takeMessage (s : State) (t : TileId) (op : XOp) (a : XArgs) (q : Nat) (r : HRef) (try_ : Bool) (slot len : Nat)
    (f : Sender) (live : Bool) (rest : List REntry) : (s.takeMessage t op a q r try_ slot len f live rest).outline = s.outline := by
  simp [State.takeMessage]
@[simp] theorem outline_xReceive (op : XOp) (try_ : Bool) (t : TileId) (a : XArgs) (s : State) : (xReceive op try_ t a s).outline = s.outline := by
  simp only [xReceive]
  (repeat' split) <;> simp
@[simp] theorem outline_xQrecv (t : TileId) (a : XArgs) (s : State) : (xQrecv t a s).outline = s.outline := by
  simp [xQrecv]
@[simp] theorem outline_xQtryrecv (t : TileId) (a : XArgs) (s : State) : (xQtryrecv t a s).outline = s.outline := by
  simp [xQtryrecv]
@[simp] theorem outline_xQselect (t : TileId) (a : XArgs) (s : State) : (xQselect t a s).outline = s.outline := by
  simp only [xQselect]
  (repeat' split) <;> simp
@[simp] theorem outline_xQstat (t : TileId) (a : XArgs) (s : State) : (xQstat t a s).outline = s.outline := by
  simp [xQstat]
@[simp] theorem outline_execQopen (t : TileId) (a : XArgs) (s : State) : outlineOf (execQopen t a s) = some s.outline := by
  simp [execQopen]
@[simp] theorem outline_execQclose (t : TileId) (a : XArgs) (s : State) : outlineOf (execQclose t a s) = some s.outline := by
  simp [execQclose]
@[simp] theorem outline_execQsend (t : TileId) (a : XArgs) (s : State) : outlineOf (execQsend t a s) = some s.outline := by
  simp [execQsend]
@[simp] theorem outline_execQtrysend (t : TileId) (a : XArgs) (s : State) : outlineOf (execQtrysend t a s) = some s.outline := by
  simp [execQtrysend]
@[simp] theorem outline_execQrecv (t : TileId) (a : XArgs) (s : State) : outlineOf (execQrecv t a s) = some s.outline := by
  simp [execQrecv]
@[simp] theorem outline_execQtryrecv (t : TileId) (a : XArgs) (s : State) : outlineOf (execQtryrecv t a s) = some s.outline := by
  simp [execQtryrecv]
@[simp] theorem outline_execQselect (t : TileId) (a : XArgs) (s : State) : outlineOf (execQselect t a s) = some s.outline := by
  simp [execQselect]
@[simp] theorem outline_execQstat (t : TileId) (a : XArgs) (s : State) : outlineOf (execQstat t a s) = some s.outline := by
  simp [execQstat]

/-! ## ConnArrivals -/

@[simp] theorem State.outline_openAt (s : State) (t : TileId) (h : Hdr) (b : OpenBody) : (s.openAt t h b).outline = s.outline := by
  simp [State.openAt]
@[simp] theorem outline_execOpenArrives (h : Hdr) (b : OpenBody) (s : State) : outlineOf (execOpenArrives h b s) = some s.outline := by
  unfold execOpenArrives; split <;> simp
@[simp] theorem outline_execProbe (h : Hdr) (b : ProbeBody) (s : State) : outlineOf (execProbe h b s) = some s.outline := by
  unfold execProbe; split <;> simp
@[simp] theorem outline_execSenderClose (h : Hdr) (b : CloseBody) (s : State) : outlineOf (execSenderClose h b s) = some s.outline := by
  unfold execSenderClose
  refine congrArg some (State.outline_landing _ _ _ fun u => ?_)
  simp
  (repeat' split) <;> simp
@[simp] theorem outline_execReaderNotice (h : Hdr) (b : CloseBody) (s : State) : outlineOf (execReaderNotice h b s) = some s.outline := by
  unfold execReaderNotice; split <;> simp
@[simp] theorem outline_execCloseAfterLoss (h : Hdr) (b : CloseBody) (s : State) : outlineOf (execCloseAfterLoss h b s) = some s.outline := by
  unfold execCloseAfterLoss
  refine congrArg some (State.outline_landing _ _ _ fun u => ?_)
  simp
  (repeat' split) <;> simp
@[simp] theorem outline_execRecordTimeout (t : TileId) (r : Nat) (s : State) : outlineOf (execRecordTimeout t r s) = some s.outline := by
  simp only [execRecordTimeout]
  (repeat' split) <;> simp
@[simp] theorem outline_execGrant (h : Hdr) (b : GrantBody) (s : State) : outlineOf (execGrant h b s) = some s.outline := by
  unfold execGrant
  refine congrArg some (State.outline_landing _ _ _ fun u => ?_)
  simp
  (repeat' split) <;> simp
@[simp] theorem outline_execConnectionCredit (h : Hdr) (b : CreditBody) (s : State) : outlineOf (execConnectionCredit h b s) = some s.outline := by
  unfold execConnectionCredit; split <;> simp
@[simp] theorem State.outline_dropMessage (s : State) (t : TileId) (h : Hdr) (b : MsgBody) (order : Nat) :
    (s.dropMessage t h b order).outline = s.outline := by
  simp [State.dropMessage]
@[simp] theorem State.outline_landMessage (s : State) (t : TileId) (h : Hdr) (b : MsgBody) (i : Nat) (g : Grant) :
    (s.landMessage t h b i g).outline = s.outline := by
  simp [State.landMessage]
@[simp] theorem outline_execMessage (h : Hdr) (b : MsgBody) (s : State) : outlineOf (execMessage h b s) = some s.outline := by
  unfold execMessage
  refine congrArg some (State.outline_landing _ _ _ fun u => ?_)
  simp
  (repeat' split) <;> simp
@[simp] theorem outline_execCombine (h : Hdr) (cs : List Contribution) (s : State) : outlineOf (execCombine h cs s) = some s.outline := by
  unfold execCombine; split <;> simp
@[simp] theorem outline_execCombineFoldDone (t : TileId) (q slot : Nat) (s : State) :
    outlineOf (execCombineFoldDone t q slot s) = some s.outline := by
  simp only [execCombineFoldDone]
  (repeat' split) <;> simp
@[simp] theorem outline_execRqEnable (t : TileId) (w : Writer) (q : Nat) (val : Word) (s : State) :
    outlineOf (execRqEnable t w q val s) = some s.outline := by
  simp [execRqEnable]
@[simp] theorem outline_execRqDisable (t : TileId) (w : Writer) (q : Nat) (val : Word) (s : State) :
    outlineOf (execRqDisable t w q val s) = some s.outline := by
  simp [execRqDisable]
@[simp] theorem outline_execConnProbe (t : TileId) (st : Stream) (s : State) : outlineOf (execConnProbe t st s) = some s.outline := by
  simp only [execConnProbe]
  split <;> simp

/-! ## ForageUnit -/

@[simp] theorem State.outline_correctOperand (s : State) (t : TileId) (d : Desc) (which : Nat) :
    (s.correctOperand t d which).outline = s.outline := by
  simp [State.correctOperand]
@[simp] theorem State.outline_firingUnit (s : State) (t : TileId) (f : Option (Nat × Nat)) (ok : Bool) :
    (s.firingUnit t f ok).outline = s.outline := by
  simp only [State.firingUnit]
  (repeat' split) <;> simp
@[simp] theorem State.outline_failUnit (s : State) (t : TileId) (e : Nat) (u : FUnit) : (s.failUnit t e u).outline = s.outline := by
  unfold State.failUnit; split <;> simp
@[simp] theorem State.outline_writePieces (s : State) (t : TileId) (ps : List (Nat × List Byte)) : (s.writePieces t ps).outline = s.outline := by
  simp [State.writePieces]
@[simp] theorem State.outline_settlePair (s : State) (mine theirs : List (Nat × Nat)) : (s.settlePair mine theirs).2.2.outline = s.outline := by
  simp only [State.settlePair]
  (repeat' split) <;> simp
@[simp] theorem State.outline_settleOverlaps (s : State) (t : TileId) (mine : List (Nat × Nat)) :
    (s.settleOverlaps t mine).2.outline = s.outline := by
  unfold State.settleOverlaps
  refine (State.outline_foldl_part Prod.snd _ (fun p i => ?_) _ _).trans (State.outline_foldl_part Prod.snd _ (fun p e => ?_) _ _)
  · split <;> simp
  · split
    · rfl
    · split <;> simp
@[simp] theorem State.outline_retired (s : State) (t : TileId) (u : FUnit) (fl eng : Nat) : (s.retired t u fl eng).outline = s.outline := by
  simp [State.retired]
@[simp] theorem State.outline_sendElems (s : State) (t : TileId) (d : Desc) (es : List Word) (n : Nat) (i : Nat) :
    (s.sendElems t d es n i).2.outline = s.outline := by
  induction n generalizing s i with
  | zero => rfl
  | succ n ih =>
    simp only [State.sendElems]
    split <;> simp [ih]

/-! ## ForageOps -/

@[simp] theorem outline_xFpush (t : TileId) (a : XArgs) (s : State) : (xFpush t a s).outline = s.outline := by
  simp only [xFpush]
  split
  · simp
  · split
    · simp
    · refine State.outline_reading _ _ _ _ _ _ fun bs u => ?_
      (repeat' split) <;> simp
@[simp] theorem State.outline_askSteal (s : State) (t : TileId) (engine : Nat) (v : TileId) (rest : List TileId) :
    (s.askSteal t engine v rest).outline = s.outline := by
  simp [State.askSteal]
@[simp] theorem outline_xFsteal (t : TileId) (a : XArgs) (s : State) : (xFsteal t a s).outline = s.outline := by
  simp only [xFsteal]
  (repeat' split) <;> simp
@[simp] theorem outline_xFwait (t : TileId) (a : XArgs) (s : State) : (xFwait t a s).outline = s.outline := by
  simp [xFwait]
@[simp] theorem outline_execFpush (t : TileId) (a : XArgs) (s : State) : outlineOf (execFpush t a s) = some s.outline := by
  simp [execFpush]
@[simp] theorem outline_execFsteal (t : TileId) (a : XArgs) (s : State) : outlineOf (execFsteal t a s) = some s.outline := by
  simp [execFsteal]
@[simp] theorem outline_execFwait (t : TileId) (a : XArgs) (s : State) : outlineOf (execFwait t a s) = some s.outline := by
  simp [execFwait]

/-! ## FoldUnitOps -/

@[simp] theorem State.outline_tokenCredit (s : State) (t : TileId) (b : TokenBody) : (s.tokenCredit t b).outline = s.outline := by
  simp [State.tokenCredit]
@[simp] theorem State.outline_purge (s : State) (t : TileId) (sl : Nat) : (s.purge t sl).2.outline = s.outline := by
  simp only [State.purge]
  split <;> simp
@[simp] theorem State.outline_bindTokens (s : State) (t : TileId) (epoch : Nat) : (s.bindTokens t epoch).outline = s.outline := by
  refine State.outline_foldl _ _ _ fun u x => ?_
  simp
  (repeat' split) <;> simp
@[simp] theorem State.outline_bindAll (s : State) (t : TileId) : (s.bindAll t).outline = s.outline := by
  refine State.outline_foldl _ _ _ fun u x => ?_
  split <;> simp

/-! ## WindowOps -/

@[simp] theorem outline_xWopen (t : TileId) (a : XArgs) (s : State) : (xWopen t a s).outline = s.outline := by
  simp [xWopen]
@[simp] theorem outline_xWclose (t : TileId) (a : XArgs) (s : State) : (xWclose t a s).outline = s.outline := by
  simp [xWclose]
@[simp] theorem State.outline_windowAnswer (s : State) (h : Hdr) (b : RemoteBody) (isWrite : Bool) (st : Nat) (data : List Byte) :
    (s.windowAnswer h b isWrite st data).outline = s.outline := by
  simp [State.windowAnswer]
@[simp] theorem State.outline_windowFault (s : State) (t : TileId) (h : Hdr) (b : RemoteBody) (isWrite : Bool) (u : Nat) :
    (s.windowFault t h b isWrite u).outline = s.outline := by
  simp [State.windowFault]
@[simp] theorem State.outline_windowServe (s : State) (t : TileId) (h : Hdr) (b : RemoteBody) (data : Option (List Byte)) :
    (s.windowServe t h b data).outline = s.outline := by
  simp only [State.windowServe]
  (repeat' split) <;> simp
@[simp] theorem State.outline_windowRefuse (s : State) (t : TileId) (h : Hdr) (b : RemoteBody) (isWrite : Bool) (order : Nat) :
    (s.windowRefuse t h b isWrite order).outline = s.outline := by
  simp [State.windowRefuse]
@[simp] theorem State.outline_windowTimeout (s : State) (t : TileId) (h : Hdr) (b : RemoteBody) (isWrite : Bool) :
    (s.windowTimeout t h b isWrite).outline = s.outline := by
  simp [State.windowTimeout]
@[simp] theorem State.outline_windowRequest (s : State) (t : TileId) (h : Hdr) (b : RemoteBody) (data : Option (List Byte)) :
    (s.windowRequest t h b data).outline = s.outline := by
  simp only [State.windowRequest]
  (repeat' split) <;> simp
@[simp] theorem outline_execWopen (t : TileId) (a : XArgs) (s : State) : outlineOf (execWopen t a s) = some s.outline := by
  simp [execWopen]
@[simp] theorem outline_execWclose (t : TileId) (a : XArgs) (s : State) : outlineOf (execWclose t a s) = some s.outline := by
  simp [execWclose]
@[simp] theorem outline_execRemoteRead (h : Hdr) (b : RemoteBody) (s : State) : outlineOf (execRemoteRead h b s) = some s.outline := by
  simp [execRemoteRead]
@[simp] theorem outline_execRemoteWrite (h : Hdr) (b : RemoteBody) (data : List Byte) (s : State) :
    outlineOf (execRemoteWrite h b data s) = some s.outline := by
  simp [execRemoteWrite]
@[simp] theorem outline_execWindowHeldServe (t : TileId) (w : Nat) (s : State) : outlineOf (execWindowHeldServe t w s) = some s.outline := by
  simp only [execWindowHeldServe]
  split <;> simp
@[simp] theorem outline_execWindowHoldTimeout (t : TileId) (w : Nat) (s : State) : outlineOf (execWindowHoldTimeout t w s) = some s.outline := by
  simp only [execWindowHoldTimeout]
  split <;> simp
@[simp] theorem State.outline_windowFlush (s : State) (t : TileId) (w : Nat) : (s.windowFlush t w).outline = s.outline := by
  simp [State.windowFlush]
@[simp] theorem outline_execWindowDeadline (t : TileId) (w : Nat) (s : State) : outlineOf (execWindowDeadline t w s) = some s.outline := by
  simp [execWindowDeadline]

/-! ## Engines -/

@[simp] theorem State.outline_wake (s : State) (t : TileId) : (s.wake t).outline = s.outline := by
  simp [State.wake]
@[simp] theorem State.outline_sleep (s : State) (t : TileId) : (s.sleep t).outline = s.outline := by
  simp [State.sleep]
@[simp] theorem outline_execEngineSleep (t : TileId) (s : State) : outlineOf (execEngineSleep t s) = some s.outline := by
  simp [execEngineSleep]
@[simp] theorem State.outline_metaFault (s : State) (t : TileId) (e : Nat) (u : FUnit) (f : Nat × Nat × Nat) :
    (s.metaFault t e u f).outline = s.outline := by
  simp [State.metaFault]
@[simp] theorem State.outline_askOperand (s : State) (t : TileId) (e : Nat) (u : FUnit) (entry which at_ : Nat) :
    (s.askOperand t e u entry which at_).outline = s.outline := by
  simp [State.askOperand]
@[simp] theorem State.outline_readOperands (s : State) (t : TileId) (e : Nat) (u : FUnit) (entry : Nat) :
    (s.readOperands t e u entry).outline = s.outline := by
  simp [State.readOperands]
@[simp] theorem State.outline_setupChecks (s : State) (t : TileId) (e : Nat) (u : FUnit) : (s.setupChecks t e u).outline = s.outline := by
  simp only [State.setupChecks]
  (repeat' split) <;> simp
@[simp] theorem State.outline_startUnit (s : State) (t : TileId) (e : Nat) (u : FUnit) (rest : List FUnit) :
    (s.startUnit t e u rest).outline = s.outline := by
  unfold State.startUnit; split <;> simp
@[simp] theorem outline_execUnitStart (t : TileId) (e : Nat) (s : State) : outlineOf (execUnitStart t e s) = some s.outline := by
  simp only [execUnitStart]
  (repeat' split) <;> simp
@[simp] theorem State.outline_countIssue (s : State) (t : TileId) (d : Desc) : (s.countIssue t d).outline = s.outline := by
  simp only [State.countIssue]
  split <;> simp
@[simp] theorem State.outline_stallEngine (s : State) (t : TileId) (e : Nat) (r : RunUnit) (restart : Bool) :
    (s.stallEngine t e r restart).outline = s.outline := by
  simp [State.stallEngine]
@[simp] theorem State.outline_sendResult (s : State) (t : TileId) (e : Nat) (r : RunUnit) (entry : Nat) (o : UnitOut) :
    (s.sendResult t e r entry o).outline = s.outline := by
  simp [State.sendResult]
@[simp] theorem State.outline_putResult (s : State) (t : TileId) (req : Nat) (d : Desc) (bs : List Byte) (lost : List Nat) :
    (s.putResult t req d bs lost).2.outline = s.outline := by
  simp only [State.putResult]
  split <;> simp
@[simp] theorem State.outline_retireOwn (s : State) (t : TileId) (e : Nat) (r : RunUnit) (o : UnitOut) :
    (s.retireOwn t e r o).outline = s.outline := by
  simp only [State.retireOwn]
  (repeat' split) <;> simp
@[simp] theorem State.outline_readOwn (s : State) (t : TileId) (e : Nat) (d : Desc) : (s.readOwn t e d).outline = s.outline := by
  simp [State.readOwn]
@[simp] theorem State.outline_retireEngine (s : State) (t : TileId) (e : Nat) : (s.retireEngine t e).outline = s.outline := by
  simp only [State.retireEngine]
  (repeat' split) <;> simp
@[simp] theorem State.outline_failOut (s : State) (t : TileId) (i : Nat) (u : FUnit) : (s.failOut t i u).outline = s.outline := by
  simp [State.failOut]
@[simp] theorem State.outline_landResult (s : State) (t : TileId) (i : Nat) : (s.landResult t i).outline = s.outline := by
  simp only [State.landResult]
  (repeat' split) <;> simp
@[simp] theorem outline_execUnitRetire (t : TileId) (e : Nat) (s : State) : outlineOf (execUnitRetire t e s) = some s.outline := by
  simp [execUnitRetire]
@[simp] theorem outline_execIntraTileSteal (t : TileId) (e : Nat) (s : State) : outlineOf (execIntraTileSteal t e s) = some s.outline := by
  simp only [execIntraTileSteal]
  (repeat' split) <;> simp
@[simp] theorem State.outline_searchAll (s : State) (t : TileId) : (s.searchAll t).outline = s.outline := by
  refine State.outline_foldl _ _ _ fun u x => ?_
  split <;> simp
@[simp] theorem outline_execStealSearch (t : TileId) (s : State) : outlineOf (execStealSearch t s) = some s.outline := by
  simp [execStealSearch]
@[simp] theorem outline_execStealBackoffExpiry (t : TileId) (s : State) : outlineOf (execStealBackoffExpiry t s) = some s.outline := by
  simp only [execStealBackoffExpiry]
  split <;> simp
@[simp] theorem State.outline_stealMissed (s : State) (t : TileId) (e st : Nat) : (s.stealMissed t e st).outline = s.outline := by
  simp only [State.stealMissed]
  (repeat' split) <;> simp
@[simp] theorem State.outline_stealGot (s : State) (t : TileId) (e : Nat) (u : StolenUnit) : (s.stealGot t e u).outline = s.outline := by
  simp only [State.stealGot]
  (repeat' split) <;> simp
@[simp] theorem outline_execStealReply (h : Hdr) (u : Option StolenUnit) (s : State) : outlineOf (execStealReply h u s) = some s.outline := by
  unfold execStealReply
  refine congrArg some (State.outline_landing _ _ _ fun u => ?_)
  simp
  (repeat' split) <;> simp
@[simp] theorem State.outline_voidOut (s : State) (t : TileId) (i : Nat) (u : FUnit) : (s.voidOut t i u).outline = s.outline := by
  simp [State.voidOut]
@[simp] theorem State.outline_lostOperand (s : State) (t : TileId) (e : Nat) (u : FUnit) (entry : Nat) :
    (s.lostOperand t e u entry).outline = s.outline := by
  simp only [State.lostOperand]
  split <;> simp
@[simp] theorem State.outline_operandReply (s : State) (t : TileId) (e which at_ st : Nat) (data : List Byte) :
    (s.operandReply t e which at_ st data).outline = s.outline := by
  simp only [State.operandReply]
  (repeat' split) <;> simp
@[simp] theorem State.outline_giveUnit (s : State) (t : TileId) (thief : TileId) : (s.giveUnit t thief).2.outline = s.outline := by
  simp only [State.giveUnit]
  (repeat' split) <;> simp
@[simp] theorem outline_execSteal (h : Hdr) (engine domain gen : Nat) (s : State) : outlineOf (execSteal h engine domain gen s) = some s.outline := by
  unfold execSteal
  refine congrArg some (State.outline_landing _ _ _ fun u => ?_)
  simp
  (repeat' split) <;> simp
@[simp] theorem outline_execOperandRead (h : Hdr) (b : OperandReq) (s : State) : outlineOf (execOperandRead h b s) = some s.outline := by
  unfold execOperandRead
  refine congrArg some (State.outline_landing _ _ _ fun u => ?_)
  simp
  (repeat' split) <;> simp
@[simp] theorem outline_execResult (h : Hdr) (b : ResultBody) (s : State) : outlineOf (execResult h b s) = some s.outline := by
  unfold execResult
  refine congrArg some (State.outline_landing _ _ _ fun u => ?_)
  simp
  (repeat' split) <;> simp
@[simp] theorem outline_execStealFailureNotice (h : Hdr) (entry homeGen unitId : Nat) (s : State) :
    outlineOf (execStealFailureNotice h entry homeGen unitId s) = some s.outline := by
  refine congrArg some (State.outline_landing _ _ _ fun u => ?_)
  (repeat' split) <;> simp
@[simp] theorem outline_execStealReturnTimeout (t : TileId) (entry : Nat) (s : State) :
    outlineOf (execStealReturnTimeout t entry s) = some s.outline := by
  simp only [execStealReturnTimeout]
  split <;> simp
/-- The state a load goes on with: the one it answers, or the one in which its fault is recorded. -/
def LoadOut.state : LoadOut → State
  | .answer _ _ s => s
  | .fault s => s
@[simp] theorem LoadOut.state_answer (st n : Nat) (s : State) : (LoadOut.answer st n s).state = s := rfl
@[simp] theorem LoadOut.state_fault (s : State) : (LoadOut.fault s).state = s := rfl

/-! ## FoldUnitOps -/

theorem State.outline_dloadAt (s : State) (t : TileId) (sl : Nat) (r : HRef) (purge : Bool) :
    (s.dloadAt t sl r purge).state.outline = s.outline := by
  simp only [State.dloadAt]
  (repeat' split) <;> simp

/-! ## FoldOps -/

@[simp] theorem outline_xDload (t : TileId) (a : XArgs) (s : State) : (xDload t a s).outline = s.outline := by
  simp only [xDload]
  split
  · simp
  · split
    · simp
    · have h := s.outline_dloadAt t (bits (s.rs1 t a) 2 0) (hrefOf (s.rs2 t a)) (nbit a.mods 0)
      split <;> next e => simpa [e] using h
@[simp] theorem outline_xDswitch (t : TileId) (a : XArgs) (s : State) : (xDswitch t a s).outline = s.outline := by
  simp [xDswitch]
@[simp] theorem outline_xDpurge (t : TileId) (a : XArgs) (s : State) : (xDpurge t a s).outline = s.outline := by
  simp [xDpurge]
@[simp] theorem outline_xDsample (t : TileId) (a : XArgs) (s : State) : (xDsample t a s).outline = s.outline := by
  simp [xDsample]
@[simp] theorem outline_execDload (t : TileId) (a : XArgs) (s : State) : outlineOf (execDload t a s) = some s.outline := by
  simp [execDload]
@[simp] theorem outline_execDswitch (t : TileId) (a : XArgs) (s : State) : outlineOf (execDswitch t a s) = some s.outline := by
  simp [execDswitch]
@[simp] theorem outline_execDpurge (t : TileId) (a : XArgs) (s : State) : outlineOf (execDpurge t a s) = some s.outline := by
  simp [execDpurge]
@[simp] theorem outline_execDsample (t : TileId) (a : XArgs) (s : State) : outlineOf (execDsample t a s) = some s.outline := by
  simp [execDsample]

/-! ## FireUnit -/

@[simp] theorem outline_execToken (h : Hdr) (b : TokenBody) (s : State) : outlineOf (execToken h b s) = some s.outline := by
  simp only [execToken]
  split
  · rfl
  · refine congrArg some (State.outline_landing _ _ _ fun u => ?_)
    (repeat' split) <;> simp
@[simp] theorem outline_execTokenCredit (h : Hdr) (slot emit : Nat) (s : State) : outlineOf (execTokenCredit h slot emit s) = some s.outline := by
  unfold execTokenCredit; (repeat' split) <;> simp
@[simp] theorem outline_execTokenOrphan (t : TileId) (i : Nat) (s : State) : outlineOf (execTokenOrphan t i s) = some s.outline := by
  simp only [execTokenOrphan]
  split <;> simp
@[simp] theorem State.outline_runActions (s : State) (t : TileId) (c : Nat) (n : Nat) : (s.runActions t c n).outline = s.outline := by
  induction n generalizing s with
  | zero => rfl
  | succ n ih =>
    simp only [State.runActions]
    (repeat' split) <;> simp [ih]
@[simp] theorem State.outline_controlRead (s : State) (t : TileId) (im : Image) (sl node i : Nat) :
    (s.controlRead t im sl node i).outline = s.outline := by
  simp [State.controlRead]
@[simp] theorem State.outline_issueFiring (s : State) (t : TileId) (im : Image) (c sl node i : Nat) (rest : List (Nat × Nat × Nat)) :
    (s.issueFiring t im c sl node i rest).outline = s.outline := by
  simp only [State.issueFiring]
  split <;> simp
@[simp] theorem State.outline_fireIssue (s : State) (t : TileId) : (s.fireIssue t).outline = s.outline := by
  simp only [State.fireIssue]
  (repeat' split) <;> simp
@[simp] theorem outline_execFiringIssue (t : TileId) (s : State) : outlineOf (execFiringIssue t s) = some s.outline := by
  simp [execFiringIssue]
@[simp] theorem State.outline_sendToken (s : State) (t : TileId) (im : Image) (c : Nat) (x : FCtx) (e j : Nat)
    (src : Option (Nat × Nat × Nat × Bool)) : (s.sendToken t im c x e j src).outline = s.outline := by
  unfold State.sendToken; split <;> simp
@[simp] theorem State.outline_tokenEmit (s : State) (t : TileId) (c : Nat) : (s.tokenEmit t c).outline = s.outline := by
  simp only [State.tokenEmit]
  (repeat' split) <;> simp
@[simp] theorem outline_execTokenEmit (t : TileId) (c : Nat) (s : State) : outlineOf (execTokenEmit t c s) = some s.outline := by
  simp [execTokenEmit]
@[simp] theorem State.outline_releaseInputs (s : State) (t : TileId) (im : Image) (x : FCtx) : (s.releaseInputs t im x).outline = s.outline := by
  simp [State.releaseInputs]
@[simp] theorem outline_execFiringComplete (t : TileId) (c : Nat) (s : State) : outlineOf (execFiringComplete t c s) = some s.outline := by
  simp only [execFiringComplete]
  (repeat' split) <;> simp
@[simp] theorem outline_execSourceFire (t : TileId) (slot node : Nat) (s : State) : outlineOf (execSourceFire t slot node s) = some s.outline := by
  simp only [execSourceFire]
  split <;> simp
@[simp] theorem outline_execSlotArm (t : TileId) (w : Writer) (slot n : Nat) (s : State) : outlineOf (execSlotArm t w slot n s) = some s.outline := by
  simp [execSlotArm]
@[simp] theorem State.outline_emitFault (s : State) (t : TileId) (code : Nat) (b : TokenBody) (iter top : Nat) :
    (s.emitFault t code b iter top).outline = s.outline := by
  simp [State.emitFault]
@[simp] theorem State.outline_tokenAnswer (s : State) (t : TileId) (h : Hdr) (b : TokenBody) (code : Nat) :
    (s.tokenAnswer t h b code).outline = s.outline := by
  simp only [State.tokenAnswer]
  split <;> simp
@[simp] theorem outline_execTokenRetryResend (t : TileId) (i : Nat) (s : State) : outlineOf (execTokenRetryResend t i s) = some s.outline := by
  simp only [execTokenRetryResend]
  split <;> simp
@[simp] theorem State.outline_fireExpire (s : State) (t : TileId) (force : Bool) : (s.fireExpire t force).outline = s.outline := by
  simp only [State.fireExpire]
  (repeat' split) <;> simp
@[simp] theorem outline_execFoldScheduleMove (t : TileId) (s : State) : outlineOf (execFoldScheduleMove t s) = some s.outline := by
  simp only [execFoldScheduleMove]
  (repeat' split) <;> simp
@[simp] theorem outline_execFoldSwitchAtT (t : TileId) (s : State) : outlineOf (execFoldSwitchAtT t s) = some s.outline := by
  simp only [execFoldSwitchAtT]
  split <;> simp
@[simp] theorem outline_execProfileSample (t : TileId) (granted : Bool) (s : State) : outlineOf (execProfileSample t granted s) = some s.outline := by
  simp [execProfileSample]

/-! ## SyncOps -/

@[simp] theorem State.outline_setPend (s : State) (t : TileId) (p : Option (Nat × Nat)) : (s.setPend t p).outline = s.outline := by
  simp [State.setPend]
@[simp] theorem State.outline_sendSync (s : State) (t : TileId) (op n amount : Nat) : (s.sendSync t op n amount).outline = s.outline := by
  simp [State.sendSync]
@[simp] theorem outline_xSwait (t : TileId) (a : XArgs) (s : State) : (xSwait t a s).outline = s.outline := by
  simp only [xSwait]
  (repeat' split) <;> simp
@[simp] theorem outline_xSsignal (t : TileId) (a : XArgs) (s : State) : (xSsignal t a s).outline = s.outline := by
  simp only [xSsignal]
  (repeat' split) <;> simp
@[simp] theorem outline_xSfence (t : TileId) (a : XArgs) (s : State) : (xSfence t a s).outline = s.outline := by
  simp [xSfence]
@[simp] theorem outline_xSread (t : TileId) (a : XArgs) (s : State) : (xSread t a s).outline = s.outline := by
  simp [xSread]
@[simp] theorem outline_execSwait (t : TileId) (a : XArgs) (s : State) : outlineOf (execSwait t a s) = some s.outline := by
  simp [execSwait]
@[simp] theorem outline_execSsignal (t : TileId) (a : XArgs) (s : State) : outlineOf (execSsignal t a s) = some s.outline := by
  simp [execSsignal]
@[simp] theorem outline_execSfence (t : TileId) (a : XArgs) (s : State) : outlineOf (execSfence t a s) = some s.outline := by
  simp [execSfence]
@[simp] theorem outline_execSread (t : TileId) (a : XArgs) (s : State) : outlineOf (execSread t a s) = some s.outline := by
  simp [execSread]

/-! ## RemoteOps -/

@[simp] theorem State.outline_remoteIssue (s : State) (t : TileId) (op : XOp) (a : XArgs) (go : RemoteDesc → HRef → State → State)
    (hg : ∀ d r u, (go d r u).outline = u.outline) : (s.remoteIssue t op a go).outline = s.outline := by
  simp only [State.remoteIssue]
  split
  · simp
  · split
    · simp
    · refine State.outline_reading _ _ _ _ _ _ fun bs u => ?_
      split <;> simp [hg]
@[simp] theorem outline_xXput (t : TileId) (a : XArgs) (s : State) : (xXput t a s).outline = s.outline := by
  refine State.outline_remoteIssue _ _ _ _ _ fun d r u => ?_
  simp only []
  split
  · simp
  · split
    · simp
    · split
      · simp
      · refine State.outline_reading _ _ _ _ _ _ fun bs v => ?_
        split <;> simp
@[simp] theorem outline_xXget (t : TileId) (a : XArgs) (s : State) : (xXget t a s).outline = s.outline := by
  refine State.outline_remoteIssue _ _ _ _ _ fun d r u => ?_
  split <;> simp
@[simp] theorem State.outline_xgetLand (s : State) (t : TileId) (a : XArgs) (st : Nat) (data : List Byte) :
    (s.xgetLand t a st data).outline = s.outline := by
  simp [State.xgetLand]
@[simp] theorem outline_execXput (t : TileId) (a : XArgs) (s : State) : outlineOf (execXput t a s) = some s.outline := by
  simp [execXput]
@[simp] theorem outline_execXget (t : TileId) (a : XArgs) (s : State) : outlineOf (execXget t a s) = some s.outline := by
  simp [execXget]

/-! ## SyncArrivals -/

@[simp] theorem State.outline_waitAt (s : State) (f : Nat) (h : Hdr) (b : SyncBody) : (s.waitAt f h b).outline = s.outline := by
  simp only [State.waitAt]
  (repeat' split) <;> simp
@[simp] theorem outline_syncAt (op : Nat) (h : Hdr) (b : SyncBody) (s : State) (act : Nat → State → State)
    (ha : ∀ f u, (act f u).outline = u.outline) : outlineOf (syncAt op h b s act) = some s.outline := by
  refine congrArg some (State.outline_landing _ _ _ fun u => ?_)
  split <;> simp [ha]
@[simp] theorem outline_execSyncWait (h : Hdr) (b : SyncBody) (s : State) : outlineOf (execSyncWait h b s) = some s.outline := by
  simp [execSyncWait]
@[simp] theorem outline_execSyncSignal (h : Hdr) (b : SyncBody) (s : State) : outlineOf (execSyncSignal h b s) = some s.outline := by
  unfold execSyncSignal
  refine congrArg some (State.outline_landing _ _ _ fun u => ?_)
  simp
  (repeat' split) <;> simp
@[simp] theorem outline_execSyncPostedSignal (h : Hdr) (b : SyncBody) (s : State) : outlineOf (execSyncPostedSignal h b s) = some s.outline := by
  unfold execSyncPostedSignal
  refine congrArg some (State.outline_landing _ _ _ fun u => ?_)
  simp
  (repeat' split) <;> simp
@[simp] theorem outline_execSyncRead (h : Hdr) (b : SyncBody) (s : State) : outlineOf (execSyncRead h b s) = some s.outline := by
  unfold execSyncRead
  refine congrArg some (State.outline_landing _ _ _ fun u => ?_)
  simp
  (repeat' split) <;> simp
@[simp] theorem outline_execSyncCancel (h : Hdr) (b : SyncBody) (s : State) : outlineOf (execSyncCancel h b s) = some s.outline := by
  simp [execSyncCancel]
@[simp] theorem outline_execSyncWaitResend (t : TileId) (s : State) : outlineOf (execSyncWaitResend t s) = some s.outline := by
  simp only [execSyncWaitResend]
  split <;> simp
@[simp] theorem State.outline_returnUnit (s : State) (f i : Nat) : (s.returnUnit f i).outline = s.outline := by
  simp [State.returnUnit]
@[simp] theorem outline_execStaleReleaseRefused (f cell : Nat) (waiter : TileId) (s : State) :
    outlineOf (execStaleReleaseRefused f cell waiter s) = some s.outline := by
  simp only [execStaleReleaseRefused]
  split <;> simp

/-! ## Answers -/

@[simp] theorem State.outline_openRefused (s : State) (t : TileId) (src : Endp) (r : ConnRef) (st : Nat) :
    (s.openRefused t src r st).outline = s.outline := by
  simp only [State.openRefused]
  (repeat' split) <;> simp
@[simp] theorem State.outline_freeRemote (s : State) (t : TileId) (tag st : Nat) : (s.freeRemote t tag st).outline = s.outline := by
  simp [State.freeRemote]
@[simp] theorem State.outline_waitAnswer (s : State) (t : TileId) (c st : Nat) : (s.waitAnswer t c st).outline = s.outline := by
  simp only [State.waitAnswer]
  split <;> simp
@[simp] theorem State.outline_cancelAnswer (s : State) (t : TileId) (c st : Nat) : (s.cancelAnswer t c st).outline = s.outline := by
  unfold State.cancelAnswer; (repeat' split) <;> simp
@[simp] theorem State.outline_signalAnswer (s : State) (t : TileId) (c : Nat) (posted : Bool) (tag st : Nat) :
    (s.signalAnswer t c posted tag st).outline = s.outline := by
  simp only [State.signalAnswer]
  (repeat' split) <;> simp
@[simp] theorem State.outline_xputAnswer (s : State) (t : TileId) (tag st : Nat) : (s.xputAnswer t tag st).outline = s.outline := by
  simp only [State.xputAnswer]
  (repeat' split) <;> simp
@[simp] theorem State.outline_xgetAnswer (s : State) (t : TileId) (tag st : Nat) (data : List Byte) :
    (s.xgetAnswer t tag st data).outline = s.outline := by
  simp only [State.xgetAnswer]
  (repeat' split) <;> simp
@[simp] theorem State.outline_readAnswer (s : State) (t : TileId) (c st : Nat) (data : List Byte) :
    (s.readAnswer t c st data).outline = s.outline := by
  unfold State.readAnswer; split <;> simp
@[simp] theorem State.outline_connWrite (s : State) (t : TileId) (h : Hdr) (r : ConnRef) (st : Nat) : (s.connWrite t h r st).outline = s.outline := by
  simp [State.connWrite]
@[simp] theorem State.outline_tileAnswer (s : State) (t : TileId) (h : Hdr) (re : Re) (st : Nat) (data : List Byte) :
    (s.tileAnswer t h re st data).outline = s.outline := by
  unfold State.tileAnswer; (repeat' split) <;> simp
@[simp] theorem State.outline_staleAnswer (s : State) (h : Hdr) (re : Re) (st : Nat) : (s.staleAnswer h re st).outline = s.outline := by
  unfold State.staleAnswer; split <;> simp
@[simp] theorem State.outline_answerAt (s : State) (h : Hdr) (re : Re) (st : Nat) (data : List Byte) :
    (s.answerAt h re st data).outline = s.outline := by
  unfold State.answerAt; split <;> simp
@[simp] theorem outline_execReply (h : Hdr) (re : Re) (status : Nat) (data : List Byte) (s : State) :
    outlineOf (execReply h re status data s) = some s.outline := by
  simp [execReply]
@[simp] theorem outline_execStatus (h : Hdr) (re : Re) (code : Nat) (s : State) : outlineOf (execStatus h re code s) = some s.outline := by
  unfold execStatus; split <;> simp
@[simp] theorem outline_execRemoteRetryResend (t : TileId) (s : State) : outlineOf (execRemoteRetryResend t s) = some s.outline := by
  simp only [execRemoteRetryResend]
  split <;> simp
@[simp] theorem outline_xbody (op : XOp) (t : TileId) (a : XArgs) (s : State) : (xbody op t a s).outline = s.outline := by
  unfold xbody; split <;> simp
@[simp] theorem State.outline_coreMet (s : State) (t : TileId) : (s.coreMet t).outline = s.outline := by
  simp only [State.coreMet]
  (repeat' split) <;> simp
@[simp] theorem State.outline_engineMet (s : State) (t : TileId) (e : Nat) : (s.engineMet t e).outline = s.outline := by
  simp only [State.engineMet]
  (repeat' split) <;> simp
@[simp] theorem State.outline_fireMet (s : State) (t : TileId) : (s.fireMet t).outline = s.outline := by
  simp [State.fireMet]
@[simp] theorem State.outline_streamMet (s : State) (t : TileId) (st : Stream) : (s.streamMet t st).outline = s.outline := by
  unfold State.streamMet; split <;> simp
@[simp] theorem outline_execStallConditionMet (t : TileId) (st : Stream) (s : State) : outlineOf (execStallConditionMet t st s) = some s.outline := by
  simp [execStallConditionMet]
@[simp] theorem State.outline_endStall (s : State) (t : TileId) (k : Stall) (debug : Bool) : (s.endStall t k debug).outline = s.outline := by
  unfold State.endStall; (repeat' split) <;> simp
@[simp] theorem State.outline_coreExpire (s : State) (t : TileId) (force : Bool) : (s.coreExpire t force).outline = s.outline := by
  simp only [State.coreExpire]
  split <;> simp
@[simp] theorem State.outline_engineExpire (s : State) (t : TileId) (e : Nat) (force : Bool) : (s.engineExpire t e force).outline = s.outline := by
  simp only [State.engineExpire]
  (repeat' split) <;> simp
@[simp] theorem State.outline_streamExpire (s : State) (t : TileId) (force : Bool) (st : Stream) :
    (s.streamExpire t force st).outline = s.outline := by
  unfold State.streamExpire; split <;> simp
@[simp] theorem outline_execStallWatchdogExpiry (t : TileId) (st : Stream) (s : State) :
    outlineOf (execStallWatchdogExpiry t st s) = some s.outline := by
  simp [execStallWatchdogExpiry]
@[simp] theorem outline_execSyncDebugCore (t : TileId) (s : State) : outlineOf (execSyncDebugCore t s) = some s.outline := by
  simp [execSyncDebugCore]
@[simp] theorem State.outline_debugAll (s : State) (t : TileId) : (s.debugAll t).outline = s.outline := by
  simp [State.debugAll]
@[simp] theorem outline_execSyncDebugAll (t : TileId) (s : State) : outlineOf (execSyncDebugAll t s) = some s.outline := by
  simp [execSyncDebugAll]

/-! ## Ports -/

@[simp] theorem State.outline_endPend (s : State) (p i : Nat) (e : Pend) (body : Body) : (s.endPend p i e body).outline = s.outline := by
  simp [State.endPend]
@[simp] theorem State.outline_answerOwn (s : State) (p : Nat) (x : Pkt) (st : Nat) : (s.answerOwn p x st).outline = s.outline := by
  refine State.outline_foldl _ _ _ fun u x => ?_
  simp
  (repeat' split) <;> simp
@[simp] theorem State.outline_loseFrame (s : State) (p : Nat) (x : Pkt) (cause : Nat) : (s.loseFrame p x cause).outline = s.outline := by
  unfold State.loseFrame; split <;> simp
@[simp] theorem State.outline_enqueue (s : State) (p : Nat) (x : Pkt) : (s.enqueue p x).outline = s.outline := by
  simp [State.enqueue]
@[simp] theorem outline_execEgressHoldExpiry (p : Nat) (s : State) : outlineOf (execEgressHoldExpiry p s) = some s.outline := by
  simp only [execEgressHoldExpiry]
  (repeat' split) <;> simp
@[simp] theorem outline_execLinkAck (p seq : Nat) (s : State) : outlineOf (execLinkAck p seq s) = some s.outline := by
  simp [execLinkAck]
@[simp] theorem outline_execLinkCredits (p vc n : Nat) (s : State) : outlineOf (execLinkCredits p vc n s) = some s.outline := by
  simp [execLinkCredits]
@[simp] theorem outline_execLinkIdleAck (p : Nat) (s : State) : outlineOf (execLinkIdleAck p s) = some s.outline := by
  simp [execLinkIdleAck]
@[simp] theorem outline_execFrameCrcError (p : Nat) (s : State) : outlineOf (execFrameCrcError p s) = some s.outline := by
  simp [execFrameCrcError]
@[simp] theorem outline_execLinkLaneOn (p lane : Nat) (s : State) : outlineOf (execLinkLaneOn p lane s) = some s.outline := by
  simp [execLinkLaneOn]
@[simp] theorem outline_execLaneRetrainDone (p lane : Nat) (ok : Bool) (s : State) :
    outlineOf (execLaneRetrainDone p lane ok s) = some s.outline := by
  unfold execLaneRetrainDone; (repeat' split) <;> simp
@[simp] theorem State.outline_freshNonce (s : State) : s.freshNonce.2.outline = s.outline := 
  State.outline_foldl_part Prod.snd _ (fun _ _ => by simp) _ _
@[simp] theorem State.outline_sayBlock (s : State) (p : Nat) : (s.sayBlock p).outline = s.outline := by
  simp [State.sayBlock]
@[simp] theorem outline_execHello (p versions nonce : Nat) (s : State) : outlineOf (execHello p versions nonce s) = some s.outline := by
  simp [execHello]
@[simp] theorem State.outline_recordPartner (s : State) (p : Nat) (b : CapBlock) : (s.recordPartner p b).outline = s.outline := by
  simp only [State.recordPartner]
  split <;> simp

/-! ## Docks -/

@[simp] theorem outline_execPendingExpiry (p i : Nat) (s : State) : outlineOf (execPendingExpiry p i s) = some s.outline := by
  simp only [execPendingExpiry]
  split <;> simp
@[simp] theorem State.outline_passAnswer (s : State) (p : Nat) (x : Pkt) (t : TileId) : (s.passAnswer p x t).outline = s.outline := by
  unfold State.passAnswer; (repeat' split) <;> simp
@[simp] theorem State.outline_refuseFar (s : State) (p : Nat) (x : Pkt) (f : Far) (path : List Nat) (st : Nat) :
    (s.refuseFar p x f path st).outline = s.outline := by
  simp [State.refuseFar]
@[simp] theorem State.outline_deliverRequest (s : State) (p : Nat) (x : Pkt) (f : Far) (path : List Nat) :
    (s.deliverRequest p x f path).outline = s.outline := by
  simp only [State.deliverRequest]
  split
  · split <;> simp
  · refine State.outline_foldl _ _ _ fun u c => ?_
    (repeat' split) <;> simp
  · (repeat' split) <;> simp
@[simp] theorem State.outline_deliver (s : State) (p : Nat) (x : Pkt) (f : Far) (path : List Nat) : (s.deliver p x f path).outline = s.outline := by
  unfold State.deliver; (repeat' split) <;> simp
@[simp] theorem State.outline_toEgress (s : State) (p e : Nat) (x : Pkt) : (s.toEgress p e x).outline = s.outline := by
  simp [State.toEgress]
@[simp] theorem State.outline_ingress (s : State) (p : Nat) (x : Pkt) (f : Far) : (s.ingress p x f).outline = s.outline := by
  simp only [State.ingress]
  (repeat' split) <;> simp
@[simp] theorem outline_execDockIngress (p : Nat) (pkt : Pkt) (s : State) : outlineOf (execDockIngress p pkt s) = some s.outline := by
  unfold execDockIngress; split <;> simp
@[simp] theorem State.outline_sendBroker (s : State) (m : BrokerMsg) : (s.sendBroker m).outline = s.outline := by
  simp only [State.sendBroker]
  (repeat' split) <;> simp
@[simp] theorem State.outline_serveAnswer (s : State) (p q : Nat) (grant : Option GrantBody) : (s.serveAnswer p q grant).outline = s.outline := by
  unfold State.serveAnswer; (repeat' split) <;> simp
@[simp] theorem State.outline_proxyOut (s : State) (p inj : Nat) (x : Pkt) : (s.proxyOut p inj x).outline = s.outline := by
  simp only [State.proxyOut]
  (repeat' split) <;> simp
@[simp] theorem outline_execDockEgress (p : Nat) (pkt : Pkt) (s : State) : outlineOf (execDockEgress p pkt s) = some s.outline := by
  unfold execDockEgress; (repeat' split) <;> simp
@[simp] theorem State.outline_relay (s : State) (p : Nat) (x : Pkt) (f : Far) : (s.relay p x f).outline = s.outline := by
  unfold State.relay; split <;> simp
@[simp] theorem outline_execDataFrame (p : Nat) (fr : Frame) (s : State) : outlineOf (execDataFrame p fr s) = some s.outline := by
  simp only [execDataFrame, outlineOf_next, Option.some.injEq]
  split
  · rfl
  · split
    · simp
    · split
      · simp
      · have hn : (if (s.port p).mode.fec = 0 then ((0 : Word), s) else s.freeVal).2.outline = s.outline := by split <;> simp
        split
        · exact State.outline_setPort_of hn (by simp)
        · split
          · exact (State.outline_relay _ _ _ _).trans (State.outline_setPort_of hn (by simp))
          · exact (State.outline_deliver _ _ _ _ _).trans (State.outline_setPort_of hn (by simp))

/-! ## HostMem -/

@[simp] theorem State.outline_modHost (s : State) (j : Nat) (g : HostNode → HostNode) : (s.modHost j g).outline = s.outline := by
  simp [State.modHost]
@[simp] theorem State.outline_hostPut (s : State) (j a : Nat) (bs : List Byte) : (s.hostPut j a bs).outline = s.outline := by
  simp [State.hostPut]
@[simp] theorem State.outline_hostRawPut (s : State) (j a : Nat) (bs : List Byte) : (s.hostRawPut j a bs).2.outline = s.outline := by
  simp only [State.hostRawPut]
  (repeat' split) <;> simp
@[simp] theorem State.outline_hostRawGet (s : State) (j a n : Nat) : (s.hostRawGet j a n).2.2.outline = s.outline := by
  simp only [State.hostRawGet]
  (repeat' split) <;> simp
@[simp] theorem State.outline_rebootHosts (s : State) : s.rebootHosts.outline = s.outline := by
  simp [State.rebootHosts]

/-! ## TileRegs -/

@[simp] theorem State.outline_beatCounts (s : State) (t : TileId) : (s.beatCounts t).outline = s.outline := by
  simp [State.beatCounts]
@[simp] theorem State.outline_readTileReg (s : State) (t : TileId) (o : Nat) : (s.readTileReg t o).2.outline = s.outline := by
  simp [State.readTileReg]
@[simp] theorem State.outline_writeCell (s : State) (t : TileId) (c : Nat) (isTarget : Bool) (val : Word) :
    (s.writeCell t c isTarget val).outline = s.outline := by
  simp [State.writeCell]
@[simp] theorem outline_execSyncCellWrite (t : TileId) (w : Writer) (c : Nat) (isTarget : Bool) (val : Word) (s : State) :
    outlineOf (execSyncCellWrite t w c isTarget val s) = some s.outline := by
  simp [execSyncCellWrite]
@[simp] theorem State.outline_writeTileReg (s : State) (t : TileId) (w : Writer) (o : Nat) (val : Word) :
    (s.writeTileReg t w o val).outline = s.outline := by
  simp [State.writeTileReg]

/-! ## RawAccess -/

@[simp] theorem State.outline_modRec (s : State) (t : TileId) (g : TRec → TRec) : (s.modRec t g).outline = s.outline := by
  simp [State.modRec]
@[simp] theorem State.outline_freeRegs (s : State) : s.freeRegs.2.outline = s.outline := 
  State.outline_foldl_part Prod.snd _ (fun _ _ => by simp) _ _
@[simp] theorem State.outline_leaveService (s : State) (t : TileId) : (s.leaveService t).outline = s.outline := by
  unfold State.leaveService; split <;> simp
@[simp] theorem State.outline_enterQuarantine (s : State) (t : TileId) : (s.enterQuarantine t).outline = s.outline := by
  simp [State.enterQuarantine]
@[simp] theorem outline_execTileResetOrder (t : TileId) (s : State) : outlineOf (execTileResetOrder t s) = some s.outline := by
  simp [execTileResetOrder]
@[simp] theorem State.outline_ctrlAnswer (s : State) (h : Hdr) (st : Nat) (data : List Byte) : (s.ctrlAnswer h st data).outline = s.outline := by
  simp [State.ctrlAnswer]
@[simp] theorem State.outline_writeRegs (s : State) (t : TileId) (w : Writer) (o : Nat) (data : List Byte) :
    (s.writeRegs t w o data).outline = s.outline := by
  simp [State.writeRegs]
@[simp] theorem State.outline_readRegs (s : State) (t : TileId) (o : Nat) (n : Nat) : (s.readRegs t o n).2.outline = s.outline := by
  induction n generalizing s o with
  | zero => rfl
  | succ n ih => simp [State.readRegs, ih]
@[simp] theorem State.outline_rawPut (s : State) (t : TileId) (w : Writer) (o : Nat) (data : List Byte) :
    (s.rawPut t w o data).2.outline = s.outline := by
  simp only [State.rawPut]
  (repeat' split) <;> simp
@[simp] theorem State.outline_rawGet (s : State) (t : TileId) (o n : Nat) : (s.rawGet t o n).2.2.outline = s.outline := by
  unfold State.rawGet; (repeat' split) <;> simp
@[simp] theorem State.outline_vc0At (s : State) (h : Hdr) (body : Body) (act : TileId → State → State) (ha : ∀ t u, (act t u).outline = u.outline) :
    (s.vc0At h body act).outline = s.outline := by
  refine State.outline_landing _ _ _ fun u => ?_
  (repeat' split) <;> simp [ha]
@[simp] theorem outline_execCtrlOrderAdmit (h : Hdr) (s : State) : outlineOf (execCtrlOrderAdmit h s) = some s.outline := by
  simp [execCtrlOrderAdmit]
@[simp] theorem State.outline_orderSwitch (s : State) (t : TileId) (g : SwitchTarget) (at_ : Nat) : (s.orderSwitch t g at_).outline = s.outline := by
  simp [State.orderSwitch]
@[simp] theorem outline_execCtrlOrderSwitch (h : Hdr) (tgt : SwitchTarget) (at_ : Nat) (s : State) :
    outlineOf (execCtrlOrderSwitch h tgt at_ s) = some s.outline := by
  simp [execCtrlOrderSwitch]
@[simp] theorem outline_execCtrlOrderDload (h : Hdr) (slot : Nat) (ref : Word) (purge : Bool) (s : State) :
    outlineOf (execCtrlOrderDload h slot ref purge s) = some s.outline := by
  refine congrArg some (State.outline_vc0At _ _ _ _ fun t u => ?_)
  split
  · simp
  · have h := u.outline_dloadAt t slot (hrefOf ref) purge
    split <;> next e => simpa [e] using h
@[simp] theorem outline_execCtrlOrderSample (h : Hdr) (handle n at_ : Nat) (s : State) :
    outlineOf (execCtrlOrderSample h handle n at_ s) = some s.outline := by
  simp [execCtrlOrderSample]
@[simp] theorem outline_execRawWrite (h : Hdr) (off : Nat) (data : List Byte) (s : State) :
    outlineOf (execRawWrite h off data s) = some s.outline := by
  unfold execRawWrite
  refine congrArg some (State.outline_landing _ _ _ fun u => ?_)
  simp
  (repeat' split) <;> simp
@[simp] theorem outline_execRawRead (h : Hdr) (off len : Nat) (s : State) : outlineOf (execRawRead h off len s) = some s.outline := by
  unfold execRawRead
  refine congrArg some (State.outline_landing _ _ _ fun u => ?_)
  simp
  (repeat' split) <;> simp

/-! ## MapChange -/

@[simp] theorem State.outline_allFields (s : State) (g : Nat → Field → Field) : (s.allFields g).outline = s.outline := by
  simp [State.allFields]
@[simp] theorem State.outline_allTiles (s : State) (g : TileId → Tile → Tile) : (s.allTiles g).outline = s.outline := by
  simp [State.allTiles]
@[simp] theorem State.outline_cutOff (s : State) (p : Furrow) : (s.cutOff p).outline = s.outline := by
  simp [State.cutOff]
@[simp] theorem State.outline_publishMap (s : State) (at_ : Nat) : (s.publishMap at_).outline = s.outline := by
  unfold State.publishMap; (repeat' split) <;> simp
@[simp] theorem outline_execMapPublish (at_ : Nat) (s : State) : outlineOf (execMapPublish at_ s) = some s.outline := by
  simp [execMapPublish]
@[simp] theorem outline_execMapInjectionPause (s : State) : outlineOf (execMapInjectionPause s) = some s.outline := by
  unfold execMapInjectionPause; split <;> simp
@[simp] theorem State.outline_loseWrite (s : State) (t : TileId) (w : WriteRec) : (s.loseWrite t w).outline = s.outline := by
  simp only [State.loseWrite]
  (repeat' split) <;> simp
@[simp] theorem State.outline_settleOld (s : State) (p : WriteRec → Bool) (t : TileId) : (s.settleOld p t).outline = s.outline := by
  simp [State.settleOld]
@[simp] theorem State.outline_newEpoch (s : State) (at_ : Nat) : (s.newEpoch at_).outline = s.outline := by
  simp [State.newEpoch]
@[simp] theorem outline_execFenceSettleLocal (s : State) : outlineOf (execFenceSettleLocal s) = some s.outline := by
  unfold execFenceSettleLocal; split <;> simp
@[simp] theorem outline_execFenceSettleRemote (f : Nat) (s : State) : outlineOf (execFenceSettleRemote f s) = some s.outline := by
  unfold execFenceSettleRemote; split <;> simp
@[simp] theorem State.outline_dropStale (s : State) (seq : Nat) (x : Flight) : (s.dropStale seq x).outline = s.outline := by
  unfold State.dropStale; split <;> simp
@[simp] theorem State.outline_dropHeld (s : State) : s.dropHeld.outline = s.outline := by
  simp [State.dropHeld]
@[simp] theorem State.outline_reshade (s : State) (t : TileId) : (s.reshade t).outline = s.outline := by
  simp [State.reshade]
@[simp] theorem State.outline_fieldMapped (s : State) (f : Nat) : (s.fieldMapped f).outline = s.outline := by
  simp only [State.fieldMapped]
  (repeat' split) <;> simp
@[simp] theorem State.outline_reportCutOff (s : State) : s.reportCutOff.outline = s.outline := by
  simp [State.reportCutOff]
@[simp] theorem outline_execMapSwitch (s : State) : outlineOf (execMapSwitch s) = some s.outline := by
  unfold execMapSwitch; split <;> simp
@[simp] theorem State.outline_deadBoundary (s : State) (f : Nat) : (s.deadBoundary f).outline = s.outline := by
  simp [State.deadBoundary]
@[simp] theorem State.outline_loseInside (s : State) (f : Nat) : (s.loseInside f).outline = s.outline := by
  simp [State.loseInside]
@[simp] theorem State.outline_cellSweep (s : State) (f cause : Nat) : (s.cellSweep f cause).outline = s.outline := by
  simp only [State.cellSweep, State.outline_event, State.outline_update]
  refine State.outline_foldl _ _ _ fun u t => ?_
  split <;> simp
@[simp] theorem outline_execCellLostSweep (f : Nat) (s : State) : outlineOf (execCellLostSweep f s) = some s.outline := by
  simp [execCellLostSweep]
@[simp] theorem State.outline_saveCells (s : State) (f : Nat) : (s.saveCells f).outline = s.outline := by
  simp [State.saveCells]
@[simp] theorem outline_execDistTablePublish (s : State) : outlineOf (execDistTablePublish s) = some s.outline := by
  simp [execDistTablePublish]
@[simp] theorem State.outline_mcastDropped (s : State) (q src : TileId) : (s.mcastDropped q src).outline = s.outline := by
  simp [State.mcastDropped]
@[simp] theorem outline_execMulticast (r : Rect) (off : Nat) (data : List Byte) (s : State) :
    outlineOf (execMulticast r off data s) = some s.outline := by
  simp [execMulticast]

/-! ## FieldOut -/

@[simp] theorem State.outline_modXing (s : State) (f b : Nat) (g : Xing → Xing) : (s.modXing f b g).outline = s.outline := by
  simp [State.modXing]
@[simp] theorem State.outline_parkCrossings (s : State) (f : Nat) : (s.parkCrossings f).outline = s.outline := by
  refine State.outline_foldl _ _ _ fun u x => ?_
  split <;> simp
@[simp] theorem State.outline_clearCrossings (s : State) (f : Nat) : (s.clearCrossings f).outline = s.outline := by
  refine State.outline_foldl _ _ _ fun u x => ?_
  split <;> simp
@[simp] theorem State.outline_tilesOff (s : State) (f : Nat) : (s.tilesOff f).outline = s.outline := by
  simp [State.tilesOff]
@[simp] theorem State.outline_dockDown (s : State) (f : Nat) : (s.dockDown f).outline = s.outline := by
  simp [State.dockDown]
@[simp] theorem State.outline_setOut (s : State) (f kind : Nat) (st : SvcSt) : (s.setOut f kind st).outline = s.outline := by
  simp [State.setOut]
@[simp] theorem State.outline_keepLost (s : State) (f : Nat) : (s.keepLost f).outline = s.outline := by
  simp [State.keepLost]
@[simp] theorem State.outline_tileUp (s : State) (t : TileId) : (s.tileUp t).outline = s.outline := by
  unfold State.tileUp; (repeat' split) <;> simp
@[simp] theorem State.outline_modSvc (s : State) (f : Nat) (g : FieldSvc → FieldSvc) : (s.modSvc f g).outline = s.outline := by
  simp [State.modSvc]
@[simp] theorem State.outline_startTest (s : State) (f level phase : Nat) : (s.startTest f level phase).outline = s.outline := by
  simp [State.startTest]
@[simp] theorem State.outline_clearFurrow (s : State) (f : Nat) : (s.clearFurrow f).outline = s.outline := by
  simp [State.clearFurrow]

/-! ## Clock -/

@[simp] theorem outline_execWaferTimeBroadcast (s : State) : outlineOf (execWaferTimeBroadcast s) = some s.outline := by
  simp [execWaferTimeBroadcast]
@[simp] theorem outline_execWtLoRead (f : Nat) (s : State) : outlineOf (execWtLoRead f s) = some s.outline := by
  simp [execWtLoRead]
@[simp] theorem outline_execMarginLowWrite (f : Nat) (s : State) : outlineOf (execMarginLowWrite f s) = some s.outline := by
  simp [execMarginLowWrite]
@[simp] theorem State.outline_droop (s : State) (f n level : Nat) : (s.droop f n level).outline = s.outline := by
  simp [State.droop]
@[simp] theorem outline_execRailDroop (f n level : Nat) (s : State) : outlineOf (execRailDroop f n level s) = some s.outline := by
  simp [execRailDroop]
@[simp] theorem outline_execDebtRepaid (f : Nat) (s : State) : outlineOf (execDebtRepaid f s) = some s.outline := by
  simp [execDebtRepaid]
@[simp] theorem State.outline_abandonCal (s : State) (f : Nat) : (s.abandonCal f).outline = s.outline := by
  refine State.outline_foldl _ _ _ fun u x => ?_
  split <;> simp
@[simp] theorem outline_execMarginStop (f monitor : Nat) (s : State) : outlineOf (execMarginStop f monitor s) = some s.outline := by
  simp [execMarginStop]
@[simp] theorem outline_execMarginRestart (f : Nat) (s : State) : outlineOf (execMarginRestart f s) = some s.outline := by
  simp only [execMarginRestart]
  split <;> simp
@[simp] theorem outline_execCrossingCalibrate (f b : Nat) (s : State) : outlineOf (execCrossingCalibrate f b s) = some s.outline := by
  unfold execCrossingCalibrate; split <;> simp
@[simp] theorem State.outline_clearBoth (s : State) (f b : Nat) : (s.clearBoth f b).outline = s.outline := by
  unfold State.clearBoth; split <;> simp
@[simp] theorem State.outline_crossingFailed (s : State) (f b : Nat) : (s.crossingFailed f b).outline = s.outline := by
  unfold State.crossingFailed; split <;> simp
@[simp] theorem outline_execCalibrationDone (f b spread : Nat) (s : State) : outlineOf (execCalibrationDone f b spread s) = some s.outline := by
  simp [execCalibrationDone]
@[simp] theorem State.outline_boundaryDead (s : State) (f b : Nat) : (s.boundaryDead f b).outline = s.outline := by
  simp [State.boundaryDead]
@[simp] theorem outline_execHeartbeatLoss (f b : Nat) (s : State) : outlineOf (execHeartbeatLoss f b s) = some s.outline := by
  unfold execHeartbeatLoss; split <;> simp
@[simp] theorem State.outline_orderAt (s : State) (f kind target at_ : Nat) : (s.orderAt f kind target at_).2.outline = s.outline := by
  simp only [State.orderAt]
  (repeat' split) <;> simp
@[simp] theorem State.outline_clkOrder (s : State) (f kind op at_ : Nat) : (s.clkOrder f kind op at_).outline = s.outline := by
  simp [State.clkOrder]
@[simp] theorem outline_execClkOrderOpStep (f op at_ : Nat) (s : State) : outlineOf (execClkOrderOpStep f op at_ s) = some s.outline := by
  simp [execClkOrderOpStep]
@[simp] theorem outline_execClkOrderEnterMonitor (f op at_ : Nat) (s : State) : outlineOf (execClkOrderEnterMonitor f op at_ s) = some s.outline := by
  simp [execClkOrderEnterMonitor]
@[simp] theorem outline_execClkOrderLeaveMonitor (f op at_ : Nat) (s : State) : outlineOf (execClkOrderLeaveMonitor f op at_ s) = some s.outline := by
  simp [execClkOrderLeaveMonitor]
@[simp] theorem State.outline_pwrStep (s : State) (f kind op at_ : Nat) : (s.pwrStep f kind op at_).outline = s.outline := by
  simp [State.pwrStep]
@[simp] theorem outline_execPwrStepCap (f op at_ : Nat) (s : State) : outlineOf (execPwrStepCap f op at_ s) = some s.outline := by
  simp [execPwrStepCap]
@[simp] theorem outline_execPwrStepThermal (f op at_ : Nat) (s : State) : outlineOf (execPwrStepThermal f op at_ s) = some s.outline := by
  simp [execPwrStepThermal]
@[simp] theorem outline_execPwrStepForced (f op at_ : Nat) (s : State) : outlineOf (execPwrStepForced f op at_ s) = some s.outline := by
  simp [execPwrStepForced]
@[simp] theorem State.outline_relockTo (s : State) (f op at_ : Nat) : (s.relockTo f op at_).outline = s.outline := by
  simp [State.relockTo]
@[simp] theorem outline_execOpStep (f : Nat) (s : State) : outlineOf (execOpStep f s) = some s.outline := by
  simp [execOpStep]
@[simp] theorem outline_execRelockDone (f : Nat) (s : State) : outlineOf (execRelockDone f s) = some s.outline := by
  unfold execRelockDone; split <;> simp
@[simp] theorem State.outline_monitorField (s : State) (f : Nat) : (s.monitorField f).outline = s.outline := by
  simp only [State.monitorField]
  split <;> simp
@[simp] theorem outline_execMonitorModeSwitch (s : State) : outlineOf (execMonitorModeSwitch s) = some s.outline := by
  simp only [execMonitorModeSwitch]
  split <;> simp
@[simp] theorem outline_execMonitorSteerEpoch (f low : Nat) (s : State) : outlineOf (execMonitorSteerEpoch f low s) = some s.outline := by
  simp [execMonitorSteerEpoch]

/-! ## PowerLoop -/

@[simp] theorem State.outline_leavePlan (s : State) (f kind : Nat) (p : Plan) : (s.leavePlan f kind p).outline = s.outline := by
  simp [State.leavePlan]
@[simp] theorem State.outline_startPark (s : State) (f : Nat) : (s.startPark f).outline = s.outline := by
  simp [State.startPark]
@[simp] theorem State.outline_startReturn (s : State) (f level : Nat) : (s.startReturn f level).outline = s.outline := by
  simp [State.startReturn]
@[simp] theorem State.outline_roundFree (s : State) (r : Rat) : (s.roundFree r).2.outline = s.outline := by
  simp [State.roundFree]
@[simp] theorem State.outline_retainEstimate (s : State) (f : Nat) : (s.retainEstimate f).outline = s.outline := by
  simp [State.retainEstimate]
@[simp] theorem outline_execEpochEnd (f low mon : Nat) (s : State) : outlineOf (execEpochEnd f low mon s) = some s.outline := by
  simp [execEpochEnd]
@[simp] theorem State.outline_bothMasters (s : State) (g : Master → Master) : (s.bothMasters g).outline = s.outline := by
  simp [State.bothMasters]
@[simp] theorem State.outline_setGate (s : State) (f level p cap : Nat) : (s.setGate f level p cap).outline = s.outline := by
  simp [State.setGate]
@[simp] theorem State.outline_shedLoad (s : State) (limit p cap : Nat) (total : Rat) (fs : List Nat) :
    (s.shedLoad limit p cap total fs).outline = s.outline := by
  induction fs generalizing s total with
  | nil => rfl
  | cons f fs ih =>
    simp only [State.shedLoad]
    (repeat' split) <;> simp [ih]
@[simp] theorem State.outline_easeGates (s : State) (m : Master) (cap : Nat) (load : Rat) (fs : List Nat) :
    (s.easeGates m cap load fs).outline = s.outline := by
  induction fs generalizing s load with
  | nil => rfl
  | cons f fs ih =>
    simp only [State.easeGates]
    split <;> simp [ih]
@[simp] theorem State.outline_stepAll (s : State) (kind op at_ : Nat) : (s.stepAll kind op at_).outline = s.outline := by
  simp [State.stepAll]
@[simp] theorem State.outline_capStep (s : State) (k op at_ p : Nat) : (s.capStep k op at_ p).outline = s.outline := by
  simp [State.capStep]
@[simp] theorem State.outline_decide1 (s : State) (k : Nat) : (s.decide1 k).outline = s.outline := by
  simp [State.decide1]
@[simp] theorem State.outline_standbyRuns (s : State) (k : Nat) : (s.standbyRuns k).outline = s.outline := by
  simp [State.standbyRuns]
@[simp] theorem outline_execPowerMasterDecision (s : State) : outlineOf (execPowerMasterDecision s) = some s.outline := by
  unfold execPowerMasterDecision; split <;> simp
@[simp] theorem outline_execMasterTakeover (s : State) : outlineOf (execMasterTakeover s) = some s.outline := by
  simp [execMasterTakeover]
@[simp] theorem State.outline_forceStep (s : State) (watts : Nat) : (s.forceStep watts).outline = s.outline := by
  simp [State.forceStep]
@[simp] theorem outline_execHedgerowPowerSample (watts amps : Nat) (s : State) :
    outlineOf (execHedgerowPowerSample watts amps s) = some s.outline := by
  simp [execHedgerowPowerSample]
@[simp] theorem outline_execEstScaleCalibrate (measured estimated : Nat) (s : State) :
    outlineOf (execEstScaleCalibrate measured estimated s) = some s.outline := by
  unfold execEstScaleCalibrate; split <;> simp
@[simp] theorem State.outline_setHedgeCap (s : State) : s.setHedgeCap.outline = s.outline := by
  simp [State.setHedgeCap]
@[simp] theorem outline_execInputVoltageSample (mv : Nat) (s : State) : outlineOf (execInputVoltageSample mv s) = some s.outline := by
  unfold execInputVoltageSample; split <;> simp
@[simp] theorem outline_execCurrentLimit (s : State) : outlineOf (execCurrentLimit s) = some s.outline := by
  simp [execCurrentLimit]
@[simp] theorem outline_execThatchEngage (t : TileId) (s : State) : outlineOf (execThatchEngage t s) = some s.outline := by
  unfold execThatchEngage; split <;> simp
@[simp] theorem State.outline_thatchCycles (s : State) (level cycles : Nat) : (s.thatchCycles level cycles).2.outline = s.outline := by
  simp [State.thatchCycles]
@[simp] theorem outline_execThatchRampDownStep (t : TileId) (s : State) : outlineOf (execThatchRampDownStep t s) = some s.outline := by
  simp [execThatchRampDownStep]
@[simp] theorem outline_execThatchRampUpStep (t : TileId) (s : State) : outlineOf (execThatchRampUpStep t s) = some s.outline := by
  simp [execThatchRampUpStep]
@[simp] theorem State.outline_thermalPoint (s : State) (f : Nat) : (s.thermalPoint f).outline = s.outline := by
  simp only [State.thermalPoint]
  (repeat' split) <;> simp
@[simp] theorem State.outline_thermalGate (s : State) (f : Nat) : (s.thermalGate f).outline = s.outline := by
  simp [State.thermalGate]
@[simp] theorem outline_execFieldThermClear (f : Nat) (s : State) : outlineOf (execFieldThermClear f s) = some s.outline := by
  simp [execFieldThermClear]
@[simp] theorem outline_execAutoReturn (f : Nat) (s : State) : outlineOf (execAutoReturn f s) = some s.outline := by
  simp only [execAutoReturn]
  split <;> simp
@[simp] theorem State.outline_latched (s : State) (f : Nat) (core mem : Bool) : (s.latched f core mem).outline = s.outline := by
  simp [State.latched]
@[simp] theorem State.outline_tripThenLatch (s : State) (f cause : Nat) : (s.tripThenLatch f cause).outline = s.outline := by
  simp [State.tripThenLatch]
@[simp] theorem outline_execInsulationCheckDone (f coreMa memMa : Nat) (s : State) :
    outlineOf (execInsulationCheckDone f coreMa memMa s) = some s.outline := by
  unfold execInsulationCheckDone; split <;> simp
@[simp] theorem State.outline_withhold (s : State) (point : Nat) : (s.withhold point).outline = s.outline := by
  simp [State.withhold]
@[simp] theorem outline_execTrimRaise (f point day : Nat) (s : State) : outlineOf (execTrimRaise f point day s) = some s.outline := by
  simp [execTrimRaise]

/-! ## BringUp -/

@[simp] theorem State.outline_bootTo (s : State) (step : Nat) : (s.bootTo step).outline = s.outline := by
  simp [State.bootTo]
@[simp] theorem State.outline_stepBoot (s : State) : s.stepBoot.outline = s.outline := by
  simp [State.stepBoot]
@[simp] theorem State.outline_failTile (s : State) (t : TileId) (mask : Nat) : (s.failTile t mask).outline = s.outline := by
  simp [State.failTile]
@[simp] theorem State.outline_endTest (s : State) (f : Nat) : (s.endTest f).outline = s.outline := by
  simp only [State.endTest, State.outline_clearFurrow, State.outline_stepBoot, State.outline_ite, State.outline_event, State.outline_setOut,
    State.outline_foldl _ _ _ fun v i => State.outline_modTile _ _ _, ite_self]
  refine (State.outline_foldl _ _ _ fun v i => ?_).trans ?_
  · split <;> simp
  · simp
@[simp] theorem State.outline_scribble (s : State) (t : TileId) : (s.scribble t).outline = s.outline := by
  simp [State.scribble]
@[simp] theorem State.outline_zeroTm (s : State) (t : TileId) : (s.zeroTm t).outline = s.outline := by
  simp [State.zeroTm]
@[simp] theorem State.outline_afterKnown (s : State) (f : Nat) : (s.afterKnown f).outline = s.outline := by
  simp [State.afterKnown]
@[simp] theorem outline_execMarchDone (f : Nat) (k : MarchKind) (failed routers : List TileId) (s : State) :
    outlineOf (execMarchDone f k failed routers s) = some s.outline := by
  unfold execMarchDone; split <;> simp
@[simp] theorem State.outline_reported (s : State) (t : TileId) (mask : Nat) : (s.reported t mask).outline = s.outline := by
  simp [State.reported]
@[simp] theorem outline_execKnownAnswerDone (t : TileId) (corePass enginePass : Bool) (s : State) :
    outlineOf (execKnownAnswerDone t corePass enginePass s) = some s.outline := by
  simp [execKnownAnswerDone]
@[simp] theorem outline_execKnownAnswerTimeout (t : TileId) (s : State) : outlineOf (execKnownAnswerTimeout t s) = some s.outline := by
  simp [execKnownAnswerTimeout]
@[simp] theorem outline_execSoakDone (f : Nat) (temp : Int) (s : State) : outlineOf (execSoakDone f temp s) = some s.outline := by
  simp [execSoakDone]
@[simp] theorem outline_execProfilingPauseEnd (f : Nat) (failed : List Nat) (s : State) :
    outlineOf (execProfilingPauseEnd f failed s) = some s.outline := by
  simp [execProfilingPauseEnd]
@[simp] theorem State.outline_writeProfile (s : State) (f : Nat) : (s.writeProfile f).outline = s.outline := by
  simp only [State.writeProfile]
  split <;> simp
@[simp] theorem State.outline_learnGens (s : State) (f : Nat) : (s.learnGens f).outline = s.outline := by
  simp [State.learnGens]
@[simp] theorem State.outline_holeFailed (s : State) (f : Nat) : (s.holeFailed f).outline = s.outline := by
  simp [State.holeFailed]
@[simp] theorem outline_execRetestDone (f : Nat) (s : State) : outlineOf (execRetestDone f s) = some s.outline := by
  simp [execRetestDone]
@[simp] theorem State.outline_warmField (s : State) (f : Nat) : (s.warmField f).outline = s.outline := by
  unfold State.warmField; split <;> simp
@[simp] theorem State.outline_admitField (s : State) (f : Nat) (entry : Option Word) : (s.admitField f entry).outline = s.outline := by
  simp [State.admitField]
@[simp] theorem State.outline_drainQueues (s : State) : s.drainQueues.outline = s.outline := by
  simp [State.drainQueues]

/-! ## Mailbox -/

@[simp] theorem State.outline_modChan (s : State) (c : Nat) (g : Chan → Chan) : (s.modChan c g).outline = s.outline := by
  simp [State.modChan]
@[simp] theorem State.outline_mbViolation (s : State) (c sp : Nat) (write : Bool) : (s.mbViolation c sp write).outline = s.outline := by
  simp [State.mbViolation]
@[simp] theorem State.outline_spineGrant (s : State) (sp : Nat) : (s.spineGrant sp).outline = s.outline := by
  simp [State.spineGrant]
@[simp] theorem outline_execMbMsgWrite (sp : Nat) (secure : Bool) (c w : Nat) (val : Word) (s : State) :
    outlineOf (execMbMsgWrite sp secure c w val s) = some s.outline := by
  simp [execMbMsgWrite]
@[simp] theorem outline_execMbDoorbell (sp : Nat) (secure : Bool) (c : Nat) (val : Word) (s : State) :
    outlineOf (execMbDoorbell sp secure c val s) = some s.outline := by
  simp [execMbDoorbell]
@[simp] theorem State.outline_writeRecord (s : State) (m : List Word) (c seq result : Nat) (words : List Word) :
    (s.writeRecord m c seq result words).outline = s.outline := by
  unfold State.writeRecord; (repeat' split) <;> simp
@[simp] theorem State.outline_sbiReturn (s : State) (c seq code : Nat) : (s.sbiReturn c seq code).outline = s.outline := by
  simp [State.sbiReturn]
@[simp] theorem State.outline_ack (s : State) (c seq code : Nat) : (s.ack c seq code).outline = s.outline := by
  simp [State.ack]
@[simp] theorem State.outline_answer (s : State) (c : Nat) (k : Taken) (code : Nat) (words : List Word) :
    (s.answer c k code words).outline = s.outline := by
  simp [State.answer]
@[simp] theorem State.outline_take (s : State) (c : Nat) : (s.take c).outline = s.outline := by
  simp only [State.take]
  (repeat' split) <;> simp
@[simp] theorem outline_execMailboxPoll (s : State) : outlineOf (execMailboxPoll s) = some s.outline := by
  simp [execMailboxPoll]
@[simp] theorem State.outline_addPend (s : State) (p : PendCmd) : (s.addPend p).outline = s.outline := by
  simp [State.addPend]
@[simp] theorem State.outline_settle (s : State) (c : Nat) (k : Taken) (o : CmdOut) (ho : o.keeps s.outline) :
    (s.settle c k o).outline = s.outline := by
  unfold State.settle
  cases o with
  | refuse => simp
  | done => simpa using ho
  | long =>
    dsimp only
    split
    · simpa using ho
    · simp
  | defer =>
    dsimp only
    split
    · simpa using ho
    · simp
@[simp] theorem State.outline_command (s : State) (c code : Nat) (act : List Word → State → CmdOut) (ha : ∀ m, (act m s).keeps s.outline) :
    outlineOf (s.command c code act) = some s.outline := by
  unfold State.command
  split
  · split
    · simp [State.outline_settle _ _ _ _ (ha _)]
    · rfl
  · rfl
@[simp] theorem State.outline_endCmd (s : State) (p : PendCmd) (code : Nat) (words : List Word) : (s.endCmd p code words).outline = s.outline := by
  simp [State.endCmd]
@[simp] theorem State.outline_supersede (s : State) (key : Nat × Nat) : (s.supersede key).outline = s.outline := by
  simp [State.supersede]
@[simp] theorem outline_execCommandTimeout (c seq : Nat) (s : State) : outlineOf (execCommandTimeout c seq s) = some s.outline := by
  unfold execCommandTimeout; split <;> simp
@[simp] theorem outline_execConductorBeat (s : State) : outlineOf (execConductorBeat s) = some s.outline := by
  simp [execConductorBeat]
@[simp] theorem outline_execStandbyRebuildDone (s : State) : outlineOf (execStandbyRebuildDone s) = some s.outline := by
  simp [execStandbyRebuildDone]
@[simp] theorem State.outline_settleTaken (s : State) (c : Nat) : (s.settleTaken c).1.outline = s.outline := by
  unfold State.settleTaken; (repeat' split) <;> simp
@[simp] theorem State.outline_settlePend (s : State) (planned : Bool) (p : PendCmd) : (s.settlePend planned p).1.outline = s.outline := by
  simp only [State.settlePend]
  (repeat' split) <;> simp

/-! ## FabricControl -/

@[simp] theorem State.outline_takeCtrl (s : State) (bytes : List Byte) : (s.takeCtrl bytes).outline = s.outline := by
  simp [State.takeCtrl]
@[simp] theorem outline_execCtrlReply (h : Hdr) (re status : Nat) (data : List Byte) (s : State) :
    outlineOf (execCtrlReply h re status data s) = some s.outline := by
  simp [execCtrlReply]
@[simp] theorem State.outline_sendNote (s : State) (n : PowerNote) (p : Nat) : (s.sendNote n p).outline = s.outline := by
  simp [State.sendNote]
@[simp] theorem State.outline_groupCap (s : State) : s.groupCap.outline = s.outline := by
  simp only [State.groupCap]
  split <;> simp
@[simp] theorem outline_execPowerNoteSend (s : State) : outlineOf (execPowerNoteSend s) = some s.outline := by
  simp only [execPowerNoteSend]
  (repeat' split) <;> simp
@[simp] theorem outline_execPowerNote (p : Nat) (n : PowerNote) (s : State) : outlineOf (execPowerNote p n s) = some s.outline := by
  simp [execPowerNote]
@[simp] theorem outline_execPowerNoteExpiry (s : State) : outlineOf (execPowerNoteExpiry s) = some s.outline := by
  simp [execPowerNoteExpiry]
@[simp] theorem State.outline_brokerReply (s : State) (m : BrokerMsg) (b : BrokerBody) : (s.brokerReply m b).outline = s.outline := by
  simp [State.brokerReply]
@[simp] theorem State.outline_brokerRefuse (s : State) (m : BrokerMsg) (code : Nat) : (s.brokerRefuse m code).outline = s.outline := by
  unfold State.brokerRefuse; split <;> simp
@[simp] theorem outline_execBrokerConnectRequest (p : Nat) (m : BrokerMsg) (s : State) :
    outlineOf (execBrokerConnectRequest p m s) = some s.outline := by
  simp only [execBrokerConnectRequest, outlineOf_next, Option.some.injEq]
  (repeat' split) <;> simp only [State.outline_send, State.outline_update, State.outline_setPort, State.outline_brokerRefuse, State.outline_takeCtrl]
@[simp] theorem State.outline_brokerEnd (s : State) (r : BrokerReq) (code : Nat) (words : List Word) :
    (s.brokerEnd r code words).outline = s.outline := by
  simp [State.brokerEnd]
@[simp] theorem outline_execBrokerConnectReply (p : Nat) (m : BrokerMsg) (s : State) : outlineOf (execBrokerConnectReply p m s) = some s.outline := by
  simp only [execBrokerConnectReply]
  split <;> simp
@[simp] theorem outline_execBrokerCloseMessage (p : Nat) (m : BrokerMsg) (s : State) : outlineOf (execBrokerCloseMessage p m s) = some s.outline := by
  unfold execBrokerCloseMessage; split <;> simp
@[simp] theorem outline_execBrokerLookupRequest (p : Nat) (m : BrokerMsg) (s : State) :
    outlineOf (execBrokerLookupRequest p m s) = some s.outline := by
  simp only [execBrokerLookupRequest]
  (repeat' split) <;> simp
@[simp] theorem outline_execBrokerLookupReply (p : Nat) (m : BrokerMsg) (s : State) : outlineOf (execBrokerLookupReply p m s) = some s.outline := by
  simp only [execBrokerLookupReply]
  split <;> simp

/-! ## FaultLog -/

@[simp] theorem State.outline_takeHalt (s : State) (f e : Nat) (i : Nat) : (s.takeHalt f e i).outline = s.outline := by
  simp [State.takeHalt]
@[simp] theorem outline_execHaltScan (f : Nat) (s : State) : outlineOf (execHaltScan f s) = some s.outline := by
  simp [execHaltScan]
@[simp] theorem outline_execFaultLogPoll (s : State) : outlineOf (execFaultLogPoll s) = some s.outline := by
  simp [execFaultLogPoll]
@[simp] theorem outline_execFltRead (f tail : Nat) (s : State) : outlineOf (execFltRead f tail s) = some s.outline := by
  simp [execFltRead]

/-! ## MemoryUpkeep -/

@[simp] theorem outline_execRowRefresh (t : TileId) (row : Nat) (s : State) : outlineOf (execRowRefresh t row s) = some s.outline := by
  simp [execRowRefresh]
@[simp] theorem State.outline_upset (s : State) (e : ScrubErr) : (s.upset e).outline = s.outline := by
  simp [State.upset]
@[simp] theorem State.outline_scrubUe (s : State) (row : Nat) (t : TileId) (w : Nat) : (s.scrubUe row t w).outline = s.outline := by
  simp [State.scrubUe]
@[simp] theorem State.outline_scrubTile (s : State) (row : Nat) (t : TileId) : (s.scrubTile row t).outline = s.outline := by
  simp [State.scrubTile]
@[simp] theorem State.outline_hostUpset (s : State) (e : ScrubErr) : (s.hostUpset e).outline = s.outline := by
  simp [State.hostUpset]
@[simp] theorem outline_execPatrolScrub (f : Nat) (errs : List ScrubErr) (s : State) : outlineOf (execPatrolScrub f errs s) = some s.outline := by
  simp [execPatrolScrub]
@[simp] theorem outline_execRefreshDerate (f : Nat) (temp : Int) (s : State) : outlineOf (execRefreshDerate f temp s) = some s.outline := by
  simp [execRefreshDerate]
@[simp] theorem outline_execRefreshRestore (f : Nat) (temps : List Int) (s : State) : outlineOf (execRefreshRestore f temps s) = some s.outline := by
  simp [execRefreshRestore]
@[simp] theorem State.outline_syncRecWrite (s : State) (f i : Nat) (w0 w1 : Option Word) (w : Writer) :
    (s.syncRecWrite f i w0 w1 w).outline = s.outline := by
  simp [State.syncRecWrite]
@[simp] theorem State.outline_syncWordWrite (s : State) (f o : Nat) (val : Word) (w : Writer) : (s.syncWordWrite f o val w).outline = s.outline := by
  simp [State.syncWordWrite]
@[simp] theorem outline_execSyncRecWrite (f i : Nat) (w0 w1 : Option Word) (w : Writer) (s : State) :
    outlineOf (execSyncRecWrite f i w0 w1 w s) = some s.outline := by
  simp [execSyncRecWrite]
@[simp] theorem State.outline_hedgeReply (s : State) (ws : List Nat) : (s.hedgeReply ws).outline = s.outline := by
  simp [State.hedgeReply]
@[simp] theorem outline_execHedgerowSyncDebug (cell : Nat) (op : CellOp) (s : State) :
    outlineOf (execHedgerowSyncDebug cell op s) = some s.outline := by
  unfold execHedgerowSyncDebug; split <;> simp

/-! ## FieldRegs -/

@[simp] theorem State.outline_stepWrite (s : State) (f : Nat) (val : Word) : (s.stepWrite f val).outline = s.outline := by
  simp [State.stepWrite]
@[simp] theorem State.outline_orderWrite (s : State) (f : Nat) (val : Word) : (s.orderWrite f val).outline = s.outline := by
  simp [State.orderWrite]
@[simp] theorem State.outline_holdVoid (s : State) (f : Nat) : (s.holdVoid f).outline = s.outline := by
  simp [State.holdVoid]
@[simp] theorem State.outline_hedgeWrite (s : State) (f o : Nat) (val : Word) : (s.hedgeWrite f o val).outline = s.outline := by
  simp [State.hedgeWrite]

/-! ## GliastField -/

@[simp] theorem outline_withField (m : List Word) (k : Nat → CmdOut) (l : Outline) (hk : ∀ f, (k f).keeps l) : (withField m k).keeps l := by
  unfold withField; simp only [CmdOut.keeps_ite]; (repeat' split) <;> simp [hk]
@[simp] theorem State.outline_withTile (s : State) (w : Nat) (k : TileId → CmdOut) (l : Outline) (hk : ∀ f, (k f).keeps l) :
    (s.withTile w k).keeps l := by
  unfold State.withTile; simp only [CmdOut.keeps_ite]; (repeat' split) <;> simp [hk]
@[simp] theorem State.outline_resetTile (s : State) (t : TileId) : (s.resetTile t).outline = s.outline := by
  simp [State.resetTile]
@[simp] theorem State.outline_resetField (s : State) (f : Nat) : (s.resetField f).outline = s.outline := by
  simp [State.resetField]
@[simp] theorem State.outline_repairEvent (s : State) (f order : Nat) (old new : SvcSt) : (s.repairEvent f order old new).outline = s.outline := by
  simp [State.repairEvent]
@[simp] theorem outline_cmdFieldAdmit (m : List Word) (s : State) : (cmdFieldAdmit m s).keeps s.outline := by
  refine outline_withField _ _ _ fun f => ?_
  simp
  (repeat' split) <;> simp
@[simp] theorem outline_execFieldAdmit (c : Nat) (s : State) : outlineOf (execFieldAdmit c s) = some s.outline := by
  simp [execFieldAdmit]
@[simp] theorem outline_cmdFieldDrain (m : List Word) (s : State) : (cmdFieldDrain m s).keeps s.outline := by
  refine outline_withField _ _ _ fun f => ?_
  simp
  (repeat' split) <;> simp
@[simp] theorem outline_execFieldDrain (c : Nat) (s : State) : outlineOf (execFieldDrain c s) = some s.outline := by
  simp [execFieldDrain]
@[simp] theorem outline_cmdFieldPark (m : List Word) (s : State) : (cmdFieldPark m s).keeps s.outline := by
  refine outline_withField _ _ _ fun f => ?_
  simp
  (repeat' split) <;> simp
@[simp] theorem outline_execFieldPark (c : Nat) (s : State) : outlineOf (execFieldPark c s) = some s.outline := by
  simp [execFieldPark]
@[simp] theorem outline_cmdFieldReturn (m : List Word) (s : State) : (cmdFieldReturn m s).keeps s.outline := by
  simp [cmdFieldReturn]
@[simp] theorem outline_execFieldReturn (c : Nat) (s : State) : outlineOf (execFieldReturn c s) = some s.outline := by
  simp [execFieldReturn]
@[simp] theorem outline_cmdFieldReset (m : List Word) (s : State) : (cmdFieldReset m s).keeps s.outline := by
  simp [cmdFieldReset]
@[simp] theorem outline_execFieldReset (c : Nat) (s : State) : outlineOf (execFieldReset c s) = some s.outline := by
  simp [execFieldReset]
@[simp] theorem outline_cmdFieldClear (m : List Word) (s : State) : (cmdFieldClear m s).keeps s.outline := by
  simp [cmdFieldClear]
@[simp] theorem outline_execFieldClear (c : Nat) (s : State) : outlineOf (execFieldClear c s) = some s.outline := by
  simp [execFieldClear]
@[simp] theorem outline_cmdFieldInsulate (m : List Word) (s : State) : (cmdFieldInsulate m s).keeps s.outline := by
  simp [cmdFieldInsulate]
@[simp] theorem outline_execFieldInsulate (c : Nat) (s : State) : outlineOf (execFieldInsulate c s) = some s.outline := by
  simp [execFieldInsulate]
@[simp] theorem State.outline_fieldRetain (s : State) (f : Nat) : (s.fieldRetain f).keeps s.outline := by
  simp [State.fieldRetain]
@[simp] theorem State.outline_fieldWake (s : State) (f : Nat) : (s.fieldWake f).keeps s.outline := by
  simp [State.fieldWake]
@[simp] theorem outline_cmdFieldQuery (m : List Word) (s : State) : (cmdFieldQuery m s).keeps s.outline := by
  simp [cmdFieldQuery]
@[simp] theorem outline_execFieldQuery (c : Nat) (s : State) : outlineOf (execFieldQuery c s) = some s.outline := by
  simp [execFieldQuery]
@[simp] theorem outline_cmdTileReset (m : List Word) (s : State) : (cmdTileReset m s).keeps s.outline := by
  simp [cmdTileReset]
@[simp] theorem outline_execTileReset (c : Nat) (s : State) : outlineOf (execTileReset c s) = some s.outline := by
  simp [execTileReset]
theorem State.outline_fieldDone (s : State) (m : List Word) : ∀ u, (s.fieldDone m) = some u → u.2.2.outline = s.outline := by
  simp only [State.fieldDone]
  (repeat' split) <;> simp

/-! ## GliastJob -/

@[simp] theorem State.outline_setJob (s : State) (j : Nat) (v : Job) : (s.setJob j v).outline = s.outline := by
  simp [State.setJob]
@[simp] theorem outline_withJob (m : List Word) (k : Nat → CmdOut) (l : Outline) (hk : ∀ f, (k f).keeps l) : (withJob m k).keeps l := by
  unfold withJob; split <;> simp [hk]
@[simp] theorem outline_cmdJobDeclare (m : List Word) (s : State) : (cmdJobDeclare m s).keeps s.outline := by
  unfold cmdJobDeclare; split <;> simp
@[simp] theorem outline_execJobDeclare (c : Nat) (s : State) : outlineOf (execJobDeclare c s) = some s.outline := by
  simp [execJobDeclare]
@[simp] theorem LoadRun.outline_record (p : LoadRun) (j : Nat) (r : JobRec) : (p.record j r).s.outline = p.s.outline := by
  simp only [LoadRun.record]
  (repeat' split) <;> simp
@[simp] theorem outline_cmdJobLoad (m : List Word) (s : State) : (cmdJobLoad m s).keeps s.outline := by
  refine outline_withJob _ _ _ fun j => ?_
  split
  · simp
  · split
    · simp
    · dsimp only
      split
      · simp
      · split
        · simp
        · split
          · simp
          · exact (State.outline_foldl_part LoadRun.s _ (fun p r => p.outline_record j r) _ _).trans (by simp)
@[simp] theorem outline_execJobLoad (c : Nat) (s : State) : outlineOf (execJobLoad c s) = some s.outline := by
  simp [execJobLoad]
@[simp] theorem State.outline_regen (s : State) (e : TileId × Nat × Nat) : (s.regen e).outline = s.outline := by
  simp [State.regen]
@[simp] theorem outline_cmdJobStart (m : List Word) (s : State) : (cmdJobStart m s).keeps s.outline := by
  simp [cmdJobStart]
@[simp] theorem outline_execJobStart (c : Nat) (s : State) : outlineOf (execJobStart c s) = some s.outline := by
  simp [execJobStart]
@[simp] theorem outline_cmdJobStop (m : List Word) (s : State) : (cmdJobStop m s).keeps s.outline := by
  simp [cmdJobStop]
@[simp] theorem outline_execJobStop (c : Nat) (s : State) : outlineOf (execJobStop c s) = some s.outline := by
  simp [execJobStop]
@[simp] theorem outline_cmdJobRelease (m : List Word) (s : State) : (cmdJobRelease m s).keeps s.outline := by
  simp [cmdJobRelease]
@[simp] theorem outline_execJobRelease (c : Nat) (s : State) : outlineOf (execJobRelease c s) = some s.outline := by
  simp [execJobRelease]
@[simp] theorem outline_cmdJobQuery (m : List Word) (s : State) : (cmdJobQuery m s).keeps s.outline := by
  simp [cmdJobQuery]
@[simp] theorem outline_execJobQuery (c : Nat) (s : State) : outlineOf (execJobQuery c s) = some s.outline := by
  simp [execJobQuery]
theorem outline_foldLoadTile (slot : Nat) (purge : Bool) (refs : Tab Word) (p : State × Nat × Nat × Nat) (t : TileId) :
    (foldLoadTile slot purge refs p t).1.outline = p.1.outline := by
  unfold foldLoadTile
  split
  · rfl
  · next w _ =>
    split
    · rfl
    · have h := State.outline_dloadAt p.1 t slot (hrefOf w) purge
      split <;> next e => simpa [e] using h
@[simp] theorem outline_cmdFoldLoad (m : List Word) (s : State) : (cmdFoldLoad m s).keeps s.outline := by
  refine outline_withJob _ _ _ fun j => ?_
  simp only []
  split
  · simp
  · split
    · simp
    · exact State.outline_foldl_part Prod.fst _ (fun p t => outline_foldLoadTile _ _ _ p t) _ _
@[simp] theorem outline_execFoldLoad (c : Nat) (s : State) : outlineOf (execFoldLoad c s) = some s.outline := by
  simp [execFoldLoad]
@[simp] theorem outline_cmdFoldSwitch (m : List Word) (s : State) : (cmdFoldSwitch m s).keeps s.outline := by
  simp [cmdFoldSwitch]
@[simp] theorem outline_execFoldSwitch (c : Nat) (s : State) : outlineOf (execFoldSwitch c s) = some s.outline := by
  simp [execFoldSwitch]
@[simp] theorem outline_cmdFoldSchedule (m : List Word) (s : State) : (cmdFoldSchedule m s).keeps s.outline := by
  simp [cmdFoldSchedule]
@[simp] theorem outline_execFoldSchedule (c : Nat) (s : State) : outlineOf (execFoldSchedule c s) = some s.outline := by
  simp [execFoldSchedule]

/-! ## GliastSys -/

@[simp] theorem outline_cmdSysIdentify (m : List Word) (s : State) : (cmdSysIdentify m s).keeps s.outline := by
  simp [cmdSysIdentify]
@[simp] theorem outline_execSysIdentify (c : Nat) (s : State) : outlineOf (execSysIdentify c s) = some s.outline := by
  simp [execSysIdentify]
@[simp] theorem outline_cmdSysStatus (m : List Word) (s : State) : (cmdSysStatus m s).keeps s.outline := by
  simp [cmdSysStatus]
@[simp] theorem outline_execSysStatus (c : Nat) (s : State) : outlineOf (execSysStatus c s) = some s.outline := by
  simp [execSysStatus]
@[simp] theorem outline_cmdSysHandover (m : List Word) (s : State) : (cmdSysHandover m s).keeps s.outline := by
  unfold cmdSysHandover; split <;> simp
@[simp] theorem outline_execSysHandover (c : Nat) (s : State) : outlineOf (execSysHandover c s) = some s.outline := by
  simp [execSysHandover]
@[simp] theorem outline_cmdSysBoundVoid (m : List Word) (s : State) : (cmdSysBoundVoid m s).keeps s.outline := by
  unfold cmdSysBoundVoid; (repeat' split) <;> simp
@[simp] theorem outline_execSysBoundVoid (c : Nat) (s : State) : outlineOf (execSysBoundVoid c s) = some s.outline := by
  simp [execSysBoundVoid]
@[simp] theorem outline_execSysPing (c : Nat) (s : State) : outlineOf (execSysPing c s) = some s.outline := by
  simp [execSysPing]
@[simp] theorem State.outline_brokerAsk (s : State) (c : Nat) (wafer : Nat) (r : BrokerReq) (body : BrokerBody) :
    (s.brokerAsk c wafer r body).keeps s.outline := by
  unfold State.brokerAsk; split <;> simp
@[simp] theorem outline_execBrokerConnect (c : Nat) (s : State) : outlineOf (execBrokerConnect c s) = some s.outline := by
  simp [execBrokerConnect]
@[simp] theorem outline_cmdBrokerClose (m : List Word) (s : State) : (cmdBrokerClose m s).keeps s.outline := by
  simp [cmdBrokerClose]
@[simp] theorem outline_execBrokerClose (c : Nat) (s : State) : outlineOf (execBrokerClose c s) = some s.outline := by
  simp [execBrokerClose]
@[simp] theorem outline_cmdBrokerPolicy (m : List Word) (s : State) : (cmdBrokerPolicy m s).keeps s.outline := by
  unfold cmdBrokerPolicy; split <;> simp
@[simp] theorem outline_execBrokerPolicy (c : Nat) (s : State) : outlineOf (execBrokerPolicy c s) = some s.outline := by
  simp [execBrokerPolicy]
@[simp] theorem outline_cmdWindowPublish (m : List Word) (s : State) : (cmdWindowPublish m s).keeps s.outline := by
  unfold cmdWindowPublish; (repeat' split) <;> simp
@[simp] theorem outline_execWindowPublish (c : Nat) (s : State) : outlineOf (execWindowPublish c s) = some s.outline := by
  simp [execWindowPublish]
@[simp] theorem outline_cmdWindowWithdraw (m : List Word) (s : State) : (cmdWindowWithdraw m s).keeps s.outline := by
  unfold cmdWindowWithdraw; split <;> simp
@[simp] theorem outline_execWindowWithdraw (c : Nat) (s : State) : outlineOf (execWindowWithdraw c s) = some s.outline := by
  simp [execWindowWithdraw]
@[simp] theorem outline_execWindowLookup (c : Nat) (s : State) : outlineOf (execWindowLookup c s) = some s.outline := by
  simp [execWindowLookup]
@[simp] theorem State.outline_withCell (s : State) (m : List Word) (g : Nat → Nat → CmdOut) (d : TileId → Nat → CmdOut) (l : Outline)
    (hg : ∀ f i, (g f i).keeps l) (hd : ∀ f i, (d f i).keeps l) : (s.withCell m g d).keeps l := by
  unfold State.withCell; simp only [CmdOut.keeps_ite]; (repeat' split) <;> simp [hg, hd]
@[simp] theorem outline_cmdCellRead (m : List Word) (s : State) : (cmdCellRead m s).keeps s.outline := by
  simp [cmdCellRead]
@[simp] theorem outline_execCellRead (c : Nat) (s : State) : outlineOf (execCellRead c s) = some s.outline := by
  simp [execCellRead]
@[simp] theorem outline_execCellSet (c : Nat) (s : State) : outlineOf (execCellSet c s) = some s.outline := by
  simp [execCellSet]
@[simp] theorem outline_execCellForce (c : Nat) (s : State) : outlineOf (execCellForce c s) = some s.outline := by
  simp [execCellForce]
@[simp] theorem outline_cmdCellWaiters (m : List Word) (s : State) : (cmdCellWaiters m s).keeps s.outline := by
  simp [cmdCellWaiters]
@[simp] theorem outline_execCellWaiters (c : Nat) (s : State) : outlineOf (execCellWaiters c s) = some s.outline := by
  simp [execCellWaiters]
@[simp] theorem outline_cmdTileRelease (m : List Word) (s : State) : (cmdTileRelease m s).keeps s.outline := by
  unfold cmdTileRelease; split <;> simp
@[simp] theorem outline_execTileRelease (c : Nat) (s : State) : outlineOf (execTileRelease c s) = some s.outline := by
  simp [execTileRelease]
@[simp] theorem outline_cmdPwrSetCap (m : List Word) (s : State) : (cmdPwrSetCap m s).keeps s.outline := by
  unfold cmdPwrSetCap; split <;> simp
@[simp] theorem outline_execPwrSetCap (c : Nat) (s : State) : outlineOf (execPwrSetCap c s) = some s.outline := by
  simp [execPwrSetCap]
@[simp] theorem outline_cmdPwrSetPolicy (m : List Word) (s : State) : (cmdPwrSetPolicy m s).keeps s.outline := by
  simp [cmdPwrSetPolicy]
@[simp] theorem outline_execPwrSetPolicy (c : Nat) (s : State) : outlineOf (execPwrSetPolicy c s) = some s.outline := by
  simp [execPwrSetPolicy]
@[simp] theorem outline_cmdPwrSetGroup (m : List Word) (s : State) : (cmdPwrSetGroup m s).keeps s.outline := by
  simp [cmdPwrSetGroup]
@[simp] theorem outline_execPwrSetGroup (c : Nat) (s : State) : outlineOf (execPwrSetGroup c s) = some s.outline := by
  simp [execPwrSetGroup]
@[simp] theorem outline_cmdPwrQuery (m : List Word) (s : State) : (cmdPwrQuery m s).keeps s.outline := by
  simp [cmdPwrQuery]
@[simp] theorem outline_execPwrQuery (c : Nat) (s : State) : outlineOf (execPwrQuery c s) = some s.outline := by
  simp [execPwrQuery]
@[simp] theorem outline_cmdThatchSet (m : List Word) (s : State) : (cmdThatchSet m s).keeps s.outline := by
  unfold cmdThatchSet; (repeat' split) <;> simp
@[simp] theorem outline_execThatchSet (c : Nat) (s : State) : outlineOf (execThatchSet c s) = some s.outline := by
  simp [execThatchSet]

/-! ## GliastLink -/

@[simp] theorem State.outline_sendOrder (s : State) (kind op at_ : Nat) : (s.sendOrder kind op at_).outline = s.outline := by
  simp [State.sendOrder]
@[simp] theorem outline_cmdClkSetOp (m : List Word) (s : State) : (cmdClkSetOp m s).keeps s.outline := by
  unfold cmdClkSetOp
  refine (CmdOut.keeps_ite _ _ _ _).2 ?_
  split
  · trivial
  · split
    · trivial
    · exact (State.outline_sendOrder _ _ _ _).trans (by simp)
@[simp] theorem outline_execClkSetOp (c : Nat) (s : State) : outlineOf (execClkSetOp c s) = some s.outline := by
  simp [execClkSetOp]
@[simp] theorem outline_cmdClkSetMode (m : List Word) (s : State) : (cmdClkSetMode m s).keeps s.outline := by
  simp only [cmdClkSetMode]
  (repeat' split) <;> simp
@[simp] theorem outline_execClkSetMode (c : Nat) (s : State) : outlineOf (execClkSetMode c s) = some s.outline := by
  simp [execClkSetMode]
@[simp] theorem outline_cmdClkQuery (m : List Word) (s : State) : (cmdClkQuery m s).keeps s.outline := by
  simp [cmdClkQuery]
@[simp] theorem outline_execClkQuery (c : Nat) (s : State) : outlineOf (execClkQuery c s) = some s.outline := by
  simp [execClkQuery]
@[simp] theorem outline_execHeldOrderWrite (s : State) : outlineOf (execHeldOrderWrite s) = some s.outline := by
  simp [execHeldOrderWrite]
@[simp] theorem outline_withPort (m : List Word) (k : Nat → CmdOut) (l : Outline) (hk : ∀ f, (k f).keeps l) : (withPort m k).keeps l := by
  unfold withPort; split <;> simp [hk]
@[simp] theorem State.outline_programmed (s : State) : s.programmed.outline = s.outline := by
  simp [State.programmed]
@[simp] theorem outline_cmdPortLaneMap (m : List Word) (s : State) : (cmdPortLaneMap m s).keeps s.outline := by
  unfold cmdPortLaneMap; split <;> simp
@[simp] theorem outline_execPortLaneMap (c : Nat) (s : State) : outlineOf (execPortLaneMap c s) = some s.outline := by
  simp [execPortLaneMap]
@[simp] theorem outline_cmdPortConfig (m : List Word) (s : State) : (cmdPortConfig m s).keeps s.outline := by
  unfold cmdPortConfig; split <;> simp
@[simp] theorem outline_execPortConfig (c : Nat) (s : State) : outlineOf (execPortConfig c s) = some s.outline := by
  simp [execPortConfig]
@[simp] theorem outline_cmdRouteSet (m : List Word) (s : State) : (cmdRouteSet m s).keeps s.outline := by
  simp only [cmdRouteSet]
  split
  · simp
  · simp only [CmdOut.keeps_done, State.outline_programmed]
    exact State.outline_foldl _ _ _ fun u p => State.outline_foldl _ _ _ fun v i => by simp
@[simp] theorem outline_execRouteSet (c : Nat) (s : State) : outlineOf (execRouteSet c s) = some s.outline := by
  simp [execRouteSet]
@[simp] theorem outline_cmdRouteClear (m : List Word) (s : State) : (cmdRouteClear m s).keeps s.outline := by
  simp [cmdRouteClear]
@[simp] theorem outline_execRouteClear (c : Nat) (s : State) : outlineOf (execRouteClear c s) = some s.outline := by
  simp [execRouteClear]
@[simp] theorem outline_cmdPortQuery (m : List Word) (s : State) : (cmdPortQuery m s).keeps s.outline := by
  simp [cmdPortQuery]
@[simp] theorem outline_execPortQuery (c : Nat) (s : State) : outlineOf (execPortQuery c s) = some s.outline := by
  simp [execPortQuery]
@[simp] theorem outline_cmdPortForget (m : List Word) (s : State) : (cmdPortForget m s).keeps s.outline := by
  simp [cmdPortForget]
@[simp] theorem outline_execPortForget (c : Nat) (s : State) : outlineOf (execPortForget c s) = some s.outline := by
  simp [execPortForget]
@[simp] theorem State.outline_commitImage (s : State) (kind : Nat) : (s.commitImage kind).outline = s.outline := by
  unfold State.commitImage; split <;> simp
@[simp] theorem outline_cmdFwQuery (m : List Word) (s : State) : (cmdFwQuery m s).keeps s.outline := by
  simp [cmdFwQuery]
@[simp] theorem outline_execFwQuery (c : Nat) (s : State) : outlineOf (execFwQuery c s) = some s.outline := by
  simp [execFwQuery]
@[simp] theorem State.outline_tileImage (s : State) (f : Nat) (i : Img) : (s.tileImage f i).outline = s.outline := by
  simp only [State.tileImage]
  split <;> simp
@[simp] theorem outline_cmdFwApply (m : List Word) (s : State) : (cmdFwApply m s).keeps s.outline := by
  simp only [cmdFwApply]
  (repeat' split) <;> simp
@[simp] theorem outline_execFwApply (c : Nat) (s : State) : outlineOf (execFwApply c s) = some s.outline := by
  simp [execFwApply]
theorem State.outline_applyDone (s : State) : ∀ u, s.applyDone = some u → u.outline = s.outline := by
  simp [State.applyDone]
@[simp] theorem outline_cmdMapGet (m : List Word) (s : State) : (cmdMapGet m s).keeps s.outline := by
  simp only [cmdMapGet]
  (repeat' split) <;> simp
@[simp] theorem outline_execMapGet (c : Nat) (s : State) : outlineOf (execMapGet c s) = some s.outline := by
  simp [execMapGet]
@[simp] theorem outline_cmdDistGet (m : List Word) (s : State) : (cmdDistGet m s).keeps s.outline := by
  simp only [cmdDistGet]
  (repeat' split) <;> simp
@[simp] theorem outline_execDistGet (c : Nat) (s : State) : outlineOf (execDistGet c s) = some s.outline := by
  simp [execDistGet]
@[simp] theorem outline_cmdMapWait (m : List Word) (s : State) : (cmdMapWait m s).keeps s.outline := by
  unfold cmdMapWait; split <;> simp
@[simp] theorem outline_execMapWait (c : Nat) (s : State) : outlineOf (execMapWait c s) = some s.outline := by
  simp [execMapWait]
@[simp] theorem State.outline_endStop (s : State) (j : Nat) : (s.endStop j).outline = s.outline := by
  simp [State.endStop]
theorem State.outline_workDone (s : State) (p : PendCmd) : ∀ u, (s.workDone p) = some u → u.2.2.outline = s.outline := by
  intro u h
  simp only [State.workDone] at h
  split at h
  · split at h
    · cases h
    · cases h; simp
  split at h
  · split at h <;> cases h; rfl
  split at h
  · (repeat' split at h) <;> cases h <;> rfl
  split at h
  · split at h <;> cases h; rfl
  split at h
  · split at h <;> cases h; rfl
  split at h
  · obtain ⟨t, ht, rfl⟩ := Option.map_eq_some_iff.1 h
    exact State.outline_applyDone _ _ ht
  split at h
  · split at h <;> cases h; rfl
  exact State.outline_fieldDone _ _ _ h
@[simp] theorem outline_execCommandComplete (c seq : Nat) (s : State) : outlineOf (execCommandComplete c seq s) = some s.outline := by
  unfold execCommandComplete
  split
  · rfl
  · split
    · rfl
    · split
      · simp
      · split
        · next e => simpa using State.outline_workDone _ _ _ e
        · rfl

/-! ## HedgeCore -/

@[simp] theorem State.outline_flashRec (s : State) (r : Rec) : (s.flashRec r).outline = s.outline := by
  simp [State.flashRec]
@[simp] theorem State.outline_flush (s : State) : s.flush.outline = s.outline := by
  simp [State.flush]
@[simp] theorem outline_execScarabFlush (s : State) : outlineOf (execScarabFlush s) = some s.outline := by
  simp [execScarabFlush]
@[simp] theorem State.outline_release (s : State) : s.release.outline = s.outline := by
  simp [State.release]
@[simp] theorem State.outline_installed (s : State) (detail : List Nat) : (s.installed detail).outline = s.outline := by
  simp [State.installed]
@[simp] theorem State.outline_setUtc (s : State) (utc : Nat) : (s.setUtc utc).outline = s.outline := by
  simp [State.setUtc]
@[simp] theorem State.outline_profilesDue (s : State) : s.profilesDue.outline = s.outline := by
  simp [State.profilesDue]
theorem State.outline_ring (s : State) (secure : Bool) (code : Nat) (args : List Nat) :
    ∀ u, s.ring secure code args = some u → u.outline = s.outline := by
  simp only [State.ring]
  split <;> simp

/-! ## Chassis -/

@[simp] theorem outline_execIdentInput (low : Bool) (s : State) : outlineOf (execIdentInput low s) = some s.outline := by
  simp [execIdentInput]
@[simp] theorem outline_execConductorSilenceCheck (s : State) : outlineOf (execConductorSilenceCheck s) = some s.outline := by
  simp [execConductorSilenceCheck]

/-! ## ControlCore -/

theorem State.outline_lsFault (s : State) (t : TileId) (a : LsArgs) (kind : Nat) : ∀ u, s.lsFault t a kind = some u → u.outline = s.outline := by
  simp only [State.lsFault]
  split <;> simp
@[simp] theorem State.outline_coreLoad (s : State) (t : TileId) (a : LsArgs) : (s.coreLoad t a).outline = s.outline := by
  simp only [State.coreLoad]
  split
  · next e => exact State.outline_lsFault _ _ _ _ _ e
  · split
    · split <;> simp
    · exact State.outline_reading _ _ _ _ _ _ fun bs u => by simp
@[simp] theorem State.outline_coreStore (s : State) (t : TileId) (a : LsArgs) : (s.coreStore t a).outline = s.outline := by
  simp only [State.coreStore]
  split
  · next e => exact State.outline_lsFault _ _ _ _ _ e
  · split
    · split <;> simp
    · exact State.outline_writing _ _ _ _ _ _ fun u => by simp
@[simp] theorem outline_execCoreLoad (t : TileId) (a : LsArgs) (s : State) : outlineOf (execCoreLoad t a s) = some s.outline := by
  simp [execCoreLoad]
@[simp] theorem outline_execCoreStore (t : TileId) (a : LsArgs) (s : State) : outlineOf (execCoreStore t a s) = some s.outline := by
  simp [execCoreStore]
@[simp] theorem State.outline_csrAccess (s : State) (t : TileId) (n : Nat) (op : CsrOp) (rd rs1 : Nat) :
    (s.csrAccess t n op rd rs1).outline = s.outline := by
  unfold State.csrAccess; split <;> simp
@[simp] theorem outline_execCsrAccess (t : TileId) (csr : Nat) (op : CsrOp) (rd rs1 : Nat) (s : State) :
    outlineOf (execCsrAccess t csr op rd rs1 s) = some s.outline := by
  simp [execCsrAccess]
@[simp] theorem outline_execEcall (t : TileId) (s : State) : outlineOf (execEcall t s) = some s.outline := by
  simp [execEcall]
@[simp] theorem outline_execEbreak (t : TileId) (s : State) : outlineOf (execEbreak t s) = some s.outline := by
  simp [execEbreak]

/-! ## ControlPackets -/

@[simp] theorem State.outline_fcAt (s : State) (f : Nat) (h : Hdr) (body : Body) (act : State → State) (ha : ∀ u, (act u).outline = u.outline) :
    (s.fcAt f h body act).outline = s.outline := by
  refine State.outline_landing _ _ _ fun u => ?_
  split <;> simp [ha]
@[simp] theorem outline_execCtrlRead (h : Hdr) (off len : Nat) (s : State) : outlineOf (execCtrlRead h off len s) = some s.outline := by
  unfold execCtrlRead; split <;> simp

/-! ## Fetch -/

@[simp] theorem State.outline_rvWrite (s : State) (t : TileId) (rd : Nat) (v : Word) (len cost : Nat) :
    (s.rvWrite t rd v len cost).outline = s.outline := by
  simp [State.rvWrite]
@[simp] theorem State.outline_rvJump (s : State) (t : TileId) (rd : Nat) (link target : Word) : (s.rvJump t rd link target).outline = s.outline := by
  simp [State.rvJump]
@[simp] theorem State.outline_illegal (s : State) (t : TileId) (w : Word) : (s.illegal t w).outline = s.outline := by
  simp [State.illegal]
@[simp] theorem State.outline_rvOpImm (s : State) (t : TileId) (w raw : Word) (len : Nat) : (s.rvOpImm t w raw len).outline = s.outline := by
  simp [State.rvOpImm]
@[simp] theorem State.outline_rvOp (s : State) (t : TileId) (w raw : Word) (len : Nat) : (s.rvOp t w raw len).outline = s.outline := by
  simp [State.rvOp]
@[simp] theorem State.outline_rvSystem (s : State) (t : TileId) (w raw : Word) (len : Nat) : (s.rvSystem t w raw len).outline = s.outline := by
  simp only [State.rvSystem]
  split <;> simp
@[simp] theorem State.outline_rvRun (s : State) (t : TileId) (w raw : Word) (len : Nat) : (s.rvRun t w raw len).outline = s.outline := by
  unfold State.rvRun; split <;> simp
@[simp] theorem State.outline_fetchRun (s : State) (t : TileId) : (s.fetchRun t).outline = s.outline := by
  simp only [State.fetchRun]
  split
  · simp
  · split
    · simp
    · refine State.outline_reading _ _ _ _ _ _ fun bs u => ?_
      (repeat' split) <;> simp
@[simp] theorem outline_execRvInstruction (t : TileId) (s : State) : outlineOf (execRvInstruction t s) = some s.outline := by
  simp [execRvInstruction]

/-! ## HedgeRecorder -/

@[simp] theorem State.outline_sense (s : State) (f : Nat) (fr : SensorFrame) : (s.sense f fr).outline = s.outline := by
  simp [State.sense]
@[simp] theorem State.outline_takeRecs (s : State) (es : List Ev) : (s.takeRecs es).outline = s.outline := by
  simp [State.takeRecs]
@[simp] theorem State.outline_takeHolding (s : State) : s.takeHolding.outline = s.outline := by
  simp [State.takeHolding]
@[simp] theorem State.outline_takePoll (s : State) (f : Nat) : (s.takePoll f).outline = s.outline := by
  simp [State.takePoll]
@[simp] theorem outline_execScarabHoldingDrain (s : State) : outlineOf (execScarabHoldingDrain s) = some s.outline := by
  simp [execScarabHoldingDrain]
@[simp] theorem outline_execTimeAnchor (utc : Nat) (s : State) : outlineOf (execTimeAnchor utc s) = some s.outline := by
  simp [execTimeAnchor]
@[simp] theorem outline_execProfileAgeUpdate (f : Nat) (s : State) : outlineOf (execProfileAgeUpdate f s) = some s.outline := by
  simp [execProfileAgeUpdate]

/-! ## HedgeBus -/

@[simp] theorem State.outline_modHedge (s : State) (g : Hedge → Hedge) (hm : (g s.hedge).sideMode = s.hedge.sideMode)
    (ha : (g s.hedge).accounts.length = s.hedge.accounts.length) (hs : (g s.hedge).sessions.length = s.hedge.sessions.length) (hn : (g s.hedge).snaps.length = s.hedge.snaps.length) :
    (s.modHedge g).outline = s.outline := by
  simp [State.modHedge, hm, ha, hs, hn]
@[simp] theorem State.outline_mctpSend (s : State) (msg : List Byte) : (s.mctpSend msg).outline = s.outline := by
  simp [State.mctpSend]
@[simp] theorem State.outline_mctpReply (s : State) (code : Nat) (data : List Byte) : outlineOf (s.mctpReply code data) = some s.outline := by
  simp [State.mctpReply]
@[simp] theorem outline_execI3cPrivateRead (s : State) : outlineOf (execI3cPrivateRead s) = some s.outline := by
  unfold execI3cPrivateRead
  split
  · refine congrArg some (State.outline_modHedge _ _ ?_ ?_ ?_ ?_) <;> split <;> rfl
  · rfl
@[simp] theorem outline_execSetEndpointId (eid : Nat) (s : State) : outlineOf (execSetEndpointId eid s) = some s.outline := by
  unfold execSetEndpointId; split <;> simp
@[simp] theorem outline_execGetEndpointId (s : State) : outlineOf (execGetEndpointId s) = some s.outline := by
  simp [execGetEndpointId]
@[simp] theorem outline_execGetMctpVersionSupport (s : State) : outlineOf (execGetMctpVersionSupport s) = some s.outline := by
  simp [execGetMctpVersionSupport]
@[simp] theorem outline_execGetMessageTypeSupport (s : State) : outlineOf (execGetMessageTypeSupport s) = some s.outline := by
  simp [execGetMessageTypeSupport]
@[simp] theorem outline_execGetVendorDefinedMsgSupport (s : State) : outlineOf (execGetVendorDefinedMsgSupport s) = some s.outline := by
  simp [execGetVendorDefinedMsgSupport]
@[simp] theorem outline_execHealth (s : State) : outlineOf (execHealth s) = some s.outline := by
  simp [execHealth]
@[simp] theorem State.outline_slotSettle (s : State) (set : Bool) : (s.slotSettle set).outline = s.outline := by
  simp [State.slotSettle]
@[simp] theorem outline_execI3cEntdaa (addr : Nat) (s : State) : outlineOf (execI3cEntdaa addr s) = some s.outline := by
  unfold execI3cEntdaa; simp; (repeat' split) <;> simp_all
@[simp] theorem outline_execSlotGetAnswer (a : SlotAnswer) (s : State) : outlineOf (execSlotGetAnswer a s) = some s.outline := by
  unfold execSlotGetAnswer; (repeat' split) <;> simp
@[simp] theorem outline_execSlotSetAnswer (s : State) : outlineOf (execSlotSetAnswer s) = some s.outline := by
  unfold execSlotSetAnswer; split <;> simp
@[simp] theorem outline_execSlotCheckTimeout (s : State) : outlineOf (execSlotCheckTimeout s) = some s.outline := by
  unfold execSlotCheckTimeout; (repeat' split) <;> simp
@[simp] theorem State.outline_spdmSay (s : State) (a : SpdmAns) : (s.spdmSay a).outline = s.outline := by
  simp [State.spdmSay]
@[simp] theorem State.outline_spdmDo (s : State) (q : SpdmReq) (need : Nat) (g : State → State) (hg : (g s).outline = s.outline) :
    outlineOf (s.spdmDo q need g) = some s.outline := by
  unfold State.spdmDo; (repeat' split) <;> simp [hg]
@[simp] theorem State.outline_spdmStep (s : State) (q : SpdmReq) (n : Nat) : (s.spdmStep q n).outline = s.outline := by
  simp [State.spdmStep]
@[simp] theorem outline_execGetVersion (q : SpdmReq) (s : State) : outlineOf (execGetVersion q s) = some s.outline := by
  simp [execGetVersion]
@[simp] theorem outline_execGetCapabilities (q : SpdmReq) (s : State) : outlineOf (execGetCapabilities q s) = some s.outline := by
  simp [execGetCapabilities]
@[simp] theorem outline_execNegotiateAlgorithms (q : SpdmReq) (s : State) : outlineOf (execNegotiateAlgorithms q s) = some s.outline := by
  simp [execNegotiateAlgorithms]
@[simp] theorem outline_execGetDigests (q : SpdmReq) (s : State) : outlineOf (execGetDigests q s) = some s.outline := by
  simp [execGetDigests]
@[simp] theorem outline_execGetCertificate (q : SpdmReq) (s : State) : outlineOf (execGetCertificate q s) = some s.outline := by
  simp [execGetCertificate]
@[simp] theorem State.outline_attested (s : State) (q : SpdmReq) (request : Nat) : (s.attested q request).outline = s.outline := by
  simp [State.attested]
@[simp] theorem State.outline_freeSig (s : State) : s.freeSig.2.outline = s.outline := by
  simp [State.freeSig]
@[simp] theorem outline_execChallenge (q : SpdmReq) (s : State) : outlineOf (execChallenge q s) = some s.outline := by
  simp [execChallenge]
@[simp] theorem outline_execGetMeasurements (q : SpdmReq) (s : State) : outlineOf (execGetMeasurements q s) = some s.outline := by
  simp [execGetMeasurements]

/-! ## HostNode -/

@[simp] theorem State.outline_modHart (s : State) (k i : Nat) (g : Hart → Hart) : (s.modHart k i g).outline = s.outline := by
  simp [State.modHart]
@[simp] theorem State.outline_sendAcc (s : State) (k : Nat) (a : WinAcc) : (s.sendAcc k a).outline = s.outline := by
  simp [State.sendAcc]
@[simp] theorem State.outline_pumpHart (s : State) (k i : Nat) (ops : List HartOp) : (s.pumpHart k i ops).outline = s.outline := by
  induction ops generalizing s with
  | nil => simp [State.pumpHart]
  | cons x q ih => cases x <;> simp only [State.pumpHart] <;> split <;> simp [ih]
@[simp] theorem State.outline_pumpNode (s : State) (k : Nat) : (s.pumpNode k).outline = s.outline := by
  simp [State.pumpNode]
@[simp] theorem State.outline_issueHart (s : State) (k i : Nat) (op : HartOp) : (s.issueHart k i op).outline = s.outline := by
  simp [State.issueHart]
@[simp] theorem State.outline_issueAcc (s : State) (k hart addr size : Nat) (data : Option (List Byte)) :
    (s.issueAcc k hart addr size data).outline = s.outline := by
  simp [State.issueAcc]
@[simp] theorem outline_execWaferWindowLoad (k hart addr size : Nat) (form : HartForm) (s : State) :
    outlineOf (execWaferWindowLoad k hart addr size form s) = some s.outline := by
  unfold execWaferWindowLoad; (repeat' split) <;> simp
@[simp] theorem outline_execWaferWindowStore (k hart addr : Nat) (data : List Byte) (form : HartForm) (s : State) :
    outlineOf (execWaferWindowStore k hart addr data form s) = some s.outline := by
  simp only [execWaferWindowStore]
  (repeat' split) <;> simp
@[simp] theorem outline_execWaferWindowTimeout (k id : Nat) (s : State) : outlineOf (execWaferWindowTimeout k id s) = some s.outline := by
  unfold execWaferWindowTimeout; split <;> simp
@[simp] theorem State.outline_takeRaw (s : State) (k id : Nat) : (s.takeRaw k id).outline = s.outline := by
  simp [State.takeRaw]
@[simp] theorem outline_execWaferWindowAnswer (k id status : Nat) (data : List Byte) (s : State) :
    outlineOf (execWaferWindowAnswer k id status data s) = some s.outline := by
  simp only [execWaferWindowAnswer]
  split <;> simp
@[simp] theorem outline_execHartFenceIo (k hart : Nat) (s : State) : outlineOf (execHartFenceIo k hart s) = some s.outline := by
  simp [execHartFenceIo]
@[simp] theorem outline_execTimerInterrupt (k hart : Nat) (machine : Bool) (s : State) :
    outlineOf (execTimerInterrupt k hart machine s) = some s.outline := by
  simp [execTimerInterrupt]
@[simp] theorem outline_execSoftwareInterruptWrite (k : Nat) (machine : Bool) (hart : Nat) (val : Bool) (s : State) :
    outlineOf (execSoftwareInterruptWrite k machine hart val s) = some s.outline := by
  simp [execSoftwareInterruptWrite]
@[simp] theorem State.outline_hostClk (s : State) (k : Nat) (machine : Bool) (val : Word) : (s.hostClk k machine val).outline = s.outline := by
  simp [State.hostClk]
@[simp] theorem outline_execHostClkWrite (k : Nat) (machineMode : Bool) (val : Word) (s : State) :
    outlineOf (execHostClkWrite k machineMode val s) = some s.outline := by
  simp [execHostClkWrite]
@[simp] theorem outline_execSbiSecureForward (k idx : Nat) (msg : List Word) (s : State) :
    outlineOf (execSbiSecureForward k idx msg s) = some s.outline := by
  simp [execSbiSecureForward]
@[simp] theorem outline_execSbiSystemReset (k : Nat) (s : State) : outlineOf (execSbiSystemReset k s) = some s.outline := by
  simp [execSbiSystemReset]
@[simp] theorem State.outline_loadNode (s : State) (k : Nat) : (s.loadNode k).outline = s.outline := by
  simp only [State.loadNode]
  split <;> simp
@[simp] theorem State.outline_bootFail (s : State) (k code : Nat) : (s.bootFail k code).outline = s.outline := by
  simp [State.bootFail]
@[simp] theorem outline_execNodeBoot (k : Nat) (digestOk : Bool) (s : State) : outlineOf (execNodeBoot k digestOk s) = some s.outline := by
  simp [execNodeBoot]
@[simp] theorem outline_execHostBootTimeout (k : Nat) (s : State) : outlineOf (execHostBootTimeout k s) = some s.outline := by
  simp [execHostBootTimeout]
@[simp] theorem outline_execEthRingTailWrite (k port : Nat) (tx : Bool) (ring val : Nat) (s : State) :
    outlineOf (execEthRingTailWrite k port tx ring val s) = some s.outline := by
  simp [execEthRingTailWrite]
@[simp] theorem State.outline_memBad (s : State) (k a reader : Nat) : (s.memBad k a reader).outline = s.outline := by
  simp [State.memBad]
@[simp] theorem outline_execEthDescriptorDone (k port ring : Nat) (s : State) : outlineOf (execEthDescriptorDone k port ring s) = some s.outline := by
  simp only [execEthDescriptorDone]
  (repeat' split) <;> simp
@[simp] theorem outline_execEthFrameReceive (k port : Nat) (bytes : List Byte) (prio hash : Nat) (s : State) :
    outlineOf (execEthFrameReceive k port bytes prio hash s) = some s.outline := by
  simp only [execEthFrameReceive]
  (repeat' split) <;> simp
@[simp] theorem outline_execEthLinkChange (k port : Nat) (up : Bool) (mode : Nat) (s : State) :
    outlineOf (execEthLinkChange k port up mode s) = some s.outline := by
  simp [execEthLinkChange]
@[simp] theorem outline_execPcieDeviceWrite (k addr : Nat) (data : List Byte) (s : State) :
    outlineOf (execPcieDeviceWrite k addr data s) = some s.outline := by
  unfold execPcieDeviceWrite; (repeat' split) <;> simp
@[simp] theorem outline_execPcieDeviceRead (k addr len : Nat) (s : State) : outlineOf (execPcieDeviceRead k addr len s) = some s.outline := by
  unfold execPcieDeviceRead; (repeat' split) <;> simp
@[simp] theorem State.outline_hostCtlWrite (s : State) (k : Nat) (machine : Bool) (o : Nat) (val : Word) :
    (s.hostCtlWrite k machine o val).outline = s.outline := by
  simp [State.hostCtlWrite]
@[simp] theorem State.outline_mailboxWrite (s : State) (sp : Nat) (secure : Bool) (o : Nat) (val : Word) :
    (s.mailboxWrite sp secure o val).outline = s.outline := by
  simp [State.mailboxWrite]

/-! ## Redfish -/

@[simp] theorem State.outline_http (s : State) (code : Nat) : (s.http code).outline = s.outline := by
  simp [State.http]
@[simp] theorem State.outline_used (s : State) (session : Nat) : (s.used session).outline = s.outline := by
  simp [State.used]
@[simp] theorem State.outline_serve (s : State) (session need : Nat) (g : Account → State → State) (hg : ∀ a u, (g a u).outline = u.outline) :
    outlineOf (s.serve session need g) = some s.outline := by
  unfold State.serve; (repeat' split) <;> simp [hg]
@[simp] theorem outline_execAccountLockExpiry (name : Nat) (s : State) : outlineOf (execAccountLockExpiry name s) = some s.outline := by
  simp [execAccountLockExpiry]
@[simp] theorem outline_execChassisForceRestart (session : Nat) (s : State) : outlineOf (execChassisForceRestart session s) = some s.outline := by
  refine State.outline_serve _ _ _ _ fun a u => ?_
  split
  · next e => exact State.outline_ring _ _ _ _ _ e
  · simp
@[simp] theorem outline_execPowerLimitSet (session watts : Nat) (s : State) : outlineOf (execPowerLimitSet session watts s) = some s.outline := by
  refine State.outline_serve _ _ _ _ fun a u => ?_
  split
  · simp
  · split
    · next e => exact State.outline_ring _ _ _ _ _ e
    · simp
@[simp] theorem outline_execIndicatorLedSet (session : Nat) (on : Bool) (s : State) :
    outlineOf (execIndicatorLedSet session on s) = some s.outline := by
  simp [execIndicatorLedSet]
@[simp] theorem outline_execDatetimeSet (session utc : Nat) (s : State) : outlineOf (execDatetimeSet session utc s) = some s.outline := by
  simp [execDatetimeSet]
@[simp] theorem outline_execConfigSet (session : Nat) (item : ConfigItem) (s : State) :
    outlineOf (execConfigSet session item s) = some s.outline := by
  unfold execConfigSet; split <;> simp
@[simp] theorem outline_execOwnerKeyInstall (session : Nat) (image : Bool) (key : Option Nat) (signed : Bool) (s : State) :
    outlineOf (execOwnerKeyInstall session image key signed s) = some s.outline := by
  unfold execOwnerKeyInstall; split <;> simp
@[simp] theorem outline_execRedfishGet (session : Nat) (uri : RedfishUri) (s : State) :
    outlineOf (execRedfishGet session uri s) = some s.outline := by
  refine State.outline_serve _ _ _ _ fun a u => ?_
  split <;> simp
@[simp] theorem outline_execClearLog (session expected : Nat) (s : State) : outlineOf (execClearLog session expected s) = some s.outline := by
  simp [execClearLog]
@[simp] theorem outline_execScarabExport (session : Nat) (s : State) : outlineOf (execScarabExport session s) = some s.outline := by
  simp [execScarabExport]

/-! ## Update -/

@[simp] theorem State.outline_stage (s : State) (img : ImagePush) : (s.stage img).outline = s.outline := by
  simp [State.stage]
@[simp] theorem State.outline_pushImage (s : State) (img : ImagePush) : (s.pushImage img).2.outline = s.outline := by
  unfold State.pushImage; split <;> simp
@[simp] theorem outline_execFirmwarePush (session : Nat) (img : ImagePush) (s : State) :
    outlineOf (execFirmwarePush session img s) = some s.outline := by
  simp [execFirmwarePush]
@[simp] theorem outline_execRecoveryRetry (s : State) : outlineOf (execRecoveryRetry s) = some s.outline := by
  unfold execRecoveryRetry; split <;> simp
end Sys2Proof.Machine
end

section
/-! SUPPORT. Outlines that follow quietly from one another: the limits hold again, and nothing moved that only named commands move. -/

namespace Sys2Proof.Machine

/-- The limits of State.Limits, over an outline. -/
structure Outline.Ok (l : Outline) : Prop where
  time : l.time < 2 ^ 64
  waferId : l.waferId < 2 ^ 16
  osc : l.osc ≤ 2
  glow : ∀ g, l.glow.getD g 1 ≤ 2
  portState : ∀ p, l.portState p ≤ 6
  sideMode : l.sideMode ≤ 1
  restarts : l.restarts ≤ 3
  activeKf : l.activeKf ≤ 1
  accounts : l.accounts ≤ 16
  sessions : l.sessions ≤ 32
  snaps : l.snaps ≤ 8

theorem State.limits_iff (s : State) : s.Limits ↔ s.outline.Ok :=
  ⟨fun ⟨h1, h2, h3, h4, h5, h6, h7, h8, h9, h10, h11⟩ => ⟨h1, h2, h3, h4, h5, h6, h7, h8, h9, h10, h11⟩,
    fun ⟨h1, h2, h3, h4, h5, h6, h7, h8, h9, h10, h11⟩ => ⟨h1, h2, h3, h4, h5, h6, h7, h8, h9, h10, h11⟩⟩

/-- Outline b follows from a by nothing that only named commands do: the queue, the wafer identifier, the reference and wafer time stay, the power
board does not turn on, and the limits still hold. -/
structure Outline.Quiet (a b : Outline) : Prop where
  ok : a.Ok → b.Ok
  pending : b.pending = a.pending
  waferId : b.waferId = a.waferId
  osc : b.osc = a.osc
  time : b.time = a.time
  board : b.board = true → a.board = true

@[simp] theorem Outline.Quiet.refl (a : Outline) : a.Quiet a := ⟨id, rfl, rfl, rfl, rfl, id⟩

theorem Outline.Quiet.trans {a b c : Outline} (h : a.Quiet b) (k : b.Quiet c) : a.Quiet c :=
  ⟨fun x => k.ok (h.ok x), k.pending.trans h.pending, k.waferId.trans h.waferId, k.osc.trans h.osc, k.time.trans h.time, fun x => h.board (k.board x)⟩

theorem Outline.Quiet.of_eq {a b : Outline} (h : b = a) : a.Quiet b := h ▸ .refl a

@[simp] theorem Outline.quiet_ite (c : Prop) [Decidable c] (l a b : Outline) : l.Quiet (if c then a else b) ↔ if c then l.Quiet a else l.Quiet b := by
  split <;> rfl

theorem State.quiet_ite {l : Outline} {c : Prop} [Decidable c] {a b : State} (ha : l.Quiet a.outline) (hb : l.Quiet b.outline) :
    l.Quiet (if c then a else b).outline := by split <;> assumption

/-- A fold of quiet steps is quiet. -/
@[simp] theorem State.quiet_foldl {α : Type} (l : Outline) (g : State → α → State) (xs : List α) (s : State) (h : ∀ (s : State) x, s.outline.Quiet (g s x).outline)
    (hs : l.Quiet s.outline) : l.Quiet (xs.foldl g s).outline := by
  induction xs generalizing s with
  | nil => exact hs
  | cons x xs ih => exact ih _ (hs.trans (h s x))

/-- What a command answers follows quietly. -/
def Outline.Answers (l : Outline) (o : Out) : Prop :=
  match o with
  | .next u => l.Quiet u.outline
  | .fault _ | .refused _ => False

@[simp] theorem Outline.answers_next (l : Outline) (u : State) : l.Answers (.next u) ↔ l.Quiet u.outline := Iff.rfl

theorem Outline.Answers.of_outlineOf {l : Outline} {o : Out} (h : outlineOf o = some l) : l.Answers o := by
  cases o with
  | next u => exact .of_eq (by simpa using h)
  | fault f => cases h
  | refused r => cases h

/-- What a Gliast command does follows quietly. -/
def CmdOut.quiet (o : CmdOut) (l : Outline) : Prop :=
  match o with
  | .refuse _ _ => True
  | .done _ u | .long _ _ u | .defer u => l.Quiet u.outline

@[simp] theorem CmdOut.quiet_refuse (c : Nat) (w : List Word) (l : Outline) : (CmdOut.refuse c w).quiet l := trivial
@[simp] theorem CmdOut.quiet_done (w : List Word) (u : State) (l : Outline) : (CmdOut.done w u).quiet l ↔ l.Quiet u.outline := Iff.rfl
@[simp] theorem CmdOut.quiet_long (o : Option Nat) (w : List Word) (u : State) (l : Outline) :
    (CmdOut.long o w u).quiet l ↔ l.Quiet u.outline := Iff.rfl
@[simp] theorem CmdOut.quiet_defer (u : State) (l : Outline) : (CmdOut.defer u).quiet l ↔ l.Quiet u.outline := Iff.rfl
@[simp] theorem CmdOut.quiet_ite (c : Prop) [Decidable c] (a b : CmdOut) (l : Outline) :
    (if c then a else b).quiet l ↔ if c then a.quiet l else b.quiet l := by split <;> rfl

theorem CmdOut.quiet_of_keeps {o : CmdOut} {l : Outline} (h : o.keeps l) : o.quiet l := by
  cases o with
  | refuse => trivial
  | done => exact .of_eq h
  | long => exact .of_eq h
  | defer => exact .of_eq h

/-- A port that is written keeps the limits where its new state is one of R268's. -/
theorem State.quiet_setPort (l : Outline) (s : State) (p : Nat) (v : Port) (hv : v.state ≤ 6) (h : l.Quiet s.outline) :
    l.Quiet (s.setPort p v).outline := by
  refine h.trans ⟨fun k => { k with portState := fun q => ?_ }, rfl, rfl, rfl, rfl, id⟩
  by_cases e : p = q
  · subst e
    exact (congrArg (fun x => Port.state x ≤ 6) (State.port_setPort s p v)).mpr hv
  · exact (congrArg (fun x => Port.state x ≤ 6) (State.port_setPort_other s p q v e)).mpr (k.portState q)

theorem State.quiet_modPort (l : Outline) (s : State) (p : Nat) (g : Port → Port) (hv : (g (s.port p)).state ≤ 6) (h : l.Quiet s.outline) :
    l.Quiet (s.modPort p g).outline := s.quiet_setPort l p _ hv h

theorem State.quiet_landing (s : State) (p : Pkt) (k : State → State) (hk : ∀ u : State, u.outline.Quiet (k u).outline) :
    s.outline.Quiet (s.landing p k).outline := by
  unfold State.landing
  split
  · simpa using hk (s.took p)
  · exact .refl _

/-- A request at the management server runs its action on a state of this outline, or keeps the outline. -/
theorem State.serve_outline (s : State) (session need : Nat) (g : Account → State → State) :
    ∃ u, s.serve session need g = .next u ∧ (u.outline = s.outline ∨ ∃ a t, t.outline = s.outline ∧ u = g a t) := by
  obtain ⟨-, e⟩ | ⟨-, -, e⟩ | ⟨a, -, -, ⟨-, e⟩ | ⟨-, e⟩⟩ := s.serve_cases session need g
  · exact ⟨_, e, .inl rfl⟩
  · exact ⟨_, e, .inl (by simp)⟩
  · exact ⟨_, e, .inl (by simp)⟩
  · exact ⟨_, e, .inr ⟨a, _, by simp, rfl⟩⟩

theorem State.quiet_serve (s : State) (session need : Nat) (g : Account → State → State) (hg : ∀ a (u : State), u.outline.Quiet (g a u).outline) :
    s.outline.Answers (s.serve session need g) := by
  obtain ⟨u, e, same | ⟨a, t, ht, rfl⟩⟩ := s.serve_outline session need g
  · exact e ▸ .of_eq same
  · rw [e, ← ht]
    exact hg a t

theorem State.quiet_settle (s : State) (c : Nat) (k : Taken) (o : CmdOut) (ho : o.quiet s.outline) : s.outline.Quiet (s.settle c k o).outline := by
  unfold State.settle
  cases o with
  | refuse => simp
  | done => simpa using ho
  | long => dsimp only; split <;> simp_all
  | defer => dsimp only; split <;> simp_all

theorem State.quiet_command (s : State) (c code : Nat) (act : List Word → State → CmdOut) (ha : ∀ m, (act m s).quiet s.outline) :
    s.outline.Answers (s.command c code act) := by
  unfold State.command
  split
  · split
    · exact s.quiet_settle _ _ _ (ha _)
    · exact .refl _
  · exact .refl _

theorem quiet_withField (m : List Word) (k : Nat → CmdOut) (l : Outline) (hk : ∀ f, (k f).quiet l) : (withField m k).quiet l := by
  unfold withField
  simp only [CmdOut.quiet_ite]
  (repeat' split) <;> simp [hk]

theorem quiet_withPort (m : List Word) (k : Nat → CmdOut) (l : Outline) (hk : ∀ f, (k f).quiet l) : (withPort m k).quiet l := by
  unfold withPort
  split <;> simp [hk]

end Sys2Proof.Machine
end

section
/-! SUPPORT. Ports and glow bays follow quietly. -/

namespace Sys2Proof.Machine

/-! ## Ports -/

@[simp] theorem State.quiet_portDrop (l : Outline) (s : State) (p next cause : Nat) (hn : next ≤ 6) (h : l.Quiet s.outline) :
    l.Quiet (s.portDrop p next cause).outline := by
  simp only [State.portDrop]
  split
  · simp only [State.outline_event, State.outline_foldl _ _ _ fun u x => State.outline_loseFrame u _ x _]
    exact s.quiet_setPort l p _ hn h
  · exact s.quiet_setPort l p _ hn h

@[simp] theorem State.quiet_retrain (l : Outline) (s : State) (p : Nat) (h : l.Quiet s.outline) : l.Quiet (s.retrain p).outline :=
  s.quiet_setPort l p _ (by simp) h

@[simp] theorem State.quiet_train (l : Outline) (s : State) (p : Nat) (h : l.Quiet s.outline) : l.Quiet (s.train p).outline :=
  s.quiet_setPort l p _ (by simp) h

theorem quiet_execLinkNak (p seq : Nat) (s : State) : s.outline.Answers (execLinkNak p seq s) := by
  simp only [execLinkNak, Outline.answers_next]
  split
  · split <;> simp
  · simp

@[simp] theorem State.quiet_laneOff (l : Outline) (s : State) (p lane : Nat) (h : l.Quiet s.outline) : l.Quiet (s.laneOff p lane).outline := by
  simp [State.laneOff, h]

theorem quiet_execLinkLaneOff (p lane : Nat) (s : State) : s.outline.Answers (execLinkLaneOff p lane s) := by
  simp [execLinkLaneOff]

theorem quiet_execLaneFailure (p lane : Nat) (s : State) : s.outline.Answers (execLaneFailure p lane s) := by
  simp [execLaneFailure]

theorem quiet_execPortLightDetected (p : Nat) (s : State) : s.outline.Answers (execPortLightDetected p s) := by
  simp [execPortLightDetected]

theorem quiet_execTrainingDone (p : Nat) (r : TrainResult) (s : State) : s.outline.Answers (execTrainingDone p r s) := by
  simp only [execTrainingDone, Outline.answers_next]
  split
  · rw [State.outline_foldl _ _ _ fun u e => State.outline_event _ _ _ _]
    refine State.quiet_setPort _ _ _ _ ?_ (by simp)
    simp only [Port.state_say]
    split <;> omega
  · exact .refl _

theorem quiet_execTrainingFailed (p : Nat) (s : State) : s.outline.Answers (execTrainingFailed p s) := by
  simp [execTrainingFailed]

theorem quiet_execTrainingBackoffExpiry (p : Nat) (s : State) : s.outline.Answers (execTrainingBackoffExpiry p s) := by
  simp only [execTrainingBackoffExpiry, Outline.answers_next]
  split
  · exact State.quiet_setPort _ _ _ _ (by simp) (.refl _)
  · exact .refl _

@[simp] theorem State.quiet_refusePort (l : Outline) (s : State) (p code serial : Nat) (h : l.Quiet s.outline) :
    l.Quiet (s.refusePort p code serial).outline := by
  unfold State.refusePort
  split
  · simp [h]
  · rw [State.outline_event]
    exact State.quiet_modPort _ _ _ _ (by simp) h

@[simp] theorem State.quiet_verifyCap (l : Outline) (s : State) (p : Nat) (b : CapBlock) (h : l.Quiet s.outline) :
    l.Quiet (s.verifyCap p b).outline := by
  have hset (v : Port) (hv : v.state = (s.port p).state) : l.Quiet (s.freeVal.2.setPort p v).outline :=
    h.trans (.of_eq (State.outline_setPort_of (State.outline_freeVal s) hv))
  simp only [State.verifyCap]
  split
  · exact State.quiet_refusePort _ _ _ _ _ h
  · split
    · exact State.quiet_refusePort _ _ _ _ _ h
    · rw [State.outline_ite, Outline.quiet_ite]
      split
      · exact State.quiet_refusePort _ _ _ _ _ (hset _ rfl)
      · exact hset _ rfl

theorem quiet_execCap (p : Nat) (b : CapBlock) (s : State) : s.outline.Answers (execCap p b s) := by
  simp only [execCap, Outline.answers_next]
  split
  · split <;> simp
  · split
    · split <;> simp
    · simp

theorem quiet_execCert (x : CertAt) (s : State) : s.outline.Answers (execCert x s) := by
  simp only [execCert, Outline.answers_next]
  split
  · split
    · simp
    · split
      · split
        · refine State.quiet_verifyCap _ _ _ _ (.of_eq ?_)
          simp only [State.outline_update, State.outline_setPort]
        · simp
      · simp
  · simp

theorem quiet_execMode (p : Nat) (m : LinkMode) (count : Nat) (s : State) : s.outline.Answers (execMode p m count s) := by
  simp only [execMode, Outline.answers_next]
  split
  · split <;> simp
  · simp

theorem quiet_execModeSwitch (x : SwitchAt) (s : State) : s.outline.Answers (execModeSwitch x s) := by
  simp only [execModeSwitch, Outline.answers_next]
  split
  · split
    · rw [State.outline_event]
      exact State.quiet_modPort _ _ _ _ (by simp) (by simp)
    · simp
  · simp

theorem quiet_execNegotiationTimeout (p : Nat) (s : State) : s.outline.Answers (execNegotiationTimeout p s) := by
  simp [execNegotiationTimeout]

theorem quiet_execRefusedTimeout (p : Nat) (s : State) : s.outline.Answers (execRefusedTimeout p s) := by
  simp [execRefusedTimeout]

theorem quiet_execPortSignalLoss (p : Nat) (s : State) : s.outline.Answers (execPortSignalLoss p s) := by
  simp [execPortSignalLoss]

theorem quiet_execLinkClose (p : Nat) (s : State) : s.outline.Answers (execLinkClose p s) := by
  simp [execLinkClose]

theorem quiet_execRetrainDone (p : Nat) (s : State) : s.outline.Answers (execRetrainDone p s) := by
  simp only [execRetrainDone, Outline.answers_next]
  split
  · split
    · exact State.quiet_modPort _ _ _ _ (by simp) (by simp)
    · simp
  · simp

theorem quiet_execRetrainTimeout (p : Nat) (s : State) : s.outline.Answers (execRetrainTimeout p s) := by
  simp [execRetrainTimeout]

@[simp] theorem State.quiet_portDown (l : Outline) (s : State) (p : Nat) (h : l.Quiet s.outline) : l.Quiet (s.portDown p).outline := by
  simp [State.portDown, h]

@[simp] theorem State.quiet_portWake (l : Outline) (s : State) (p : Nat) (h : l.Quiet s.outline) : l.Quiet (s.portWake p).outline := by
  simp only [State.portWake]
  split
  · exact State.quiet_setPort _ _ _ _ (by simp) h
  · exact h

/-! ## Glow bays -/

@[simp] theorem State.quiet_setBay (l : Outline) (s : State) (g st : Nat) (hst : st ≤ 2) (h : l.Quiet s.outline) :
    l.Quiet (s.setBay g st).outline := by
  simp only [State.setBay, State.outline_event]
  refine h.trans ⟨fun k => { k with glow := fun i => ?_ }, rfl, rfl, rfl, rfl, id⟩
  by_cases e : g = i
  · subst e
    exact (congrArg (· ≤ 2) (Tab.getD_put_same s.glow g st 1)).mpr hst
  · exact (congrArg (· ≤ 2) (Tab.getD_put_other s.glow g i st 1 e)).mpr (k.glow i)

@[simp] theorem State.quiet_darken (l : Outline) (s : State) (g : Nat) (h : l.Quiet s.outline) : l.Quiet (s.darken g).outline := by
  unfold State.darken
  refine State.quiet_foldl _ _ _ _ (fun u p => ?_) h
  split <;> simp

theorem quiet_execGlowLightLoss (g : Nat) (s : State) : s.outline.Answers (execGlowLightLoss g s) := by
  simp [execGlowLightLoss]
theorem quiet_execGlowLatchOpen (g : Nat) (s : State) : s.outline.Answers (execGlowLatchOpen g s) := by
  simp [execGlowLatchOpen]
theorem quiet_execGlowLatchClose (g : Nat) (s : State) : s.outline.Answers (execGlowLatchClose g s) := by
  simp [execGlowLatchClose]
theorem quiet_execGlowLit (g : Nat) (s : State) : s.outline.Answers (execGlowLit g s) := by
  simp [execGlowLit]
end Sys2Proof.Machine
end

section
/-! SUPPORT. Fields, start-up, warm resets and the conductor follow quietly. -/

namespace Sys2Proof.Machine

/-! ## Fields -/

@[simp] theorem State.quiet_railsOff (l : Outline) (s : State) (f : Nat) (st : PwrSt) (cause : Nat) (h : l.Quiet s.outline) :
    l.Quiet (s.railsOff f st cause).outline := by
  simp only [State.railsOff, State.outline_tilesOff]
  split <;> simp [h]

@[simp] theorem State.quiet_failNow (l : Outline) (s : State) (f : Nat) (st : PwrSt) (cause kind : Nat) (sv : SvcSt) (h : l.Quiet s.outline) :
    l.Quiet (s.failNow f st cause kind sv).outline := by
  simp only [State.failNow]
  split <;> simp [h]

@[simp] theorem State.quiet_plannedOff (l : Outline) (s : State) (f : Nat) (h : l.Quiet s.outline) : l.Quiet (s.plannedOff f).outline := by
  simp [State.plannedOff, h]

@[simp] theorem State.quiet_allOff (l : Outline) (s : State) (cause : Nat) (h : l.Quiet s.outline) : l.Quiet (s.allOff cause).outline := by
  simp [State.allOff, h]

theorem Tab.find_mapVals {α : Type} (t : Tab α) (f : Nat → α → α) (i : Nat) : (t.mapVals f).find i = (t.find i).map (f i) := by
  induction t with
  | nil => rfl
  | cons e t ih =>
    simp only [Tab.mapVals, List.map_cons, Tab.find] at ih ⊢
    split
    · next h => simp [h]
    · exact ih

@[simp] theorem State.quiet_boardOff (l : Outline) (s : State) (cause : Nat) (h : l.Quiet s.outline) : l.Quiet (s.boardOff cause).outline := by
  refine State.quiet_allOff _ _ _ (h.trans ⟨fun k => { k with glow := fun g => ?_ }, rfl, rfl, rfl, rfl, fun e => by cases e⟩)
  show (s.glow.mapVals fun _ g => min g 1).getD g 1 ≤ 2
  simp only [Tab.getD, Tab.find_mapVals]
  cases s.glow.find g with
  | none => decide
  | some v => exact Nat.le_trans (Nat.min_le_right v 1) (by decide)

@[simp] theorem State.quiet_fieldUp (l : Outline) (s : State) (f : Nat) (h : l.Quiet s.outline) : l.Quiet (s.fieldUp f).outline := by
  simp [State.fieldUp, h]

theorem quiet_execFieldWake (f : Nat) (s : State) : s.outline.Answers (execFieldWake f s) := by
  simp only [execFieldWake, Outline.answers_next]
  split
  · split
    · refine State.quiet_portWake _ _ _ (.of_eq ?_)
      split <;> simp
    · simp
  · simp

theorem quiet_execFieldClockStop (f : Nat) (s : State) : s.outline.Answers (execFieldClockStop f s) := by
  simp only [execFieldClockStop, Outline.answers_next]
  split <;> simp

theorem quiet_execRetentionReached (f : Nat) (s : State) : s.outline.Answers (execRetentionReached f s) := by
  simp only [execRetentionReached, Outline.answers_next]
  (repeat' split) <;> simp

@[simp] theorem State.quiet_startOff (l : Outline) (s : State) (f : Nat) (h : l.Quiet s.outline) : l.Quiet (s.startOff f).outline := by
  unfold State.startOff
  split <;> simp [h]

@[simp] theorem State.quiet_orderOff (l : Outline) (s : State) (f : Nat) (h : l.Quiet s.outline) : l.Quiet (s.orderOff f).outline := by
  unfold State.orderOff
  split
  · simp [h]
  · split <;> simp [h]

@[simp] theorem State.quiet_thermalPark (l : Outline) (s : State) (f : Nat) (h : l.Quiet s.outline) : l.Quiet (s.thermalPark f).outline := by
  simp [State.thermalPark, h]

@[simp] theorem State.quiet_hardTrip (l : Outline) (s : State) (f : Nat) (h : l.Quiet s.outline) : l.Quiet (s.hardTrip f).outline := by
  simp only [State.hardTrip]
  split
  · simp [h]
  · simp [h]
  · simp [h]
  · split <;> simp [h]
  · exact h

theorem quiet_execThermalSample (f : Nat) (temp : Int) (sensor : Nat) (s : State) : s.outline.Answers (execThermalSample f temp sensor s) := by
  simp only [execThermalSample, Outline.answers_next]
  split
  · split <;> simp
  · simp

theorem quiet_execCoolantSample (c : Coolant) (s : State) : s.outline.Answers (execCoolantSample c s) := by
  simp only [execCoolantSample, Outline.answers_next]
  refine State.quiet_ite (.refl _) (State.quiet_ite (State.quiet_foldl _ _ _ _ (fun u f => by simp) (.of_eq ?_)) (.of_eq ?_)) <;>
    simp

theorem quiet_execOvercurrentLatch (f : Nat) (core mem : Bool) (s : State) : s.outline.Answers (execOvercurrentLatch f core mem s) := by
  simp only [execOvercurrentLatch, Outline.answers_next]
  split
  · simp
  · split
    · simp
    · split <;> simp
    · simp
    · simp
    · simp

theorem quiet_execBusStop (s : State) : s.outline.Answers (execBusStop s) := by
  simp [execBusStop]

/-! ## Start-up -/

@[simp] theorem State.quiet_waveField (l : Outline) (s : State) (routers : List TileId) (f : Nat) (h : l.Quiet s.outline) :
    l.Quiet (s.waveField routers f).outline := by
  unfold State.waveField
  split <;> simp [h]

theorem quiet_execFieldPowerWave (w : Nat) (routers : List TileId) (s : State) : s.outline.Answers (execFieldPowerWave w routers s) := by
  simp [execFieldPowerWave]

theorem quiet_execFieldWaveTimeout (f : Nat) (s : State) : s.outline.Answers (execFieldWaveTimeout f s) := by
  simp [execFieldWaveTimeout]

/-- Clearing the count of cold restarts is quiet. -/
theorem State.quiet_noRestarts (l : Outline) (s : State) (boot : Boot) (cond : Conductor) (h : l.Quiet s.outline) :
    l.Quiet ({ s with boot := boot, chassis := { s.chassis with restarts := 0 }, cond := cond } : State).outline :=
  h.trans ⟨fun k => { k with restarts := Nat.zero_le _ }, rfl, rfl, rfl, rfl, id⟩

theorem quiet_execBringupAdmission (s : State) : s.outline.Answers (execBringupAdmission s) := by
  simp only [execBringupAdmission, Outline.answers_next]
  refine State.quiet_ite ?_ (.refl _)
  rw [State.outline_ite, State.outline_event, ite_self]
  refine State.quiet_noRestarts _ _ _ _ (.of_eq ?_)
  simp

@[simp] theorem State.quiet_warmClear (l : Outline) (s : State) (h : l.Quiet s.outline) : l.Quiet s.warmClear.outline := by
  have hports (d : State) (p : Nat) : ((d.ports.mapVals fun _ p => p.warm).getD p {}).state ≤ 6 := by
    simp only [Tab.getD, Tab.find_mapVals]
    cases d.ports.find p <;> exact Nat.zero_le _
  simp only [State.warmClear]
  refine State.quiet_foldl _ _ _ _ (fun u p => by simp) ?_
  rw [State.outline_rebootHosts, State.outline_modField]
  have hd : l.Quiet s.drainQueues.outline := by simpa using h
  exact hd.trans ⟨fun k => { k with portState := hports _, activeKf := Nat.zero_le _ }, rfl, rfl, rfl, rfl, id⟩

@[simp] theorem State.quiet_startWarm (l : Outline) (s : State) (h : l.Quiet s.outline) : l.Quiet s.startWarm.outline := by
  simp [State.startWarm, h]

theorem quiet_execWarmResetInjectionStop (s : State) : s.outline.Answers (execWarmResetInjectionStop s) := by
  simp [execWarmResetInjectionStop]

@[simp] theorem State.quiet_takeRole (l : Outline) (s : State) (kf : Nat) (h : l.Quiet s.outline) : l.Quiet (s.takeRole kf).outline :=
  h.trans ⟨fun k => { k with activeKf := by show (if kf = 0 then 0 else 1) ≤ 1; split <;> omega }, rfl, rfl, rfl, rfl, id⟩

theorem quiet_execConductorBoot (kf : Nat) (s : State) : s.outline.Answers (execConductorBoot kf s) := by
  simp [execConductorBoot]

@[simp] theorem State.quiet_takeOver (l : Outline) (s : State) (old new cause : Nat) (h : l.Quiet s.outline) :
    l.Quiet (s.takeOver old new cause).outline := by
  have ha (u : State) (n : Nat) (cs : List Nat) : (cs.foldl (fun p c => ((State.settleTaken p.1 c).1, p.2 + (State.settleTaken p.1 c).2)) (u, n)).1.outline = u.outline := by
    refine State.outline_foldl_part Prod.fst _ (fun p c => ?_) _ _
    exact State.outline_settleTaken _ _
  have hb (u : State) (n : Nat) (pl : Bool) (cs : List PendCmd) :
      (cs.foldl (fun p c => ((State.settlePend p.1 pl c).1, p.2 + (State.settlePend p.1 pl c).2)) (u, n)).1.outline = u.outline := by
    refine State.outline_foldl_part Prod.fst _ (fun p c => ?_) _ _
    exact State.outline_settlePend _ _ _
  simp only [State.takeOver, State.outline_ite, State.outline_event, ite_self, State.outline_update, hb, ha]
  exact State.quiet_takeRole _ _ _ h
theorem quiet_execConductorTakeover (s : State) : s.outline.Answers (execConductorTakeover s) := by
  simp [execConductorTakeover]
end Sys2Proof.Machine
end

section
/-! SUPPORT. Register writes, Gliast commands, Hedgerow and the power board follow quietly. -/

namespace Sys2Proof.Machine

/-! ## Register writes and Gliast commands -/

@[simp] theorem State.quiet_portCtrl (l : Outline) (s : State) (p : Nat) (val : Word) (h : l.Quiet s.outline) :
    l.Quiet (s.portCtrl p val).outline := by
  simp only [State.portCtrl]
  split <;> simp [h]

@[simp] theorem State.quiet_portWrite (l : Outline) (s : State) (p o : Nat) (val : Word) (h : l.Quiet s.outline) :
    l.Quiet (s.portWrite p o val).outline := by
  unfold State.portWrite
  (repeat' split) <;> simp [h]

@[simp] theorem State.quiet_conductorWrite (l : Outline) (s : State) (f o : Nat) (val : Word) (h : l.Quiet s.outline) :
    l.Quiet (s.conductorWrite f o val).outline := by
  unfold State.conductorWrite
  (repeat' split) <;> simp [h]

@[simp] theorem State.quiet_writeFcReg (l : Outline) (s : State) (f : Nat) (w : Writer) (o : Nat) (val : Word) (h : l.Quiet s.outline) :
    l.Quiet (s.writeFcReg f w o val).outline := by
  simp only [State.writeFcReg]
  refine State.quiet_ite (by simp [h]) (State.quiet_ite (by simp [h]) ?_)
  cases w with
  | conductor => exact State.quiet_conductorWrite _ _ _ _ _ (by simp [h])
  | hedgerow => simp [h]
  | master => simp [h]
  | core => simp [h]
  | fc => simp [h]
  | host m => simp [h]

@[simp] theorem State.quiet_writeFcWords (l : Outline) (s : State) (f : Nat) (w : Writer) (o : Nat) (data : List Byte) (h : l.Quiet s.outline) :
    l.Quiet (s.writeFcWords f w o data).outline :=
  State.quiet_foldl _ _ _ _ (fun u i => by simp) h

theorem quiet_execCtrlWrite (hd : Hdr) (off : Nat) (data : List Byte) (s : State) : s.outline.Answers (execCtrlWrite hd off data s) := by
  simp only [execCtrlWrite, Outline.answers_next]
  split
  · refine State.quiet_landing _ _ _ fun u => ?_
    simp
  · simp

theorem quiet_execRegisterWrite (sp : RegSpace) (w : Writer) (off : Nat) (val : Word) (s : State) :
    s.outline.Answers (execRegisterWrite sp w off val s) := by
  simp only [execRegisterWrite, Outline.answers_next]
  refine State.quiet_ite (.refl _) ?_
  cases sp <;> simp

theorem quiet_cmdFieldRetest (m : List Word) (s : State) : (cmdFieldRetest m s).quiet s.outline := by
  simp only [cmdFieldRetest, CmdOut.quiet_ite]
  split
  · trivial
  · refine quiet_withField _ _ _ fun f => ?_
    split
    · trivial
    · split
      · simp
      · simp
      · split
        · trivial
        · split <;> simp
      all_goals trivial

theorem quiet_execFieldRetest (c : Nat) (s : State) :
    s.outline.Answers (execFieldRetest c s) := s.quiet_command _ _ _ fun m => quiet_cmdFieldRetest m s

theorem quiet_cmdFieldFail (m : List Word) (s : State) : (cmdFieldFail m s).quiet s.outline := by
  refine quiet_withField _ _ _ fun f => ?_
  simp

theorem quiet_execFieldFail (c : Nat) (s : State) : s.outline.Answers (execFieldFail c s) := s.quiet_command _ _ _ fun m => quiet_cmdFieldFail m s

@[simp] theorem State.quiet_fieldOff (s : State) (f : Nat) : (s.fieldOff f).quiet s.outline := by
  simp only [State.fieldOff, CmdOut.quiet_ite]
  (repeat' split) <;> simp

theorem quiet_cmdFieldPower (m : List Word) (s : State) : (cmdFieldPower m s).quiet s.outline := by
  simp only [cmdFieldPower, CmdOut.quiet_ite]
  split
  · trivial
  · refine quiet_withField _ _ _ fun f => ?_
    simp [CmdOut.quiet_of_keeps (s.outline_fieldRetain f), CmdOut.quiet_of_keeps (s.outline_fieldWake f)]

theorem quiet_execFieldPower (c : Nat) (s : State) : s.outline.Answers (execFieldPower c s) := s.quiet_command _ _ _ fun m => quiet_cmdFieldPower m s

theorem quiet_execSysWarmReset (c : Nat) (s : State) : s.outline.Answers (execSysWarmReset c s) :=
  s.quiet_command _ _ _ fun m => by simp [cmdSysWarmReset]

theorem quiet_cmdThermSetLimits (m : List Word) (s : State) : (cmdThermSetLimits m s).quiet s.outline := by
  simp only [cmdThermSetLimits]
  split
  · trivial
  · split <;> simp

theorem quiet_execThermSetLimits (c : Nat) (s : State) :
    s.outline.Answers (execThermSetLimits c s) := s.quiet_command _ _ _ fun m => quiet_cmdThermSetLimits m s

@[simp] theorem State.quiet_ctrlBit (l : Outline) (s : State) (p i : Nat) (on : Bool) (h : l.Quiet s.outline) :
    l.Quiet (s.ctrlBit p i on).outline := by
  simp [State.ctrlBit, h]

theorem quiet_cmdPortUp (m : List Word) (s : State) : (cmdPortUp m s).quiet s.outline := by
  refine quiet_withPort _ _ _ fun p => ?_
  split <;> simp

theorem quiet_execPortUp (c : Nat) (s : State) : s.outline.Answers (execPortUp c s) := s.quiet_command _ _ _ fun m => quiet_cmdPortUp m s

theorem quiet_execPortDown (c : Nat) (s : State) : s.outline.Answers (execPortDown c s) :=
  s.quiet_command _ _ _ fun m => quiet_withPort _ _ _ fun p => by simp

theorem quiet_execPortRetrain (c : Nat) (s : State) : s.outline.Answers (execPortRetrain c s) :=
  s.quiet_command _ _ _ fun m => quiet_withPort _ _ _ fun p => by simp

theorem quiet_execPortRelay (c : Nat) (s : State) : s.outline.Answers (execPortRelay c s) :=
  s.quiet_command _ _ _ fun m => quiet_withPort _ _ _ fun p => by simp

theorem quiet_runEnable (m : List Word) (s : State) : (runEnable m s).quiet s.outline := by
  simp only [runEnable]
  split
  · exact quiet_cmdPortUp m s
  · split
    · exact quiet_cmdFieldPower m s
    · split
      · exact CmdOut.quiet_of_keeps (by simpa using outline_cmdJobStart m (s.endStop (msgWord m 2)))
      · exact CmdOut.quiet_of_keeps (outline_cmdClkSetMode m s)

theorem quiet_execDeferredEnableStart (c seq : Nat) (s : State) : s.outline.Answers (execDeferredEnableStart c seq s) := by
  simp only [execDeferredEnableStart, Outline.answers_next]
  split
  · simp
  · split
    · simp
    · split
      · simp
      · next p _ _ _ _ _ =>
        have h := quiet_runEnable p.words { s with cond := { s.cond with pend := s.cond.pend.filter (fun q => !(q.chan == c && q.seq == seq)) } }
        rw [State.outline_update _ _ _ _ _ _ _ _ _ _ _ _ _ _ _ rfl rfl rfl rfl rfl rfl rfl] at h
        generalize runEnable _ _ = o at h ⊢
        cases o with
        | refuse => simp
        | done => simpa using h
        | long => simpa using h
        | defer => simp

/-! ## Hedgerow -/

@[simp] theorem State.quiet_hedgeStart (l : Outline) (s : State) (cause : Nat) (bad : List Nat) (h : l.Quiet s.outline) :
    l.Quiet (s.hedgeStart cause bad).outline := by
  refine h.trans ?_
  simp only [State.hedgeStart]
  refine State.quiet_ite ?_ ?_
  · exact ⟨fun k => { k with sideMode := Nat.zero_le 1, sessions := Nat.zero_le 32 }, rfl, rfl, rfl, rfl, id⟩
  · simp only [State.outline_event, State.outline_profilesDue]
    exact ⟨fun k => { k with sideMode := Nat.zero_le 1, sessions := Nat.zero_le 32 }, rfl, rfl, rfl, rfl, id⟩

@[simp] theorem State.quiet_hedgeRestart (l : Outline) (s : State) (cause : Nat) (bad : List Nat) (h : l.Quiet s.outline) :
    l.Quiet (s.hedgeRestart cause bad).outline := by
  simp [State.hedgeRestart, h]

theorem quiet_execHedgerowRestart (c : HedgeCause) (bad : List Nat) (s : State) : s.outline.Answers (execHedgerowRestart c bad s) := by
  simp only [execHedgerowRestart, Outline.answers_next]
  exact State.quiet_ite (by simp) (.refl _)

theorem quiet_execStandbyInputLoss (s : State) : s.outline.Answers (execStandbyInputLoss s) := by
  simp [execStandbyInputLoss]

theorem Hedge.parts_keepFrame (h : Hedge) (f now : Nat) (fr : SensorFrame) :
    (h.keepFrame f now fr).sideMode = h.sideMode ∧ (h.keepFrame f now fr).accounts = h.accounts ∧ (h.keepFrame f now fr).sessions = h.sessions ∧
      (h.keepFrame f now fr).snaps = h.snaps := ⟨rfl, rfl, rfl, rfl⟩

theorem quiet_execHedgerowFieldPoll (f : Nat) (fr : SensorFrame) (s : State) : s.outline.Answers (execHedgerowFieldPoll f fr s) := by
  obtain ⟨hm, ha, hs, hn⟩ := s.hedge.parts_keepFrame f s.time fr
  simp only [execHedgerowFieldPoll, Outline.answers_next]
  refine State.quiet_ite ?_ (.refl _)
  generalize s.hedge.keepFrame f s.time fr = h at *
  refine State.quiet_ite ?_ ?_ <;> simp [hm, ha, hs, hn]

@[simp] theorem State.quiet_keepSnap (l : Outline) (s : State) (x : Snapshot) (h : l.Quiet s.outline) : l.Quiet (s.keepSnap x).outline := by
  refine h.trans ?_
  simp only [State.keepSnap, State.outline_event]
  exact ⟨fun k => { k with snaps := by simp [State.outline]; omega }, rfl, rfl, rfl, rfl, id⟩

theorem quiet_execSidebandModeTry (s : State) : s.outline.Answers (execSidebandModeTry s) := by
  simp only [execSidebandModeTry, Outline.answers_next]
  refine State.quiet_ite ?_ (.refl _)
  exact ⟨fun k => { k with sideMode := Nat.sub_le 1 _ }, rfl, rfl, rfl, rfl, id⟩

theorem quiet_execSidebandLink (mode : Nat) (up : Bool) (s : State) : s.outline.Answers (execSidebandLink mode up s) := by
  simp only [execSidebandLink, Outline.answers_next]
  refine State.quiet_ite (.refl _) ?_
  rw [State.outline_event]
  refine ⟨fun k => { k with sideMode := ?_ }, rfl, rfl, rfl, rfl, id⟩
  show (if up then s.hedge.sideMode else 0) ≤ 1
  split
  · exact k.sideMode
  · exact Nat.zero_le 1

/-- A session is opened where fewer than 32 live. -/
theorem State.quiet_addSession (s : State) (next now : Nat) (x : Session) (body : List Nat)
    (few : ¬32 ≤ (s.hedge.sessions.filter (Session.lives · now)).length) :
    s.outline.Quiet (s.modHedge fun h =>
      { h with nextSession := next, sessions := h.sessions.filter (Session.lives · now) ++ [x], body := body }).outline := by
  refine ⟨fun k => { k with sessions := ?_ }, rfl, rfl, rfl, rfl, id⟩
  show (s.hedge.sessions.filter (Session.lives · now) ++ [x]).length ≤ 32
  rw [List.length_append, List.length_singleton]
  omega

theorem quiet_execSessionLogin (name password : Nat) (s : State) : s.outline.Answers (execSessionLogin name password s) := by
  simp only [execSessionLogin, Outline.answers_next]
  refine State.quiet_ite (.refl _) ?_
  split
  · simp
  · refine State.quiet_ite (by simp) (State.quiet_ite (State.quiet_ite (by simp) (by simp)) ?_)
    by_cases full : 32 ≤ (s.hedge.sessions.filter (Session.lives · s.hedgeNow)).length
    · rw [if_pos full]
      simp
    · rw [if_neg full]
      exact (Outline.Quiet.of_eq (by simp)).trans (State.quiet_addSession _ _ _ _ _ full)

theorem quiet_execSessionIdleExpiry (session : Nat) (s : State) : s.outline.Answers (execSessionIdleExpiry session s) := by
  simp only [execSessionIdleExpiry, Outline.answers_next]
  refine State.quiet_ite (.refl _) ?_
  exact ⟨fun k => { k with sessions := (List.length_filter_le _ _).trans k.sessions }, rfl, rfl, rfl, rfl, id⟩

/-- An account change leaves the side-band and the snapshots, and at most 16 accounts. -/
theorem Hedge.changed_limits (h g : Hedge) (ch : AccountChange) (p : Nat × Nat) (e : h.changed ch = .ok (g, p)) :
    g.sideMode = h.sideMode ∧ g.snaps = h.snaps ∧ (h.accounts.length ≤ 16 → g.accounts.length ≤ 16) ∧ g.sessions.length ≤ h.sessions.length := by
  cases ch with
  | create name role password =>
    simp only [Hedge.changed] at e
    split at e
    · cases e
    · split at e
      · cases e
      · next fits =>
        cases e
        refine ⟨rfl, rfl, fun _ => ?_, Nat.le_refl _⟩
        simp only [List.length_append, List.length_singleton]
        omega
  | modify name role password =>
    simp only [Hedge.changed] at e
    split at e
    · cases e
    · split at e
      · cases e
      · cases e
        exact ⟨rfl, rfl, fun k => by simpa using k, Nat.le_refl _⟩
  | remove name =>
    simp only [Hedge.changed] at e
    split at e
    · cases e
    · cases e
      exact ⟨rfl, rfl, (List.length_filter_le _ _).trans, List.length_filter_le _ _⟩

theorem quiet_execAccountChange (session : Nat) (ch : AccountChange) (s : State) : s.outline.Answers (execAccountChange session ch s) := by
  refine s.quiet_serve _ _ _ fun a u => ?_
  split
  · simp
  · next e =>
    obtain ⟨hm, hn, ha, hs⟩ := Hedge.changed_limits _ _ _ _ e
    rw [State.outline_event]
    refine ⟨fun k => ?_, rfl, rfl, rfl, rfl, id⟩
    exact { k with
      sideMode := hm.trans_le k.sideMode
      snaps := (congrArg List.length hn).trans_le k.snaps
      accounts := ha k.accounts
      sessions := hs.trans k.sessions }

theorem quiet_execFieldSnapshot (session f : Nat) (s : State) : s.outline.Answers (execFieldSnapshot session f s) :=
  s.quiet_serve _ _ _ fun a u => by simp

theorem quiet_execManagerReset (session : Nat) (s : State) : s.outline.Answers (execManagerReset session s) :=
  s.quiet_serve _ _ _ fun a u => by simp

theorem quiet_execUpdateApply (session kind : Nat) (s : State) : s.outline.Answers (execUpdateApply session kind s) := by
  refine s.quiet_serve _ _ _ fun a u => ?_
  refine State.quiet_ite (by simp) (State.quiet_ite (by simp) (State.quiet_ite (by simp) ?_))
  dsimp only
  split
  · next e => exact .of_eq (State.outline_ring _ _ _ _ _ e)
  · simp

/-! ## The power board -/

@[simp] theorem State.quiet_shutdown (l : Outline) (s : State) (h : l.Quiet s.outline) : l.Quiet s.shutdown.outline := by
  simp only [State.shutdown, State.outline_flush, State.outline_update]
  refine State.quiet_boardOff _ _ _ (State.quiet_foldl _ _ _ _ (fun u f => ?_) (by simp [h]))
  refine State.quiet_ite ?_ (.refl _)
  split <;> simp

@[simp] theorem State.quiet_powerWithdrawn (l : Outline) (s : State) (resp : Nat) (h : l.Quiet s.outline) :
    l.Quiet (s.powerWithdrawn resp).outline := by
  simp [State.powerWithdrawn, h]

theorem quiet_execPwrEnFall (s : State) : s.outline.Answers (execPwrEnFall s) := by
  simp [execPwrEnFall]

theorem quiet_execStbyGoodFall (s : State) : s.outline.Answers (execStbyGoodFall s) := by
  simp [execStbyGoodFall]

theorem quiet_execModResetFall (s : State) : s.outline.Answers (execModResetFall s) := by
  simp only [execModResetFall, Outline.answers_next]
  refine State.quiet_ite (.refl _) (State.quiet_ite ?_ (State.quiet_ite ?_ (State.quiet_ite ?_ ?_))) <;> simp

@[simp] theorem State.quiet_boardPause (l : Outline) (s : State) (h : l.Quiet s.outline) : l.Quiet s.boardPause.outline := by
  simp [State.boardPause, h]

theorem quiet_execConductorSilenceAction (s : State) : s.outline.Answers (execConductorSilenceAction s) := by
  simp only [execConductorSilenceAction, Outline.answers_next]
  split
  · refine State.quiet_ite (.refl _) (State.quiet_ite (State.quiet_ite (by simp) (by simp)) ?_)
    by_cases few : s.chassis.restarts < 3
    · rw [if_pos few]
      refine State.quiet_boardPause _ _ ?_
      exact ⟨fun k => { k with restarts := few }, rfl, rfl, rfl, rfl, id⟩
    · rw [if_neg few]
      simp
  · exact .refl _

theorem quiet_execChassisPowerCycle (session : Nat) (s : State) : s.outline.Answers (execChassisPowerCycle session s) :=
  s.quiet_serve _ _ _ fun a u => by simp

theorem quiet_execChassisForceOff (session : Nat) (s : State) : s.outline.Answers (execChassisForceOff session s) :=
  s.quiet_serve _ _ _ fun a u => by simp
end Sys2Proof.Machine
end

section
/-! SUPPORT. Commands that may begin a cold reset. -/

namespace Sys2Proof.Machine

/-! ## Cold resets -/

/-- A cold reset is under way in u from outline l: Hedgerow runs, the images are verified, and only what R24, R29 and R464 give to a cold reset
changed. -/
structure ColdFrom (l : Outline) (u : State) : Prop where
  ok : l.Ok → u.outline.Ok
  pending : u.pending = l.pending
  waferId : u.waferId = l.waferId
  osc : u.osc = l.osc
  time : u.time = 0
  board : u.chassis.board = true
  kind : u.boot.kind = 1
  up : u.hedge.up = true
  regionsOk : u.regionsOk = true

/-- What a cold reset rests on stays where Hedgerow and the flash do. -/
theorem ColdFrom.then {l : Outline} {s u : State} (h : ColdFrom l s) (q : s.outline.Quiet u.outline) (hb : u.chassis.board = s.chassis.board)
    (hk : u.boot.kind = s.boot.kind) (hh : u.hedge = s.hedge) (hf : u.flash = s.flash) : ColdFrom l u where
  ok k := q.ok (h.ok k)
  pending := q.pending.trans h.pending
  waferId := q.waferId.trans h.waferId
  osc := q.osc.trans h.osc
  time := q.time.trans h.time
  board := hb.trans h.board
  kind := hk.trans h.kind
  up := hh ▸ h.up
  regionsOk := by simpa [State.regionsOk, hf] using h.regionsOk

theorem ColdFrom.event {l : Outline} {s : State} (h : ColdFrom l s) (src c : Nat) (d : List Nat) : ColdFrom l (s.event src c d) :=
  h.then (.of_eq (s.outline_event src c d)) (congrArg Outline.board (s.outline_event src c d)) (congrArg Boot.kind (s.event_boot src c d)) (s.event_hedge src c d) (s.event_flash src c d)

theorem ColdFrom.portWake {l : Outline} {s : State} (h : ColdFrom l s) (p : Nat) : ColdFrom l (s.portWake p) := by
  refine h.then (State.quiet_portWake _ s p (.refl _)) ?_ ?_ ?_ ?_ <;>
  · simp only [State.portWake]
    split <;> rfl

theorem ColdFrom.portWakes {l : Outline} {s : State} (h : ColdFrom l s) (ps : List Nat) : ColdFrom l (ps.foldl State.portWake s) := by
  induction ps generalizing s with
  | nil => exact h
  | cons p ps ih => exact ih (h.portWake p)

theorem ColdFrom.bootTo {l : Outline} {s : State} (h : ColdFrom l s) (step : Nat) :
    ColdFrom l (s.bootTo step) ∧ (s.bootTo step).boot.step = step := by
  unfold State.bootTo
  split
  · next e => exact ⟨h, e⟩
  · refine ⟨ColdFrom.event ?_ _ _ _, congrArg Boot.step (State.event_boot ..)⟩
    exact h.then (.of_eq (by simp)) rfl rfl rfl rfl

/-- A command that began a cold reset, now in step 3 of start-up on a board with power. -/
structure Fresh (l : Outline) (u : State) : Prop extends ColdFrom l u where
  step : u.boot.step = 3

theorem Fresh.of_bootTo {l : Outline} {u : State} (h : ColdFrom l u ∧ u.boot.step = 3) : Fresh l u := ⟨h.1, h.2⟩

theorem Fresh.after {a b : Outline} {u : State} (q : a.Quiet b) (h : Fresh b u) : Fresh a u where
  ok k := h.ok (q.ok k)
  pending := h.pending.trans q.pending
  waferId := h.waferId.trans q.waferId
  osc := h.osc.trans q.osc
  time := h.time
  board := h.board
  kind := h.kind
  up := h.up
  regionsOk := h.regionsOk
  step := h.step

/-- Ports at a cold reset keep their partner alone. -/
theorem Tab.state_coldPorts (t : Tab Port) (p : Nat) : ((t.mapVals fun _ p => ({ partner := p.partner } : Port)).getD p {}).state = 0 := by
  simp only [Tab.getD, Tab.find_mapVals]
  cases t.find p <;> rfl

theorem State.fresh_coldReset (s : State) (up : s.hedge.up = true) (ok : s.regionsOk = true) : Fresh s.outline s.coldReset := by
  unfold State.coldReset
  dsimp only
  refine .of_bootTo (ColdFrom.bootTo (ColdFrom.portWakes (ColdFrom.event ?_ _ _ _) _) 3)
  exact {
    ok := fun k => { k with time := Nat.two_pow_pos 64, activeKf := Nat.zero_le 1, portState := fun p => (Tab.state_coldPorts s.ports p).trans_le (Nat.zero_le 6) }
    pending := rfl, waferId := rfl, osc := rfl, time := rfl, board := rfl, kind := rfl, up := up, regionsOk := ok }

/-- What a command answers follows quietly, or is a cold reset. -/
def Outline.Starts (l : Outline) (o : Out) : Prop :=
  match o with
  | .next u => l.Quiet u.outline ∨ Fresh l u
  | .fault _ | .refused _ => False

theorem Outline.Answers.starts {l : Outline} {o : Out} (h : l.Answers o) : l.Starts o := by
  cases o with
  | next u => exact .inl h
  | fault f => cases h
  | refused r => cases h

/-- A start of the board changes nothing, or is a cold reset. -/
theorem State.starts_tryStart (l : Outline) (s : State) (h : l.Quiet s.outline) : l.Starts (.next s.tryStart) := by
  unfold State.tryStart
  dsimp only
  split
  · next on =>
    simp only [Bool.and_eq_true] at on
    obtain ⟨⟨⟨⟨⟨⟨⟨⟨⟨⟨up, -⟩, -⟩, -⟩, -⟩, -⟩, -⟩, -⟩, -⟩, -⟩, ok⟩ := on
    exact .inr (.after h (s.fresh_coldReset up ok))
  · exact .inl h

theorem Outline.starts_ite {l : Outline} {c : Prop} [Decidable c] {a b : State} (ha : l.Starts (.next a)) (hb : l.Starts (.next b)) :
    l.Starts (.next (if c then a else b)) := by split <;> assumption

theorem Outline.starts_same (s : State) : s.outline.Starts (.next s) := .inl (.refl _)

theorem starts_execPowerEnable (s : State) : s.outline.Starts (execPowerEnable s) := by
  refine State.starts_tryStart _ _ ⟨fun k => { k with restarts := ?_ }, rfl, rfl, rfl, rfl, id⟩
  show (if _ then 0 else s.chassis.restarts) ≤ 3
  split
  · exact Nat.zero_le 3
  · exact k.restarts

theorem starts_execShutdownConductorTimeout (s : State) : s.outline.Starts (execShutdownConductorTimeout s) := by
  unfold execShutdownConductorTimeout
  split
  · refine Outline.starts_ite (State.starts_tryStart _ _ ?_) (Outline.starts_same s)
    simp
  · exact Outline.starts_same s

theorem starts_execModResetRelease (s : State) : s.outline.Starts (execModResetRelease s) :=
  Outline.starts_ite (State.starts_tryStart _ _ (.of_eq (by simp))) (Outline.starts_same s)

theorem starts_execColdRestartTimer (s : State) : s.outline.Starts (execColdRestartTimer s) := by
  unfold execColdRestartTimer
  split
  · exact Outline.starts_ite (State.starts_tryStart _ _ (.of_eq (by simp))) (Outline.starts_same s)
  · exact Outline.starts_same s

theorem starts_execBusRestart (s : State) : s.outline.Starts (execBusRestart s) := by
  unfold execBusRestart
  split
  · exact Outline.starts_ite (State.starts_tryStart _ _ (.of_eq (by simp))) (Outline.starts_same s)
  · exact Outline.starts_same s

theorem starts_execWarmReset (c : WarmCause) (cold : Nat) (s : State) : s.outline.Starts (execWarmReset c cold s) := by
  unfold execWarmReset
  refine Outline.starts_ite (Outline.starts_same s) (Outline.starts_ite (.inl ?_) (State.starts_tryStart _ _ ?_)) <;> simp

/-- A request at the management server is answered, or its action starts the board or changes nothing of the outline. -/
theorem State.starts_serve (s : State) (session need : Nat) (g : Account → State → State) (hg : ∀ a (u : State), u.outline.Starts (.next (g a u))) :
    s.outline.Starts (s.serve session need g) := by
  obtain ⟨u, e, same | ⟨a, t, ht, rfl⟩⟩ := s.serve_outline session need g
  · exact e ▸ .inl (.of_eq same)
  · rw [e, ← ht]
    exact hg a t

theorem starts_execChassisOn (session : Nat) (s : State) : s.outline.Starts (execChassisOn session s) :=
  s.starts_serve _ _ _ fun _ u => Outline.starts_ite (State.starts_tryStart _ _ (.of_eq (by simp))) (.inl (.of_eq (by simp)))

theorem State.starts_repaired (l : Outline) (s : State) (kind source : Nat) (h : l.Quiet s.outline) : l.Starts (.next (s.repaired kind source)) :=
  State.starts_tryStart _ _ (by simpa using h)

theorem starts_execRegionRepair (session kind : Nat) (src : RepairSource) (s : State) : s.outline.Starts (execRegionRepair session kind src s) := by
  simp only [execRegionRepair]
  split
  · exact Outline.starts_same s
  · cases src with
    | staged => exact Outline.starts_ite (State.starts_repaired _ _ _ _ (.refl _)) (Outline.starts_same s)
    | url img =>
      refine Outline.starts_ite (Outline.starts_same s) (Outline.starts_ite (State.starts_repaired _ _ _ _ ?_) (.inl ?_)) <;> simp
    | push img =>
      refine s.starts_serve _ _ _ fun _ u => Outline.starts_ite (.inl ?_) (Outline.starts_ite (State.starts_repaired _ _ _ _ ?_) (.inl ?_)) <;> simp

theorem starts_execRecoveryLoader (img : Option ImagePush) (s : State) : s.outline.Starts (execRecoveryLoader img s) := by
  simp only [execRecoveryLoader]
  refine Outline.starts_ite (Outline.starts_same s) ?_
  cases img with
  | none => exact .inl (.of_eq (by simp))
  | some i => exact Outline.starts_ite (State.starts_tryStart _ _ (by simp)) (.inl (.of_eq (by simp)))

/-! ## The commands that change what only they change -/

/-- The outline a command works from: that of the state, or with what R4, R29, R295 and R451 let this command alone change. -/
inductive Outline.Before (a : Outline) : Instr → Outline → Prop
  | same (c : Instr) : Outline.Before a c a
  | setWaferId (k w : Nat) (hw : w < 2 ^ 16) : Outline.Before a (.sysSetWaferId k) { a with waferId := w }
  | defaults (x : Nat) : Outline.Before a (.resetToDefaults x) { a with waferId := 0xFFFF }
  | switch (d : List Int) (t : Nat) (ht : t < 2 ^ 64) : Outline.Before a (.referenceSwitch d) { a with osc := 1, time := t }
  | lost : Outline.Before a .referenceLost { a with osc := 2 }
  | inputPower (mv : Nat) (bad : List Nat) : Outline.Before a (.inputPowerApplied mv bad) { a with time := 0 }

/-- What a command answers: it follows quietly from the outline the command works from, or is a cold reset. -/
def Outline.Follows (l : Outline) (c : Instr) (o : Out) : Prop :=
  match o with
  | .next u => (∃ m, l.Before c m ∧ m.Quiet u.outline) ∨ Fresh l u
  | .fault _ | .refused _ => False

theorem Outline.Starts.follows {l : Outline} {o : Out} (h : l.Starts o) (c : Instr) : l.Follows c o := by
  cases o with
  | next u => exact h.imp_left fun q => ⟨l, .same c, q⟩
  | fault f => cases h
  | refused r => cases h

theorem Outline.Answers.follows {l : Outline} {o : Out} (h : l.Answers o) (c : Instr) : l.Follows c o := h.starts.follows c

theorem Outline.Follows.of_outlineOf {l : Outline} {o : Out} (h : outlineOf o = some l) (c : Instr) :
    l.Follows c o := (Answers.of_outlineOf h).follows c

theorem Outline.follows_same (s : State) (c : Instr) : s.outline.Follows c (.next s) := (Outline.starts_same s).follows c

end Sys2Proof.Machine
end

section
/-! SUPPORT. The named commands: wafer identifier, reference and input power. -/

namespace Sys2Proof.Machine

theorem State.outline_settle_done (s : State) (c : Nat) (k : Taken) (w : List Word) (u : State) : (s.settle c k (.done w u)).outline = u.outline := by
  simp [State.settle]

theorem follows_execSysSetWaferId (c : Nat) (s : State) : s.outline.Follows (.sysSetWaferId c) (execSysSetWaferId c s) := by
  unfold execSysSetWaferId State.command
  split
  · split
    · next k _ _ =>
      by_cases big : 65535 < msgWord k.words 2
      · rw [cmdSysSetWaferId, if_pos big]
        exact .inl ⟨_, .same _, State.quiet_settle _ _ _ _ trivial⟩
      · rw [cmdSysSetWaferId, if_neg big]
        refine .inl ⟨_, .setWaferId c (msgWord k.words 2) (by omega), .of_eq ?_⟩
        rw [State.outline_settle_done, State.outline_foldl _ _ _ State.outline_sayBlock]
        rfl
    · exact Outline.follows_same s _
  · exact Outline.follows_same s _

/-- Ports keep their state when their partners are forgotten. -/
theorem Tab.state_forgetPartners (t : Tab Port) (p : Nat) :
    ((t.mapVals fun _ p => { p with partner := none }).getD p {}).state = (t.getD p {}).state := by
  simp only [Tab.getD, Tab.find_mapVals]
  cases t.find p <;> rfl

theorem follows_execResetToDefaults (session : Nat) (s : State) : s.outline.Follows (.resetToDefaults session) (execResetToDefaults session s) := by
  unfold execResetToDefaults
  generalize hg : (fun _ _ => _ : Account → State → State) = g
  obtain ⟨u, e, same | ⟨a, t, ht, rfl⟩⟩ := s.serve_outline session roleAdmin g
  · exact e ▸ .inl ⟨_, .same _, .of_eq same⟩
  · subst hg
    rw [e, ← ht]
    refine .inl ⟨_, .defaults session, ?_⟩
    rw [State.outline_event]
    exact ⟨fun k => { k with
        accounts := Nat.le_of_ble_eq_true rfl
        sessions := Nat.zero_le 32
        snaps := Nat.zero_le 8
        portState := fun p => (Tab.state_forgetPartners t.ports p).trans_le (k.portState p) }, rfl, rfl, rfl, rfl, id⟩

theorem follows_execReferenceSwitch (d : List Int) (s : State) : s.outline.Follows (.referenceSwitch d) (execReferenceSwitch d s) := by
  simp only [execReferenceSwitch]
  split
  · refine .inl ⟨_, .switch d _ (Nat.mod_lt ((Int.ofNat s.time + d.getD 0 0).toNat) (Nat.two_pow_pos 64)), .of_eq ?_⟩
    rw [State.outline_event, State.outline_foldl _ _ _ fun u f => u.outline_modField f _]
    rfl
  · exact Outline.follows_same s _

theorem follows_execReferenceLost (s : State) : s.outline.Follows .referenceLost (execReferenceLost s) := by
  simp only [execReferenceLost]
  split
  · refine .inl ⟨_, .lost, State.quiet_allOff _ _ _ (.of_eq ?_)⟩
    rw [State.outline_event, State.outline_foldl _ _ _ fun u f => u.outline_modField f _]
    rfl
  · exact Outline.follows_same s _

theorem follows_execInputPowerApplied (mv : Nat) (bad : List Nat) (s : State) :
    s.outline.Follows (.inputPowerApplied mv bad) (execInputPowerApplied mv bad s) := by
  simp only [execInputPowerApplied]
  split
  · exact .inl ⟨_, .inputPower mv bad, State.quiet_hedgeStart _ _ _ _ (.of_eq rfl)⟩
  · exact Outline.follows_same s _

end Sys2Proof.Machine
end

section
/-! SUPPORT. What every command may change of the outline. -/

namespace Sys2Proof.Machine

/-- What each command may change of the outline. -/
theorem exec_follows (c : Instr) (s : State) : s.outline.Follows c (exec c s) := by
  cases c with
  | inputPowerApplied => exact follows_execInputPowerApplied ..
  | powerEnable => exact (starts_execPowerEnable ..).follows _
  | pwrEnFall => exact (quiet_execPwrEnFall ..).follows _
  | shutdownConductorTimeout => exact (starts_execShutdownConductorTimeout ..).follows _
  | stbyGoodFall => exact (quiet_execStbyGoodFall ..).follows _
  | modResetFall => exact (quiet_execModResetFall ..).follows _
  | modResetRelease => exact (starts_execModResetRelease ..).follows _
  | identInput => exact .of_outlineOf (outline_execIdentInput ..) _
  | conductorSilenceCheck => exact .of_outlineOf (outline_execConductorSilenceCheck ..) _
  | conductorSilenceAction => exact (quiet_execConductorSilenceAction ..).follows _
  | coldRestartTimer => exact (starts_execColdRestartTimer ..).follows _
  | rvInstruction => exact .of_outlineOf (outline_execRvInstruction ..) _
  | coreLoad => exact .of_outlineOf (outline_execCoreLoad ..) _
  | coreStore => exact .of_outlineOf (outline_execCoreStore ..) _
  | csrAccess => exact .of_outlineOf (outline_execCsrAccess ..) _
  | ecall => exact .of_outlineOf (outline_execEcall ..) _
  | ebreak => exact .of_outlineOf (outline_execEbreak ..) _
  | stallConditionMet => exact .of_outlineOf (outline_execStallConditionMet ..) _
  | stallWatchdogExpiry => exact .of_outlineOf (outline_execStallWatchdogExpiry ..) _
  | qopen => exact .of_outlineOf (outline_execQopen ..) _
  | qclose => exact .of_outlineOf (outline_execQclose ..) _
  | qsend => exact .of_outlineOf (outline_execQsend ..) _
  | qtrysend => exact .of_outlineOf (outline_execQtrysend ..) _
  | qrecv => exact .of_outlineOf (outline_execQrecv ..) _
  | qtryrecv => exact .of_outlineOf (outline_execQtryrecv ..) _
  | qselect => exact .of_outlineOf (outline_execQselect ..) _
  | qstat => exact .of_outlineOf (outline_execQstat ..) _
  | swait => exact .of_outlineOf (outline_execSwait ..) _
  | ssignal => exact .of_outlineOf (outline_execSsignal ..) _
  | sfence => exact .of_outlineOf (outline_execSfence ..) _
  | sread => exact .of_outlineOf (outline_execSread ..) _
  | fpush => exact .of_outlineOf (outline_execFpush ..) _
  | fsteal => exact .of_outlineOf (outline_execFsteal ..) _
  | fwait => exact .of_outlineOf (outline_execFwait ..) _
  | hset => exact .of_outlineOf (outline_execHset ..) _
  | hclr => exact .of_outlineOf (outline_execHclr ..) _
  | ldt => exact .of_outlineOf (outline_execLdt ..) _
  | stt => exact .of_outlineOf (outline_execStt ..) _
  | tfill => exact .of_outlineOf (outline_execTfill ..) _
  | dload => exact .of_outlineOf (outline_execDload ..) _
  | dswitch => exact .of_outlineOf (outline_execDswitch ..) _
  | dpurge => exact .of_outlineOf (outline_execDpurge ..) _
  | dsample => exact .of_outlineOf (outline_execDsample ..) _
  | wopen => exact .of_outlineOf (outline_execWopen ..) _
  | wclose => exact .of_outlineOf (outline_execWclose ..) _
  | xput => exact .of_outlineOf (outline_execXput ..) _
  | xget => exact .of_outlineOf (outline_execXget ..) _
  | unitStart => exact .of_outlineOf (outline_execUnitStart ..) _
  | unitRetire => exact .of_outlineOf (outline_execUnitRetire ..) _
  | intraTileSteal => exact .of_outlineOf (outline_execIntraTileSteal ..) _
  | stealSearch => exact .of_outlineOf (outline_execStealSearch ..) _
  | stealBackoffExpiry => exact .of_outlineOf (outline_execStealBackoffExpiry ..) _
  | stealReturnTimeout => exact .of_outlineOf (outline_execStealReturnTimeout ..) _
  | stealFailureNotice => exact .of_outlineOf (outline_execStealFailureNotice ..) _
  | engineSleep => exact .of_outlineOf (outline_execEngineSleep ..) _
  | ctrlWrite => exact (quiet_execCtrlWrite ..).follows _
  | ctrlRead => exact .of_outlineOf (outline_execCtrlRead ..) _
  | ctrlOrderAdmit => exact .of_outlineOf (outline_execCtrlOrderAdmit ..) _
  | ctrlOrderSwitch => exact .of_outlineOf (outline_execCtrlOrderSwitch ..) _
  | ctrlOrderDload => exact .of_outlineOf (outline_execCtrlOrderDload ..) _
  | ctrlOrderSample => exact .of_outlineOf (outline_execCtrlOrderSample ..) _
  | ctrlReply => exact .of_outlineOf (outline_execCtrlReply ..) _
  | tileResetOrder => exact .of_outlineOf (outline_execTileResetOrder ..) _
  | rawWrite => exact .of_outlineOf (outline_execRawWrite ..) _
  | rawRead => exact .of_outlineOf (outline_execRawRead ..) _
  | openArrives => exact .of_outlineOf (outline_execOpenArrives ..) _
  | probe => exact .of_outlineOf (outline_execProbe ..) _
  | senderClose => exact .of_outlineOf (outline_execSenderClose ..) _
  | readerNotice => exact .of_outlineOf (outline_execReaderNotice ..) _
  | closeAfterLoss => exact .of_outlineOf (outline_execCloseAfterLoss ..) _
  | recordTimeout => exact .of_outlineOf (outline_execRecordTimeout ..) _
  | steal => exact .of_outlineOf (outline_execSteal ..) _
  | operandRead => exact .of_outlineOf (outline_execOperandRead ..) _
  | syncWait => exact .of_outlineOf (outline_execSyncWait ..) _
  | syncSignal => exact .of_outlineOf (outline_execSyncSignal ..) _
  | syncPostedSignal => exact .of_outlineOf (outline_execSyncPostedSignal ..) _
  | syncRead => exact .of_outlineOf (outline_execSyncRead ..) _
  | syncCancel => exact .of_outlineOf (outline_execSyncCancel ..) _
  | syncWaitResend => exact .of_outlineOf (outline_execSyncWaitResend ..) _
  | staleReleaseRefused => exact .of_outlineOf (outline_execStaleReleaseRefused ..) _
  | remoteRead => exact .of_outlineOf (outline_execRemoteRead ..) _
  | remoteWrite => exact .of_outlineOf (outline_execRemoteWrite ..) _
  | windowHeldServe => exact .of_outlineOf (outline_execWindowHeldServe ..) _
  | windowHoldTimeout => exact .of_outlineOf (outline_execWindowHoldTimeout ..) _
  | windowDeadline => exact .of_outlineOf (outline_execWindowDeadline ..) _
  | reply => exact .of_outlineOf (outline_execReply ..) _
  | status => exact .of_outlineOf (outline_execStatus ..) _
  | grant => exact .of_outlineOf (outline_execGrant ..) _
  | connectionCredit => exact .of_outlineOf (outline_execConnectionCredit ..) _
  | tokenCredit => exact .of_outlineOf (outline_execTokenCredit ..) _
  | stealReply => exact .of_outlineOf (outline_execStealReply ..) _
  | message => exact .of_outlineOf (outline_execMessage ..) _
  | combine => exact .of_outlineOf (outline_execCombine ..) _
  | combineFoldDone => exact .of_outlineOf (outline_execCombineFoldDone ..) _
  | token => exact .of_outlineOf (outline_execToken ..) _
  | result => exact .of_outlineOf (outline_execResult ..) _
  | multicast => exact .of_outlineOf (outline_execMulticast ..) _
  | routePacket => exact .of_outlineOf (outline_execRoutePacket ..) _
  | tokenRetryResend => exact .of_outlineOf (outline_execTokenRetryResend ..) _
  | firingIssue => exact .of_outlineOf (outline_execFiringIssue ..) _
  | tokenEmit => exact .of_outlineOf (outline_execTokenEmit ..) _
  | firingComplete => exact .of_outlineOf (outline_execFiringComplete ..) _
  | sourceFire => exact .of_outlineOf (outline_execSourceFire ..) _
  | tokenOrphan => exact .of_outlineOf (outline_execTokenOrphan ..) _
  | foldScheduleMove => exact .of_outlineOf (outline_execFoldScheduleMove ..) _
  | foldSwitchAtT => exact .of_outlineOf (outline_execFoldSwitchAtT ..) _
  | profileSample => exact .of_outlineOf (outline_execProfileSample ..) _
  | slotArm => exact .of_outlineOf (outline_execSlotArm ..) _
  | syncCellWrite => exact .of_outlineOf (outline_execSyncCellWrite ..) _
  | syncDebugCore => exact .of_outlineOf (outline_execSyncDebugCore ..) _
  | syncDebugAll => exact .of_outlineOf (outline_execSyncDebugAll ..) _
  | syncRecWrite => exact .of_outlineOf (outline_execSyncRecWrite ..) _
  | hedgerowSyncDebug => exact .of_outlineOf (outline_execHedgerowSyncDebug ..) _
  | rqEnable => exact .of_outlineOf (outline_execRqEnable ..) _
  | rqDisable => exact .of_outlineOf (outline_execRqDisable ..) _
  | connProbe => exact .of_outlineOf (outline_execConnProbe ..) _
  | rowRefresh => exact .of_outlineOf (outline_execRowRefresh ..) _
  | patrolScrub => exact .of_outlineOf (outline_execPatrolScrub ..) _
  | refreshDerate => exact .of_outlineOf (outline_execRefreshDerate ..) _
  | refreshRestore => exact .of_outlineOf (outline_execRefreshRestore ..) _
  | mapPublish => exact .of_outlineOf (outline_execMapPublish ..) _
  | mapInjectionPause => exact .of_outlineOf (outline_execMapInjectionPause ..) _
  | mapSwitch => exact .of_outlineOf (outline_execMapSwitch ..) _
  | fenceSettleLocal => exact .of_outlineOf (outline_execFenceSettleLocal ..) _
  | fenceSettleRemote => exact .of_outlineOf (outline_execFenceSettleRemote ..) _
  | distTablePublish => exact .of_outlineOf (outline_execDistTablePublish ..) _
  | cellLostSweep => exact .of_outlineOf (outline_execCellLostSweep ..) _
  | dockIngress => exact .of_outlineOf (outline_execDockIngress ..) _
  | dockEgress => exact .of_outlineOf (outline_execDockEgress ..) _
  | pendingExpiry => exact .of_outlineOf (outline_execPendingExpiry ..) _
  | remoteRetryResend => exact .of_outlineOf (outline_execRemoteRetryResend ..) _
  | dataFrame => exact .of_outlineOf (outline_execDataFrame ..) _
  | linkAck => exact .of_outlineOf (outline_execLinkAck ..) _
  | linkNak => exact (quiet_execLinkNak ..).follows _
  | linkLaneOff => exact (quiet_execLinkLaneOff ..).follows _
  | linkLaneOn => exact .of_outlineOf (outline_execLinkLaneOn ..) _
  | linkClose => exact (quiet_execLinkClose ..).follows _
  | linkCredits => exact .of_outlineOf (outline_execLinkCredits ..) _
  | linkIdleAck => exact .of_outlineOf (outline_execLinkIdleAck ..) _
  | frameCrcError => exact .of_outlineOf (outline_execFrameCrcError ..) _
  | laneFailure => exact (quiet_execLaneFailure ..).follows _
  | laneRetrainDone => exact .of_outlineOf (outline_execLaneRetrainDone ..) _
  | egressHoldExpiry => exact .of_outlineOf (outline_execEgressHoldExpiry ..) _
  | portLightDetected => exact (quiet_execPortLightDetected ..).follows _
  | trainingDone => exact (quiet_execTrainingDone ..).follows _
  | trainingFailed => exact (quiet_execTrainingFailed ..).follows _
  | trainingBackoffExpiry => exact (quiet_execTrainingBackoffExpiry ..).follows _
  | hello => exact .of_outlineOf (outline_execHello ..) _
  | cap => exact (quiet_execCap ..).follows _
  | cert => exact (quiet_execCert ..).follows _
  | mode => exact (quiet_execMode ..).follows _
  | modeSwitch => exact (quiet_execModeSwitch ..).follows _
  | negotiationTimeout => exact (quiet_execNegotiationTimeout ..).follows _
  | refusedTimeout => exact (quiet_execRefusedTimeout ..).follows _
  | portSignalLoss => exact (quiet_execPortSignalLoss ..).follows _
  | retrainDone => exact (quiet_execRetrainDone ..).follows _
  | retrainTimeout => exact (quiet_execRetrainTimeout ..).follows _
  | glowLightLoss => exact (quiet_execGlowLightLoss ..).follows _
  | glowLatchOpen => exact (quiet_execGlowLatchOpen ..).follows _
  | glowLatchClose => exact (quiet_execGlowLatchClose ..).follows _
  | glowLit => exact (quiet_execGlowLit ..).follows _
  | powerNoteSend => exact .of_outlineOf (outline_execPowerNoteSend ..) _
  | powerNote => exact .of_outlineOf (outline_execPowerNote ..) _
  | powerNoteExpiry => exact .of_outlineOf (outline_execPowerNoteExpiry ..) _
  | brokerConnectRequest p m => exact .of_outlineOf (outline_execBrokerConnectRequest p m s) _
  | brokerConnectReply p m => exact .of_outlineOf (outline_execBrokerConnectReply p m s) _
  | brokerCloseMessage => exact .of_outlineOf (outline_execBrokerCloseMessage ..) _
  | brokerLookupRequest p m => exact .of_outlineOf (outline_execBrokerLookupRequest p m s) _
  | brokerLookupReply p m => exact .of_outlineOf (outline_execBrokerLookupReply p m s) _
  | referenceSwitch => exact follows_execReferenceSwitch ..
  | referenceLost => exact follows_execReferenceLost ..
  | waferTimeBroadcast => exact .of_outlineOf (outline_execWaferTimeBroadcast ..) _
  | railDroop => exact .of_outlineOf (outline_execRailDroop ..) _
  | marginStop => exact .of_outlineOf (outline_execMarginStop ..) _
  | marginRestart => exact .of_outlineOf (outline_execMarginRestart ..) _
  | crossingCalibrate => exact .of_outlineOf (outline_execCrossingCalibrate ..) _
  | calibrationDone => exact .of_outlineOf (outline_execCalibrationDone ..) _
  | heartbeatLoss => exact .of_outlineOf (outline_execHeartbeatLoss ..) _
  | fieldWake => exact (quiet_execFieldWake ..).follows _
  | fieldClockStop => exact (quiet_execFieldClockStop ..).follows _
  | retentionReached => exact (quiet_execRetentionReached ..).follows _
  | clkOrderOpStep => exact .of_outlineOf (outline_execClkOrderOpStep ..) _
  | clkOrderEnterMonitor => exact .of_outlineOf (outline_execClkOrderEnterMonitor ..) _
  | clkOrderLeaveMonitor => exact .of_outlineOf (outline_execClkOrderLeaveMonitor ..) _
  | opStep => exact .of_outlineOf (outline_execOpStep ..) _
  | relockDone => exact .of_outlineOf (outline_execRelockDone ..) _
  | monitorModeSwitch => exact .of_outlineOf (outline_execMonitorModeSwitch ..) _
  | monitorSteerEpoch => exact .of_outlineOf (outline_execMonitorSteerEpoch ..) _
  | marginLowWrite => exact .of_outlineOf (outline_execMarginLowWrite ..) _
  | wtLoRead => exact .of_outlineOf (outline_execWtLoRead ..) _
  | epochEnd => exact .of_outlineOf (outline_execEpochEnd ..) _
  | powerMasterDecision => exact .of_outlineOf (outline_execPowerMasterDecision ..) _
  | masterTakeover => exact .of_outlineOf (outline_execMasterTakeover ..) _
  | pwrStepCap => exact .of_outlineOf (outline_execPwrStepCap ..) _
  | pwrStepThermal => exact .of_outlineOf (outline_execPwrStepThermal ..) _
  | pwrStepForced => exact .of_outlineOf (outline_execPwrStepForced ..) _
  | hedgerowPowerSample => exact .of_outlineOf (outline_execHedgerowPowerSample ..) _
  | estScaleCalibrate => exact .of_outlineOf (outline_execEstScaleCalibrate ..) _
  | inputVoltageSample => exact .of_outlineOf (outline_execInputVoltageSample ..) _
  | busStop => exact (quiet_execBusStop ..).follows _
  | busRestart => exact (starts_execBusRestart ..).follows _
  | currentLimit => exact .of_outlineOf (outline_execCurrentLimit ..) _
  | thatchEngage => exact .of_outlineOf (outline_execThatchEngage ..) _
  | thatchRampDownStep => exact .of_outlineOf (outline_execThatchRampDownStep ..) _
  | thatchRampUpStep => exact .of_outlineOf (outline_execThatchRampUpStep ..) _
  | thermalSample => exact (quiet_execThermalSample ..).follows _
  | autoReturn => exact .of_outlineOf (outline_execAutoReturn ..) _
  | coolantSample => exact (quiet_execCoolantSample ..).follows _
  | overcurrentLatch => exact (quiet_execOvercurrentLatch ..).follows _
  | insulationCheckDone => exact .of_outlineOf (outline_execInsulationCheckDone ..) _
  | trimRaise => exact .of_outlineOf (outline_execTrimRaise ..) _
  | fieldThermClear => exact .of_outlineOf (outline_execFieldThermClear ..) _
  | fieldPowerWave => exact (quiet_execFieldPowerWave ..).follows _
  | fieldWaveTimeout => exact (quiet_execFieldWaveTimeout ..).follows _
  | knownAnswerDone => exact .of_outlineOf (outline_execKnownAnswerDone ..) _
  | knownAnswerTimeout => exact .of_outlineOf (outline_execKnownAnswerTimeout ..) _
  | marchDone => exact .of_outlineOf (outline_execMarchDone ..) _
  | soakDone => exact .of_outlineOf (outline_execSoakDone ..) _
  | profilingPauseEnd => exact .of_outlineOf (outline_execProfilingPauseEnd ..) _
  | bringupAdmission => exact (quiet_execBringupAdmission ..).follows _
  | warmReset c cold => exact (starts_execWarmReset c cold s).follows _
  | warmResetInjectionStop => exact (quiet_execWarmResetInjectionStop ..).follows _
  | retestDone => exact .of_outlineOf (outline_execRetestDone ..) _
  | haltScan => exact .of_outlineOf (outline_execHaltScan ..) _
  | faultLogPoll => exact .of_outlineOf (outline_execFaultLogPoll ..) _
  | fltRead => exact .of_outlineOf (outline_execFltRead ..) _
  | mbMsgWrite => exact .of_outlineOf (outline_execMbMsgWrite ..) _
  | mbDoorbell => exact .of_outlineOf (outline_execMbDoorbell ..) _
  | mailboxPoll => exact .of_outlineOf (outline_execMailboxPoll ..) _
  | commandComplete => exact .of_outlineOf (outline_execCommandComplete ..) _
  | commandTimeout => exact .of_outlineOf (outline_execCommandTimeout ..) _
  | deferredEnableStart => exact (quiet_execDeferredEnableStart ..).follows _
  | conductorBeat => exact .of_outlineOf (outline_execConductorBeat ..) _
  | conductorTakeover => exact (quiet_execConductorTakeover ..).follows _
  | standbyRebuildDone => exact .of_outlineOf (outline_execStandbyRebuildDone ..) _
  | sysIdentify => exact .of_outlineOf (outline_execSysIdentify ..) _
  | sysStatus => exact .of_outlineOf (outline_execSysStatus ..) _
  | sysWarmReset => exact (quiet_execSysWarmReset ..).follows _
  | sysSetWaferId => exact follows_execSysSetWaferId ..
  | sysHandover => exact .of_outlineOf (outline_execSysHandover ..) _
  | sysBoundVoid => exact .of_outlineOf (outline_execSysBoundVoid ..) _
  | sysPing => exact .of_outlineOf (outline_execSysPing ..) _
  | fieldAdmit => exact .of_outlineOf (outline_execFieldAdmit ..) _
  | fieldDrain => exact .of_outlineOf (outline_execFieldDrain ..) _
  | fieldPark => exact .of_outlineOf (outline_execFieldPark ..) _
  | fieldReturn => exact .of_outlineOf (outline_execFieldReturn ..) _
  | fieldReset => exact .of_outlineOf (outline_execFieldReset ..) _
  | fieldRetest => exact (quiet_execFieldRetest ..).follows _
  | fieldFail => exact (quiet_execFieldFail ..).follows _
  | fieldClear => exact .of_outlineOf (outline_execFieldClear ..) _
  | fieldInsulate => exact .of_outlineOf (outline_execFieldInsulate ..) _
  | fieldPower => exact (quiet_execFieldPower ..).follows _
  | fieldQuery => exact .of_outlineOf (outline_execFieldQuery ..) _
  | tileReset => exact .of_outlineOf (outline_execTileReset ..) _
  | jobDeclare => exact .of_outlineOf (outline_execJobDeclare ..) _
  | jobLoad => exact .of_outlineOf (outline_execJobLoad ..) _
  | jobStart => exact .of_outlineOf (outline_execJobStart ..) _
  | jobStop => exact .of_outlineOf (outline_execJobStop ..) _
  | jobRelease => exact .of_outlineOf (outline_execJobRelease ..) _
  | jobQuery => exact .of_outlineOf (outline_execJobQuery ..) _
  | foldLoad => exact .of_outlineOf (outline_execFoldLoad ..) _
  | foldSwitch => exact .of_outlineOf (outline_execFoldSwitch ..) _
  | foldSchedule => exact .of_outlineOf (outline_execFoldSchedule ..) _
  | brokerConnect => exact .of_outlineOf (outline_execBrokerConnect ..) _
  | brokerClose => exact .of_outlineOf (outline_execBrokerClose ..) _
  | brokerPolicy => exact .of_outlineOf (outline_execBrokerPolicy ..) _
  | windowPublish => exact .of_outlineOf (outline_execWindowPublish ..) _
  | windowWithdraw => exact .of_outlineOf (outline_execWindowWithdraw ..) _
  | windowLookup => exact .of_outlineOf (outline_execWindowLookup ..) _
  | cellRead => exact .of_outlineOf (outline_execCellRead ..) _
  | cellSet => exact .of_outlineOf (outline_execCellSet ..) _
  | cellForce => exact .of_outlineOf (outline_execCellForce ..) _
  | cellWaiters => exact .of_outlineOf (outline_execCellWaiters ..) _
  | tileRelease => exact .of_outlineOf (outline_execTileRelease ..) _
  | pwrSetCap => exact .of_outlineOf (outline_execPwrSetCap ..) _
  | pwrSetPolicy => exact .of_outlineOf (outline_execPwrSetPolicy ..) _
  | pwrSetGroup => exact .of_outlineOf (outline_execPwrSetGroup ..) _
  | pwrQuery => exact .of_outlineOf (outline_execPwrQuery ..) _
  | thatchSet => exact .of_outlineOf (outline_execThatchSet ..) _
  | thermSetLimits => exact (quiet_execThermSetLimits ..).follows _
  | clkSetOp => exact .of_outlineOf (outline_execClkSetOp ..) _
  | clkSetMode => exact .of_outlineOf (outline_execClkSetMode ..) _
  | clkQuery => exact .of_outlineOf (outline_execClkQuery ..) _
  | portUp => exact (quiet_execPortUp ..).follows _
  | portDown => exact (quiet_execPortDown ..).follows _
  | portRetrain => exact (quiet_execPortRetrain ..).follows _
  | portRelay => exact (quiet_execPortRelay ..).follows _
  | portLaneMap => exact .of_outlineOf (outline_execPortLaneMap ..) _
  | portConfig => exact .of_outlineOf (outline_execPortConfig ..) _
  | routeSet => exact .of_outlineOf (outline_execRouteSet ..) _
  | routeClear => exact .of_outlineOf (outline_execRouteClear ..) _
  | portQuery => exact .of_outlineOf (outline_execPortQuery ..) _
  | portForget => exact .of_outlineOf (outline_execPortForget ..) _
  | fwQuery => exact .of_outlineOf (outline_execFwQuery ..) _
  | fwApply => exact .of_outlineOf (outline_execFwApply ..) _
  | mapGet => exact .of_outlineOf (outline_execMapGet ..) _
  | distGet => exact .of_outlineOf (outline_execDistGet ..) _
  | mapWait => exact .of_outlineOf (outline_execMapWait ..) _
  | waferWindowLoad => exact .of_outlineOf (outline_execWaferWindowLoad ..) _
  | waferWindowStore => exact .of_outlineOf (outline_execWaferWindowStore ..) _
  | waferWindowTimeout => exact .of_outlineOf (outline_execWaferWindowTimeout ..) _
  | waferWindowAnswer => exact .of_outlineOf (outline_execWaferWindowAnswer ..) _
  | hartFenceIo => exact .of_outlineOf (outline_execHartFenceIo ..) _
  | timerInterrupt => exact .of_outlineOf (outline_execTimerInterrupt ..) _
  | softwareInterruptWrite => exact .of_outlineOf (outline_execSoftwareInterruptWrite ..) _
  | hostClkWrite => exact .of_outlineOf (outline_execHostClkWrite ..) _
  | sbiSecureForward => exact .of_outlineOf (outline_execSbiSecureForward ..) _
  | sbiSystemReset => exact .of_outlineOf (outline_execSbiSystemReset ..) _
  | nodeBoot => exact .of_outlineOf (outline_execNodeBoot ..) _
  | hostBootTimeout => exact .of_outlineOf (outline_execHostBootTimeout ..) _
  | ethRingTailWrite => exact .of_outlineOf (outline_execEthRingTailWrite ..) _
  | ethDescriptorDone => exact .of_outlineOf (outline_execEthDescriptorDone ..) _
  | ethFrameReceive => exact .of_outlineOf (outline_execEthFrameReceive ..) _
  | pcieDeviceWrite => exact .of_outlineOf (outline_execPcieDeviceWrite ..) _
  | hedgerowRestart => exact (quiet_execHedgerowRestart ..).follows _
  | sidebandModeTry => exact (quiet_execSidebandModeTry ..).follows _
  | hedgerowFieldPoll => exact (quiet_execHedgerowFieldPoll ..).follows _
  | scarabFlush => exact .of_outlineOf (outline_execScarabFlush ..) _
  | scarabHoldingDrain => exact .of_outlineOf (outline_execScarabHoldingDrain ..) _
  | timeAnchor => exact .of_outlineOf (outline_execTimeAnchor ..) _
  | i3cEntdaa => exact .of_outlineOf (outline_execI3cEntdaa ..) _
  | i3cPrivateRead => exact .of_outlineOf (outline_execI3cPrivateRead ..) _
  | setEndpointId => exact .of_outlineOf (outline_execSetEndpointId ..) _
  | getEndpointId => exact .of_outlineOf (outline_execGetEndpointId ..) _
  | getMctpVersionSupport => exact .of_outlineOf (outline_execGetMctpVersionSupport ..) _
  | getMessageTypeSupport => exact .of_outlineOf (outline_execGetMessageTypeSupport ..) _
  | getVendorDefinedMsgSupport => exact .of_outlineOf (outline_execGetVendorDefinedMsgSupport ..) _
  | health => exact .of_outlineOf (outline_execHealth ..) _
  | slotGetAnswer => exact .of_outlineOf (outline_execSlotGetAnswer ..) _
  | slotSetAnswer => exact .of_outlineOf (outline_execSlotSetAnswer ..) _
  | slotCheckTimeout => exact .of_outlineOf (outline_execSlotCheckTimeout ..) _
  | getVersion => exact .of_outlineOf (outline_execGetVersion ..) _
  | getCapabilities => exact .of_outlineOf (outline_execGetCapabilities ..) _
  | negotiateAlgorithms => exact .of_outlineOf (outline_execNegotiateAlgorithms ..) _
  | getDigests => exact .of_outlineOf (outline_execGetDigests ..) _
  | getCertificate => exact .of_outlineOf (outline_execGetCertificate ..) _
  | challenge => exact .of_outlineOf (outline_execChallenge ..) _
  | getMeasurements => exact .of_outlineOf (outline_execGetMeasurements ..) _
  | chassisForceRestart => exact .of_outlineOf (outline_execChassisForceRestart ..) _
  | chassisPowerCycle => exact (quiet_execChassisPowerCycle ..).follows _
  | chassisForceOff => exact (quiet_execChassisForceOff ..).follows _
  | chassisOn => exact (starts_execChassisOn ..).follows _
  | powerLimitSet => exact .of_outlineOf (outline_execPowerLimitSet ..) _
  | indicatorLedSet => exact .of_outlineOf (outline_execIndicatorLedSet ..) _
  | datetimeSet => exact .of_outlineOf (outline_execDatetimeSet ..) _
  | managerReset => exact (quiet_execManagerReset ..).follows _
  | resetToDefaults => exact follows_execResetToDefaults ..
  | redfishGet => exact .of_outlineOf (outline_execRedfishGet ..) _
  | sessionLogin => exact (quiet_execSessionLogin ..).follows _
  | sessionIdleExpiry => exact (quiet_execSessionIdleExpiry ..).follows _
  | accountChange => exact (quiet_execAccountChange ..).follows _
  | configSet => exact .of_outlineOf (outline_execConfigSet ..) _
  | ownerKeyInstall => exact .of_outlineOf (outline_execOwnerKeyInstall ..) _
  | clearLog => exact .of_outlineOf (outline_execClearLog ..) _
  | scarabExport => exact .of_outlineOf (outline_execScarabExport ..) _
  | fieldSnapshot => exact (quiet_execFieldSnapshot ..).follows _
  | firmwarePush => exact .of_outlineOf (outline_execFirmwarePush ..) _
  | updateApply => exact (quiet_execUpdateApply ..).follows _
  | regionRepair => exact (starts_execRegionRepair ..).follows _
  | recoveryLoader => exact (starts_execRecoveryLoader ..).follows _
  | recoveryRetry => exact .of_outlineOf (outline_execRecoveryRetry ..) _
  | registerWrite => exact (quiet_execRegisterWrite ..).follows _
  | conductorBoot => exact (quiet_execConductorBoot ..).follows _
  | standbyInputLoss => exact (quiet_execStandbyInputLoss ..).follows _
  | ethLinkChange => exact .of_outlineOf (outline_execEthLinkChange ..) _
  | sidebandLink => exact (quiet_execSidebandLink ..).follows _
  | debtRepaid => exact .of_outlineOf (outline_execDebtRepaid ..) _
  | accountLockExpiry => exact .of_outlineOf (outline_execAccountLockExpiry ..) _
  | profileAgeUpdate => exact .of_outlineOf (outline_execProfileAgeUpdate ..) _
  | pcieDeviceRead => exact .of_outlineOf (outline_execPcieDeviceRead ..) _
  | heldOrderWrite => exact .of_outlineOf (outline_execHeldOrderWrite ..) _

end Sys2Proof.Machine
end

section
/-! PROOFS. The limits of every step (O47) and what only named commands change (O50). -/

namespace Sys2Proof.Machine

theorem Outline.Before.ok {a b : Outline} {c : Instr} (h : a.Before c b) (k : a.Ok) : b.Ok := by
  cases h with
  | same => exact k
  | setWaferId c w hw => exact { k with waferId := hw }
  | defaults x => exact { k with waferId := (by decide : 0xFFFF < 2 ^ 16) }
  | switch d t ht => exact { k with osc := Nat.le_succ 1, time := ht }
  | lost => exact { k with osc := Nat.le_refl 2 }
  | inputPower mv bad => exact { k with time := Nat.two_pow_pos 64 }

theorem exec_limits {c : Instr} {s u : State} (h : exec c s = .next u) (k : s.outline.Ok) : u.outline.Ok := by
  have f := exec_follows c s
  rw [h] at f
  obtain ⟨m, hm, q⟩ | fresh := f
  · exact q.ok (hm.ok k)
  · exact fresh.ok k

theorem State.limits_tick (s : State) (k : s.outline.Ok) : s.tick.outline.Ok :=
  { k with time := Nat.mod_lt (s.time + 1) (Nat.two_pow_pos 64) }

/-- Settles O47: a step is a tick of wafer time or a command, and each keeps the limits of the outline. -/
theorem everyStepKeepsTheLimits : Obligations.EveryStepKeepsTheLimits := by
  intro s u hs hstep
  rw [State.limits_iff] at hs ⊢
  unfold step at hstep
  split at hstep
  · cases hstep
    exact s.limits_tick hs
  · exact exec_limits hstep { hs with }

/-- Settles O50: by what each command may change of the outline. -/
theorem onlyTheseCommandsChange : Obligations.OnlyTheseCommandsChange := by
  intro c s u h
  have f := exec_follows c s
  rw [h] at f
  obtain ⟨m, hm, q⟩ | fresh := f
  · obtain ⟨-, hp, hw, ho, ht, hb⟩ := q
    have off : s.chassis.board = false → m.board = false := by cases hm <;> exact id
    have board : s.chassis.board = false → u.chassis.board = true → u.hedge.up = true ∧ u.regionsOk = true ∧ u.time = 0 ∧ u.boot.kind = 1 ∧ u.boot.step = 3 :=
      fun h on => absurd ((off h).symm.trans (hb on)) Bool.false_ne_true
    cases hm with
    | same => exact ⟨.inl hw, .inl ho, .inl ht, board, hp⟩
    | setWaferId k => exact ⟨.inr (.inl ⟨k, rfl⟩), .inl ho, .inl ht, board, hp⟩
    | defaults x => exact ⟨.inr (.inr ⟨x, rfl⟩), .inl ho, .inl ht, board, hp⟩
    | switch d => exact ⟨.inl hw, .inr (.inl ⟨d, rfl⟩), .inr (.inl ⟨d, rfl⟩), board, hp⟩
    | lost => exact ⟨.inl hw, .inr (.inr rfl), .inl ht, board, hp⟩
    | inputPower mv bad => exact ⟨.inl hw, .inl ho, .inr (.inr (.inl ⟨mv, bad, rfl⟩)), board, hp⟩
  · exact ⟨.inl fresh.waferId, .inl fresh.osc, .inr (.inr (.inr ⟨fresh.time, fresh.kind, fresh.board⟩)),
      fun _ _ => ⟨fresh.up, fresh.regionsOk, fresh.time, fresh.kind, fresh.step⟩, fresh.pending⟩

end Sys2Proof.Machine
end

section
/-! PROOFS. A step and the reset state (O45, O46). -/

namespace Sys2Proof.Machine

/-- A start of sampling changes the fold unit alone, and that only when its time has come. -/
theorem Tile.sampleStart_fold (tl : Tile) (now cyc n : Nat) :
    ∃ f, tl.sampleStart now cyc n = { tl with fold := f } ∧ ((∀ h l at_, tl.fold.sampleAt = some (h, l, at_) → now < at_) → f = tl.fold) := by
  unfold Tile.sampleStart
  split
  · exact ⟨_, rfl, fun _ => rfl⟩
  · next h l at_ e =>
    split
    · exact ⟨_, rfl, fun _ => rfl⟩
    · next late =>
      dsimp only
      split
      · exact ⟨_, rfl, fun early => absurd (early h l at_ e) late⟩
      · exact ⟨_, rfl, fun early => absurd (early h l at_ e) late⟩

/-- A tick turns a tile's tags and may start its sampling. -/
theorem State.tile_tick (s : State) (t : TileId) : ∃ cyc n, s.tick.tile t = (s.tile t).tick.sampleStart s.tick.time cyc n := by
  simp only [State.tile, State.tick, Tab.getD, Tab.find_mapVals]
  cases s.tiles.find (tileKey t) with
  | none => exact ⟨0, 0, rfl⟩
  | some tl => exact ⟨_, _, rfl⟩

/-- Settles O45: step's two cases, the tiles of the idle one by what a tick does to a tile. -/
theorem stepTakesTheFront : Obligations.StepTakesTheFront := by
  refine ⟨fun s c rest h => by simp only [step, h], fun s h => ⟨by simp only [step, h], rfl, rfl, fun t => ?_, rfl, rfl, rfl, rfl, rfl, rfl,
    rfl, rfl, rfl, rfl, rfl, rfl, rfl, rfl⟩⟩
  obtain ⟨cyc, n, ht⟩ := s.tile_tick t
  obtain ⟨f, hf, same⟩ := (s.tile t).tick.sampleStart_fold s.tick.time cyc n
  rw [ht, hf]
  exact ⟨rfl, rfl, rfl, rfl, rfl, rfl, rfl, same⟩

/-- Settles O46: the reset state is written out in the model, and every table of it is empty. -/
theorem resetState : Obligations.ResetState := by
  have limits : State.reset.Limits := by
    refine ⟨by decide, by decide, by decide, fun _ => Nat.le_succ 1, fun _ => Nat.zero_le 6, by decide, by decide, by decide, by decide, by decide, by decide⟩
  have recorder : State.reset.RecorderFits := ⟨fun _ => Nat.zero_le 256, by decide, by decide, by decide⟩
  have enabled : ({} : Port).enabled = true := by decide
  exact ⟨rfl, rfl, rfl, rfl, rfl, fun _ _ => ⟨rfl, rfl⟩, fun _ => ⟨enabled, rfl⟩, limits, recorder, fun _ => rfl, fun _ => rfl⟩

end Sys2Proof.Machine
end

section
/-! PROOFS. Ethernet, PCIe and register writes (O40). -/

namespace Sys2Proof.Machine

/-! ## Rules for a host node's parts -/

@[simp] theorem HostNode.port_modPort (h : HostNode) (p : Nat) (g : EthPort → EthPort) : (h.modPort p g).port p = g (h.port p) := by
  simp [HostNode.port, HostNode.modPort]

@[simp] theorem HostNode.hart_modHart (h : HostNode) (i : Nat) (g : Hart → Hart) : (h.modHart i g).hart i = g (h.hart i) := by
  simp [HostNode.hart, HostNode.modHart]

@[simp] theorem EthPort.ring_modRing (e : EthPort) (r : Nat) (g : Ring → Ring) : (e.modRing r g).ring r = g (e.ring r) := by
  simp [EthPort.ring, EthPort.modRing]

@[simp] theorem HostNode.port_writeBack (h : HostNode) (o n flags prio hash p : Nat) : (h.writeBack o n flags prio hash).port p = h.port p := rfl

/-- Filling descriptors writes memory alone. -/
@[simp] theorem HostNode.port_fill (prio hash good p : Nat) : ∀ (ds : List (Nat × EthDesc × List Byte)) (h : HostNode),
    (h.fill prio hash good ds).port p = h.port p
  | [], _ => rfl
  | (o, d, bs) :: ds, h => by
    rw [HostNode.fill, HostNode.port_fill prio hash good p ds]
    split <;> rfl

@[simp] theorem EthPort.rings_send (e : EthPort) (bs : List Byte) : (e.send bs).rings = e.rings := by
  unfold EthPort.send
  split <;> rfl

@[simp] theorem State.host_event (s : State) (src c : Nat) (d : List Nat) (k : Nat) : (s.event src c d).host k = s.host k := by
  simp [State.host]

@[simp] theorem State.port_memBad (s : State) (k a reader p : Nat) : ((s.memBad k a reader).host k).port p = (s.host k).port p := by
  simp [State.memBad, HostNode.port]

@[simp] theorem State.chan_modChan (s : State) (c : Nat) (g : Chan → Chan) : (s.modChan c g).chan c = g (s.chan c) := by
  simp [State.chan, State.modChan]

/-- An event of a controller, node or tile stands in its queue where that has room (R469). -/
theorem State.mem_queue_event (s : State) (src c : Nat) (d : List Nat) (h : src ≠ srcHedgerow) (room : (s.scarabQ.getD (s.queueOf src) []).length < 256) :
    { code := c, time := s.time, src := src, detail := d } ∈ (s.event src c d).scarabQ.getD (s.queueOf src) [] := by
  simp [State.event, h, queueEv, Nat.not_le.mpr room]

theorem State.writes_memBad (s : State) (k a reader : Nat) (hk : k < 4) (g : HostNode → HostNode) :
    Writes s ((s.memBad k a reader).modHost k g) (srcHost k) 0x0C83 [k, a, reader] := by
  intro room
  have node : srcHost k ≠ srcHedgerow := by simp only [srcHost, srcHedgerow]; omega
  rw [CanLog, if_neg node] at room
  exact .inr (.inr ⟨_, State.mem_queue_event (s.modHost k _) _ _ _ node room⟩)

theorem State.nodeOn_of_perst {s : State} {k : Nat} (h : s.perst k = false) : s.nodeOn k = true := by
  simp only [State.perst, Bool.or_eq_false_iff, Bool.not_eq_false'] at h
  exact h.1

theorem State.lt_of_nodeOn {s : State} {k : Nat} (h : s.nodeOn k = true) : k < 4 := by
  simp only [State.nodeOn, Bool.and_eq_true, decide_eq_true_eq] at h
  exact h.1

/-! ## Ethernet (R431, R432) -/

theorem does_ethRingTailWrite {s : State} {k : Nat} (on : s.nodeOn k = true) (p r v : Nat) (tx : Bool) (hp : p < 2) (hr : r < 8) :
    Does (.ethRingTailWrite k p tx r v) s (fun u => (((u.host k).port p).ring (if tx then r else 8 + r)).tail = v % 65536) := by
  refine .of_next (if_pos (by simp [on, hp, hr]) |> congrArg Host.Outcome.next) ?_
  simp

/-- A transmit ring whose descriptor at its head, d at o, may be sent. -/
structure TxReady (s : State) (k p r o : Nat) (d : EthDesc) : Prop where
  on : s.nodeOn k = true
  port : p < 2
  ring : r < 8
  enable : ((s.host k).port p).enable = true
  link : ((s.host k).port p).link = true
  ringOn : (((s.host k).port p).ring r).enable = true
  ahead : (((s.host k).port p).ring r).head ≠ (((s.host k).port p).ring r).tail % (((s.host k).port p).ring r).slots
  at_ : (((s.host k).port p).ring r).descAt (((s.host k).port p).ring r).head = some o
  desc : (s.host k).desc o = d
  unpaused : ((s.host k).port p).pause.getD d.prio 0 ≤ s.time

theorem TxReady.takes {s : State} {k p r o : Nat} {d : EthDesc} (h : TxReady s k p r o d) :
    (s.nodeOn k && decide (p < 2) && decide (r < 8) && ((s.host k).port p).enable && ((s.host k).port p).link && (((s.host k).port p).ring r).enable &&
      !((((s.host k).port p).ring r).head == (((s.host k).port p).ring r).tail % (((s.host k).port p).ring r).slots)) = true := by
  simp [h.on, h.port, h.ring, h.enable, h.link, h.ringOn, h.ahead]

/-- The ring's next place (R431). -/
def Ring.nextHead (r : Ring) : Nat := (r.head + 1) % r.slots

theorem does_ethDescriptorDone_bad {s : State} {k p r o : Nat} {d : EthDesc} (h : TxReady s k p r o d)
    (bad : localMem d.addr d.length = none ∨ ∃ b, localMem d.addr d.length = some b ∧ (s.host k).badIn b d.length ≠ none) :
    Does (.ethDescriptorDone k p r) s (fun u =>
      (((u.host k).port p).ring r).head = (((s.host k).port p).ring r).nextHead ∧ ((u.host k).port p).sent = ((s.host k).port p).sent) := by
  refine .of_next rfl ?_
  simp only [h.takes, h.at_, h.desc, Nat.not_lt.mpr h.unpaused, Bool.not_true, Bool.false_eq_true, if_false]
  obtain e | ⟨b, e, hb⟩ := bad
  · simp [e, Ring.nextHead, EthPort.ring]
  · obtain ⟨w, hw⟩ := Option.ne_none_iff_exists'.mp hb
    simp [e, hw, Ring.nextHead, EthPort.ring]

theorem does_ethDescriptorDone_read {s : State} {k p r o b : Nat} {d : EthDesc} (h : TxReady s k p r o d)
    (e : localMem d.addr d.length = some b) (good : (s.host k).badIn b d.length = none) :
    Does (.ethDescriptorDone k p r) s (fun u =>
      (((u.host k).port p).ring r).head = (((s.host k).port p).ring r).nextHead ∧
      (d.last = true → ((s.host k).port p).frag = [] → 64 ≤ d.length → d.length ≤ ((s.host k).port p).maxFrame →
        ((u.host k).port p).sent = ((s.host k).port p).sent ++ [Memory.readN (s.host k).mem d.length b])) := by
  refine .of_next rfl ?_
  simp only [h.takes, h.at_, h.desc, Nat.not_lt.mpr h.unpaused, Bool.not_true, Bool.false_eq_true, if_false, e, good]
  refine ⟨?_, fun last frag least most => ?_⟩
  · split <;> simp [Ring.nextHead, EthPort.ring]
  · have len := Memory.length_readN (s.host k).mem d.length b
    simp [last, frag, EthPort.send, within, len, least, EthPort.maxFrame] at most ⊢
    simp [most]

theorem EthPort.rxDrop_modRing (e : EthPort) (r : Nat) (g : Ring → Ring) : (e.modRing r g).rxDrop = e.rxDrop := rfl

/-- A port that takes the frame bs: enabled, linked, the frame's length allowed. -/
structure RxReady (s : State) (k p : Nat) (bs : List Byte) : Prop where
  on : s.nodeOn k = true
  port : p < 2
  enable : ((s.host k).port p).enable = true
  link : ((s.host k).port p).link = true
  least : 64 ≤ bs.length
  most : bs.length ≤ ((s.host k).port p).maxFrame

theorem RxReady.takes {s : State} {k p : Nat} {bs : List Byte} (h : RxReady s k p bs) :
    (s.nodeOn k && decide (p < 2) && ((s.host k).port p).enable && ((s.host k).port p).link && within 64 ((s.host k).port p).maxFrame bs.length) = true := by
  simp [within, h.on, h.port, h.enable, h.link, h.least, h.most]

theorem does_ethFrameReceive_pause {s : State} {k p : Nat} {bs : List Byte} (h : RxReady s k p bs) (prio hash op : Nat) (pause : pauseOp bs = some op) :
    Does (.ethFrameReceive k p bs prio hash) s (fun u => (u.host k).port p = ((s.host k).port p).takePause op s.time bs) := by
  refine .of_next rfl ?_
  simp only [h.takes]
  simp [pause]

theorem does_ethFrameReceive_drop {s : State} {k p : Nat} {bs : List Byte} (h : RxReady s k p bs) (prio hash : Nat) (plain : pauseOp bs = none)
    (full : (((s.host k).port p).ring (8 + hash % 8)).enable = false ∨
      (s.host k).plan (((s.host k).port p).ring (8 + hash % 8)) (((s.host k).port p).ring (8 + hash % 8)).slots
        (((s.host k).port p).ring (8 + hash % 8)).head bs = none) :
    Does (.ethFrameReceive k p bs prio hash) s (fun u => ((u.host k).port p).rxDrop = ((s.host k).port p).rxDrop + 1) := by
  refine .of_next rfl ?_
  obtain off | none := full
  · simp only [h.takes]
    simp [plain, off]
  · simp only [h.takes]
    simp [plain, none]

theorem does_ethFrameReceive_fill {s : State} {k p : Nat} {bs : List Byte} (h : RxReady s k p bs) (prio hash : Nat) (ds : List (Nat × EthDesc × List Byte))
    (plain : pauseOp bs = none) (on : (((s.host k).port p).ring (8 + hash % 8)).enable = true)
    (plan : (s.host k).plan (((s.host k).port p).ring (8 + hash % 8)) (((s.host k).port p).ring (8 + hash % 8)).slots
      (((s.host k).port p).ring (8 + hash % 8)).head bs = some ds) :
    Does (.ethFrameReceive k p bs prio hash) s (fun u => ((u.host k).port p).rxDrop = ((s.host k).port p).rxDrop ∧
      (((u.host k).port p).ring (8 + hash % 8)).head =
        ((((s.host k).port p).ring (8 + hash % 8)).head + ds.length) % (((s.host k).port p).ring (8 + hash % 8)).slots) := by
  have host : s.freeVal.2.host k = s.host k := rfl
  refine .of_next rfl ?_
  simp only [h.takes]
  simp [plain, on, plan, host, EthPort.rxDrop_modRing]

theorem does_ethLinkChange_up {s : State} {k p : Nat} (on : s.nodeOn k = true) (m : Nat) (hp : p < 2) (enable : ((s.host k).port p).enable = true)
    (least : 1 ≤ m) (most : m ≤ 2) :
    Does (.ethLinkChange k p true m) s (fun u => ((u.host k).port p).link = true ∧ ((u.host k).port p).mode = m ∧ ((u.host k).port p).present = true) := by
  refine .of_next rfl ?_
  simp [on, hp, enable, within, least, most]

theorem does_ethLinkChange_down {s : State} {k p : Nat} (on : s.nodeOn k = true) (m : Nat) (hp : p < 2) :
    Does (.ethLinkChange k p false m) s (fun u => ((u.host k).port p).link = false ∧ ((u.host k).port p).present = !(m == 0)) := by
  refine .of_next rfl ?_
  simp [on, hp]

/-! ## PCIe (R421, R434) -/

theorem does_pcieDeviceWrite_local {s : State} {k : Nat} (out : s.perst k = false) (a o : Nat) (bs : List Byte) (e : localMem a bs.length = some o) :
    Does (.pcieDeviceWrite k a bs) s (fun u => Memory.readN (u.host k).mem bs.length o = bs ∧ SameBut (s.host k).mem (u.host k).mem o bs.length) := by
  refine .of_next rfl ?_
  simp only [out, e, Bool.false_eq_true, if_false, State.host_modHost]
  exact ⟨Memory.readN_writeN bs _ o, fun i hi => Memory.read_writeN_other bs _ o i hi⟩

theorem does_pcieDeviceWrite_unsupported {s : State} {k : Nat} (out : s.perst k = false) (a : Nat) (bs : List Byte) (e : localMem a bs.length = none) :
    Does (.pcieDeviceWrite k a bs) s (fun u => (u.host k).aer = (s.host k).aer ||| aerUnsupported ∧ (u.host k).mem = (s.host k).mem) := by
  refine .of_next rfl ?_
  simp [out, e]

theorem does_pcie_in_perst {s : State} {k : Nat} (in_ : s.perst k = true) (a : Nat) (bs : List Byte) (n : Nat) :
    Does (.pcieDeviceWrite k a bs) s (fun u => u = s) ∧ Does (.pcieDeviceRead k a n) s (fun u => u = s) :=
  ⟨.of_next rfl (if_pos in_), .of_next rfl (if_pos in_)⟩

theorem does_pcieDeviceRead_local {s : State} {k : Nat} (out : s.perst k = false) (a n o : Nat) (e : localMem a n = some o)
    (good : (s.host k).badIn o n = none) :
    Does (.pcieDeviceRead k a n) s (fun u => (u.host k).dma = .data (Memory.readN (s.host k).mem n o)) := by
  refine .of_next rfl ?_
  simp [out, e, good]

theorem does_pcieDeviceRead_poisoned {s : State} {k : Nat} (out : s.perst k = false) (a n o w : Nat) (e : localMem a n = some o)
    (bad : (s.host k).badIn o n = some w) :
    Does (.pcieDeviceRead k a n) s (fun u => (u.host k).dma = .poisoned ∧ Writes s u (srcHost k) 0x0C83 [k, w, 1]) := by
  refine .of_next rfl ?_
  simp only [out, e, bad, Bool.false_eq_true, if_false, State.host_modHost, true_and]
  exact s.writes_memBad k w 1 (State.lt_of_nodeOn (State.nodeOn_of_perst out)) _

theorem does_pcieDeviceRead_unsupported {s : State} {k : Nat} (out : s.perst k = false) (a n : Nat) (e : localMem a n = none) :
    Does (.pcieDeviceRead k a n) s (fun u => (u.host k).dma = .unsupported) := by
  refine .of_next rfl ?_
  simp [out, e]

/-! ## Register writes (R6, R418, R429, R505) -/

theorem does_registerWrite_winCtrl {s : State} {k : Nat} (on : s.nodeOn k = true) (v : Word) :
    Does (.registerWrite (.hostCtl k) (.host true) 0x10 v) s (fun u => (u.host k).winFault = bit v 31 ∧ (u.host k).winTimeout = bits v 23 0) := by
  refine .of_next rfl ?_
  simp [on, Writer.ofHost, Writer.machine, State.hostCtlWrite]

theorem does_registerWrite_winCtrl_user {s : State} {k : Nat} (on : s.nodeOn k = true) (v : Word) :
    Does (.registerWrite (.hostCtl k) (.host false) 0x10 v) s (fun u => u = s) := by
  refine .of_next rfl ?_
  simp [on, Writer.ofHost, Writer.machine, State.hostCtlWrite]

theorem does_registerWrite_ethCtrl {s : State} {k p : Nat} (on : s.nodeOn k = true) (hp : p < 2) (v : Word) :
    Does (.registerWrite (.eth k p) (.host true) 0 v) s (fun u => ((u.host k).port p).enable = bit v 31 ∧
      ((u.host k).port p).pfc = bit v 30 ∧ ((u.host k).port p).mtu = bits v 29 16) := by
  refine .of_next rfl ?_
  simp [on, hp, Writer.ofHost, EthPort.write]

theorem does_registerWrite_msip {s : State} {k i : Nat} (on : s.nodeOn k = true) (hi : i < 32) (v : Word) :
    Does (.registerWrite (.aclint k) (.host true) (4 * i) v) s (fun u => ((u.host k).hart i).msip = bit v 0) := by
  have below : 4 * i < 0x80 := by omega
  refine .of_next rfl ?_
  simp [on, Writer.ofHost, HostNode.aclintWrite, below]

theorem does_registerWrite_unaligned (s : State) (sp : RegSpace) (w : Writer) (o : Nat) (v : Word) (h : o % 4 ≠ 0) :
    Does (.registerWrite sp w o v) s (fun u => u = s) := .of_next rfl (if_pos h)

theorem does_registerWrite_thatch {s : State} {t : TileId} {w : Writer} (hw : w = .core ∨ w = .fc) (ht : onArray t = true)
    (present : (s.tile t).present = true) (clocked : s.clocked t = true) (v : Word) :
    Does (.registerWrite (.tile t) w 0x11C v) s (fun u => (u.tile t).act = (s.tile t).act.writeThatch v ∧ OnlyTile s u t) := by
  have writer : coreOrFc w = true := by
    obtain rfl | rfl := hw
    · rfl
    · rfl
  refine .of_next rfl ?_
  simp only [ht, present, clocked, State.writeTileReg, writer]
  refine ⟨?_, fun x hx => ?_⟩
  · simp
  · simp [State.tile_setTile_other _ _ _ _ (Ne.symm hx)]

theorem does_registerWrite_lowPoint (s : State) {f : Nat} (hf : f < 56) (v : Word) :
    Does (.registerWrite (.fc f) .conductor 0x8014 v) s (fun u => (u.field f).clk.low = 7) := by
  refine .of_next rfl ?_
  simp [hf, State.writeFcReg]

/-- Word w of channel c's message stands at offset 128 c + 4 w (R391). -/
theorem State.mailboxWrite_msg (s : State) (sp c w : Nat) (sec : Bool) (v : Word) (hc : c < 64) (hw : w < 16) (may : mayAccess sp sec c = true) :
    s.mailboxWrite sp sec (128 * c + 4 * w) v = s.modChan c (fun h => { h with msg := h.msg.put w v, collision := h.collision || h.full }) := by
  have chan : (128 * c + 4 * w) / 0x80 = c := by omega
  have word : (128 * c + 4 * w) % 0x80 = 4 * w := by omega
  have inside : 128 * c + 4 * w < 0x2000 := by omega
  have msg : 4 * w < 0x40 := by omega
  simp [State.mailboxWrite, chan, word, inside, msg, may]

theorem does_registerWrite_mailbox (s : State) {sp c w : Nat} {sec : Bool} (hc : c < 64) (hw : w < 16) (may : mayAccess sp sec c = true) (v : Word) :
    Does (.registerWrite (.mailbox sp sec) (.host true) (128 * c + 4 * w) v) s (fun u =>
      (u.chan c).msg.getD w 0 = v ∧ (u.chan c).collision = ((s.chan c).collision || (s.chan c).full)) := by
  have aligned : (128 * c + 4 * w) % 4 = 0 := by omega
  have chan : (s.spineGrant sp).chan c = s.chan c := rfl
  refine .of_next rfl ?_
  simp [aligned, State.mailboxWrite_msg _ _ _ _ _ _ hc hw may, chan]

/-- Settles O40: each device and register by its own lemma. -/
theorem hostDevicesAndRegisters : Obligations.HostDevicesAndRegisters := by
  intro s k
  refine ⟨fun on => ⟨fun p r v hp hr => ⟨does_ethRingTailWrite on p r v true hp hr, does_ethRingTailWrite on p r v false hp hr⟩, ?transmit, ?receive,
      fun p m hp => ⟨fun enable least most => does_ethLinkChange_up on m hp enable least most, does_ethLinkChange_down on m hp⟩, ?write,
      fun in_ a bs n => does_pcie_in_perst in_ a bs n, ?read, does_registerWrite_winCtrl on, does_registerWrite_winCtrl_user on,
      fun p v hp => does_registerWrite_ethCtrl on hp v, fun i v hi => does_registerWrite_msip on hi v⟩,
    fun sp w o v h => does_registerWrite_unaligned s sp w o v h,
    fun t w v hw ht present clocked => does_registerWrite_thatch hw ht present clocked v,
    fun f v hf => does_registerWrite_lowPoint s hf v,
    fun sp sec c w v hc hw may => does_registerWrite_mailbox s hc hw may v⟩
  case transmit =>
    intro p r o b d hp hr enable link ringOn ahead at_ desc unpaused
    have ready : TxReady s k p r o d := ⟨on, hp, hr, enable, link, ringOn, ahead, at_, desc, unpaused⟩
    exact ⟨fun bad => does_ethDescriptorDone_bad ready (bad.imp_right fun e => ⟨b, e⟩), fun e good => does_ethDescriptorDone_read ready e good⟩
  case receive =>
    intro p bs prio hash hp enable link least most
    have ready : RxReady s k p bs := ⟨on, hp, enable, link, least, most⟩
    exact ⟨fun op pause => does_ethFrameReceive_pause ready prio hash op pause, fun plain full => does_ethFrameReceive_drop ready prio hash plain full,
      fun ds plain ringOn plan => does_ethFrameReceive_fill ready prio hash ds plain ringOn plan⟩
  case write =>
    exact fun out a bs => ⟨fun o e => does_pcieDeviceWrite_local out a o bs e, fun e => does_pcieDeviceWrite_unsupported out a bs e⟩
  case read =>
    exact fun out a n => ⟨fun o e good => does_pcieDeviceRead_local out a n o e good, fun o w e bad => does_pcieDeviceRead_poisoned out a n o w e bad,
      fun e => does_pcieDeviceRead_unsupported out a n e⟩

end Sys2Proof.Machine
end

section
/-! PROOFS. Every command answers a next state (O51). -/

namespace Sys2Proof.Machine

/-- What a command answers follows from an outline only where it is a next state. -/
theorem Outline.Follows.next {l : Outline} {c : Instr} {o : Out} (h : l.Follows c o) : ∃ u, o = .next u := by
  cases o with
  | next u => exact ⟨u, rfl⟩
  | fault f => exact h.elim
  | refused r => exact h.elim

/-- Settles O51: what each command may change of the outline says that it answers a next state. -/
theorem everyCommandCompletes : Obligations.EveryCommandCompletes := fun c s => (exec_follows c s).next

end Sys2Proof.Machine
end

section
/-! SUPPORT. Folds over the fields and ports: what every step keeps, and what each step gives its own element. -/

namespace Sys2Proof.Machine

/-- A fold of steps that keep a view of what it carries keeps that view. -/
theorem foldl_keeps {α β γ : Type} (view : β → γ) (g : β → α → β) (h : ∀ b x, view (g b x) = view b) (l : List α) (b : β) :
    view (l.foldl g b) = view b := by
  induction l generalizing b with
  | nil => rfl
  | cons x l ih => rw [List.foldl_cons, ih, h]

/-- A fold whose every step gives its own element a property, and takes it from no element, gives it to all. -/
theorem foldl_each {α β : Type} {P : β → α → Prop} (g : β → α → β) (makes : ∀ b x, P (g b x) x) (keeps : ∀ b x y, P b y → P (g b x) y)
    (l : List α) (b : β) : ∀ x ∈ l, P (l.foldl g b) x := by
  have held : ∀ (l : List α) (b : β) x, P b x → P (l.foldl g b) x := fun l => by
    induction l with
    | nil => exact fun _ _ h => h
    | cons y l ih => exact fun b x h => ih _ x (keeps b y x h)
  induction l generalizing b with
  | nil => exact fun _ h => nomatch h
  | cons y l ih =>
    intro x hx
    obtain rfl | hx := List.mem_cons.mp hx
    · exact held l _ x (makes b x)
    · exact ih _ x hx

@[simp] theorem mem_upto {i n : Nat} : i ∈ upto n ↔ i < n := List.mem_range

/-- The entry of a table listed over an initial range of keys. -/
theorem Tab.find_map_keys {α : Type} (g : Nat → α) (l : List Nat) (i : Nat) : Tab.find (l.map fun k => (k, g k)) i = if i ∈ l then some (g i) else none := by
  induction l with
  | nil => rfl
  | cons k l ih =>
    rw [List.map_cons, Tab.find, ih]
    by_cases e : k = i
    · subst e; simp
    · simp [e, Ne.symm e]

theorem Tab.getD_map_upto {α : Type} (g : Nat → α) (d : α) {i n : Nat} (h : i < n) : Tab.getD ((upto n).map fun k => (k, g k)) i d = g i := by
  simp [Tab.getD, Tab.find_map_keys, h]

end Sys2Proof.Machine
end

section
/-! SUPPORT. What the docks' traffic, events and frames leave as it is: all but the ports, the mesh and the recorder. -/

namespace Sys2Proof.Machine

/-- The state without its ports, its mesh and what the recorder holds. -/
def State.besidePorts (s : State) : State := { s with ports := [], mesh := {}, scarabQ := [], scarab := {}, free := 0 }

@[simp] theorem State.besidePorts_event (s : State) (src c : Nat) (d : List Nat) : (s.event src c d).besidePorts = s.besidePorts := by
  unfold State.event; split <;> rfl
@[simp] theorem State.besidePorts_setPort (s : State) (p : Nat) (v : Port) : (s.setPort p v).besidePorts = s.besidePorts := (rfl)
@[simp] theorem State.besidePorts_modPort (s : State) (p : Nat) (g : Port → Port) : (s.modPort p g).besidePorts = s.besidePorts := (rfl)
@[simp] theorem State.besidePorts_sendFrom (s : State) (a : TileId) (x : Pkt) : (s.sendFrom a x).besidePorts = s.besidePorts := (rfl)
@[simp] theorem State.besidePorts_ite (c : Prop) [Decidable c] (a b : State) : (if c then a else b).besidePorts = if c then a.besidePorts else b.besidePorts := apply_ite ..
@[simp] theorem State.besidePorts_foldl {α : Type} (g : State → α → State) (l : List α) (s : State) (h : ∀ s x, (g s x).besidePorts = s.besidePorts) :
    (l.foldl g s).besidePorts = s.besidePorts := foldl_keeps State.besidePorts g h l s

@[simp] theorem State.besidePorts_endPend (s : State) (p i : Nat) (e : Pend) (body : Body) : (s.endPend p i e body).besidePorts = s.besidePorts := (rfl)

@[simp] theorem State.besidePorts_answerOwn (s : State) (p : Nat) (x : Pkt) (st : Nat) : (s.answerOwn p x st).besidePorts = s.besidePorts := by
  refine State.besidePorts_foldl _ _ _ fun u q => ?_
  dsimp only
  (repeat' split) <;> rfl

@[simp] theorem State.besidePorts_loseFrame (s : State) (p : Nat) (x : Pkt) (cause : Nat) : (s.loseFrame p x cause).besidePorts = s.besidePorts := by
  unfold State.loseFrame
  split <;> simp

@[simp] theorem State.besidePorts_portDrop (s : State) (p next cause : Nat) : (s.portDrop p next cause).besidePorts = s.besidePorts := by
  simp [State.portDrop]

@[simp] theorem State.besidePorts_portDown (s : State) (p : Nat) : (s.portDown p).besidePorts = s.besidePorts := by
  simp [State.portDown]

@[simp] theorem State.besidePorts_portWake (s : State) (p : Nat) : (s.portWake p).besidePorts = s.besidePorts := by
  simp [State.portWake]

@[simp] theorem State.besidePorts_dockDown (s : State) (f : Nat) : (s.dockDown f).besidePorts = s.besidePorts := by
  simp [State.dockDown]

theorem State.fields_of_besidePorts {s u : State} (h : u.besidePorts = s.besidePorts) : u.fields = s.fields :=
  show u.besidePorts.fields = s.besidePorts.fields from congrArg State.fields h

end Sys2Proof.Machine
end

section
/-! SUPPORT. Fields that lose their power: what a field, the power board and a shutdown take, and what they leave. -/

namespace Sys2Proof.Machine

/-- What no loss of power touches: time, start-up, the reference, the chassis, the glow bays, Hedgerow and its flash. -/
def State.rim (s : State) : State := { s.besidePorts with fields := [], tiles := [], hosts := [], mb := {}, cond := {} }

theorem State.rim_of_besidePorts {s u : State} (h : u.besidePorts = s.besidePorts) : u.rim = s.rim :=
  congrArg (fun x : State => ({ x with fields := [], tiles := [], hosts := [], mb := {}, cond := {} } : State)) h

@[simp] theorem State.rim_event (s : State) (src c : Nat) (d : List Nat) : (s.event src c d).rim = s.rim := rim_of_besidePorts (by simp)
@[simp] theorem State.rim_portDown (s : State) (p : Nat) : (s.portDown p).rim = s.rim := rim_of_besidePorts (by simp)
@[simp] theorem State.rim_dockDown (s : State) (f : Nat) : (s.dockDown f).rim = s.rim := rim_of_besidePorts (by simp)
@[simp] theorem State.rim_modField (s : State) (f : Nat) (g : Field → Field) : (s.modField f g).rim = s.rim := (rfl)
/-- An update of the state that puts nothing new into its rim. -/
@[simp] theorem State.rim_update (a : State) (free : Nat) (mesh : Mesh) (mb : Mailbox) (cond : Conductor) (tiles : Tab Tile) (fields : Tab Field)
    (ports : Tab Port) (hosts : Tab HostNode) (scarabQ : Tab (List Ev)) (scarab : Scarab) :
    State.rim ⟨a.pending, a.time, free, a.osc, a.waferId, mesh, mb, cond, a.boot, tiles, fields, ports, a.glow, hosts, a.chassis, a.watch, a.hedge,
      a.flash, scarabQ, scarab⟩ = a.rim := (rfl)
@[simp] theorem State.rim_ite (c : Prop) [Decidable c] (a b : State) : (if c then a else b).rim = if c then a.rim else b.rim := apply_ite ..
@[simp] theorem State.rim_tilesOff (s : State) (f : Nat) : (s.tilesOff f).rim = s.rim := (rfl)
@[simp] theorem State.rim_foldl {α : Type} (g : State → α → State) (l : List α) (s : State) (h : ∀ s x, (g s x).rim = s.rim) :
    (l.foldl g s).rim = s.rim := foldl_keeps State.rim g h l s

@[simp] theorem State.rim_parkCrossings (s : State) (f : Nat) : (s.parkCrossings f).rim = s.rim := by
  refine State.rim_foldl _ _ _ fun u b => ?_
  split <;> rfl

@[simp] theorem State.rim_railsOff (s : State) (f : Nat) (st : PwrSt) (cause : Nat) : (s.railsOff f st cause).rim = s.rim := by
  simp [State.railsOff]

@[simp] theorem State.rim_setOut (s : State) (f kind : Nat) (st : SvcSt) : (s.setOut f kind st).rim = s.rim := (rfl)

@[simp] theorem State.rim_keepLost (s : State) (f : Nat) : (s.keepLost f).rim = s.rim := by
  simp [State.keepLost]

/-- Every field has lost its rails, one after the other. -/
@[irreducible] def State.fieldsGone (s : State) (cause : Nat) : State :=
  (upto 56).foldl (fun s f => ((s.railsOff f .off cause).setOut f 5 .out).keepLost f) s

theorem State.allOff_eq (s : State) (cause : Nat) :
    s.allOff cause = { s.fieldsGone cause with
      mesh := { (s.fieldsGone cause).mesh with flight := [], dead := [] }, mb := { (s.fieldsGone cause).mb with running := false } } := by
  unfold State.allOff State.fieldsGone
  rfl

@[simp] theorem State.rim_fieldsGone (s : State) (cause : Nat) : (s.fieldsGone cause).rim = s.rim := by
  unfold State.fieldsGone
  simp

@[simp] theorem State.rim_allOff (s : State) (cause : Nat) : (s.allOff cause).rim = s.rim := by
  simp [State.allOff_eq]

/-! ## The fields' rails -/

/-- What holds a field FAILED: its two overcurrent latches and its insulation (R337, R353). -/
def Field.latches (fd : Field) : Bool × Bool × Nat := (fd.pwr.coreLatch, fd.pwr.memLatch, fd.pwr.insul)

/-- The fields of u have the power block of s, but that some may be off, with the same latches. -/
structure Unpowers (s u : State) : Prop where
  latches : ∀ f, (u.field f).latches = (s.field f).latches
  off : ∀ f, (s.field f).pwr.state = .off → (u.field f).pwr.state = .off

theorem Unpowers.refl (s : State) : Unpowers s s := ⟨fun _ => rfl, fun _ h => h⟩

theorem Unpowers.trans {s u v : State} (h : Unpowers s u) (k : Unpowers u v) : Unpowers s v :=
  ⟨fun f => (k.latches f).trans (h.latches f), fun f e => k.off f (h.off f e)⟩

theorem Unpowers.of_fields {s u : State} (h : u.fields = s.fields) : Unpowers s u :=
  ⟨fun f => by simp only [State.field, h], fun f e => by simpa only [State.field, h] using e⟩

theorem Unpowers.of_besidePorts {s u : State} (h : u.besidePorts = s.besidePorts) : Unpowers s u := .of_fields (State.fields_of_besidePorts h)

theorem Unpowers.modField (s : State) (f : Nat) (g : Field → Field) (hl : (g (s.field f)).latches = (s.field f).latches)
    (ho : (s.field f).pwr.state = .off → (g (s.field f)).pwr.state = .off) : Unpowers s (s.modField f g) := by
  have at_ : ∀ k, (s.modField f g).field k = if f = k then g (s.field f) else s.field k := fun k => by
    split
    · next e => subst e; simp
    · next e => exact State.field_setField_other _ _ _ _ e
  refine ⟨fun k => ?_, fun k e => ?_⟩
  · rw [at_]
    split
    · next e => subst e; exact hl
    · rfl
  · rw [at_]
    split
    · next i => subst i; exact ho e
    · exact e

theorem Unpowers.foldl {α : Type} (g : State → α → State) (h : ∀ s x, Unpowers s (g s x)) (l : List α) (s : State) : Unpowers s (l.foldl g s) := by
  induction l generalizing s with
  | nil => exact .refl s
  | cons x l ih => exact (h s x).trans (ih _)

theorem Unpowers.parkCrossings (s : State) (f : Nat) : Unpowers s (s.parkCrossings f) := by
  refine .foldl _ (fun u b => ?_) _ s
  split
  · exact (Unpowers.modField _ _ _ rfl id).trans (.modField _ _ _ rfl id)
  · exact .refl u

/-- Rails that go leave their field in the state they are given, with its latches. -/
theorem State.field_railsOff_same (s : State) (f : Nat) (st : PwrSt) (cause : Nat) :
    ((s.railsOff f st cause).field f).pwr.state = st ∧
      ((s.railsOff f st cause).field f).latches = ((((s.portDown f).dockDown f).parkCrossings f).field f).latches := by
  unfold State.railsOff
  split <;> simp [State.tilesOff, State.allTiles, State.field, State.modField, State.setField, Field.latches]

theorem State.field_railsOff_other (s : State) {f k : Nat} (st : PwrSt) (cause : Nat) (h : f ≠ k) :
    (s.railsOff f st cause).field k = (((s.portDown f).dockDown f).parkCrossings f).field k := by
  unfold State.railsOff
  split <;> exact State.field_setField_other _ _ _ _ h

theorem Unpowers.railsOff (s : State) (f cause : Nat) : Unpowers s (s.railsOff f .off cause) := by
  have down : Unpowers s (((s.portDown f).dockDown f).parkCrossings f) :=
    (Unpowers.of_besidePorts (by simp)).trans (.parkCrossings _ f)
  obtain ⟨state, latches⟩ := s.field_railsOff_same f .off cause
  refine down.trans ⟨fun k => ?_, fun k off => ?_⟩ <;> by_cases e : f = k
  · exact e ▸ latches
  · rw [State.field_railsOff_other _ _ _ e]
  · exact e ▸ state
  · rwa [State.field_railsOff_other _ _ _ e]

theorem Unpowers.setOut (s : State) (f kind : Nat) (st : SvcSt) : Unpowers s (s.setOut f kind st) := .modField _ _ _ rfl id

theorem Unpowers.keepLost (s : State) (f : Nat) : Unpowers s (s.keepLost f) := by
  refine .of_fields ?_
  simp only [State.keepLost]
  (repeat' split) <;> simp

theorem Unpowers.fieldGone (s : State) (f cause : Nat) : Unpowers s (((s.railsOff f .off cause).setOut f 5 .out).keepLost f) :=
  ((Unpowers.railsOff s f cause).trans (.setOut _ _ _ _)).trans (.keepLost _ _)

theorem Unpowers.fieldsGone (s : State) (cause : Nat) : Unpowers s (s.fieldsGone cause) := by
  unfold State.fieldsGone
  exact .foldl _ (fun u f => .fieldGone u f cause) _ s

theorem Unpowers.allOff (s : State) (cause : Nat) : Unpowers s (s.allOff cause) := by
  rw [State.allOff_eq]
  exact (Unpowers.fieldsGone s cause).trans (.of_fields rfl)

/-- With every rail gone no field has power. -/
theorem State.allOff_state (s : State) (cause f : Nat) (h : f < 56) : ((s.allOff cause).field f).pwr.state = .off := by
  have each : ((s.fieldsGone cause).field f).pwr.state = .off := by
    unfold State.fieldsGone
    exact foldl_each (P := fun (u : State) f => (u.field f).pwr.state = .off) _
      (fun u f => ((Unpowers.setOut _ _ _ _).trans (.keepLost _ _)).off f ((u.field_railsOff_same f .off cause).1))
      (fun u f k hk => (Unpowers.fieldGone u f cause).off k hk) _ s f (mem_upto.mpr h)
  rw [State.allOff_eq]
  exact each

end Sys2Proof.Machine
end

section
/-! SUPPORT. The power board, the planned shutdown and the release of cold reset: what each leaves and what it brings about. -/

namespace Sys2Proof.Machine

/-! ## The recorder's flash -/

@[simp] theorem State.besidePorts_flashRec (s : State) (r : Rec) : (s.flashRec r).besidePorts = s.besidePorts := by
  simp only [State.flashRec]; split <;> rfl

@[simp] theorem State.besidePorts_scarab (s : State) (k : Scarab) : ({ s with scarab := k } : State).besidePorts = s.besidePorts := (rfl)

@[simp] theorem State.besidePorts_flush (s : State) : s.flush.besidePorts = s.besidePorts := by
  simp [State.flush]

@[simp] theorem State.besidePorts_release (s : State) : s.release.besidePorts = s.besidePorts := by
  unfold State.release; split <;> rfl

theorem State.ram_flashRec (s : State) (r : Rec) : (s.flashRec r).scarab.ram = s.scarab.ram := by
  simp only [State.flashRec]; split <;> rfl

/-- A flush leaves nothing in the RAM buffer. -/
@[simp] theorem State.ram_flush (s : State) : s.flush.scarab.ram = [] :=
  foldl_keeps (fun u : State => u.scarab.ram) State.flashRec State.ram_flashRec s.scarab.ram { s with scarab := { s.scarab with ram := [] } }

/-! ## What stays of the parts beside the ports -/

theorem State.chassis_of_besidePorts {s u : State} (h : u.besidePorts = s.besidePorts) : u.chassis = s.chassis :=
  show u.besidePorts.chassis = s.besidePorts.chassis from congrArg State.chassis h

theorem State.boot_of_besidePorts {s u : State} (h : u.besidePorts = s.besidePorts) : u.boot = s.boot :=
  show u.besidePorts.boot = s.besidePorts.boot from congrArg State.boot h

theorem State.mb_of_besidePorts {s u : State} (h : u.besidePorts = s.besidePorts) : u.mb = s.mb :=
  show u.besidePorts.mb = s.besidePorts.mb from congrArg State.mb h

theorem State.time_of_besidePorts {s u : State} (h : u.besidePorts = s.besidePorts) : u.time = s.time :=
  show u.besidePorts.time = s.besidePorts.time from congrArg State.time h

theorem State.tiles_of_besidePorts {s u : State} (h : u.besidePorts = s.besidePorts) : u.tiles = s.tiles :=
  show u.besidePorts.tiles = s.besidePorts.tiles from congrArg State.tiles h

theorem State.chassis_of_rim {s u : State} (h : u.rim = s.rim) : u.chassis = s.chassis :=
  show u.rim.chassis = s.rim.chassis from congrArg State.chassis h

theorem State.boot_of_rim {s u : State} (h : u.rim = s.rim) : u.boot = s.boot :=
  show u.rim.boot = s.rim.boot from congrArg State.boot h

theorem State.hedge_of_rim {s u : State} (h : u.rim = s.rim) : u.hedge = s.hedge :=
  show u.rim.hedge = s.rim.hedge from congrArg State.hedge h

theorem State.time_of_rim {s u : State} (h : u.rim = s.rim) : u.time = s.time :=
  show u.rim.time = s.rim.time from congrArg State.time h

theorem State.flash_of_rim {s u : State} (h : u.rim = s.rim) : u.flash = s.flash :=
  show u.rim.flash = s.rim.flash from congrArg State.flash h

/-- Whether the board is off is told beside the ports. -/
theorem Unpowered.of_besidePorts {s u : State} (h : u.besidePorts = s.besidePorts) (k : Unpowered s) : Unpowered u := by
  obtain ⟨board, boot, running, off⟩ := k
  refine ⟨?_, ?_, ?_, fun f hf => ?_⟩
  · rw [State.chassis_of_besidePorts h, board]
  · rw [State.boot_of_besidePorts h, boot]
  · rw [State.mb_of_besidePorts h, running]
  · rw [State.field, State.fields_of_besidePorts h]
    exact off f hf

/-- A change of the chassis that leaves the board off. -/
theorem Unpowered.withChassis {u : State} (h : Unpowered u) (c : Chassis) (off : c.board = false) : Unpowered { u with chassis := c } := by
  obtain ⟨-, boot, running, fields⟩ := h
  exact ⟨off, boot, running, fields⟩

/-- A change of the chassis and of Hedgerow that leaves the board off. -/
theorem Unpowered.withInputLost {u : State} (h : Unpowered u) (c : Chassis) (k : Hedge) (off : c.board = false) :
    Unpowered { u with chassis := c, hedge := k } := by
  obtain ⟨-, boot, running, fields⟩ := h
  exact ⟨off, boot, running, fields⟩

/-! ## The board goes -/

/-- The state in which the board goes: nothing but its own flag, start-up and the glow modules' light has changed. -/
def State.boardGone (s : State) : State :=
  { s with chassis := { s.chassis with board := false, goodSince := none }, boot := {}, glow := s.glow.mapVals (fun _ g => min g 1) }

theorem State.boardOff_eq (s : State) (cause : Nat) : s.boardOff cause = s.boardGone.allOff cause := rfl

theorem State.rim_boardOff (s : State) (cause : Nat) : (s.boardOff cause).rim = s.boardGone.rim := by
  rw [State.boardOff_eq, State.rim_allOff]

@[simp] theorem State.chassis_boardOff (s : State) (cause : Nat) :
    (s.boardOff cause).chassis = { s.chassis with board := false, goodSince := none } :=
  State.chassis_of_rim (s.rim_boardOff cause)

@[simp] theorem State.boot_boardOff (s : State) (cause : Nat) : (s.boardOff cause).boot = {} :=
  State.boot_of_rim (s.rim_boardOff cause)

@[simp] theorem State.hedge_boardOff (s : State) (cause : Nat) : (s.boardOff cause).hedge = s.hedge :=
  (State.hedge_of_rim (s.rim_boardOff cause) : _ = s.boardGone.hedge)

@[simp] theorem State.time_boardOff (s : State) (cause : Nat) : (s.boardOff cause).time = s.time :=
  (State.time_of_rim (s.rim_boardOff cause) : _ = s.boardGone.time)

@[simp] theorem State.flash_boardOff (s : State) (cause : Nat) : (s.boardOff cause).flash = s.flash :=
  (State.flash_of_rim (s.rim_boardOff cause) : _ = s.boardGone.flash)

theorem State.unpowered_boardOff (s : State) (cause : Nat) : Unpowered (s.boardOff cause) := by
  refine ⟨by simp, by simp, ?_, fun f hf => ?_⟩
  · rw [State.boardOff_eq, State.allOff_eq]
  · rw [State.boardOff_eq]
    exact s.boardGone.allOff_state cause f hf

theorem Unpowers.boardOff (s : State) (cause : Nat) : Unpowers s (s.boardOff cause) :=
  s.boardOff_eq cause ▸ (Unpowers.of_fields rfl : Unpowers s s.boardGone).trans (.allOff s.boardGone cause)

/-! ## The planned shutdown (R499) -/

theorem State.shutdown_spec (s : State) : Unpowered s.shutdown ∧ s.shutdown.scarab.ram = [] := by
  unfold State.shutdown
  exact ⟨.of_besidePorts (State.besidePorts_flush _) ((State.unpowered_boardOff _ 1).withChassis _ (by simp)), State.ram_flush _⟩

end Sys2Proof.Machine
end

section
/-! SUPPORT. The release of cold reset, and when the board starts. -/

namespace Sys2Proof.Machine

/-! ## Parts that a port's waking and a step of start-up leave -/

@[simp] theorem State.portWake_fields (s : State) (p : Nat) : (s.portWake p).fields = s.fields := fields_of_besidePorts (by simp)
@[simp] theorem State.portWake_tiles (s : State) (p : Nat) : (s.portWake p).tiles = s.tiles := tiles_of_besidePorts (by simp)
@[simp] theorem State.portWake_chassis (s : State) (p : Nat) : (s.portWake p).chassis = s.chassis := chassis_of_besidePorts (by simp)
@[simp] theorem State.portWake_boot (s : State) (p : Nat) : (s.portWake p).boot = s.boot := boot_of_besidePorts (by simp)
@[simp] theorem State.portWake_mb (s : State) (p : Nat) : (s.portWake p).mb = s.mb := mb_of_besidePorts (by simp)
@[simp] theorem State.portWake_time (s : State) (p : Nat) : (s.portWake p).time = s.time := time_of_besidePorts (by simp)
@[simp] theorem State.portWake_mesh (s : State) (p : Nat) : (s.portWake p).mesh = s.mesh := by
  simp only [State.portWake]; split <;> rfl

@[simp] theorem State.bootTo_fields (s : State) (k : Nat) : (s.bootTo k).fields = s.fields := by unfold State.bootTo; split <;> simp
@[simp] theorem State.bootTo_tiles (s : State) (k : Nat) : (s.bootTo k).tiles = s.tiles := by unfold State.bootTo; split <;> simp
@[simp] theorem State.bootTo_chassis (s : State) (k : Nat) : (s.bootTo k).chassis = s.chassis := by unfold State.bootTo; split <;> simp
@[simp] theorem State.bootTo_time (s : State) (k : Nat) : (s.bootTo k).time = s.time := by unfold State.bootTo; split <;> simp
@[simp] theorem State.bootTo_mesh (s : State) (k : Nat) : (s.bootTo k).mesh = s.mesh := by unfold State.bootTo; split <;> simp
@[simp] theorem State.bootTo_mb (s : State) (k : Nat) : (s.bootTo k).mb = s.mb := by unfold State.bootTo; split <;> simp

/-- A step of start-up moves the step and the tick it began, and nothing else of start-up. -/
theorem State.boot_bootTo (s : State) (k : Nat) : ∃ since, (s.bootTo k).boot = { s.boot with step := k, since := since } := by
  unfold State.bootTo
  split
  · next e => exact ⟨s.boot.since, by rw [← e]⟩
  · exact ⟨s.time, by simp⟩

@[simp] theorem State.step_bootTo (s : State) (k : Nat) : (s.bootTo k).boot.step = k := by
  obtain ⟨_, e⟩ := s.boot_bootTo k; rw [e]
@[simp] theorem State.kind_bootTo (s : State) (k : Nat) : (s.bootTo k).boot.kind = s.boot.kind := by
  obtain ⟨_, e⟩ := s.boot_bootTo k; rw [e]
@[simp] theorem State.complete_bootTo (s : State) (k : Nat) : (s.bootTo k).boot.complete = s.boot.complete := by
  obtain ⟨_, e⟩ := s.boot_bootTo k; rw [e]

/-! ## The release of cold reset (R26 step 3) -/

@[simp] theorem State.chassis_coldReset (s : State) :
    s.coldReset.chassis = { s.chassis with board := true, busStopped := false, heldOff := false, restartAt := none, resetHeld := false } := by
  simp [State.coldReset]

theorem State.fields_coldReset (s : State) :
    s.coldReset.fields = (upto 56).map fun f => (f, (s.field f).cold f (s.flash.regions.getD 3 {}) (s.flash.regions.getD 4 {})) := by
  simp [State.coldReset]

/-- A field that nothing holds FAILED comes out of cold reset powered where it is a keep field. -/
theorem Field.state_cold {fd : Field} (h : fd.latches.1 = false ∧ fd.latches.2.1 = false ∧ fd.latches.2.2 ≠ 2) (f : Nat) (fc tile : Img) :
    (fd.cold f fc tile).pwr.state = if isKeep f then .idle else .off := by
  obtain ⟨core, mem, insul⟩ := h
  simp only [Field.latches] at core mem insul
  simp [Field.cold, core, mem, insul]

theorem State.coldStarted_coldReset (s : State) : ColdStarted s s.coldReset := by
  refine ⟨by simp, by simp [State.coldReset], by simp [State.coldReset], by simp [State.coldReset], by simp [State.coldReset],
    by simp [State.coldReset], fun f hf core mem insul => ?_⟩
  rw [State.field, State.fields_coldReset, Tab.getD_map_upto _ _ hf]
  exact Field.state_cold ⟨core, mem, insul⟩ f _ _

/-- What has started from fields with the same latches has started. -/
theorem ColdStarted.of_latches {s w u : State} (h : ∀ f, (w.field f).latches = (s.field f).latches) (k : ColdStarted w u) : ColdStarted s u := by
  obtain ⟨board, time, kind, step, complete, tiles, fields⟩ := k
  refine ⟨board, time, kind, step, complete, tiles, fun f hf core mem insul => ?_⟩
  have same := h f
  simp only [Field.latches, Prod.mk.injEq] at same
  obtain ⟨c, m, i⟩ := same
  exact fields f hf (c.trans core) (m.trans mem) (i ▸ insul)

/-! ## When the board starts -/

/-- The power inputs ask for the engine and nothing of the board's own holds it back. -/
structure Chassis.Ready (c : Chassis) : Prop where
  pwrEn : c.pwrEn = true
  stbyGood : c.stbyGood = true
  board : c.board = false
  restartAt : c.restartAt = none
  shutdown : c.shutdown = none
  resetHeld : c.resetHeld = false

theorem State.tryStart_of_startable {s : State} (h : Startable s) (r : s.chassis.Ready) : s.tryStart = s.coldReset := by
  obtain ⟨up, input, heldOff, busStopped, regions⟩ := h
  simp [State.tryStart, up, input, heldOff, busStopped, regions, r.pwrEn, r.stbyGood, r.board, r.restartAt, r.shutdown, r.resetHeld]

/-- A chassis that lets the engine start starts it. -/
theorem State.coldStarted_tryStart {s : State} {k : Chassis} (h : Startable { s with chassis := k }) (r : k.Ready) :
    ColdStarted s ({ s with chassis := k } : State).tryStart := by
  rw [State.tryStart_of_startable h r]
  exact State.coldStarted_coldReset { s with chassis := k }

/-- A command that changes the chassis so that nothing holds the engine back, and then starts the board. -/
theorem Does.of_tryStart {c : Instr} {s : State} {k : Chassis} {P : State → Prop} (e : exec c s = .next ({ s with chassis := k } : State).tryStart)
    (h : Startable { s with chassis := k }) (r : k.Ready)
    (hp : ∀ u, ColdStarted s u →
      u.chassis = { k with board := true, busStopped := false, heldOff := false, restartAt := none, resetHeld := false } → P u) : Does c s P := by
  refine .of_next e (hp _ (State.coldStarted_tryStart h r) ?_)
  rw [State.tryStart_of_startable h r, State.chassis_coldReset]

/-- Without power-enable the board does not start. -/
theorem State.tryStart_of_pwrEn {s : State} (h : s.chassis.pwrEn = false) : s.tryStart = s := by
  simp [State.tryStart, h]

end Sys2Proof.Machine
end

section
/-! PROOFS. Chassis inputs and the power board (O11). -/

namespace Sys2Proof.Machine

theorem does_inputPowerApplied {s : State} (mv : Nat) (bad : List Nat) (off : s.chassis.input = false) (least : 40000 ≤ mv) (most : mv ≤ 72000)
    (own : 1 ∉ bad) : Does (.inputPowerApplied mv bad) s (fun u => u.chassis.input = true ∧ u.hedge.up = true ∧ u.hedgeNow = 0) := by
  refine .of_next rfl ?_
  simp [off, within, least, most, own, State.hedgeStart, State.verify, State.profilesDue, State.hedgeNow]

theorem does_powerEnable {s : State} (h : Startable s) (board : s.chassis.board = false) (shutdown : s.chassis.shutdown = none)
    (held : s.chassis.resetHeld = false) (at_ : s.chassis.restartAt = none) :
    Does .powerEnable s (fun u => u.chassis.pwrEn = true ∧ u.chassis.stbyGood = true ∧ ColdStarted s u) := by
  obtain ⟨up, input, heldOff, busStopped, regions⟩ := h
  exact .of_tryStart rfl ⟨up, input, by simp [heldOff], busStopped, regions⟩ ⟨rfl, rfl, board, at_, shutdown, held⟩
    fun u started e => ⟨by rw [e], by rw [e], started⟩

/-- Power-enable withdrawn from a board that is on (R33, R497, R499). -/
theorem State.powerWithdrawn_spec {s : State} (resp : Nat) (on : s.chassis.board = true) :
    (s.boot.complete = false → Unpowered (s.powerWithdrawn resp)) ∧
    (s.boot.complete = true → s.mb.running = true → Unpowered (s.powerWithdrawn resp) ∧ (s.powerWithdrawn resp).scarab.ram = []) ∧
    (s.boot.complete = true → s.mb.running = false →
      (s.powerWithdrawn resp).chassis.board = true ∧ (s.powerWithdrawn resp).chassis.shutdown = some s.hedgeNow) := by
  refine ⟨fun abandoned => ?_, fun complete running => ?_, fun complete silent => ?_⟩
  · simp [State.powerWithdrawn, on, abandoned, State.unpowered_boardOff]
  · simp [State.powerWithdrawn, on, complete, running, State.shutdown_spec]
  · simp [State.powerWithdrawn, on, complete, silent, State.hedgeNow]

/-- Either power input falls while the engine has both (R497). -/
theorem exec_powerFall {s : State} {c : Instr} (h : c = .pwrEnFall ∧ s.chassis.pwrEn = true ∨
      c = .stbyGoodFall ∧ s.chassis.pwrEn = true ∧ s.chassis.stbyGood = true) :
    ∃ k resp, exec c s = .next (({ s with chassis := k } : State).powerWithdrawn resp) ∧ k.board = s.chassis.board := by
  obtain ⟨rfl, en⟩ | ⟨rfl, en, good⟩ := h
  · exact ⟨_, respPowerEnable, congrArg Host.Outcome.next (if_pos en), rfl⟩
  · exact ⟨_, respStandbyGood, congrArg Host.Outcome.next (if_pos ⟨good, en⟩), rfl⟩

theorem does_shutdownConductorTimeout {s : State} (p : Nat) (at_ : s.chassis.shutdown = some p) (due : p + 250000 ≤ s.hedgeNow)
    (en : s.chassis.pwrEn = false) :
    Does .shutdownConductorTimeout s (fun u => Unpowered u ∧ u.chassis.shutdown = none ∧ u.scarab.ram = []) := by
  refine .of_next rfl ?_
  have kept : ∀ w : State, w.chassis.pwrEn = false → w.flush.tryStart = w.flush := fun w e =>
    State.tryStart_of_pwrEn (by rw [State.chassis_of_besidePorts w.besidePorts_flush, e])
  simp only [at_, due, if_true]
  rw [kept _ (by simp [en])]
  refine ⟨.of_besidePorts (State.besidePorts_flush _) ((s.unpowered_boardOff 1).withChassis _ (by simp)), ?_, State.ram_flush _⟩
  rw [State.chassis_of_besidePorts (State.besidePorts_flush _)]

theorem does_coldRestartTimer {s : State} (t : Nat) (h : Startable s) (at_ : s.chassis.restartAt = some t) (due : t ≤ s.hedgeNow)
    (en : s.chassis.pwrEn = true) (good : s.chassis.stbyGood = true) (board : s.chassis.board = false) (shutdown : s.chassis.shutdown = none)
    (held : s.chassis.resetHeld = false) : Does .coldRestartTimer s (ColdStarted s) := by
  have run : exec .coldRestartTimer s = .next ({ s with chassis := { s.chassis with restartAt := none } } : State).tryStart :=
    congrArg Host.Outcome.next (by simp only [at_, due, if_true])
  exact .of_tryStart run h ⟨en, good, board, rfl, shutdown, held⟩ fun u started _ => started

theorem does_busRestart {s : State} (t : Nat) (up : s.hedge.up = true) (input : s.chassis.input = true) (heldOff : s.chassis.heldOff = false)
    (regions : s.regionsOk = true) (stopped : s.chassis.busStopped = true) (since : s.chassis.goodSince = some t) (due : t + 25000000 ≤ s.hedgeNow)
    (en : s.chassis.pwrEn = true) (good : s.chassis.stbyGood = true) (board : s.chassis.board = false) (shutdown : s.chassis.shutdown = none)
    (held : s.chassis.resetHeld = false) (at_ : s.chassis.restartAt = none) : Does .busRestart s (ColdStarted s) := by
  have run : exec .busRestart s = .next ({ s with chassis := { s.chassis with busStopped := false } } : State).tryStart :=
    congrArg Host.Outcome.next (by simp only [since, stopped, en, due, and_self, if_true])
  exact .of_tryStart run ⟨up, input, heldOff, rfl, regions⟩ ⟨en, good, board, at_, shutdown, held⟩ fun u started _ => started

theorem does_standbyInputLoss {s : State} (input : s.chassis.input = true) :
    Does .standbyInputLoss s (fun u => u.chassis.input = false ∧ u.hedge.up = false ∧ (s.chassis.board = true → Unpowered u) ∧
      (s.hedge.up = true → u.scarab.ram = [])) := by
  refine .of_next rfl ?_
  simp only [input, if_true, true_and]
  refine ⟨fun on => ?_, fun up => ?_⟩
  · have off := s.unpowered_boardOff 5
    simp only [on, if_true]
    refine Unpowered.withInputLost (u := if (s.boardOff 5).hedge.up = true then (s.boardOff 5).release.flush else s.boardOff 5) ?_ _ _ ?_
    · split
      · exact off.of_besidePorts (by simp)
      · exact off
    · split
      · simp [State.chassis_of_besidePorts (State.besidePorts_flush _), State.chassis_of_besidePorts (State.besidePorts_release _)]
      · simp
  · have still : (if s.chassis.board then s.boardOff 5 else s).hedge.up = true := by
      split
      · simp [up]
      · exact up
    simp [still]

/-- Settles O11: each input and timer by its own lemma. -/
theorem powerInputsAct : Obligations.PowerInputsAct := by
  intro s
  refine ⟨fun mv bad off least most own => does_inputPowerApplied mv bad off least most own,
    fun h board shutdown held at_ => does_powerEnable h board shutdown held at_, fun c h on => ?fall,
    fun p at_ due en => does_shutdownConductorTimeout p at_ due en, fun low => .of_next rfl rfl,
    fun t h at_ due en good board shutdown held => does_coldRestartTimer t h at_ due en good board shutdown held,
    fun t up input heldOff regions stopped since due en good board shutdown held at_ =>
      does_busRestart t up input heldOff regions stopped since due en good board shutdown held at_,
    does_standbyInputLoss⟩
  case fall =>
    obtain ⟨k, resp, run, same⟩ := exec_powerFall h
    obtain ⟨abandoned, planned, waits⟩ := State.powerWithdrawn_spec (s := { s with chassis := k }) resp (same.trans on)
    exact ⟨fun e => .of_next run (abandoned e), fun e running => .of_next run (planned e running), fun e silent => .of_next run (waits e silent)⟩

end Sys2Proof.Machine
end

section
/-! SUPPORT. Hedgerow's own events in the recorder, and the steps of a warm reset. -/

namespace Sys2Proof.Machine

/-- A record that passes the rate limit into a buffer with room is in the buffer (R469, R470). -/
theorem Scarab.mem_accept {k : Scarab} {now : Nat} {e : Ev} (passes : k.admits e.code now = true) (room : k.ram.length < 16384) :
    ∃ r ∈ (k.accept now e).ram, r.ev = e := by
  refine ⟨{ ev := e, suppressed := k.suppressed.getD e.code 0 }, ?_, rfl⟩
  simp only [Scarab.accept, passes, if_true]
  split <;> simp [Nat.not_le.mpr room]

/-- An event that finds room where it is written is held there (R454, R469, R470). -/
theorem State.writes_event (s : State) (src c : Nat) (d : List Nat) : Writes s (s.event src c d) src c d := by
  intro room
  unfold CanLog at room
  by_cases own : src = srcHedgerow
  · rw [if_pos own] at room
    obtain opening | ⟨passes, space⟩ := room
    · exact .inl (by simp [State.event, own, opening])
    · cases opening : s.scarab.opening with
      | true => exact .inl (by simp [State.event, own, opening])
      | false =>
        refine .inr (.inl ?_)
        simpa [State.event, own, opening] using Scarab.mem_accept (e := { code := c, time := s.time, src := srcHedgerow, detail := d }) passes space
  · rw [if_neg own] at room
    exact .inr (.inr ⟨_, s.mem_queue_event src c d own room⟩)

/-! ## Step 1 of a warm reset (R370) -/

theorem State.portState_of_outline {s u : State} (h : u.outline = s.outline) (p : Nat) : (u.port p).state = (s.port p).state :=
  congrFun (congrArg Outline.portState h) p

/-- A port that drops goes to the state it is given; no other port's state moves. -/
theorem State.portState_portDrop (s : State) (p next cause q : Nat) :
    ((s.portDrop p next cause).port q).state = if p = q then next else (s.port q).state := by
  have moved : ∀ v : Port, v.state = next → ((s.setPort p v).port q).state = if p = q then next else (s.port q).state := fun v hv => by
    split
    · next e => subst e; rw [State.port_setPort, hv]
    · next e => rw [State.port_setPort_other _ _ _ _ e]
  simp only [State.portDrop]
  split
  · rw [State.portState_of_outline (State.outline_event ..), State.portState_of_outline (State.outline_foldl _ _ _ fun u x => State.outline_loseFrame u _ x _)]
    exact moved _ rfl
  · exact moved _ rfl

theorem State.portState_portDown (s : State) (p q : Nat) : ((s.portDown p).port q).state = if p = q then 0 else (s.port q).state := by
  unfold State.portDown
  split
  · next off =>
    split
    · next e => subst e; exact off
    · rfl
  · exact s.portState_portDrop p 0 causeDown q

/-- Every port down, one after the other. -/
@[irreducible] def State.portsDown (s : State) : State := (upto 56).foldl State.portDown s

@[simp] theorem State.besidePorts_portsDown (s : State) : s.portsDown.besidePorts = s.besidePorts := by
  unfold State.portsDown
  simp

theorem State.portState_portsDown (s : State) (p : Nat) (h : p < 56) : (s.portsDown.port p).state = 0 := by
  unfold State.portsDown
  refine foldl_each (P := fun (u : State) p => (u.port p).state = 0) State.portDown (fun u p => ?_) (fun u p q hq => ?_) _ s p (mem_upto.mpr h)
  · simp [State.portState_portDown]
  · rw [State.portState_portDown, hq, ite_self]

/-- The state in which a warm reset begins its step 1. -/
def State.warmBegun (s : State) : State :=
  ({ s with boot := { s.boot with kind := 2, step := 0, wave := 0, waveAt := 0, stopAt := boundaryFrom (s.time + 4) } } : State).bootTo 1

theorem State.startWarm_eq (s : State) : s.startWarm =
    s.warmBegun.portsDown.allTiles (fun _ tl => if tl.inService then { tl with core := { tl.core with halted := true } } else tl) := by
  unfold State.startWarm State.warmBegun State.portsDown
  rfl

/-- A tile in service halts, any other stays. -/
theorem State.halted_allTiles (s : State) (t : TileId)
    (on : ((s.allTiles fun _ tl => if tl.inService then { tl with core := { tl.core with halted := true } } else tl).tile t).inService = true) :
    ((s.allTiles fun _ tl => if tl.inService then { tl with core := { tl.core with halted := true } } else tl).tile t).core.halted = true := by
  simp only [State.tile, State.allTiles, Tab.getD, Tab.find_mapVals] at on ⊢
  cases e : Tab.find s.tiles (tileKey t) with
  | none => simp [e, Tile.inService] at on
  | some tl =>
    simp only [e, Option.map_some, Option.getD_some] at on ⊢
    split at on
    · next serves => simp [serves]
    · next idle => exact absurd on idle

theorem State.warmStarted_startWarm (s : State) : WarmStarted s.startWarm := by
  rw [State.startWarm_eq]
  have boot : s.warmBegun.portsDown.boot = s.warmBegun.boot := boot_of_besidePorts (by simp)
  refine ⟨?_, ?_, fun p hp => s.warmBegun.portState_portsDown p hp, fun t on => State.halted_allTiles _ t on⟩
  · exact (congrArg Boot.kind boot).trans (by simp [State.warmBegun])
  · exact (congrArg Boot.step boot).trans (by simp [State.warmBegun])

@[simp] theorem State.chassis_startWarm (s : State) : s.startWarm.chassis = s.chassis := by
  rw [State.startWarm_eq]
  exact (chassis_of_besidePorts s.warmBegun.besidePorts_portsDown).trans (by simp [State.warmBegun])

end Sys2Proof.Machine
end

section
/-! SUPPORT. Step 4 of a warm reset: what the controllers keep as they restart (R370, R371). -/

namespace Sys2Proof.Machine

/-- Parking crossings touches neither the power nor the memory block of any field. -/
theorem State.field_parkCrossings (s : State) (f k : Nat) :
    ((s.parkCrossings f).field k).pwr = (s.field k).pwr ∧ ((s.parkCrossings f).field k).mem = (s.field k).mem := by
  have xing : ∀ (u : State) (b : Nat) (g : Nat) (x : Xing → Xing),
      ((u.modXing g b x).field k).pwr = (u.field k).pwr ∧ ((u.modXing g b x).field k).mem = (u.field k).mem := fun u b g x => by
    by_cases e : g = k
    · subst e; simp [State.modXing]
    · simp [State.modXing, State.modField, State.field_setField_other _ _ _ _ e]
  have same := foldl_keeps (fun u : State => ((u.field k).pwr, (u.field k).mem))
    (fun u b => match fieldAcross f b with
      | some g => (u.modXing f b Xing.park).modXing g (facing b) Xing.park
      | none => u)
    (fun u b => by
      split
      · simp [xing]
      · rfl) (upto 4) s
  exact Prod.ext_iff.mp same

/-- Compute clocks stop: the crossings of every running compute field park. -/
@[irreducible] def State.clocksStopped (s : State) : State :=
  (upto 56).foldl (fun s f => if isCompute f && (s.field f).running then s.parkCrossings f else s) s

theorem State.field_clocksStopped (s : State) (k : Nat) :
    (s.clocksStopped.field k).pwr = (s.field k).pwr ∧ (s.clocksStopped.field k).mem = (s.field k).mem := by
  have same := foldl_keeps (fun u : State => ((u.field k).pwr, (u.field k).mem))
    (fun u f => if isCompute f && (u.field f).running then u.parkCrossings f else u)
    (fun u f => by
      split
      · simp [State.field_parkCrossings]
      · rfl) (upto 56) s
  unfold State.clocksStopped
  simp only [Prod.mk.injEq] at same
  exact same

@[simp] theorem State.fields_rebootHosts (s : State) : s.rebootHosts.fields = s.fields :=
  foldl_keeps State.fields _ (fun u j => by split <;> rfl) _ s
@[simp] theorem State.mesh_rebootHosts (s : State) : s.rebootHosts.mesh = s.mesh :=
  foldl_keeps State.mesh _ (fun u j => by split <;> rfl) _ s
@[simp] theorem State.mb_rebootHosts (s : State) : s.rebootHosts.mb = s.mb :=
  foldl_keeps State.mb _ (fun u j => by split <;> rfl) _ s

/-- The controllers restart with an empty mesh and no conductor. -/
theorem State.warmClear_spec (s : State) : s.warmClear.mesh = {} ∧ s.warmClear.mb.running = false := by
  simp [State.warmClear]

/-- What a warm reset keeps of a compute field. -/
theorem State.field_warmClear (s : State) {f : Nat} (h : f < 56) (ne : f ≠ 0) : s.warmClear.field f = (s.field f).warm (isKeep f) := by
  simp only [State.warmClear, State.drainQueues, List.foldl_cons, List.foldl_nil]
  simp only [State.field, State.portWake_fields, State.fields_rebootHosts, State.modField, State.setField]
  rw [Tab.getD_put_other _ _ _ _ _ (Ne.symm ne), Tab.getD_map_upto _ _ h]

/-- A compute field with the power of one that runs goes to retention. -/
theorem Field.state_warm {fd g : Field} (on : g.running = true) (pwr : fd.pwr = g.pwr) : (fd.warm false).pwr.state = .retain := by
  simp only [Field.warm, pwr]
  cases e : g.pwr.state <;> simp_all [Field.running]

end Sys2Proof.Machine
end

section
/-! PROOFS. Resets and the watch over silent conductors (O12). -/

namespace Sys2Proof.Machine

theorem does_modResetFall {s : State} (high : s.chassis.modReset = false) (settled : ∀ t, s.chassis.releasedAt = some t → t + 250 ≤ s.hedgeNow)
    (on : s.chassis.board = true) (shutdown : s.chassis.shutdown = none) :
    (s.boot.complete = true → s.boot.kind = 0 → Does .modResetFall s (fun u => u.chassis.modReset = true ∧ WarmStarted u)) ∧
    (s.boot.complete = false → Does .modResetFall s (fun u => Unpowered u ∧ u.chassis.resetHeld = true)) := by
  have pass : s.chassis.releasedAt = none ∨ ∃ t, s.chassis.releasedAt = some t ∧ t + 250 ≤ s.hedgeNow := by
    cases e : s.chassis.releasedAt with
    | none => exact .inl rfl
    | some t => exact .inr ⟨t, rfl, settled t e⟩
  refine ⟨fun complete kind => .of_next rfl ?_, fun abandoned => .of_next rfl ?_⟩
  · obtain e | ⟨t, e, past⟩ := pass <;>
      simp [*, State.warmOk, State.warmStarted_startWarm]
  · obtain e | ⟨t, e, past⟩ := pass <;>
    · simp only [*]
      exact ⟨(State.unpowered_boardOff _ 1).withChassis _ (by simp), rfl⟩

/-- A start of the board changes nothing of the module reset. -/
theorem State.reset_tryStart (s : State) : s.tryStart.chassis.modReset = s.chassis.modReset ∧ s.tryStart.chassis.releasedAt = s.chassis.releasedAt := by
  simp only [State.tryStart]
  split <;> simp

theorem does_modResetRelease {s : State} (low : s.chassis.modReset = true) :
    Does .modResetRelease s (fun u => u.chassis.modReset = false ∧ u.chassis.releasedAt = some s.hedgeNow ∧
      (Startable s → s.chassis.pwrEn = true → s.chassis.stbyGood = true → s.chassis.board = false → s.chassis.shutdown = none →
        s.chassis.restartAt = none → ColdStarted s u)) := by
  obtain ⟨reset, released⟩ := State.reset_tryStart { s with chassis := { s.chassis with modReset := false, resetHeld := false, releasedAt := some s.hedgeNow } }
  refine .of_next (congrArg Host.Outcome.next (if_pos low)) ⟨reset, released, fun h en good board shutdown at_ => ?_⟩
  exact State.coldStarted_tryStart h ⟨en, good, board, at_, shutdown, rfl⟩

theorem does_warmReset_warm {s : State} (c : WarmCause) (ok : s.warmOk = true) : Does (.warmReset c 0) s WarmStarted := by
  refine .of_next rfl ?_
  simp [ok, State.warmStarted_startWarm]

theorem does_warmReset_cold {s : State} (c : WarmCause) (cold : Nat) (ok : s.warmOk = true) (hc : cold ≠ 0) (h : Startable s)
    (en : s.chassis.pwrEn = true) (good : s.chassis.stbyGood = true) (held : s.chassis.resetHeld = false) (at_ : s.chassis.restartAt = none) :
    Does (.warmReset c cold) s (ColdStarted s) := by
  obtain ⟨up, input, heldOff, busStopped, regions⟩ := h
  have shutdown : s.chassis.shutdown = none := by
    simp only [State.warmOk, Bool.and_eq_true] at ok
    simpa using ok.2
  have start : Startable ((s.event srcConductor 0x0D85 [0xFF, cold]).boardOff 1) := by
    simpa [Startable, State.regionsOk, up, input, heldOff, busStopped] using regions
  have ready : ((s.event srcConductor 0x0D85 [0xFF, cold]).boardOff 1).chassis.Ready := by
    constructor <;> simp [*]
  refine .of_next (congrArg Host.Outcome.next ((if_neg (by simp [ok])).trans (if_neg hc))) ?_
  rw [State.tryStart_of_startable start ready]
  refine (State.coldStarted_coldReset _).of_latches fun f => ?_
  exact ((Unpowers.of_fields (s.event_fields ..)).trans (.boardOff _ 1)).latches f

theorem does_injectionStop {s : State} (kind : s.boot.kind = 2) (step : s.boot.step = 1) (due : s.boot.stopAt ≤ s.time) :
    Does .warmResetInjectionStop s (fun u => u.mesh.paused = true ∧ u.boot.step = 2) := by
  refine .of_next (congrArg Host.Outcome.next (if_pos ⟨kind, step, due⟩)) ?_
  simp

theorem does_warmRestart {s : State} (kind : s.boot.kind = 2) (step : s.boot.step = 2) (due : s.boot.stopAt + 256 ≤ s.time) :
    Does .warmResetInjectionStop s (fun u => u.boot.step = 4 ∧ u.mesh.flight = [] ∧ u.mb.running = false ∧
      ∀ f, f < 56 → isCompute f = true → (s.field f).running = true →
        (u.field f).pwr.state = .retain ∧ (u.field f).mem.profiles = (s.field f).mem.profiles) := by
  have run : exec .warmResetInjectionStop s = .next ((s.bootTo 3).clocksStopped.warmClear.bootTo 4) := by
    refine congrArg Host.Outcome.next ((if_neg (by simp [step])).trans ((if_pos ⟨kind, step, due⟩).trans ?_))
    unfold State.clocksStopped
    rfl
  obtain ⟨mesh, running⟩ := (s.bootTo 3).clocksStopped.warmClear_spec
  refine .of_next run ⟨by simp, by simp [mesh], by simp [running], fun f hf comp on => ?_⟩
  have plain : isKeep f = false := by
    simp only [isCompute, Bool.and_eq_true, Bool.not_eq_true'] at comp
    exact comp.2
  have ne : f ≠ 0 := fun e => by subst e; cases plain
  obtain ⟨pwr, mem⟩ := (s.bootTo 3).field_clocksStopped f
  have before : (s.bootTo 3).field f = s.field f := by simp [State.field]
  have after : (((s.bootTo 3).clocksStopped.warmClear.bootTo 4).field f) = ((s.bootTo 3).clocksStopped.field f).warm false := by
    rw [← plain, ← State.field_warmClear _ hf ne]
    simp [State.field]
  rw [before] at pwr mem
  rw [after]
  exact ⟨Field.state_warm on pwr, (congrArg FieldMem.profiles mem :)⟩

theorem does_conductorSilenceCheck {s : State} (up : s.hedge.up = true) (on : s.chassis.board = true) (silent : s.cond.silent = none)
    (due : s.lastBeat + 25000000 ≤ s.time) :
    Does .conductorSilenceCheck s (fun u => u.cond.silent = some s.time ∧ ∃ act, Writes s u srcHedgerow 0x0F8F [s.time - s.lastBeat, act]) := by
  refine .of_next (congrArg Host.Outcome.next (if_pos (by simp [up, on, silent, due]))) ?_
  exact ⟨by simp, _, State.writes_event { s with cond := { s.cond with silent := some s.time, silentSeen := true } } _ _ _⟩

/-- A conductor that stays silent past the second bound (R24). -/
structure Mute (s : State) (t : Nat) : Prop where
  silent : s.cond.silent = some t
  up : s.hedge.up = true
  on : s.chassis.board = true
  acts : s.hedge.cfg.silenceReset = true
  due : t + 100000000 ≤ s.time
  beat : s.lastBeat ≤ t

theorem Mute.passes {s : State} {t : Nat} (h : Mute s t) :
    (!(s.hedge.up && s.chassis.board && s.hedge.cfg.silenceReset && decide (t + 100000000 ≤ s.time) && decide (s.lastBeat ≤ t))) = false := by
  simp [h.up, h.on, h.acts, h.due, h.beat]

theorem does_conductorSilenceAction_warm {s : State} {t : Nat} (h : Mute s t) (ok : s.warmOk = true) : Does .conductorSilenceAction s WarmStarted := by
  have complete : s.boot.complete = true := by
    simp only [State.warmOk, Bool.and_eq_true] at ok
    exact ok.1.1.1
  have still : ({ s with cond := { s.cond with silent := none } } : State).warmOk = true := ok
  refine .of_next rfl ?_
  simp only [h.silent, h.passes, complete, still]
  exact State.warmStarted_startWarm _

theorem does_conductorSilenceAction_cold {s : State} {t : Nat} (h : Mute s t) (abandoned : s.boot.complete = false) (few : s.chassis.restarts < 3) :
    Does .conductorSilenceAction s (fun u => Unpowered u ∧ u.chassis.restarts = s.chassis.restarts + 1 ∧
      u.chassis.restartAt = some (s.hedgeNow + 50000000)) := by
  refine .of_next rfl ?_
  simp only [h.silent, h.passes, abandoned, few]
  refine ⟨(State.unpowered_boardOff _ 1).withChassis _ (by simp), ?_, ?_⟩
  · simp [State.boardPause]
  · simp [State.boardPause, State.hedgeNow]

theorem does_conductorSilenceAction_held {s : State} {t : Nat} (h : Mute s t) (abandoned : s.boot.complete = false) (many : 3 ≤ s.chassis.restarts) :
    Does .conductorSilenceAction s (fun u => Unpowered u ∧ u.chassis.heldOff = true) := by
  refine .of_next rfl ?_
  simp only [h.silent, h.passes, abandoned, Nat.not_lt.mpr many]
  exact ⟨(State.unpowered_boardOff _ 1).withChassis _ (by simp), rfl⟩

/-- Settles O12: each reset and each bound of the watch by its own lemma. -/
theorem resetsRunTheirSequence : Obligations.ResetsRunTheirSequence := by
  intro s
  refine ⟨fun high settled on shutdown => does_modResetFall high settled on shutdown, fun low => does_modResetRelease low,
    fun c cold ok => ⟨fun e => e ▸ does_warmReset_warm c ok, fun hc h en good held at_ => does_warmReset_cold c cold ok hc h en good held at_⟩,
    fun kind step due => does_injectionStop kind step due, fun kind step due => does_warmRestart kind step due,
    fun up on silent due => does_conductorSilenceCheck up on silent due, fun t silent up on acts due beat => ?_⟩
  have mute : Mute s t := ⟨silent, up, on, acts, due, beat⟩
  exact ⟨does_conductorSilenceAction_warm mute, does_conductorSilenceAction_cold mute, does_conductorSilenceAction_held mute⟩

end Sys2Proof.Machine
end

section
/-! SUPPORT. Steps over single tiles and fields: what each changes of one view of its own, and what of the others. -/

namespace Sys2Proof.Machine

theorem mem_insertNat {a x : Nat} (l : List Nat) : x ∈ insertNat l a ↔ x = a ∨ x ∈ l := by
  induction l with
  | nil => simp [insertNat]
  | cons b l ih =>
    unfold insertNat
    split
    · next h => simp_all
    · split <;> simp_all [or_left_comm]

/-- Of a list without an element that p takes, an insertion leaves p the new element alone. -/
theorem filter_insertNat {p : Nat → Bool} {a : Nat} (hp : p a = true) (l : List Nat) (h : l.filter p = []) : (insertNat l a).filter p = [a] := by
  induction l with
  | nil => simp [insertNat, hp]
  | cons b l ih =>
    have hb : p b ≠ true := List.filter_eq_nil_iff.mp h b (by simp)
    have hl : l.filter p = [] := by simpa [List.filter_cons, hb] using h
    unfold insertNat
    split
    · next e => exact absurd (by simpa [← show a = b by simpa using e] using hp) hb
    · split <;> simp [hp, hb, hl, ih hl]

theorem Tab.mem_put {α : Type} (t : Tab α) (i : Nat) (a : α) : (i, a) ∈ t.put i a := by
  induction t with
  | nil => simp [Tab.put]
  | cons e t ih =>
    obtain ⟨k, v⟩ := e
    unfold Tab.put
    split
    · simp
    · split
      · simp
      · exact List.mem_cons_of_mem _ ih

theorem keyTile_tileKey {t : TileId} (h : t.x < 800) : keyTile (tileKey t) = t := by
  obtain ⟨x, y⟩ := t
  simp only [tileKey, keyTile, TileId.mk.injEq] at *
  omega

theorem State.x_of_mem_tileList {s : State} {t : TileId} (h : t ∈ s.tileList) : t.x < 800 := by
  obtain ⟨e, -, rfl⟩ := List.mem_map.mp h
  exact Nat.mod_lt _ (by decide)

theorem State.mem_tilesOf {s : State} {t : TileId} {f : Nat} : t ∈ s.tilesOf f ↔ t ∈ s.tileList ∧ fieldOf t = f := by
  simp [State.tilesOf]

/-- A tile that is written is listed. -/
theorem State.mem_tileList_modTile (s : State) {t : TileId} (g : Tile → Tile) (h : t.x < 800) : t ∈ (s.modTile t g).tileList :=
  List.mem_map.mpr ⟨_, Tab.mem_put _ _ _, keyTile_tileKey h⟩

theorem State.tile_of_key {t v : TileId} (h : tileKey t = tileKey v) (s : State) : s.tile t = s.tile v := by simp [State.tile, h]

/-- Every tile after one is changed. -/
theorem State.tile_modTile_ite (s : State) (t v : TileId) (g : Tile → Tile) :
    (s.modTile t g).tile v = if tileKey t = tileKey v then g (s.tile v) else s.tile v := by
  split
  · next h => rw [State.tile_of_key h.symm, State.tile_modTile, State.tile_of_key h]
  · next h => exact State.tile_setTile_other _ _ _ _ h

/-- A view that a change of one tile leaves as it was is the same at every tile. -/
theorem State.view_modTile {γ : Type} (view : Tile → γ) (s : State) (t v : TileId) (g : Tile → Tile) (h : view (g (s.tile v)) = view (s.tile v)) :
    view ((s.modTile t g).tile v) = view (s.tile v) := by
  rw [State.tile_modTile_ite]
  split
  · exact h
  · rfl

/-- A view that a change of one field leaves as it was is the same at every field. -/
theorem State.view_modField {γ : Type} (view : Field → γ) (s : State) (f k : Nat) (g : Field → Field) (h : ∀ fd, view (g fd) = view fd) :
    view ((s.modField f g).field k) = view (s.field k) := by
  by_cases e : f = k
  · subst e; rw [State.field_modField, h]
  · rw [State.modField, State.field_setField_other _ _ _ _ e]

/-- Steps that each take from their own tile's list what p picks take it from every tile they visit, and from no other. -/
theorem mem_sweep {α : Type} (view : Tile → List α) (step : State → TileId → State) (p : α → Prop)
    (own : ∀ u t v x, x ∈ view ((step u t).tile v) ↔ x ∈ view (u.tile v) ∧ ¬(tileKey t = tileKey v ∧ p x)) (ts : List TileId) (s : State) (v : TileId) (x : α) :
    x ∈ view ((ts.foldl step s).tile v) ↔ x ∈ view (s.tile v) ∧ ¬((∃ t ∈ ts, tileKey t = tileKey v) ∧ p x) := by
  induction ts generalizing s with
  | nil => simp
  | cons t ts ih =>
    rw [List.foldl_cons, ih, own]
    simp only [List.exists_mem_cons_iff]
    grind

/-- Steps that each change a view of their own tile, once for all, change it at every tile they visit. -/
theorem view_sweep {γ : Type} (view : Tile → γ) (step : State → TileId → State) (g : γ → γ) (once : ∀ x, g (g x) = g x)
    (own : ∀ u t v, view ((step u t).tile v) = if tileKey t = tileKey v then g (view (u.tile v)) else view (u.tile v)) (ts : List TileId) (s : State) (v : TileId) :
    view ((ts.foldl step s).tile v) = if ∃ t ∈ ts, tileKey t = tileKey v then g (view (s.tile v)) else view (s.tile v) := by
  induction ts generalizing s with
  | nil => simp
  | cons t ts ih =>
    rw [List.foldl_cons, ih, own]
    simp only [List.exists_mem_cons_iff]
    by_cases h : tileKey t = tileKey v <;> by_cases k : ∃ t ∈ ts, tileKey t = tileKey v <;> simp [h, k, once]

end Sys2Proof.Machine
end

section
/-! SUPPORT. What patrol scrub corrects, counts and leaves (R117, R118, R122). -/

namespace Sys2Proof.Machine

/-- Where the patrol of a field stands: its row, and the tick of its last visit. -/
def FieldMem.patrol (m : FieldMem) : Nat × Nat := (m.scrubRow, m.scrubAt)

theorem State.patrol_countCe (s : State) (t : TileId) (w f : Nat) : ((s.countCe t w).field f).mem.patrol = (s.field f).mem.patrol := by
  unfold State.countCe
  rw [State.field_event]
  refine State.view_modField (fun fd => fd.mem.patrol) _ _ _ _ fun fd => ?_
  dsimp only
  (repeat' split) <;> rfl

theorem State.patrol_correctWords (s : State) (t : TileId) (ws : List Nat) (f : Nat) : ((s.correctWords t ws).field f).mem.patrol = (s.field f).mem.patrol := by
  refine foldl_keeps (fun u => (u.field f).mem.patrol) _ (fun u w => ?_) ws s
  rw [State.patrol_countCe]
  split <;> rfl

theorem State.patrol_scrubUe (s : State) (row : Nat) (t : TileId) (w f : Nat) : ((s.scrubUe row t w).field f).mem.patrol = (s.field f).mem.patrol := by
  unfold State.scrubUe State.logUe
  rw [State.field_event]
  refine (State.view_modField (fun fd => fd.mem.patrol) _ _ _ _ fun fd => ?_).trans (State.view_modField (fun fd => fd.mem.patrol) _ _ _ _ fun fd => ?_) <;> rfl

theorem State.patrol_scrubTile (s : State) (row : Nat) (t : TileId) (f : Nat) : ((s.scrubTile row t).field f).mem.patrol = (s.field f).mem.patrol := by
  unfold State.scrubTile
  rw [foldl_keeps (fun u : State => (u.field f).mem.patrol) _ (fun u w => State.patrol_scrubUe u row t w f), State.patrol_correctWords]

theorem State.tile_scrubUe (s : State) (row : Nat) (t : TileId) (w : Nat) (v : TileId) : (s.scrubUe row t w).tile v = s.tile v := by
  simp [State.scrubUe, State.logUe]

/-- Reading a row changes the tiles as correcting its words does. -/
theorem State.tile_scrubTile (s : State) (row : Nat) (t v : TileId) :
    (s.scrubTile row t).tile v = (s.correctWords t ((s.tile t).mem.ce.filter (inRow row))).tile v :=
  foldl_keeps (fun u : State => u.tile v) _ (fun u w => State.tile_scrubUe u row t w v) _ _

/-- Scrub leaves the uncorrectable words where they are. -/
theorem State.ue_scrubTile (s : State) (row : Nat) (t v : TileId) : ((s.scrubTile row t).tile v).mem.ue = (s.tile v).mem.ue := by
  rw [State.tile_scrubTile]
  have h := congrArg (fun tl : Tile => tl.mem.ue) (State.calm_correctWords t v ((s.tile t).mem.ce.filter (inRow row)) s)
  exact h

/-- Correcting words of tile memory takes them, and no other, off their tile's list. -/
theorem State.mem_ce_correctWords (t v : TileId) (x : Nat) : ∀ (ws : List Nat) (s : State), (∀ w ∈ ws, spEnd ≤ w) →
    (x ∈ ((s.correctWords t ws).tile v).mem.ce ↔ x ∈ (s.tile v).mem.ce ∧ ¬(tileKey t = tileKey v ∧ x ∈ ws))
  | [], s, _ => by simp [State.correctWords]
  | w :: ws, s, h => by
    have hw : ¬ w < spEnd := Nat.not_lt.mpr (h w (by simp))
    rw [State.correctWords, List.foldl_cons, ← State.correctWords, State.mem_ce_correctWords t v x ws _ (fun w hw => h w (by simp [hw])),
      State.tile_countCe, if_neg hw, State.tile_modTile_ite]
    split
    · next k => simp [k, and_assoc]
    · next k => simp [k]

theorem spEnd_le_of_inRow {row w : Nat} (h : inRow row w = true) : spEnd ≤ w := by
  have hb : spEnd ≤ tmBase := by decide
  simp only [inRow, Bool.and_eq_true, decide_eq_true_eq] at h
  omega

/-- Reading a row corrects the words of that row of that tile, and no other. -/
theorem State.mem_ce_scrubTile (s : State) (row : Nat) (t v : TileId) (x : Nat) :
    x ∈ ((s.scrubTile row t).tile v).mem.ce ↔ x ∈ (s.tile v).mem.ce ∧ ¬(tileKey t = tileKey v ∧ inRow row x = true) := by
  rw [State.tile_scrubTile, State.mem_ce_correctWords _ _ _ _ _ fun w hw => spEnd_le_of_inRow (List.mem_filter.mp hw).2]
  refine and_congr_right fun hx => not_congr (and_congr_right fun k => ?_)
  simp [State.tile_of_key k, hx]

/-- The tile memory's count of corrected errors after another word of it. -/
theorem State.ceTm_countCe (s : State) (t : TileId) {w : Nat} (h : spEnd ≤ w) :
    ((s.countCe t w).field (fieldOf t)).mem.ceTm = if (s.field (fieldOf t)).mem.ceTm = 0xFFFFFFFF then (s.field (fieldOf t)).mem.ceTm else (s.field (fieldOf t)).mem.ceTm + 1 := by
  unfold State.countCe
  rw [State.field_event, State.field_modField]
  simp only [Nat.not_lt.mpr h, if_false]
  split <;> rfl

theorem State.ceTm_scrubUe (s : State) (row : Nat) (t : TileId) (w f : Nat) : ((s.scrubUe row t w).field f).mem.ceTm = (s.field f).mem.ceTm := by
  unfold State.scrubUe State.logUe
  rw [State.field_event]
  refine (State.view_modField (fun fd => fd.mem.ceTm) _ _ _ _ fun fd => ?_).trans (State.view_modField (fun fd => fd.mem.ceTm) _ _ _ _ fun fd => ?_) <;> rfl

theorem State.ceTm_scrubTile (s : State) (row : Nat) (t : TileId) (f : Nat) :
    ((s.scrubTile row t).field f).mem.ceTm = ((s.correctWords t ((s.tile t).mem.ce.filter (inRow row))).field f).mem.ceTm :=
  foldl_keeps (fun u : State => (u.field f).mem.ceTm) _ (fun u w => State.ceTm_scrubUe u row t w f) _ _

/-- The patrol over tiles of a field in turn. -/
def State.scrubTiles (s : State) (row : Nat) (ts : List TileId) : State := ts.foldl (fun s t => s.scrubTile row t) s

theorem State.patrol_scrubTiles (s : State) (row : Nat) (ts : List TileId) (f : Nat) : ((s.scrubTiles row ts).field f).mem.patrol = (s.field f).mem.patrol :=
  foldl_keeps (fun u : State => (u.field f).mem.patrol) _ (fun u t => State.patrol_scrubTile u row t f) ts s

theorem State.ue_scrubTiles (s : State) (row : Nat) (ts : List TileId) (v : TileId) : ((s.scrubTiles row ts).tile v).mem.ue = (s.tile v).mem.ue :=
  foldl_keeps (fun u : State => (u.tile v).mem.ue) _ (fun u t => State.ue_scrubTile u row t v) ts s

/-- The patrol corrects the words of its row in the tiles it visits, and no other. -/
theorem State.mem_ce_scrubTiles (row : Nat) (v : TileId) (x : Nat) (ts : List TileId) (s : State) :
    x ∈ ((s.scrubTiles row ts).tile v).mem.ce ↔ x ∈ (s.tile v).mem.ce ∧ ¬((∃ t ∈ ts, tileKey t = tileKey v) ∧ inRow row x = true) :=
  mem_sweep (fun tl => tl.mem.ce) _ (fun x => inRow row x = true) (fun u t v x => State.mem_ce_scrubTile u row t v x) ts s v x

/-- The tile's correctable words that lie in a row. -/
def State.rowErrors (s : State) (row : Nat) (t : TileId) : List Nat := (s.tile t).mem.ce.filter (inRow row)

theorem State.rowErrors_eq_nil {s : State} {row : Nat} {t : TileId} : s.rowErrors row t = [] ↔ ∀ x ∈ (s.tile t).mem.ce, ¬ inRow row x = true :=
  List.filter_eq_nil_iff

/-- Of one error in the row, and none of another tile of its field, the patrol has counted nothing yet, or has corrected and counted it. -/
def OneError (row f : Nat) (c : Word) (w : Nat) (t : TileId) (u : State) : Prop :=
  (∀ v, fieldOf v = f → tileKey v ≠ tileKey t → u.rowErrors row v = []) ∧
    ((u.rowErrors row t = [w] ∧ (u.field f).mem.ceTm = c) ∨ (u.rowErrors row t = [] ∧ (u.field f).mem.ceTm = c + 1))

theorem State.rowErrors_scrubTile (s : State) (row : Nat) (t v : TileId) (k : tileKey t = tileKey v) : (s.scrubTile row t).rowErrors row v = [] :=
  State.rowErrors_eq_nil.mpr fun x hx h => ((State.mem_ce_scrubTile s row t v x).mp hx).2 ⟨k, h⟩

/-- A tile without errors in the row is left as it is. -/
theorem State.correctWords_rowErrors (s : State) (row : Nat) (t : TileId) (h : s.rowErrors row t = []) : s.correctWords t ((s.tile t).mem.ce.filter (inRow row)) = s := by
  rw [show (s.tile t).mem.ce.filter (inRow row) = [] from h]; rfl

theorem OneError.scrubTile {row f : Nat} {c : Word} {w : Nat} {t : TileId} {u : State} (hc : c ≠ 0xFFFFFFFF) (h : OneError row f c w t u)
    (v : TileId) (hv : fieldOf v = f) : OneError row f c w t (u.scrubTile row v) := by
  obtain ⟨others, own⟩ := h
  have kept (x : TileId) (hx : u.rowErrors row x = []) : (u.scrubTile row v).rowErrors row x = [] :=
    State.rowErrors_eq_nil.mpr fun y hy => State.rowErrors_eq_nil.mp hx y ((State.mem_ce_scrubTile u row v x y).mp hy).1
  refine ⟨fun x hx k => kept x (others x hx k), ?_⟩
  by_cases k : tileKey v = tileKey t
  · refine .inr ⟨State.rowErrors_scrubTile u row v t k, ?_⟩
    rw [State.ceTm_scrubTile]
    obtain ⟨e, n⟩ | ⟨e, n⟩ := own
    · have hw : inRow row w = true := (List.mem_filter.mp (e ▸ List.mem_singleton_self w : w ∈ u.rowErrors row t)).2
      have ev : (u.tile v).mem.ce.filter (inRow row) = [w] := by rw [State.tile_of_key k]; exact e
      rw [ev, State.correctWords, List.foldl_cons, List.foldl_nil, if_neg (Nat.not_lt.mpr (spEnd_le_of_inRow hw)), ← hv,
        State.ceTm_countCe _ _ (spEnd_le_of_inRow hw), State.field_modTile, hv, n, if_neg hc]
    · have ev : u.rowErrors row v = [] := by rw [State.rowErrors, State.tile_of_key k]; exact e
      rw [State.correctWords_rowErrors _ _ _ ev, n]
  · have e0 := others v hv k
    have same : ((u.scrubTile row v).field f).mem.ceTm = (u.field f).mem.ceTm := by rw [State.ceTm_scrubTile, State.correctWords_rowErrors _ _ _ e0]
    have tile : (u.scrubTile row v).rowErrors row t = u.rowErrors row t := by
      rw [State.rowErrors, State.tile_scrubTile, State.correctWords_rowErrors _ _ _ e0]; rfl
    rw [same, tile]; exact own

/-- The patrol corrects one error in its row and counts it. -/
theorem OneError.ceTm_scrubTiles {row f : Nat} {c : Word} {w : Nat} {t : TileId} {u : State} (hc : c ≠ 0xFFFFFFFF) (h : OneError row f c w t u)
    {ts : List TileId} (hts : ∀ v ∈ ts, fieldOf v = f) (ht : t ∈ ts) : ((u.scrubTiles row ts).field f).mem.ceTm = c + 1 := by
  have visited : ∀ (ts : List TileId) (u : State), (∀ v ∈ ts, fieldOf v = f) → OneError row f c w t u → OneError row f c w t (u.scrubTiles row ts) := fun ts => by
    induction ts with
    | nil => exact fun _ _ h => h
    | cons v ts ih => exact fun u hv h => ih _ (fun x hx => hv x (List.mem_cons_of_mem _ hx)) (h.scrubTile hc v (hv v (by simp)))
  obtain ⟨-, ⟨e, -⟩ | ⟨-, n⟩⟩ := visited ts u hts h
  · have hw : w ∈ (u.scrubTiles row ts).rowErrors row t := e ▸ List.mem_singleton_self w
    exact absurd ⟨⟨t, ht, rfl⟩, (List.mem_filter.mp hw).2⟩ ((State.mem_ce_scrubTiles row t w ts u).mp (List.mem_filter.mp hw).1).2
  · exact n

end Sys2Proof.Machine
end

section
/-! SUPPORT. Refresh, derating and patrol scrub, command by command (R117, R120, R121, R122). -/

namespace Sys2Proof.Machine

theorem does_rowRefresh {s : State} {t : TileId} {row : Nat} (hr : row < 256) (hu : (s.field (fieldOf t)).memoryUp = true)
    (hp : (s.field (fieldOf t)).profiling = false)
    (hd : (s.field (fieldOf t)).mem.refreshed.getD (localIdx t * 256 + row) 0 + (s.field (fieldOf t)).rowInterval t row ≤ s.time) :
    Does (.rowRefresh t row) s (fun u => (u.field (fieldOf t)).mem.refreshed.getD (localIdx t * 256 + row) 0 = s.time) :=
  .of_next (u := _) rfl (by simp [hr, hu, hp, hd])

/-- The field's patrol moves on to its next row. -/
def State.patrolOn (s : State) (f : Nat) : State :=
  s.modField f (fun fd => { fd with mem := { fd.mem with scrubRow := (fd.mem.scrubRow + 1) % 256, scrubAt := s.time } })

/-- A patrol that is due: the upsets of its field strike, and the row is read. -/
theorem patrolScrub_due {s : State} {f : Nat} (errs : List ScrubErr) (hf : isCompute f = true) (hu : (s.field f).memoryUp = true) (hp : (s.field f).profiling = false)
    (hd : (s.field f).mem.scrubAt + ((s.field f).mem.scrubStep + 1) * 65536 ≤ s.time) (here : ∀ e ∈ errs, fieldOf e.tile = f) :
    exec (.patrolScrub f errs) s = .next ((errs.foldl State.upset (s.patrolOn f)).scrubTiles (s.field f).mem.scrubRow ((errs.foldl State.upset (s.patrolOn f)).tilesOf f)) := by
  have hk : isKeep f = false := by simp only [isCompute, Bool.and_eq_true] at hf; simpa using hf.2
  have he : errs.filter (fun e => fieldOf e.tile == f) = errs := List.filter_eq_self.mpr fun e h => by simpa using here e h
  show execPatrolScrub f errs s = _
  unfold execPatrolScrub
  simp only [hk, hf, hu, hp, hd, he, Bool.false_and, Bool.and_self, Bool.not_false, decide_true, if_true, Bool.false_eq_true, if_false]
  rfl

/-- An upset of a good place strikes the tile alone. -/
theorem State.upset_inTm (s : State) (e : ScrubErr) (h : inTm e.off 1 = true) :
    s.upset e = s.modTile e.tile (fun tl => { tl with mem := tl.mem.upset (e.off / 8 * 8) e.uncorrectable }) := by
  have : inMem (e.off / 8 * 8) 8 = true := by
    simp only [inTm, Bool.and_eq_true, decide_eq_true_eq] at h
    have hb : tmBase = 0x40000 := rfl
    have ht : tmEnd = 0x80000 := rfl
    simp only [inMem, inTm, Bool.or_eq_true, Bool.and_eq_true, decide_eq_true_eq]
    omega
  simp [State.upset, this]

theorem does_patrolScrub_moves {s : State} {f : Nat} (hf : isCompute f = true) (hu : (s.field f).memoryUp = true) (hp : (s.field f).profiling = false)
    (hd : (s.field f).mem.scrubAt + ((s.field f).mem.scrubStep + 1) * 65536 ≤ s.time) :
    Does (.patrolScrub f []) s (fun u => (u.field f).mem.scrubRow = ((s.field f).mem.scrubRow + 1) % 256 ∧ (u.field f).mem.scrubAt = s.time) := by
  refine .of_next (patrolScrub_due [] hf hu hp hd (by simp)) (Prod.mk.inj ?_)
  have on : ((s.patrolOn f).field f).mem.patrol = (((s.field f).mem.scrubRow + 1) % 256, s.time) := by rw [State.patrolOn, State.field_modField]; rfl
  exact (State.patrol_scrubTiles _ _ _ _).trans on

/-- The tile after an error of one bit struck a sound word. -/
theorem TileMem.upset_one {m : TileMem} {w : Nat} (hu : w ∉ m.ue) (hc : w ∉ m.ce) : m.upset w false = { m with ce := insertNat m.ce w } := by
  simp [TileMem.upset, hu, hc]

theorem does_patrolScrub {s : State} {f : Nat} (hf : isCompute f = true) (hu : (s.field f).memoryUp = true) (hp : (s.field f).profiling = false)
    (hd : (s.field f).mem.scrubAt + ((s.field f).mem.scrubStep + 1) * 65536 ≤ s.time) {e : ScrubErr} (he : fieldOf e.tile = f) (hx : e.tile.x < 800) (ho : inTm e.off 1 = true) :
    Does (.patrolScrub f [e]) s (fun u =>
      (e.uncorrectable = true → e.off / 8 * 8 ∈ (u.tile e.tile).mem.ue) ∧
      (e.uncorrectable = false → e.off / 8 * 8 ∉ (s.tile e.tile).mem.ue → e.off / 8 * 8 ∉ (s.tile e.tile).mem.ce →
        (inRow (s.field f).mem.scrubRow (e.off / 8 * 8) = false → e.off / 8 * 8 ∈ (u.tile e.tile).mem.ce) ∧
        (inRow (s.field f).mem.scrubRow (e.off / 8 * 8) = true →
          e.off / 8 * 8 ∉ (u.tile e.tile).mem.ce ∧ e.off / 8 * 8 ∉ (u.tile e.tile).mem.ue ∧
          ((∀ t, fieldOf t = f → (s.tile t).mem.ce.filter (inRow (s.field f).mem.scrubRow) = []) →
            (s.field f).mem.ceTm ≠ 0xFFFFFFFF → (u.field f).mem.ceTm = (s.field f).mem.ceTm + 1)))) := by
  refine .of_next (patrolScrub_due [e] hf hu hp hd (by simpa using he)) ?_
  generalize hs : List.foldl State.upset (s.patrolOn f) [e] = v
  rw [List.foldl_cons, List.foldl_nil, State.upset_inTm _ _ ho] at hs
  have tile : v.tile e.tile = { s.tile e.tile with mem := (s.tile e.tile).mem.upset (e.off / 8 * 8) e.uncorrectable } := by rw [← hs, State.tile_modTile]; rfl
  have listed : e.tile ∈ v.tilesOf f := State.mem_tilesOf.mpr ⟨hs ▸ State.mem_tileList_modTile _ _ hx, he⟩
  generalize (s.field f).mem.scrubRow = row
  generalize e.off / 8 * 8 = w at tile hs ⊢
  refine ⟨fun many => ?_, fun one hue hce => ?_⟩
  · rw [State.ue_scrubTiles, tile, many]
    simp [TileMem.upset, mem_insertNat]
  rw [one, TileMem.upset_one hue hce] at tile
  have ce : (v.tile e.tile).mem.ce = insertNat (s.tile e.tile).mem.ce w := by rw [tile]
  refine ⟨fun out => ?_, fun row_ => ⟨?_, ?_, fun clean hc => ?_⟩⟩
  · rw [State.mem_ce_scrubTiles, ce]
    simp [mem_insertNat, out]
  · rw [State.mem_ce_scrubTiles]
    exact fun h => h.2 ⟨⟨_, listed, rfl⟩, row_⟩
  · rw [State.ue_scrubTiles, tile]; exact hue
  · have field : (v.field f).mem.ceTm = (s.field f).mem.ceTm := by
      rw [← hs, State.field_modTile]
      exact State.view_modField (fun fd => fd.mem.ceTm) _ _ _ _ fun _ => rfl
    refine OneError.ceTm_scrubTiles hc (w := w) ⟨fun x hxf k => ?_, .inl ⟨?_, field⟩⟩ (fun x h => (State.mem_tilesOf.mp h).2) listed
    · rw [State.rowErrors, ← hs, State.tile_modTile_ite, if_neg (Ne.symm k)]; exact clean x hxf
    · rw [State.rowErrors, ce]; exact filter_insertNat row_ _ (clean _ he)

theorem does_patrolScrub_host {s : State} {f : Nat} {e : ScrubErr} (hf : isKeep f = true) (hu : (s.field f).memoryUp = true) (he : fieldOf e.tile = f)
    (hx : localIdx e.tile < 4096) (ho : e.off < 2 ^ 20) :
    Does (.patrolScrub f [e]) s (fun u =>
      (u.host (keepIdx f)).memUe = (if e.uncorrectable then satAdd 0xFFFFFFFF (s.host (keepIdx f)).memUe 1 else (s.host (keepIdx f)).memUe) ∧
      (u.host (keepIdx f)).memCe = (if e.uncorrectable then (s.host (keepIdx f)).memCe else satAdd 0xFFFFFFFF (s.host (keepIdx f)).memCe 1)) := by
  refine .of_next (u := s.hostUpset e) ?_ ?_
  · show execPatrolScrub f [e] s = _
    simp [execPatrolScrub, hf, hu, he]
  · simp only [State.hostUpset, hx, ho, decide_true, Bool.and_self, Bool.not_true, Bool.false_eq_true, if_false, he, State.host_modHost]
    cases e.uncorrectable <;> simp

theorem does_refreshDerate {s : State} {f : Nat} {temp : Int} (h : (s.field f).mem.derateAt < temp) :
    Does (.refreshDerate f temp) s (fun u => (u.field f).mem.derated = true) :=
  .of_next (u := _) rfl (by simp [h])

theorem does_refreshRestore {s : State} {f : Nat} {temps : List Int} (hn : temps ≠ []) (h : ∀ x ∈ temps, x ≤ (s.field f).mem.derateAt - 5) :
    Does (.refreshRestore f temps) s (fun u => (u.field f).mem.derated = false) := by
  have cool : temps.all (fun x => decide (x ≤ (s.field f).mem.derateAt - 5)) = true := by simpa using h
  exact .of_next (u := _) rfl (by simp [hn, cool])

end Sys2Proof.Machine
end

section
/-! SUPPORT. Maps published, the pause of injection and the distance table (R193, R207). -/

namespace Sys2Proof.Machine

theorem State.mesh_ite (c : Prop) [Decidable c] (a b : State) : (if c then a else b).mesh = if c then a.mesh else b.mesh := apply_ite ..

/-- The map published next keeps the number of one it joins, and where nothing is cut off it lists the present furrows. -/
theorem State.next_publishMap (s : State) (at_ : Nat) : ∃ m, (s.publishMap at_).mesh.next = some m ∧ m.effective = at_ ∧
    m.seq = (s.mesh.next.map FMap.seq).getD (nextSeq s.mesh.map.seq) ∧ (partitioner s.buildFurrows = none → m.furrows = s.buildFurrows) := by
  unfold State.publishMap
  simp only [State.mesh_ite, State.event_mesh, ite_self]
  refine ⟨_, rfl, rfl, ?_, fun h => ?_⟩
  · cases s.mesh.next <;> rfl
  · simp only [h]

theorem mapPublish_runs {s : State} {at_ : Nat} (hr : s.mb.running = true) (hb : at_ % 256 = 0) (ht : s.time + 256 ≤ at_) (hp : s.mesh.paused = false)
    (hn : ∀ m, s.mesh.next = some m → m.effective = at_) : exec (.mapPublish at_) s = .next (s.publishMap at_) := by
  show execMapPublish at_ s = _
  unfold execMapPublish
  cases h : s.mesh.next with
  | none => simp [hr, isBoundary, hb, ht, hp]
  | some m => simp [hr, isBoundary, hb, ht, hp, hn m h]

theorem does_mapPublish {s : State} {at_ : Nat} (hr : s.mb.running = true) (hb : at_ % 256 = 0) (ht : s.time + 256 ≤ at_) (hp : s.mesh.paused = false)
    (hn : s.mesh.next = none) :
    Does (.mapPublish at_) s (fun u => ∃ m, u.mesh.next = some m ∧ m.effective = at_ ∧ m.seq = nextSeq s.mesh.map.seq ∧
      (partitioner s.buildFurrows = none → m.furrows = s.buildFurrows)) :=
  .of_next (mapPublish_runs hr hb ht hp (by simp [hn])) (by simpa [hn] using s.next_publishMap at_)

theorem does_mapPublish_joins {s : State} {at_ : Nat} (hr : s.mb.running = true) (hb : at_ % 256 = 0) (ht : s.time + 256 ≤ at_) (hp : s.mesh.paused = false)
    {m : FMap} (hn : s.mesh.next = some m) (he : m.effective = at_) :
    Does (.mapPublish at_) s (fun u => ∃ n, u.mesh.next = some n ∧ n.effective = at_ ∧ n.seq = m.seq ∧
      (partitioner s.buildFurrows = none → n.furrows = s.buildFurrows)) :=
  .of_next (mapPublish_runs hr hb ht hp (by simp [hn, he])) (by simpa [hn] using s.next_publishMap at_)

theorem does_mapInjectionPause {s : State} {m : FMap} (hn : s.mesh.next = some m) (he : m.effective ≤ s.time) (hp : s.mesh.paused = false) :
    Does .mapInjectionPause s (fun u => u.mesh.paused = true) := by
  refine .of_next (u := _) rfl ?_
  simp only [hn]
  rw [if_pos ⟨he, hp⟩]
  rfl

theorem does_distTablePublish {s : State} (hd : s.mesh.distDue = true) (hr : s.mb.running = true) :
    Does .distTablePublish s (fun u => u.mesh.distMap = s.mesh.map ∧ u.mesh.distDue = false) := by
  refine .of_next (u := _) rfl ?_
  rw [hd, hr]
  exact ⟨rfl, rfl⟩

end Sys2Proof.Machine
end

section
/-! SUPPORT. The settlement of lost writes (R250) and the loss of a failed field's cells (R253). -/

namespace Sys2Proof.Machine

/-- The writes a tile's fences wait for. -/
def Tile.fenced (tl : Tile) : List WriteRec := tl.sync.writes

/-- What completing an instruction or ending a context leaves of a tile: its state of R62 and the writes its fences wait for. -/
def Tile.standing (tl : Tile) : TileSt × List WriteRec := (tl.st, tl.fenced)

@[simp] theorem Tile.standing_retire (tl : Tile) (n c : Nat) : (tl.retire n c).standing = tl.standing := rfl
@[simp] theorem Tile.standing_setReg (tl : Tile) (r : Nat) (v : Word) : (tl.setReg r v).standing = tl.standing := by
  unfold Tile.setReg
  split <;> rfl

theorem State.standing_endThatch (s : State) (t v : TileId) : ((s.endThatch t).tile v).standing = (s.tile v).standing := by
  unfold State.endThatch
  dsimp only
  split
  · rw [State.tile_modField, State.tile_modTile_ite]
    split <;> simp only [Tile.standing, Tile.fenced]
  · rfl

theorem State.standing_finish (s : State) (t : TileId) (a : XArgs) (st x cost : Nat) (v : TileId) :
    ((s.finish t a st x cost).tile v).standing = (s.tile v).standing := by
  unfold State.finish
  rw [State.view_modTile Tile.standing _ _ _ _ (by simp)]
  split
  · exact State.standing_endThatch s t v
  · rfl

theorem State.standing_endSend (s : State) (t : TileId) (c st : Nat) (v : TileId) : ((s.endSend t c st).tile v).standing = (s.tile v).standing := by
  unfold State.endSend
  split
  · split
    · exact State.standing_finish ..
    · rfl
  · rfl

theorem State.standing_ctxLost (s : State) (t : TileId) (c : Nat) (path : Bool) (v : TileId) : ((s.ctxLost t c path).tile v).standing = (s.tile v).standing := by
  unfold State.ctxLost
  dsimp only
  rw [State.standing_endSend, State.tile_event]
  exact State.view_modTile Tile.standing s t v _ (by rfl)

/-- A write taken as lost leaves its own tile's fences, and changes no other tile's. -/
theorem State.standing_loseWrite (s : State) (t v : TileId) (w : WriteRec) : ((s.loseWrite t w).tile v).standing =
    ((s.tile v).st, if tileKey t = tileKey v then (s.tile v).fenced.filter (fun x => !(x == w)) else (s.tile v).fenced) := by
  unfold State.loseWrite
  generalize hs : s.modTile t _ = u
  have first : (u.tile v).standing = ((s.tile v).st, if tileKey t = tileKey v then (s.tile v).fenced.filter (fun x => !(x == w)) else (s.tile v).fenced) := by
    rw [← hs, State.tile_modTile_ite]
    split <;> rfl
  rw [← first]
  have kept (m : State) (h : m = u ∨ ∃ c, m = u.ctxLost t c true) : (m.tile v).standing = (u.tile v).standing := by
    obtain rfl | ⟨c, rfl⟩ := h
    · rfl
    · exact State.standing_ctxLost ..
  dsimp only
  split
  · rw [State.standing_finish]
    refine kept _ ?_
    split
    · split
      · exact .inr ⟨_, rfl⟩
      · exact .inl rfl
    · exact .inl rfl
  · refine (State.view_modTile Tile.standing _ t v _ (by rfl)).trans (kept _ ?_)
    split
    · split
      · exact .inr ⟨_, rfl⟩
      · exact .inl rfl
    · exact .inl rfl

theorem State.fenced_loseWrite (s : State) (t v : TileId) (w : WriteRec) :
    ((s.loseWrite t w).tile v).fenced = if tileKey t = tileKey v then (s.tile v).fenced.filter (fun x => !(x == w)) else (s.tile v).fenced :=
  congrArg Prod.snd (s.standing_loseWrite t v w)

theorem State.st_settleOld (p : WriteRec → Bool) (s : State) (t v : TileId) : ((s.settleOld p t).tile v).st = (s.tile v).st :=
  foldl_keeps (fun u : State => (u.tile v).st) _ (fun u w => congrArg Prod.fst (u.standing_loseWrite t v w)) _ s

theorem State.mem_fenced_loseWrites (t v : TileId) (x : WriteRec) (ws : List WriteRec) (s : State) :
    x ∈ ((ws.foldl (fun s w => s.loseWrite t w) s).tile v).fenced ↔ x ∈ (s.tile v).fenced ∧ ¬(tileKey t = tileKey v ∧ x ∈ ws) := by
  induction ws generalizing s with
  | nil => simp
  | cons w ws ih =>
    rw [List.foldl_cons, ih, State.fenced_loseWrite]
    split
    · next k => simp [k, and_assoc]
    · next k => simp [k]

/-- Settling a tile's old writes takes those the test picks, and no other tile's. -/
theorem State.mem_fenced_settleOld (p : WriteRec → Bool) (s : State) (t v : TileId) (x : WriteRec) :
    x ∈ ((s.settleOld p t).tile v).fenced ↔ x ∈ (s.tile v).fenced ∧ ¬(tileKey t = tileKey v ∧ (x.old && p x) = true) := by
  rw [State.settleOld, State.mem_fenced_loseWrites]
  refine and_congr_right fun hx => not_congr (and_congr_right fun k => ?_)
  rw [← show (s.tile t).fenced = (s.tile t).sync.writes from rfl, List.mem_filter, State.tile_of_key k]
  exact and_iff_right hx

/-- After a settlement no listed tile has an old write that the test picks. -/
theorem State.settled {p : WriteRec → Bool} {ts : List TileId} {t : TileId} (ht : t ∈ ts) (s : State) :
    ∀ w ∈ ((ts.foldl (fun s t => s.settleOld p t) s).tile t).sync.writes, ¬((w.old && p w) = true) := fun w hw h =>
  ((mem_sweep Tile.fenced _ _ (State.mem_fenced_settleOld p) ts s t w).mp hw).2 ⟨⟨t, ht, rfl⟩, h⟩

theorem does_fenceSettleLocal {s : State} {at_ : Nat} {t : TileId} (ha : s.mesh.settleAt = some at_) (hd : at_ + 512 ≤ s.time) (ht : t ∈ s.tileList) :
    Does .fenceSettleLocal s (fun u => ∀ w ∈ (u.tile t).sync.writes, ¬(w.old = true ∧ w.cls < 2)) := by
  refine .of_next (u := _) rfl ?_
  simp only [ha, hd, if_true]
  simpa only [Bool.and_eq_true, decide_eq_true_eq] using State.settled (p := fun w => decide (w.cls < 2)) ht s

theorem does_fenceSettleRemote {s : State} {at_ f : Nat} {t : TileId} (ha : s.mesh.settleAt = some at_)
    (hd : at_ + 512 + (s.ports.getD f {}).remoteTimeout ≤ s.time) (ht : t ∈ s.tilesOf f) :
    Does (.fenceSettleRemote f) s (fun u => ∀ w ∈ (u.tile t).sync.writes, ¬(w.old = true ∧ w.cls = 2)) := by
  refine .of_next (u := _) rfl ?_
  simp only [ha, hd, if_true]
  simpa only [Bool.and_eq_true, beq_iff_eq] using State.settled (p := fun w => w.cls == 2) ht s

/-! ## Events among steps that do not touch the recorder -/

/-- What an event is written with: the recorder, the controllers' queues, the two clocks and the active conductor. -/
def State.recording (s : State) : Scarab × Tab (List Ev) × Nat × Nat × Nat := (s.scarab, s.scarabQ, s.hedge.base, s.time, s.mb.activeKf)

/-- An event stays written while steps before and after it leave the recorder alone. -/
theorem Writes.among {s m v u : State} {src code : Nat} {d : List Nat} (before : m.recording = s.recording) (h : Writes m v src code d)
    (queues : u.scarabQ = v.scarabQ) (recorder : u.scarab = v.scarab) : Writes s u src code d := by
  obtain ⟨hs, hq, hb, ht, ha⟩ : m.scarab = s.scarab ∧ m.scarabQ = s.scarabQ ∧ m.hedge.base = s.hedge.base ∧ m.time = s.time ∧ m.mb.activeKf = s.mb.activeKf := by
    simpa [State.recording] using before
  intro room
  have := h (by simpa [CanLog, State.hedgeNow, State.queueOf, hs, hq, hb, ht, ha] using room)
  simpa [Logged, queues, recorder, ht] using this

@[simp] theorem State.recording_modTile (s : State) (t : TileId) (g : Tile → Tile) : (s.modTile t g).recording = s.recording := (rfl)

theorem State.recording_endThatch (s : State) (t : TileId) : (s.endThatch t).recording = s.recording := by
  unfold State.endThatch
  dsimp only
  split <;> rfl

theorem State.recording_finish (s : State) (t : TileId) (a : XArgs) (st x cost : Nat) : (s.finish t a st x cost).recording = s.recording := by
  unfold State.finish
  rw [State.recording_modTile]
  split
  · exact State.recording_endThatch s t
  · rfl

/-! ## The sweep over a failed field's cells -/

/-- A core whose outstanding instruction, if it has one, has completed with CELL_LOST. -/
def Core.cellLost (c : Core) : Core :=
  match c.stall with
  | some k => ((({ core := c } : Tile).setReg k.a.rd (statusWord stCellLost 0)).retire 4 2).core
  | none => c

theorem Core.cellLost_cellLost (c : Core) : c.cellLost.cellLost = c.cellLost := by
  have done : c.cellLost.stall = none := by
    unfold Core.cellLost
    split
    · rfl
    · assumption
  generalize c.cellLost = d at done
  simp [Core.cellLost, done]

/-- One tile's outstanding instruction completes with CELL_LOST. -/
def State.loseCell (s : State) (t : TileId) : State :=
  match (s.tile t).core.stall with
  | some k => (s.setPend t none).finish t k.a stCellLost 0 2
  | none => s

theorem State.recording_loseCell (s : State) (t : TileId) : (s.loseCell t).recording = s.recording := by
  unfold State.loseCell
  split
  · rw [State.recording_finish]; rfl
  · rfl

theorem State.cellSweep_eq (s : State) (f cause : Nat) : ∃ ts, ts = s.tileList.filter (fun t => (s.tile t).awaitsField f) ∧
    s.cellSweep f cause = ({ ts.foldl State.loseCell s with cond := { (ts.foldl State.loseCell s).cond with
      sweeps := (ts.foldl State.loseCell s).cond.sweeps.filter (fun g => !(g == f)) } }).event f 0x0681 [f, cause, ts.length] := ⟨_, rfl, rfl⟩

theorem Tile.core_setReg {tl tl' : Tile} {r : Nat} {v : Word} (h : tl.core = tl'.core) : (tl.setReg r v).core = (tl'.setReg r v).core := by
  unfold Tile.setReg
  split <;> simp [h]

theorem Tile.core_retire {tl tl' : Tile} {n c : Nat} (h : tl.core = tl'.core) : (tl.retire n c).core = (tl'.retire n c).core := by
  simp [Tile.retire, h]

theorem State.core_endThatch (s : State) (t v : TileId) : ((s.endThatch t).tile v).core = (s.tile v).core := by
  unfold State.endThatch
  dsimp only
  split
  · rw [State.tile_modField, State.tile_modTile_ite]
    split <;> simp only
  · rfl

theorem State.core_finish (s : State) (t : TileId) (a : XArgs) (st x cost : Nat) (v : TileId) : ((s.finish t a st x cost).tile v).core =
    if tileKey t = tileKey v then (((s.tile v).setReg a.rd (statusWord st x)).retire 4 cost).core else (s.tile v).core := by
  unfold State.finish
  rw [State.tile_modTile_ite]
  generalize hu : (if (s.tile t).inSwait then s.endThatch t else s) = u
  have h : (u.tile v).core = (s.tile v).core := by
    rw [← hu]
    split
    · exact State.core_endThatch s t v
    · rfl
  split
  · exact Tile.core_retire (Tile.core_setReg h)
  · exact h

theorem State.core_loseCell (s : State) (t v : TileId) : ((s.loseCell t).tile v).core = if tileKey t = tileKey v then (s.tile v).core.cellLost else (s.tile v).core := by
  have pend : ((s.setPend t none).tile v).core = (s.tile v).core := by
    unfold State.setPend
    exact State.view_modTile Tile.core s t v _ (by rfl)
  by_cases k : tileKey t = tileKey v
  · rw [if_pos k, State.loseCell, Core.cellLost, State.tile_of_key k]
    split
    · rw [State.core_finish, if_pos k]
      exact Tile.core_retire (Tile.core_setReg pend)
    · rfl
  · rw [if_neg k, State.loseCell]
    split
    · rw [State.core_finish, if_neg k, pend]
    · rfl

/-- An instruction whose core has lost its cell has completed with CELL_LOST. -/
theorem Completed.of_cellLost {s u : State} {t : TileId} {k : Stall} (hk : (s.tile t).core.stall = some k) (h : (u.tile t).core = (s.tile t).core.cellLost) :
    Completed s u t k.a stCellLost 0 := by
  have hc : (u.tile t).core = (((s.tile t).setReg k.a.rd (statusWord stCellLost 0)).retire 4 2).core := by
    rw [h, Core.cellLost, hk]
    exact Tile.core_retire (Tile.core_setReg rfl)
  have reg (r : Nat) : (u.tile t).reg r = ((s.tile t).setReg k.a.rd (statusWord stCellLost 0)).reg r := by
    rw [Tile.reg, hc, ← Tile.reg_retire _ 4 2, Tile.reg]
  refine ⟨by rw [hc]; simp, by simp [reg, Tile.reg_setReg], fun r hr => ?_, by rw [hc]; simp⟩
  rw [reg, Tile.reg_setReg, if_neg (Ne.symm hr)]
  split
  · next e => simp [Tile.reg, e]
  · rfl

theorem does_cellLostSweep {s : State} {f : Nat} (hf : isCompute f = true) (hs : f ∈ s.cond.sweeps) (hr : s.mb.running = true) :
    Does (.cellLostSweep f) s (fun u => f ∉ u.cond.sweeps ∧
      (∃ n, Writes s u f 0x0681 [f, (s.field f).pwr.cause, n]) ∧
      ∀ t k, t ∈ s.tileList → (s.tile t).awaitsField f = true → (s.tile t).core.stall = some k → Completed s u t k.a stCellLost 0) := by
  have runs : exec (.cellLostSweep f) s = .next (s.cellSweep f (s.field f).pwr.cause) := by
    show execCellLostSweep f s = _
    simp [execCellLostSweep, hf, hs, hr]
  obtain ⟨ts, hts, heq⟩ := s.cellSweep_eq f (s.field f).pwr.cause
  refine .of_next (runs.trans (congrArg _ heq)) ⟨?_, ⟨ts.length, ?_⟩, fun t k ht haw hk => Completed.of_cellLost hk ?_⟩
  · rw [State.event_cond]
    simp
  · refine Writes.among ?_ (State.writes_event _ _ _ _) rfl rfl
    exact foldl_keeps State.recording _ State.recording_loseCell ts s
  · rw [State.tile_event]
    refine (view_sweep Tile.core State.loseCell Core.cellLost Core.cellLost_cellLost State.core_loseCell ts s t).trans (if_pos ⟨t, ?_, rfl⟩)
    rw [hts]; exact List.mem_filter.mpr ⟨ht, haw⟩

end Sys2Proof.Machine
end

section
/-! SUPPORT. A router's moves: what each does to the packets in the mesh (R180, R187, R195, R198, R203). -/

namespace Sys2Proof.Machine

@[simp] theorem State.mesh_flitsOf (s : State) (p : Pkt) : (s.flitsOf p).2.mesh = s.mesh := by
  unfold State.flitsOf
  split <;> rfl

@[simp] theorem State.mesh_modRouter (s : State) (t : TileId) (g : Router → Router) : (s.modRouter t g).mesh = s.mesh := rfl

@[simp] theorem State.mesh_offerVc0 (s : State) (a : TileId) (d : Nat) : (s.offerVc0 a d).mesh = s.mesh := by
  unfold State.offerVc0
  dsimp only
  split
  · rw [State.event_mesh]; rfl
  · rfl

@[simp] theorem State.mesh_countFlits (s : State) (a : TileId) (n : Nat) : (s.countFlits a n).mesh = s.mesh := rfl

@[simp] theorem State.mesh_passCrossing (s : State) (a b : TileId) (depth : Nat) : (s.passCrossing a b depth).mesh = s.mesh := by
  unfold State.passCrossing
  split <;> rfl

/-- A granted packet becomes what its output makes of it. -/
theorem State.flight_crossTake (s : State) (i : Nat) (x : Flight) (d : Nat) (near : Bool) (next : Flight) :
    (s.crossTake i x d near next).mesh.flight = s.mesh.flight.set i next := by
  unfold State.crossTake State.setFlight
  dsimp only
  rw [State.mesh_countFlits, State.mesh_modRouter, State.mesh_ite, State.mesh_offerVc0, State.mesh_flitsOf, ite_self]

theorem State.scarab_refuseAt (s : State) (a : TileId) (p : Pkt) (st : Nat) : (s.refuseAt a p st).scarab = s.scarab :=
  foldl_keeps State.scarab (fun u q => u.sendFrom a q) (fun _ _ => rfl) _ _

theorem State.scarabQ_refuseAt (s : State) (a : TileId) (p : Pkt) (st : Nat) : (s.refuseAt a p st).scarabQ = s.scarabQ :=
  foldl_keeps State.scarabQ (fun u q => u.sendFrom a q) (fun _ _ => rfl) _ _

theorem State.mergeFlight_off {s : State} {x : Flight} (i : Nat) (h : (s.field (fieldOf x.at_)).mesh.mergeEn = false) : s.mergeFlight i x = (x, s) := by
  simp [State.mergeFlight, h]

section
variable {s : State} {i : Nat} {x : Flight} (hx : s.mesh.flight[i]? = some x) (head : s.laneHead i x = true)
include hx

theorem State.getElem_set (y : Flight) : (s.mesh.flight.set i y)[i]? = some y := by
  obtain ⟨h, -⟩ := List.getElem?_eq_some_iff.mp hx
  exact List.getElem?_set_self h

include head

/-- The hop of a packet that its output grants and no crossing holds back, where nothing merges into it. -/
theorem does_routePacket_hop {merge : Bool} {stall : Nat} (depth : Nat) {p : TileId} {cls : Nat} {det : Option Detour} {v : Nat} {near : Bool}
    (hm : s.moveOf x = .hop p cls det) (hg : s.granted x.at_ (dirTo x.at_ p) = some (i, v, near)) (hs : stall = 0 ∨ fieldOf p = fieldOf x.at_)
    (hmerge : merge = false ∨ (s.field (fieldOf x.at_)).mesh.mergeEn = false) :
    Does (.routePacket i merge stall depth) s
      (fun u => ∃ y, u.mesh.flight[i]? = some y ∧ y.at_ = p ∧ y.pkt = x.pkt ∧ y.cls = cls ∧ y.det = det ∧ y.fresh = false) := by
  have free : (!(fieldOf p == fieldOf x.at_) && decide (0 < stall)) = false := by
    obtain rfl | h := hs
    · simp
    · simp [h]
  have alone : (if merge then s.mergeFlight i x else (x, s)) = (x, s) := by
    obtain rfl | h := hmerge
    · rfl
    · rw [State.mergeFlight_off i h, ite_self]
  refine .of_next (u := _) rfl ⟨{ x with at_ := p, cls := cls, det := det, fresh := false, inp := arrivalPort x.at_ p }, ?_, rfl, rfl, rfl, rfl, rfl⟩
  simp only [State.route1, hx, head, hm, hg, free, alone, Bool.not_true, Bool.false_eq_true, if_false, ne_eq, not_true_eq_false]
  rw [State.flight_crossTake, State.mesh_passCrossing, State.getElem_set hx]

theorem does_routePacket_eject {merge : Bool} {stall : Nat} (depth : Nat) {v : Nat} {near : Bool}
    (hm : s.moveOf x = .eject) (hg : s.granted x.at_ 4 = some (i, v, near)) :
    Does (.routePacket i merge stall depth) s (fun u => ∃ y, u.mesh.flight[i]? = some y ∧ y.at_ = x.at_ ∧ y.pkt = x.pkt ∧ y.landed = true) := by
  refine .of_next (u := _) rfl ⟨{ x with fresh := false, landed := true }, ?_, rfl, rfl, rfl⟩
  simp only [State.route1, hx, head, hm, hg, Bool.not_true, Bool.false_eq_true, if_false, if_true]
  rw [State.flight_crossTake, State.getElem_set hx]

theorem does_routePacket_link {merge : Bool} {stall : Nat} (depth : Nat) (hm : s.moveOf x = .link) (hs : stall = 0 ∨ fieldOf x.aim = fieldOf x.at_) :
    Does (.routePacket i merge stall depth) s (fun u => ∃ y, u.mesh.flight[i]? = some y ∧ y.at_ = x.aim ∧ y.pkt = x.pkt ∧ y.landed = true) := by
  have free : (!(fieldOf x.aim == fieldOf x.at_) && decide (0 < stall)) = false := by
    obtain rfl | h := hs
    · simp
    · simp [h]
  refine .of_next (u := _) rfl ⟨{ x with at_ := x.aim, inp := arrivalPort x.at_ x.aim, landed := true }, ?_, rfl, rfl, rfl⟩
  simp only [State.route1, hx, head, hm, free, Bool.not_true, Bool.false_eq_true, if_false, State.setFlight, State.mesh_countFlits, State.mesh_flitsOf, State.mesh_passCrossing]
  exact State.getElem_set hx _

theorem does_routePacket_refuse (merge : Bool) (stall depth : Nat) (hm : s.moveOf x = .refuse) :
    Does (.routePacket i merge stall depth) s (fun u => Writes s u (fieldOf x.at_) 0x0881 [tileDetail x.at_, tileDetail x.aim, Sys2Proof.Machine.Body.kind x.pkt.body]) := by
  refine .of_next (u := s.refuseFlight i x) ?_ ?_
  · show execRoutePacket i merge stall depth s = _
    simp only [execRoutePacket, State.route1, hx, head, hm, Bool.not_true, Bool.false_eq_true, if_false]
  · exact Writes.among (by rfl) (State.writes_event _ _ _ _) (State.scarabQ_refuseAt ..) (State.scarab_refuseAt ..)

theorem does_routePacket_wait (merge : Bool) (stall depth : Nat) (hm : s.moveOf x = .wait) : Does (.routePacket i merge stall depth) s (fun u => u = s) := by
  refine .of_next (u := _) rfl ?_
  simp only [State.route1, hx, head, hm, Bool.not_true, Bool.false_eq_true, if_false]

end

/-- With no furrow in its way, a packet under way to the east moves a hop east (R187). -/
theorem State.moveOf_east {s : State} {x : Flight} (hf : x.fresh = false) (hl : x.landed = false) (hd : x.det = none) (hc : x.cls = 0) (ht : x.pkt.h.dst = .tile x.aim)
    (ha : onArray x.aim = true) (hx : x.at_.x < x.aim.x) (hp : onArray ⟨x.at_.x + 1, x.at_.y⟩ = true) (hs : fieldOf ⟨x.at_.x + 1, x.at_.y⟩ = fieldOf x.at_)
    (hr : (s.field (fieldOf x.at_)).running = true) (hm : s.mesh.map.furrows = []) (he : (s.router x.at_).deadE = false) :
    s.moveOf x = .hop ⟨x.at_.x + 1, x.at_.y⟩ 0 none := by
  have paced : s.paced x = true := by
    unfold State.paced
    dsimp only
    split <;> simp [hf]
  have ne : x.at_ ≠ x.aim := fun h => by simp [h] at hx
  have onward : nextHop [] 4 0 none x.at_ x.aim = .go ⟨x.at_.x + 1, x.at_.y⟩ 0 none := by
    simp [nextHop, ne, mainClass, stepTo, Nat.ne_of_lt hx]
  have east : dirTo x.at_ ⟨x.at_.x + 1, x.at_.y⟩ = 0 := by simp [dirTo]
  simp [State.moveOf, hl, hf, hr, paced, badDst, ht, ha, State.byLink, State.furrowsFor, hm, hc, hd, onward, east, Router.deadIn, he, hp, State.crossingRuns, hs]

theorem does_routePacket_east {s : State} {i : Nat} {x : Flight} (hx : s.mesh.flight[i]? = some x) (head : s.laneHead i x = true) (stall depth : Nat) {v : Nat} {near : Bool}
    (hf : x.fresh = false) (hl : x.landed = false) (hd : x.det = none) (hc : x.cls = 0) (ht : x.pkt.h.dst = .tile x.aim)
    (ha : onArray x.aim = true) (hlt : x.at_.x < x.aim.x) (hp : onArray ⟨x.at_.x + 1, x.at_.y⟩ = true) (hs : fieldOf ⟨x.at_.x + 1, x.at_.y⟩ = fieldOf x.at_)
    (hr : (s.field (fieldOf x.at_)).running = true) (hm : s.mesh.map.furrows = []) (he : (s.router x.at_).deadE = false) (hg : s.granted x.at_ 0 = some (i, v, near)) :
    Does (.routePacket i false stall depth) s (fun u => ∃ y, u.mesh.flight[i]? = some y ∧ y.at_ = ⟨x.at_.x + 1, x.at_.y⟩ ∧ y.pkt = x.pkt ∧ y.cls = 0) := by
  have east : dirTo x.at_ ⟨x.at_.x + 1, x.at_.y⟩ = 0 := by simp [dirTo]
  obtain ⟨u, runs, y, at_, pos, pkt, cls, -⟩ := does_routePacket_hop (stall := stall) hx head depth (State.moveOf_east hf hl hd hc ht ha hlt hp hs hr hm he)
    (east ▸ hg) (.inr hs) (.inl rfl)
  exact ⟨u, runs, y, at_, pos, pkt, cls⟩

end Sys2Proof.Machine
end

section
/-! SUPPORT. Multicast: the tiles a packet reaches, and what a raw write of the conductor does to them (R115, R119, R204). -/

namespace Sys2Proof.Machine

/-- The conductor has no register of a tile that a write of its changes (R115). -/
theorem State.writeRegs_conductor (s : State) (t : TileId) (o : Nat) (data : List Byte) : s.writeRegs t .conductor o data = s :=
  foldl_keeps id _ (fun u i => by simp [State.writeTileReg, coreOrFc]) _ s

theorem not_inRegs_of_inMem {o n : Nat} (h : inMem o n = true) : inRegs o n = false := by
  have hs : spEnd = 0xC000 := rfl
  have ht : tmEnd = 0x80000 := rfl
  have hr : regBase = 0xF0000 := rfl
  simp only [inMem, inSp, inTm, Bool.or_eq_true, Bool.and_eq_true, decide_eq_true_eq] at h
  simp only [inRegs, Bool.and_eq_false_iff, decide_eq_false_iff_not]
  omega

theorem State.tile_correctWords_other (t v : TileId) (k : tileKey t ≠ tileKey v) (ws : List Nat) (s : State) : (s.correctWords t ws).tile v = s.tile v := by
  refine foldl_keeps (fun u : State => u.tile v) _ (fun u w => ?_) ws s
  dsimp only
  rw [State.tile_countCe]
  split
  · rfl
  · rw [State.tile_modTile_ite, if_neg k]

/-- A raw write of the conductor leaves the other tiles as they are. -/
theorem State.tile_rawPut_other (s : State) {t v : TileId} (k : tileKey t ≠ tileKey v) (o : Nat) (data : List Byte) :
    (s.rawPut t .conductor o data).2.tile v = s.tile v := by
  unfold State.rawPut
  dsimp only
  split
  · rw [State.writeRegs_conductor, ite_self]
  · split
    · split
      · rfl
      · dsimp only
        rw [State.tile_modTile_ite, if_neg k]
        exact State.tile_correctWords_other t v k _ s
    · rfl

theorem State.tile_rawPuts_other {v : TileId} (o : Nat) (data : List Byte) (ts : List TileId) (s : State) (h : ∀ t ∈ ts, tileKey t ≠ tileKey v) :
    (ts.foldl (fun s t => (s.rawPut t .conductor o data).2) s).tile v = s.tile v := by
  induction ts generalizing s with
  | nil => rfl
  | cons t ts ih =>
    rw [List.foldl_cons, ih _ fun x hx => h x (List.mem_cons_of_mem _ hx), State.tile_rawPut_other s (h t List.mem_cons_self)]

theorem Tile.cells_of_calm {a b : Tile} (h : a.calm = b.calm) : a.mem.cells = b.mem.cells := (congrArg (fun tl : Tile => tl.mem.cells) h : a.calm.mem.cells = b.calm.mem.cells)
theorem Tile.ue_of_calm {a b : Tile} (h : a.calm = b.calm) : a.mem.ue = b.mem.ue := (congrArg (fun tl : Tile => tl.mem.ue) h : a.calm.mem.ue = b.calm.mem.ue)

/-- A raw write of sound memory: the bytes stand there, and the words covered whole have lost their errors. -/
theorem State.mem_rawPut (s : State) {t v : TileId} (k : tileKey t = tileKey v) (w : Writer) {o : Nat} {data : List Byte} (hm : inMem o data.length = true)
    (hp : (s.tile v).mem.partialHit o data.length = none) :
    ((s.rawPut t w o data).2.tile v).mem.cells = (s.tile v).mem.cells.writeN data o ∧
      ((s.rawPut t w o data).2.tile v).mem.ue = (s.tile v).mem.ue.filter (fun x => !covers o data.length x) := by
  have calm := State.calm_merge s t v o data.length
  rw [← State.tile_of_key k] at hp
  simp only [State.rawPut, not_inRegs_of_inMem hm, hm, hp, Bool.false_eq_true, if_false, if_true]
  rw [State.tile_modTile_ite, if_pos k, ← Tile.cells_of_calm calm, ← Tile.ue_of_calm calm]
  exact ⟨rfl, rfl⟩

/-- Memory that a write of these bytes at this offset may go through, and that was changed nowhere else. -/
def Unharmed (m : Memory) (o n : Nat) (tm : TileMem) : Prop := SameBut m tm.cells o n ∧ tm.partialHit o n = none

theorem TileMem.partialHit_of_ue {a b : TileMem} {p : Nat → Bool} {o n : Nat} (h : b.ue = a.ue.filter p) (ha : a.partialHit o n = none) : b.partialHit o n = none := by
  unfold TileMem.partialHit at *
  rw [h]
  exact List.find?_eq_none.mpr fun x hx => List.find?_eq_none.mp ha x (List.mem_filter.mp hx).1

/-- A multicast copy at its tile writes the bytes and nothing else. -/
theorem State.unharmed_rawPut {m : Memory} {o : Nat} {data : List Byte} (hm : inMem o data.length = true) {v : TileId} {s : State} (t : TileId)
    (h : Unharmed m o data.length (s.tile v).mem) : Unharmed m o data.length ((s.rawPut t .conductor o data).2.tile v).mem ∧
      (tileKey t = tileKey v ∨ (s.tile v).get o data.length = data → ((s.rawPut t .conductor o data).2.tile v).get o data.length = data) := by
  by_cases k : tileKey t = tileKey v
  · obtain ⟨hc, hu⟩ := s.mem_rawPut k .conductor hm h.2
    have wrote : ((s.rawPut t .conductor o data).2.tile v).get o data.length = data := by
      rw [Tile.get, TileMem.get, hc]; exact Memory.readN_writeN ..
    refine ⟨⟨fun i hi => ?_, TileMem.partialHit_of_ue hu h.2⟩, fun _ => wrote⟩
    rw [hc, Memory.read_writeN_other _ _ _ _ hi]; exact h.1 i hi
  · rw [State.tile_rawPut_other s k]
    exact ⟨h, fun e => e.resolve_left k⟩

theorem State.unharmed_rawPuts {m : Memory} {o : Nat} {data : List Byte} (hm : inMem o data.length = true) {v : TileId} (ts : List TileId) (s : State)
    (h : Unharmed m o data.length (s.tile v).mem) : Unharmed m o data.length ((ts.foldl (fun s t => (s.rawPut t .conductor o data).2) s).tile v).mem ∧
      (v ∈ ts ∨ (s.tile v).get o data.length = data → ((ts.foldl (fun s t => (s.rawPut t .conductor o data).2) s).tile v).get o data.length = data) := by
  induction ts generalizing s with
  | nil => exact ⟨h, fun e => e.resolve_left (by simp)⟩
  | cons t ts ih =>
    obtain ⟨kept, puts⟩ := State.unharmed_rawPut hm t h
    obtain ⟨after, rest⟩ := ih _ kept
    refine ⟨after, fun e => ?_⟩
    rcases e with e | e
    · rcases List.mem_cons.mp e with rfl | e
      · exact rest (.inr (puts (.inl rfl)))
      · exact rest (.inl e)
    · exact rest (.inr (puts (.inr e)))

/-- The tiles a multicast of the conductor reaches. -/
def State.mcastReached (s : State) (r : Rect) : List TileId :=
  ((s.tileList.filter (fun t => Rect.has r t && (s.tile t).present && s.clocked t)).filterMap
    (fun t => (s.mcastStop (s.place .conductor) t).map (fun q => (t, q)))).filterMap (fun e => if e.2.isNone then some e.1 else none)

theorem State.mem_mcastReached {s : State} {r : Rect} {t : TileId} : t ∈ s.mcastReached r ↔
    (t ∈ s.tileList ∧ Rect.has r t = true ∧ (s.tile t).present = true ∧ s.clocked t = true) ∧ s.mcastStop (s.place .conductor) t = some none := by
  simp only [State.mcastReached, List.mem_filterMap, List.mem_filter, Option.map_eq_some_iff, Bool.and_eq_true]
  constructor
  · rintro ⟨e, ⟨v, ⟨hv, ⟨hr, hp⟩, hc⟩, q, hq, rfl⟩, he⟩
    cases q with
    | none => obtain rfl : v = t := by simpa using he
              exact ⟨⟨hv, hr, hp, hc⟩, hq⟩
    | some q => simp at he
  · rintro ⟨⟨hv, hr, hp, hc⟩, hq⟩
    exact ⟨(t, none), ⟨t, ⟨hv, ⟨hr, hp⟩, hc⟩, none, hq, rfl⟩, rfl⟩

/-- The routers that drop a copy change no tile; then each tile reached takes its copy. -/
theorem multicast_runs (s : State) (r : Rect) (off : Nat) {data : List Byte} (hl : data.length ≤ multicastMax) :
    ∃ v : State, (∀ t, v.tile t = s.tile t) ∧
      exec (.multicast r off data) s = .next ((s.mcastReached r).foldl (fun s t => (s.rawPut t .conductor off data).2) v) := by
  refine ⟨_, fun t => ?_, congrArg Host.Outcome.next (if_neg (Nat.not_lt.mpr hl))⟩
  exact foldl_keeps (fun u : State => u.tile t) _ (fun u q => by simp [State.mcastDropped]) _ s

theorem does_multicast {s : State} {r : Rect} {off : Nat} {data : List Byte} {t : TileId} (ht : t ∈ s.tileList) (hr : Rect.has r t = true) (hp : (s.tile t).present = true)
    (hc : s.clocked t = true) (hl : data.length ≤ multicastMax) (hs : s.mcastStop (s.place .conductor) t = some none) (hm : inMem off data.length = true)
    (he : (s.tile t).mem.partialHit off data.length = none) :
    Does (.multicast r off data) s (fun u => (u.tile t).get off data.length = data ∧ SameBut (s.tile t).mem.cells (u.tile t).mem.cells off data.length) := by
  obtain ⟨v, same, runs⟩ := multicast_runs s r off hl
  obtain ⟨kept, wrote⟩ := State.unharmed_rawPuts hm (v := t) (s.mcastReached r) v (m := (s.tile t).mem.cells) (by rw [same]; exact ⟨fun _ _ => rfl, he⟩)
  exact .of_next runs ⟨wrote (.inl (State.mem_mcastReached.mpr ⟨⟨ht, hr, hp, hc⟩, hs⟩)), kept.1⟩

theorem does_multicast_stopped {s : State} {r : Rect} (off : Nat) {data : List Byte} {t q : TileId} (ht : t ∈ s.tileList) (hl : data.length ≤ multicastMax)
    (hs : s.mcastStop (s.place .conductor) t = some (some q)) : Does (.multicast r off data) s (fun u => u.tile t = s.tile t) := by
  obtain ⟨v, same, runs⟩ := multicast_runs s r off hl
  have missed : ∀ x ∈ s.mcastReached r, tileKey x ≠ tileKey t := fun x hx k => by
    obtain ⟨⟨hx, -⟩, reached⟩ := State.mem_mcastReached.mp hx
    obtain rfl := tileKey_inj x t (State.x_of_mem_tileList hx) (State.x_of_mem_tileList ht) k
    simp [hs] at reached
  exact .of_next runs ((State.tile_rawPuts_other off data _ v missed).trans (same t))

end Sys2Proof.Machine
end

section
/-! SUPPORT. The switch to a new map: what dropping, shadowing and settling leave, and the tiles that the map shadows (R62, R193, R250). -/

namespace Sys2Proof.Machine

/-! ## The map, and whether a field is a furrow -/

/-- How a field stands to the map: the kind it is listed under, the map in force and the next, the pause and the distance table that is due. -/
def State.mapView (s : State) (f : Nat) : Option Nat × FMap × Option FMap × Bool × Bool :=
  (s.furrowKind f, s.mesh.map, s.mesh.next, s.mesh.paused, s.mesh.distDue)

section
variable (s : State) (f : Nat)

@[simp] theorem State.mapView_modTile (t : TileId) (g : Tile → Tile) : (s.modTile t g).mapView f = s.mapView f := (rfl)
@[simp] theorem State.mapView_sendFrom (a : TileId) (p : Pkt) : (s.sendFrom a p).mapView f = s.mapView f := (rfl)
@[simp] theorem State.mapView_status (h : Hdr) (gen : Nat) (re : Re) (code : Nat) : (s.status h gen re code).mapView f = s.mapView f := (rfl)
@[simp] theorem State.mapView_reply (h : Hdr) (gen : Nat) (re : Re) (code : Nat) (data : List Byte) : (s.reply h gen re code data).mapView f = s.mapView f := (rfl)
@[simp] theorem State.mapView_event (src c : Nat) (d : List Nat) : (s.event src c d).mapView f = s.mapView f := by
  simp [State.mapView, State.furrowKind]
theorem State.mapView_modField (k : Nat) {g : Field → Field} (h : ∀ fd, (g fd).svc.furrow = fd.svc.furrow) : (s.modField k g).mapView f = s.mapView f := by
  have := State.view_modField (fun fd => fd.svc.furrow) s k f g h
  simp only [State.mapView, State.furrowKind, State.modField_mesh, this]

theorem State.mapView_windowFlush (t : TileId) (w : Nat) : (s.windowFlush t w).mapView f = s.mapView f := by
  refine (foldl_keeps (fun u : State => u.mapView f) _ (fun u r => ?_) _ _).trans (State.mapView_modTile s f t _)
  dsimp only [State.windowAnswer]
  split <;> simp

theorem State.mapView_leaveService (t : TileId) : (s.leaveService t).mapView f = s.mapView f := by
  unfold State.leaveService
  generalize upto 8 = ws
  refine (foldl_keeps (fun u : State => u.mapView f) _ (fun u w => State.mapView_windowFlush u f t w) ws _).trans ?_
  split
  · split <;> rfl
  · rfl

theorem State.mapView_sleep (t : TileId) : (s.sleep t).mapView f = s.mapView f := by
  unfold State.sleep
  dsimp only
  split
  · rw [State.mapView_modTile]
  · rw [State.mapView_modField _ _ _ fun fd => by split <;> rfl, State.mapView_modTile]

theorem State.mapView_freeRegs : s.freeRegs.2.mapView f = s.mapView f := by
  unfold State.freeRegs
  generalize upto 31 = l
  exact foldl_keeps (fun p : Tab Word × State => p.2.mapView f) _ (fun _ _ => by rfl) l ([], s)

theorem State.mapView_modRec (t : TileId) (g : TRec → TRec) : (s.modRec t g).mapView f = s.mapView f :=
  State.mapView_modField _ _ _ fun _ => rfl

theorem State.mapView_enterQuarantine (t : TileId) : (s.enterQuarantine t).mapView f = s.mapView f := by
  unfold State.enterQuarantine
  dsimp only
  generalize hl : s.leaveService t = l
  have left : l.mapView f = s.mapView f := hl ▸ State.mapView_leaveService s f t
  generalize hr : l.freeRegs = r
  have regs : r.2.mapView f = s.mapView f := left ▸ hr ▸ State.mapView_freeRegs l f
  rw [apply_ite (fun u : State => u.mapView f), State.mapView_event, State.mapView_modRec, State.mapView_modTile, State.mapView_sleep, State.mapView_modRec, left, ← regs]
  exact ite_self ..

theorem State.mapView_reshade (t : TileId) : (s.reshade t).mapView f = s.mapView f := by
  unfold State.reshade
  dsimp only
  split
  · rfl
  · split
    · exact State.mapView_enterQuarantine s f t
    · rfl

end

/-! ## What entering QUARANTINE leaves of the other tiles -/

section
variable (s : State) {t v : TileId} (k : tileKey t ≠ tileKey v)
include k

theorem State.tile_modTile_other (g : Tile → Tile) : (s.modTile t g).tile v = s.tile v := by
  rw [State.tile_modTile_ite, if_neg k]

theorem State.tile_windowFlush_other (w : Nat) : (s.windowFlush t w).tile v = s.tile v := by
  refine (foldl_keeps (fun u : State => u.tile v) _ (fun u r => ?_) _ _).trans (State.tile_modTile_other s k _)
  dsimp only [State.windowAnswer]
  split <;> rfl

theorem State.tile_leaveService_other : (s.leaveService t).tile v = s.tile v := by
  unfold State.leaveService
  generalize upto 8 = ws
  refine (foldl_keeps (fun u : State => u.tile v) _ (fun u w => State.tile_windowFlush_other u k w) ws _).trans ?_
  split
  · split
    · exact Tab.getD_put_other _ _ _ _ _ k
    · rfl
  · rfl

theorem State.tile_sleep_other : (s.sleep t).tile v = s.tile v := by
  unfold State.sleep
  dsimp only
  split
  · exact State.tile_modTile_other s k _
  · rw [State.tile_modField, State.tile_modTile_other s k]

theorem State.tile_enterQuarantine_other : (s.enterQuarantine t).tile v = s.tile v := by
  unfold State.enterQuarantine
  dsimp only
  generalize hl : s.leaveService t = l
  have left : l.tile v = s.tile v := hl ▸ State.tile_leaveService_other s k
  generalize hr : l.freeRegs = r
  have regs : r.2.tile v = s.tile v := by
    rw [← left, ← hr]
    unfold State.freeRegs
    generalize upto 31 = ns
    exact foldl_keeps (fun p : Tab Word × State => p.2.tile v) _ (fun _ _ => by rfl) ns ([], l)
  split
  · rw [State.tile_event, State.modRec, State.tile_modField, State.tile_modTile_other l k, left]
  · rw [State.tile_sleep_other _ k, State.modRec, State.tile_modField, ← regs]
    exact Tab.getD_put_other _ _ _ _ _ k

theorem State.tile_reshade_other : (s.reshade t).tile v = s.tile v := by
  unfold State.reshade
  dsimp only
  split
  · exact State.tile_setTile_other _ _ _ _ k
  · split
    · exact State.tile_enterQuarantine_other s k
    · rfl

end

/-! ## Dropping, loading and settling -/

section
variable (s : State) (f : Nat)

theorem State.tiles_refuseAt (a : TileId) (p : Pkt) (st : Nat) : (s.refuseAt a p st).tiles = s.tiles :=
  foldl_keeps State.tiles (fun u q => u.sendFrom a q) (fun _ _ => rfl) _ _

theorem State.mapView_refuseAt (a : TileId) (p : Pkt) (st : Nat) : (s.refuseAt a p st).mapView f = s.mapView f :=
  foldl_keeps (fun u : State => u.mapView f) (fun u q => u.sendFrom a q) (fun _ _ => rfl) _ _

theorem State.tiles_dropStale (seq : Nat) (x : Flight) : (s.dropStale seq x).tiles = s.tiles := by
  unfold State.dropStale
  dsimp only
  split
  · exact State.event_tiles ..
  · rw [State.tiles_refuseAt, State.event_tiles]; rfl

theorem State.mapView_dropStale (seq : Nat) (x : Flight) : (s.dropStale seq x).mapView f = s.mapView f := by
  unfold State.dropStale
  dsimp only
  split
  · rw [State.mapView_sendFrom, State.mapView_event]; exact State.mapView_modField _ _ _ fun _ => rfl
  · rw [State.mapView_refuseAt, State.mapView_event]; exact State.mapView_modField _ _ _ fun _ => rfl

theorem State.tiles_dropHeld : s.dropHeld.tiles = s.tiles :=
  foldl_keeps State.tiles _ (fun u x => u.tiles_dropStale _ x) _ _

theorem State.mapView_dropHeld : s.dropHeld.mapView f = s.mapView f :=
  foldl_keeps (fun u : State => u.mapView f) _ (fun u x => u.mapView_dropStale f _ x) _ _

theorem State.mapView_setField (k : Nat) {fd : Field} (h : fd.svc.furrow = (s.field k).svc.furrow) : (s.setField k fd).mapView f = s.mapView f := by
  have furrow : ((s.setField k fd).field f).svc.furrow = (s.field f).svc.furrow := by
    by_cases e : k = f
    · subst e; rw [State.field_setField, h]
    · rw [State.field_setField_other _ _ _ _ e]
  simp only [State.mapView, State.furrowKind, State.setField_mesh, furrow]

theorem State.mapView_fieldMapped (k : Nat) : (s.fieldMapped k).mapView f = s.mapView f := by
  unfold State.fieldMapped
  dsimp only
  split
  · split
    · split
      · exact State.mapView_setField s f k rfl
      · rfl
    · split
      · exact State.mapView_setField s f k rfl
      · rfl
    all_goals rfl
  · split
    · rfl
    · rw [State.mapView_modField _ _ _ fun fd => by split <;> rfl]
      split
      · exact State.mapView_setField s f k rfl
      · rfl
  · rfl

theorem State.tiles_fieldMapped (k : Nat) : (s.fieldMapped k).tiles = s.tiles := by
  unfold State.fieldMapped
  dsimp only
  (repeat' split) <;> rfl

/-- The map in force is loaded, in every router and in every field. -/
@[irreducible] def State.mapLoaded (m : FMap) : State :=
  (upto 56).foldl (fun s f => s.fieldMapped f) (({ s with mesh := { s.mesh with
    map := m, next := none, paused := false, distDue := true,
    dead := s.mesh.dead.filter (fun f => !(s.mesh.dead.filter (fun f => m.holds f)).contains f) } }).allFields (fun f fd =>
      State.reloadFlags { s with mesh := { s.mesh with
        map := m, next := none, paused := false, distDue := true,
        dead := s.mesh.dead.filter (fun f => !(s.mesh.dead.filter (fun f => m.holds f)).contains f) } } f fd))

theorem State.tiles_mapLoaded (m : FMap) : (s.mapLoaded m).tiles = s.tiles := by
  unfold State.mapLoaded
  generalize upto 56 = fs
  exact foldl_keeps State.tiles _ (fun u k => u.tiles_fieldMapped k) fs _

theorem State.mapView_mapLoaded (m : FMap) : (s.mapLoaded m).mapView f = (s.furrowKind f, m, none, false, true) := by
  unfold State.mapLoaded
  generalize upto 56 = fs
  refine (foldl_keeps (fun u : State => u.mapView f) _ (fun u k => u.mapView_fieldMapped f k) fs _).trans ?_
  refine congrArg (fun k => (k, m, none, false, true)) ?_
  unfold State.furrowKind State.field State.allFields
  dsimp only
  rw [Tab.getD, Tab.getD, Tab.find_mapVals]
  cases s.fields.find f <;> rfl

theorem State.mapView_reportCutOff : s.reportCutOff.mapView f = s.mapView f := by
  unfold State.reportCutOff
  generalize upto 4 = js
  exact foldl_keeps (fun u : State => u.mapView f) _ (fun u j => u.mapView_event f _ _ _) _ _

theorem State.tile_reportCutOff (t : TileId) : s.reportCutOff.tile t = s.tile t := by
  unfold State.reportCutOff
  generalize upto 4 = js
  exact foldl_keeps (fun u : State => u.tile t) _ (fun u j => u.tile_event _ _ _ t) _ _

theorem State.mapView_endThatch (t : TileId) : (s.endThatch t).mapView f = s.mapView f := by
  unfold State.endThatch
  dsimp only
  split
  · exact State.mapView_modField _ _ _ fun _ => rfl
  · rfl

theorem State.mapView_finish (t : TileId) (a : XArgs) (st x cost : Nat) : (s.finish t a st x cost).mapView f = s.mapView f := by
  unfold State.finish
  rw [State.mapView_modTile, apply_ite (fun u : State => u.mapView f), State.mapView_endThatch, ite_self]

theorem State.mapView_ctxLost (t : TileId) (c : Nat) (path : Bool) : (s.ctxLost t c path).mapView f = s.mapView f := by
  unfold State.ctxLost State.endSend
  dsimp only
  (repeat' split) <;> simp [State.mapView_finish]

theorem State.mapView_loseWrite (t : TileId) (w : WriteRec) : (s.loseWrite t w).mapView f = s.mapView f := by
  unfold State.loseWrite
  dsimp only
  (repeat' split) <;> simp [State.mapView_finish, State.mapView_ctxLost]

theorem State.mapView_newEpoch (at_ : Nat) : (s.newEpoch at_).mapView f = s.mapView f :=
  foldl_keeps (fun u : State => u.mapView f) _ (fun u t => foldl_keeps (fun u : State => u.mapView f) _ (fun u w => u.mapView_loseWrite f t w) _ u) _ s

theorem State.st_newEpoch (at_ : Nat) (t : TileId) : ((s.newEpoch at_).tile t).st = (s.tile t).st := by
  refine .trans ?_ (foldl_keeps (fun u : State => (u.tile t).st) _ (fun u v => u.st_settleOld (fun _ => true) v t) s.tileList s)
  unfold State.newEpoch State.tile State.allTiles
  dsimp only
  rw [Tab.getD, Tab.getD, Tab.find_mapVals]
  cases Tab.find _ _ <;> rfl

end

/-! ## The tiles that a map shadows -/

/-- The switch to a new map, but for the epoch that may follow it. -/
def State.switched (s : State) (m : FMap) : State :=
  let d := s.dropHeld
  let l := d.mapLoaded m
  let r := l.tileList.foldl (fun s t => s.reshade t) l
  ({ r with mesh := { r.mesh with flight := r.mesh.flight.map (fun x => r.readdress d x) } }).reportCutOff

theorem mapSwitch_runs {s : State} {m : FMap} (hn : s.mesh.next = some m) (hp : s.mesh.paused = true) (he : m.effective + 256 ≤ s.time) :
    exec .mapSwitch s = .next (s.switched m) ∨ exec .mapSwitch s = .next ((s.switched m).newEpoch m.effective) := by
  have runs : exec .mapSwitch s = .next (if (s.dropHeld.mesh.dead.filter (fun f => m.holds f)).isEmpty then s.switched m else (s.switched m).newEpoch m.effective) := by
    show execMapSwitch s = _
    unfold execMapSwitch State.switched State.mapLoaded
    simp only [hn]
    rw [if_pos ⟨hp, he⟩]
  rw [runs]
  split
  · exact .inl rfl
  · exact .inr rfl

/-- A position that a map covers becomes a hole, where its field is in service and its tile good; a hole stays one. -/
theorem State.st_reshade_own {s : State} {t : TileId} (hc : s.mesh.map.furrows.any (fun r => r.covers t) = true) (hf : s.furrowKind (fieldOf t) = none)
    (ht : (s.tile t).present = true ∨ (s.tile t).st = .hole) : ((s.reshade t).tile t).st = .hole := by
  unfold State.reshade
  by_cases hp : (s.tile t).present = true
  · simp [hc, hf, hp]
  · simp [hc, hp, ht.resolve_left hp]

/-- Of the positions a map covers, those it visits become holes. -/
theorem State.st_reshades {t : TileId} (ht : t.x < 800) : ∀ (ts : List TileId) (s : State), (∀ x ∈ ts, x.x < 800) →
    s.mesh.map.furrows.any (fun r => r.covers t) = true → s.furrowKind (fieldOf t) = none →
    ((s.tile t).st = .hole ∨ (s.tile t).present = true ∧ t ∈ ts) → ((ts.foldl (fun s t => s.reshade t) s).tile t).st = .hole
  | [], s, _, _, _, h => h.resolve_right fun h => nomatch h.2
  | x :: ts, s, hx, hc, hf, h => by
    obtain ⟨furrow, map, -⟩ : (s.reshade x).furrowKind (fieldOf t) = s.furrowKind (fieldOf t) ∧ (s.reshade x).mesh.map = s.mesh.map ∧ _ := by
      simpa [State.mapView] using State.mapView_reshade s (fieldOf t) x
    refine State.st_reshades ht ts _ (fun y hy => hx y (List.mem_cons_of_mem _ hy)) (map ▸ hc) (furrow ▸ hf) ?_
    by_cases e : x = t
    · subst e
      exact .inl (State.st_reshade_own hc hf (h.symm.imp And.left id))
    · have k : tileKey x ≠ tileKey t := fun k => e (tileKey_inj x t (hx x List.mem_cons_self) ht k)
      rw [State.tile_reshade_other s k]
      exact h.imp id fun ⟨hp, ht⟩ => ⟨hp, (List.mem_cons.mp ht).resolve_left (Ne.symm e)⟩

theorem State.mapView_switched (s : State) (m : FMap) (f : Nat) : (s.switched m).mapView f = (s.furrowKind f, m, none, false, true) := by
  have dropped : s.dropHeld.furrowKind f = s.furrowKind f := congrArg Prod.fst (s.mapView_dropHeld f)
  rw [State.switched, State.mapView_reportCutOff, ← dropped, ← State.mapView_mapLoaded]
  exact foldl_keeps (fun u : State => u.mapView f) _ (fun u t => u.mapView_reshade f t) _ _

theorem State.st_switched {s : State} {m : FMap} {t : TileId} (ht : t ∈ s.tileList) (hp : (s.tile t).present = true) (hf : s.furrowKind (fieldOf t) = none)
    (hm : ∃ r ∈ m.furrows, r.covers t = true) : ((s.switched m).tile t).st = .hole := by
  rw [State.switched, State.tile_reportCutOff]
  have loaded := State.mapView_mapLoaded s.dropHeld (fieldOf t) m
  have tiles : (s.dropHeld.mapLoaded m).tiles = s.tiles := (State.tiles_mapLoaded _ m).trans s.tiles_dropHeld
  have dropped : s.dropHeld.furrowKind (fieldOf t) = s.furrowKind (fieldOf t) := congrArg Prod.fst (s.mapView_dropHeld (fieldOf t))
  generalize s.dropHeld.mapLoaded m = l at loaded tiles
  obtain ⟨furrow, map, -⟩ : l.furrowKind (fieldOf t) = s.dropHeld.furrowKind (fieldOf t) ∧ l.mesh.map = m ∧ _ := by simpa [State.mapView] using loaded
  have listed : l.tileList = s.tileList := by rw [State.tileList, tiles]; rfl
  have tile : l.tile t = s.tile t := by rw [State.tile, tiles]; rfl
  refine State.st_reshades (State.x_of_mem_tileList ht) l.tileList l (fun x hx => State.x_of_mem_tileList hx) ?_ (by rw [furrow, dropped, hf]) (.inr ⟨tile ▸ hp, listed ▸ ht⟩)
  rw [map]
  exact List.any_eq_true.mpr hm

theorem does_mapSwitch {s : State} {m : FMap} (hn : s.mesh.next = some m) (hp : s.mesh.paused = true) (he : m.effective + 256 ≤ s.time) :
    Does .mapSwitch s (fun u => u.mesh.map = m ∧ u.mesh.next = none ∧ u.mesh.paused = false ∧ u.mesh.distDue = true ∧
      ∀ t ∈ s.tileList, (s.tile t).present = true → s.furrowKind (fieldOf t) = none → (∃ r ∈ m.furrows, r.covers t = true) → (u.tile t).st = .hole) := by
  have views {u : State} (h : u.mapView 0 = (s.switched m).mapView 0) : u.mesh.map = m ∧ u.mesh.next = none ∧ u.mesh.paused = false ∧ u.mesh.distDue = true := by
    rw [State.mapView_switched] at h
    simpa [State.mapView] using (Prod.mk.inj h).2
  obtain runs | runs := mapSwitch_runs hn hp he
  · obtain ⟨map, next, paused, due⟩ := views rfl
    exact .of_next runs ⟨map, next, paused, due, fun t ht hg hf hm => State.st_switched ht hg hf hm⟩
  · obtain ⟨map, next, paused, due⟩ := views (State.mapView_newEpoch (s.switched m) 0 m.effective)
    exact .of_next runs ⟨map, next, paused, due, fun t ht hg hf hm => (State.st_newEpoch _ _ t).trans (State.st_switched ht hg hf hm)⟩

end Sys2Proof.Machine
end

section
/-! PROOFS. Refresh, scrub, map changes, settlement, multicast and routing (O18). -/

namespace Sys2Proof.Machine

/-- Settles O18, by what each of its commands does: the upkeep of the memories, the map's publication and switch, settlement, the sweep, multicast and a router's moves. -/
theorem memoryUpkeepAndMaps : Obligations.MemoryUpkeepAndMaps := fun _ =>
  ⟨fun _ _ => does_rowRefresh,
   fun _ hf hu hp hd => ⟨does_patrolScrub_moves hf hu hp hd, fun _ => does_patrolScrub hf hu hp hd⟩,
   fun _ _ => does_patrolScrub_host,
   fun _ _ => does_refreshDerate,
   fun _ _ => does_refreshRestore,
   fun _ hr hb ht hp => ⟨does_mapPublish hr hb ht hp, fun _ => does_mapPublish_joins hr hb ht hp⟩,
   fun _ hn => ⟨does_mapInjectionPause hn, does_mapSwitch hn⟩,
   fun _ _ => does_fenceSettleLocal,
   fun _ _ _ => does_fenceSettleRemote,
   does_distTablePublish,
   fun _ => does_cellLostSweep,
   fun _ off _ _ ht hr hp hc hl => ⟨does_multicast ht hr hp hc hl, fun _ => does_multicast_stopped off ht hl⟩,
   fun _ _ merge stall depth hx head =>
    ⟨fun _ _ _ _ _ => does_routePacket_hop hx head depth,
     fun _ _ => does_routePacket_eject hx head depth,
     does_routePacket_link hx head depth,
     does_routePacket_refuse hx head merge stall depth,
     does_routePacket_wait hx head merge stall depth,
     fun _ _ => does_routePacket_east hx head stall depth⟩⟩

end Sys2Proof.Machine
end

section
/-! SUPPORT. Packets that arrive and packets that are sent: what each leaves, and what stands in the mesh after it. -/

namespace Sys2Proof.Machine

/-- The state without its tiles and its mesh. -/
def State.besideArrival (s : State) : State := { s with tiles := [], mesh := {} }

/-- An endpoint that takes a packet moves its pointer and the packet alone. -/
theorem State.besideArrival_took (s : State) (p : Pkt) : (s.took p).besideArrival = s.besideArrival := by
  have turned : (s.turned p).besideArrival = s.besideArrival := by
    unfold State.turned
    (repeat' split) <;> rfl
  unfold State.took
  split
  · exact turned
  · rfl

theorem State.ports_took (s : State) (p : Pkt) : (s.took p).ports = s.ports := (congrArg State.ports (s.besideArrival_took p) : (s.took p).besideArrival.ports = _)
theorem State.fields_took (s : State) (p : Pkt) : (s.took p).fields = s.fields := (congrArg State.fields (s.besideArrival_took p) : (s.took p).besideArrival.fields = _)
theorem State.waferId_took (s : State) (p : Pkt) : (s.took p).waferId = s.waferId := (congrArg State.waferId (s.besideArrival_took p) : (s.took p).besideArrival.waferId = _)
theorem State.unprogrammed_took (s : State) (p : Pkt) : (s.took p).unprogrammed = s.unprogrammed :=
  (congrArg State.unprogrammed (s.besideArrival_took p) : (s.took p).besideArrival.unprogrammed = _)
theorem State.recording_took (s : State) (p : Pkt) : (s.took p).recording = s.recording :=
  (congrArg State.recording (s.besideArrival_took p) : (s.took p).besideArrival.recording = _)

/-- What a packet does that may arrive. -/
theorem State.landing_arrives {s : State} {p : Pkt} (h : Arrives s p.h p.body) (k : State → State) : s.landing p k = k (s.took p) := if_pos h

theorem State.sent_sendFrom (s : State) (a : TileId) (p : Pkt) : Sent (s.sendFrom a p) p.h.dst p.body :=
  ⟨_, List.mem_append_right _ (List.mem_singleton_self _), rfl, rfl⟩

theorem State.dst_stamp (s : State) (h : Hdr) : (s.stamp h).dst = h.dst := by
  unfold State.stamp
  split <;> rfl

theorem State.sent_send (s : State) (p : Pkt) : Sent (s.send p) p.h.dst p.body :=
  ⟨_, List.mem_append_right _ (List.mem_singleton_self _), s.dst_stamp p.h, rfl⟩

/-- A dock in service stands in a field that lets its port run. -/
theorem State.portField_of_dockOn {s : State} {p : Nat} (h : s.dockOn p = true) : s.portField p = true := by
  unfold State.dockOn State.keepUp at h
  split at h <;> exact (Bool.and_eq_true_iff.mp h).1

end Sys2Proof.Machine
end

section
/-! SUPPORT. What a port's traffic leaves of it, and the packets it holds until they are acknowledged (R276, R277, R278). -/

namespace Sys2Proof.Machine

/-- A port without what sending its frames changes. -/
def Port.besideTraffic (p : Port) : Port :=
  { p with waiting := [], unacked := [], markDue := false, txSeq := 0, credit := [], owed := [], ackDue := false, turn := 0 }

theorem Port.pending_of_besideTraffic {p q : Port} (h : p.besideTraffic = q.besideTraffic) : p.pending = q.pending :=
  (congrArg Port.pending h : p.besideTraffic.pending = q.besideTraffic.pending)

theorem Port.besideTraffic_pump (n : Nat) (p : Port) : (p.pump n).besideTraffic = p.besideTraffic := by
  induction n generalizing p with
  | zero => rfl
  | succ n ih =>
    unfold Port.pump
    split
    · rfl
    · split
      · rw [ih]; rfl
      · rfl

theorem Port.besideTraffic_flush (p : Port) : p.flush.besideTraffic = p.besideTraffic := Port.besideTraffic_pump ..

/-- A frame's header moves the receiver's sequence number on, and traffic besides. -/
theorem Port.besideTraffic_header (p : Port) (fr : Frame) : (p.header fr).besideTraffic = { p.besideTraffic with rxSeq := (p.rxSeq + 1) % 65536 } := by
  have acked : ((p.acked fr.ack).credited fr.creditVc fr.credits).besideTraffic = p.besideTraffic := by
    unfold Port.credited Port.acked
    (repeat' split) <;> rfl
  unfold Port.header
  dsimp only
  rw [Port.besideTraffic_flush]
  generalize (p.acked fr.ack).credited fr.creditVc fr.credits = q at acked
  have seq : q.rxSeq = p.rxSeq := (congrArg Port.rxSeq acked : q.besideTraffic.rxSeq = p.besideTraffic.rxSeq)
  rw [seq, ← acked]
  rfl

/-- A packet waits at a port, or is kept there until its frame is acknowledged. -/
def Port.Carries (p : Port) (x : Pkt) : Prop := (∃ w ∈ p.waiting, w.pkt = x) ∨ ∃ fr ∈ p.unacked, fr.pkt = x

theorem Port.Carries.emit {p : Port} {x : Pkt} (w : Waiting) (h : p.Carries x) : (p.emit w).Carries x := by
  obtain ⟨v, hv, e⟩ | ⟨fr, hf, e⟩ := h
  · by_cases k : v = w
    · exact .inr ⟨_, List.mem_append_right _ (List.mem_singleton_self _), k ▸ e⟩
    · exact .inl ⟨v, List.mem_append_left _ (List.mem_filter.mpr ⟨hv, by simpa using k⟩), e⟩
  · exact .inr ⟨fr, List.mem_append_left _ hf, e⟩

theorem Port.Carries.pump {x : Pkt} (n : Nat) {p : Port} (h : p.Carries x) : (p.pump n).Carries x := by
  induction n generalizing p with
  | zero => exact h
  | succ n ih =>
    unfold Port.pump
    split
    · exact h
    · split
      · exact ih (h.emit _)
      · exact h

/-- A packet put at the egress of a port that is UP or RETRAINING, and whose link carries its hops, is held there. -/
theorem State.carries_enqueue {s : State} {p : Nat} {x : Pkt} {f : Far} (hx : x.h.far = some f) (hs : (s.port p).state = 4 ∨ (s.port p).state = 5) (hf : s.portField p = true)
    (hv : (s.port p).mode.version = 1 → f.hops.length ≤ 6) : ((s.enqueue p x).port p).Carries x ∧ ((s.enqueue p x).port p).besideTraffic = (s.port p).besideTraffic := by
  have fits : (s.port p).tooLong x = false := by
    simp only [Port.tooLong, hx, Bool.and_eq_false_iff, beq_eq_false_iff_ne, decide_eq_false_iff_not]
    exact (em _).elim (fun h => .inr (Nat.not_lt.mpr (hv h))) .inl
  unfold State.enqueue
  dsimp only
  rw [fits, if_neg Bool.false_ne_true, if_pos ⟨hs, hf⟩, State.port_setPort]
  exact ⟨Port.Carries.pump _ (.inl ⟨_, List.mem_append_right _ (List.mem_singleton_self _), rfl⟩), Port.besideTraffic_flush _⟩

end Sys2Proof.Machine
end

section
/-! SUPPORT. Requests of this engine and their pending entries (R180, R280, R284). -/

namespace Sys2Proof.Machine

/-- The one answer that a refused remote request draws. -/
theorem refusals_of_asked {x : Pkt} {re : Re} {isRead : Bool} (hp : pended x.body = true) (hc : ∀ cs, x.body ≠ .combine cs) (ha : Body.asked x.h x.body = some (re, isRead)) (st : Nat) :
    refusals x st = [{ h := hdrBack x.h x.h.srcGen, body := bareAnswer re isRead st }] := by
  obtain ⟨h, body⟩ := x
  cases body with
  | combine cs => exact absurd rfl (hc cs)
  | sync op b =>
    obtain rfl : op = 1 := by simpa [pended] using hp
    obtain ⟨rfl, rfl⟩ : Re.signal _ false = re ∧ false = isRead := by simpa [Body.asked] using ha
    rfl
  | remoteWrite | remoteRead | message | openReq | probe =>
    obtain ⟨rfl, rfl⟩ := Prod.mk.inj (Option.some.inj ha)
    rfl
  | _ => simp [pended] at hp

theorem isAnswer_of_pended {b : Body} (h : pended b = true) : Body.isAnswer b = false := by
  cases b <;> simp_all [pended, Body.isAnswer]

/-- A request without a pending entry is answered straight at its tile. -/
theorem State.answerOwn_unpended {s : State} {p : Nat} {x : Pkt} {st : Nat} {t : TileId} {re : Re} {isRead : Bool} (hr : refusals x st = [{ h := hdrBack x.h x.h.srcGen, body := bareAnswer re isRead st }])
    (hs : x.h.src = .tile t) (hn : s.findPend t x.h.tag re = none) :
    s.answerOwn p x st = s.send { h := { hdrBack x.h x.h.srcGen with src := .dock p 0, far := none }, body := bareAnswer re isRead st } := by
  have tag : (hdrBack x.h x.h.srcGen).tag = x.h.tag := rfl
  have dst : (hdrBack x.h x.h.srcGen).dst = .tile t := hs
  unfold State.answerOwn
  rw [hr, List.foldl_cons, List.foldl_nil]
  cases isRead <;> simp only [dst, tag, bareAnswer, hn, if_true, Bool.false_eq_true, if_false]

theorem State.sent_answerOwn {s : State} {p : Nat} {x : Pkt} {st : Nat} {t : TileId} {re : Re} {isRead : Bool} (hr : refusals x st = [{ h := hdrBack x.h x.h.srcGen, body := bareAnswer re isRead st }])
    (hs : x.h.src = .tile t) (hn : s.findPend t x.h.tag re = none) : Sent (s.answerOwn p x st) (.tile t) (bareAnswer re isRead st) := by
  rw [State.answerOwn_unpended hr hs hn, ← hs]
  exact State.sent_send ..

theorem Tab.find_erase {α : Type} (t : Tab α) (i : Nat) : (t.erase i).find i = none := by
  induction t with
  | nil => rfl
  | cons e t ih =>
    obtain ⟨k, v⟩ := e
    unfold Tab.erase at *
    by_cases h : k = i
    · simpa [h] using ih
    · simpa [h, Tab.find] using ih

theorem Tab.mem_of_find {α : Type} {t : Tab α} {i : Nat} {a : α} (h : t.find i = some a) : (i, a) ∈ t := by
  induction t with
  | nil => simp [Tab.find] at h
  | cons e t ih =>
    obtain ⟨k, v⟩ := e
    unfold Tab.find at h
    split at h
    · next e => simp_all
    · exact List.mem_cons_of_mem _ (ih h)

theorem Tab.mem_of_mem_put {α : Type} {t : Tab α} {i : Nat} {a : α} {e : Nat × α} (h : e ∈ t.put i a) : e = (i, a) ∨ e ∈ t := by
  induction t with
  | nil => simpa [Tab.put] using h
  | cons x t ih =>
    obtain ⟨k, v⟩ := x
    unfold Tab.put at h
    split at h
    · simp_all [or_comm]
      tauto
    · split at h
      · simpa using h
      · rcases List.mem_cons.mp h with rfl | h
        · simp
        · exact (ih h).imp id (List.mem_cons_of_mem _)

/-- No answer is waited for more, where one port changes but for its pending entries. -/
theorem State.findPend_setPort {s : State} {p : Nat} {v : Port} (hv : v.pending = (s.port p).pending) {t : TileId} {tag : Nat} {re : Re} (h : s.findPend t tag re = none) :
    (s.setPort p v).findPend t tag re = none := by
  have none_at : ∀ e ∈ s.ports, e.2.pending.find? (fun x => x.2.isFor t tag re) = none := fun e he => by
    simpa using List.findSome?_eq_none_iff.mp h e he
  refine List.findSome?_eq_none_iff.mpr fun e he => ?_
  rw [Option.map_eq_none_iff]
  obtain rfl | he := Tab.mem_of_mem_put he
  · rw [show ((p, v).2).pending = v.pending from rfl, hv, State.port, Tab.getD]
    cases hf : s.ports.find p with
    | none => rfl
    | some q => exact none_at _ (Tab.mem_of_find hf)
  · exact none_at e he

end Sys2Proof.Machine
end

section
/-! SUPPORT. Requests at their ingress dock, and packets at an egress dock (R281, R282, R284, R286). -/

namespace Sys2Proof.Machine

theorem State.port_took (s : State) (p : Pkt) (q : Nat) : (s.took p).port q = s.port q := by rw [State.port, State.ports_took]; rfl
theorem State.route_took (s : State) (p : Pkt) (q wafer : Nat) : (s.took p).route q wafer = s.route q wafer := by rw [State.route, State.ports_took]; rfl
theorem State.findPend_took (s : State) (p : Pkt) (t : TileId) (tag : Nat) (re : Re) : (s.took p).findPend t tag re = s.findPend t tag re := by
  rw [State.findPend, State.ports_took]; rfl
theorem State.portField_took (s : State) (p : Pkt) (q : Nat) : (s.took p).portField q = s.portField q := by
  rw [State.portField, State.field, State.fields_took]; rfl
theorem State.findPend_event (s : State) (src c : Nat) (d : List Nat) (t : TileId) (tag : Nat) (re : Re) : (s.event src c d).findPend t tag re = s.findPend t tag re := by
  rw [State.findPend, State.event_ports]; rfl

theorem Port.find_record (p : Port) (e : Pend) : ∃ i, (p.record [e]).pending.find i = some e := ⟨_, Tab.find_put_same ..⟩

/-- A tile's request at a dock in service. -/
theorem dockIngress_runs {s : State} {p : Nat} {x : Pkt} {f : Far} (hx : x.h.far = some f) (hh : f.hops = []) (ha : f.answer = false) (hp : pended x.body = true)
    (hd : s.dockOn p = true) (harr : Arrives s x.h x.body) : exec (.dockIngress p x) s = .next ((s.took x).ingress p x f) := by
  show execDockIngress p x s = _
  simp only [execDockIngress, hx, hh, ha, isAnswer_of_pended hp, hd, List.isEmpty_nil, Bool.not_false, Bool.and_self, if_true, State.landing_arrives harr]

section
variable {s : State} {p : Nat} {x : Pkt} {f : Far} {t : TileId} {re : Re} {isRead : Bool}
variable (hx : x.h.far = some f) (hh : f.hops = []) (ha : f.answer = false) (hsrc : x.h.src = .tile t) (hp : pended x.body = true) (hc : ∀ cs, x.body ≠ .combine cs)
variable (hask : Body.asked x.h x.body = some (re, isRead)) (hd : s.dockOn p = true) (harr : Arrives s x.h x.body)

/-- The pending entry of a request. -/
theorem State.pendsOf_pended (s : State) (hp : pended x.body = true) (hc : ∀ cs, x.body ≠ .combine cs) (hask : Body.asked x.h x.body = some (re, isRead)) :
    s.pendsOf x = [{ tile := srcTile x.h.src, gen := (s.tile (srcTile x.h.src)).gen, tag := x.h.tag, re := re, isRead := isRead, since := s.time }] := by
  unfold State.pendsOf
  dsimp only
  split
  · next cs h => exact absurd h (hc cs)
  · rw [if_pos hp]
    simp only [hask]

include hx hh ha hsrc hp hc hask hd harr

theorem does_dockIngress_unrouted (hw : f.dstWafer ≠ s.waferId) (hn : s.findPend t x.h.tag re = none) (hr : s.route p f.dstWafer = none) :
    Does (.dockIngress p x) s (fun u => Sent u (.tile t) (bareAnswer re isRead stPathLost) ∧ Writes s u p 0x098A [p, f.dstWafer]) := by
  have out : (s.took x).ingress p x f = ((s.took x).event p 0x098A [p, f.dstWafer]).answerOwn p x stPathLost := by
    simp only [State.ingress, State.route_took, hr, State.waferId_took, beq_eq_false_iff_ne.mpr hw]
  have answer := refusals_of_asked hp hc hask stPathLost
  have free : ((s.took x).event p 0x098A [p, f.dstWafer]).findPend t x.h.tag re = none := by rw [State.findPend_event, State.findPend_took, hn]
  refine .of_next ((dockIngress_runs hx hh ha hp hd harr).trans (congrArg _ out)) ⟨State.sent_answerOwn answer hsrc free, ?_⟩
  rw [State.answerOwn_unpended answer hsrc free]
  exact Writes.among (s.recording_took x) (State.writes_event _ _ _ _) rfl rfl

theorem does_dockIngress_full (hn : s.findPend t x.h.tag re = none) {r : Route} (hr : s.route p f.dstWafer = some r)
    (hfull : 4096 ≤ (s.port p).pending.length) : Does (.dockIngress p x) s (fun u => Sent u (.tile t) (bareAnswer re isRead stRetry)) := by
  have more : 4096 < (s.port p).pending.length + ((s.took x).pendsOf x).length := by rw [State.pendsOf_pended _ hp hc hask]; exact Nat.lt_succ_of_le hfull
  have out : (s.took x).ingress p x f = (s.took x).answerOwn p x stRetry := by
    simp only [State.ingress, State.route_took, hr, State.port_took, more, if_true]
  exact .of_next ((dockIngress_runs hx hh ha hp hd harr).trans (congrArg _ out))
    (State.sent_answerOwn (refusals_of_asked hp hc hask stRetry) hsrc (by rw [State.findPend_took, hn]))

theorem does_dockIngress_routed (hw : f.dstWafer ≠ s.waferId) {r : Route} (hr : s.route p f.dstWafer = some r) (he : r.egress = p) (hs : (s.port p).state = 4)
    (hfree : (s.port p).pending.length < 4096) (hv : (s.port p).mode.version = 1 → r.hops.length ≤ 6) :
    Does (.dockIngress p x) s (fun u => (∃ i e, (u.port p).pending.find i = some e ∧ e.tile = t ∧ e.tag = x.h.tag ∧ e.re = re) ∧
      ∃ y, y.body = x.body ∧ y.h.far = some { f with srcWafer := s.waferId, hops := 0xFE :: r.hops.drop 1, idx := 1 } ∧
        ((∃ w ∈ (u.port p).waiting, w.pkt = y) ∨ ∃ fr ∈ (u.port p).unacked, fr.pkt = y)) := by
  have pends := State.pendsOf_pended (s.took x) hp hc hask
  rw [hsrc, show srcTile (.tile t) = t from rfl] at pends
  have room : ¬ 4096 < (s.port p).pending.length + ((s.took x).pendsOf x).length := by rw [pends]; exact Nat.not_lt.mpr hfree
  obtain ⟨i, found⟩ := (s.port p).find_record { tile := t, gen := ((s.took x).tile t).gen, tag := x.h.tag, re := re, isRead := isRead, since := (s.took x).time }
  generalize hm : (s.took x).modPort p (fun v => v.record ((s.took x).pendsOf x)) = m
  have far : (onRoute x { f with srcWafer := s.waferId } r).h.far = some { f with srcWafer := s.waferId, hops := 0xFE :: r.hops.drop 1, idx := 1 } := rfl
  have body : (onRoute x { f with srcWafer := s.waferId } r).body = x.body := rfl
  have out : (s.took x).ingress p x f = m.enqueue p (onRoute x { f with srcWafer := s.waferId } r) := by
    simp only [State.ingress, State.route_took, hr, State.port_took, room, if_false, State.waferId_took, beq_eq_false_iff_ne.mpr hw, Bool.false_eq_true, hm, State.toEgress, he, if_true]
  generalize onRoute x { f with srcWafer := s.waferId } r = y at far body out
  have port : m.port p = (s.port p).record ((s.took x).pendsOf x) := by rw [← hm, State.port_modPort, State.port_took]
  have field : m.portField p = true := by rw [← State.portField_of_dockOn hd, ← State.portField_took s x p, ← hm]; rfl
  rw [pends] at port
  obtain ⟨carried, kept⟩ := State.carries_enqueue far (.inl (by rw [port]; exact hs)) field
    (by rw [port]; intro h; have := hv h; simp only [List.length_cons, List.length_drop]; omega)
  have kept := Port.pending_of_besideTraffic kept
  rw [← port, ← kept] at found
  exact .of_next ((dockIngress_runs hx hh ha hp hd harr).trans (congrArg _ out)) ⟨⟨i, _, found, rfl, rfl, rfl⟩, y, body, far, carried⟩

end

/-- A read whose hop list ends here goes into the mesh of its target's engine, unless that engine is unprogrammed. -/
theorem State.sent_deliver {s : State} {x : Pkt} {f : Far} {b : RemoteBody} (p : Nat) (path : List Nat) (ha : f.answer = false) (hb : x.body = .remoteRead b) (hw : f.dstWafer = s.waferId)
    (hid : s.waferId ≠ 0xFFFF) (hu : s.unprogrammed = false) : Sent (s.deliver p x f path) f.endp (.remoteRead b) ∧ (s.deliver p x f path).ports = s.ports := by
  have out : s.deliver p x f path = s.deliverRequest p x f path := by
    simp only [State.deliver, hid, if_false, hw, beq_self_eq_true, Bool.not_true, Bool.false_eq_true, ha, hb, Body.isAnswer, Bool.or_self, Bool.not_false, if_true, closedTarget, hu]
  rw [out, State.deliverRequest]
  simp only [hb, proxied]
  exact ⟨State.sent_send .., State.send_ports ..⟩

theorem does_dockIngress_loop {s : State} {p : Nat} {x : Pkt} {f : Far} {b : RemoteBody} (hx : x.h.far = some f) (hh : f.hops = []) (ha : f.answer = false) (hd : s.dockOn p = true)
    (harr : Arrives s x.h x.body) (hw : f.dstWafer = s.waferId) (hid : s.waferId ≠ 0xFFFF) (hu : s.unprogrammed = false) (hfree : (s.port p).pending.length < 4096)
    (hb : x.body = .remoteRead b) : Does (.dockIngress p x) s (fun u => Sent u f.endp (.remoteRead b)) := by
  have hp : pended x.body = true := by rw [hb]; rfl
  have pends := State.pendsOf_pended (s.took x) hp (by simp [hb]) (by rw [hb]; rfl)
  have room : ¬ 4096 < (s.port p).pending.length + ((s.took x).pendsOf x).length := by rw [pends]; exact Nat.not_lt.mpr hfree
  generalize hm : (s.took x).modPort p (fun v => v.record ((s.took x).pendsOf x)) = m
  have out : (s.took x).ingress p x f = m.deliver p x { f with srcWafer := s.waferId } [] := by
    simp only [State.ingress, State.port_took, room, if_false, State.waferId_took, beq_iff_eq.mpr hw, hm, if_true]
    split
    · contradiction
    · rfl
  have wafer : m.waferId = s.waferId := by rw [← s.waferId_took x, ← hm]; rfl
  have programmed : m.unprogrammed = false := by rw [← hu, ← s.unprogrammed_took x, ← hm]; rfl
  exact .of_next ((dockIngress_runs hx hh ha hp hd harr).trans (congrArg _ out))
    (State.sent_deliver (f := { f with srcWafer := s.waferId }) p [] ha hb (hw.trans wafer.symm) (wafer ▸ hid) programmed).1

end Sys2Proof.Machine
end

section
/-! SUPPORT. Packets at an egress dock, pending entries that expire, and frames held too long (R280, R284, R285, R286). -/

namespace Sys2Proof.Machine

/-- The injection point that a packet for a dock names. -/
def injectionOf : Endp → Nat
  | .dock _ i => i
  | .tile _ | .fc _ | .gate _ | .conductor => 0

section
variable {s : State} {p : Nat} {x : Pkt} {f : Far}
variable (hx : x.h.far = some f) (hs : (s.port p).state = 4 ∨ (s.port p).state = 5) (hf : s.portField p = true) (harr : Arrives s x.h x.body) (hh : f.hops ≠ [])
variable (hv : (s.port p).mode.version = 1 → f.hops.length ≤ 6)
include hx hs hf harr hh hv

theorem does_dockEgress_routed (ha : f.answer = false) :
    Does (.dockEgress p x) s (fun u => (∃ w ∈ (u.port p).waiting, w.pkt = x) ∨ ∃ fr ∈ (u.port p).unacked, fr.pkt = x) := by
  have out : exec (.dockEgress p x) s = .next ((s.took x).enqueue p x) := by
    show execDockEgress p x s = _
    simp only [execDockEgress, State.landing_arrives harr, hx, ha, Bool.false_and, Bool.false_eq_true, if_false, List.isEmpty_iff, hh]
  exact .of_next out (State.carries_enqueue hx (by rw [State.port_took]; exact hs) (by rw [State.portField_took]; exact hf) (by rw [State.port_took]; exact hv)).1

theorem does_dockEgress_answer (ha : f.answer = true) (hi : f.idx = 0) :
    Does (.dockEgress p x) s (fun u => ∃ y, y.h.far = some { f with hops := 0xFE :: f.hops.drop 1, idx := 1 } ∧
      ((∃ w ∈ (u.port p).waiting, w.pkt = y) ∨ ∃ fr ∈ (u.port p).unacked, fr.pkt = y)) := by
  generalize hb : (s.took x).lostCell (closedWindow (((s.took x).port p).bodyBack (injectionOf x.h.dst) x.body)) = b
  have out : exec (.dockEgress p x) s = .next ((s.took x).enqueue p { h := { x.h with far := some { f with hops := 0xFE :: f.hops.drop 1, idx := 1 } }, body := b }) := by
    rw [← hb]
    show execDockEgress p x s = _
    simp only [execDockEgress, State.landing_arrives harr, hx, ha, hi, Bool.true_and, beq_self_eq_true, if_true, List.isEmpty_iff, hh, if_false]
    rfl
  have short : (0xFE :: f.hops.drop 1).length = f.hops.length := by
    have := List.length_pos_iff.mpr hh
    simp only [List.length_cons, List.length_drop]; omega
  exact .of_next out ⟨_, rfl, (State.carries_enqueue rfl (by rw [State.port_took]; exact hs) (by rw [State.portField_took]; exact hf)
    (by rw [State.port_took, short]; exact hv)).1⟩

end

theorem does_pendingExpiry {s : State} {p i : Nat} {e : Pend} (he : (s.port p).pending.find i = some e) (ht : e.since + (s.port p).remoteTimeout < s.time) :
    Does (.pendingExpiry p i) s (fun u => (u.port p).pending.find i = none ∧ (u.port p).pendingExpired = (s.port p).pendingExpired + 1 ∧
      Sent u (.tile e.tile) (bareAnswer e.re e.isRead stPathLost)) := by
  generalize hm : s.setPort p { s.port p with pendingExpired := (s.port p).pendingExpired + 1 } = m
  have out : exec (.pendingExpiry p i) s = .next (m.endPend p i e (bareAnswer e.re e.isRead stPathLost)) := by
    show execPendingExpiry p i s = _
    simp only [execPendingExpiry, he, ht, if_true, hm]
  have port : (m.endPend p i e (bareAnswer e.re e.isRead stPathLost)).port p = { m.port p with pending := (m.port p).pending.erase i } :=
    State.port_modPort m p fun v => { v with pending := v.pending.erase i }
  refine .of_next out ⟨?_, ?_, State.sent_send ..⟩
  · rw [port]; exact Tab.find_erase ..
  · rw [port, ← hm, State.port_setPort]

theorem State.waiting_modPort (s : State) (p q : Nat) (g : Port → Port) (h : ∀ v, (g v).waiting = v.waiting) : ((s.modPort p g).port q).waiting = (s.port q).waiting := by
  by_cases e : p = q
  · subst e; rw [State.port_modPort, h]
  · rw [State.modPort, State.port_setPort_other _ _ _ _ e]

theorem State.port_event (s : State) (src c : Nat) (d : List Nat) (q : Nat) : (s.event src c d).port q = s.port q := by
  rw [State.port, State.event_ports]; rfl

theorem State.waiting_endPend (s : State) (p i : Nat) (e : Pend) (b : Body) (q : Nat) : ((s.endPend p i e b).port q).waiting = (s.port q).waiting :=
  State.waiting_modPort s p q (fun v => { v with pending := v.pending.erase i }) fun _ => rfl

theorem State.waiting_answerOwn (s : State) (p : Nat) (x : Pkt) (st q : Nat) : ((s.answerOwn p x st).port q).waiting = (s.port q).waiting := by
  refine foldl_keeps (fun u : State => (u.port q).waiting) _ (fun u y => ?_) _ s
  dsimp only
  split
  · split
    · exact State.waiting_endPend ..
    · rfl
  · split
    · exact State.waiting_endPend ..
    · rfl
  · rfl

/-- A lost frame leaves every port its waiting packets. -/
theorem State.waiting_loseFrame (s : State) (p : Nat) (x : Pkt) (cause q : Nat) : ((s.loseFrame p x cause).port q).waiting = (s.port q).waiting := by
  unfold State.loseFrame
  dsimp only
  split
  · rfl
  · split
    · split
      · rfl
      · exact State.waiting_modPort s p q _ fun _ => rfl
    · split
      · exact State.waiting_answerOwn ..
      · refine (foldl_keeps (fun u : State => (u.port q).waiting) _ (fun _ _ => by rfl) _ _).trans ?_
        rw [State.port_event]
        exact State.waiting_modPort s p q _ fun _ => rfl

theorem does_egressHoldExpiry {s : State} {p : Nat} {w : Waiting} {rest : List Waiting} (hs : (s.port p).state = 5) (hw : (s.port p).waiting = w :: rest)
    (hh : w.since + (s.port p).hold < s.time) :
    Does (.egressHoldExpiry p) s (fun u => (u.port p).waiting = rest ∧
      ∀ f t b, w.pkt.h.far = some f → f.answer = false → f.idx ≤ 1 → w.pkt.h.src = .tile t → w.pkt.body = .remoteRead b →
        s.findPend t w.pkt.h.tag .xget = none → Sent u (.tile t) (.reply .xget stPathLost [])) := by
  generalize hm : s.setPort p { s.port p with waiting := rest } = m
  have out : exec (.egressHoldExpiry p) s = .next (m.loseFrame p w.pkt causeHold) := by
    show execEgressHoldExpiry p s = _
    unfold execEgressHoldExpiry
    dsimp only
    rw [if_pos hs]
    simp only [hw]
    rw [if_pos hh, hm]
  refine .of_next out ⟨?_, fun f t b hx ha hi hsrc hb hn => ?_⟩
  · rw [State.waiting_loseFrame, ← hm, State.port_setPort]
  · have own : m.loseFrame p w.pkt causeHold = m.answerOwn p w.pkt stPathLost := by
      simp only [State.loseFrame, hx, hb, Body.isAnswer, ha, Bool.or_self, Bool.false_eq_true, if_false, hi, if_true]
    rw [own]
    exact State.sent_answerOwn (re := .xget) (isRead := true) (refusals_of_asked (by rw [hb]; rfl) (by simp [hb]) (by rw [hb]; rfl) _) hsrc
      (hm ▸ State.findPend_setPort (v := { s.port p with waiting := rest }) rfl hn)

end Sys2Proof.Machine
end

section
/-! SUPPORT. Data frames that arrive at a port: held already, out of sequence, delivered, relayed or refused (R276, R277, R280, R286, R287). -/

namespace Sys2Proof.Machine

theorem does_dataFrame_held {s : State} {p : Nat} {fr : Frame} (hs : (s.port p).state = 4) (hh : (s.port p).holds fr.seq = true) :
    Does (.dataFrame p fr) s (fun u => u.port p = { s.port p with ackDue := true } ∧ u.mesh = s.mesh) := by
  refine .of_next (u := s.setPort p { s.port p with ackDue := true }) ?_ ⟨State.port_setPort .., rfl⟩
  show execDataFrame p fr s = _
  unfold execDataFrame
  dsimp only
  rw [if_neg (by simp [hs]), if_pos hh]

theorem does_dataFrame_gap {s : State} {p : Nat} {fr : Frame} (hs : (s.port p).state = 4) (hh : (s.port p).holds fr.seq = false) (hq : fr.seq ≠ (s.port p).rxSeq) :
    Does (.dataFrame p fr) s (fun u => (u.port p).crcErr = (s.port p).crcErr + 1 ∧ (u.port p).rxSeq = (s.port p).rxSeq ∧ u.mesh = s.mesh ∧
      ∃ a v n, CtlFrame.link linkNak (s.port p).rxSeq a v n ∈ (u.port p).out) := by
  refine .of_next (u := s.setPort p (s.port p).discard) ?_ ?_
  · show execDataFrame p fr s = _
    unfold execDataFrame
    dsimp only
    rw [if_neg (by simp [hs]), if_neg (by simp [hh]), if_pos (by simp [hq])]
  · rw [State.port_setPort]
    exact ⟨rfl, rfl, rfl, _, _, _, List.mem_append_right _ (List.mem_singleton_self _)⟩

/-! ## A frame in sequence -/

/-- The state without its ports and the next free value. -/
def State.besideLink (s : State) : State := { s with ports := [], free := 0 }

/-- What taking a frame in sequence leaves and moves on. -/
structure FrameTaken (s m : State) (p : Nat) : Prop where
  beside : m.besideLink = s.besideLink
  rxSeq : (m.port p).rxSeq = ((s.port p).rxSeq + 1) % 65536
  relayFwd : (m.port p).relayFwd = (s.port p).relayFwd
  relayNack : (m.port p).relayNack = (s.port p).relayNack
  link : ∀ q, (m.port q).state = (s.port q).state ∧ (m.port q).mode = (s.port q).mode ∧ (m.port q).relayOn = (s.port q).relayOn

theorem FrameTaken.setPort {s r : State} {p : Nat} {v : Port} {fr : Frame} (hr : r.besideLink = s.besideLink) (ports : r.ports = s.ports)
    (hv : v.besideTraffic = { (s.port p).besideTraffic with fecCorr := v.fecCorr }) : FrameTaken s (r.setPort p (v.header fr)) p := by
  have header := v.besideTraffic_header fr
  have seq : v.rxSeq = (s.port p).rxSeq := (congrArg Port.rxSeq hv : v.besideTraffic.rxSeq = _)
  rw [hv, seq] at header
  have port : (r.setPort p (v.header fr)).port p = v.header fr := State.port_setPort ..
  refine ⟨hr, ?_, ?_, ?_, fun q => ?_⟩
  · rw [port]; exact (congrArg Port.rxSeq header : (v.header fr).besideTraffic.rxSeq = _)
  · rw [port]; exact (congrArg Port.relayFwd header : (v.header fr).besideTraffic.relayFwd = _)
  · rw [port]; exact (congrArg Port.relayNack header : (v.header fr).besideTraffic.relayNack = _)
  · by_cases e : p = q
    · subst e
      rw [port]
      exact ⟨(congrArg Port.state header : (v.header fr).besideTraffic.state = _), (congrArg Port.mode header : (v.header fr).besideTraffic.mode = _),
        (congrArg Port.relayOn header : (v.header fr).besideTraffic.relayOn = _)⟩
    · rw [State.port_setPort_other _ _ _ _ e, State.port, ports]
      exact ⟨rfl, rfl, rfl⟩

/-- A frame in sequence goes on by its hop list, or is delivered where that ends. -/
theorem dataFrame_inSequence {s : State} {p : Nat} {fr : Frame} {f : Far} (hs : (s.port p).state = 4) (hh : (s.port p).holds fr.seq = false) (hq : fr.seq = (s.port p).rxSeq) (hx : fr.pkt.h.far = some f) :
    ∃ m, FrameTaken s m p ∧ exec (.dataFrame p fr) s =
      .next (if f.idx < f.hops.length then m.relay p fr.pkt f else m.deliver p fr.pkt f (p :: reversePath f)) := by
  have out : exec (.dataFrame p fr) s = execDataFrame p fr s := rfl
  unfold execDataFrame at out
  dsimp only at out
  rw [if_neg (by simp [hs]), if_neg (by simp [hh]), if_neg (by simp [hq])] at out
  simp only [hx] at out
  refine ⟨_, ?_, out⟩
  split <;> exact FrameTaken.setPort rfl rfl rfl

section
variable {s m : State} {p : Nat} (h : FrameTaken s m p)
include h

theorem FrameTaken.waferId : m.waferId = s.waferId := (congrArg State.waferId h.beside : m.besideLink.waferId = s.besideLink.waferId)
theorem FrameTaken.unprogrammed : m.unprogrammed = s.unprogrammed := (congrArg State.unprogrammed h.beside : m.besideLink.unprogrammed = s.besideLink.unprogrammed)
theorem FrameTaken.recording : m.recording = s.recording := (congrArg State.recording h.beside : m.besideLink.recording = s.besideLink.recording)
theorem FrameTaken.dockOn (q : Nat) : m.dockOn q = s.dockOn q := (congrArg (fun u : State => u.dockOn q) h.beside : m.besideLink.dockOn q = s.besideLink.dockOn q)

theorem FrameTaken.relayRefusal (f : Far) : m.relayRefusal p f = s.relayRefusal p f := by
  obtain ⟨-, -, on⟩ := h.link p
  obtain ⟨state, mode, -⟩ := h.link (nth f.hops f.idx 0xFF)
  simp only [State.relayRefusal, on, state, mode, h.dockOn]

end

/-- The refusal of a read from another engine sets out on its reverse path. -/
theorem State.refuseFar_read (s : State) (p : Nat) {x : Pkt} {b : RemoteBody} (f : Far) (q : Nat) (path : List Nat) (st : Nat) (hb : x.body = .remoteRead b) :
    ∃ a y, s.refuseFar p x f (q :: path) st = s.sendFrom a y ∧ y.body = .reply .xget st [] := by
  have one : ∃ y, farRefusals x f (q :: path) st = [y] ∧ y.body = .reply .xget st [] := by
    simp only [farRefusals, hb, Body.asked]
    exact ⟨_, rfl, rfl⟩
  obtain ⟨y, one, body⟩ := one
  refine ⟨s.place (.dock p 0), y, ?_, body⟩
  simp only [State.refuseFar, List.isEmpty_cons, Bool.false_eq_true, if_false, one, List.foldl_cons, List.foldl_nil]

theorem State.flight_sendFrom (s : State) (a : TileId) (y : Pkt) : ∃ x ∈ (s.sendFrom a y).mesh.flight, x.pkt.body = y.body :=
  ⟨_, List.mem_append_right _ (List.mem_singleton_self _), rfl⟩

section
variable {s : State} {p : Nat} {fr : Frame} {f : Far} {b : RemoteBody} (hs : (s.port p).state = 4) (hh : (s.port p).holds fr.seq = false) (hq : fr.seq = (s.port p).rxSeq)
variable (hx : fr.pkt.h.far = some f) (ha : f.answer = false) (hb : fr.pkt.body = .remoteRead b)
include hs hh hq hx ha hb

theorem does_dataFrame_delivered (hi : f.hops.length ≤ f.idx) (hw : f.dstWafer = s.waferId) (hid : s.waferId ≠ 0xFFFF) (hu : s.unprogrammed = false) :
    Does (.dataFrame p fr) s (fun u => (u.port p).rxSeq = ((s.port p).rxSeq + 1) % 65536 ∧ Sent u f.endp (.remoteRead b)) := by
  obtain ⟨m, taken, out⟩ := dataFrame_inSequence hs hh hq hx
  rw [if_neg (Nat.not_lt.mpr hi)] at out
  obtain ⟨sent, ports⟩ := State.sent_deliver (s := m) p (p :: reversePath f) ha hb (hw.trans taken.waferId.symm) (taken.waferId ▸ hid) (taken.unprogrammed.trans hu)
  refine .of_next out ⟨?_, sent⟩
  rw [State.port, ports]; exact taken.rxSeq

theorem does_dataFrame_unprogrammed (hi : f.hops.length ≤ f.idx) (hw : f.dstWafer = s.waferId) (hid : s.waferId ≠ 0xFFFF) (hu : s.unprogrammed = true) :
    Does (.dataFrame p fr) s (fun u => (u.port p).rxSeq = ((s.port p).rxSeq + 1) % 65536 ∧ ∃ x ∈ u.mesh.flight, x.pkt.body = .reply .xget stWindowClosed []) := by
  obtain ⟨m, taken, out⟩ := dataFrame_inSequence hs hh hq hx
  have wafer : f.dstWafer = m.waferId := hw.trans taken.waferId.symm
  have named : m.waferId ≠ 0xFFFF := taken.waferId ▸ hid
  have closed : m.unprogrammed = true := taken.unprogrammed.trans hu
  obtain ⟨a, y, refused, body⟩ := m.refuseFar_read p f p (reversePath f) stWindowClosed hb
  have refuses : m.deliver p fr.pkt f (p :: reversePath f) = m.sendFrom a y := by
    rw [← refused]
    simp only [State.deliver, named, if_false, wafer, beq_self_eq_true, Bool.not_true, Bool.false_eq_true, ha, hb, Body.isAnswer, Bool.or_self, Bool.not_false, if_true, closedTarget, closed]
  rw [if_neg (Nat.not_lt.mpr hi), refuses] at out
  exact .of_next out ⟨taken.rxSeq, body ▸ m.flight_sendFrom a y⟩

omit ha in
theorem does_dataFrame_relayed (hi : f.idx < f.hops.length) (hr : s.relayRefusal p f = none) (hn : nth f.hops f.idx 0xFF ≠ p) (hd : s.dockOn p = true) :
    Does (.dataFrame p fr) s (fun u => (u.port p).relayFwd = (s.port p).relayFwd + 1 ∧ Sent u (.dock (nth f.hops f.idx 0xFF) 0) (.remoteRead b)) := by
  obtain ⟨m, taken, out⟩ := dataFrame_inSequence hs hh hq hx
  have next : s.dockOn (nth f.hops f.idx 0xFF) = true := by
    unfold State.relayRefusal at hr
    dsimp only at hr
    by_contra off
    rw [Bool.not_eq_true] at off
    simp only [off, Bool.not_false, if_true] at hr
    (repeat' split at hr) <;> contradiction
  generalize hv : m.modPort p (fun v => { v with relayFwd := v.relayFwd + 1 }) = v
  have on (q : Nat) : v.dockOn q = s.dockOn q := by rw [← taken.dockOn q, ← hv]; rfl
  have fwd : (v.port p).relayFwd = (s.port p).relayFwd + 1 := by rw [← hv, State.port_modPort, ← taken.relayFwd]
  have relays : m.relay p fr.pkt f = v.sendFrom (v.place (.dock p 0))
      { fr.pkt with h := { fr.pkt.h with dst := .dock (nth f.hops f.idx 0xFF) 0, far := some { f with hops := f.hops.set f.idx (p + 128), idx := f.idx + 1 } } } := by
    simp only [State.relay, taken.relayRefusal, hr, hv, State.toEgress, hn, if_false, on, hd, next, Bool.and_self, if_true]
  rw [if_pos hi, relays] at out
  exact .of_next out ⟨fwd, hb ▸ v.sent_sendFrom _ _⟩

theorem does_dataFrame_refused {cause : Nat} (hi : f.idx < f.hops.length) (hr : s.relayRefusal p f = some cause) :
    Does (.dataFrame p fr) s (fun u => (u.port p).relayNack = (s.port p).relayNack + 1 ∧ Writes s u p 0x0989 [p, nth f.hops f.idx 0xFF, cause] ∧
      ∃ x ∈ u.mesh.flight, x.pkt.body = .reply .xget stPathLost []) := by
  obtain ⟨m, taken, out⟩ := dataFrame_inSequence hs hh hq hx
  generalize hv : m.modPort p (fun v => { v with relayNack := v.relayNack + 1 }) = v
  have nack : (v.port p).relayNack = (s.port p).relayNack + 1 := by rw [← hv, State.port_modPort, ← taken.relayNack]
  have recording : v.recording = s.recording := by rw [← taken.recording, ← hv]; rfl
  obtain ⟨a, y, refused, body⟩ := (v.event p 0x0989 [p, nth f.hops f.idx 0xFF, cause]).refuseFar_read p f p (reversePath f) stPathLost hb
  have relays : m.relay p fr.pkt f = (v.event p 0x0989 [p, nth f.hops f.idx 0xFF, cause]).sendFrom a y := by
    rw [← refused]
    simp only [State.relay, taken.relayRefusal, hr, ha, hb, Body.isAnswer, Bool.or_self, Bool.false_eq_true, if_false, hv]
  rw [if_pos hi, relays] at out
  refine .of_next out ⟨?_, Writes.among recording (State.writes_event _ _ _ _) rfl rfl, body ▸ State.flight_sendFrom _ a y⟩
  exact (congrArg Port.relayNack (State.port_event ..)).trans nack

end

end Sys2Proof.Machine
end

section
/-! PROOFS. Docks: packets out of the engine, frames in, and pending entries (O20). -/

namespace Sys2Proof.Machine

/-- Settles O20, by what a dock does with each packet and frame: the requests of this engine, the packets on their route, the pending entries, and the frames that arrive or are held. -/
theorem docksRouteAndDeliver : Obligations.DocksRouteAndDeliver := fun _ _ =>
  ⟨fun _ _ _ _ _ hx hh ha hsrc hp hc hask hd harr =>
    ⟨fun hw =>
      ⟨fun hn => ⟨does_dockIngress_unrouted hx hh ha hsrc hp hc hask hd harr hw hn, fun _ => does_dockIngress_full hx hh ha hsrc hp hc hask hd harr hn⟩,
       fun _ => does_dockIngress_routed hx hh ha hsrc hp hc hask hd harr hw⟩,
     fun _ => does_dockIngress_loop hx hh ha hd harr⟩,
   fun _ _ hx hs hf harr hh hv => ⟨does_dockEgress_routed hx hs hf harr hh hv, does_dockEgress_answer hx hs hf harr hh hv⟩,
   fun _ _ => does_pendingExpiry,
   fun _ hs =>
    ⟨does_dataFrame_held hs, does_dataFrame_gap hs, fun _ _ hh hq hx ha hb =>
      ⟨fun hi hw hid => ⟨does_dataFrame_delivered hs hh hq hx ha hb hi hw hid, does_dataFrame_unprogrammed hs hh hq hx ha hb hi hw hid⟩,
       does_dataFrame_relayed hs hh hq hx hb,
       fun _ => does_dataFrame_refused hs hh hq hx ha hb⟩⟩,
   fun _ _ => does_egressHoldExpiry⟩

end Sys2Proof.Machine
end

section
/-! SUPPORT. Scopes: what a command may change of the engine, with the form of memory kept throughout (O49, O52, O53). -/

namespace Sys2Proof.Machine

/-- What may change of a tile's bytes: none, those of slots that open combining queues arm, or any. -/
inductive Bytes where
  | same | arm | any

/-- What may change: tiles by their keys, a tile's registers, the bytes of its memory, fields by number, and the rest of the engine by parts. -/
structure Scope where
  tile : Nat → Prop
  reg : Nat → Nat → Prop
  cells : Nat → Bytes
  field : Nat → Prop
  mesh : Prop
  ports : Prop
  hosts : Prop
  tables : Prop
  cond : Prop
  boot : Prop
  syncReply : Prop
  sensors : Prop
  outer : Prop

/-- No OPEN queue of the tile combines. -/
def Tile.Plain (tl : Tile) : Prop := ∀ q, q < 8 → (tl.queue q).state = 1 → (tl.queue q).kind = 0

/-- Tile b follows from tile a of a key within a scope. -/
structure Scope.Step (F : Scope) (k : Nat) (a b : Tile) : Prop where
  same : ¬F.tile k → b = a
  reg : ∀ r, ¬F.reg k r → b.reg r = a.reg r
  cells : F.cells k = .same → b.mem.cells = a.mem.cells
  plain : F.cells k = .arm → a.Plain → b.Plain ∧ b.mem.cells = a.mem.cells
  wf : a.mem.cells.wf = true → b.mem.cells.wf = true

/-- State u follows from state l within a scope, and where l's memories have their form, u's have theirs. -/
structure Scope.Keeps (F : Scope) (l u : State) : Prop where
  tiles : (∀ k, ¬F.tile k) → u.tiles = l.tiles
  tile : ∀ t, F.Step (tileKey t) (l.tile t) (u.tile t)
  field : ∀ f, ¬F.field f → u.field f = l.field f
  mesh : ¬F.mesh → u.mesh = l.mesh
  ports : ¬F.ports → u.ports = l.ports
  hosts : ¬F.hosts → u.hosts = l.hosts
  host : ∀ k, Memory.wf (l.host k).mem = true → Memory.wf (u.host k).mem = true
  tables : ¬F.tables → u.cond = l.cond
  cond : ¬F.cond → u.cond = { l.cond with gens := u.cond.gens, cutKeeps := u.cond.cutKeeps, sweeps := u.cond.sweeps }
  boot : ¬F.boot → u.boot = l.boot ∧ u.watch = l.watch
  hedge : ¬F.outer → u.hedge = { l.hedge with syncReply := u.hedge.syncReply, sensors := u.hedge.sensors }
  syncReply : ¬F.syncReply → u.hedge.syncReply = l.hedge.syncReply
  sensors : ¬F.sensors → u.hedge.sensors = l.hedge.sensors
  outer : ¬F.outer → u.mb = l.mb ∧ u.flash = l.flash ∧ u.chassis = l.chassis ∧ u.glow = l.glow ∧ u.osc = l.osc ∧ u.waferId = l.waferId ∧
    u.time = l.time ∧ u.pending = l.pending

/-! ## Tiles -/

/-- The tiles have their registers, their bytes and their queues in common. -/
def Tile.Alike (b a : Tile) : Prop := b.core.regs = a.core.regs ∧ b.mem.cells = a.mem.cells ∧ b.q.queues = a.q.queues

@[simp] theorem Tile.Alike.refl (a : Tile) : a.Alike a := ⟨rfl, rfl, rfl⟩

theorem Tile.Alike.trans {a b c : Tile} (h : c.Alike b) (k : b.Alike a) : c.Alike a :=
  ⟨h.1.trans k.1, h.2.1.trans k.2.1, h.2.2.trans k.2.2⟩

theorem Tile.Alike.ite {p : Prop} [Decidable p] {a b c : Tile} (ha : a.Alike c) (hb : b.Alike c) : (if p then a else b).Alike c := by split <;> assumption

namespace Scope

variable {F : Scope} {k : Nat} {l a b : Tile}

theorem Step.refl (F : Scope) (k : Nat) (a : Tile) : F.Step k a a := ⟨fun _ => rfl, fun _ _ => rfl, fun _ => rfl, fun _ h => ⟨h, rfl⟩, id⟩

/-- A tile that looks the same follows, where the tile may change. -/
theorem Step.alike (h : F.Step k l a) (ht : F.tile k) (e : b.Alike a) : F.Step k l b := by
  obtain ⟨er, em, eq⟩ := e
  have hr (r : Nat) : b.reg r = a.reg r := by simp [Tile.reg, er]
  have hp (h : a.Plain) : b.Plain := by simpa [Tile.Plain, Tile.queue, eq] using h
  exact ⟨fun n => absurd ht n, fun r n => (hr r).trans (h.reg r n), fun n => em.trans (h.cells n),
    fun n p => ⟨hp (h.plain n p).1, em.trans (h.plain n p).2⟩, fun w => em ▸ h.wf w⟩

/-- A write of a register that may change. -/
theorem Step.setReg (h : F.Step k l a) {r : Nat} {v : Word} (ht : F.tile k) (hr : F.reg k r) : F.Step k l (a.setReg r v) where
  same n := absurd ht n
  reg q n := by
    rw [Tile.reg_setReg]
    by_cases e : r = q
    · exact absurd (e ▸ hr) n
    · rw [if_neg e]
      by_cases z : q = 0
      · subst z; simp [Tile.reg]
      · rw [if_neg z, h.reg q n]
  cells n := by simpa using h.cells n
  plain n p := by simpa [Tile.Plain, Tile.queue] using h.plain n p
  wf w := by simpa using h.wf w

/-- A write of bytes, where bytes may be written freely. -/
theorem Step.put (h : F.Step k l a) {o : Nat} {bs : List Byte} (ht : F.tile k) (hc : F.cells k = .any) : F.Step k l (a.put o bs) where
  same n := absurd ht n
  reg := h.reg
  cells n := nomatch hc.symm.trans n
  plain n := nomatch hc.symm.trans n
  wf w := Memory.wf_writeN _ _ _ (h.wf w)

/-- A write of a queue, where the slots of queues are not all that may be armed. -/
theorem Step.setQueue (h : F.Step k l a) {q : Nat} {v : RQueue} (ht : F.tile k) (hq : F.cells k ≠ .arm) : F.Step k l (a.setQueue q v) :=
  ⟨fun n => absurd ht n, h.reg, h.cells, fun n => absurd n hq, h.wf⟩

/-- A write of a queue that is no nearer to combining than before. -/
theorem Step.setQueue_calm (h : F.Step k l a) {q : Nat} {v : RQueue} (ht : F.tile k) (hv : v.state = 1 → (a.queue q).state = 1 ∧ v.cfg = (a.queue q).cfg) :
    F.Step k l (a.setQueue q v) where
  same n := absurd ht n
  reg := h.reg
  cells := h.cells
  plain n p := by
    refine ⟨fun i hi => ?_, (h.plain n p).2⟩
    have hp := (h.plain n p).1 i hi
    by_cases e : q = i
    · subst e
      simp only [Tile.queue, Tile.setQueue, Tab.getD_put_same, RQueue.kind] at hv hp ⊢
      exact fun hs => (hv hs).2 ▸ hp (hv hs).1
    · simpa [Tile.queue, Tile.setQueue, Tab.getD_put_other _ _ _ _ _ e] using hp
  wf := h.wf

theorem Step.ite {c : Prop} [Decidable c] (ha : F.Step k l a) (hb : F.Step k l b) : F.Step k l (if c then a else b) := by split <;> assumption

theorem Step.foldl {α : Type} {g : Tile → α → Tile} {xs : List α} (h : F.Step k l a) (hg : ∀ b x, F.Step k l b → F.Step k l (g b x)) :
    F.Step k l (xs.foldl g a) := by
  induction xs generalizing a with
  | nil => exact h
  | cons x xs ih => exact ih (hg _ _ h)

end Scope

/-! ## The shared updates of the state -/

theorem Tab.find_erase_other {α : Type} (t : Tab α) {i j : Nat} (e : i ≠ j) : (t.erase i).find j = t.find j := by
  unfold Tab.erase
  induction t with
  | nil => rfl
  | cons x t ih =>
    obtain ⟨k, v⟩ := x
    by_cases hx : k = i
    · have hj : k ≠ j := fun h => e (hx.symm.trans h)
      simp [hx, Tab.find, ih, e]
    · simp [hx, Tab.find, ih]

/-- A tile is known by its key. -/
theorem State.tile_congr (s : State) {t v : TileId} (e : tileKey t = tileKey v) : s.tile t = s.tile v := by simp [State.tile, e]

namespace Scope

variable {F : Scope} {l s u : State}

theorem Keeps.refl (F : Scope) (s : State) : F.Keeps s s :=
  ⟨fun _ => rfl, fun _ => .refl .., fun _ _ => rfl, fun _ => rfl, fun _ => rfl, fun _ => rfl, fun _ => id, fun _ => rfl, fun _ => rfl, fun _ => ⟨rfl, rfl⟩,
    fun _ => rfl, fun _ => rfl, fun _ => rfl, fun _ => ⟨rfl, rfl, rfl, rfl, rfl, rfl, rfl, rfl⟩⟩

theorem Keeps.setTile (h : F.Keeps l s) {t : TileId} {tl : Tile} (ht : F.tile (tileKey t)) (hs : F.Step (tileKey t) (l.tile t) tl) :
    F.Keeps l (s.setTile t tl) :=
  { h with
    tiles := fun n => absurd ht (n _)
    tile := fun v => by
      by_cases e : tileKey t = tileKey v
      · rw [← State.tile_congr _ e, ← State.tile_congr _ e, State.tile_setTile, ← e]
        exact hs
      · rw [State.tile_setTile_other _ _ _ _ e]
        exact h.tile v }

theorem Keeps.modTile (h : F.Keeps l s) {t : TileId} {g : Tile → Tile} (ht : F.tile (tileKey t)) (hs : F.Step (tileKey t) (l.tile t) (g (s.tile t))) :
    F.Keeps l (s.modTile t g) := h.setTile ht hs

/-- A change of a tile that its registers, bytes and queues do not see. -/
theorem Keeps.modTile_alike (h : F.Keeps l s) {t : TileId} {g : Tile → Tile} (ht : F.tile (tileKey t)) (e : (g (s.tile t)).Alike (s.tile t)) :
    F.Keeps l (s.modTile t g) := h.setTile ht ((h.tile t).alike ht e)

theorem Keeps.setTile_alike (h : F.Keeps l s) {t : TileId} {tl : Tile} (ht : F.tile (tileKey t)) (e : tl.Alike (s.tile t)) :
    F.Keeps l (s.setTile t tl) := h.setTile ht ((h.tile t).alike ht e)

theorem Keeps.setField (h : F.Keeps l s) {f : Nat} {fd : Field} (hf : F.field f) : F.Keeps l (s.setField f fd) :=
  { h with
    field := fun g n => by
      by_cases e : f = g
      · exact absurd (e ▸ hf) n
      · rw [State.field_setField_other _ _ _ _ e]
        exact h.field g n }

theorem Keeps.modField (h : F.Keeps l s) {f : Nat} {g : Field → Field} (hf : F.field f) : F.Keeps l (s.modField f g) := h.setField hf

theorem Keeps.setMesh (h : F.Keeps l s) {m : Mesh} (hm : F.mesh) : F.Keeps l { s with mesh := m } := { h with mesh := fun n => absurd hm n }

theorem Keeps.setFree (h : F.Keeps l s) {n : Nat} : F.Keeps l { s with free := n } := { h with }

theorem Keeps.setScarab (h : F.Keeps l s) {v : Scarab} : F.Keeps l { s with scarab := v } := { h with }

theorem Keeps.setScarabQ (h : F.Keeps l s) {v : Tab (List Ev)} : F.Keeps l { s with scarabQ := v } := { h with }

theorem Keeps.setPorts (h : F.Keeps l s) {v : Tab Port} (hp : F.ports) : F.Keeps l { s with ports := v } := { h with ports := fun n => absurd hp n }

theorem Keeps.setCond (h : F.Keeps l s) {v : Conductor} (hc : F.cond) (ht : F.tables) : F.Keeps l { s with cond := v } :=
  { h with cond := fun n => absurd hc n, tables := fun n => absurd ht n }

theorem Keeps.setGens (h : F.Keeps l s) {v : Tab Nat} (ht : F.tables) : F.Keeps l { s with cond := { s.cond with gens := v } } :=
  { h with
    tables := fun n => absurd ht n
    cond := fun n => by rw [h.cond n] }

theorem Keeps.setCuts (h : F.Keeps l s) {v : List Nat} (ht : F.tables) : F.Keeps l { s with cond := { s.cond with cutKeeps := v } } :=
  { h with
    tables := fun n => absurd ht n
    cond := fun n => by rw [h.cond n] }

theorem Keeps.setSweeps (h : F.Keeps l s) {v : List Nat} (ht : F.tables) : F.Keeps l { s with cond := { s.cond with sweeps := v } } :=
  { h with
    tables := fun n => absurd ht n
    cond := fun n => by rw [h.cond n] }

/-- Node b's memory has its form where node a's has. -/
def Held (a b : HostNode) : Prop := Memory.wf a.mem = true → Memory.wf b.mem = true

theorem Keeps.modHost (h : F.Keeps l s) {j : Nat} {g : HostNode → HostNode} (hh : F.hosts) (hw : Held (s.host j) (g (s.host j))) : F.Keeps l (s.modHost j g) :=
  { h with
    hosts := fun n => absurd hh n
    host := fun k w => by
      by_cases e : j = k
      · subst e
        simpa [State.host, State.modHost, Tab.getD_put_same] using hw (h.host j w)
      · simpa [State.host, State.modHost, Tab.getD_put_other _ _ _ _ _ e] using h.host k w }

theorem Keeps.eraseHost (h : F.Keeps l s) {j : Nat} (hh : F.hosts) : F.Keeps l { s with hosts := s.hosts.erase j } :=
  { h with
    hosts := fun n => absurd hh n
    host := fun k w => by
      have e : (s.hosts.erase j).getD k {} = {} ∨ (s.hosts.erase j).getD k {} = s.host k := by
        by_cases e : j = k
        · subst e
          simp [Tab.getD, Tab.find_erase]
        · simp [State.host, Tab.getD, Tab.find_erase_other _ e]
      show Memory.wf ((s.hosts.erase j).getD k {}).mem = true
      rcases e with e | e <;> rw [e]
      · rfl
      · exact h.host k w }

theorem Keeps.setBoot (h : F.Keeps l s) {v : Boot} (hb : F.boot) : F.Keeps l { s with boot := v } := { h with boot := fun n => absurd hb n }

theorem Keeps.setWatch (h : F.Keeps l s) {v : Watch} (hb : F.boot) : F.Keeps l { s with watch := v } := { h with boot := fun n => absurd hb n }

theorem Keeps.event (h : F.Keeps l s) {src code : Nat} {d : List Nat} : F.Keeps l (s.event src code d) := by
  unfold State.event
  dsimp only
  split
  · exact h.setScarab
  · exact { h with }

theorem Keeps.ite {c : Prop} [Decidable c] (ha : F.Keeps l s) (hb : F.Keeps l u) : F.Keeps l (if c then s else u) := by split <;> assumption

theorem Keeps.foldl {α : Type} {g : State → α → State} {xs : List α} (h : F.Keeps l s) (hg : ∀ v x, F.Keeps l v → F.Keeps l (g v x)) :
    F.Keeps l (xs.foldl g s) := by
  induction xs generalizing s with
  | nil => exact h
  | cons x xs ih => exact ih (hg _ _ h)

/-- The same where the state is a part of what the fold carries. -/
theorem Keeps.foldl_part {α β : Type} (part : β → State) {g : β → α → β} {xs : List α} {b : β} (hg : ∀ b x, F.Keeps l (part b) → F.Keeps l (part (g b x)))
    (h : F.Keeps l (part b)) : F.Keeps l (part (xs.foldl g b)) := by
  induction xs generalizing b with
  | nil => exact h
  | cons x xs ih => exact ih (hg _ _ h)

end Scope
end Sys2Proof.Machine
end

section
/-! SUPPORT. Scopes: what the operations of a tile change, and the permissions that commands need. -/

namespace Sys2Proof.Machine

/-! ## The tile's own operations -/

section Alike

variable (tl : Tile)

@[simp] theorem Tile.alike_setEngine (e : Nat) (g : Engine) : (tl.setEngine e g).Alike tl := ⟨rfl, rfl, rfl⟩
@[simp] theorem Tile.alike_setWindow (w : Nat) (v : Window) : (tl.setWindow w v).Alike tl := ⟨rfl, rfl, rfl⟩
@[simp] theorem Tile.alike_setCtx (c : Nat) (v : Ctx) : (tl.setCtx c v).Alike tl := ⟨rfl, rfl, rfl⟩
@[simp] theorem Tile.alike_setSlot (i : Nat) (v : Slot) : (tl.setSlot i v).Alike tl := ⟨rfl, rfl, rfl⟩
@[simp] theorem Tile.alike_setCell (c : Nat) (v : Cell) : (tl.setCell c v).Alike tl := ⟨rfl, rfl, rfl⟩
@[simp] theorem Tile.alike_setHandle (h : Nat) (v : Handle) : (tl.setHandle h v).Alike tl := ⟨rfl, rfl, rfl⟩
@[simp] theorem Tile.alike_setFiring (c : Nat) (x : FCtx) : (tl.setFiring c x).Alike tl := ⟨rfl, rfl, rfl⟩
@[simp] theorem Tile.alike_dropFiring (c : Nat) : (tl.dropFiring c).Alike tl := ⟨rfl, rfl, rfl⟩
@[simp] theorem Tile.alike_setOut (i : Nat) (x : StealOut) : (tl.setOut i x).Alike tl := ⟨rfl, rfl, rfl⟩
@[simp] theorem Tile.alike_dropOut (i : Nat) : (tl.dropOut i).Alike tl := ⟨rfl, rfl, rfl⟩
@[simp] theorem Tile.alike_fillTags (o n : Nat) : (tl.fillTags o n).Alike tl := ⟨rfl, rfl, rfl⟩
@[simp] theorem Tile.alike_retire (n c : Nat) : (tl.retire n c).Alike tl := ⟨rfl, rfl, rfl⟩
@[simp] theorem Tile.alike_stopProfile : tl.stopProfile.Alike tl := ⟨rfl, rfl, rfl⟩
@[simp] theorem Tile.alike_startProfile (h n now : Nat) : (tl.startProfile h n now).Alike tl := ⟨rfl, rfl, rfl⟩
@[simp] theorem Tile.alike_enqueue (e : Nat) (u : FUnit) (now : Nat) : (tl.enqueue e u now).Alike tl := ⟨rfl, rfl, rfl⟩
@[simp] theorem Tile.alike_popTail (e now : Nat) : (tl.popTail e now).Alike tl := ⟨rfl, rfl, rfl⟩
@[simp] theorem Tile.alike_push (t : TileId) (bs : List Byte) (e : Nat) (firing : Option (Nat × Nat)) (now : Nat) :
    (tl.push t bs e firing now).Alike tl := ⟨rfl, rfl, rfl⟩
@[simp] theorem Tile.alike_fillReady : tl.fillReady.Alike tl := ⟨rfl, rfl, rfl⟩
@[simp] theorem Tile.alike_refuseToken : tl.refuseToken.Alike tl := ⟨rfl, rfl, rfl⟩
@[simp] theorem Tile.alike_lostPosted : tl.lostPosted.Alike tl := ⟨rfl, rfl, rfl⟩
@[simp] theorem Tile.alike_countFailed : tl.countFailed.Alike tl := ⟨rfl, rfl, rfl⟩
@[simp] theorem Tile.alike_addDrop (n : Nat) : (tl.addDrop n).Alike tl := ⟨rfl, rfl, rfl⟩
@[simp] theorem Tile.alike_holdRemote (tag due : Nat) : (tl.holdRemote tag due).Alike tl := ⟨rfl, rfl, rfl⟩
@[simp] theorem Tile.alike_dropRemote (tag : Nat) : (tl.dropRemote tag).Alike tl := ⟨rfl, rfl, rfl⟩
@[simp] theorem Tile.alike_clearEngine (e now : Nat) : (tl.clearEngine e now).Alike tl := ⟨rfl, rfl, rfl⟩
@[simp] theorem Tile.alike_toAdmitted : tl.toAdmitted.Alike tl := ⟨rfl, rfl, rfl⟩
@[simp] theorem Tile.alike_tick : tl.tick.Alike tl := ⟨rfl, rfl, rfl⟩

@[simp] theorem Tile.alike_raise (now unit code : Nat) (i0 i1 : Word) : (tl.raise now unit code i0 i1).Alike tl := by
  unfold Tile.raise; (repeat' split) <;> exact ⟨rfl, rfl, rfl⟩

@[simp] theorem Tile.alike_unfire (sl : Nat) : (tl.unfire sl).Alike tl := by
  unfold Tile.unfire; split <;> exact ⟨rfl, rfl, rfl⟩

@[simp] theorem Tile.alike_activate (sl : Nat) : (tl.activate sl).Alike tl := by
  unfold Tile.activate
  split
  · exact .refl _
  · exact .trans (b := tl.unfire tl.fold.active) ⟨rfl, rfl, rfl⟩ (Tile.alike_unfire ..)

@[simp] theorem Tile.alike_toEntry (e now : Nat) : (tl.toEntry e now).Alike tl :=
  .trans (b := tl.activate (tl.fold.entry e).1) ⟨rfl, rfl, rfl⟩ (Tile.alike_activate ..)

@[simp] theorem Tile.alike_switchTo (g : SwitchTarget) (now : Nat) : (tl.switchTo g now).Alike tl := by
  unfold Tile.switchTo
  split
  · exact (Tile.alike_activate ..).trans ⟨rfl, rfl, rfl⟩
  · exact (Tile.alike_toEntry ..).trans ⟨rfl, rfl, rfl⟩

@[simp] theorem Tile.alike_writeFoldCtrl (val : Word) (now : Nat) : (tl.writeFoldCtrl val now).Alike tl := by
  unfold Tile.writeFoldCtrl
  exact .ite ((Tile.alike_toEntry ..).trans ⟨rfl, rfl, rfl⟩) ⟨rfl, rfl, rfl⟩

@[simp] theorem Tile.alike_sampleStart (now cyc n : Nat) : (tl.sampleStart now cyc n).Alike tl := by
  unfold Tile.sampleStart
  split
  · exact .refl _
  · exact .ite (.refl _) (.ite ⟨rfl, rfl, rfl⟩ ((Tile.alike_startProfile ..).trans ⟨rfl, rfl, rfl⟩))

theorem Tile.alike_takeWrite {tag : Nat} {re : Re} {w : WriteRec} {tl' : Tile} (h : tl.takeWrite tag re = some (w, tl')) : tl'.Alike tl := by
  unfold Tile.takeWrite at h
  split at h
  · cases h
  · cases h; exact ⟨rfl, rfl, rfl⟩

@[simp] theorem Tile.alike_settle (tag : Nat) (re : Re) (landed : Bool) : (tl.settle tag re landed).Alike tl := by
  unfold Tile.settle
  split
  · exact .refl _
  · next h => exact .ite (tl.alike_takeWrite h) (tl.alike_takeWrite h : _ ∧ _ ∧ _)

end Alike

namespace Scope

variable {F : Scope} {k : Nat} {l a b : Tile}

theorem not_same (hc : F.cells k = .any) : F.cells k ≠ .same := fun h => nomatch h.symm.trans hc

theorem not_arm (hc : F.cells k = .any) : F.cells k ≠ .arm := fun h => nomatch h.symm.trans hc

/-- Where bytes may be written freely, only registers and the form of memory count. -/
theorem Step.any (h : F.Step k l a) (ht : F.tile k) (hc : F.cells k = .any) (hr : b.core.regs = a.core.regs)
    (hw : a.mem.cells.wf = true → b.mem.cells.wf = true) : F.Step k l b :=
  ⟨fun n => absurd ht n, fun r n => (show b.reg r = a.reg r by simp [Tile.reg, hr]).trans (h.reg r n), fun n => absurd n (not_same hc),
    fun n => absurd n (not_arm hc), fun w => hw (h.wf w)⟩

end Scope

/-! ### Slots of combining queues -/

theorem Tile.wf_put (tl : Tile) (o : Nat) (bs : List Byte) (w : tl.mem.cells.wf = true) : (tl.put o bs).mem.cells.wf = true := Memory.wf_writeN _ _ _ w

theorem Tile.wf_armSlot (tl : Tile) (q sl : Nat) (w : tl.mem.cells.wf = true) : (tl.armSlot q sl).mem.cells.wf = true := by
  unfold Tile.armSlot Tile.setQueue TileMem.put
  dsimp only
  apply Memory.wf_writeN
  split
  · exact w
  · exact Memory.wf_writeN _ _ _ w

theorem Tile.core_armSlot (tl : Tile) (q sl : Nat) : (tl.armSlot q sl).core = tl.core := by
  unfold Tile.armSlot Tile.setQueue
  rfl

/-- What emptying the tag of a combining slot leaves of each queue. -/
theorem Tile.queue_takeSlot (tl : Tile) (q sl i : Nat) :
    ((tl.takeSlot q sl).queue i).state = (tl.queue i).state ∧ ((tl.takeSlot q sl).queue i).cfg = (tl.queue i).cfg := by
  unfold Tile.takeSlot Tile.armSlot
  dsimp only
  by_cases e : q = i
  · subst e
    split <;> simp [Tile.setQueue, Tile.queue]
  · split <;> simp [Tile.setQueue, Tile.queue, Tab.getD_put_other _ _ _ _ _ e]

/-- The slots that emptied tags reach belong to combining queues. -/
theorem Tile.kind_of_combSlots {tl : Tile} {gs : List Nat} {p : Nat × Nat} (h : p ∈ tl.combSlots gs) : p.1 < 8 ∧ (tl.queue p.1).kind ≠ 0 := by
  unfold Tile.combSlots at h
  obtain ⟨q, hq, hp⟩ := List.mem_flatMap.mp h
  dsimp only at hp
  split at hp
  · next hk =>
    obtain ⟨g, -, hg⟩ := List.mem_filterMap.mp hp
    split at hg
    · cases hg
      exact ⟨by simpa [upto] using hq, by simpa using hk⟩
    · cases hg
  · cases hp

namespace Scope

variable {F : Scope} {k : Nat} {l a b : Tile}

theorem Step.armSlot (h : F.Step k l a) {q sl : Nat} (ht : F.tile k) (hc : F.cells k = .any) : F.Step k l (a.armSlot q sl) :=
  h.any ht hc (congrArg Core.regs (Tile.core_armSlot ..)) (Tile.wf_armSlot _ _ _)

/-- Emptying the tag of a slot of a combining queue: it is armed where that queue is OPEN. -/
theorem Step.takeSlot (h : F.Step k l a) {q sl : Nat} (ht : F.tile k) (hc : F.cells k ≠ .same) (hq : q < 8) (hk : (a.queue q).kind ≠ 0) :
    F.Step k l (a.takeSlot q sl) := by
  unfold Tile.takeSlot
  dsimp only
  split
  · next hs =>
    exact ⟨fun n => absurd ht n, fun r n => (show (a.armSlot q sl).reg r = a.reg r by simp [Tile.reg, Tile.core_armSlot]).trans (h.reg r n),
      fun n => absurd n hc, fun n p => absurd ((h.plain n p).1 q hq hs) hk, fun w => Tile.wf_armSlot _ _ _ (h.wf w)⟩
  · exact h.setQueue_calm ht fun hs => ⟨hs, rfl⟩

theorem Step.emptyTags (h : F.Step k l a) {o n : Nat} (ht : F.tile k) (hc : F.cells k ≠ .same) : F.Step k l (a.emptyTags o n) := by
  unfold Tile.emptyTags
  dsimp only
  have takes (ps : List (Nat × Nat)) : ∀ b, F.Step k l b → (∀ p ∈ ps, p.1 < 8 ∧ (b.queue p.1).kind ≠ 0) →
      F.Step k l (ps.foldl (fun x p => x.takeSlot p.1 p.2) b) := by
    induction ps with
    | nil => exact fun _ hb _ => hb
    | cons p ps ih =>
      intro b hb hp
      refine ih _ (hb.takeSlot ht hc (hp p (.head _)).1 (hp p (.head _)).2) fun q hq => ⟨(hp q (.tail _ hq)).1, ?_⟩
      rw [RQueue.kind, (b.queue_takeSlot p.1 p.2 q.1).2]
      exact (hp q (.tail _ hq)).2
  exact takes _ _ (h.alike ht ⟨rfl, rfl, rfl⟩) fun p hp => Tile.kind_of_combSlots hp

theorem Step.consumeSlots (h : F.Step k l a) {hd : Handle} {i n : Nat} (ht : F.tile k) (hc : F.cells k ≠ .same) :
    F.Step k l (a.consumeSlots hd i n) := .ite (h.emptyTags ht hc) h

theorem Step.setLost (h : F.Step k l a) {q : Nat} (ht : F.tile k) : F.Step k l (a.setLost q) := h.setQueue_calm ht fun hs => ⟨hs, rfl⟩

theorem Step.combDrop (h : F.Step k l a) {q : Nat} (ht : F.tile k) : F.Step k l (a.combDrop q) := (h.setLost ht).alike ht (Tile.alike_addDrop ..)

theorem Step.slotFlag (h : F.Step k l a) {o m : Nat} (ht : F.tile k) (hc : F.cells k = .any) : F.Step k l (a.slotFlag o m) := h.put ht hc

theorem Step.slotDone (h : F.Step k l a) {q sl o : Nat} (ht : F.tile k) (hc : F.cells k = .any) : F.Step k l (a.slotDone q sl o) :=
  ((h.slotFlag ht hc).alike ht (Tile.alike_fillTags ..)).setQueue ht (not_arm hc)

theorem Step.combApply (h : F.Step k l a) {op o : Nat} {v : Word} (ht : F.tile k) (hc : F.cells k = .any) : F.Step k l (a.combApply op o v) :=
  .ite (h.put ht hc) (h.put ht hc)

theorem Step.combFold (h : F.Step k l a) {q o : Nat} (ht : F.tile k) (hc : F.cells k = .any) : F.Step k l (a.combFold q o) :=
  ((h.put ht hc).put ht hc).setQueue ht (not_arm hc)

theorem Step.combStage (h : F.Step k l a) {q o i : Nat} {x : Contribution} (ht : F.tile k) (hc : F.cells k = .any) : F.Step k l (a.combStage q o i x) :=
  ((Step.ite ((h.put ht hc).put ht hc) ((h.put ht hc).put ht hc)).put ht hc).setQueue ht (not_arm hc)

theorem Step.armAll (h : F.Step k l a) {q : Nat} (ht : F.tile k) (hc : F.cells k = .any) : F.Step k l (a.armAll q) :=
  (h.foldl fun _ _ hb => hb.armSlot ht hc).alike ht ⟨rfl, rfl, rfl⟩

theorem Step.rqCfg (h : F.Step k l a) {q : Nat} {val : Word} (ht : F.tile k) (hc : F.cells k = .any) : F.Step k l (a.rqCfg q val) := by
  unfold Tile.rqCfg
  have hq := not_arm hc
  exact .ite h (.ite (h.setQueue ht hq) (.ite (h.setQueue ht hq) ((Step.ite (h.setQueue ht hq) ((h.setQueue ht hq).armAll ht hc)).setQueue ht hq)))

theorem Step.clearLost (h : F.Step k l a) {val : Word} (ht : F.tile k) :
    F.Step k l ((upto 8).foldl (fun x q => if bit val (16 + q) then x.setQueue q { x.queue q with lost := false } else x) a) :=
  h.foldl fun _ _ hb => .ite (hb.setQueue_calm ht fun hs => ⟨hs, rfl⟩) hb

theorem Step.dropRecord (h : F.Step k l a) {i : Nat} {g : Grant} (ht : F.tile k) : F.Step k l (a.dropRecord i g) :=
  Step.setQueue_calm (h.alike (b := { a with q := { a.q with grants := a.q.grants.erase i } }) ht ⟨rfl, rfl, rfl⟩) ht fun hs => ⟨hs, rfl⟩

theorem Step.endRecord (h : F.Step k l a) {i : Nat} {g : Grant} {marker : Bool} (ht : F.tile k) : F.Step k l (a.endRecord i g marker) := by
  unfold Tile.endRecord
  have hd := h.dropRecord (i := i) (g := g) ht
  exact .ite (hd.setLost ht) (.ite hd (.ite (hd.setQueue_calm ht fun hs => ⟨hs, rfl⟩) (hd.alike ht (Tile.alike_addDrop ..))))

theorem Step.endStale (h : F.Step k l a) {t : TileId} {gen : Nat} (ht : F.tile k) : F.Step k l (a.endStale t gen) :=
  h.foldl fun _ _ hb => hb.endRecord ht

theorem Step.landToken (h : F.Step k l a) {sl now : Nat} {im : Image} {x : TokenBody} (ht : F.tile k) (hc : F.cells k = .any) :
    F.Step k l (a.landToken sl im x now) := by
  have hs (tl : Tile) : ({ tl with fold := { tl.fold with store := tl.fold.store ++ [Tok.mk x (some sl) now] } } : Tile).fillReady.Alike tl := ⟨rfl, rfl, rfl⟩
  unfold Tile.landToken
  dsimp only
  split
  · exact h.alike ht (hs _)
  · exact .alike (.ite ((h.put ht hc).alike ht (Tile.alike_fillTags ..)) (h.put ht hc)) ht (hs _)

theorem Step.retireTags (h : F.Step k l a) {d : Desc} (ht : F.tile k) (hc : F.cells k ≠ .same) : F.Step k l (a.retireTags d) := by
  unfold Tile.retireTags
  have he (ps : List (Nat × Nat)) := h.foldl (xs := ps) fun _ x hb => hb.emptyTags (o := x.1) (n := x.2) ht hc
  exact .ite ((he _).alike ht (Tile.alike_fillTags ..)) (he _)

/-- A tile that lost power or was cleared keeps no register. -/
theorem Step.powerLost (h : F.Step k l a) (ht : F.tile k) (hc : F.cells k = .any) (hr : ∀ r, F.reg k r) : F.Step k l a.powerLost := by
  refine ⟨fun n => absurd ht n, fun r n => absurd (hr r) n, fun n => absurd n (not_same hc), fun n => absurd n (not_arm hc), fun w => ?_⟩
  unfold Tile.powerLost
  (repeat' split) <;> first | rfl | exact h.wf w

theorem Step.cleared (h : F.Step k l a) {gen now : Nat} {regs : Tab Word} (ht : F.tile k) (hc : F.cells k = .any) (hr : ∀ r, F.reg k r) :
    F.Step k l (a.cleared gen regs now) :=
  ⟨fun n => absurd ht n, fun r n => absurd (hr r) n, fun n => absurd n (not_same hc), fun n => absurd n (not_arm hc), h.wf⟩

/-! ## Permissions -/

/-- What the commands of tile t's core reach: the tile, its field and the mesh. -/
structure Core (F : Scope) (t : TileId) : Prop where
  tile : F.tile (tileKey t)
  field : F.field (fieldOf t)
  mesh : F.mesh

/-- What the commands of the array reach: every tile and field, and the mesh. -/
structure Array (F : Scope) : Prop where
  tile : ∀ k, F.tile k
  reg : ∀ k r, F.reg k r
  any : ∀ k, F.cells k = .any
  field : ∀ f, F.field f
  mesh : F.mesh

/-- What the commands of the fields reach: every field, start-up, the watch and the conductor's own state. -/
structure Fields (F : Scope) : Prop where
  field : ∀ f, F.field f
  tables : F.tables
  cond : F.cond
  boot : F.boot

/-- All that a command may reach, in which only the form of memory is kept. -/
structure Open (F : Scope) : Prop extends Array F, Fields F where
  ports : F.ports
  hosts : F.hosts
  syncReply : F.syncReply
  sensors : F.sensors
  outer : F.outer

theorem Array.core {F : Scope} (h : F.Array) (t : TileId) : F.Core t := ⟨h.tile _, h.field _, h.mesh⟩

theorem Array.not_same {F : Scope} (h : F.Array) (k : Nat) : F.cells k ≠ .same := Scope.not_same (h.any k)

/-- Under the array's permissions only the form of a tile's memory counts. -/
theorem Array.step {F : Scope} {k : Nat} {l a b : Tile} (ha : F.Array) (h : F.Step k l a) (hw : a.mem.cells.wf = true → b.mem.cells.wf = true) : F.Step k l b :=
  ⟨fun n => absurd (ha.tile k) n, fun r n => absurd (ha.reg k r) n, fun n => absurd n (Scope.not_same (ha.any k)), fun n => absurd n (Scope.not_arm (ha.any k)),
    fun w => hw (h.wf w)⟩

/-- Tile b's memory has its form where tile a's has. -/
def Formed (a b : Tile) : Prop := a.mem.cells.wf = true → b.mem.cells.wf = true

/-- Writing a tile under the array's permissions. -/
theorem Keeps.setTile_array {F : Scope} {l s : State} {t : TileId} {tl : Tile} (h : F.Keeps l s) (ha : F.Array) (hw : Formed (s.tile t) tl) :
    F.Keeps l (s.setTile t tl) := h.setTile (ha.tile _) (ha.step (h.tile t) hw)

theorem Keeps.modTile_array {F : Scope} {l s : State} {t : TileId} {g : Tile → Tile} (h : F.Keeps l s) (ha : F.Array)
    (hw : Formed (s.tile t) (g (s.tile t))) : F.Keeps l (s.modTile t g) := h.setTile_array ha hw

/-- Where everything may change, only the tiles and the host nodes count. -/
theorem Open.keeps {F : Scope} {l u : State} (ho : F.Open) (ht : ∀ t, Formed (l.tile t) (u.tile t)) (hh : ∀ k, Held (l.host k) (u.host k)) : F.Keeps l u where
  tiles n := absurd (ho.tile 0) (n 0)
  tile t := ho.toArray.step (.refl ..) (ht t)
  field f n := absurd (ho.toArray.field f) n
  mesh n := absurd ho.mesh n
  ports n := absurd ho.ports n
  hosts n := absurd ho.hosts n
  host := hh
  tables n := absurd ho.tables n
  cond n := absurd ho.cond n
  boot n := absurd ho.boot n
  hedge n := absurd ho.outer n
  syncReply n := absurd ho.syncReply n
  sensors n := absurd ho.sensors n
  outer n := absurd ho.outer n

theorem Keeps.rest {F : Scope} {l s : State} {pending : List Instr} {time free : Nat} {osc : Nat} {waferId : Nat} {mesh : Mesh} {mb : Mailbox} {cond : Conductor}
    {boot : Boot} {fields : Tab Field} {ports : Tab Port} {glow : Tab Nat} {chassis : Chassis} {watch : Watch} {hedge : Hedge} {flash : Flash}
    {scarabQ : Tab (List Ev)} {scarab : Scarab} (h : F.Keeps l s) (ho : F.Open) :
    F.Keeps l ⟨pending, time, free, osc, waferId, mesh, mb, cond, boot, s.tiles, fields, ports, glow, s.hosts, chassis, watch, hedge, flash, scarabQ, scarab⟩ :=
  ho.keeps (fun t => (h.tile t).wf) h.host

/-- What a Gliast command's run leaves keeps the scope. -/
inductive Runs (F : Scope) (l : State) : CmdOut → Prop where
  | refuse {c : Nat} {w : List Word} : F.Runs l (.refuse c w)
  | done {w : List Word} {u : State} (h : F.Keeps l u) : F.Runs l (.done w u)
  | long {n : Option Nat} {w : List Word} {u : State} (h : F.Keeps l u) : F.Runs l (.long n w u)
  | defer {u : State} (h : F.Keeps l u) : F.Runs l (.defer u)

theorem Runs.ite {F : Scope} {l : State} {c : Prop} [Decidable c] {a b : CmdOut} (ha : F.Runs l a) (hb : F.Runs l b) :
    F.Runs l (if c then a else b) := by split <;> assumption

/-- What a command answers keeps the scope. -/
def Answers (F : Scope) (l : State) (o : Out) : Prop :=
  match o with
  | .next u => F.Keeps l u
  | .fault _ | .refused _ => False

theorem Answers.next {F : Scope} {l u : State} (h : F.Keeps l u) : F.Answers l (.next u) := h

theorem Answers.ite {F : Scope} {l : State} {c : Prop} [Decidable c] {a b : Out} (ha : F.Answers l a) (hb : F.Answers l b) :
    F.Answers l (if c then a else b) := by split <;> assumption

end Scope
end Sys2Proof.Machine
end

section
/-! SUPPORT. Scopes: faults, completions, cells, buffers, the mesh and queues. -/

namespace Sys2Proof.Machine
namespace Scope
variable {F : Scope} {l s : State}

theorem Keeps.raise {t : TileId} {unit code : Nat} {info0 info1 : Word} (hs : F.Keeps l s) (hc : F.Core t) : F.Keeps l (s.raise t unit code info0 info1) := by
  unfold State.raise
  apply_rules [Keeps.modTile_alike, Core.tile] <;> simp

theorem Keeps.sendFrom {a : TileId} {p : Pkt} (hs : F.Keeps l s) (hm : F.mesh) : F.Keeps l (s.sendFrom a p) := by
  unfold State.sendFrom
  apply_rules [Keeps.setMesh]

theorem Keeps.send {p : Pkt} (hs : F.Keeps l s) (hm : F.mesh) : F.Keeps l (s.send p) := by
  unfold State.send
  apply_rules [Keeps.sendFrom]

theorem Keeps.arrive {p : Pkt} (hs : F.Keeps l s) (hm : F.mesh) : F.Keeps l (s.arrive p) := by
  unfold State.arrive
  dsimp only
  apply_rules [Keeps.setMesh]

theorem Keeps.status {h : Hdr} {gen : Nat} {re : Re} {code : Nat} (hs : F.Keeps l s) (hm : F.mesh) : F.Keeps l (s.status h gen re code) := by
  unfold State.status
  apply_rules [Keeps.send]

theorem Keeps.reply {h : Hdr} {gen : Nat} {re : Re} {code : Nat} {data : List Byte} (hs : F.Keeps l s) (hm : F.mesh) :
    F.Keeps l (s.reply h gen re code data) := by
  unfold State.reply
  apply_rules [Keeps.send]

theorem Keeps.freeVal (hs : F.Keeps l s) : F.Keeps l s.freeVal.2 := hs.setFree

theorem Keeps.logUe {t : TileId} {o kind : Nat} (hs : F.Keeps l s) (hc : F.Core t) : F.Keeps l (s.logUe t o kind) := by
  unfold State.logUe
  apply_rules [Keeps.modField, Core.field]

theorem Keeps.countCe {t : TileId} {w : Nat} (hs : F.Keeps l s) (hc : F.Core t) : F.Keeps l (s.countCe t w) := by
  unfold State.countCe
  dsimp only
  apply_rules [Keeps.modField, Keeps.event, Core.field]

theorem Keeps.correctWords {t : TileId} {ws : List Nat} (hs : F.Keeps l s) (hc : F.Core t) : F.Keeps l (s.correctWords t ws) :=
  hs.foldl fun _ _ hv => (Keeps.ite hv (hv.modTile_alike hc.tile ⟨rfl, rfl, rfl⟩)).countCe hc

theorem Keeps.correct {t : TileId} {o n : Nat} (hs : F.Keeps l s) (hc : F.Core t) : F.Keeps l (s.correct t o n) := by
  unfold State.correct
  apply_rules [Keeps.correctWords]

theorem Keeps.merge {t : TileId} {o n : Nat} (hs : F.Keeps l s) (hc : F.Core t) : F.Keeps l (s.merge t o n) := by
  unfold State.merge
  apply_rules [Keeps.correctWords]

theorem Keeps.ueFault {t : TileId} {unit o unitId : Nat} (hs : F.Keeps l s) (hc : F.Core t) : F.Keeps l (s.ueFault t unit o unitId) := by
  unfold State.ueFault
  apply_rules [Keeps.raise, Keeps.logUe]

theorem Keeps.served {t : TileId} {req o : Nat} (hs : F.Keeps l s) (hc : F.Core t) : F.Keeps l (s.served t req o) :=
  hs.modTile_alike hc.tile ⟨rfl, by unfold TileMem.granted; split <;> rfl, rfl⟩

theorem Keeps.reading {t : TileId} {unit o n : Nat} {k : List Byte → State → State} (hs : F.Keeps l s) (hk : ∀ x0 v,
    F.Keeps l v → F.Keeps l (k x0 v)) (hc : F.Core t) :
    F.Keeps l (s.reading t unit o n k) := by
  unfold State.reading
  (repeat' split) <;> apply_rules [Keeps.ueFault, Keeps.served, Keeps.correct]

theorem Keeps.writing {t : TileId} {unit o n : Nat} {k : State → State} (hs : F.Keeps l s) (hk : ∀  v, F.Keeps l v → F.Keeps l (k  v)) (hc : F.Core t) :
    F.Keeps l (s.writing t unit o n k) := by
  unfold State.writing
  (repeat' split) <;> apply_rules [Keeps.ueFault, Keeps.served, Keeps.merge]

theorem Keeps.endThatch {t : TileId} (hs : F.Keeps l s) (hc : F.Core t) : F.Keeps l (s.endThatch t) := by
  unfold State.endThatch
  dsimp only
  apply_rules [Keeps.modField, Keeps.modTile_alike, Keeps.ite, Core.tile, Core.field] <;> exact ⟨rfl, rfl, rfl⟩

theorem Keeps.finish {t : TileId} {a : XArgs} {st v cost : Nat} (hs : F.Keeps l s) (hc : F.Core t) (hr : F.reg (tileKey t) a.rd) :
    F.Keeps l (s.finish t a st v cost) := by
  have hi : F.Keeps l (if (s.tile t).inSwait then s.endThatch t else s) := .ite (hs.endThatch hc) hs
  exact hi.modTile hc.tile (((hi.tile t).setReg hc.tile hr).alike hc.tile (Tile.alike_retire ..))

theorem Keeps.finishRaw {t : TileId} {a : XArgs} {st : Nat} {v : Word} {cost : Nat} (hs : F.Keeps l s) (hc : F.Core t)
    (hr : F.reg (tileKey t) a.rd) : F.Keeps l (s.finishRaw t a st v cost) :=
  hs.modTile hc.tile (((hs.tile t).setReg (v := v) hc.tile hr).alike hc.tile ⟨rfl, rfl, rfl⟩)

theorem Keeps.stallOn {t : TileId} {op : XOp} {a : XArgs} {w : StallWait} {obj : Nat} (hs : F.Keeps l s) (hc : F.Core t) :
    F.Keeps l (s.stallOn t op a w obj) := by
  unfold State.stallOn
  dsimp only
  (repeat' split) <;> apply_rules [Keeps.modTile_alike, Core.tile] <;> exact ⟨rfl, rfl, rfl⟩

theorem Keeps.badArg {t : TileId} {op : XOp} {a : XArgs} {v : Word} (hs : F.Keeps l s) (hc : F.Core t) : F.Keeps l (s.badArg t op a v) := by
  unfold State.badArg
  apply_rules [Keeps.raise]

theorem keeps_issue {op : XOp} {body : TileId → XArgs → State → State} {t : TileId} {a : XArgs} (hs : F.Keeps l s)
    (hk : F.Keeps l (body t a s)) (hc : F.Core t) : F.Keeps l (issue op body t a s) :=
  .ite (.ite hk (hs.raise hc)) hs

/-- The end of a wait writes the register of the instruction that waits. -/
theorem Keeps.endWait_of {t : TileId} {st : Nat} (hs : F.Keeps l s) (hc : F.Core t)
    (hr : ∀ k, (s.tile t).core.stall = some k → F.reg (tileKey t) k.a.rd) : F.Keeps l (s.endWait t st) := by
  unfold State.endWait
  split
  · next k hk => exact hs.finish hc (hr k hk)
  · exact hs

theorem Keeps.endWait {t : TileId} {st : Nat} (hs : F.Keeps l s) (hc : F.Core t) (hr : ∀ r, F.reg (tileKey t) r) : F.Keeps l (s.endWait t st) :=
  hs.endWait_of hc fun _ _ => hr _

theorem Keeps.settleCell_of {t : TileId} {c : Nat} {k : CellTurn} (hs : F.Keeps l s) (hc : F.Core t)
    (hr : ∀ k, (s.tile t).core.stall = some k → F.reg (tileKey t) k.a.rd) : F.Keeps l (s.settleCell t c k) := by
  unfold State.settleCell
  refine .ite (Keeps.endWait_of (hs.setTile_alike hc.tile ⟨rfl, rfl, rfl⟩) hc fun k hk => hr k ?_) (hs.setTile_alike hc.tile ⟨rfl, rfl, rfl⟩)
  rwa [State.tile_setTile] at hk

theorem Keeps.settleCell {t : TileId} {c : Nat} {k : CellTurn} (hs : F.Keeps l s) (hc : F.Core t) (hr : ∀ r, F.reg (tileKey t) r) :
    F.Keeps l (s.settleCell t c k) := hs.settleCell_of hc fun _ _ => hr _

theorem Keeps.signalLocal {t : TileId} {rank c a : Nat} (hs : F.Keeps l s) (hc : F.Core t) (hr : ∀ r, F.reg (tileKey t) r) :
    F.Keeps l (s.signalLocal t rank c a) := hs.settleCell hc hr

theorem Keeps.writeLocal {t : TileId} {c : Nat} {cl : Cell} (hs : F.Keeps l s) (hc : F.Core t) (hr : ∀ r, F.reg (tileKey t) r) :
    F.Keeps l (s.writeLocal t c cl) := by
  unfold State.writeLocal
  apply_rules [Keeps.settleCell]

theorem Keeps.answerWaiter {f : Nat} {w : Waiter} {st : Nat} (hs : F.Keeps l s) (hm : F.mesh) : F.Keeps l (s.answerWaiter f w st) := by
  unfold State.answerWaiter
  apply_rules [Keeps.send]

theorem Keeps.releaseList {f : Nat} {ws : List Waiter} {st : Nat} (hs : F.Keeps l s) (ha : F.Array) : F.Keeps l (s.releaseList f ws st) :=
  (hs.modField (ha.field f)).foldl fun _ _ hv => hv.answerWaiter ha.mesh

theorem Keeps.setCellG {f i : Nat} {c : Cell} (hs : F.Keeps l s) (ha : F.Array) : F.Keeps l (s.setCellG f i c) := by
  unfold State.setCellG
  apply_rules [Keeps.modField, Array.field]

theorem Keeps.signalGlobal {f i a : Nat} (hs : F.Keeps l s) (ha : F.Array) : F.Keeps l (s.signalGlobal f i a) := by
  unfold State.signalGlobal
  dsimp only
  apply_rules [Keeps.setCellG, Keeps.releaseList, Keeps.event, Keeps.ite]

theorem Keeps.evalGlobal {f i : Nat} (hs : F.Keeps l s) (ha : F.Array) : F.Keeps l (s.evalGlobal f i) := by
  unfold State.evalGlobal
  dsimp only
  apply_rules [Keeps.releaseList, Keeps.setCellG]

theorem Keeps.cellSet {f i : Nat} {c : Cell} {by_ : Nat} (hs : F.Keeps l s) (ha : F.Array) : F.Keeps l (s.cellSet f i c by_) := by
  unfold State.cellSet
  dsimp only
  apply_rules [Keeps.event, Keeps.evalGlobal, Keeps.setCellG]

theorem Keeps.cellForce {f i : Nat} {who : Option (TileId × Nat)} {by_ : Nat} (hs : F.Keeps l s) (ha : F.Array) : F.Keeps l (s.cellForce f i who by_) := by
  unfold State.cellForce
  dsimp only
  (repeat' split) <;> apply_rules [Keeps.releaseList, Keeps.modField, Keeps.event, Array.field]

theorem keeps_xHset {t : TileId} {a : XArgs} (hs : F.Keeps l s) (hc : F.Core t) (hr : F.reg (tileKey t) a.rd) : F.Keeps l (xHset t a s) := by
  unfold xHset
  exact .ite (hs.badArg hc) (.ite (hs.badArg hc) (.ite (hs.finish hc hr) (hs.reading (fun _ _ hv =>
    .ite ((hv.modTile_alike hc.tile (Tile.alike_setHandle ..)).finish hc hr) (hv.raise hc)) hc)))

theorem keeps_xHclr {t : TileId} {a : XArgs} (hs : F.Keeps l s) (hc : F.Core t) (hr : F.reg (tileKey t) a.rd) : F.Keeps l (xHclr t a s) := by
  unfold xHclr
  exact .ite (hs.badArg hc) (.ite (hs.finish hc hr) ((hs.setTile_alike hc.tile (.ite (.trans (Tile.alike_stopProfile _) (Tile.alike_setHandle ..))
    (Tile.alike_setHandle ..))).finish hc hr))

theorem keeps_xLdt {t : TileId} {a : XArgs} (hs : F.Keeps l s) (hc : F.Core t) (hr : F.reg (tileKey t) a.rd) (hb : F.cells (tileKey t) ≠ .same) :
    F.Keeps l (xLdt t a s) := by
  unfold xLdt
  exact .ite (hs.badArg hc) (.ite (hs.stallOn hc) (hs.reading (fun _ _ hv =>
    (hv.modTile hc.tile (.ite ((hv.tile t).emptyTags hc.tile hb) (hv.tile t))).finishRaw hc hr) hc))

theorem keeps_xStt {t : TileId} {a : XArgs} (hs : F.Keeps l s) (hc : F.Core t) (hr : F.reg (tileKey t) a.rd) (hb : F.cells (tileKey t) = .any) :
    F.Keeps l (xStt t a s) := by
  unfold xStt
  refine .ite (hs.badArg hc) (.ite (hs.stallOn hc) (hs.writing (fun v hv => (hv.modTile hc.tile ?_).finish hc hr) hc))
  have hp (o : Nat) (bs : List Byte) : F.Step (tileKey t) (l.tile t) ((v.tile t).put o bs) := (hv.tile t).put hc.tile hb
  exact .ite ((hp ..).alike hc.tile (Tile.alike_fillTags ..)) (hp ..)

theorem keeps_xTfill {t : TileId} {a : XArgs} (hs : F.Keeps l s) (hc : F.Core t) (hr : F.reg (tileKey t) a.rd) (hb : F.cells (tileKey t) ≠ .same) :
    F.Keeps l (xTfill t a s) := by
  unfold xTfill
  exact .ite (hs.badArg hc) (.ite (hs.badArg hc) ((hs.setTile hc.tile (.ite ((hs.tile t).alike hc.tile (Tile.alike_fillTags ..))
    ((hs.tile t).emptyTags hc.tile hb))).finish hc hr))

theorem answers_execHset {t : TileId} {a : XArgs} (hs : F.Keeps l s) (hc : F.Core t) (hr : F.reg (tileKey t) a.rd) :
    F.Answers l (execHset t a s) :=
  keeps_issue hs (keeps_xHset hs hc hr) hc

theorem answers_execHclr {t : TileId} {a : XArgs} (hs : F.Keeps l s) (hc : F.Core t) (hr : F.reg (tileKey t) a.rd) :
    F.Answers l (execHclr t a s) :=
  keeps_issue hs (keeps_xHclr hs hc hr) hc

theorem answers_execLdt {t : TileId} {a : XArgs} (hs : F.Keeps l s) (hc : F.Core t) (hr : F.reg (tileKey t) a.rd) (hb : F.cells (tileKey t) ≠ .same) :
    F.Answers l (execLdt t a s) :=
  keeps_issue hs (keeps_xLdt hs hc hr hb) hc

theorem answers_execStt {t : TileId} {a : XArgs} (hs : F.Keeps l s) (hc : F.Core t) (hr : F.reg (tileKey t) a.rd) (hb : F.cells (tileKey t) = .any) :
    F.Answers l (execStt t a s) :=
  keeps_issue hs (keeps_xStt hs hc hr hb) hc

theorem answers_execTfill {t : TileId} {a : XArgs} (hs : F.Keeps l s) (hc : F.Core t) (hr : F.reg (tileKey t) a.rd) (hb : F.cells (tileKey t) ≠ .same) :
    F.Answers l (execTfill t a s) :=
  keeps_issue hs (keeps_xTfill hs hc hr hb) hc

theorem Keeps.flitsOf {p : Pkt} (hs : F.Keeps l s) : F.Keeps l (s.flitsOf p).2 := by
  unfold State.flitsOf
  split
  · exact hs
  · exact hs.freeVal

theorem Keeps.sendTagged {t : TileId} {h : Hdr} {body : Body} {f : SyncUnit → SyncUnit} (hs : F.Keeps l s) (hc : F.Core t) :
    F.Keeps l (s.sendTagged t h body f) := by
  unfold State.sendTagged
  dsimp only
  apply_rules [Keeps.modTile_alike, Keeps.send, Core.tile, Core.mesh] <;> exact ⟨rfl, rfl, rfl⟩

theorem Keeps.sendWriteOf {t : TileId} {h : Hdr} {body : Body} {re : Re} {posted : Bool} {iter : Nat} (hs : F.Keeps l s) (hc : F.Core t) :
    F.Keeps l (s.sendWriteOf t h body re posted iter) := by
  unfold State.sendWriteOf
  dsimp only
  apply_rules [Keeps.sendTagged]

theorem Keeps.sendWrite {t : TileId} {h : Hdr} {body : Body} {re : Re} {posted : Bool} (hs : F.Keeps l s) (hc : F.Core t) :
    F.Keeps l (s.sendWrite t h body re posted) := by
  unfold State.sendWrite
  apply_rules [Keeps.sendWriteOf]

theorem Keeps.sendRequest {t : TileId} {h : Hdr} {body : Body} (hs : F.Keeps l s) (hc : F.Core t) : F.Keeps l (s.sendRequest t h body) := by
  unfold State.sendRequest
  apply_rules [Keeps.sendTagged]

theorem Keeps.refuseAt {a : TileId} {p : Pkt} {st : Nat} (hs : F.Keeps l s) (hm : F.mesh) : F.Keeps l (s.refuseAt a p st) :=
  hs.foldl fun _ _ hv => hv.sendFrom hm

theorem Keeps.modRouter {t : TileId} {g : Router → Router} (hs : F.Keeps l s) (ha : F.Array) : F.Keeps l (s.modRouter t g) := by
  unfold State.modRouter
  apply_rules [Keeps.modField, Array.field]

theorem Keeps.countLost {a aim : TileId} {p : Pkt} (hs : F.Keeps l s) (ha : F.Array) : F.Keeps l (s.countLost a aim p) := by
  unfold State.countLost
  dsimp only
  apply_rules [Keeps.modRouter, Keeps.modField, Keeps.event, Array.field]

theorem Keeps.dropFlight {i : Nat} (hs : F.Keeps l s) (hm : F.mesh) : F.Keeps l (s.dropFlight i) := by
  unfold State.dropFlight
  apply_rules [Keeps.setMesh]

theorem Keeps.setFlight {i : Nat} {x : Flight} (hs : F.Keeps l s) (hm : F.mesh) : F.Keeps l (s.setFlight i x) := by
  unfold State.setFlight
  apply_rules [Keeps.setMesh]

theorem Keeps.offerVc0 {a : TileId} {d : Nat} (hs : F.Keeps l s) (ha : F.Array) : F.Keeps l (s.offerVc0 a d) := by
  unfold State.offerVc0
  dsimp only
  apply_rules [Keeps.modRouter, Keeps.modField, Keeps.event, Keeps.ite, Array.field]

theorem Keeps.mergeFlight {i : Nat} {x : Flight} (hs : F.Keeps l s) (ha : F.Array) : F.Keeps l (s.mergeFlight i x).2 := by
  unfold State.mergeFlight
  split
  · exact hs
  · split
    · exact hs
    · split
      · exact hs
      · dsimp only
        exact ((((hs.dropFlight ha.mesh).setFlight ha.mesh).modRouter ha).modField (ha.field _))

theorem Keeps.passCrossing {a b : TileId} {depth : Nat} (hs : F.Keeps l s) (ha : F.Array) : F.Keeps l (s.passCrossing a b depth) := by
  unfold State.passCrossing
  apply_rules [Keeps.modField, Keeps.ite, Array.field]

theorem Keeps.backPressure {g b n : Nat} (hs : F.Keeps l s) (ha : F.Array) : F.Keeps l (s.backPressure g b n) := by
  unfold State.backPressure
  dsimp only
  apply_rules [Keeps.setField, Keeps.event, Keeps.ite, Array.field]

theorem Keeps.refuseFlight {i : Nat} {x : Flight} (hs : F.Keeps l s) (ha : F.Array) : F.Keeps l (s.refuseFlight i x) := by
  unfold State.refuseFlight
  apply_rules [Keeps.refuseAt, Keeps.countLost, Keeps.dropFlight, Array.mesh]

theorem Keeps.countFlits {a : TileId} {n : Nat} (hs : F.Keeps l s) (ha : F.Array) : F.Keeps l (s.countFlits a n) := by
  unfold State.countFlits
  apply_rules [Keeps.modTile_alike, Array.tile] <;> exact ⟨rfl, rfl, rfl⟩

theorem Keeps.crossTake {i : Nat} {x : Flight} {d : Nat} {near : Bool} {next : Flight} (hs : F.Keeps l s) (ha : F.Array) :
    F.Keeps l (s.crossTake i x d near next) := by
  unfold State.crossTake
  exact (((Keeps.ite (hs.flitsOf.offerVc0 ha) hs.flitsOf).modRouter ha).countFlits ha).setFlight ha.mesh

theorem Keeps.route1 {i : Nat} {merge : Bool} {stall depth : Nat} (hs : F.Keeps l s) (ha : F.Array) : F.Keeps l (s.route1 i merge stall depth) := by
  unfold State.route1
  split
  · exact hs
  · refine .ite hs ?_
    dsimp only
    split
    · exact hs
    · exact hs.refuseFlight ha
    · exact .ite (hs.backPressure ha) (((hs.passCrossing ha).flitsOf.countFlits ha).setFlight ha.mesh)
    · split
      · exact hs
      · exact .ite (hs.crossTake ha) hs
    · split
      · exact hs
      · refine .ite hs (.ite (hs.backPressure ha) ?_)
        split
        · exact ((hs.mergeFlight ha).passCrossing ha).crossTake ha
        · exact (hs.passCrossing ha).crossTake ha

theorem answers_execRoutePacket {i : Nat} {merge : Bool} {stall depth : Nat} (hs : F.Keeps l s) (ha : F.Array) :
    F.Answers l (execRoutePacket i merge stall depth s) := hs.route1 ha

theorem Keeps.turned {p : Pkt} (hs : F.Keeps l s) (ha : F.Array) : F.Keeps l (s.turned p) := by
  unfold State.turned
  (repeat' split) <;> apply_rules [Keeps.modTile_alike, Array.tile] <;> exact ⟨rfl, rfl, rfl⟩

theorem Keeps.took {p : Pkt} (hs : F.Keeps l s) (ha : F.Array) : F.Keeps l (s.took p) := by
  unfold State.took
  apply_rules [Keeps.arrive, Keeps.turned, Keeps.ite, Array.mesh]

theorem Keeps.landing {p : Pkt} {k : State → State} (hs : F.Keeps l s) (hk : ∀  v, F.Keeps l v → F.Keeps l (k  v)) (ha : F.Array) :
    F.Keeps l (s.landing p k) := by
  unfold State.landing
  apply_rules [Keeps.took, Keeps.ite]

theorem Keeps.endSend {t : TileId} {c st : Nat} (hs : F.Keeps l s) (ha : F.Array) : F.Keeps l (s.endSend t c st) := by
  unfold State.endSend
  (repeat' split) <;> apply_rules [Keeps.finish, Array.core, Array.reg]

theorem Keeps.ctxClosed {t : TileId} {c : Nat} (hs : F.Keeps l s) (ha : F.Array) : F.Keeps l (s.ctxClosed t c) := by
  unfold State.ctxClosed
  dsimp only
  apply_rules [Keeps.endSend, Keeps.modTile_alike, Array.tile] <;> exact ⟨rfl, rfl, rfl⟩

theorem Keeps.ctxLost {t : TileId} {c : Nat} {path : Bool} (hs : F.Keeps l s) (ha : F.Array) : F.Keeps l (s.ctxLost t c path) := by
  unfold State.ctxLost
  dsimp only
  apply_rules [Keeps.modTile_alike, Keeps.event, Keeps.endSend, Array.tile] <;> exact ⟨rfl, rfl, rfl⟩

theorem Keeps.connAnswer {t : TileId} {src : Endp} {r : ConnRef} {code : Nat} (hs : F.Keeps l s) (ha : F.Array) : F.Keeps l (s.connAnswer t src r code) := by
  unfold State.connAnswer
  apply_rules [Keeps.ctxClosed, Keeps.ctxLost, Keeps.ite]

theorem Keeps.sendContribution {t : TileId} {c slot : Nat} {v : Word} (hs : F.Keeps l s) (hc : F.Core t) : F.Keeps l (s.sendContribution t c slot v) := by
  unfold State.sendContribution
  dsimp only
  apply_rules [Keeps.setTile_alike, Keeps.sendWrite, Core.tile] <;> exact ⟨rfl, rfl, rfl⟩

theorem Keeps.connStatus {h : Hdr} {gen : Nat} {r : ConnRef} {code : Nat} (hs : F.Keeps l s) (hm : F.mesh) : F.Keeps l (s.connStatus h gen r code) := by
  unfold State.connStatus
  apply_rules [Keeps.status]

theorem Keeps.sendCredit {t : TileId} {dest : Sender} {r : ConnRef} {n : Nat} (hs : F.Keeps l s) (hm : F.mesh) : F.Keeps l (s.sendCredit t dest r n) := by
  unfold State.sendCredit
  apply_rules [Keeps.send]

theorem Keeps.queueSignal {t : TileId} {q : Nat} (hs : F.Keeps l s) (ha : F.Array) : F.Keeps l (s.queueSignal t q) := by
  unfold State.queueSignal
  dsimp only
  apply_rules [Keeps.signalLocal, Keeps.ite, Array.core, Array.reg]

theorem Keeps.combCheck {t : TileId} {q sl o : Nat} (hs : F.Keeps l s) (ha : F.Array) : F.Keeps l (s.combCheck t q sl o) := by
  have ht := ha.tile (tileKey t)
  have hb := ha.any (tileKey t)
  unfold State.combCheck
  refine .ite hs (.ite (hs.setTile_alike ht ⟨rfl, rfl, rfl⟩) ((hs.setTile ht (Step.slotDone ?_ ht hb)).queueSignal ha))
  exact .ite (.ite (((hs.tile t).put ht hb).alike ht ⟨rfl, rfl, rfl⟩) ((hs.tile t).put ht hb)) (hs.tile t)

theorem Keeps.combAnswer {t : TileId} {k : Contribution} {code : Nat} {credit : Bool} (hs : F.Keeps l s) (hm : F.mesh) :
    F.Keeps l (s.combAnswer t k code credit) := by
  unfold State.combAnswer
  dsimp only
  apply_rules [Keeps.send, Keeps.ite]

theorem Keeps.contribution {t : TileId} {k : Contribution} (hs : F.Keeps l s) (ha : F.Array) : F.Keeps l (s.contribution t k) := by
  have ht := ha.tile (tileKey t)
  have hb := ha.any (tileKey t)
  have drop {order code : Nat} {credit : Bool} {tl : Tile} (hd : F.Step (tileKey t) (l.tile t) tl) :
      F.Keeps l (((s.setTile t (tl.combDrop k.ref.queue)).event (fieldOf t) 0x0582
        [tileDetail t, k.ref.queue, tileDetail (s.sourceTile k.src), order]).combAnswer t k code credit) :=
    (hs.setTile ht (hd.combDrop ht)).event.combAnswer ha.mesh
  have htl := hs.tile t
  unfold State.contribution
  refine .ite (drop (.ite htl (htl.slotFlag ht hb))) (.ite (drop (.ite htl (htl.slotFlag ht hb))) (.ite ?_ (.ite
    (drop (.ite htl (htl.slotFlag ht hb))).event (.ite (drop (.ite htl (htl.slotFlag ht hb))).event ?_))))
  · have hu := hs.ueFault (unit := 12) (o := ((s.tile t).combUe k.ref.queue (((s.tile t).handle ((s.tile t).queue k.ref.queue).handle).slotAt k.slot)).getD 0)
      (unitId := 0) (ha.core t)
    exact (hu.modTile ht ((hu.tile t).combDrop ht)).combAnswer ha.mesh
  · dsimp only
    generalize hv : (s.correct t _ 32).served t 10 _ = v
    have hs : F.Keeps l v := hv ▸ (hs.correct (ha.core t)).served (ha.core t)
    exact ((hs.setTile ht (Step.put (.ite ((hs.tile t).combStage ht hb) ((hs.tile t).combApply ht hb)) ht hb)).combCheck ha).combAnswer ha.mesh

theorem keeps_xQopen {t : TileId} {a : XArgs} (hs : F.Keeps l s) (hc : F.Core t) (hr : F.reg (tileKey t) a.rd) : F.Keeps l (xQopen t a s) := by
  unfold xQopen
  dsimp only
  (repeat' split) <;> apply_rules [Keeps.badArg, Keeps.finish, Keeps.setTile_alike, Keeps.sendRequest, Core.tile] <;> exact ⟨rfl, rfl, rfl⟩

theorem Keeps.sendClose {t : TileId} {c op seq : Nat} (hs : F.Keeps l s) (hc : F.Core t) : F.Keeps l (s.sendClose t c op seq) := by
  unfold State.sendClose
  dsimp only
  apply_rules [Keeps.sendRequest]

theorem Keeps.closeQueue {t : TileId} {q : Nat} (hs : F.Keeps l s) (hc : F.Core t) : F.Keeps l (s.closeQueue t q) := by
  unfold State.closeQueue
  dsimp only
  have hg : F.Step (tileKey t) (l.tile t) { s.tile t with q := { (s.tile t).q with grants := (s.tile t).q.grants.filter (fun e => !(e.2.queue == q)) } } :=
    (hs.tile t).alike hc.tile ⟨rfl, rfl, rfl⟩
  exact (hs.setTile hc.tile ((hg.alike hc.tile (Tile.alike_addDrop ..)).setQueue_calm hc.tile fun h => by simp at h)).foldl fun _ _ hv => hv.send hc.mesh

theorem keeps_xQclose {t : TileId} {a : XArgs} (hs : F.Keeps l s) (hc : F.Core t) (hr : F.reg (tileKey t) a.rd) : F.Keeps l (xQclose t a s) := by
  have idle {v : State} {c : Nat} {x : Ctx} (hv : F.Keeps l v) : F.Keeps l (v.modTile t (fun tl => tl.setCtx c x)) :=
    hv.modTile_alike hc.tile (Tile.alike_setCtx ..)
  unfold xQclose
  split
  · exact .ite (hs.badArg hc) (.ite ((hs.closeQueue hc).finish hc hr) (hs.finish hc hr))
  · exact .ite (hs.badArg hc) (.ite (hs.finish hc hr) (.ite ((hs.setTile_alike hc.tile (Tile.alike_setCtx ..)).finish hc hr)
      (.ite ((idle (hs.sendClose hc)).finish hc hr) (.ite ((idle hs).finish hc hr) ((idle (hs.sendClose hc)).finish hc hr)))))

theorem Keeps.qsendOpen {t : TileId} {op : XOp} {a : XArgs} {c : Nat} {r : HRef} {try_ : Bool} (hs : F.Keeps l s) (hc : F.Core t)
    (hr : F.reg (tileKey t) a.rd) (hb : F.cells (tileKey t) ≠ .same) : F.Keeps l (s.qsendOpen t op a c r try_) := by
  have waits {st obj : Nat} : F.Keeps l (if try_ then s.finish t a st 0 2 else s.stallOn t op a .cond obj) := .ite (hs.finish hc hr) (hs.stallOn hc)
  unfold State.qsendOpen
  refine .ite (hs.badArg hc) (.ite waits (.ite waits (.ite (hs.finish hc hr) (.ite (hs.stallOn hc) (hs.reading (fun bs v hv => ?_) hc)))))
  dsimp only
  generalize hw : (if ((s.tile t).ctx c).kind = 0 then _ else v.sendContribution t c (fieldAt bs 0 2) (leWord (bytesAt bs 4 4))) = w
  have hw : F.Keeps l w := hw ▸ .ite ((hv.modTile_alike hc.tile (Tile.alike_setCtx ..)).sendWrite hc) (hv.sendContribution hc)
  exact (hw.modTile hc.tile ((hw.tile t).consumeSlots hc.tile hb)).finish hc hr

theorem keeps_xSend {op : XOp} {try_ : Bool} {t : TileId} {a : XArgs} (hs : F.Keeps l s) (hc : F.Core t) (hr : F.reg (tileKey t) a.rd) (hb : F.cells (tileKey t) ≠ .same) :
    F.Keeps l (xSend op try_ t a s) := by
  unfold xSend
  dsimp only
  apply_rules [Keeps.badArg, Keeps.finish, Keeps.qsendOpen, Keeps.ite]

theorem keeps_xQsend {t : TileId} {a : XArgs} (hs : F.Keeps l s) (hc : F.Core t) (hr : F.reg (tileKey t) a.rd) (hb : F.cells (tileKey t) ≠ .same) :
    F.Keeps l (xQsend t a s) := by
  unfold xQsend
  apply_rules [keeps_xSend]

theorem keeps_xQtrysend {t : TileId} {a : XArgs} (hs : F.Keeps l s) (hc : F.Core t) (hr : F.reg (tileKey t) a.rd) (hb : F.cells (tileKey t) ≠ .same) :
    F.Keeps l (xQtrysend t a s) := by
  unfold xQtrysend
  apply_rules [keeps_xSend]

theorem Keeps.takeMessage {t : TileId} {op : XOp} {a : XArgs} {q : Nat} {r : HRef} {try_ : Bool} {slot len : Nat} {f : Sender} {live : Bool}
    {rest : List REntry} (hs : F.Keeps l s) (hc : F.Core t) (hr : F.reg (tileKey t) a.rd) (hb : F.cells (tileKey t) = .any) :
    F.Keeps l (s.takeMessage t op a q r try_ slot len f live rest) := by
  unfold State.takeMessage
  refine .ite (hs.badArg hc) (.ite (.ite (hs.finish hc hr) (hs.stallOn hc)) (hs.reading (fun bs v hv => hv.writing (fun w hw => ?_) hc) hc))
  have hp (o : Nat) : F.Step (tileKey t) (l.tile t) ((w.tile t).put o bs) := (hw.tile t).put hc.tile hb
  dsimp only
  generalize hm : w.modTile t _ = m
  have hm : F.Keeps l m := hm ▸ hw.modTile hc.tile (.setQueue (.ite ((hp _).alike hc.tile (Tile.alike_fillTags ..)) (hp _)) hc.tile (not_arm hb))
  exact (Keeps.ite (hm.sendCredit hc.mesh) hm).finish hc hr

theorem keeps_xReceive {op : XOp} {try_ : Bool} {t : TileId} {a : XArgs} (hs : F.Keeps l s) (hc : F.Core t) (hr : F.reg (tileKey t) a.rd) (hb : F.cells (tileKey t) = .any) :
    F.Keeps l (xReceive op try_ t a s) := by
  unfold xReceive
  dsimp only
  (repeat' split) <;> apply_rules [Keeps.badArg, Keeps.finish, Keeps.stallOn, Keeps.setTile, Keeps.takeMessage, Step.setQueue, Keeps.tile, Core.tile, not_arm]

theorem keeps_xQrecv {t : TileId} {a : XArgs} (hs : F.Keeps l s) (hc : F.Core t) (hr : F.reg (tileKey t) a.rd) (hb : F.cells (tileKey t) = .any) :
    F.Keeps l (xQrecv t a s) := by
  unfold xQrecv
  apply_rules [keeps_xReceive]

theorem keeps_xQtryrecv {t : TileId} {a : XArgs} (hs : F.Keeps l s) (hc : F.Core t) (hr : F.reg (tileKey t) a.rd) (hb : F.cells (tileKey t) = .any) :
    F.Keeps l (xQtryrecv t a s) := by
  unfold xQtryrecv
  apply_rules [keeps_xReceive]

theorem keeps_xQselect {t : TileId} {a : XArgs} (hs : F.Keeps l s) (hc : F.Core t) (hr : F.reg (tileKey t) a.rd) : F.Keeps l (xQselect t a s) := by
  unfold xQselect
  dsimp only
  (repeat' split) <;> apply_rules [Keeps.badArg, Keeps.finish, Keeps.setTile_alike, Core.tile] <;> exact ⟨rfl, rfl, rfl⟩

theorem keeps_xQstat {t : TileId} {a : XArgs} (hs : F.Keeps l s) (hc : F.Core t) (hr : F.reg (tileKey t) a.rd) : F.Keeps l (xQstat t a s) := by
  unfold xQstat
  apply_rules [Keeps.finishRaw]

theorem answers_execQopen {t : TileId} {a : XArgs} (hs : F.Keeps l s) (hc : F.Core t) (hr : F.reg (tileKey t) a.rd) :
    F.Answers l (execQopen t a s) :=
  keeps_issue hs (keeps_xQopen hs hc hr) hc

theorem answers_execQclose {t : TileId} {a : XArgs} (hs : F.Keeps l s) (hc : F.Core t) (hr : F.reg (tileKey t) a.rd) :
    F.Answers l (execQclose t a s) :=
  keeps_issue hs (keeps_xQclose hs hc hr) hc

theorem answers_execQsend {t : TileId} {a : XArgs} (hs : F.Keeps l s) (hc : F.Core t) (hr : F.reg (tileKey t) a.rd) (hb : F.cells (tileKey t) ≠ .same) :
    F.Answers l (execQsend t a s) :=
  keeps_issue hs (keeps_xQsend hs hc hr hb) hc

end Scope
end Sys2Proof.Machine
end

section
/-! SUPPORT. Scopes: connections, units, windows and what the engines start. -/

namespace Sys2Proof.Machine
namespace Scope
variable {F : Scope} {l s : State}

theorem answers_execQtrysend {t : TileId} {a : XArgs} (hs : F.Keeps l s) (hc : F.Core t) (hr : F.reg (tileKey t) a.rd) (hb : F.cells (tileKey t) ≠ .same) :
    F.Answers l (execQtrysend t a s) :=
  keeps_issue hs (keeps_xQtrysend hs hc hr hb) hc

theorem answers_execQrecv {t : TileId} {a : XArgs} (hs : F.Keeps l s) (hc : F.Core t) (hr : F.reg (tileKey t) a.rd) (hb : F.cells (tileKey t) = .any) :
    F.Answers l (execQrecv t a s) :=
  keeps_issue hs (keeps_xQrecv hs hc hr hb) hc

theorem answers_execQtryrecv {t : TileId} {a : XArgs} (hs : F.Keeps l s) (hc : F.Core t) (hr : F.reg (tileKey t) a.rd) (hb : F.cells (tileKey t) = .any) :
    F.Answers l (execQtryrecv t a s) :=
  keeps_issue hs (keeps_xQtryrecv hs hc hr hb) hc

theorem answers_execQselect {t : TileId} {a : XArgs} (hs : F.Keeps l s) (hc : F.Core t) (hr : F.reg (tileKey t) a.rd) :
    F.Answers l (execQselect t a s) :=
  keeps_issue hs (keeps_xQselect hs hc hr) hc

theorem answers_execQstat {t : TileId} {a : XArgs} (hs : F.Keeps l s) (hc : F.Core t) (hr : F.reg (tileKey t) a.rd) :
    F.Answers l (execQstat t a s) :=
  keeps_issue hs (keeps_xQstat hs hc hr) hc

theorem Keeps.openAt {t : TileId} {h : Hdr} {b : OpenBody} (hs : F.Keeps l s) (ha : F.Array) : F.Keeps l (s.openAt t h b) := by
  have ans {v : State} {re : Re} {code : Nat} (hv : F.Keeps l v) : F.Keeps l (v.status h b.gen re code) := hv.status ha.mesh
  unfold State.openAt
  refine .ite (ans hs) (.ite (ans hs) ?_)
  dsimp only
  generalize he : s.setTile t ((s.tile t).endStale (s.sourceTile h.src) b.gen) = v
  have hst := (hs.tile t).endStale (t := s.sourceTile h.src) (gen := b.gen) (ha.tile _)
  have hv : F.Keeps l v := he ▸ hs.setTile (ha.tile _) hst
  exact .ite (ans hv) (.ite (ans hv) (Keeps.send (hv.setTile (ha.tile _) (ha.step hst id)) ha.mesh))

theorem answers_execOpenArrives {h : Hdr} {b : OpenBody} (hs : F.Keeps l s) (ha : F.Array) : F.Answers l (execOpenArrives h b s) := by
  unfold execOpenArrives
  refine .next (hs.landing (fun v hv => ?_) ha)
  split
  · exact hv.openAt ha
  · exact hv

theorem answers_execProbe {h : Hdr} {b : ProbeBody} (hs : F.Keeps l s) (ha : F.Array) : F.Answers l (execProbe h b s) := by
  unfold execProbe
  refine .next (hs.landing (fun v hv => ?_) ha)
  split
  · exact hv
  · exact hv.status ha.mesh

theorem answers_execSenderClose {h : Hdr} {b : CloseBody} (hs : F.Keeps l s) (ha : F.Array) : F.Answers l (execSenderClose h b s) := by
  unfold execSenderClose
  refine .next (hs.landing (fun v hv => ?_) ha)
  split
  · exact hv
  · refine .ite (hv.status ha.mesh) ?_
    split
    · exact hv
    · exact .ite (hv.setTile (ha.tile _) ((hv.tile _).endRecord (ha.tile _))) (hv.setTile_alike (ha.tile _) ⟨rfl, rfl, rfl⟩)

theorem answers_execReaderNotice {h : Hdr} {b : CloseBody} (hs : F.Keeps l s) (ha : F.Array) : F.Answers l (execReaderNotice h b s) := by
  unfold execReaderNotice
  refine .next (hs.landing (fun v hv => ?_) ha)
  split
  · exact hv
  · exact .ite (hv.status ha.mesh) (.ite (hv.ctxClosed ha) hv)

theorem answers_execCloseAfterLoss {h : Hdr} {b : CloseBody} (hs : F.Keeps l s) (ha : F.Array) : F.Answers l (execCloseAfterLoss h b s) := by
  unfold execCloseAfterLoss
  refine .next (hs.landing (fun v hv => ?_) ha)
  split
  · exact hv
  · refine .ite (hv.status ha.mesh) ?_
    split
    · exact hv
    · exact hv.setTile (ha.tile _) ((hv.tile _).endRecord (ha.tile _))

theorem answers_execRecordTimeout {t : TileId} {r : Nat} (hs : F.Keeps l s) (ha : F.Array) : F.Answers l (execRecordTimeout t r s) := by
  unfold execRecordTimeout
  apply Answers.next
  split
  · split
    · exact .ite (hs.setTile (ha.tile _) ((hs.tile t).endRecord (ha.tile _))).event hs
    · exact hs
  · exact hs

theorem answers_execGrant {h : Hdr} {b : GrantBody} (hs : F.Keeps l s) (ha : F.Array) : F.Answers l (execGrant h b s) := by
  unfold execGrant
  refine .next (hs.landing (fun v hv => ?_) ha)
  split
  · exact hv
  rename_i t _
  refine .ite hv ?_
  have hx {w : State} {x : Ctx} (hw : F.Keeps l w) : F.Keeps l (w.modTile t (fun tl => tl.setCtx b.ref.ctx x)) :=
    hw.modTile_alike (ha.tile _) (Tile.alike_setCtx ..)
  dsimp only
  split
  · exact hx ((hx hv).sendClose (ha.core t))
  · split
    · exact (hx hv).finish (ha.core t) (ha.reg ..)
    · exact hx hv

theorem answers_execConnectionCredit {h : Hdr} {b : CreditBody} (hs : F.Keeps l s) (ha : F.Array) : F.Answers l (execConnectionCredit h b s) := by
  unfold execConnectionCredit
  refine .next (hs.landing (fun v hv => ?_) ha)
  split
  · exact hv
  · exact .ite (hv.setTile_alike (ha.tile _) (Tile.alike_setCtx ..)) hv

theorem Keeps.dropMessage {t : TileId} {h : Hdr} {b : MsgBody} {order : Nat} (hs : F.Keeps l s) (ha : F.Array) : F.Keeps l (s.dropMessage t h b order) :=
  (hs.modTile (ha.tile _) (((hs.tile t).alike (ha.tile _) (Tile.alike_addDrop ..)).setLost (ha.tile _))).event.connStatus ha.mesh

theorem Keeps.landMessage {t : TileId} {h : Hdr} {b : MsgBody} {i : Nat} {g : Grant} (hs : F.Keeps l s) (ha : F.Array) :
    F.Keeps l (s.landMessage t h b i g) := by
  have ht := ha.tile (tileKey t)
  unfold State.landMessage
  refine ((hs.setTile ht ?_).queueSignal ha).connStatus ha.mesh
  dsimp only
  generalize hp : (s.tile t).put _ b.data = p
  have hp : F.Step (tileKey t) (l.tile t) p := hp ▸ (hs.tile t).put ht (ha.any _)
  have hm : F.Step (tileKey t) (l.tile t) { p.setQueue b.ref.queue { (s.tile t).queue b.ref.queue with
      entries := ((s.tile t).queue b.ref.queue).entries ++ [.msg ((((s.tile t).queue b.ref.queue).ringHead + ((s.tile t).queue b.ref.queue).msgs) %
        ((s.tile t).handle ((s.tile t).queue b.ref.queue).handle).length) b.data.length g.from_ true] } with
      q := { (p.setQueue b.ref.queue { (s.tile t).queue b.ref.queue with
      entries := ((s.tile t).queue b.ref.queue).entries ++ [.msg ((((s.tile t).queue b.ref.queue).ringHead + ((s.tile t).queue b.ref.queue).msgs) %
        ((s.tile t).handle ((s.tile t).queue b.ref.queue).handle).length) b.data.length g.from_ true] }).q with grants := p.q.grants.put i { g with seq := (g.seq + 1) % 65536 } } } := ha.step hp id
  split
  · exact .ite (hm.endRecord ht) hm
  · exact hm

theorem answers_execMessage {h : Hdr} {b : MsgBody} (hs : F.Keeps l s) (ha : F.Array) : F.Answers l (execMessage h b s) := by
  unfold execMessage
  refine .next (hs.landing (fun v hv => ?_) ha)
  split
  · exact hv
  refine .ite (hv.connStatus ha.mesh) (.ite (hv.dropMessage ha) ?_)
  split
  · exact hv.dropMessage ha
  refine .ite (hv.landMessage ha) ?_
  exact (hv.modTile (ha.tile _) ((((hv.tile _).endRecord (ha.tile _)).alike (ha.tile _) (Tile.alike_addDrop ..)).setLost (ha.tile _))).event.connStatus ha.mesh

theorem answers_execCombine {h : Hdr} {cs : List Contribution} (hs : F.Keeps l s) (ha : F.Array) : F.Answers l (execCombine h cs s) := by
  unfold execCombine
  refine .next (hs.landing (fun v hv => ?_) ha)
  split
  · exact hv
  · exact .ite (hv.foldl fun _ _ hw => hw.combAnswer ha.mesh) (hv.foldl fun _ _ hw => hw.contribution ha)

theorem answers_execCombineFoldDone {t : TileId} {q slot : Nat} (hs : F.Keeps l s) (ha : F.Array) : F.Answers l (execCombineFoldDone t q slot s) := by
  have ht := ha.tile (tileKey t)
  have hb := ha.any (tileKey t)
  unfold execCombineFoldDone
  apply Answers.next
  dsimp only
  split
  · exact hs
  · refine .ite ?_ hs
    have hf := hs.setTile_alike (tl := { s.tile t with q := { (s.tile t).q with folds := ‹List (Nat × Nat)› } }) ht ⟨rfl, rfl, rfl⟩
    split
    · exact hf.ueFault (ha.core t)
    · generalize hv : State.served _ t 10 _ = v
      have hv : F.Keeps l v := hv ▸ ((hf.correct (ha.core t)).foldl fun _ _ hw => hw.correct (ha.core t)).served (ha.core t)
      exact (hv.modTile ht (((hv.tile t).combFold ht hb).slotDone ht hb)).queueSignal ha

theorem answers_execRqEnable {t : TileId} {w : Writer} {q : Nat} {val : Word} (hs : F.Keeps l s) (ha : F.Array) :
    F.Answers l (execRqEnable t w q val s) := Keeps.ite (hs.modTile (ha.tile _) ((hs.tile t).rqCfg (ha.tile _) (ha.any _))) hs

theorem answers_execRqDisable {t : TileId} {w : Writer} {q : Nat} {val : Word} (hs : F.Keeps l s) (ha : F.Array) :
    F.Answers l (execRqDisable t w q val s) := Keeps.ite (hs.modTile (ha.tile _) ((hs.tile t).rqCfg (ha.tile _) (ha.any _))) hs

theorem answers_execConnProbe {t : TileId} {st : Stream} (hs : F.Keeps l s) (ha : F.Array) : F.Answers l (execConnProbe t st s) := by
  unfold execConnProbe
  apply Answers.next
  split
  · exact hs
  · exact .ite ((hs.setTile_alike (ha.tile _) (Tile.alike_setCtx ..)).sendRequest (ha.core t)) hs

theorem Keeps.correctOperand {t : TileId} {d : Desc} {which : Nat} (hs : F.Keeps l s) (hc : F.Core t) : F.Keeps l (s.correctOperand t d which) :=
  hs.foldl fun _ _ hv => hv.correct hc

theorem Keeps.firingUnit {t : TileId} {f : Option (Nat × Nat)} {ok : Bool} (hs : F.Keeps l s) (hc : F.Core t) : F.Keeps l (s.firingUnit t f ok) := by
  unfold State.firingUnit
  split
  · exact hs
  dsimp only
  split
  · exact hs
  generalize hv : s.setTile t _ = v
  have hv : F.Keeps l v := hv ▸ hs.setTile_alike hc.tile ⟨rfl, rfl, rfl⟩
  exact .ite hv (hv.raise hc)

theorem Keeps.failUnit {t : TileId} {e : Nat} {u : FUnit} (hs : F.Keeps l s) (hc : F.Core t) : F.Keeps l (s.failUnit t e u) := by
  have clear : F.Keeps l (s.modTile t (fun tl => tl.clearEngine e (s.cycles t))) := hs.modTile_alike hc.tile (Tile.alike_clearEngine ..)
  unfold State.failUnit
  dsimp only
  split
  · exact .ite (clear.sendWrite hc) hs
  · exact (clear.modTile_alike hc.tile (Tile.alike_countFailed _)).firingUnit hc

theorem Keeps.writePieces {t : TileId} {ps : List (Nat × List Byte)} (hs : F.Keeps l s) (hc : F.Core t) (hb : F.cells (tileKey t) = .any) :
    F.Keeps l (s.writePieces t ps) :=
  hs.foldl fun _ _ hv => (hv.merge hc).modTile hc.tile (((hv.merge hc).tile t).put hc.tile hb)

theorem Keeps.settlePair {mine theirs : List (Nat × Nat)} (hs : F.Keeps l s) : F.Keeps l (s.settlePair mine theirs).2.2 := by
  unfold State.settlePair
  dsimp only
  split
  · exact hs
  · split <;> exact hs.freeVal

theorem Keeps.settleOverlaps {t : TileId} {mine : List (Nat × Nat)} (hs : F.Keeps l s) (hc : F.Core t) : F.Keeps l (s.settleOverlaps t mine).2 := by
  unfold State.settleOverlaps
  dsimp only
  refine Keeps.foldl_part Prod.snd (fun p i hp => ?_) (Keeps.foldl_part Prod.snd (fun p e hp => ?_) hs)
  · split
    · exact hp
    · dsimp only
      exact hp.settlePair.modTile_alike hc.tile ⟨rfl, rfl, rfl⟩
  · split
    · exact hp
    · split
      · exact hp
      · dsimp only
        exact hp.settlePair.modTile_alike hc.tile (Tile.alike_setEngine ..)

theorem Keeps.retired {t : TileId} {u : FUnit} {fl eng : Nat} (hs : F.Keeps l s) (hc : F.Core t) (hr : ∀ r, F.reg (tileKey t) r) :
    F.Keeps l (s.retired t u fl eng) := by
  have hv : F.Keeps l (s.modTile t (fun tl => { tl with arith := tl.arith.record u.unitId fl eng (s.cycles t) })) := hs.modTile_alike hc.tile ⟨rfl, rfl, rfl⟩
  exact (Keeps.ite (hv.signalLocal hc hr) hv).firingUnit hc

theorem Keeps.sendElems {t : TileId} {d : Desc} {es : List Word} {fuel sent : Nat} (hs : F.Keeps l s) (hc : F.Core t) :
    F.Keeps l (s.sendElems t d es fuel sent).2 := by
  induction fuel generalizing s sent with
  | zero => exact hs
  | succ fuel ih =>
    unfold State.sendElems
    dsimp only
    split
    · exact ih (hs.sendContribution hc)
    · exact hs

theorem keeps_xFpush {t : TileId} {a : XArgs} (hs : F.Keeps l s) (hc : F.Core t) (hr : F.reg (tileKey t) a.rd) : F.Keeps l (xFpush t a s) := by
  unfold xFpush
  refine .ite (hs.badArg hc) (.ite (hs.badArg hc) (hs.reading (fun bs v hv => ?_) hc))
  dsimp only
  split
  · exact hv.raise hc
  · exact hv.raise hc
  · exact .ite (.ite (hv.finish hc hr) (hv.stallOn hc)) ((hv.setTile_alike hc.tile (Tile.alike_push ..)).finish hc hr)

theorem Keeps.askSteal {t : TileId} {engine : Nat} {v : TileId} {rest : List TileId} (hs : F.Keeps l s) (hc : F.Core t) :
    F.Keeps l (s.askSteal t engine v rest) := by
  unfold State.askSteal
  dsimp only
  apply_rules [Keeps.setTile_alike, Keeps.sendRequest, Core.tile] <;> exact ⟨rfl, rfl, rfl⟩

theorem keeps_xFsteal {t : TileId} {a : XArgs} (hs : F.Keeps l s) (hc : F.Core t) (hr : F.reg (tileKey t) a.rd) : F.Keeps l (xFsteal t a s) := by
  unfold xFsteal
  dsimp only
  (repeat' split) <;> apply_rules [Keeps.badArg, Keeps.finish, Keeps.stallOn, Keeps.askSteal]

theorem keeps_xFwait {t : TileId} {a : XArgs} (hs : F.Keeps l s) (hc : F.Core t) (hr : F.reg (tileKey t) a.rd) : F.Keeps l (xFwait t a s) := by
  unfold xFwait
  dsimp only
  apply_rules [Keeps.badArg, Keeps.stallOn, Keeps.finish, Keeps.setTile_alike, Keeps.ite, Core.tile] <;> exact ⟨rfl, rfl, rfl⟩

theorem answers_execFpush {t : TileId} {a : XArgs} (hs : F.Keeps l s) (hc : F.Core t) (hr : F.reg (tileKey t) a.rd) :
    F.Answers l (execFpush t a s) :=
  keeps_issue hs (keeps_xFpush hs hc hr) hc

theorem answers_execFsteal {t : TileId} {a : XArgs} (hs : F.Keeps l s) (hc : F.Core t) (hr : F.reg (tileKey t) a.rd) :
    F.Answers l (execFsteal t a s) :=
  keeps_issue hs (keeps_xFsteal hs hc hr) hc

theorem answers_execFwait {t : TileId} {a : XArgs} (hs : F.Keeps l s) (hc : F.Core t) (hr : F.reg (tileKey t) a.rd) :
    F.Answers l (execFwait t a s) :=
  keeps_issue hs (keeps_xFwait hs hc hr) hc

theorem Keeps.tokenCredit {t : TileId} {b : TokenBody} (hs : F.Keeps l s) (hm : F.mesh) : F.Keeps l (s.tokenCredit t b) := by
  unfold State.tokenCredit
  apply_rules [Keeps.send, Keeps.ite]

theorem Keeps.purge {t : TileId} {sl : Nat} (hs : F.Keeps l s) (hc : F.Core t) (hb : F.cells (tileKey t) ≠ .same) : F.Keeps l (s.purge t sl).2 := by
  unfold State.purge
  dsimp only
  split
  · exact hs
  · refine Keeps.foldl (hs.setTile hc.tile ?_) fun _ _ hv => hv.tokenCredit hc.mesh
    generalize hg : List.foldl _ (s.tile t) _ = g
    have hg : F.Step (tileKey t) (l.tile t) g := hg ▸ (hs.tile t).foldl fun x k hx => .ite hx (.ite (hx.emptyTags hc.tile hb) hx)
    exact hg.alike hc.tile ⟨rfl, rfl, rfl⟩

theorem Keeps.bindTokens {t : TileId} {epoch : Nat} (hs : F.Keeps l s) (hc : F.Core t) (hb : F.cells (tileKey t) = .any) : F.Keeps l (s.bindTokens t epoch) := by
  unfold State.bindTokens
  refine hs.foldl fun v k hv => ?_
  have hk : F.Step (tileKey t) (l.tile t) { v.tile t with fold := { (v.tile t).fold with store := (v.tile t).fold.store.erase k } } :=
    (hv.tile t).alike hc.tile ⟨rfl, rfl, rfl⟩
  dsimp only
  split
  · exact hv.setTile hc.tile (hk.landToken hc.tile hb)
  · exact ((hv.setTile hc.tile hk).tokenCredit hc.mesh).event
  · exact hv
  · exact hv

theorem Keeps.bindAll {t : TileId} (hs : F.Keeps l s) (hc : F.Core t) (hb : F.cells (tileKey t) = .any) : F.Keeps l (s.bindAll t) :=
  hs.foldl fun v i hv => by
    split
    · exact hv.bindTokens hc hb
    · exact hv

theorem keeps_xWopen {t : TileId} {a : XArgs} (hs : F.Keeps l s) (hc : F.Core t) (hr : F.reg (tileKey t) a.rd) : F.Keeps l (xWopen t a s) := by
  unfold xWopen
  dsimp only
  apply_rules [Keeps.badArg, Keeps.finish, Keeps.reading, Keeps.modTile_alike, Keeps.ite, Core.tile] <;> intros
      <;> apply_rules [Keeps.badArg, Keeps.finish, Keeps.reading, Keeps.modTile_alike, Keeps.ite, Core.tile] <;> simp

theorem keeps_xWclose {t : TileId} {a : XArgs} (hs : F.Keeps l s) (hc : F.Core t) (hr : F.reg (tileKey t) a.rd) : F.Keeps l (xWclose t a s) := by
  unfold xWclose
  dsimp only
  apply_rules [Keeps.badArg, Keeps.finish, Keeps.setTile_alike, Keeps.ite, Core.tile] <;> exact ⟨rfl, rfl, rfl⟩

theorem Keeps.windowAnswer {h : Hdr} {b : RemoteBody} {isWrite : Bool} {st : Nat} {data : List Byte} (hs : F.Keeps l s) (hm : F.mesh) :
    F.Keeps l (s.windowAnswer h b isWrite st data) := by
  unfold State.windowAnswer
  apply_rules [Keeps.status, Keeps.reply, Keeps.ite]

theorem Keeps.windowFault {t : TileId} {h : Hdr} {b : RemoteBody} {isWrite : Bool} {u : Nat} (hs : F.Keeps l s) (ha : F.Array) :
    F.Keeps l (s.windowFault t h b isWrite u) := by
  unfold State.windowFault
  dsimp only
  apply_rules [Keeps.modTile_alike, Keeps.ueFault, Keeps.windowAnswer, Array.core, Array.tile, Array.mesh] <;> exact ⟨rfl, rfl, rfl⟩

theorem Keeps.windowServe {t : TileId} {h : Hdr} {b : RemoteBody} {data : Option (List Byte)} (hs : F.Keeps l s) (ha : F.Array) :
    F.Keeps l (s.windowServe t h b data) := by
  have ht := ha.tile (tileKey t)
  unfold State.windowServe
  dsimp only
  split
  · split
    · exact hs.windowFault ha
    · generalize hv : State.modTile _ t _ = v
      have hw := (hs.merge (o := (s.tile t).windowAt b) (n := b.length) (ha.core t)).served (req := 10) (o := (s.tile t).windowAt b) (ha.core t)
      have hv : F.Keeps l v := hv ▸ hw.modTile ht (.alike (.ite (.alike ((hw.tile t).put ht (ha.any _)) ht (Tile.alike_fillTags ..))
        ((hw.tile t).put ht (ha.any _))) ht (Tile.alike_setWindow ..))
      exact (Keeps.ite (hv.signalLocal (ha.core t) (ha.reg _)) hv).windowAnswer ha.mesh
  · split
    · exact hs.windowFault ha
    · have hw := (hs.correct (o := (s.tile t).windowAt b) (n := b.length) (ha.core t)).served (req := 10) (o := (s.tile t).windowAt b) (ha.core t)
      exact (hw.modTile ht (.ite ((hw.tile t).emptyTags ht (ha.not_same _)) (hw.tile t))).windowAnswer ha.mesh

theorem Keeps.windowRefuse {t : TileId} {h : Hdr} {b : RemoteBody} {isWrite : Bool} {order : Nat} (hs : F.Keeps l s) (ha : F.Array) :
    F.Keeps l (s.windowRefuse t h b isWrite order) := by
  unfold State.windowRefuse
  dsimp only
  apply_rules [Keeps.modTile_alike, Keeps.windowAnswer, Keeps.event, Keeps.ite, Array.tile, Array.mesh] <;> exact ⟨rfl, rfl, rfl⟩

theorem Keeps.windowTimeout {t : TileId} {h : Hdr} {b : RemoteBody} {isWrite : Bool} (hs : F.Keeps l s) (ha : F.Array) :
    F.Keeps l (s.windowTimeout t h b isWrite) := by
  unfold State.windowTimeout
  dsimp only
  apply_rules [Keeps.modTile_alike, Keeps.windowAnswer, Keeps.event, Array.tile, Array.mesh] <;> exact ⟨rfl, rfl, rfl⟩

theorem Keeps.windowRequest {t : TileId} {h : Hdr} {b : RemoteBody} {data : Option (List Byte)} (hs : F.Keeps l s) (ha : F.Array) :
    F.Keeps l (s.windowRequest t h b data) := by
  unfold State.windowRequest
  refine .ite (hs.windowAnswer ha.mesh) ?_
  split
  · exact hs.windowRefuse ha
  · exact .ite (hs.windowServe ha) (.ite (hs.windowTimeout ha) (hs.setTile_alike (ha.tile _) (Tile.alike_setWindow ..)))

theorem answers_execWopen {t : TileId} {a : XArgs} (hs : F.Keeps l s) (hc : F.Core t) (hr : F.reg (tileKey t) a.rd) :
    F.Answers l (execWopen t a s) :=
  keeps_issue hs (keeps_xWopen hs hc hr) hc

theorem answers_execWclose {t : TileId} {a : XArgs} (hs : F.Keeps l s) (hc : F.Core t) (hr : F.reg (tileKey t) a.rd) :
    F.Answers l (execWclose t a s) :=
  keeps_issue hs (keeps_xWclose hs hc hr) hc

theorem answers_execRemoteRead {h : Hdr} {b : RemoteBody} (hs : F.Keeps l s) (ha : F.Array) : F.Answers l (execRemoteRead h b s) :=
  .next (hs.landing (fun _ hv => hv.windowRequest ha) ha)

theorem answers_execRemoteWrite {h : Hdr} {b : RemoteBody} {data : List Byte} (hs : F.Keeps l s) (ha : F.Array) :
    F.Answers l (execRemoteWrite h b data s) := .next (hs.landing (fun _ hv => hv.windowRequest ha) ha)

theorem answers_execWindowHeldServe {t : TileId} {w : Nat} (hs : F.Keeps l s) (ha : F.Array) : F.Answers l (execWindowHeldServe t w s) := by
  unfold execWindowHeldServe
  apply Answers.next
  split
  · exact hs
  · exact .ite ((hs.setTile_alike (ha.tile _) (Tile.alike_setWindow ..)).windowServe ha) hs

theorem answers_execWindowHoldTimeout {t : TileId} {w : Nat} (hs : F.Keeps l s) (ha : F.Array) : F.Answers l (execWindowHoldTimeout t w s) := by
  unfold execWindowHoldTimeout
  apply Answers.next
  split
  · exact .ite ((hs.setTile_alike (ha.tile _) (Tile.alike_setWindow ..)).windowTimeout ha) hs
  · exact hs

theorem Keeps.windowFlush {t : TileId} {w : Nat} (hs : F.Keeps l s) (ha : F.Array) : F.Keeps l (s.windowFlush t w) :=
  (hs.modTile_alike (ha.tile _) (Tile.alike_setWindow ..)).foldl fun _ _ hv => hv.windowAnswer ha.mesh

theorem answers_execWindowDeadline {t : TileId} {w : Nat} (hs : F.Keeps l s) (ha : F.Array) : F.Answers l (execWindowDeadline t w s) :=
  Keeps.ite ((hs.windowFlush ha).modTile_alike (ha.tile _) (Tile.alike_setWindow ..)) hs

theorem Keeps.wake {t : TileId} (hs : F.Keeps l s) (hc : F.Core t) : F.Keeps l (s.wake t) := by
  unfold State.wake
  refine Keeps.modField (hs.modTile_alike hc.tile ?_) hc.field
  exact .ite ⟨rfl, rfl, rfl⟩ (.refl _)

theorem Keeps.sleep {t : TileId} (hs : F.Keeps l s) (ha : F.Array) : F.Keeps l (s.sleep t) := by
  have hv : F.Keeps l (s.modTile t (fun tl => if tl.act.asleep then tl else { tl with act := { tl.act with asleep := true, asleepAt := s.cycles t } })) :=
    hs.modTile_alike (ha.tile _) (.ite (.refl _) ⟨rfl, rfl, rfl⟩)
  exact .ite hv (hv.modField (ha.field _))

theorem answers_execEngineSleep {t : TileId} (hs : F.Keeps l s) (ha : F.Array) : F.Answers l (execEngineSleep t s) :=
  Keeps.ite (hs.sleep ha) hs

theorem Keeps.metaFault {t : TileId} {e : Nat} {u : FUnit} {f : Nat × Nat × Nat} (hs : F.Keeps l s) (hc : F.Core t) : F.Keeps l (s.metaFault t e u f) := by
  unfold State.metaFault
  apply_rules [Keeps.failUnit, Keeps.raise]

theorem Keeps.askOperand {t : TileId} {e : Nat} {u : FUnit} {entry which at_ : Nat} (hs : F.Keeps l s) (hc : F.Core t) :
    F.Keeps l (s.askOperand t e u entry which at_) := by
  unfold State.askOperand
  apply_rules [Keeps.sendRequest]

theorem Keeps.readOperands {t : TileId} {e : Nat} {u : FUnit} {entry : Nat} (hs : F.Keeps l s) (hc : F.Core t) : F.Keeps l (s.readOperands t e u entry) := by
  unfold State.readOperands
  apply_rules [Keeps.askOperand, Keeps.foldl] <;> intros <;> apply_rules [Keeps.askOperand, Keeps.foldl]
theorem Keeps.setupChecks {t : TileId} {e : Nat} {u : FUnit} (hs : F.Keeps l s) (hc : F.Core t) : F.Keeps l (s.setupChecks t e u) := by
  unfold State.setupChecks
  dsimp only
  split
  · exact (hs.raise hc).failUnit hc
  · refine .ite ?_ hs
    split
    · exact (hs.ueFault hc).failUnit hc
    · split
      · exact (hs.correctOperand hc).metaFault hc
      · exact hs.correctOperand hc

theorem Keeps.startUnit {t : TileId} {e : Nat} {u : FUnit} {rest : List FUnit} (hs : F.Keeps l s) (hc : F.Core t) : F.Keeps l (s.startUnit t e u rest) := by
  unfold State.startUnit
  dsimp only
  (repeat' split) <;> apply_rules [Keeps.setTile_alike, Keeps.wake, Keeps.readOperands, Keeps.setupChecks, Core.tile] <;> exact ⟨rfl, rfl, rfl⟩

theorem answers_execUnitStart {t : TileId} {e : Nat} (hs : F.Keeps l s) (ha : F.Array) : F.Answers l (execUnitStart t e s) := by
  unfold execUnitStart
  refine .next (.ite ?_ hs)
  split
  · exact hs
  · exact .ite (.ite (hs.startUnit (ha.core t)) hs) (.ite (hs.setTile_alike (ha.tile _) (Tile.alike_setEngine ..)) hs)

theorem Keeps.countIssue {t : TileId} {d : Desc} (hs : F.Keeps l s) (hc : F.Core t) : F.Keeps l (s.countIssue t d) := by
  unfold State.countIssue
  have hv : F.Keeps l (if d.op = 4 then s.freeVal else ((0 : Word), s)).2 := by split <;> [exact hs.freeVal; exact hs]
  exact hv.modTile_alike hc.tile ⟨rfl, rfl, rfl⟩

end Scope
end Sys2Proof.Machine
end

section
/-! SUPPORT. Scopes: units that retire and move, dataflow and tokens. -/

namespace Sys2Proof.Machine
namespace Scope
variable {F : Scope} {l s : State}

theorem Keeps.stallEngine {t : TileId} {e : Nat} {r : RunUnit} {restart : Bool} (hs : F.Keeps l s) (hc : F.Core t) :
    F.Keeps l (s.stallEngine t e r restart) := by
  unfold State.stallEngine
  apply_rules [Keeps.modTile_alike, Core.tile] <;> exact ⟨rfl, rfl, rfl⟩

theorem Keeps.sendResult {t : TileId} {e : Nat} {r : RunUnit} {entry : Nat} {o : UnitOut} (hs : F.Keeps l s) (hc : F.Core t) :
    F.Keeps l (s.sendResult t e r entry o) :=
  .ite (((hs.modTile_alike hc.tile (Tile.alike_clearEngine ..)).foldl fun _ _ hv => hv.sendWrite hc).countIssue hc) (hs.stallEngine hc)

theorem Keeps.putResult {t : TileId} {req : Nat} {d : Desc} {bs : List Byte} {lost : List Nat} (hs : F.Keeps l s) (hc : F.Core t)
    (hb : F.cells (tileKey t) = .any) : F.Keeps l (s.putResult t req d bs lost).2 := by
  have hp := hs.settleOverlaps (mine := (s.tile t).destSlots d) hc
  unfold State.putResult
  dsimp only
  generalize s.settleOverlaps t _ = p at *
  split
  · exact hp
  · dsimp only
    generalize resultPieces _ _ _ _ = ps
    have hw := hp.writePieces (ps := ps) hc hb
    exact (hw.modTile hc.tile ((hw.tile t).retireTags hc.tile (not_same hb))).served hc

theorem Keeps.retireOwn {t : TileId} {e : Nat} {r : RunUnit} {o : UnitOut} (hs : F.Keeps l s) (hc : F.Core t)
    (hr : ∀ i, F.reg (tileKey t) i) (hb : F.cells (tileKey t) = .any) : F.Keeps l (s.retireOwn t e r o) := by
  unfold State.retireOwn
  dsimp only
  split
  · refine .ite (hs.failUnit hc) ?_
    generalize hp : s.sendElems t _ _ _ _ = p
    have hp : F.Keeps l p.2 := hp ▸ hs.sendElems hc
    exact .ite (hp.stallEngine hc) (((hp.modTile hc.tile (.alike ((hp.tile t).retireTags hc.tile (not_same hb)) hc.tile
      (Tile.alike_clearEngine ..))).countIssue hc).retired hc hr)
  · refine .ite (hs.stallEngine hc) ?_
    generalize hp : State.putResult _ t _ _ _ _ = p
    have hp : F.Keeps l p.2 := hp ▸ (hs.modTile_alike hc.tile (Tile.alike_clearEngine ..)).putResult hc hb
    split
    · exact (hp.ueFault hc).failUnit hc
    · exact (hp.countIssue hc).retired hc hr

theorem Keeps.readOwn {t : TileId} {e : Nat} {d : Desc} (hs : F.Keeps l s) (hc : F.Core t) : F.Keeps l (s.readOwn t e d) := by
  unfold State.readOwn
  apply_rules [Keeps.served, Keeps.correctOperand, Keeps.foldl] <;> intros <;> apply_rules [Keeps.served, Keeps.correctOperand, Keeps.foldl]
theorem Keeps.retireEngine {t : TileId} {e : Nat} (hs : F.Keeps l s) (hc : F.Core t) (hr : ∀ i, F.reg (tileKey t) i)
    (hb : F.cells (tileKey t) = .any) : F.Keeps l (s.retireEngine t e) := by
  unfold State.retireEngine
  dsimp only
  split
  · exact hs
  · split
    · exact hs
    · exact (hs.ueFault hc).failUnit hc
    · split
      · exact (Keeps.ite (hs.readOwn hc) hs).retireOwn hc hr hb
      · split
        · exact hs.metaFault hc
        · exact hs.sendResult hc

theorem Keeps.failOut {t : TileId} {i : Nat} {u : FUnit} (hs : F.Keeps l s) (hc : F.Core t) : F.Keeps l (s.failOut t i u) := by
  unfold State.failOut
  apply_rules [Keeps.firingUnit, Keeps.modTile_alike, Core.tile] <;> exact ⟨rfl, rfl, rfl⟩

theorem Keeps.landResult {t : TileId} {i : Nat} (hs : F.Keeps l s) (hc : F.Core t) (hr : ∀ i, F.reg (tileKey t) i)
    (hb : F.cells (tileKey t) = .any) : F.Keeps l (s.landResult t i) := by
  unfold State.landResult
  dsimp only
  split
  · exact hs
  split
  · exact hs
  split
  · refine .ite (hs.failOut hc) ?_
    generalize hp : s.sendElems t _ _ _ _ = p
    have hp : F.Keeps l p.2 := hp ▸ hs.sendElems hc
    exact .ite (hp.modTile_alike hc.tile (Tile.alike_setOut ..)) ((hp.modTile hc.tile (.alike ((hp.tile t).retireTags hc.tile (not_same hb)) hc.tile
      (Tile.alike_dropOut ..))).retired hc hr)
  · refine .ite hs ?_
    generalize hp : State.putResult _ t _ _ _ _ = p
    have hp : F.Keeps l p.2 := hp ▸ (hs.modTile_alike hc.tile (Tile.alike_dropOut ..)).putResult hc hb
    split
    · exact (hp.ueFault hc).failOut hc
    · exact hp.retired hc hr

theorem answers_execUnitRetire {t : TileId} {e : Nat} (hs : F.Keeps l s) (ha : F.Array) : F.Answers l (execUnitRetire t e s) :=
  Keeps.ite hs (.ite (hs.retireEngine (ha.core t) (ha.reg _) (ha.any _)) (hs.landResult (ha.core t) (ha.reg _) (ha.any _)))

theorem answers_execIntraTileSteal {t : TileId} {e : Nat} (hs : F.Keeps l s) (ha : F.Array) : F.Answers l (execIntraTileSteal t e s) := by
  unfold execIntraTileSteal
  refine .next (.ite ?_ hs)
  split
  · exact hs
  split
  · exact hs
  refine .ite hs (hs.setTile_alike (ha.tile _) (.trans (Tile.alike_setEngine ..) ?_))
  exact .ite (.trans (Tile.alike_setEngine ..) (Tile.alike_popTail ..)) (Tile.alike_popTail ..)

theorem Keeps.searchAll {t : TileId} (hs : F.Keeps l s) (ha : F.Array) : F.Keeps l (s.searchAll t) :=
  hs.foldl fun v e hv => by
    refine .ite hv ?_
    split
    · exact hv
    · exact (hv.askSteal (ha.core t)).modTile_alike (ha.tile _) ⟨rfl, rfl, rfl⟩

theorem answers_execStealSearch {t : TileId} (hs : F.Keeps l s) (ha : F.Array) : F.Answers l (execStealSearch t s) := Keeps.ite (hs.searchAll ha) hs

theorem answers_execStealBackoffExpiry {t : TileId} (hs : F.Keeps l s) (ha : F.Array) : F.Answers l (execStealBackoffExpiry t s) := by
  unfold execStealBackoffExpiry
  apply Answers.next
  split
  · exact hs
  · have hv : F.Keeps l (s.setTile t { s.tile t with forage := { (s.tile t).forage with backoffUntil := none } }) := hs.setTile_alike (ha.tile _) ⟨rfl, rfl,
      rfl⟩
    exact .ite (.ite (hv.searchAll ha) hv) hs

theorem Keeps.stealMissed {t : TileId} {e st : Nat} (hs : F.Keeps l s) (ha : F.Array) : F.Keeps l (s.stealMissed t e st) := by
  unfold State.stealMissed
  dsimp only
  split
  · exact hs
  · exact hs.askSteal (ha.core t)
  · generalize hv : s.setTile t _ = v
    have hv : F.Keeps l v := hv ▸ hs.setTile_alike (ha.tile _) (Tile.alike_setEngine ..)
    split
    · split
      · exact hv.finish (ha.core t) (ha.reg ..)
      · exact hv
    · exact .ite hv (hv.setTile (ha.tile _) (ha.step (hs.tile t) id))

theorem Keeps.stealGot {t : TileId} {e : Nat} {u : StolenUnit} (hs : F.Keeps l s) (ha : F.Array) : F.Keeps l (s.stealGot t e u) := by
  unfold State.stealGot
  dsimp only
  split
  · exact hs.setTile_alike (ha.tile _) (Tile.alike_setEngine ..)
  · generalize hv : s.setTile t _ = v
    have hv : F.Keeps l v := hv ▸ hs.setTile (ha.tile _) (ha.step (hs.tile t) id)
    split
    · split
      · exact hv.finish (ha.core t) (ha.reg ..)
      · exact hv
    · exact hv

theorem answers_execStealReply {h : Hdr} {u : Option StolenUnit} (hs : F.Keeps l s) (ha : F.Array) : F.Answers l (execStealReply h u s) := by
  unfold execStealReply
  refine .next (hs.landing (fun v hv => ?_) ha)
  dsimp only
  (repeat' split) <;> apply_rules [Keeps.stealMissed, Keeps.stealGot]

theorem Keeps.voidOut {t : TileId} {i : Nat} {u : FUnit} (hs : F.Keeps l s) (ha : F.Array) : F.Keeps l (s.voidOut t i u) := by
  unfold State.voidOut
  dsimp only
  apply_rules [Keeps.modTile_alike, Array.tile] <;> exact ⟨rfl, rfl, rfl⟩

theorem Keeps.lostOperand {t : TileId} {e : Nat} {u : FUnit} {entry : Nat} (hs : F.Keeps l s) (ha : F.Array) : F.Keeps l (s.lostOperand t e u entry) := by
  unfold State.lostOperand
  dsimp only
  (repeat' split) <;> apply_rules [Keeps.modTile_alike, Array.tile] <;> exact ⟨rfl, rfl, rfl⟩

theorem Keeps.operandReply {t : TileId} {e which at_ st : Nat} {data : List Byte} (hs : F.Keeps l s) (ha : F.Array) :
    F.Keeps l (s.operandReply t e which at_ st data) := by
  unfold State.operandReply
  dsimp only
  (repeat' split) <;> apply_rules [Keeps.setTile_alike, Keeps.askOperand, Keeps.failUnit, Keeps.lostOperand, Array.core, Array.tile] <;> simp

theorem Keeps.giveUnit {t thief : TileId} (hs : F.Keeps l s) (ha : F.Array) : F.Keeps l (s.giveUnit t thief).2 := by
  unfold State.giveUnit
  dsimp only
  generalize hv : (if 2 ≤ List.length _ then s.freeVal else ((0 : Word), s)) = v
  have hv : F.Keeps l v.2 := hv ▸ (by split <;> [exact hs.freeVal; exact hs] : F.Keeps l (if _ then s.freeVal else ((0 : Word), s)).2)
  split
  · exact hv
  · exact hv
  · exact hv.setTile (ha.tile _) (ha.step (hs.tile t) id)

theorem answers_execSteal {h : Hdr} {engine domain gen : Nat} (hs : F.Keeps l s) (ha : F.Array) : F.Answers l (execSteal h engine domain gen s) := by
  unfold execSteal
  refine .next (hs.landing (fun v hv => ?_) ha)
  dsimp only
  (repeat' split) <;> apply_rules [Keeps.status, Keeps.giveUnit, Keeps.send, Array.mesh]

theorem answers_execOperandRead {h : Hdr} {b : OperandReq} (hs : F.Keeps l s) (ha : F.Array) : F.Answers l (execOperandRead h b s) := by
  unfold execOperandRead
  refine .next (hs.landing (fun v hv => ?_) ha)
  dsimp only
  (repeat' split) <;> apply_rules [Keeps.reply, Keeps.correctOperand, Keeps.logUe, Array.core, Array.mesh]

theorem answers_execResult {h : Hdr} {b : ResultBody} (hs : F.Keeps l s) (ha : F.Array) : F.Answers l (execResult h b s) := by
  unfold execResult
  refine .next (hs.landing (fun v hv => ?_) ha)
  (repeat' split) <;> apply_rules [Keeps.modTile_alike, Keeps.status, Keeps.landResult, Array.core, Array.reg, Array.any, Array.tile, Array.mesh]
      <;> exact ⟨rfl, rfl, rfl⟩

theorem answers_execStealFailureNotice {h : Hdr} {entry homeGen unitId : Nat} (hs : F.Keeps l s) (ha : F.Array) :
    F.Answers l (execStealFailureNotice h entry homeGen unitId s) := by
  unfold execStealFailureNotice
  refine .next (hs.landing (fun v hv => ?_) ha)
  (repeat' split) <;> apply_rules [Keeps.status, Keeps.failOut, Array.core, Array.mesh]

theorem answers_execStealReturnTimeout {t : TileId} {entry : Nat} (hs : F.Keeps l s) (ha : F.Array) : F.Answers l (execStealReturnTimeout t entry s) := by
  unfold execStealReturnTimeout
  apply Answers.next
  split
  · exact .ite (hs.voidOut ha) hs
  · exact hs

theorem Keeps.dloadAt {t : TileId} {sl : Nat} {r : HRef} {purge : Bool} (hs : F.Keeps l s) (hc : F.Core t) (hb : F.cells (tileKey t) = .any) :
    F.Keeps l (s.dloadAt t sl r purge).state := by
  unfold State.dloadAt
  dsimp only
  split
  · exact hs
  split
  · exact hs
  split
  · exact hs.raise hc
  split
  · exact hs.ueFault hc
  split
  · exact hs.raise hc
  split
  · exact hs.raise hc
  split
  · exact hs.ueFault hc
  split
  · exact hs.raise hc
  split
  · exact hs.raise hc
  · simp only [LoadOut.state_answer]
    refine Keeps.bindTokens (.modTile_alike ?_ hc.tile (Tile.alike_setSlot ..)) hc hb
    have hv := (hs.correct (o := (s.tile t).refAt r) (n := fieldAt ((s.tile t).get ((s.tile t).refAt r) 64) 4 2) hc).served (req := 9) (o := (s.tile t).refAt r) hc
    split
    · exact hv.purge hc (not_same hb)
    · exact hv

theorem keeps_xDload {t : TileId} {a : XArgs} (hs : F.Keeps l s) (hc : F.Core t) (hr : F.reg (tileKey t) a.rd) (hb : F.cells (tileKey t) = .any) :
    F.Keeps l (xDload t a s) := by
  unfold xDload
  refine .ite (hs.badArg hc) (.ite (hs.badArg hc) ?_)
  have hd := hs.dloadAt (sl := bits (s.rs1 t a) 2 0) (r := hrefOf (s.rs2 t a)) (purge := nbit a.mods 0) hc hb
  split
  · next h => rw [h] at hd; exact hd
  · next h => rw [h] at hd; exact Keeps.finish (s := _) hd hc hr

theorem keeps_xDswitch {t : TileId} {a : XArgs} (hs : F.Keeps l s) (hc : F.Core t) (hr : F.reg (tileKey t) a.rd) : F.Keeps l (xDswitch t a s) := by
  unfold xDswitch
  dsimp only
  refine .ite (.ite (hs.badArg hc) (.ite (hs.finish hc hr) (.ite (hs.finish hc hr) (Keeps.finish (hs.setTile_alike hc.tile ?_) hc hr))))
    (.ite (hs.badArg hc) (.ite (hs.finish hc hr) (.ite (hs.finish hc hr) (Keeps.finish (hs.setTile_alike hc.tile ?_) hc hr))))
  · exact (Tile.alike_toEntry ..).trans ⟨rfl, rfl, rfl⟩
  · exact (Tile.alike_activate ..).trans ⟨rfl, rfl, rfl⟩

theorem keeps_xDpurge {t : TileId} {a : XArgs} (hs : F.Keeps l s) (hc : F.Core t) (hr : F.reg (tileKey t) a.rd) (hb : F.cells (tileKey t) ≠ .same) :
    F.Keeps l (xDpurge t a s) := by
  unfold xDpurge
  dsimp only
  apply_rules [Keeps.badArg, Keeps.purge, Keeps.finish, Keeps.ite]

theorem keeps_xDsample {t : TileId} {a : XArgs} (hs : F.Keeps l s) (hc : F.Core t) (hr : F.reg (tileKey t) a.rd) : F.Keeps l (xDsample t a s) := by
  unfold xDsample
  dsimp only
  apply_rules [Keeps.badArg, Keeps.finish, Keeps.setTile_alike, Keeps.ite, Core.tile] <;> exact ⟨rfl, rfl, rfl⟩

theorem answers_execDload {t : TileId} {a : XArgs} (hs : F.Keeps l s) (hc : F.Core t) (hr : F.reg (tileKey t) a.rd) (hb : F.cells (tileKey t) = .any) :
    F.Answers l (execDload t a s) :=
  keeps_issue hs (keeps_xDload hs hc hr hb) hc

theorem answers_execDswitch {t : TileId} {a : XArgs} (hs : F.Keeps l s) (hc : F.Core t) (hr : F.reg (tileKey t) a.rd) :
    F.Answers l (execDswitch t a s) :=
  keeps_issue hs (keeps_xDswitch hs hc hr) hc

theorem answers_execDpurge {t : TileId} {a : XArgs} (hs : F.Keeps l s) (hc : F.Core t) (hr : F.reg (tileKey t) a.rd) (hb : F.cells (tileKey t) ≠ .same) :
    F.Answers l (execDpurge t a s) :=
  keeps_issue hs (keeps_xDpurge hs hc hr hb) hc

theorem answers_execDsample {t : TileId} {a : XArgs} (hs : F.Keeps l s) (hc : F.Core t) (hr : F.reg (tileKey t) a.rd) :
    F.Answers l (execDsample t a s) :=
  keeps_issue hs (keeps_xDsample hs hc hr) hc

theorem answers_execToken {h : Hdr} {b : TokenBody} (hs : F.Keeps l s) (ha : F.Array) : F.Answers l (execToken h b s) := by
  unfold execToken
  refine .next (.ite hs (hs.landing (fun v hv => ?_) ha))
  split
  · exact hv
  refine .ite (hv.status ha.mesh) ?_
  split
  · exact Keeps.status (Keeps.served (hv.setTile (ha.tile _) ((hv.tile _).landToken (ha.tile _) (ha.any _))) (ha.core _)) ha.mesh
  · exact Keeps.status (hv.setTile_alike (ha.tile _) ⟨rfl, rfl, rfl⟩) ha.mesh
  · exact (hv.tokenCredit ha.mesh).event.status ha.mesh
  · exact Keeps.status (hv.setTile_alike (ha.tile _) (Tile.alike_refuseToken _)) ha.mesh

theorem answers_execTokenCredit {h : Hdr} {slot emit : Nat} (hs : F.Keeps l s) (ha : F.Array) : F.Answers l (execTokenCredit h slot emit s) := by
  unfold execTokenCredit
  refine .next (.ite hs (hs.landing (fun v hv => ?_) ha))
  split
  · exact hv
  · exact .ite (hv.setTile_alike (ha.tile _) (Tile.alike_setSlot ..)) hv

theorem answers_execTokenOrphan {t : TileId} {i : Nat} (hs : F.Keeps l s) (ha : F.Array) : F.Answers l (execTokenOrphan t i s) := by
  unfold execTokenOrphan
  dsimp only
  apply Answers.next
  split
  · refine .ite (Keeps.event (Keeps.tokenCredit (hs.setTile_alike (ha.tile _) ?_) ha.mesh)) hs
    exact ⟨rfl, rfl, rfl⟩
  · exact hs

theorem Keeps.runActions {t : TileId} {c fuel : Nat} (hs : F.Keeps l s) (hc : F.Core t) : F.Keeps l (s.runActions t c fuel) := by
  induction fuel generalizing s with
  | zero => exact hs
  | succ fuel ih =>
    unfold State.runActions
    dsimp only
    split
    · exact hs
    split
    · exact hs
    have fires {x : FCtx} : F.Keeps l (s.setTile t ((s.tile t).setFiring c x)) := hs.setTile_alike hc.tile (Tile.alike_setFiring ..)
    refine .ite fires (.ite (ih fires) ?_)
    split
    · split <;> exact fires.raise hc
    · exact .ite fires (ih (hs.setTile_alike hc.tile ((Tile.alike_push ..).trans (Tile.alike_setFiring ..))))

theorem Keeps.controlRead {t : TileId} {im : Image} {sl node i : Nat} (hs : F.Keeps l s) (hc : F.Core t) : F.Keeps l (s.controlRead t im sl node i) := by
  unfold State.controlRead
  dsimp only
  apply_rules [Keeps.served, Keeps.correct, Keeps.ite]

theorem Keeps.issueFiring {t : TileId} {im : Image} {c sl node i : Nat} {rest : List (Nat × Nat × Nat)} (hs : F.Keeps l s) (hc : F.Core t) :
    F.Keeps l (s.issueFiring t im c sl node i rest) := by
  unfold State.issueFiring
  dsimp only
  have hv := hs.controlRead (im := im) (sl := sl) (node := node) (i := i) hc
  split
  · exact Keeps.ueFault (hv.setTile_alike hc.tile ⟨rfl, rfl, rfl⟩) hc
  · exact Keeps.raise (hv.setTile_alike hc.tile ⟨rfl, rfl, rfl⟩) hc
  · exact hv.setTile_alike hc.tile ⟨rfl, rfl, rfl⟩
  · exact hv.setTile_alike hc.tile ⟨rfl, rfl, rfl⟩
  · exact Keeps.runActions (hv.setTile_alike hc.tile ⟨rfl, rfl, rfl⟩) hc

theorem Keeps.fireIssue {t : TileId} (hs : F.Keeps l s) (hc : F.Core t) : F.Keeps l (s.fireIssue t) := by
  unfold State.fireIssue
  dsimp only
  (repeat' split) <;> apply_rules [Keeps.runActions, Keeps.issueFiring, Keeps.setTile_alike, Core.tile] <;> exact ⟨rfl, rfl, rfl⟩

theorem answers_execFiringIssue {t : TileId} (hs : F.Keeps l s) (ha : F.Array) : F.Answers l (execFiringIssue t s) := hs.fireIssue (ha.core t)

theorem Keeps.sendToken {t : TileId} {im : Image} {c : Nat} {x : FCtx} {e j : Nat} {src : Option (Nat × Nat × Nat × Bool)} (hs : F.Keeps l s)
    (hc : F.Core t) (hb : F.cells (tileKey t) ≠ .same) : F.Keeps l (s.sendToken t im c x e j src) := by
  have marks {v : State} {tl : Tile} (hv : F.Step (tileKey t) (l.tile t) tl) (sl : Slot) (y : FCtx) :
      F.Step (tileKey t) (l.tile t) ((tl.setSlot x.slot sl).setFiring c y) :=
    hv.alike hc.tile ((Tile.alike_setFiring ..).trans (Tile.alike_setSlot ..))
  unfold State.sendToken
  cases src with
  | none => exact Keeps.sendWriteOf (hs.setTile hc.tile (marks (v := s) (hs.tile t) _ _)) hc
  | some p =>
    have hv := (hs.correct (o := p.1) (n := p.2.1) hc).served (req := 9) (o := p.1) hc
    exact Keeps.sendWriteOf (hv.setTile hc.tile (marks (v := s) (.ite ((hv.tile t).emptyTags hc.tile hb) (hv.tile t)) _ _)) hc

theorem Keeps.tokenEmit {t : TileId} {c : Nat} (hs : F.Keeps l s) (hc : F.Core t) (hb : F.cells (tileKey t) ≠ .same) : F.Keeps l (s.tokenEmit t c) := by
  unfold State.tokenEmit
  refine .ite hs ?_
  split
  · exact hs
  split
  · refine .ite (hs.setTile_alike hc.tile (Tile.alike_setFiring ..)) (.ite hs (.ite (hs.setTile_alike hc.tile (Tile.alike_setFiring ..))
      (.ite (Keeps.raise (hs.setTile_alike hc.tile (Tile.alike_dropFiring ..)) hc) ?_)))
    split
    · exact Keeps.ueFault (hs.setTile_alike hc.tile (Tile.alike_dropFiring ..)) hc
    · exact hs.sendToken hc hb
  · exact hs

theorem answers_execTokenEmit {t : TileId} {c : Nat} (hs : F.Keeps l s) (ha : F.Array) : F.Answers l (execTokenEmit t c s) :=
  hs.tokenEmit (ha.core t) (ha.not_same _)

theorem Keeps.releaseInputs {t : TileId} {im : Image} {x : FCtx} (hs : F.Keeps l s) (ha : F.Array) : F.Keeps l (s.releaseInputs t im x) := by
  unfold State.releaseInputs
  dsimp only
  refine Keeps.foldl (hs.setTile (ha.tile _) (.alike (Step.foldl (hs.tile t) fun _ _ hb => ?_) (ha.tile _) ⟨rfl, rfl,
      rfl⟩)) fun _ _ hv => hv.tokenCredit ha.mesh
  exact .ite (hb.emptyTags (ha.tile _) (ha.not_same _)) hb

end Scope
end Sys2Proof.Machine
end

section
/-! SUPPORT. Scopes: firings, cells, remote requests and answers. -/

namespace Sys2Proof.Machine
namespace Scope
variable {F : Scope} {l s : State}

theorem answers_execFiringComplete {t : TileId} {c : Nat} (hs : F.Keeps l s) (ha : F.Array) : F.Answers l (execFiringComplete t c s) := by
  unfold execFiringComplete
  refine .next (.ite hs ?_)
  split
  · exact hs
  split
  · exact hs
  · refine .ite hs (.foldl (.bindAll (Keeps.modTile_array (hs.releaseInputs ha) ha ?_) (ha.core t) (ha.any _)) fun _ _ hv => hv.signalLocal (ha.core t) (ha.reg _))
    exact id

theorem answers_execSourceFire {t : TileId} {slot node : Nat} (hs : F.Keeps l s) (ha : F.Array) : F.Answers l (execSourceFire t slot node s) := by
  unfold execSourceFire
  dsimp only
  (repeat' split) <;> apply_rules [Keeps.setTile_alike, Array.tile] <;> exact ⟨rfl, rfl, rfl⟩

theorem answers_execSlotArm {t : TileId} {w : Writer} {slot n : Nat} (hs : F.Keeps l s) (ha : F.Array) : F.Answers l (execSlotArm t w slot n s) := by
  unfold execSlotArm
  dsimp only
  apply Answers.next
  apply_rules [Keeps.setTile_alike, Keeps.ite, Array.tile] <;> exact ⟨rfl, rfl, rfl⟩

theorem Keeps.emitFault {t : TileId} {code : Nat} {b : TokenBody} {iter top : Nat} (hs : F.Keeps l s) (hc : F.Core t) :
    F.Keeps l (s.emitFault t code b iter top) := by
  unfold State.emitFault
  dsimp only
  (repeat' split) <;> apply_rules [Keeps.raise]

theorem Keeps.tokenAnswer {t : TileId} {h : Hdr} {b : TokenBody} {code : Nat} (hs : F.Keeps l s) (ha : F.Array) : F.Keeps l (s.tokenAnswer t h b code) := by
  unfold State.tokenAnswer
  dsimp only
  split
  · exact hs
  have hv (hd : List HeldTok) : F.Keeps l (s.setTile t { (s.tile t).settle h.tag (.token b) (code == stOk) with fold := { ((s.tile t).settle h.tag (.token b) (code == stOk)).fold with held := hd } }) :=
    hs.setTile_alike (ha.tile _) (.trans (b := (s.tile t).settle h.tag (.token b) (code == stOk)) ⟨rfl, rfl, rfl⟩ (Tile.alike_settle ..))
  refine .ite (.ite (hs.setTile_array ha ?_) (hs.setTile_array ha ?_)) (.ite (hv _) (.ite ((hv _).emitFault (ha.core t)) ((hv _).emitFault (ha.core t))))
  · exact id
  · exact id

theorem answers_execTokenRetryResend {t : TileId} {i : Nat} (hs : F.Keeps l s) (ha : F.Array) : F.Answers l (execTokenRetryResend t i s) := by
  unfold execTokenRetryResend
  dsimp only
  apply Answers.next
  (repeat' split) <;> apply_rules [Keeps.send, Keeps.setTile_alike, Array.tile, Array.mesh] <;> exact ⟨rfl, rfl, rfl⟩

theorem Keeps.fireExpire {t : TileId} {force : Bool} (hs : F.Keeps l s) (hc : F.Core t) : F.Keeps l (s.fireExpire t force) := by
  unfold State.fireExpire
  dsimp only
  split
  · refine Keeps.emitFault (hs.setTile_alike hc.tile ?_) hc
    exact ⟨rfl, rfl, rfl⟩
  split
  · have hv (e : Nat) (x : FCtx) : F.Keeps l (s.setTile t ((s.tile t).setFiring e x)) := hs.setTile_alike hc.tile (Tile.alike_setFiring ..)
    split
    · exact (hv ..).raise hc
    · exact (hv ..).raise hc
    · exact hv ..
  split
  · exact hs
  · refine .ite (Keeps.raise (hs.setTile_alike hc.tile ?_) hc) hs
    exact ⟨rfl, rfl, rfl⟩

theorem answers_execFoldScheduleMove {t : TileId} (hs : F.Keeps l s) (ha : F.Array) : F.Answers l (execFoldScheduleMove t s) := by
  unfold execFoldScheduleMove
  dsimp only
  (repeat' split) <;> apply_rules [Keeps.setTile_alike, Array.tile] <;> simp

theorem answers_execFoldSwitchAtT {t : TileId} (hs : F.Keeps l s) (ha : F.Array) : F.Answers l (execFoldSwitchAtT t s) := by
  unfold execFoldSwitchAtT
  apply Answers.next
  dsimp only
  split
  · exact hs
  · refine .ite (hs.setTile_alike (ha.tile _) ((Tile.alike_switchTo ..).trans ?_)) hs
    exact ⟨rfl, rfl, rfl⟩

theorem answers_execProfileSample {t : TileId} {granted : Bool} (hs : F.Keeps l s) (ha : F.Array) : F.Answers l (execProfileSample t granted s) := by
  have hv := hs.modTile_alike (t := t) (g := fun tl => tl.sampleStart s.time (s.cycles t) (opN (s.field (fieldOf t)).clk.op)) (ha.tile _) (Tile.alike_sampleStart ..)
  unfold execProfileSample
  generalize s.modTile t _ = v at *
  refine .next (.ite hv (.ite (hv.setTile_array ha ?_) (Keeps.event (hv.setTile_array ha ?_))))
  · exact Tile.wf_put _ _ _
  · exact id

theorem Keeps.setPend {t : TileId} {p : Option (Nat × Nat)} (hs : F.Keeps l s) (hc : F.Core t) : F.Keeps l (s.setPend t p) := by
  unfold State.setPend
  apply_rules [Keeps.modTile_alike, Core.tile] <;> exact ⟨rfl, rfl, rfl⟩

theorem Keeps.sendSync {t : TileId} {op n amount : Nat} (hs : F.Keeps l s) (hc : F.Core t) : F.Keeps l (s.sendSync t op n amount) := by
  unfold State.sendSync
  dsimp only
  apply_rules [Keeps.setPend, Keeps.sendRequest, Keeps.ite]

theorem keeps_xSwait {t : TileId} {a : XArgs} (hs : F.Keeps l s) (hc : F.Core t) (hr : F.reg (tileKey t) a.rd) : F.Keeps l (xSwait t a s) := by
  unfold xSwait
  dsimp only
  (repeat' split) <;> apply_rules [Keeps.badArg, Keeps.finish, Keeps.setTile_alike, Keeps.sendSync, Core.tile] <;> exact ⟨rfl, rfl, rfl⟩

theorem keeps_xSsignal {t : TileId} {a : XArgs} (hs : F.Keeps l s) (hc : F.Core t) (hr : F.reg (tileKey t) a.rd) : F.Keeps l (xSsignal t a s) := by
  unfold xSsignal
  refine .ite (hs.badArg hc) (.ite (hs.badArg hc) (.ite ((hs.finish hc hr).settleCell_of hc fun k hk => ?_) (.ite ?_ (.ite ((hs.sendSync hc).finish hc hr)
    ((hs.sendSync hc).stallOn hc)))))
  · simp [State.finish] at hk
  · dsimp only
    split
    · exact hs.finish hc hr
    · exact .ite ((hs.sendRequest hc).finish hc hr) (((hs.sendRequest hc).setPend hc).stallOn hc)

theorem keeps_xSfence {t : TileId} {a : XArgs} (hs : F.Keeps l s) (hc : F.Core t) (hr : F.reg (tileKey t) a.rd) : F.Keeps l (xSfence t a s) := by
  unfold xSfence
  dsimp only
  (repeat' split) <;> apply_rules [Keeps.stallOn, Keeps.finish, Keeps.modTile_alike, Core.tile] <;> exact ⟨rfl, rfl, rfl⟩

theorem keeps_xSread {t : TileId} {a : XArgs} (hs : F.Keeps l s) (hc : F.Core t) (hr : F.reg (tileKey t) a.rd) : F.Keeps l (xSread t a s) := by
  unfold xSread
  dsimp only
  apply_rules [Keeps.badArg, Keeps.finish, Keeps.stallOn, Keeps.sendSync, Keeps.ite]

theorem answers_execSwait {t : TileId} {a : XArgs} (hs : F.Keeps l s) (hc : F.Core t) (hr : F.reg (tileKey t) a.rd) :
    F.Answers l (execSwait t a s) :=
  keeps_issue hs (keeps_xSwait hs hc hr) hc

theorem answers_execSsignal {t : TileId} {a : XArgs} (hs : F.Keeps l s) (hc : F.Core t) (hr : F.reg (tileKey t) a.rd) :
    F.Answers l (execSsignal t a s) :=
  keeps_issue hs (keeps_xSsignal hs hc hr) hc

theorem answers_execSfence {t : TileId} {a : XArgs} (hs : F.Keeps l s) (hc : F.Core t) (hr : F.reg (tileKey t) a.rd) :
    F.Answers l (execSfence t a s) :=
  keeps_issue hs (keeps_xSfence hs hc hr) hc

theorem answers_execSread {t : TileId} {a : XArgs} (hs : F.Keeps l s) (hc : F.Core t) (hr : F.reg (tileKey t) a.rd) :
    F.Answers l (execSread t a s) :=
  keeps_issue hs (keeps_xSread hs hc hr) hc

theorem Keeps.remoteIssue {t : TileId} {op : XOp} {a : XArgs} {go : RemoteDesc → HRef → State → State} (hs : F.Keeps l s)
    (hk : ∀ d r v, F.Keeps l v → F.Keeps l (go d r v)) (hc : F.Core t) : F.Keeps l (s.remoteIssue t op a go) := by
  unfold State.remoteIssue
  refine .ite (hs.badArg hc) (.ite (hs.badArg hc) (hs.reading (fun bs v hv => ?_) hc))
  split
  · exact hv.badArg hc
  · exact hk _ _ _ hv

theorem keeps_xXput {t : TileId} {a : XArgs} (hs : F.Keeps l s) (hc : F.Core t) (hr : F.reg (tileKey t) a.rd) (hb : F.cells (tileKey t) ≠ .same) :
    F.Keeps l (xXput t a s) := by
  unfold xXput
  refine hs.remoteIssue (fun d r v hv => .ite (hv.stallOn hc) ?_) hc
  split
  · exact hv.finish hc hr
  · refine .ite (hv.stallOn hc) (hv.reading (fun bs u hu => ?_) hc)
    have hw := hu.modTile hc.tile ((hu.tile t).consumeSlots (hd := (v.tile t).handle r.handle) (i := r.slot) (n := 1) hc.tile hb)
    exact .ite ((hw.sendWrite hc).finish hc hr) ((hw.sendWrite hc).stallOn hc)

theorem keeps_xXget {t : TileId} {a : XArgs} (hs : F.Keeps l s) (hc : F.Core t) (hr : F.reg (tileKey t) a.rd) : F.Keeps l (xXget t a s) := by
  unfold xXget
  refine hs.remoteIssue (fun d r v hv => ?_) hc
  dsimp only
  split
  · exact hv.finish hc hr
  · exact (hv.sendRequest hc).stallOn hc

theorem Keeps.xgetLand {t : TileId} {a : XArgs} {st : Nat} {data : List Byte} (hs : F.Keeps l s) (hc : F.Core t) (hr : F.reg (tileKey t) a.rd)
    (hb : F.cells (tileKey t) = .any) : F.Keeps l (s.xgetLand t a st data) := by
  unfold State.xgetLand
  refine .ite (hs.finish hc hr) (.ite (hs.badArg hc) (.ite (hs.stallOn hc) (hs.writing (fun v hv => Keeps.finish (hv.modTile hc.tile ?_) hc hr) hc)))
  exact .ite (((hv.tile t).put hc.tile hb).alike hc.tile (Tile.alike_fillTags ..)) ((hv.tile t).put hc.tile hb)

theorem answers_execXput {t : TileId} {a : XArgs} (hs : F.Keeps l s) (hc : F.Core t) (hr : F.reg (tileKey t) a.rd) (hb : F.cells (tileKey t) ≠ .same) :
    F.Answers l (execXput t a s) :=
  keeps_issue hs (keeps_xXput hs hc hr hb) hc

theorem answers_execXget {t : TileId} {a : XArgs} (hs : F.Keeps l s) (hc : F.Core t) (hr : F.reg (tileKey t) a.rd) :
    F.Answers l (execXget t a s) :=
  keeps_issue hs (keeps_xXget hs hc hr) hc

theorem Keeps.waitAt {f : Nat} {h : Hdr} {b : SyncBody} (hs : F.Keeps l s) (ha : F.Array) : F.Keeps l (s.waitAt f h b) := by
  unfold State.waitAt
  dsimp only
  (repeat' split) <;> apply_rules [Keeps.status, Keeps.setCellG, Keeps.modField, Keeps.event, Array.field, Array.mesh]

theorem answers_syncAt {op : Nat} {h : Hdr} {b : SyncBody} {act : Nat → State → State} (hs : F.Keeps l s) (hk : ∀ x0 v,
    F.Keeps l v → F.Keeps l (act x0 v)) (ha : F.Array) :
    F.Answers l (syncAt op h b s act) := by
  unfold syncAt
  refine .next (hs.landing (fun v hv => ?_) ha)
  (repeat' split) <;> apply_rules []

theorem answers_execSyncWait {h : Hdr} {b : SyncBody} (hs : F.Keeps l s) (ha : F.Array) : F.Answers l (execSyncWait h b s) :=
  answers_syncAt hs (fun _ _ hv => hv.waitAt ha) ha

theorem answers_execSyncSignal {h : Hdr} {b : SyncBody} (hs : F.Keeps l s) (ha : F.Array) : F.Answers l (execSyncSignal h b s) := by
  refine answers_syncAt hs (fun f v hv => ?_) ha
  dsimp only
  split
  · exact hv.status ha.mesh
  · exact (hv.signalGlobal ha).status ha.mesh

theorem answers_execSyncPostedSignal {h : Hdr} {b : SyncBody} (hs : F.Keeps l s) (ha : F.Array) : F.Answers l (execSyncPostedSignal h b s) := by
  refine answers_syncAt hs (fun f v hv => ?_) ha
  split
  · exact hv.status ha.mesh
  · exact hv.signalGlobal ha

theorem answers_execSyncRead {h : Hdr} {b : SyncBody} (hs : F.Keeps l s) (ha : F.Array) : F.Answers l (execSyncRead h b s) := by
  refine answers_syncAt hs (fun f v hv => ?_) ha
  dsimp only
  split
  · exact hv.reply ha.mesh
  · exact hv.reply ha.mesh

theorem answers_execSyncCancel {h : Hdr} {b : SyncBody} (hs : F.Keeps l s) (ha : F.Array) : F.Answers l (execSyncCancel h b s) :=
  answers_syncAt hs (fun _ _ hv => (hv.modField (ha.field _)).status ha.mesh) ha

theorem answers_execSyncWaitResend {t : TileId} (hs : F.Keeps l s) (ha : F.Array) : F.Answers l (execSyncWaitResend t s) := by
  unfold execSyncWaitResend
  dsimp only
  apply Answers.next
  (repeat' split) <;> apply_rules [Keeps.sendSync, Array.core]
theorem Keeps.returnUnit {f i : Nat} (hs : F.Keeps l s) (ha : F.Array) : F.Keeps l (s.returnUnit f i) := by
  unfold State.returnUnit
  dsimp only
  apply_rules [Keeps.evalGlobal, Keeps.setCellG, Keeps.ite]

theorem answers_execStaleReleaseRefused {f cell : Nat} {waiter : TileId} (hs : F.Keeps l s) (ha : F.Array) :
    F.Answers l (execStaleReleaseRefused f cell waiter s) := by
  unfold execStaleReleaseRefused
  apply Answers.next
  dsimp only
  split
  · exact hs
  · exact hs.landing (fun _ hv => ((hv.returnUnit ha).modField (ha.field _)).event) ha

theorem Keeps.openRefused {t : TileId} {src : Endp} {r : ConnRef} {st : Nat} (hs : F.Keeps l s) (ha : F.Array) : F.Keeps l (s.openRefused t src r st) := by
  unfold State.openRefused
  dsimp only
  (repeat' split) <;> apply_rules [Keeps.finish, Array.core, Array.reg, Array.tile, Keeps.setTile_alike] <;> exact ⟨rfl, rfl, rfl⟩

theorem Keeps.freeRemote {t : TileId} {tag st : Nat} (hs : F.Keeps l s) (ha : F.Array) : F.Keeps l (s.freeRemote t tag st) :=
  hs.modTile_alike (ha.tile _) (.ite (Tile.alike_holdRemote ..) (Tile.alike_dropRemote ..))

theorem Keeps.waitAnswer {t : TileId} {c st : Nat} (hs : F.Keeps l s) (ha : F.Array) : F.Keeps l (s.waitAnswer t c st) := by
  unfold State.waitAnswer
  dsimp only
  (repeat' split) <;> apply_rules [Keeps.finish, Keeps.setPend, Array.core, Array.reg, Array.tile, Keeps.setTile_alike] <;> exact ⟨rfl, rfl, rfl⟩

theorem Keeps.cancelAnswer {t : TileId} {c st : Nat} (hs : F.Keeps l s) (ha : F.Array) : F.Keeps l (s.cancelAnswer t c st) := by
  unfold State.cancelAnswer
  (repeat' split) <;> apply_rules [Keeps.finish, Keeps.setPend, Array.core, Array.reg]

theorem Keeps.signalAnswer {t : TileId} {c : Nat} {posted : Bool} {tag st : Nat} (hs : F.Keeps l s) (ha : F.Array) :
    F.Keeps l (s.signalAnswer t c posted tag st) := by
  unfold State.signalAnswer
  dsimp only
  (repeat' split) <;> apply_rules [Keeps.finish, Keeps.setPend, Array.core, Array.reg, Array.tile, Keeps.modTile_alike] <;> exact ⟨rfl, rfl, rfl⟩

theorem Keeps.xputAnswer {t : TileId} {tag st : Nat} (hs : F.Keeps l s) (ha : F.Array) : F.Keeps l (s.xputAnswer t tag st) := by
  unfold State.xputAnswer
  have hv : F.Keeps l (s.modTile t fun tl => (tl.dropRemote tag).settle tag .xput (st == stOk)) :=
    hs.modTile_alike (ha.tile _) ((Tile.alike_settle ..).trans (Tile.alike_dropRemote ..))
  refine .ite (hs.modTile_alike (ha.tile _) (Tile.alike_holdRemote ..)) (.ite (.ite hv (hv.modTile_alike (ha.tile _) (Tile.alike_lostPosted _))) ?_)
  split
  · exact hv.finish (ha.core t) (ha.reg ..)
  · exact hv

theorem Keeps.xgetAnswer {t : TileId} {tag st : Nat} {data : List Byte} (hs : F.Keeps l s) (ha : F.Array) : F.Keeps l (s.xgetAnswer t tag st data) := by
  unfold State.xgetAnswer
  dsimp only
  (repeat' split) <;> apply_rules [Keeps.modTile_alike, Keeps.xgetLand, Array.core, Array.reg, Array.any, Array.tile] <;> exact ⟨rfl, rfl, rfl⟩

theorem Keeps.readAnswer {t : TileId} {c st : Nat} {data : List Byte} (hs : F.Keeps l s) (ha : F.Array) : F.Keeps l (s.readAnswer t c st data) := by
  unfold State.readAnswer
  (repeat' split) <;> apply_rules [Keeps.finish, Keeps.setPend, Array.core, Array.reg]

theorem Keeps.connWrite {t : TileId} {h : Hdr} {r : ConnRef} {st : Nat} (hs : F.Keeps l s) (ha : F.Array) : F.Keeps l (s.connWrite t h r st) := by
  unfold State.connWrite
  have hv : F.Keeps l (s.modTile t fun tl => (tl.dropRemote h.tag).settle h.tag (.conn r) (st == stOk)) :=
    hs.modTile_alike (ha.tile _) ((Tile.alike_settle ..).trans (Tile.alike_dropRemote ..))
  exact .ite hs (.ite (hs.modTile_alike (ha.tile _) (Tile.alike_holdRemote ..)) (.ite hv (hv.connAnswer ha)))

end Scope
end Sys2Proof.Machine
end

section
/-! SUPPORT. Scopes: stalls, ports, register blocks and orders. -/

namespace Sys2Proof.Machine
namespace Scope
variable {F : Scope} {l s : State}

theorem Keeps.tileAnswer {t : TileId} {h : Hdr} {re : Re} {st : Nat} {data : List Byte} (hs : F.Keeps l s) (ha : F.Array) :
    F.Keeps l (s.tileAnswer t h re st data) := by
  unfold State.tileAnswer
  (repeat' split) <;> apply_rules [Keeps.connWrite, Keeps.openRefused, Keeps.connAnswer, Keeps.freeRemote, Keeps.tokenAnswer, Keeps.operandReply,
      Keeps.stealMissed, Keeps.xputAnswer, Keeps.xgetAnswer, Keeps.signalAnswer, Keeps.waitAnswer, Keeps.readAnswer, Keeps.cancelAnswer, Array.tile,
      Keeps.modTile_alike] <;> simp

theorem Keeps.staleAnswer {h : Hdr} {re : Re} {st : Nat} (hs : F.Keeps l s) (hm : F.mesh) : F.Keeps l (s.staleAnswer h re st) := by
  unfold State.staleAnswer
  (repeat' split) <;> apply_rules [Keeps.send]

theorem Keeps.answerAt {h : Hdr} {re : Re} {st : Nat} {data : List Byte} (hs : F.Keeps l s) (ha : F.Array) : F.Keeps l (s.answerAt h re st data) := by
  unfold State.answerAt
  (repeat' split) <;> apply_rules [Keeps.tileAnswer, Keeps.staleAnswer, Array.mesh]
theorem answers_execReply {h : Hdr} {re : Re} {status : Nat} {data : List Byte} (hs : F.Keeps l s) (ha : F.Array) :
    F.Answers l (execReply h re status data s) := by
  unfold execReply
  refine .next (hs.landing (fun v hv => ?_) ha)
  apply_rules [Keeps.answerAt]

theorem answers_execStatus {h : Hdr} {re : Re} {code : Nat} (hs : F.Keeps l s) (ha : F.Array) : F.Answers l (execStatus h re code s) := by
  unfold execStatus
  apply Answers.next
  split
  · exact hs.landing (fun _ hv => hv.answerAt ha) ha
  · exact hs

theorem answers_execRemoteRetryResend {t : TileId} (hs : F.Keeps l s) (ha : F.Array) : F.Answers l (execRemoteRetryResend t s) := by
  unfold execRemoteRetryResend
  dsimp only
  apply Answers.next
  (repeat' split) <;> apply_rules [Keeps.send, Array.tile, Array.mesh, Keeps.setTile_alike] <;> exact ⟨rfl, rfl, rfl⟩

theorem keeps_xbody {op : XOp} {t : TileId} {a : XArgs} (hs : F.Keeps l s) (hc : F.Core t) (hr : ∀ r, F.reg (tileKey t) r)
    (hb : F.cells (tileKey t) = .any) : F.Keeps l (xbody op t a s) := by
  have hn := not_same hb
  cases op
  · exact keeps_xQopen hs hc (hr _)
  · exact keeps_xQclose hs hc (hr _)
  · exact keeps_xQsend hs hc (hr _) hn
  · exact keeps_xQtrysend hs hc (hr _) hn
  · exact keeps_xQrecv hs hc (hr _) hb
  · exact keeps_xQtryrecv hs hc (hr _) hb
  · exact keeps_xQselect hs hc (hr _)
  · exact keeps_xQstat hs hc (hr _)
  · exact keeps_xSwait hs hc (hr _)
  · exact keeps_xSsignal hs hc (hr _)
  · exact keeps_xSfence hs hc (hr _)
  · exact keeps_xSread hs hc (hr _)
  · exact keeps_xFpush hs hc (hr _)
  · exact keeps_xFsteal hs hc (hr _)
  · exact keeps_xFwait hs hc (hr _)
  · exact keeps_xHset hs hc (hr _)
  · exact keeps_xHclr hs hc (hr _)
  · exact keeps_xLdt hs hc (hr _) hn
  · exact keeps_xStt hs hc (hr _) hb
  · exact keeps_xTfill hs hc (hr _) hn
  · exact keeps_xDload hs hc (hr _) hb
  · exact keeps_xDswitch hs hc (hr _)
  · exact keeps_xDpurge hs hc (hr _) hn
  · exact keeps_xDsample hs hc (hr _)
  · exact keeps_xWopen hs hc (hr _)
  · exact keeps_xWclose hs hc (hr _)
  · exact keeps_xXput hs hc (hr _) hn
  · exact keeps_xXget hs hc (hr _)

theorem Keeps.coreMet {t : TileId} (hs : F.Keeps l s) (hc : F.Core t) (hr : ∀ r,
    F.reg (tileKey t) r) (hb : F.cells (tileKey t) = .any) : F.Keeps l (s.coreMet t) := by
  unfold State.coreMet
  refine .ite hs ?_
  split
  · exact hs
  split
  · exact keeps_xbody hs hc hr hb
  · exact hs.xgetLand hc (hr _) hb
  · exact hs
  · exact hs

theorem Keeps.engineMet {t : TileId} {e : Nat} (hs : F.Keeps l s) (hc : F.Core t) (hr : ∀ r,
    F.reg (tileKey t) r) (hb : F.cells (tileKey t) = .any) : F.Keeps l (s.engineMet t e) := by
  unfold State.engineMet
  refine .ite hs (.ite (hs.landResult hc hr hb) ?_)
  split
  · exact .ite (hs.retireEngine hc hr hb) hs
  · refine .ite hs ?_
    split
    · exact hs
    · exact .ite (hs.startUnit hc) hs

theorem Keeps.fireMet {t : TileId} (hs : F.Keeps l s) (hc : F.Core t) (hb : F.cells (tileKey t) = .any) : F.Keeps l (s.fireMet t) := by
  have hv : F.Keeps l (if (s.tile t).present && s.clocked t && !(s.tile t).frozen then s.bindAll t else s) := .ite (hs.bindAll hc hb) hs
  exact (hv.fireIssue hc).foldl fun _ _ hu => hu.tokenEmit hc (not_same hb)

theorem Keeps.streamMet {t : TileId} {st : Stream} (hs : F.Keeps l s) (hc : F.Core t) (hr : ∀ r,
    F.reg (tileKey t) r) (hb : F.cells (tileKey t) = .any) : F.Keeps l (s.streamMet t st) := by
  cases st with
  | core => exact hs.coreMet hc hr hb
  | engine e => exact hs.engineMet hc hr hb
  | fire => exact hs.fireMet hc hb

theorem answers_execStallConditionMet {t : TileId} {st : Stream} (hs : F.Keeps l s) (hc : F.Core t) (hr : ∀ r,
    F.reg (tileKey t) r) (hb : F.cells (tileKey t) = .any) : F.Answers l (execStallConditionMet t st s) :=
  .next (.ite (hs.streamMet hc hr hb) hs)

theorem Keeps.endStall {t : TileId} {k : Stall} {debug : Bool} (hs : F.Keeps l s) (hc : F.Core t) (hr : ∀ r, F.reg (tileKey t) r) :
    F.Keeps l (s.endStall t k debug) := by
  unfold State.endStall
  refine .ite ?_ (.ite (hs.finishRaw hc (hr _)) (.ite (Keeps.finish (hs.modTile_alike hc.tile (Tile.alike_setCtx ..)) hc (hr _))
    (.ite (Keeps.finish (hs.modTile_alike hc.tile (Tile.alike_setEngine ..)) hc (hr _)) ((hs.setPend hc).finish hc (hr _)))))
  dsimp only
  have hv : F.Keeps l (s.modTile t fun tl => { tl with sync := { tl.sync with pend := some (4, k.obj) } }) := hs.modTile_alike hc.tile ⟨rfl, rfl, rfl⟩
  split
  · exact hs.stallOn hc
  · exact (hv.sendRequest hc).stallOn hc
  · exact (hv.sendRequest hc).stallOn hc
  · exact (hv.sendRequest hc).stallOn hc

theorem Keeps.coreExpire {t : TileId} {force : Bool} (hs : F.Keeps l s) (hc : F.Core t) (hr : ∀ r, F.reg (tileKey t) r) (hb : F.cells (tileKey t) = .any) :
    F.Keeps l (s.coreExpire t force) := by
  unfold State.coreExpire
  dsimp only
  (repeat' split) <;> apply_rules [Keeps.coreMet, Keeps.endStall]

theorem Keeps.engineExpire {t : TileId} {e : Nat} {force : Bool} (hs : F.Keeps l s) (hc : F.Core t) (hr : ∀ r,
    F.reg (tileKey t) r) (hb : F.cells (tileKey t) = .any) : F.Keeps l (s.engineExpire t e force) := by
  have hv : F.Keeps l (if force then s else s.engineMet t e) := .ite hs (hs.engineMet hc hr hb)
  unfold State.engineExpire
  generalize (if force then s else s.engineMet t e) = v at *
  dsimp only
  refine .ite ?_ ?_
  · split
    · exact hv
    · exact .ite (hv.failOut hc) hv
  · split
    · exact .ite (hv.failUnit hc) hv
    split
    · exact hv
    · exact .ite (Keeps.failUnit (hv.setTile_alike hc.tile (Tile.alike_setEngine ..)) hc) hv

theorem Keeps.streamExpire {t : TileId} {force : Bool} {st : Stream} (hs : F.Keeps l s) (hc : F.Core t) (hr : ∀ r,
    F.reg (tileKey t) r) (hb : F.cells (tileKey t) = .any) : F.Keeps l (s.streamExpire t force st) := by
  cases st with
  | core => exact hs.coreExpire hc hr hb
  | engine e => exact hs.engineExpire hc hr hb
  | fire => exact Keeps.fireExpire (.ite hs (hs.fireMet hc hb)) hc

theorem answers_execStallWatchdogExpiry {t : TileId} {st : Stream} (hs : F.Keeps l s) (hc : F.Core t) (hr : ∀ r,
    F.reg (tileKey t) r) (hb : F.cells (tileKey t) = .any) : F.Answers l (execStallWatchdogExpiry t st s) :=
  .next (.ite (hs.streamExpire hc hr hb) hs)

theorem answers_execSyncDebugCore {t : TileId} (hs : F.Keeps l s) (ha : F.Array) : F.Answers l (execSyncDebugCore t s) := by
  unfold execSyncDebugCore
  apply Answers.next
  apply_rules [Keeps.coreExpire, Array.core, Array.reg, Array.any]
theorem Keeps.debugAll {t : TileId} (hs : F.Keeps l s) (hc : F.Core t) (hr : ∀ r,
    F.reg (tileKey t) r) (hb : F.cells (tileKey t) = .any) : F.Keeps l (s.debugAll t) := by
  unfold State.debugAll
  refine Keeps.fireExpire (Keeps.foldl (Keeps.foldl (hs.coreExpire hc hr hb) ?_) ?_) hc
  · exact fun _ _ hv => hv.engineExpire hc hr hb
  · exact fun _ _ hv => hv.engineExpire hc hr hb

theorem answers_execSyncDebugAll {t : TileId} (hs : F.Keeps l s) (ha : F.Array) : F.Answers l (execSyncDebugAll t s) :=
  hs.debugAll (ha.core t) (ha.reg _) (ha.any _)

theorem Keeps.setPort {p : Nat} {v : Port} (hs : F.Keeps l s) (hp : F.ports) : F.Keeps l (s.setPort p v) := hs.setPorts hp

theorem Keeps.modPort {p : Nat} {g : Port → Port} (hs : F.Keeps l s) (hp : F.ports) : F.Keeps l (s.modPort p g) := hs.setPorts hp

theorem Keeps.endPend {p i : Nat} {e : Pend} {body : Body} (hs : F.Keeps l s) (ha : F.Array) (hp : F.ports) : F.Keeps l (s.endPend p i e body) := by
  unfold State.endPend
  dsimp only
  apply_rules [Keeps.modPort, Keeps.send, Array.mesh]
theorem Keeps.answerOwn {p : Nat} {x : Pkt} {st : Nat} (hs : F.Keeps l s) (ha : F.Array) (hp : F.ports) : F.Keeps l (s.answerOwn p x st) := by
  unfold State.answerOwn
  refine hs.foldl fun v q hv => ?_
  (repeat' split) <;> apply_rules [Keeps.endPend, Keeps.send, Array.mesh]

theorem Keeps.loseFrame {p : Nat} {x : Pkt} {cause : Nat} (hs : F.Keeps l s) (ha : F.Array) (hp : F.ports) : F.Keeps l (s.loseFrame p x cause) := by
  unfold State.loseFrame
  dsimp only
  (repeat' split) <;> apply_rules [Keeps.modPort, Keeps.answerOwn, Keeps.event, Keeps.sendFrom, Keeps.foldl, Array.mesh] <;> intros
      <;> apply_rules [Keeps.modPort, Keeps.answerOwn, Keeps.event, Keeps.sendFrom, Keeps.foldl, Array.mesh]
theorem Keeps.portDrop {p next cause : Nat} (hs : F.Keeps l s) (ha : F.Array) (hp : F.ports) : F.Keeps l (s.portDrop p next cause) := by
  unfold State.portDrop
  dsimp only
  apply_rules [Keeps.setPort, Keeps.event, Keeps.loseFrame, Keeps.ite, Keeps.foldl] <;> intros <;> apply_rules [Keeps.setPort, Keeps.event, Keeps.loseFrame,
      Keeps.ite, Keeps.foldl]
theorem Keeps.portDown {p : Nat} (hs : F.Keeps l s) (ha : F.Array) (hp : F.ports) : F.Keeps l (s.portDown p) := by
  unfold State.portDown
  apply_rules [Keeps.portDrop, Keeps.ite]
theorem Keeps.portWake {p : Nat} (hs : F.Keeps l s) (ha : F.Array) (hp : F.ports) : F.Keeps l (s.portWake p) := by
  unfold State.portWake
  dsimp only
  apply_rules [Keeps.setPort, Keeps.ite]
theorem Keeps.beatCounts {t : TileId} (hs : F.Keeps l s) (hc : F.Core t) : F.Keeps l (s.beatCounts t) := by
  unfold State.beatCounts
  dsimp only
  apply_rules [Keeps.freeVal, Core.tile, Keeps.modTile_alike] <;> exact ⟨rfl, rfl, rfl⟩

theorem Keeps.readTileReg {t : TileId} {o : Nat} (hs : F.Keeps l s) (hc : F.Core t) : F.Keeps l (s.readTileReg t o).2 := .ite (hs.beatCounts hc) hs

theorem Keeps.writeCell {t : TileId} {c : Nat} {isTarget : Bool} {val : Word} (hs : F.Keeps l s) (hc : F.Core t) (hr : ∀ r, F.reg (tileKey t) r) :
    F.Keeps l (s.writeCell t c isTarget val) := by
  unfold State.writeCell
  dsimp only
  apply_rules [Keeps.writeLocal]

theorem answers_execSyncCellWrite {t : TileId} {w : Writer} {c : Nat} {isTarget : Bool} {val : Word} (hs : F.Keeps l s) (ha : F.Array) :
    F.Answers l (execSyncCellWrite t w c isTarget val s) := by
  unfold execSyncCellWrite
  apply Answers.next
  apply_rules [Keeps.writeCell, Keeps.ite, Array.core, Array.reg]
theorem Keeps.writeTileReg {t : TileId} {w : Writer} {o : Nat} {val : Word} (hs : F.Keeps l s) (hc : F.Core t) (hr : ∀ r,
    F.reg (tileKey t) r) (hb : F.cells (tileKey t) = .any) : F.Keeps l (s.writeTileReg t w o val) := by
  have alike {tl : Tile} (e : tl.Alike (s.tile t)) : F.Keeps l (s.setTile t tl) := hs.setTile_alike hc.tile e
  unfold State.writeTileReg
  refine .ite hs (.ite (.ite (alike ⟨rfl, rfl, rfl⟩) hs) (.ite (alike ⟨rfl, rfl, rfl⟩) (.ite (alike ⟨rfl, rfl, rfl⟩)
    (.ite (hs.setTile hc.tile ((hs.tile t).clearLost hc.tile)) (.ite (alike ⟨rfl, rfl, rfl⟩) (.ite ?_ (.ite (alike ⟨rfl, rfl, rfl⟩)
    (.ite (alike ⟨rfl, rfl, rfl⟩) (.ite (hs.writeCell hc hr) (.ite ?_ (.ite (alike (Tile.alike_writeFoldCtrl ..)) (.ite (alike ⟨rfl, rfl, rfl⟩)
    (.ite (alike ⟨rfl, rfl, rfl⟩) hs)))))))))))))
  · exact .ite (hs.setTile hc.tile ((hs.tile t).rqCfg hc.tile hb)) (.ite (hs.setTile hc.tile ((hs.tile t).setQueue hc.tile (not_arm hb))) hs)
  · exact .ite (.ite (hs.debugAll hc hr hb) (.ite (hs.coreExpire hc hr hb) hs)) hs

theorem Keeps.modRec {t : TileId} {g : TRec → TRec} (hs : F.Keeps l s) (ha : F.Array) : F.Keeps l (s.modRec t g) := by
  unfold State.modRec
  apply_rules [Array.field, Keeps.modField]
theorem Keeps.freeRegs (hs : F.Keeps l s) : F.Keeps l s.freeRegs.2 := Keeps.foldl_part Prod.snd (fun _ _ hv => hv.freeVal) hs

theorem Keeps.leaveService {t : TileId} (hs : F.Keeps l s) (ha : F.Array) : F.Keeps l (s.leaveService t) := by
  unfold State.leaveService
  refine Keeps.foldl ?_ fun _ _ hv => hv.windowFlush ha
  split
  · exact .ite (hs.sendRequest (ha.core t)) hs
  · exact hs

theorem Keeps.enterQuarantine {t : TileId} (hs : F.Keeps l s) (ha : F.Array) (ht : F.tables) : F.Keeps l (s.enterQuarantine t) := by
  unfold State.enterQuarantine
  dsimp only
  have hv := hs.leaveService (t := t) ha
  generalize s.leaveService t = v at *
  have hp := hv.freeRegs
  generalize v.freeRegs = p at *
  split
  · exact Keeps.event (Keeps.modRec (hv.modTile_array ha fun _ => rfl) ha)
  · have hw := hp.modTile_array (t := t) (g := fun tl => tl.cleared ((v.tile t).gen + 1) p.1 (p.2.cycles t)) ha id
    generalize p.2.modTile t _ = w at *
    refine Keeps.sleep (Keeps.modRec ?_ ha) ha
    exact hw.setGens ht

theorem answers_execTileResetOrder {t : TileId} (hs : F.Keeps l s) (ha : F.Array) (ht : F.tables) : F.Answers l (execTileResetOrder t s) :=
  .next (.ite (hs.enterQuarantine ha ht) hs)

theorem Keeps.ctrlAnswer {h : Hdr} {st : Nat} {data : List Byte} (hs : F.Keeps l s) (hm : F.mesh) : F.Keeps l (s.ctrlAnswer h st data) := by
  unfold State.ctrlAnswer
  apply_rules [Keeps.send]

theorem Keeps.writeRegs {t : TileId} {w : Writer} {o : Nat} {data : List Byte} (hs : F.Keeps l s) (hc : F.Core t) (hr : ∀ r,
    F.reg (tileKey t) r) (hb : F.cells (tileKey t) = .any) : F.Keeps l (s.writeRegs t w o data) :=
  hs.foldl fun _ _ hv => hv.writeTileReg hc hr hb

theorem Keeps.readRegs {t : TileId} {o n : Nat} (hs : F.Keeps l s) (hc : F.Core t) : F.Keeps l (s.readRegs t o n).2 := by
  induction n generalizing s o with
  | zero => exact hs
  | succ n ih => exact ih (hs.readTileReg hc)

theorem Keeps.rawPut {t : TileId} {w : Writer} {o : Nat} {data : List Byte} (hs : F.Keeps l s) (hc : F.Core t) (hr : ∀ r,
    F.reg (tileKey t) r) (hb : F.cells (tileKey t) = .any) : F.Keeps l (s.rawPut t w o data).2 := by
  unfold State.rawPut
  dsimp only
  split
  · exact .ite (hs.writeRegs hc hr hb) hs
  split
  · split
    · exact hs.logUe hc
    · have hv := hs.merge (o := o) (n := data.length) hc
      exact hv.modTile (g := fun tl => tl.put o data) hc.tile ((hv.tile t).put hc.tile hb)
  · exact hs

theorem Keeps.rawGet {t : TileId} {o n : Nat} (hs : F.Keeps l s) (hc : F.Core t) : F.Keeps l (s.rawGet t o n).2.2 := by
  unfold State.rawGet
  dsimp only
  split
  · split
    · exact hs.readRegs hc
    · exact hs
  split
  · split
    · exact hs.logUe hc
    · exact hs.correct hc
  · exact hs

theorem Keeps.vc0At {h : Hdr} {body : Body} {act : TileId → State → State} (hs : F.Keeps l s)
    (hk : ∀ t v, F.Keeps l v → F.Keeps l (act t v)) (ha : F.Array) : F.Keeps l (s.vc0At h body act) := by
  refine hs.landing (fun v hv => ?_) ha
  split
  · exact hv
  split
  · exact hv.ctrlAnswer ha.mesh
  · exact hk _ _ hv

theorem answers_execCtrlOrderAdmit {h : Hdr} (hs : F.Keeps l s) (ha : F.Array) : F.Answers l (execCtrlOrderAdmit h s) :=
  hs.vc0At (fun _ _ hv => .ite (Keeps.ctrlAnswer (hv.modTile_alike (ha.tile _) (Tile.alike_toAdmitted _)) ha.mesh) (hv.ctrlAnswer ha.mesh)) ha

theorem Keeps.orderSwitch {t : TileId} {g : SwitchTarget} {at_ : Nat} (hs : F.Keeps l s) (ha : F.Array) : F.Keeps l (s.orderSwitch t g at_) := by
  unfold State.orderSwitch
  refine .ite (Keeps.event (Keeps.modField (hs.modTile_alike (ha.tile _) ((Tile.alike_switchTo ..).trans ?_)) (ha.field _)))
    (hs.modTile_alike (ha.tile _) ?_)
  · exact ⟨rfl, rfl, rfl⟩
  · exact ⟨rfl, rfl, rfl⟩

theorem answers_execCtrlOrderSwitch {h : Hdr} {tgt : SwitchTarget} {at_ : Nat} (hs : F.Keeps l s) (ha : F.Array) :
    F.Answers l (execCtrlOrderSwitch h tgt at_ s) := by
  unfold execCtrlOrderSwitch
  apply Answers.next
  apply_rules [Keeps.vc0At, Keeps.ctrlAnswer, Keeps.orderSwitch, Keeps.ite, Array.mesh] <;> intros
      <;> apply_rules [Keeps.vc0At, Keeps.ctrlAnswer, Keeps.orderSwitch, Keeps.ite, Array.mesh]
theorem answers_execCtrlOrderDload {h : Hdr} {slot : Nat} {ref : Word} {purge : Bool} (hs : F.Keeps l s) (ha : F.Array) :
    F.Answers l (execCtrlOrderDload h slot ref purge s) := by
  refine Keeps.vc0At hs (fun t v hv => .ite (hv.ctrlAnswer ha.mesh) ?_) ha
  have hd := hv.dloadAt (sl := slot) (r := hrefOf ref) (purge := purge) (ha.core t) (ha.any _)
  split
  · next e => rw [e] at hd; exact Keeps.ctrlAnswer (s := _) hd ha.mesh
  · next e => rw [e] at hd; exact Keeps.ctrlAnswer (s := _) hd ha.mesh

theorem answers_execCtrlOrderSample {h : Hdr} {handle n at_ : Nat} (hs : F.Keeps l s) (ha : F.Array) : F.Answers l (execCtrlOrderSample h handle n at_ s) := by
  refine Keeps.vc0At hs (fun t v hv => .ite (hv.ctrlAnswer ha.mesh) (.ite (hv.ctrlAnswer ha.mesh)
    (Keeps.ctrlAnswer (hv.setTile_alike (ha.tile _) ((Tile.alike_sampleStart ..).trans ?_)) ha.mesh))) ha
  exact ⟨rfl, rfl, rfl⟩

theorem Keeps.allFields {g : Nat → Field → Field} (hs : F.Keeps l s) (hf : ∀ f, F.field f) : F.Keeps l (s.allFields g) :=
  { hs with field := fun f n => absurd (hf f) n }

theorem Keeps.allTiles {g : TileId → Tile → Tile} (hs : F.Keeps l s) (ha : F.Array) (hg : ∀ t tl, Formed tl (g t tl)) : F.Keeps l (s.allTiles g) :=
  { hs with
    tiles := fun n => absurd (ha.tile 0) (n 0)
    tile := fun t => by
      have ht := hs.tile t
      simp only [State.tile, State.allTiles, Tab.getD, Tab.find_mapVals] at ht ⊢
      cases e : s.tiles.find (tileKey t) with
      | none => simpa [e] using ht
      | some tl => exact ha.step (by simpa [e] using ht) (hg _ _) }

theorem answers_execMapInjectionPause (hs : F.Keeps l s) (ha : F.Array) : F.Answers l (execMapInjectionPause s) := by
  unfold execMapInjectionPause
  (repeat' split) <;> apply_rules [Keeps.allFields, Array.field, Array.mesh, Keeps.setMesh]
theorem Keeps.loseWrite {t : TileId} {w : WriteRec} (hs : F.Keeps l s) (ha : F.Array) : F.Keeps l (s.loseWrite t w) := by
  unfold State.loseWrite
  dsimp only
  (repeat' split) <;> apply_rules [Keeps.ctxLost, Keeps.finish, Array.core, Array.reg, Array.tile, Keeps.modTile_alike] <;> exact ⟨rfl, rfl, rfl⟩

theorem Keeps.settleOld {p : WriteRec → Bool} {t : TileId} (hs : F.Keeps l s) (ha : F.Array) : F.Keeps l (s.settleOld p t) := by
  unfold State.settleOld
  apply_rules [Keeps.loseWrite, Keeps.foldl] <;> intros <;> apply_rules [Keeps.loseWrite, Keeps.foldl]
theorem Keeps.newEpoch {at_ : Nat} (hs : F.Keeps l s) (ha : F.Array) : F.Keeps l (s.newEpoch at_) := by
  unfold State.newEpoch
  refine Keeps.setMesh (Keeps.allTiles (hs.foldl fun _ _ hv => hv.settleOld ha) ha ?_) ha.mesh
  exact fun _ _ => id

theorem answers_execFenceSettleLocal (hs : F.Keeps l s) (ha : F.Array) : F.Answers l (execFenceSettleLocal s) := by
  unfold execFenceSettleLocal
  apply Answers.next
  (repeat' split) <;> apply_rules [Keeps.settleOld, Keeps.foldl] <;> intros <;> apply_rules [Keeps.settleOld, Keeps.foldl]
theorem answers_execFenceSettleRemote {f : Nat} (hs : F.Keeps l s) (ha : F.Array) : F.Answers l (execFenceSettleRemote f s) := by
  unfold execFenceSettleRemote
  apply Answers.next
  (repeat' split) <;> apply_rules [Keeps.settleOld, Keeps.foldl] <;> intros <;> apply_rules [Keeps.settleOld, Keeps.foldl]
theorem Keeps.dropStale {seq : Nat} {x : Flight} (hs : F.Keeps l s) (ha : F.Array) : F.Keeps l (s.dropStale seq x) := by
  unfold State.dropStale
  dsimp only
  (repeat' split) <;> apply_rules [Keeps.event, Keeps.sendFrom, Keeps.refuseAt, Array.field, Array.mesh, Keeps.modField]
theorem Keeps.dropHeld (hs : F.Keeps l s) (ha : F.Array) : F.Keeps l (s.dropHeld) := by
  unfold State.dropHeld
  dsimp only
  apply_rules [Keeps.dropStale, Keeps.foldl, Array.mesh, Keeps.setMesh] <;> intros <;> apply_rules [Keeps.dropStale, Keeps.foldl, Array.mesh, Keeps.setMesh]
end Scope
end Sys2Proof.Machine
end

section
/-! SUPPORT. Scopes: maps, fields in the array, scrubbing and the instructions of the core. -/

namespace Sys2Proof.Machine
namespace Scope
variable {F : Scope} {l s : State}

theorem Keeps.reshade {t : TileId} (hs : F.Keeps l s) (ha : F.Array) (ht : F.tables) : F.Keeps l (s.reshade t) :=
  .ite (hs.setTile_array ha id) (.ite (hs.enterQuarantine ha ht) hs)

theorem Keeps.fieldMapped {f : Nat} (hs : F.Keeps l s) (ha : F.Array) : F.Keeps l (s.fieldMapped f) := by
  unfold State.fieldMapped
  dsimp only
  (repeat' split) <;> apply_rules [Array.field, Keeps.setField]
theorem Keeps.reportCutOff (hs : F.Keeps l s) (ht : F.tables) : F.Keeps l s.reportCutOff :=
  (hs.setCuts ht).foldl fun _ _ hv => hv.event

theorem answers_execMapSwitch (hs : F.Keeps l s) (ha : F.Array) (ht : F.tables) : F.Answers l (execMapSwitch s) := by
  unfold execMapSwitch
  apply Answers.next
  split
  · exact hs
  · refine .ite (.ite ?last (Keeps.newEpoch ?last ha)) hs
    refine Keeps.reportCutOff (Keeps.setMesh (Keeps.foldl (Keeps.foldl (Keeps.allFields ((hs.dropHeld ha).setMesh ha.mesh) ha.field) ?_) ?_) ha.mesh) ht
    · exact fun _ _ hv => hv.fieldMapped ha
    · exact fun _ _ hv => hv.reshade ha ht

theorem Keeps.cellSweep {f cause : Nat} (hs : F.Keeps l s) (ha : F.Array) (ht : F.tables) : F.Keeps l (s.cellSweep f cause) := by
  unfold State.cellSweep
  refine Keeps.event (Keeps.setSweeps (hs.foldl fun v t hv => ?_) ht)
  split
  · exact (hv.setPend (ha.core t)).finish (ha.core t) (ha.reg ..)
  · exact hv

theorem answers_execCellLostSweep {f : Nat} (hs : F.Keeps l s) (ha : F.Array) (ht : F.tables) : F.Answers l (execCellLostSweep f s) := by
  unfold execCellLostSweep
  apply Answers.next
  apply_rules [Keeps.cellSweep, Keeps.ite]
theorem answers_execDistTablePublish (hs : F.Keeps l s) (hm : F.mesh) : F.Answers l (execDistTablePublish s) := by
  unfold execDistTablePublish
  apply Answers.next
  apply_rules [Keeps.ite, Keeps.setMesh]

theorem Keeps.mcastDropped {q src : TileId} (hs : F.Keeps l s) (ha : F.Array) : F.Keeps l (s.mcastDropped q src) := by
  unfold State.mcastDropped
  apply_rules [Keeps.event, Array.field, Keeps.modField]
theorem answers_execMulticast {r : Rect} {off : Nat} {data : List Byte} (hs : F.Keeps l s) (ha : F.Array) : F.Answers l (execMulticast r off data s) := by
  unfold execMulticast
  dsimp only
  apply Answers.next
  apply_rules [Keeps.mcastDropped, Keeps.rawPut, Keeps.ite, Keeps.foldl, Array.core, Array.reg, Array.any] <;> intros
      <;> apply_rules [Keeps.mcastDropped, Keeps.rawPut, Keeps.ite, Keeps.foldl, Array.core, Array.reg, Array.any]
theorem Keeps.modXing {f b : Nat} {g : Xing → Xing} (hs : F.Keeps l s) (hf : ∀ f, F.field f) : F.Keeps l (s.modXing f b g) := hs.modField (hf f)

theorem Keeps.boundaryDead {f b : Nat} (hs : F.Keeps l s) (ha : F.Array) : F.Keeps l (s.boundaryDead f b) := by
  have all {n : Nat} (g : State → Nat → State) (hg : ∀ v i, F.Keeps l v → F.Keeps l (g v i)) : F.Keeps l ((upto n).foldl g s) := hs.foldl hg
  unfold State.boundaryDead
  refine .ite (all _ ?_) (.ite (all _ ?_) (.ite (all _ ?_) (all _ ?_)))
  · exact fun _ _ hv => hv.modRouter ha
  · exact fun _ _ hv => hv.modRouter ha
  · exact fun _ _ hv => hv.modRouter ha
  · exact fun _ _ hv => hv.modRouter ha

theorem answers_execHeartbeatLoss {f b : Nat} (hs : F.Keeps l s) (ha : F.Array) : F.Answers l (execHeartbeatLoss f b s) := by
  unfold execHeartbeatLoss
  apply Answers.next
  (repeat' split) <;> apply_rules [Keeps.boundaryDead, Keeps.modXing, Array.field]
theorem Keeps.orderAt {f kind target at_ : Nat} (hs : F.Keeps l s) : F.Keeps l (s.orderAt f kind target at_).2 := by
  unfold State.orderAt
  dsimp only
  generalize (if kind = 2 then 4 else _) = n
  split
  · exact hs
  · exact hs.event

theorem Keeps.clkOrder {f kind op at_ : Nat} (hs : F.Keeps l s) (hf : ∀ f, F.field f) : F.Keeps l (s.clkOrder f kind op at_) := by
  unfold State.clkOrder
  exact hs.orderAt.modField (hf f)

theorem Keeps.pwrStep {f kind op at_ : Nat} (hs : F.Keeps l s) (hf : ∀ f, F.field f) : F.Keeps l (s.pwrStep f kind op at_) := by
  unfold State.pwrStep
  exact hs.orderAt.modField (hf f)

theorem Keeps.relockTo {f op at_ : Nat} (hs : F.Keeps l s) (hf : ∀ f, F.field f) : F.Keeps l (s.relockTo f op at_) := by
  unfold State.relockTo
  exact (hs.modField (hf f)).event

theorem Keeps.monitorField {f : Nat} (hs : F.Keeps l s) (ha : F.Array) : F.Keeps l (s.monitorField f) := by
  unfold State.monitorField
  dsimp only
  (repeat' split) <;> apply_rules [Keeps.relockTo, Array.field, Keeps.setField]
theorem answers_execMonitorModeSwitch (hs : F.Keeps l s) (ha : F.Array) : F.Answers l (execMonitorModeSwitch s) := by
  unfold execMonitorModeSwitch
  apply Answers.next
  have hv : F.Keeps l ((upto 56).foldl State.monitorField s) := hs.foldl fun _ _ hv => hv.monitorField ha
  dsimp only
  split
  · exact hv
  · exact hv.setMesh ha.mesh

theorem Keeps.roundFree {r : Rat} (hs : F.Keeps l s) : F.Keeps l (s.roundFree r).2 := hs.freeVal

theorem Keeps.retainEstimate {f : Nat} (hs : F.Keeps l s) (hf : F.field f) : F.Keeps l (s.retainEstimate f) := by
  unfold State.retainEstimate
  exact (hs.modField hf).roundFree.modField hf

theorem answers_execEpochEnd {f low mon : Nat} (hs : F.Keeps l s) (ha : F.Array) : F.Answers l (execEpochEnd f low mon s) := by
  unfold execEpochEnd
  refine .next (.ite hs (.ite (hs.retainEstimate (ha.field f)) (Keeps.modField (Keeps.roundFree (Keeps.modField (Keeps.allTiles hs.freeVal.freeVal.freeVal ha ?_)
    (ha.field f))) (ha.field f))))
  intro t tl
  split <;> exact id

theorem answers_execThatchEngage {t : TileId} (hs : F.Keeps l s) (ha : F.Array) : F.Answers l (execThatchEngage t s) := by
  unfold execThatchEngage
  dsimp only
  apply Answers.next
  (repeat' split) <;> apply_rules [Keeps.wake, Array.core, Array.tile, Keeps.modTile_alike] <;> exact ⟨rfl, rfl, rfl⟩

theorem Keeps.thatchCycles {level cycles : Nat} (hs : F.Keeps l s) : F.Keeps l (s.thatchCycles level cycles).2 := hs.freeVal

theorem answers_execThatchRampDownStep {t : TileId} (hs : F.Keeps l s) (ha : F.Array) : F.Answers l (execThatchRampDownStep t s) := by
  unfold execThatchRampDownStep
  refine .next (.ite (Keeps.modTile_array hs.thatchCycles ha ?_) hs)
  exact id

theorem answers_execThatchRampUpStep {t : TileId} (hs : F.Keeps l s) (ha : F.Array) : F.Answers l (execThatchRampUpStep t s) := by
  unfold execThatchRampUpStep
  dsimp only
  apply Answers.next
  apply_rules [Keeps.ite, Array.tile, Keeps.modTile_alike] <;> exact ⟨rfl, rfl, rfl⟩

theorem answers_execCtrlReply {h : Hdr} {re status : Nat} {data : List Byte} (hs : F.Keeps l s) (ha : F.Array) :
    F.Answers l (execCtrlReply h re status data s) := by
  unfold execCtrlReply
  refine .next (hs.landing (fun v hv => ?_) ha)
  apply_rules []

theorem Keeps.upset {e : ScrubErr} (hs : F.Keeps l s) (ha : F.Array) : F.Keeps l (s.upset e) := by
  refine .ite (hs.modTile_array ha fun w => ?_) hs
  unfold TileMem.upset
  (repeat' split) <;> exact w

theorem Keeps.scrubUe {row : Nat} {t : TileId} {w : Nat} (hs : F.Keeps l s) (ha : F.Array) : F.Keeps l (s.scrubUe row t w) := by
  unfold State.scrubUe
  dsimp only
  apply_rules [Keeps.logUe, Keeps.event, Array.core, Array.field, Keeps.modField]
theorem Keeps.scrubTile {row : Nat} {t : TileId} (hs : F.Keeps l s) (ha : F.Array) : F.Keeps l (s.scrubTile row t) := by
  unfold State.scrubTile
  dsimp only
  apply_rules [Keeps.scrubUe, Keeps.correctWords, Keeps.foldl, Array.core] <;> intros <;> apply_rules [Keeps.scrubUe, Keeps.correctWords, Keeps.foldl,
      Array.core]
theorem Keeps.hostUpset {e : ScrubErr} (hs : F.Keeps l s) (hh : F.hosts) : F.Keeps l (s.hostUpset e) := by
  unfold State.hostUpset
  refine .ite hs (hs.modHost hh ?_)
  split <;> exact id

theorem answers_execPatrolScrub {f : Nat} {errs : List ScrubErr} (hs : F.Keeps l s) (ha : F.Array) (hh : F.hosts) : F.Answers l (execPatrolScrub f errs s) := by
  unfold execPatrolScrub
  dsimp only
  apply Answers.next
  apply_rules [Keeps.hostUpset, Keeps.upset, Keeps.scrubTile, Keeps.ite, Keeps.foldl, Array.field, Keeps.setField] <;> intros
      <;> apply_rules [Keeps.hostUpset, Keeps.upset, Keeps.scrubTile, Keeps.ite, Keeps.foldl, Array.field, Keeps.setField]
theorem Keeps.syncRecWrite {f i : Nat} {w0 w1 : Option Word} {w : Writer} (hs : F.Keeps l s) (ha : F.Array) : F.Keeps l (s.syncRecWrite f i w0 w1 w) := by
  unfold State.syncRecWrite
  dsimp only
  apply_rules [Keeps.cellSet, Keeps.ite]
theorem Keeps.syncWordWrite {f o : Nat} {val : Word} {w : Writer} (hs : F.Keeps l s) (ha : F.Array) : F.Keeps l (s.syncWordWrite f o val w) := by
  unfold State.syncWordWrite
  dsimp only
  apply_rules [Keeps.syncRecWrite, Keeps.ite]
theorem answers_execSyncRecWrite {f i : Nat} {w0 w1 : Option Word} {w : Writer} (hs : F.Keeps l s) (ha : F.Array) :
    F.Answers l (execSyncRecWrite f i w0 w1 w s) := by
  unfold execSyncRecWrite
  apply Answers.next
  apply_rules [Keeps.syncRecWrite]
theorem Keeps.hedgeReply {ws : List Nat} (hs : F.Keeps l s) (hy : F.syncReply) : F.Keeps l (s.hedgeReply ws) :=
  { hs with
    hedge := fun n => by
      have h := hs.hedge n
      unfold State.hedgeReply
      rw [h]
    syncReply := fun n => absurd hy n }

theorem answers_execHedgerowSyncDebug {cell : Nat} {op : CellOp} (hs : F.Keeps l s) (ha : F.Array) (hy : F.syncReply) :
    F.Answers l (execHedgerowSyncDebug cell op s) := by
  unfold execHedgerowSyncDebug
  refine .next (.ite ?_ hs)
  cases op with
  | read => exact hs.hedgeReply hy
  | list => exact hs.hedgeReply hy
  | set ty v tg => exact hs.cellSet ha
  | force w => exact hs.cellForce ha

theorem Keeps.portCtrl {p : Nat} {val : Word} (hs : F.Keeps l s) (ha : F.Array) (hp : F.ports) : F.Keeps l (s.portCtrl p val) := by
  unfold State.portCtrl
  dsimp only
  apply_rules [Keeps.modPort, Keeps.portWake, Keeps.portDown, Keeps.ite]
theorem Keeps.portWrite {p o : Nat} {val : Word} (hs : F.Keeps l s) (ha : F.Array) (hp : F.ports) : F.Keeps l (s.portWrite p o val) := by
  unfold State.portWrite
  apply_rules [Keeps.portCtrl, Keeps.modPort, Keeps.ite]
theorem Keeps.stepWrite {f : Nat} {val : Word} (hs : F.Keeps l s) (ha : F.Array) : F.Keeps l (s.stepWrite f val) := by
  unfold State.stepWrite
  apply_rules [Keeps.pwrStep, Keeps.ite, Array.field]
theorem Keeps.orderWrite {f : Nat} {val : Word} (hs : F.Keeps l s) (ha : F.Array) : F.Keeps l (s.orderWrite f val) := by
  unfold State.orderWrite
  apply_rules [Keeps.clkOrder, Keeps.ite, Array.field, Keeps.modField]
theorem Keeps.holdVoid {f : Nat} (hs : F.Keeps l s) (ha : F.Array) : F.Keeps l (s.holdVoid f) := by
  unfold State.holdVoid
  apply_rules [Array.field, Keeps.modField]
theorem Keeps.conductorWrite {f o : Nat} {val : Word} (hs : F.Keeps l s) (ha : F.Array) (hp : F.ports) : F.Keeps l (s.conductorWrite f o val) := by
  unfold State.conductorWrite
  apply_rules [Keeps.syncWordWrite, Keeps.portWrite, Keeps.orderWrite, Keeps.ite, Array.field, Keeps.modField]
theorem Keeps.hedgeWrite {f o : Nat} {val : Word} (hs : F.Keeps l s) (ha : F.Array) : F.Keeps l (s.hedgeWrite f o val) := by
  unfold State.hedgeWrite
  apply_rules [Keeps.stepWrite, Keeps.syncWordWrite, Keeps.ite, Array.field, Keeps.modField]
theorem Keeps.writeFcReg {f : Nat} {w : Writer} {o : Nat} {val : Word} (hs : F.Keeps l s) (ha : F.Array) (hp : F.ports) :
    F.Keeps l (s.writeFcReg f w o val) := by
  have hf := ha.field f
  unfold State.writeFcReg
  dsimp only
  have h1 : F.Keeps l (if condOrHedge w then s.modField f (fun fd => fd.clearFlags o val) else s) := .ite (hs.modField hf) hs
  generalize (if condOrHedge w then s.modField f (fun fd => fd.clearFlags o val) else s) = a at *
  have h2 : F.Keeps l (if condOrHedge w && o == 0x9014 then a.holdVoid f else a) := .ite (h1.holdVoid ha) h1
  generalize (if condOrHedge w && o == 0x9014 then a.holdVoid f else a) = b at *
  have h3 : F.Keeps l (if condOrHedge w && o == 0x7004 then b.modPort f (fun v => { v with changed := v.changed && !bit val 27 }) else b) :=
    .ite (h2.modPort hp) h2
  generalize (if condOrHedge w && o == 0x7004 then b.modPort f (fun v => { v with changed := v.changed && !bit val 27 }) else b) = c at *
  refine .ite (h3.modField hf) (.ite (h3.modField hf) ?_)
  cases w with
  | conductor => exact h3.conductorWrite ha hp
  | hedgerow => exact h3.hedgeWrite ha
  | master => exact .ite (h3.stepWrite ha) h3
  | core => exact h3
  | fc => exact h3
  | host _ => exact h3

theorem Keeps.lsFault {t : TileId} {a : LsArgs} {kind : Nat} {u : State} (hs : F.Keeps l s) (hu : s.lsFault t a kind = some u) (hc : F.Core t) : F.Keeps l u := by
  unfold State.lsFault at hu
  dsimp only at hu
  split at hu
  · cases hu; exact hs.raise hc
  split at hu
  · cases hu; exact hs.raise hc
  · cases hu

theorem Keeps.coreLoad {t : TileId} {a : LsArgs} (hs : F.Keeps l s) (hc : F.Core t) (hr : F.reg (tileKey t) a.reg) : F.Keeps l (s.coreLoad t a) := by
  have done {v : State} {x : Word} (hv : F.Keeps l v) : F.Keeps l (v.modTile t fun tl => (tl.setReg a.reg x).retire a.ilen 1) :=
    hv.modTile hc.tile (((hv.tile t).setReg hc.tile hr).alike hc.tile (Tile.alike_retire ..))
  unfold State.coreLoad
  split
  · next h => exact hs.lsFault h hc
  · exact .ite (.ite (done (hs.readTileReg hc)) (done hs)) (hs.reading (fun _ _ hv => done hv) hc)

theorem Keeps.coreStore {t : TileId} {a : LsArgs} (hs : F.Keeps l s) (hc : F.Core t) (hr : ∀ r,
    F.reg (tileKey t) r) (hb : F.cells (tileKey t) = .any) : F.Keeps l (s.coreStore t a) := by
  have done {v : State} (hv : F.Keeps l v) : F.Keeps l (v.modTile t fun tl => tl.retire a.ilen 1) := hv.modTile_alike hc.tile (Tile.alike_retire ..)
  unfold State.coreStore
  split
  · next h => exact hs.lsFault h hc
  · refine .ite (.ite ((done hs).writeTileReg hc hr hb) (done hs)) (hs.writing (fun v hv => done (hv.modTile hc.tile ?_)) hc)
    exact (hv.tile t).put hc.tile hb

theorem answers_execCoreLoad {t : TileId} {a : LsArgs} (hs : F.Keeps l s) (hc : F.Core t) (hr : F.reg (tileKey t) a.reg) :
    F.Answers l (execCoreLoad t a s) := .next (.ite (hs.coreLoad hc hr) hs)

theorem answers_execCoreStore {t : TileId} {a : LsArgs} (hs : F.Keeps l s) (hc : F.Core t) (hr : ∀ r, F.reg (tileKey t) r) (hb : F.cells (tileKey t) = .any) :
    F.Answers l (execCoreStore t a s) := by
  unfold execCoreStore
  apply Answers.next
  apply_rules [Keeps.coreStore, Keeps.ite]

theorem Keeps.csrAccess {t : TileId} {n : Nat} {op : CsrOp} {rd rs1 : Nat} (hs : F.Keeps l s) (hc : F.Core t) (hr : F.reg (tileKey t) rd) :
    F.Keeps l (s.csrAccess t n op rd rs1) := by
  unfold State.csrAccess
  split
  · exact hs.raise hc
  · refine .ite (hs.raise hc) (hs.modTile hc.tile ?_)
    exact ((hs.tile t).setReg hc.tile hr).alike hc.tile (Tile.alike_retire ..)

theorem answers_execCsrAccess {t : TileId} {csr : Nat} {op : CsrOp} {rd rs1 : Nat} (hs : F.Keeps l s) (hc : F.Core t) (hr : F.reg (tileKey t) rd) :
    F.Answers l (execCsrAccess t csr op rd rs1 s) := .next (.ite (hs.csrAccess hc hr) hs)

theorem answers_execEcall {t : TileId} (hs : F.Keeps l s) (hc : F.Core t) : F.Answers l (execEcall t s) := by
  unfold execEcall
  apply Answers.next
  apply_rules [Keeps.raise, Keeps.ite]

theorem answers_execEbreak {t : TileId} (hs : F.Keeps l s) (hc : F.Core t) : F.Answers l (execEbreak t s) := by
  unfold execEbreak
  apply Answers.next
  apply_rules [Keeps.raise, Keeps.ite]

theorem Keeps.writeFcWords {f : Nat} {w : Writer} {o : Nat} {data : List Byte} (hs : F.Keeps l s) (ha : F.Array) (hp : F.ports) :
    F.Keeps l (s.writeFcWords f w o data) := by
  unfold State.writeFcWords
  dsimp only
  apply_rules [Keeps.syncRecWrite, Keeps.writeFcReg, Keeps.ite, Keeps.foldl] <;> intros <;> apply_rules [Keeps.syncRecWrite, Keeps.writeFcReg, Keeps.ite,
      Keeps.foldl]
theorem Keeps.fcAt {f : Nat} {h : Hdr} {body : Body} {act : State → State} (hs : F.Keeps l s) (hk : ∀  v, F.Keeps l v → F.Keeps l (act  v)) (ha : F.Array) :
    F.Keeps l (s.fcAt f h body act) := by
  unfold State.fcAt
  apply_rules [Keeps.landing, Keeps.ctrlAnswer, Keeps.ite, Array.mesh] <;> intros <;> apply_rules [Keeps.landing, Keeps.ctrlAnswer, Keeps.ite, Array.mesh]
theorem answers_execCtrlWrite {h : Hdr} {off : Nat} {data : List Byte} (hs : F.Keeps l s) (ha : F.Array) (hp : F.ports) :
    F.Answers l (execCtrlWrite h off data s) := by
  unfold execCtrlWrite
  dsimp only
  apply Answers.next
  (repeat' split) <;> apply_rules [Keeps.fcAt, Keeps.ctrlAnswer, Keeps.writeFcWords, Keeps.vc0At, Keeps.rawPut, Array.core, Array.reg, Array.any,
      Array.mesh] <;> intros <;> apply_rules [Keeps.fcAt, Keeps.ctrlAnswer, Keeps.writeFcWords, Keeps.vc0At, Keeps.rawPut, Array.core, Array.reg, Array.any,
      Array.mesh]
theorem answers_execCtrlRead {h : Hdr} {off len : Nat} (hs : F.Keeps l s) (ha : F.Array) : F.Answers l (execCtrlRead h off len s) := by
  unfold execCtrlRead
  dsimp only
  apply Answers.next
  (repeat' split) <;> apply_rules [Keeps.fcAt, Keeps.ctrlAnswer, Keeps.vc0At, Keeps.rawGet, Array.core, Array.mesh] <;> intros
      <;> apply_rules [Keeps.fcAt, Keeps.ctrlAnswer, Keeps.vc0At, Keeps.rawGet, Array.core, Array.mesh]
theorem Keeps.rvWrite {t : TileId} {rd : Nat} {v : Word} {len cost : Nat} (hs : F.Keeps l s) (hc : F.Core t) (hr : ∀ r,
    F.reg (tileKey t) r) : F.Keeps l (s.rvWrite t rd v len cost) := by
  refine hs.modTile hc.tile ?_
  exact ((hs.tile t).setReg hc.tile (hr rd)).alike hc.tile (Tile.alike_retire ..)

theorem Keeps.rvJump {t : TileId} {rd : Nat} {link target : Word} (hs : F.Keeps l s) (hc : F.Core t) (hr : ∀ r,
    F.reg (tileKey t) r) : F.Keeps l (s.rvJump t rd link target) := by
  refine hs.modTile hc.tile ?_
  exact ((hs.tile t).setReg (v := link) hc.tile (hr rd)).alike hc.tile ⟨rfl, rfl, rfl⟩

theorem Keeps.illegal {t : TileId} {w : Word} (hs : F.Keeps l s) (hc : F.Core t) : F.Keeps l (s.illegal t w) := by
  unfold State.illegal
  apply_rules [Keeps.raise]

theorem Keeps.rvOpImm {t : TileId} {w raw : Word} {len : Nat} (hs : F.Keeps l s) (hc : F.Core t) (hr : ∀ r, F.reg (tileKey t) r) :
    F.Keeps l (s.rvOpImm t w raw len) := by
  unfold State.rvOpImm
  dsimp only
  apply_rules [Keeps.illegal, Keeps.rvWrite, Keeps.ite]

theorem Keeps.rvOp {t : TileId} {w raw : Word} {len : Nat} (hs : F.Keeps l s) (hc : F.Core t) (hr : ∀ r, F.reg (tileKey t) r) :
    F.Keeps l (s.rvOp t w raw len) := by
  unfold State.rvOp
  dsimp only
  apply_rules [Keeps.rvWrite, Keeps.illegal, Keeps.ite]

theorem Keeps.rvSystem {t : TileId} {w raw : Word} {len : Nat} (hs : F.Keeps l s) (hc : F.Core t) (hr : ∀ r, F.reg (tileKey t) r) :
    F.Keeps l (s.rvSystem t w raw len) := by
  unfold State.rvSystem
  dsimp only
  (repeat' split) <;> apply_rules [Keeps.csrAccess, Keeps.raise, Keeps.rvWrite]

theorem Keeps.rvRun {t : TileId} {w raw : Word} {len : Nat} (hs : F.Keeps l s) (hc : F.Core t) (hr : ∀ r,
    F.reg (tileKey t) r) (hb : F.cells (tileKey t) = .any) : F.Keeps l (s.rvRun t w raw len) := by
  have write {rd : Nat} {v : Word} {n c : Nat} : F.Keeps l (s.rvWrite t rd v n c) := hs.rvWrite hc hr
  have jump {rd : Nat} {x y : Word} : F.Keeps l (s.rvJump t rd x y) := hs.rvJump hc hr
  unfold State.rvRun
  refine .ite write (.ite write (.ite jump (.ite jump (.ite (.ite jump write) (.ite (hs.coreLoad hc (hr _)) (.ite (hs.coreStore hc hr hb)
    (.ite (hs.rvOpImm hc hr) (.ite (hs.rvOp hc hr) (.ite write (.ite write (.ite (hs.rvSystem hc hr) ?_)))))))))))
  split
  · exact keeps_xbody hs hc hr hb
  · exact hs.illegal hc

theorem Keeps.fetchRun {t : TileId} (hs : F.Keeps l s) (hc : F.Core t) (hr : ∀ r,
    F.reg (tileKey t) r) (hb : F.cells (tileKey t) = .any) : F.Keeps l (s.fetchRun t) := by
  unfold State.fetchRun
  refine .ite (hs.raise hc) (.ite (hs.raise hc) (hs.reading (fun bs v hv => .ite ?_ (.ite (hv.raise hc) (hv.rvRun hc hr hb))) hc))
  split
  · exact hv.rvRun hc hr hb
  · exact hv.illegal hc

theorem answers_execRvInstruction {t : TileId} (hs : F.Keeps l s) (hc : F.Core t) (hr : ∀ r, F.reg (tileKey t) r) (hb : F.cells (tileKey t) = .any) :
    F.Answers l (execRvInstruction t s) := by
  unfold execRvInstruction
  apply Answers.next
  apply_rules [Keeps.fetchRun, Keeps.ite]

end Scope
end Sys2Proof.Machine
end

section
/-! SUPPORT. Scopes: clocks, power and temperature of the fields. -/

namespace Sys2Proof.Machine
namespace Scope
variable {F : Scope} {l s : State}

theorem Keeps.sensorNow {f i : Nat} {x : Sensor} {reading : Nat} (hs : F.Keeps l s) (hy : F.sensors) : F.Keeps l (s.sensorNow f i x reading) := by
  have hv (ss : Tab Sensor) : F.Keeps l { s with hedge := { s.hedge with sensors := ss } } :=
    { hs with
      hedge := fun n => by
        have h := hs.hedge n
        rw [h]
      sensors := fun n => absurd hy n }
  exact .ite (hv _).event (hv _)

theorem Keeps.moduleSensor {i top : Nat} {x : Int} (hs : F.Keeps l s) (hy : F.sensors) : F.Keeps l (s.moduleSensor i top x) := hs.sensorNow hy

theorem Keeps.modSvc {f : Nat} {g : FieldSvc → FieldSvc} (hs : F.Keeps l s) (hf : ∀ f, F.field f) : F.Keeps l (s.modSvc f g) := by
  unfold State.modSvc
  apply_rules [Keeps.modField]

theorem answers_execWaferTimeBroadcast (hs : F.Keeps l s) (hf : ∀ f, F.field f) : F.Answers l (execWaferTimeBroadcast s) := by
  unfold execWaferTimeBroadcast
  exact .next (.ite (hs.foldl fun _ _ hv => .ite hv (hv.modField (hf _)).event) hs)

theorem answers_execWtLoRead {f : Nat} (hs : F.Keeps l s) (hf : ∀ f, F.field f) : F.Answers l (execWtLoRead f s) := by
  unfold execWtLoRead
  apply Answers.next
  apply_rules [Keeps.modField]

theorem answers_execMarginLowWrite {f : Nat} (hs : F.Keeps l s) (hf : ∀ f, F.field f) : F.Answers l (execMarginLowWrite f s) := by
  unfold execMarginLowWrite
  apply Answers.next
  apply_rules [Keeps.modField]

theorem Keeps.droop {f n level : Nat} (hs : F.Keeps l s) (hf : ∀ f, F.field f) : F.Keeps l (s.droop f n level) := by
  unfold State.droop
  dsimp only
  apply_rules [Keeps.event, Keeps.ite, Keeps.modField]

theorem answers_execRailDroop {f n level : Nat} (hs : F.Keeps l s) (hf : ∀ f, F.field f) : F.Answers l (execRailDroop f n level s) := by
  unfold execRailDroop
  apply Answers.next
  apply_rules [Keeps.droop, Keeps.ite]

theorem answers_execDebtRepaid {f : Nat} (hs : F.Keeps l s) (hf : ∀ f, F.field f) : F.Answers l (execDebtRepaid f s) := by
  unfold execDebtRepaid
  apply Answers.next
  apply_rules [Keeps.ite, Keeps.modField]

theorem Keeps.abandonCal {f : Nat} (hs : F.Keeps l s) (hf : ∀ f, F.field f) : F.Keeps l (s.abandonCal f) := by
  refine hs.foldl fun v b hv => ?_
  split
  · exact (hv.modXing hf).modXing hf
  · exact hv

theorem answers_execMarginStop {f monitor : Nat} (hs : F.Keeps l s) (hf : ∀ f, F.field f) : F.Answers l (execMarginStop f monitor s) := by
  unfold execMarginStop
  apply Answers.next
  apply_rules [Keeps.abandonCal, Keeps.ite, Keeps.modField]

theorem answers_execMarginRestart {f : Nat} (hs : F.Keeps l s) (hf : ∀ f, F.field f) : F.Answers l (execMarginRestart f s) := by
  unfold execMarginRestart
  dsimp only
  apply Answers.next
  (repeat' split) <;> apply_rules [Keeps.event, Keeps.modField]

theorem answers_execCrossingCalibrate {f b : Nat} (hs : F.Keeps l s) (hf : ∀ f, F.field f) : F.Answers l (execCrossingCalibrate f b s) := by
  unfold execCrossingCalibrate
  apply Answers.next
  (repeat' split) <;> apply_rules [Keeps.modXing]

theorem answers_execClkOrderOpStep {f op at_ : Nat} (hs : F.Keeps l s) (hf : ∀ f, F.field f) : F.Answers l (execClkOrderOpStep f op at_ s) := by
  unfold execClkOrderOpStep
  apply Answers.next
  apply_rules [Keeps.clkOrder]

theorem answers_execClkOrderEnterMonitor {f op at_ : Nat} (hs : F.Keeps l s) (hf : ∀ f, F.field f) : F.Answers l (execClkOrderEnterMonitor f op at_ s) := by
  unfold execClkOrderEnterMonitor
  apply Answers.next
  apply_rules [Keeps.clkOrder]

theorem answers_execClkOrderLeaveMonitor {f op at_ : Nat} (hs : F.Keeps l s) (hf : ∀ f, F.field f) : F.Answers l (execClkOrderLeaveMonitor f op at_ s) := by
  unfold execClkOrderLeaveMonitor
  apply Answers.next
  apply_rules [Keeps.clkOrder]

theorem answers_execPwrStepCap {f op at_ : Nat} (hs : F.Keeps l s) (hf : ∀ f, F.field f) : F.Answers l (execPwrStepCap f op at_ s) := by
  unfold execPwrStepCap
  apply Answers.next
  apply_rules [Keeps.pwrStep]

theorem answers_execPwrStepThermal {f op at_ : Nat} (hs : F.Keeps l s) (hf : ∀ f, F.field f) : F.Answers l (execPwrStepThermal f op at_ s) := by
  unfold execPwrStepThermal
  apply Answers.next
  apply_rules [Keeps.pwrStep]

theorem answers_execPwrStepForced {f op at_ : Nat} (hs : F.Keeps l s) (hf : ∀ f, F.field f) : F.Answers l (execPwrStepForced f op at_ s) := by
  unfold execPwrStepForced
  apply Answers.next
  apply_rules [Keeps.pwrStep]

theorem answers_execOpStep {f : Nat} (hs : F.Keeps l s) (hf : ∀ f, F.field f) : F.Answers l (execOpStep f s) := by
  unfold execOpStep
  dsimp only
  apply Answers.next
  (repeat' split) <;> apply_rules [Keeps.relockTo, Keeps.setField]

theorem answers_execRelockDone {f : Nat} (hs : F.Keeps l s) (hf : ∀ f, F.field f) : F.Answers l (execRelockDone f s) := by
  unfold execRelockDone
  apply Answers.next
  (repeat' split) <;> apply_rules [Keeps.modField]

theorem answers_execMonitorSteerEpoch {f low : Nat} (hs : F.Keeps l s) (hf : ∀ f, F.field f) : F.Answers l (execMonitorSteerEpoch f low s) := by
  unfold execMonitorSteerEpoch
  dsimp only
  apply Answers.next
  apply_rules [Keeps.relockTo, Keeps.ite, Keeps.setField]

theorem Keeps.startReturn {f level : Nat} (hs : F.Keeps l s) (hf : ∀ f, F.field f) : F.Keeps l (s.startReturn f level) := by
  unfold State.startReturn
  apply_rules [Keeps.modField]

theorem Keeps.bothMasters {g : Master → Master} (hs : F.Keeps l s) (hf : ∀ f, F.field f) : F.Keeps l (s.bothMasters g) := by
  unfold State.bothMasters
  apply_rules [Keeps.modField]

theorem Keeps.setGate {f level p cap : Nat} (hs : F.Keeps l s) (hf : ∀ f, F.field f) : F.Keeps l (s.setGate f level p cap) := by
  unfold State.setGate
  dsimp only
  apply_rules [Keeps.event, Keeps.ite, Keeps.modField]

theorem Keeps.shedLoad {limit p cap : Nat} {shed : Rat} {fs : List Nat} (hs : F.Keeps l s) (hf : ∀ f,
    F.field f) : F.Keeps l (s.shedLoad limit p cap shed fs) := by
  induction fs generalizing s shed with
  | nil => exact hs
  | cons f fs ih =>
    unfold State.shedLoad
    exact .ite hs (.ite (ih hs) (ih (hs.setGate hf)))

theorem Keeps.easeGates {m : Master} {cap : Nat} {p : Rat} {fs : List Nat} (hs : F.Keeps l s) (hf : ∀ f, F.field f) : F.Keeps l (s.easeGates m cap p fs) := by
  induction fs generalizing s p with
  | nil => exact hs
  | cons f fs ih =>
    unfold State.easeGates
    exact .ite (ih (hs.setGate hf)) (ih hs)

theorem Keeps.stepAll {kind op at_ : Nat} (hs : F.Keeps l s) (hf : ∀ f, F.field f) : F.Keeps l (s.stepAll kind op at_) := by
  unfold State.stepAll
  apply_rules [Keeps.pwrStep] <;> intros <;> apply_rules [Keeps.pwrStep]
theorem Keeps.capStep {k op at_ p : Nat} (hs : F.Keeps l s) (hf : ∀ f, F.field f) : F.Keeps l (s.capStep k op at_ p) := by
  unfold State.capStep
  exact ((hs.stepAll hf).modField (hf k)).event

theorem Keeps.decide1 {k : Nat} (hs : F.Keeps l s) (hf : ∀ f, F.field f) : F.Keeps l (s.decide1 k) := by
  unfold State.decide1
  refine .ite (.ite (.ite ?_ (Keeps.capStep ?_ hf)) ?_) (.ite (Keeps.capStep ?_ hf) ?_)
  · exact ((hs.roundFree.modField (hf k)).shedLoad hf).modField (hf k)
  · exact ((hs.roundFree.modField (hf k)).shedLoad hf).modField (hf k)
  · exact ((hs.roundFree.modField (hf k)).shedLoad hf).modField (hf k)
  · exact ((hs.roundFree.modField (hf k)).easeGates hf).modField (hf k)
  · exact ((hs.roundFree.modField (hf k)).easeGates hf).modField (hf k)

theorem Keeps.standbyRuns {k : Nat} (hs : F.Keeps l s) (hf : ∀ f, F.field f) : F.Keeps l (s.standbyRuns k) := by
  unfold State.standbyRuns
  dsimp only
  apply_rules [Keeps.ite, Keeps.modField]

theorem answers_execPowerMasterDecision (hs : F.Keeps l s) (hf : ∀ f, F.field f) : F.Answers l (execPowerMasterDecision s) := by
  unfold execPowerMasterDecision
  apply Answers.next
  (repeat' split) <;> apply_rules [Keeps.standbyRuns, Keeps.decide1]

theorem answers_execMasterTakeover (hs : F.Keeps l s) (hf : ∀ f, F.field f) : F.Answers l (execMasterTakeover s) := by
  unfold execMasterTakeover
  dsimp only
  apply Answers.next
  apply_rules [Keeps.event, Keeps.ite, Keeps.modField]

theorem Keeps.forceStep {watts : Nat} (hs : F.Keeps l s) (hf : F.Fields) : F.Keeps l (s.forceStep watts) := by
  unfold State.forceStep
  exact ((hs.stepAll hf.field).setWatch hf.boot).event

theorem answers_execHedgerowPowerSample {watts amps : Nat} (hs : F.Keeps l s) (hf : F.Fields) (hy : F.sensors) :
    F.Answers l (execHedgerowPowerSample watts amps s) := by
  unfold execHedgerowPowerSample
  have hv (w : Watch) : F.Keeps l (({ s with watch := w } : State).moduleSensor 1 1000 amps) := (hs.setWatch hf.boot).moduleSensor hy
  exact .next (.ite hs (.ite ((hv _).forceStep hf) (hv _)))

theorem answers_execEstScaleCalibrate {measured estimated : Nat} (hs : F.Keeps l s) (hf : ∀ f,
    F.field f) : F.Answers l (execEstScaleCalibrate measured estimated s) := by
  unfold execEstScaleCalibrate
  refine .next (.ite (Keeps.bothMasters ?_ hf) hs)
  split
  · exact hs.freeVal
  · exact hs.roundFree

theorem answers_execCurrentLimit (hs : F.Keeps l s) (hf : ∀ f, F.field f) : F.Answers l (execCurrentLimit s) := by
  unfold execCurrentLimit
  exact .next (hs.foldl fun _ _ hv => .ite (hv.freeVal.freeVal.droop hf) hv)

theorem answers_execFieldThermClear {f : Nat} (hs : F.Keeps l s) (hf : ∀ f, F.field f) : F.Answers l (execFieldThermClear f s) := by
  unfold execFieldThermClear
  apply Answers.next
  apply_rules [Keeps.modField]

theorem answers_execAutoReturn {f : Nat} (hs : F.Keeps l s) (hf : ∀ f, F.field f) : F.Answers l (execAutoReturn f s) := by
  unfold execAutoReturn
  dsimp only
  apply Answers.next
  (repeat' split) <;> apply_rules [Keeps.startReturn]

theorem answers_execInsulationCheckDone {f coreMa memMa : Nat} (hs : F.Keeps l s) (hf : ∀ f, F.field f) :
    F.Answers l (execInsulationCheckDone f coreMa memMa s) := by
  unfold execInsulationCheckDone
  dsimp only
  apply Answers.next
  (repeat' split) <;> apply_rules [Keeps.event, Keeps.modField]

theorem Keeps.withhold {point : Nat} (hs : F.Keeps l s) (hf : F.Fields) : F.Keeps l (s.withhold point) := by
  unfold State.withhold
  exact (hs.setCond hf.cond hf.tables).foldl fun _ _ hv => .ite ((hv.modField (hf.field _)).clkOrder hf.field) (hv.modField (hf.field _))

theorem answers_execTrimRaise {f point day : Nat} (hs : F.Keeps l s) (hf : F.Fields) : F.Answers l (execTrimRaise f point day s) := by
  unfold execTrimRaise
  dsimp only
  apply Answers.next
  apply_rules [Keeps.event, Keeps.withhold, Keeps.ite, Fields.field, Keeps.modField]

theorem Keeps.bootTo {step : Nat} (hs : F.Keeps l s) (hf : F.Fields) : F.Keeps l (s.bootTo step) := by
  unfold State.bootTo
  apply_rules [Keeps.event, Keeps.ite, Fields.boot, Keeps.setBoot]

theorem Keeps.stepBoot (hs : F.Keeps l s) (hf : F.Fields) : F.Keeps l (s.stepBoot) := by
  unfold State.stepBoot
  dsimp only
  apply_rules [Keeps.bootTo, Keeps.ite]

theorem answers_execSoakDone {f : Nat} {temp : Int} (hs : F.Keeps l s) (hf : F.Fields) : F.Answers l (execSoakDone f temp s) := by
  unfold execSoakDone
  dsimp only
  apply Answers.next
  apply_rules [Keeps.modSvc, Keeps.event, Keeps.stepBoot, Keeps.ite, Fields.field]

theorem Keeps.groupCap (hs : F.Keeps l s) (hf : ∀ f, F.field f) : F.Keeps l s.groupCap := by
  have hr (p : Prop) [Decidable p] (x : Rat) : F.Keeps l (if p then (0, s) else s.roundFree x).2 := by
    split
    · exact hs
    · exact hs.roundFree
  unfold State.groupCap
  exact .ite (hr ..) ((hr ..).bothMasters hf).event

theorem answers_execPowerNoteExpiry (hs : F.Keeps l s) (hf : F.Fields) : F.Answers l (execPowerNoteExpiry s) := by
  unfold execPowerNoteExpiry
  apply Answers.next
  apply_rules [Keeps.groupCap, Keeps.ite, Fields.field, Fields.cond, Fields.tables, Keeps.setCond]

theorem Keeps.takeHalt {f e : Nat} {i : Nat} (hs : F.Keeps l s) (hf : ∀ f, F.field f) : F.Keeps l (s.takeHalt f e i) := by
  unfold State.takeHalt
  dsimp only
  apply_rules [Keeps.event, Keeps.ite, Keeps.modField]

theorem answers_execHaltScan {f : Nat} (hs : F.Keeps l s) (hf : ∀ f, F.field f) : F.Answers l (execHaltScan f s) := by
  unfold execHaltScan
  dsimp only
  apply Answers.next
  apply_rules [Keeps.takeHalt, Keeps.ite, Keeps.foldl, Keeps.modField] <;> intros <;> apply_rules [Keeps.takeHalt, Keeps.ite, Keeps.foldl, Keeps.modField]
theorem answers_execFaultLogPoll (hs : F.Keeps l s) (hf : F.Fields) : F.Answers l (execFaultLogPoll s) := by
  unfold execFaultLogPoll
  exact .next (.ite (Keeps.setCond (hs.foldl fun _ _ hv => .ite hv (hv.modField (hf.field _))) hf.cond hf.tables) hs)

theorem answers_execFltRead {f tail : Nat} (hs : F.Keeps l s) (hf : ∀ f, F.field f) : F.Answers l (execFltRead f tail s) := by
  unfold execFltRead
  apply Answers.next
  apply_rules [Keeps.ite, Keeps.modField]

theorem answers_execRowRefresh {t : TileId} {row : Nat} (hs : F.Keeps l s) (hf : ∀ f, F.field f) : F.Answers l (execRowRefresh t row s) := by
  unfold execRowRefresh
  dsimp only
  apply Answers.next
  apply_rules [Keeps.ite, Keeps.setField]

theorem answers_execRefreshDerate {f : Nat} {temp : Int} (hs : F.Keeps l s) (hf : ∀ f, F.field f) : F.Answers l (execRefreshDerate f temp s) := by
  unfold execRefreshDerate
  dsimp only
  apply Answers.next
  apply_rules [Keeps.ite, Keeps.setField]

theorem answers_execRefreshRestore {f : Nat} {temps : List Int} (hs : F.Keeps l s) (hf : ∀ f, F.field f) : F.Answers l (execRefreshRestore f temps s) := by
  unfold execRefreshRestore
  dsimp only
  apply Answers.next
  apply_rules [Keeps.ite, Keeps.setField]

theorem Keeps.sendOrder {kind op at_ : Nat} (hs : F.Keeps l s) (hf : F.Fields) : F.Keeps l (s.sendOrder kind op at_) := by
  unfold State.sendOrder
  apply_rules [Keeps.clkOrder, Keeps.ite, Fields.field, Fields.cond, Fields.tables, Keeps.setCond] <;> intros
      <;> apply_rules [Keeps.clkOrder, Keeps.ite, Fields.field, Fields.cond, Fields.tables, Keeps.setCond]
theorem answers_execHeldOrderWrite (hs : F.Keeps l s) (hf : F.Fields) : F.Answers l (execHeldOrderWrite s) := by
  unfold execHeldOrderWrite
  dsimp only
  apply Answers.next
  apply_rules [Keeps.sendOrder, Keeps.ite, Keeps.foldl, Fields.cond, Fields.tables, Keeps.setCond] <;> intros
      <;> apply_rules [Keeps.sendOrder, Keeps.ite, Keeps.foldl, Fields.cond, Fields.tables, Keeps.setCond]
theorem Keeps.flashRec {r : Rec} (hs : F.Keeps l s) : F.Keeps l (s.flashRec r) := by
  unfold State.flashRec
  dsimp only
  (repeat' split) <;> apply_rules [Keeps.setScarab]

theorem Keeps.flush (hs : F.Keeps l s) : F.Keeps l (s.flush) := by
  unfold State.flush
  dsimp only
  apply_rules [Keeps.flashRec, Keeps.foldl, Keeps.setScarab] <;> intros <;> apply_rules [Keeps.flashRec, Keeps.foldl, Keeps.setScarab]
theorem answers_execScarabFlush (hs : F.Keeps l s) : F.Answers l (execScarabFlush s) := by
  unfold execScarabFlush
  apply Answers.next
  apply_rules [Keeps.flush, Keeps.ite]

theorem answers_execConductorSilenceCheck (hs : F.Keeps l s) (hf : F.Fields) : F.Answers l (execConductorSilenceCheck s) := by
  unfold execConductorSilenceCheck
  dsimp only
  apply Answers.next
  apply_rules [Keeps.event, Keeps.ite, Fields.cond, Fields.tables, Keeps.setCond]

theorem answers_execProfileAgeUpdate {f : Nat} (hs : F.Keeps l s) (hf : ∀ f, F.field f) : F.Answers l (execProfileAgeUpdate f s) := by
  unfold execProfileAgeUpdate
  apply Answers.next
  apply_rules [Keeps.ite, Keeps.modField]

end Scope
end Sys2Proof.Machine
end

section
/-! PROOFS. The array's and the fields' commands (O53). -/

namespace Sys2Proof.Machine
namespace Scope

/-- What a command of the core or array family may change: the ports only CTRL_WRITE, the host nodes only PATROL_SCRUB,
    the conductor's tables only three commands. -/
def ofArray (c : Instr) : Scope where
  tile _ := True
  reg _ _ := True
  cells _ := .any
  field _ := True
  mesh := True
  ports := ∃ x sp b, c = .ctrlWrite x sp b
  hosts := ∃ f es, c = .patrolScrub f es
  tables := ∃ t f, c = .tileResetOrder t ∨ c = .mapSwitch ∨ c = .cellLostSweep f
  cond := False
  boot := False
  syncReply := ∃ x o, c = .hedgerowSyncDebug x o
  sensors := False
  outer := False

/-- What a command of the field family may change. -/
def ofField (c : Instr) : Scope where
  tile _ := False
  reg _ _ := False
  cells _ := .same
  field _ := True
  mesh := False
  ports := False
  hosts := False
  tables := True
  cond := True
  boot := True
  syncReply := False
  sensors := ∃ w a, c = .hedgerowPowerSample w a
  outer := False

theorem array_ok (c : Instr) : (ofArray c).Array := ⟨fun _ => trivial, fun _ _ => trivial, fun _ => rfl, fun _ => trivial, trivial⟩

theorem fields_ok (c : Instr) : (ofField c).Fields := ⟨fun _ => trivial, trivial, trivial, trivial⟩

/-- The commands of the core and array families keep their scope. -/
theorem answers_array (c : Instr) (s : State) (hf : family c = .core ∨ family c = .array) : (ofArray c).Answers s (exec c s) := by
  cases c with
  | rvInstruction => exact answers_execRvInstruction (.refl _ s) ((array_ok _).core _) ((array_ok _).reg _) ((array_ok _).any _)
  | coreLoad => exact answers_execCoreLoad (.refl _ s) ((array_ok _).core _) ((array_ok _).reg _ _)
  | coreStore => exact answers_execCoreStore (.refl _ s) ((array_ok _).core _) ((array_ok _).reg _) ((array_ok _).any _)
  | csrAccess => exact answers_execCsrAccess (.refl _ s) ((array_ok _).core _) ((array_ok _).reg _ _)
  | ecall => exact answers_execEcall (.refl _ s) ((array_ok _).core _)
  | ebreak => exact answers_execEbreak (.refl _ s) ((array_ok _).core _)
  | stallConditionMet => exact answers_execStallConditionMet (.refl _ s) ((array_ok _).core _) ((array_ok _).reg _) ((array_ok _).any _)
  | stallWatchdogExpiry => exact answers_execStallWatchdogExpiry (.refl _ s) ((array_ok _).core _) ((array_ok _).reg _) ((array_ok _).any _)
  | qopen => exact answers_execQopen (.refl _ s) ((array_ok _).core _) ((array_ok _).reg _ _)
  | qclose => exact answers_execQclose (.refl _ s) ((array_ok _).core _) ((array_ok _).reg _ _)
  | qsend => exact answers_execQsend (.refl _ s) ((array_ok _).core _) ((array_ok _).reg _ _) ((array_ok _).not_same _)
  | qtrysend => exact answers_execQtrysend (.refl _ s) ((array_ok _).core _) ((array_ok _).reg _ _) ((array_ok _).not_same _)
  | qrecv => exact answers_execQrecv (.refl _ s) ((array_ok _).core _) ((array_ok _).reg _ _) ((array_ok _).any _)
  | qtryrecv => exact answers_execQtryrecv (.refl _ s) ((array_ok _).core _) ((array_ok _).reg _ _) ((array_ok _).any _)
  | qselect => exact answers_execQselect (.refl _ s) ((array_ok _).core _) ((array_ok _).reg _ _)
  | qstat => exact answers_execQstat (.refl _ s) ((array_ok _).core _) ((array_ok _).reg _ _)
  | swait => exact answers_execSwait (.refl _ s) ((array_ok _).core _) ((array_ok _).reg _ _)
  | ssignal => exact answers_execSsignal (.refl _ s) ((array_ok _).core _) ((array_ok _).reg _ _)
  | sfence => exact answers_execSfence (.refl _ s) ((array_ok _).core _) ((array_ok _).reg _ _)
  | sread => exact answers_execSread (.refl _ s) ((array_ok _).core _) ((array_ok _).reg _ _)
  | fpush => exact answers_execFpush (.refl _ s) ((array_ok _).core _) ((array_ok _).reg _ _)
  | fsteal => exact answers_execFsteal (.refl _ s) ((array_ok _).core _) ((array_ok _).reg _ _)
  | fwait => exact answers_execFwait (.refl _ s) ((array_ok _).core _) ((array_ok _).reg _ _)
  | hset => exact answers_execHset (.refl _ s) ((array_ok _).core _) ((array_ok _).reg _ _)
  | hclr => exact answers_execHclr (.refl _ s) ((array_ok _).core _) ((array_ok _).reg _ _)
  | ldt => exact answers_execLdt (.refl _ s) ((array_ok _).core _) ((array_ok _).reg _ _) ((array_ok _).not_same _)
  | stt => exact answers_execStt (.refl _ s) ((array_ok _).core _) ((array_ok _).reg _ _) ((array_ok _).any _)
  | tfill => exact answers_execTfill (.refl _ s) ((array_ok _).core _) ((array_ok _).reg _ _) ((array_ok _).not_same _)
  | dload => exact answers_execDload (.refl _ s) ((array_ok _).core _) ((array_ok _).reg _ _) ((array_ok _).any _)
  | dswitch => exact answers_execDswitch (.refl _ s) ((array_ok _).core _) ((array_ok _).reg _ _)
  | dpurge => exact answers_execDpurge (.refl _ s) ((array_ok _).core _) ((array_ok _).reg _ _) ((array_ok _).not_same _)
  | dsample => exact answers_execDsample (.refl _ s) ((array_ok _).core _) ((array_ok _).reg _ _)
  | wopen => exact answers_execWopen (.refl _ s) ((array_ok _).core _) ((array_ok _).reg _ _)
  | wclose => exact answers_execWclose (.refl _ s) ((array_ok _).core _) ((array_ok _).reg _ _)
  | xput => exact answers_execXput (.refl _ s) ((array_ok _).core _) ((array_ok _).reg _ _) ((array_ok _).not_same _)
  | xget => exact answers_execXget (.refl _ s) ((array_ok _).core _) ((array_ok _).reg _ _)
  | unitStart => exact answers_execUnitStart (.refl _ s) (array_ok _)
  | unitRetire => exact answers_execUnitRetire (.refl _ s) (array_ok _)
  | intraTileSteal => exact answers_execIntraTileSteal (.refl _ s) (array_ok _)
  | stealSearch => exact answers_execStealSearch (.refl _ s) (array_ok _)
  | stealBackoffExpiry => exact answers_execStealBackoffExpiry (.refl _ s) (array_ok _)
  | stealReturnTimeout => exact answers_execStealReturnTimeout (.refl _ s) (array_ok _)
  | stealFailureNotice => exact answers_execStealFailureNotice (.refl _ s) (array_ok _)
  | engineSleep => exact answers_execEngineSleep (.refl _ s) (array_ok _)
  | ctrlWrite => exact answers_execCtrlWrite (.refl _ s) (array_ok _) ⟨_, _, _, rfl⟩
  | ctrlRead => exact answers_execCtrlRead (.refl _ s) (array_ok _)
  | ctrlOrderAdmit => exact answers_execCtrlOrderAdmit (.refl _ s) (array_ok _)
  | ctrlOrderSwitch => exact answers_execCtrlOrderSwitch (.refl _ s) (array_ok _)
  | ctrlOrderDload => exact answers_execCtrlOrderDload (.refl _ s) (array_ok _)
  | ctrlOrderSample => exact answers_execCtrlOrderSample (.refl _ s) (array_ok _)
  | ctrlReply => exact answers_execCtrlReply (.refl _ s) (array_ok _)
  | tileResetOrder => exact answers_execTileResetOrder (.refl _ s) (array_ok _) ⟨_, 0, .inl rfl⟩
  | openArrives => exact answers_execOpenArrives (.refl _ s) (array_ok _)
  | probe => exact answers_execProbe (.refl _ s) (array_ok _)
  | senderClose => exact answers_execSenderClose (.refl _ s) (array_ok _)
  | readerNotice => exact answers_execReaderNotice (.refl _ s) (array_ok _)
  | closeAfterLoss => exact answers_execCloseAfterLoss (.refl _ s) (array_ok _)
  | recordTimeout => exact answers_execRecordTimeout (.refl _ s) (array_ok _)
  | steal => exact answers_execSteal (.refl _ s) (array_ok _)
  | operandRead => exact answers_execOperandRead (.refl _ s) (array_ok _)
  | syncWait => exact answers_execSyncWait (.refl _ s) (array_ok _)
  | syncSignal => exact answers_execSyncSignal (.refl _ s) (array_ok _)
  | syncPostedSignal => exact answers_execSyncPostedSignal (.refl _ s) (array_ok _)
  | syncRead => exact answers_execSyncRead (.refl _ s) (array_ok _)
  | syncCancel => exact answers_execSyncCancel (.refl _ s) (array_ok _)
  | syncWaitResend => exact answers_execSyncWaitResend (.refl _ s) (array_ok _)
  | staleReleaseRefused => exact answers_execStaleReleaseRefused (.refl _ s) (array_ok _)
  | remoteRead => exact answers_execRemoteRead (.refl _ s) (array_ok _)
  | remoteWrite => exact answers_execRemoteWrite (.refl _ s) (array_ok _)
  | windowHeldServe => exact answers_execWindowHeldServe (.refl _ s) (array_ok _)
  | windowHoldTimeout => exact answers_execWindowHoldTimeout (.refl _ s) (array_ok _)
  | windowDeadline => exact answers_execWindowDeadline (.refl _ s) (array_ok _)
  | reply => exact answers_execReply (.refl _ s) (array_ok _)
  | status => exact answers_execStatus (.refl _ s) (array_ok _)
  | grant => exact answers_execGrant (.refl _ s) (array_ok _)
  | connectionCredit => exact answers_execConnectionCredit (.refl _ s) (array_ok _)
  | tokenCredit => exact answers_execTokenCredit (.refl _ s) (array_ok _)
  | stealReply => exact answers_execStealReply (.refl _ s) (array_ok _)
  | message => exact answers_execMessage (.refl _ s) (array_ok _)
  | combine => exact answers_execCombine (.refl _ s) (array_ok _)
  | combineFoldDone => exact answers_execCombineFoldDone (.refl _ s) (array_ok _)
  | token => exact answers_execToken (.refl _ s) (array_ok _)
  | result => exact answers_execResult (.refl _ s) (array_ok _)
  | multicast => exact answers_execMulticast (.refl _ s) (array_ok _)
  | routePacket => exact answers_execRoutePacket (.refl _ s) (array_ok _)
  | tokenRetryResend => exact answers_execTokenRetryResend (.refl _ s) (array_ok _)
  | firingIssue => exact answers_execFiringIssue (.refl _ s) (array_ok _)
  | tokenEmit => exact answers_execTokenEmit (.refl _ s) (array_ok _)
  | firingComplete => exact answers_execFiringComplete (.refl _ s) (array_ok _)
  | sourceFire => exact answers_execSourceFire (.refl _ s) (array_ok _)
  | tokenOrphan => exact answers_execTokenOrphan (.refl _ s) (array_ok _)
  | foldScheduleMove => exact answers_execFoldScheduleMove (.refl _ s) (array_ok _)
  | foldSwitchAtT => exact answers_execFoldSwitchAtT (.refl _ s) (array_ok _)
  | profileSample => exact answers_execProfileSample (.refl _ s) (array_ok _)
  | slotArm => exact answers_execSlotArm (.refl _ s) (array_ok _)
  | syncCellWrite => exact answers_execSyncCellWrite (.refl _ s) (array_ok _)
  | syncDebugCore => exact answers_execSyncDebugCore (.refl _ s) (array_ok _)
  | syncDebugAll => exact answers_execSyncDebugAll (.refl _ s) (array_ok _)
  | syncRecWrite => exact answers_execSyncRecWrite (.refl _ s) (array_ok _)
  | hedgerowSyncDebug => exact answers_execHedgerowSyncDebug (.refl _ s) (array_ok _) ⟨_, _, rfl⟩
  | rqEnable => exact answers_execRqEnable (.refl _ s) (array_ok _)
  | rqDisable => exact answers_execRqDisable (.refl _ s) (array_ok _)
  | connProbe => exact answers_execConnProbe (.refl _ s) (array_ok _)
  | patrolScrub => exact answers_execPatrolScrub (.refl _ s) (array_ok _) ⟨_, _, rfl⟩
  | mapInjectionPause => exact answers_execMapInjectionPause (.refl _ s) (array_ok _)
  | mapSwitch => exact answers_execMapSwitch (.refl _ s) (array_ok _) ⟨⟨0, 0⟩, 0, .inr (.inl rfl)⟩
  | fenceSettleLocal => exact answers_execFenceSettleLocal (.refl _ s) (array_ok _)
  | fenceSettleRemote => exact answers_execFenceSettleRemote (.refl _ s) (array_ok _)
  | distTablePublish => exact answers_execDistTablePublish (.refl _ s) (array_ok _).mesh
  | cellLostSweep => exact answers_execCellLostSweep (.refl _ s) (array_ok _) ⟨⟨0, 0⟩, _, .inr (.inr rfl)⟩
  | remoteRetryResend => exact answers_execRemoteRetryResend (.refl _ s) (array_ok _)
  | heartbeatLoss => exact answers_execHeartbeatLoss (.refl _ s) (array_ok _)
  | monitorModeSwitch => exact answers_execMonitorModeSwitch (.refl _ s) (array_ok _)
  | epochEnd => exact answers_execEpochEnd (.refl _ s) (array_ok _)
  | thatchEngage => exact answers_execThatchEngage (.refl _ s) (array_ok _)
  | thatchRampDownStep => exact answers_execThatchRampDownStep (.refl _ s) (array_ok _)
  | thatchRampUpStep => exact answers_execThatchRampUpStep (.refl _ s) (array_ok _)
  | _ => rcases hf with h | h <;> cases h

/-- The commands of the field family keep theirs. -/
theorem answers_field (c : Instr) (s : State) (hf : family c = .field) : (ofField c).Answers s (exec c s) := by
  cases c with
  | conductorSilenceCheck => exact answers_execConductorSilenceCheck (.refl _ s) (fields_ok _)
  | rowRefresh => exact answers_execRowRefresh (.refl _ s) (fields_ok _).field
  | refreshDerate => exact answers_execRefreshDerate (.refl _ s) (fields_ok _).field
  | refreshRestore => exact answers_execRefreshRestore (.refl _ s) (fields_ok _).field
  | powerNoteExpiry => exact answers_execPowerNoteExpiry (.refl _ s) (fields_ok _)
  | waferTimeBroadcast => exact answers_execWaferTimeBroadcast (.refl _ s) (fields_ok _).field
  | railDroop => exact answers_execRailDroop (.refl _ s) (fields_ok _).field
  | marginStop => exact answers_execMarginStop (.refl _ s) (fields_ok _).field
  | marginRestart => exact answers_execMarginRestart (.refl _ s) (fields_ok _).field
  | crossingCalibrate => exact answers_execCrossingCalibrate (.refl _ s) (fields_ok _).field
  | clkOrderOpStep => exact answers_execClkOrderOpStep (.refl _ s) (fields_ok _).field
  | clkOrderEnterMonitor => exact answers_execClkOrderEnterMonitor (.refl _ s) (fields_ok _).field
  | clkOrderLeaveMonitor => exact answers_execClkOrderLeaveMonitor (.refl _ s) (fields_ok _).field
  | opStep => exact answers_execOpStep (.refl _ s) (fields_ok _).field
  | relockDone => exact answers_execRelockDone (.refl _ s) (fields_ok _).field
  | monitorSteerEpoch => exact answers_execMonitorSteerEpoch (.refl _ s) (fields_ok _).field
  | marginLowWrite => exact answers_execMarginLowWrite (.refl _ s) (fields_ok _).field
  | wtLoRead => exact answers_execWtLoRead (.refl _ s) (fields_ok _).field
  | powerMasterDecision => exact answers_execPowerMasterDecision (.refl _ s) (fields_ok _).field
  | masterTakeover => exact answers_execMasterTakeover (.refl _ s) (fields_ok _).field
  | pwrStepCap => exact answers_execPwrStepCap (.refl _ s) (fields_ok _).field
  | pwrStepThermal => exact answers_execPwrStepThermal (.refl _ s) (fields_ok _).field
  | pwrStepForced => exact answers_execPwrStepForced (.refl _ s) (fields_ok _).field
  | hedgerowPowerSample => exact answers_execHedgerowPowerSample (.refl _ s) (fields_ok _) ⟨_, _, rfl⟩
  | estScaleCalibrate => exact answers_execEstScaleCalibrate (.refl _ s) (fields_ok _).field
  | currentLimit => exact answers_execCurrentLimit (.refl _ s) (fields_ok _).field
  | autoReturn => exact answers_execAutoReturn (.refl _ s) (fields_ok _).field
  | insulationCheckDone => exact answers_execInsulationCheckDone (.refl _ s) (fields_ok _).field
  | trimRaise => exact answers_execTrimRaise (.refl _ s) (fields_ok _)
  | fieldThermClear => exact answers_execFieldThermClear (.refl _ s) (fields_ok _).field
  | soakDone => exact answers_execSoakDone (.refl _ s) (fields_ok _)
  | haltScan => exact answers_execHaltScan (.refl _ s) (fields_ok _).field
  | faultLogPoll => exact answers_execFaultLogPoll (.refl _ s) (fields_ok _)
  | fltRead => exact answers_execFltRead (.refl _ s) (fields_ok _).field
  | scarabFlush => exact answers_execScarabFlush (.refl _ s)
  | debtRepaid => exact answers_execDebtRepaid (.refl _ s) (fields_ok _).field
  | profileAgeUpdate => exact answers_execProfileAgeUpdate (.refl _ s) (fields_ok _).field
  | heldOrderWrite => exact answers_execHeldOrderWrite (.refl _ s) (fields_ok _)
  | _ => cases hf

end Scope

/-- Settles O53: each family keeps its scope, whatever command of it runs. -/
theorem arrayAndFieldCommandsKeepTheRest : Obligations.ArrayAndFieldCommandsKeepTheRest := by
  unfold Obligations.ArrayAndFieldCommandsKeepTheRest
  refine fun c s u he => ⟨fun hf => ?_, fun hf => ?_⟩
  · have k : (Scope.ofArray c).Keeps s u := by
      have h := Scope.answers_array c s hf
      rwa [he] at h
    obtain ⟨hmb, hflash, hchassis, hglow, hosc, hwafer, htime, hpending⟩ := k.outer id
    obtain ⟨hboot, hwatch⟩ := k.boot id
    have hh : u.hedge = { s.hedge with syncReply := u.hedge.syncReply } := (k.hedge id).trans (by rw [k.sensors id])
    refine ⟨hmb, hboot, htime, hflash, hwatch, hchassis, hglow, hosc, hwafer, hpending, hh, fun n => ?_, k.cond id, fun n => k.tables ?_,
      fun n => k.ports ?_, fun n => k.hosts ?_⟩
    · rw [hh, k.syncReply fun ⟨x, o, e⟩ => n x o e]
    · rintro ⟨t, f, e⟩
      obtain ⟨h1, h2, h3⟩ := n t f
      exact e.elim h1 (·.elim h2 h3)
    · exact fun ⟨x, sp, b, e⟩ => n x sp b e
    · exact fun ⟨f, es, e⟩ => n f es e
  · have k : (Scope.ofField c).Keeps s u := by
      have h := Scope.answers_field c s hf
      rwa [he] at h
    obtain ⟨hmb, hflash, hchassis, hglow, hosc, hwafer, htime, -⟩ := k.outer id
    have hh : u.hedge = { s.hedge with sensors := u.hedge.sensors } := (k.hedge id).trans (by rw [k.syncReply id])
    refine ⟨k.tiles fun _ => id, k.mesh id, k.ports id, k.hosts id, hmb, hh, fun n => ?_, hflash, hchassis, hglow, hosc, hwafer, htime⟩
    rw [hh, k.sensors fun ⟨w, a, e⟩ => n w a e]

end Sys2Proof.Machine
end

section
/-! PROOFS. A core's commands (O52). -/

namespace Sys2Proof.Machine
namespace Scope

/-- What a command of tile t's core may change: that tile (the registers that regs lists, and bytes as b says), its field and the mesh. -/
def ofCore (t : TileId) (regs : Nat → Prop) (b : Bytes) : Scope where
  tile k := k = tileKey t
  reg _ r := regs r
  cells _ := b
  field f := f = fieldOf t
  mesh := True
  ports := False
  hosts := False
  tables := False
  cond := False
  boot := False
  syncReply := False
  sensors := False
  outer := False

theorem core_ok (t : TileId) (regs : Nat → Prop) (b : Bytes) : (ofCore t regs b).Core t := ⟨rfl, rfl, trivial⟩

section

variable {F : Scope} {t : TileId} (s : State) (a : XArgs) (x : LsArgs) (st : Stream) (csr : Nat) (op : CsrOp) (rd rs1 : Nat)

/-- Every command of a core, where its tile may change freely. -/
theorem answers_core (hc : F.Core t) (hr : ∀ r, F.reg (tileKey t) r) (hb : F.cells (tileKey t) = .any) :
    ∀ c ∈ ([.rvInstruction t, .coreLoad t x, .coreStore t x, .csrAccess t csr op rd rs1, .ecall t, .ebreak t, .stallConditionMet t st,
      .stallWatchdogExpiry t st, .qopen t a, .qclose t a, .qsend t a, .qtrysend t a, .qrecv t a, .qtryrecv t a, .qselect t a, .qstat t a, .swait t a,
      .ssignal t a, .sfence t a, .sread t a, .fpush t a, .fsteal t a, .fwait t a, .hset t a, .hclr t a, .ldt t a, .stt t a, .tfill t a, .dload t a,
      .dswitch t a, .dpurge t a, .dsample t a, .wopen t a, .wclose t a, .xput t a, .xget t a] : List Instr), F.Answers s (exec c s) := by
  simp only [List.forall_mem_cons]
  exact ⟨answers_execRvInstruction (.refl F s) hc hr hb,
    answers_execCoreLoad (.refl F s) hc (hr _),
    answers_execCoreStore (.refl F s) hc hr hb,
    answers_execCsrAccess (.refl F s) hc (hr _),
    answers_execEcall (.refl F s) hc,
    answers_execEbreak (.refl F s) hc,
    answers_execStallConditionMet (.refl F s) hc hr hb,
    answers_execStallWatchdogExpiry (.refl F s) hc hr hb,
    answers_execQopen (.refl F s) hc (hr _),
    answers_execQclose (.refl F s) hc (hr _),
    answers_execQsend (.refl F s) hc (hr _) (not_same hb),
    answers_execQtrysend (.refl F s) hc (hr _) (not_same hb),
    answers_execQrecv (.refl F s) hc (hr _) hb,
    answers_execQtryrecv (.refl F s) hc (hr _) hb,
    answers_execQselect (.refl F s) hc (hr _),
    answers_execQstat (.refl F s) hc (hr _),
    answers_execSwait (.refl F s) hc (hr _),
    answers_execSsignal (.refl F s) hc (hr _),
    answers_execSfence (.refl F s) hc (hr _),
    answers_execSread (.refl F s) hc (hr _),
    answers_execFpush (.refl F s) hc (hr _),
    answers_execFsteal (.refl F s) hc (hr _),
    answers_execFwait (.refl F s) hc (hr _),
    answers_execHset (.refl F s) hc (hr _),
    answers_execHclr (.refl F s) hc (hr _),
    answers_execLdt (.refl F s) hc (hr _) (not_same hb),
    answers_execStt (.refl F s) hc (hr _) hb,
    answers_execTfill (.refl F s) hc (hr _) (not_same hb),
    answers_execDload (.refl F s) hc (hr _) hb,
    answers_execDswitch (.refl F s) hc (hr _),
    answers_execDpurge (.refl F s) hc (hr _) (not_same hb),
    answers_execDsample (.refl F s) hc (hr _),
    answers_execWopen (.refl F s) hc (hr _),
    answers_execWclose (.refl F s) hc (hr _),
    answers_execXput (.refl F s) hc (hr _) (not_same hb),
    answers_execXget (.refl F s) hc (hr _), fun _ h => nomatch h⟩

/-- An Xkyoro instruction writes no register but rd. -/
theorem answers_named (hc : F.Core t) (hr : F.reg (tileKey t) a.rd) (hb : F.cells (tileKey t) = .any) :
    ∀ c ∈ ([.qopen t a, .qclose t a, .qsend t a, .qtrysend t a, .qrecv t a, .qtryrecv t a, .qselect t a, .qstat t a, .swait t a, .ssignal t a, .sfence t
      a, .sread t a, .fpush t a, .fsteal t a, .fwait t a, .hset t a, .hclr t a, .ldt t a, .stt t a, .tfill t a, .dload t a, .dswitch t a, .dpurge t a,
      .dsample t a, .wopen t a, .wclose t a, .xput t a, .xget t a] : List Instr), F.Answers s (exec c s) := by
  simp only [List.forall_mem_cons]
  exact ⟨answers_execQopen (.refl F s) hc hr,
    answers_execQclose (.refl F s) hc hr,
    answers_execQsend (.refl F s) hc hr (not_same hb),
    answers_execQtrysend (.refl F s) hc hr (not_same hb),
    answers_execQrecv (.refl F s) hc hr hb,
    answers_execQtryrecv (.refl F s) hc hr hb,
    answers_execQselect (.refl F s) hc hr,
    answers_execQstat (.refl F s) hc hr,
    answers_execSwait (.refl F s) hc hr,
    answers_execSsignal (.refl F s) hc hr,
    answers_execSfence (.refl F s) hc hr,
    answers_execSread (.refl F s) hc hr,
    answers_execFpush (.refl F s) hc hr,
    answers_execFsteal (.refl F s) hc hr,
    answers_execFwait (.refl F s) hc hr,
    answers_execHset (.refl F s) hc hr,
    answers_execHclr (.refl F s) hc hr,
    answers_execLdt (.refl F s) hc hr (not_same hb),
    answers_execStt (.refl F s) hc hr hb,
    answers_execTfill (.refl F s) hc hr (not_same hb),
    answers_execDload (.refl F s) hc hr hb,
    answers_execDswitch (.refl F s) hc hr,
    answers_execDpurge (.refl F s) hc hr (not_same hb),
    answers_execDsample (.refl F s) hc hr,
    answers_execWopen (.refl F s) hc hr,
    answers_execWclose (.refl F s) hc hr,
    answers_execXput (.refl F s) hc hr (not_same hb),
    answers_execXget (.refl F s) hc hr, fun _ h => nomatch h⟩

/-- What writes no byte. -/
theorem answers_still (hc : F.Core t) (hr : ∀ r, F.reg (tileKey t) r) :
    ∀ c ∈ ([.coreLoad t x, .csrAccess t csr op rd rs1, .ecall t, .ebreak t, .qopen t a, .qclose t a, .qselect t a, .qstat t a, .swait t a, .ssignal t a,
      .sfence t a, .sread t a, .fpush t a, .fsteal t a, .fwait t a, .hset t a, .hclr t a, .dswitch t a, .dsample t a, .wopen t a, .wclose t a, .xget t
      a] : List Instr), F.Answers s (exec c s) := by
  simp only [List.forall_mem_cons]
  exact ⟨answers_execCoreLoad (.refl F s) hc (hr _),
    answers_execCsrAccess (.refl F s) hc (hr _),
    answers_execEcall (.refl F s) hc,
    answers_execEbreak (.refl F s) hc,
    answers_execQopen (.refl F s) hc (hr _),
    answers_execQclose (.refl F s) hc (hr _),
    answers_execQselect (.refl F s) hc (hr _),
    answers_execQstat (.refl F s) hc (hr _),
    answers_execSwait (.refl F s) hc (hr _),
    answers_execSsignal (.refl F s) hc (hr _),
    answers_execSfence (.refl F s) hc (hr _),
    answers_execSread (.refl F s) hc (hr _),
    answers_execFpush (.refl F s) hc (hr _),
    answers_execFsteal (.refl F s) hc (hr _),
    answers_execFwait (.refl F s) hc (hr _),
    answers_execHset (.refl F s) hc (hr _),
    answers_execHclr (.refl F s) hc (hr _),
    answers_execDswitch (.refl F s) hc (hr _),
    answers_execDsample (.refl F s) hc (hr _),
    answers_execWopen (.refl F s) hc (hr _),
    answers_execWclose (.refl F s) hc (hr _),
    answers_execXget (.refl F s) hc (hr _), fun _ h => nomatch h⟩

/-- What writes a byte only where it arms a slot. -/
theorem answers_arming (hc : F.Core t) (hr : ∀ r, F.reg (tileKey t) r) (hb : F.cells (tileKey t) ≠ .same) :
    ∀ c ∈ ([.ldt t a, .tfill t a, .qsend t a, .qtrysend t a, .xput t a, .dpurge t a] : List Instr), F.Answers s (exec c s) := by
  simp only [List.forall_mem_cons]
  exact ⟨answers_execLdt (.refl F s) hc (hr _) hb,
    answers_execTfill (.refl F s) hc (hr _) hb,
    answers_execQsend (.refl F s) hc (hr _) hb,
    answers_execQtrysend (.refl F s) hc (hr _) hb,
    answers_execXput (.refl F s) hc (hr _) hb,
    answers_execDpurge (.refl F s) hc (hr _) hb, fun _ h => nomatch h⟩

end

end Scope

/-- Settles O52: each clause is a scope that its commands keep. -/
theorem coreInstructionsKeepTheRest : Obligations.CoreInstructionsKeepTheRest := by
  unfold Obligations.CoreInstructionsKeepTheRest
  intro s u t a x st csr op rd rs1 c he
  have keeps {F : Scope} (h : F.Answers s (exec c s)) : F.Keeps s u := by rwa [he] at h
  have ok (regs : Nat → Prop) (b : Bytes) := Scope.core_ok t regs b
  refine ⟨fun hm => ?_, fun hm r hr => ?_, ?_, ?_, ?_, fun hm => ?_, fun hm hp => ?_⟩
  · have k := keeps (Scope.answers_core s a x st csr op rd rs1 (ok (fun _ => True) .any) (fun _ => trivial) rfl c hm)
    obtain ⟨hmb, hflash, hchassis, hglow, hosc, hwafer, htime, hpending⟩ := k.outer id
    have hh : u.hedge = s.hedge := (k.hedge id).trans (by rw [k.syncReply id, k.sensors id])
    exact ⟨fun v n => (k.tile v).same n, ⟨hh, hflash, (k.boot id).2, hchassis, hglow, hosc, hwafer, hpending⟩, ⟨k.tables id, hmb, (k.boot id).1⟩,
      k.ports id, k.hosts id, htime, fun f n => k.field f n⟩
  · have k := keeps (Scope.answers_named s a (ok (· = a.rd) .any) rfl rfl c hm)
    exact (k.tile t).reg r hr
  · rintro rfl r hr
    exact ((keeps (Scope.answers_execCoreLoad (.refl _ s) (ok (· = x.reg) .any) rfl)).tile t).reg r hr
  · rintro rfl r hr
    exact ((keeps (Scope.answers_execCsrAccess (.refl _ s) (ok (· = rd) .any) rfl)).tile t).reg r hr
  · intro hm
    have raised (code : Nat) : ((if s.coreReady t then s.raise t 0 code 0 0 else s).tile t).core.regs = (s.tile t).core.regs := by
      split
      · rw [State.raise, State.modTile, State.tile_setTile]
        exact (Tile.alike_raise ..).1
      · rfl
    simp only [List.mem_cons, List.not_mem_nil, or_false] at hm
    rcases hm with rfl | rfl
    · cases he
      exact raised _
    · cases he
      exact raised _
  · exact ((keeps (Scope.answers_still s a x csr op rd rs1 (ok (fun _ => True) .same) (fun _ => trivial) c hm)).tile t).cells rfl
  · exact (((keeps (Scope.answers_arming s a (ok (fun _ => True) .arm) (fun _ => trivial) (by simp [Scope.ofCore]) c hm)).tile t).plain rfl hp).2

end Sys2Proof.Machine
end

section
/-! SUPPORT. Scopes: the links of the ports. -/

namespace Sys2Proof.Machine
namespace Scope
variable {F : Scope} {l s : State}

theorem Keeps.enqueue {p : Nat} {x : Pkt} (hs : F.Keeps l s) (ho : F.Open) : F.Keeps l (s.enqueue p x) := by
  unfold State.enqueue
  dsimp only
  apply_rules [Keeps.loseFrame, Keeps.setPort, Keeps.ite, Open.toArray, Open.ports]

theorem answers_execEgressHoldExpiry {p : Nat} (hs : F.Keeps l s) (ho : F.Open) : F.Answers l (execEgressHoldExpiry p s) := by
  unfold execEgressHoldExpiry
  dsimp only
  apply Answers.next
  (repeat' split) <;> apply_rules [Keeps.loseFrame, Keeps.setPort, Open.toArray, Open.ports]

theorem Keeps.retrain {p : Nat} (hs : F.Keeps l s) (ho : F.Open) : F.Keeps l (s.retrain p) := by
  unfold State.retrain
  dsimp only
  (repeat' split) <;> apply_rules [Keeps.setPort, Open.ports]

theorem answers_execLinkAck {p seq : Nat} (hs : F.Keeps l s) (ho : F.Open) : F.Answers l (execLinkAck p seq s) := by
  unfold execLinkAck
  apply Answers.next
  apply_rules [Keeps.modPort, Keeps.ite, Open.ports]

theorem answers_execLinkNak {p seq : Nat} (hs : F.Keeps l s) (ho : F.Open) : F.Answers l (execLinkNak p seq s) := by
  unfold execLinkNak
  dsimp only
  apply Answers.next
  apply_rules [Keeps.retrain, Keeps.setPort, Keeps.ite, Open.ports]

theorem answers_execLinkCredits {p vc n : Nat} (hs : F.Keeps l s) (ho : F.Open) : F.Answers l (execLinkCredits p vc n s) := by
  unfold execLinkCredits
  apply Answers.next
  apply_rules [Keeps.modPort, Keeps.ite, Open.ports]

theorem answers_execLinkIdleAck {p : Nat} (hs : F.Keeps l s) (ho : F.Open) : F.Answers l (execLinkIdleAck p s) := by
  unfold execLinkIdleAck
  apply Answers.next
  apply_rules [Keeps.modPort, Keeps.ite, Open.ports]

theorem answers_execFrameCrcError {p : Nat} (hs : F.Keeps l s) (ho : F.Open) : F.Answers l (execFrameCrcError p s) := by
  unfold execFrameCrcError
  apply Answers.next
  apply_rules [Keeps.modPort, Keeps.ite, Open.ports]

theorem Keeps.laneOff {p lane : Nat} (hs : F.Keeps l s) (ho : F.Open) : F.Keeps l (s.laneOff p lane) := by
  unfold State.laneOff
  dsimp only
  apply_rules [Keeps.event, Keeps.setPort, Keeps.ite, Open.ports]

theorem answers_execLinkLaneOff {p lane : Nat} (hs : F.Keeps l s) (ho : F.Open) : F.Answers l (execLinkLaneOff p lane s) := by
  unfold execLinkLaneOff
  dsimp only
  apply Answers.next
  apply_rules [Keeps.laneOff, Keeps.modPort, Keeps.ite, Open.ports]

theorem answers_execLinkLaneOn {p lane : Nat} (hs : F.Keeps l s) (ho : F.Open) : F.Answers l (execLinkLaneOn p lane s) := by
  unfold execLinkLaneOn
  apply Answers.next
  apply_rules [Keeps.modPort, Keeps.ite, Open.ports]

theorem answers_execLaneRetrainDone {p lane : Nat} {ok : Bool} (hs : F.Keeps l s) (ho : F.Open) : F.Answers l (execLaneRetrainDone p lane ok s) := by
  unfold execLaneRetrainDone
  apply Answers.next
  apply_rules [Keeps.modPort, Keeps.ite, Open.ports]

theorem Keeps.train {p : Nat} (hs : F.Keeps l s) (ho : F.Open) : F.Keeps l (s.train p) := by
  unfold State.train
  dsimp only
  (repeat' split) <;> apply_rules [Keeps.setPort, Open.ports]

theorem answers_execLaneFailure {p lane : Nat} (hs : F.Keeps l s) (ho : F.Open) : F.Answers l (execLaneFailure p lane s) := by
  unfold execLaneFailure
  dsimp only
  apply Answers.next
  apply_rules [Keeps.train, Keeps.laneOff, Keeps.setPort, Keeps.ite, Open.ports]

theorem answers_execPortLightDetected {p : Nat} (hs : F.Keeps l s) (ho : F.Open) : F.Answers l (execPortLightDetected p s) := by
  unfold execPortLightDetected
  apply Answers.next
  apply_rules [Keeps.train, Keeps.ite]

theorem Keeps.freshNonce (hs : F.Keeps l s) : F.Keeps l s.freshNonce.2 := Keeps.foldl_part Prod.snd (fun _ _ hv => hv.freeVal) hs

theorem answers_execTrainingDone {p : Nat} {r : TrainResult} (hs : F.Keeps l s) (ho : F.Open) : F.Answers l (execTrainingDone p r s) := by
  unfold execTrainingDone
  exact .next (.ite ((hs.freshNonce.setPort ho.ports).foldl fun _ _ hv => hv.event) hs)

theorem answers_execTrainingFailed {p : Nat} (hs : F.Keeps l s) (ho : F.Open) : F.Answers l (execTrainingFailed p s) := by
  unfold execTrainingFailed
  dsimp only
  apply Answers.next
  apply_rules [Keeps.setPort, Keeps.portDrop, Keeps.ite, Open.toArray, Open.ports]

theorem answers_execTrainingBackoffExpiry {p : Nat} (hs : F.Keeps l s) (ho : F.Open) : F.Answers l (execTrainingBackoffExpiry p s) := by
  unfold execTrainingBackoffExpiry
  dsimp only
  apply Answers.next
  apply_rules [Keeps.setPort, Keeps.ite, Open.ports]

theorem Keeps.refusePort {p code serial : Nat} (hs : F.Keeps l s) (ho : F.Open) : F.Keeps l (s.refusePort p code serial) := by
  unfold State.refusePort
  apply_rules [Keeps.portDrop, Keeps.modPort, Keeps.event, Keeps.ite, Open.toArray, Open.ports]

theorem Keeps.sayBlock {p : Nat} (hs : F.Keeps l s) (ho : F.Open) : F.Keeps l (s.sayBlock p) := by
  unfold State.sayBlock
  apply_rules [Keeps.modPort, Open.ports]

theorem answers_execHello {p versions nonce : Nat} (hs : F.Keeps l s) (ho : F.Open) : F.Answers l (execHello p versions nonce s) := by
  unfold execHello
  apply Answers.next
  apply_rules [Keeps.sayBlock, Keeps.modPort, Keeps.ite, Open.ports]

theorem Keeps.verifyCap {p : Nat} {b : CapBlock} (hs : F.Keeps l s) (ho : F.Open) : F.Keeps l (s.verifyCap p b) := by
  unfold State.verifyCap
  dsimp only
  (repeat' split) <;> apply_rules [Keeps.refusePort, Keeps.freeVal, Keeps.setPort, Open.ports]

theorem answers_execCap {p : Nat} {b : CapBlock} (hs : F.Keeps l s) (ho : F.Open) : F.Answers l (execCap p b s) := by
  unfold execCap
  dsimp only
  apply Answers.next
  (repeat' split) <;> apply_rules [Keeps.verifyCap, Keeps.setPort, Open.ports]

theorem answers_execCert {x : CertAt} (hs : F.Keeps l s) (ho : F.Open) : F.Answers l (execCert x s) := by
  unfold execCert
  dsimp only
  apply Answers.next
  (repeat' split) <;> apply_rules [Keeps.setPort, Keeps.verifyCap, Open.ports, Keeps.rest]

theorem answers_execMode {p : Nat} {m : LinkMode} {count : Nat} (hs : F.Keeps l s) (ho : F.Open) : F.Answers l (execMode p m count s) := by
  unfold execMode
  dsimp only
  apply Answers.next
  (repeat' split) <;> apply_rules [Keeps.refusePort, Keeps.setPort, Open.ports]

theorem Keeps.recordPartner {p : Nat} {b : CapBlock} (hs : F.Keeps l s) (ho : F.Open) : F.Keeps l (s.recordPartner p b) := by
  unfold State.recordPartner
  dsimp only
  (repeat' split) <;> apply_rules [Keeps.setPort, Keeps.event, Open.ports]

theorem answers_execModeSwitch {x : SwitchAt} (hs : F.Keeps l s) (ho : F.Open) : F.Answers l (execModeSwitch x s) := by
  unfold execModeSwitch
  dsimp only
  apply Answers.next
  (repeat' split) <;> apply_rules [Keeps.recordPartner, Keeps.modPort, Keeps.event, Open.ports]

theorem answers_execNegotiationTimeout {p : Nat} (hs : F.Keeps l s) (ho : F.Open) : F.Answers l (execNegotiationTimeout p s) := by
  unfold execNegotiationTimeout
  apply Answers.next
  apply_rules [Keeps.portDrop, Keeps.ite, Open.toArray, Open.ports]

theorem answers_execRefusedTimeout {p : Nat} (hs : F.Keeps l s) (ho : F.Open) : F.Answers l (execRefusedTimeout p s) := by
  unfold execRefusedTimeout
  apply Answers.next
  apply_rules [Keeps.train, Keeps.ite]

theorem answers_execPortSignalLoss {p : Nat} (hs : F.Keeps l s) (ho : F.Open) : F.Answers l (execPortSignalLoss p s) := by
  unfold execPortSignalLoss
  dsimp only
  apply Answers.next
  apply_rules [Keeps.portDrop, Keeps.ite, Open.toArray, Open.ports]

theorem answers_execLinkClose {p : Nat} (hs : F.Keeps l s) (ho : F.Open) : F.Answers l (execLinkClose p s) := by
  unfold execLinkClose
  dsimp only
  apply Answers.next
  apply_rules [Keeps.portDrop, Keeps.ite, Open.toArray, Open.ports]

theorem answers_execRetrainDone {p : Nat} (hs : F.Keeps l s) (ho : F.Open) : F.Answers l (execRetrainDone p s) := by
  unfold execRetrainDone
  dsimp only
  apply Answers.next
  (repeat' split) <;> apply_rules [Keeps.modPort, Keeps.recordPartner, Open.ports]

theorem answers_execRetrainTimeout {p : Nat} (hs : F.Keeps l s) (ho : F.Open) : F.Answers l (execRetrainTimeout p s) := by
  unfold execRetrainTimeout
  apply Answers.next
  apply_rules [Keeps.portDrop, Keeps.ite, Open.toArray, Open.ports]

theorem Keeps.setBay {g st : Nat} (hs : F.Keeps l s) (ho : F.Open) : F.Keeps l (s.setBay g st) := by
  unfold State.setBay
  dsimp only
  apply_rules [Keeps.freeVal, Keeps.event, Keeps.rest]

theorem Keeps.darken {g : Nat} (hs : F.Keeps l s) (ho : F.Open) : F.Keeps l (s.darken g) :=
  hs.foldl fun _ _ hv => .ite hv (hv.portDrop ho.toArray ho.ports)

theorem answers_execGlowLightLoss {g : Nat} (hs : F.Keeps l s) (ho : F.Open) : F.Answers l (execGlowLightLoss g s) := by
  unfold execGlowLightLoss
  exact .next (.ite ((hs.setBay ho).darken ho) hs)

theorem answers_execGlowLatchOpen {g : Nat} (hs : F.Keeps l s) (ho : F.Open) : F.Answers l (execGlowLatchOpen g s) := by
  unfold execGlowLatchOpen
  exact .next (.ite ((hs.setBay ho).darken ho) hs)

theorem answers_execGlowLatchClose {g : Nat} (hs : F.Keeps l s) (ho : F.Open) : F.Answers l (execGlowLatchClose g s) := by
  unfold execGlowLatchClose
  apply Answers.next
  apply_rules [Keeps.setBay, Keeps.ite]

theorem answers_execGlowLit {g : Nat} (hs : F.Keeps l s) (ho : F.Open) : F.Answers l (execGlowLit g s) := by
  unfold execGlowLit
  apply Answers.next
  apply_rules [Keeps.setBay, Keeps.ite]

theorem answers_execPendingExpiry {p i : Nat} (hs : F.Keeps l s) (ho : F.Open) : F.Answers l (execPendingExpiry p i s) := by
  unfold execPendingExpiry
  dsimp only
  apply Answers.next
  (repeat' split) <;> apply_rules [Keeps.endPend, Keeps.setPort, Open.toArray, Open.ports]

theorem Keeps.passAnswer {p : Nat} {x : Pkt} {t : TileId} (hs : F.Keeps l s) (ho : F.Open) : F.Keeps l (s.passAnswer p x t) := by
  unfold State.passAnswer
  dsimp only
  (repeat' split) <;> apply_rules [Keeps.send, Keeps.modPort, Open.toArray, Open.ports, Array.mesh]

theorem Keeps.refuseFar {p : Nat} {x : Pkt} {f : Far} {path : List Nat} {st : Nat} (hs : F.Keeps l s) (ho : F.Open) :
    F.Keeps l (s.refuseFar p x f path st) := by
  unfold State.refuseFar
  apply_rules [Keeps.answerOwn, Keeps.sendFrom, Keeps.ite, Keeps.foldl, Open.toArray, Open.ports, Array.mesh] <;> intros
      <;> apply_rules [Keeps.answerOwn, Keeps.sendFrom, Keeps.ite, Keeps.foldl, Open.toArray, Open.ports, Array.mesh]
theorem Keeps.deliverRequest {p : Nat} {x : Pkt} {f : Far} {path : List Nat} (hs : F.Keeps l s) (ho : F.Open) : F.Keeps l (s.deliverRequest p x f path) := by
  have refused {v : State} {y : Pkt} {st : Nat} (hv : F.Keeps l v) : F.Keeps l (v.refuseFar p y f path st) := hv.refuseFar ho
  unfold State.deliverRequest
  dsimp only
  split
  · exact .ite (hs.send ho.mesh) (refused hs)
  · refine hs.foldl fun v c hv => ?_
    split
    · exact .ite (hv.send ho.mesh) (refused hv)
    · exact refused hv
  · split
    · split
      · exact .ite (hs.send ho.mesh) (refused hs)
      · exact refused hs
    · exact hs.send ho.mesh

theorem Keeps.deliver {p : Nat} {x : Pkt} {f : Far} {path : List Nat} (hs : F.Keeps l s) (ho : F.Open) : F.Keeps l (s.deliver p x f path) := by
  unfold State.deliver
  dsimp only
  (repeat' split) <;> apply_rules [Keeps.refuseFar, Keeps.event, Keeps.deliverRequest, Keeps.passAnswer]

end Scope
end Sys2Proof.Machine
end

section
/-! SUPPORT. Scopes: docks, brokers and the power of the fields. -/

namespace Sys2Proof.Machine
namespace Scope
variable {F : Scope} {l s : State}

theorem Keeps.toEgress {p e : Nat} {x : Pkt} (hs : F.Keeps l s) (ho : F.Open) : F.Keeps l (s.toEgress p e x) := by
  unfold State.toEgress
  apply_rules [Keeps.enqueue, Keeps.sendFrom, Keeps.loseFrame, Keeps.ite, Open.toArray, Open.ports, Array.mesh]

theorem Keeps.ingress {p : Nat} {x : Pkt} {f : Far} (hs : F.Keeps l s) (ho : F.Open) : F.Keeps l (s.ingress p x f) := by
  unfold State.ingress
  dsimp only
  (repeat' split) <;> apply_rules [Keeps.answerOwn, Keeps.event, Keeps.modPort, Keeps.deliver, Keeps.toEgress, Open.toArray, Open.ports]

theorem answers_execDockIngress {p : Nat} {pkt : Pkt} (hs : F.Keeps l s) (ho : F.Open) : F.Answers l (execDockIngress p pkt s) := by
  unfold execDockIngress
  apply Answers.next
  split
  · exact .ite (hs.landing (fun _ hv => hv.ingress ho) ho.toArray) hs
  · exact hs

theorem Keeps.sendBroker {m : BrokerMsg} (hs : F.Keeps l s) (ho : F.Open) : F.Keeps l (s.sendBroker m) := by
  unfold State.sendBroker
  dsimp only
  (repeat' split) <;> apply_rules [Keeps.send, Keeps.toEgress, Keeps.event, Open.toArray, Array.mesh]

theorem Keeps.serveAnswer {p q : Nat} {grant : Option GrantBody} (hs : F.Keeps l s) (ho : F.Open) : F.Keeps l (s.serveAnswer p q grant) := by
  unfold State.serveAnswer
  dsimp only
  (repeat' split) <;> apply_rules [Keeps.sendBroker, Keeps.modPort, Keeps.event, Open.ports, Keeps.rest]

theorem Keeps.proxyOut {p inj : Nat} {x : Pkt} (hs : F.Keeps l s) (ho : F.Open) : F.Keeps l (s.proxyOut p inj x) := by
  unfold State.proxyOut
  dsimp only
  (repeat' split) <;> apply_rules [Keeps.serveAnswer, Keeps.passAnswer, Keeps.event, Keeps.toEgress]

theorem answers_execDockEgress {p : Nat} {pkt : Pkt} (hs : F.Keeps l s) (ho : F.Open) : F.Answers l (execDockEgress p pkt s) := by
  unfold execDockEgress
  refine .next (hs.landing (fun v hv => ?_) ho.toArray)
  split
  · exact hv.proxyOut ho
  · refine .ite (.ite ?_ (hv.enqueue ho)) (.ite hv (hv.enqueue ho))
    split
    · exact hv.passAnswer ho
    · exact hv
    · exact hv
    · exact hv
    · exact hv

theorem Keeps.relay {p : Nat} {x : Pkt} {f : Far} (hs : F.Keeps l s) (ho : F.Open) : F.Keeps l (s.relay p x f) := by
  unfold State.relay
  dsimp only
  (repeat' split) <;> apply_rules [Keeps.modPort, Keeps.refuseFar, Keeps.event, Keeps.toEgress, Open.ports]

theorem answers_execDataFrame {p : Nat} {fr : Frame} (hs : F.Keeps l s) (ho : F.Open) : F.Answers l (execDataFrame p fr s) := by
  unfold execDataFrame
  dsimp only
  apply Answers.next
  (repeat' split) <;> apply_rules [Keeps.setPort, Keeps.freeVal, Keeps.relay, Keeps.deliver, Open.ports]

theorem Keeps.hostPut {j a : Nat} {bs : List Byte} (hs : F.Keeps l s) (hh : F.hosts) : F.Keeps l (s.hostPut j a bs) :=
  .ite (hs.modHost hh (Memory.wf_writeN _ _ _)) hs

theorem Keeps.hostRawPut {j a : Nat} {bs : List Byte} (hs : F.Keeps l s) (hh : F.hosts) : F.Keeps l (s.hostRawPut j a bs).2 := by
  unfold State.hostRawPut
  dsimp only
  split
  · exact hs
  split
  · exact hs
  split
  · dsimp only
    refine hs.modHost hh ?_
    exact id
  · dsimp only
    refine hs.modHost hh ?_
    exact Memory.wf_writeN _ _ _

theorem Keeps.hostRawGet {j a n : Nat} (hs : F.Keeps l s) (hh : F.hosts) : F.Keeps l (s.hostRawGet j a n).2.2 := by
  unfold State.hostRawGet
  dsimp only
  split
  · exact hs
  split
  · exact hs
  split
  · dsimp only
    refine hs.modHost hh ?_
    exact id
  · exact hs

theorem Keeps.rebootHosts (hs : F.Keeps l s) (ho : F.Open) : F.Keeps l s.rebootHosts := by
  refine hs.foldl fun v j hv => .ite (hv.modHost ho.hosts ?_) hv
  exact id

theorem answers_execRawWrite {h : Hdr} {off : Nat} {data : List Byte} (hs : F.Keeps l s) (ho : F.Open) : F.Answers l (execRawWrite h off data s) := by
  unfold execRawWrite
  refine .next (hs.landing (fun v hv => ?_) ho.toArray)
  split
  · split
    · exact (hv.hostRawPut ho.hosts).status ho.mesh
    · exact hv
    · exact hv
    · exact hv
    · exact hv
  split
  · exact hv.status ho.mesh
  · exact .ite (hv.status ho.mesh) ((hv.rawPut (ho.core _) (ho.reg _) (ho.any _)).status ho.mesh)

theorem answers_execRawRead {h : Hdr} {off len : Nat} (hs : F.Keeps l s) (ho : F.Open) : F.Answers l (execRawRead h off len s) := by
  unfold execRawRead
  refine .next (hs.landing (fun v hv => ?_) ho.toArray)
  split
  · split
    · exact (hv.hostRawGet ho.hosts).reply ho.mesh
    · exact hv
    · exact hv
    · exact hv
    · exact hv
  split
  · exact hv.reply ho.mesh
  · exact (hv.rawGet (ho.core _)).reply ho.mesh

theorem Keeps.cutOff {p : Furrow} (hs : F.Keeps l s) (ho : F.Open) : F.Keeps l (s.cutOff p) := by
  unfold State.cutOff
  dsimp only
  apply_rules [Keeps.foldl, Open.toArray, Array.field, Keeps.modField] <;> intros <;> apply_rules [Keeps.foldl, Open.toArray, Array.field, Keeps.modField]
theorem Keeps.publishMap {at_ : Nat} (hs : F.Keeps l s) (ho : F.Open) : F.Keeps l (s.publishMap at_) := by
  unfold State.publishMap
  dsimp only
  (repeat' split) <;> apply_rules [Keeps.event, Keeps.cutOff, Keeps.allFields, Open.toArray, Array.field, Keeps.rest]

theorem answers_execMapPublish {at_ : Nat} (hs : F.Keeps l s) (ho : F.Open) : F.Answers l (execMapPublish at_ s) := by
  unfold execMapPublish
  dsimp only
  (repeat' split) <;> apply_rules [Keeps.publishMap]

theorem Keeps.deadBoundary {f : Nat} (hs : F.Keeps l s) (ho : F.Open) : F.Keeps l (s.deadBoundary f) := by
  have edge {v : State} {c : Prop} [Decidable c] {n : Nat} {at_ : Nat → TileId} {g : Router → Router} (hv : F.Keeps l v) :
      F.Keeps l (if c then (upto n).foldl (fun s i => if onArray (at_ i) then s.modRouter (at_ i) g else s) v else v) :=
    .ite (hv.foldl fun _ _ hu => .ite (hu.modRouter ho.toArray) hu) hv
  unfold State.deadBoundary
  exact edge (edge (edge (edge hs)))

theorem Keeps.loseInside {f : Nat} (hs : F.Keeps l s) (hm : F.mesh) : F.Keeps l (s.loseInside f) := by
  unfold State.loseInside
  apply_rules [Keeps.setMesh]

theorem Keeps.saveCells {f : Nat} (hs : F.Keeps l s) (ho : F.Open) : F.Keeps l (s.saveCells f) := by
  unfold State.saveCells
  dsimp only
  (repeat' split) <;> apply_rules [Keeps.releaseList, Keeps.event, Open.toArray, Array.field, Keeps.modField]

theorem Keeps.parkCrossings {f : Nat} (hs : F.Keeps l s) (hf : ∀ f, F.field f) : F.Keeps l (s.parkCrossings f) := by
  refine hs.foldl fun v b hv => ?_
  split
  · exact (hv.modXing hf).modXing hf
  · exact hv

theorem Keeps.clearCrossings {f : Nat} (hs : F.Keeps l s) (hf : ∀ f, F.field f) : F.Keeps l (s.clearCrossings f) := by
  refine hs.foldl fun v b hv => ?_
  split
  · exact (hv.modXing hf).modXing hf
  · exact hv

theorem Keeps.tilesOff {f : Nat} (hs : F.Keeps l s) (ha : F.Array) : F.Keeps l (s.tilesOff f) := by
  refine hs.allTiles ha fun t tl => ?_
  split
  · unfold Tile.powerLost
    (repeat' split) <;> first | exact id | exact fun _ => rfl
  · exact id

theorem Keeps.dockDown {f : Nat} (hs : F.Keeps l s) (ho : F.Open) : F.Keeps l (s.dockDown f) := by
  unfold State.dockDown
  dsimp only
  apply_rules [Keeps.endPend, Keeps.modPort, Keeps.foldl, Open.toArray, Open.ports] <;> intros <;> apply_rules [Keeps.endPend, Keeps.modPort, Keeps.foldl,
      Open.toArray, Open.ports]
theorem Keeps.railsOff {f : Nat} {st : PwrSt} {cause : Nat} (hs : F.Keeps l s) (ho : F.Open) : F.Keeps l (s.railsOff f st cause) := by
  unfold State.railsOff
  have hf := ho.toArray.field
  exact Keeps.tilesOff (.ite (Keeps.eraseHost ((((hs.portDown ho.toArray ho.ports).dockDown ho).parkCrossings hf).modField (hf f)) ho.hosts)
    ((((hs.portDown ho.toArray ho.ports).dockDown ho).parkCrossings hf).modField (hf f))) ho.toArray

theorem Keeps.setOut {f kind : Nat} {st : SvcSt} (hs : F.Keeps l s) (ho : F.Open) : F.Keeps l (s.setOut f kind st) := by
  unfold State.setOut
  apply_rules [Open.toArray, Array.field, Keeps.modField]

theorem Keeps.keepLost {f : Nat} (hs : F.Keeps l s) (ho : F.Open) : F.Keeps l (s.keepLost f) := by
  unfold State.keepLost
  dsimp only
  apply_rules [Keeps.event, Keeps.ite, Keeps.rest]

theorem Keeps.failNow {f : Nat} {st : PwrSt} {cause kind : Nat} {sv : SvcSt} (hs : F.Keeps l s) (ho : F.Open) : F.Keeps l (s.failNow f st cause kind sv) := by
  unfold State.failNow
  dsimp only
  apply_rules [Keeps.loseInside, Keeps.setOut, Keeps.railsOff, Keeps.keepLost, Keeps.deadBoundary, Keeps.ite, Open.toArray, Array.field, Array.mesh,
      Keeps.modField, Keeps.rest]

theorem Keeps.plannedOff {f : Nat} (hs : F.Keeps l s) (ho : F.Open) : F.Keeps l (s.plannedOff f) := by
  unfold State.plannedOff
  apply_rules [Keeps.setOut, Keeps.railsOff]

theorem Keeps.allOff {cause : Nat} (hs : F.Keeps l s) (ho : F.Open) : F.Keeps l (s.allOff cause) := by
  unfold State.allOff
  exact Keeps.rest (hs.foldl fun _ _ hv => ((hv.railsOff ho).setOut ho).keepLost ho) ho

theorem Keeps.boardOff {cause : Nat} (hs : F.Keeps l s) (ho : F.Open) : F.Keeps l (s.boardOff cause) := by
  unfold State.boardOff
  exact (hs.rest ho).allOff ho

theorem Keeps.tileUp {t : TileId} (hs : F.Keeps l s) (ho : F.Open) : F.Keeps l (s.tileUp t) := by
  refine .ite (Keeps.modRec (hs.modTile_array ho.toArray fun _ => rfl) ho.toArray) ?_
  split
  · exact hs.enterQuarantine ho.toArray ho.tables
  · exact hs
  · exact hs
  · exact hs
  · exact hs

theorem Keeps.fieldUp {f : Nat} (hs : F.Keeps l s) (ho : F.Open) : F.Keeps l (s.fieldUp f) := by
  unfold State.fieldUp
  have hf := ho.toArray.field
  exact Keeps.portWake (Keeps.clearCrossings (.ite ((hs.modField (hf f)).foldl fun _ _ hv => hv.tileUp ho) (hs.modField (hf f))) hf) ho.toArray ho.ports

theorem Keeps.startTest {f level phase : Nat} (hs : F.Keeps l s) (ho : F.Open) : F.Keeps l (s.startTest f level phase) := by
  unfold State.startTest
  dsimp only
  apply_rules [Keeps.modSvc, Open.toArray, Array.field]

theorem Keeps.clearFurrow {f : Nat} (hs : F.Keeps l s) (ho : F.Open) : F.Keeps l (s.clearFurrow f) := by
  unfold State.clearFurrow
  dsimp only
  (repeat' split) <;> apply_rules [Open.toArray, Array.field, Keeps.modField, Keeps.rest]

theorem answers_execReferenceSwitch {deltas : List Int} (hs : F.Keeps l s) (ho : F.Open) : F.Answers l (execReferenceSwitch deltas s) := by
  unfold execReferenceSwitch
  exact .next (.ite (Keeps.event ((hs.rest ho).foldl fun _ _ hv => hv.modField (ho.toArray.field _))) hs)

theorem answers_execReferenceLost (hs : F.Keeps l s) (ho : F.Open) : F.Answers l (execReferenceLost s) := by
  unfold execReferenceLost
  exact .next (.ite (Keeps.allOff (Keeps.event ((hs.rest ho).foldl fun _ _ hv => hv.modField (ho.toArray.field _))) ho) hs)

theorem Keeps.clearBoth {f b : Nat} (hs : F.Keeps l s) (ho : F.Open) : F.Keeps l (s.clearBoth f b) := by
  unfold State.clearBoth
  (repeat' split) <;> apply_rules [Keeps.clearFurrow]

theorem Keeps.crossingFailed {f b : Nat} (hs : F.Keeps l s) (ho : F.Open) : F.Keeps l (s.crossingFailed f b) := by
  unfold State.crossingFailed
  (repeat' split) <;> apply_rules [Keeps.setOut]

theorem answers_execCalibrationDone {f b spread : Nat} (hs : F.Keeps l s) (ho : F.Open) : F.Answers l (execCalibrationDone f b spread s) := by
  unfold execCalibrationDone
  dsimp only
  apply Answers.next
  apply_rules [Keeps.modXing, Keeps.clearBoth, Keeps.event, Keeps.crossingFailed, Keeps.ite, Open.toArray, Array.field]

theorem answers_execFieldWake {f : Nat} (hs : F.Keeps l s) (ho : F.Open) : F.Answers l (execFieldWake f s) := by
  have hf := ho.toArray.field
  unfold execFieldWake
  apply Answers.next
  split
  · refine .ite (Keeps.portWake ?_ ho.toArray ho.ports) hs
    have hv (fd : Field) : F.Keeps l (s.setField f fd) := hs.setField (hf f)
    have hw {c : Prop} [Decidable c] {v : State} {ts : List TileId} (hv : F.Keeps l v) : F.Keeps l (if c then ts.foldl State.enterQuarantine v else v) :=
      .ite (hv.foldl fun _ _ hu => hu.enterQuarantine ho.toArray ho.tables) hv
    dsimp only
    split
    · exact ((hw (hv _)).startTest ho).modField (hf f)
    · exact hw (hv _)
    · exact hw (hv _)
    · exact hw (hv _)
    · exact hw (hv _)
    · exact hw (hv _)
  · exact hs

theorem answers_execFieldClockStop {f : Nat} (hs : F.Keeps l s) (ho : F.Open) : F.Answers l (execFieldClockStop f s) := by
  have hf := ho.toArray.field
  unfold execFieldClockStop
  refine .next (.ite (Keeps.portDown (Keeps.parkCrossings (Keeps.allTiles (hs.modField (hf f)) ho.toArray fun t tl => ?_) hf) ho.toArray ho.ports) hs)
  split <;> exact id

theorem answers_execRetentionReached {f : Nat} (hs : F.Keeps l s) (ho : F.Open) : F.Answers l (execRetentionReached f s) := by
  unfold execRetentionReached
  dsimp only
  apply Answers.next
  (repeat' split) <;> apply_rules [Keeps.plannedOff, Open.toArray, Array.field, Keeps.setField]

theorem Keeps.leavePlan {f kind : Nat} {p : Plan} (hs : F.Keeps l s) (ho : F.Open) : F.Keeps l (s.leavePlan f kind p) := by
  unfold State.leavePlan
  dsimp only
  apply_rules [Keeps.saveCells, Keeps.ite, Open.toArray, Array.field, Keeps.modField, Keeps.rest]

end Scope
end Sys2Proof.Machine
end

section
/-! SUPPORT. Scopes: start-up, hosts and the mailbox. -/

namespace Sys2Proof.Machine
namespace Scope
variable {F : Scope} {l s : State}

theorem Keeps.startPark {f : Nat} (hs : F.Keeps l s) (ho : F.Open) : F.Keeps l (s.startPark f) := by
  unfold State.startPark
  apply_rules [Keeps.leavePlan, Open.toArray, Array.field, Keeps.modField]

theorem Keeps.startOff {f : Nat} (hs : F.Keeps l s) (ho : F.Open) : F.Keeps l (s.startOff f) := by
  unfold State.startOff
  (repeat' split) <;> apply_rules [Keeps.plannedOff, Keeps.leavePlan]

theorem Keeps.orderOff {f : Nat} (hs : F.Keeps l s) (ho : F.Open) : F.Keeps l (s.orderOff f) := by
  unfold State.orderOff
  (repeat' split) <;> apply_rules [Keeps.startOff, Keeps.plannedOff]

theorem Keeps.setHedgeCap (hs : F.Keeps l s) (ho : F.Open) : F.Keeps l (s.setHedgeCap) := by
  unfold State.setHedgeCap
  dsimp only
  apply_rules [Keeps.roundFree, Keeps.bothMasters, Keeps.ite, Open.toArray, Array.field]

theorem answers_execInputVoltageSample {mv : Nat} (hs : F.Keeps l s) (ho : F.Open) : F.Answers l (execInputVoltageSample mv s) := by
  unfold execInputVoltageSample
  dsimp only
  (repeat' split) <;> apply_rules [Keeps.setHedgeCap, Keeps.moduleSensor, Keeps.event, Open.sensors, Keeps.rest]

theorem answers_execBusStop (hs : F.Keeps l s) (ho : F.Open) : F.Answers l (execBusStop s) := by
  unfold execBusStop
  exact .next (.ite ((hs.rest ho).boardOff ho).event hs)

theorem Keeps.thermalPoint {f : Nat} (hs : F.Keeps l s) (hf : ∀ f, F.field f) : F.Keeps l (s.thermalPoint f) := by
  unfold State.thermalPoint
  split
  · exact hs
  next k _ =>
  have cold {v : State} (hv : F.Keeps l v) (g : Field → Field) : F.Keeps l (v.modField k g) := hv.modField (hf k)
  refine .ite (.ite (cold ((cold hs _).stepAll hf) _).event (cold hs _)) (.ite ?_ (cold (.ite hs (cold hs _)) _))
  split
  · exact cold (.ite hs (cold hs _)) _
  · exact .ite (cold (Keeps.stepAll (.ite hs (cold hs _)) hf) _) (.ite hs (cold hs _))

theorem Keeps.thermalGate {f : Nat} (hs : F.Keeps l s) (ho : F.Open) : F.Keeps l (s.thermalGate f) := by
  unfold State.thermalGate
  dsimp only
  apply_rules [Keeps.event, Keeps.ite, Open.toArray, Array.field, Keeps.modField]

theorem Keeps.thermalPark {f : Nat} (hs : F.Keeps l s) (ho : F.Open) : F.Keeps l (s.thermalPark f) := by
  unfold State.thermalPark
  dsimp only
  apply_rules [Keeps.event, Keeps.setOut, Keeps.railsOff, Keeps.startPark, Keeps.ite]

theorem Keeps.hardTrip {f : Nat} (hs : F.Keeps l s) (ho : F.Open) : F.Keeps l (s.hardTrip f) := by
  unfold State.hardTrip
  dsimp only
  (repeat' split) <;> apply_rules [Keeps.failNow, Keeps.event, Open.toArray, Array.field, Keeps.modField]

theorem answers_execThermalSample {f : Nat} {temp : Int} {sensor : Nat} (hs : F.Keeps l s) (ho : F.Open) : F.Answers l (execThermalSample f temp sensor s) := by
  unfold execThermalSample
  dsimp only
  apply Answers.next
  (repeat' split) <;> apply_rules [Keeps.hardTrip, Keeps.thermalPark, Keeps.thermalGate, Keeps.thermalPoint, Open.toArray, Array.field, Keeps.modField]

theorem answers_execCoolantSample {c : Coolant} (hs : F.Keeps l s) (ho : F.Open) : F.Answers l (execCoolantSample c s) := by
  unfold execCoolantSample
  dsimp only
  have hv (w : Watch) : F.Keeps l ((((({ s with watch := w } : State).setHedgeCap).moduleSensor 2 800 c.inlet).moduleSensor 3 800 c.outlet).moduleSensor 4 2000 c.flow) :=
    ((((hs.rest ho).setHedgeCap ho).moduleSensor ho.sensors).moduleSensor ho.sensors).moduleSensor ho.sensors
  refine .next (.ite hs (.ite (Keeps.foldl (.ite (hv _) (hv _).event) fun _ _ hu => ?_) (.ite (hv _) (hv _).event)))
  exact .ite (.ite hu (hu.orderOff ho)) hu

theorem Keeps.latched {f : Nat} {core mem : Bool} (hs : F.Keeps l s) (ho : F.Open) : F.Keeps l (s.latched f core mem) := by
  unfold State.latched
  dsimp only
  apply_rules [Keeps.freeVal, Keeps.event, Open.toArray, Array.field, Keeps.modField]

theorem Keeps.tripThenLatch {f cause : Nat} (hs : F.Keeps l s) (ho : F.Open) : F.Keeps l (s.tripThenLatch f cause) := by
  unfold State.tripThenLatch
  apply_rules [Open.toArray, Array.field, Keeps.modField]

theorem answers_execOvercurrentLatch {f : Nat} {core mem : Bool} (hs : F.Keeps l s) (ho : F.Open) : F.Answers l (execOvercurrentLatch f core mem s) := by
  unfold execOvercurrentLatch
  dsimp only
  apply Answers.next
  (repeat' split) <;> apply_rules [Keeps.latched, Keeps.tripThenLatch, Keeps.failNow]

theorem Keeps.failTile {t : TileId} {mask : Nat} (hs : F.Keeps l s) (ho : F.Open) : F.Keeps l (s.failTile t mask) := by
  unfold State.failTile
  apply_rules [Keeps.modRec, Open.toArray]

theorem Keeps.endTest {f : Nat} (hs : F.Keeps l s) (ho : F.Open) : F.Keeps l (s.endTest f) := by
  have hf := ho.toArray.field
  unfold State.endTest
  dsimp only
  generalize hg : List.foldl _ (State.modField _ f _) _ = v
  have hv : F.Keeps l v := by
    rw [← hg]
    refine Keeps.foldl (Keeps.modField (Keeps.modSvc (hs.foldl fun _ _ hv => (hv.modRec ho.toArray).event) hf) (hf f)) fun u i hu => ?_
    split
    · exact hu.enterQuarantine ho.toArray ho.tables
    · exact hu
    · exact hu
    · exact hu
    · exact hu
  refine Keeps.stepBoot (Keeps.clearFurrow (.ite (Keeps.event (Keeps.setOut (hv.foldl fun u i hu => hu.modTile_array ho.toArray ?_) ho)) hv) ho) ho.toFields
  exact fun _ => rfl

theorem Keeps.scribble {t : TileId} (hs : F.Keeps l s) (ha : F.Array) : F.Keeps l (s.scribble t) := by
  unfold State.scribble
  generalize List.map _ (upto spEnd) = bs
  exact Keeps.setFree (hs.modTile_array ha fun w => Memory.wf_writeN _ _ _ (Memory.wf_clear _ _ _ w))

theorem Keeps.zeroTm {t : TileId} (hs : F.Keeps l s) (ha : F.Array) : F.Keeps l (s.zeroTm t) := hs.modTile_array ha (Memory.wf_clear _ _ _)

theorem Keeps.afterKnown {f : Nat} (hs : F.Keeps l s) (ho : F.Open) : F.Keeps l (s.afterKnown f) := by
  unfold State.afterKnown
  exact .ite (.ite (hs.endTest ho) ((hs.modSvc ho.toArray.field).stepBoot ho.toFields)) hs

theorem answers_execMarchDone {f : Nat} {k : MarchKind} {failed routers : List TileId} (hs : F.Keeps l s) (ho : F.Open) :
    F.Answers l (execMarchDone f k failed routers s) := by
  have hf := ho.toArray.field
  have fails {v : State} {ts : List TileId} {m : Nat} (hv : F.Keeps l v) : F.Keeps l (ts.foldl (fun s t => s.failTile t m) v) :=
    hv.foldl fun _ _ hu => hu.failTile ho
  unfold execMarchDone
  apply Answers.next
  cases k with
  | scratchpad =>
    exact .ite (((((fails (fails hs)).foldl fun _ _ hu => hu.scribble ho.toArray).modField (hf f)).modSvc hf).stepBoot ho.toFields |>.afterKnown ho) hs
  | tileMemory =>
    have hv {ts us : List TileId} : F.Keeps l (ts.foldl State.zeroTm (us.foldl (fun s t => s.failTile t 16) s)) := (fails hs).foldl fun _ _ hu => hu.zeroTm ho.toArray
    exact .ite (.ite (hv.endTest ho) ((hv.modSvc hf).stepBoot ho.toFields)) hs

theorem Keeps.reported {t : TileId} {mask : Nat} (hs : F.Keeps l s) (ho : F.Open) : F.Keeps l (s.reported t mask) := by
  unfold State.reported
  dsimp only
  apply_rules [Keeps.failTile, Keeps.afterKnown, Keeps.modSvc, Keeps.ite, Open.toArray, Array.field]

theorem answers_execKnownAnswerDone {t : TileId} {corePass enginePass : Bool} (hs : F.Keeps l s) (ho : F.Open) :
    F.Answers l (execKnownAnswerDone t corePass enginePass s) := by
  unfold execKnownAnswerDone
  dsimp only
  apply Answers.next
  apply_rules [Keeps.reported, Keeps.ite]

theorem answers_execKnownAnswerTimeout {t : TileId} (hs : F.Keeps l s) (ho : F.Open) : F.Answers l (execKnownAnswerTimeout t s) := by
  unfold execKnownAnswerTimeout
  dsimp only
  apply Answers.next
  apply_rules [Keeps.reported, Keeps.ite]

theorem answers_execProfilingPauseEnd {f : Nat} {failed : List Nat} (hs : F.Keeps l s) (ho : F.Open) : F.Answers l (execProfilingPauseEnd f failed s) := by
  have hf := ho.toArray.field
  unfold execProfilingPauseEnd
  exact .next (.ite hs (.ite (hs.modSvc hf) (.ite ((hs.modSvc hf).stepBoot ho.toFields)
    (Keeps.endTest (((hs.modSvc hf).foldl fun _ _ hu => hu.failTile ho).foldl fun _ _ hu => hu.zeroTm ho.toArray) ho))))

theorem Keeps.writeProfile {f : Nat} (hs : F.Keeps l s) (ho : F.Open) : F.Keeps l (s.writeProfile f) := by
  unfold State.writeProfile
  dsimp only
  apply_rules [Keeps.ite, Open.toArray, Array.field, Keeps.modField, Keeps.rest]

theorem Keeps.learnGens {f : Nat} (hs : F.Keeps l s) (ho : F.Open) : F.Keeps l (s.learnGens f) := by
  unfold State.learnGens
  apply_rules [Keeps.rest]

theorem Keeps.holeFailed {f : Nat} (hs : F.Keeps l s) (ho : F.Open) : F.Keeps l (s.holeFailed f) := by
  unfold State.holeFailed
  dsimp only
  apply_rules [Keeps.foldl, Open.toArray, Keeps.modTile_array] <;> intros <;> apply_rules [Keeps.foldl, Open.toArray, Keeps.modTile_array]
theorem answers_execRetestDone {f : Nat} (hs : F.Keeps l s) (ho : F.Open) : F.Answers l (execRetestDone f s) := by
  unfold execRetestDone
  dsimp only
  apply_rules [Keeps.holeFailed, Keeps.writeProfile, Keeps.learnGens, Keeps.modSvc, Keeps.event, Keeps.ite, Open.toArray, Array.field]

theorem Keeps.waveField {routers : List TileId} {f : Nat} (hs : F.Keeps l s) (ho : F.Open) : F.Keeps l (s.waveField routers f) := by
  unfold State.waveField
  dsimp only
  (repeat' split) <;> apply_rules [Keeps.startTest, Keeps.fieldUp, Keeps.failTile, Keeps.foldl, Open.toArray, Keeps.modTile_array] <;> intros
      <;> apply_rules [Keeps.startTest, Keeps.fieldUp, Keeps.failTile, Keeps.foldl, Open.toArray, Keeps.modTile_array]
theorem Keeps.warmField {f : Nat} (hs : F.Keeps l s) (ho : F.Open) : F.Keeps l (s.warmField f) := by
  unfold State.warmField
  dsimp only
  (repeat' split) <;> apply_rules [Keeps.event, Open.toArray, Array.field, Keeps.modField]

theorem answers_execFieldPowerWave {w : Nat} {routers : List TileId} (hs : F.Keeps l s) (ho : F.Open) : F.Answers l (execFieldPowerWave w routers s) := by
  unfold execFieldPowerWave
  dsimp only
  apply Answers.next
  apply_rules [Keeps.waveField, Keeps.bootTo, Keeps.warmField, Keeps.ite, Open.toFields, Keeps.rest]

theorem answers_execFieldWaveTimeout {f : Nat} (hs : F.Keeps l s) (ho : F.Open) : F.Answers l (execFieldWaveTimeout f s) := by
  unfold execFieldWaveTimeout
  dsimp only
  apply Answers.next
  apply_rules [Keeps.event, Keeps.setOut, Keeps.railsOff, Keeps.ite]

theorem Keeps.admitField {f : Nat} {entry : Option Word} (hs : F.Keeps l s) (ho : F.Open) : F.Keeps l (s.admitField f entry) := by
  unfold State.admitField
  dsimp only
  (repeat' split) <;> apply_rules [Keeps.modSvc, Keeps.foldl, Open.toArray, Array.tile, Array.field, Keeps.modTile_alike] <;> intros
      <;> apply_rules [Keeps.modSvc, Keeps.foldl, Open.toArray, Array.tile, Array.field, Keeps.modTile_alike] <;> exact ⟨rfl, rfl, rfl⟩

theorem answers_execBringupAdmission (hs : F.Keeps l s) (ho : F.Open) : F.Answers l (execBringupAdmission s) := by
  unfold execBringupAdmission
  dsimp only
  refine .next (.ite ?_ hs)
  generalize hg : List.foldl _ (s.bootTo _) s.bootFields = v
  have hv : F.Keeps l v := by
    rw [← hg]
    refine (hs.bootTo ho.toFields).foldl fun u f hu => ?_
    exact Keeps.admitField (Keeps.learnGens (.ite ((hu.holeFailed ho).writeProfile ho) (hu.holeFailed ho)) ho) ho
  exact .ite (hv.rest ho).event (hv.rest ho)

theorem Keeps.drainQueues (hs : F.Keeps l s) : F.Keeps l s.drainQueues := { hs with }

theorem Keeps.warmClear (hs : F.Keeps l s) (ho : F.Open) : F.Keeps l s.warmClear := by
  unfold State.warmClear
  exact Keeps.foldl (Keeps.rebootHosts ((hs.drainQueues.rest ho).modField (ho.toArray.field 0)) ho) fun _ _ hv => hv.portWake ho.toArray ho.ports

theorem Keeps.startWarm (hs : F.Keeps l s) (ho : F.Open) : F.Keeps l s.startWarm := by
  unfold State.startWarm
  refine Keeps.allTiles (Keeps.foldl ((hs.rest ho).bootTo ho.toFields) fun _ _ hv => hv.portDown ho.toArray ho.ports) ho.toArray fun t tl => ?_
  split <;> exact id

theorem answers_execWarmResetInjectionStop (hs : F.Keeps l s) (ho : F.Open) : F.Answers l (execWarmResetInjectionStop s) := by
  unfold execWarmResetInjectionStop
  refine .next (.ite ((hs.rest ho).bootTo ho.toFields) (.ite (Keeps.bootTo (Keeps.warmClear ((hs.bootTo ho.toFields).foldl fun v f hv => ?_) ho) ho.toFields) hs))
  exact .ite (hv.parkCrossings ho.toArray.field) hv

theorem Keeps.modChan {c : Nat} {g : Chan → Chan} (hs : F.Keeps l s) (ho : F.Open) : F.Keeps l (s.modChan c g) := by
  unfold State.modChan
  apply_rules [Keeps.rest]

theorem Keeps.mbViolation {c sp : Nat} {write : Bool} (hs : F.Keeps l s) (ho : F.Open) : F.Keeps l (s.mbViolation c sp write) := by
  unfold State.mbViolation
  apply_rules [Keeps.event, Keeps.rest]

theorem Keeps.spineGrant {sp : Nat} (hs : F.Keeps l s) (ho : F.Open) : F.Keeps l (s.spineGrant sp) := by
  unfold State.spineGrant
  apply_rules [Keeps.rest]

theorem answers_execMbMsgWrite {sp : Nat} {secure : Bool} {c w : Nat} {val : Word} (hs : F.Keeps l s) (ho : F.Open) :
    F.Answers l (execMbMsgWrite sp secure c w val s) := by
  unfold execMbMsgWrite
  dsimp only
  apply Answers.next
  apply_rules [Keeps.spineGrant, Keeps.modChan, Keeps.mbViolation, Keeps.ite]

theorem answers_execMbDoorbell {sp : Nat} {secure : Bool} {c : Nat} {val : Word} (hs : F.Keeps l s) (ho : F.Open) :
    F.Answers l (execMbDoorbell sp secure c val s) := by
  unfold execMbDoorbell
  dsimp only
  apply Answers.next
  apply_rules [Keeps.spineGrant, Keeps.modChan, Keeps.mbViolation, Keeps.ite]

theorem Keeps.writeRecord {m : List Word} {c seq result : Nat} {words : List Word} (hs : F.Keeps l s) (ho : F.Open) :
    F.Keeps l (s.writeRecord m c seq result words) := by
  unfold State.writeRecord
  dsimp only
  (repeat' split) <;> apply_rules [Keeps.hostPut, Keeps.modChan, Open.hosts]

end Scope
end Sys2Proof.Machine
end

section
/-! SUPPORT. Scopes: Gliast commands as they are taken and ended. -/

namespace Sys2Proof.Machine
namespace Scope
variable {F : Scope} {l s : State}

theorem Keeps.sbiReturn {c seq code : Nat} (hs : F.Keeps l s) (ho : F.Open) : F.Keeps l (s.sbiReturn c seq code) :=
  .ite (hs.modHost ho.hosts id) hs

theorem Keeps.ack {c seq code : Nat} (hs : F.Keeps l s) (ho : F.Open) : F.Keeps l (s.ack c seq code) := by
  unfold State.ack
  dsimp only
  apply_rules [Keeps.sbiReturn, Keeps.modChan, Keeps.rest]

theorem Keeps.answer {c : Nat} {k : Taken} {code : Nat} {words : List Word} (hs : F.Keeps l s) (ho : F.Open) : F.Keeps l (s.answer c k code words) := by
  unfold State.answer
  apply_rules [Keeps.ack, Keeps.writeRecord]

theorem Keeps.take {c : Nat} (hs : F.Keeps l s) (ho : F.Open) : F.Keeps l (s.take c) := by
  unfold State.take
  have hv {n : Nat} {g : Chan → Chan} {p : Prop} [Decidable p] {a b : Conductor} :
      F.Keeps l { (s.spineGrant n).modChan c g with cond := if p then a else b } := ((hs.spineGrant ho).modChan ho).rest ho
  refine .ite hs (.ite ((hv.rest ho).event.ack ho) ?_)
  split
  · exact .ite (hv.answer ho) (hv.ack ho)
  · exact hv.rest ho

theorem answers_execMailboxPoll (hs : F.Keeps l s) (ho : F.Open) : F.Answers l (execMailboxPoll s) := by
  unfold execMailboxPoll
  dsimp only
  apply Answers.next
  (repeat' split) <;> apply_rules [Keeps.event, Keeps.take, Keeps.foldl, Keeps.rest] <;> intros
      <;> apply_rules [Keeps.event, Keeps.take, Keeps.foldl, Keeps.rest]
theorem Keeps.addPend {p : PendCmd} (hs : F.Keeps l s) (ho : F.Open) : F.Keeps l (s.addPend p) := by
  unfold State.addPend
  apply_rules [Keeps.rest]

theorem Keeps.settle {c : Nat} {k : Taken} {o : CmdOut} (hs : F.Keeps l s) (hr : F.Runs l o) (ho : F.Open) : F.Keeps l (s.settle c k o) := by
  cases hr with
  | refuse => exact hs.answer ho
  | done h => exact h.answer ho
  | long h => exact .ite ((h.addPend ho).ack ho) (hs.answer ho)
  | defer h => exact .ite ((h.addPend ho).ack ho) (hs.answer ho)

theorem answers_command {c code : Nat} {act : List Word → State → CmdOut} (hs : F.Keeps l s) (hk : ∀ m v, F.Keeps l v → F.Runs l (act m v)) (ho : F.Open) :
    F.Answers l (s.command c code act) := by
  unfold State.command
  apply Answers.next
  split
  · exact .ite (hs.settle (hk _ _ hs) ho) hs
  · exact hs

theorem Keeps.endCmd {p : PendCmd} {code : Nat} {words : List Word} (hs : F.Keeps l s) (ho : F.Open) : F.Keeps l (s.endCmd p code words) := by
  unfold State.endCmd
  dsimp only
  apply_rules [Keeps.writeRecord, Keeps.modChan, Keeps.rest]

theorem Keeps.supersede {key : Nat × Nat} (hs : F.Keeps l s) (ho : F.Open) : F.Keeps l (s.supersede key) := by
  unfold State.supersede
  apply_rules [Keeps.endCmd, Keeps.foldl] <;> intros <;> apply_rules [Keeps.endCmd, Keeps.foldl]
theorem answers_execCommandTimeout {c seq : Nat} (hs : F.Keeps l s) (ho : F.Open) : F.Answers l (execCommandTimeout c seq s) := by
  unfold execCommandTimeout
  dsimp only
  apply Answers.next
  (repeat' split) <;> apply_rules [Keeps.endCmd, Keeps.event, Keeps.rest]

theorem answers_execConductorBeat (hs : F.Keeps l s) (ho : F.Open) : F.Answers l (execConductorBeat s) := by
  unfold execConductorBeat
  apply Answers.next
  apply_rules [Keeps.ite, Keeps.rest]

theorem Keeps.takeRole {kf : Nat} (hs : F.Keeps l s) (ho : F.Open) : F.Keeps l (s.takeRole kf) := by
  unfold State.takeRole
  apply_rules [Keeps.rest]

theorem answers_execConductorBoot {kf : Nat} (hs : F.Keeps l s) (ho : F.Open) : F.Answers l (execConductorBoot kf s) := by
  unfold execConductorBoot
  have hv {a : Conductor} : F.Keeps l { s with cond := a } := hs.rest ho
  have hb {v : State} {p q : Prop} [Decidable p] [Decidable q] (h : F.Keeps l v) :
      F.Keeps l (if p then v.bootTo 4 else if q then v.bootTo 5 else v) := .ite (h.bootTo ho.toFields) (.ite (h.bootTo ho.toFields) h)
  have hm {v : State} {b : Prop} [Decidable b] {n : Nat} {a : Conductor} (h : F.Keeps l v) : F.Keeps l (if b then v.publishMap n else { v with cond := a }) :=
    .ite (h.publishMap ho) (h.rest ho)
  exact .next (.ite (.ite (hv.rest ho) (.ite (.ite ((hm (hb (hv.takeRole ho))).rest ho) (hm (hb (hv.takeRole ho)))) hv)) hs)

theorem answers_execStandbyRebuildDone (hs : F.Keeps l s) (ho : F.Open) : F.Answers l (execStandbyRebuildDone s) := by
  unfold execStandbyRebuildDone
  apply Answers.next
  apply_rules [Keeps.ite, Keeps.rest]

theorem Keeps.settleTaken {c : Nat} (hs : F.Keeps l s) (ho : F.Open) : F.Keeps l (s.settleTaken c).1 := by
  unfold State.settleTaken
  split
  · split
    · split
      · exact hs
      · dsimp only
        exact (hs.answer ho).event
    · exact hs
  · exact hs

theorem Keeps.settlePend {planned : Bool} {p : PendCmd} (hs : F.Keeps l s) (ho : F.Open) : F.Keeps l (s.settlePend planned p).1 := by
  unfold State.settlePend
  dsimp only
  split
  · exact hs.endCmd ho
  split
  · exact hs
  · dsimp only
    exact (hs.endCmd ho).event

theorem Keeps.takeOver {old new cause : Nat} (hs : F.Keeps l s) (ho : F.Open) : F.Keeps l (s.takeOver old new cause) := by
  unfold State.takeOver
  dsimp only
  generalize ha : List.foldl _ (s.takeRole new, 0) (upto 64) = a
  have ha : F.Keeps l a.1 := ha ▸ Keeps.foldl_part Prod.fst (fun _ _ hv => Keeps.settleTaken hv ho) (hs.takeRole ho)
  generalize hb : List.foldl _ (a.1, a.2) _ = b
  have hb : F.Keeps l b.1 := hb ▸ Keeps.foldl_part Prod.fst (fun _ _ hv => Keeps.settlePend hv ho) ha
  exact .ite (hb.rest ho) (hb.rest ho).event

theorem answers_execConductorTakeover (hs : F.Keeps l s) (ho : F.Open) : F.Answers l (execConductorTakeover s) := by
  unfold execConductorTakeover
  dsimp only
  apply Answers.next
  apply_rules [Keeps.takeOver, Keeps.ite]

theorem Keeps.takeCtrl {bytes : List Byte} (hs : F.Keeps l s) (hm : F.mesh) : F.Keeps l (s.takeCtrl bytes) := by
  unfold State.takeCtrl
  dsimp only
  apply_rules [Keeps.setMesh]

theorem Keeps.sendNote {n : PowerNote} {p : Nat} (hs : F.Keeps l s) (ho : F.Open) : F.Keeps l (s.sendNote n p) := by
  unfold State.sendNote
  dsimp only
  apply_rules [Keeps.enqueue]

theorem answers_execPowerNoteSend (hs : F.Keeps l s) (ho : F.Open) : F.Answers l (execPowerNoteSend s) := by
  unfold execPowerNoteSend
  dsimp only
  refine .next (.ite (Keeps.groupCap (Keeps.foldl (Keeps.rest ?_ ho) fun _ _ hv => hv.sendNote ho) ho.toArray.field) hs)
  have hv := hs.roundFree (r := s.meanPower)
  split
  · exact hv
  · exact hv.roundFree

theorem answers_execPowerNote {p : Nat} {n : PowerNote} (hs : F.Keeps l s) (ho : F.Open) : F.Answers l (execPowerNote p n s) := by
  unfold execPowerNote
  have hv := hs.takeCtrl (bytes := noteBytes n) ho.mesh
  exact .next (.ite (Keeps.groupCap (.ite (hv.rest ho) ((hv.rest ho).foldl fun _ _ hu => hu.sendNote ho)) ho.toArray.field) hv)

theorem Keeps.brokerReply {m : BrokerMsg} {b : BrokerBody} (hs : F.Keeps l s) (ho : F.Open) : F.Keeps l (s.brokerReply m b) := by
  unfold State.brokerReply
  apply_rules [Keeps.sendBroker]

theorem Keeps.brokerRefuse {m : BrokerMsg} {code : Nat} (hs : F.Keeps l s) (ho : F.Open) : F.Keeps l (s.brokerRefuse m code) := by
  unfold State.brokerRefuse
  dsimp only
  (repeat' split) <;> apply_rules [Keeps.event, Keeps.brokerReply]

theorem answers_execBrokerConnectRequest {p : Nat} {m : BrokerMsg} (hs : F.Keeps l s) (ho : F.Open) : F.Answers l (execBrokerConnectRequest p m s) := by
  unfold execBrokerConnectRequest
  dsimp only
  apply Answers.next
  (repeat' split) <;> apply_rules [Keeps.takeCtrl, Keeps.brokerRefuse, Keeps.setPort, Keeps.send, Open.toArray, Open.ports, Array.mesh, Keeps.rest]

theorem Keeps.brokerEnd {r : BrokerReq} {code : Nat} {words : List Word} (hs : F.Keeps l s) (ho : F.Open) : F.Keeps l (s.brokerEnd r code words) := by
  unfold State.brokerEnd
  apply_rules [Keeps.rest]

theorem answers_execBrokerConnectReply {_p : Nat} {m : BrokerMsg} (hs : F.Keeps l s) (ho : F.Open) : F.Answers l (execBrokerConnectReply _p m s) := by
  unfold execBrokerConnectReply
  dsimp only
  apply Answers.next
  (repeat' split) <;> apply_rules [Keeps.takeCtrl, Keeps.brokerEnd, Keeps.sendBroker, Open.toArray, Array.tile, Array.mesh, Keeps.modTile_alike]
      <;> exact ⟨rfl, rfl, rfl⟩

theorem answers_execBrokerCloseMessage {p : Nat} {m : BrokerMsg} (hs : F.Keeps l s) (ho : F.Open) : F.Answers l (execBrokerCloseMessage p m s) := by
  unfold execBrokerCloseMessage
  dsimp only
  apply Answers.next
  (repeat' split) <;> apply_rules [Keeps.takeCtrl, Keeps.modPort, Open.toArray, Open.ports, Array.mesh]

theorem answers_execBrokerLookupRequest {_p : Nat} {m : BrokerMsg} (hs : F.Keeps l s) (ho : F.Open) : F.Answers l (execBrokerLookupRequest _p m s) := by
  unfold execBrokerLookupRequest
  dsimp only
  apply Answers.next
  (repeat' split) <;> apply_rules [Keeps.takeCtrl, Keeps.brokerRefuse, Keeps.brokerReply, Open.toArray, Array.mesh]

theorem answers_execBrokerLookupReply {_p : Nat} {m : BrokerMsg} (hs : F.Keeps l s) (ho : F.Open) : F.Answers l (execBrokerLookupReply _p m s) := by
  unfold execBrokerLookupReply
  dsimp only
  apply Answers.next
  (repeat' split) <;> apply_rules [Keeps.takeCtrl, Keeps.brokerEnd, Open.toArray, Array.mesh]

theorem runs_withField {m : List Word} {k : Nat → CmdOut} (hk : ∀ f, F.Runs l (k f)) : F.Runs l (withField m k) := .ite .refuse (.ite .refuse (hk _))

theorem runs_withTile {w : Nat} {k : TileId → CmdOut} (hk : ∀ t, F.Runs l (k t)) : F.Runs l (s.withTile w k) := .ite .refuse (.ite .refuse (hk _))

theorem Keeps.resetTile {t : TileId} (hs : F.Keeps l s) (ho : F.Open) : F.Keeps l (s.resetTile t) := hs.enterQuarantine ho.toArray ho.tables

theorem Keeps.resetField {f : Nat} (hs : F.Keeps l s) (ho : F.Open) : F.Keeps l (s.resetField f) := by
  unfold State.resetField
  exact ((hs.foldl fun _ _ hv => hv.resetTile ho).clearCrossings ho.toArray.field).modSvc ho.toArray.field

theorem Keeps.repairEvent {f order : Nat} {old new : SvcSt} (hs : F.Keeps l s) : F.Keeps l (s.repairEvent f order old new) := by
  unfold State.repairEvent
  apply_rules [Keeps.event]

theorem runs_cmdFieldAdmit {m : List Word} (hs : F.Keeps l s) (ho : F.Open) : F.Runs l (cmdFieldAdmit m s) := by
  unfold cmdFieldAdmit
  refine runs_withField fun f => ?_
  dsimp only
  (repeat' split) <;> apply_rules [Runs.refuse, Runs.long, runs_withField, Keeps.admitField, Keeps.repairEvent]

theorem answers_execFieldAdmit {c : Nat} (hs : F.Keeps l s) (ho : F.Open) : F.Answers l (execFieldAdmit c s) :=
  answers_command hs (fun _ _ hv => runs_cmdFieldAdmit hv ho) ho

theorem runs_cmdFieldDrain {m : List Word} (hs : F.Keeps l s) (ho : F.Open) : F.Runs l (cmdFieldDrain m s) := by
  unfold cmdFieldDrain
  refine runs_withField fun f => ?_
  dsimp only
  (repeat' split) <;> apply_rules [Runs.refuse, Runs.long, runs_withField, Keeps.modSvc, Keeps.saveCells, Open.toArray, Array.field, Keeps.rest]

theorem answers_execFieldDrain {c : Nat} (hs : F.Keeps l s) (ho : F.Open) : F.Answers l (execFieldDrain c s) :=
  answers_command hs (fun _ _ hv => runs_cmdFieldDrain hv ho) ho

theorem runs_cmdFieldPark {m : List Word} (hs : F.Keeps l s) (ho : F.Open) : F.Runs l (cmdFieldPark m s) := by
  unfold cmdFieldPark
  refine runs_withField fun f => ?_
  (repeat' split) <;> apply_rules [Runs.refuse, Runs.long, runs_withField, Keeps.startPark]

theorem answers_execFieldPark {c : Nat} (hs : F.Keeps l s) (ho : F.Open) : F.Answers l (execFieldPark c s) :=
  answers_command hs (fun _ _ hv => runs_cmdFieldPark hv ho) ho

theorem runs_cmdFieldReturn {m : List Word} (hs : F.Keeps l s) (ho : F.Open) : F.Runs l (cmdFieldReturn m s) := by
  unfold cmdFieldReturn
  apply_rules [Runs.refuse, Runs.long, Runs.ite, Keeps.startReturn, Open.toArray, Array.field]

theorem answers_execFieldReturn {c : Nat} (hs : F.Keeps l s) (ho : F.Open) : F.Answers l (execFieldReturn c s) :=
  answers_command hs (fun _ _ hv => runs_cmdFieldReturn hv ho) ho

theorem runs_cmdFieldReset {m : List Word} (hs : F.Keeps l s) (ho : F.Open) : F.Runs l (cmdFieldReset m s) := by
  unfold cmdFieldReset
  refine runs_withField fun f => ?_
  apply_rules [Runs.refuse, Runs.long, Runs.ite, runs_withField, Keeps.repairEvent, Keeps.resetField]

end Scope
end Sys2Proof.Machine
end

section
/-! SUPPORT. Scopes: Gliast commands of the system, the fields and the jobs. -/

namespace Sys2Proof.Machine
namespace Scope
variable {F : Scope} {l s : State}

theorem answers_execFieldReset {c : Nat} (hs : F.Keeps l s) (ho : F.Open) : F.Answers l (execFieldReset c s) :=
  answers_command hs (fun _ _ hv => runs_cmdFieldReset hv ho) ho

theorem runs_cmdFieldRetest {m : List Word} (hs : F.Keeps l s) (ho : F.Open) : F.Runs l (cmdFieldRetest m s) := by
  refine .ite .refuse (runs_withField fun f => .ite .refuse ?_)
  split
  · exact .long (Keeps.startTest (.ite hs (hs.resetField ho)) ho)
  · exact .long (hs.startReturn ho.toArray.field)
  · refine .ite .refuse (.long (Keeps.startTest ?_ ho))
    split
    · exact hs.fieldUp ho
    · exact hs.resetField ho
    · exact hs.resetField ho
    · exact hs.resetField ho
    · exact hs.resetField ho
  · exact .refuse
  · exact .refuse
  · exact .refuse
  · exact .refuse

theorem answers_execFieldRetest {c : Nat} (hs : F.Keeps l s) (ho : F.Open) : F.Answers l (execFieldRetest c s) :=
  answers_command hs (fun _ _ hv => runs_cmdFieldRetest hv ho) ho

theorem runs_cmdFieldFail {m : List Word} (hs : F.Keeps l s) (ho : F.Open) : F.Runs l (cmdFieldFail m s) := by
  unfold cmdFieldFail
  refine runs_withField fun f => ?_
  apply_rules [Runs.refuse, Runs.long, Runs.ite, runs_withField, Keeps.repairEvent, Keeps.failNow]

theorem answers_execFieldFail {c : Nat} (hs : F.Keeps l s) (ho : F.Open) : F.Answers l (execFieldFail c s) :=
  answers_command hs (fun _ _ hv => runs_cmdFieldFail hv ho) ho

theorem runs_cmdFieldClear {m : List Word} (hs : F.Keeps l s) (ho : F.Open) : F.Runs l (cmdFieldClear m s) := by
  unfold cmdFieldClear
  refine runs_withField fun f => ?_
  apply_rules [Runs.refuse, Runs.done, Runs.ite, runs_withField, Keeps.repairEvent, Keeps.clearCrossings, Open.toArray, Array.field, Keeps.modField]

theorem answers_execFieldClear {c : Nat} (hs : F.Keeps l s) (ho : F.Open) : F.Answers l (execFieldClear c s) :=
  answers_command hs (fun _ _ hv => runs_cmdFieldClear hv ho) ho

theorem runs_cmdFieldInsulate {m : List Word} (hs : F.Keeps l s) (ho : F.Open) : F.Runs l (cmdFieldInsulate m s) := by
  unfold cmdFieldInsulate
  refine runs_withField fun f => ?_
  apply_rules [Runs.refuse, Runs.long, Runs.ite, runs_withField, Open.toArray, Array.field, Keeps.modField]

theorem answers_execFieldInsulate {c : Nat} (hs : F.Keeps l s) (ho : F.Open) : F.Answers l (execFieldInsulate c s) :=
  answers_command hs (fun _ _ hv => runs_cmdFieldInsulate hv ho) ho

theorem Keeps.fieldRetain {f : Nat} (hs : F.Keeps l s) (ho : F.Open) : F.Runs l (s.fieldRetain f) := by
  unfold State.fieldRetain
  dsimp only
  apply_rules [Runs.refuse, Runs.long, Runs.ite, Keeps.supersede, Keeps.leavePlan]

theorem Keeps.fieldWake {f : Nat} (hs : F.Keeps l s) (ho : F.Open) : F.Runs l (s.fieldWake f) := by
  unfold State.fieldWake
  dsimp only
  apply_rules [Runs.refuse, Runs.long, Runs.defer, Runs.ite, Keeps.supersede, Open.toArray, Array.field, Keeps.modField]

theorem Keeps.fieldOff {f : Nat} (hs : F.Keeps l s) (ho : F.Open) : F.Runs l (s.fieldOff f) := by
  unfold State.fieldOff
  (repeat' split) <;> apply_rules [Runs.refuse, Runs.long, Keeps.startOff]

theorem runs_cmdFieldPower {m : List Word} (hs : F.Keeps l s) (ho : F.Open) : F.Runs l (cmdFieldPower m s) :=
  .ite .refuse (runs_withField fun _ => .ite (hs.fieldRetain ho) (.ite (hs.fieldWake ho) (hs.fieldOff ho)))

theorem answers_execFieldPower {c : Nat} (hs : F.Keeps l s) (ho : F.Open) : F.Answers l (execFieldPower c s) :=
  answers_command hs (fun _ _ hv => runs_cmdFieldPower hv ho) ho

theorem runs_cmdFieldQuery {m : List Word} (hs : F.Keeps l s) : F.Runs l (cmdFieldQuery m s) := by
  unfold cmdFieldQuery
  refine runs_withField fun f => ?_
  apply_rules [Runs.done, runs_withField]

theorem answers_execFieldQuery {c : Nat} (hs : F.Keeps l s) (ho : F.Open) : F.Answers l (execFieldQuery c s) :=
  answers_command hs (fun _ _ hv => runs_cmdFieldQuery hv) ho

theorem runs_cmdTileReset {m : List Word} (hs : F.Keeps l s) (ho : F.Open) : F.Runs l (cmdTileReset m s) :=
  runs_withTile fun _ => .ite (.done (hs.resetTile ho)) .refuse

theorem answers_execTileReset {c : Nat} (hs : F.Keeps l s) (ho : F.Open) : F.Answers l (execTileReset c s) :=
  answers_command hs (fun _ _ hv => runs_cmdTileReset hv ho) ho

/-- Each outcome of a choice keeps the scope where both do. -/
theorem keeps_either {c : Prop} [Decidable c] {a b : Option (Nat × List Word × State)} (ha : ∀ x ∈ a, F.Keeps l x.2.2) (hb : ∀ x ∈ b, F.Keeps l x.2.2) :
    ∀ x ∈ (if c then a else b), F.Keeps l x.2.2 := by split <;> assumption

theorem Keeps.fieldDone {m : List Word} (hs : F.Keeps l s) (ho : F.Open) : ∀ x ∈ s.fieldDone m, F.Keeps l x.2.2 := by
  have never : ∀ x ∈ (none : Option (Nat × List Word × State)), F.Keeps l x.2.2 := fun _ h => nomatch h
  have only {n : Nat} {w : List Word} {u : State} (hu : F.Keeps l u) : ∀ x ∈ some (n, w, u), F.Keeps l x.2.2 := fun _ h => by cases h; exact hu
  have maybe {c : Prop} [Decidable c] {n : Nat} {w : List Word} : ∀ x ∈ (if c then some (n, w, s) else none), F.Keeps l x.2.2 := keeps_either (only hs) never
  unfold State.fieldDone
  exact keeps_either maybe (keeps_either maybe (keeps_either (keeps_either (keeps_either (only (hs.admitField ho)) (only hs)) never) (keeps_either maybe
    (keeps_either maybe (keeps_either (keeps_either maybe (keeps_either maybe maybe)) never)))))

theorem Keeps.setJob {j : Nat} {v : Job} (hs : F.Keeps l s) (ho : F.Open) : F.Keeps l (s.setJob j v) := by
  unfold State.setJob
  apply_rules [Keeps.rest]

theorem runs_withJob {m : List Word} {k : Nat → CmdOut} (hk : ∀ j, F.Runs l (k j)) : F.Runs l (withJob m k) := .ite .refuse (hk _)

theorem runs_cmdJobDeclare {m : List Word} (hs : F.Keeps l s) (ho : F.Open) : F.Runs l (cmdJobDeclare m s) := by
  unfold cmdJobDeclare
  refine runs_withJob fun f => ?_
  (repeat' split) <;> apply_rules [Runs.refuse, Runs.done, runs_withJob, Keeps.setJob]

theorem answers_execJobDeclare {c : Nat} (hs : F.Keeps l s) (ho : F.Open) : F.Answers l (execJobDeclare c s) :=
  answers_command hs (fun _ _ hv => runs_cmdJobDeclare hv ho) ho

theorem Keeps.record {p : LoadRun} {j : Nat} {r : JobRec} (hs : F.Keeps l p.s) (ho : F.Open) : F.Keeps l (p.record j r).s := by
  have hv : F.Keeps l (if (p.s.tile r.tile).inService then p.s.resetTile r.tile else p.s) := .ite (hs.resetTile ho) hs
  unfold LoadRun.record
  dsimp only
  split
  · exact hv.setJob ho
  · exact (hv.rawPut (ho.core _) (ho.reg _) (ho.any _)).setJob ho

theorem runs_cmdJobLoad {m : List Word} (hs : F.Keeps l s) (ho : F.Open) : F.Runs l (cmdJobLoad m s) := by
  refine runs_withJob fun j => .ite .refuse ?_
  split
  · exact .refuse
  refine .ite .refuse ?_
  split
  · exact .refuse
  split
  · exact .refuse
  · exact .long (Keeps.foldl_part LoadRun.s (fun _ _ hv => Keeps.record hv ho) (hs.setJob ho))

theorem answers_execJobLoad {c : Nat} (hs : F.Keeps l s) (ho : F.Open) : F.Answers l (execJobLoad c s) :=
  answers_command hs (fun _ _ hv => runs_cmdJobLoad hv ho) ho

theorem Keeps.regen {e : TileId × Nat × Nat} (hs : F.Keeps l s) (ho : F.Open) : F.Keeps l (s.regen e) := by
  unfold State.regen
  apply_rules [Keeps.rawPut, Open.toArray, Array.core, Array.reg, Array.any]

theorem runs_cmdJobStart {m : List Word} (hs : F.Keeps l s) (ho : F.Open) : F.Runs l (cmdJobStart m s) := by
  unfold cmdJobStart
  refine runs_withJob fun f => ?_
  apply_rules [Runs.refuse, Runs.long, Runs.defer, Runs.ite, runs_withJob, Keeps.supersede, Keeps.regen, Keeps.setJob, Keeps.foldl, Open.toArray, Array.tile,
      Keeps.modTile_alike] <;> intros <;> apply_rules [Runs.refuse, Runs.long, Runs.defer, Runs.ite, runs_withJob, Keeps.supersede, Keeps.regen, Keeps.setJob,
      Keeps.foldl, Open.toArray, Array.tile, Keeps.modTile_alike] <;> exact ⟨rfl, rfl, rfl⟩

theorem answers_execJobStart {c : Nat} (hs : F.Keeps l s) (ho : F.Open) : F.Answers l (execJobStart c s) :=
  answers_command hs (fun _ _ hv => runs_cmdJobStart hv ho) ho

theorem runs_cmdJobStop {m : List Word} (hs : F.Keeps l s) (ho : F.Open) : F.Runs l (cmdJobStop m s) :=
  runs_withJob fun _ => .ite (.long (hs.supersede ho)) (.ite (.long (Keeps.setJob (hs.foldl fun _ _ hv => hv.resetTile ho) ho)) .refuse)

theorem answers_execJobStop {c : Nat} (hs : F.Keeps l s) (ho : F.Open) : F.Answers l (execJobStop c s) :=
  answers_command hs (fun _ _ hv => runs_cmdJobStop hv ho) ho

theorem runs_cmdJobRelease {m : List Word} (hs : F.Keeps l s) (ho : F.Open) : F.Runs l (cmdJobRelease m s) := by
  unfold cmdJobRelease
  refine runs_withJob fun f => ?_
  apply_rules [Runs.refuse, Runs.done, Runs.ite, runs_withJob, Keeps.setJob]

theorem answers_execJobRelease {c : Nat} (hs : F.Keeps l s) (ho : F.Open) : F.Answers l (execJobRelease c s) :=
  answers_command hs (fun _ _ hv => runs_cmdJobRelease hv ho) ho

theorem runs_cmdJobQuery {m : List Word} (hs : F.Keeps l s) : F.Runs l (cmdJobQuery m s) := by
  unfold cmdJobQuery
  refine runs_withJob fun f => ?_
  apply_rules [Runs.done, runs_withJob]

theorem answers_execJobQuery {c : Nat} (hs : F.Keeps l s) (ho : F.Open) : F.Answers l (execJobQuery c s) :=
  answers_command hs (fun _ _ hv => runs_cmdJobQuery hv) ho

theorem keeps_foldLoadTile {slot : Nat} {purge : Bool} {refs : Tab Word} {p : State × Nat × Nat × Nat} {t : TileId} (hs : F.Keeps l p.1) (ho : F.Open) :
    F.Keeps l (foldLoadTile slot purge refs p t).1 := by
  unfold foldLoadTile
  split
  · exact hs
  · next w _ =>
    have hd := hs.dloadAt (sl := slot) (r := hrefOf w) (purge := purge) (ho.core t) (ho.any _)
    split
    · exact hs
    split
    · next e => rw [e] at hd; exact hd
    · next e => rw [e] at hd; exact hd

theorem runs_cmdFoldLoad {m : List Word} (hs : F.Keeps l s) (ho : F.Open) : F.Runs l (cmdFoldLoad m s) :=
  runs_withJob fun _ => .ite .refuse (.ite .refuse (.long (Keeps.foldl_part Prod.fst (fun _ _ hv => keeps_foldLoadTile hv ho) hs)))

theorem answers_execFoldLoad {c : Nat} (hs : F.Keeps l s) (ho : F.Open) : F.Answers l (execFoldLoad c s) :=
  answers_command hs (fun _ _ hv => runs_cmdFoldLoad hv ho) ho

theorem runs_cmdFoldSwitch {m : List Word} (hs : F.Keeps l s) (ho : F.Open) : F.Runs l (cmdFoldSwitch m s) := by
  unfold cmdFoldSwitch
  refine runs_withJob fun f => ?_
  apply_rules [Runs.refuse, Runs.long, Runs.ite, runs_withJob, Keeps.orderSwitch, Keeps.foldl, Open.toArray] <;> intros
      <;> apply_rules [Runs.refuse, Runs.long, Runs.ite, runs_withJob, Keeps.orderSwitch, Keeps.foldl, Open.toArray]
theorem answers_execFoldSwitch {c : Nat} (hs : F.Keeps l s) (ho : F.Open) : F.Answers l (execFoldSwitch c s) :=
  answers_command hs (fun _ _ hv => runs_cmdFoldSwitch hv ho) ho

theorem runs_cmdFoldSchedule {m : List Word} (hs : F.Keeps l s) (ho : F.Open) : F.Runs l (cmdFoldSchedule m s) := by
  unfold cmdFoldSchedule
  refine runs_withJob fun f => ?_
  apply_rules [Runs.refuse, Runs.done, Runs.ite, runs_withJob, Keeps.foldl, Open.toArray, Array.tile, Keeps.modTile_alike] <;> intros
      <;> apply_rules [Runs.refuse, Runs.done, Runs.ite, runs_withJob, Keeps.foldl, Open.toArray, Array.tile, Keeps.modTile_alike] <;> exact ⟨rfl, rfl, rfl⟩

theorem answers_execFoldSchedule {c : Nat} (hs : F.Keeps l s) (ho : F.Open) : F.Answers l (execFoldSchedule c s) :=
  answers_command hs (fun _ _ hv => runs_cmdFoldSchedule hv ho) ho

theorem runs_cmdSysIdentify {m : List Word} (hs : F.Keeps l s) : F.Runs l (cmdSysIdentify m s) := .done hs

theorem answers_execSysIdentify {c : Nat} (hs : F.Keeps l s) (ho : F.Open) : F.Answers l (execSysIdentify c s) := answers_command hs (fun _ _ hv => runs_cmdSysIdentify hv) ho

theorem runs_cmdSysStatus {m : List Word} (hs : F.Keeps l s) : F.Runs l (cmdSysStatus m s) := .done hs

theorem answers_execSysStatus {c : Nat} (hs : F.Keeps l s) (ho : F.Open) : F.Answers l (execSysStatus c s) := answers_command hs (fun _ _ hv => runs_cmdSysStatus hv) ho

end Scope
end Sys2Proof.Machine
end

section
/-! SUPPORT. Scopes: Gliast commands of brokers, cells, power and clocks. -/

namespace Sys2Proof.Machine
namespace Scope
variable {F : Scope} {l s : State}

theorem runs_cmdSysWarmReset {m : List Word} (hs : F.Keeps l s) (ho : F.Open) : F.Runs l (cmdSysWarmReset m s) := .ite (.long (hs.startWarm ho)) .refuse

theorem answers_execSysWarmReset {c : Nat} (hs : F.Keeps l s) (ho : F.Open) : F.Answers l (execSysWarmReset c s) :=
  answers_command hs (fun _ _ hv => runs_cmdSysWarmReset hv ho) ho

theorem runs_cmdSysSetWaferId {m : List Word} (hs : F.Keeps l s) (ho : F.Open) : F.Runs l (cmdSysSetWaferId m s) := by
  unfold cmdSysSetWaferId
  dsimp only
  apply_rules [Runs.refuse, Runs.done, Runs.ite, Keeps.sayBlock, Keeps.foldl, Keeps.rest] <;> intros
      <;> apply_rules [Runs.refuse, Runs.done, Runs.ite, Keeps.sayBlock, Keeps.foldl, Keeps.rest]
theorem answers_execSysSetWaferId {c : Nat} (hs : F.Keeps l s) (ho : F.Open) : F.Answers l (execSysSetWaferId c s) :=
  answers_command hs (fun _ _ hv => runs_cmdSysSetWaferId hv ho) ho

theorem runs_cmdSysHandover {m : List Word} (hs : F.Keeps l s) (ho : F.Open) : F.Runs l (cmdSysHandover m s) := by
  unfold cmdSysHandover
  apply_rules [Runs.refuse, Runs.long, Runs.ite, Keeps.rest]

theorem answers_execSysHandover {c : Nat} (hs : F.Keeps l s) (ho : F.Open) : F.Answers l (execSysHandover c s) :=
  answers_command hs (fun _ _ hv => runs_cmdSysHandover hv ho) ho

theorem runs_cmdSysBoundVoid {m : List Word} (hs : F.Keeps l s) (ho : F.Open) : F.Runs l (cmdSysBoundVoid m s) := by
  unfold cmdSysBoundVoid
  dsimp only
  (repeat' split) <;> apply_rules [Runs.refuse, Runs.done, Keeps.holdVoid, Keeps.foldl, Open.toArray, Array.field, Keeps.modField] <;> intros
      <;> apply_rules [Runs.refuse, Runs.done, Keeps.holdVoid, Keeps.foldl, Open.toArray, Array.field, Keeps.modField]
theorem answers_execSysBoundVoid {c : Nat} (hs : F.Keeps l s) (ho : F.Open) : F.Answers l (execSysBoundVoid c s) :=
  answers_command hs (fun _ _ hv => runs_cmdSysBoundVoid hv ho) ho

theorem answers_execSysPing {c : Nat} (hs : F.Keeps l s) (ho : F.Open) : F.Answers l (execSysPing c s) := by
  refine answers_command hs (fun m v hv => ?_) ho
  exact .done hv

theorem Keeps.brokerAsk {c : Nat} {wafer : Nat} {r : BrokerReq} {body : BrokerBody} (hs : F.Keeps l s) (ho : F.Open) :
    F.Runs l (s.brokerAsk c wafer r body) := by
  unfold State.brokerAsk
  dsimp only
  (repeat' split) <;> apply_rules [Runs.refuse, Runs.long, Keeps.sendBroker, Keeps.rest]

theorem answers_execBrokerConnect {c : Nat} (hs : F.Keeps l s) (ho : F.Open) : F.Answers l (execBrokerConnect c s) :=
  answers_command hs (fun _ _ hv => .ite .refuse (runs_withTile fun _ => .ite .refuse (hv.brokerAsk ho))) ho

theorem runs_cmdBrokerClose {m : List Word} (hs : F.Keeps l s) (ho : F.Open) : F.Runs l (cmdBrokerClose m s) := by
  refine .ite .refuse (runs_withTile fun t => .ite .refuse (.done (Keeps.sendBroker (Keeps.modTile_array ?_ ho.toArray ?_) ho)))
  · exact .ite (hs.sendClose (ho.core t)) (.ite (hs.sendClose (ho.core t)) hs)
  · exact id

theorem answers_execBrokerClose {c : Nat} (hs : F.Keeps l s) (ho : F.Open) : F.Answers l (execBrokerClose c s) :=
  answers_command hs (fun _ _ hv => runs_cmdBrokerClose hv ho) ho

theorem runs_cmdBrokerPolicy {m : List Word} (hs : F.Keeps l s) (ho : F.Open) : F.Runs l (cmdBrokerPolicy m s) := by
  unfold cmdBrokerPolicy
  apply_rules [Runs.refuse, Runs.done, Runs.ite, Keeps.rest]

theorem answers_execBrokerPolicy {c : Nat} (hs : F.Keeps l s) (ho : F.Open) : F.Answers l (execBrokerPolicy c s) :=
  answers_command hs (fun _ _ hv => runs_cmdBrokerPolicy hv ho) ho

theorem runs_cmdWindowPublish {m : List Word} (hs : F.Keeps l s) (ho : F.Open) : F.Runs l (cmdWindowPublish m s) :=
  .ite .refuse (runs_withTile fun _ => .ite .refuse (.ite .refuse (.done (hs.rest ho))))

theorem answers_execWindowPublish {c : Nat} (hs : F.Keeps l s) (ho : F.Open) : F.Answers l (execWindowPublish c s) :=
  answers_command hs (fun _ _ hv => runs_cmdWindowPublish hv ho) ho

theorem runs_cmdWindowWithdraw {m : List Word} (hs : F.Keeps l s) (ho : F.Open) : F.Runs l (cmdWindowWithdraw m s) := by
  unfold cmdWindowWithdraw
  apply_rules [Runs.refuse, Runs.done, Runs.ite, Keeps.rest]

theorem answers_execWindowWithdraw {c : Nat} (hs : F.Keeps l s) (ho : F.Open) : F.Answers l (execWindowWithdraw c s) :=
  answers_command hs (fun _ _ hv => runs_cmdWindowWithdraw hv ho) ho

theorem answers_execWindowLookup {c : Nat} (hs : F.Keeps l s) (ho : F.Open) : F.Answers l (execWindowLookup c s) :=
  answers_command hs (fun _ _ hv => .ite .refuse (hv.brokerAsk ho)) ho

theorem runs_withCell {m : List Word} {g : Nat → Nat → CmdOut} {k : TileId → Nat → CmdOut} (hg : ∀ f i, F.Runs l (g f i)) (hk : ∀ t c, F.Runs l (k t c)) :
    F.Runs l (s.withCell m g k) := .ite .refuse (.ite (.ite .refuse (runs_withTile fun t => hk t _)) (.ite (hg _ _) .refuse))

theorem runs_cmdCellRead {m : List Word} (hs : F.Keeps l s) : F.Runs l (cmdCellRead m s) := runs_withCell (fun _ _ => .done hs) fun _ _ => .done hs

theorem answers_execCellRead {c : Nat} (hs : F.Keeps l s) (ho : F.Open) : F.Answers l (execCellRead c s) :=
  answers_command hs (fun _ _ hv => runs_cmdCellRead hv) ho

theorem answers_execCellSet {c : Nat} (hs : F.Keeps l s) (ho : F.Open) : F.Answers l (execCellSet c s) :=
  answers_command hs (fun _ _ hv => .ite .refuse (runs_withCell (fun _ _ => .done (hv.cellSet ho.toArray)) fun t _ =>
    .done (hv.writeLocal (ho.core t) (ho.reg _)).event)) ho

theorem answers_execCellForce {c : Nat} (hs : F.Keeps l s) (ho : F.Open) : F.Answers l (execCellForce c s) :=
  answers_command hs (fun _ _ hv => .ite .refuse (runs_withCell (fun _ _ => .ite .refuse (.done (hv.cellForce ho.toArray))) fun t _ =>
    .ite .refuse (.done (Keeps.event (.ite (hv.endWait (ho.core t) (ho.reg _)) hv))))) ho

theorem runs_cmdCellWaiters {m : List Word} (hs : F.Keeps l s) : F.Runs l (cmdCellWaiters m s) := runs_withCell (fun _ _ => .done hs) fun _ _ => .done hs

theorem answers_execCellWaiters {c : Nat} (hs : F.Keeps l s) (ho : F.Open) : F.Answers l (execCellWaiters c s) :=
  answers_command hs (fun _ _ hv => runs_cmdCellWaiters hv) ho

theorem runs_cmdTileRelease {m : List Word} (hs : F.Keeps l s) (ho : F.Open) : F.Runs l (cmdTileRelease m s) :=
  .ite .refuse (runs_withTile fun t => .done (.ite (hs.debugAll (ho.core t) (ho.reg _) (ho.any _)) (hs.coreExpire (ho.core t) (ho.reg _) (ho.any _))))

theorem answers_execTileRelease {c : Nat} (hs : F.Keeps l s) (ho : F.Open) : F.Answers l (execTileRelease c s) :=
  answers_command hs (fun _ _ hv => runs_cmdTileRelease hv ho) ho

theorem runs_cmdPwrSetCap {m : List Word} (hs : F.Keeps l s) (ho : F.Open) : F.Runs l (cmdPwrSetCap m s) := by
  unfold cmdPwrSetCap
  apply_rules [Runs.refuse, Runs.done, Runs.ite, Keeps.bothMasters, Open.toArray, Array.field]

theorem answers_execPwrSetCap {c : Nat} (hs : F.Keeps l s) (ho : F.Open) : F.Answers l (execPwrSetCap c s) :=
  answers_command hs (fun _ _ hv => runs_cmdPwrSetCap hv ho) ho

theorem runs_cmdPwrSetPolicy {m : List Word} (hs : F.Keeps l s) (ho : F.Open) : F.Runs l (cmdPwrSetPolicy m s) := by
  unfold cmdPwrSetPolicy
  dsimp only
  apply_rules [Runs.refuse, Runs.done, Runs.ite, Keeps.bothMasters, Open.toArray, Array.field]

theorem answers_execPwrSetPolicy {c : Nat} (hs : F.Keeps l s) (ho : F.Open) : F.Answers l (execPwrSetPolicy c s) :=
  answers_command hs (fun _ _ hv => runs_cmdPwrSetPolicy hv ho) ho

theorem runs_cmdPwrSetGroup {m : List Word} (hs : F.Keeps l s) (ho : F.Open) : F.Runs l (cmdPwrSetGroup m s) := by
  unfold cmdPwrSetGroup
  dsimp only
  apply_rules [Runs.refuse, Runs.done, Runs.ite, Keeps.groupCap, Open.toArray, Array.field, Keeps.rest]

theorem answers_execPwrSetGroup {c : Nat} (hs : F.Keeps l s) (ho : F.Open) : F.Answers l (execPwrSetGroup c s) :=
  answers_command hs (fun _ _ hv => runs_cmdPwrSetGroup hv ho) ho

theorem runs_cmdPwrQuery {m : List Word} (hs : F.Keeps l s) : F.Runs l (cmdPwrQuery m s) := by
  unfold cmdPwrQuery
  dsimp only
  apply_rules [Runs.done]

theorem answers_execPwrQuery {c : Nat} (hs : F.Keeps l s) (ho : F.Open) : F.Answers l (execPwrQuery c s) :=
  answers_command hs (fun _ _ hv => runs_cmdPwrQuery hv) ho

theorem runs_cmdThatchSet {m : List Word} (hs : F.Keeps l s) (ho : F.Open) : F.Runs l (cmdThatchSet m s) := by
  unfold cmdThatchSet
  dsimp only
  (repeat' split) <;> apply_rules [Runs.refuse, Runs.long, Keeps.writeTileReg, Keeps.foldl, Open.toArray, Array.core, Array.reg, Array.any] <;> intros
      <;> apply_rules [Runs.refuse, Runs.long, Keeps.writeTileReg, Keeps.foldl, Open.toArray, Array.core, Array.reg, Array.any]
theorem answers_execThatchSet {c : Nat} (hs : F.Keeps l s) (ho : F.Open) : F.Answers l (execThatchSet c s) :=
  answers_command hs (fun _ _ hv => runs_cmdThatchSet hv ho) ho

theorem runs_cmdThermSetLimits {m : List Word} (hs : F.Keeps l s) (ho : F.Open) : F.Runs l (cmdThermSetLimits m s) := by
  unfold cmdThermSetLimits
  dsimp only
  (repeat' split) <;> apply_rules [Runs.refuse, Runs.done, Keeps.writeFcReg, Keeps.foldl, Open.toArray, Open.ports] <;> intros
      <;> apply_rules [Runs.refuse, Runs.done, Keeps.writeFcReg, Keeps.foldl, Open.toArray, Open.ports]
theorem answers_execThermSetLimits {c : Nat} (hs : F.Keeps l s) (ho : F.Open) : F.Answers l (execThermSetLimits c s) :=
  answers_command hs (fun _ _ hv => runs_cmdThermSetLimits hv ho) ho

theorem runs_cmdClkSetOp {m : List Word} (hs : F.Keeps l s) (ho : F.Open) : F.Runs l (cmdClkSetOp m s) := by
  refine .ite .refuse ?_
  split
  · exact .refuse
  · exact .long ((hs.rest ho).sendOrder ho.toFields)

theorem answers_execClkSetOp {c : Nat} (hs : F.Keeps l s) (ho : F.Open) : F.Answers l (execClkSetOp c s) :=
  answers_command hs (fun _ _ hv => runs_cmdClkSetOp hv ho) ho

theorem runs_cmdClkSetMode {m : List Word} (hs : F.Keeps l s) (ho : F.Open) : F.Runs l (cmdClkSetMode m s) := by
  unfold cmdClkSetMode
  dsimp only
  (repeat' split) <;> apply_rules [Runs.refuse, Runs.long, Runs.defer, Keeps.supersede, Keeps.sendOrder, Open.toFields]

theorem answers_execClkSetMode {c : Nat} (hs : F.Keeps l s) (ho : F.Open) : F.Answers l (execClkSetMode c s) :=
  answers_command hs (fun _ _ hv => runs_cmdClkSetMode hv ho) ho

end Scope
end Sys2Proof.Machine
end

section
/-! SUPPORT. Scopes: Gliast commands of the ports and how commands complete. -/

namespace Sys2Proof.Machine
namespace Scope
variable {F : Scope} {l s : State}

theorem runs_cmdClkQuery {m : List Word} (hs : F.Keeps l s) : F.Runs l (cmdClkQuery m s) := by
  unfold cmdClkQuery
  dsimp only
  apply_rules [Runs.done]

theorem answers_execClkQuery {c : Nat} (hs : F.Keeps l s) (ho : F.Open) : F.Answers l (execClkQuery c s) :=
  answers_command hs (fun _ _ hv => runs_cmdClkQuery hv) ho

theorem runs_withPort {m : List Word} {k : Nat → CmdOut} (hk : ∀ p, F.Runs l (k p)) : F.Runs l (withPort m k) := .ite .refuse (hk _)

theorem Keeps.programmed (hs : F.Keeps l s) (ho : F.Open) : F.Keeps l (s.programmed) := by
  unfold State.programmed
  apply_rules [Keeps.rest]

theorem Keeps.ctrlBit {p i : Nat} {on : Bool} (hs : F.Keeps l s) (ho : F.Open) : F.Keeps l (s.ctrlBit p i on) := by
  unfold State.ctrlBit
  dsimp only
  apply_rules [Keeps.programmed, Keeps.portCtrl, Open.toArray, Open.ports]

theorem runs_cmdPortUp {m : List Word} (hs : F.Keeps l s) (ho : F.Open) : F.Runs l (cmdPortUp m s) := by
  unfold cmdPortUp
  refine runs_withPort fun f => ?_
  apply_rules [Runs.done, Runs.defer, Runs.ite, runs_withPort, Keeps.supersede, Keeps.ctrlBit]

theorem answers_execPortUp {c : Nat} (hs : F.Keeps l s) (ho : F.Open) : F.Answers l (execPortUp c s) :=
  answers_command hs (fun _ _ hv => runs_cmdPortUp hv ho) ho

theorem runs_cmdPortDown {m : List Word} (hs : F.Keeps l s) (ho : F.Open) : F.Runs l (cmdPortDown m s) := by
  unfold cmdPortDown
  refine runs_withPort fun f => ?_
  apply_rules [Runs.done, Runs.long, Runs.ite, runs_withPort, Keeps.ctrlBit, Keeps.supersede]

theorem answers_execPortDown {c : Nat} (hs : F.Keeps l s) (ho : F.Open) : F.Answers l (execPortDown c s) :=
  answers_command hs (fun _ _ hv => runs_cmdPortDown hv ho) ho

theorem runs_cmdPortRetrain {m : List Word} (hs : F.Keeps l s) (ho : F.Open) : F.Runs l (cmdPortRetrain m s) := by
  unfold cmdPortRetrain
  refine runs_withPort fun f => ?_
  apply_rules [Runs.refuse, Runs.long, Runs.ite, runs_withPort, Keeps.retrain]

theorem answers_execPortRetrain {c : Nat} (hs : F.Keeps l s) (ho : F.Open) : F.Answers l (execPortRetrain c s) :=
  answers_command hs (fun _ _ hv => runs_cmdPortRetrain hv ho) ho

theorem runs_cmdPortRelay {m : List Word} (hs : F.Keeps l s) (ho : F.Open) : F.Runs l (cmdPortRelay m s) := by
  unfold cmdPortRelay
  refine runs_withPort fun f => ?_
  apply_rules [Runs.refuse, Runs.done, Runs.ite, runs_withPort, Keeps.ctrlBit]

theorem answers_execPortRelay {c : Nat} (hs : F.Keeps l s) (ho : F.Open) : F.Answers l (execPortRelay c s) :=
  answers_command hs (fun _ _ hv => runs_cmdPortRelay hv ho) ho

theorem runs_cmdPortLaneMap {m : List Word} (hs : F.Keeps l s) (ho : F.Open) : F.Runs l (cmdPortLaneMap m s) := by
  unfold cmdPortLaneMap
  refine runs_withPort fun f => ?_
  apply_rules [Runs.refuse, Runs.done, Runs.ite, runs_withPort, Keeps.programmed, Keeps.modPort, Open.ports]

theorem answers_execPortLaneMap {c : Nat} (hs : F.Keeps l s) (ho : F.Open) : F.Answers l (execPortLaneMap c s) :=
  answers_command hs (fun _ _ hv => runs_cmdPortLaneMap hv ho) ho

theorem runs_cmdPortConfig {m : List Word} (hs : F.Keeps l s) (ho : F.Open) : F.Runs l (cmdPortConfig m s) := by
  unfold cmdPortConfig
  refine runs_withPort fun f => ?_
  apply_rules [Runs.refuse, Runs.done, Runs.ite, runs_withPort, Keeps.programmed, Keeps.modPort, Open.ports]

theorem answers_execPortConfig {c : Nat} (hs : F.Keeps l s) (ho : F.Open) : F.Answers l (execPortConfig c s) :=
  answers_command hs (fun _ _ hv => runs_cmdPortConfig hv ho) ho

theorem runs_cmdRouteSet {m : List Word} (hs : F.Keeps l s) (ho : F.Open) : F.Runs l (cmdRouteSet m s) :=
  .ite .refuse (.done ((hs.foldl fun _ _ hv => hv.foldl fun _ _ hw => hw.modPort ho.ports).programmed ho))

theorem answers_execRouteSet {c : Nat} (hs : F.Keeps l s) (ho : F.Open) : F.Answers l (execRouteSet c s) :=
  answers_command hs (fun _ _ hv => runs_cmdRouteSet hv ho) ho

theorem runs_cmdRouteClear {m : List Word} (hs : F.Keeps l s) (ho : F.Open) : F.Runs l (cmdRouteClear m s) :=
  .ite .refuse (.ite (.done ((hs.foldl fun _ _ hv => .ite (hv.modPort ho.ports) hv).programmed ho)) .refuse)

theorem answers_execRouteClear {c : Nat} (hs : F.Keeps l s) (ho : F.Open) : F.Answers l (execRouteClear c s) :=
  answers_command hs (fun _ _ hv => runs_cmdRouteClear hv ho) ho

theorem runs_cmdPortQuery {m : List Word} (hs : F.Keeps l s) : F.Runs l (cmdPortQuery m s) := by
  unfold cmdPortQuery
  refine runs_withPort fun f => ?_
  apply_rules [Runs.done, runs_withPort]

theorem answers_execPortQuery {c : Nat} (hs : F.Keeps l s) (ho : F.Open) : F.Answers l (execPortQuery c s) :=
  answers_command hs (fun _ _ hv => runs_cmdPortQuery hv) ho

theorem runs_cmdPortForget {m : List Word} (hs : F.Keeps l s) (ho : F.Open) : F.Runs l (cmdPortForget m s) := by
  unfold cmdPortForget
  refine runs_withPort fun f => ?_
  apply_rules [Runs.done, runs_withPort, Keeps.modPort, Open.ports]

theorem answers_execPortForget {c : Nat} (hs : F.Keeps l s) (ho : F.Open) : F.Answers l (execPortForget c s) :=
  answers_command hs (fun _ _ hv => runs_cmdPortForget hv ho) ho

theorem Keeps.commitImage {kind : Nat} (hs : F.Keeps l s) (ho : F.Open) : F.Keeps l (s.commitImage kind) := by
  unfold State.commitImage
  dsimp only
  (repeat' split) <;> apply_rules [Keeps.event, Keeps.rest]

theorem runs_cmdFwQuery {m : List Word} (hs : F.Keeps l s) : F.Runs l (cmdFwQuery m s) := by
  unfold cmdFwQuery
  apply_rules [Runs.done]

theorem answers_execFwQuery {c : Nat} (hs : F.Keeps l s) (ho : F.Open) : F.Answers l (execFwQuery c s) :=
  answers_command hs (fun _ _ hv => runs_cmdFwQuery hv) ho

theorem Keeps.tileImage {f : Nat} {i : Img} (hs : F.Keeps l s) (ho : F.Open) : F.Keeps l (s.tileImage f i) := by
  unfold State.tileImage
  dsimp only
  (repeat' split) <;> apply_rules [Keeps.modSvc, Open.toArray, Array.field, Keeps.modField, Keeps.rest]

theorem runs_cmdFwApply {m : List Word} (hs : F.Keeps l s) (ho : F.Open) : F.Runs l (cmdFwApply m s) := by
  unfold cmdFwApply
  dsimp only
  (repeat' split) <;> apply_rules [Runs.refuse, Runs.long, Keeps.commitImage, Keeps.tileImage, Keeps.foldl, Open.toArray, Array.field, Keeps.modField,
      Keeps.rest] <;> intros <;> apply_rules [Runs.refuse, Runs.long, Keeps.commitImage, Keeps.tileImage, Keeps.foldl, Open.toArray, Array.field,
      Keeps.modField, Keeps.rest]
theorem answers_execFwApply {c : Nat} (hs : F.Keeps l s) (ho : F.Open) : F.Answers l (execFwApply c s) :=
  answers_command hs (fun _ _ hv => runs_cmdFwApply hv ho) ho

theorem Keeps.applyDone (hs : F.Keeps l s) (ho : F.Open) : ∀ u ∈ s.applyDone, F.Keeps l u := by
  intro u hu
  unfold State.applyDone at hu
  dsimp only at hu
  split at hu
  · cases hu; exact hs.rest ho
  · cases hu

theorem runs_cmdMapGet {m : List Word} (hs : F.Keeps l s) (ho : F.Open) : F.Runs l (cmdMapGet m s) := by
  unfold cmdMapGet
  dsimp only
  (repeat' split) <;> apply_rules [Runs.refuse, Runs.long, Keeps.hostPut, Open.hosts]

theorem answers_execMapGet {c : Nat} (hs : F.Keeps l s) (ho : F.Open) : F.Answers l (execMapGet c s) :=
  answers_command hs (fun _ _ hv => runs_cmdMapGet hv ho) ho

theorem runs_cmdDistGet {m : List Word} (hs : F.Keeps l s) (ho : F.Open) : F.Runs l (cmdDistGet m s) := by
  unfold cmdDistGet
  dsimp only
  (repeat' split) <;> apply_rules [Runs.refuse, Runs.long, Keeps.hostPut, Open.hosts]

theorem answers_execDistGet {c : Nat} (hs : F.Keeps l s) (ho : F.Open) : F.Answers l (execDistGet c s) :=
  answers_command hs (fun _ _ hv => runs_cmdDistGet hv ho) ho

theorem runs_cmdMapWait {m : List Word} (hs : F.Keeps l s) : F.Runs l (cmdMapWait m s) := by
  unfold cmdMapWait
  apply_rules [Runs.refuse, Runs.long, Runs.ite]

theorem answers_execMapWait {c : Nat} (hs : F.Keeps l s) (ho : F.Open) : F.Answers l (execMapWait c s) :=
  answers_command hs (fun _ _ hv => runs_cmdMapWait hv) ho

theorem Keeps.endStop {j : Nat} (hs : F.Keeps l s) (ho : F.Open) : F.Keeps l (s.endStop j) := by
  unfold State.endStop
  apply_rules [Keeps.setJob, Keeps.ite]

theorem Keeps.workDone {p : PendCmd} (hs : F.Keeps l s) (ho : F.Open) : ∀ x ∈ s.workDone p, F.Keeps l x.2.2 := by
  have never : ∀ x ∈ (none : Option (Nat × List Word × State)), F.Keeps l x.2.2 := fun _ h => nomatch h
  have only {n : Nat} {w : List Word} {u : State} (hu : F.Keeps l u) : ∀ x ∈ some (n, w, u), F.Keeps l x.2.2 := fun _ h => by cases h; exact hu
  have maybe {c : Prop} [Decidable c] {n : Nat} {w : List Word} : ∀ x ∈ (if c then some (n, w, s) else none), F.Keeps l x.2.2 := keeps_either (only hs) never
  have waits {c : Prop} [Decidable c] {n : Nat} {w : List Word} {u : State} (hu : F.Keeps l u) : ∀ x ∈ (if c then none else some (n, w, u)), F.Keeps l x.2.2 :=
    keeps_either never (only hu)
  have applied : ∀ x ∈ s.applyDone.map (fun t => (rcOk, p.results, t)), F.Keeps l x.2.2 := fun x hx => by
    obtain ⟨u, hu, rfl⟩ := Option.mem_map.mp hx
    exact hs.applyDone ho u hu
  unfold State.workDone
  exact keeps_either (waits (hs.endStop ho)) (keeps_either maybe (keeps_either (keeps_either maybe (waits hs)) (keeps_either maybe
    (keeps_either (waits hs) (keeps_either applied (keeps_either maybe (hs.fieldDone ho)))))))

theorem answers_execCommandComplete {c seq : Nat} (hs : F.Keeps l s) (ho : F.Open) : F.Answers l (execCommandComplete c seq s) := by
  unfold execCommandComplete
  apply Answers.next
  split
  · exact hs
  · refine .ite hs ?_
    split
    · exact hs.endCmd ho
    · split
      · next h => exact Keeps.endCmd (hs.workDone ho _ h) ho
      · exact hs

theorem runs_runEnable {m : List Word} (hs : F.Keeps l s) (ho : F.Open) : F.Runs l (runEnable m s) :=
  .ite (runs_cmdPortUp hs ho) (.ite (runs_cmdFieldPower hs ho) (.ite (runs_cmdJobStart (hs.endStop ho) ho) (runs_cmdClkSetMode hs ho)))

theorem Runs.of_done {o : CmdOut} {w : List Word} {u : State} (e : o = .done w u) (h : F.Runs l o) : F.Keeps l u := by
  subst e; cases h; assumption

theorem Runs.of_long {o : CmdOut} {n : Option Nat} {w : List Word} {u : State} (e : o = .long n w u) (h : F.Runs l o) : F.Keeps l u := by
  subst e; cases h; assumption

theorem answers_execDeferredEnableStart {c seq : Nat} (hs : F.Keeps l s) (ho : F.Open) : F.Answers l (execDeferredEnableStart c seq s) := by
  unfold execDeferredEnableStart
  apply Answers.next
  split
  · exact hs
  · split
    · exact hs
    · refine .ite hs ?_
      dsimp only
      split
      · exact hs.endCmd ho
      · next e => exact (Runs.of_done e (runs_runEnable (hs.rest ho) ho)).endCmd ho
      · next e => exact ((Runs.of_long e (runs_runEnable (hs.rest ho) ho)).addPend ho).modChan ho
      · exact hs

theorem Keeps.release (hs : F.Keeps l s) : F.Keeps l (s.release) := by
  unfold State.release
  apply_rules [Keeps.ite, Keeps.setScarab]

theorem Keeps.installed {detail : List Nat} (hs : F.Keeps l s) : F.Keeps l (s.installed detail) := by
  unfold State.installed
  dsimp only
  apply_rules [Keeps.release, Keeps.setScarab]

end Scope
end Sys2Proof.Machine
end

section
/-! SUPPORT. Scopes: Hedgerow's start, the chassis and its buses. -/

namespace Sys2Proof.Machine
namespace Scope
variable {F : Scope} {l s : State}

theorem Keeps.setUtc {utc : Nat} (hs : F.Keeps l s) (ho : F.Open) : F.Keeps l (s.setUtc utc) := by
  unfold State.setUtc
  apply_rules [Keeps.rest]

theorem Keeps.verify {bad : List Nat} (hs : F.Keeps l s) (ho : F.Open) : F.Keeps l (s.verify bad) := by
  unfold State.verify
  apply_rules [Keeps.rest]

/-- A node that has no entry of its own, or a new one, holds no byte. -/
theorem held_new {b : HostNode} {js : List Nat} {k : Nat} : Held b (Tab.getD (js.map fun j => (j, ({} : HostNode).reboot 0)) k {}) := by
  induction js with
  | nil => exact fun _ => rfl
  | cons j js ih =>
    simp only [List.map_cons, Tab.getD, Tab.find] at ih ⊢
    split
    · exact fun _ => rfl
    · exact ih

theorem Keeps.coldReset (hs : F.Keeps l s) (ho : F.Open) : F.Keeps l s.coldReset := by
  unfold State.coldReset
  dsimp only
  exact Keeps.bootTo (Keeps.foldl (Keeps.event (ho.keeps (fun _ _ => rfl) fun _ => held_new)) fun _ _ hv => hv.portWake ho.toArray ho.ports) ho.toFields

theorem Keeps.tryStart (hs : F.Keeps l s) (ho : F.Open) : F.Keeps l s.tryStart := .ite (hs.coldReset ho) hs

theorem Keeps.profilesDue (hs : F.Keeps l s) (ho : F.Open) : F.Keeps l (s.profilesDue) := by
  unfold State.profilesDue
  dsimp only
  apply_rules [Keeps.rest]

theorem Keeps.hedgeStart {cause : Nat} {bad : List Nat} (hs : F.Keeps l s) (ho : F.Open) : F.Keeps l (s.hedgeStart cause bad) := by
  have hv := (hs.verify (bad := bad) ho)
  exact .ite (hv.rest ho) (Keeps.event (Keeps.profilesDue (hv.rest ho) ho))

theorem Keeps.hedgeRestart {cause : Nat} {bad : List Nat} (hs : F.Keeps l s) (ho : F.Open) : F.Keeps l (s.hedgeRestart cause bad) := by
  unfold State.hedgeRestart
  apply_rules [Keeps.hedgeStart, Keeps.flush, Keeps.release]

theorem answers_execHedgerowRestart {c : HedgeCause} {bad : List Nat} (hs : F.Keeps l s) (ho : F.Open) : F.Answers l (execHedgerowRestart c bad s) := by
  unfold execHedgerowRestart
  dsimp only
  apply Answers.next
  (repeat' split) <;> apply_rules [Keeps.hedgeRestart]

theorem answers_execStandbyInputLoss (hs : F.Keeps l s) (ho : F.Open) : F.Answers l (execStandbyInputLoss s) := by
  have hb : F.Keeps l (if s.chassis.board then s.boardOff 5 else s) := .ite (hs.boardOff ho) hs
  exact .next (.ite (Keeps.rest (.ite hb.release.flush hb) ho) hs)

theorem Keeps.ring {secure : Bool} {code : Nat} {args : List Nat} (hs : F.Keeps l s) (ho : F.Open) : ∀ u ∈ s.ring secure code args, F.Keeps l u := by
  intro u hu
  unfold State.ring at hu
  dsimp only at hu
  split at hu
  · cases hu
  · cases hu
    exact (hs.spineGrant ho).modChan ho

theorem answers_execInputPowerApplied {mv : Nat} {bad : List Nat} (hs : F.Keeps l s) (ho : F.Open) : F.Answers l (execInputPowerApplied mv bad s) := by
  unfold execInputPowerApplied
  dsimp only
  apply Answers.next
  apply_rules [Keeps.freeVal, Keeps.hedgeStart, Keeps.ite, Keeps.rest]

theorem answers_execPowerEnable (hs : F.Keeps l s) (ho : F.Open) : F.Answers l (execPowerEnable s) := by
  unfold execPowerEnable
  dsimp only
  apply Answers.next
  apply_rules [Keeps.tryStart, Keeps.rest]

theorem Keeps.shutdown (hs : F.Keeps l s) (ho : F.Open) : F.Keeps l s.shutdown := by
  have hp := hs.foldl (xs := upto 56) fun _ p hv => hv.portDown (p := p) ho.toArray ho.ports
  refine (((hp.foldl fun v f hv => ?_).boardOff ho).rest ho).flush
  refine .ite ?_ hv
  split <;> first | exact hv.plannedOff ho | exact hv

theorem Keeps.powerWithdrawn {resp : Nat} (hs : F.Keeps l s) (ho : F.Open) : F.Keeps l (s.powerWithdrawn resp) :=
  .ite (hs.rest ho) (.ite (Keeps.boardOff (Keeps.event (hs.rest ho)) ho) (.ite (Keeps.shutdown (Keeps.event (hs.rest ho)) ho)
    (Keeps.rest (Keeps.event (hs.rest ho)) ho)))

theorem answers_execPwrEnFall (hs : F.Keeps l s) (ho : F.Open) : F.Answers l (execPwrEnFall s) := by
  unfold execPwrEnFall
  apply Answers.next
  apply_rules [Keeps.powerWithdrawn, Keeps.ite, Keeps.rest]

theorem answers_execStbyGoodFall (hs : F.Keeps l s) (ho : F.Open) : F.Answers l (execStbyGoodFall s) := by
  unfold execStbyGoodFall
  dsimp only
  apply Answers.next
  apply_rules [Keeps.powerWithdrawn, Keeps.ite, Keeps.rest]

theorem answers_execShutdownConductorTimeout (hs : F.Keeps l s) (ho : F.Open) : F.Answers l (execShutdownConductorTimeout s) := by
  unfold execShutdownConductorTimeout
  apply Answers.next
  split
  · exact .ite (((hs.boardOff ho).rest ho).flush.tryStart ho) hs
  · exact hs

theorem answers_execModResetFall (hs : F.Keeps l s) (ho : F.Open) : F.Answers l (execModResetFall s) :=
  .next (.ite hs (.ite (hs.rest ho) (.ite (Keeps.rest (Keeps.boardOff (Keeps.event (hs.rest ho)) ho) ho) (.ite (Keeps.startWarm (hs.rest ho) ho) (hs.rest ho)))))

theorem answers_execModResetRelease (hs : F.Keeps l s) (ho : F.Open) : F.Answers l (execModResetRelease s) := by
  unfold execModResetRelease
  apply Answers.next
  apply_rules [Keeps.tryStart, Keeps.ite, Keeps.rest]

theorem answers_execIdentInput {low : Bool} (hs : F.Keeps l s) (ho : F.Open) : F.Answers l (execIdentInput low s) := by
  unfold execIdentInput
  apply Answers.next
  apply_rules [Keeps.rest]

theorem Keeps.boardPause (hs : F.Keeps l s) (ho : F.Open) : F.Keeps l s.boardPause := (hs.boardOff ho).rest ho

theorem answers_execConductorSilenceAction (hs : F.Keeps l s) (ho : F.Open) : F.Answers l (execConductorSilenceAction s) := by
  unfold execConductorSilenceAction
  apply Answers.next
  split
  · exact .ite hs (.ite (.ite (Keeps.startWarm (hs.rest ho) ho) (hs.rest ho)) (.ite (Keeps.boardPause (hs.rest ho) ho)
      (Keeps.rest (Keeps.boardOff (Keeps.event (hs.rest ho)) ho) ho)))
  · exact hs

theorem answers_execColdRestartTimer (hs : F.Keeps l s) (ho : F.Open) : F.Answers l (execColdRestartTimer s) := by
  unfold execColdRestartTimer
  apply Answers.next
  (repeat' split) <;> apply_rules [Keeps.tryStart, Keeps.rest]

theorem answers_execBusRestart (hs : F.Keeps l s) (ho : F.Open) : F.Answers l (execBusRestart s) := by
  unfold execBusRestart
  apply Answers.next
  (repeat' split) <;> apply_rules [Keeps.tryStart, Keeps.rest]

theorem answers_execWarmReset {c : WarmCause} {cold : Nat} (hs : F.Keeps l s) (ho : F.Open) : F.Answers l (execWarmReset c cold s) :=
  .next (.ite hs (.ite (hs.startWarm ho) ((hs.event.boardOff ho).tryStart ho)))

theorem Keeps.sense {f : Nat} {fr : SensorFrame} (hs : F.Keeps l s) (ho : F.Open) : F.Keeps l (s.sense f fr) := by
  unfold State.sense
  dsimp only
  apply_rules [Keeps.sensorNow, Keeps.foldl, Open.sensors] <;> intros <;> apply_rules [Keeps.sensorNow, Keeps.foldl, Open.sensors]
theorem Keeps.takeRecs {es : List Ev} (hs : F.Keeps l s) : F.Keeps l (s.takeRecs es) := by
  unfold State.takeRecs
  apply_rules [Keeps.setScarab]

theorem Keeps.takeHolding (hs : F.Keeps l s) : F.Keeps l (s.takeHolding) := by
  unfold State.takeHolding
  apply_rules [Keeps.takeRecs, Keeps.setScarab]

theorem Keeps.takePoll {f : Nat} (hs : F.Keeps l s) : F.Keeps l (s.takePoll f) := by
  unfold State.takePoll
  dsimp only
  apply_rules [Keeps.takeRecs, Keeps.setScarabQ]

theorem answers_execHedgerowFieldPoll {f : Nat} {fr : SensorFrame} (hs : F.Keeps l s) (ho : F.Open) : F.Answers l (execHedgerowFieldPoll f fr s) := by
  unfold execHedgerowFieldPoll
  dsimp only
  apply Answers.next
  apply_rules [Keeps.sense, Keeps.takePoll, Keeps.takeHolding, Keeps.orderOff, Keeps.ite, Keeps.rest]

theorem answers_execScarabHoldingDrain (hs : F.Keeps l s) : F.Answers l (execScarabHoldingDrain s) := .next (.ite { hs with } hs)

theorem answers_execTimeAnchor {utc : Nat} (hs : F.Keeps l s) (ho : F.Open) : F.Answers l (execTimeAnchor utc s) := by
  unfold execTimeAnchor
  dsimp only
  apply Answers.next
  apply_rules [Keeps.setUtc, Keeps.event, Keeps.ite, Keeps.rest]

theorem Keeps.keepSnap {x : Snapshot} (hs : F.Keeps l s) (ho : F.Open) : F.Keeps l (s.keepSnap x) := by
  unfold State.keepSnap
  dsimp only
  apply_rules [Keeps.event, Keeps.rest]

theorem Keeps.modHedge {g : Hedge → Hedge} (hs : F.Keeps l s) (ho : F.Open) : F.Keeps l (s.modHedge g) := by
  unfold State.modHedge
  apply_rules [Keeps.rest]

theorem answers_execSidebandModeTry (hs : F.Keeps l s) (ho : F.Open) : F.Answers l (execSidebandModeTry s) := by
  unfold execSidebandModeTry
  dsimp only
  apply Answers.next
  apply_rules [Keeps.modHedge, Keeps.ite]

theorem answers_execSidebandLink {mode : Nat} {up : Bool} (hs : F.Keeps l s) (ho : F.Open) : F.Answers l (execSidebandLink mode up s) := by
  unfold execSidebandLink
  dsimp only
  apply Answers.next
  apply_rules [Keeps.modHedge, Keeps.event, Keeps.ite]

theorem Keeps.mctpSend {msg : List Byte} (hs : F.Keeps l s) (ho : F.Open) : F.Keeps l (s.mctpSend msg) := by
  unfold State.mctpSend
  apply_rules [Keeps.modHedge]

theorem Keeps.mctpReply {code : Nat} {data : List Byte} (hs : F.Keeps l s) (ho : F.Open) : F.Answers l (s.mctpReply code data) := by
  unfold State.mctpReply
  apply Answers.next
  apply_rules [Keeps.mctpSend, Keeps.ite]

theorem answers_execI3cPrivateRead (hs : F.Keeps l s) (ho : F.Open) : F.Answers l (execI3cPrivateRead s) := by
  unfold execI3cPrivateRead
  apply Answers.next
  (repeat' split) <;> apply_rules [Keeps.modHedge]

theorem answers_execSetEndpointId {eid : Nat} (hs : F.Keeps l s) (ho : F.Open) : F.Answers l (execSetEndpointId eid s) :=
  .ite (.next (.ite (hs.mctpSend ho) hs)) (Answers.next (Keeps.mctpReply (.ite (hs.modHedge ho) hs) ho))

theorem answers_execGetEndpointId (hs : F.Keeps l s) (ho : F.Open) : F.Answers l (execGetEndpointId s) := by
  unfold execGetEndpointId
  apply_rules [Keeps.mctpReply]

theorem answers_execGetMctpVersionSupport (hs : F.Keeps l s) (ho : F.Open) : F.Answers l (execGetMctpVersionSupport s) := by
  unfold execGetMctpVersionSupport
  apply_rules [Keeps.mctpReply]

theorem answers_execGetMessageTypeSupport (hs : F.Keeps l s) (ho : F.Open) : F.Answers l (execGetMessageTypeSupport s) := by
  unfold execGetMessageTypeSupport
  apply_rules [Keeps.mctpReply]

theorem answers_execGetVendorDefinedMsgSupport (hs : F.Keeps l s) (ho : F.Open) : F.Answers l (execGetVendorDefinedMsgSupport s) := by
  unfold execGetVendorDefinedMsgSupport
  apply_rules [Keeps.mctpReply]

theorem answers_execHealth (hs : F.Keeps l s) (ho : F.Open) : F.Answers l (execHealth s) := by
  unfold execHealth
  dsimp only
  apply Answers.next
  apply_rules [Keeps.mctpSend, Keeps.ite]

end Scope
end Sys2Proof.Machine
end

section
/-! SUPPORT. Scopes: attestation and the host nodes. -/

namespace Sys2Proof.Machine
namespace Scope
variable {F : Scope} {l s : State}

theorem Keeps.slotSettle {set : Bool} (hs : F.Keeps l s) (ho : F.Open) : F.Keeps l (s.slotSettle set) := by
  unfold State.slotSettle
  dsimp only
  apply_rules [Keeps.modHedge, Keeps.ite]

theorem answers_execI3cEntdaa {addr : Nat} (hs : F.Keeps l s) (ho : F.Open) : F.Answers l (execI3cEntdaa addr s) := by
  unfold execI3cEntdaa
  dsimp only
  apply Answers.next
  (repeat' split) <;> apply_rules [Keeps.modHedge]

theorem answers_execSlotGetAnswer {a : SlotAnswer} (hs : F.Keeps l s) (ho : F.Open) : F.Answers l (execSlotGetAnswer a s) := by
  unfold execSlotGetAnswer
  apply Answers.next
  (repeat' split) <;> apply_rules [Keeps.slotSettle, Keeps.release, Keeps.rest]

theorem answers_execSlotSetAnswer (hs : F.Keeps l s) (ho : F.Open) : F.Answers l (execSlotSetAnswer s) := by
  unfold execSlotSetAnswer
  apply Answers.next
  (repeat' split) <;> apply_rules [Keeps.modHedge]

theorem answers_execSlotCheckTimeout (hs : F.Keeps l s) (ho : F.Open) : F.Answers l (execSlotCheckTimeout s) := by
  unfold execSlotCheckTimeout
  apply Answers.next
  (repeat' split) <;> apply_rules [Keeps.installed, Keeps.slotSettle]

theorem Keeps.spdmSay {a : SpdmAns} (hs : F.Keeps l s) (ho : F.Open) : F.Keeps l (s.spdmSay a) := by
  unfold State.spdmSay
  apply_rules [Keeps.modHedge]

theorem Keeps.spdmDo {q : SpdmReq} {need : Nat} {g : State → State} (hs : F.Keeps l s) (hk : ∀  v, F.Keeps l v → F.Keeps l (g  v)) (ho : F.Open) :
    F.Answers l (s.spdmDo q need g) := by
  unfold State.spdmDo
  apply Answers.next
  (repeat' split) <;> apply_rules [Keeps.spdmSay]

theorem Keeps.spdmStep {q : SpdmReq} {n : Nat} (hs : F.Keeps l s) (ho : F.Open) : F.Keeps l (s.spdmStep q n) := by
  unfold State.spdmStep
  apply_rules [Keeps.modHedge]

theorem answers_execGetVersion {q : SpdmReq} (hs : F.Keeps l s) (ho : F.Open) : F.Answers l (execGetVersion q s) := by
  unfold execGetVersion
  apply Answers.next
  apply_rules [Keeps.spdmSay, Keeps.spdmStep, Keeps.ite]

theorem answers_execGetCapabilities {q : SpdmReq} (hs : F.Keeps l s) (ho : F.Open) : F.Answers l (execGetCapabilities q s) := by
  unfold execGetCapabilities
  apply_rules [Keeps.spdmDo, Keeps.spdmSay, Keeps.spdmStep] <;> intros <;> apply_rules [Keeps.spdmDo, Keeps.spdmSay, Keeps.spdmStep]
theorem answers_execNegotiateAlgorithms {q : SpdmReq} (hs : F.Keeps l s) (ho : F.Open) : F.Answers l (execNegotiateAlgorithms q s) := by
  unfold execNegotiateAlgorithms
  apply_rules [Keeps.spdmDo, Keeps.spdmSay, Keeps.spdmStep, Keeps.ite] <;> intros <;> apply_rules [Keeps.spdmDo, Keeps.spdmSay, Keeps.spdmStep, Keeps.ite]
theorem answers_execGetDigests {q : SpdmReq} (hs : F.Keeps l s) (ho : F.Open) : F.Answers l (execGetDigests q s) := by
  unfold execGetDigests
  apply_rules [Keeps.spdmDo, Keeps.spdmSay] <;> intros <;> apply_rules [Keeps.spdmDo, Keeps.spdmSay]
theorem answers_execGetCertificate {q : SpdmReq} (hs : F.Keeps l s) (ho : F.Open) : F.Answers l (execGetCertificate q s) := by
  unfold execGetCertificate
  dsimp only
  apply_rules [Keeps.spdmDo, Keeps.spdmSay, Keeps.ite] <;> intros <;> apply_rules [Keeps.spdmDo, Keeps.spdmSay, Keeps.ite]
theorem Keeps.attested {q : SpdmReq} {request : Nat} (hs : F.Keeps l s) : F.Keeps l (s.attested q request) := by
  unfold State.attested
  apply_rules [Keeps.event]

theorem Keeps.freeSig (hs : F.Keeps l s) : F.Keeps l s.freeSig.2 := hs.freeVal

theorem answers_execChallenge {q : SpdmReq} (hs : F.Keeps l s) (ho : F.Open) : F.Answers l (execChallenge q s) :=
  hs.spdmDo (fun _ hv => .ite (hv.spdmSay ho) (hv.freeSig.attested.spdmSay ho)) ho

theorem answers_execGetMeasurements {q : SpdmReq} (hs : F.Keeps l s) (ho : F.Open) : F.Answers l (execGetMeasurements q s) :=
  hs.spdmDo (fun _ hv => .ite (hv.spdmSay ho) (.ite (hv.freeSig.attested.spdmSay ho) (hv.spdmSay ho))) ho

theorem Keeps.modHart {k i : Nat} {g : Hart → Hart} (hs : F.Keeps l s) (ho : F.Open) : F.Keeps l (s.modHart k i g) := by
  refine hs.modHost ho.hosts ?_
  exact id

@[simp] theorem HostNode.mem_winFail (h : HostNode) (a : WinAcc) (st : Nat) : (h.winFail a st).mem = h.mem := by
  unfold HostNode.winFail
  dsimp only
  split <;> rfl

@[simp] theorem HostNode.mem_endAcc (h : HostNode) (a : WinAcc) (st : Nat) (data : List Byte) : (h.endAcc a st data).mem = h.mem := by
  unfold HostNode.endAcc HostNode.modHart
  dsimp only
  split <;> split <;> simp

theorem held_of_mem {a b : HostNode} (e : b.mem = a.mem) : Held a b := fun w => e ▸ w

theorem Keeps.sendAcc {k : Nat} {a : WinAcc} (hs : F.Keeps l s) (ho : F.Open) : F.Keeps l (s.sendAcc k a) := by
  refine .ite (hs.modHost ho.hosts (held_of_mem (HostNode.mem_endAcc ..))) (Keeps.send (hs.modHost ho.hosts ?_) ho.mesh)
  exact id

theorem Keeps.pumpHart {k i : Nat} {ops : List HartOp} (hs : F.Keeps l s) (ho : F.Open) : F.Keeps l (s.pumpHart k i ops) := by
  induction ops generalizing s with
  | nil => exact hs.modHart ho
  | cons op ops ih =>
    cases op with
    | acc a => exact .ite (ih (hs.sendAcc ho)) (hs.modHart ho)
    | fence => exact .ite (hs.modHart ho) (ih hs)

theorem Keeps.pumpNode {k : Nat} (hs : F.Keeps l s) (ho : F.Open) : F.Keeps l (s.pumpNode k) := hs.foldl fun _ _ hv => .ite hv (hv.pumpHart ho)

theorem Keeps.issueHart {k i : Nat} {op : HartOp} (hs : F.Keeps l s) (ho : F.Open) : F.Keeps l (s.issueHart k i op) := hs.pumpHart ho

theorem Keeps.issueAcc {k hart addr size : Nat} {data : Option (List Byte)} (hs : F.Keeps l s) (ho : F.Open) :
    F.Keeps l (s.issueAcc k hart addr size data) := by
  refine Keeps.issueHart (hs.modHost ho.hosts ?_) ho
  exact id

theorem answers_execWaferWindowLoad {k hart addr size : Nat} {form : HartForm} (hs : F.Keeps l s) (ho : F.Open) :
    F.Answers l (execWaferWindowLoad k hart addr size form s) := by
  unfold execWaferWindowLoad
  apply Answers.next
  (repeat' split) <;> apply_rules [Keeps.modHart, Keeps.issueAcc, Keeps.foldl] <;> intros <;> apply_rules [Keeps.modHart, Keeps.issueAcc, Keeps.foldl]
theorem answers_execWaferWindowStore {k hart addr : Nat} {data : List Byte} {form : HartForm} (hs : F.Keeps l s) (ho : F.Open) :
    F.Answers l (execWaferWindowStore k hart addr data form s) := by
  unfold execWaferWindowStore
  dsimp only
  apply Answers.next
  (repeat' split) <;> apply_rules [Keeps.modHart, Keeps.issueAcc, Keeps.foldl] <;> intros <;> apply_rules [Keeps.modHart, Keeps.issueAcc, Keeps.foldl]
theorem answers_execWaferWindowTimeout {k id : Nat} (hs : F.Keeps l s) (ho : F.Open) : F.Answers l (execWaferWindowTimeout k id s) := by
  unfold execWaferWindowTimeout
  apply Answers.next
  split
  · exact .ite ((hs.modHost ho.hosts (held_of_mem (HostNode.mem_endAcc ..))).pumpNode ho) hs
  · exact hs

theorem Keeps.takeRaw {k id : Nat} (hs : F.Keeps l s) (hm : F.mesh) : F.Keeps l (s.takeRaw k id) := by
  unfold State.takeRaw
  dsimp only
  apply_rules [Keeps.setMesh]

theorem answers_execWaferWindowAnswer {k id status : Nat} {data : List Byte} (hs : F.Keeps l s) (ho : F.Open) :
    F.Answers l (execWaferWindowAnswer k id status data s) := by
  have ht : F.Keeps l (s.takeRaw k id) := hs.takeRaw ho.mesh
  unfold execWaferWindowAnswer
  dsimp only
  apply Answers.next
  split
  · exact (ht.modHost ho.hosts (held_of_mem (HostNode.mem_endAcc ..))).pumpNode ho
  · exact ht

theorem answers_execHartFenceIo {k hart : Nat} (hs : F.Keeps l s) (ho : F.Open) : F.Answers l (execHartFenceIo k hart s) := by
  unfold execHartFenceIo
  apply Answers.next
  apply_rules [Keeps.issueHart, Keeps.ite]

theorem answers_execTimerInterrupt {k hart : Nat} {machine : Bool} (hs : F.Keeps l s) (ho : F.Open) : F.Answers l (execTimerInterrupt k hart machine s) := by
  unfold execTimerInterrupt
  dsimp only
  apply Answers.next
  apply_rules [Keeps.modHart, Keeps.ite]

theorem answers_execSoftwareInterruptWrite {k : Nat} {machine : Bool} {hart : Nat} {val : Bool} (hs : F.Keeps l s) (ho : F.Open) :
    F.Answers l (execSoftwareInterruptWrite k machine hart val s) := by
  unfold execSoftwareInterruptWrite
  apply Answers.next
  apply_rules [Keeps.modHart, Keeps.ite]

theorem Keeps.hostClk {k : Nat} {machine : Bool} {val : Word} (hs : F.Keeps l s) (ho : F.Open) : F.Keeps l (s.hostClk k machine val) := by
  refine .ite (hs.modHost ho.hosts ?_) hs
  exact id

theorem answers_execHostClkWrite {k : Nat} {machineMode : Bool} {val : Word} (hs : F.Keeps l s) (ho : F.Open) :
    F.Answers l (execHostClkWrite k machineMode val s) := by
  unfold execHostClkWrite
  apply Answers.next
  apply_rules [Keeps.hostClk]

theorem answers_execSbiSecureForward {k idx : Nat} {msg : List Word} (hs : F.Keeps l s) (ho : F.Open) : F.Answers l (execSbiSecureForward k idx msg s) := by
  refine .next (.ite hs (.ite (hs.modHost ho.hosts ?_) (.ite hs (((hs.spineGrant ho).modChan ho).modHost ho.hosts ?_)))) <;> exact id

theorem answers_execSbiSystemReset {k : Nat} (hs : F.Keeps l s) (ho : F.Open) : F.Answers l (execSbiSystemReset k s) := by
  refine .next (.ite (hs.modHost ho.hosts ?_) hs)
  exact id

theorem held_put {a b : HostNode} {o : Nat} {bs : List Byte} (h : Held a b) : Held a (b.put o bs) := fun w => Memory.wf_writeN _ _ _ (h w)

theorem Keeps.loadNode {k : Nat} (hs : F.Keeps l s) (ho : F.Open) : F.Keeps l (s.loadNode k) := by
  refine .ite (hs.modHost ho.hosts ?_) ((hs.modHost ho.hosts ?_).modHost ho.hosts (held_put id)) <;> exact held_put (held_put (held_put id))

theorem Keeps.bootFail {k code : Nat} (hs : F.Keeps l s) (ho : F.Open) : F.Keeps l (s.bootFail k code) := by
  refine (hs.modHost ho.hosts ?_).event
  exact id

theorem answers_execNodeBoot {k : Nat} {digestOk : Bool} (hs : F.Keeps l s) (ho : F.Open) : F.Answers l (execNodeBoot k digestOk s) := by
  refine .next (.ite hs (.ite ((hs.loadNode ho).modHost ho.hosts ?_) (.ite (.ite (hs.modHost ho.hosts ?_) (hs.bootFail ho))
    (.ite (hs.modHost ho.hosts ?_) hs)))) <;> exact id

theorem answers_execHostBootTimeout {k : Nat} (hs : F.Keeps l s) (ho : F.Open) : F.Answers l (execHostBootTimeout k s) := by
  unfold execHostBootTimeout
  dsimp only
  apply Answers.next
  apply_rules [Keeps.bootFail, Keeps.ite]

theorem answers_execEthRingTailWrite {k port ring val : Nat} {tx : Bool} (hs : F.Keeps l s) (ho : F.Open) :
    F.Answers l (execEthRingTailWrite k port tx ring val s) := by
  refine .next (.ite (hs.modHost ho.hosts ?_) hs)
  exact id

theorem Keeps.memBad {k a reader : Nat} (hs : F.Keeps l s) (ho : F.Open) : F.Keeps l (s.memBad k a reader) := by
  refine (hs.modHost ho.hosts ?_).event
  exact id

theorem answers_execEthDescriptorDone {k port ring : Nat} (hs : F.Keeps l s) (ho : F.Open) : F.Answers l (execEthDescriptorDone k port ring s) := by
  have fin {u : State} {o n flags prio : Nat} {g : EthPort → EthPort} (hu : F.Keeps l u) :
      F.Keeps l (u.modHost k fun h => (h.writeBack o n flags prio 0).modPort port g) := by
    refine hu.modHost ho.hosts ?_
    exact held_put id
  unfold execEthDescriptorDone
  refine .next (.ite hs ?_)
  split
  · exact hs
  · refine .ite hs ?_
    dsimp only
    split
    · exact fin hs
    · split
      · exact fin (hs.memBad ho)
      · exact fin hs

theorem held_fill {prio hash good : Nat} {ds : List (Nat × EthDesc × List Byte)} {a b : HostNode} (h : Held a b) : Held a (b.fill prio hash good ds) := by
  induction ds generalizing b with
  | nil => exact h
  | cons d ds ih =>
    refine ih ?_
    split
    · exact held_put h
    · exact held_put (held_put h)

theorem answers_execEthFrameReceive {k port prio hash : Nat} {bytes : List Byte} (hs : F.Keeps l s) (ho : F.Open) :
    F.Answers l (execEthFrameReceive k port bytes prio hash s) := by
  have modPort {g : EthPort → EthPort} : F.Keeps l (s.modHost k fun h => h.modPort port g) := by
    refine hs.modHost ho.hosts ?_
    exact id
  unfold execEthFrameReceive
  refine .next (.ite hs ?_)
  split
  · exact modPort
  · split
    · exact modPort
    · refine hs.freeVal.modHost ho.hosts ?_
      exact held_fill id

theorem answers_execEthLinkChange {k port mode : Nat} {up : Bool} (hs : F.Keeps l s) (ho : F.Open) : F.Answers l (execEthLinkChange k port up mode s) := by
  refine .next (.ite (hs.modHost ho.hosts ?_) hs)
  exact id

theorem answers_execPcieDeviceWrite {k addr : Nat} {data : List Byte} (hs : F.Keeps l s) (ho : F.Open) : F.Answers l (execPcieDeviceWrite k addr data s) := by
  refine .next (.ite hs ?_)
  split
  · exact hs.modHost ho.hosts (held_put id)
  · refine hs.modHost ho.hosts ?_
    exact id

end Scope
end Sys2Proof.Machine
end

section
/-! SUPPORT. Scopes: register blocks, Redfish and firmware. -/

namespace Sys2Proof.Machine
namespace Scope
variable {F : Scope} {l s : State}

theorem answers_execPcieDeviceRead {k addr len : Nat} (hs : F.Keeps l s) (ho : F.Open) : F.Answers l (execPcieDeviceRead k addr len s) := by
  refine .next (.ite hs ?_)
  split
  · split
    · refine (hs.memBad ho).modHost ho.hosts ?_
      exact id
    · refine hs.modHost ho.hosts ?_
      exact id
  · refine hs.modHost ho.hosts ?_
    exact id

theorem Keeps.hostCtlWrite {k o : Nat} {machine : Bool} {val : Word} (hs : F.Keeps l s) (ho : F.Open) : F.Keeps l (s.hostCtlWrite k machine o val) := by
  refine .ite (hs.hostClk ho) (.ite (.ite (hs.modHost ho.hosts ?_) hs) (.ite (hs.modHost ho.hosts ?_) hs)) <;> exact id

theorem Keeps.mailboxWrite {sp : Nat} {secure : Bool} {o : Nat} {val : Word} (hs : F.Keeps l s) (ho : F.Open) : F.Keeps l (s.mailboxWrite sp secure o val) := by
  unfold State.mailboxWrite
  dsimp only
  apply_rules [Keeps.modChan, Keeps.mbViolation, Keeps.ite]

@[simp] theorem HostNode.mem_aclintWrite (h : HostNode) (now o : Nat) (val : Word) : (h.aclintWrite now o val).mem = h.mem := by
  unfold HostNode.aclintWrite HostNode.modHart
  split
  · rfl
  · split
    · rfl
    · split <;> rfl

theorem answers_execRegisterWrite {sp : RegSpace} {w : Writer} {off : Nat} {val : Word} (hs : F.Keeps l s) (ho : F.Open) :
    F.Answers l (execRegisterWrite sp w off val s) := by
  refine .next (.ite hs ?_)
  cases sp with
  | tile t => exact .ite (hs.writeTileReg (ho.core t) (ho.reg _) (ho.any _)) hs
  | fc f => exact .ite (hs.writeFcReg ho.toArray ho.ports) hs
  | hostCtl k => exact .ite (hs.hostCtlWrite ho) hs
  | eth k p =>
    refine .ite (hs.modHost ho.hosts ?_) hs
    exact id
  | aclint k => exact .ite (hs.modHost ho.hosts (held_of_mem (HostNode.mem_aclintWrite ..))) hs
  | stimecmp k i => exact .ite (hs.modHart ho) hs
  | mailbox p secure => exact Keeps.mailboxWrite (hs.spineGrant ho) ho

theorem Keeps.http {code : Nat} (hs : F.Keeps l s) (ho : F.Open) : F.Keeps l (s.http code) := by
  unfold State.http
  apply_rules [Keeps.modHedge]

theorem Keeps.used {session : Nat} (hs : F.Keeps l s) (ho : F.Open) : F.Keeps l (s.used session) := by
  unfold State.used
  apply_rules [Keeps.modHedge]

theorem Keeps.serve {session need : Nat} {g : Account → State → State} (hs : F.Keeps l s) (hk : ∀ x0 v, F.Keeps l v → F.Keeps l (g x0 v)) (ho : F.Open) :
    F.Answers l (s.serve session need g) := by
  unfold State.serve
  apply Answers.next
  (repeat' split) <;> apply_rules [Keeps.http, Keeps.used]

theorem answers_execSessionLogin {name password : Nat} (hs : F.Keeps l s) (ho : F.Open) : F.Answers l (execSessionLogin name password s) := by
  unfold execSessionLogin
  dsimp only
  (repeat' split) <;> apply_rules [Keeps.freeVal, Keeps.http, Keeps.event, Keeps.modHedge]

theorem answers_execAccountLockExpiry {name : Nat} (hs : F.Keeps l s) (ho : F.Open) : F.Answers l (execAccountLockExpiry name s) := by
  unfold execAccountLockExpiry
  apply Answers.next
  (repeat' split) <;> apply_rules [Keeps.modHedge]

theorem answers_execSessionIdleExpiry {session : Nat} (hs : F.Keeps l s) (ho : F.Open) : F.Answers l (execSessionIdleExpiry session s) := by
  unfold execSessionIdleExpiry
  apply Answers.next
  apply_rules [Keeps.modHedge, Keeps.ite]

theorem answers_execAccountChange {session : Nat} {ch : AccountChange} (hs : F.Keeps l s) (ho : F.Open) : F.Answers l (execAccountChange session ch s) := by
  refine hs.serve (fun _ v hv => ?_) ho
  split
  · exact hv.http ho
  · exact Keeps.event (hv.rest ho)

/-- An order to the conductor, or the answer that it takes none. -/
theorem Keeps.ring_or {secure : Bool} {code : Nat} {args : List Nat} (hs : F.Keeps l s) (ho : F.Open) :
    F.Keeps l (match s.ring secure code args with
      | some t => t
      | none => s.http 503) := by
  split
  · next h => exact hs.ring ho _ h
  · exact hs.http ho

theorem answers_execChassisForceRestart {session : Nat} (hs : F.Keeps l s) (ho : F.Open) : F.Answers l (execChassisForceRestart session s) :=
  hs.serve (fun _ _ hv => hv.ring_or ho) ho

theorem answers_execChassisPowerCycle {session : Nat} (hs : F.Keeps l s) (ho : F.Open) : F.Answers l (execChassisPowerCycle session s) :=
  hs.serve (fun _ _ hv => .ite (hv.http ho) (hv.boardPause ho)) ho

theorem answers_execChassisForceOff {session : Nat} (hs : F.Keeps l s) (ho : F.Open) : F.Answers l (execChassisForceOff session s) :=
  hs.serve (fun _ _ hv => .ite (hv.http ho) (Keeps.rest (.ite (hv.boardOff ho) hv) ho)) ho

theorem answers_execChassisOn {session : Nat} (hs : F.Keeps l s) (ho : F.Open) : F.Answers l (execChassisOn session s) := by
  unfold execChassisOn
  apply_rules [Keeps.serve, Keeps.tryStart, Keeps.http, Keeps.ite, Keeps.rest] <;> intros <;> apply_rules [Keeps.serve, Keeps.tryStart, Keeps.http, Keeps.ite,
      Keeps.rest]
theorem answers_execPowerLimitSet {session watts : Nat} (hs : F.Keeps l s) (ho : F.Open) : F.Answers l (execPowerLimitSet session watts s) :=
  hs.serve (fun _ _ hv => .ite (hv.http ho) (hv.ring_or ho)) ho

theorem answers_execIndicatorLedSet {session : Nat} {on : Bool} (hs : F.Keeps l s) (ho : F.Open) : F.Answers l (execIndicatorLedSet session on s) := by
  unfold execIndicatorLedSet
  apply_rules [Keeps.serve, Keeps.modHedge] <;> intros <;> apply_rules [Keeps.serve, Keeps.modHedge]
theorem answers_execDatetimeSet {session utc : Nat} (hs : F.Keeps l s) (ho : F.Open) : F.Answers l (execDatetimeSet session utc s) := by
  unfold execDatetimeSet
  apply_rules [Keeps.serve, Keeps.setUtc] <;> intros <;> apply_rules [Keeps.serve, Keeps.setUtc]
theorem answers_execManagerReset {session : Nat} (hs : F.Keeps l s) (ho : F.Open) : F.Answers l (execManagerReset session s) := by
  unfold execManagerReset
  apply_rules [Keeps.serve, Keeps.hedgeRestart] <;> intros <;> apply_rules [Keeps.serve, Keeps.hedgeRestart]
theorem answers_execResetToDefaults {session : Nat} (hs : F.Keeps l s) (ho : F.Open) : F.Answers l (execResetToDefaults session s) := by
  unfold execResetToDefaults
  dsimp only
  apply_rules [Keeps.serve, Keeps.event, Keeps.rest] <;> intros <;> apply_rules [Keeps.serve, Keeps.event, Keeps.rest]
theorem answers_execConfigSet {session : Nat} {item : ConfigItem} (hs : F.Keeps l s) (ho : F.Open) : F.Answers l (execConfigSet session item s) := by
  unfold execConfigSet
  dsimp only
  (repeat' split) <;> apply_rules [Keeps.serve, Keeps.modHedge, Keeps.rest] <;> intros <;> apply_rules [Keeps.serve, Keeps.modHedge, Keeps.rest]
theorem answers_execOwnerKeyInstall {session : Nat} {image : Bool} {key : Option Nat} {signed : Bool} (hs : F.Keeps l s) (ho : F.Open) :
    F.Answers l (execOwnerKeyInstall session image key signed s) := by
  unfold execOwnerKeyInstall
  dsimp only
  apply_rules [Keeps.serve, Keeps.http, Keeps.event, Keeps.modHedge, Keeps.ite] <;> intros
      <;> apply_rules [Keeps.serve, Keeps.http, Keeps.event, Keeps.modHedge, Keeps.ite]
theorem answers_execRedfishGet {session : Nat} {uri : RedfishUri} (hs : F.Keeps l s) (ho : F.Open) : F.Answers l (execRedfishGet session uri s) := by
  refine hs.serve (fun _ v hv => ?_) ho
  split
  · exact hv.modHedge ho
  · exact hv.http ho

theorem answers_execClearLog {session expected : Nat} (hs : F.Keeps l s) (ho : F.Open) : F.Answers l (execClearLog session expected s) := by
  unfold execClearLog
  dsimp only
  apply_rules [Keeps.serve, Keeps.http, Keeps.event, Keeps.ite, Keeps.rest] <;> intros <;> apply_rules [Keeps.serve, Keeps.http, Keeps.event, Keeps.ite,
      Keeps.rest]
theorem answers_execScarabExport {session : Nat} (hs : F.Keeps l s) (ho : F.Open) : F.Answers l (execScarabExport session s) := by
  unfold execScarabExport
  apply_rules [Keeps.serve, Keeps.modHedge] <;> intros <;> apply_rules [Keeps.serve, Keeps.modHedge]
theorem answers_execFieldSnapshot {session f : Nat} (hs : F.Keeps l s) (ho : F.Open) : F.Answers l (execFieldSnapshot session f s) := by
  unfold execFieldSnapshot
  apply_rules [Keeps.serve, Keeps.http, Keeps.modHedge, Keeps.keepSnap, Keeps.ite] <;> intros
      <;> apply_rules [Keeps.serve, Keeps.http, Keeps.modHedge, Keeps.keepSnap, Keeps.ite]
theorem Keeps.stage {img : ImagePush} (hs : F.Keeps l s) (ho : F.Open) : F.Keeps l (s.stage img) := by
  unfold State.stage
  apply_rules [Keeps.rest]

theorem Keeps.pushImage {img : ImagePush} (hs : F.Keeps l s) (ho : F.Open) : F.Keeps l (s.pushImage img).2 := by
  unfold State.pushImage
  split <;> dsimp only
  · exact hs.event
  · exact (hs.stage ho).event

theorem answers_execFirmwarePush {session : Nat} {img : ImagePush} (hs : F.Keeps l s) (ho : F.Open) : F.Answers l (execFirmwarePush session img s) :=
  hs.serve (fun _ _ hv => .ite (hv.http ho) (.ite (hv.modHedge ho) ((hv.pushImage ho).modHedge ho))) ho

theorem answers_execUpdateApply {session kind : Nat} (hs : F.Keeps l s) (ho : F.Open) : F.Answers l (execUpdateApply session kind s) :=
  hs.serve (fun _ _ hv => .ite (hv.http ho) (.ite ((hv.commitImage ho).hedgeRestart ho) (.ite ((hv.commitImage ho).modHedge ho) (hv.ring_or ho)))) ho

theorem Keeps.repaired {kind source : Nat} (hs : F.Keeps l s) (ho : F.Open) : F.Keeps l (s.repaired kind source) := by
  unfold State.repaired
  apply_rules [Keeps.tryStart, Keeps.event, Keeps.commitImage]

theorem answers_execRegionRepair {session kind : Nat} {src : RepairSource} (hs : F.Keeps l s) (ho : F.Open) :
    F.Answers l (execRegionRepair session kind src s) := by
  refine .ite hs ?_
  cases src with
  | staged => exact .next (.ite (hs.repaired ho) hs)
  | url img => exact .next (.ite hs (.ite ((hs.pushImage ho).repaired ho) (hs.pushImage ho)))
  | push img =>
    exact hs.serve (fun _ _ hv => .ite (hv.http ho) (.ite (((hv.pushImage ho).modHedge ho).repaired ho) ((hv.pushImage ho).modHedge ho))) ho

theorem answers_execRecoveryLoader {img : Option ImagePush} (hs : F.Keeps l s) (ho : F.Open) : F.Answers l (execRecoveryLoader img s) := by
  unfold execRecoveryLoader
  dsimp only
  apply Answers.next
  (repeat' split) <;> apply_rules [Keeps.modHedge, Keeps.commitImage, Keeps.hedgeStart, Keeps.stage, Keeps.tryStart, Keeps.event]

theorem answers_execRecoveryRetry (hs : F.Keeps l s) (ho : F.Open) : F.Answers l (execRecoveryRetry s) := by
  unfold execRecoveryRetry
  apply Answers.next
  (repeat' split) <;> apply_rules [Keeps.modHedge]

theorem Keeps.withFetchWord {nbits w : Nat} (hs : F.Keeps l s) (ho : F.Open) : F.Keeps l (s.withFetchWord nbits w) := by
  unfold State.withFetchWord
  (repeat' split) <;> apply_rules [Keeps.rest]

end Scope
end Sys2Proof.Machine
end

section
/-! PROOFS. Every step keeps the form of memory (O49). -/

namespace Sys2Proof.Machine
namespace Scope

/-- Every command keeps the form of memory, whatever else it may change. -/
theorem answers_exec {F : Scope} {l s : State} (c : Instr) (hs : F.Keeps l s) (ho : F.Open) : F.Answers l (exec c s) := by
  cases c with
  | inputPowerApplied => exact answers_execInputPowerApplied hs ho
  | powerEnable => exact answers_execPowerEnable hs ho
  | pwrEnFall => exact answers_execPwrEnFall hs ho
  | shutdownConductorTimeout => exact answers_execShutdownConductorTimeout hs ho
  | stbyGoodFall => exact answers_execStbyGoodFall hs ho
  | modResetFall => exact answers_execModResetFall hs ho
  | modResetRelease => exact answers_execModResetRelease hs ho
  | identInput => exact answers_execIdentInput hs ho
  | conductorSilenceCheck => exact answers_execConductorSilenceCheck hs ho.toFields
  | conductorSilenceAction => exact answers_execConductorSilenceAction hs ho
  | coldRestartTimer => exact answers_execColdRestartTimer hs ho
  | rvInstruction => exact answers_execRvInstruction hs (ho.core _) (ho.reg _) (ho.any _)
  | coreLoad => exact answers_execCoreLoad hs (ho.core _) (ho.reg _ _)
  | coreStore => exact answers_execCoreStore hs (ho.core _) (ho.reg _) (ho.any _)
  | csrAccess => exact answers_execCsrAccess hs (ho.core _) (ho.reg _ _)
  | ecall => exact answers_execEcall hs (ho.core _)
  | ebreak => exact answers_execEbreak hs (ho.core _)
  | stallConditionMet => exact answers_execStallConditionMet hs (ho.core _) (ho.reg _) (ho.any _)
  | stallWatchdogExpiry => exact answers_execStallWatchdogExpiry hs (ho.core _) (ho.reg _) (ho.any _)
  | qopen => exact answers_execQopen hs (ho.core _) (ho.reg _ _)
  | qclose => exact answers_execQclose hs (ho.core _) (ho.reg _ _)
  | qsend => exact answers_execQsend hs (ho.core _) (ho.reg _ _) (ho.not_same _)
  | qtrysend => exact answers_execQtrysend hs (ho.core _) (ho.reg _ _) (ho.not_same _)
  | qrecv => exact answers_execQrecv hs (ho.core _) (ho.reg _ _) (ho.any _)
  | qtryrecv => exact answers_execQtryrecv hs (ho.core _) (ho.reg _ _) (ho.any _)
  | qselect => exact answers_execQselect hs (ho.core _) (ho.reg _ _)
  | qstat => exact answers_execQstat hs (ho.core _) (ho.reg _ _)
  | swait => exact answers_execSwait hs (ho.core _) (ho.reg _ _)
  | ssignal => exact answers_execSsignal hs (ho.core _) (ho.reg _ _)
  | sfence => exact answers_execSfence hs (ho.core _) (ho.reg _ _)
  | sread => exact answers_execSread hs (ho.core _) (ho.reg _ _)
  | fpush => exact answers_execFpush hs (ho.core _) (ho.reg _ _)
  | fsteal => exact answers_execFsteal hs (ho.core _) (ho.reg _ _)
  | fwait => exact answers_execFwait hs (ho.core _) (ho.reg _ _)
  | hset => exact answers_execHset hs (ho.core _) (ho.reg _ _)
  | hclr => exact answers_execHclr hs (ho.core _) (ho.reg _ _)
  | ldt => exact answers_execLdt hs (ho.core _) (ho.reg _ _) (ho.not_same _)
  | stt => exact answers_execStt hs (ho.core _) (ho.reg _ _) (ho.any _)
  | tfill => exact answers_execTfill hs (ho.core _) (ho.reg _ _) (ho.not_same _)
  | dload => exact answers_execDload hs (ho.core _) (ho.reg _ _) (ho.any _)
  | dswitch => exact answers_execDswitch hs (ho.core _) (ho.reg _ _)
  | dpurge => exact answers_execDpurge hs (ho.core _) (ho.reg _ _) (ho.not_same _)
  | dsample => exact answers_execDsample hs (ho.core _) (ho.reg _ _)
  | wopen => exact answers_execWopen hs (ho.core _) (ho.reg _ _)
  | wclose => exact answers_execWclose hs (ho.core _) (ho.reg _ _)
  | xput => exact answers_execXput hs (ho.core _) (ho.reg _ _) (ho.not_same _)
  | xget => exact answers_execXget hs (ho.core _) (ho.reg _ _)
  | unitStart => exact answers_execUnitStart hs ho.toArray
  | unitRetire => exact answers_execUnitRetire hs ho.toArray
  | intraTileSteal => exact answers_execIntraTileSteal hs ho.toArray
  | stealSearch => exact answers_execStealSearch hs ho.toArray
  | stealBackoffExpiry => exact answers_execStealBackoffExpiry hs ho.toArray
  | stealReturnTimeout => exact answers_execStealReturnTimeout hs ho.toArray
  | stealFailureNotice => exact answers_execStealFailureNotice hs ho.toArray
  | engineSleep => exact answers_execEngineSleep hs ho.toArray
  | ctrlWrite => exact answers_execCtrlWrite hs ho.toArray ho.ports
  | ctrlRead => exact answers_execCtrlRead hs ho.toArray
  | ctrlOrderAdmit => exact answers_execCtrlOrderAdmit hs ho.toArray
  | ctrlOrderSwitch => exact answers_execCtrlOrderSwitch hs ho.toArray
  | ctrlOrderDload => exact answers_execCtrlOrderDload hs ho.toArray
  | ctrlOrderSample => exact answers_execCtrlOrderSample hs ho.toArray
  | ctrlReply => exact answers_execCtrlReply hs ho.toArray
  | tileResetOrder => exact answers_execTileResetOrder hs ho.toArray ho.tables
  | rawWrite => exact answers_execRawWrite hs ho
  | rawRead => exact answers_execRawRead hs ho
  | openArrives => exact answers_execOpenArrives hs ho.toArray
  | probe => exact answers_execProbe hs ho.toArray
  | senderClose => exact answers_execSenderClose hs ho.toArray
  | readerNotice => exact answers_execReaderNotice hs ho.toArray
  | closeAfterLoss => exact answers_execCloseAfterLoss hs ho.toArray
  | recordTimeout => exact answers_execRecordTimeout hs ho.toArray
  | steal => exact answers_execSteal hs ho.toArray
  | operandRead => exact answers_execOperandRead hs ho.toArray
  | syncWait => exact answers_execSyncWait hs ho.toArray
  | syncSignal => exact answers_execSyncSignal hs ho.toArray
  | syncPostedSignal => exact answers_execSyncPostedSignal hs ho.toArray
  | syncRead => exact answers_execSyncRead hs ho.toArray
  | syncCancel => exact answers_execSyncCancel hs ho.toArray
  | syncWaitResend => exact answers_execSyncWaitResend hs ho.toArray
  | staleReleaseRefused => exact answers_execStaleReleaseRefused hs ho.toArray
  | remoteRead => exact answers_execRemoteRead hs ho.toArray
  | remoteWrite => exact answers_execRemoteWrite hs ho.toArray
  | windowHeldServe => exact answers_execWindowHeldServe hs ho.toArray
  | windowHoldTimeout => exact answers_execWindowHoldTimeout hs ho.toArray
  | windowDeadline => exact answers_execWindowDeadline hs ho.toArray
  | reply => exact answers_execReply hs ho.toArray
  | status => exact answers_execStatus hs ho.toArray
  | grant => exact answers_execGrant hs ho.toArray
  | connectionCredit => exact answers_execConnectionCredit hs ho.toArray
  | tokenCredit => exact answers_execTokenCredit hs ho.toArray
  | stealReply => exact answers_execStealReply hs ho.toArray
  | message => exact answers_execMessage hs ho.toArray
  | combine => exact answers_execCombine hs ho.toArray
  | combineFoldDone => exact answers_execCombineFoldDone hs ho.toArray
  | token => exact answers_execToken hs ho.toArray
  | result => exact answers_execResult hs ho.toArray
  | multicast => exact answers_execMulticast hs ho.toArray
  | routePacket => exact answers_execRoutePacket hs ho.toArray
  | tokenRetryResend => exact answers_execTokenRetryResend hs ho.toArray
  | firingIssue => exact answers_execFiringIssue hs ho.toArray
  | tokenEmit => exact answers_execTokenEmit hs ho.toArray
  | firingComplete => exact answers_execFiringComplete hs ho.toArray
  | sourceFire => exact answers_execSourceFire hs ho.toArray
  | tokenOrphan => exact answers_execTokenOrphan hs ho.toArray
  | foldScheduleMove => exact answers_execFoldScheduleMove hs ho.toArray
  | foldSwitchAtT => exact answers_execFoldSwitchAtT hs ho.toArray
  | profileSample => exact answers_execProfileSample hs ho.toArray
  | slotArm => exact answers_execSlotArm hs ho.toArray
  | syncCellWrite => exact answers_execSyncCellWrite hs ho.toArray
  | syncDebugCore => exact answers_execSyncDebugCore hs ho.toArray
  | syncDebugAll => exact answers_execSyncDebugAll hs ho.toArray
  | syncRecWrite => exact answers_execSyncRecWrite hs ho.toArray
  | hedgerowSyncDebug => exact answers_execHedgerowSyncDebug hs ho.toArray ho.syncReply
  | rqEnable => exact answers_execRqEnable hs ho.toArray
  | rqDisable => exact answers_execRqDisable hs ho.toArray
  | connProbe => exact answers_execConnProbe hs ho.toArray
  | rowRefresh => exact answers_execRowRefresh hs ho.toFields.field
  | patrolScrub => exact answers_execPatrolScrub hs ho.toArray ho.hosts
  | refreshDerate => exact answers_execRefreshDerate hs ho.toFields.field
  | refreshRestore => exact answers_execRefreshRestore hs ho.toFields.field
  | mapPublish => exact answers_execMapPublish hs ho
  | mapInjectionPause => exact answers_execMapInjectionPause hs ho.toArray
  | mapSwitch => exact answers_execMapSwitch hs ho.toArray ho.tables
  | fenceSettleLocal => exact answers_execFenceSettleLocal hs ho.toArray
  | fenceSettleRemote => exact answers_execFenceSettleRemote hs ho.toArray
  | distTablePublish => exact answers_execDistTablePublish hs ho.mesh
  | cellLostSweep => exact answers_execCellLostSweep hs ho.toArray ho.tables
  | dockIngress => exact answers_execDockIngress hs ho
  | dockEgress => exact answers_execDockEgress hs ho
  | pendingExpiry => exact answers_execPendingExpiry hs ho
  | remoteRetryResend => exact answers_execRemoteRetryResend hs ho.toArray
  | dataFrame => exact answers_execDataFrame hs ho
  | linkAck => exact answers_execLinkAck hs ho
  | linkNak => exact answers_execLinkNak hs ho
  | linkLaneOff => exact answers_execLinkLaneOff hs ho
  | linkLaneOn => exact answers_execLinkLaneOn hs ho
  | linkClose => exact answers_execLinkClose hs ho
  | linkCredits => exact answers_execLinkCredits hs ho
  | linkIdleAck => exact answers_execLinkIdleAck hs ho
  | frameCrcError => exact answers_execFrameCrcError hs ho
  | laneFailure => exact answers_execLaneFailure hs ho
  | laneRetrainDone => exact answers_execLaneRetrainDone hs ho
  | egressHoldExpiry => exact answers_execEgressHoldExpiry hs ho
  | portLightDetected => exact answers_execPortLightDetected hs ho
  | trainingDone => exact answers_execTrainingDone hs ho
  | trainingFailed => exact answers_execTrainingFailed hs ho
  | trainingBackoffExpiry => exact answers_execTrainingBackoffExpiry hs ho
  | hello => exact answers_execHello hs ho
  | cap => exact answers_execCap hs ho
  | cert => exact answers_execCert hs ho
  | mode => exact answers_execMode hs ho
  | modeSwitch => exact answers_execModeSwitch hs ho
  | negotiationTimeout => exact answers_execNegotiationTimeout hs ho
  | refusedTimeout => exact answers_execRefusedTimeout hs ho
  | portSignalLoss => exact answers_execPortSignalLoss hs ho
  | retrainDone => exact answers_execRetrainDone hs ho
  | retrainTimeout => exact answers_execRetrainTimeout hs ho
  | glowLightLoss => exact answers_execGlowLightLoss hs ho
  | glowLatchOpen => exact answers_execGlowLatchOpen hs ho
  | glowLatchClose => exact answers_execGlowLatchClose hs ho
  | glowLit => exact answers_execGlowLit hs ho
  | powerNoteSend => exact answers_execPowerNoteSend hs ho
  | powerNote => exact answers_execPowerNote hs ho
  | powerNoteExpiry => exact answers_execPowerNoteExpiry hs ho.toFields
  | brokerConnectRequest => exact answers_execBrokerConnectRequest hs ho
  | brokerConnectReply p _ => exact answers_execBrokerConnectReply (_p := p) hs ho
  | brokerCloseMessage => exact answers_execBrokerCloseMessage hs ho
  | brokerLookupRequest p _ => exact answers_execBrokerLookupRequest (_p := p) hs ho
  | brokerLookupReply p _ => exact answers_execBrokerLookupReply (_p := p) hs ho
  | referenceSwitch => exact answers_execReferenceSwitch hs ho
  | referenceLost => exact answers_execReferenceLost hs ho
  | waferTimeBroadcast => exact answers_execWaferTimeBroadcast hs ho.toFields.field
  | railDroop => exact answers_execRailDroop hs ho.toFields.field
  | marginStop => exact answers_execMarginStop hs ho.toFields.field
  | marginRestart => exact answers_execMarginRestart hs ho.toFields.field
  | crossingCalibrate => exact answers_execCrossingCalibrate hs ho.toFields.field
  | calibrationDone => exact answers_execCalibrationDone hs ho
  | heartbeatLoss => exact answers_execHeartbeatLoss hs ho.toArray
  | fieldWake => exact answers_execFieldWake hs ho
  | fieldClockStop => exact answers_execFieldClockStop hs ho
  | retentionReached => exact answers_execRetentionReached hs ho
  | clkOrderOpStep => exact answers_execClkOrderOpStep hs ho.toFields.field
  | clkOrderEnterMonitor => exact answers_execClkOrderEnterMonitor hs ho.toFields.field
  | clkOrderLeaveMonitor => exact answers_execClkOrderLeaveMonitor hs ho.toFields.field
  | opStep => exact answers_execOpStep hs ho.toFields.field
  | relockDone => exact answers_execRelockDone hs ho.toFields.field
  | monitorModeSwitch => exact answers_execMonitorModeSwitch hs ho.toArray
  | monitorSteerEpoch => exact answers_execMonitorSteerEpoch hs ho.toFields.field
  | marginLowWrite => exact answers_execMarginLowWrite hs ho.toFields.field
  | wtLoRead => exact answers_execWtLoRead hs ho.toFields.field
  | epochEnd => exact answers_execEpochEnd hs ho.toArray
  | powerMasterDecision => exact answers_execPowerMasterDecision hs ho.toFields.field
  | masterTakeover => exact answers_execMasterTakeover hs ho.toFields.field
  | pwrStepCap => exact answers_execPwrStepCap hs ho.toFields.field
  | pwrStepThermal => exact answers_execPwrStepThermal hs ho.toFields.field
  | pwrStepForced => exact answers_execPwrStepForced hs ho.toFields.field
  | hedgerowPowerSample => exact answers_execHedgerowPowerSample hs ho.toFields ho.sensors
  | estScaleCalibrate => exact answers_execEstScaleCalibrate hs ho.toFields.field
  | inputVoltageSample => exact answers_execInputVoltageSample hs ho
  | busStop => exact answers_execBusStop hs ho
  | busRestart => exact answers_execBusRestart hs ho
  | currentLimit => exact answers_execCurrentLimit hs ho.toFields.field
  | thatchEngage => exact answers_execThatchEngage hs ho.toArray
  | thatchRampDownStep => exact answers_execThatchRampDownStep hs ho.toArray
  | thatchRampUpStep => exact answers_execThatchRampUpStep hs ho.toArray
  | thermalSample => exact answers_execThermalSample hs ho
  | autoReturn => exact answers_execAutoReturn hs ho.toFields.field
  | coolantSample => exact answers_execCoolantSample hs ho
  | overcurrentLatch => exact answers_execOvercurrentLatch hs ho
  | insulationCheckDone => exact answers_execInsulationCheckDone hs ho.toFields.field
  | trimRaise => exact answers_execTrimRaise hs ho.toFields
  | fieldThermClear => exact answers_execFieldThermClear hs ho.toFields.field
  | fieldPowerWave => exact answers_execFieldPowerWave hs ho
  | fieldWaveTimeout => exact answers_execFieldWaveTimeout hs ho
  | knownAnswerDone => exact answers_execKnownAnswerDone hs ho
  | knownAnswerTimeout => exact answers_execKnownAnswerTimeout hs ho
  | marchDone => exact answers_execMarchDone hs ho
  | soakDone => exact answers_execSoakDone hs ho.toFields
  | profilingPauseEnd => exact answers_execProfilingPauseEnd hs ho
  | bringupAdmission => exact answers_execBringupAdmission hs ho
  | warmReset c _ => exact answers_execWarmReset (c := c) hs ho
  | warmResetInjectionStop => exact answers_execWarmResetInjectionStop hs ho
  | retestDone => exact answers_execRetestDone hs ho
  | haltScan => exact answers_execHaltScan hs ho.toFields.field
  | faultLogPoll => exact answers_execFaultLogPoll hs ho.toFields
  | fltRead => exact answers_execFltRead hs ho.toFields.field
  | mbMsgWrite => exact answers_execMbMsgWrite hs ho
  | mbDoorbell => exact answers_execMbDoorbell hs ho
  | mailboxPoll => exact answers_execMailboxPoll hs ho
  | commandComplete => exact answers_execCommandComplete hs ho
  | commandTimeout => exact answers_execCommandTimeout hs ho
  | deferredEnableStart => exact answers_execDeferredEnableStart hs ho
  | conductorBeat => exact answers_execConductorBeat hs ho
  | conductorTakeover => exact answers_execConductorTakeover hs ho
  | standbyRebuildDone => exact answers_execStandbyRebuildDone hs ho
  | sysIdentify => exact answers_execSysIdentify hs ho
  | sysStatus => exact answers_execSysStatus hs ho
  | sysWarmReset => exact answers_execSysWarmReset hs ho
  | sysSetWaferId => exact answers_execSysSetWaferId hs ho
  | sysHandover => exact answers_execSysHandover hs ho
  | sysBoundVoid => exact answers_execSysBoundVoid hs ho
  | sysPing => exact answers_execSysPing hs ho
  | fieldAdmit => exact answers_execFieldAdmit hs ho
  | fieldDrain => exact answers_execFieldDrain hs ho
  | fieldPark => exact answers_execFieldPark hs ho
  | fieldReturn => exact answers_execFieldReturn hs ho
  | fieldReset => exact answers_execFieldReset hs ho
  | fieldRetest => exact answers_execFieldRetest hs ho
  | fieldFail => exact answers_execFieldFail hs ho
  | fieldClear => exact answers_execFieldClear hs ho
  | fieldInsulate => exact answers_execFieldInsulate hs ho
  | fieldPower => exact answers_execFieldPower hs ho
  | fieldQuery => exact answers_execFieldQuery hs ho
  | tileReset => exact answers_execTileReset hs ho
  | jobDeclare => exact answers_execJobDeclare hs ho
  | jobLoad => exact answers_execJobLoad hs ho
  | jobStart => exact answers_execJobStart hs ho
  | jobStop => exact answers_execJobStop hs ho
  | jobRelease => exact answers_execJobRelease hs ho
  | jobQuery => exact answers_execJobQuery hs ho
  | foldLoad => exact answers_execFoldLoad hs ho
  | foldSwitch => exact answers_execFoldSwitch hs ho
  | foldSchedule => exact answers_execFoldSchedule hs ho
  | brokerConnect => exact answers_execBrokerConnect hs ho
  | brokerClose => exact answers_execBrokerClose hs ho
  | brokerPolicy => exact answers_execBrokerPolicy hs ho
  | windowPublish => exact answers_execWindowPublish hs ho
  | windowWithdraw => exact answers_execWindowWithdraw hs ho
  | windowLookup => exact answers_execWindowLookup hs ho
  | cellRead => exact answers_execCellRead hs ho
  | cellSet => exact answers_execCellSet hs ho
  | cellForce => exact answers_execCellForce hs ho
  | cellWaiters => exact answers_execCellWaiters hs ho
  | tileRelease => exact answers_execTileRelease hs ho
  | pwrSetCap => exact answers_execPwrSetCap hs ho
  | pwrSetPolicy => exact answers_execPwrSetPolicy hs ho
  | pwrSetGroup => exact answers_execPwrSetGroup hs ho
  | pwrQuery => exact answers_execPwrQuery hs ho
  | thatchSet => exact answers_execThatchSet hs ho
  | thermSetLimits => exact answers_execThermSetLimits hs ho
  | clkSetOp => exact answers_execClkSetOp hs ho
  | clkSetMode => exact answers_execClkSetMode hs ho
  | clkQuery => exact answers_execClkQuery hs ho
  | portUp => exact answers_execPortUp hs ho
  | portDown => exact answers_execPortDown hs ho
  | portRetrain => exact answers_execPortRetrain hs ho
  | portRelay => exact answers_execPortRelay hs ho
  | portLaneMap => exact answers_execPortLaneMap hs ho
  | portConfig => exact answers_execPortConfig hs ho
  | routeSet => exact answers_execRouteSet hs ho
  | routeClear => exact answers_execRouteClear hs ho
  | portQuery => exact answers_execPortQuery hs ho
  | portForget => exact answers_execPortForget hs ho
  | fwQuery => exact answers_execFwQuery hs ho
  | fwApply => exact answers_execFwApply hs ho
  | mapGet => exact answers_execMapGet hs ho
  | distGet => exact answers_execDistGet hs ho
  | mapWait => exact answers_execMapWait hs ho
  | waferWindowLoad => exact answers_execWaferWindowLoad hs ho
  | waferWindowStore => exact answers_execWaferWindowStore hs ho
  | waferWindowTimeout => exact answers_execWaferWindowTimeout hs ho
  | waferWindowAnswer => exact answers_execWaferWindowAnswer hs ho
  | hartFenceIo => exact answers_execHartFenceIo hs ho
  | timerInterrupt => exact answers_execTimerInterrupt hs ho
  | softwareInterruptWrite => exact answers_execSoftwareInterruptWrite hs ho
  | hostClkWrite => exact answers_execHostClkWrite hs ho
  | sbiSecureForward => exact answers_execSbiSecureForward hs ho
  | sbiSystemReset => exact answers_execSbiSystemReset hs ho
  | nodeBoot => exact answers_execNodeBoot hs ho
  | hostBootTimeout => exact answers_execHostBootTimeout hs ho
  | ethRingTailWrite => exact answers_execEthRingTailWrite hs ho
  | ethDescriptorDone => exact answers_execEthDescriptorDone hs ho
  | ethFrameReceive => exact answers_execEthFrameReceive hs ho
  | pcieDeviceWrite => exact answers_execPcieDeviceWrite hs ho
  | hedgerowRestart => exact answers_execHedgerowRestart hs ho
  | sidebandModeTry => exact answers_execSidebandModeTry hs ho
  | hedgerowFieldPoll => exact answers_execHedgerowFieldPoll hs ho
  | scarabFlush => exact answers_execScarabFlush hs
  | scarabHoldingDrain => exact answers_execScarabHoldingDrain hs
  | timeAnchor => exact answers_execTimeAnchor hs ho
  | i3cEntdaa => exact answers_execI3cEntdaa hs ho
  | i3cPrivateRead => exact answers_execI3cPrivateRead hs ho
  | setEndpointId => exact answers_execSetEndpointId hs ho
  | getEndpointId => exact answers_execGetEndpointId hs ho
  | getMctpVersionSupport => exact answers_execGetMctpVersionSupport hs ho
  | getMessageTypeSupport => exact answers_execGetMessageTypeSupport hs ho
  | getVendorDefinedMsgSupport => exact answers_execGetVendorDefinedMsgSupport hs ho
  | health => exact answers_execHealth hs ho
  | slotGetAnswer => exact answers_execSlotGetAnswer hs ho
  | slotSetAnswer => exact answers_execSlotSetAnswer hs ho
  | slotCheckTimeout => exact answers_execSlotCheckTimeout hs ho
  | getVersion => exact answers_execGetVersion hs ho
  | getCapabilities => exact answers_execGetCapabilities hs ho
  | negotiateAlgorithms => exact answers_execNegotiateAlgorithms hs ho
  | getDigests => exact answers_execGetDigests hs ho
  | getCertificate => exact answers_execGetCertificate hs ho
  | challenge => exact answers_execChallenge hs ho
  | getMeasurements => exact answers_execGetMeasurements hs ho
  | chassisForceRestart => exact answers_execChassisForceRestart hs ho
  | chassisPowerCycle => exact answers_execChassisPowerCycle hs ho
  | chassisForceOff => exact answers_execChassisForceOff hs ho
  | chassisOn => exact answers_execChassisOn hs ho
  | powerLimitSet => exact answers_execPowerLimitSet hs ho
  | indicatorLedSet => exact answers_execIndicatorLedSet hs ho
  | datetimeSet => exact answers_execDatetimeSet hs ho
  | managerReset => exact answers_execManagerReset hs ho
  | resetToDefaults => exact answers_execResetToDefaults hs ho
  | redfishGet => exact answers_execRedfishGet hs ho
  | sessionLogin => exact answers_execSessionLogin hs ho
  | sessionIdleExpiry => exact answers_execSessionIdleExpiry hs ho
  | accountChange => exact answers_execAccountChange hs ho
  | configSet => exact answers_execConfigSet hs ho
  | ownerKeyInstall => exact answers_execOwnerKeyInstall hs ho
  | clearLog => exact answers_execClearLog hs ho
  | scarabExport => exact answers_execScarabExport hs ho
  | fieldSnapshot => exact answers_execFieldSnapshot hs ho
  | firmwarePush => exact answers_execFirmwarePush hs ho
  | updateApply => exact answers_execUpdateApply hs ho
  | regionRepair => exact answers_execRegionRepair hs ho
  | recoveryLoader => exact answers_execRecoveryLoader hs ho
  | recoveryRetry => exact answers_execRecoveryRetry hs ho
  | registerWrite => exact answers_execRegisterWrite hs ho
  | conductorBoot => exact answers_execConductorBoot hs ho
  | standbyInputLoss => exact answers_execStandbyInputLoss hs ho
  | ethLinkChange => exact answers_execEthLinkChange hs ho
  | sidebandLink => exact answers_execSidebandLink hs ho
  | debtRepaid => exact answers_execDebtRepaid hs ho.toFields.field
  | accountLockExpiry => exact answers_execAccountLockExpiry hs ho
  | profileAgeUpdate => exact answers_execProfileAgeUpdate hs ho.toFields.field
  | pcieDeviceRead => exact answers_execPcieDeviceRead hs ho
  | heldOrderWrite => exact answers_execHeldOrderWrite hs ho.toFields

/-- The scope of everything. -/
def all : Scope where
  tile _ := True
  reg _ _ := True
  cells _ := .any
  field _ := True
  mesh := True
  ports := True
  hosts := True
  tables := True
  cond := True
  boot := True
  syncReply := True
  sensors := True
  outer := True

theorem open_all : all.Open where
  tile _ := trivial
  reg _ _ := trivial
  any _ := rfl
  field _ := trivial
  mesh := trivial
  ports := trivial
  hosts := trivial
  tables := trivial
  cond := trivial
  boot := trivial
  syncReply := trivial
  sensors := trivial
  outer := trivial

theorem Keeps.memoryForm {F : Scope} {l u : State} (h : F.Keeps l u) (w : l.MemoryForm) : u.MemoryForm :=
  ⟨fun t => (h.tile t).wf (w.1 t), fun k => h.host k (w.2 k)⟩

/-- A tick moves no byte. -/
theorem Keeps.tick {F : Scope} (ho : F.Open) (s : State) : F.Keeps s s.tick := by
  refine ho.keeps (fun t => ?_) fun _ => id
  obtain ⟨cyc, n, e⟩ := s.tile_tick t
  intro w
  rwa [e, (Tile.alike_sampleStart ..).2.1]

end Scope

/-- Settles O49: the scope of everything holds of every command and of the tick, and carries the form of memory. -/
theorem everyStepKeepsMemoryForm : Obligations.EveryStepKeepsMemoryForm := by
  unfold Obligations.EveryStepKeepsMemoryForm
  intro s u w he
  unfold step at he
  cases hp : s.pending with
  | nil =>
    simp only [hp] at he
    cases he
    exact (Scope.Keeps.tick Scope.open_all s).memoryForm w
  | cons c rest =>
    simp only [hp] at he
    have hk : Scope.all.Keeps s { s with pending := rest } := (Scope.Keeps.refl .all s).rest Scope.open_all
    have h := Scope.answers_exec c hk Scope.open_all
    rw [he] at h
    exact Scope.Keeps.memoryForm h w

end Sys2Proof.Machine
end

section
/-! PROOFS. Conditions before the watchdog (O56). -/

namespace Sys2Proof.Machine

section
variable (s : State) (t : TileId)

theorem exec_stallConditionMet {st : Stream} (h : (s.tile t).waitsPass ((s.tile t).streamWaits st) = true) :
    exec (.stallConditionMet t st) s = .next (s.streamMet t st) := congrArg Host.Outcome.next (if_pos h)

theorem exec_stallWatchdogExpiry (st : Stream) (hp : (s.tile t).present = true) (hc : s.clocked t = true) :
    exec (.stallWatchdogExpiry t st) s = .next (s.streamExpire t false st) :=
  congrArg Host.Outcome.next (if_pos (by rw [hp, hc]; rfl))

/-- A stall that has no beginning does not expire. -/
@[simp] theorem Tile.expired_none (tl : Tile) (now : Nat) (force : Bool) : tl.expired now none force = false := rfl

/-- The core's watchdog tries the condition first, and ends only a stall that is left. -/
theorem State.coreExpire_met (h : ((s.coreMet t).tile t).core.stall = none) : s.coreExpire t false = s.coreMet t := by
  simp [State.coreExpire, h]

theorem State.engineExpire_met {e : Nat} (he : e < 8) (hr : (((s.engineMet t e).tile t).engine e).running = none)
    (hh : (((s.engineMet t e).tile t).engine e).headSince = none) : s.engineExpire t e false = s.engineMet t e := by
  unfold State.engineExpire
  simp only [Bool.false_eq_true, if_false, if_neg (Nat.not_le.mpr he), hr, hh, Tile.expired_none, Bool.and_false]
  split <;> rfl

theorem State.outExpire_met {e : Nat} (he : 8 ≤ e) (h : ((s.engineMet t e).tile t).forage.out.find (e - 8) = none) :
    s.engineExpire t e false = s.engineMet t e := by
  simp [State.engineExpire, he, h]

/-- The fire unit's watchdog finds nothing to end where no token is held, no context waits and its ready head does not. -/
theorem State.fireExpire_idle (hh : (s.tile t).fold.held = []) (hc : ∀ x ∈ (s.tile t).fold.ctxs, x.2.since = none)
    (hr : (s.tile t).fold.readySince = none) : s.fireExpire t false = s := by
  have hx : (s.tile t).fold.ctxs.find? (fun e => (s.tile t).expired (s.run t) e.2.since false) = none :=
    List.find?_eq_none.mpr fun x hx => by simp [hc x hx]
  simp only [State.fireExpire, hh, List.find?_nil, hx, hr, Tile.expired_none]
  split <;> rfl

end

/-- Settles O56: the expiry tries the condition first, and then finds nothing of the stream that is left to end. -/
theorem conditionBeatsWatchdog : Obligations.ConditionBeatsWatchdog := by
  unfold Obligations.ConditionBeatsWatchdog
  intro s t hp hc
  have expires (st : Stream) (h : s.streamExpire t false st = s.streamMet t st) : exec (.stallWatchdogExpiry t st) s = .next (s.streamMet t st) := by
    rw [exec_stallWatchdogExpiry s t st hp hc, h]
  refine ⟨fun st h => exec_stallConditionMet s t h, fun h => expires .core (s.coreExpire_met t h),
    fun e he hr hh => expires (.engine e) (s.engineExpire_met t he hr hh), fun e he h => expires (.engine e) (s.outExpire_met t he h),
    fun hh hx hr => expires .fire ((s.fireMet t).fireExpire_idle t hh hx hr)⟩

end Sys2Proof.Machine
end

section
/-! SUPPORT. Rules of the core: what reads and writes of memory, completions, stalls, faults and tags leave. -/

namespace Sys2Proof.Machine

/-! ## Tiles that a read or write of memory leaves the same but for errors and rotations -/

namespace Tile

variable {a b : Tile} (h : a.calm = b.calm)
include h

theorem core_of_calm : a.core = b.core := (congrArg Tile.core h : _)
theorem fault_of_calm : a.fault = b.fault := (congrArg Tile.fault h : _)
theorem full_of_calm : a.mem.full = b.mem.full := (congrArg (fun x : Tile => x.mem.full) h : _)
theorem handles_of_calm : a.handles = b.handles := (congrArg Tile.handles h : _)
theorem q_of_calm : a.q = b.q := (congrArg Tile.q h : _)
theorem sync_of_calm : a.sync = b.sync := (congrArg Tile.sync h : _)
theorem fold_of_calm : a.fold = b.fold := (congrArg Tile.fold h : _)
theorem forage_of_calm : a.forage = b.forage := (congrArg Tile.forage h : _)
theorem gen_of_calm : a.gen = b.gen := (congrArg Tile.gen h : _)

end Tile

/-- A unit's read of bytes without an uncorrectable word goes on with them, the read's corrections made and its port's rotation moved. -/
theorem State.reading_of_hit {s : State} {t : TileId} {o n : Nat} (h : (s.tile t).mem.hit o n = none) (unit : Nat) (k : List Byte → State → State) :
    s.reading t unit o n k = k ((s.tile t).get o n) ((s.correct t o n).served t (requesterOf unit) o) := by
  simp only [State.reading, h]

theorem State.calm_read (s : State) (t v : TileId) (req o n : Nat) : (((s.correct t o n).served t req o).tile v).calm = (s.tile v).calm :=
  (State.calm_served ..).trans (State.calm_correct ..)

/-- The same for a write of bytes that cover no part of an uncorrectable word alone. -/
theorem State.writing_of_hit {s : State} {t : TileId} {o n : Nat} (h : (s.tile t).mem.partialHit o n = none) (unit : Nat) (k : State → State) :
    s.writing t unit o n k = k ((s.merge t o n).served t (requesterOf unit) o) := by
  simp only [State.writing, h]

theorem State.calm_write (s : State) (t v : TileId) (req o n : Nat) : (((s.merge t o n).served t req o).tile v).calm = (s.tile v).calm :=
  (State.calm_served ..).trans (State.calm_merge ..)

/-! ## Completing, stalling and halting -/

/-- An instruction that its word names and that issues does what its body does. -/
theorem Does.issued {c : Instr} {op : XOp} {body : TileId → XArgs → State → State} {s : State} {t : TileId} {a : XArgs} {P : State → Prop}
    (hc : exec c s = .next (issue op body t a s)) (hi : Issues s t op a) (hp : P (body t a s)) : Does c s P :=
  .of_next (hc.trans (congrArg _ (issue_eq hi))) hp

/-- Retiring with a value in rd, from a tile whose pc and registers are those the instruction began with. -/
theorem retired_of_tile {s u : State} {t : TileId} {tl : Tile} {len rd cost : Nat} {v : Word} (hu : (u.tile t).core.regs = ((tl.setReg rd v).retire len cost).core.regs)
    (hpc : (u.tile t).core.pc = ((tl.setReg rd v).retire len cost).core.pc) (hst : (u.tile t).core.stall = none) (hc : tl.core = (s.tile t).core) :
    Retired s u t len rd v := by
  have hr (q : Nat) : (u.tile t).reg q = ((tl.setReg rd v).retire len cost).reg q := by simp [Tile.reg, hu]
  have hs (q : Nat) : tl.reg q = (s.tile t).reg q := by simp [Tile.reg, hc]
  refine ⟨by simp [hpc, hc], ?_, fun r hne => ?_, hst⟩
  · simp [hr, Tile.reg_setReg]
  · rw [hr, Tile.reg_retire, Tile.reg_setReg, if_neg (Ne.symm hne)]
    by_cases hz : r = 0
    · subst hz; simp [Tile.reg]
    · rw [if_neg hz, hs]

theorem retired_modTile {s s' : State} {t : TileId} {len rd cost : Nat} {v : Word} (hc : (s'.tile t).core = (s.tile t).core) :
    Retired s (s'.modTile t fun tl => (tl.setReg rd v).retire len cost) t len rd v :=
  retired_of_tile (cost := cost) (by simp) (by simp) (by simp) hc

/-- Completing from a state whose core is as the instruction found it. -/
theorem completed_finish {s s' : State} {t : TileId} {a : XArgs} {st v cost : Nat} (hr : s.coreReady t = true) (hc : (s'.tile t).core = (s.tile t).core) :
    Completed s (s'.finish t a st v cost) t a st v := by
  rw [finish_eq s' t a st v cost (by rw [hc]; exact ready_stall hr)]
  exact retired_modTile hc

/-- Completing, and what then holds of the tile. -/
theorem completed_finish_and {s s' : State} {t : TileId} {a : XArgs} {st v cost : Nat} {P : Tile → Prop} (hr : s.coreReady t = true)
    (hc : (s'.tile t).core = (s.tile t).core) (hp : P (((s'.tile t).setReg a.rd (statusWord st v)).retire 4 cost)) :
    Completed s (s'.finish t a st v cost) t a st v ∧ P ((s'.finish t a st v cost).tile t) := by
  refine ⟨completed_finish hr hc, ?_⟩
  rwa [tile_finish s' t a st v cost (by rw [hc]; exact ready_stall hr)]

theorem retired_finishRaw {s s' : State} {t : TileId} {a : XArgs} {st cost : Nat} {v : Word} (hc : (s'.tile t).core = (s.tile t).core) :
    Retired s (s'.finishRaw t a st v cost) t 4 a.rd v :=
  retired_of_tile (tl := s'.tile t) (cost := cost) (by simp [State.finishRaw]) (by simp [State.finishRaw]) (by simp [State.finishRaw]) hc

@[simp] theorem State.lastStatus_finishRaw (s : State) (t : TileId) (a : XArgs) (st : Nat) (v : Word) (cost : Nat) :
    ((s.finishRaw t a st v cost).tile t).core.lastStatus = st := by simp [State.finishRaw]

@[simp] theorem State.mem_finishRaw (s : State) (t : TileId) (a : XArgs) (st : Nat) (v : Word) (cost : Nat) :
    ((s.finishRaw t a st v cost).tile t).mem = (s.tile t).mem := by simp [State.finishRaw]

theorem stallsIn_stallOn (s : State) (t : TileId) (op : XOp) (a : XArgs) (w : StallWait) (obj : Nat) : StallsIn (s.stallOn t op a w obj) t op := by
  simp [StallsIn, State.stallOn]

/-- A first fault halts the core with its code and detail words. -/
theorem halts_raise {s s' : State} {t : TileId} {unit code : Nat} {i0 i1 : Word} (hf : (s'.tile t).fault.valid = false)
    (hpc : (s'.tile t).core.pc = (s.tile t).core.pc) : Halts s (s'.raise t unit code i0 i1) t code i0 i1 := by
  simp [Halts, State.raise, Tile.raise, hf, hpc]

/-! ## Reading back what was written -/

theorem Tile.cells_put (tl : Tile) (o : Nat) (bs : List Byte) : (tl.put o bs).mem.cells = tl.mem.cells.writeN bs o := rfl

theorem Tile.get_put (tl : Tile) (o : Nat) (bs : List Byte) : (tl.put o bs).get o bs.length = bs := Memory.readN_writeN ..

theorem sameBut_writeN (m : Memory) (bs : List Byte) (o : Nat) : SameBut m (m.writeN bs o) o bs.length := fun i h => Memory.read_writeN_other bs m o i h

@[simp] theorem length_wordLe (w : Word) : (wordLe w).length = 4 := length_natLe ..

theorem Tile.get_of_cells {a b : Tile} (h : a.mem.cells = b.mem.cells) (o n : Nat) : a.get o n = b.get o n := by simp [Tile.get, TileMem.get, h]

/-! ### Parts of what is read -/

theorem Memory.drop_readN (m : Memory) : ∀ k n a, (m.readN n a).drop k = m.readN (n - k) (a + k)
  | 0, _, _ => rfl
  | k + 1, 0, a => by simp [Memory.readN]
  | k + 1, n + 1, a => by
    rw [Memory.readN, List.drop_succ_cons, m.drop_readN k n (a + 1)]
    congr 1 <;> omega

theorem Memory.take_readN (m : Memory) : ∀ k n a, k ≤ n → (m.readN n a).take k = m.readN k a
  | 0, _, _, _ => by simp [Memory.readN]
  | k + 1, 0, _, h => absurd h (by omega)
  | k + 1, n + 1, a, h => by rw [Memory.readN, List.take_succ_cons, m.take_readN k n (a + 1) (by omega), Memory.readN]

theorem Tile.bytesAt_get {tl : Tile} {o n i k : Nat} (h : i + k ≤ n) : bytesAt (tl.get o n) i k = tl.get (o + i) k := by
  simp only [bytesAt, Tile.get, TileMem.get]
  rw [Memory.drop_readN, Memory.take_readN _ _ _ _ (by omega)]
  simp [Memory.length_readN]

/-! ## Tags -/

theorem mem_foldl_insertNat {x : Nat} {gs : List Nat} : ∀ {l : List Nat}, x ∈ gs.foldl insertNat l ↔ x ∈ gs ∨ x ∈ l := by
  induction gs with
  | nil => simp
  | cons g gs ih =>
    intro l
    rw [List.foldl_cons, ih, mem_insertNat, List.mem_cons]
    tauto

theorem mem_granules {g o n : Nat} : g ∈ granules o n ↔ o / 32 ≤ g ∧ g < o / 32 + cdiv n 32 := by
  simp only [granules, List.mem_map, mem_upto]
  constructor
  · rintro ⟨i, hi, rfl⟩
    omega
  · rintro ⟨h1, h2⟩
    exact ⟨g - o / 32, by omega, by omega⟩

theorem TileMem.isFull_setFull (m : TileMem) (o n p : Nat) : (m.setFull o n).isFull p = true ↔ p / 32 ∈ granules o n ∨ m.isFull p = true := by
  simp [TileMem.isFull, TileMem.setFull, mem_foldl_insertNat]

theorem TileMem.isFull_setEmpty (m : TileMem) (o n p : Nat) : (m.setEmpty o n).isFull p = true ↔ m.isFull p = true ∧ p / 32 ∉ granules o n := by
  simp [TileMem.isFull, TileMem.setEmpty, mem_granules, imp_iff_not_or]

/-- Tile b is tile a but for its memory and queues, and its tags are a's. -/
def Tile.SameTags (a b : Tile) : Prop := ∃ m q, b = { a with mem := m, q := q } ∧ m.full = a.mem.full

theorem Tile.SameTags.trans {a b c : Tile} (h : a.SameTags b) (k : b.SameTags c) : a.SameTags c := by
  obtain ⟨m, q, rfl, hm⟩ := h
  obtain ⟨m', q', rfl, hm'⟩ := k
  exact ⟨m', q', rfl, hm'.trans hm⟩

/-- Arming a combining slot moves no tag and no more of the tile than its bytes and queues. -/
theorem Tile.sameTags_armSlot (tl : Tile) (q sl : Nat) : tl.SameTags (tl.armSlot q sl) := by
  unfold Tile.armSlot
  dsimp only [Tile.setQueue, TileMem.put]
  refine ⟨_, _, rfl, ?_⟩
  split <;> rfl

theorem Tile.sameTags_takeSlot (tl : Tile) (q sl : Nat) : tl.SameTags (tl.takeSlot q sl) := by
  unfold Tile.takeSlot
  dsimp only
  split
  · exact tl.sameTags_armSlot q sl
  · exact ⟨_, _, rfl, rfl⟩

/-- Emptying tags moves those tags, and no more of the tile than the bytes and queues of combining slots. -/
theorem Tile.emptyTags_rest (tl : Tile) (o n : Nat) : ∃ m q, tl.emptyTags o n = { tl with mem := m, q := q } ∧ m.full = (tl.mem.setEmpty o n).full := by
  have takes (ps : List (Nat × Nat)) : ∀ b : Tile, b.SameTags (ps.foldl (fun x p => x.takeSlot p.1 p.2) b) := by
    induction ps with
    | nil => exact fun b => ⟨b.mem, b.q, rfl, rfl⟩
    | cons p ps ih => exact fun b => (b.sameTags_takeSlot p.1 p.2).trans (ih _)
  exact takes _ { tl with mem := tl.mem.setEmpty o n }

@[simp] theorem Tile.core_emptyTags (tl : Tile) (o n : Nat) : (tl.emptyTags o n).core = tl.core := by
  obtain ⟨m, q, e, -⟩ := tl.emptyTags_rest o n
  rw [e]

@[simp] theorem Tile.gen_emptyTags (tl : Tile) (o n : Nat) : (tl.emptyTags o n).gen = tl.gen := by
  obtain ⟨m, q, e, -⟩ := tl.emptyTags_rest o n
  rw [e]

theorem Tile.full_emptyTags (tl : Tile) (o n : Nat) : (tl.emptyTags o n).mem.full = (tl.mem.setEmpty o n).full := by
  obtain ⟨m, q, e, hm⟩ := tl.emptyTags_rest o n
  rw [e, hm]

/-! ### The slots of a handle -/

theorem Handle.slotAt_div (h : Handle) (sl : Nat) : h.slotAt sl / 32 = (if h.inTm then 8192 else 0) + h.base + sl * 2 ^ h.slotSize := by
  have e : h.slotAt sl = 32 * ((if h.inTm then 8192 else 0) + h.base + sl * 2 ^ h.slotSize) := by
    unfold Handle.slotAt Handle.slotBytes tmBase
    split <;> ring
  rw [e, Nat.mul_div_cancel_left _ (by decide)]

theorem Handle.cdiv_slotBytes (h : Handle) (n : Nat) : cdiv (n * h.slotBytes) 32 = n * 2 ^ h.slotSize := by
  have e : n * h.slotBytes = 32 * (n * 2 ^ h.slotSize) := by unfold Handle.slotBytes; ring
  rw [e, cdiv]
  omega

/-- The slots of a handle lie in granules of their own. -/
theorem Handle.slot_granule {h : Handle} {first n i : Nat} (hi : i < n) : h.slotAt (first + i) / 32 ∈ granules (h.slotAt first) (n * h.slotBytes) := by
  rw [mem_granules, h.slotAt_div, h.slotAt_div, h.cdiv_slotBytes, Nat.add_mul]
  have : i * 2 ^ h.slotSize < n * 2 ^ h.slotSize := Nat.mul_lt_mul_of_pos_right hi (Nat.two_pow_pos _)
  omega

theorem Tile.slotsFull_fillTags (tl : Tile) (h : Handle) (first n : Nat) : (tl.fillTags (h.slotAt first) (n * h.slotBytes)).slotsFull h first n = true := by
  simp only [Tile.slotsFull, List.all_eq_true, mem_upto]
  exact fun i hi => (TileMem.isFull_setFull ..).mpr (.inl (Handle.slot_granule hi))

theorem Tile.slotsEmpty_emptyTags (tl : Tile) (h : Handle) (first n : Nat) : (tl.emptyTags (h.slotAt first) (n * h.slotBytes)).slotsEmpty h first n = true := by
  simp only [Tile.slotsEmpty, List.all_eq_true, mem_upto, Bool.not_eq_true']
  intro i hi
  have hf : (tl.emptyTags (h.slotAt first) (n * h.slotBytes)).mem.isFull (h.slotAt (first + i)) =
      (tl.mem.setEmpty (h.slotAt first) (n * h.slotBytes)).isFull (h.slotAt (first + i)) := by
    simp only [TileMem.isFull, tl.full_emptyTags]
  rw [hf, Bool.eq_false_iff, ne_eq, TileMem.isFull_setEmpty]
  exact fun k => k.2 (Handle.slot_granule hi)

/-- Whether slots are full or empty rests on the tags alone. -/
theorem Tile.slotsFull_of_full {a b : Tile} (e : a.mem.full = b.mem.full) (h : Handle) (i n : Nat) : a.slotsFull h i n = b.slotsFull h i n := by
  simp only [Tile.slotsFull, TileMem.isFull, e]

theorem Tile.slotsEmpty_of_full {a b : Tile} (e : a.mem.full = b.mem.full) (h : Handle) (i n : Nat) : a.slotsEmpty h i n = b.slotsEmpty h i n := by
  simp only [Tile.slotsEmpty, TileMem.isFull, e]

end Sys2Proof.Machine
end

section
/-! PROOFS. The buffer instructions (O2). -/

namespace Sys2Proof.Machine

section
variable {s : State} {t : TileId} {a : XArgs}

/-! ### hset and hclr -/

theorem Tile.handle_of_handles {a b : Tile} (h : a.handles = b.handles) (i : Nat) : a.handle i = b.handle i := by simp [Tile.handle, h]

@[simp] theorem Tile.handle_setHandle (tl : Tile) (h : Nat) (v : Handle) : (tl.setHandle h v).handle h = v := by simp [Tile.handle, Tile.setHandle]

theorem hset_busy (hi : Issues s t .hset a) (hz : bits (s.rs1 t a) 31 6 = 0) (hm : imageOk (s.rs2 t a).toNat 16 = true)
    (hu : (s.tile t).inUse (bits (s.rs1 t a) 5 0) = true) : Does (.hset t a) s (fun u => Completed s u t a stBusy 0) := by
  refine .issued rfl hi ?_
  simp only [xHset, hz, hm, hu, beq_self_eq_true, Bool.not_true, Bool.false_eq_true, if_false, if_true]
  exact completed_finish hi.1 rfl

/-- An accepted image of a handle that is not in use becomes its entry. -/
theorem hset_ok (hi : Issues s t .hset a) (hz : bits (s.rs1 t a) 31 6 = 0) (hm : imageOk (s.rs2 t a).toNat 16 = true)
    (hu : (s.tile t).inUse (bits (s.rs1 t a) 5 0) = false) (hh : (s.tile t).mem.hit (s.rs2 t a).toNat 16 = none)
    (hk : handleImageOk (leWord ((s.tile t).get (s.rs2 t a).toNat 4)) (leWord ((s.tile t).get ((s.rs2 t a).toNat + 4) 4))
      (leWord ((s.tile t).get ((s.rs2 t a).toNat + 8) 4)) (leWord ((s.tile t).get ((s.rs2 t a).toNat + 12) 4)) = true) :
    Does (.hset t a) s (fun u => Completed s u t a stOk 0 ∧ (u.tile t).handle (bits (s.rs1 t a) 5 0) =
      handleOf (leWord ((s.tile t).get (s.rs2 t a).toNat 4)) (leWord ((s.tile t).get ((s.rs2 t a).toNat + 4) 4))) := by
  refine .issued rfl hi ?_
  have word (i : Nat) (h : 4 * i + 4 ≤ 16) : leWord (bytesAt ((s.tile t).get (s.rs2 t a).toNat 16) (4 * i) 4) = leWord ((s.tile t).get ((s.rs2 t a).toNat + 4 * i) 4) :=
    congrArg leWord (Tile.bytesAt_get h)
  simp only [xHset, hz, hm, hu, beq_self_eq_true, Bool.not_true, Bool.false_eq_true, if_false, State.reading_of_hit hh, word 0 (by decide), word 1 (by decide),
    word 2 (by decide), word 3 (by decide), Nat.mul_zero, Nat.add_zero, Nat.mul_one, hk, if_true]
  have hc := Tile.core_of_calm (s.calm_read t t (requesterOf 0) (s.rs2 t a).toNat 16)
  refine completed_finish_and (P := fun tl => tl.handle (bits (s.rs1 t a) 5 0) = _) hi.1 ?_ ?_
  · rw [State.tile_modTile]
    exact hc
  · rw [Tile.handle_of_handles (Tile.handles_retire ..), Tile.handle_of_handles (Tile.handles_setReg ..), State.tile_modTile, Tile.handle_setHandle]

theorem hclr_busy (hi : Issues s t .hclr a) (hz : bits (s.rs1 t a) 31 6 = 0) (hv : ((s.tile t).handle (bits (s.rs1 t a) 5 0)).valid = true)
    (hu : (s.tile t).inUse (bits (s.rs1 t a) 5 0) = true) : Does (.hclr t a) s (fun u => Completed s u t a stBusy 0) := by
  refine .issued rfl hi ?_
  simp only [xHclr, hz, hv, hu, beq_self_eq_true, Bool.not_true, Bool.or_self, Bool.false_eq_true, if_false, if_true]
  exact completed_finish hi.1 rfl

theorem hclr_ok (hi : Issues s t .hclr a) (hz : bits (s.rs1 t a) 31 6 = 0) (hv : ((s.tile t).handle (bits (s.rs1 t a) 5 0)).valid = true)
    (hu : (s.tile t).inUse (bits (s.rs1 t a) 5 0) = false) :
    Does (.hclr t a) s (fun u => Completed s u t a stOk 0 ∧ ((u.tile t).handle (bits (s.rs1 t a) 5 0)).valid = false) := by
  refine .issued rfl hi ?_
  simp only [xHclr, hz, hv, hu, beq_self_eq_true, Bool.not_true, Bool.or_self, Bool.false_eq_true, if_false]
  refine completed_finish_and (P := fun tl => (tl.handle (bits (s.rs1 t a) 5 0)).valid = false) hi.1 ?_ ?_
  · rw [State.tile_setTile]
    split <;> rfl
  · rw [Tile.handle_of_handles (Tile.handles_retire ..), Tile.handle_of_handles (Tile.handles_setReg ..), State.tile_setTile]
    have e (c : Bool) (x : Tile) : (if c = true then x.stopProfile else x).handles = x.handles := by split <;> rfl
    rw [Tile.handle_of_handles (e ..), Tile.handle_setHandle]

/-! ### ldt and stt -/

variable {r : HRef} {h : Handle} {o : Nat} (hr : r = hrefOf (s.rs1 t a)) (hh : h = (s.tile t).handle r.handle)
include hr hh

theorem ldt_stalls (hi : Issues s t .ldt a) (hw : (s.tile t).refWordOk r = true) (ht : h.tagged = true) (hf : (s.tile t).slotsFull h r.slot 1 = false) :
    Does (.ldt t a) s (fun u => StallsIn u t .ldt) := by
  refine .issued rfl hi ?_
  simp only [xLdt, ← hr, ← hh, hw, ht, hf, Bool.not_true, Bool.not_false, Bool.and_self, Bool.false_eq_true, if_false, if_true]
  exact stallsIn_stallOn ..

/-- ldt of a word whose slot lets it be read: a tagged slot may go empty, and with it the bytes of a combining slot be armed. -/
theorem ldt_ok (ho : o = (s.tile t).refAt r + 4 * r.idx) (hi : Issues s t .ldt a) (hw : (s.tile t).refWordOk r = true)
    (hf : h.tagged = false ∨ (s.tile t).slotsFull h r.slot 1 = true) (hm : (s.tile t).mem.hit o 4 = none) :
    Does (.ldt t a) s (fun u => Retired s u t 4 a.rd (leWord ((s.tile t).get o 4)) ∧ (u.tile t).core.lastStatus = stOk ∧
      (h.tagged = false → (u.tile t).mem.cells = (s.tile t).mem.cells)) := by
  have hg : (h.tagged && !(s.tile t).slotsFull h r.slot 1) = false := by
    rcases hf with hf | hf <;> simp [hf]
  refine .issued rfl hi ?_
  simp only [xLdt, ← hr, ← hh, ← ho, hw, hg, Bool.not_true, Bool.false_eq_true, if_false, State.reading_of_hit hm]
  have hc := s.calm_read t t (requesterOf 0) o 4
  refine ⟨retired_finishRaw ?_, State.lastStatus_finishRaw .., fun hn => ?_⟩
  · rw [State.tile_modTile]
    split
    · exact (Tile.core_emptyTags ..).trans (Tile.core_of_calm hc)
    · exact Tile.core_of_calm hc
  · simp only [State.mem_finishRaw, State.tile_modTile, hn, Bool.false_and, Bool.false_eq_true, if_false]
    exact Tile.cells_of_calm hc

theorem stt_stalls (hi : Issues s t .stt a) (hw : (s.tile t).refWordOk r = true) (ht : h.tagged = true) (hf : (s.tile t).slotsEmpty h r.slot 1 = false) :
    Does (.stt t a) s (fun u => StallsIn u t .stt) := by
  refine .issued rfl hi ?_
  simp only [xStt, ← hr, ← hh, hw, ht, hf, Bool.not_true, Bool.not_false, Bool.and_self, Bool.false_eq_true, if_false, if_true]
  exact stallsIn_stallOn ..

/-- stt of a word whose slot lets it be written: a tagged slot goes full under the mod. -/
theorem stt_ok (ho : o = (s.tile t).refAt r + 4 * r.idx) (hi : Issues s t .stt a) (hw : (s.tile t).refWordOk r = true)
    (hf : h.tagged = false ∨ (s.tile t).slotsEmpty h r.slot 1 = true) (hm : (s.tile t).mem.partialHit o 4 = none) :
    Does (.stt t a) s (fun u => Completed s u t a stOk 0 ∧ (u.tile t).get o 4 = wordLe (s.rs2 t a) ∧
      (h.tagged = true → nbit a.mods 0 = true → (u.tile t).slotsFull h r.slot 1 = true) ∧ SameBut (s.tile t).mem.cells (u.tile t).mem.cells o 4) := by
  have hg : (h.tagged && !(s.tile t).slotsEmpty h r.slot 1) = false := by
    rcases hf with hf | hf <;> simp [hf]
  refine .issued rfl hi ?_
  simp only [xStt, ← hr, ← hh, ← ho, hw, hg, Bool.not_true, Bool.false_eq_true, if_false, State.writing_of_hit hm]
  have hc := s.calm_write t t (requesterOf 0) o 4
  generalize ((s.merge t o 4).served t (requesterOf 0) o) = s' at hc
  have hcore := Tile.core_of_calm hc
  have hv : (s'.tile t).reg a.rs2 = s.rs2 t a := by simp [Tile.reg, State.rs2, hcore]
  have hcells : ((s'.tile t).put o (wordLe (s.rs2 t a))).mem.cells = (s.tile t).mem.cells.writeN (wordLe (s.rs2 t a)) o := by
    rw [Tile.cells_put, Tile.cells_of_calm hc]
  have hx {tl : Tile} (e : tl.mem.cells = (s.tile t).mem.cells.writeN (wordLe (s.rs2 t a)) o) :
      tl.get o 4 = wordLe (s.rs2 t a) ∧ SameBut (s.tile t).mem.cells tl.mem.cells o 4 :=
    ⟨by rw [Tile.get, TileMem.get, e]; exact Memory.readN_writeN .., by rw [e]; exact sameBut_writeN _ (wordLe _) o⟩
  refine completed_finish_and (P := fun tl => tl.get o 4 = _ ∧ (_ → _ → tl.slotsFull h r.slot 1 = true) ∧ SameBut _ tl.mem.cells o 4) hi.1 ?_ ?_
  · rw [State.tile_modTile]
    split <;> exact hcore
  · rw [State.tile_modTile, hv]
    split
    · obtain ⟨hget, hbut⟩ := hx (tl := (((s'.tile t).put o (wordLe (s.rs2 t a))).fillTags (h.slotAt r.slot) h.slotBytes).setReg a.rd (statusWord stOk 0))
        (by rw [Tile.mem_setReg]; exact hcells)
      refine ⟨hget, fun _ _ => ?_, hbut⟩
      have hfull := ((s'.tile t).put o (wordLe (s.rs2 t a))).slotsFull_fillTags h r.slot 1
      rw [Nat.one_mul] at hfull
      rw [← hfull]
      exact Tile.slotsFull_of_full (by simp) ..
    · next hn =>
      obtain ⟨hget, hbut⟩ := hx (tl := ((s'.tile t).put o (wordLe (s.rs2 t a))).setReg a.rd (statusWord stOk 0)) (by rw [Tile.mem_setReg]; exact hcells)
      exact ⟨hget, fun ht hb => absurd (by simp [ht, hb]) hn, hbut⟩

end

section
variable {s : State} {t : TileId} {a : XArgs} {h : Handle} {first n : Nat}

/-! ### tfill -/

theorem tfill_ok (hh : h = (s.tile t).handle (bits (s.rs1 t a) 5 0)) (hf : first = bits (s.rs2 t a) 15 0)
    (hn : n = (if bits (s.rs2 t a) 31 16 = 0 then h.length - first else bits (s.rs2 t a) 31 16)) (hi : Issues s t .tfill a)
    (hz : bits (s.rs1 t a) 31 6 = 0) (hv : h.valid = true) (hlt : first < h.length) (hle : first + n ≤ h.length) :
    Does (.tfill t a) s (fun u => Completed s u t a stOk 0 ∧
      (nbit a.mods 0 = true → (u.tile t).mem.cells = (s.tile t).mem.cells ∧ (u.tile t).slotsFull h first n = true) ∧
      (nbit a.mods 0 = false → (u.tile t).slotsEmpty h first n = true)) := by
  refine .issued rfl hi ?_
  simp only [xTfill, ← hh, ← hf, ← hn, hz, hv, hlt, hle, beq_self_eq_true, Bool.not_true, Bool.or_self, decide_true, Bool.and_self, Bool.false_eq_true,
      if_false]
  refine completed_finish_and (P := fun tl => (_ → tl.mem.cells = _ ∧ tl.slotsFull h first n = true) ∧ (_ → tl.slotsEmpty h first n = true)) hi.1 ?_ ?_
  · rw [State.tile_setTile]
    split
    · rfl
    · exact Tile.core_emptyTags ..
  · rw [State.tile_setTile]
    split
    · next hb =>
      refine ⟨fun _ => ⟨by rw [Tile.mem_retire, Tile.mem_setReg]; rfl, ?_⟩, fun hb' => absurd hb (by simp [hb'])⟩
      rw [← (s.tile t).slotsFull_fillTags h first n]
      exact Tile.slotsFull_of_full (by simp) ..
    · next hb =>
      refine ⟨fun hb' => absurd hb' hb, fun _ => ?_⟩
      rw [← (s.tile t).slotsEmpty_emptyTags h first n]
      exact Tile.slotsEmpty_of_full (by simp) ..

end

/-- Settles O2, instruction by instruction. -/
theorem bufferInstructionsComplete : Obligations.BufferInstructionsComplete := by
  unfold Obligations.BufferInstructionsComplete
  refine fun s t a => ⟨fun hi hz hm => ⟨hset_busy hi hz hm, hset_ok hi hz hm⟩, fun hi hz hv => ⟨hclr_busy hi hz hv, hclr_ok hi hz hv⟩,
    fun h r hr hh hi hw => ⟨ldt_ok hr hh rfl hi hw, ldt_stalls hr hh hi hw⟩, fun h r hr hh hi hw => ⟨stt_ok hr hh rfl hi hw, stt_stalls hr hh hi hw⟩,
    fun h first n hh hf hn hi hz hv hlt hle => tfill_ok hh hf hn hi hz hv hlt hle⟩

end Sys2Proof.Machine
end

section
/-! SUPPORT. Rules of sending: what a request leaves, and that it stands in the mesh. -/

namespace Sys2Proof.Machine

/-! ## Sending -/

theorem Sent.of_mesh {s u : State} {dst : Endp} {body : Body} (h : Sent s dst body) (e : u.mesh = s.mesh) : Sent u dst body := by
  rwa [Sent, e]

@[simp] theorem State.mesh_stallOn (s : State) (t : TileId) (op : XOp) (a : XArgs) (w : StallWait) (obj : Nat) : (s.stallOn t op a w obj).mesh = s.mesh := rfl

@[simp] theorem State.mesh_endThatch (s : State) (t : TileId) : (s.endThatch t).mesh = s.mesh := by
  unfold State.endThatch
  dsimp only
  split <;> rfl

@[simp] theorem State.mesh_finish (s : State) (t : TileId) (a : XArgs) (st v cost : Nat) : (s.finish t a st v cost).mesh = s.mesh := by
  unfold State.finish
  rw [State.modTile_mesh]
  split
  · exact s.mesh_endThatch t
  · rfl

@[simp] theorem State.mesh_setPend (s : State) (t : TileId) (p : Option (Nat × Nat)) : (s.setPend t p).mesh = s.mesh := rfl

/-- A tagged request goes out. -/
theorem State.sent_sendTagged (s : State) (t : TileId) (h : Hdr) (body : Body) (f : SyncUnit → SyncUnit) : Sent (s.sendTagged t h body f) h.dst body :=
  State.sent_send ..

theorem State.sent_sendRequest (s : State) (t : TileId) (h : Hdr) (body : Body) : Sent (s.sendRequest t h body) h.dst body := s.sent_sendTagged ..

/-- A tagged request changes nothing of its tile but what the tile keeps of its requests. -/
theorem State.tile_sendTagged (s : State) (t : TileId) (h : Hdr) (body : Body) (f : SyncUnit → SyncUnit) :
    ∃ y, (s.sendTagged t h body f).tile t = { s.tile t with sync := y } := ⟨_, by rw [State.sendTagged, State.tile_send, State.tile_modTile]⟩

@[simp] theorem State.core_sendTagged (s : State) (t : TileId) (h : Hdr) (body : Body) (f : SyncUnit → SyncUnit) :
    ((s.sendTagged t h body f).tile t).core = (s.tile t).core := by
  obtain ⟨y, e⟩ := s.tile_sendTagged t h body f
  rw [e]

@[simp] theorem State.core_sendRequest (s : State) (t : TileId) (h : Hdr) (body : Body) : ((s.sendRequest t h body).tile t).core = (s.tile t).core :=
  s.core_sendTagged ..

@[simp] theorem State.core_setPend (s : State) (t : TileId) (p : Option (Nat × Nat)) : ((s.setPend t p).tile t).core = (s.tile t).core := by
  rw [State.setPend, State.tile_modTile]

theorem State.sent_sendWrite (s : State) (t : TileId) (h : Hdr) (body : Body) (re : Re) (posted : Bool) : Sent (s.sendWrite t h body re posted) h.dst body :=
  s.sent_sendTagged ..

@[simp] theorem State.core_sendWrite (s : State) (t : TileId) (h : Hdr) (body : Body) (re : Re) (posted : Bool) :
    ((s.sendWrite t h body re posted).tile t).core = (s.tile t).core := s.core_sendTagged ..

end Sys2Proof.Machine
end

section
/-! PROOFS. The forage instructions (O5). -/

namespace Sys2Proof.Machine

/-! ### What a unit's checks and numbers read of a tile -/

theorem Tile.pushFail_of_calm {a b : Tile} (h : a.calm = b.calm) (bs : List Byte) : a.pushFail bs = b.pushFail bs := (congrArg (Tile.pushFail · bs) h : _)

theorem Tile.dequeFor_of_calm {a b : Tile} (h : a.calm = b.calm) (d : Desc) (sel : Nat) : a.dequeFor d sel = b.dequeFor d sel :=
  (congrArg (Tile.dequeFor · d sel) h : _)

theorem Tile.makeUnit_of_calm {a b : Tile} (h : a.calm = b.calm) (t : TileId) (bs : List Byte) (f : Option (Nat × Nat)) :
    a.makeUnit t bs f = b.makeUnit t bs f := (congrArg (Tile.makeUnit · t bs f) h : _)

theorem Tile.engine_of_forage {a b : Tile} (h : a.forage = b.forage) (e : Nat) : a.engine e = b.engine e := by simp [Tile.engine, h]

/-- What a push leaves of the deque and of the unit numbers. -/
theorem Tile.engine_push (tl : Tile) (t : TileId) (bs : List Byte) (e : Nat) (f : Option (Nat × Nat)) (now : Nat) :
    ((tl.push t bs e f now).engine e).deque = (tl.engine e).deque ++ [tl.makeUnit t bs f] := by
  simp [Tile.push, Tile.enqueue, Tile.engine, Tile.setEngine]

/-- What fpush does with the bytes of its descriptor. -/
def State.pushBytes (s : State) (t : TileId) (a : XArgs) (bs : List Byte) : State :=
  let tl := s.tile t
  match tl.pushFail bs with
  | some .descriptor => s.raise t 0 fcBadDescriptor (leWord (bytesAt bs 0 4)) (leWord (bytesAt bs 8 4))
  | some (.handle h) => s.raise t 0 fcBadHandle (BitVec.ofNat 32 h) (xword .fpush a)
  | none =>
    let e := tl.dequeFor (descOf bs) (tl.reg a.rs2).toNat
    if 16 ≤ tl.occ e then
      if nbit a.mods 0 then s.finish t a stFull 0 3 else s.stallOn t .fpush a .cond e
    else (s.setTile t (tl.push t bs e none (s.cycles t))).finish t a stOk (tl.forage.unitId % 65536) 3

section
variable {s : State} {t : TileId} {a : XArgs} {bs : List Byte} (hbs : bs = (s.tile t).get (s.rs1 t a).toNat 32) (hi : Issues s t .fpush a)
  (hm : imageOk (s.rs1 t a).toNat 32 = true) (hw : (s.rs2 t a).toNat ≤ 8) (hh : (s.tile t).mem.hit (s.rs1 t a).toNat 32 = none)
include hbs hi hm hw hh

/-- fpush reads its descriptor, and goes on from a state whose tiles are the same but for errors and rotations. -/
theorem fpush_does {P : State → Prop} (hp : ∀ s' : State, (s'.tile t).calm = (s.tile t).calm → P (s'.pushBytes t a bs)) : Does (.fpush t a) s P := by
  have hc := s.calm_read t t (requesterOf 0) (s.rs1 t a).toNat 32
  have hr : (((s.correct t (s.rs1 t a).toNat 32).served t (requesterOf 0) (s.rs1 t a).toNat).tile t).reg a.rs2 = s.rs2 t a := by
    simp [Tile.reg, State.rs2, Tile.core_of_calm hc]
  refine .issued rfl hi ?_
  have h := hp _ hc
  simp only [State.pushBytes, hr] at h
  simp only [xFpush, hm, hw, decide_true, Bool.not_true, Bool.false_eq_true, if_false, State.reading_of_hit hh, ← hbs]
  exact h

theorem fpush_bad_descriptor (hf : (s.tile t).pushFail bs = some .descriptor) (hv : (s.tile t).fault.valid = false) :
    Does (.fpush t a) s (fun u => Halts s u t 0x0705 (leWord (bytesAt bs 0 4)) (leWord (bytesAt bs 8 4))) := by
  refine fpush_does hbs hi hm hw hh fun s' hc => ?_
  simp only [State.pushBytes, Tile.pushFail_of_calm hc, hf]
  exact halts_raise (by rw [Tile.fault_of_calm hc]; exact hv) (by rw [Tile.core_of_calm hc])

theorem fpush_bad_handle {h : Nat} (hf : (s.tile t).pushFail bs = some (.handle h)) (hv : (s.tile t).fault.valid = false) :
    Does (.fpush t a) s (fun u => Halts s u t 0x0303 (BitVec.ofNat 32 h) (xword .fpush a)) := by
  refine fpush_does hbs hi hm hw hh fun s' hc => ?_
  simp only [State.pushBytes, Tile.pushFail_of_calm hc, hf]
  exact halts_raise (by rw [Tile.fault_of_calm hc]; exact hv) (by rw [Tile.core_of_calm hc])

variable {e : Nat} (hf : (s.tile t).pushFail bs = none) (he : e = (s.tile t).dequeFor (descOf bs) (s.rs2 t a).toNat)
include hf he

theorem fpush_full (hn : 16 ≤ (s.tile t).occ e) :
    Does (.fpush t a) s (fun u => if nbit a.mods 0 then Completed s u t a stFull 0 else StallsIn u t .fpush) := by
  refine fpush_does hbs hi hm hw hh fun s' hc => ?_
  have hcore := Tile.core_of_calm hc
  have ho : (s'.tile t).occ e = (s.tile t).occ e := by rw [Tile.occ, Tile.occ, Tile.engine_of_forage (Tile.forage_of_calm hc)]
  have hr : (s'.tile t).reg a.rs2 = s.rs2 t a := by simp [Tile.reg, State.rs2, hcore]
  simp only [State.pushBytes, Tile.pushFail_of_calm hc, hf, Tile.dequeFor_of_calm hc, hr, ← he, ho, hn, if_true]
  split
  · exact completed_finish hi.1 hcore
  · exact stallsIn_stallOn ..

theorem fpush_ok (hn : (s.tile t).occ e < 16) :
    Does (.fpush t a) s (fun u => Completed s u t a stOk ((s.tile t).forage.unitId % 65536) ∧
      ((u.tile t).engine e).deque = ((s.tile t).engine e).deque ++ [(s.tile t).makeUnit t bs none] ∧
      (u.tile t).forage.unitId = ((s.tile t).forage.unitId + 1) % 65536) := by
  refine fpush_does hbs hi hm hw hh fun s' hc => ?_
  have hcore := Tile.core_of_calm hc
  have hfor := Tile.forage_of_calm hc
  have ho : (s'.tile t).occ e = (s.tile t).occ e := by rw [Tile.occ, Tile.occ, Tile.engine_of_forage hfor]
  have hr : (s'.tile t).reg a.rs2 = s.rs2 t a := by simp [Tile.reg, State.rs2, hcore]
  simp only [State.pushBytes, Tile.pushFail_of_calm hc, hf, Tile.dequeFor_of_calm hc, hr, ← he, ho, Nat.not_le.mpr hn, if_false, hfor]
  refine completed_finish_and (P := fun tl => (tl.engine e).deque = _ ∧ tl.forage.unitId = _) hi.1 ?_ ⟨?_, ?_⟩
  · rw [State.tile_setTile]
    exact hcore
  · rw [Tile.engine_of_forage (Tile.forage_retire ..), Tile.engine_of_forage (Tile.forage_setReg ..), State.tile_setTile, Tile.engine_push,
      Tile.engine_of_forage hfor, Tile.makeUnit_of_calm hc]
  · rw [Tile.forage_retire, Tile.forage_setReg, State.tile_setTile, ← hfor]
    rfl

end

section
variable {s : State} {t : TileId} {a : XArgs}

/-! ### fsteal and fwait -/

/-- A steal request goes to its victim, and changes nothing of the core. -/
theorem State.askSteal_spec (s : State) (t : TileId) (e : Nat) (v : TileId) (rest : List TileId) :
    Sent (s.askSteal t e v rest) (.tile v) (.steal e (s.tile t).forage.domain (s.tile t).gen) ∧ ((s.askSteal t e v rest).tile t).core = (s.tile t).core :=
  ⟨State.sent_sendRequest .., by rw [State.askSteal, State.core_sendRequest, State.tile_setTile]; rfl⟩

/-- An fsteal with a candidate stalls for the answer of the first. -/
theorem fsteal_asks {v : TileId} {rest : List TileId} :
    StallsIn ((s.askSteal t coreThief v rest).stallOn t .fsteal a .answer 0) t .fsteal ∧
      Sent ((s.askSteal t coreThief v rest).stallOn t .fsteal a .answer 0) (.tile v) (.steal 8 (s.tile t).forage.domain (s.tile t).gen) :=
  ⟨stallsIn_stallOn .., (s.askSteal_spec t coreThief v rest).1.of_mesh (State.mesh_stallOn ..)⟩

theorem fsteal_named (hi : Issues s t .fsteal a) (hb : bit (s.rs1 t a) 31 = true) (hz : bits (s.rs1 t a) 30 20 = 0) :
    Does (.fsteal t a) s (fun u => StallsIn u t .fsteal ∧
      Sent u (.tile ⟨bits (s.rs1 t a) 9 0, bits (s.rs1 t a) 19 10⟩) (.steal 8 (s.tile t).forage.domain (s.tile t).gen)) := by
  have hne : (s.rs1 t a == 0) = false := by
    rw [beq_eq_false_iff_ne]
    intro h
    rw [h] at hb
    exact absurd hb (by decide)
  refine .issued rfl hi ?_
  simp only [xFsteal, hne, hb, hz, beq_self_eq_true, Bool.and_self, Bool.not_true, Bool.not_false, Bool.and_false, Bool.false_eq_true, if_false]
  exact fsteal_asks

theorem fsteal_nearest (hi : Issues s t .fsteal a) (hz : s.rs1 t a = 0) {v : TileId} {rest : List TileId} (hv : s.victims t = v :: rest) :
    Does (.fsteal t a) s (fun u => StallsIn u t .fsteal ∧ Sent u (.tile v) (.steal 8 (s.tile t).forage.domain (s.tile t).gen)) := by
  refine .issued rfl hi ?_
  simp only [xFsteal, hz, beq_self_eq_true, Bool.not_true, Bool.false_and, Bool.false_eq_true, if_false, if_true, hv]
  exact fsteal_asks

theorem fsteal_none (hi : Issues s t .fsteal a) (hz : s.rs1 t a = 0) (hv : s.victims t = []) :
    Does (.fsteal t a) s (fun u => Completed s u t a stNotFound 0) := by
  refine .issued rfl hi ?_
  simp only [xFsteal, hz, beq_self_eq_true, Bool.not_true, Bool.false_and, Bool.false_eq_true, if_false, if_true, hv]
  exact completed_finish hi.1 rfl

theorem fwait_stalls (hi : Issues s t .fwait a) (hz : bits (s.rs1 t a) 31 16 = 0) (hn : (s.rs1 t a).toNat < (s.tile t).outstanding) :
    Does (.fwait t a) s (fun u => StallsIn u t .fwait) := by
  refine .issued rfl hi ?_
  simp only [xFwait, hz, beq_self_eq_true, Bool.not_true, Bool.false_eq_true, if_false, hn, if_true]
  exact stallsIn_stallOn ..

theorem fwait_ok (hi : Issues s t .fwait a) (hz : bits (s.rs1 t a) 31 16 = 0) (hn : (s.tile t).outstanding ≤ (s.rs1 t a).toNat) :
    Does (.fwait t a) s (fun u =>
      Completed s u t a (if (s.tile t).forage.failedSince = 0 then stOk else stUnitFailed) (s.tile t).forage.failedSince ∧
        (u.tile t).forage.failedSince = 0) := by
  refine .issued rfl hi ?_
  simp only [xFwait, hz, beq_self_eq_true, Bool.not_true, Bool.false_eq_true, if_false, Nat.not_lt.mpr hn]
  refine completed_finish_and (P := fun tl => tl.forage.failedSince = 0) hi.1 ?_ ?_
  · rw [State.tile_setTile]
  · rw [Tile.forage_retire, Tile.forage_setReg, State.tile_setTile]

end

/-- Settles O5, instruction by instruction. -/
theorem forageInstructionsComplete : Obligations.ForageInstructionsComplete := by
  unfold Obligations.ForageInstructionsComplete
  refine fun s t a => ⟨fun bs hbs hi hm hw hh => ⟨fun e hf he => ⟨fpush_ok hbs hi hm hw hh hf he, fpush_full hbs hi hm hw hh hf he⟩,
      fpush_bad_descriptor hbs hi hm hw hh, fun h => fpush_bad_handle hbs hi hm hw hh⟩,
    fsteal_named, fun hi hz => ⟨fun v rest => fsteal_nearest hi hz, fsteal_none hi hz⟩, fun hi hz => ⟨fwait_ok hi hz, fwait_stalls hi hz⟩⟩

end Sys2Proof.Machine
end

section
/-! SUPPORT. What accesses of memory leave of the engine. -/

namespace Sys2Proof.Machine

/-! ## What accesses of memory move: the errors and rotations of tiles, the counts of their fields, and the log -/

/-- A field but for its counts of memory errors. -/
def Field.calm (fd : Field) : Field := { fd with mem := {} }

/-- The engine but for tiles, fields and the log. -/
def State.beside (s : State) : State := { s with tiles := [], fields := [], scarab := {}, scarabQ := [] }

/-- State u follows from s by accesses of memory. -/
structure Accessed (s u : State) : Prop where
  tile : ∀ v, (u.tile v).calm = (s.tile v).calm
  field : ∀ f, (u.field f).calm = (s.field f).calm
  beside : u.beside = s.beside

namespace Accessed

variable {s u v : State}

theorem refl (s : State) : Accessed s s := ⟨fun _ => rfl, fun _ => rfl, rfl⟩

theorem trans (h : Accessed s u) (k : Accessed u v) : Accessed s v :=
  ⟨fun t => (k.tile t).trans (h.tile t), fun f => (k.field f).trans (h.field f), k.beside.trans h.beside⟩

theorem modTile {t : TileId} {g : Tile → Tile} (hg : ∀ tl : Tile, (g tl).calm = tl.calm) : Accessed s (s.modTile t g) :=
  ⟨fun v => s.calm_modTile t v g hg, fun _ => rfl, rfl⟩

theorem modField {f : Nat} {g : Field → Field} (hg : ∀ fd : Field, (g fd).calm = fd.calm) : Accessed s (s.modField f g) where
  tile _ := rfl
  field i := by
    by_cases e : f = i
    · subst e; rw [State.field_modField, hg]
    · rw [State.modField, State.field_setField_other _ _ _ _ e]
  beside := rfl

theorem event (s : State) (src code : Nat) (d : List Nat) : Accessed s (s.event src code d) where
  tile v := by rw [State.tile_event]
  field f := by rw [State.field_event]
  beside := by
    unfold State.event
    dsimp only
    split <;> rfl

theorem countCe (s : State) (t : TileId) (w : Nat) : Accessed s (s.countCe t w) := by
  unfold State.countCe
  dsimp only
  refine (modField fun fd => ?_).trans (event ..)
  rfl

theorem correctWords (t : TileId) : ∀ (ws : List Nat) (s : State), Accessed s (s.correctWords t ws)
  | [], s => .refl s
  | w :: ws, s => by
    rw [State.correctWords, List.foldl_cons, ← State.correctWords]
    refine .trans ?_ (correctWords t ws _)
    refine .trans ?_ (countCe ..)
    split
    · exact refl _
    · refine modTile fun tl => ?_
      rfl

theorem served (s : State) (t : TileId) (req o : Nat) : Accessed s (s.served t req o) :=
  modTile fun tl => by unfold TileMem.granted; split <;> rfl

/-- What a read leaves of the engine. -/
theorem read (s : State) (t : TileId) (req o n : Nat) : Accessed s ((s.correct t o n).served t req o) := (correctWords ..).trans (served ..)

/-- What a write's merge leaves of the engine. -/
theorem write (s : State) (t : TileId) (req o n : Nat) : Accessed s ((s.merge t o n).served t req o) := (correctWords ..).trans (served ..)

variable (h : Accessed s u)
include h

theorem mesh : u.mesh = s.mesh := (congrArg State.mesh h.beside : _)
theorem ports : u.ports = s.ports := (congrArg State.ports h.beside : _)
theorem cond : u.cond = s.cond := (congrArg State.cond h.beside : _)
theorem time : u.time = s.time := (congrArg State.time h.beside : _)
theorem waferId : u.waferId = s.waferId := (congrArg State.waferId h.beside : _)
theorem boot : u.boot = s.boot := (congrArg State.boot h.beside : _)
theorem running (f : Nat) : (u.field f).running = (s.field f).running := (congrArg Field.running (h.field f) : _)
theorem clk (f : Nat) : (u.field f).clk = (s.field f).clk := (congrArg Field.clk (h.field f) : _)
theorem core (t : TileId) : (u.tile t).core = (s.tile t).core := Tile.core_of_calm (h.tile t)
theorem reg (t : TileId) (r : Nat) : (u.tile t).reg r = (s.tile t).reg r := by simp [Tile.reg, h.core]
theorem handle (t : TileId) (i : Nat) : (u.tile t).handle i = (s.tile t).handle i := by simp [Tile.handle, Tile.handles_of_calm (h.tile t)]
theorem get (t : TileId) (o n : Nat) : (u.tile t).get o n = (s.tile t).get o n := Tile.get_of_cells (Tile.cells_of_calm (h.tile t)) o n
theorem hit (t : TileId) (o n : Nat) : (u.tile t).mem.hit o n = (s.tile t).mem.hit o n := by simp only [TileMem.hit, Tile.ue_of_calm (h.tile t)]
theorem slotsFull (t : TileId) (hd : Handle) (i n : Nat) : (u.tile t).slotsFull hd i n = (s.tile t).slotsFull hd i n :=
  Tile.slotsFull_of_full (Tile.full_of_calm (h.tile t)) hd i n
theorem sync (t : TileId) : (u.tile t).sync = (s.tile t).sync := Tile.sync_of_calm (h.tile t)

theorem present (t : TileId) : (u.tile t).present = (s.tile t).present := (congrArg Tile.present (h.tile t) : _)

theorem onMap : u.onMap = s.onMap := by
  funext t
  simp only [State.onMap, State.good, h.present, h.mesh]

theorem dockOn (p : Nat) : u.dockOn p = s.dockOn p := by
  have hg : u.gateOn = s.gateOn := by
    funext j g
    simp only [State.gateOn, h.onMap]
  simp only [State.dockOn, State.keepUp, State.cutOffKeep, hg, h.onMap, h.running]

/-- The docks that a tile's requests can enter at stand as before. -/
theorem ingressEnd (t : TileId) (w : Nat) : u.ingressEnd t w = s.ingressEnd t w := by
  simp only [State.ingressEnd, h.dockOn, State.nearest, h.onMap, State.route, h.mesh, h.ports]

end Accessed
end Sys2Proof.Machine
end

section
/-! PROOFS. The window instructions (O7). -/

namespace Sys2Proof.Machine

@[simp] theorem Tile.window_setWindow (tl : Tile) (w : Nat) (v : Window) : (tl.setWindow w v).window w = v := by simp [Tile.window, Tile.setWindow]

theorem Tile.window_of_windows {a b : Tile} (h : a.windows = b.windows) (w : Nat) : a.window w = b.window w := by simp [Tile.window, h]

/-- Completing, and what then holds of a window entry. -/
theorem completed_finish_window {s s' : State} {t : TileId} {a : XArgs} {st v cost n : Nat} {P : Window → Prop} (hr : s.coreReady t = true)
    (hc : (s'.tile t).core = (s.tile t).core) (hp : P ((s'.tile t).window n)) :
    Completed s (s'.finish t a st v cost) t a st v ∧ P (((s'.finish t a st v cost).tile t).window n) :=
  completed_finish_and (P := fun tl => P (tl.window n)) hr hc
    (by rwa [Tile.window_of_windows (Tile.windows_retire ..), Tile.window_of_windows (Tile.windows_setReg ..)])

section
variable {s : State} {t : TileId} {a : XArgs} {n o : Nat} (hn : n = bits (s.rs1 t a) 2 0)
include hn

/-! ### wopen and wclose -/

theorem wopen_busy (ho : o = (s.rs2 t a).toNat) (hi : Issues s t .wopen a) (hz : bits (s.rs1 t a) 31 3 = 0) (hm : imageOk o 16 = true)
    (hw : ((s.tile t).window n).state ≠ 0) : Does (.wopen t a) s (fun u => Completed s u t a stBusy 0) := by
  refine .issued rfl hi ?_
  simp only [xWopen, ← ho, ← hn, hz, hm, beq_eq_false_iff_ne.mpr hw, beq_self_eq_true, Bool.not_true, Bool.not_false, Bool.false_eq_true, if_false, if_true]
  exact completed_finish hi.1 rfl

/-- An accepted image becomes the entry of a CLOSED window. -/
theorem wopen_ok (ho : o = (s.rs2 t a).toNat) (hi : Issues s t .wopen a) (hz : bits (s.rs1 t a) 31 3 = 0) (hm : imageOk o 16 = true)
    (hw : ((s.tile t).window n).state = 0) (hh : (s.tile t).mem.hit o 16 = none)
    (hk : (s.tile t).windowImageOk (leWord ((s.tile t).get o 4)) (leWord ((s.tile t).get (o + 4) 4)) (leWord ((s.tile t).get (o + 12) 4)) = true) :
    Does (.wopen t a) s (fun u => Completed s u t a stOk 0 ∧ ((u.tile t).window n).state = 1 ∧
      ((u.tile t).window n).w0 = leWord ((s.tile t).get o 4) ∧ ((u.tile t).window n).w1 = leWord ((s.tile t).get (o + 4) 4) ∧
      ((u.tile t).window n).w2 = leWord ((s.tile t).get (o + 8) 4) ∧ ((u.tile t).window n).w3 = leWord ((s.tile t).get (o + 12) 4)) := by
  have word (i : Nat) (h : 4 * i + 4 ≤ 16) : leWord (bytesAt ((s.tile t).get o 16) (4 * i) 4) = leWord ((s.tile t).get (o + 4 * i) 4) :=
    congrArg leWord (Tile.bytesAt_get h)
  refine .issued rfl hi ?_
  simp only [xWopen, ← ho, ← hn, hz, hm, hw, beq_self_eq_true, Bool.not_true, Bool.false_eq_true, if_false, State.reading_of_hit hh, word 0 (by decide),
    word 1 (by decide), word 2 (by decide), word 3 (by decide), Nat.mul_zero, Nat.add_zero, Nat.mul_one, hk, if_true]
  have hc := (Accessed.read s t (requesterOf 0) o 16).core t
  refine completed_finish_window (P := fun w => w.state = 1 ∧ w.w0 = _ ∧ w.w1 = _ ∧ w.w2 = _ ∧ w.w3 = _) hi.1 ?_ ?_
  · rw [State.tile_modTile]
    exact hc
  · rw [State.tile_modTile, Tile.window_setWindow]
    exact ⟨rfl, rfl, rfl, rfl, rfl⟩

theorem wclose_ok (hi : Issues s t .wclose a) (hz : bits (s.rs1 t a) 31 3 = 0) (hw : ((s.tile t).window n).state = 1) :
    Does (.wclose t a) s (fun u => Completed s u t a stOk 0 ∧ ((u.tile t).window n).state = 2 ∧
      ((u.tile t).window n).deadline = s.time + ((s.tile t).window n).drain) := by
  refine .issued rfl hi ?_
  simp only [xWclose, ← hn, hz, hw, beq_self_eq_true, Bool.not_true, Bool.false_eq_true, if_false, if_true]
  refine completed_finish_window (P := fun w => w.state = 2 ∧ w.deadline = _) hi.1 ?_ ?_
  · rw [State.tile_setTile]
    rfl
  · rw [State.tile_setTile, Tile.window_setWindow]
    exact ⟨rfl, rfl⟩

theorem wclose_closed (hi : Issues s t .wclose a) (hz : bits (s.rs1 t a) 31 3 = 0) (hw : ((s.tile t).window n).state ≠ 1) :
    Does (.wclose t a) s (fun u => Completed s u t a stClosed 0) := by
  refine .issued rfl hi ?_
  simp only [xWclose, ← hn, hz, hw, beq_self_eq_true, Bool.not_true, Bool.false_eq_true, if_false]
  exact completed_finish hi.1 rfl

end

section
variable {s : State} {t : TileId} {a : XArgs} {d : RemoteDesc} {r : HRef} {h : Handle} {o : Nat}

/-! ### xput and xget -/

/-- The checks of a remote descriptor that has no fault, and what then goes on from its read. -/
theorem State.remoteIssue_ok (ho : o = (s.rs2 t a).toNat) (hd : d = remoteDesc ((s.tile t).get o 32)) (hr : r = hrefOf (s.rs1 t a))
    (hh : h = (s.tile t).handle r.handle) (href : (s.tile t).refOk r = true) (hm : imageOk o 32 = true) (hhit : (s.tile t).mem.hit o 32 = none)
    (hbad : remoteBad ((s.tile t).get o 32) h.slotBytes = none) (op : XOp) (go : RemoteDesc → HRef → State → State) :
    s.remoteIssue t op a go = go d r ((s.correct t o 32).served t (requesterOf 0) o) := by
  simp only [State.remoteIssue, ← ho, ← hr, ← hh, href, hm, Bool.not_true, Bool.false_eq_true, if_false, State.reading_of_hit hhit, hbad, ← hd]

/-- What a remote request says rests on the tile's generation and the wafer's identifier. -/
theorem State.remoteBody_congr {u : State} (hw : u.waferId = s.waferId) (hg : (u.tile t).gen = (s.tile t).gen) (d : RemoteDesc) :
    u.remoteBody t d = s.remoteBody t d := by
  simp [State.remoteBody, hw, hg]

theorem State.remoteBody_modTile {g : Tile → Tile} (hg : (g (s.tile t)).gen = (s.tile t).gen) (d : RemoteDesc) :
    (s.modTile t g).remoteBody t d = s.remoteBody t d := State.remoteBody_congr (s := s) (u := s.modTile t g) rfl (by rw [State.tile_modTile, hg]) d

/-- A tile with few writes outstanding may send one more. -/
theorem State.mayWrite_of_lt (hw : (s.tile t).sync.writes.length < 65535) (hd : Hdr) : s.mayWrite t hd = true := by
  have h := List.length_filter_le (fun w : WriteRec => w.cls == writeClass t hd) (s.tile t).sync.writes
  exact decide_eq_true (Nat.lt_of_le_of_lt h hw)

@[simp] theorem Tile.core_consumeSlots (tl : Tile) (h : Handle) (i n : Nat) : (tl.consumeSlots h i n).core = tl.core := by
  unfold Tile.consumeSlots
  split
  · exact tl.core_emptyTags ..
  · rfl

@[simp] theorem Tile.gen_consumeSlots (tl : Tile) (h : Handle) (i n : Nat) : (tl.consumeSlots h i n).gen = tl.gen := by
  unfold Tile.consumeSlots
  split
  · exact tl.gen_emptyTags ..
  · rfl

variable (ho : o = (s.rs2 t a).toNat) (hd : d = remoteDesc ((s.tile t).get o 32)) (hr : r = hrefOf (s.rs1 t a)) (hh : h = (s.tile t).handle r.handle)
  (href : (s.tile t).refOk r = true) (hm : imageOk o 32 = true) (hhit : (s.tile t).mem.hit o 32 = none)
  (hbad : remoteBad ((s.tile t).get o 32) h.slotBytes = none)
include ho hd hr hh href hm hhit hbad

theorem xget_lost (hi : Issues s t .xget a) (hp : s.ingressEnd t d.wafer = none) : Does (.xget t a) s (fun u => Completed s u t a stPathLost 0) := by
  have hx := Accessed.read s t (requesterOf 0) o 32
  refine .issued rfl hi ?_
  simp only [xXget, State.remoteIssue_ok ho hd hr hh href hm hhit hbad, hx.ingressEnd, hp]
  exact completed_finish hi.1 (hx.core t)

theorem xget_sends (hi : Issues s t .xget a) {p : Endp} (hp : s.ingressEnd t d.wafer = some p) :
    Does (.xget t a) s (fun u => StallsIn u t .xget ∧ Sent u p (.remoteRead (s.remoteBody t d))) := by
  have hx := Accessed.read s t (requesterOf 0) o 32
  refine .issued rfl hi ?_
  simp only [xXget, State.remoteIssue_ok ho hd hr hh href hm hhit hbad, hx.ingressEnd, hp, State.remoteBody_congr hx.waferId (Tile.gen_of_calm (hx.tile t))]
  exact ⟨stallsIn_stallOn .., (State.sent_sendRequest ..).of_mesh (State.mesh_stallOn ..)⟩

theorem xput_lost (hi : Issues s t .xput a) (hf : h.tagged = false ∨ (s.tile t).slotsFull h r.slot 1 = true) (hp : s.ingressEnd t d.wafer = none) :
    Does (.xput t a) s (fun u => Completed s u t a stPathLost 0) := by
  have hx := Accessed.read s t (requesterOf 0) o 32
  have hg : (h.tagged && !(s.tile t).slotsFull h r.slot 1) = false := by
    rcases hf with hf | hf <;> simp [hf]
  refine .issued rfl hi ?_
  simp only [xXput, State.remoteIssue_ok ho hd hr hh href hm hhit hbad, hx.handle, ← hh, hx.slotsFull, hg, Bool.false_eq_true, if_false, hx.ingressEnd, hp]
  exact completed_finish hi.1 (hx.core t)

theorem xput_sends (hi : Issues s t .xput a) (hf : h.tagged = false ∨ (s.tile t).slotsFull h r.slot 1 = true) {p : Endp}
    (hp : s.ingressEnd t d.wafer = some p) (hw : (s.tile t).sync.writes.length < 65535) (hdata : (s.tile t).mem.hit ((s.tile t).refAt r) d.length = none) :
    Does (.xput t a) s (fun u => (if nbit a.mods 0 then Completed s u t a stOk 0 else StallsIn u t .xput) ∧
      Sent u p (.remoteWrite (s.remoteBody t d) ((s.tile t).get ((s.tile t).refAt r) d.length))) := by
  have hx := Accessed.read s t (requesterOf 0) o 32
  generalize hs' : (s.correct t o 32).served t (requesterOf 0) o = s' at hx
  have hg : (h.tagged && !(s.tile t).slotsFull h r.slot 1) = false := by
    rcases hf with hf | hf <;> simp [hf]
  have hat : (s'.tile t).refAt r = (s.tile t).refAt r := by simp only [Tile.refAt, hx.handle]
  have hdata' : (s'.tile t).mem.hit ((s.tile t).refAt r) d.length = none := by rw [hx.hit, hdata]
  have hy := hx.trans (Accessed.read s' t (requesterOf 0) ((s.tile t).refAt r) d.length)
  generalize hs'' : (s'.correct t ((s.tile t).refAt r) d.length).served t (requesterOf 0) ((s.tile t).refAt r) = s'' at hy
  refine .issued rfl hi ?_
  simp only [xXput, State.remoteIssue_ok ho hd hr hh href hm hhit hbad, hs', hx.handle, ← hh, hx.slotsFull, hg, Bool.false_eq_true, if_false, hx.ingressEnd, hp,
    State.mayWrite_of_lt (s := s') (t := t) (by rw [hx.sync]; exact hw), Bool.not_true, hat, State.reading_of_hit hdata', hx.get]
  have hbody : (s''.modTile t fun tl => tl.consumeSlots h r.slot 1).remoteBody t d = s.remoteBody t d :=
    (State.remoteBody_modTile (Tile.gen_consumeSlots ..) d).trans (State.remoteBody_congr hy.waferId (Tile.gen_of_calm (hy.tile t)) d)
  rw [hs'', hbody]
  split
  · refine ⟨completed_finish hi.1 ?_, (State.sent_sendWrite ..).of_mesh (State.mesh_finish ..)⟩
    rw [State.core_sendWrite, State.tile_modTile, Tile.core_consumeSlots, hy.core]
  · exact ⟨stallsIn_stallOn .., (State.sent_sendWrite ..).of_mesh (State.mesh_stallOn ..)⟩

end

/-- Settles O7, instruction by instruction. -/
theorem windowInstructionsComplete : Obligations.WindowInstructionsComplete := by
  unfold Obligations.WindowInstructionsComplete
  refine fun s t a => ⟨fun n o hn ho hi hz hm => ⟨wopen_busy hn ho hi hz hm, wopen_ok hn ho hi hz hm⟩,
    fun n hn hi hz => ⟨wclose_ok hn hi hz, wclose_closed hn hi hz⟩,
    fun d r h o ho hd hr hh href hm hhit hbad =>
      ⟨fun hi hf => ⟨fun p => xput_sends ho hd hr hh href hm hhit hbad hi hf, xput_lost ho hd hr hh href hm hhit hbad hi hf⟩,
        fun hi => ⟨fun p => xget_sends ho hd hr hh href hm hhit hbad hi, xget_lost ho hd hr hh href hm hhit hbad hi⟩⟩⟩

end Sys2Proof.Machine
end

section
/-! PROOFS. The dataflow instructions (O6). -/

namespace Sys2Proof.Machine

/-- Completing, and what then holds of the fire unit. -/
theorem completed_finish_fold {s s' : State} {t : TileId} {a : XArgs} {st v cost : Nat} {P : FoldUnit → Prop} (hr : s.coreReady t = true)
    (hc : (s'.tile t).core = (s.tile t).core) (hp : P (s'.tile t).fold) :
    Completed s (s'.finish t a st v cost) t a st v ∧ P ((s'.finish t a st v cost).tile t).fold :=
  completed_finish_and (P := fun tl => P tl.fold) hr hc (by rwa [Tile.fold_retire, Tile.fold_setReg])

/-! ### Switching and purging -/

theorem Tile.unfire_rest (tl : Tile) (sl : Nat) : ∃ f, tl.unfire sl = { tl with fold := f } ∧ f.schedEn = tl.fold.schedEn := by
  unfold Tile.unfire
  split
  · exact ⟨_, rfl, rfl⟩
  · exact ⟨_, rfl, rfl⟩

/-- A switch makes its slot active, and changes the fire unit alone. -/
theorem Tile.activate_rest (tl : Tile) (sl : Nat) : ∃ f, tl.activate sl = { tl with fold := f } ∧ f.active = sl ∧ f.schedEn = tl.fold.schedEn := by
  unfold Tile.activate
  split
  · next h => exact ⟨tl.fold, rfl, h, rfl⟩
  · obtain ⟨f, e, hs⟩ := tl.unfire_rest tl.fold.active
    rw [e]
    exact ⟨_, rfl, rfl, hs⟩

theorem Tile.toEntry_rest (tl : Tile) (e now : Nat) :
    ∃ f, tl.toEntry e now = { tl with fold := f } ∧ f.active = (tl.fold.entry e).1 ∧ f.schedEn = tl.fold.schedEn := by
  obtain ⟨f, h, ha, hs⟩ := tl.activate_rest (tl.fold.entry e).1
  unfold Tile.toEntry
  rw [h]
  exact ⟨_, rfl, ha, hs⟩

theorem Tile.fold_emptyTags (tl : Tile) (o n : Nat) : (tl.emptyTags o n).fold = tl.fold := by
  obtain ⟨m, q, e, -⟩ := tl.emptyTags_rest o n
  rw [e]

@[simp] theorem State.tile_tokenCredit (s : State) (t : TileId) (b : TokenBody) (v : TileId) : (s.tokenCredit t b).tile v = s.tile v := by
  unfold State.tokenCredit
  split <;> rfl

/-- The tile once the landing slots of these tokens are empty. -/
def Tile.emptyLandings (tl : Tile) (im : Image) (gone : List Tok) : Tile :=
  gone.foldl (fun x k =>
    if k.body.void || k.body.len == 0 || k.slot.isNone then x
    else
      let ld := x.landingOf im k.body.node k.body.port k.body.iteration k.body.part
      if ld.2.2 then x.emptyTags ld.1 ld.2.1 else x) tl

theorem Tile.core_fold_emptyLandings (tl : Tile) (im : Image) (gone : List Tok) :
    ((tl.emptyLandings im gone).core, (tl.emptyLandings im gone).fold) = (tl.core, tl.fold) := by
  refine foldl_keeps (fun x : Tile => (x.core, x.fold)) _ (fun x k => ?_) gone tl
  dsimp only
  split
  · rfl
  · split
    · rw [Tile.core_emptyTags, Tile.fold_emptyTags]
    · rfl

theorem Tile.tokenRuns_of_fold {a b : Tile} (h : a.fold = b.fold) (k : Tok) : a.tokenRuns k = b.tokenRuns k := by simp [Tile.tokenRuns, h]

/-- A purge of a loaded slot counts its epoch's tokens that no firing runs, and leaves none of them. -/
theorem State.purge_spec {s : State} {t : TileId} {sl : Nat} {im : Image} (h : ((s.tile t).slot sl).image = some im) :
    (s.purge t sl).1 = ((s.tile t).fold.store.filter (fun k => k.body.epoch == im.epoch && !(s.tile t).tokenRuns k)).length ∧
      ((s.purge t sl).2.tile t).core = (s.tile t).core ∧
      ∀ k ∈ ((s.purge t sl).2.tile t).fold.store, k.body.epoch = im.epoch → (s.tile t).tokenRuns k = true := by
  have credits (ks : List Tok) (v : State) : (ks.foldl (fun s k => s.tokenCredit t k.body) v).tile t = v.tile t :=
    foldl_keeps (fun v : State => v.tile t) _ (fun v k => v.tile_tokenCredit t k.body t) ks v
  obtain ⟨hcore, hfold⟩ := Prod.mk.inj ((s.tile t).core_fold_emptyLandings im
    ((s.tile t).fold.store.filter fun k => k.body.epoch == im.epoch && !(s.tile t).tokenRuns k))
  have hstore : ((s.purge t sl).2.tile t).fold.store =
      ((s.tile t).emptyLandings im ((s.tile t).fold.store.filter fun k => k.body.epoch == im.epoch && !(s.tile t).tokenRuns k)).fold.store.filter fun k =>
        !(k.body.epoch == im.epoch) ||
          ((s.tile t).emptyLandings im ((s.tile t).fold.store.filter fun k => k.body.epoch == im.epoch && !(s.tile t).tokenRuns k)).tokenRuns k := by
    unfold State.purge
    simp only [h, credits, State.tile_setTile]
    rfl
  refine ⟨?_, ?_, fun k hk he => ?_⟩
  · unfold State.purge
    simp only [h]
  · unfold State.purge
    simp only [h, credits, State.tile_setTile]
    exact hcore
  · rw [hstore] at hk
    have hr := (List.mem_filter.mp hk).2
    rw [Tile.tokenRuns_of_fold hfold] at hr
    simpa [he] using hr

section
variable {s : State} {t : TileId} {a : XArgs}

/-! ### dload -/

/-- With an empty store no token waits for an epoch. -/
theorem State.bindTokens_nil {s : State} {t : TileId} (h : (s.tile t).fold.store = []) (e : Nat) : s.bindTokens t e = s := by
  simp [State.bindTokens, h, sortBy]

@[simp] theorem Tile.slot_setSlot (tl : Tile) (i : Nat) (v : Slot) : (tl.setSlot i v).slot i = v := by simp [Tile.slot, Tile.setSlot]

/-- A load that passes every check, of an epoch that no other slot holds, into a tile whose store is empty. -/
theorem State.dloadAt_ok {sl o size : Nat} {r : HRef} {bs : List Byte} (ho : o = (s.tile t).refAt r) (hs : size = fieldAt ((s.tile t).get o 64) 4 2)
    (hb : bs = (s.tile t).get o size) (he : (s.tile t).epochHolds sl = false) (hu : (s.tile t).mem.ue = []) (hst : (s.tile t).fold.store = [])
    (hlo : 64 ≤ size) (hroom : size ≤ ((s.tile t).handle r.handle).extent - r.slot * ((s.tile t).handle r.handle).slotBytes)
    (hhead : firstFail (headerChecks ((s.tile t).get o 64)) = none) (himg : imageFail (s.tile t).handle bs = none)
    (hep : ∀ i im, i < 8 → i ≠ sl → ((s.tile t).slot i).image = some im → im.epoch ≠ (imageOf bs).epoch) :
    ∃ u, s.dloadAt t sl r false = .answer stOk 0 u ∧ (u.tile t).core = (s.tile t).core ∧ ((u.tile t).slot sl).image = some (imageOf bs) := by
  have hit (n : Nat) : (s.tile t).mem.hit o n = none := by simp [TileMem.hit, hu]
  have hx := Accessed.read s t 9 o size
  simp only [State.dloadAt, he, ← ho, ← hs, ← hb, hit, hhead, himg, Nat.not_lt.mpr hroom, Nat.not_lt.mpr (Nat.le_trans hlo hroom), Bool.not_false,
      Bool.false_and,
    Bool.and_false, Bool.false_eq_true, if_false]
  split
  · next i hi =>
    have hp := List.find?_some hi
    have hlt : i < 8 := mem_upto.mp (List.mem_of_find?_eq_some hi)
    obtain ⟨hne, hm⟩ := Bool.and_eq_true_iff.mp hp
    cases him : ((s.tile t).slot i).image with
    | none => simp [him] at hm
    | some im => exact absurd (by simpa [him] using hm) (hep i im hlt (by simpa using hne) him)
  · refine ⟨_, rfl, ?_⟩
    rw [State.bindTokens_nil]
    · rw [State.tile_modTile]
      exact ⟨hx.core t, by simp⟩
    · rw [State.tile_modTile]
      exact (congrArg FoldUnit.store (Tile.fold_of_calm (hx.tile t))).trans hst

variable {sl o size : Nat} {r : HRef} {bs : List Byte} (hr : r = hrefOf (s.rs2 t a)) (hi : Issues s t .dload a) (hz : bits (s.rs1 t a) 31 3 = 0)
  (href : (s.tile t).refOk r = true) (hm : nbit a.mods 0 = false)
include hr hi hz href hm

theorem dload_busy (he : (s.tile t).epochHolds (bits (s.rs1 t a) 2 0) = true) : Does (.dload t a) s (fun u => Completed s u t a stBusy 0) := by
  refine .issued rfl hi ?_
  simp only [xDload, ← hr, hz, href, hm, State.dloadAt, he, beq_self_eq_true, Bool.not_true, Bool.not_false, Bool.and_self, Bool.false_eq_true, if_false,
      if_true]
  exact completed_finish hi.1 rfl

theorem dload_ok (ho : o = (s.tile t).refAt r) (hs : size = fieldAt ((s.tile t).get o 64) 4 2) (hb : bs = (s.tile t).get o size)
    (he : (s.tile t).epochHolds (bits (s.rs1 t a) 2 0) = false) (hu : (s.tile t).mem.ue = []) (hst : (s.tile t).fold.store = [])
    (hlo : 64 ≤ size) (hroom : size ≤ ((s.tile t).handle r.handle).extent - r.slot * ((s.tile t).handle r.handle).slotBytes)
    (hhead : firstFail (headerChecks ((s.tile t).get o 64)) = none) (himg : imageFail (s.tile t).handle bs = none)
    (hep : ∀ i im, i < 8 → i ≠ bits (s.rs1 t a) 2 0 → ((s.tile t).slot i).image = some im → im.epoch ≠ (imageOf bs).epoch) :
    Does (.dload t a) s (fun u => Completed s u t a stOk 0 ∧ ((u.tile t).slot (bits (s.rs1 t a) 2 0)).image = some (imageOf bs)) := by
  obtain ⟨v, hv, hcore, himage⟩ := State.dloadAt_ok ho hs hb he hu hst hlo hroom hhead himg hep
  refine .issued rfl hi ?_
  simp only [xDload, ← hr, hz, href, hm, hv, beq_self_eq_true, Bool.not_true, Bool.false_eq_true, if_false]
  exact completed_finish_fold (P := fun f => (f.slots.getD (bits (s.rs1 t a) 2 0) {}).image = _) hi.1 hcore himage

end

section
variable {s : State} {t : TileId} {a : XArgs}

/-! ### dswitch -/

theorem dswitch_slot (hi : Issues s t .dswitch a) (hm : nbit a.mods 0 = false) (hz : bits (s.rs1 t a) 31 3 = 0)
    (hs : (s.tile t).fold.switchedAt ≠ some (s.cycles t)) (him : ((s.tile t).slot (bits (s.rs1 t a) 2 0)).image.isSome = true) :
    Does (.dswitch t a) s (fun u => Completed s u t a stOk 0 ∧ (u.tile t).fold.schedEn = false ∧ (u.tile t).fold.active = bits (s.rs1 t a) 2 0) := by
  have hn : ((s.tile t).slot (bits (s.rs1 t a) 2 0)).image.isNone = false := by simpa using him
  obtain ⟨f, hf, hact, hen⟩ := ({ s.tile t with fold := { (s.tile t).fold with schedEn := false } } : Tile).activate_rest (bits (s.rs1 t a) 2 0)
  refine .issued rfl hi ?_
  simp only [xDswitch, hm, hz, beq_eq_false_iff_ne.mpr hs, hn, hf, beq_self_eq_true, Bool.not_true, Bool.false_eq_true, if_false]
  refine completed_finish_fold (P := fun f => f.schedEn = false ∧ f.active = _) hi.1 ?_ ?_
  · rw [State.tile_setTile]
  · rw [State.tile_setTile]
    exact ⟨hen, hact⟩

theorem dswitch_empty (hi : Issues s t .dswitch a) (hm : nbit a.mods 0 = false) (hz : bits (s.rs1 t a) 31 3 = 0)
    (hs : (s.tile t).fold.switchedAt ≠ some (s.cycles t)) (him : ((s.tile t).slot (bits (s.rs1 t a) 2 0)).image = none) :
    Does (.dswitch t a) s (fun u => Completed s u t a stEmpty 0) := by
  refine .issued rfl hi ?_
  simp only [xDswitch, hm, hz, beq_eq_false_iff_ne.mpr hs, him, Option.isNone_none, beq_self_eq_true, Bool.not_true, Bool.false_eq_true, if_false, if_true]
  exact completed_finish hi.1 rfl

theorem dswitch_resumes (hi : Issues s t .dswitch a) (hm : nbit a.mods 0 = true) (hz : s.rs1 t a = 0)
    (hs : (s.tile t).fold.switchedAt ≠ some (s.cycles t)) (hl : (s.tile t).fold.schedLen ≠ 0) :
    Does (.dswitch t a) s (fun u => Completed s u t a stOk 0 ∧ (u.tile t).fold.schedEn = true ∧
      (u.tile t).fold.active = ((s.tile t).fold.entry (s.tile t).fold.schedPos).1) := by
  obtain ⟨f, hf, hact, hen⟩ := ({ s.tile t with fold := { (s.tile t).fold with schedEn := true } } : Tile).toEntry_rest (s.tile t).fold.schedPos (s.cycles t)
  refine .issued rfl hi ?_
  simp only [xDswitch, hm, hz, beq_eq_false_iff_ne.mpr hs, hl, hf, beq_self_eq_true, Bool.not_true, Bool.false_eq_true, if_false, if_true]
  refine completed_finish_fold (P := fun f => f.schedEn = true ∧ f.active = _) hi.1 ?_ ?_
  · rw [State.tile_setTile]
  · rw [State.tile_setTile]
    exact ⟨hen, hact⟩

theorem dswitch_no_schedule (hi : Issues s t .dswitch a) (hm : nbit a.mods 0 = true) (hz : s.rs1 t a = 0)
    (hs : (s.tile t).fold.switchedAt ≠ some (s.cycles t)) (hl : (s.tile t).fold.schedLen = 0) :
    Does (.dswitch t a) s (fun u => Completed s u t a stEmpty 0) := by
  refine .issued rfl hi ?_
  simp only [xDswitch, hm, hz, beq_eq_false_iff_ne.mpr hs, hl, beq_self_eq_true, Bool.not_true, Bool.false_eq_true, if_false, if_true]
  exact completed_finish hi.1 rfl

/-- In the cycle of a conductor's switch a dswitch completes and leaves the fire unit alone. -/
theorem dswitch_after_switch (hi : Issues s t .dswitch a) (hz : if nbit a.mods 0 then s.rs1 t a = 0 else bits (s.rs1 t a) 31 3 = 0)
    (hs : (s.tile t).fold.switchedAt = some (s.cycles t)) :
    Does (.dswitch t a) s (fun u => Completed s u t a stOk 0 ∧ (u.tile t).fold = (s.tile t).fold) := by
  refine .issued rfl hi ?_
  have hx : xDswitch t a s = s.finish t a stOk 0 4 := by
    cases hm : nbit a.mods 0 <;> simp only [hm, Bool.false_eq_true, if_false, if_true] at hz <;>
      simp only [xDswitch, hm, hz, hs, beq_self_eq_true, Bool.not_true, Bool.false_eq_true, if_false, if_true]
  rw [hx]
  exact completed_finish_fold (P := fun f => f = _) hi.1 rfl rfl

/-! ### dpurge -/

theorem dpurge_loaded {im : Image} (hi : Issues s t .dpurge a) (hz : bits (s.rs1 t a) 31 3 = 0)
    (him : ((s.tile t).slot (bits (s.rs1 t a) 2 0)).image = some im) :
    Does (.dpurge t a) s (fun u =>
      Completed s u t a stOk ((s.tile t).fold.store.filter (fun k => k.body.epoch == im.epoch && !(s.tile t).tokenRuns k)).length ∧
        ∀ k ∈ (u.tile t).fold.store, k.body.epoch = im.epoch → (s.tile t).tokenRuns k = true) := by
  obtain ⟨hn, hcore, hkept⟩ := State.purge_spec him
  refine .issued rfl hi ?_
  simp only [xDpurge, hz, hn, beq_self_eq_true, Bool.not_true, Bool.false_eq_true, if_false]
  exact completed_finish_fold (P := fun f => ∀ k ∈ f.store, k.body.epoch = im.epoch → (s.tile t).tokenRuns k = true) hi.1 hcore hkept

theorem dpurge_empty (hi : Issues s t .dpurge a) (hz : bits (s.rs1 t a) 31 3 = 0) (him : ((s.tile t).slot (bits (s.rs1 t a) 2 0)).image = none) :
    Does (.dpurge t a) s (fun u => Completed s u t a stOk 0) := by
  refine .issued rfl hi ?_
  simp only [xDpurge, hz, State.purge, him, beq_self_eq_true, Bool.not_true, Bool.false_eq_true, if_false]
  exact completed_finish hi.1 rfl

/-! ### dsample -/

variable (hi : Issues s t .dsample a) (hz : bits (s.rs1 t a) 31 6 = 0) (hv : ((s.tile t).handle (bits (s.rs1 t a) 5 0)).valid = true)
include hi hz hv

theorem dsample_stops (hw : s.rs2 t a = 0) : Does (.dsample t a) s (fun u => Completed s u t a stOk 0 ∧ (u.tile t).fold.profOn = false) := by
  refine .issued rfl hi ?_
  simp only [xDsample, hz, hv, hw, beq_self_eq_true, Bool.not_true, Bool.or_self, Bool.true_or, Bool.false_eq_true, if_false, if_true]
  exact completed_finish_fold (P := fun f => f.profOn = false) hi.1 (by rw [State.tile_setTile]) (by rw [State.tile_setTile])

variable (hlo : 6 ≤ (s.rs2 t a).toNat) (hhi : (s.rs2 t a).toNat ≤ 16)
include hlo hhi

theorem dsample_busy (hp : (s.tile t).fold.profOn = true) : Does (.dsample t a) s (fun u => Completed s u t a stBusy 0) := by
  have hne : (s.rs2 t a == 0) = false := beq_eq_false_iff_ne.mpr fun h => by simp [h] at hlo
  have hin : within 6 16 (s.rs2 t a).toNat = true := by simp [within, hlo, hhi]
  refine .issued rfl hi ?_
  simp only [xDsample, hz, hv, hne, hin, hp, beq_self_eq_true, Bool.not_true, Bool.or_self, Bool.or_true, Bool.false_eq_true, if_false, if_true]
  exact completed_finish hi.1 rfl

theorem dsample_starts (hp : (s.tile t).fold.profOn = false) :
    Does (.dsample t a) s (fun u => Completed s u t a stOk 0 ∧ (u.tile t).fold.profOn = true ∧ (u.tile t).fold.profHandle = bits (s.rs1 t a) 5 0 ∧
      (u.tile t).fold.profDue = s.cycles t + 2 ^ (s.rs2 t a).toNat) := by
  have hne : (s.rs2 t a == 0) = false := beq_eq_false_iff_ne.mpr fun h => by simp [h] at hlo
  have hin : within 6 16 (s.rs2 t a).toNat = true := by simp [within, hlo, hhi]
  refine .issued rfl hi ?_
  simp only [xDsample, hz, hv, hne, hin, hp, beq_self_eq_true, Bool.not_true, Bool.or_self, Bool.or_true, Bool.false_eq_true, if_false]
  refine completed_finish_fold (P := fun f => f.profOn = true ∧ f.profHandle = _ ∧ f.profDue = _) hi.1 ?_ ?_
  · rw [State.tile_setTile]
    rfl
  · rw [State.tile_setTile]
    exact ⟨rfl, rfl, rfl⟩

end

/-- Settles O6, instruction by instruction. -/
theorem dataflowInstructionsComplete : Obligations.DataflowInstructionsComplete := by
  unfold Obligations.DataflowInstructionsComplete
  refine fun s t a => ⟨fun r o size bs hr ho hs hb hi hz href hm => ⟨dload_busy hr hi hz href hm, dload_ok hr hi hz href hm ho hs hb⟩,
    fun hi hm hz hs => ⟨dswitch_slot hi hm hz hs, dswitch_empty hi hm hz hs⟩, fun hi hm hz hs => ⟨dswitch_resumes hi hm hz hs, dswitch_no_schedule hi hm hz hs⟩,
    dswitch_after_switch, fun im => dpurge_loaded, dpurge_empty,
    fun hi hz hv => ⟨dsample_starts hi hz hv, dsample_busy hi hz hv, dsample_stops hi hz hv⟩⟩

end Sys2Proof.Machine
end

section
/-! PROOFS. The sync instructions (O3). -/

namespace Sys2Proof.Machine

/-- Retiring is a matter of the core alone. -/
theorem Retired.of_core {s u v : State} {t : TileId} {len rd : Nat} {w : Word} (h : Retired s v t len rd w) (e : (u.tile t).core = (v.tile t).core) :
    Retired s u t len rd w := by
  have hr (q : Nat) : (u.tile t).reg q = (v.tile t).reg q := by simp [Tile.reg, e]
  simpa only [Retired, hr, e] using h

theorem Completed.of_core {s u v : State} {t : TileId} {a : XArgs} {st n : Nat} (h : Completed s v t a st n) (e : (u.tile t).core = (v.tile t).core) :
    Completed s u t a st n := Retired.of_core h e

/-! ### Local cells -/

@[simp] theorem Tile.cell_setCell (tl : Tile) (c : Nat) (v : Cell) : (tl.setCell c v).cell c = v := by simp [Tile.cell, Tile.setCell]

/-- Completing, and what then holds of the tile's cells and requests. -/
theorem completed_finish_sync {s s' : State} {t : TileId} {a : XArgs} {st v cost : Nat} {P : SyncUnit → Prop} (hr : s.coreReady t = true)
    (hc : (s'.tile t).core = (s.tile t).core) (hp : P (s'.tile t).sync) :
    Completed s (s'.finish t a st v cost) t a st v ∧ P ((s'.finish t a st v cost).tile t).sync :=
  completed_finish_and (P := fun tl => P tl.sync) hr hc (by rwa [Tile.sync_retire, Tile.sync_setReg])

/-- Where the core does not stall, settling a cell puts it to what its cycle has brought. -/
theorem State.settleCell_spec {s : State} {t : TileId} (h : (s.tile t).core.stall = none) (c : Nat) (k : CellTurn) :
    ((s.settleCell t c k).tile t).cell c = k.settle.1 ∧ ((s.settleCell t c k).tile t).core = (s.tile t).core := by
  have hw : (s.tile t).waitsLocal c = false := by simp [Tile.waitsLocal, Tile.awaiting, h]
  simp only [State.settleCell, hw, Bool.false_and, b2n, Bool.false_eq_true, if_false, Nat.sub_zero, State.tile_setTile]
  exact ⟨by simp [Tile.cell, Tile.setCell], rfl⟩

theorem Tile.turnAt_of_sync {a b : Tile} (h : a.sync = b.sync) (c now : Nat) : a.turnAt c now = b.turnAt c now := by simp [Tile.turnAt, Tile.cell, h]

/-- A wrapping cell that nothing else of the cycle touches adds the amount. -/
theorem CellTurn.settle_wrapping {tl : Tile} {c now amount : Nat} (ht : (tl.cell c).type = 1) (hn : tl.sync.turns.find c = none) :
    (((tl.turnAt c now).add 0 amount).settle.1).value = ((tl.cell c).value + amount) % 2 ^ 24 := by
  simp [Tile.turnAt, hn, CellTurn.add, CellTurn.settle, Cell.signal, Cell.takes, ht]

/-! ### Requests for global cells -/

/-- A request for a global cell goes to its host, and leaves the core alone. -/
theorem State.sendSync_spec (s : State) (t : TileId) (op n amount : Nat) :
    Sent (s.sendSync t op n amount) (.fc (cellHost n).1) (.sync op { index := (cellHost n).2, amount := amount, srcGen := (s.tile t).gen, srcWafer := 0 }) ∧
      ((s.sendSync t op n amount).tile t).core = (s.tile t).core := by
  refine ⟨State.sent_sendRequest .., ?_⟩
  rw [State.sendSync, State.core_sendRequest]
  split
  · rfl
  · exact s.core_setPend ..

/-- Stalling for the answer of such a request. -/
theorem sendSync_stalls (s : State) (t : TileId) (a : XArgs) (op : XOp) (k n amount obj : Nat) :
    StallsIn ((s.sendSync t k n amount).stallOn t op a .answer obj) t op ∧
      Sent ((s.sendSync t k n amount).stallOn t op a .answer obj) (.fc (cellHost n).1)
        (.sync k { index := (cellHost n).2, amount := amount, srcGen := (s.tile t).gen, srcWafer := 0 }) :=
  ⟨stallsIn_stallOn .., (s.sendSync_spec t k n amount).1.of_mesh (State.mesh_stallOn ..)⟩

section
variable {s : State} {t : TileId} {a : XArgs} {c : Nat} (hc : c = bits (s.rs1 t a) 15 0) (hok : cellOperandOk (s.rs1 t a) = true)
include hc hok

/-! ### swait and sread -/

theorem swait_ok (hi : Issues s t .swait a) (hl : bit (s.rs1 t a) 16 = true) {cl : Cell} (hw : ((s.tile t).cell c).wait 0 = some cl) :
    Does (.swait t a) s (fun u => Completed s u t a stOk 0 ∧ (u.tile t).cell c = cl) := by
  refine .issued rfl hi ?_
  simp only [xSwait, ← hc, hok, hl, hw, Bool.not_true, Bool.false_eq_true, if_false, if_true]
  refine completed_finish_sync (P := fun x => x.cells.getD c {} = cl) hi.1 ?_ ?_
  · rw [State.tile_setTile]
    rfl
  · rw [State.tile_setTile]
    exact Tile.cell_setCell ..

/-- A counting cell with a value gives one unit. -/
theorem swait_counting (hi : Issues s t .swait a) (hl : bit (s.rs1 t a) 16 = true) (ht : ((s.tile t).cell c).type = 0) (hv : 0 < ((s.tile t).cell c).value) :
    Does (.swait t a) s (fun u => Completed s u t a stOk 0 ∧ ((u.tile t).cell c).value + 1 = ((s.tile t).cell c).value) := by
  have hw : ((s.tile t).cell c).wait 0 = some { (s.tile t).cell c with value := ((s.tile t).cell c).value - 1 } := by simp [Cell.wait, ht, hv]
  obtain ⟨u, hu, hcomp, hcell⟩ := swait_ok hc hok hi hl hw
  exact ⟨u, hu, hcomp, by rw [hcell]; exact Nat.sub_add_cancel hv⟩

theorem swait_stalls (hi : Issues s t .swait a) (hl : bit (s.rs1 t a) 16 = true) (hw : ((s.tile t).cell c).wait 0 = none) :
    Does (.swait t a) s (fun u => StallsIn u t .swait) := by
  refine .issued rfl hi ?_
  simp only [xSwait, ← hc, hok, hl, hw, Bool.not_true, Bool.false_eq_true, if_false, if_true]
  exact stallsIn_stallOn ..

theorem swait_global (hi : Issues s t .swait a) (hl : bit (s.rs1 t a) 16 = false) :
    Does (.swait t a) s (fun u => StallsIn u t .swait ∧
      Sent u (.fc (cellHost c).1) (.sync 0 { index := (cellHost c).2, amount := 0, srcGen := (s.tile t).gen, srcWafer := 0 })) := by
  refine .issued rfl hi ?_
  simp only [xSwait, ← hc, hok, hl, Bool.not_true, Bool.false_eq_true, if_false]
  exact sendSync_stalls ..

theorem sread_local (hi : Issues s t .sread a) (hl : bit (s.rs1 t a) 16 = true) :
    Does (.sread t a) s (fun u => Completed s u t a stOk ((s.tile t).cell c).value) := by
  refine .issued rfl hi ?_
  simp only [xSread, ← hc, hok, hl, Bool.not_true, Bool.false_eq_true, if_false, if_true]
  exact completed_finish hi.1 rfl

theorem sread_global (hi : Issues s t .sread a) (hl : bit (s.rs1 t a) 16 = false) :
    Does (.sread t a) s (fun u => StallsIn u t .sread ∧
      Sent u (.fc (cellHost c).1) (.sync 3 { index := (cellHost c).2, amount := 0, srcGen := (s.tile t).gen, srcWafer := 0 })) := by
  refine .issued rfl hi ?_
  simp only [xSread, ← hc, hok, hl, Bool.not_true, Bool.false_eq_true, if_false]
  exact sendSync_stalls ..

/-! ### ssignal -/

theorem ssignal_local (hi : Issues s t .ssignal a) (hl : bit (s.rs1 t a) 16 = true) (hm : nbit a.mods 0 = false) (hz : bits (s.rs2 t a) 31 16 = 0) :
    Does (.ssignal t a) s (fun u => Completed s u t a stOk 0 ∧
      (u.tile t).cell c = (((s.tile t).turnAt c (s.cycles t)).add 0 (signalAmount (s.rs2 t a))).settle.1 ∧
      (((s.tile t).cell c).type = 1 → (s.tile t).sync.turns.find c = none →
        ((u.tile t).cell c).value = (((s.tile t).cell c).value + signalAmount (s.rs2 t a)) % 2 ^ 24)) := by
  refine .issued rfl hi ?_
  simp only [xSsignal, ← hc, hok, hl, hm, hz, beq_self_eq_true, Bool.not_true, Bool.not_false, Bool.false_and, Bool.and_false, Bool.or_self, Bool.false_eq_true,
    if_false, if_true]
  have hdone : Completed s (s.finish t a stOk 0 1) t a stOk 0 := completed_finish hi.1 rfl
  have hturn : ((s.finish t a stOk 0 1).tile t).turnAt c ((s.finish t a stOk 0 1).cycles t) = (s.tile t).turnAt c (s.cycles t) := by
    rw [finish_eq _ _ _ _ _ _ (ready_stall hi.1)]
    exact Tile.turnAt_of_sync (by simp) ..
  obtain ⟨hcell, hcore⟩ := State.settleCell_spec hdone.2.2.2 c (((s.tile t).turnAt c (s.cycles t)).add 0 (signalAmount (s.rs2 t a)))
  rw [State.signalLocal, hturn]
  exact ⟨hdone.of_core hcore, hcell, fun ht hn => by rw [hcell]; exact CellTurn.settle_wrapping ht hn⟩

theorem ssignal_global {op : Nat} (hop : op = if nbit a.mods 1 then 2 else 1) (hi : Issues s t .ssignal a) (hl : bit (s.rs1 t a) 16 = false)
    (hm : nbit a.mods 0 = false) (hz : bits (s.rs2 t a) 31 16 = 0) :
    Does (.ssignal t a) s (fun u => (if nbit a.mods 1 then Completed s u t a stOk 0 else StallsIn u t .ssignal) ∧
      Sent u (.fc (cellHost c).1) (.sync op { index := (cellHost c).2, amount := signalAmount (s.rs2 t a), srcGen := (s.tile t).gen, srcWafer := 0 })) := by
  refine .issued rfl hi ?_
  subst hop
  simp only [xSsignal, ← hc, hok, hl, hm, hz, beq_self_eq_true, Bool.not_true, Bool.not_false, Bool.and_false, Bool.or_self, Bool.false_eq_true, if_false]
  split
  · obtain ⟨hsent, hcore⟩ := s.sendSync_spec t 2 c (signalAmount (s.rs2 t a))
    exact ⟨completed_finish hi.1 hcore, hsent.of_mesh (State.mesh_finish ..)⟩
  · exact sendSync_stalls ..

omit hc in
theorem ssignal_lost (hi : Issues s t .ssignal a) (hl : bit (s.rs1 t a) 16 = false) (hm : nbit a.mods 0 = true)
    (hp : s.ingressEnd t (bits (s.rs2 t a) 31 16) = none) : Does (.ssignal t a) s (fun u => Completed s u t a stPathLost 0) := by
  refine .issued rfl hi ?_
  simp only [xSsignal, hok, hl, hm, hp, Bool.not_true, Bool.and_false, Bool.false_and, Bool.or_self, Bool.false_eq_true, if_false, if_true]
  exact completed_finish hi.1 rfl

theorem ssignal_remote {op : Nat} (hop : op = if nbit a.mods 1 then 2 else 1) (hi : Issues s t .ssignal a) (hl : bit (s.rs1 t a) 16 = false)
    (hm : nbit a.mods 0 = true) {p : Endp} (hp : s.ingressEnd t (bits (s.rs2 t a) 31 16) = some p) :
    Does (.ssignal t a) s (fun u => (if nbit a.mods 1 then Completed s u t a stOk 0 else StallsIn u t .ssignal) ∧
      Sent u p (.sync op { index := (cellHost c).2, amount := signalAmount (s.rs2 t a), srcGen := (s.tile t).gen, srcWafer := s.waferId })) := by
  refine .issued rfl hi ?_
  simp only [xSsignal, ← hc, hok, hl, hm, hp, ← hop, Bool.not_true, Bool.and_false, Bool.false_and, Bool.or_self, Bool.false_eq_true, if_false, if_true]
  split
  · exact ⟨completed_finish hi.1 (State.core_sendRequest ..), (State.sent_sendRequest ..).of_mesh (State.mesh_finish ..)⟩
  · exact ⟨stallsIn_stallOn .., (State.sent_sendRequest ..).of_mesh ((State.mesh_stallOn ..).trans (State.mesh_setPend ..))⟩

end

/-- A cleared scope has no failure on record. -/
theorem SyncUnit.fenceFailed_fenceClear (u : SyncUnit) (scope : Nat) : (u.fenceClear scope).fenceFailed scope = false := by
  simp [SyncUnit.fenceFailed, SyncUnit.fenceClear]
  omega

section
variable {s : State} {t : TileId} {a : XArgs} (hi : Issues s t .sfence a)
include hi

/-! ### sfence -/

theorem sfence_stalls (hf : (s.tile t).sync.fenceHolds (a.mods % 4) (s.tile t).sync.nextTag = true) : Does (.sfence t a) s (fun u => StallsIn u t .sfence) := by
  refine .issued rfl hi ?_
  simp only [xSfence, ready_stall hi.1, hf, if_true]
  exact stallsIn_stallOn ..

theorem sfence_ok (hf : (s.tile t).sync.fenceHolds (a.mods % 4) (s.tile t).sync.nextTag = false) :
    Does (.sfence t a) s (fun u => Completed s u t a (if (s.tile t).sync.fenceFailed (a.mods % 4) then stPathLost else stOk) 0 ∧
      (u.tile t).sync.fenceFailed (a.mods % 4) = false) := by
  refine .issued rfl hi ?_
  simp only [xSfence, ready_stall hi.1, hf, Bool.false_eq_true, if_false]
  refine completed_finish_sync (P := fun x => x.fenceFailed (a.mods % 4) = false) hi.1 ?_ ?_
  · rw [State.tile_modTile]
  · rw [State.tile_modTile]
    exact SyncUnit.fenceFailed_fenceClear ..

end

/-- Settles O3, instruction by instruction. -/
theorem syncInstructionsComplete : Obligations.SyncInstructionsComplete := by
  unfold Obligations.SyncInstructionsComplete
  refine fun s t a c hc hok => ⟨fun hi hl => ⟨fun cl => swait_ok hc hok hi hl, swait_counting hc hok hi hl, swait_stalls hc hok hi hl⟩, swait_global hc hok,
    ssignal_local hc hok, fun op => ssignal_global hc hok,
    fun op hop hi hl hm => ⟨fun p => ssignal_remote hc hok hop hi hl hm, ssignal_lost hok hi hl hm⟩, sread_local hc hok, sread_global hc hok,
    fun hi => ⟨sfence_ok hi, sfence_stalls hi⟩⟩

end Sys2Proof.Machine
end

section
/-! PROOFS. The base instructions (O1). -/

namespace Sys2Proof.Machine

/-! ## Words and their bytes -/

theorem leNat_natLe : ∀ n v, leNat (natLe n v) = v % 256 ^ n
  | 0, v => by simp [natLe, leNat, Nat.mod_one]
  | n + 1, v => by
    rw [natLe, leNat, leNat_natLe n, Nat.pow_succ', Nat.mod_mul]
    simp

theorem leWord_wordLe (w : Word) : leWord (wordLe w) = w := by
  rw [leWord, wordLe, leNat_natLe]
  exact BitVec.eq_of_toNat_eq (by rw [BitVec.toNat_ofNat]; omega)

theorem leNat_take_wordLe (w : Word) : leNat ((wordLe w).take 2) = w.toNat % 256 ^ 2 := leNat_natLe 2 w.toNat

/-- The sum of a word's fields, each at its bit. -/
def fieldSum : List (Nat × Nat) → Nat → Nat
  | [], a => a
  | (v, i) :: fs, a => fieldSum fs (a + v * 2 ^ i)

theorem word_eq_fieldSum (fs : List (Nat × Nat)) : word fs = BitVec.ofNat 32 (fieldSum fs 0) := by
  have e (a : Nat) : fs.foldl (fun a f => a + f.1 * 2 ^ f.2) a = fieldSum fs a := by
    induction fs generalizing a with
    | nil => rfl
    | cons f fs ih => exact ih _
  rw [word, e]

/-- The upper 20 bits of a word. -/
theorem and_upper (w : Word) : w &&& 0xFFFFF000 = BitVec.ofNat 32 (w.toNat / 4096 * 4096) := by
  have e : w &&& 0xFFFFF000 = w >>> 12 <<< 12 := by
    ext i hi
    interval_cases i <;> simp
  refine e.trans (BitVec.eq_of_toNat_eq ?_)
  simp [Nat.shiftLeft_eq, Nat.shiftRight_eq_div_pow]

/-! ## Loads and stores (R36) -/

section
variable {s : State} {t : TileId} {a : LsArgs} (hr : s.coreReady t = true)
include hr

theorem exec_coreLoad : exec (.coreLoad t a) s = .next (s.coreLoad t a) := congrArg Host.Outcome.next (if_pos hr)
theorem exec_coreStore : exec (.coreStore t a) s = .next (s.coreStore t a) := congrArg Host.Outcome.next (if_pos hr)

section
variable {o : Nat} (ho : o = (s.lsAddr t a).toNat)
include ho

omit hr in
theorem lsFault_none (ha : o % a.size = 0) (hm : mapped o a.size = true) (kind : Nat) : s.lsFault t a kind = none := by
  simp only [State.lsFault, ← ho, ha, hm, beq_self_eq_true, Bool.not_true, Bool.false_eq_true, if_false]

theorem coreLoad_memory (ha : o % a.size = 0) (hm : inMem o a.size = true) (hg : inRegs o a.size = false) (hh : (s.tile t).mem.hit o a.size = none) :
    Does (.coreLoad t a) s (fun u =>
      Retired s u t a.ilen a.reg (extendLoad a.size a.unsigned (leNat ((s.tile t).get o a.size))) ∧ (u.tile t).mem.cells = (s.tile t).mem.cells) := by
  refine .of_next (exec_coreLoad hr) ?_
  simp only [State.coreLoad, lsFault_none ho ha (by simp [mapped, hm]) 0, ← ho, hg, Bool.false_eq_true, if_false, State.reading_of_hit hh]
  have hs := State.calm_read s t t (requesterOf 0) o a.size
  refine ⟨retired_modTile (Tile.core_of_calm hs), ?_⟩
  rw [State.tile_modTile, Tile.mem_retire, Tile.mem_setReg]
  exact Tile.cells_of_calm hs

omit hr ho in
/-- Reading a register leaves the core and the memory. -/
theorem tile_readTileReg (k : Nat) : ((s.readTileReg t k).2.tile t).core = (s.tile t).core ∧ ((s.readTileReg t k).2.tile t).mem = (s.tile t).mem := by
  unfold State.readTileReg
  split
  · rw [State.beatCounts, State.tile_modTile]
    exact ⟨rfl, rfl⟩
  · exact ⟨rfl, rfl⟩

theorem coreLoad_register (ha : o % a.size = 0) (hg : inRegs o a.size = true) :
    Does (.coreLoad t a) s (fun u =>
      Retired s u t a.ilen a.reg (if a.size = 4 then (s.readTileReg t (o - regBase)).1 else 0) ∧ (u.tile t).mem = (s.tile t).mem) := by
  refine .of_next (exec_coreLoad hr) ?_
  simp only [State.coreLoad, lsFault_none ho ha (by simp [mapped, hg]) 0, ← ho, hg, if_true]
  by_cases h4 : a.size = 4
  · obtain ⟨hc, hm⟩ := tile_readTileReg (o - regBase)
    rw [if_pos h4, if_pos h4]
    exact ⟨retired_modTile hc, by rw [State.tile_modTile, Tile.mem_retire, Tile.mem_setReg, hm]⟩
  · rw [if_neg h4, if_neg h4]
    exact ⟨retired_modTile rfl, by rw [State.tile_modTile, Tile.mem_retire, Tile.mem_setReg]⟩

theorem coreStore_memory (ha : o % a.size = 0) (hm : inMem o a.size = true) (hg : inRegs o a.size = false) (hh : (s.tile t).mem.partialHit o a.size = none) :
    Does (.coreStore t a) s (fun u =>
      (u.tile t).core.pc = (s.tile t).core.pc + BitVec.ofNat 32 a.ilen ∧ (u.tile t).core.regs = (s.tile t).core.regs ∧
        (u.tile t).get o a.size = natLe a.size ((s.tile t).reg a.reg).toNat ∧ SameBut (s.tile t).mem.cells (u.tile t).mem.cells o a.size) := by
  refine .of_next (exec_coreStore hr) ?_
  simp only [State.coreStore, lsFault_none ho ha (by simp [mapped, hm]) 1, ← ho, hg, Bool.false_eq_true, if_false, State.writing_of_hit hh]
  have hs := State.calm_write s t t (requesterOf 0) o a.size
  have hc := Tile.core_of_calm hs
  have hm := Tile.cells_of_calm hs
  have hlen := length_natLe a.size ((s.tile t).reg a.reg).toNat
  generalize natLe a.size ((s.tile t).reg a.reg).toNat = bs at hlen ⊢
  generalize (s.merge t o a.size).served t (requesterOf 0) o = s' at hc hm ⊢
  rw [← hlen, State.tile_modTile, State.tile_modTile]
  refine ⟨?_, ?_, Tile.get_put (s'.tile t) o bs, ?_⟩
  · rw [← hc]; rfl
  · rw [← hc]; rfl
  · rw [← hm]
    exact sameBut_writeN (s'.tile t).mem.cells bs o

theorem coreStore_register (ha : o % a.size = 0) (hg : inRegs o a.size = true) :
    Does (.coreStore t a) s (fun u => u =
      (if a.size = 4 then (s.modTile t (fun tl => tl.retire a.ilen 1)).writeTileReg t .core (o - regBase) ((s.tile t).reg a.reg)
       else s.modTile t (fun tl => tl.retire a.ilen 1))) := by
  refine .of_next (exec_coreStore hr) ?_
  simp only [State.coreStore, lsFault_none ho ha (by simp [mapped, hg]) 1, ← ho, hg, if_true]

end

variable (hf : (s.tile t).fault.valid = false)
include hf

theorem ls_misaligned (ha : (s.lsAddr t a).toNat % a.size ≠ 0) :
    Does (.coreLoad t a) s (fun u => Halts s u t 0x0301 (s.lsAddr t a) (BitVec.ofNat 32 a.size)) ∧
    Does (.coreStore t a) s (fun u => Halts s u t 0x0301 (s.lsAddr t a) (BitVec.ofNat 32 a.size)) := by
  have e (kind : Nat) : s.lsFault t a kind = some (s.raise t 0 fcMisaligned (s.lsAddr t a) (BitVec.ofNat 32 a.size)) := by
    simp only [State.lsFault, beq_eq_false_iff_ne.mpr ha, Bool.not_false, if_true]
  constructor
  · refine .of_next (exec_coreLoad hr) ?_
    simp only [State.coreLoad, e]
    exact halts_raise hf rfl
  · refine .of_next (exec_coreStore hr) ?_
    simp only [State.coreStore, e]
    exact halts_raise hf rfl

theorem ls_unmapped (ha : (s.lsAddr t a).toNat % a.size = 0) (hm : mapped (s.lsAddr t a).toNat a.size = false) :
    Does (.coreLoad t a) s (fun u => Halts s u t 0x0302 (s.lsAddr t a) 0) ∧ Does (.coreStore t a) s (fun u => Halts s u t 0x0302 (s.lsAddr t a) 1) := by
  have e (kind : Nat) : s.lsFault t a kind = some (s.raise t 0 fcUnmapped (s.lsAddr t a) (BitVec.ofNat 32 kind)) := by
    simp only [State.lsFault, ha, hm, beq_self_eq_true, Bool.not_true, Bool.not_false, Bool.false_eq_true, if_false, if_true]
  constructor
  · refine .of_next (exec_coreLoad hr) ?_
    simp only [State.coreLoad, e]
    exact halts_raise hf rfl
  · refine .of_next (exec_coreStore hr) ?_
    simp only [State.coreStore, e]
    exact halts_raise hf rfl

end

/-! ## CSRs, ecall and ebreak (R34, R35) -/

section
variable {s : State} {t : TileId} (hr : s.coreReady t = true)
include hr

theorem csrAccess_read {csr : Nat} {op : CsrOp} {rd rs1 : Nat} {v : Word} (hv : s.csr t csr = some v) (hw : csrWrites op rs1 = false) :
    Does (.csrAccess t csr op rd rs1) s (fun u => Retired s u t 4 rd v) := by
  refine .of_next (congrArg Host.Outcome.next (if_pos hr)) ?_
  simp only [State.csrAccess, hv, hw, Bool.false_eq_true, if_false]
  exact retired_modTile rfl

variable (hf : (s.tile t).fault.valid = false)
include hf

theorem csrAccess_illegal {csr : Nat} {op : CsrOp} {rd rs1 : Nat} (hv : s.csr t csr = none ∨ csrWrites op rs1 = true) :
    Does (.csrAccess t csr op rd rs1) s (fun u => Halts s u t 0x0701 (csrWord csr op rd rs1) 0) := by
  have e : s.csrAccess t csr op rd rs1 = s.raise t 0 fcIllegal (csrWord csr op rd rs1) 0 := by
    unfold State.csrAccess
    cases hv with
    | inl h => rw [h]
    | inr h => cases s.csr t csr <;> simp [h]
  refine .of_next (congrArg Host.Outcome.next (if_pos hr)) ?_
  rw [e]
  exact halts_raise hf rfl

theorem ecall_halts : Does (.ecall t) s (fun u => Halts s u t 0x0702 0 0) :=
  .of_next (congrArg Host.Outcome.next (if_pos hr)) (halts_raise hf rfl)

theorem ebreak_halts : Does (.ebreak t) s (fun u => Halts s u t 0x0703 0 0) :=
  .of_next (congrArg Host.Outcome.next (if_pos hr)) (halts_raise hf rfl)

end

/-! ## Fetching and running a word of 32 bits (R34, R36) -/

section
variable {s : State} {t : TileId} {w : Word} {o : Nat} (hr : s.coreReady t = true) (ho : o = (s.tile t).core.pc.toNat) (he : o % 2 = 0)
  (hs : inSp o 4 = true) (hh : (s.tile t).mem.hit o 4 = none) (hg : (s.tile t).get o 4 = wordLe w)
include hr ho he hs hh hg

/-- The core runs the word at its pc, from a state whose core is the one that fetched it. -/
theorem fetch_runs (hl : w.toNat % 4 = 3) {P : State → Prop} (hp : ∀ s' : State, (s'.tile t).core = (s.tile t).core → P (s'.rvRun t w w 4)) :
    Does (.rvInstruction t) s P := by
  have half : (s.tile t).get o 2 = (wordLe w).take 2 := by
    rw [← hg]
    exact (Memory.take_readN _ 2 4 o (by decide)).symm
  have long : leNat ((s.tile t).get o 2) % 4 = 3 := by
    rw [half, leNat_take_wordLe]
    omega
  have hs2 : inSp o 2 = true := by
    simp only [inSp, decide_eq_true_eq] at hs ⊢
    omega
  refine .of_next (congrArg Host.Outcome.next (if_pos hr)) ?_
  simp only [State.fetchRun, ← ho, he, hs, hs2, long, beq_self_eq_true, Bool.not_true, Bool.and_self, Bool.false_eq_true, if_false, if_true,
    State.reading_of_hit hh, hg, leWord_wordLe]
  exact hp _ ((Accessed.read s t (requesterOf 0) o 4).core t)

theorem rv_addi {rd rs1 imm : Nat} (hrd : rd < 32) (hrs : rs1 < 32) (hi : imm < 4096) (hw : w = encI 0x13 0 rd rs1 imm) :
    Does (.rvInstruction t) s (fun u => Retired s u t 4 rd ((s.tile t).reg rs1 + sx 12 imm)) := by
  have hn : w.toNat = 0x13 + rd * 2 ^ 7 + rs1 * 2 ^ 15 + imm * 2 ^ 20 := by
    rw [hw, encI, word_eq_fieldSum, BitVec.toNat_ofNat]
    simp only [fieldSum]
    omega
  have h6 : bits w 6 0 = 0x13 := by rw [bits, nbits, hn]; omega
  have h14 : bits w 14 12 = 0 := by rw [bits, nbits, hn]; omega
  have h11 : bits w 11 7 = rd := by rw [bits, nbits, hn]; omega
  have h19 : bits w 19 15 = rs1 := by rw [bits, nbits, hn]; omega
  have h31 : bits w 31 20 = imm := by rw [bits, nbits, hn]; omega
  refine fetch_runs hr ho he hs hh hg (by omega) fun s' hc => ?_
  have hreg : (s'.tile t).reg rs1 = (s.tile t).reg rs1 := by simp [Tile.reg, hc]
  simp only [State.rvRun, State.rvOpImm, aluOp, State.rvWrite, h6, h14, h11, h19, h31, hreg]
  exact retired_modTile hc

theorem rv_lui {rd imm : Nat} (hrd : rd < 32) (hi : imm < 2 ^ 20) (hw : w = word [(0x37, 0), (rd, 7), (imm, 12)]) :
    Does (.rvInstruction t) s (fun u => Retired s u t 4 rd (BitVec.ofNat 32 (imm * 4096))) := by
  have hn : w.toNat = 0x37 + rd * 2 ^ 7 + imm * 2 ^ 12 := by
    rw [hw, word_eq_fieldSum, BitVec.toNat_ofNat]
    simp only [fieldSum]
    omega
  have h6 : bits w 6 0 = 0x37 := by rw [bits, nbits, hn]; omega
  have h11 : bits w 11 7 = rd := by rw [bits, nbits, hn]; omega
  have hup : w.toNat / 4096 * 4096 = imm * 4096 := by omega
  refine fetch_runs hr ho he hs hh hg (by omega) fun s' hc => ?_
  simp only [State.rvRun, h6, h11, if_true, and_upper, hup]
  exact retired_modTile hc

theorem rv_mul {rd rs1 rs2 : Nat} (hrd : rd < 32) (h1 : rs1 < 32) (h2 : rs2 < 32) (hw : w = encR 0x33 0 1 rd rs1 rs2) :
    Does (.rvInstruction t) s (fun u => Retired s u t 4 rd ((s.tile t).reg rs1 * (s.tile t).reg rs2)) := by
  have hn : w.toNat = 0x33 + rd * 2 ^ 7 + rs1 * 2 ^ 15 + rs2 * 2 ^ 20 + 2 ^ 25 := by
    rw [hw, encR, word_eq_fieldSum, BitVec.toNat_ofNat]
    simp only [fieldSum]
    omega
  have h6 : bits w 6 0 = 0x33 := by rw [bits, nbits, hn]; omega
  have h14 : bits w 14 12 = 0 := by rw [bits, nbits, hn]; omega
  have h11 : bits w 11 7 = rd := by rw [bits, nbits, hn]; omega
  have h19 : bits w 19 15 = rs1 := by rw [bits, nbits, hn]; omega
  have h24 : bits w 24 20 = rs2 := by rw [bits, nbits, hn]; omega
  have h31 : bits w 31 25 = 1 := by rw [bits, nbits, hn]; omega
  refine fetch_runs hr ho he hs hh hg (by omega) fun s' hc => ?_
  have hreg (r : Nat) : (s'.tile t).reg r = (s.tile t).reg r := by simp [Tile.reg, hc]
  simp only [State.rvRun, State.rvOp, mulDiv, State.rvWrite, h6, h14, h11, h19, h24, h31, hreg]
  exact retired_modTile hc

end

/-- Settles O1: each access, CSR instruction and base word by its own rule. -/
theorem baseInstructionsComplete : Obligations.BaseInstructionsComplete := by
  unfold Obligations.BaseInstructionsComplete
  intro s t hr
  refine ⟨fun a ha => ⟨coreLoad_memory hr rfl ha, coreLoad_register hr rfl ha, coreStore_memory hr rfl ha, coreStore_register hr rfl ha⟩,
    fun a hf => ⟨ls_misaligned hr hf, ls_unmapped hr hf⟩, fun csr op rd rs1 v => csrAccess_read hr, fun csr op rd rs1 hf => csrAccess_illegal hr hf,
    ecall_halts hr, ebreak_halts hr, fun w he hs hh hg => ⟨?_, ?_, ?_⟩⟩
  · exact fun rd rs1 imm => rv_addi hr rfl he hs hh hg
  · exact fun rd imm => rv_lui hr rfl he hs hh hg
  · exact fun rd rs1 rs2 => rv_mul hr rfl he hs hh hg

end Sys2Proof.Machine
end

section
/-! PROOFS. The queue instructions (O4). -/

namespace Sys2Proof.Machine

/-! ## Contexts and queues of a tile -/

@[simp] theorem Tile.ctx_setCtx (tl : Tile) (c : Nat) (x : Ctx) : (tl.setCtx c x).ctx c = x := by simp [Tile.ctx, Tile.setCtx]

@[simp] theorem Tile.queue_setQueue (tl : Tile) (q : Nat) (x : RQueue) : (tl.setQueue q x).queue q = x := by simp [Tile.queue, Tile.setQueue]

theorem Tile.ctx_of_q {a b : Tile} (h : a.q = b.q) (c : Nat) : a.ctx c = b.ctx c := by simp [Tile.ctx, h]

theorem Tile.queue_of_q {a b : Tile} (h : a.q = b.q) (q : Nat) : a.queue q = b.queue q := by simp [Tile.queue, h]

theorem Tile.consumeSlots_untagged {h : Handle} (ht : h.tagged = false) (tl : Tile) (i n : Nat) : tl.consumeSlots h i n = tl := by
  have hc : h.consume = false := by
    rw [Handle.tagged, Bool.or_eq_false_iff] at ht
    exact ht.2
  simp [Tile.consumeSlots, hc]

theorem Accessed.ctx {s u : State} (h : Accessed s u) (t : TileId) (c : Nat) : (u.tile t).ctx c = (s.tile t).ctx c :=
  Tile.ctx_of_q (Tile.q_of_calm (h.tile t)) c

theorem Accessed.queue {s u : State} (h : Accessed s u) (t : TileId) (q : Nat) : (u.tile t).queue q = (s.tile t).queue q :=
  Tile.queue_of_q (Tile.q_of_calm (h.tile t)) q

theorem Accessed.partialHit {s u : State} (h : Accessed s u) (t : TileId) (o n : Nat) : (u.tile t).mem.partialHit o n = (s.tile t).mem.partialHit o n := by
  simp only [TileMem.partialHit, Tile.ue_of_calm (h.tile t)]

/-- Completing, and what then holds of a context. -/
theorem completed_finish_ctx {s s' : State} {t : TileId} {a : XArgs} {st v cost c : Nat} {P : Ctx → Prop} (hr : s.coreReady t = true)
    (hc : (s'.tile t).core = (s.tile t).core) (hp : P ((s'.tile t).ctx c)) :
    Completed s (s'.finish t a st v cost) t a st v ∧ P (((s'.finish t a st v cost).tile t).ctx c) :=
  completed_finish_and (P := fun tl => P (tl.ctx c)) hr hc (by rwa [Tile.ctx_of_q (Tile.q_retire ..), Tile.ctx_of_q (Tile.q_setReg ..)])

/-- Completing, and what then holds of a queue. -/
theorem completed_finish_queue {s s' : State} {t : TileId} {a : XArgs} {st v cost q : Nat} {P : RQueue → Prop} (hr : s.coreReady t = true)
    (hc : (s'.tile t).core = (s.tile t).core) (hp : P ((s'.tile t).queue q)) :
    Completed s (s'.finish t a st v cost) t a st v ∧ P (((s'.finish t a st v cost).tile t).queue q) :=
  completed_finish_and (P := fun tl => P (tl.queue q)) hr hc (by rwa [Tile.queue_of_q (Tile.q_retire ..), Tile.queue_of_q (Tile.q_setReg ..)])

/-! ### What sending and stalling leave of the queues -/

@[simp] theorem State.q_stallOn (s : State) (t : TileId) (op : XOp) (a : XArgs) (w : StallWait) (obj : Nat) :
    ((s.stallOn t op a w obj).tile t).q = (s.tile t).q := by rw [State.stallOn, State.tile_modTile]

@[simp] theorem State.q_sendTagged (s : State) (t : TileId) (h : Hdr) (body : Body) (f : SyncUnit → SyncUnit) :
    ((s.sendTagged t h body f).tile t).q = (s.tile t).q := by
  obtain ⟨y, e⟩ := s.tile_sendTagged t h body f
  rw [e]

@[simp] theorem State.q_sendRequest (s : State) (t : TileId) (h : Hdr) (body : Body) : ((s.sendRequest t h body).tile t).q = (s.tile t).q := s.q_sendTagged ..

@[simp] theorem State.q_sendWrite (s : State) (t : TileId) (h : Hdr) (body : Body) (re : Re) (posted : Bool) :
    ((s.sendWrite t h body re posted).tile t).q = (s.tile t).q := s.q_sendTagged ..

theorem Sent.finish {s : State} {dst : Endp} {body : Body} (h : Sent s dst body) {t : TileId} {a : XArgs} {st v cost : Nat} :
    Sent (s.finish t a st v cost) dst body := h.of_mesh (State.mesh_finish ..)

theorem Sent.modTile {s : State} {dst : Endp} {body : Body} (h : Sent s dst body) {t : TileId} {g : Tile → Tile} : Sent (s.modTile t g) dst body := h

/-- The header of a packet to a peer of the wafer. -/
theorem State.connHdr_near {x : Ctx} (h : x.remote = false) (s : State) (t : TileId) (gen : Nat) :
    s.connHdr t x gen = { src := .tile t, dst := .tile x.peer, dstGen := gen, tag := 0 } := by simp [State.connHdr, h]

section
variable {s : State} {t : TileId} {a : XArgs}

/-! ## qopen (R217) -/

theorem qopen_sends {c : Nat} (hi : Issues s t .qopen a) (hz : bits (s.rs1 t a) 31 23 = 0) (h1 : 1 ≤ (s.rs2 t a).toNat) (h2 : (s.rs2 t a).toNat ≤ 32)
    (hc : firstBelow 16 (fun c => ((s.tile t).ctx c).state == 0) = some c) :
    Does (.qopen t a) s (fun u => StallsIn u t .qopen ∧ ((u.tile t).ctx c).state = 1 ∧
      Sent u (.tile ⟨bits (s.rs1 t a) 9 0, bits (s.rs1 t a) 19 10⟩)
        (.openReq { ctx := c, queue := bits (s.rs1 t a) 22 20, credits := (s.rs2 t a).toNat, gen := (s.tile t).gen })) := by
  refine .issued rfl hi ?_
  simp only [xQopen, hz, h1, h2, hc, beq_self_eq_true, decide_true, Bool.and_self, Bool.not_true, Bool.false_eq_true, if_false]
  refine ⟨stallsIn_stallOn .., ?_, (State.sent_sendRequest ..).of_mesh (State.mesh_stallOn ..)⟩
  rw [Tile.ctx_of_q (State.q_stallOn ..), Tile.ctx_of_q (State.q_sendRequest ..), State.tile_setTile, Tile.ctx_setCtx]

theorem qopen_none (hi : Issues s t .qopen a) (hz : bits (s.rs1 t a) 31 23 = 0) (h1 : 1 ≤ (s.rs2 t a).toNat) (h2 : (s.rs2 t a).toNat ≤ 32)
    (hc : firstBelow 16 (fun c => ((s.tile t).ctx c).state == 0) = none) : Does (.qopen t a) s (fun u => Completed s u t a stNoContext 0) := by
  refine .issued rfl hi ?_
  simp only [xQopen, hz, h1, h2, hc, beq_self_eq_true, decide_true, Bool.and_self, Bool.not_true, Bool.false_eq_true, if_false]
  exact completed_finish hi.1 rfl

/-! ## qclose of a context (R225) -/

section
variable {c : Nat} (hc : c = bits (s.rs1 t a) 3 0) (hi : Issues s t .qclose a) (hm : nbit a.mods 0 = false) (hz : bits (s.rs1 t a) 31 4 = 0)
include hc hi hm hz

theorem qclose_idle (hs : ((s.tile t).ctx c).state = 2 ∨ ((s.tile t).ctx c).state = 3 ∨ ((s.tile t).ctx c).state = 4) :
    Does (.qclose t a) s (fun u => Completed s u t a stOk 0 ∧ ((u.tile t).ctx c).state = 0) := by
  have closes (s' u : State) (he : (s'.tile t).core = (s.tile t).core) (x : Ctx) (cost : Nat)
      (hu : u = (s'.modTile t fun tl => tl.setCtx c { x with state := 0, credits := 0, closePending := false }).finish t a stOk 0 cost) :
      Completed s u t a stOk 0 ∧ ((u.tile t).ctx c).state = 0 := by
    rw [hu]
    refine completed_finish_ctx (P := fun x => x.state = 0) hi.1 ?_ ?_
    · rw [State.tile_modTile]
      exact he
    · rw [State.tile_modTile, Tile.ctx_setCtx]
  refine .issued rfl hi ?_
  simp only [xQclose, hm, hz, beq_self_eq_true, Bool.not_true, Bool.false_eq_true, if_false, ← hc]
  rcases hs with h | h | h <;> simp only [h, if_true, if_false, OfNat.ofNat_ne_zero, Nat.reduceEqDiff, OfNat.ofNat_ne_one]
  · exact closes _ _ (State.core_sendRequest ..) _ _ rfl
  · exact closes s _ rfl _ _ rfl
  · exact closes _ _ (State.core_sendRequest ..) _ _ rfl

theorem qclose_sends (hs : ((s.tile t).ctx c).state = 2) (hr : ((s.tile t).ctx c).remote = false) :
    Does (.qclose t a) s (fun u => Sent u (.tile ((s.tile t).ctx c).peer)
      (.close 0 { ref := ((s.tile t).ctx c).ref c, gen := (s.tile t).gen, seq := ((s.tile t).ctx c).seq })) := by
  refine .issued rfl hi ?_
  simp only [xQclose, hm, hz, hs, beq_self_eq_true, Bool.not_true, Bool.false_eq_true, if_true, if_false, ← hc, OfNat.ofNat_ne_zero, OfNat.ofNat_ne_one]
  simp only [State.sendClose, State.connHdr_near hr]
  exact .finish (.modTile (State.sent_sendRequest ..))

theorem qclose_none (hs : ((s.tile t).ctx c).state = 0) : Does (.qclose t a) s (fun u => Completed s u t a stClosed 0) := by
  refine .issued rfl hi ?_
  simp only [xQclose, hm, hz, hs, beq_self_eq_true, Bool.not_true, Bool.false_eq_true, if_false, if_true, ← hc]
  exact completed_finish hi.1 rfl

end

/-! ## qclose of a queue (R225) -/

theorem State.tile_foldl_send {α : Type} (f : α → Pkt) (l : List α) (s : State) (t : TileId) : (l.foldl (fun s x => s.send (f x)) s).tile t = s.tile t :=
  foldl_keeps (fun s : State => s.tile t) (fun s x => s.send (f x)) (fun _ _ => rfl) l s

/-- Closing a queue leaves the core, and the queue CLOSED and empty. -/
theorem State.closeQueue_spec (s : State) (t : TileId) (q : Nat) :
    ((s.closeQueue t q).tile t).core = (s.tile t).core ∧ (((s.closeQueue t q).tile t).queue q).state = 2 ∧
      (((s.closeQueue t q).tile t).queue q).entries = [] := by
  unfold State.closeQueue
  dsimp only
  rw [State.tile_foldl_send, State.tile_setTile]
  exact ⟨rfl, by rw [Tile.queue_setQueue], by rw [Tile.queue_setQueue]⟩

section
variable {q : Nat} (hq : q = bits (s.rs1 t a) 2 0) (hi : Issues s t .qclose a) (hm : nbit a.mods 0 = true) (hz : bits (s.rs1 t a) 31 3 = 0)
include hq hi hm hz

theorem qclose_queue (hs : ((s.tile t).queue q).state = 1) :
    Does (.qclose t a) s (fun u => Completed s u t a stOk 0 ∧ ((u.tile t).queue q).state = 2 ∧ ((u.tile t).queue q).entries = []) := by
  obtain ⟨hc, h2, h0⟩ := s.closeQueue_spec t q
  refine .issued rfl hi ?_
  simp only [xQclose, hm, hz, hs, beq_self_eq_true, Bool.not_true, Bool.false_eq_true, if_false, if_true, ← hq]
  exact completed_finish_queue (P := fun x => x.state = 2 ∧ x.entries = []) hi.1 hc ⟨h2, h0⟩

theorem qclose_closed (hs : ((s.tile t).queue q).state ≠ 1) : Does (.qclose t a) s (fun u => Completed s u t a stClosed 0) := by
  refine .issued rfl hi ?_
  simp only [xQclose, hm, hz, hs, beq_self_eq_true, Bool.not_true, Bool.false_eq_true, if_false, if_true, ← hq]
  exact completed_finish hi.1 rfl

end

/-! ## qsend and qtrysend (R220) -/

/-- What holds after qsend's body and after qtrysend's, each of its own form, holds after the one named. -/
theorem does_send {op : XOp} {P : State → Prop} (hop : op = .qsend ∨ op = .qtrysend) (hi : Issues s t op a) (hp : P (xSend op (op == .qtrysend) t a s)) :
    Does (if op = .qsend then .qsend t a else .qtrysend t a) s P := by
  rcases hop with rfl | rfl
  · exact .issued rfl hi hp
  · exact .issued rfl hi hp

section
variable {op : XOp} {c : Nat} {r : HRef} {h : Handle} (hop : op = .qsend ∨ op = .qtrysend) (hi : Issues s t op a) (hc : c = bits (s.rs1 t a) 3 0)
  (hr : r = hrefOf (s.rs2 t a)) (hz : bits (s.rs1 t a) 31 4 = 0) (href : (s.tile t).refOk r = true)
include hop hi hc hr hz href

theorem send_closed (hs : ((s.tile t).ctx c).state = 3 ∨ s.ending t c false = true) :
    Does (if op = .qsend then .qsend t a else .qtrysend t a) s (fun u => Completed s u t a stClosed 0) := by
  refine does_send hop hi ?_
  simp only [xSend, ← hc, ← hr, hz, href, hs, beq_self_eq_true, Bool.not_true, Bool.false_eq_true, if_false, if_true]
  exact completed_finish hi.1 rfl

theorem send_lost (hs : ((s.tile t).ctx c).state = 4) (he : s.ending t c false = false) :
    Does (if op = .qsend then .qsend t a else .qtrysend t a) s (fun u => Completed s u t a ((s.tile t).ctx c).lostStatus 0) := by
  refine does_send hop hi ?_
  simp only [xSend, ← hc, ← hr, hz, href, hs, he, beq_self_eq_true, Bool.not_true, Bool.false_eq_true, if_false, if_true, or_self, Nat.reduceEqDiff]
  exact completed_finish hi.1 rfl

variable (hh : h = (s.tile t).handle r.handle) (hs : ((s.tile t).ctx c).state = 2) (he : s.ending t c false = false) (hrem : ((s.tile t).ctx c).remote = false)
  (hcr : 0 < ((s.tile t).ctx c).credits) (ht : h.tagged = false) (hw : (s.tile t).sync.writes.length < 65535)
include hh hs he hrem hcr ht hw

theorem send_message (hk : ((s.tile t).ctx c).kind = 0) (hsz : h.slotBytes ≤ 32 * 2 ^ ((s.tile t).ctx c).maxSize)
    (hhit : (s.tile t).mem.hit ((s.tile t).refAt r) h.slotBytes = none) :
    Does (if op = .qsend then .qsend t a else .qtrysend t a) s (fun u => Completed s u t a stOk 0 ∧
      ((u.tile t).ctx c).credits + 1 = ((s.tile t).ctx c).credits ∧
      Sent u (.tile ((s.tile t).ctx c).peer)
        (.message { ref := ((s.tile t).ctx c).ref c, seq := ((s.tile t).ctx c).seq
                    gen := (s.tile t).gen, data := (s.tile t).get ((s.tile t).refAt r) h.slotBytes })) := by
  have hx := Accessed.read s t (requesterOf 0) ((s.tile t).refAt r) h.slotBytes
  generalize hs' : (s.correct t ((s.tile t).refAt r) h.slotBytes).served t (requesterOf 0) ((s.tile t).refAt r) = s' at hx
  refine does_send hop hi ?_
  simp only [xSend, ← hc, ← hr, hz, href, hs, he, beq_self_eq_true, Bool.not_true, Bool.false_eq_true, if_false, if_true, or_self, Nat.reduceEqDiff,
    State.qsendOpen, ← hh, hk, Nat.not_lt.mpr hsz, and_false, Nat.ne_of_gt hcr, ht, hrem, Bool.false_and, State.mayWrite_of_lt hw, State.reading_of_hit hhit,
        hs',
    State.connHdr_near hrem,
    Tile.consumeSlots_untagged ht]
  refine (and_assoc.mp ⟨completed_finish_ctx (P := fun x => x.credits + 1 = _) hi.1 ?_ ?_, ?_⟩)
  · simp only [State.tile_modTile, State.core_sendWrite]
    exact hx.core t
  · simp only [State.tile_modTile, Tile.ctx_of_q (State.q_sendWrite ..), Tile.ctx_setCtx]
    omega
  · exact .finish (.modTile (State.sent_sendWrite ..))

theorem send_element (hk : ((s.tile t).ctx c).kind ≠ 0) (hhit : (s.tile t).mem.hit ((s.tile t).refAt r) 8 = none) :
    Does (if op = .qsend then .qsend t a else .qtrysend t a) s (fun u => Completed s u t a stOk 0 ∧
      ((u.tile t).ctx c).credits + 1 = ((s.tile t).ctx c).credits ∧
      ∃ k, Sent u (.tile ((s.tile t).ctx c).peer) (.combine [k]) ∧ k.op = ((s.tile t).ctx c).op ∧
        k.value = leWord ((s.tile t).get ((s.tile t).refAt r + 4) 4)) := by
  have hx := Accessed.read s t (requesterOf 0) ((s.tile t).refAt r) 8
  generalize hs' : (s.correct t ((s.tile t).refAt r) 8).served t (requesterOf 0) ((s.tile t).refAt r) = s' at hx
  have word : bytesAt ((s.tile t).get ((s.tile t).refAt r) 8) 4 4 = (s.tile t).get ((s.tile t).refAt r + 4) 4 := Tile.bytesAt_get (by decide)
  refine does_send hop hi ?_
  simp only [xSend, ← hc, ← hr, hz, href, hs, he, beq_self_eq_true, Bool.not_true, Bool.false_eq_true, if_false, if_true, or_self, Nat.reduceEqDiff,
    State.qsendOpen, ← hh, hk, false_and, Nat.ne_of_gt hcr, ht, hrem, Bool.false_and, State.mayWrite_of_lt hw, State.reading_of_hit hhit, hs', word,
    Tile.consumeSlots_untagged ht, State.sendContribution, hx.ctx, State.connHdr_near hrem]
  refine (and_assoc.mp ⟨completed_finish_ctx (P := fun x => x.credits + 1 = _) hi.1 ?_ ?_, _,
    .finish (.modTile (State.sent_sendWrite ..)), rfl, rfl⟩)
  · simp only [State.tile_modTile, State.core_sendWrite, State.tile_setTile]
    exact hx.core t
  · simp only [State.tile_modTile, Tile.ctx_of_q (State.q_sendWrite ..), State.tile_setTile, Tile.ctx_setCtx]
    omega

end

/-! ## qrecv and qtryrecv (R223) -/

/-- A tile with a message's bytes in the destination slot, that slot's tag full where it has one. -/
def Tile.received (tl : Tile) (h : Handle) (r : HRef) (o : Nat) (bs : List Byte) : Tile :=
  if h.tagged then (tl.put o bs).fillTags (h.slotAt r.slot) h.slotBytes else tl.put o bs

theorem Tile.core_received (tl : Tile) (h : Handle) (r : HRef) (o : Nat) (bs : List Byte) : (tl.received h r o bs).core = tl.core := by
  unfold Tile.received
  split <;> rfl

theorem Tile.gen_received (tl : Tile) (h : Handle) (r : HRef) (o : Nat) (bs : List Byte) : (tl.received h r o bs).gen = tl.gen := by
  unfold Tile.received
  split <;> rfl

theorem Tile.cells_received (tl : Tile) (h : Handle) (r : HRef) (o : Nat) (bs : List Byte) :
    (tl.received h r o bs).mem.cells = tl.mem.cells.writeN bs o := by
  unfold Tile.received
  split <;> rfl

theorem Tile.slotsFull_received {h : Handle} (ht : h.tagged = true) (tl : Tile) (r : HRef) (o : Nat) (bs : List Byte) :
    (tl.received h r o bs).slotsFull h r.slot 1 = true := by
  have e := (tl.put o bs).slotsFull_fillTags h r.slot 1
  rw [Nat.one_mul] at e
  rwa [Tile.received, if_pos ht]

section
variable {op : XOp} {q : Nat} {r : HRef} {h : Handle} {slot len : Nat} {f : Sender} {live : Bool} {rest : List REntry}

/-- What a message taken into the destination slot gives, from a slot that may be written. -/
theorem State.takeMessage_spec (hready : s.coreReady t = true) (hh : h = (s.tile t).handle r.handle) (hlen : len ≤ h.slotBytes)
    (hf : h.tagged = false ∨ (s.tile t).slotsEmpty h r.slot 1 = true)
    (hhit : (s.tile t).mem.hit (((s.tile t).handle ((s.tile t).queue q).handle).slotAt slot) len = none)
    (hph : (s.tile t).mem.partialHit ((s.tile t).refAt r) len = none) (try_ : Bool) {u : State} (hu : u = s.takeMessage t op a q r try_ slot len f live rest) :
    Completed s u t a stOk (len + f.ctx * 2 ^ 13) ∧ ((u.tile t).queue q).entries = rest ∧
      (u.tile t).get ((s.tile t).refAt r) len = (s.tile t).get (((s.tile t).handle ((s.tile t).queue q).handle).slotAt slot) len ∧
      (h.tagged = true → (u.tile t).slotsFull h r.slot 1 = true) ∧
      (live = true → Sent u f.src (.credit { ref := { queue := q, qinc := ((s.tile t).queue q).qinc, ctx := f.ctx }, count := 1, gen := (s.tile t).gen })) ∧
      SameBut (s.tile t).mem.cells (u.tile t).mem.cells ((s.tile t).refAt r) len := by
  have hg : (h.tagged && !(s.tile t).slotsEmpty h r.slot 1) = false := by
    rcases hf with hf | hf <;> simp [hf]
  have hbs : ((s.tile t).get (((s.tile t).handle ((s.tile t).queue q).handle).slotAt slot) len).length = len := Memory.length_readN ..
  have hx := Accessed.read s t (requesterOf 0) (((s.tile t).handle ((s.tile t).queue q).handle).slotAt slot) len
  generalize hs1 : (s.correct t (((s.tile t).handle ((s.tile t).queue q).handle).slotAt slot) len).served t (requesterOf 0)
    (((s.tile t).handle ((s.tile t).queue q).handle).slotAt slot) = s1 at hx
  have hph1 : (s1.tile t).mem.partialHit ((s.tile t).refAt r) len = none := by rw [hx.partialHit, hph]
  have hy := hx.trans (Accessed.write s1 t (requesterOf 0) ((s.tile t).refAt r) len)
  generalize hs2 : (s1.merge t ((s.tile t).refAt r) len).served t (requesterOf 0) ((s.tile t).refAt r) = s2 at hy
  simp only [State.takeMessage, ← hh, Nat.not_lt.mpr hlen, hg, Bool.false_eq_true, if_false, State.reading_of_hit hhit, hs1, State.writing_of_hit hph1,
      hs2] at hu
  generalize (s.tile t).get (((s.tile t).handle ((s.tile t).queue q).handle).slotAt slot) len = bs at hbs hu ⊢
  subst hbs
  generalize hM : s2.modTile t _ = M at hu
  have tile : ∃ x : RQueue, x.entries = rest ∧ M.tile t = ((s2.tile t).received h r ((s.tile t).refAt r) bs).setQueue q x :=
    ⟨_, rfl, by rw [← hM, State.tile_modTile]; rfl⟩
  obtain ⟨x, hrest, tile⟩ := tile
  have core : (M.tile t).core = (s.tile t).core := by
    rw [tile]
    exact (Tile.core_received ..).trans (hy.core t)
  have gen : (M.tile t).gen = (s.tile t).gen := by
    rw [tile]
    exact (Tile.gen_received ..).trans (Tile.gen_of_calm (hy.tile t))
  generalize hN : (if live = true then M.sendCredit t f { queue := q, qinc := ((s.tile t).queue q).qinc, ctx := f.ctx } 1 else M) = N at hu
  have credit : N.tile t = M.tile t := by
    rw [← hN]
    split <;> rfl
  have sent (hl : live = true) :
      Sent N f.src (.credit { ref := { queue := q, qinc := ((s.tile t).queue q).qinc, ctx := f.ctx }, count := 1, gen := (s.tile t).gen }) := by
    rw [← hN, if_pos hl, ← gen]
    exact State.sent_send ..
  generalize 2 + cdiv bs.length 256 + _ = cost at hu
  have stall : (N.tile t).core.stall = none := by
    rw [credit, core]
    exact ready_stall hready
  have hq : (u.tile t).q = (M.tile t).q := by rw [hu, tile_finish _ _ _ _ _ _ stall, Tile.q_retire, Tile.q_setReg, credit]
  have hmem : (u.tile t).mem = ((s2.tile t).received h r ((s.tile t).refAt r) bs).mem := by
    rw [hu, tile_finish _ _ _ _ _ _ stall, Tile.mem_retire, Tile.mem_setReg, credit, tile]
    rfl
  have cells := (s2.tile t).cells_received h r ((s.tile t).refAt r) bs
  refine ⟨?_, ?_, ?_, fun ht => ?_, fun hl => ?_, ?_⟩
  · rw [hu]
    exact completed_finish hready (by rw [credit, core])
  · rw [Tile.queue_of_q hq, tile, Tile.queue_setQueue, hrest]
  · rw [Tile.get, TileMem.get, hmem, cells]
    exact Memory.readN_writeN ..
  · rw [Tile.slotsFull_of_full (congrArg TileMem.full hmem)]
    exact Tile.slotsFull_received ht ..
  · rw [hu]
    exact .finish (sent hl)
  · rw [hmem, cells, Tile.cells_of_calm (hy.tile t)]
    exact sameBut_writeN _ bs _

end

theorem does_receive {op : XOp} {P : State → Prop} (hop : op = .qrecv ∨ op = .qtryrecv) (hi : Issues s t op a) (hp : P (xReceive op (op == .qtryrecv) t a s)) :
    Does (if op = .qrecv then .qrecv t a else .qtryrecv t a) s P := by
  rcases hop with rfl | rfl
  · exact .issued rfl hi hp
  · exact .issued rfl hi hp

section
variable {op : XOp} {q : Nat} {r : HRef} {h : Handle} (hop : op = .qrecv ∨ op = .qtryrecv) (hi : Issues s t op a) (hq : q = bits (s.rs1 t a) 2 0)
  (hr : r = hrefOf (s.rs2 t a)) (hz : bits (s.rs1 t a) 31 3 = 0) (href : (s.tile t).refOk r = true)
include hop hi hq hr hz href

theorem receive_closed (hs : ((s.tile t).queue q).state ≠ 1) :
    Does (if op = .qrecv then .qrecv t a else .qtryrecv t a) s (fun u => Completed s u t a stClosed 0) := by
  refine does_receive hop hi ?_
  simp only [xReceive, ← hq, ← hr, hz, href, beq_eq_false_iff_ne.mpr hs, beq_self_eq_true, Bool.not_true, Bool.not_false, Bool.false_eq_true, if_false, if_true]
  exact completed_finish hi.1 rfl

variable (hs : ((s.tile t).queue q).state = 1) (hk : ((s.tile t).queue q).kind = 0)
include hs hk

theorem receive_empty (he : ((s.tile t).queue q).entries = []) :
    Does (if op = .qrecv then .qrecv t a else .qtryrecv t a) s (fun u => if op = .qrecv then StallsIn u t .qrecv else Completed s u t a stEmpty 0) := by
  refine does_receive hop hi ?_
  simp only [xReceive, ← hq, ← hr, hz, href, hs, hk, he, beq_self_eq_true, Bool.not_true, Bool.false_eq_true, if_false]
  rcases hop with rfl | rfl
  · exact stallsIn_stallOn ..
  · exact completed_finish hi.1 rfl

theorem receive_marker {f : Sender} {rest : List REntry} (he : ((s.tile t).queue q).entries = .marker f :: rest) :
    Does (if op = .qrecv then .qrecv t a else .qtryrecv t a) s (fun u =>
      Completed s u t a stPeerLost (f.ctx * 2 ^ 13) ∧ ((u.tile t).queue q).entries = rest) := by
  refine does_receive hop hi ?_
  simp only [xReceive, ← hq, ← hr, hz, href, hs, hk, he, beq_self_eq_true, Bool.not_true, Bool.false_eq_true, if_false]
  refine completed_finish_queue (P := fun x => x.entries = rest) hi.1 ?_ ?_
  · rw [State.tile_setTile]
    rfl
  · rw [State.tile_setTile, Tile.queue_setQueue]

theorem receive_message (hh : h = (s.tile t).handle r.handle) {slot len : Nat} {f : Sender} {live : Bool} {rest : List REntry}
    (he : ((s.tile t).queue q).entries = .msg slot len f live :: rest) (hlen : len ≤ h.slotBytes)
    (hf : h.tagged = false ∨ (s.tile t).slotsEmpty h r.slot 1 = true)
    (hhit : (s.tile t).mem.hit (((s.tile t).handle ((s.tile t).queue q).handle).slotAt slot) len = none)
    (hph : (s.tile t).mem.partialHit ((s.tile t).refAt r) len = none) :
    Does (if op = .qrecv then .qrecv t a else .qtryrecv t a) s (fun u =>
      Completed s u t a stOk (len + f.ctx * 2 ^ 13) ∧ ((u.tile t).queue q).entries = rest ∧
      (u.tile t).get ((s.tile t).refAt r) len = (s.tile t).get (((s.tile t).handle ((s.tile t).queue q).handle).slotAt slot) len ∧
      (h.tagged = true → (u.tile t).slotsFull h r.slot 1 = true) ∧
      (live = true → Sent u f.src (.credit { ref := { queue := q, qinc := ((s.tile t).queue q).qinc, ctx := f.ctx }, count := 1, gen := (s.tile t).gen })) ∧
      SameBut (s.tile t).mem.cells (u.tile t).mem.cells ((s.tile t).refAt r) len) := by
  refine does_receive hop hi ?_
  simp only [xReceive, ← hq, ← hr, hz, href, hs, hk, he, beq_self_eq_true, Bool.not_true, Bool.false_eq_true, if_false]
  exact State.takeMessage_spec hi.1 hh hlen hf hhit hph _ rfl

end
/-! ## qselect and qstat (R43, R229) -/

section
variable (hi : Issues s t .qselect a) (hv : s.rs1 t a ≠ 0) (hz : bits (s.rs1 t a) 31 8 = 0)
include hi hv hz

theorem qselect_lowest {q : Nat} (hm : a.mods = 0) (hq : q < 8) (hb : bit (s.rs1 t a) q = true) (hs : ((s.tile t).queue q).selectable = true)
    (hl : ∀ i, i < q → bit (s.rs1 t a) i = true → ((s.tile t).queue i).selectable = false) :
    Does (.qselect t a) s (fun u => Completed s u t a stOk q) := by
  have hr : nbit a.mods 0 = false := by rw [hm]; rfl
  have hf : (upto 8).find? (fun i => bit (s.rs1 t a) (i % 8) && ((s.tile t).queue (i % 8)).selectable) = some q := by
    rw [upto, List.find?_range_eq_some]
    refine ⟨?_, List.mem_range.mpr hq, fun i hi => ?_⟩
    · rw [Nat.mod_eq_of_lt hq, hb, hs, Bool.and_self]
    · rw [Nat.mod_eq_of_lt (hi.trans hq)]
      cases hbi : bit (s.rs1 t a) i
      · rfl
      · simp [hl i hi hbi]
  refine .issued rfl hi ?_
  simp only [xQselect, hz, beq_eq_false_iff_ne.mpr hv, beq_self_eq_true, Bool.not_true, Bool.or_self, hr, Bool.false_eq_true, if_false, hf, Nat.zero_add,
    Nat.mod_eq_of_lt hq]
  exact completed_finish hi.1 (congrArg Tile.core (State.tile_setTile ..))

theorem qselect_rotates {q start : Nat} (hm : nbit a.mods 0 = true) (hst : start = (s.tile t).q.rot + 1)
    (hf : (upto 8).find? (fun i => bit (s.rs1 t a) ((start + i) % 8) && ((s.tile t).queue ((start + i) % 8)).selectable) = some q) :
    Does (.qselect t a) s (fun u => Completed s u t a stOk ((start + q) % 8) ∧ (u.tile t).q.rot = (start + q) % 8) := by
  refine .issued rfl hi ?_
  simp only [xQselect, hz, beq_eq_false_iff_ne.mpr hv, beq_self_eq_true, Bool.not_true, Bool.or_self, hm, Bool.false_eq_true, if_false, if_true, ← hst, hf]
  refine completed_finish_and (P := fun tl => tl.q.rot = (start + q) % 8) hi.1 ?_ ?_
  · rw [State.tile_setTile]
  · rw [State.tile_setTile, Tile.q_retire, Tile.q_setReg]

theorem qselect_none (hn : ∀ i, i < 8 → bit (s.rs1 t a) i = true → ((s.tile t).queue i).selectable = false) :
    Does (.qselect t a) s (fun u => if nbit a.mods 1 then Completed s u t a stEmpty 0 else StallsIn u t .qselect) := by
  have hf (start : Nat) : (upto 8).find? (fun i => bit (s.rs1 t a) ((start + i) % 8) && ((s.tile t).queue ((start + i) % 8)).selectable) = none := by
    rw [List.find?_eq_none]
    intro i _
    cases hb : bit (s.rs1 t a) ((start + i) % 8)
    · simp
    · simp [hn _ (Nat.mod_lt _ (by decide)) hb]
  refine .issued rfl hi ?_
  simp only [xQselect, hz, beq_eq_false_iff_ne.mpr hv, beq_self_eq_true, Bool.not_true, Bool.or_self, Bool.false_eq_true, if_false, hf]
  split
  · exact completed_finish hi.1 rfl
  · exact stallsIn_stallOn ..

end

theorem qstat_gives (hi : Issues s t .qstat a) :
    Does (.qstat t a) s (fun u => Retired s u t 4 a.rd (s.tile t).qstat ∧ (u.tile t).core.lastStatus = stOk) :=
  .issued rfl hi ⟨retired_finishRaw rfl, State.lastStatus_finishRaw ..⟩

end

/-- Settles O4, instruction by instruction. -/
theorem queueInstructionsComplete : Obligations.QueueInstructionsComplete := by
  unfold Obligations.QueueInstructionsComplete
  refine fun s t a => ⟨fun hi hz h1 h2 => ⟨fun c => qopen_sends hi hz h1 h2, qopen_none hi hz h1 h2⟩,
    fun c hc hi hm hz => ⟨qclose_idle hc hi hm hz, qclose_sends hc hi hm hz, qclose_none hc hi hm hz⟩,
    fun q hq hi hm hz => ⟨qclose_queue hq hi hm hz, qclose_closed hq hi hm hz⟩,
    fun op c r h hop hi hc hr hh hz href => ⟨fun hs he hrem hcr ht hw => ⟨?_, ?_⟩, send_closed hop hi hc hr hz href, send_lost hop hi hc hr hz href⟩,
    fun op q r h hop hi hq hr hh hz href => ⟨fun slot len f live rest hs hk => receive_message hop hi hq hr hz href hs hk hh,
      fun f rest hs hk => receive_marker hop hi hq hr hz href hs hk, receive_empty hop hi hq hr hz href, receive_closed hop hi hq hr hz href⟩,
    fun q hi hm hv hz => qselect_lowest hi hv hz hm, fun q start hi hm hst hv hz => qselect_rotates hi hv hz hm hst,
    fun hi hv hz => qselect_none hi hv hz, qstat_gives⟩
  · exact send_message hop hi hc hr hz href hh hs he hrem hcr ht hw
  · exact send_element hop hi hc hr hz href hh hs he hrem hcr ht hw

end Sys2Proof.Machine
end

section
/-! PROOFS. Ends of stalls (O13). -/

namespace Sys2Proof.Machine

/-! ## Completing from a stall -/

/-- Ending Thatch moves nothing of the tile but its activity. -/
theorem State.tile_endThatch (s : State) (t : TileId) : ∃ x, (s.endThatch t).tile t = { s.tile t with act := x } := by
  unfold State.endThatch
  dsimp only
  split
  · exact ⟨_, (State.tile_modField ..).trans (State.tile_modTile ..)⟩
  · exact ⟨_, rfl⟩

/-- Completing moves nothing of the tile but its core and its activity. -/
theorem State.tile_finish_rest (s : State) (t : TileId) (a : XArgs) (st v cost : Nat) :
    ∃ c x, (s.finish t a st v cost).tile t = { s.tile t with core := c, act := x } := by
  have reg (tl : Tile) (r : Nat) (w : Word) : ∃ c, tl.setReg r w = { tl with core := c } := by
    unfold Tile.setReg
    split
    · exact ⟨_, rfl⟩
    · exact ⟨_, rfl⟩
  have retires (tl : Tile) : ∃ c, (tl.setReg a.rd (statusWord st v)).retire 4 cost = { tl with core := c } := by
    obtain ⟨c, e⟩ := reg tl a.rd (statusWord st v)
    rw [e]
    exact ⟨_, rfl⟩
  unfold State.finish
  rw [State.tile_modTile]
  split
  · obtain ⟨x, e⟩ := s.tile_endThatch t
    obtain ⟨c, e'⟩ := retires ((s.endThatch t).tile t)
    exact ⟨c, x, by rw [e', e]⟩
  · obtain ⟨c, e'⟩ := retires (s.tile t)
    exact ⟨c, _, e'⟩

/-- Completing a stalled instruction. -/
theorem completed_stalled {s s' : State} {t : TileId} {a : XArgs} {st v cost : Nat} (hc : (s'.tile t).core = (s.tile t).core) :
    Completed s (s'.finish t a st v cost) t a st v := by
  refine retired_modTile ?_
  split
  · rw [State.core_endThatch, hc]
  · exact hc

section
variable {s : State} {t : TileId} {k : Stall} (hk : (s.tile t).core.stall = some k)
include hk

/-! ## The fence whose writes have settled (R44) -/

theorem sfence_completes (hh : (s.tile t).core.halted = false) (hp : (s.tile t).present = true) (hcl : s.clocked t = true) (hop : k.op = .sfence)
    (hw : k.wait = .cond) (hset : ∀ w ∈ (s.tile t).sync.writes, w.cls < k.a.mods % 4 → k.obj ≤ w.n) :
    Does (.stallConditionMet t .core) s (fun u =>
      Completed s u t k.a (if (s.tile t).sync.fenceFailed (k.a.mods % 4) then stPathLost else stOk) 0) := by
  have waits : (s.tile t).coreWaits = [] := by simp only [Tile.coreWaits, hk, hw, hop]
  have settled : (s.tile t).sync.fenceHolds (k.a.mods % 4) k.obj = false := by
    rw [SyncUnit.fenceHolds, List.any_eq_false]
    intro w hm
    have := hset w hm
    simp only [Bool.and_eq_true, decide_eq_true_eq, not_and, Nat.not_lt]
    exact this
  refine .of_next (exec_stallConditionMet s t (by simp only [Tile.streamWaits, waits]; rfl)) ?_
  simp only [State.streamMet, State.coreMet, hh, hp, hcl, hk, hw, hop, Bool.not_true, Bool.or_self, Bool.false_eq_true, if_false, xbody, xSfence, settled]
  refine completed_stalled ?_
  rw [State.tile_modTile]

/-! ## The watchdog (R38) -/

section
variable (hp : (s.tile t).present = true) (hcl : s.clocked t = true) {lim : Nat} (hl : (s.tile t).watchdog = some lim) (hlim : lim ≤ s.run t - k.since)
  (hw : k.wait = .answer)
include hp hcl hl hlim hw

/-- The watchdog ends a stall for an answer. -/
theorem watchdog_ends (hop : k.op ≠ .sread) : exec (.stallWatchdogExpiry t .core) s = .next (s.endStall t k false) := by
  have met : s.coreMet t = s := by
    simp only [State.coreMet, hk, hw]
    split <;> rfl
  have exp : (s.tile t).expired (s.run t) (some k.since) false = true := by
    simp only [Tile.expired, hl, hlim, decide_true, Bool.or_true]
  rw [exec_stallWatchdogExpiry s t .core hp hcl]
  simp only [State.streamExpire, State.coreExpire, met, hk, exp, hcl, beq_eq_false_iff_ne.mpr hop, Bool.not_false, Bool.or_true, Bool.and_self,
      Bool.false_eq_true,
    if_false, if_true]

theorem watchdog_times_out (hop : k.op = .xput ∨ k.op = .ssignal) :
    Does (.stallWatchdogExpiry t .core) s (fun u => Completed s u t k.a stStallTimeout 0) := by
  have ends : s.endStall t k false = (s.setPend t none).finish t k.a stStallTimeout 0 2 := by
    rcases hop with h | h <;> simp [State.endStall, h]
  refine .of_next (watchdog_ends hk hp hcl hl hlim hw (by rcases hop with h | h <;> simp [h])) ?_
  rw [ends]
  exact completed_stalled (s.core_setPend ..)

/-- A global swait is cancelled at its cell's host. -/
theorem watchdog_cancels (hop : k.op = .swait) (ho : k.obj < 65536) :
    Does (.stallWatchdogExpiry t .core) s (fun u => StallsIn u t .swait ∧
      Sent u (.fc (cellHost k.obj).1) (.sync 4 { index := (cellHost k.obj).2, amount := 0, srcGen := (s.tile t).gen, srcWafer := 0 })) := by
  refine .of_next (watchdog_ends hk hp hcl hl hlim hw (by simp [hop])) ?_
  simp only [State.endStall, hop, ho, hw, and_self, if_true]
  refine ⟨stallsIn_stallOn .., Sent.of_mesh ?_ (State.mesh_stallOn ..)⟩
  simp only [State.tile_modTile]
  exact State.sent_sendRequest ..

end

/-! ## The debugger (R259) -/

section
variable (hcl : s.clocked t = true) (hop : k.op = .swait) (ho : 65536 ≤ k.obj)
include hcl hop ho

theorem coreExpire_forced : s.coreExpire t true = (s.setPend t none).finish t k.a stForced 0 2 := by
  simp [State.coreExpire, hk, Tile.expired, hcl, State.endStall, hop, Nat.not_lt.mpr ho]

theorem forced_core : Does (.syncDebugCore t) s (fun u => Completed s u t k.a stForced 0) := by
  refine .of_next (u := s.coreExpire t true) rfl ?_
  rw [coreExpire_forced hk hcl hop ho]
  exact completed_stalled (s.core_setPend ..)

variable (hout : (s.tile t).forage.out = []) (heng : ∀ e, e < 8 → ((s.tile t).engine e).running = none ∧ ((s.tile t).engine e).deque = [])
include hout heng

/-- With no unit at the tile, the debugger ends the core's stall and then what the fire unit holds. -/
theorem debugAll_idle : s.debugAll t = ((s.setPend t none).finish t k.a stForced 0 2).fireExpire t true := by
  obtain ⟨c, x, e⟩ := (s.setPend t none).tile_finish_rest t k.a stForced 0 2
  have hf : (((s.setPend t none).finish t k.a stForced 0 2).tile t).forage = (s.tile t).forage := by
    rw [e, State.setPend, State.tile_modTile]
  have idle (u : State) (hu : (u.tile t).forage = (s.tile t).forage) (n : Nat) (hn : n < 8) : u.engineExpire t n true = u := by
    have hg : (u.tile t).engine n = (s.tile t).engine n := by simp only [Tile.engine, hu]
    obtain ⟨hr, hd⟩ := heng n hn
    simp [State.engineExpire, Nat.not_le.mpr hn, hg, hr, hd]
  have engines (u : State) (hu : (u.tile t).forage = (s.tile t).forage) : (upto 8).foldl (fun s e => s.engineExpire t e true) u = u :=
    List.foldlRecOn (motive := fun x => x = u) _ _ rfl fun x hx n hn => by rw [hx, idle u hu n (mem_upto.mp hn)]
  simp only [State.debugAll, coreExpire_forced hk hcl hop ho, hf, hout, List.map_nil, List.foldl_nil, engines _ hf]

variable (hheld : (s.tile t).fold.held = []) (hctx : (s.tile t).fold.ctxs = [])
include hheld hctx

theorem forced_all (hr : (s.tile t).fold.ready = []) : Does (.syncDebugAll t) s (fun u => Completed s u t k.a stForced 0) := by
  obtain ⟨c, x, e⟩ := (s.setPend t none).tile_finish_rest t k.a stForced 0 2
  have hf : (((s.setPend t none).finish t k.a stForced 0 2).tile t).fold = (s.tile t).fold := by
    rw [e, State.setPend, State.tile_modTile]
  refine .of_next (u := s.debugAll t) rfl ?_
  simp only [debugAll_idle hk hcl hop ho hout heng, State.fireExpire, hf, hheld, hctx, hr, List.find?_nil]
  exact completed_stalled (s.core_setPend ..)

/-- The ready head of the fire unit that waits ends as a fault of unit 9. -/
theorem forced_head {sl n i b : Nat} {rest : List (Nat × Nat × Nat)} (hr : (s.tile t).fold.ready = (sl, n, i) :: rest)
    (hb : (s.tile t).fold.readySince = some b) (hv : (s.tile t).fault.valid = false) :
    Does (.syncDebugAll t) s (fun u => (u.tile t).fold.ready = rest ∧ (u.tile t).fault.valid = true ∧ (u.tile t).fault.unit = 9) := by
  obtain ⟨c, x, e⟩ := (s.setPend t none).tile_finish_rest t k.a stForced 0 2
  generalize hu : (s.setPend t none).finish t k.a stForced 0 2 = u at e
  rw [State.setPend, State.tile_modTile] at e
  have hf : (u.tile t).fold = (s.tile t).fold := by rw [e]
  have hv' : (u.tile t).fault.valid = false := by rw [e, hv]
  refine .of_next (u := s.debugAll t) rfl ?_
  simp only [debugAll_idle hk hcl hop ho hout heng, hu, State.fireExpire, hf, hheld, hctx, hr, hb, List.find?_nil, Tile.expired, Bool.true_or, if_true,
    State.raise, State.tile_modTile, State.tile_setTile, Tile.raise, hv', Bool.false_eq_true, if_false, and_self]

end
end

/-- Settles O13: the fence, the watchdog and the debugger. -/
theorem stallsEnd : Obligations.StallsEnd := by
  unfold Obligations.StallsEnd
  refine fun s t k hk hh hp hcl => ⟨sfence_completes hk hh hp hcl,
    fun lim hl hlim hw => ⟨watchdog_times_out hk hp hcl hl hlim hw, watchdog_cancels hk hp hcl hl hlim hw⟩,
    fun hop ho => ⟨forced_core hk hcl hop ho, fun hout heng hheld hctx => ⟨fun sl n i rest b => ?_, ?_⟩⟩⟩
  · exact forced_head hk hcl hop ho hout heng hheld hctx
  · exact forced_all hk hcl hop ho hout heng hheld hctx

end Sys2Proof.Machine
end

section
/-! SUPPORT. Arrivals: what taking a packet leaves, packets that stay in the mesh, and what a signal of a local cell leaves. -/

namespace Sys2Proof.Machine

/-! ## What taking a packet leaves: all but the mesh's packets and the pointers of the rotations at its taker -/

/-- The tile with its two rotation pointers at these ports. -/
def Tile.rotated (tl : Tile) (a b : Nat) : Tile := { tl with forage := { tl.forage with portPtr := a }, q := { tl.q with port := b } }

section
variable (tl : Tile) (a b : Nat)

@[simp] theorem Tile.takes_rotated (gen : Nat) (wild : Bool) : (tl.rotated a b).takes gen wild = tl.takes gen wild := rfl
@[simp] theorem Tile.answerOk_rotated (h : Hdr) : (tl.rotated a b).answerOk h = tl.answerOk h := rfl
@[simp] theorem Tile.awaiting_rotated (op : XOp) (obj : Nat) : (tl.rotated a b).awaiting op obj = tl.awaiting op obj := rfl
@[simp] theorem Tile.onConn_rotated (src : Endp) (r : ConnRef) : (tl.rotated a b).onConn src r = tl.onConn src r := rfl
@[simp] theorem Tile.record_rotated (q : Nat) (v : TileId) (c : Nat) (g : Option Nat) : (tl.rotated a b).record q v c g = tl.record q v c g := rfl
@[simp] theorem Tile.queue_rotated (q : Nat) : (tl.rotated a b).queue q = tl.queue q := rfl
@[simp] theorem Tile.ctx_rotated (c : Nat) : (tl.rotated a b).ctx c = tl.ctx c := rfl
@[simp] theorem Tile.handle_rotated (i : Nat) : (tl.rotated a b).handle i = tl.handle i := rfl
@[simp] theorem Tile.senders_rotated (q : Nat) : (tl.rotated a b).senders q = tl.senders q := rfl
@[simp] theorem Tile.ringFree_rotated (q : Nat) : (tl.rotated a b).ringFree q = tl.ringFree q := rfl
@[simp] theorem Tile.grants_rotated : (tl.rotated a b).q.grants = tl.q.grants := rfl
@[simp] theorem Tile.core_rotated : (tl.rotated a b).core = tl.core := rfl
@[simp] theorem Tile.gen_rotated : (tl.rotated a b).gen = tl.gen := rfl
@[simp] theorem Tile.mem_rotated : (tl.rotated a b).mem = tl.mem := rfl
@[simp] theorem Tile.fold_rotated : (tl.rotated a b).fold = tl.fold := rfl

end

theorem State.tile_turned (s : State) (p : Pkt) (v : TileId) : ∃ a b, (s.turned p).tile v = (s.tile v).rotated a b := by
  have same : ∃ a b, s.tile v = (s.tile v).rotated a b := ⟨_, _, rfl⟩
  unfold State.turned
  cases hk : s.taker p with
  | none => exact same
  | some k =>
    dsimp only
    cases s.nextPort k with
    | none => exact same
    | some i =>
      dsimp only
      rw [State.tile_modTile_ite]
      split
      · split
        · exact ⟨_, _, rfl⟩
        · exact ⟨_, _, rfl⟩
      · exact same

theorem State.tile_took (s : State) (p : Pkt) (v : TileId) : ∃ a b, (s.took p).tile v = (s.tile v).rotated a b := by
  have e : (s.took p).tile v = (if s.mesh.flight.any (fun x => x.pkt == p) then s.turned p else s).tile v := rfl
  rw [e]
  split
  · exact s.tile_turned p v
  · exact ⟨_, _, rfl⟩

/-- What rests on no rotation pointer is after an arrival as before. -/
theorem State.view_took {α : Type} (f : Tile → α) (hf : ∀ tl a b, f (tl.rotated a b) = f tl) (s : State) (p : Pkt) (v : TileId) :
    f ((s.took p).tile v) = f (s.tile v) := by
  obtain ⟨a, b, e⟩ := s.tile_took p v
  rw [e, hf]

/-- A packet that no unit takes in rotation moves no tile. -/
theorem State.tile_took_plain {p : Pkt} (h1 : stealKind p.body = false) (h2 : queueKind p.body = false) (s : State) (v : TileId) :
    (s.took p).tile v = s.tile v := by
  have ht : s.taker p = none := by
    unfold State.taker
    split <;> simp [h1, h2]
  have hs : s.turned p = s := by
    unfold State.turned
    rw [ht]
  unfold State.took
  rw [hs]
  split <;> rfl

theorem State.time_took (s : State) (p : Pkt) : (s.took p).time = s.time := (congrArg State.time (s.besideArrival_took p) : (s.took p).besideArrival.time = _)

theorem State.run_took (s : State) (p : Pkt) (t : TileId) : (s.took p).run t = s.run t := by simp only [State.run, State.field, State.fields_took]

theorem State.cycles_took (s : State) (p : Pkt) (t : TileId) : (s.took p).cycles t = s.cycles t := by simp only [State.cycles, State.field, State.fields_took]

theorem State.mesh_took (s : State) (p : Pkt) : ∃ l, (s.took p).mesh = { s.mesh with flight := l } := by
  have turned : (s.turned p).mesh = s.mesh := by
    unfold State.turned
    (repeat' split) <;> rfl
  refine ⟨(s.took p).mesh.flight, ?_⟩
  unfold State.took State.arrive
  split
  · rw [turned]
  · rfl

theorem State.onMap_took (s : State) (p : Pkt) : (s.took p).onMap = s.onMap := by
  obtain ⟨l, e⟩ := s.mesh_took p
  funext v
  simp only [State.onMap, State.good, State.view_took Tile.present (fun _ _ _ => rfl), e]

/-- Where a packet's source lies. -/
theorem State.sourceTile_took (s : State) (p : Pkt) (e : Endp) : (s.took p).sourceTile e = s.sourceTile e := by
  have hmb : (s.took p).mb = s.mb := (congrArg State.mb (s.besideArrival_took p) : (s.took p).besideArrival.mb = _)
  have hgate : (s.took p).gateOn = s.gateOn := by
    funext j g
    simp only [State.gateOn, State.onMap_took]
  have hgood : (s.took p).good = s.good := by
    funext v
    simp only [State.good, State.view_took Tile.present (fun _ _ _ => rfl)]
  cases e <;> simp only [State.sourceTile, State.place, State.gateOf, State.attach, State.activeKeep, hmb, hgate, hgood]

/-- What a packet does that may arrive. -/
theorem Does.lands {s : State} {c : Instr} {p : Pkt} {k : State → State} {P : State → Prop} (hc : exec c s = .next (s.landing p k))
    (ha : Arrives s p.h p.body) (hp : P (k (s.took p))) : Does c s P :=
  .of_next (hc.trans (congrArg _ (State.landing_arrives ha k))) hp

/-! ## Packets stay in the mesh as more are sent -/

namespace Sent

variable {s : State} {dst : Endp} {body : Body} (h : Sent s dst body)
include h

theorem send (p : Pkt) : Sent (s.send p) dst body := by
  obtain ⟨x, hx, e⟩ := h
  exact ⟨x, List.mem_append_left _ hx, e⟩

theorem setTile {t : TileId} {tl : Tile} : Sent (s.setTile t tl) dst body := h

theorem event {src code : Nat} {d : List Nat} : Sent (s.event src code d) dst body := h.of_mesh (State.event_mesh ..)

end Sent

theorem State.sent_status (s : State) (h : Hdr) (gen : Nat) (re : Re) (code : Nat) : Sent (s.status h gen re code) h.src (.status re code) := s.sent_send _

theorem State.sent_reply (s : State) (h : Hdr) (gen : Nat) (re : Re) (code : Nat) (data : List Byte) : Sent (s.reply h gen re code data) h.src (.reply re code data) :=
  s.sent_send _

/-! ## What a signal of a local cell leaves of its tile: all but the core, its activity and its cells -/

/-- Tile b is tile a but for its core, its activity and its cells and requests. -/
def Tile.SameButCore (a b : Tile) : Prop := ∃ c x y, b = { a with core := c, act := x, sync := y }

theorem State.sameButCore_settleCell (s : State) (t : TileId) (c : Nat) (k : CellTurn) : (s.tile t).SameButCore ((s.settleCell t c k).tile t) := by
  unfold State.settleCell
  dsimp only
  generalize hs : s.setTile t _ = u
  have hu : ∃ y, u.tile t = { s.tile t with sync := y } := ⟨_, by rw [← hs, State.tile_setTile]; rfl⟩
  obtain ⟨y, hu⟩ := hu
  split
  · unfold State.endWait
    split
    · rename_i k' _
      obtain ⟨c, x, e⟩ := u.tile_finish_rest t k'.a stOk 0 0
      exact ⟨c, x, y, by rw [e, hu]⟩
    · exact ⟨_, _, y, hu⟩
  · exact ⟨_, _, y, hu⟩

theorem State.sameButCore_signalLocal (s : State) (t : TileId) (rank c a : Nat) : (s.tile t).SameButCore ((s.signalLocal t rank c a).tile t) :=
  s.sameButCore_settleCell ..

@[simp] theorem State.mesh_settleCell (s : State) (t : TileId) (c : Nat) (k : CellTurn) : (s.settleCell t c k).mesh = s.mesh := by
  have ends (u : State) : (u.endWait t stOk).mesh = u.mesh := by
    unfold State.endWait
    split
    · exact State.mesh_finish ..
    · rfl
  unfold State.settleCell
  dsimp only
  split
  · rw [ends]
    rfl
  · rfl

@[simp] theorem State.mesh_signalLocal (s : State) (t : TileId) (rank c a : Nat) : (s.signalLocal t rank c a).mesh = s.mesh := s.mesh_settleCell ..

end Sys2Proof.Machine
end

section
/-! PROOFS. Remote requests, contributions and answers at a tile (O19). -/

namespace Sys2Proof.Machine

@[simp] theorem length_bytesAt (bs : List Byte) (o n : Nat) : (bytesAt bs o n).length = n := by
  simp only [bytesAt, List.length_append, List.length_replicate, List.length_take, List.length_drop]
  omega

/-! ## Requests at a window (R137 to R142) -/

section
variable {s : State} {t : TileId} {h : Hdr} {b : RemoteBody} {data : Option (List Byte)}

theorem State.windowRequest_lost (hl : (s.tile t).inService = false ∨ (h.dstGen ≠ 0 ∧ h.dstGen ≠ (s.tile t).gen)) :
    s.windowRequest t h b data = s.windowAnswer h b data.isSome stPeerLost [] := by
  rcases hl with hl | ⟨h0, h1⟩
  · simp [State.windowRequest, hl]
  · simp [State.windowRequest, h0, h1]

section
variable (hin : (s.tile t).inService = true) (hg : h.dstGen = 0 ∨ h.dstGen = (s.tile t).gen)
include hin hg

omit hin in
theorem Hdr.gen_ok : (h.dstGen == 0 || h.dstGen == (s.tile t).gen) = true := by
  rcases hg with e | e <;> simp [e]

theorem State.windowRequest_refused {o : Nat} (hc : (s.tile t).windowCheck b data.isSome = some o) :
    s.windowRequest t h b data = s.windowRefuse t h b data.isSome o := by
  simp only [State.windowRequest, hin, Hdr.gen_ok hg, hc, Bool.not_true, Bool.or_self, Bool.false_eq_true, if_false]

variable (hc : (s.tile t).windowCheck b data.isSome = none)
include hc

theorem State.windowRequest_served (hh : ((s.tile t).window b.window).held = []) (hr : (s.tile t).windowReady b data.isSome = true) :
    s.windowRequest t h b data = s.windowServe t h b data := by
  simp only [State.windowRequest, hin, Hdr.gen_ok hg, hc, hh, hr, Bool.not_true, Bool.or_self, Bool.false_eq_true, if_false, List.isEmpty_nil, Bool.and_self,
      if_true]

variable (hr : (s.tile t).windowReady b data.isSome = false)
include hr

theorem State.windowRequest_held (hh : ((s.tile t).window b.window).held.length < 4) :
    s.windowRequest t h b data = s.setTile t ((s.tile t).setWindow b.window { (s.tile t).window b.window with
      held := ((s.tile t).window b.window).held ++ [{ h := h, body := b, data := data, since := s.run t }] }) := by
  simp only [State.windowRequest, hin, Hdr.gen_ok hg, hc, hr, Nat.not_le.mpr hh, Bool.not_true, Bool.or_self, Bool.and_false, Bool.false_eq_true, if_false,
    decide_false]

theorem State.windowRequest_full (hh : 4 ≤ ((s.tile t).window b.window).held.length) :
    s.windowRequest t h b data = s.windowTimeout t h b data.isSome := by
  simp only [State.windowRequest, hin, Hdr.gen_ok hg, hc, hr, hh, Bool.not_true, Bool.or_self, Bool.and_false, Bool.false_eq_true, if_false, decide_true,
      if_true]

end

/-! ### What a served request leaves -/

theorem State.windowServe_write {bs : List Byte} (hph : (s.tile t).mem.partialHit ((s.tile t).windowAt b) b.length = none) {u : State}
    (hu : u = s.windowServe t h b (some bs)) :
    (u.tile t).get ((s.tile t).windowAt b) b.length = bytesAt bs 0 b.length ∧
      SameBut (s.tile t).mem.cells (u.tile t).mem.cells ((s.tile t).windowAt b) b.length ∧
      ((u.tile t).window b.window).done = ((s.tile t).window b.window).done + 1 ∧ Sent u h.src (.status .xput stOk) := by
  have hlen := length_bytesAt bs 0 b.length
  have hy := Accessed.write s t 10 ((s.tile t).windowAt b) b.length
  simp only [State.windowServe, hph] at hu
  generalize (s.merge t ((s.tile t).windowAt b) b.length).served t 10 ((s.tile t).windowAt b) = s1 at hy hu
  generalize hM : s1.modTile t _ = M at hu
  generalize hN : (if bit ((s.tile t).window b.window).w3 20 = true then _ else M) = N at hu
  generalize bytesAt bs 0 b.length = ds at hlen hM ⊢
  have tile : (M.tile t).mem.cells = (s.tile t).mem.cells.writeN ds ((s.tile t).windowAt b) ∧
      ((M.tile t).window b.window).done = ((s.tile t).window b.window).done + 1 := by
    rw [← hM, State.tile_modTile, Tile.window_setWindow, ← Tile.cells_of_calm (hy.tile t)]
    refine ⟨?_, rfl⟩
    split <;> rfl
  obtain ⟨cells, done⟩ := tile
  have signal : (N.tile t).mem = (M.tile t).mem ∧ (N.tile t).windows = (M.tile t).windows := by
    rw [← hN]
    split
    · obtain ⟨c, x, y, e⟩ := M.sameButCore_signalLocal t (10 + b.window) (bits ((s.tile t).window b.window).w3 19 16) 1
      rw [e]
      exact ⟨rfl, rfl⟩
    · exact ⟨rfl, rfl⟩
  obtain ⟨hmem, hwin⟩ := signal
  have hut : u.tile t = N.tile t := by rw [hu]; rfl
  rw [hut, hmem, Tile.window_of_windows hwin, cells, done, Tile.get_of_cells (congrArg TileMem.cells hmem), Tile.get, TileMem.get, cells, ← hlen]
  refine ⟨Memory.readN_writeN .., sameBut_writeN _ ds _, rfl, ?_⟩
  rw [hu]
  exact State.sent_status ..

theorem State.windowServe_read (hhit : (s.tile t).mem.hit ((s.tile t).windowAt b) b.length = none) {u : State} (hu : u = s.windowServe t h b none) :
    (((s.tile t).window b.window).tagged = false → (u.tile t).mem.cells = (s.tile t).mem.cells) ∧
      Sent u h.src (.reply .xget stOk ((s.tile t).get ((s.tile t).windowAt b) b.length)) := by
  have hx := Accessed.read s t 10 ((s.tile t).windowAt b) b.length
  simp only [State.windowServe, hhit] at hu
  generalize (s.correct t ((s.tile t).windowAt b) b.length).served t 10 ((s.tile t).windowAt b) = s1 at hx hu
  rw [hu]
  refine ⟨fun ht => ?_, State.sent_reply ..⟩
  have e : ((State.windowAnswer (s1.modTile t fun tl => if ((s.tile t).window b.window).tagged && ((s.tile t).handle ((s.tile t).window b.window).handle).consume
      then tl.emptyTags ((s.tile t).windowAt b) b.length else tl) h b false stOk ((s.tile t).get ((s.tile t).windowAt b) b.length)).tile t) = s1.tile t := by
    simp [State.windowAnswer, State.reply, ht]
  rw [e, Tile.cells_of_calm (hx.tile t)]

/-- A refused request is answered by its order, and moves no memory. -/
theorem State.windowRefuse_spec (s : State) (t : TileId) (h : Hdr) (b : RemoteBody) (isWrite : Bool) (o : Nat) :
    ((s.windowRefuse t h b isWrite o).tile t).mem = (s.tile t).mem ∧ Sent (s.windowRefuse t h b isWrite o) h.src
      (if isWrite then .status .xput (if o = 1 then stWindowClosed else stDenied) else .reply .xget (if o = 1 then stWindowClosed else stDenied) []) := by
  have answer (u : State) (code : Nat) : ((u.windowAnswer h b isWrite code []).tile t) = u.tile t ∧
      Sent (u.windowAnswer h b isWrite code []) h.src (if isWrite then .status .xput code else .reply .xget code []) := by
    unfold State.windowAnswer
    split
    · exact ⟨rfl, State.sent_status ..⟩
    · exact ⟨rfl, State.sent_reply ..⟩
  unfold State.windowRefuse
  dsimp only
  split
  · refine ⟨?_, (answer ..).2⟩
    rw [(answer ..).1, State.tile_event, State.tile_modTile]
    rfl
  · refine ⟨?_, (answer ..).2⟩
    rw [(answer ..).1, State.tile_event, State.tile_modTile]
    rfl

/-- A request that four stand before is refused with STALL_TIMEOUT, and moves no memory. -/
theorem State.windowTimeout_spec (s : State) (t : TileId) (h : Hdr) (b : RemoteBody) :
    ((s.windowTimeout t h b true).tile t).mem = (s.tile t).mem ∧ Sent (s.windowTimeout t h b true) h.src (.status .xput stStallTimeout) := by
  refine ⟨?_, State.sent_status ..⟩
  have e : (s.windowTimeout t h b true).tile t = (s.tile t).setWindow b.window
      { (s.tile t).window b.window with timeouts := satAdd 0xFF ((s.tile t).window b.window).timeouts 1 } := by
    simp only [State.windowTimeout, State.windowAnswer, if_true, State.status, State.tile_send, State.tile_event, State.tile_modTile]
  rw [e]
  rfl

end

/-! ### A remote write reaches a tile -/

section
variable {s : State} {h : Hdr} {b : RemoteBody} {t : TileId} (ht : b.target = t)
include ht

section
variable {data : List Byte} (ha : Arrives s h (.remoteWrite b data))
include ha

theorem remoteWrite_requests : exec (.remoteWrite h b data) s = .next ((s.took { h := h, body := .remoteWrite b data }).windowRequest t h b (some data)) := by
  rw [← ht]
  exact congrArg _ (State.landing_arrives (p := { h := h, body := .remoteWrite b data }) ha _)

theorem remoteWrite_lost (hl : (s.tile t).inService = false ∨ (h.dstGen ≠ 0 ∧ h.dstGen ≠ (s.tile t).gen)) :
    Does (.remoteWrite h b data) s (fun u => u.tile t = s.tile t ∧ Sent u h.src (.status .xput stPeerLost)) := by
  have hT : (s.took { h := h, body := .remoteWrite b data }).tile t = s.tile t := State.tile_took_plain rfl rfl s t
  refine .of_next (remoteWrite_requests ht ha) ?_
  rw [State.windowRequest_lost (by rw [hT]; exact hl)]
  exact ⟨hT, State.sent_status ..⟩

variable (hin : (s.tile t).inService = true) (hg : h.dstGen = 0 ∨ h.dstGen = (s.tile t).gen)
include hin hg

theorem remoteWrite_refused {o : Nat} (hc : (s.tile t).windowCheck b true = some o) :
    Does (.remoteWrite h b data) s (fun u => (u.tile t).mem = (s.tile t).mem ∧ Sent u h.src (.status .xput (if o = 1 then stWindowClosed else stDenied))) := by
  have hT : (s.took { h := h, body := .remoteWrite b data }).tile t = s.tile t := State.tile_took_plain rfl rfl s t
  refine .of_next (remoteWrite_requests ht ha) ?_
  rw [State.windowRequest_refused (by rw [hT]; exact hin) (by rw [hT]; exact hg) (by rw [hT]; exact hc), ← hT]
  exact State.windowRefuse_spec _ t h b true o

variable (hc : (s.tile t).windowCheck b true = none)
include hc

theorem remoteWrite_lands (hh : ((s.tile t).window b.window).held = []) (hr : (s.tile t).windowReady b true = true)
    (hph : (s.tile t).mem.partialHit ((s.tile t).windowAt b) b.length = none) :
    Does (.remoteWrite h b data) s (fun u => (u.tile t).get ((s.tile t).windowAt b) b.length = bytesAt data 0 b.length ∧
      SameBut (s.tile t).mem.cells (u.tile t).mem.cells ((s.tile t).windowAt b) b.length ∧
      ((u.tile t).window b.window).done = ((s.tile t).window b.window).done + 1 ∧ Sent u h.src (.status .xput stOk)) := by
  have hT : (s.took { h := h, body := .remoteWrite b data }).tile t = s.tile t := State.tile_took_plain rfl rfl s t
  refine .of_next (remoteWrite_requests ht ha) ?_
  rw [State.windowRequest_served (by rw [hT]; exact hin) (by rw [hT]; exact hg) (by rw [hT]; exact hc) (by rw [hT]; exact hh) (by rw [hT]; exact hr), ← hT]
  exact State.windowServe_write (by rw [hT]; exact hph) rfl

variable (hr : (s.tile t).windowReady b true = false)
include hr

theorem remoteWrite_held (hh : ((s.tile t).window b.window).held.length < 4) :
    Does (.remoteWrite h b data) s (fun u => (u.tile t).mem = (s.tile t).mem ∧ ((u.tile t).window b.window).held =
      ((s.tile t).window b.window).held ++ [{ h := h, body := b, data := some data, since := s.run t }]) := by
  have hT : (s.took { h := h, body := .remoteWrite b data }).tile t = s.tile t := State.tile_took_plain rfl rfl s t
  refine .of_next (remoteWrite_requests ht ha) ?_
  rw [State.windowRequest_held (by rw [hT]; exact hin) (by rw [hT]; exact hg) (by rw [hT]; exact hc) (by rw [hT]; exact hr) (by rw [hT]; exact hh),
    State.tile_setTile, Tile.window_setWindow, hT, State.run_took]
  exact ⟨rfl, rfl⟩

theorem remoteWrite_full (hh : 4 ≤ ((s.tile t).window b.window).held.length) :
    Does (.remoteWrite h b data) s (fun u => (u.tile t).mem = (s.tile t).mem ∧ Sent u h.src (.status .xput stStallTimeout)) := by
  have hT : (s.took { h := h, body := .remoteWrite b data }).tile t = s.tile t := State.tile_took_plain rfl rfl s t
  refine .of_next (remoteWrite_requests ht ha) ?_
  rw [State.windowRequest_full (by rw [hT]; exact hin) (by rw [hT]; exact hg) (by rw [hT]; exact hc) (by rw [hT]; exact hr) (by rw [hT]; exact hh), ← hT]
  exact State.windowTimeout_spec ..

end

/-! ### A remote read reaches a tile -/

section
variable (ha : Arrives s h (.remoteRead b))
include ha

theorem remoteRead_requests : exec (.remoteRead h b) s = .next ((s.took { h := h, body := .remoteRead b }).windowRequest t h b none) := by
  rw [← ht]
  exact congrArg _ (State.landing_arrives (p := { h := h, body := .remoteRead b }) ha _)

theorem remoteRead_lost (hl : (s.tile t).inService = false ∨ (h.dstGen ≠ 0 ∧ h.dstGen ≠ (s.tile t).gen)) :
    Does (.remoteRead h b) s (fun u => u.tile t = s.tile t ∧ Sent u h.src (.reply .xget stPeerLost [])) := by
  have hT : (s.took { h := h, body := .remoteRead b }).tile t = s.tile t := State.tile_took_plain rfl rfl s t
  refine .of_next (remoteRead_requests ht ha) ?_
  rw [State.windowRequest_lost (by rw [hT]; exact hl)]
  exact ⟨hT, State.sent_reply ..⟩

variable (hin : (s.tile t).inService = true) (hg : h.dstGen = 0 ∨ h.dstGen = (s.tile t).gen)
include hin hg

theorem remoteRead_refused {o : Nat} (hc : (s.tile t).windowCheck b false = some o) :
    Does (.remoteRead h b) s (fun u => (u.tile t).mem = (s.tile t).mem ∧ Sent u h.src (.reply .xget (if o = 1 then stWindowClosed else stDenied) [])) := by
  have hT : (s.took { h := h, body := .remoteRead b }).tile t = s.tile t := State.tile_took_plain rfl rfl s t
  refine .of_next (remoteRead_requests ht ha) ?_
  rw [State.windowRequest_refused (by rw [hT]; exact hin) (by rw [hT]; exact hg) (by rw [hT]; exact hc), ← hT]
  exact State.windowRefuse_spec _ t h b false o

variable (hc : (s.tile t).windowCheck b false = none)
include hc

theorem remoteRead_answered (hh : ((s.tile t).window b.window).held = []) (hr : (s.tile t).windowReady b false = true)
    (hhit : (s.tile t).mem.hit ((s.tile t).windowAt b) b.length = none) :
    Does (.remoteRead h b) s (fun u => (((s.tile t).window b.window).tagged = false → (u.tile t).mem.cells = (s.tile t).mem.cells) ∧
      Sent u h.src (.reply .xget stOk ((s.tile t).get ((s.tile t).windowAt b) b.length))) := by
  have hT : (s.took { h := h, body := .remoteRead b }).tile t = s.tile t := State.tile_took_plain rfl rfl s t
  refine .of_next (remoteRead_requests ht ha) ?_
  rw [State.windowRequest_served (by rw [hT]; exact hin) (by rw [hT]; exact hg) (by rw [hT]; exact hc) (by rw [hT]; exact hh) (by rw [hT]; exact hr), ← hT]
  exact State.windowServe_read (by rw [hT]; exact hhit) rfl

theorem remoteRead_held (hr : (s.tile t).windowReady b false = false) (hh : ((s.tile t).window b.window).held.length < 4) :
    Does (.remoteRead h b) s (fun u => ((u.tile t).window b.window).held =
      ((s.tile t).window b.window).held ++ [{ h := h, body := b, data := none, since := s.run t }]) := by
  have hT : (s.took { h := h, body := .remoteRead b }).tile t = s.tile t := State.tile_took_plain rfl rfl s t
  refine .of_next (remoteRead_requests ht ha) ?_
  rw [State.windowRequest_held (by rw [hT]; exact hin) (by rw [hT]; exact hg) (by rw [hT]; exact hc) (by rw [hT]; exact hr) (by rw [hT]; exact hh),
    State.tile_setTile, Tile.window_setWindow, hT, State.run_took]

end
end

/-! ## Reading beside what was written -/

theorem Memory.readN_congr {m m' : Memory} : ∀ (n a : Nat), (∀ i, a ≤ i → i < a + n → m.read i = m'.read i) → m.readN n a = m'.readN n a
  | 0, _, _ => rfl
  | n + 1, a, h => by
    rw [Memory.readN, Memory.readN, h a (by omega) (by omega), Memory.readN_congr n (a + 1) fun i h1 h2 => h i (by omega) (by omega)]

theorem Tile.get_put_other (tl : Tile) (bs : List Byte) {o p n : Nat} (h : p + n ≤ o ∨ o + bs.length ≤ p) : (tl.put o bs).get p n = tl.get p n :=
  Memory.readN_congr n p fun i h1 h2 => Memory.read_writeN_other bs tl.mem.cells o i (by omega)

theorem Tile.get_put_natLe (tl : Tile) (o n v : Nat) : leNat ((tl.put o (natLe n v)).get o n) = v % 256 ^ n := by
  have h := tl.get_put o (natLe n v)
  rw [length_natLe] at h
  rw [h, leNat_natLe]

theorem Tile.get_put_wordLe (tl : Tile) (o : Nat) (w : Word) : leWord ((tl.put o (wordLe w)).get o 4) = w := by
  have h := tl.get_put o (wordLe w)
  rw [length_wordLe] at h
  rw [h, leWord_wordLe]

/-! ## Contributions (R230, R232) -/

section
variable (s : State) (t : TileId) (k : Contribution)

theorem State.sent_combAnswer (code : Nat) (credit : Bool) : Sent (s.combAnswer t k code credit) k.src (.status (.conn k.ref) code) := by
  unfold State.combAnswer
  dsimp only
  split
  · exact (State.sent_send ..).send _
  · exact State.sent_send ..

theorem State.tile_combAnswer (code : Nat) (credit : Bool) (v : TileId) : (s.combAnswer t k code credit).tile v = s.tile v := by
  unfold State.combAnswer
  dsimp only
  split <;> rfl

end

section
variable {s : State} {t : TileId} {k : Contribution}

/-- A contribution of no open connection is dropped and answered CLOSED. -/
theorem State.contribution_closed (h : ((s.tile t).queue k.ref.queue).state ≠ 1 ∨ (s.tile t).record k.ref.queue (s.sourceTile k.src) k.ref.ctx none = none) :
    ((s.contribution t k).tile t).mem = (s.tile t).mem ∧ (((s.contribution t k).tile t).queue k.ref.queue).lost = true ∧
      ((s.contribution t k).tile t).q.drop = (s.tile t).q.drop + 1 ∧ Sent (s.contribution t k) k.src (.status (.conn k.ref) stClosed) := by
  have hno : (((s.tile t).queue k.ref.queue).state == 1 && ((s.tile t).queue k.ref.queue).qinc == k.ref.qinc && !(((s.tile t).queue k.ref.queue).kind == 0) &&
      ((s.tile t).record k.ref.queue (s.sourceTile k.src) k.ref.ctx none).isSome) = false := by
    rcases h with h | h <;> simp [h]
  simp only [State.contribution, hno, Bool.not_false, if_true]
  refine ⟨?_, ?_, ?_, State.sent_combAnswer ..⟩ <;> rw [State.tile_combAnswer, State.tile_event, State.tile_setTile]
  · rfl
  · exact congrArg RQueue.lost (Tile.queue_setQueue ..)
  · rfl

theorem State.contribution_adds {i : Nat} {g : Grant} {o : Nat} (hs : ((s.tile t).queue k.ref.queue).state = 1)
    (hi : ((s.tile t).queue k.ref.queue).qinc = k.ref.qinc) (hk : ((s.tile t).queue k.ref.queue).kind ≠ 0) (hf : ((s.tile t).queue k.ref.queue).folds? = false)
    (hr : (s.tile t).record k.ref.queue (s.sourceTile k.src) k.ref.ctx none = some (i, g))
    (hsl : k.slot < ((s.tile t).handle ((s.tile t).queue k.ref.queue).handle).length) (hop : k.op = ((s.tile t).queue k.ref.queue).op) (h2 : k.op ≠ 2)
    (ho : o = ((s.tile t).handle ((s.tile t).queue k.ref.queue).handle).slotAt k.slot) (hhit : (s.tile t).mem.hit o 32 = none)
    (hcnt : leNat ((s.tile t).get (o + 8) 4) + 1 < (s.tile t).slotCount k.ref.queue o) (hmax : (s.tile t).slotCount k.ref.queue o < 2 ^ 32) {u : State}
    (hu : u = s.contribution t k) :
    leWord ((u.tile t).get o 4) = (if k.op = 3 then maxF32 (leWord ((s.tile t).get o 4)) k.value
        else addF32 (leWord ((s.tile t).get o 4)) (combValue k.op k.value)) ∧
      leNat ((u.tile t).get (o + 8) 4) = leNat ((s.tile t).get (o + 8) 4) + 1 ∧ Sent u k.src (.status (.conn k.ref) stOk) := by
  have hue : (s.tile t).combUe k.ref.queue o = none := by simp [Tile.combUe, hhit, hf]
  have hx := Accessed.read s t 10 o 32
  generalize hs1 : (s.correct t o 32).served t 10 o = s1 at hx
  simp only [State.contribution, hs, hi, beq_eq_false_iff_ne.mpr hk, hf, hr, hsl, hop, ← ho, hue, beq_self_eq_true, Bool.not_false, Bool.and_self,
    Option.isSome_some, Option.isSome_none, decide_true, Bool.not_true, Bool.false_eq_true, if_false, Nat.lt_of_succ_lt hcnt, Bool.false_and, hs1] at hu
  rw [← hop] at hu
  generalize hw : (if k.op = 3 then maxF32 (leWord ((s.tile t).get o 4)) k.value else addF32 (leWord ((s.tile t).get o 4)) (combValue k.op k.value)) = w
  have happ : (s1.tile t).combApply k.op o k.value = (s1.tile t).put o (wordLe w) := by
    simp only [Tile.combApply, h2, if_false, hx.get, hw]
  have hold : ((s1.tile t).put o (wordLe w)).get (o + 8) 4 = (s.tile t).get (o + 8) 4 := by
    rw [Tile.get_put_other _ _ (.inr (by rw [length_wordLe]; omega)), hx.get]
  rw [happ, hold] at hu
  generalize htl : ((s1.tile t).put o (wordLe w)).put (o + 8) (natLe 4 (leNat ((s.tile t).get (o + 8) 4) + 1)) = tl at hu
  have sum : leWord (tl.get o 4) = w := by
    rw [← htl, Tile.get_put_other _ _ (.inl (by omega)), Tile.get_put_wordLe]
  have count : leNat (tl.get (o + 8) 4) = leNat ((s.tile t).get (o + 8) 4) + 1 := by
    rw [← htl, Tile.get_put_natLe]
    omega
  have declared : tl.slotCount k.ref.queue o = (s.tile t).slotCount k.ref.queue o := by
    have hq : tl.queue k.ref.queue = (s.tile t).queue k.ref.queue := by
      rw [← hx.queue, ← htl]
      rfl
    rw [Tile.slotCount, Tile.slotCount, hq, ← htl, Tile.get_put_other _ _ (.inl (by omega)), Tile.get_put_other _ _ (.inr (by rw [length_wordLe])), hx.get]
  have check : (s1.setTile t tl).combCheck t k.ref.queue k.slot o = s1.setTile t tl := by
    simp only [State.combCheck, State.tile_setTile, count, declared, beq_eq_false_iff_ne.mpr (Nat.ne_of_lt hcnt), Bool.not_false, if_true]
  rw [check] at hu
  have hut : u.tile t = tl := by rw [hu, State.tile_combAnswer, State.tile_setTile]
  rw [hut]
  refine ⟨sum, count, ?_⟩
  rw [hu]
  exact State.sent_combAnswer ..

end

section
variable {s : State} {t : TileId} {h : Hdr} (hd : h.dst = .tile t)
include hd

/-! ### A contribution reaches a tile -/

section
variable {k : Contribution} (ha : Arrives s h (.combine [k]))
include ha

theorem combine_lost (ht : (s.tile t).takes h.dstGen false = false) :
    Does (.combine h [k]) s (fun u => (u.tile t).mem = (s.tile t).mem ∧ Sent u k.src (.status (.conn k.ref) stPeerLost)) := by
  obtain ⟨a, b, e⟩ := s.tile_took { h := h, body := .combine [k] } t
  have ht' : ((s.took { h := h, body := .combine [k] }).tile t).takes h.dstGen false = false := by rw [e]; exact ht
  refine .of_next (congrArg Host.Outcome.next (State.landing_arrives (p := { h := h, body := .combine [k] }) ha _)) ?_
  simp only [hd, endpTile, ht', Bool.not_false, if_true, List.foldl_cons, List.foldl_nil]
  refine ⟨?_, State.sent_combAnswer ..⟩
  rw [State.tile_combAnswer, e]
  rfl

variable (ht : (s.tile t).takes h.dstGen false = true)
include ht

theorem combine_contributes : exec (.combine h [k]) s = .next ((s.took { h := h, body := .combine [k] }).contribution t k) := by
  obtain ⟨a, b, e⟩ := s.tile_took { h := h, body := .combine [k] } t
  have ht' : ((s.took { h := h, body := .combine [k] }).tile t).takes h.dstGen false = true := by rw [e]; exact ht
  refine (congrArg Host.Outcome.next (State.landing_arrives (p := { h := h, body := .combine [k] }) ha _)).trans ?_
  simp only [hd, endpTile, ht', Bool.not_true, Bool.false_eq_true, if_false, List.foldl_cons, List.foldl_nil]

theorem combine_closed (hc : ((s.tile t).queue k.ref.queue).state ≠ 1 ∨ (s.tile t).record k.ref.queue (s.sourceTile k.src) k.ref.ctx none = none) :
    Does (.combine h [k]) s (fun u => (u.tile t).mem = (s.tile t).mem ∧ ((u.tile t).queue k.ref.queue).lost = true ∧
      (u.tile t).q.drop = (s.tile t).q.drop + 1 ∧ Sent u k.src (.status (.conn k.ref) stClosed)) := by
  obtain ⟨a, b, e⟩ := s.tile_took { h := h, body := .combine [k] } t
  refine .of_next (combine_contributes hd ha ht) ?_
  have spec := State.contribution_closed (s := s.took { h := h, body := .combine [k] }) (t := t) (k := k) (by rw [e, State.sourceTile_took]; exact hc)
  rw [e] at spec
  exact spec

theorem combine_adds {i : Nat} {g : Grant} {o : Nat} (hs : ((s.tile t).queue k.ref.queue).state = 1) (hi : ((s.tile t).queue k.ref.queue).qinc = k.ref.qinc)
    (hk : ((s.tile t).queue k.ref.queue).kind ≠ 0) (hf : ((s.tile t).queue k.ref.queue).folds? = false)
    (hr : (s.tile t).record k.ref.queue (s.sourceTile k.src) k.ref.ctx none = some (i, g))
    (hsl : k.slot < ((s.tile t).handle ((s.tile t).queue k.ref.queue).handle).length) (hop : k.op = ((s.tile t).queue k.ref.queue).op) (h2 : k.op ≠ 2)
    (ho : o = ((s.tile t).handle ((s.tile t).queue k.ref.queue).handle).slotAt k.slot) (hhit : (s.tile t).mem.hit o 32 = none)
    (hcnt : leNat ((s.tile t).get (o + 8) 4) + 1 < (s.tile t).slotCount k.ref.queue o) (hmax : (s.tile t).slotCount k.ref.queue o < 2 ^ 32) :
    Does (.combine h [k]) s (fun u =>
      leWord ((u.tile t).get o 4) = (if k.op = 3 then maxF32 (leWord ((s.tile t).get o 4)) k.value
        else addF32 (leWord ((s.tile t).get o 4)) (combValue k.op k.value)) ∧
      leNat ((u.tile t).get (o + 8) 4) = leNat ((s.tile t).get (o + 8) 4) + 1 ∧ Sent u k.src (.status (.conn k.ref) stOk)) := by
  obtain ⟨a, b, e⟩ := s.tile_took { h := h, body := .combine [k] } t
  refine .of_next (combine_contributes hd ha ht) ?_
  have spec := State.contribution_adds (s := s.took { h := h, body := .combine [k] }) (t := t) (k := k) (i := i) (g := g) (o := o)
    (by rw [e]; exact hs) (by rw [e]; exact hi) (by rw [e]; exact hk) (by rw [e]; exact hf) (by rw [e, State.sourceTile_took]; exact hr)
    (by rw [e]; exact hsl) (by rw [e]; exact hop) h2 (by rw [e]; exact ho) (by rw [e]; exact hhit) (by rw [e]; exact hcnt) (by rw [e]; exact hmax) rfl
  rw [e] at spec
  exact spec

end

/-! ### Answers to a global read and to a global wait (R44, R245) -/

section
variable {c st : Nat} {k : Stall}

theorem reply_answers {data : List Byte} {re : Re} (ha : Arrives s h (.reply re st data)) (hk : (s.tile t).answerOk h = true) :
    exec (.reply h re st data) s = .next ((s.took { h := h, body := .reply re st data }).tileAnswer t h re (statusCode st) data) := by
  obtain ⟨a, b, e⟩ := s.tile_took { h := h, body := .reply re st data } t
  have hk' : ((s.took { h := h, body := .reply re st data }).tile t).answerOk h = true := by rw [e]; exact hk
  refine (congrArg Host.Outcome.next (State.landing_arrives (p := { h := h, body := .reply re st data }) ha _)).trans ?_
  simp only [State.answerAt, hd, endpTile, hk', if_true]

theorem status_answers {re : Re} (ha : Arrives s h (.status re st)) (hk : (s.tile t).answerOk h = true) :
    exec (.status h re st) s = .next ((s.took { h := h, body := .status re st }).tileAnswer t h re (statusCode st) []) := by
  obtain ⟨a, b, e⟩ := s.tile_took { h := h, body := .status re st } t
  have hk' : ((s.took { h := h, body := .status re st }).tile t).answerOk h = true := by rw [e]; exact hk
  have he : exec (.status h re st) s = execStatus h re st s := rfl
  rw [he]
  simp only [execStatus, hd, endpTile, State.landing_arrives (p := { h := h, body := .status re st }) ha, State.answerAt, hk', if_true]

section
variable {data : List Byte} (ha : Arrives s h (.reply (.read c) st data)) (hok : (s.tile t).answerOk h = true) (hw : (s.tile t).awaiting .sread c = some k)
include ha hok hw

/-- The answer completes the read that waits for it. -/
theorem read_completes : Does (.reply h (.read c) st data) s (fun u =>
    Completed s u t k.a (cellStatus (statusCode st)) (if statusCode st = stOk then leNat (bytesAt data 0 3) else 0)) := by
  obtain ⟨a, b, e⟩ := s.tile_took { h := h, body := .reply (.read c) st data } t
  have hw' : ((s.took { h := h, body := .reply (.read c) st data }).tile t).awaiting .sread c = some k := by rw [e]; exact hw
  refine .of_next (reply_answers hd ha hok) ?_
  simp only [State.tileAnswer, State.readAnswer, hw']
  refine completed_stalled ((State.core_setPend ..).trans ?_)
  rw [e]
  rfl

theorem read_ok (hst : st = stOk) : Does (.reply h (.read c) st data) s (fun u => Completed s u t k.a stOk (leNat (bytesAt data 0 3))) := by
  subst hst
  exact read_completes hd ha hok hw

theorem read_fails (hst : statusCode st ≠ stOk) : Does (.reply h (.read c) st data) s (fun u => Completed s u t k.a (cellStatus (statusCode st)) 0) := by
  have spec := read_completes hd ha hok hw
  rwa [if_neg hst] at spec

end

section
variable (ha : Arrives s h (.status (.wait c) st)) (hok : (s.tile t).answerOk h = true) (hk : (s.tile t).core.stall = some k) (hop : k.op = .swait) (ho : k.obj = c)
include ha hok hk hop ho

theorem wait_completes (hst : statusCode st ≠ stRetry) : Does (.status h (.wait c) st) s (fun u => Completed s u t k.a (cellStatus (statusCode st)) 0) := by
  obtain ⟨a, b, e⟩ := s.tile_took { h := h, body := .status (.wait c) st } t
  have hk' : ((s.took { h := h, body := .status (.wait c) st }).tile t).core.stall = some k := by rw [e]; exact hk
  refine .of_next (status_answers hd ha hok) ?_
  simp only [State.tileAnswer, State.waitAnswer, hk', hop, ho, and_self, decide_true, Bool.not_true, Bool.false_eq_true, if_false, hst]
  refine completed_stalled ((State.core_setPend ..).trans ?_)
  rw [e]
  rfl

/-- A refused wait is held for its resend. -/
theorem wait_held (hst : st = stRetry) : Does (.status h (.wait c) st) s (fun u => (u.tile t).sync.resend = some (s.cycles t + 64) ∧
    (u.tile t).core = (s.tile t).core) := by
  subst hst
  obtain ⟨a, b, e⟩ := s.tile_took { h := h, body := .status (.wait c) stRetry } t
  have hk' : ((s.took { h := h, body := .status (.wait c) stRetry }).tile t).core.stall = some k := by rw [e]; exact hk
  have hcode : statusCode stRetry = stRetry := rfl
  refine .of_next (status_answers hd ha hok) ?_
  simp only [State.tileAnswer, State.waitAnswer, hk', hop, ho, and_self, decide_true, Bool.not_true, Bool.false_eq_true, if_false, hcode, if_true,
    State.tile_setTile, State.cycles_took, true_and]
  rw [e]
  rfl

end
end
end

/-- Settles O19: what a remote request, a contribution and an answer do as they arrive. -/
theorem answersAndContributionsArrive : Obligations.AnswersAndContributionsArrive := by
  unfold Obligations.AnswersAndContributionsArrive
  intro s t h
  refine ⟨fun b data ht ha => ⟨fun hin hg => ⟨fun hc => ⟨remoteWrite_lands ht ha hin hg hc,
        fun hr => ⟨remoteWrite_held ht ha hin hg hc hr, remoteWrite_full ht ha hin hg hc hr⟩⟩, fun o => remoteWrite_refused ht ha hin hg⟩,
            remoteWrite_lost ht ha⟩,
    fun b ht ha => ⟨fun hin hg => ⟨fun hc => ⟨remoteRead_answered ht ha hin hg hc, remoteRead_held ht ha hin hg hc⟩, fun o => remoteRead_refused ht ha hin hg⟩,
      remoteRead_lost ht ha⟩,
    fun hd => ⟨fun k ha => ⟨fun ht => ⟨fun i g o => combine_adds hd ha ht, combine_closed hd ha ht⟩, combine_lost hd ha⟩,
      fun k c st data ha hok hw => ⟨read_ok hd ha hok hw, read_fails hd ha hok hw⟩,
      fun k c st ha hok hk hop ho => ⟨wait_completes hd ha hok hk hop ho, wait_held hd ha hok hk hop ho⟩⟩⟩

end Sys2Proof.Machine
end

section
/-! PROOFS. The packets of a connection at a tile (O10). -/

namespace Sys2Proof.Machine

section
variable {s : State} {t : TileId} {h : Hdr} (hd : h.dst = .tile t)
include hd

/-! ## OPEN at a receive queue (R216, R218) -/

section
variable {b : OpenBody} (ha : Arrives s h (.openReq b))
include ha

theorem open_lost (ht : (s.tile t).takes h.dstGen true = false) :
    Does (.openArrives h b) s (fun u => Sent u h.src (.status (.opening ⟨b.queue, ((s.tile t).queue b.queue).qinc, b.ctx⟩) stPeerLost)) := by
  obtain ⟨x, y, e⟩ := s.tile_took { h := h, body := .openReq b } t
  refine .lands (p := { h := h, body := .openReq b }) rfl ha ?_
  simp only [hd, endpTile, State.openAt, e, Tile.takes_rotated, Tile.queue_rotated, ht, Bool.not_false, if_true]
  exact State.sent_status ..

variable (ht : (s.tile t).takes h.dstGen true = true)
include ht

theorem open_refused (hs : ((s.tile t).queue b.queue).state ≠ 1) :
    Does (.openArrives h b) s (fun u => Sent u h.src (.status (.opening ⟨b.queue, ((s.tile t).queue b.queue).qinc, b.ctx⟩) stRefused)) := by
  obtain ⟨x, y, e⟩ := s.tile_took { h := h, body := .openReq b } t
  refine .lands (p := { h := h, body := .openReq b }) rfl ha ?_
  simp only [hd, endpTile, State.openAt, e, Tile.takes_rotated, Tile.queue_rotated, ht, beq_eq_false_iff_ne.mpr hs, Bool.not_true, Bool.not_false,
    Bool.false_eq_true, if_false, if_true]
  exact State.sent_status ..

theorem open_granted (hs : ((s.tile t).queue b.queue).state = 1)
    (hst : (s.tile t).q.grants.filter (fun e => e.2.from_.tile == s.sourceTile h.src && !(e.2.from_.gen == b.gen)) = [])
    (hn : (s.tile t).q.grants.length < 256)
    (hl : bits ((s.tile t).queue b.queue).cfg 7 0 = 0 ∨ (s.tile t).senders b.queue < bits ((s.tile t).queue b.queue).cfg 7 0)
    (hf : ((s.tile t).queue b.queue).kind = 0 → 0 < (s.tile t).ringFree b.queue) :
    Does (.openArrives h b) s (fun u => ∃ g, Sent u h.src (.grant g) ∧
      g.credits = (if ((s.tile t).queue b.queue).kind = 0 then min b.credits ((s.tile t).ringFree b.queue) else b.credits) ∧
      g.kind = ((s.tile t).queue b.queue).kind ∧ g.gen = (s.tile t).gen ∧ g.ref = ⟨b.queue, ((s.tile t).queue b.queue).qinc, b.ctx⟩) := by
  obtain ⟨x, y, e⟩ := s.tile_took { h := h, body := .openReq b } t
  have live : ((s.tile t).rotated x y).endStale (s.sourceTile h.src) b.gen = (s.tile t).rotated x y := by
    simp only [Tile.endStale, Tile.grants_rotated, hst, List.foldl_nil]
  have room : (!(bits ((s.tile t).queue b.queue).cfg 7 0 == 0) && decide (bits ((s.tile t).queue b.queue).cfg 7 0 ≤ (s.tile t).senders b.queue)) = false := by
    rcases hl with hl | hl
    · simp [hl]
    · simp [Nat.not_le.mpr hl]
  have ring : ¬ (((s.tile t).queue b.queue).kind = 0 ∧ (s.tile t).ringFree b.queue = 0) := fun ⟨h1, h2⟩ => absurd (hf h1) (by omega)
  have least : (if b.credits < (s.tile t).ringFree b.queue then b.credits else (s.tile t).ringFree b.queue) = min b.credits ((s.tile t).ringFree b.queue) := by
    split <;> omega
  refine .lands (p := { h := h, body := .openReq b }) rfl ha ?_
  simp only [hd, endpTile, State.openAt, e, Tile.takes_rotated, Tile.queue_rotated, ht, hs, State.sourceTile_took, live, Tile.grants_rotated,
    Tile.senders_rotated, Tile.ringFree_rotated, Nat.not_le.mpr hn, room, ring, decide_false, Bool.or_self, beq_self_eq_true, Bool.not_true, Bool.false_eq_true,
    if_false, least]
  exact ⟨_, State.sent_send .., rfl, rfl, rfl, rfl⟩

end

/-! ## Probes (R227) -/

theorem probe_answered {b : ProbeBody} (ha : Arrives s h (.probe b)) (ht : (s.tile t).takes h.dstGen false = true) :
    Does (.probe h b) s (fun u => Sent u h.src (.status (.probe ⟨b.queue, b.qinc, b.ctx⟩)
      (if ((s.tile t).queue b.queue).state = 1 ∧ ((s.tile t).queue b.queue).qinc = b.qinc ∧
        ((s.tile t).record b.queue (s.sourceTile h.src) b.ctx (some b.gen)).isSome = true then stOk else stClosed))) := by
  obtain ⟨x, y, e⟩ := s.tile_took { h := h, body := .probe b } t
  refine .lands (p := { h := h, body := .probe b }) rfl ha ?_
  simp only [hd, endpTile, e, Tile.takes_rotated, Tile.queue_rotated, Tile.record_rotated, State.sourceTile_took, ht, Bool.not_true, Bool.false_eq_true,
      if_false,
    Bool.and_eq_true, beq_iff_eq, and_assoc]
  exact State.sent_status ..

/-! ## GRANT at a sender (R219) -/

section
variable {b : GrantBody} (ha : Arrives s h (.grant b)) (hok : (s.tile t).answerOk h = true) (hs : ((s.tile t).ctx b.ref.ctx).state = 1)
  (hq : ((s.tile t).ctx b.ref.ctx).queue = b.ref.queue) (hh : ((s.tile t).ctx b.ref.ctx).hears h.src = true)
include ha hok hs hq hh

theorem grant_opens (hp : ((s.tile t).ctx b.ref.ctx).closePending = false) :
    Does (.grant h b) s (fun u => ((u.tile t).ctx b.ref.ctx).state = 2 ∧ ((u.tile t).ctx b.ref.ctx).credits = b.credits ∧
      ((u.tile t).ctx b.ref.ctx).qinc = b.ref.qinc ∧ ((u.tile t).ctx b.ref.ctx).peerGen = b.gen ∧
      ∀ k, (s.tile t).awaiting .qopen b.ref.ctx = some k → Completed s u t k.a stOk b.ref.ctx) := by
  obtain ⟨x, y, e⟩ := s.tile_took { h := h, body := .grant b } t
  refine .lands (p := { h := h, body := .grant b }) rfl ha ?_
  simp only [hd, endpTile, e, Tile.answerOk_rotated, Tile.ctx_rotated, Tile.awaiting_rotated, hok, hs, hq, hh, hp, beq_self_eq_true, Bool.and_self,
      Bool.not_true,
    Bool.or_self, Bool.false_eq_true, if_false]
  generalize hu : (s.took { h := h, body := .grant b }).setTile t _ = u
  have tile : ∃ z : Ctx, (z.state = 2 ∧ z.credits = b.credits ∧ z.qinc = b.ref.qinc ∧ z.peerGen = b.gen) ∧
      u.tile t = ((s.tile t).rotated x y).setCtx b.ref.ctx z := ⟨_, ⟨rfl, rfl, rfl, rfl⟩, by rw [← hu, State.tile_setTile]⟩
  obtain ⟨z, ⟨h1, h2, h3, h4⟩, tile⟩ := tile
  have hz : (u.tile t).ctx b.ref.ctx = z := by rw [tile, Tile.ctx_setCtx]
  cases hw : (s.tile t).awaiting .qopen b.ref.ctx with
  | none => exact ⟨hz ▸ h1, hz ▸ h2, hz ▸ h3, hz ▸ h4, fun k hk => absurd hk (by simp)⟩
  | some k =>
    obtain ⟨c, w, e'⟩ := u.tile_finish_rest t k.a stOk b.ref.ctx 4
    have hz' : ((u.finish t k.a stOk b.ref.ctx 4).tile t).ctx b.ref.ctx = z := by
      rw [e']
      exact hz
    refine ⟨hz' ▸ h1, hz' ▸ h2, hz' ▸ h3, hz' ▸ h4, fun k' hk => ?_⟩
    obtain rfl := Option.some.inj hk
    refine completed_stalled ?_
    rw [tile]
    rfl

theorem grant_closed (hp : ((s.tile t).ctx b.ref.ctx).closePending = true) : Does (.grant h b) s (fun u => ((u.tile t).ctx b.ref.ctx).state = 0) := by
  obtain ⟨x, y, e⟩ := s.tile_took { h := h, body := .grant b } t
  refine .lands (p := { h := h, body := .grant b }) rfl ha ?_
  simp only [hd, endpTile, e, Tile.answerOk_rotated, Tile.ctx_rotated, hok, hs, hq, hh, hp, beq_self_eq_true, Bool.and_self, Bool.not_true,
    Bool.or_self, Bool.false_eq_true, if_false, if_true, State.tile_modTile, Tile.ctx_setCtx]

end

/-! ## CREDIT (R223) -/

theorem credit_returns {b : CreditBody} (ha : Arrives s h (.credit b)) (hok : (s.tile t).answerOk h = true) (hc : (s.tile t).onConn h.src b.ref = true)
    (hg : ((s.tile t).ctx b.ref.ctx).peerGen = b.gen) (he : (s.took { h := h, body := .credit b }).ending t b.ref.ctx true = false) :
    Does (.connectionCredit h b) s (fun u => ((u.tile t).ctx b.ref.ctx).credits =
      satAdd ((s.tile t).ctx b.ref.ctx).granted ((s.tile t).ctx b.ref.ctx).credits b.count) := by
  obtain ⟨x, y, e⟩ := s.tile_took { h := h, body := .credit b } t
  refine .lands (p := { h := h, body := .credit b }) rfl ha ?_
  simp only [hd, endpTile, e, Tile.answerOk_rotated, Tile.onConn_rotated, Tile.ctx_rotated, hok, hc, hg, he, beq_self_eq_true, Bool.and_self, Bool.not_false,
      if_true,
    State.tile_setTile, Tile.ctx_setCtx]

/-! ## Records that end -/

omit hd in
@[simp] theorem Tile.grants_setQueue (tl : Tile) (q : Nat) (v : RQueue) : (tl.setQueue q v).q.grants = tl.q.grants := rfl

omit hd in
@[simp] theorem Tile.grants_addDrop (tl : Tile) (n : Nat) : (tl.addDrop n).q.grants = tl.q.grants := rfl

omit hd in
@[simp] theorem Tile.grants_setLost (tl : Tile) (q : Nat) : (tl.setLost q).q.grants = tl.q.grants := rfl

omit hd in
/-- A record that has ended is none. -/
theorem Tile.find_endRecord (tl : Tile) (i : Nat) (g : Grant) (marker : Bool) : (tl.endRecord i g marker).q.grants.find i = none := by
  have dropped : (tl.dropRecord i g).q.grants.find i = none := Tab.find_erase ..
  unfold Tile.endRecord
  dsimp only
  (repeat' split) <;> simpa using dropped

omit hd in
/-- What a queue's signal leaves of its tile. -/
theorem State.sameButCore_queueSignal (s : State) (t : TileId) (q : Nat) : (s.tile t).SameButCore ((s.queueSignal t q).tile t) := by
  unfold State.queueSignal
  dsimp only
  split
  · exact s.sameButCore_signalLocal ..
  · exact ⟨_, _, _, rfl⟩

/-! ## MESSAGE (R222) -/

section
variable {b : MsgBody} (ha : Arrives s h (.message b)) (ht : (s.tile t).takes h.dstGen false = true)
include ha ht

theorem message_dropped (hn : ¬ (((s.tile t).queue b.ref.queue).state = 1 ∧ ((s.tile t).queue b.ref.queue).qinc = b.ref.qinc ∧
      ((s.tile t).queue b.ref.queue).kind = 0)) :
    Does (.message h b) s (fun u => Sent u h.src (.status (.conn b.ref) stClosed)) := by
  obtain ⟨x, y, e⟩ := s.tile_took { h := h, body := .message b } t
  have hno : (((s.tile t).queue b.ref.queue).state == 1 && ((s.tile t).queue b.ref.queue).qinc == b.ref.qinc && ((s.tile t).queue b.ref.queue).kind == 0) = false := by
    rw [Bool.eq_false_iff]
    simpa [and_assoc] using hn
  refine .lands (p := { h := h, body := .message b }) rfl ha ?_
  simp only [hd, endpTile, e, Tile.takes_rotated, Tile.queue_rotated, ht, hno, Bool.not_true, Bool.not_false, Bool.false_eq_true, if_false, if_true]
  exact State.sent_status ..

variable (hq : ((s.tile t).queue b.ref.queue).state = 1 ∧ ((s.tile t).queue b.ref.queue).qinc = b.ref.qinc ∧ ((s.tile t).queue b.ref.queue).kind = 0)
  {i : Nat} {g : Grant} (hr : (s.tile t).record b.ref.queue (s.sourceTile h.src) b.ref.ctx (some b.gen) = some (i, g))
include hq hr

theorem message_lands (hsq : b.seq = g.seq) :
    Does (.message h b) s (fun u => Sent u h.src (.status (.conn b.ref) stOk) ∧
      (g.closing = none → ∃ slot, ((u.tile t).queue b.ref.queue).entries =
        ((s.tile t).queue b.ref.queue).entries ++ [.msg slot b.data.length g.from_ true])) := by
  obtain ⟨x, y, e⟩ := s.tile_took { h := h, body := .message b } t
  obtain ⟨hs, hi, hk⟩ := hq
  refine .lands (p := { h := h, body := .message b }) rfl ha ?_
  simp only [hd, endpTile, e, Tile.takes_rotated, Tile.queue_rotated, Tile.record_rotated, State.sourceTile_took, ht, hs, hi, hk, hr, hsq, beq_self_eq_true,
    Bool.and_self, Bool.not_true, Bool.false_eq_true, if_false, if_true]
  refine ⟨State.sent_status .., fun hc => ⟨(((s.tile t).queue b.ref.queue).ringHead + ((s.tile t).queue b.ref.queue).msgs) %
    ((s.tile t).handle ((s.tile t).queue b.ref.queue).handle).length, ?_⟩⟩
  simp only [State.landMessage, hc, State.connStatus, State.status, State.tile_send, e]
  generalize hM : (s.took { h := h, body := .message b }).setTile t _ = M
  obtain ⟨c, w, z, e'⟩ := M.sameButCore_queueSignal t b.ref.queue
  rw [e', ← hM, State.tile_setTile]
  exact congrArg RQueue.entries (Tile.queue_setQueue ..)

theorem message_outOfSequence (hsq : b.seq ≠ g.seq) :
    Does (.message h b) s (fun u => Sent u h.src (.status (.conn b.ref) stClosed) ∧ (u.tile t).q.grants.find i = none) := by
  obtain ⟨x, y, e⟩ := s.tile_took { h := h, body := .message b } t
  obtain ⟨hs, hi, hk⟩ := hq
  refine .lands (p := { h := h, body := .message b }) rfl ha ?_
  simp only [hd, endpTile, e, Tile.takes_rotated, Tile.queue_rotated, Tile.record_rotated, State.sourceTile_took, ht, hs, hi, hk, hr, hsq, beq_self_eq_true,
    Bool.and_self, Bool.not_true, Bool.false_eq_true, if_false]
  refine ⟨State.sent_status .., ?_⟩
  rw [State.connStatus, State.status, State.tile_send, State.tile_event, State.tile_modTile, Tile.grants_setLost, Tile.grants_addDrop]
  exact Tile.find_endRecord ..

end

/-! ## CLOSE (R224, R225) -/

section
variable {b : CloseBody}

theorem notice_closes (ha : Arrives s h (.close 1 b)) (ht : (s.tile t).takes h.dstGen h.far.isSome = true) (hc : (s.tile t).onConn h.src b.ref = true) :
    Does (.readerNotice h b) s (fun u => ((u.tile t).ctx b.ref.ctx).state = 3 ∧ ((u.tile t).ctx b.ref.ctx).credits = 0) := by
  obtain ⟨x, y, e⟩ := s.tile_took { h := h, body := .close 1 b } t
  refine .lands (p := { h := h, body := .close 1 b }) rfl ha ?_
  simp only [hd, endpTile, e, Tile.takes_rotated, Tile.onConn_rotated, ht, hc, Bool.not_true, Bool.false_eq_true, if_false, if_true, State.ctxClosed]
  generalize hu : (s.took { h := h, body := .close 1 b }).modTile t _ = u
  have tile : ∃ z : Ctx, (z.state = 3 ∧ z.credits = 0) ∧ (u.tile t).ctx b.ref.ctx = z :=
    ⟨_, ⟨rfl, rfl⟩, by rw [← hu, State.tile_modTile, Tile.ctx_setCtx]⟩
  obtain ⟨z, hz, tile⟩ := tile
  have ends : ((u.endSend t b.ref.ctx stClosed).tile t).q = (u.tile t).q := by
    unfold State.endSend
    split
    · rename_i k _
      split
      · obtain ⟨c, w, e'⟩ := u.tile_finish_rest t k.a stClosed 0 0
        rw [e']
      · rfl
    · rfl
  rw [Tile.ctx_of_q ends, tile]
  exact hz

omit hd in
/-- The record a CLOSE names is the same as it is taken. -/
theorem State.closeRecord_took (p : Pkt) : (s.took p).closeRecord t h b = s.closeRecord t h b := by
  obtain ⟨x, y, e⟩ := s.tile_took p t
  simp only [State.closeRecord, e, Tile.queue_rotated, Tile.record_rotated, State.sourceTile_took]

variable {i : Nat} {g : Grant} (ht : (s.tile t).takes h.dstGen false = true) (hr : s.closeRecord t h b = some (i, g))
include ht hr

theorem close_ends (ha : Arrives s h (.close 0 b)) (hg : ((s.tile t).queue g.queue).kind ≠ 0 ∨ g.seq = b.seq) :
    Does (.senderClose h b) s (fun u => (u.tile t).q.grants.find i = none) := by
  obtain ⟨x, y, e⟩ := s.tile_took { h := h, body := .close 0 b } t
  have done : (!(((s.tile t).queue g.queue).kind == 0) || g.seq == b.seq) = true := by
    rcases hg with hg | hg <;> simp [hg]
  refine .lands (p := { h := h, body := .close 0 b }) rfl ha ?_
  simp only [hd, endpTile, e, Tile.takes_rotated, Tile.queue_rotated, State.closeRecord_took, ht, hr, done, Bool.not_true, Bool.false_eq_true, if_false,
      if_true,
    State.tile_setTile]
  exact Tile.find_endRecord ..

theorem close_waits (ha : Arrives s h (.close 0 b)) (hk : ((s.tile t).queue g.queue).kind = 0) (hg : g.seq ≠ b.seq) :
    Does (.senderClose h b) s (fun u => (u.tile t).q.grants.find i = some { g with closing := some (b.seq, s.time) }) := by
  obtain ⟨x, y, e⟩ := s.tile_took { h := h, body := .close 0 b } t
  refine .lands (p := { h := h, body := .close 0 b }) rfl ha ?_
  simp only [hd, endpTile, e, Tile.takes_rotated, Tile.queue_rotated, State.closeRecord_took, ht, hr, hk, beq_eq_false_iff_ne.mpr hg, beq_self_eq_true,
      Bool.not_true,
    Bool.or_self, Bool.false_eq_true, if_false, State.tile_setTile, State.time_took, Tab.find_put_same]

theorem closeAfterLoss_ends (ha : Arrives s h (.close 2 b)) : Does (.closeAfterLoss h b) s (fun u => (u.tile t).q.grants.find i = none) := by
  obtain ⟨x, y, e⟩ := s.tile_took { h := h, body := .close 2 b } t
  refine .lands (p := { h := h, body := .close 2 b }) rfl ha ?_
  simp only [hd, endpTile, e, Tile.takes_rotated, State.closeRecord_took, ht, hr, Bool.not_true, Bool.false_eq_true, if_false, State.tile_setTile]
  exact Tile.find_endRecord ..

end
end

/-! ## The timers of records and probes (R224, R227) -/

section
variable {s : State} {t : TileId}

theorem recordTimeout_ends {r seq at_ : Nat} {g : Grant} (hr : (s.tile t).q.grants.find r = some g) (hc : g.closing = some (seq,
    at_)) (hl : at_ + 250000 ≤ s.time) :
    Does (.recordTimeout t r) s (fun u => (u.tile t).q.grants.find r = none) := by
  have hdo : exec (.recordTimeout t r) s = execRecordTimeout t r s := rfl
  simp only [execRecordTimeout, hr, hc, recordWait, hl, if_true] at hdo
  refine .of_next hdo ?_
  rw [State.tile_event, State.tile_setTile]
  exact Tile.find_endRecord ..

/-- The dock a tile enters at rests on where tiles are, the mesh, the ports and which fields run. -/
theorem State.ingressEnd_congr {u : State} (hp : ∀ v, (u.tile v).present = (s.tile v).present) (hm : u.mesh = s.mesh) (hports : u.ports = s.ports)
    (hf : u.fields = s.fields) (w : Nat) : u.ingressEnd t w = s.ingressEnd t w := by
  have hmap : u.onMap = s.onMap := by
    funext v
    simp only [State.onMap, State.good, hp, hm]
  have hgate : u.gateOn = s.gateOn := by
    funext j g
    simp only [State.gateOn, hmap]
  have hdock (p : Nat) : u.dockOn p = s.dockOn p := by
    simp only [State.dockOn, State.keepUp, State.cutOffKeep, hgate, hmap, State.field, hf]
  simp only [State.ingressEnd, hdock, State.nearest, hmap, State.route, hm, hports]

/-- So does the header of a packet of a context. -/
theorem State.connHdr_modTile {g : Tile → Tile} (hg : ∀ tl, (g tl).present = tl.present) (v : TileId) (x : Ctx) (gen : Nat) :
    (s.modTile t g).connHdr v x gen = s.connHdr v x gen := by
  have hp (w : TileId) : ((s.modTile t g).tile w).present = (s.tile w).present := by
    rw [State.tile_modTile_ite]
    split
    · exact hg _
    · rfl
  simp only [State.connHdr, State.ingressEnd_congr (s := s) (u := s.modTile t g) hp rfl rfl rfl, State.farTo]
  rfl

theorem connProbe_sends {st : Stream} {c since : Nat} (hc : (s.tile t).creditStall st = some (c, since)) (hs : ((s.tile t).ctx c).state = 2)
    (hp : ∀ p, ((s.tile t).ctx c).probeAt = some p → p + (s.tile t).probeTicks ≤ s.run t) (hl : since + (s.tile t).probeTicks ≤ s.run t) :
    Does (.connProbe t st) s (fun u => ((u.tile t).ctx c).probeAt = some (s.run t) ∧
      Sent u (s.connHdr t ((s.tile t).ctx c) ((s.tile t).ctx c).peerGen).dst
        (.probe { ctx := c, queue := ((s.tile t).ctx c).queue, gen := (s.tile t).gen, qinc := ((s.tile t).ctx c).qinc })) := by
  generalize hx : (s.tile t).ctx c = x at hs hp ⊢
  have sends : execConnProbe t st s = .next ((s.modTile t fun tl => tl.setCtx c { x with probeAt := some (s.run t) }).sendRequest t
      (s.connHdr t x x.peerGen) (.probe { ctx := c, queue := x.queue, gen := (s.tile t).gen, qinc := x.qinc })) := by
    unfold execConnProbe
    simp only [hc, hx]
    refine congrArg Host.Outcome.next ((if_pos ⟨hs, ?_⟩).trans ?_)
    · rw [← State.connHdr_modTile (s := s) (t := t) (g := fun tl => tl.setCtx c { x with probeAt := some (s.run t) }) (fun _ => rfl)]
      rfl
    · cases h : x.probeAt with
      | none => exact hl
      | some p =>
        have := hp p h
        show (if since < p then p else since) + _ ≤ _
        split <;> omega
  refine .of_next (c := .connProbe t st) sends ⟨?_, State.sent_sendRequest ..⟩
  rw [Tile.ctx_of_q (State.q_sendRequest ..), State.tile_modTile, Tile.ctx_setCtx]

end

/-- Settles O10: each packet of a connection as it arrives, and the two timers. -/
theorem connectionPacketsArrive : Obligations.ConnectionPacketsArrive := by
  unfold Obligations.ConnectionPacketsArrive
  intro s t h hd
  refine ⟨fun b ha => ⟨open_refused hd ha, open_lost hd ha, open_granted hd ha⟩, fun b => probe_answered hd,
    fun b ha hok hs hq hh => ⟨grant_opens hd ha hok hs hq hh, grant_closed hd ha hok hs hq hh⟩, fun b => credit_returns hd,
    fun b ha ht => ⟨fun hq i g hr => ⟨message_lands hd ha ht hq hr, message_outOfSequence hd ha ht hq hr⟩, message_dropped hd ha ht⟩,
    fun b => notice_closes hd, fun b i g ha ht hr => ⟨close_ends hd ht hr ha, close_waits hd ht hr ha⟩,
    fun b i g ha ht hr => closeAfterLoss_ends hd ht hr ha, fun r g seq at_ => recordTimeout_ends, fun st c since => connProbe_sends⟩

end Sys2Proof.Machine
end

section
/-! PROOFS. What passes between a thief and a home (O9). -/

namespace Sys2Proof.Machine

section
variable (tl : Tile) (a b : Nat)

@[simp] theorem Tile.engine_rotated (e : Nat) : (tl.rotated a b).engine e = tl.engine e := rfl
@[simp] theorem Tile.out_rotated : (tl.rotated a b).forage.out = tl.forage.out := rfl
@[simp] theorem Tile.askedBy_rotated (tag : Nat) : (tl.rotated a b).askedBy tag = tl.askedBy tag := rfl
@[simp] theorem Tile.shortest_rotated : (tl.rotated a b).shortest = tl.shortest := rfl
@[simp] theorem Tile.frozen_setEngine (e : Nat) (g : Engine) : (tl.setEngine e g).frozen = tl.frozen := rfl
@[simp] theorem Tile.st_setEngine (e : Nat) (g : Engine) : (tl.setEngine e g).st = tl.st := rfl
@[simp] theorem Tile.engine_setEngine (e : Nat) (g : Engine) : (tl.setEngine e g).engine e = g := Tab.getD_put_same ..
@[simp] theorem Tile.frozen_rotated : (tl.rotated a b).frozen = tl.frozen := rfl
@[simp] theorem Tile.st_rotated : (tl.rotated a b).st = tl.st := rfl
@[simp] theorem Tile.mayServe_rotated (domain : Nat) : (tl.rotated a b).mayServe domain = tl.mayServe domain := rfl
@[simp] theorem Tile.mayGive_rotated (e : Nat) : (tl.rotated a b).mayGive e = tl.mayGive e := rfl
@[simp] theorem Tile.operand_rotated (d : Desc) (w : Nat) : (tl.rotated a b).operand d w = tl.operand d w := rfl
@[simp] theorem Tile.lateStatus_rotated (g : Nat) : (tl.rotated a b).lateStatus g = tl.lateStatus g := rfl

end

theorem State.outEntry_took {s : State} {t : TileId} (p : Pkt) (h : Hdr) (e g u : Nat) : (s.took p).outEntry t h e g u = s.outEntry t h e g u := by
  obtain ⟨x, y, e'⟩ := s.tile_took p t
  simp only [State.outEntry, e', State.sourceTile_took]
  rfl

/-! ## A home that hands out a unit (R58) -/

/-- A greatest of the values over a list is one of them. -/
theorem exists_mem_eq_greatest {f : Nat → Nat} {l : List Nat} (h : l ≠ []) : ∃ v ∈ l, f v = l.foldl (fun m v => if m < f v then f v else m) 0 := by
  have key (l : List Nat) : ∀ m, (l.foldl (fun m v => if m < f v then f v else m) m = m ∧ ∀ v ∈ l, f v ≤ m) ∨
      ∃ v ∈ l, f v = l.foldl (fun m v => if m < f v then f v else m) m := by
    induction l with
    | nil => exact fun m => .inl ⟨rfl, by simp⟩
    | cons x l ih =>
      intro m
      rw [List.foldl_cons]
      by_cases hx : m < f x
      · rw [if_pos hx]
        rcases ih (f x) with ⟨h1, -⟩ | ⟨v, hv, h2⟩
        · exact .inr ⟨x, by simp, h1.symm⟩
        · exact .inr ⟨v, by simp [hv], h2⟩
      · rw [if_neg hx]
        rcases ih m with ⟨h1, h3⟩ | ⟨v, hv, h2⟩
        · refine .inl ⟨h1, fun v hv => ?_⟩
          rcases List.mem_cons.mp hv with rfl | hv
          · omega
          · exact h3 v hv
        · exact .inr ⟨v, by simp [hv], h2⟩
  rcases key l 0 with ⟨h1, h2⟩ | h1
  · obtain ⟨v, hv⟩ := List.exists_mem_of_ne_nil l h
    exact ⟨v, hv, by rw [h1]; exact Nat.le_zero.mp (h2 v hv)⟩
  · exact h1

theorem mem_nth {l : List Nat} {i d : Nat} (h : i < l.length) : nth l i d ∈ l := by
  rw [nth, List.getD_eq_getElem _ _ h]
  exact List.getElem_mem h

theorem Tile.tail_of_mayGive {tl : Tile} {e : Nat} (h : tl.mayGive e = true) : ∃ u, tl.tail e = some u := by
  cases ht : tl.tail e with
  | none => simp [Tile.mayGive, ht] at h
  | some u => exact ⟨u, rfl⟩

/-- A home with a unit to give gives one, and keeps its entry. -/
theorem State.giveUnit_spec {s : State} {t : TileId} (thief : TileId) (h : (upto 8).any (s.tile t).mayGive = true) :
    ∃ x u, s.giveUnit t thief = (some x, u) ∧ (u.tile t).forage.out.find x.entry = some { unit := x.unit, since := s.run t, thief := thief } ∧
      (u.tile t).forage.stealOut = (s.tile t).forage.stealOut + 1 := by
  obtain ⟨e0, h0, hg⟩ := List.any_eq_true.mp h
  have hne : (upto 8).filter (s.tile t).mayGive ≠ [] := List.ne_nil_of_mem (List.mem_filter.mpr ⟨h0, hg⟩)
  have hgive : ∀ v ∈ (upto 8).filter (s.tile t).mayGive, (s.tile t).mayGive v = true := fun v hv => (List.mem_filter.mp hv).2
  unfold State.giveUnit
  dsimp only
  generalize (upto 8).filter (s.tile t).mayGive = ok at hne hgive ⊢
  obtain ⟨v, hv, hbest⟩ := exists_mem_eq_greatest (f := (s.tile t).occ) hne
  generalize ok.foldl _ 0 = best at hbest ⊢
  generalize hties : ok.filter (fun v => (s.tile t).occ v == best) = ties
  have hties0 : 0 < ties.length := List.length_pos_of_mem (a := v) (by rw [← hties]; exact List.mem_filter.mpr ⟨hv, by simp [hbest]⟩)
  generalize hp : (if 2 ≤ ties.length then s.freeVal else ((0 : Word), s)) = p
  have hrun : p.2.run t = s.run t := by
    rw [← hp]
    split <;> rfl
  obtain ⟨pick, s'⟩ := p
  have hmem : nth ties (pick.toNat % ties.length) 0 ∈ ok := by
    have := mem_nth (d := 0) (Nat.mod_lt pick.toNat hties0)
    rw [← hties] at this ⊢
    exact (List.mem_filter.mp this).1
  generalize nth ties (pick.toNat % ties.length) 0 = e at hmem
  obtain ⟨u, hu⟩ := Tile.tail_of_mayGive (hgive e hmem)
  cases ok with
  | nil => exact absurd rfl hne
  | cons o os =>
    simp only [hu]
    refine ⟨_, _, rfl, ?_, ?_⟩
    · rw [State.tile_setTile, ← hrun]
      exact Tab.find_put_same ..
    · rw [State.tile_setTile]
      rfl

/-! ## A thief that gets a unit (R46, R59) -/

/-- The thief's tile with the unit it got at the end of a deque. -/
def Tile.stole (tl : Tile) (e : Nat) (u : FUnit) (now : Nat) : Tile :=
  let tl := tl.setEngine e { tl.engine e with search := none }
  let tl := tl.enqueue (if e = coreThief then tl.shortest else e) u now
  { tl with forage := { tl.forage with stealIn := tl.forage.stealIn + 1 } }

@[simp] theorem Tile.stealIn_stole (tl : Tile) (e : Nat) (u : FUnit) (now : Nat) : (tl.stole e u now).forage.stealIn = tl.forage.stealIn + 1 := rfl
@[simp] theorem Tile.core_stole (tl : Tile) (e : Nat) (u : FUnit) (now : Nat) : (tl.stole e u now).core = tl.core := rfl

theorem Tile.engine_stole {e : Nat} (h : e ≠ coreThief) (tl : Tile) (u : FUnit) (now : Nat) :
    ((tl.stole e u now).engine e).deque = (tl.engine e).deque ++ [u] ∧ ((tl.stole e u now).engine e).search = none := by
  have he : (tl.stole e u now).engine e = { tl.engine e with search := none, deque := (tl.engine e).deque ++ [u], pushedAt := some now } := by
    unfold Tile.stole
    simp only [h, if_false, Tile.enqueue, Tile.engine_setEngine]
    exact Tab.getD_put_same ..
  rw [he]
  exact ⟨rfl, rfl⟩

section
variable {s : State} {t : TileId} (hf : (s.tile t).frozen = false) (hst : (s.tile t).st = .admitted)
include hf hst

theorem State.stealGot_engine {e : Nat} (h : e ≠ coreThief) (x : StolenUnit) :
    s.stealGot t e x = s.setTile t ((s.tile t).stole e { x.unit with stolen := some (x.entry, x.mode) } (s.cycles t)) := by
  simp only [State.stealGot, Tile.frozen_setEngine, Tile.st_setEngine, hf, hst, h, beq_self_eq_true, Bool.not_true, Bool.or_self, Bool.false_eq_true, if_false,
    Tile.stole]

theorem State.stealGot_core {k : Stall} (hw : (s.tile t).awaiting .fsteal 0 = some k) (x : StolenUnit) :
    s.stealGot t coreThief x = (s.setTile t ((s.tile t).stole coreThief { x.unit with stolen := some (x.entry, x.mode) } (s.cycles t))).finish t k.a stOk
      (x.unit.unitId % 65536) 2 := by
  have hw' (u : FUnit) (n : Nat) : ((s.tile t).stole coreThief u n).awaiting .fsteal 0 = some k := hw
  simp only [Tile.stole, if_true] at hw'
  simp only [State.stealGot, Tile.frozen_setEngine, Tile.st_setEngine, hf, hst, beq_self_eq_true, Bool.not_true, Bool.or_self, Bool.false_eq_true, if_false,
    if_true, hw', Tile.stole]

end

/-- A request for a unit leaves the candidates that remain. -/
theorem State.search_askSteal (s : State) (t : TileId) (e : Nat) (v : TileId) (rest : List TileId) :
    (((s.askSteal t e v rest).tile t).engine e).search = some rest := by
  have sends (u : State) (h : Hdr) (body : Body) : ((u.sendRequest t h body).tile t).forage = (u.tile t).forage := by
    obtain ⟨y, hy⟩ := u.tile_sendTagged t h body (fun u => u)
    rw [State.sendRequest, hy]
  rw [State.askSteal, Tile.engine_of_forage (sends ..), State.tile_setTile, Tile.engine_setEngine]

/-! ## Steal requests and their answers at a tile -/

section
variable {s : State} {t : TileId} {h : Hdr} (hd : h.dst = .tile t)
include hd

section
variable {engine domain gen : Nat} (ha : Arrives s h (.steal engine domain gen))
include ha

theorem steal_lost (ht : (s.tile t).takes h.dstGen true = false) :
    Does (.steal h engine domain gen) s (fun u => Sent u h.src (.status (.steal engine) stPeerLost)) := by
  obtain ⟨x, y, e⟩ := s.tile_took { h := h, body := .steal engine domain gen } t
  refine .lands (p := { h := h, body := .steal engine domain gen }) rfl ha ?_
  simp only [hd, endpTile, e, Tile.takes_rotated, ht, Bool.not_false, if_true]
  exact State.sent_status ..

variable (ht : (s.tile t).takes h.dstGen true = true)
include ht

theorem steal_refused (hm : (s.tile t).mayServe domain = false) :
    Does (.steal h engine domain gen) s (fun u => Sent u h.src (.stealReply none) ∧
      u.tile t = (s.took { h := h, body := .steal engine domain gen }).tile t) := by
  obtain ⟨x, y, e⟩ := s.tile_took { h := h, body := .steal engine domain gen } t
  refine .lands (p := { h := h, body := .steal engine domain gen }) rfl ha ?_
  simp only [hd, endpTile, e, Tile.takes_rotated, Tile.mayServe_rotated, ht, hm, Bool.not_true, Bool.false_eq_true, if_false]
  exact ⟨State.sent_send .., by rw [State.tile_send, e]⟩

theorem steal_served (hm : (s.tile t).mayServe domain = true) (hg : (upto 8).any (s.tile t).mayGive = true) :
    Does (.steal h engine domain gen) s (fun u => ∃ x, Sent u h.src (.stealReply (some x)) ∧
      (u.tile t).forage.out.find x.entry = some { unit := x.unit, since := s.run t, thief := s.sourceTile h.src } ∧
      (u.tile t).forage.stealOut = (s.tile t).forage.stealOut + 1) := by
  obtain ⟨x, y, e⟩ := s.tile_took { h := h, body := .steal engine domain gen } t
  obtain ⟨z, u, hu, hfind,
      hout⟩ := State.giveUnit_spec (s := s.took { h := h, body := .steal engine domain gen }) (t := t) (s.sourceTile h.src) (by rw [e]; exact hg)
  rw [State.run_took] at hfind
  rw [e] at hout
  refine .lands (p := { h := h, body := .steal engine domain gen }) rfl ha ?_
  simp only [hd, endpTile, e, Tile.takes_rotated, Tile.mayServe_rotated, State.sourceTile_took, ht, hm, Bool.not_true, Bool.false_eq_true, if_false, if_true,
      hu]
  exact ⟨z, State.sent_send .., hfind, hout⟩

end

/-! ### A reply at the thief -/

section
variable {e : Nat} {x : StolenUnit} (ha : Arrives s h (.stealReply (some x))) (hok : (s.tile t).answerOk h = true) (he : (s.tile t).askedBy h.tag = some e)
include ha hok he

theorem stealReply_got : exec (.stealReply h (some x)) s = .next ((s.took { h := h, body := .stealReply (some x) }).stealGot t e x) := by
  obtain ⟨a, b, e'⟩ := s.tile_took { h := h, body := .stealReply (some x) } t
  have hex : exec (.stealReply h (some x)) s = execStealReply h (some x) s := rfl
  rw [hex]
  simp only [execStealReply, State.landing_arrives (p := { h := h, body := .stealReply (some x) }) ha, hd, endpTile, e', Tile.answerOk_rotated,
      Tile.askedBy_rotated,
    hok, he, Bool.not_true, Bool.false_eq_true, if_false]

variable (hf : (s.tile t).frozen = false) (hst : (s.tile t).st = .admitted)
include hf hst

theorem stealReply_queues (h8 : e < 8) : Does (.stealReply h (some x)) s (fun u =>
    ((u.tile t).engine e).deque = ((s.tile t).engine e).deque ++ [{ x.unit with stolen := some (x.entry, x.mode) }] ∧
    ((u.tile t).engine e).search = none ∧ (u.tile t).forage.stealIn = (s.tile t).forage.stealIn + 1) := by
  obtain ⟨a, b, e'⟩ := s.tile_took { h := h, body := .stealReply (some x) } t
  refine .of_next (stealReply_got hd ha hok he) ?_
  rw [State.stealGot_engine (by rw [e']; exact hf) (by rw [e']; exact hst) (Nat.ne_of_lt h8), State.tile_setTile, e']
  obtain ⟨h1, h2⟩ := ((s.tile t).rotated a b).engine_stole (Nat.ne_of_lt h8) { x.unit with stolen := some (x.entry, x.mode) }
    ((s.took { h := h, body := .stealReply (some x) }).cycles t)
  exact ⟨h1, h2, rfl⟩

theorem stealReply_completes {k : Stall} (h8 : e = coreThief) (hw : (s.tile t).awaiting .fsteal 0 = some k) :
    Does (.stealReply h (some x)) s (fun u => Completed s u t k.a stOk (x.unit.unitId % 65536) ∧
      (u.tile t).forage.stealIn = (s.tile t).forage.stealIn + 1) := by
  obtain ⟨a, b, e'⟩ := s.tile_took { h := h, body := .stealReply (some x) } t
  refine .of_next (stealReply_got hd ha hok he) ?_
  subst h8
  rw [State.stealGot_core (k := k) (by rw [e']; exact hf) (by rw [e']; exact hst) (by rw [e']; exact hw)]
  generalize hu : (s.took { h := h, body := .stealReply (some x) }).setTile t _ = u
  have tile : (u.tile t).core = (s.tile t).core ∧ (u.tile t).forage.stealIn = (s.tile t).forage.stealIn + 1 := by
    rw [← hu, State.tile_setTile, e']
    exact ⟨rfl, rfl⟩
  obtain ⟨c, w, e''⟩ := u.tile_finish_rest t k.a stOk (x.unit.unitId % 65536) 2
  exact ⟨completed_stalled tile.1, by rw [e'']; exact tile.2⟩

end
/-! ### A victim that had nothing to give -/

section
variable {e : Nat} (ha : Arrives s h (.stealReply none)) (hok : (s.tile t).answerOk h = true) (he : (s.tile t).askedBy h.tag = some e)
include ha hok he

theorem stealReply_missed : exec (.stealReply h none) s = .next ((s.took { h := h, body := .stealReply none }).stealMissed t e stNotFound) := by
  obtain ⟨a, b, e'⟩ := s.tile_took { h := h, body := .stealReply none } t
  have hex : exec (.stealReply h none) s = execStealReply h none s := rfl
  rw [hex]
  simp only [execStealReply, State.landing_arrives (p := { h := h, body := .stealReply none }) ha, hd, endpTile, e', Tile.answerOk_rotated,
      Tile.askedBy_rotated,
    hok, he, Bool.not_true, Bool.false_eq_true, if_false]

theorem stealReply_asksNext {v : TileId} {rest : List TileId} (hs : ((s.tile t).engine e).search = some (v :: rest)) :
    Does (.stealReply h none) s (fun u => Sent u (.tile v) (.steal e (s.tile t).forage.domain (s.tile t).gen) ∧ ((u.tile t).engine e).search = some rest) := by
  obtain ⟨a, b, e'⟩ := s.tile_took { h := h, body := .stealReply none } t
  refine .of_next (stealReply_missed hd ha hok he) ?_
  simp only [State.stealMissed, e', Tile.engine_rotated, hs]
  have sent := ((s.took { h := h, body := .stealReply none }).askSteal_spec t e v rest).1
  rw [e'] at sent
  exact ⟨sent, State.search_askSteal ..⟩

theorem stealReply_notFound {k : Stall} (hs : ((s.tile t).engine e).search = some []) (h8 : e = coreThief) (hw : (s.tile t).awaiting .fsteal 0 = some k) :
    Does (.stealReply h none) s (fun u => Completed s u t k.a stNotFound 0) := by
  obtain ⟨a, b, e'⟩ := s.tile_took { h := h, body := .stealReply none } t
  have hw' (g : Engine) : (((s.tile t).rotated a b).setEngine e g).awaiting .fsteal 0 = some k := hw
  refine .of_next (stealReply_missed hd ha hok he) ?_
  simp only [State.stealMissed, e', Tile.engine_rotated, hs, if_pos h8, hw']
  refine completed_stalled ?_
  rw [State.tile_setTile]
  rfl

end

/-! ### A read of an operand at the home (R59, R118) -/

section
variable {b : OperandReq} (ha : Arrives s h (.operandRead b))
include ha

theorem operandRead_lost (hn : (s.tile t).forage.out.find b.entry = none) :
    Does (.operandRead h b) s (fun u => Sent u h.src (.reply (.operand b.engine b.which b.at_) stPeerLost [])) := by
  obtain ⟨x, y, e⟩ := s.tile_took { h := h, body := .operandRead b } t
  refine .lands (p := { h := h, body := .operandRead b }) rfl ha ?_
  simp only [hd, endpTile, e, Tile.out_rotated, hn]
  exact State.sent_reply ..

variable {x : StealOut} (hx : (s.tile t).forage.out.find b.entry = some x) (ht : (s.tile t).takes h.dstGen false = true) (hg : b.homeGen = (s.tile t).gen)
  (hth : x.thief = s.sourceTile h.src)
include hx ht hg hth

theorem operandRead_answered {bs : List Byte} (hb : (s.tile t).operand (descOf x.unit.desc) b.which = .ok bs) :
    Does (.operandRead h b) s (fun u => Sent u h.src (.reply (.operand b.engine b.which b.at_) stOk ((bs.drop b.at_).take stealChunk))) := by
  obtain ⟨v, w, e⟩ := s.tile_took { h := h, body := .operandRead b } t
  refine .lands (p := { h := h, body := .operandRead b }) rfl ha ?_
  simp only [hd, endpTile, e, Tile.out_rotated, Tile.takes_rotated, Tile.gen_rotated, Tile.operand_rotated, State.sourceTile_took, hx, ht, hg, hth,
    beq_self_eq_true, Bool.and_self, if_true, hb]
  exact State.sent_reply ..

theorem operandRead_dataError {o : Nat} (hb : (s.tile t).operand (descOf x.unit.desc) b.which = .error o) :
    Does (.operandRead h b) s (fun u => ∃ bs, Sent u h.src (.reply (.operand b.engine b.which o) stDataError bs)) := by
  obtain ⟨v, w, e⟩ := s.tile_took { h := h, body := .operandRead b } t
  refine .lands (p := { h := h, body := .operandRead b }) rfl ha ?_
  simp only [hd, endpTile, e, Tile.out_rotated, Tile.takes_rotated, Tile.gen_rotated, Tile.operand_rotated, State.sourceTile_took, hx, ht, hg, hth,
    beq_self_eq_true, Bool.and_self, if_true, hb]
  exact ⟨_, State.sent_reply ..⟩

end

/-! ### Results and failures at the home (R59, R60) -/

section
variable {b : ResultBody} (ha : Arrives s h (.result b))
include ha

theorem result_late (hn : s.outEntry t h b.entry b.homeGen b.unitId = none) :
    Does (.result h b) s (fun u => (u.tile t).forage.stealLate = (s.tile t).forage.stealLate + 1 ∧
      Sent u h.src (.status (.result b.entry) ((s.tile t).lateStatus b.homeGen))) := by
  obtain ⟨x, y, e⟩ := s.tile_took { h := h, body := .result b } t
  refine .lands (p := { h := h, body := .result b }) rfl ha ?_
  simp only [hd, endpTile, State.outEntry_took, hn, State.tile_modTile, e]
  refine ⟨?_, State.sent_status ..⟩
  rw [State.status, State.tile_send, State.tile_modTile, e]
  rfl

theorem result_kept {x : StealOut} (hx : s.outEntry t h b.entry b.homeGen b.unitId = some x) :
    Does (.result h b) s (fun u => Sent u h.src (.status (.result b.entry) stOk) ∧
      (b.last = false → (u.tile t).forage.out.find b.entry = some { x with got := some (joinResult x.got b) })) := by
  refine .lands (p := { h := h, body := .result b }) rfl ha ?_
  simp only [hd, endpTile, State.outEntry_took, hx]
  refine ⟨State.sent_status .., fun hl => ?_⟩
  simp only [hl, Bool.false_eq_true, if_false, State.status, State.tile_send, State.tile_modTile]
  exact Tab.find_put_same ..

end

section
variable {entry homeGen unitId : Nat} (ha : Arrives s h (.failure entry homeGen unitId))
include ha

theorem failure_late (hn : s.outEntry t h entry homeGen unitId = none) :
    Does (.stealFailureNotice h entry homeGen unitId) s (fun u => Sent u h.src (.status (.result entry) ((s.tile t).lateStatus homeGen))) := by
  obtain ⟨x, y, e⟩ := s.tile_took { h := h, body := .failure entry homeGen unitId } t
  refine .lands (p := { h := h, body := .failure entry homeGen unitId }) rfl ha ?_
  simp only [hd, endpTile, State.outEntry_took, hn, e, Tile.lateStatus_rotated]
  exact State.sent_status ..

omit hd ha in
/-- A unit that has ended for its firing moves nothing of the tile's units. -/
theorem State.forage_firingUnit (s : State) (t : TileId) (f : Option (Nat × Nat)) (ok : Bool) : ((s.firingUnit t f ok).tile t).forage = (s.tile t).forage := by
  have raised (u : State) (unit code : Nat) (i j : Word) : ((u.raise t unit code i j).tile t).forage = (u.tile t).forage := by
    rw [State.raise, State.tile_modTile, Tile.raise]
    (repeat' split) <;> rfl
  unfold State.firingUnit
  split
  · rfl
  · dsimp only
    split
    · rfl
    · split
      · rw [State.tile_setTile]
      · rw [raised, State.tile_setTile]

theorem failure_counts {x : StealOut} (hx : s.outEntry t h entry homeGen unitId = some x) :
    Does (.stealFailureNotice h entry homeGen unitId) s (fun u => (u.tile t).forage.out.find entry = none ∧
      (u.tile t).forage.unitFailed = (s.tile t).forage.unitFailed + 1 ∧ Sent u h.src (.status (.result entry) stOk)) := by
  obtain ⟨v, w, e⟩ := s.tile_took { h := h, body := .failure entry homeGen unitId } t
  refine .lands (p := { h := h, body := .failure entry homeGen unitId }) rfl ha ?_
  simp only [hd, endpTile, State.outEntry_took, hx]
  rw [State.status, State.tile_send, State.failOut, State.forage_firingUnit, State.tile_modTile, e]
  exact ⟨Tab.find_erase .., rfl, State.sent_send ..⟩

end
end

/-! ## A unit handed out that does not return (R60) -/

theorem returnTimeout_voids {s : State} {t : TileId} {entry lim : Nat} {x : StealOut} (hx : (s.tile t).forage.out.find entry = some x)
    (hl : (s.tile t).watchdog = some lim) (hw : x.waiting = none) (hd : lim ≤ s.run t - x.since) :
    Does (.stealReturnTimeout t entry) s (fun u => (u.tile t).forage.out.find entry = none ∧
      ((u.tile t).engine (s.tile t).shortest).deque = ((s.tile t).engine (s.tile t).shortest).deque ++ [pinTile x.unit]) := by
  have hdo : exec (.stealReturnTimeout t entry) s = execStealReturnTimeout t entry s := rfl
  simp only [execStealReturnTimeout, hx, hl, hw, hd, Option.isNone_none, decide_true, Bool.and_self, if_true] at hdo
  refine .of_next hdo ?_
  have short : ((s.tile t).dropOut entry).shortest = (s.tile t).shortest := rfl
  have eng (n : Nat) : ((s.tile t).dropOut entry).engine n = (s.tile t).engine n := rfl
  simp only [State.voidOut, State.tile_modTile, short, Tile.enqueue, Tile.engine_setEngine, eng]
  exact ⟨Tab.find_erase .., trivial⟩

/-- Settles O9: each packet between a thief and a home as it arrives, and the home's timer. -/
theorem stealExchange : Obligations.StealExchange := by
  unfold Obligations.StealExchange
  intro s t h hd
  refine ⟨fun engine domain gen ha => ⟨steal_refused hd ha, steal_served hd ha, steal_lost hd ha⟩,
    fun e x ha hok he hf hst => ⟨stealReply_queues hd ha hok he hf hst, fun k => stealReply_completes hd ha hok he hf hst⟩,
    fun e ha hok he => ⟨fun v rest => stealReply_asksNext hd ha hok he, fun k => stealReply_notFound hd ha hok he⟩,
    fun b ha => ⟨fun x hx ht hg hth => ⟨fun bs => operandRead_answered hd ha hx ht hg hth, fun o => operandRead_dataError hd ha hx ht hg hth⟩,
      operandRead_lost hd ha⟩,
    fun b ha => ⟨result_late hd ha, fun x => result_kept hd ha⟩,
    fun entry homeGen unitId ha => ⟨fun x => failure_counts hd ha, failure_late hd ha⟩, fun entry x lim => returnTimeout_voids⟩

end Sys2Proof.Machine
end

section
/-! PROOFS. Units that start, units that move within the tile, and sleep (part of O8). -/

namespace Sys2Proof.Machine

/-! ## The engines of a tile -/

theorem Tile.engine_setEngine_other {e i : Nat} (h : e ≠ i) (tl : Tile) (g : Engine) : (tl.setEngine e g).engine i = tl.engine i :=
  Tab.getD_put_other _ _ _ _ _ h

/-- The engines wake, and nothing else of the tile moves. -/
theorem State.tile_wake (s : State) (t : TileId) : ∃ x, (s.wake t).tile t = { s.tile t with act := x } ∧ x.asleep = false := by
  rw [State.wake, State.tile_modField, State.tile_modTile]
  split
  · exact ⟨_, rfl, rfl⟩
  · rename_i h
    exact ⟨_, rfl, Bool.eq_false_iff.mpr h⟩

theorem Accessed.correct (s : State) (t : TileId) (o n : Nat) : Accessed s (s.correct t o n) := .correctWords ..

theorem Accessed.correctOperand (s : State) (t : TileId) (d : Desc) (w : Nat) : Accessed s (s.correctOperand t d w) := by
  have fold (l : List (Nat × Nat)) : ∀ s : State, Accessed s (l.foldl (fun s p => s.correct t p.1 p.2) s) := by
    induction l with
    | nil => exact .refl
    | cons p l ih => exact fun s => (Accessed.correct s t p.1 p.2).trans (ih _)
  exact fold ..

theorem Accessed.readOwn (s : State) (t : TileId) (e : Nat) (d : Desc) : Accessed s (s.readOwn t e d) := by
  have fold (l : List Nat) : ∀ s : State,
      Accessed s (l.foldl (fun s w => (s.correctOperand t d w).served t (e + 1) ((s.tile t).operandSpan d w).1) s) := by
    induction l with
    | nil => exact .refl
    | cons w l ih => exact fun s => ((Accessed.correctOperand s t d w).trans (.served ..)).trans (ih _)
  exact fold ..

/-! ## What a fault and a firing leave of a tile -/

/-- A fault moves the core, the fault record and the tile's state. -/
theorem Tile.raise_rest (tl : Tile) (now unit code : Nat) (i j : Word) :
    ∃ c f x, tl.raise now unit code i j = { tl with core := c, fault := f, st := x } ∧ f.valid = true := by
  unfold Tile.raise
  split
  · rename_i h
    split
    · exact ⟨_, _, _, rfl, h⟩
    · exact ⟨_, _, _, rfl, h⟩
  · exact ⟨_, _, _, rfl, rfl⟩

/-- What a unit's end moves for its firing: the firing's context, and where it failed the core, the fault record and the state. -/
theorem State.tile_firingUnit (s : State) (t : TileId) (x : Option (Nat × Nat)) (ok : Bool) :
    ∃ c f y z, (s.firingUnit t x ok).tile t = { s.tile t with core := c, fault := f, st := y, fold := z } ∧
      ((s.tile t).fault.valid = true → f.valid = true) := by
  unfold State.firingUnit
  split
  · exact ⟨_, _, _, _, rfl, id⟩
  · dsimp only
    split
    · exact ⟨_, _, _, _, rfl, id⟩
    · split
      · exact ⟨_, _, _, _, State.tile_setTile .., id⟩
      · rw [State.raise, State.tile_modTile, State.tile_setTile]
        obtain ⟨c, f, y, e, hf⟩ := Tile.raise_rest _ _ _ _ _ _
        exact ⟨c, f, y, _, e, fun _ => hf⟩

/-- An own unit that has failed under a fault leaves its engine and is counted. -/
theorem State.failUnit_own {s : State} {t : TileId} {e : Nat} {u : FUnit} (hu : u.stolen = none) (hv : (s.tile t).fault.valid = true) :
    (((s.failUnit t e u).tile t).engine e).running = none ∧ (((s.failUnit t e u).tile t).engine e).deque = ((s.tile t).engine e).deque ∧
      ((s.failUnit t e u).tile t).fault.valid = true ∧ ((s.failUnit t e u).tile t).forage.unitFailed = (s.tile t).forage.unitFailed + 1 := by
  have hf : s.failUnit t e u = ((s.modTile t fun tl => tl.clearEngine e (s.cycles t)).modTile t Tile.countFailed).firingUnit t u.firing false := by
    simp only [State.failUnit, hu]
  obtain ⟨c, f, y, z, h, k⟩ := ((s.modTile t fun tl => tl.clearEngine e (s.cycles t)).modTile t Tile.countFailed).tile_firingUnit t u.firing false
  rw [State.tile_modTile, State.tile_modTile] at h k
  rw [hf, h]
  have eng : (((s.tile t).clearEngine e (s.cycles t)).countFailed).engine e = { (s.tile t).engine e with running := none, idleSince := s.cycles t } :=
    Tile.engine_setEngine ..
  rw [show Tile.engine { ((s.tile t).clearEngine e (s.cycles t)).countFailed with core := c, fault := f, st := y, fold := z } e = _ from eng]
  exact ⟨rfl, rfl, k hv, rfl⟩

/-! ## UNIT_START -/

section
variable {s : State} {t : TileId} {e : Nat} (hp : (s.tile t).present = true) (hk : s.clocked t = true) {u : FUnit} {rest : List FUnit} (h8 : e < 8)
  (hfz : (s.tile t).frozenAt (s.cycles t) = false) (hr : ((s.tile t).engine e).running = none) (hq : ((s.tile t).engine e).deque = u :: rest)
include hp hk h8 hfz hr hq

theorem unitStart_stalls (hu : (s.tile t).unitReady u = false) (hh : ((s.tile t).engine e).headSince = none) :
    Does (.unitStart t e) s (fun v => ((v.tile t).engine e).headSince = some (s.run t) ∧ ((v.tile t).engine e).deque = u :: rest) := by
  have hdo : exec (.unitStart t e) s = execUnitStart t e s := rfl
  simp only [execUnitStart, h8, hp, hk, hfz, hr, hq, hu, hh, decide_true, Bool.not_false, Bool.and_self, Option.isNone_none, Bool.false_eq_true, if_true,
    if_false] at hdo
  refine .of_next hdo ?_
  rw [State.tile_setTile, Tile.engine_setEngine]
  exact ⟨rfl, rfl⟩

variable (hu : (s.tile t).unitReady u = true) (hw : (s.tile t).waitsPass ((s.tile t).engineWaits e) = true)
include hu hw

theorem unitStart_starts : exec (.unitStart t e) s = .next (s.startUnit t e u rest) := by
  have hdo : exec (.unitStart t e) s = execUnitStart t e s := rfl
  simp only [execUnitStart, h8, hp, hk, hfz, hr, hq, hu, hw, decide_true, Bool.not_false, Bool.and_self, Option.isNone_none, if_true] at hdo
  exact hdo

end

/-- The tile whose engine runs a unit that has left the head of its deque. -/
def Tile.started (tl : Tile) (e : Nat) (u : FUnit) (m : HomeMode) (rest : List FUnit) : Tile :=
  tl.setEngine e { tl.engine e with deque := rest, running := some { unit := u, mode := m }, headSince := none }

/-- The state in which a unit has left its deque and runs, before its checks or its reads. -/
def State.started (s : State) (t : TileId) (e : Nat) (u : FUnit) (m : HomeMode) (rest : List FUnit) : State :=
  (s.setTile t ((s.tile t).started e u m rest)).wake t

section
variable (s : State) (t : TileId) (e : Nat) (u : FUnit) (m : HomeMode) (rest : List FUnit)

theorem State.tile_started : ∃ x, (s.started t e u m rest).tile t = { (s.tile t).started e u m rest with act := x } ∧ x.asleep = false := by
  obtain ⟨x, h, hx⟩ := (s.setTile t ((s.tile t).started e u m rest)).tile_wake t
  rw [State.tile_setTile] at h
  exact ⟨x, h, hx⟩

theorem Tile.engine_started (tl : Tile) : (tl.started e u m rest).engine e =
    { tl.engine e with deque := rest, running := some { unit := u, mode := m }, headSince := none } := Tile.engine_setEngine ..

variable {s t e u m rest}

theorem State.startUnit_own (h : u.stolen = none) :
    s.startUnit t e u rest = (s.started t e u ((s.tile t).homeMode (descOf u.desc)) rest).setupChecks t e u := by
  simp only [State.startUnit, h, State.started, Tile.started]

theorem State.startUnit_stolen {entry : Nat} (h : u.stolen = some (entry, m)) :
    s.startUnit t e u rest = (s.started t e u m rest).readOperands t e u entry := by
  simp only [State.startUnit, h, State.started, Tile.started]

/-- A unit whose handles, operand and metadata are good passes its checks. -/
theorem State.setupChecks_pass {d : Desc} (hd : d = descOf u.desc) (hh : d.handles.find? (fun h => !((s.tile t).handle h).valid) = none)
    (hm : d.op = 2 ∨ d.op = 3 ∨ d.op = 4 → ∃ ab, (s.tile t).operand d 0 = .ok ab ∧
      metaFail d ab (List.replicate (roomFrom ((s.tile t).handle d.b) d.bSlot) 0) = none) : Accessed s (s.setupChecks t e u) := by
  simp only [State.setupChecks, ← hd, hh]
  split
  · rename_i hop
    obtain ⟨ab, ha, hf⟩ := hm hop
    simp only [ha, hf]
    exact .correctOperand ..
  · exact .refl s

theorem State.setupChecks_badHandle {h : Nat} (hh : (descOf u.desc).handles.find? (fun h => !((s.tile t).handle h).valid) = some h) :
    s.setupChecks t e u = (s.raise t (e + 1) fcBadHandle (BitVec.ofNat 32 h) (BitVec.ofNat 32 u.unitId)).failUnit t e u := by
  simp only [State.setupChecks, hh]

theorem State.startUnit_runs {d : Desc} (hd : d = descOf u.desc) (hu : u.stolen = none)
    (hh : d.handles.find? (fun h => !((s.tile t).handle h).valid) = none)
    (hm : d.op = 2 ∨ d.op = 3 ∨ d.op = 4 → ∃ ab, (s.tile t).operand d 0 = .ok ab ∧
      metaFail d ab (List.replicate (roomFrom ((s.tile t).handle d.b) d.bSlot) 0) = none) :
    (((s.startUnit t e u rest).tile t).engine e).running = some { unit := u, mode := (s.tile t).homeMode d } ∧
      (((s.startUnit t e u rest).tile t).engine e).deque = rest ∧ ((s.startUnit t e u rest).tile t).act.asleep = false := by
  rw [State.startUnit_own hu, ← hd]
  obtain ⟨x, h, hx⟩ := s.tile_started t e u ((s.tile t).homeMode d) rest
  generalize s.started t e u ((s.tile t).homeMode d) rest = w at h ⊢
  have hw : Accessed w (w.setupChecks t e u) := State.setupChecks_pass hd (by rw [h]; exact hh) (by rw [h]; exact hm)
  have act : ((w.setupChecks t e u).tile t).act = (w.tile t).act := (congrArg Tile.act (hw.tile t) : _)
  rw [Tile.engine_of_forage (Tile.forage_of_calm (hw.tile t)), act, h]
  have eng := (s.tile t).engine_started e u ((s.tile t).homeMode d) rest
  exact ⟨congrArg Engine.running eng, congrArg Engine.deque eng, hx⟩

theorem State.startUnit_fails {h : Nat} (hu : u.stolen = none) (hh : (descOf u.desc).handles.find? (fun h => !((s.tile t).handle h).valid) = some h) :
    (((s.startUnit t e u rest).tile t).engine e).running = none ∧ (((s.startUnit t e u rest).tile t).engine e).deque = rest ∧
      ((s.startUnit t e u rest).tile t).fault.valid = true ∧ ((s.startUnit t e u rest).tile t).forage.unitFailed = (s.tile t).forage.unitFailed + 1 := by
  rw [State.startUnit_own hu]
  obtain ⟨x, hs, -⟩ := s.tile_started t e u ((s.tile t).homeMode (descOf u.desc)) rest
  generalize s.started t e u ((s.tile t).homeMode (descOf u.desc)) rest = w at hs ⊢
  rw [State.setupChecks_badHandle (by rw [hs]; exact hh)]
  generalize hw : w.raise t (e + 1) fcBadHandle (BitVec.ofNat 32 h) (BitVec.ofNat 32 u.unitId) = r
  obtain ⟨c, f, y, hr, hf⟩ := (w.tile t).raise_rest (w.cycles t) (e + 1) fcBadHandle (BitVec.ofNat 32 h) (BitVec.ofNat 32 u.unitId)
  have hrt : r.tile t = { w.tile t with core := c, fault := f, st := y } := by rw [← hw, State.raise, State.tile_modTile, hr]
  obtain ⟨h1, h2, h3, h4⟩ := State.failUnit_own (s := r) (t := t) (e := e) hu (by rw [hrt]; exact hf)
  have eng := (s.tile t).engine_started e u ((s.tile t).homeMode (descOf u.desc)) rest
  refine ⟨h1, ?_, h3, ?_⟩
  · rw [h2, hrt, hs]
    exact congrArg Engine.deque eng
  · rw [h4, hrt, hs]
    rfl

theorem Sent.sendTagged {s : State} {dst : Endp} {b : Body} (k : Sent s dst b) {t : TileId} {h : Hdr} {body : Body} {f : SyncUnit → SyncUnit} :
    Sent (s.sendTagged t h body f) dst b := Sent.send (Sent.modTile k) _

/-- Requests for operands leave the engines as they are. -/
theorem State.forage_readOperands (s : State) (t : TileId) (e : Nat) (u : FUnit) (entry : Nat) :
    ((s.readOperands t e u entry).tile t).forage = (s.tile t).forage :=
  foldl_keeps (fun s : State => (s.tile t).forage) _ (fun s w => by
    obtain ⟨y, hy⟩ := s.tile_sendTagged t (homeHdr t u) (.operandRead ⟨entry, e, u.homeGen, w, 0⟩) (fun u => u)
    rw [State.askOperand, State.sendRequest, hy]) _ _

theorem State.sent_readOperands (s : State) (t : TileId) (e : Nat) (u : FUnit) (entry : Nat) : ∀ w ∈ (descOf u.desc).operands,
    Sent (s.readOperands t e u entry) (.tile u.home) (.operandRead { entry := entry, engine := e, homeGen := u.homeGen, which := w, at_ := 0 }) :=
  foldl_each (P := fun s w => Sent s (.tile u.home) (.operandRead { entry := entry, engine := e, homeGen := u.homeGen, which := w, at_ := 0 }))
    (fun s w => s.askOperand t e u entry w 0) (fun s w => s.sent_sendRequest ..) (fun s w y h => Sent.sendTagged h) _ _

theorem State.startUnit_asks {entry : Nat} (h : u.stolen = some (entry, m)) :
    (((s.startUnit t e u rest).tile t).engine e).running = some { unit := u, mode := m } ∧ (((s.startUnit t e u rest).tile t).engine e).deque = rest ∧
      ∀ w ∈ (descOf u.desc).operands, Sent (s.startUnit t e u rest) (.tile u.home)
        (.operandRead { entry := entry, engine := e, homeGen := u.homeGen, which := w, at_ := 0 }) := by
  rw [State.startUnit_stolen h]
  obtain ⟨x, hs, -⟩ := s.tile_started t e u m rest
  have eng := (s.tile t).engine_started e u m rest
  rw [Tile.engine_of_forage (State.forage_readOperands ..), hs]
  exact ⟨congrArg Engine.running eng, congrArg Engine.deque eng, State.sent_readOperands _ t e u entry⟩

end

/-! ## INTRA_TILE_STEAL and ENGINE_SLEEP -/

theorem Tile.ne_of_siblingFor {tl : Tile} {now e v : Nat} (h : tl.siblingFor now e = some v) : v ≠ e := by
  have hm := (List.mem_filter.mp (List.mem_of_find?_eq_some h)).2
  rintro rfl
  unfold Tile.mayMove at hm
  split at hm <;> simp at hm

theorem intraTileSteal_moves {s : State} {t : TileId} {e v : Nat} {u : FUnit} (hp : (s.tile t).present = true) (hk : s.clocked t = true) (h8 : e < 8)
    (hf : (s.tile t).frozen = false) (hi : (s.tile t).forage.intra = true) (he : (s.tile t).idleEngine e = true)
    (hv : (s.tile t).siblingFor (s.cycles t) e = some v) (hu : (s.tile t).tail v = some u) (hw : (s.tile t).winner (s.cycles t) v = some e) :
    Does (.intraTileSteal t e) s (fun w => ((w.tile t).engine e).deque = [u] ∧ ((w.tile t).engine v).deque = ((s.tile t).engine v).deque.dropLast ∧
      ((w.tile t).engine e).sibling = (v + 1) % 8 ∧
      (2 ≤ ((s.tile t).rivals (s.cycles t) v).length → ((w.tile t).engine v).thief = (e + 1) % 8)) := by
  have hne := Tile.ne_of_siblingFor hv
  have hdo : exec (.intraTileSteal t e) s = execIntraTileSteal t e s := rfl
  simp only [execIntraTileSteal, h8, hp, hk, hf, hi, he, hv, hu, hw, decide_true, Bool.not_false, Bool.and_self, if_true, ne_eq, not_true_eq_false,
    if_false] at hdo
  refine .of_next hdo ?_
  have pop : (((s.tile t).popTail v (s.cycles t)).engine v).deque = ((s.tile t).engine v).deque.dropLast := by
    rw [Tile.popTail, Tile.engine_setEngine]
  rw [State.tile_setTile, Tile.engine_setEngine, Tile.engine_setEngine_other hne.symm]
  by_cases h2 : 2 ≤ ((s.tile t).rivals (s.cycles t) v).length
  · simp only [h2, if_true, Tile.engine_setEngine]
    exact ⟨trivial, pop, trivial, fun _ => trivial⟩
  · simp only [h2, if_false]
    exact ⟨trivial, pop, trivial, fun h => h.elim⟩

theorem engineSleep_sleeps {s : State} {t : TileId} (hk : s.clocked t = true) (hi : (s.tile t).enginesIdle = true) (hr : (s.tile t).act.running = false)
    (ha : (s.tile t).act.asleep = false) (hc : (s.tile t).idleFrom + 256 ≤ s.cycles t) :
    Does (.engineSleep t) s (fun u => (u.tile t).act.asleep = true ∧ (u.tile t).act.asleepAt = s.cycles t) := by
  have hdo : exec (.engineSleep t) s = execEngineSleep t s := rfl
  simp only [execEngineSleep, hk, hi, hr, hc, decide_true, Bool.not_false, Bool.and_self, if_true] at hdo
  refine .of_next hdo ?_
  have tile : (s.sleep t).tile t = { s.tile t with act := { (s.tile t).act with asleep := true, asleepAt := s.cycles t } } := by
    unfold State.sleep
    dsimp only
    split
    · rw [State.tile_modTile, if_neg (by simp [ha])]
    · rw [State.tile_modField, State.tile_modTile, if_neg (by simp [ha])]
  rw [tile]
  exact ⟨rfl, rfl⟩

/-! ## STEAL_SEARCH -/

theorem mem_rotateLeft {α : Type} {x : α} {l : List α} {n : Nat} : x ∈ l.rotateLeft n ↔ x ∈ l := by
  unfold List.rotateLeft
  dsimp only
  split
  · rfl
  · rw [List.mem_append, or_comm, ← List.mem_append, List.take_append_drop]

/-- Whether a tile has a victim does not hang on its rotation. -/
theorem State.victims_ne_nil {s u : State} {t : TileId} (hr : (u.tile t).forage.radius = (s.tile t).forage.radius)
    (hp : ∀ v, (u.tile v).present = (s.tile v).present) (h : s.victims t ≠ []) : u.victims t ≠ [] := by
  have hg : u.good = s.good := by funext v; simp only [State.good, hp]
  obtain ⟨x, hx⟩ := List.exists_mem_of_ne_nil _ h
  obtain ⟨i, hi, hx⟩ := List.mem_flatMap.mp hx
  refine List.ne_nil_of_mem (a := x) (List.mem_flatMap.mpr ⟨i, by rw [hr]; exact hi, ?_⟩)
  rw [hg]
  exact mem_rotateLeft.mpr (mem_rotateLeft.mp hx)

end Sys2Proof.Machine
end

section
/-! PROOFS. The search for a unit to steal (part of O8). -/

namespace Sys2Proof.Machine

/-! ### The search of every idle engine -/

/-- One engine's part of a search. -/
def State.searchFor (s : State) (t : TileId) (e : Nat) : State :=
  if ((s.tile t).engine e).search.isSome then s
  else
    match s.victims t with
    | [] => s
    | v :: rest => (s.askSteal t e v rest).modTile t (fun tl => { tl with forage := { tl.forage with searchRot := tl.forage.searchRot + 1 } })

theorem State.searchAll_eq (s : State) (t : TileId) : s.searchAll t = (upto 8).foldl (fun s e => s.searchFor t e) s := rfl

section
variable {s : State} {t : TileId} {e : Nat}

theorem State.searchFor_some (h : ((s.tile t).engine e).search.isSome = true) : s.searchFor t e = s := by rw [State.searchFor, if_pos h]

theorem State.searchFor_none (h : ((s.tile t).engine e).search = none) {v : TileId} {rest : List TileId} (hv : s.victims t = v :: rest) :
    s.searchFor t e =
      (s.askSteal t e v rest).modTile t (fun tl => { tl with forage := { tl.forage with searchRot := tl.forage.searchRot + 1 } }) := by
  rw [State.searchFor, if_neg (by simp [h]), hv]

theorem State.tile_askSteal (s : State) (t : TileId) (e : Nat) (v : TileId) (rest : List TileId) : ∃ y, (s.askSteal t e v rest).tile t =
    { (s.tile t).setEngine e { (s.tile t).engine e with search := some rest, asked := (s.tile t).sync.tag } with sync := y } := by
  obtain ⟨y, h⟩ := (s.setTile t ((s.tile t).setEngine e { (s.tile t).engine e with search := some rest, asked := (s.tile t).sync.tag })).tile_sendTagged t
    { src := .tile t, dst := .tile v, dstGen := 0, tag := 0 } (.steal e (s.tile t).forage.domain (s.tile t).gen) (fun u => u)
  rw [State.tile_setTile] at h
  exact ⟨y, h⟩

theorem State.view_setTile {γ : Type} (view : Tile → γ) {s : State} {t : TileId} {tl : Tile} (h : view tl = view (s.tile t)) (v : TileId) :
    view ((s.setTile t tl).tile v) = view (s.tile v) := by
  by_cases k : tileKey t = tileKey v
  · rw [State.tile_of_key k.symm, State.tile_setTile, h, State.tile_of_key k]
  · rw [State.tile_setTile_other _ _ _ _ k]

theorem State.present_sendRequest (s : State) (t : TileId) (h : Hdr) (body : Body) (v : TileId) :
    ((s.sendRequest t h body).tile v).present = (s.tile v).present := by
  rw [State.sendRequest, State.sendTagged, State.tile_send]
  exact State.view_modTile Tile.present s t v _ (by rfl)

theorem State.present_askSteal (s : State) (t : TileId) (e : Nat) (v : TileId) (rest : List TileId) (w : TileId) :
    ((s.askSteal t e v rest).tile w).present = (s.tile w).present := by
  rw [State.askSteal, State.present_sendRequest]
  exact State.view_setTile Tile.present (by rfl) w

/-- One engine's part of a search changes no other engine. -/
theorem State.engine_searchFor {i : Nat} (h : e ≠ i) : ((s.searchFor t e).tile t).engine i = (s.tile t).engine i := by
  unfold State.searchFor
  split
  · rfl
  · split
    · rfl
    · rename_i v rest _
      obtain ⟨y, hy⟩ := s.tile_askSteal t e v rest
      rw [State.tile_modTile, hy]
      exact Tile.engine_setEngine_other h ..

/-- With a victim to ask, every engine that has its part searches, and the tile has a victim still. -/
theorem State.searchFor_spec (hv : s.victims t ≠ []) : (s.searchFor t e).victims t ≠ [] ∧ (((s.searchFor t e).tile t).engine e).search.isSome = true := by
  cases hs : ((s.tile t).engine e).search with
  | some l => rw [State.searchFor_some (by rw [hs]; rfl)]; exact ⟨hv, by rw [hs]; rfl⟩
  | none =>
    obtain ⟨v, rest, hl⟩ := List.exists_cons_of_ne_nil hv
    obtain ⟨y, hy⟩ := s.tile_askSteal t e v rest
    rw [State.searchFor_none hs hl]
    refine ⟨State.victims_ne_nil ?_ (fun w => ?_) hv, ?_⟩
    · rw [State.tile_modTile, hy]
      rfl
    · exact (State.view_modTile Tile.present _ t w _ (by rfl)).trans (s.present_askSteal t e v rest w)
    · rw [State.tile_modTile]
      exact congrArg Option.isSome (s.search_askSteal t e v rest)

theorem Sent.searchFor {dst : Endp} {b : Body} (h : Sent s dst b) : Sent (s.searchFor t e) dst b := by
  unfold State.searchFor
  split
  · exact h
  · split
    · exact h
    · rename_i v rest _
      have asks : Sent (s.askSteal t e v rest) dst b := Sent.sendTagged (Sent.setTile h)
      exact asks.modTile

end

/-- Engines that have their part in a search, and those that searched before it, search. -/
theorem State.search_all {t : TileId} : ∀ (l : List Nat) (s : State), s.victims t ≠ [] → ∀ i, i ∈ l ∨ ((s.tile t).engine i).search.isSome = true →
    (((l.foldl (fun s e => s.searchFor t e) s).tile t).engine i).search.isSome = true
  | [], _, _, i, h => h.resolve_left (by simp)
  | e :: l, s, hv, i, h => by
    obtain ⟨hv', he⟩ := State.searchFor_spec (e := e) hv
    refine State.search_all l _ hv' i ?_
    by_cases hi : e = i
    · subst hi; exact .inr he
    · refine h.imp (fun h => (List.mem_cons.mp h).resolve_left (Ne.symm hi)) fun h => ?_
      rwa [State.engine_searchFor hi]

/-- What one engine has asked stands while the others have their part. -/
theorem State.search_keeps {t : TileId} {dst : Endp} {b : Body} {i : Nat} : ∀ (l : List Nat) (s : State), i ∉ l → Sent s dst b →
    Sent (l.foldl (fun s e => s.searchFor t e) s) dst b ∧ ((l.foldl (fun s e => s.searchFor t e) s).tile t).engine i = (s.tile t).engine i
  | [], _, _, h => ⟨h, rfl⟩
  | e :: l, s, hi, h => by
    have hne : i ≠ e := fun h => hi (by simp [h])
    have hl : i ∉ l := fun h => hi (by simp [h])
    obtain ⟨h1, h2⟩ := State.search_keeps l (s.searchFor t e) hl h.searchFor
    exact ⟨h1, h2.trans (State.engine_searchFor (Ne.symm hne))⟩

/-- A search has every engine ask, the first of them the nearest victim. -/
theorem State.searchAll_spec {s : State} {t : TileId} {v : TileId} {rest : List TileId} (hv : s.victims t = v :: rest) :
    (∀ i, i < 8 → (((s.searchAll t).tile t).engine i).search.isSome = true) ∧
      (((s.tile t).engine 0).search = none → Sent (s.searchAll t) (.tile v) (.steal 0 (s.tile t).forage.domain (s.tile t).gen) ∧
        (((s.searchAll t).tile t).engine 0).search = some rest) := by
  have hne : s.victims t ≠ [] := by rw [hv]; exact List.cons_ne_nil _ _
  rw [State.searchAll_eq]
  refine ⟨fun i hi => State.search_all _ s hne i (.inl (mem_upto.mpr hi)), fun h0 => ?_⟩
  have hl : upto 8 = 0 :: (upto 7).map (· + 1) := by decide
  have first : Sent (s.searchFor t 0) (.tile v) (.steal 0 (s.tile t).forage.domain (s.tile t).gen) := by
    rw [State.searchFor_none h0 hv]
    exact (s.askSteal_spec t 0 v rest).1.modTile
  obtain ⟨h1, h2⟩ := State.search_keeps (t := t) (i := 0) ((upto 7).map (· + 1)) (s.searchFor t 0) (by decide) first
  rw [hl, List.foldl_cons]
  refine ⟨h1, (congrArg Engine.search h2).trans ?_⟩
  rw [State.searchFor_none h0 hv, State.tile_modTile]
  exact s.search_askSteal t 0 v rest

section
variable {s : State} {t : TileId}

theorem stealSearch_asks {v : TileId} {rest : List TileId} (hm : s.maySearch t = true) (hb : (s.tile t).forage.backoffUntil = none)
    (hv : s.victims t = v :: rest) : Does (.stealSearch t) s (fun u => (∀ i, i < 8 → ((u.tile t).engine i).search.isSome = true) ∧
      (((s.tile t).engine 0).search = none → Sent u (.tile v) (.steal 0 (s.tile t).forage.domain (s.tile t).gen) ∧
        ((u.tile t).engine 0).search = some rest)) := by
  have hdo : exec (.stealSearch t) s = execStealSearch t s := rfl
  simp only [execStealSearch, hm, hb, Option.isNone_none, Bool.and_self, if_true] at hdo
  exact .of_next hdo (State.searchAll_spec hv)

/-- A search moves nothing of a tile's wait to search again. -/
theorem State.backoff_searchAll (s : State) (t : TileId) : ((s.searchAll t).tile t).forage.backoffUntil = (s.tile t).forage.backoffUntil := by
  rw [State.searchAll_eq]
  refine foldl_keeps (fun s : State => (s.tile t).forage.backoffUntil) _ (fun s e => ?_) _ _
  unfold State.searchFor
  split
  · rfl
  · split
    · rfl
    · rename_i v rest _
      obtain ⟨y, hy⟩ := s.tile_askSteal t e v rest
      rw [State.tile_modTile, hy]
      rfl

theorem stealBackoffExpiry_asks {n : Nat} (hb : (s.tile t).forage.backoffUntil = some n) (hn : n ≤ s.cycles t) :
    Does (.stealBackoffExpiry t) s (fun u => (u.tile t).forage.backoffUntil = none ∧
      (∀ v rest, s.maySearch t = true → s.victims t = v :: rest → ((s.tile t).engine 0).search = none →
        Sent u (.tile v) (.steal 0 (s.tile t).forage.domain (s.tile t).gen) ∧ ((u.tile t).engine 0).search = some rest)) := by
  have hdo : exec (.stealBackoffExpiry t) s = execStealBackoffExpiry t s := rfl
  simp only [execStealBackoffExpiry, hb, hn, if_true] at hdo
  refine .of_next hdo ?_
  generalize hw : s.setTile t { s.tile t with forage := { (s.tile t).forage with backoffUntil := none } } = w
  have tile : w.tile t = { s.tile t with forage := { (s.tile t).forage with backoffUntil := none } } := by rw [← hw, State.tile_setTile]
  have clocked : w.clocked t = s.clocked t := by rw [← hw]; rfl
  have cycles : w.cycles t = s.cycles t := by rw [← hw]; rfl
  have good : w.good = s.good := by
    funext v
    simp only [State.good]
    rw [← hw]
    exact congrArg (onArray v && ·) (State.view_setTile Tile.present (by rfl) v)
  have may : w.maySearch t = s.maySearch t := by
    simp only [State.maySearch, tile, clocked, cycles]
    rfl
  have victims : w.victims t = s.victims t := by simp only [State.victims, tile, good]
  by_cases hm : s.maySearch t = true
  · rw [if_pos (may.trans hm), State.backoff_searchAll, tile]
    refine ⟨rfl, fun v rest _ hv h0 => ?_⟩
    have := (State.searchAll_spec (victims.trans hv)).2 (by rw [tile]; exact h0)
    rwa [tile] at this
  · rw [if_neg (by rwa [may]), tile]
    exact ⟨rfl, fun _ _ h => absurd h hm⟩

end
end Sys2Proof.Machine
end

section
/-! SUPPORT. What a retiring unit leaves: the engines, the tags, the slots of units in flight, and a result in pieces. -/

namespace Sys2Proof.Machine

/-! ## What the engines of a tile hold: their units, the arithmetic record, and their cycle -/

def State.units (s : State) (t : TileId) : Forage × Arith × Nat := ((s.tile t).forage, (s.tile t).arith, s.cycles t)

section
variable {s u : State} {t : TileId}

theorem Accessed.merge (s : State) (t : TileId) (o n : Nat) : Accessed s (s.merge t o n) := .correctWords ..

theorem Accessed.cycles (h : Accessed s u) (t : TileId) : u.cycles t = s.cycles t := (congrArg Field.cycles (h.field (fieldOf t)) : _)

theorem Accessed.arith (h : Accessed s u) (t : TileId) : (u.tile t).arith = (s.tile t).arith := (congrArg Tile.arith (h.tile t) : _)

theorem Accessed.forage (h : Accessed s u) (t : TileId) : (u.tile t).forage = (s.tile t).forage := Tile.forage_of_calm (h.tile t)

theorem Accessed.units (h : Accessed s u) (t : TileId) : u.units t = s.units t := by simp only [State.units, h.forage, h.arith, h.cycles]

theorem State.units_modTile {g : Tile → Tile} (hf : ∀ tl : Tile, (g tl).forage = tl.forage) (ha : ∀ tl : Tile, (g tl).arith = tl.arith) :
    (s.modTile t g).units t = s.units t := by
  simp only [State.units, State.tile_modTile, hf, ha]
  rfl

theorem State.units_countIssue (d : Desc) : (s.countIssue t d).units t = s.units t := by
  unfold State.countIssue
  dsimp only
  split
  · exact State.units_modTile (s := (State.freeVal s).2) (fun _ => rfl) fun _ => rfl
  · exact State.units_modTile (fun _ => rfl) fun _ => rfl

theorem State.units_put (o : Nat) (bs : List Byte) : (s.modTile t fun tl => tl.put o bs).units t = s.units t := by
  refine State.units_modTile (fun tl => ?_) fun tl => ?_
  · rw [Tile.put]
  · rw [Tile.put]

theorem State.units_writePieces : ∀ (ps : List (Nat × List Byte)) (s : State), (s.writePieces t ps).units t = s.units t
  | [], _ => rfl
  | p :: ps, s => by
    rw [State.writePieces, List.foldl_cons, ← State.writePieces, State.units_writePieces ps, State.units_put]
    exact (Accessed.merge s t p.1 p.2.length).units t

end

/-! ### Tags that a retiring unit turns -/

/-- Emptying tags changes no context. -/
theorem Tile.ctxs_emptyTags (tl : Tile) (o n : Nat) : (tl.emptyTags o n).q.ctxs = tl.q.ctxs := by
  refine foldl_keeps (fun tl : Tile => tl.q.ctxs) _ (fun tl p => ?_) _ _
  unfold Tile.takeSlot
  dsimp only
  split <;> rfl

/-- The tags a retiring unit turns move no more of the tile than its memory and queues, and no context. -/
theorem Tile.retireTags_rest (tl : Tile) (d : Desc) : ∃ m q, tl.retireTags d = { tl with mem := m, q := q } ∧ q.ctxs = tl.q.ctxs := by
  have eaten (l : List (Nat × Nat)) : ∀ tl : Tile, ∃ m q, l.foldl (fun x p => x.emptyTags p.1 p.2) tl = { tl with mem := m, q := q } ∧ q.ctxs = tl.q.ctxs := by
    induction l with
    | nil => exact fun tl => ⟨tl.mem, tl.q, rfl, rfl⟩
    | cons p l ih =>
      intro tl
      obtain ⟨m, q, e, -⟩ := tl.emptyTags_rest p.1 p.2
      obtain ⟨m', q', e', hq⟩ := ih (tl.emptyTags p.1 p.2)
      refine ⟨m', q', ?_, hq.trans (tl.ctxs_emptyTags p.1 p.2)⟩
      rw [List.foldl_cons, e', e]
  unfold Tile.retireTags
  dsimp only
  generalize List.flatMap _ _ = l
  obtain ⟨m, q, e, hq⟩ := eaten l tl
  rw [e]
  split
  · exact ⟨_, _, rfl, hq⟩
  · exact ⟨_, _, rfl, hq⟩

/-- A unit that consumes neither operand turns no byte. -/
theorem Tile.cells_retireTags {tl : Tile} {d : Desc} (ha : (tl.handle d.a).consume = false) (hb : (tl.handle d.b).consume = false) :
    (tl.retireTags d).mem.cells = tl.mem.cells := by
  have h0 : (tl.operandHandle d 0).consume = false := ha
  have h1 : (tl.operandHandle d 1).consume = false := hb
  have none_eaten : ([0] ++ (if d.op ≤ 4 then [1] else [])).flatMap (fun w =>
      if (tl.operandHandle d w).consume then (tl.readSlots d w).map (fun o => (o, (tl.operandHandle d w).slotBytes)) else []) = [] := by
    split <;> simp [h0, h1]
  unfold Tile.retireTags
  dsimp only
  rw [none_eaten, List.foldl_nil]
  split <;> rfl

/-! ### What ends a unit that retires -/

/-- A unit that retires is recorded, and moves nothing of the engines, the memory or the queues. -/
theorem State.retired_spec (s : State) (t : TileId) (u : FUnit) (fl eng : Nat) :
    ((s.retired t u fl eng).tile t).forage = (s.tile t).forage ∧
      ((s.retired t u fl eng).tile t).arith = (s.tile t).arith.record u.unitId fl eng (s.cycles t) ∧
      ((s.retired t u fl eng).tile t).mem = (s.tile t).mem ∧ ((s.retired t u fl eng).tile t).q = (s.tile t).q := by
  unfold State.retired
  dsimp only
  generalize hw : s.modTile t (fun tl => { tl with arith := tl.arith.record u.unitId fl eng (s.cycles t) }) = w
  have tile : w.tile t = { s.tile t with arith := (s.tile t).arith.record u.unitId fl eng (s.cycles t) } := by rw [← hw, State.tile_modTile]
  generalize hv : (if (descOf u.desc).doneSig = true then w.signalLocal t (eng + 1) (descOf u.desc).cell 1 else w) = v
  have signals : (w.tile t).SameButCore (v.tile t) := by
    rw [← hv]
    split
    · exact w.sameButCore_signalLocal ..
    · exact ⟨_, _, _, rfl⟩
  obtain ⟨c, x, y, e⟩ := signals
  obtain ⟨c', f, x', z, e', -⟩ := v.tile_firingUnit t u.firing true
  rw [e', e, tile]
  exact ⟨rfl, rfl, rfl, rfl⟩

/-! ### Units in flight whose slots meet (R54) -/

/-- Tile b is tile a but for the slots that its units in flight have lost. -/
def Tile.Overlapped (a b : Tile) : Prop :=
  ∃ f, b = { a with forage := f } ∧ (∀ e, (a.engine e).running = none → (b.engine e).running = none) ∧
    ∀ i, a.forage.out.find i = none → f.out.find i = none

theorem Tile.Overlapped.refl (a : Tile) : a.Overlapped a := ⟨_, rfl, fun _ h => h, fun _ h => h⟩

theorem Tile.Overlapped.trans {a b c : Tile} (h : a.Overlapped b) (k : b.Overlapped c) : a.Overlapped c := by
  obtain ⟨f, rfl, h1, h2⟩ := h
  obtain ⟨f', rfl, k1, k2⟩ := k
  exact ⟨f', rfl, fun e he => k1 e (h1 e he), fun i hi => k2 i (h2 i hi)⟩

theorem Tile.overlapped_setEngine {tl : Tile} {e : Nat} {r : RunUnit} (h : (tl.engine e).running = some r) (q : RunUnit) :
    tl.Overlapped (tl.setEngine e { tl.engine e with running := some q }) := by
  refine ⟨_, rfl, fun i hi => ?_, fun i hi => hi⟩
  rw [Tile.engine_setEngine_other, hi]
  rintro rfl
  rw [h] at hi
  exact Option.some_ne_none r hi

theorem Tile.overlapped_setOut {tl : Tile} {i : Nat} {x : StealOut} (h : tl.forage.out.find i = some x) (y : StealOut) :
    tl.Overlapped { tl with forage := { tl.forage with out := tl.forage.out.put i y } } := by
  refine ⟨_, rfl, fun e he => he, fun j hj => ?_⟩
  have hne : i ≠ j := by
    rintro rfl
    rw [h] at hj
    exact Option.some_ne_none x hj
  exact (Tab.find_put_other _ _ _ _ hne).trans hj

section
variable {t : TileId} {mine : List (Nat × Nat)}

/-- State u follows from s by settling overlaps: the tile's units in flight may have lost slots, and the cycle stands. -/
def State.Overlapped (t : TileId) (s u : State) : Prop := (s.tile t).Overlapped (u.tile t) ∧ u.cycles t = s.cycles t

theorem State.Overlapped.trans {s u v : State} (h : s.Overlapped t u) (k : u.Overlapped t v) : s.Overlapped t v := ⟨h.1.trans k.1, k.2.trans h.2⟩

/-- Settling with one engine's unit. -/
def State.settleEngine (t : TileId) (mine : List (Nat × Nat)) (p : List Nat × State) (e : Nat) : List Nat × State :=
  match ((p.2.tile t).engine e).running with
  | none => p
  | some r =>
    if r.unit.stolen.isSome then p
    else
      let q := p.2.settlePair mine ((p.2.tile t).destSlots (descOf r.unit.desc))
      (p.1 ++ q.1, q.2.2.modTile t (fun tl => tl.setEngine e { tl.engine e with running := some { r with lost := r.lost ++ q.2.1 } }))

/-- Settling with one unit handed out. -/
def State.settleOut (t : TileId) (mine : List (Nat × Nat)) (p : List Nat × State) (i : Nat) : List Nat × State :=
  match (p.2.tile t).forage.out.find i with
  | none => p
  | some x =>
    let q := p.2.settlePair mine ((p.2.tile t).destSlots (descOf x.unit.desc))
    (p.1 ++ q.1, q.2.2.modTile t (fun tl => { tl with forage := { tl.forage with out := tl.forage.out.put i { x with lost := x.lost ++ q.2.1 } } }))

theorem State.settleOverlaps_eq (s : State) (t : TileId) (mine : List (Nat × Nat)) : s.settleOverlaps t mine =
    ((((upto 8).foldl (State.settleEngine t mine) ([], s)).2.tile t).forage.out.map (fun x => x.1)).foldl (State.settleOut t mine)
      ((upto 8).foldl (State.settleEngine t mine) ([], s)) := by
  unfold State.settleOverlaps
  generalize upto 8 = l
  rfl

@[simp] theorem State.tile_settlePair (s : State) (theirs : List (Nat × Nat)) (v : TileId) : (s.settlePair mine theirs).2.2.tile v = s.tile v := by
  unfold State.settlePair
  split
  · rfl
  · dsimp only
    split <;> rfl

@[simp] theorem State.cycles_settlePair (s : State) (theirs : List (Nat × Nat)) : (s.settlePair mine theirs).2.2.cycles t = s.cycles t := by
  unfold State.settlePair
  split
  · rfl
  · dsimp only
    split <;> rfl

theorem State.overlapped_settleEngine (p : List Nat × State) (e : Nat) : p.2.Overlapped t (State.settleEngine t mine p e).2 := by
  unfold State.settleEngine
  split
  · exact ⟨.refl _, rfl⟩
  · rename_i r hr
    split
    · exact ⟨.refl _, rfl⟩
    · refine ⟨?_, State.cycles_settlePair ..⟩
      rw [State.tile_modTile, State.tile_settlePair]
      exact Tile.overlapped_setEngine hr _

theorem State.overlapped_settleOut (p : List Nat × State) (i : Nat) : p.2.Overlapped t (State.settleOut t mine p i).2 := by
  unfold State.settleOut
  split
  · exact ⟨.refl _, rfl⟩
  · rename_i x hx
    refine ⟨?_, State.cycles_settlePair ..⟩
    rw [State.tile_modTile, State.tile_settlePair]
    exact Tile.overlapped_setOut hx _

/-- Steps that each only take slots from units in flight do no more together. -/
theorem State.overlapped_foldl {g : List Nat × State → Nat → List Nat × State} (h : ∀ (p : List Nat × State) e, p.2.Overlapped t (g p e).2) :
    ∀ (l : List Nat) (p : List Nat × State), p.2.Overlapped t (l.foldl g p).2
  | [], _ => ⟨.refl _, rfl⟩
  | e :: l, p => (h p e).trans (State.overlapped_foldl h l (g p e))

theorem State.overlapped_settleOverlaps (s : State) : s.Overlapped t (s.settleOverlaps t mine).2 := by
  rw [State.settleOverlaps_eq]
  exact (State.overlapped_foldl State.overlapped_settleEngine _ ([], s)).trans (State.overlapped_foldl State.overlapped_settleOut _ _)

/-! ### A destination that no other unit in flight shares -/

theorem State.settlePair_apart {s : State} {theirs : List (Nat × Nat)} (h : slotsShared mine theirs = []) : s.settlePair mine theirs = ([], [], s) := by
  rw [State.settlePair, if_pos (by rw [h]; rfl)]

/-- A unit whose slots are no other's loses none, and so the other keeps its own. -/
theorem Alone.settleEngine {p : List Nat × State} {e : Nat} (h8 : e < 8) (h : Alone p.2 t none none mine) :
    (State.settleEngine t mine p e).1 = p.1 ∧ Alone (State.settleEngine t mine p e).2 t none none mine := by
  unfold State.settleEngine
  split
  · exact ⟨rfl, h⟩
  · rename_i r hr
    split
    · exact ⟨rfl, h⟩
    · rename_i hs
      have hs : r.unit.stolen = none := by simpa using hs
      dsimp only
      rw [State.settlePair_apart (h.1 e r h8 nofun hr hs)]
      refine ⟨List.append_nil _, fun i q hi _ hq hqs => ?_, fun i x _ hx => ?_⟩
      · rw [State.tile_modTile] at hq ⊢
        by_cases hie : e = i
        · subst hie
          rw [Tile.engine_setEngine] at hq
          obtain rfl := Option.some.inj hq
          exact h.1 e r h8 nofun hr hs
        · rw [Tile.engine_setEngine_other hie] at hq
          exact h.1 i q hi nofun hq hqs
      · rw [State.tile_modTile] at hx ⊢
        exact h.2 i x nofun hx

theorem Alone.settleOut {p : List Nat × State} {i : Nat} (h : Alone p.2 t none none mine) :
    (State.settleOut t mine p i).1 = p.1 ∧ Alone (State.settleOut t mine p i).2 t none none mine := by
  unfold State.settleOut
  split
  · exact ⟨rfl, h⟩
  · rename_i x hx
    dsimp only
    rw [State.settlePair_apart (h.2 i x nofun hx)]
    refine ⟨List.append_nil _, fun e q he _ hq hqs => ?_, fun j y _ hy => ?_⟩
    · rw [State.tile_modTile] at hq ⊢
      exact h.1 e q he nofun hq hqs
    · rw [State.tile_modTile] at hy ⊢
      by_cases hij : i = j
      · subst hij
        have hy : Tab.find (Tab.put (p.2.tile t).forage.out i _) i = some y := hy
        rw [Tab.find_put_same] at hy
        obtain rfl := Option.some.inj hy
        exact h.2 i x nofun hx
      · have hy : Tab.find (Tab.put (p.2.tile t).forage.out i _) j = some y := hy
        rw [Tab.find_put_other _ _ _ _ hij] at hy
        exact h.2 j y nofun hy

/-- Steps that lose no slot of a unit that stands alone lose none together. -/
theorem Alone.foldl {g : List Nat × State → Nat → List Nat × State} : ∀ (l : List Nat) (p : List Nat × State),
    (∀ p : List Nat × State, ∀ e ∈ l, Alone p.2 t none none mine → (g p e).1 = p.1 ∧ Alone (g p e).2 t none none mine) → Alone p.2 t none none mine →
      (l.foldl g p).1 = p.1 ∧ Alone (l.foldl g p).2 t none none mine
  | [], _, _, h => ⟨rfl, h⟩
  | e :: l, p, hg, h => by
    obtain ⟨h1, h2⟩ := hg p e (by simp) h
    obtain ⟨h3, h4⟩ := Alone.foldl l (g p e) (fun q i hi => hg q i (by simp [hi])) h2
    exact ⟨h3.trans h1, h4⟩

theorem Alone.settleOverlaps {s : State} (h : Alone s t none none mine) : (s.settleOverlaps t mine).1 = [] := by
  rw [State.settleOverlaps_eq]
  obtain ⟨h1, h2⟩ := Alone.foldl (g := State.settleEngine t mine) (upto 8) ([], s) (fun p e he => Alone.settleEngine (mem_upto.mp he)) h
  exact (Alone.foldl _ _ (fun p i _ => Alone.settleOut) h2).1.trans h1

end

/-! ### A result in pieces -/

theorem Memory.readN_append (m : Memory) : ∀ (n k a : Nat), m.readN (n + k) a = m.readN n a ++ m.readN k (a + n)
  | 0, k, a => by simp [Memory.readN]
  | n + 1, k, a => by
    rw [Nat.succ_add, Memory.readN, Memory.readN, m.readN_append n k (a + 1), List.cons_append, Nat.add_right_comm, Nat.add_assoc]

/-- Writing the first k pieces of step bytes from o on leaves there the first bytes. -/
theorem Memory.readN_pieces (m : Memory) (o step : Nat) (bs : List Byte) : ∀ k,
    ((((upto k).map (fun i => (o + i * step, (bs.drop (i * step)).take step))).foldl (fun m p => m.writeN p.2 p.1) m).readN
      (min (k * step) bs.length) o) = bs.take (k * step)
  | 0 => by simp [upto, Memory.readN]
  | k + 1 => by
    have hu : upto (k + 1) = upto k ++ [k] := List.range_succ
    rw [hu, List.map_append, List.foldl_append, List.map_singleton, List.foldl_cons, List.foldl_nil]
    have ih := m.readN_pieces o step bs k
    generalize List.foldl _ m _ = m' at ih ⊢
    generalize hc : (bs.drop (k * step)).take step = c
    have hlen : c.length = min step (bs.length - k * step) := by rw [← hc, List.length_take, List.length_drop]
    have hk : (k + 1) * step = k * step + step := Nat.succ_mul k step
    have hn : min ((k + 1) * step) bs.length = min (k * step) bs.length + c.length := by omega
    rw [hn, Memory.readN_append]
    by_cases hs : k * step ≤ bs.length
    · rw [Nat.min_eq_left hs, Memory.readN_writeN, Memory.readN_congr _ _ fun i h1 h2 => Memory.read_writeN_other c m' _ i (.inl h2)]
      rw [Nat.min_eq_left hs] at ih
      rw [ih, ← hc, hk, List.take_add]
    · have h0 : c = [] := List.length_eq_zero_iff.mp (by omega)
      rw [h0, Memory.writeN, ih, List.length_nil, Memory.readN, List.append_nil, List.take_of_length_le (by omega), List.take_of_length_le (by omega)]

theorem State.cells_writePieces (t : TileId) : ∀ (ps : List (Nat × List Byte)) (s : State),
    ((s.writePieces t ps).tile t).mem.cells = ps.foldl (fun m p => m.writeN p.2 p.1) (s.tile t).mem.cells
  | [], _ => rfl
  | p :: ps, s => by
    have h := State.cells_writePieces t ps ((s.merge t p.1 p.2.length).modTile t (fun tl => tl.put p.1 p.2))
    rw [State.tile_modTile] at h
    refine h.trans ?_
    rw [List.foldl_cons, ← Tile.cells_of_calm ((Accessed.merge s t p.1 p.2.length).tile t)]
    rfl

/-- The bytes of a result stand at its destination when no slot is lost. -/
theorem State.get_writePieces (s : State) (t : TileId) (o step : Nat) (hs : 0 < step) (bs : List Byte) :
    ((s.writePieces t (resultPieces o step bs [])).tile t).get o bs.length = bs := by
  have hk : bs.length ≤ cdiv bs.length step * step := by
    unfold cdiv
    have := Nat.lt_div_mul_add (a := bs.length + step - 1) hs
    omega
  have h := (s.tile t).mem.cells.readN_pieces o step bs (cdiv bs.length step)
  rw [Nat.min_eq_right hk, List.take_of_length_le hk] at h
  rw [Tile.get, TileMem.get, State.cells_writePieces, resultPieces]
  rw [List.filter_eq_self.mpr (by simp)]
  exact h

end Sys2Proof.Machine
end

section
/-! PROOFS. Units that retire, and the engines of a tile (O8). -/

namespace Sys2Proof.Machine

/-! ### UNIT_RETIRE: the result of an own unit -/

theorem State.handle_writePieces (t : TileId) (i : Nat) : ∀ (ps : List (Nat × List Byte)) (s : State),
    ((s.writePieces t ps).tile t).handle i = (s.tile t).handle i
  | [], _ => rfl
  | p :: ps, s => by
    rw [State.writePieces, List.foldl_cons, ← State.writePieces, State.handle_writePieces t i ps, State.tile_modTile]
    exact (Accessed.merge s t p.1 p.2.length).handle t i

theorem Tile.piecesUe_of_ue {tl : Tile} (h : tl.mem.ue = []) (ps : List (Nat × List Byte)) : tl.piecesUe ps = none := by
  simp [Tile.piecesUe, TileMem.partialHit, h]

theorem Handle.slotBytes_pos (h : Handle) : 0 < h.slotBytes := Nat.mul_pos (by decide) (Nat.two_pow_pos _)

/-- What stands after a result is written: it may have taken slots of other units, and it has its bytes where no slot is lost. -/
structure State.Written (s u : State) (t : TileId) (d : Desc) (bs : List Byte) (lost : List Nat) : Prop where
  running : ∀ e, ((s.tile t).engine e).running = none → ((u.tile t).engine e).running = none
  out : ∀ i, (s.tile t).forage.out.find i = none → (u.tile t).forage.out.find i = none
  arith : (u.tile t).arith = (s.tile t).arith
  cycles : u.cycles t = s.cycles t
  bytes : lost = [] → Alone s t none none ((s.tile t).destSlots d) → ((s.tile t).handle d.a).consume = false → ((s.tile t).handle d.b).consume = false →
    (u.tile t).get (((s.tile t).handle d.c).slotAt d.cSlot) bs.length = bs

theorem State.putResult_spec {s : State} {t : TileId} (hu : (s.tile t).mem.ue = []) (req : Nat) (d : Desc) (bs : List Byte) (lost : List Nat) :
    ∃ u, s.putResult t req d bs lost = (none, u) ∧ s.Written u t d bs lost := by
  obtain ⟨⟨f, hw, hrun, hout⟩, hcyc⟩ := s.overlapped_settleOverlaps (t := t) (mine := (s.tile t).destSlots d)
  have halone (h : Alone s t none none ((s.tile t).destSlots d)) := h.settleOverlaps
  simp only [State.putResult]
  generalize s.settleOverlaps t ((s.tile t).destSlots d) = p at hw hrun hcyc halone
  obtain ⟨taken, w⟩ := p
  have tile : w.tile t = { s.tile t with forage := f } := hw
  have ue : (w.tile t).mem.ue = [] := by rw [tile]; exact hu
  simp only [Tile.piecesUe_of_ue ue]
  refine ⟨_, rfl, ?_⟩
  generalize hps : resultPieces (((s.tile t).handle d.c).slotAt d.cSlot) ((s.tile t).handle d.c).slotBytes bs (lost ++ taken) = ps
  generalize hv : (w.writePieces t ps).modTile t (fun tl => tl.retireTags d) = v
  have hx := Accessed.served v t req (((s.tile t).handle d.c).slotAt d.cSlot)
  have units : v.units t = w.units t := by
    rw [← hv, ← State.units_writePieces ps w]
    refine State.units_modTile (fun tl => ?_) fun tl => ?_
    · obtain ⟨m, q, e, -⟩ := tl.retireTags_rest d
      rw [e]
    · obtain ⟨m, q, e, -⟩ := tl.retireTags_rest d
      rw [e]
  have units' := (hx.units t).trans units
  simp only [State.units, Prod.mk.injEq] at units'
  obtain ⟨hf, ha, hc⟩ := units'
  refine ⟨fun e he => ?_, fun i hi => ?_, ha.trans (by rw [tile]), hc.trans hcyc, fun hl hal h1 h2 => ?_⟩
  · rw [Tile.engine_of_forage hf]
    exact hrun e he
  · rw [hf, tile]
    exact hout i hi
  · have htaken : taken = [] := halone hal
    rw [hx.get, ← hv, State.tile_modTile, Tile.get_of_cells (Tile.cells_retireTags ?_ ?_), ← hps, hl, htaken, List.append_nil]
    · exact State.get_writePieces _ _ _ _ (Handle.slotBytes_pos _) _
    · rw [State.handle_writePieces, tile]
      exact h1
    · rw [State.handle_writePieces, tile]
      exact h2

section
variable {s : State} {t : TileId} {e : Nat}

@[simp] theorem Tile.engine_clearEngine (tl : Tile) (e now : Nat) : (tl.clearEngine e now).engine e = { tl.engine e with running := none, idleSince := now } :=
  Tile.engine_setEngine ..

/-- A unit that stands alone but for itself stands alone once its engine is free. -/
theorem Alone.clearEngine {mine : List (Nat × Nat)} (h : Alone s t (some e) none mine) :
    Alone (s.modTile t fun tl => tl.clearEngine e (s.cycles t)) t none none mine := by
  refine ⟨fun i r hi _ hr hs => ?_, fun i x _ hx => ?_⟩
  · rw [State.tile_modTile] at hr ⊢
    by_cases he : e = i
    · subst he
      rw [Tile.engine_clearEngine] at hr
      exact absurd hr nofun
    · rw [Tile.clearEngine, Tile.engine_setEngine_other he] at hr
      exact h.1 i r hi (by simpa using he) hr hs
  · rw [State.tile_modTile] at hx ⊢
    exact h.2 i x nofun hx

/-- An own unit whose destination is free retires with its flags and its bytes. -/
theorem State.retireOwn_lands {r : RunUnit} {d : Desc} {o : UnitOut} (hd : d = descOf r.unit.desc) (hc : d.combine = false)
    (hr : (s.tile t).destReady d = true) (hu : (s.tile t).mem.ue = []) : (((s.retireOwn t e r o).tile t).engine e).running = none ∧
      ((s.retireOwn t e r o).tile t).arith = (s.tile t).arith.record r.unit.unitId o.flags e (s.cycles t) ∧
      (r.lost = [] → Alone s t (some e) none ((s.tile t).destSlots d) → ((s.tile t).handle d.a).consume = false → ((s.tile t).handle d.b).consume = false →
        ((s.retireOwn t e r o).tile t).get (((s.tile t).handle d.c).slotAt d.cSlot) o.bytes.length = o.bytes) := by
  generalize hw : s.modTile t (fun tl => tl.clearEngine e (s.cycles t)) = w
  have tile : w.tile t = (s.tile t).clearEngine e (s.cycles t) := by rw [← hw, State.tile_modTile]
  have cycles : w.cycles t = s.cycles t := by rw [← hw]; rfl
  obtain ⟨u, hp, hu'⟩ := State.putResult_spec (s := w) (t := t) (by rw [tile]; exact hu) (e + 1) d o.bytes r.lost
  have hret : s.retireOwn t e r o = (u.countIssue t d).retired t r.unit o.flags e := by
    simp only [State.retireOwn, ← hd, hc, hr, hw, hp, Bool.false_eq_true, if_false, Bool.not_true]
  obtain ⟨hf, ha, hm, -⟩ := (u.countIssue t d).retired_spec t r.unit o.flags e
  have units : (u.countIssue t d).units t = u.units t := State.units_countIssue d
  simp only [State.units, Prod.mk.injEq] at units
  obtain ⟨uf, ua, uc⟩ := units
  have umem : ((u.countIssue t d).tile t).mem = (u.tile t).mem := by
    unfold State.countIssue
    dsimp only
    split <;> rw [State.tile_modTile]
    rfl
  rw [hret]
  refine ⟨?_, ?_, fun hl hal h1 h2 => ?_⟩
  · rw [Tile.engine_of_forage (hf.trans uf)]
    exact hu'.running e (by rw [tile, Tile.engine_clearEngine])
  · rw [ha, ua, uc, hu'.arith, hu'.cycles, tile, cycles]
    rfl
  · rw [Tile.get_of_cells (congrArg TileMem.cells (hm.trans umem))]
    have hb := hu'.bytes hl (by rw [tile, ← hw]; exact hal.clearEngine) (by rw [tile]; exact h1) (by rw [tile]; exact h2)
    rw [tile] at hb
    exact hb

theorem State.retireOwn_waits {r : RunUnit} {d : Desc} {o : UnitOut} (hd : d = descOf r.unit.desc) (hc : d.combine = false)
    (hr : (s.tile t).destReady d = false) : ∃ q, (((s.retireOwn t e r o).tile t).engine e).running = some q ∧ q.unit = r.unit ∧
      q.stallSince = some (r.stallSince.getD (s.run t)) := by
  have hret : s.retireOwn t e r o = s.stallEngine t e r false := by
    simp only [State.retireOwn, ← hd, hc, hr, Bool.false_eq_true, if_false, Bool.not_false, if_true]
  rw [hret, State.stallEngine, State.tile_modTile, Tile.engine_setEngine]
  exact ⟨_, rfl, rfl, rfl⟩

/-! ### Elements forwarded to a combining queue (R221) -/

/-- A contribution spends a credit of its context, and is one write more. -/
theorem State.sendContribution_spec (s : State) (t : TileId) (c slot : Nat) (v : Word) :
    ∃ p, ((s.sendContribution t c slot v).tile t).ctx c = { (s.tile t).ctx c with credits := ((s.tile t).ctx c).credits - 1, pos := p } ∧
      ((s.sendContribution t c slot v).tile t).sync.writes.length = (s.tile t).sync.writes.length + 1 := by
  refine ⟨(((s.tile t).ctx c).pos + 1) % 2 ^ 64, ?_, ?_⟩
  · rw [State.sendContribution, Tile.ctx_of_q (State.q_sendWrite ..), State.tile_setTile]
    exact Tile.ctx_setCtx ..
  · rw [State.sendContribution, State.sendWrite, State.sendWriteOf, State.sendTagged, State.tile_send, State.tile_modTile, State.tile_setTile]
    simp [Tile.setCtx]

/-- With the credits and the room for them, all the elements that remain go out, each for a credit. -/
theorem State.sendElems_all {t : TileId} {d : Desc} {es : List Word} : ∀ (fuel sent : Nat) (s : State), es.length < sent + fuel →
    ((s.tile t).ctx d.conn).state = 2 → es.length - sent ≤ ((s.tile t).ctx d.conn).credits →
    (s.tile t).sync.writes.length + (es.length - sent) < 65535 →
    es.length ≤ (s.sendElems t d es fuel sent).1 ∧
      (((s.sendElems t d es fuel sent).2.tile t).ctx d.conn).credits + (es.length - sent) = ((s.tile t).ctx d.conn).credits
  | 0, sent, s, hl, _, _, _ => ⟨by simp only [State.sendElems]; omega, by simp only [State.sendElems]; omega⟩
  | fuel + 1, sent, s, hl, hst, hcr, hwr => by
    by_cases hs : sent < es.length
    · have hgo : (decide (sent < es.length) && ((s.tile t).ctx d.conn).state == 2 && !(((s.tile t).ctx d.conn).credits == 0) &&
          s.mayWrite t (s.connHdr t ((s.tile t).ctx d.conn) ((s.tile t).ctx d.conn).peerGen)) = true := by
        have h0 : ((s.tile t).ctx d.conn).credits ≠ 0 := by omega
        have hroom := State.mayWrite_of_lt (s := s) (t := t) (by omega) (s.connHdr t ((s.tile t).ctx d.conn) ((s.tile t).ctx d.conn).peerGen)
        simp [hs, hst, h0, hroom]
      obtain ⟨p, hctx, hlen⟩ := s.sendContribution_spec t d.conn (d.cSlot + sent) (nth es sent 0)
      have hrec : s.sendElems t d es (fuel + 1) sent = (s.sendContribution t d.conn (d.cSlot + sent) (nth es sent 0)).sendElems t d es fuel (sent + 1) := by
        rw [State.sendElems, if_pos hgo]
      generalize s.sendContribution t d.conn (d.cSlot + sent) (nth es sent 0) = u at hctx hlen hrec
      obtain ⟨h1, h2⟩ := State.sendElems_all (t := t) (d := d) (es := es) fuel (sent + 1) u (by omega) (by rw [hctx]; exact hst)
        (by rw [hctx]; show _ ≤ _ - 1; omega) (by omega)
      rw [hctx] at h2
      have h2 : ((u.sendElems t d es fuel (sent + 1)).2.tile t |>.ctx d.conn).credits + (es.length - (sent + 1)) =
        ((s.tile t).ctx d.conn).credits - 1 := h2
      rw [hrec]
      exact ⟨h1, by omega⟩
    · have hstop : s.sendElems t d es (fuel + 1) sent = (sent, s) := by
        rw [State.sendElems, if_neg (by simp [hs])]
      rw [hstop]
      exact ⟨by omega, (congrArg (((s.tile t).ctx d.conn).credits + ·) (by omega : es.length - sent = 0)).trans (Nat.add_zero _)⟩

/-- An own combining unit with its credits retires, its elements sent. -/
theorem State.retireOwn_combines {r : RunUnit} {d : Desc} {o : UnitOut} (hd : d = descOf r.unit.desc) (hc : d.combine = true)
    (hk : (s.tile t).sameConn d.conn r.unit.conn = true) (hcr : o.elems.length - r.sent ≤ ((s.tile t).ctx d.conn).credits)
    (hw : (s.tile t).sync.writes.length + o.elems.length < 65535) : (((s.retireOwn t e r o).tile t).engine e).running = none ∧
      (((s.retireOwn t e r o).tile t).ctx d.conn).credits + (o.elems.length - r.sent) = ((s.tile t).ctx d.conn).credits := by
  have hst : ((s.tile t).ctx d.conn).state = 2 := by
    rw [Tile.sameConn, Bool.and_eq_true, beq_iff_eq] at hk
    exact hk.1
  have hlen : (o.elems.map (BitVec.ofNat 32)).length = o.elems.length := List.length_map ..
  obtain ⟨h1, h2⟩ := State.sendElems_all (t := t) (d := d) (es := o.elems.map (BitVec.ofNat 32)) (o.elems.length + 1) r.sent s (by omega) hst
    (by omega) (by omega)
  generalize hp : s.sendElems t d (o.elems.map (BitVec.ofNat 32)) (o.elems.length + 1) r.sent = p at h1 h2
  rw [hlen] at h1 h2
  have hret : s.retireOwn t e r o =
      ((p.2.modTile t (fun tl => (tl.retireTags d).clearEngine e (s.cycles t))).countIssue t d).retired t r.unit o.flags e := by
    simp only [State.retireOwn, ← hd, hc, hk, hp, Nat.not_lt.mpr h1, Bool.not_true, Bool.false_eq_true, if_false, if_true]
  generalize hu : p.2.modTile t (fun tl => (tl.retireTags d).clearEngine e (s.cycles t)) = u at hret
  have tile : u.tile t = ((p.2.tile t).retireTags d).clearEngine e (s.cycles t) := by rw [← hu, State.tile_modTile]
  obtain ⟨hf, -, -, hq⟩ := (u.countIssue t d).retired_spec t r.unit o.flags e
  have units : (u.countIssue t d).units t = u.units t := State.units_countIssue d
  simp only [State.units, Prod.mk.injEq] at units
  have uq : ((u.countIssue t d).tile t).q = (u.tile t).q := by
    unfold State.countIssue
    dsimp only
    split <;> rw [State.tile_modTile]
    rfl
  rw [hret]
  constructor
  · rw [Tile.engine_of_forage (hf.trans units.1), tile, Tile.engine_clearEngine]
  · obtain ⟨m, q, he, hctx⟩ := (p.2.tile t).retireTags_rest d
    have ctxs : (u.tile t).q.ctxs = (p.2.tile t).q.ctxs := by
      rw [tile, he]
      exact hctx
    rw [Tile.ctx, hq, uq, ctxs]
    exact h2

/-! ### A stolen unit's result goes home (R59) -/

/-- The writes of a class are among the tile's. -/
theorem SyncUnit.outstanding_le (u : SyncUnit) (cls : Nat) : u.outstanding cls ≤ u.writes.length := List.length_filter_le ..

theorem State.mesh_countIssue (s : State) (t : TileId) (d : Desc) : (s.countIssue t d).mesh = s.mesh := by
  unfold State.countIssue
  dsimp only
  split <;> rfl

theorem State.forage_sendTagged (s : State) (t : TileId) (h : Hdr) (body : Body) (f : SyncUnit → SyncUnit) :
    ((s.sendTagged t h body f).tile t).forage = (s.tile t).forage := by
  obtain ⟨y, hy⟩ := s.tile_sendTagged t h body f
  rw [hy]

theorem State.sendResult_goes {r : RunUnit} {entry : Nat} {o : UnitOut}
    (hw : (s.tile t).sync.writes.length + (resultWrites r.unit entry o).length ≤ 65535) :
    (((s.sendResult t e r entry o).tile t).engine e).running = none ∧
      ∀ b ∈ resultWrites r.unit entry o, Sent (s.sendResult t e r entry o) (.tile r.unit.home) (.result b) := by
  have room : (s.tile t).sync.outstanding (writeClass t (homeHdr t r.unit)) + (resultWrites r.unit entry o).length ≤ 65535 :=
    Nat.le_trans (Nat.add_le_add_right (SyncUnit.outstanding_le ..) _) hw
  generalize hc : s.modTile t (fun tl => tl.clearEngine e (s.cycles t)) = c
  generalize hv : (resultWrites r.unit entry o).foldl (fun s b => s.sendWrite t (homeHdr t r.unit) (.result b) (.result entry) true) c = v
  have hret : s.sendResult t e r entry o = v.countIssue t (descOf r.unit.desc) := by
    simp only [State.sendResult, room, if_true, hc, hv]
  have forage : (v.tile t).forage = (c.tile t).forage := by
    rw [← hv]
    refine foldl_keeps (fun s : State => (s.tile t).forage) _ (fun s b => ?_) _ _
    exact s.forage_sendTagged ..
  have units : (v.countIssue t (descOf r.unit.desc)).units t = v.units t := State.units_countIssue _
  simp only [State.units, Prod.mk.injEq] at units
  rw [hret]
  refine ⟨?_, fun b hb => ?_⟩
  · rw [Tile.engine_of_forage (units.1.trans forage), ← hc, State.tile_modTile, Tile.engine_clearEngine]
  · refine Sent.of_mesh ?_ (State.mesh_countIssue ..)
    rw [← hv]
    exact foldl_each (P := fun s b => Sent s (.tile r.unit.home) (.result b))
      (fun s b => s.sendWrite t (homeHdr t r.unit) (.result b) (.result entry) true) (fun _ _ => State.sent_sendWrite ..)
      (fun _ _ _ h => Sent.sendTagged h) _ _ b hb

end

/-! ### UNIT_RETIRE -/

section
variable {s : State} {t : TileId} {e : Nat} (hp : (s.tile t).present = true) (hk : s.clocked t = true)
include hp hk

section
variable (h8 : e < 8) {r : RunUnit} (hr : ((s.tile t).engine e).running = some r)
include h8

theorem unitRetire_retires : exec (.unitRetire t e) s = .next (s.retireEngine t e) := by
  have hdo : exec (.unitRetire t e) s = execUnitRetire t e s := rfl
  simp only [execUnitRetire, hp, hk, h8, Bool.and_self, Bool.not_true, Bool.false_eq_true, if_false, if_true] at hdo
  exact hdo

include hr

theorem unitRetire_dataError {o : Nat} (hs : r.unit.stolen = none) (hg : (s.tile t).gathered r = some (.error o)) :
    Does (.unitRetire t e) s (fun v => ((v.tile t).engine e).running = none ∧ (v.tile t).fault.valid = true ∧
      (v.tile t).forage.unitFailed = (s.tile t).forage.unitFailed + 1) := by
  refine .of_next (unitRetire_retires hp hk h8) ?_
  have hret : s.retireEngine t e = (s.ueFault t (e + 1) o r.unit.unitId).failUnit t e r.unit := by simp only [State.retireEngine, hr, hg]
  obtain ⟨c, f, y, h, hf⟩ := (s.tile t).raise_rest ((s.logUe t o 2).cycles t) (e + 1) (ueCode o) (BitVec.ofNat 32 o) (BitVec.ofNat 32 r.unit.unitId)
  have tile : (s.ueFault t (e + 1) o r.unit.unitId).tile t = { s.tile t with core := c, fault := f, st := y } := by
    rw [State.ueFault, State.raise, State.tile_modTile, State.logUe, State.tile_modField]
    exact h
  obtain ⟨h1, -, h3, h4⟩ := State.failUnit_own (s := s.ueFault t (e + 1) o r.unit.unitId) (t := t) (e := e) hs (by rw [tile]; exact hf)
  rw [hret]
  exact ⟨h1, h3, by rw [h4, tile]⟩

variable {d : Desc} {x y z : List Byte} {out : UnitOut} (hd : d = descOf r.unit.desc) (hg : (s.tile t).gathered r = some (.ok (x, y, z)))
  (ho : out = unitResult d r.mode.round r.mode.sat r.mode.seed x y z)
include hd hg ho

omit hp hk h8 in
/-- An own unit that finishes goes on from its reads of memory. -/
theorem State.retireEngine_own (hs : r.unit.stolen = none) : ∃ w, Accessed s w ∧
    s.retireEngine t e = w.retireOwn t e { r with opA := some x, opB := some y, opC := some z } out := by
  refine ⟨if r.opA.isNone then s.readOwn t e d else s, ?_, ?_⟩
  · split
    · exact .readOwn ..
    · exact .refl _
  · simp only [State.retireEngine, hr, hg, hs, ho, hd]

theorem unitRetire_own (hs : r.unit.stolen = none) {P : State → Prop}
    (h : ∀ w, Accessed s w → P (w.retireOwn t e { r with opA := some x, opB := some y, opC := some z } out)) : Does (.unitRetire t e) s P := by
  obtain ⟨w, hw, e'⟩ := State.retireEngine_own hr hd hg ho hs
  exact .of_next ((unitRetire_retires hp hk h8).trans (congrArg _ e')) (h w hw)

theorem unitRetire_lands (hs : r.unit.stolen = none) (hc : d.combine = false) (hdr : (s.tile t).destReady d = true) (hu : (s.tile t).mem.ue = []) :
    Does (.unitRetire t e) s (fun v => ((v.tile t).engine e).running = none ∧
      (v.tile t).arith = (s.tile t).arith.record r.unit.unitId out.flags e (s.cycles t) ∧
      (r.lost = [] → Alone s t (some e) none ((s.tile t).destSlots d) → ((s.tile t).handle d.a).consume = false → ((s.tile t).handle d.b).consume = false →
        (v.tile t).get (((s.tile t).handle d.c).slotAt d.cSlot) out.bytes.length = out.bytes)) := by
  refine unitRetire_own hp hk h8 hr hd hg ho hs fun w hw => ?_
  have calm := hw.tile t
  have ready : (w.tile t).destReady d = (s.tile t).destReady d := (congrArg (fun tl : Tile => tl.destReady d) calm : _)
  have dest (d : Desc) : (w.tile t).destSlots d = (s.tile t).destSlots d := (congrArg (fun tl : Tile => tl.destSlots d) calm : _)
  have alone (h : Alone s t (some e) none ((s.tile t).destSlots d)) : Alone w t (some e) none ((w.tile t).destSlots d) := by
    refine ⟨fun i q hi hne hq hqs => ?_, fun i x hne hx => ?_⟩
    · rw [dest, dest]
      rw [Tile.engine_of_forage (hw.forage t)] at hq
      exact h.1 i q hi hne hq hqs
    · rw [dest, dest]
      rw [hw.forage] at hx
      exact h.2 i x hne hx
  obtain ⟨h1, h2, h3⟩ := State.retireOwn_lands (s := w) (e := e) (r := { r with opA := some x, opB := some y, opC := some z }) (o := out) hd hc
    (ready.trans hdr) ((Tile.ue_of_calm calm).trans hu)
  refine ⟨h1, h2.trans (by rw [hw.arith, hw.cycles]), fun hl hal ha hb => ?_⟩
  have := h3 hl (alone hal) (by rw [hw.handle]; exact ha) (by rw [hw.handle]; exact hb)
  rwa [hw.handle] at this

theorem unitRetire_waits (hs : r.unit.stolen = none) (hc : d.combine = false) (hdr : (s.tile t).destReady d = false) :
    Does (.unitRetire t e) s (fun v => ∃ q, ((v.tile t).engine e).running = some q ∧ q.unit = r.unit ∧
      q.stallSince = some (r.stallSince.getD (s.run t))) := by
  refine unitRetire_own hp hk h8 hr hd hg ho hs fun w hw => ?_
  have ready : (w.tile t).destReady d = (s.tile t).destReady d := (congrArg (fun tl : Tile => tl.destReady d) (hw.tile t) : _)
  have run : w.run t = s.run t := (congrArg Field.runTicks (hw.field (fieldOf t)) : _)
  rw [← run]
  exact State.retireOwn_waits (r := { r with opA := some x, opB := some y, opC := some z }) hd hc (ready.trans hdr)

theorem unitRetire_combines (hs : r.unit.stolen = none) (hc : d.combine = true) (hsc : (s.tile t).sameConn d.conn r.unit.conn = true)
    (hcr : out.elems.length - r.sent ≤ ((s.tile t).ctx d.conn).credits) (hw : (s.tile t).sync.writes.length + out.elems.length < 65535) :
    Does (.unitRetire t e) s (fun v => ((v.tile t).engine e).running = none ∧
      ((v.tile t).ctx d.conn).credits + (out.elems.length - r.sent) = ((s.tile t).ctx d.conn).credits) := by
  refine unitRetire_own hp hk h8 hr hd hg ho hs fun w ha => ?_
  have ctx : (w.tile t).ctx d.conn = (s.tile t).ctx d.conn := Tile.ctx_of_q (Tile.q_of_calm (ha.tile t)) _
  have conn : (w.tile t).sameConn d.conn r.unit.conn = (s.tile t).sameConn d.conn r.unit.conn := by simp only [Tile.sameConn, ctx]
  rw [← ctx] at hcr ⊢
  exact State.retireOwn_combines (r := { r with opA := some x, opB := some y, opC := some z }) hd hc (conn.trans hsc) hcr (by rw [ha.sync]; exact hw)

theorem unitRetire_sendsHome {entry : Nat} {m : HomeMode} (hs : r.unit.stolen = some (entry, m)) (hm : metaFail d x y = none)
    (hw : (s.tile t).sync.writes.length + (resultWrites r.unit entry out).length ≤ 65535) :
    Does (.unitRetire t e) s (fun v => ((v.tile t).engine e).running = none ∧
      ∀ b ∈ resultWrites r.unit entry out, Sent v (.tile r.unit.home) (.result b)) := by
  have hret : s.retireEngine t e = s.sendResult t e r entry out := by
    simp only [State.retireEngine, hr, hg, hs, ho, ← hd, hm]
  exact .of_next ((unitRetire_retires hp hk h8).trans (congrArg _ hret)) (State.sendResult_goes hw)

end

theorem unitRetire_landsWaiting {i : Nat} {x : StealOut} {b : ResultBody} {d : Desc} (hx : (s.tile t).forage.out.find i = some x)
    (hb : x.waiting = some b) (hd : d = descOf x.unit.desc) (hc : d.combine = false) (hr : (s.tile t).destReady d = true) (hu : (s.tile t).mem.ue = []) :
    Does (.unitRetire t (8 + i)) s (fun v => (v.tile t).forage.out.find i = none ∧
      (v.tile t).arith = (s.tile t).arith.record x.unit.unitId b.flags 8 (s.cycles t)) := by
  have hdo : exec (.unitRetire t (8 + i)) s = execUnitRetire t (8 + i) s := rfl
  simp only [execUnitRetire, hp, hk, Nat.not_lt.mpr (Nat.le_add_right 8 i), Bool.and_self, Bool.not_true, Bool.false_eq_true, if_false,
    Nat.add_sub_cancel_left] at hdo
  refine .of_next hdo ?_
  generalize hw : s.modTile t (fun tl => tl.dropOut i) = w
  have tile : w.tile t = (s.tile t).dropOut i := by rw [← hw, State.tile_modTile]
  have cycles : w.cycles t = s.cycles t := by rw [← hw]; rfl
  obtain ⟨u, hput, hu'⟩ := State.putResult_spec (s := w) (t := t) (by rw [tile]; exact hu) 10 d (ResultBody.bytes b) x.lost
  have hret : s.landResult t i = u.retired t x.unit b.flags 8 := by
    simp only [State.landResult, hx, hb, ← hd, hc, hr, hw, hput, Bool.false_eq_true, if_false, Bool.not_true]
  obtain ⟨hf, ha, -, -⟩ := u.retired_spec t x.unit b.flags 8
  rw [hret, hf, ha, hu'.arith, hu'.cycles, tile, cycles]
  exact ⟨hu'.out i (by rw [tile]; exact Tab.find_erase ..), rfl⟩

end

/-- Settles O8: units as they start, retire and move, and engines as they sleep and search. -/
theorem enginesRunUnits : Obligations.EnginesRunUnits := by
  unfold Obligations.EnginesRunUnits
  intro s t e hp hk
  refine ⟨fun u rest d h8 hfz hr hq hd => ⟨fun hu hw => ⟨fun hs hh hm => ?_, fun h hs hh => ?_, fun entry m hs => ?_⟩,
      unitStart_stalls hp hk h8 hfz hr hq⟩,
    fun r d x y z out h8 hr hd hg ho => ⟨unitRetire_lands hp hk h8 hr hd hg ho, unitRetire_waits hp hk h8 hr hd hg ho,
      unitRetire_combines hp hk h8 hr hd hg ho, fun entry m => unitRetire_sendsHome hp hk h8 hr hd hg ho⟩,
    fun r o h8 hr => unitRetire_dataError hp hk h8 hr, fun i x b d => unitRetire_landsWaiting hp hk,
    fun v u h8 => intraTileSteal_moves hp hk h8, engineSleep_sleeps hk, fun v rest => stealSearch_asks, fun n => stealBackoffExpiry_asks⟩
  · exact .of_next (unitStart_starts hp hk h8 hfz hr hq hu hw) (State.startUnit_runs hd hs hh hm)
  · subst hd
    exact .of_next (unitStart_starts hp hk h8 hfz hr hq hu hw) (State.startUnit_fails hs hh)
  · subst hd
    exact .of_next (unitStart_starts hp hk h8 hfz hr hq hu hw) (State.startUnit_asks hs)

end Sys2Proof.Machine
end

section
/-! PROOFS. VC0 packets, orders and raw accesses at a tile, and its reset (O14). -/

namespace Sys2Proof.Machine

/-! ## Requests on VC0 at a tile -/

theorem State.tiles_took_plain {p : Pkt} (h1 : stealKind p.body = false) (h2 : queueKind p.body = false) (s : State) : (s.took p).tiles = s.tiles := by
  have ht : s.taker p = none := by
    unfold State.taker
    split <;> simp [h1, h2]
  have hs : s.turned p = s := by
    unfold State.turned
    rw [ht]
  unfold State.took
  rw [hs]
  split <;> rfl

theorem State.sent_ctrlAnswer (s : State) (h : Hdr) (st : Nat) (data : List Byte) :
    Sent (s.ctrlAnswer h st data) h.src (.ctrlReply h.tag st (data.take (payloadMax 0 - 1))) := s.sent_send _

@[simp] theorem State.tile_ctrlAnswer (s : State) (h : Hdr) (st : Nat) (data : List Byte) (v : TileId) : (s.ctrlAnswer h st data).tile v = s.tile v :=
  State.tile_send ..

theorem State.field_ctrlAnswer (s : State) (h : Hdr) (st : Nat) (data : List Byte) (f : Nat) : (s.ctrlAnswer h st data).field f = s.field f := rfl

section
variable {s : State} {t : TileId} {h : Hdr} {body : Body} {c : Instr} {act : TileId → State → State} {P : State → Prop} (hd : h.dst = .tile t)
  (h1 : stealKind body = false) (h2 : queueKind body = false) (ha : Arrives s h body)
include hd h1 h2 ha

omit hd ha in
theorem State.vc0Refusal_took : (s.took { h := h, body := body }).vc0Refusal t h = s.vc0Refusal t h := by
  simp only [State.vc0Refusal, State.tile_took_plain (p := { h := h, body := body }) h1 h2]

/-- A VC0 request that its tile does not refuse does there what it asks. -/
theorem Does.vc0 (hr : s.vc0Refusal t h = none) (hc : exec c s = .next (s.vc0At h body act)) (hp : P (act t (s.took { h := h, body := body }))) :
    Does c s P := by
  refine .lands (p := { h := h, body := body }) hc ha ?_
  rw [hd]
  simp only [endpTile, State.vc0Refusal_took h1 h2, hr]
  exact hp

/-- One that the tile refuses changes nothing there and is answered. -/
theorem Does.vc0_refused {st : Nat} (hr : s.vc0Refusal t h = some st) (hc : exec c s = .next (s.vc0At h body act)) :
    Does c s (fun u => u.tile t = s.tile t ∧ Sent u h.src (.ctrlReply h.tag st [])) := by
  refine .lands (p := { h := h, body := body }) hc ha ?_
  rw [hd]
  simp only [endpTile, State.vc0Refusal_took h1 h2, hr, State.tile_ctrlAnswer]
  exact ⟨State.tile_took_plain h1 h2 s t, State.sent_ctrlAnswer ..⟩

end

theorem exec_ctrlWrite_tile {s : State} {t : TileId} {h : Hdr} (hd : h.dst = .tile t) (off : Nat) (data : List Byte) :
    exec (.ctrlWrite h off data) s = .next (s.vc0At h (.ctrlWrite off data) (fun t s =>
      (s.rawPut t (vc0Writer h.src) off data).2.ctrlAnswer h (s.rawPut t (vc0Writer h.src) off data).1 [])) := by
  have hdo : exec (.ctrlWrite h off data) s = execCtrlWrite h off data s := rfl
  simp only [execCtrlWrite, hd] at hdo
  exact hdo

theorem exec_ctrlRead_tile {s : State} {t : TileId} {h : Hdr} (hd : h.dst = .tile t) (off len : Nat) :
    exec (.ctrlRead h off len) s = .next (s.vc0At h (.ctrlRead off len) (fun t s =>
      (s.rawGet t off len).2.2.ctrlAnswer h (s.rawGet t off len).1 (s.rawGet t off len).2.1)) := by
  have hdo : exec (.ctrlRead h off len) s = execCtrlRead h off len s := rfl
  simp only [execCtrlRead, hd] at hdo
  exact hdo

/-! ### Accesses of a tile by offset -/

section
variable {s : State} {t : TileId} {o : Nat}

theorem State.rawPut_mem {data : List Byte} (hm : inMem o data.length = true) (hp : (s.tile t).mem.partialHit o data.length = none) (w : Writer) :
    s.rawPut t w o data = (stOk, (s.merge t o data.length).modTile t (fun tl => tl.put o data)) := by
  simp only [State.rawPut, not_inRegs_of_inMem hm, hm, hp, Bool.false_eq_true, if_false, if_true]

theorem State.rawPut_dataError {data : List Byte} {u : Nat} (hm : inMem o data.length = true) (hp : (s.tile t).mem.partialHit o data.length = some u)
    (w : Writer) : s.rawPut t w o data = (stDataError, s.logUe t u 2) := by
  simp only [State.rawPut, not_inRegs_of_inMem hm, hm, hp, Bool.false_eq_true, if_false, if_true]

theorem State.rawPut_unmapped {data : List Byte} (hm : inMem o data.length = false) (hr : inRegs o data.length = false) (w : Writer) :
    s.rawPut t w o data = (stAddressError, s) := by
  simp only [State.rawPut, hr, hm, Bool.false_eq_true, if_false]

theorem State.rawGet_mem {n : Nat} (hm : inMem o n = true) (hp : (s.tile t).mem.hit o n = none) :
    s.rawGet t o n = (stOk, (s.tile t).get o n, s.correct t o n) := by
  simp only [State.rawGet, not_inRegs_of_inMem hm, hm, hp, Bool.false_eq_true, if_false, if_true]

theorem State.rawGet_dataError {n u : Nat} (hm : inMem o n = true) (hp : (s.tile t).mem.hit o n = some u) :
    s.rawGet t o n = (stDataError, (s.tile t).get o n, s.logUe t u 2) := by
  simp only [State.rawGet, not_inRegs_of_inMem hm, hm, hp, Bool.false_eq_true, if_false, if_true]

/-- Bytes put at a tile stand there, and no other byte moves. -/
theorem State.put_spec (s : State) (t : TileId) (o : Nat) (data : List Byte) :
    (((s.merge t o data.length).modTile t (fun tl => tl.put o data)).tile t).get o data.length = data ∧
      SameBut (s.tile t).mem.cells (((s.merge t o data.length).modTile t (fun tl => tl.put o data)).tile t).mem.cells o data.length := by
  rw [State.tile_modTile, ← Tile.cells_of_calm ((Accessed.merge s t o data.length).tile t)]
  exact ⟨Tile.get_put .., fun i h => Memory.read_writeN_other data _ o i h⟩

@[simp] theorem State.tile_logUe (s : State) (t : TileId) (o kind : Nat) (v : TileId) : (s.logUe t o kind).tile v = s.tile v := State.tile_modField ..

end

/-! ### CTRL_WRITE and CTRL_READ at a tile -/

section
variable {s : State} {t : TileId} {h : Hdr} (hd : h.dst = .tile t) (hr : s.vc0Refusal t h = none)
include hd hr

section
variable {off : Nat} {data : List Byte} (ha : Arrives s h (.ctrlWrite off data))
include ha

theorem ctrlWrite_moves (hm : inMem off data.length = true) (hp : (s.tile t).mem.partialHit off data.length = none) :
    Does (.ctrlWrite h off data) s (fun u => (u.tile t).get off data.length = data ∧
      SameBut (s.tile t).mem.cells (u.tile t).mem.cells off data.length ∧ Sent u h.src (.ctrlReply h.tag stOk [])) := by
  refine .vc0 hd rfl rfl ha hr (exec_ctrlWrite_tile hd off data) ?_
  have hT := State.tile_took_plain (p := { h := h, body := .ctrlWrite off data }) rfl rfl s t
  rw [State.rawPut_mem hm (by rw [hT]; exact hp), State.tile_ctrlAnswer]
  have moved := (s.took { h := h, body := .ctrlWrite off data }).put_spec t off data
  rw [hT] at moved
  exact ⟨moved.1, moved.2, State.sent_ctrlAnswer ..⟩

theorem ctrlWrite_dataError {w : Nat} (hm : inMem off data.length = true) (hp : (s.tile t).mem.partialHit off data.length = some w) :
    Does (.ctrlWrite h off data) s (fun u => u.tile t = s.tile t ∧ Sent u h.src (.ctrlReply h.tag stDataError [])) := by
  refine .vc0 hd rfl rfl ha hr (exec_ctrlWrite_tile hd off data) ?_
  have hT := State.tile_took_plain (p := { h := h, body := .ctrlWrite off data }) rfl rfl s t
  rw [State.rawPut_dataError hm (by rw [hT]; exact hp), State.tile_ctrlAnswer, State.tile_logUe, hT]
  exact ⟨rfl, State.sent_ctrlAnswer ..⟩

theorem ctrlWrite_unmapped (hm : inMem off data.length = false) (hg : inRegs off data.length = false) :
    Does (.ctrlWrite h off data) s (fun u => u.tile t = s.tile t ∧ Sent u h.src (.ctrlReply h.tag stAddressError [])) := by
  refine .vc0 hd rfl rfl ha hr (exec_ctrlWrite_tile hd off data) ?_
  rw [State.rawPut_unmapped hm hg, State.tile_ctrlAnswer]
  exact ⟨State.tile_took_plain rfl rfl s t, State.sent_ctrlAnswer ..⟩

end

section
variable {off len : Nat} (ha : Arrives s h (.ctrlRead off len)) (hm : inMem off len = true)
include ha hm

theorem ctrlRead_answered (hp : (s.tile t).mem.hit off len = none) :
    Does (.ctrlRead h off len) s (fun u => (u.tile t).mem.cells = (s.tile t).mem.cells ∧
      Sent u h.src (.ctrlReply h.tag stOk (((s.tile t).get off len).take (payloadMax 0 - 1)))) := by
  refine .vc0 hd rfl rfl ha hr (exec_ctrlRead_tile hd off len) ?_
  have hT := State.tile_took_plain (p := { h := h, body := .ctrlRead off len }) rfl rfl s t
  rw [State.rawGet_mem hm (by rw [hT]; exact hp), State.tile_ctrlAnswer, Tile.cells_of_calm ((Accessed.correct ..).tile t), hT]
  exact ⟨rfl, State.sent_ctrlAnswer ..⟩

theorem ctrlRead_dataError {w : Nat} (hp : (s.tile t).mem.hit off len = some w) :
    Does (.ctrlRead h off len) s (fun u => u.tile t = s.tile t ∧
      Sent u h.src (.ctrlReply h.tag stDataError (((s.tile t).get off len).take (payloadMax 0 - 1)))) := by
  refine .vc0 hd rfl rfl ha hr (exec_ctrlRead_tile hd off len) ?_
  have hT := State.tile_took_plain (p := { h := h, body := .ctrlRead off len }) rfl rfl s t
  rw [State.rawGet_dataError hm (by rw [hT]; exact hp), State.tile_ctrlAnswer, State.tile_logUe, hT]
  exact ⟨rfl, State.sent_ctrlAnswer ..⟩

end

/-! ### Orders at a tile (R62, R163, R167) -/

section
variable (ha : Arrives s h .ctrlAdmit)
include ha

theorem admit_starts (hq : (s.tile t).st = .quarantine) :
    Does (.ctrlOrderAdmit h) s (fun u => (u.tile t).st = .admitted ∧ (u.tile t).core.pc = (s.tile t).core.startPc ∧
      (u.tile t).core.halted = false ∧ (u.tile t).core.regs = (s.tile t).core.regs ∧ Sent u h.src (.ctrlReply h.tag stOk [])) := by
  refine .vc0 hd rfl rfl ha hr rfl ?_
  have hT := State.tile_took_plain (p := { h := h, body := .ctrlAdmit }) rfl rfl s t
  rw [if_pos (by rw [hT]; exact hq), State.tile_ctrlAnswer, State.tile_modTile, hT]
  exact ⟨rfl, rfl, rfl, rfl, State.sent_ctrlAnswer ..⟩

theorem admit_busy (hq : (s.tile t).st ≠ .quarantine) :
    Does (.ctrlOrderAdmit h) s (fun u => u.tile t = s.tile t ∧ Sent u h.src (.ctrlReply h.tag stBusy [])) := by
  refine .vc0 hd rfl rfl ha hr rfl ?_
  have hT := State.tile_took_plain (p := { h := h, body := .ctrlAdmit }) rfl rfl s t
  rw [if_neg (by rw [hT]; exact hq), State.tile_ctrlAnswer]
  exact ⟨hT, State.sent_ctrlAnswer ..⟩

end

end

/-- A switch leaves no other switch armed than stood, and makes its slot or its entry the active one. -/
theorem Tile.switchTo_rest (tl : Tile) (g : SwitchTarget) (now : Nat) : (tl.switchTo g now).fold.armed = tl.fold.armed ∧
    (∀ sl, g = .slot sl → (tl.switchTo g now).fold.active = sl ∧ (tl.switchTo g now).fold.schedEn = false) ∧
    (∀ e, g = .entry e → (tl.switchTo g now).fold.schedPos = e ∧ (tl.switchTo g now).fold.active = (tl.fold.entry e).1 ∧
      (tl.switchTo g now).fold.schedEn = true) := by
  have armed (tl : Tile) (sl : Nat) : (tl.activate sl).fold.armed = tl.fold.armed := by
    unfold Tile.activate Tile.unfire
    split
    · rfl
    · split <;> rfl
  cases g with
  | slot sl =>
    obtain ⟨f, e, ha, hs⟩ := Tile.activate_rest { tl with fold := { tl.fold with switchedAt := some now, schedEn := false } } sl
    refine ⟨armed { tl with fold := { tl.fold with switchedAt := some now, schedEn := false } } sl, fun _ h => ?_, nofun⟩
    obtain rfl := SwitchTarget.slot.inj h
    rw [Tile.switchTo, e]
    exact ⟨ha, hs⟩
  | entry n =>
    obtain ⟨f, e, ha, hs⟩ := Tile.toEntry_rest { tl with fold := { tl.fold with switchedAt := some now, schedEn := true } } n now
    refine ⟨armed { tl with fold := { tl.fold with switchedAt := some now, schedEn := true } } _, nofun, fun _ h => ?_⟩
    obtain rfl := SwitchTarget.entry.inj h
    refine ⟨rfl, ?_⟩
    rw [Tile.switchTo, e]
    exact ⟨ha, hs⟩

/-- A switch order whose tick has passed ends as an event, the switch made and the field's flag set. -/
theorem State.orderSwitch_late {s : State} {t : TileId} {g : SwitchTarget} {at_ : Nat} (h : at_ < s.time) :
    ∃ m : State, s.orderSwitch t g at_ = m.event (fieldOf t) 0x0783 [tileDetail t, at_, s.time] ∧ m.recording = s.recording ∧
      (m.field (fieldOf t)).flt.switchLate = true ∧ (m.tile t).fold.armed = none := by
  rw [State.orderSwitch, if_pos h]
  refine ⟨_, rfl, rfl, ?_, ?_⟩
  · rw [State.field_modField]
  · rw [State.tile_modField, State.tile_modTile]
    exact (Tile.switchTo_rest ..).1

section
variable {s : State} {t : TileId} {h : Hdr} (hd : h.dst = .tile t) (hr : s.vc0Refusal t h = none)
include hd hr

section
variable {tgt : SwitchTarget} {at_ : Nat} (ha : Arrives s h (.ctrlSwitch tgt at_))
include ha

theorem switch_arms (hst : (s.tile t).st = .admitted) (hat : s.time ≤ at_) :
    Does (.ctrlOrderSwitch h tgt at_) s (fun u => (u.tile t).fold.armed = some (tgt, at_) ∧ Sent u h.src (.ctrlReply h.tag stOk [])) := by
  refine .vc0 hd rfl rfl ha hr rfl ?_
  have hT := State.tile_took_plain (p := { h := h, body := .ctrlSwitch tgt at_ }) rfl rfl s t
  rw [if_pos (by rw [hT]; exact hst), State.orderSwitch, if_neg (by rw [State.time_took]; exact Nat.not_lt.mpr hat), State.tile_ctrlAnswer,
    State.tile_modTile]
  exact ⟨rfl, State.sent_ctrlAnswer ..⟩

/-- A switch order whose tick has passed is taken at once and reported. -/
theorem switch_late (hst : (s.tile t).st = .admitted) (hat : at_ < s.time) :
    Does (.ctrlOrderSwitch h tgt at_) s (fun u => (u.field (fieldOf t)).flt.switchLate = true ∧ (u.tile t).fold.armed = none ∧
      Writes s u (fieldOf t) 0x0783 [tileDetail t, at_, s.time]) := by
  refine .vc0 hd rfl rfl ha hr rfl ?_
  have hT := State.tile_took_plain (p := { h := h, body := .ctrlSwitch tgt at_ }) rfl rfl s t
  have hrec := s.recording_took { h := h, body := .ctrlSwitch tgt at_ }
  have htime := s.time_took { h := h, body := .ctrlSwitch tgt at_ }
  rw [if_pos (by rw [hT]; exact hst)]
  generalize s.took { h := h, body := .ctrlSwitch tgt at_ } = w at hrec htime
  obtain ⟨m, e, mrec, mlate, marmed⟩ := w.orderSwitch_late (t := t) (g := tgt) (at_ := at_) (by rw [htime]; exact hat)
  rw [e, State.field_ctrlAnswer, State.tile_ctrlAnswer, State.field_event, State.tile_event, htime]
  exact ⟨mlate, marmed, Writes.among (mrec.trans hrec) (m.writes_event (fieldOf t) 0x0783 [tileDetail t, at_, s.time]) rfl rfl⟩

theorem switch_busy (hst : (s.tile t).st ≠ .admitted) :
    Does (.ctrlOrderSwitch h tgt at_) s (fun u => u.tile t = s.tile t ∧ Sent u h.src (.ctrlReply h.tag stBusy [])) := by
  refine .vc0 hd rfl rfl ha hr rfl ?_
  have hT := State.tile_took_plain (p := { h := h, body := .ctrlSwitch tgt at_ }) rfl rfl s t
  rw [if_neg (by rw [hT]; exact hst), State.tile_ctrlAnswer]
  exact ⟨hT, State.sent_ctrlAnswer ..⟩

end

section
variable {slot : Nat} {ref : Word} {purge : Bool} (ha : Arrives s h (.ctrlDload slot ref purge))
include ha

theorem loadOrder_answers {st n : Nat} {v : State} (h8 : slot < 8) (hok : (s.tile t).refOk (hrefOf ref) = true)
    (hv : (s.took { h := h, body := .ctrlDload slot ref purge }).dloadAt t slot (hrefOf ref) purge = .answer st n v) :
    Does (.ctrlOrderDload h slot ref purge) s (fun u => u.tile t = v.tile t ∧ Sent u h.src (.ctrlReply h.tag st (natLe 4 n))) := by
  refine .vc0 hd rfl rfl ha hr rfl ?_
  have hT := State.tile_took_plain (p := { h := h, body := .ctrlDload slot ref purge }) rfl rfl s t
  have pass : (!((s.took { h := h, body := .ctrlDload slot ref purge }).tile t).refOk (hrefOf ref) || decide (8 ≤ slot)) = false := by
    rw [hT, hok, decide_eq_false (Nat.not_le.mpr h8)]
    rfl
  have fits : (natLe 4 n).take (payloadMax 0 - 1) = natLe 4 n := List.take_of_length_le (by rw [length_natLe]; decide)
  have sent := v.sent_ctrlAnswer h st (natLe 4 n)
  rw [fits] at sent
  simp only [pass, hv, Bool.false_eq_true, if_false, State.tile_ctrlAnswer]
  exact ⟨trivial, sent⟩

theorem loadOrder_refused (hno : (s.tile t).refOk (hrefOf ref) = false ∨ 8 ≤ slot) :
    Does (.ctrlOrderDload h slot ref purge) s (fun u => u.tile t = s.tile t ∧ Sent u h.src (.ctrlReply h.tag stRefused [])) := by
  refine .vc0 hd rfl rfl ha hr rfl ?_
  have hT := State.tile_took_plain (p := { h := h, body := .ctrlDload slot ref purge }) rfl rfl s t
  have stops : (!((s.took { h := h, body := .ctrlDload slot ref purge }).tile t).refOk (hrefOf ref) || decide (8 ≤ slot)) = true := by
    rw [hT, Bool.or_eq_true, Bool.not_eq_true', decide_eq_true_eq]
    exact hno
  rw [if_pos stops, State.tile_ctrlAnswer]
  exact ⟨hT, State.sent_ctrlAnswer ..⟩

end

section
variable {hd' n at_ : Nat} (ha : Arrives s h (.ctrlSample hd' n at_))
include ha

theorem sampleOrder_kept (hoff : (s.tile t).fold.profOn = false) (hv : ((s.tile t).handle hd').valid = true) (h6 : 6 ≤ n) (h16 : n ≤ 16) :
    Does (.ctrlOrderSample h hd' n at_) s (fun u => Sent u h.src (.ctrlReply h.tag stOk []) ∧
      (s.time < at_ → (u.tile t).fold.sampleAt = some (hd', n, at_)) ∧
      (at_ ≤ s.time → (u.tile t).fold.profOn = true ∧ (u.tile t).fold.profHandle = hd' ∧ (u.tile t).fold.profLog = n ∧ (u.tile t).fold.profNext = 0)) := by
  refine .vc0 hd rfl rfl ha hr rfl ?_
  have hT := State.tile_took_plain (p := { h := h, body := .ctrlSample hd' n at_ }) rfl rfl s t
  have htime := s.time_took { h := h, body := .ctrlSample hd' n at_ }
  have hw : within 6 16 n = true := by simp [within, h6, h16]
  have hv' (f : FoldUnit) : (Tile.handle { s.tile t with fold := f } hd').valid = true := hv
  simp only [hT, hoff, hv, hw, htime, Bool.not_true, Bool.or_self, Bool.false_eq_true, if_false, State.tile_ctrlAnswer, State.tile_setTile]
  refine ⟨State.sent_ctrlAnswer .., fun hlt => ?_, fun hle => ?_⟩
  · simp only [Tile.sampleStart, hlt, if_true]
  · simp only [Tile.sampleStart, Nat.not_lt.mpr hle, if_false, hv', Bool.not_true, Bool.or_self, Bool.false_eq_true, Tile.startProfile, and_self]

theorem sampleOrder_busy (hon : (s.tile t).fold.profOn = true) :
    Does (.ctrlOrderSample h hd' n at_) s (fun u => u.tile t = s.tile t ∧ Sent u h.src (.ctrlReply h.tag stBusy [])) := by
  refine .vc0 hd rfl rfl ha hr rfl ?_
  have hT := State.tile_took_plain (p := { h := h, body := .ctrlSample hd' n at_ }) rfl rfl s t
  simp only [hT, hon, if_true, State.tile_ctrlAnswer]
  exact ⟨trivial, State.sent_ctrlAnswer ..⟩

end

end

/-! ### VC0 at a field controller, and answers -/

section
variable {s : State} {g : Hdr} {f : Nat} (hd : g.dst = .fc f)
include hd

theorem ctrlRead_fc {off len : Nat} (hs : vc0Source f g.src = true) (ha : Arrives s g (.ctrlRead off len)) (ho : off % 4 = 0) (hl : len % 4 = 0) :
    Does (.ctrlRead g off len) s (fun u => u.fields = s.fields ∧
      Sent u g.src (.ctrlReply g.tag stOk ((((s.took { h := g, body := .ctrlRead off len }).fcWords f off (len / 4)).take (payloadMax 0 - 1))))) := by
  have hdo : exec (.ctrlRead g off len) s = execCtrlRead g off len s := rfl
  simp only [execCtrlRead, hd] at hdo
  refine .lands (p := { h := g, body := .ctrlRead off len }) hdo ha ?_
  simp only [hs, if_true, ho, hl, and_self]
  exact ⟨s.fields_took _, State.sent_ctrlAnswer ..⟩

theorem ctrlWrite_fc_refused {off : Nat} {data : List Byte} (hs : vc0Source f g.src = false) (ha : Arrives s g (.ctrlWrite off data)) :
    Does (.ctrlWrite g off data) s (fun u => u.fields = s.fields ∧ Sent u g.src (.ctrlReply g.tag stPeerLost [])) := by
  have hdo : exec (.ctrlWrite g off data) s = execCtrlWrite g off data s := rfl
  simp only [execCtrlWrite, hd] at hdo
  refine .lands (p := { h := g, body := .ctrlWrite off data }) hdo ha ?_
  simp only [hs, Bool.false_eq_true, if_false]
  exact ⟨s.fields_took _, State.sent_ctrlAnswer ..⟩

end

theorem ctrlReply_leaves {s : State} {h : Hdr} {re st : Nat} {data : List Byte} (ha : Arrives s h (.ctrlReply re st data)) :
    Does (.ctrlReply h re st data) s (fun u => u = s.took { h := h, body := .ctrlReply re st data }) :=
  .lands (p := { h := h, body := .ctrlReply re st data }) (k := id) rfl ha rfl

/-! ## Raw accesses of the hosts -/

theorem State.rawRefusal_took {s : State} {t : TileId} {h g : Hdr} {body : Body} (h1 : stealKind body = false) (h2 : queueKind body = false) :
    (s.took { h := g, body := body }).rawRefusal t h = s.rawRefusal t h := by
  simp only [State.rawRefusal, State.tile_took_plain (p := { h := g, body := body }) h1 h2]

/-- An access that begins in memory names no register first. -/
theorem first_not_inRegs {o n : Nat} (h : inMem o n = true) : inRegs o 1 = false := by
  have hs : spEnd = 0xC000 := rfl
  have ht : tmEnd = 0x80000 := rfl
  have hr : regBase = 0xF0000 := rfl
  simp only [inMem, inSp, inTm, Bool.or_eq_true, Bool.and_eq_true, decide_eq_true_eq] at h
  simp only [inRegs, Bool.and_eq_false_iff, decide_eq_false_iff_not]
  omega

section
variable {s : State} {t : TileId} {h : Hdr} (hd : h.dst = .tile t)
include hd

section
variable {off : Nat} {data : List Byte} (ha : Arrives s h (.rawWrite off data))
include ha

theorem rawWrite_moves (hr : s.rawRefusal t h = none) (hm : inMem off data.length = true) (hp : (s.tile t).mem.partialHit off data.length = none) :
    Does (.rawWrite h off data) s (fun u => (u.tile t).get off data.length = data ∧
      SameBut (s.tile t).mem.cells (u.tile t).mem.cells off data.length ∧ Sent u h.src (.status (.raw h.tag) stOk)) := by
  refine .lands (p := { h := h, body := .rawWrite off data }) rfl ha ?_
  have hT := State.tile_took_plain (p := { h := h, body := .rawWrite off data }) rfl rfl s t
  have moved := (s.took { h := h, body := .rawWrite off data }).put_spec t off data
  rw [hT] at moved
  simp only [hd, endpTile, State.rawRefusal_took (body := .rawWrite off data) rfl rfl, hr, first_not_inRegs hm, Bool.false_eq_true, if_false]
  rw [State.rawPut_mem hm (by rw [hT]; exact hp), State.status, State.tile_send]
  exact ⟨moved.1, moved.2, State.sent_send ..⟩

theorem rawWrite_registers (hr : s.rawRefusal t h = none) (hg : inRegs off 1 = true) :
    Does (.rawWrite h off data) s (fun u => u.tiles = s.tiles ∧ Sent u h.src (.status (.raw h.tag) stAddressError)) := by
  refine .lands (p := { h := h, body := .rawWrite off data }) rfl ha ?_
  simp only [hd, endpTile, State.rawRefusal_took (body := .rawWrite off data) rfl rfl, hr, hg, if_true]
  exact ⟨State.tiles_took_plain (p := { h := h, body := .rawWrite off data }) rfl rfl s, State.sent_status ..⟩

theorem rawWrite_refused {st : Nat} (hr : s.rawRefusal t h = some st) :
    Does (.rawWrite h off data) s (fun u => u.tiles = s.tiles ∧ Sent u h.src (.status (.raw h.tag) st)) := by
  refine .lands (p := { h := h, body := .rawWrite off data }) rfl ha ?_
  simp only [hd, endpTile, State.rawRefusal_took (body := .rawWrite off data) rfl rfl, hr]
  exact ⟨State.tiles_took_plain (p := { h := h, body := .rawWrite off data }) rfl rfl s, State.sent_status ..⟩

end

section
variable {off len : Nat} (ha : Arrives s h (.rawRead off len))
include ha

theorem rawRead_answered (hr : s.rawRefusal t h = none) (hm : inMem off len = true) (hp : (s.tile t).mem.hit off len = none) :
    Does (.rawRead h off len) s (fun u => (u.tile t).mem.cells = (s.tile t).mem.cells ∧
      Sent u h.src (.reply (.raw h.tag) stOk (((s.tile t).get off len).take (payloadMax 2 - 1)))) := by
  refine .lands (p := { h := h, body := .rawRead off len }) rfl ha ?_
  have hT := State.tile_took_plain (p := { h := h, body := .rawRead off len }) rfl rfl s t
  simp only [hd, endpTile, State.rawRefusal_took (body := .rawRead off len) rfl rfl, hr]
  rw [State.rawGet_mem hm (by rw [hT]; exact hp), hT]
  refine ⟨?_, State.sent_reply ..⟩
  rw [State.reply, State.tile_send, Tile.cells_of_calm ((Accessed.correct ..).tile t), hT]

theorem rawRead_refused {st : Nat} (hr : s.rawRefusal t h = some st) :
    Does (.rawRead h off len) s (fun u => u.tiles = s.tiles ∧ Sent u h.src (.reply (.raw h.tag) st [])) := by
  refine .lands (p := { h := h, body := .rawRead off len }) rfl ha ?_
  simp only [hd, endpTile, State.rawRefusal_took (body := .rawRead off len) rfl rfl, hr]
  exact ⟨State.tiles_took_plain (p := { h := h, body := .rawRead off len }) rfl rfl s, State.sent_reply ..⟩

end
end

/-! ## TILE_RESET_ORDER (R62 to R64) -/

/-- What a tile keeps as it leaves service, and what its events are written with. -/
def State.leaving (s : State) (t : TileId) : (TileMem × Nat) × Scarab × Tab (List Ev) × Nat × Nat × Nat :=
  (((s.tile t).mem, (s.tile t).gen), s.recording)

theorem State.leaving_sendRequest (s : State) (t : TileId) (h : Hdr) (body : Body) : (s.sendRequest t h body).leaving t = s.leaving t := by
  obtain ⟨y, hy⟩ := s.tile_sendTagged t h body (fun u => u)
  rw [State.leaving, State.sendRequest, hy]
  rfl

theorem State.leaving_windowFlush (s : State) (t : TileId) (w : Nat) : (s.windowFlush t w).leaving t = s.leaving t := by
  unfold State.windowFlush
  dsimp only
  refine (foldl_keeps (fun u : State => u.leaving t) _ (fun u r => ?_) _ _).trans ?_
  · unfold State.windowAnswer
    split
    · rw [State.leaving, State.status, State.tile_send]
      rfl
    · rw [State.leaving, State.reply, State.tile_send]
      rfl
  · rw [State.leaving, State.tile_modTile]
    rfl

theorem State.leaving_leaveService (s : State) (t : TileId) : (s.leaveService t).leaving t = s.leaving t := by
  unfold State.leaveService
  dsimp only
  refine (foldl_keeps (fun u : State => u.leaving t) (fun s w => s.windowFlush t w) (fun u w => State.leaving_windowFlush u t w) _ _).trans ?_
  split
  · split
    · exact State.leaving_sendRequest ..
    · rfl
  · rfl

/-- Sleep moves nothing of a tile but its activity. -/
theorem State.tile_sleep (s : State) (t : TileId) : ∃ x, (s.sleep t).tile t = { s.tile t with act := x } := by
  have slept : ∃ x, (s.modTile t (fun tl => if tl.act.asleep then tl else
      { tl with act := { tl.act with asleep := true, asleepAt := s.cycles t } })).tile t = { s.tile t with act := x } := by
    rw [State.tile_modTile]
    split <;> exact ⟨_, rfl⟩
  unfold State.sleep
  dsimp only
  split
  · exact slept
  · rw [State.tile_modField]
    exact slept

theorem State.tile_freeRegs (s : State) (v : TileId) : s.freeRegs.2.tile v = s.tile v := by
  unfold State.freeRegs
  generalize upto 31 = l
  exact foldl_keeps (fun p : Tab Word × State => p.2.tile v) (fun p (i : Nat) => (p.1 ++ [(i + 1, p.2.freeVal.1)], p.2.freeVal.2)) (fun _ _ => rfl) l ([], s)

theorem State.recording_modRec (s : State) (t : TileId) (g : TRec → TRec) : (s.modRec t g).recording = s.recording := rfl

theorem State.tile_modRec (s : State) (t : TileId) (g : TRec → TRec) (v : TileId) : (s.modRec t g).tile v = s.tile v := State.tile_modField ..

section
variable {s : State} {t : TileId} (hs : (s.tile t).inService = true)
include hs

theorem reset_quarantines (hg : (s.tile t).gen < 65535) :
    Does (.tileResetOrder t) s (fun u => (u.tile t).st = .quarantine ∧ (u.tile t).gen = (s.tile t).gen + 1 ∧
      (u.tile t).mem.cells = (s.tile t).mem.cells ∧ (u.tile t).mem.full = [] ∧ (u.tile t).fault.valid = false ∧ (u.tile t).core.halted = true) := by
  have hdo : exec (.tileResetOrder t) s = execTileResetOrder t s := rfl
  simp only [execTileResetOrder, hs, if_true] at hdo
  refine .of_next hdo ?_
  have left := s.leaving_leaveService t
  simp only [State.leaving, Prod.mk.injEq] at left
  obtain ⟨⟨mem, gen⟩, -⟩ := left
  generalize hl : s.leaveService t = l at mem gen
  simp only [State.enterQuarantine, hl, gen, Nat.not_lt.mpr (Nat.succ_le_of_lt hg), if_false]
  generalize hp : l.freeRegs = p
  have tile : p.2.tile t = l.tile t := by rw [← hp, State.tile_freeRegs]
  generalize hu : State.modRec _ _ _ = u
  have cleared : u.tile t = (p.2.tile t).cleared ((s.tile t).gen + 1) p.1 (p.2.cycles t) := by
    rw [← hu, State.tile_modRec]
    exact State.tile_modTile p.2 t fun tl => tl.cleared ((s.tile t).gen + 1) p.1 (p.2.cycles t)
  obtain ⟨x, e⟩ := u.tile_sleep t
  rw [e, cleared, tile]
  exact ⟨rfl, rfl, (congrArg TileMem.cells mem : _), rfl, rfl, rfl⟩

/-- Past its last generation a tile is a hole. -/
theorem reset_retires (hg : 65535 ≤ (s.tile t).gen) :
    Does (.tileResetOrder t) s (fun u => (u.tile t).st = .hole ∧ (u.tile t).gen = (s.tile t).gen ∧ Writes s u (fieldOf t) 0x0D88 [tileDetail t]) := by
  have hdo : exec (.tileResetOrder t) s = execTileResetOrder t s := rfl
  simp only [execTileResetOrder, hs, if_true] at hdo
  refine .of_next hdo ?_
  have left := s.leaving_leaveService t
  simp only [State.leaving, Prod.mk.injEq] at left
  obtain ⟨⟨-, gen⟩, rec_⟩ := left
  generalize hl : s.leaveService t = l at gen rec_
  simp only [State.enterQuarantine, hl, gen, Nat.lt_succ_of_le hg, if_true]
  generalize hm : State.modRec _ _ _ = m
  have tile : m.tile t = { ({} : Tile) with st := .hole, gen := (s.tile t).gen } := by
    rw [← hm, State.tile_modRec, State.tile_modTile, gen]
  have mrec : m.recording = s.recording := by rw [← rec_, ← hm, State.recording_modRec, State.recording_modTile]
  rw [State.tile_event, tile]
  exact ⟨rfl, rfl, Writes.among mrec (m.writes_event (fieldOf t) 0x0D88 [tileDetail t]) rfl rfl⟩

end

/-- Settles O14: each packet on VC0, each order and each raw access as it arrives, and the reset of a tile. -/
theorem ordersAtTiles : Obligations.OrdersAtTiles := by
  unfold Obligations.OrdersAtTiles
  intro s t h hd
  refine ⟨fun hr => ⟨fun off data ha => ⟨ctrlWrite_moves hd hr ha, fun w => ctrlWrite_dataError hd hr ha, ctrlWrite_unmapped hd hr ha⟩,
      fun off len ha => ⟨fun hm => ctrlRead_answered hd hr ha hm, fun w hm => ctrlRead_dataError hd hr ha hm⟩,
      fun ha => ⟨admit_starts hd hr ha, admit_busy hd hr ha⟩,
      fun tgt at_ ha => ⟨switch_arms hd hr ha, switch_late hd hr ha, switch_busy hd hr ha⟩,
      fun slot ref purge ha => ⟨fun st n v => loadOrder_answers hd hr ha, loadOrder_refused hd hr ha⟩,
      fun hd' n at_ ha => ⟨sampleOrder_kept hd hr ha, sampleOrder_busy hd hr ha⟩⟩,
    fun st hr => ⟨fun off data ha => .vc0_refused hd rfl rfl ha hr (exec_ctrlWrite_tile hd off data),
      fun off len ha => .vc0_refused hd rfl rfl ha hr (exec_ctrlRead_tile hd off len), fun ha => .vc0_refused hd rfl rfl ha hr rfl⟩,
    fun g f off len hg hs => ctrlRead_fc hg hs, fun g f off data hg hs => ctrlWrite_fc_refused hg hs, fun re st data => ctrlReply_leaves,
    fun off data ha => ⟨fun hr => ⟨rawWrite_moves hd ha hr, rawWrite_registers hd ha hr⟩, fun st => rawWrite_refused hd ha⟩,
    fun off len ha => ⟨rawRead_answered hd ha, fun st => rawRead_refused hd ha⟩, reset_quarantines, reset_retires⟩

end Sys2Proof.Machine
end

section
/-! SUPPORT. Tokens as they arrive (part of O17). -/

namespace Sys2Proof.Machine

/-! ## Tokens and credits as they arrive -/

theorem nth_set {α : Type} {l : List α} {i : Nat} (h : i < l.length) (a d : α) : nth (l.set i a) i d = a := by
  rw [nth, List.getD_eq_getElem _ _ (by rwa [List.length_set]), List.getElem_set_self]

/-- A tile that is not frozen returns a credit. -/
theorem State.sent_tokenCredit {s : State} {t : TileId} (h : (s.tile t).frozen = false) (b : TokenBody) :
    Sent (s.tokenCredit t b) (.tile b.src) (.tokenCredit b.slot b.emit) := by
  rw [State.tokenCredit, if_neg (by simp [h])]
  exact State.sent_send ..

theorem State.recording_tokenCredit (s : State) (t : TileId) (b : TokenBody) : (s.tokenCredit t b).recording = s.recording := by
  unfold State.tokenCredit
  split <;> rfl

theorem Sent.tokenCredit {s : State} {dst : Endp} {body : Body} (h : Sent s dst body) {t : TileId} {b : TokenBody} :
    Sent (s.tokenCredit t b) dst body := by
  unfold State.tokenCredit
  split
  · exact h
  · exact h.send _

theorem Tile.store_landToken (tl : Tile) (sl : Nat) (im : Image) (b : TokenBody) (now : Nat) :
    (tl.landToken sl im b now).fold.store = tl.fold.store ++ [{ body := b, slot := some sl, since := now }] := by
  unfold Tile.landToken
  dsimp only
  split
  · rfl
  · split <;> rfl

theorem Tile.get_landToken (tl : Tile) (sl : Nat) (im : Image) (b : TokenBody) (now : Nat) (hv : b.void = false) :
    (tl.landToken sl im b now).get (tl.landingOf im b.node b.port b.iteration b.part).1 (32 * b.len) = bytesAt b.payload 0 (32 * b.len) := by
  have hlen := length_bytesAt b.payload 0 (32 * b.len)
  by_cases h0 : b.len = 0
  · rw [h0] at hlen ⊢
    exact (List.length_eq_zero_iff.mp hlen).symm ▸ rfl
  · have put := tl.get_put (tl.landingOf im b.node b.port b.iteration b.part).1 (bytesAt b.payload 0 (32 * b.len))
    rw [hlen] at put
    refine Eq.trans (Tile.get_of_cells ?_ _ _) put
    unfold Tile.landToken
    simp only [hv, beq_eq_false_iff_ne.mpr h0, Bool.or_self, Bool.false_eq_true, if_false]
    split <;> rfl

section
variable {s : State} {t : TileId} {h : Hdr} {b : TokenBody} (hk : s.clocked t = true) (hd : h.dst = .tile t) (ha : Arrives s h (.token b))
include hk hd ha

theorem token_lost (ht : (s.tile t).takes h.dstGen false = false) : Does (.token h b) s (fun u => Sent u h.src (.status (.token b) stPeerLost)) := by
  have hdo : exec (.token h b) s = execToken h b s := rfl
  have hT := State.tile_took_plain (p := { h := h, body := .token b }) rfl rfl s t
  simp only [execToken, hd, State.endClocked, hk, Bool.not_true, Bool.false_eq_true, if_false, State.landing_arrives (p := { h := h, body := .token b }) ha,
    endpTile, hT, ht, Bool.not_false, if_true] at hdo
  exact .of_next hdo (State.sent_status ..)

variable (ht : (s.tile t).takes h.dstGen false = true)
include ht

/-- A token that finds no slot of its epoch is kept unbound. -/
theorem token_kept (hf : (s.tile t).tokenFate b = .keepUnbound) :
    Does (.token h b) s (fun u => (u.tile t).fold.store = (s.tile t).fold.store ++ [{ body := b, slot := none, since := s.run t }] ∧
      Sent u h.src (.status (.token b) stOk)) := by
  have hdo : exec (.token h b) s = execToken h b s := rfl
  have hT := State.tile_took_plain (p := { h := h, body := .token b }) rfl rfl s t
  simp only [execToken, hd, State.endClocked, hk, Bool.not_true, Bool.false_eq_true, if_false, State.landing_arrives (p := { h := h, body := .token b }) ha,
    endpTile, hT, ht, hf, State.run_took] at hdo
  refine .of_next hdo ⟨?_, State.sent_status ..⟩
  rw [State.status, State.tile_send, State.tile_setTile]

theorem token_retried (hf : (s.tile t).tokenFate b = .retry) :
    Does (.token h b) s (fun u => (u.tile t).fold.store = (s.tile t).fold.store ∧ (u.tile t).fold.refused = (s.tile t).fold.refused + 1 ∧
      Sent u h.src (.status (.token b) stRetry)) := by
  have hdo : exec (.token h b) s = execToken h b s := rfl
  have hT := State.tile_took_plain (p := { h := h, body := .token b }) rfl rfl s t
  simp only [execToken, hd, State.endClocked, hk, Bool.not_true, Bool.false_eq_true, if_false, State.landing_arrives (p := { h := h, body := .token b }) ha,
    endpTile, hT, ht, hf] at hdo
  refine .of_next hdo ?_
  rw [State.status, State.tile_send, State.tile_setTile]
  exact ⟨rfl, rfl, State.sent_send ..⟩

theorem token_rejected (hz : (s.tile t).frozen = false) (hf : (s.tile t).tokenFate b = .reject) :
    Does (.token h b) s (fun u => (u.tile t).fold.store = (s.tile t).fold.store ∧ Sent u (.tile b.src) (.tokenCredit b.slot b.emit) ∧
      Sent u h.src (.status (.token b) stRefused) ∧ Writes s u (fieldOf t) 0x0781 [tileDetail t, tileDetail b.src, b.emit]) := by
  have hdo : exec (.token h b) s = execToken h b s := rfl
  have hT := State.tile_took_plain (p := { h := h, body := .token b }) rfl rfl s t
  simp only [execToken, hd, State.endClocked, hk, Bool.not_true, Bool.false_eq_true, if_false, State.landing_arrives (p := { h := h, body := .token b }) ha,
    endpTile, hT, ht, hf] at hdo
  have hrec := s.recording_took { h := h, body := .token b }
  generalize s.took { h := h, body := .token b } = w at hdo hT hrec
  have credit := State.sent_tokenCredit (s := w) (t := t) (by rw [hT]; exact hz) b
  have mrec := (w.recording_tokenCredit t b).trans hrec
  refine .of_next hdo ⟨?_, (credit.event ..).send _, State.sent_status .., Writes.among mrec ((w.tokenCredit t b).writes_event (fieldOf t) 0x0781 [tileDetail t,
      tileDetail b.src, b.emit]) rfl rfl⟩
  rw [State.status, State.tile_send, State.tile_event, State.tile_tokenCredit, hT]

/-- A token that lands is stored for its slot, and its payload stands in its landing slot. -/
theorem token_lands {sl : Nat} {im : Image} (hf : (s.tile t).tokenFate b = .land sl im) :
    Does (.token h b) s (fun u => (u.tile t).fold.store = (s.tile t).fold.store ++ [{ body := b, slot := some sl, since := s.run t }] ∧
      (b.void = false →
        (u.tile t).get ((s.tile t).landingOf im b.node b.port b.iteration b.part).1 (32 * b.len) = bytesAt b.payload 0 (32 * b.len)) ∧
      Sent u h.src (.status (.token b) stOk)) := by
  have hdo : exec (.token h b) s = execToken h b s := rfl
  have hT := State.tile_took_plain (p := { h := h, body := .token b }) rfl rfl s t
  simp only [execToken, hd, State.endClocked, hk, Bool.not_true, Bool.false_eq_true, if_false, State.landing_arrives (p := { h := h, body := .token b }) ha,
    endpTile, hT, ht, hf, State.run_took] at hdo
  refine .of_next hdo ?_
  generalize hw : (s.took { h := h, body := .token b }).setTile t ((s.tile t).landToken sl im b (s.run t)) = w
  have hx := Accessed.served w t 10 ((s.tile t).landingOf im b.node b.port b.iteration b.part).1
  have tile : w.tile t = (s.tile t).landToken sl im b (s.run t) := by rw [← hw, State.tile_setTile]
  rw [State.status, State.tile_send, hx.get, Tile.fold_of_calm (hx.tile t), tile]
  exact ⟨(s.tile t).store_landToken sl im b (s.run t), (s.tile t).get_landToken sl im b (s.run t), State.sent_send ..⟩

end
end Sys2Proof.Machine
end

section
/-! PROOFS. What becomes of a token, credits, sources, the schedule, switches and sampling (part of O17). -/

namespace Sys2Proof.Machine

/-! ### What becomes of a token (R145, R153) -/

section
variable {tl : Tile} {b : TokenBody}

theorem Tile.tokenFate_unbound (hs : tl.slotOfEpoch b.epoch = none) (hu : tl.fold.unbound < 64) (hl : tl.fold.store.length < 512) :
    tl.tokenFate b = .keepUnbound := by
  simp only [Tile.tokenFate, hs, hu, hl, and_self, if_true]

variable {sl : Nat} {im : Image} (hs : tl.slotOfEpoch b.epoch = some (sl, im))
include hs

theorem Tile.tokenFate_reject (hf : tokenFits im b = false) : tl.tokenFate b = .reject := by
  simp only [Tile.tokenFate, hs, hf, Bool.not_false, if_true]

variable (hf : tokenFits im b = true)
include hf

theorem Tile.tokenFate_retry (hw : (im.node b.node).window ≤ iterAhead b.iteration (nth (tl.slot sl).nodes b.node ({} : NodeSt)).oldest) :
    tl.tokenFate b = .retry := by
  simp only [Tile.tokenFate, hs, hf, hw, Bool.not_true, Bool.false_eq_true, if_false, if_true]

theorem Tile.tokenFate_land (hw : iterAhead b.iteration (nth (tl.slot sl).nodes b.node ({} : NodeSt)).oldest < (im.node b.node).window)
    (hl : tl.fold.store.length < 512) (hfree : (tl.landingOf im b.node b.port b.iteration b.part).2.2 = false ∨
      tl.mem.isFull (tl.landingOf im b.node b.port b.iteration b.part).1 = false ∨ b.void = true) : tl.tokenFate b = .land sl im := by
  have free : (!b.void && decide (0 < b.len) && (tl.landingOf im b.node b.port b.iteration b.part).2.2 &&
      tl.mem.isFull (tl.landingOf im b.node b.port b.iteration b.part).1) = false := by
    rcases hfree with h | h | h <;> simp [h]
  simp only [Tile.tokenFate, hs, hf, Nat.not_le.mpr hw, Nat.not_le.mpr hl, free, Bool.not_true, Bool.false_eq_true, if_false]

end

/-! ### Credits, orphans and refused tokens -/

theorem Tile.slot_of_fold {a b : Tile} (h : a.fold = b.fold) (i : Nat) : a.slot i = b.slot i := by simp [Tile.slot, h]

section
variable {s : State} {t : TileId} (hp : (s.tile t).present = true) (hk : s.clocked t = true)

section
variable {h : Hdr} {slot emit : Nat} (hd : h.dst = .tile t) (ha : Arrives s h (.tokenCredit slot emit))
include hk hd ha

theorem tokenCredit_stale (hg : h.dstGen ≠ (s.tile t).gen) : Does (.tokenCredit h slot emit) s (fun u => u.tile t = s.tile t) := by
  have hdo : exec (.tokenCredit h slot emit) s = execTokenCredit h slot emit s := rfl
  have hT := State.tile_took_plain (p := { h := h, body := .tokenCredit slot emit }) rfl rfl s t
  simp only [execTokenCredit, hd, State.endClocked, hk, State.landing_arrives (p := { h := h, body := .tokenCredit slot emit }) ha, endpTile, hT,
    beq_eq_false_iff_ne.mpr hg, Bool.and_false, Bool.not_true, Bool.false_eq_true, if_false] at hdo
  exact .of_next hdo hT

include hp in
theorem tokenCredit_returns (hg : h.dstGen = (s.tile t).gen) (he : emit < ((s.tile t).slot slot).credits.length) :
    Does (.tokenCredit h slot emit) s (fun u => nth ((u.tile t).slot slot).credits emit 0 = nth ((s.tile t).slot slot).credits emit 0 + 1) := by
  have hdo : exec (.tokenCredit h slot emit) s = execTokenCredit h slot emit s := rfl
  have hT := State.tile_took_plain (p := { h := h, body := .tokenCredit slot emit }) rfl rfl s t
  simp only [execTokenCredit, hd, State.endClocked, hk, State.landing_arrives (p := { h := h, body := .tokenCredit slot emit }) ha, endpTile, hT, hp, hg,
    beq_self_eq_true, Bool.and_self, Bool.not_true, Bool.false_eq_true, if_false, if_true] at hdo
  refine .of_next hdo ?_
  rw [State.tile_setTile, Tile.slot_setSlot]
  exact nth_set he ..

end

variable (hz : (s.tile t).frozen = false)
include hk

include hz in
theorem tokenOrphan_discards {i lim : Nat} {k : Tok} (hi : (s.tile t).fold.store[i]? = some k) (hs : k.slot = none)
    (he : (s.tile t).slotOfEpoch k.body.epoch = none) (hw : (s.tile t).watchdog = some lim) (hl : lim ≤ s.run t - k.since) :
    Does (.tokenOrphan t i) s (fun u => (u.tile t).fold.store = (s.tile t).fold.store.eraseIdx i ∧
      (u.tile t).fold.orphan = (s.tile t).fold.orphan + 1 ∧ Sent u (.tile k.body.src) (.tokenCredit k.body.slot k.body.emit) ∧
      Writes s u (fieldOf t) 0x0782 [tileDetail t, k.body.epoch, k.body.iteration]) := by
  have hdo : exec (.tokenOrphan t i) s = execTokenOrphan t i s := rfl
  simp only [execTokenOrphan, hi, hw, hs, he, hk, hl, Option.isNone_none, decide_true, Bool.and_self, if_true] at hdo
  refine .of_next hdo ?_
  generalize hm : s.setTile t { s.tile t with
    fold := { (s.tile t).fold with store := (s.tile t).fold.store.eraseIdx i, orphan := (s.tile t).fold.orphan + 1 } } = m
  have tile : m.tile t = { s.tile t with
      fold := { (s.tile t).fold with store := (s.tile t).fold.store.eraseIdx i, orphan := (s.tile t).fold.orphan + 1 } } := by
    rw [← hm, State.tile_setTile]
  have mrec : (m.tokenCredit t k.body).recording = s.recording := by rw [State.recording_tokenCredit, ← hm]; rfl
  rw [State.tile_event, State.tile_tokenCredit, tile]
  exact ⟨rfl, rfl, (State.sent_tokenCredit (by rw [tile]; exact hz) k.body).event ..,
    Writes.among mrec ((m.tokenCredit t k.body).writes_event (fieldOf t) 0x0782 [tileDetail t, k.body.epoch, k.body.iteration]) rfl rfl⟩

include hp hz in
theorem tokenRetry_resends {i : Nat} {k : HeldTok} (hi : (s.tile t).fold.held[i]? = some k) (hs : k.sent = false) (hdue : k.due ≤ s.cycles t) :
    Does (.tokenRetryResend t i) s (fun u => Sent u k.h.dst (.token k.body) ∧ (u.tile t).fold.retry = (s.tile t).fold.retry + 1) := by
  have hdo : exec (.tokenRetryResend t i) s = execTokenRetryResend t i s := rfl
  simp only [execTokenRetryResend, hi, hs, hdue, hp, hk, hz, decide_true, Bool.not_false, Bool.and_self, if_true] at hdo
  refine .of_next hdo ⟨State.sent_send .., ?_⟩
  rw [State.tile_send, State.tile_setTile]

/-! ### Sources, the schedule, switches and arming (R161, R163, R164) -/

include hp

include hz in
theorem sourceFire_fires {slot node : Nat} {im : Image} (him : ((s.tile t).slot slot).image = some im) (hkind : (im.node node).kind = 3)
    (hn : node < im.nodes.length) (harm : 0 < ((s.tile t).slot slot).armed) (hact : (s.tile t).fold.active = slot)
    (hr : (s.tile t).fold.ready.length < 32) (ho : (nth ((s.tile t).slot slot).nodes node ({} : NodeSt)).openCount < (im.node node).window) :
    Does (.sourceFire t slot node) s (fun u => ((u.tile t).slot slot).armed + 1 = ((s.tile t).slot slot).armed ∧
      (u.tile t).fold.ready = (s.tile t).fold.ready ++ [(slot, node, (nth ((s.tile t).slot slot).nodes node ({} : NodeSt)).next)]) := by
  have hdo : exec (.sourceFire t slot node) s = execSourceFire t slot node s := rfl
  simp only [execSourceFire, him, hkind, hn, beq_eq_false_iff_ne.mpr (Nat.ne_of_gt harm), hact, hz, hp, hk, ho, hr, beq_self_eq_true, decide_true,
    Bool.not_false, Bool.and_self, if_true] at hdo
  refine .of_next hdo ?_
  rw [State.tile_setTile]
  exact ⟨(congrArg (fun x : Slot => x.armed + 1) (Tab.getD_put_same (s.tile t).fold.slots slot _ {})).trans (Nat.sub_add_cancel harm), rfl⟩

theorem scheduleMove_moves {n : Nat} (hen : (s.tile t).fold.schedEn = true) (hlen : (s.tile t).fold.schedLen ≠ 0)
    (hn : (s.tile t).nextEntry (s.tile t).fold.schedPos = some n)
    (hend : ((s.tile t).fold.entry (s.tile t).fold.schedPos).2 ≠ 0 ∧
        (s.tile t).fold.dwellFrom + ((s.tile t).fold.entry (s.tile t).fold.schedPos).2 ≤ s.cycles t ∨
      ((s.tile t).fold.entry (s.tile t).fold.schedPos).2 = 0 ∧ (s.tile t).slotBusy ((s.tile t).fold.entry (s.tile t).fold.schedPos).1 = false) :
    Does (.foldScheduleMove t) s (fun u => (u.tile t).fold.schedPos = n ∧ (u.tile t).fold.active = ((s.tile t).fold.entry n).1 ∧
      (u.tile t).fold.dwellFrom = s.cycles t) := by
  have hdo : exec (.foldScheduleMove t) s = execFoldScheduleMove t s := rfl
  have ended : (if ((s.tile t).fold.entry (s.tile t).fold.schedPos).2 = 0 then !(s.tile t).slotBusy ((s.tile t).fold.entry (s.tile t).fold.schedPos).1
      else decide ((s.tile t).fold.dwellFrom + ((s.tile t).fold.entry (s.tile t).fold.schedPos).2 ≤ s.cycles t)) = true := by
    rcases hend with ⟨h0, hl⟩ | ⟨h0, hb⟩
    · rw [if_neg h0]
      exact decide_eq_true hl
    · rw [if_pos h0, hb]
      rfl
  simp only [execFoldScheduleMove, hen, beq_eq_false_iff_ne.mpr hlen, ended, hp, hk, hn, Bool.not_false, Bool.and_self, if_true] at hdo
  refine .of_next hdo ?_
  obtain ⟨f, e, hact, -⟩ := (s.tile t).activate_rest ((s.tile t).fold.entry n).1
  rw [State.tile_setTile, Tile.toEntry, e]
  exact ⟨rfl, hact, rfl⟩

theorem switchAt_takes {tgt : SwitchTarget} {at_ : Nat} (harm : (s.tile t).fold.armed = some (tgt, at_)) (hat : at_ ≤ s.time) :
    Does (.foldSwitchAtT t) s (fun u => (u.tile t).fold.armed = none ∧
      (∀ sl, tgt = .slot sl → (u.tile t).fold.active = sl ∧ (u.tile t).fold.schedEn = false) ∧
      (∀ e, tgt = .entry e → (u.tile t).fold.schedPos = e ∧ (u.tile t).fold.active = ((s.tile t).fold.entry e).1 ∧ (u.tile t).fold.schedEn = true)) := by
  have hdo : exec (.foldSwitchAtT t) s = execFoldSwitchAtT t s := rfl
  simp only [execFoldSwitchAtT, harm, hat, hp, hk, and_self, if_true] at hdo
  refine .of_next hdo ?_
  rw [State.tile_setTile]
  exact Tile.switchTo_rest ..

omit hp hk in
theorem slotArm_adds {w : Writer} {slot n : Nat} (h8 : slot < 8) (hw : w = .core ∨ w = .fc) :
    Does (.slotArm t w slot n) s (fun u => ((u.tile t).slot slot).armed = satAdd (iterMod - 1) ((s.tile t).slot slot).armed (n % iterMod)) := by
  have hdo : exec (.slotArm t w slot n) s = execSlotArm t w slot n s := rfl
  have mine : coreOrFc w = true := by rcases hw with rfl | rfl <;> rfl
  simp only [execSlotArm, mine, h8, decide_true, Bool.and_self, if_true] at hdo
  refine .of_next hdo ?_
  rw [State.tile_setTile, Tile.slot_setSlot]

/-! ### Sampling (R167) -/

omit hp hk in
theorem length_profileRecord (tl : Tile) (now : Nat) : (tl.profileRecord now).length = 32 := by
  simp [Tile.profileRecord, length_natLe, upto]

section
variable (hon : (s.tile t).fold.profOn = true) (hat : (s.tile t).fold.sampleAt = none) (hdue : (s.tile t).fold.profDue ≤ s.cycles t)
include hon hat hdue

theorem profileSample_written : Does (.profileSample t true) s (fun u =>
    (u.tile t).get (((s.tile t).handle (s.tile t).fold.profHandle).slotAt 0 + 32 * (s.tile t).fold.profNext) 32 = (s.tile t).profileRecord (s.cycles t) ∧
    (u.tile t).fold.profDue = (s.tile t).fold.profDue + 2 ^ (s.tile t).fold.profLog) := by
  have hdo : exec (.profileSample t true) s = execProfileSample t true s := rfl
  have idle (now cyc n : Nat) : (s.tile t).sampleStart now cyc n = s.tile t := by simp only [Tile.sampleStart, hat]
  have cycles (tl : Tile) : (s.setTile t tl).cycles t = s.cycles t := rfl
  have clocked (tl : Tile) : (s.setTile t tl).clocked t = s.clocked t := rfl
  simp only [execProfileSample, State.modTile, idle, State.tile_setTile, cycles, clocked, hon, hp, hk, hdue, decide_true, Bool.and_self, Bool.not_true,
    Bool.false_eq_true, if_false, if_true] at hdo
  refine .of_next hdo ?_
  rw [State.tile_setTile]
  refine ⟨?_, rfl⟩
  have put := (s.tile t).get_put (((s.tile t).handle (s.tile t).fold.profHandle).slotAt 0 + 32 * (s.tile t).fold.profNext) ((s.tile t).profileRecord (s.cycles t))
  rw [length_profileRecord] at put
  exact put

theorem profileSample_dropped : Does (.profileSample t false) s (fun u => (u.tile t).fold.profLost = (s.tile t).fold.profLost + 1 ∧
    (u.tile t).fold.profLostBit = true ∧ (u.tile t).mem = (s.tile t).mem) := by
  have hdo : exec (.profileSample t false) s = execProfileSample t false s := rfl
  have idle (now cyc n : Nat) : (s.tile t).sampleStart now cyc n = s.tile t := by simp only [Tile.sampleStart, hat]
  have cycles (tl : Tile) : (s.setTile t tl).cycles t = s.cycles t := rfl
  have clocked (tl : Tile) : (s.setTile t tl).clocked t = s.clocked t := rfl
  simp only [execProfileSample, State.modTile, idle, State.tile_setTile, cycles, clocked, hon, hp, hk, hdue, decide_true, Bool.and_self, Bool.not_true,
    Bool.false_eq_true, if_false] at hdo
  refine .of_next hdo ?_
  rw [State.tile_event, State.tile_setTile]
  exact ⟨rfl, rfl, rfl⟩

end
end
end Sys2Proof.Machine
end

section
/-! PROOFS. Firings as they issue (part of O17). -/

namespace Sys2Proof.Machine

/-! ## Firings as they issue (R150, R151) -/

@[simp] theorem Tile.ctxs_fillReady (tl : Tile) : tl.fillReady.fold.ctxs = tl.fold.ctxs := rfl
@[simp] theorem Tile.slot_fillReady (tl : Tile) (i : Nat) : tl.fillReady.slot i = tl.slot i := rfl
@[simp] theorem Tile.voids_fillReady (tl : Tile) : tl.fillReady.fold.voids = tl.fold.voids := rfl
@[simp] theorem Tile.readySince_fillReady (tl : Tile) : tl.fillReady.fold.readySince = tl.fold.readySince := rfl

/-- Complete firings enter behind the ready list. -/
theorem Tile.ready_fillReady {tl : Tile} (h : tl.fold.ready.length ≤ 32) : tl.fillReady.fold.ready.take tl.fold.ready.length = tl.fold.ready := by
  show ((tl.fold.ready ++ tl.readyCandidates).take 32).take tl.fold.ready.length = tl.fold.ready
  rw [List.take_take, Nat.min_eq_left h, List.take_left]

theorem Accessed.controlRead (s : State) (t : TileId) (im : Image) (sl node i : Nat) : Accessed s (s.controlRead t im sl node i) := by
  unfold State.controlRead
  dsimp only
  split
  · exact .read ..
  · exact .refl s

/-- A firing of a node without actions goes on to its emits. -/
theorem State.runActions_none {s : State} {t : TileId} {c fuel : Nat} {x : FCtx} {im : Image} (hx : (s.tile t).fold.ctxs.find c = some x)
    (him : ((s.tile t).slot x.slot).image = some im) (hn : (im.node x.node).actCount = 0) (ho : x.outstanding = 0) :
    s.runActions t c (fuel + 1) = s.setTile t ((s.tile t).setFiring c { x with phase := .emit 0 0, since := none }) := by
  simp only [State.runActions, hx, him, hn, ho, Nat.zero_le, if_true]

section
variable {s : State} {t : TileId} (hp : (s.tile t).present = true) (hk : s.clocked t = true) (hz : (s.tile t).frozen = false) {sl node i : Nat}
  {rest : List (Nat × Nat × Nat)} {im : Image} (hc : (s.tile t).fold.ctxs = []) (hr : (s.tile t).fold.ready = (sl, node, i) :: rest)
  (him : ((s.tile t).slot sl).image = some im)
include hp hk hz hc hr him

theorem firingIssue_stalls (hf : (s.tile t).inputsFull im sl node i = false) :
    Does (.firingIssue t) s (fun u => (u.tile t).fold.ready = (s.tile t).fold.ready ∧
      (u.tile t).fold.readySince = some ((s.tile t).fold.readySince.getD (s.run t))) := by
  have hdo : exec (.firingIssue t) s = execFiringIssue t s := rfl
  have free : firstBelow 4 (fun c => (Tab.find ([] : Tab FCtx) c).isNone) = some 0 := by decide
  simp only [execFiringIssue, State.fireIssue, hp, hk, hz, hc, hr, him, hf, free, Bool.and_self, Bool.not_true, Bool.or_self, Bool.false_eq_true, if_false,
    List.find?_nil] at hdo
  refine .of_next hdo ?_
  rw [State.tile_setTile]
  exact ⟨hr.symm, rfl⟩

variable (hf : (s.tile t).inputsFull im sl node i = true)
include hf

theorem firingIssue_issues : exec (.firingIssue t) s = .next (s.issueFiring t im 0 sl node i rest) := by
  have hdo : exec (.firingIssue t) s = execFiringIssue t s := rfl
  have free : firstBelow 4 (fun c => (Tab.find ([] : Tab FCtx) c).isNone) = some 0 := by decide
  simp only [execFiringIssue, State.fireIssue, hp, hk, hz, hc, hr, him, hf, free, Bool.and_self, Bool.not_true, Bool.or_self, Bool.false_eq_true, if_false,
    if_true, List.find?_nil] at hdo
  exact hdo

end

/-- The tile whose ready list has lost its head. -/
def Tile.taken (tl : Tile) (rest : List (Nat × Nat × Nat)) : Tile := { tl with fold := { tl.fold with ready := rest, readySince := none } }

/-- A firing context as it is taken. -/
def FCtx.begun (sl node i : Nat) (k : FPhase) (isVoid : Bool) (choose : Nat) : FCtx :=
  { slot := sl, node := node, iter := i, phase := k, isVoid := isVoid, choose := choose }

section
variable {s : State} {t : TileId} {sl node i : Nat} {rest : List (Nat × Nat × Nat)} {im : Image}

/-- What a firing starts from is the tile as it was, its reads made. -/
theorem State.kind_controlRead : (((s.controlRead t im sl node i).tile t).taken rest).fireKind im sl node i = (s.tile t).fireKind im sl node i :=
  (congrArg (fun tl : Tile => tl.fireKind im sl node i) ((Accessed.controlRead s t im sl node i).tile t) : _)

theorem State.fold_controlRead : ((s.controlRead t im sl node i).tile t).fold = (s.tile t).fold :=
  Tile.fold_of_calm ((Accessed.controlRead s t im sl node i).tile t)

theorem State.issueFiring_conflict (hkind : (s.tile t).fireKind im sl node i = .conflict) :
    s.issueFiring t im 0 sl node i rest = ((s.controlRead t im sl node i).setTile t (((s.controlRead t im sl node i).tile t).taken rest)).raise t 9
      0x070B (fireInfo sl node 0 0) (BitVec.ofNat 32 i) := by
  have kind := (State.kind_controlRead (s := s) (t := t) (rest := rest)).trans hkind
  unfold Tile.taken at kind ⊢
  simp only [State.issueFiring, kind]

theorem State.issueFiring_void (hkind : (s.tile t).fireKind im sl node i = .void) : ∃ tl : Tile, tl.fold.ctxs = (s.tile t).fold.ctxs ∧
    tl.fold.voids = (s.tile t).fold.voids + 1 ∧
    s.issueFiring t im 0 sl node i rest = (s.controlRead t im sl node i).setTile t (tl.setFiring 0 (.begun sl node i (.emit 0 0) true 2)).fillReady := by
  have kind := (State.kind_controlRead (s := s) (t := t) (rest := rest)).trans hkind
  have fold := State.fold_controlRead (s := s) (t := t) (im := im) (sl := sl) (node := node) (i := i)
  unfold Tile.taken at kind
  simp only [State.issueFiring, kind]
  generalize (s.controlRead t im sl node i).tile t = tl at fold
  exact ⟨{ tl.taken rest with fold := { (tl.taken rest).fold with voids := tl.fold.voids + 1 } }, (congrArg FoldUnit.ctxs fold : _),
    (congrArg (fun f : FoldUnit => f.voids + 1) fold : _), rfl⟩

theorem State.issueFiring_choose {n : Nat} (hkind : (s.tile t).fireKind im sl node i = .choose n) :
    s.issueFiring t im 0 sl node i rest = (s.controlRead t im sl node i).setTile t
      ((((s.controlRead t im sl node i).tile t).taken rest).setFiring 0 (.begun sl node i (.emit 0 0) false n)).fillReady := by
  have kind := (State.kind_controlRead (s := s) (t := t) (rest := rest)).trans hkind
  unfold Tile.taken at kind ⊢
  simp only [State.issueFiring, kind, FCtx.begun]

theorem State.issueFiring_acts (hkind : (s.tile t).fireKind im sl node i = .acts) :
    s.issueFiring t im 0 sl node i rest = ((s.controlRead t im sl node i).setTile t
      ((((s.controlRead t im sl node i).tile t).taken rest).setFiring 0 (.begun sl node i .issue false 0)).fillReady).runActions t 0 257 := by
  have kind := (State.kind_controlRead (s := s) (t := t) (rest := rest)).trans hkind
  unfold Tile.taken at kind ⊢
  simp only [State.issueFiring, kind, FCtx.begun]

@[simp] theorem Tile.find_setFiring (tl : Tile) (c : Nat) (x : FCtx) : (tl.setFiring c x).fold.ctxs.find c = some x := Tab.find_put_same ..
@[simp] theorem Tile.ready_setFiring (tl : Tile) (c : Nat) (x : FCtx) : (tl.setFiring c x).fold.ready = tl.fold.ready := rfl
@[simp] theorem Tile.readySince_setFiring (tl : Tile) (c : Nat) (x : FCtx) : (tl.setFiring c x).fold.readySince = tl.fold.readySince := rfl
@[simp] theorem Tile.slot_setFiring (tl : Tile) (c : Nat) (x : FCtx) (i : Nat) : (tl.setFiring c x).slot i = tl.slot i := rfl

end

section
variable {s : State} {t : TileId} (hp : (s.tile t).present = true) (hk : s.clocked t = true) (hz : (s.tile t).frozen = false) {sl node i : Nat}
  {rest : List (Nat × Nat × Nat)} {im : Image} (hc : (s.tile t).fold.ctxs = []) (hr : (s.tile t).fold.ready = (sl, node, i) :: rest)
  (him : ((s.tile t).slot sl).image = some im) (hf : (s.tile t).inputsFull im sl node i = true)
include hp hk hz hc hr him hf

theorem firingIssue_conflict (hkind : (s.tile t).fireKind im sl node i = .conflict) :
    Does (.firingIssue t) s (fun u => (u.tile t).fault.valid = true ∧ (u.tile t).fault.code = 0x070B ∧ (u.tile t).fault.unit = 9 ∧
      (u.tile t).fold.ctxs = []) := by
  refine .of_next (firingIssue_issues hp hk hz hc hr him hf) ?_
  have fold := State.fold_controlRead (s := s) (t := t) (im := im) (sl := sl) (node := node) (i := i)
  have fault := Tile.fault_of_calm ((Accessed.controlRead s t im sl node i).tile t)
  rw [State.issueFiring_conflict hkind]
  generalize s.controlRead t im sl node i = w at fold fault
  have clear : ¬((w.tile t).taken rest).fault.valid = true := by
    rw [show ((w.tile t).taken rest).fault = (w.tile t).fault from rfl, fault]
    exact Bool.eq_false_iff.mp hz
  rw [State.raise, State.tile_modTile, State.tile_setTile, Tile.raise, if_neg clear]
  exact ⟨rfl, rfl, rfl, (congrArg FoldUnit.ctxs fold).trans hc⟩

theorem firingIssue_void (hkind : (s.tile t).fireKind im sl node i = .void) :
    Does (.firingIssue t) s (fun u => (u.tile t).fold.voids = (s.tile t).fold.voids + 1 ∧
      ∃ x, (u.tile t).fold.ctxs.find 0 = some x ∧ x.slot = sl ∧ x.node = node ∧ x.iter = i ∧ x.phase = .emit 0 0 ∧ x.isVoid = true) := by
  refine .of_next (firingIssue_issues hp hk hz hc hr him hf) ?_
  obtain ⟨tl, -, hv, e⟩ := State.issueFiring_void (rest := rest) hkind
  rw [e, State.tile_setTile]
  exact ⟨hv, _, Tile.find_setFiring .., rfl, rfl, rfl, rfl, rfl⟩

theorem firingIssue_chooses {n : Nat} (hkind : (s.tile t).fireKind im sl node i = .choose n) :
    Does (.firingIssue t) s (fun u => ∃ x, (u.tile t).fold.ctxs.find 0 = some x ∧ x.node = node ∧ x.iter = i ∧ x.phase = .emit 0 0 ∧ x.choose = n) := by
  refine .of_next (firingIssue_issues hp hk hz hc hr him hf) ?_
  rw [State.issueFiring_choose hkind, State.tile_setTile]
  exact ⟨_, Tile.find_setFiring .., rfl, rfl, rfl, rfl⟩

theorem firingIssue_acts (h32 : rest.length ≤ 32) (hkind : (s.tile t).fireKind im sl node i = .acts) (hn : (im.node node).actCount = 0) :
    Does (.firingIssue t) s (fun u => (u.tile t).fold.ready.take rest.length = rest ∧ (u.tile t).fold.readySince = none ∧
      ∃ x, (u.tile t).fold.ctxs.find 0 = some x ∧ x.slot = sl ∧ x.node = node ∧ x.iter = i ∧ x.phase = .emit 0 0 ∧ x.isVoid = false) := by
  refine .of_next (firingIssue_issues hp hk hz hc hr him hf) ?_
  rw [State.issueFiring_acts hkind]
  have fold := State.fold_controlRead (s := s) (t := t) (im := im) (sl := sl) (node := node) (i := i)
  generalize hw : s.controlRead t im sl node i = w at fold
  generalize htl : ((w.tile t).taken rest).setFiring 0 (.begun sl node i .issue false 0) = tl
  have ready : tl.fold.ready = rest := by rw [← htl]; rfl
  have image : (tl.slot sl).image = some im := by
    rw [← him, ← htl, ← Tile.slot_of_fold fold]
    rfl
  have ctx : tl.fold.ctxs.find 0 = some (.begun sl node i .issue false 0) := by rw [← htl, Tile.find_setFiring]
  rw [State.runActions_none (x := .begun sl node i .issue false 0) (im := im) (by rw [State.tile_setTile]; exact ctx)
    (by rw [State.tile_setTile]; exact image) hn rfl, State.tile_setTile, State.tile_setTile]
  refine ⟨?_, ?_, _, Tile.find_setFiring .., rfl, rfl, rfl, rfl, rfl⟩
  · have h := Tile.ready_fillReady (tl := tl) (by rw [ready]; exact h32)
    rwa [ready] at h
  · rw [← htl]
    rfl

end
end Sys2Proof.Machine
end

section
/-! PROOFS. Emission of tokens (part of O17). -/

namespace Sys2Proof.Machine

/-! ## Emission (R148, R151) -/

/-- The token that a firing emits from these bytes. -/
def Tile.emitted (tl : Tile) (t : TileId) (im : Image) (x : FCtx) (e j : Nat) (isVoid : Bool) (payload : List Byte) : TokenBody :=
  let k := (im.node x.node).outFirst + e
  let em := nth im.emits k default
  { iteration := (x.iter * em.p + j) / em.c % iterMod, epoch := em.epoch, void := isVoid, node := em.node, port := em.port,
    part := (x.iter * em.p + j) % em.c, len := payload.length / 32, slot := x.slot, emit := k, src := t, srcGen := tl.gen, payload := payload }

/-- The tile that has spent a credit of an emit entry. -/
def Tile.spend (tl : Tile) (sl k : Nat) : Tile :=
  tl.setSlot sl { tl.slot sl with credits := (tl.slot sl).credits.set k (nth (tl.slot sl).credits k 0 - 1) }

theorem Tile.credits_spend {tl : Tile} {sl k : Nat} (hl : k < (tl.slot sl).credits.length) (hn : 0 < nth (tl.slot sl).credits k 0) :
    nth ((tl.spend sl k).slot sl).credits k 0 + 1 = nth (tl.slot sl).credits k 0 := by
  rw [Tile.spend, Tile.slot_setSlot, nth_set hl, Nat.sub_add_cancel hn]

theorem State.fold_sendWriteOf (s : State) (t : TileId) (h : Hdr) (body : Body) (re : Re) (posted : Bool) (iter : Nat) :
    ((s.sendWriteOf t h body re posted iter).tile t).fold = (s.tile t).fold := by
  obtain ⟨y, hy⟩ := s.tile_sendTagged t h body (fun u => { u with writes := u.writes ++
    [⟨(s.tile t).sync.nextTag, (s.tile t).sync.tag, re, writeClass t h, false, posted, h.dst, iter⟩] })
  rw [State.sendWriteOf, hy]

section
variable {s : State} {t : TileId} {im : Image} {c : Nat} {x : FCtx} {e j : Nat}
  (hl : (im.node x.node).outFirst + e < ((s.tile t).slot x.slot).credits.length)
  (hn : 0 < nth ((s.tile t).slot x.slot).credits ((im.node x.node).outFirst + e) 0)
include hl hn

/-- A void token goes out for a credit. -/
theorem State.sendToken_void :
    nth (((s.sendToken t im c x e j none).tile t).slot x.slot).credits ((im.node x.node).outFirst + e) 0 + 1 =
        nth ((s.tile t).slot x.slot).credits ((im.node x.node).outFirst + e) 0 ∧
      Sent (s.sendToken t im c x e j none) (.tile (nth im.emits ((im.node x.node).outFirst + e) default).target)
        (.token ((s.tile t).emitted t im x e j true [])) := by
  refine ⟨?_, State.sent_sendTagged ..⟩
  refine Eq.trans ?_ (Tile.credits_spend hl hn)
  refine congrArg (fun sl : Slot => nth sl.credits ((im.node x.node).outFirst + e) 0 + 1) ?_
  rw [State.sendToken, Tile.slot_of_fold (State.fold_sendWriteOf ..), State.tile_setTile]
  rfl

/-- A token with a payload goes out for a credit, with the bytes of its source. -/
theorem State.sendToken_payload (o n m : Nat) (tagged : Bool) :
    nth (((s.sendToken t im c x e j (some (o, n, m, tagged))).tile t).slot x.slot).credits ((im.node x.node).outFirst + e) 0 + 1 =
        nth ((s.tile t).slot x.slot).credits ((im.node x.node).outFirst + e) 0 ∧
      Sent (s.sendToken t im c x e j (some (o, n, m, tagged))) (.tile (nth im.emits ((im.node x.node).outFirst + e) default).target)
        (.token ((s.tile t).emitted t im x e j false ((s.tile t).get o n))) := by
  have hx := Accessed.read s t 9 o n
  have sent (w : State) (h : Hdr) (b : TokenBody) : Sent (w.sendWriteOf t h (.token b) (.token b) true x.iter) h.dst (.token b) := State.sent_sendTagged ..
  unfold State.sendToken
  dsimp only
  generalize (s.correct t o n).served t 9 o = w at hx
  have body : (w.tile t).emitted t im x e j false ((w.tile t).get o n) = (s.tile t).emitted t im x e j false ((s.tile t).get o n) := by
    rw [hx.get]
    simp only [Tile.emitted, Tile.gen_of_calm (hx.tile t)]
  have taken : (if tagged then (w.tile t).emptyTags o m else w.tile t).fold = (s.tile t).fold := by
    split
    · rw [Tile.fold_emptyTags, Tile.fold_of_calm (hx.tile t)]
    · exact Tile.fold_of_calm (hx.tile t)
  generalize (if tagged then (w.tile t).emptyTags o m else w.tile t) = tl at taken ⊢
  rw [← body]
  refine ⟨?_, sent ..⟩
  rw [← Tile.slot_of_fold taken] at hl hn ⊢
  refine Eq.trans ?_ (Tile.credits_spend hl hn)
  refine congrArg (fun sl : Slot => nth sl.credits ((im.node x.node).outFirst + e) 0 + 1) ?_
  rw [Tile.slot_of_fold (State.fold_sendWriteOf ..), State.tile_setTile]
  rfl

end

section
variable {s : State} {t : TileId} (hp : (s.tile t).present = true) (hk : s.clocked t = true) (hz : (s.tile t).frozen = false) {c e j : Nat} {x : FCtx}
  {im : Image} {em : EmitE} (hx : (s.tile t).fold.ctxs.find c = some x) (hph : x.phase = .emit e j) (him : ((s.tile t).slot x.slot).image = some im)
  (hkind : (im.node x.node).kind = 0 ∨ (im.node x.node).kind = 3) (he : e < (im.node x.node).outCount) (hh : (s.tile t).holdsFor x im = false)
  (hem : nth im.emits ((im.node x.node).outFirst + e) default = em)
include hp hk hz hx hph him he hh

theorem tokenEmit_stalls (h0 : nth ((s.tile t).slot x.slot).credits ((im.node x.node).outFirst + e) 0 = 0) :
    Does (.tokenEmit t c) s (fun u => (u.tile t).fold.ctxs.find c = some { x with since := some (x.since.getD (s.run t)) }) := by
  have hdo : exec (.tokenEmit t c) s = execTokenEmit t c s := rfl
  simp only [execTokenEmit, State.tokenEmit, hp, hk, hz, hx, hph, him, hh, h0, Nat.not_le.mpr he, Bool.and_self, Bool.not_true, Bool.or_self,
    Bool.false_eq_true, if_false, decide_true, Bool.true_or, if_true] at hdo
  refine .of_next hdo ?_
  rw [State.tile_setTile, hph]
  exact Tile.find_setFiring ..

variable (hl : (im.node x.node).outFirst + e < ((s.tile t).slot x.slot).credits.length) (hw : (s.tile t).sync.writes.length < 65535)
  (hn : 0 < nth ((s.tile t).slot x.slot).credits ((im.node x.node).outFirst + e) 0)
include hkind hem hl hw hn

omit hkind in
theorem tokenEmit_void (hv : x.isVoid = true) :
    Does (.tokenEmit t c) s (fun u =>
      nth ((u.tile t).slot x.slot).credits ((im.node x.node).outFirst + e) 0 + 1 =
        nth ((s.tile t).slot x.slot).credits ((im.node x.node).outFirst + e) 0 ∧
      ∃ b, Sent u (.tile em.target) (.token b) ∧ b.iteration = (x.iter * em.p + j) / em.c % iterMod ∧ b.part = (x.iter * em.p + j) % em.c ∧
        b.void = true ∧ b.len = 0 ∧ b.payload = []) := by
  have hdo : exec (.tokenEmit t c) s = execTokenEmit t c s := rfl
  have src : (s.tile t).emitSource im x e j = none := by simp only [Tile.emitSource, hv, if_true]
  have room := State.mayWrite_of_lt hw { src := .tile t, dst := .tile em.target, dstGen := 0, tag := 0 }
  simp only [execTokenEmit, State.tokenEmit, hp, hk, hz, hx, hph, him, hh, hem, src, room, hv, Nat.ne_of_gt hn, Nat.not_le.mpr he, Bool.and_self,
    Bool.not_true, Bool.or_self, Bool.false_eq_true, if_false, decide_false, Bool.false_and, Option.bind_none] at hdo
  refine .of_next hdo ?_
  obtain ⟨hcred, hsent⟩ := State.sendToken_void (t := t) (c := c) (j := j) hl hn
  rw [hem] at hsent
  refine ⟨hcred, _, hsent, ?_⟩
  simp only [Tile.emitted, hem]
  exact ⟨trivial, trivial, trivial, rfl, trivial⟩

theorem tokenEmit_payload (hv : x.isVoid = false) (hval : ((s.tile t).handle em.srcHandle).valid = true) (hdep : em.srcDepth ≠ 0)
    (hfull : ((s.tile t).handle em.srcHandle).tagged = false ∨ em.len = 0 ∨
      (s.tile t).mem.isFull (((s.tile t).handle em.srcHandle).slotAt (em.srcBase + (x.iter * em.p + j) % em.srcDepth)) = true)
    (hhit : (s.tile t).mem.hit (((s.tile t).handle em.srcHandle).slotAt (em.srcBase + (x.iter * em.p + j) % em.srcDepth)) (32 * em.len) = none) :
    Does (.tokenEmit t c) s (fun u =>
      nth ((u.tile t).slot x.slot).credits ((im.node x.node).outFirst + e) 0 + 1 =
        nth ((s.tile t).slot x.slot).credits ((im.node x.node).outFirst + e) 0 ∧
      ∃ b, Sent u (.tile em.target) (.token b) ∧ b.iteration = (x.iter * em.p + j) / em.c % iterMod ∧ b.part = (x.iter * em.p + j) % em.c ∧
        b.epoch = em.epoch ∧ b.node = em.node ∧ b.port = em.port ∧ b.void = false ∧ b.len = em.len ∧ b.src = t ∧ b.srcGen = (s.tile t).gen ∧
        b.payload = (s.tile t).get (((s.tile t).handle em.srcHandle).slotAt (em.srcBase + (x.iter * em.p + j) % em.srcDepth)) (32 * em.len)) := by
  have hdo : exec (.tokenEmit t c) s = execTokenEmit t c s := rfl
  have k1 : (im.node x.node).kind ≠ 1 := by omega
  have k2 : (im.node x.node).kind ≠ 2 := by omega
  generalize ho : ((s.tile t).handle em.srcHandle).slotAt (em.srcBase + (x.iter * em.p + j) % em.srcDepth) = o at hfull hhit ⊢
  have src : (s.tile t).emitSource im x e j =
      some (o, 32 * em.len, ((s.tile t).handle em.srcHandle).slotBytes, ((s.tile t).handle em.srcHandle).tagged && !(em.len == 0)) := by
    simp only [Tile.emitSource, hv, k1, k2, hem, hdep, Bool.false_eq_true, if_false, ho]
  have full : (!(((s.tile t).handle em.srcHandle).tagged && !(em.len == 0)) || (s.tile t).mem.isFull o) = true := by
    rcases hfull with h | h | h <;> simp [h]
  have room := State.mayWrite_of_lt hw { src := .tile t, dst := .tile em.target, dstGen := 0, tag := 0 }
  simp only [execTokenEmit, State.tokenEmit, hp, hk, hz, hx, hph, him, hh, hem, src, full, room, hval, hhit, Nat.ne_of_gt hn, Nat.not_le.mpr he,
    Bool.and_self, Bool.not_true, Bool.or_self, Bool.false_eq_true, if_false, decide_false, Bool.and_false, Option.bind_some] at hdo
  refine .of_next hdo ?_
  obtain ⟨hcred, hsent⟩ := State.sendToken_payload (t := t) (c := c) (j := j) hl hn o (32 * em.len) ((s.tile t).handle em.srcHandle).slotBytes
    (((s.tile t).handle em.srcHandle).tagged && !(em.len == 0))
  rw [hem] at hsent
  have len : ((s.tile t).get o (32 * em.len)).length / 32 = em.len := by
    rw [Tile.get, TileMem.get, Memory.length_readN, Nat.mul_div_cancel_left _ (by decide)]
  refine ⟨hcred, _, hsent, ?_⟩
  simp only [Tile.emitted, hem, len, and_self]

end
end Sys2Proof.Machine
end

section
/-! PROOFS. Completion of firings, and the fire unit (O17). -/

namespace Sys2Proof.Machine

/-! ## Completion (R151) -/

/-- What a fire unit's binding of tokens leaves as it is: the firings and the slots. -/
def State.firings (s : State) (t : TileId) : Tab FCtx × Tab Slot := ((s.tile t).fold.ctxs, (s.tile t).fold.slots)

theorem Tile.fold_landToken (tl : Tile) (sl : Nat) (im : Image) (b : TokenBody) (now : Nat) :
    (tl.landToken sl im b now).fold.ctxs = tl.fold.ctxs ∧ (tl.landToken sl im b now).fold.slots = tl.fold.slots := by
  unfold Tile.landToken
  dsimp only
  split
  · exact ⟨rfl, rfl⟩
  · split <;> exact ⟨rfl, rfl⟩

section
variable {t : TileId} {dst : Endp} {body : Body}

/-- One unbound token finds its slot, is rejected, or stays. -/
def State.bindToken (t : TileId) (s : State) (k : Tok) : State :=
  let tl := s.tile t
  let out : Tile := { tl with fold := { tl.fold with store := tl.fold.store.erase k } }
  match out.tokenFate k.body with
  | .land sl im => s.setTile t (out.landToken sl im k.body s.time)
  | .reject => ((s.setTile t out).tokenCredit t k.body).event (fieldOf t) 0x0781 [tileDetail t, tileDetail k.body.src, k.body.emit]
  | .keepUnbound | .retry => s

theorem State.bindTokens_eq (s : State) (t : TileId) (epoch : Nat) : s.bindTokens t epoch =
    (sortBy tokenLe ((s.tile t).fold.store.filter (fun k => k.slot.isNone && k.body.epoch == epoch))).foldl (State.bindToken t) s := by
  unfold State.bindTokens
  dsimp only
  generalize sortBy tokenLe _ = l
  rfl

theorem State.firings_bindToken (s : State) (k : Tok) : (s.bindToken t k).firings t = s.firings t := by
  unfold State.bindToken
  dsimp only
  split
  · rw [State.firings, State.tile_setTile, (Tile.fold_landToken ..).1, (Tile.fold_landToken ..).2]
    rfl
  · rw [State.firings, State.tile_event, State.tile_tokenCredit, State.tile_setTile]
    rfl
  · rfl
  · rfl

theorem Sent.bindToken {s : State} (h : Sent s dst body) (k : Tok) : Sent (s.bindToken t k) dst body := by
  unfold State.bindToken
  dsimp only
  split
  · exact Sent.setTile h
  · exact Sent.event (Sent.tokenCredit (Sent.setTile h)) ..
  · exact h
  · exact h

/-- What one step keeps of a packet sent, its repetition keeps. -/
theorem Sent.foldl {α : Type} {g : State → α → State} (hg : ∀ s x, Sent s dst body → Sent (g s x) dst body) :
    ∀ (l : List α) (s : State), Sent s dst body → Sent (l.foldl g s) dst body
  | [], _, h => h
  | x :: l, s, h => Sent.foldl hg l (g s x) (hg s x h)

theorem State.firings_bindTokens (s : State) (epoch : Nat) : (s.bindTokens t epoch).firings t = s.firings t := by
  rw [State.bindTokens_eq]
  exact foldl_keeps (fun s : State => s.firings t) (State.bindToken t) (fun s k => s.firings_bindToken k) _ s

theorem Sent.bindTokens {s : State} (h : Sent s dst body) (epoch : Nat) : Sent (s.bindTokens t epoch) dst body := by
  rw [State.bindTokens_eq]
  exact Sent.foldl (fun s k h => h.bindToken k) _ s h

/-- One slot's unbound tokens are bound. -/
def State.bindSlot (t : TileId) (s : State) (i : Nat) : State :=
  match ((s.tile t).slot i).image with
  | some im => s.bindTokens t im.epoch
  | none => s

theorem State.bindAll_eq (s : State) (t : TileId) : s.bindAll t = (upto 8).foldl (State.bindSlot t) s := by
  unfold State.bindAll
  generalize upto 8 = l
  rfl

theorem State.firings_bindAll (s : State) : (s.bindAll t).firings t = s.firings t := by
  rw [State.bindAll_eq]
  refine foldl_keeps (fun s : State => s.firings t) (State.bindSlot t) (fun s i => ?_) _ s
  unfold State.bindSlot
  split
  · exact s.firings_bindTokens _
  · rfl

theorem Sent.bindAll {s : State} (h : Sent s dst body) : Sent (s.bindAll t) dst body := by
  rw [State.bindAll_eq]
  refine Sent.foldl (fun s i h => ?_) _ s h
  unfold State.bindSlot
  split
  · exact h.bindTokens _
  · exact h

end

section
variable {s : State} {t : TileId}

/-- Emptying landing slots moves nothing of the fire unit or the fault record. -/
theorem Tile.emptySlots_rest (ps : List (Nat × Nat × Bool)) (tl : Tile) :
    (ps.foldl (fun y p => if p.2.2 then y.emptyTags p.1 p.2.1 else y) tl).fold = tl.fold ∧
      (ps.foldl (fun y p => if p.2.2 then y.emptyTags p.1 p.2.1 else y) tl).frozen = tl.frozen := by
  have h := foldl_keeps (fun y : Tile => (y.fold, y.frozen)) (fun y p => if p.2.2 then y.emptyTags p.1 p.2.1 else y) (fun y p => by
    split
    · obtain ⟨m, q, e, -⟩ := y.emptyTags_rest p.1 p.2.1
      rw [e]
      rfl
    · rfl) ps tl
  exact ⟨congrArg Prod.fst h, congrArg Prod.snd h⟩

/-- Released inputs: the firings and slots stand, and each token's credit is on its way. -/
theorem State.releaseInputs_spec (hz : (s.tile t).frozen = false) (im : Image) (x : FCtx) : (s.releaseInputs t im x).firings t = s.firings t ∧
    ∀ k ∈ (s.tile t).fold.tokensOf x.slot x.node x.iter,
      Sent (s.releaseInputs t im x) (.tile k.body.src) (.tokenCredit k.body.slot k.body.emit) := by
  obtain ⟨hf, hfr⟩ := Tile.emptySlots_rest ((s.tile t).firingSlots im x.slot x.node x.iter) (s.tile t)
  unfold State.releaseInputs
  dsimp only
  generalize ((s.tile t).firingSlots im x.slot x.node x.iter).foldl _ (s.tile t) = tl at hf hfr
  generalize (s.tile t).fold.tokensOf x.slot x.node x.iter = ks
  generalize hw : s.setTile t { tl with fold := { tl.fold with store := tl.fold.store.filter (fun k => !ks.contains k) } } = w
  have tile : w.tile t = { tl with fold := { tl.fold with store := tl.fold.store.filter (fun k => !ks.contains k) } } := by rw [← hw, State.tile_setTile]
  have frozen : (w.tile t).frozen = false := by rw [tile]; exact hfr.trans hz
  have kept : (ks.foldl (fun s k => s.tokenCredit t k.body) w).tile t = w.tile t :=
    foldl_keeps (fun s : State => s.tile t) (fun s k => s.tokenCredit t k.body) (fun s k => State.tile_tokenCredit ..) ks w
  constructor
  · rw [State.firings, kept, tile, State.firings, ← hf]
  · intro k hk
    have sent := foldl_each (P := fun (s : State) (k : Tok) => (s.tile t).frozen = false → Sent s (.tile k.body.src) (.tokenCredit k.body.slot k.body.emit))
      (fun s k => s.tokenCredit t k.body)
      (fun s k h => State.sent_tokenCredit (by rwa [State.tile_tokenCredit] at h) k.body)
      (fun s k k' h h' => (h (by rwa [State.tile_tokenCredit] at h')).tokenCredit) ks w k hk
    exact sent (by rw [kept]; exact frozen)

variable (hp : (s.tile t).present = true) (hk : s.clocked t = true) (hz : (s.tile t).frozen = false)
include hp hk hz

theorem firingComplete_frees {c : Nat} {x : FCtx} {im : Image} (hx : (s.tile t).fold.ctxs.find c = some x) (hph : x.phase = .completing)
    (him : ((s.tile t).slot x.slot).image = some im) (hh : (s.tile t).holdsFor x im = false) :
    Does (.firingComplete t c) s (fun u => (u.tile t).fold.ctxs.find c = none ∧
      ((u.tile t).slot x.slot).firings = ((s.tile t).slot x.slot).firings + 1 ∧
      ∀ k ∈ (s.tile t).fold.tokensOf x.slot x.node x.iter, Sent u (.tile k.body.src) (.tokenCredit k.body.slot k.body.emit)) := by
  have hdo : exec (.firingComplete t c) s = execFiringComplete t c s := rfl
  simp only [execFiringComplete, hp, hk, hz, hx, him, hph, hh, Bool.and_self, Bool.not_true, Bool.or_self, Bool.false_eq_true, if_false] at hdo
  refine .of_next hdo ?_
  obtain ⟨hfir, hsent⟩ := State.releaseInputs_spec hz im x
  generalize s.releaseInputs t im x = w at hfir hsent
  generalize hv : w.modTile t _ = v
  have tile : (v.tile t).fold.ctxs.find c = none ∧ ((v.tile t).slot x.slot).firings = ((w.tile t).slot x.slot).firings + 1 := by
    rw [← hv, State.tile_modTile]
    exact ⟨Tab.find_erase .., congrArg Slot.firings (Tab.getD_put_same ..)⟩
  have vsent : ∀ k ∈ (s.tile t).fold.tokensOf x.slot x.node x.iter, Sent v (.tile k.body.src) (.tokenCredit k.body.slot k.body.emit) := fun k h => by
    rw [← hv]
    exact (hsent k h).modTile
  have bound := State.firings_bindAll (t := t) v
  generalize hb : v.bindAll t = b at bound
  have bsent : ∀ k ∈ (s.tile t).fold.tokensOf x.slot x.node x.iter, Sent b (.tile k.body.src) (.tokenCredit k.body.slot k.body.emit) := fun k h => by
    rw [← hb]
    exact (vsent k h).bindAll
  generalize hl : List.filter _ _ = l
  have signals : (l.foldl (fun s a => s.signalLocal t 26 (a.arg % 16) 1) b).firings t = b.firings t :=
    foldl_keeps (fun s : State => s.firings t) (fun s (a : ActionE) => s.signalLocal t 26 (a.arg % 16) 1) (fun s a => by
      obtain ⟨y, z, q, e⟩ := s.sameButCore_signalLocal t 26 (a.arg % 16) 1
      rw [State.firings, e, State.firings]) l b
  have all := signals.trans bound
  simp only [State.firings, Prod.mk.injEq] at all hfir
  refine ⟨?_, ?_, fun k h => ?_⟩
  · rw [all.1]
    exact tile.1
  · rw [Tile.slot, all.2, ← Tile.slot, tile.2, Tile.slot, hfir.2, ← Tile.slot]
  · exact Sent.foldl (fun s a h => h.of_mesh (State.mesh_signalLocal ..)) l b (bsent k h)

end

/-- Settles O17: tokens and credits as they arrive, and each step of the fire unit. -/
theorem tokensAndFirings : Obligations.TokensAndFirings := by
  unfold Obligations.TokensAndFirings
  intro s t hp hk hz
  refine ⟨fun h b hd ha => ⟨token_lost hk hd ha, fun ht => ⟨fun hs hu hl => token_kept hk hd ha ht (Tile.tokenFate_unbound hs hu hl),
      fun sl im hs => ⟨fun hf hw hl hfree => token_lands hk hd ha ht (Tile.tokenFate_land hs hf hw hl hfree),
        fun hf hw => token_retried hk hd ha ht (Tile.tokenFate_retry hs hf hw),
        fun hf => token_rejected hk hd ha ht hz (Tile.tokenFate_reject hs hf)⟩⟩⟩,
    fun h slot emit hd ha => ⟨tokenCredit_returns hp hk hd ha, tokenCredit_stale hk hd ha⟩,
    fun i k lim => tokenOrphan_discards hk hz, fun i k => tokenRetry_resends hp hk hz,
    fun sl node i rest im hc hr h32 him => ⟨fun hf => ⟨firingIssue_acts hp hk hz hc hr him hf h32, firingIssue_void hp hk hz hc hr him hf,
        fun n => firingIssue_chooses hp hk hz hc hr him hf, firingIssue_conflict hp hk hz hc hr him hf⟩, firingIssue_stalls hp hk hz hc hr him⟩,
    fun c x e j im em hx hph him hkind he hh hem hl => ⟨fun hw hn => ⟨tokenEmit_payload hp hk hz hx hph him hkind he hh hem hl hw hn,
        tokenEmit_void hp hk hz hx hph him he hh hem hl hw hn⟩, tokenEmit_stalls hp hk hz hx hph him he hh⟩,
    fun c x im => firingComplete_frees hp hk hz, fun slot node im => sourceFire_fires hp hk hz, fun n => scheduleMove_moves hp hk,
    fun tgt at_ => switchAt_takes hp hk,
    fun hon hat hdue => ⟨profileSample_written hp hk hon hat hdue, profileSample_dropped hp hk hon hat hdue⟩,
    fun w slot n => slotArm_adds⟩

end Sys2Proof.Machine
end
